-- ==== Sys2Proof/Word.lean ====
section
/-! DEFINITION. The word types of the Krovuedom model and their plainest arithmetic:
bytes, 32-bit words and 64-bit register words, bit fields of a word, little-endian
byte lists (spec R9). -/

namespace Sys2Proof

/-- A byte of memory or of a message. -/
abbrev Byte := BitVec 8

/-- A 32-bit word of a tile, a record or a message (R25, R175). -/
abbrev W32 := BitVec 32

/-- A 64-bit register (R311). -/
abbrev W64 := BitVec 64

end Sys2Proof
end

