-- ==== Sys2Proof/Syntax.lean ====
section
/-! DEFINITION. The commands of the block: the packets and operands they carry, and `Instr`,
one constructor for each row of the table of operations and events. -/

namespace Sys2Proof

/-- A tile number (R18). -/
abbrev TileId := Fin 4608
/-- A cluster number (R19). -/
abbrev ClusterId := Fin 288
/-- A context number. -/
abbrev CtxId := Fin 256
/-- A queue number of a tile. -/
abbrev QueueId := Fin 256
/-- A Parith port (R22). -/
abbrev PortId := Fin 14
/-- A port whose link layer is that of R241–R245: a Parith port, or the Gorbin port (R286). -/
inductive LinkId where
  | parith (p : PortId)
  | gorbin
  deriving DecidableEq, Repr
/-- A boundary FIFO toward the mesh (R34): of a Parith port, of the Gorbin port (14) or of Hornbeam (15). -/
abbrev BoundaryId := Fin 16
/-- An LPDDR6 controller (R265). -/
abbrev CtlId := Fin 24
/-- An LPDDR6 channel (R265). -/
abbrev ChanId := Fin 96
/-- An interrupt source (R323). -/
abbrev SourceId := Fin 512

/-- Who performs a register or management access (R484). -/
inductive Agent where
  | companion | hornbeam | hawthorn | yew | bmc
  deriving DecidableEq, Repr

/-- A message header (R175), field by field; `rsv4` and `rsv5` hold the reserved bits of words 4 and 5. -/
structure Header where
  dst : Nat
  creditEpoch : Nat
  context : Nat
  handler : Nat
  vc : Nat
  len : Nat
  src : Nat
  ctxEpoch : Nat
  linkSeq : Nat
  payLen : Nat
  stepTag : Nat
  rsv4 : Nat
  rsv5 : Nat
  mgmt : Bool
  pad : Bool
  prov : Bool
  deriving DecidableEq, Repr

/-- A message: header and payload bytes (R175). -/
structure Msg where
  hdr : Header
  pay : List Byte
  deriving DecidableEq, Repr

/-- A control packet (R211): the common header and payload words 4–15; `transit` is TRANSIT and HOP of
R249 (bits 8 and [7:0]). -/
structure Ctrl where
  type : Nat
  mcast : Bool
  dstTile : Nat
  dstDev : Nat
  group : Nat
  srcDev : Nat
  srcTile : Nat
  ctxEpoch : Nat
  context : Nat
  round : Nat
  words : List Nat
  transit : Nat := 0
  deriving DecidableEq, Repr

/-- A reduction packet (R223), with TRANSIT and HOP of R249. -/
structure Red where
  value : Nat
  dst : Nat
  ctxEpoch : Nat
  context : Nat
  redId : Nat
  elem : Nat
  contrib : Nat
  total : Nat
  kind : Nat
  trunc : Bool
  inv : Bool
  ovf : Bool
  residue : Nat
  rmode : Nat
  anchor : Int
  stepTag : Nat
  partIndex : Nat
  transit : Nat := 0
  deriving DecidableEq, Repr

/-- A firmware packet (R414): the head flit's fields and the 512 B piece of a data packet. -/
structure FwPkt where
  dst : Nat
  mcast : Bool
  group : Nat
  chunk : Nat
  pull : Bool
  piece : Nat
  src : Nat
  hash : Nat
  data : List Byte
  deriving DecidableEq, Repr

/-- The packets of the mesh and the fabric (R210, R414). -/
inductive Pkt where
  | msg (m : Msg)
  | ctrl (c : Ctrl)
  | red (r : Red)
  | fw (f : FwPkt)
  deriving DecidableEq, Repr


/-- The header of a Gorbin transaction (R290): opcode, tag, LEN, ADDR, STATUS, and the reserved bits
of words 0, 2 and 3 together. -/
structure GbHdr where
  opc : Nat
  tag : Nat
  len : Nat
  addr : Nat
  status : Nat
  rsv : Nat
  deriving DecidableEq, Repr

/-- The commands of the block: one constructor for each row of the table of operations and events. -/
inductive Instr where
  /-- Release of module reset starts Device Time at 0 and begins bring-up. (R36) -/
  | moduleResetRelease
  /-- At the end of each 1,000 ns window the pace sensor publishes its tile and router replica counts to the cluster page. (R28) -/
  | paceWindowEnd (c : ClusterId) (tile router : Fin 1048576)
  /-- A read of CL_PACE_EXT returns its fields and resets them to their reset values. (R30) -/
  | clPaceExtRead (a : Agent) (c : ClusterId)
  /-- A held entry enters a full boundary FIFO once a slot frees. (R33) -/
  | boundaryFifoSlotFree (b : BoundaryId)
  /-- Scruple completes the residue and parity checks of an accumulation and reports any mismatch before releasing the checks-clean bit. (R68) -/
  | scrupleCheck (t : TileId) (flaws : List (Nat × Nat × Nat))
  /-- A write of 1 to SCR_INJECT takes effect only under an open D2 or D3 session or in MANUFACTURE or RETURNED. (R73) -/
  | scrInjectWrite (a : Agent) (t : TileId) (v : W64)
  /-- A T or V configuration record written to a shadow slot is checked field by field and refused with a 0x02 code if it fails. (R85) -/
  | cfgRecordWrite (a : Agent) (t : TileId) (slot : Fin 8) (w : List W32)
  /-- A T activation of OP NOP takes one step with no effect. (R84) -/
  | tNop (t : TileId)
  /-- A T activation accumulates A × B into the accumulator range and emits unless KEEP is 1. (R86) -/
  | mma (t : TileId)
  /-- A T activation converts its accumulator range to OUT_FMT and sends it by OUT_MODE. (R84) -/
  | emit (t : TileId)
  /-- A T activation sets its accumulator range to zero with flags and residues cleared. (R84) -/
  | clear (t : TileId)
  /-- A T activation loads FWS records from the operand buffer into its accumulator range. (R84) -/
  | loadAcc (t : TileId)
  /-- An activation waiting for an absent operand resumes when the operand is present in the buffer. (R86) -/
  | operandArrival (t : TileId)
  /-- A write into the operand buffer takes a bank port when no operand read needs it, or ahead of reads after 16 steps. (R82) -/
  | bufferWritePort (t : TileId)
  /-- A V activation of operation NOP. (R87) -/
  | vNop (t : TileId)
  /-- A V activation adds rows elementwise and rounds once to OUT_FMT. (R88) -/
  | vAdd (t : TileId)
  /-- A V activation subtracts rows elementwise. (R88) -/
  | vSub (t : TileId)
  /-- A V activation multiplies rows elementwise. (R88) -/
  | vMul (t : TileId)
  /-- A V activation takes the IEEE maximum elementwise. (R88) -/
  | vMax (t : TileId)
  /-- A V activation takes the IEEE minimum elementwise. (R88) -/
  | vMin (t : TileId)
  /-- A V activation takes absolute values elementwise. (R88) -/
  | vAbs (t : TileId)
  /-- A V activation negates values elementwise. (R88) -/
  | vNeg (t : TileId)
  /-- A V activation converts IN_FMT to OUT_FMT by R59 and R63. (R522) -/
  | cvt (t : TileId)
  /-- A V activation quantises rows into MX blocks. (R64) -/
  | quant (t : TileId)
  /-- A V activation computes the correctly rounded base-2 exponential. (R89) -/
  | exp2 (t : TileId)
  /-- A V activation computes the correctly rounded base-2 logarithm. (R89) -/
  | log2 (t : TileId)
  /-- A V activation computes the correctly rounded reciprocal. (R89) -/
  | rcp (t : TileId)
  /-- A V activation computes the correctly rounded reciprocal square root. (R89) -/
  | rsqrt (t : TileId)
  /-- A V activation computes the correctly rounded hyperbolic tangent. (R89) -/
  | tanh (t : TileId)
  /-- A V activation computes the correctly rounded logistic function. (R89) -/
  | logistic (t : TileId)
  /-- A V activation sums each row as B32, FWS or INT and sends by TOKEN or PARTIAL. (R90) -/
  | rsum (t : TileId)
  /-- A V activation returns each row's maximum. (R90) -/
  | rmax (t : TileId)
  /-- A V activation returns each row's minimum. (R90) -/
  | rmin (t : TileId)
  /-- A V activation returns the index of each row's maximum. (R90) -/
  | rargmax (t : TileId)
  /-- A V activation returns the K largest value-index pairs of each row, or merges lists with MERGE set. (R91) -/
  | topk (t : TileId)
  /-- A V activation draws one index per row from a TOPK list with Philox and its parameter entry. (R96) -/
  | sample (t : TileId)
  /-- A message to an S-tile descriptor queue delivers PAY_LEN div 64 descriptors to the channel, counting stray bytes. (R99) -/
  | descriptorMessage (t : TileId) (ch : Fin 4)
  /-- A descriptor of OP NOP runs no element and completes with status 0. (R104) -/
  | dmaNop (t : TileId) (ch : Fin 4)
  /-- A DMA descriptor moves and optionally converts COUNT2 × COUNT1 rows of elements. (R101) -/
  | dmaCopy (t : TileId) (ch : Fin 4) (n : Nat)
  /-- A DMA descriptor copies elements from indexed source positions. (R102) -/
  | dmaGather (t : TileId) (ch : Fin 4) (n : Nat)
  /-- A DMA descriptor copies elements to indexed destination positions. (R102) -/
  | dmaScatter (t : TileId) (ch : Fin 4) (n : Nat)
  /-- A DMA descriptor adds 32-bit source elements indivisibly into indexed target words. (R102) -/
  | dmaScatterAdd (t : TileId) (ch : Fin 4) (n : Nat)
  /-- A DMA descriptor writes a 32-bit pattern to COUNT0 elements. (R101) -/
  | dmaFill (t : TileId) (ch : Fin 4) (n : Nat)
  /-- A write of HALT stops the current descriptor at the next element boundary with code 0x020C and starts no other. (R107) -/
  | dmaHalt (a : Agent) (t : TileId) (ch : Fin 4) (enable : Bool)
  /-- A write of ENABLE lets the channel start descriptors, or stops new starts when 0. (R107) -/
  | dmaEnable (a : Agent) (t : TileId) (ch : Fin 4) (enable : Bool)
  /-- A configuration of the current fold entry begins an activation by taking a trigger token from its queue head. (R112) -/
  | activationStart (t : TileId)
  /-- A token reaching its queue head is compared with the tile's SET and EPOCH and consumed, held or removed as stale. (R115) -/
  | tokenAtHead (t : TileId) (q : QueueId)
  /-- An activation whose last output is emitted and checked completes, and the fold schedule counts it. (R118) -/
  | activationComplete (t : TileId)
  /-- A steering unit sends an IN0 token to the output a control value selects. (R121) -/
  | steerSwitch (t : TileId) (u : Fin 8)
  /-- A steering unit sends the token of the input a control value selects to OUT0. (R121) -/
  | steerMerge (t : TileId) (u : Fin 8)
  /-- A steering unit passes or discards an IN0 token by a control value. (R121) -/
  | steerGate (t : TileId) (u : Fin 8)
  /-- A steering unit takes one token from every input and sends IN0's to OUT0. (R121) -/
  | steerJoin (t : TileId) (u : Fin 8)
  /-- A steering unit copies an IN0 token to every output. (R121) -/
  | steerReplicate (t : TileId) (u : Fin 8)
  /-- A write to a shadow slot, schedule or steering entry is checked and ignored from STOP until COMMIT or CANCEL. (R126) -/
  | shadowWrite (a : Agent) (t : TileId) (off : Fin 4096) (v : W64)
  /-- A STOP command moves a tile to DRAINING or FLUSHING and checks its shadow copies. (R128) -/
  | stop (t : TileId) (p : Ctrl)
  /-- A PROBE makes each tile report idle state, SHADOW_BAD and its INJ and DLV counts up the tree. (R131) -/
  | probe (t : TileId) (p : Ctrl)
  /-- At each 1 µs window after STOP Hornbeam sends a PROBE and, on quiescence, COMMIT or, on SHADOW_BAD, CANCEL. (R131) -/
  | probeRound (set : Fin 256) (root : TileId) (reply : Option Ctrl)
  /-- A COMMIT makes a draining tile adopt its shadow copies, SET and EPOCH and resume at fold entry 0. (R128) -/
  | commitSet (t : TileId) (p : Ctrl)
  /-- A CANCEL returns a draining tile to its old configuration, or IDLE. (R128) -/
  | cancelSet (t : TileId) (p : Ctrl)
  /-- A RELEASE invalidates a draining tile's active slots, schedule and steering and clears SET and EPOCH. (R128) -/
  | releaseSet (t : TileId) (p : Ctrl)
  /-- A RUN-mode drain not quiescent by its limit hands the set's contexts to Bramble as a hang. (R132) -/
  | drainTimeout (set : Fin 256)
  /-- A FLUSH-mode drain not quiescent by its limit fences non-idle tiles and re-places the set. (R132) -/
  | flushTimeout (set : Fin 256)
  /-- Hornbeam places a set image onto tiles, folding configurations and renumbering queues. (R135) -/
  | setLoad (image : Nat) (group : Fin 4096) (cfgs steers renum : List (Nat × Nat))
  /-- At each 1 µs window the telemetry sampler writes one depth entry per watched queue to the ring. (R137) -/
  | tsSampleWindow
  /-- A scratchpad read decodes each word or pair and delivers, corrects or withholds it. (R149) -/
  | scratchpadRead (a : Agent) (c : Option CtxId) (t : TileId) (b len : Nat) (code : Fin 8) (flips : List (Nat × Nat))
  /-- A scratchpad write stores words, doing read-modify-write for partial code units. (R151) -/
  | scratchpadWrite (a : Agent) (c : Option CtxId) (t : TileId) (b : Nat) (data : List Byte) (code : Fin 8) (flips : List (Nat × Nat))
  /-- A corrected row is written back at the next step the bank has no foreground access. (R152) -/
  | writeBack (t : TileId) (w : Nat)
  /-- The scrubber reads a row in left-over cycles, writes back correctable data and records failures. (R153) -/
  | scrubRow (t : TileId) (flips : List (Nat × Nat))
  /-- A scrub pass begins at each multiple of SCRUB_PERIOD. (R154) -/
  | scrubPassStart (t : TileId)
  /-- A scrub pass not finished by its window end sets LATE and writes record 0x040D. (R154) -/
  | scrubLate (t : TileId)
  /-- A write of SP_CTRL.MODE switches MAINT and SERVICE and invalidates the left mode's regions. (R155) -/
  | modeChange (a : Agent) (t : TileId) (mode : Fin 4)
  /-- A guarded write of RES_CTX binds or unbinds a residence slot, invalidating its regions when it changes. (R157) -/
  | resCtxSet (a : Agent) (t : TileId) (r : Fin 8) (v : W64)
  /-- A guarded region register write is checked when VALID becomes 1 and ignored if it breaks R156. (R157) -/
  | rgnWriteReg (a : Agent) (t : TileId) (r : Fin 8) (j : Fin 16) (k : Fin 3) (v : W64)
  /-- Tags of a newly valid tagged region finish being set EMPTY and waiting accesses proceed. (R157) -/
  | tagInitComplete (t : TileId) (r : Fin 8) (j : Fin 16)
  /-- A guarded write of CIRC_n_CFG configures a circular region and resets its head and tail. (R161) -/
  | circCfgSet (a : Agent) (t : TileId) (n : Fin 4) (v : W64)
  /-- A write to a circular region appends at the tail, waiting for space. (R161) -/
  | circWrite (a : Agent) (t : TileId) (n : Fin 4) (data : List W32)
  /-- A read of a circular region takes words from the head, waiting for data. (R161) -/
  | circRead (a : Agent) (t : TileId) (n : Fin 4) (words : Nat)
  /-- An untagged or circular read access. (R162) -/
  | spRd (a : Agent) (c : Option CtxId) (t : TileId) (w n : Nat) (circ : Option (Fin 4))
  /-- An untagged or circular write access. (R162) -/
  | spWr (a : Agent) (c : Option CtxId) (t : TileId) (w : Nat) (data : List W32) (circ : Option (Fin 4))
  /-- A non-consuming tagged read that waits until FULL. (R162) -/
  | spRdFull (a : Agent) (c : Option CtxId) (t : TileId) (w n : Nat)
  /-- A consuming tagged read that waits until FULL and sets the slot EMPTY. (R162) -/
  | spRdTake (a : Agent) (c : Option CtxId) (t : TileId) (w n : Nat)
  /-- A tagged write that waits until EMPTY and sets the slot FULL after its last word. (R162) -/
  | spWrFill (a : Agent) (c : Option CtxId) (t : TileId) (w : Nat) (data : List W32)
  /-- A tagged access that sets the slot EMPTY without moving data. (R162) -/
  | spClrTag (a : Agent) (c : Option CtxId) (t : TileId) (w n : Nat)
  /-- A slot changing FULL or EMPTY serves its oldest waiting readers or writer. (R164) -/
  | waiterServed (t : TileId) (w : Nat)
  /-- A tagged access held at a crossbar port for a full waiter table proceeds when room frees. (R165) -/
  | waiterTableRoom (t : TileId) (b : Fin 32)
  /-- A write of BANK_PWR requests bank states, refusing OFF for a mapped bank. (R170) -/
  | bankPwrSet (a : Agent) (t : TileId) (v : W64)
  /-- A bank completes its entry to RET or OFF, or its wake to ON. (R169) -/
  | bankStateReached (t : TileId) (b : Fin 32)
  /-- An access to a RET bank wakes it and holds the access until ON. (R171) -/
  | bankWake (t : TileId) (b : Fin 32)
  /-- A woken bank returns to its requested state 4,000 ns after its last access. (R171) -/
  | bankIdleReturn (t : TileId) (b : Fin 32)
  /-- A unit sends a message, taking credit from its credit-table entry or failing with NO_ENTRY. (R187) -/
  | messageSend (u : Fin 4610) (q : QueueId) (c : CtxId) (dst handler vc : Nat) (pay : List Byte)
  /-- A unit waiting for credit sends once enough credit has returned. (R187) -/
  | creditAvailable (n : Nat)
  /-- An arriving message is checked in order and enqueued or refused by NACK or discard. (R192) -/
  | messageArrival (t : TileId) (m : Msg)
  /-- A NACK returns credit by cause and runs handler 0x3FF at the sender. (R194) -/
  | nackArrival (t : TileId) (p : Ctrl)
  /-- A write of Q_GRANT checks and performs a grant and sends a grant packet to the sender. (R186) -/
  | qGrant (a : Agent) (t : TileId) (q : QueueId) (dev : Fin 32768) (tile : Fin 8192) (n : Fin 131072)
  /-- A grant packet at the sender adds to, rewrites or fills a credit-table entry, or bounces when the table is full. (R186) -/
  | grantPacketArrival (t : TileId) (p : Ctrl)
  /-- A grant returned from a full table lowers GRANTED and writes record 0x050B. (R186) -/
  | grantBounce (t : TileId) (p : Ctrl)
  /-- A credit return adds credit to its matching entry or counts as stale. (R188) -/
  | returnArrival (t : TileId) (p : Ctrl)
  /-- A REVOKE invalidates every credit entry naming the queue and answers the acknowledgement. (R188) -/
  | revokeArrival (t : TileId) (p : Ctrl)
  /-- The combined REVOKE_ACK reaches the root and a held OPEN of the queue is performed. (R188) -/
  | revokeAckComplete (root : TileId) (p : Ctrl) (t : TileId) (q : QueueId)
  /-- Q_CMD OPEN checks the ring and opens the queue with a new credit epoch. (R182) -/
  | qOpen (a : Agent) (t : TileId) (q : QueueId) (c : CtxId)
  /-- Q_CMD DRAIN makes the queue refuse new arrivals while it serves held messages. (R182) -/
  | qDrain (a : Agent) (t : TileId) (q : QueueId)
  /-- Q_CMD CLOSE discards held messages, closes the queue and revokes credit. (R182) -/
  | qClose (a : Agent) (t : TileId) (q : QueueId)
  /-- Q_CMD RESET puts the queue in RESET, discarding held messages. (R182) -/
  | qReset (a : Agent) (t : TileId) (q : QueueId)
  /-- A write of QD_RING is accepted only while the queue is CLOSED or RESET. (R179) -/
  | qdRingWrite (a : Agent) (t : TileId) (q : QueueId) (v : W64)
  /-- A free handler thread takes the next eligible DISPATCH queue and starts its handler, or releases a message with no valid handler. (R197) -/
  | handlerDispatch (t : TileId)
  /-- A reader waiting on an empty READ-mode queue resumes when a complete message lies at HEAD. (R196) -/
  | messageAvailable (t : TileId) (q : QueueId)
  /-- A reader releases the message at HEAD, advancing HEAD and sending the credit return. (R198) -/
  | messageRelease (t : TileId) (q : QueueId)
  /-- Handler operation that ends the handler and releases the message. (R201) -/
  | opEnd (t : TileId) (n : Fin 4)
  /-- Handler operation loading a sign-extended immediate. (R201) -/
  | opLi (t : TileId) (n : Fin 4)
  /-- Handler operation loading the upper 17 bits of a register. (R201) -/
  | opLui (t : TileId) (n : Fin 4)
  /-- Handler operation adding two registers. (R201) -/
  | opAdd (t : TileId) (n : Fin 4)
  /-- Handler operation subtracting two registers. (R201) -/
  | opSub (t : TileId) (n : Fin 4)
  /-- Handler operation bitwise AND. (R201) -/
  | opAnd (t : TileId) (n : Fin 4)
  /-- Handler operation bitwise OR. (R201) -/
  | opOr (t : TileId) (n : Fin 4)
  /-- Handler operation bitwise XOR. (R201) -/
  | opXor (t : TileId) (n : Fin 4)
  /-- Handler operation shifting left by an immediate. (R201) -/
  | opShli (t : TileId) (n : Fin 4)
  /-- Handler operation shifting right logically by an immediate. (R201) -/
  | opShri (t : TileId) (n : Fin 4)
  /-- Handler operation adding a sign-extended immediate. (R201) -/
  | opAddi (t : TileId) (n : Fin 4)
  /-- Handler operation multiplying two registers. (R201) -/
  | opMul (t : TileId) (n : Fin 4)
  /-- Handler operation loading a word of the inbound message. (R201) -/
  | opLdp (t : TileId) (n : Fin 4)
  /-- Handler operation storing a register into the outbound buffer. (R201) -/
  | opSto (t : TileId) (n : Fin 4)
  /-- Handler operation reading a scratchpad word with RD. (R201) -/
  | opLd (t : TileId) (n : Fin 4)
  /-- Handler operation writing a scratchpad word with WR. (R201) -/
  | opSt (t : TileId) (n : Fin 4)
  /-- Handler operation adding indivisibly to a scratchpad word and returning the old value. (R201) -/
  | opAadd (t : TileId) (n : Fin 4)
  /-- Handler operation compare-and-swap on a scratchpad word. (R201) -/
  | opCas (t : TileId) (n : Fin 4)
  /-- Handler operation WR_FILL of a tagged slot from the message. (R201) -/
  | opFill (t : TileId) (n : Fin 4)
  /-- Handler operation RD_TAKE of a tagged slot into the outbound buffer. (R201) -/
  | opTake (t : TileId) (n : Fin 4)
  /-- Handler operation RD_FULL of a tagged slot into the outbound buffer. (R201) -/
  | opPeek (t : TileId) (n : Fin 4)
  /-- Handler operation CLR_TAG of a tagged slot. (R201) -/
  | opClrt (t : TileId) (n : Fin 4)
  /-- Handler operation moving message words to the outbound buffer. (R201) -/
  | opMovpo (t : TileId) (n : Fin 4)
  /-- Handler operation skipping forward when two registers are equal. (R201) -/
  | opBeq (t : TileId) (n : Fin 4)
  /-- Handler operation skipping forward when two registers differ. (R201) -/
  | opBne (t : TileId) (n : Fin 4)
  /-- Handler operation skipping forward on unsigned less-than. (R201) -/
  | opBltu (t : TileId) (n : Fin 4)
  /-- Handler operation sending the outbound buffer as a message. (R201) -/
  | opSend (t : TileId) (n : Fin 4)
  /-- Handler operation sending the outbound buffer to the message's source. (R201) -/
  | opReply (t : TileId) (n : Fin 4)
  /-- Handler operation granting credit for a queue of its tile. (R201) -/
  | opGrant (t : TileId) (n : Fin 4)
  /-- Handler operation releasing P and taking the next message of a READ-mode queue. (R201) -/
  | opGet (t : TileId) (n : Fin 4)
  /-- Handler operation reading the context's step number. (R201) -/
  | opStep (t : TileId) (n : Fin 4)
  /-- Handler operation waiting until earlier side effects are performed. (R201) -/
  | opFence (t : TileId) (n : Fin 4)
  /-- An access of HS_DATA reads or writes a handler-store word and increments HS_ADDR, ignoring writes into bound ranges. (R205) -/
  | hsDataAccess (a : Agent) (t : TileId) (data : Option W64)
  /-- A guarded write of HS_BOUND_r or HT_r is ignored while the slot is bound or if it breaks its limits. (R205) -/
  | hsBoundSet (a : Agent) (t : TileId) (r : Fin 8) (table : Bool) (v : W64)
  /-- A router receives a flit, corrects a single-bit error or drops it and asks for replay. (R209) -/
  | flitReceive (t : TileId) (p : Fin 9) (err : Fin 3)
  /-- An output port resends stored flits from the dropped one on a replay request. (R209) -/
  | linkReplay (t : TileId) (p : Fin 9)
  /-- The source router checks a packet for remote device, reserved tile and unreachable route before it enters the mesh. (R216) -/
  | packetInject (t : TileId) (vc : Fin 4)
  /-- An injection held by INJ_HOLD proceeds once the hold is cleared. (R217) -/
  | injectionHoldRelease (t : TileId)
  /-- A write of RT_CTRL.INJ_HOLD stops or resumes VC1–VC3 injection at the router. (R217) -/
  | injHold (a : Agent) (t : TileId) (on : Bool)
  /-- A MESH_PROBE round collects held flit counts to check the mesh is empty before route changes. (R217) -/
  | meshProbe (g : Fin 4096) (root : TileId) (reply : Option Ctrl)
  /-- An access of RT_DATA reads or writes 16 route entries and increments RT_INDEX. (R231) -/
  | rtDataAccess (a : Agent) (t : TileId) (data : Option W64)
  /-- An access of MC_DATA reads or writes a multicast entry and increments the group. (R231) -/
  | mcDataAccess (a : Agent) (t : TileId) (data : Option W64)
  /-- A router forwards a multicast packet up to the root and copies it down the tree. (R218) -/
  | multicastForward (t : TileId) (port : Fin 9) (p : Pkt)
  /-- A router combines up-tree replies from every DOWN port and sends one reply UP. (R218) -/
  | uptreeReply (t : TileId) (port : Fin 9) (c : Ctrl)
  /-- A router adds an FWS or INT reduction packet to a combining entry, opens one, or passes it on. (R224) -/
  | reductionPacketArrival (l : Fin 4636) (port : Fin 9) (r : Red)
  /-- A combining entry forwards its packet when RED_HOLD steps have passed since it opened. (R224) -/
  | redHoldExpiry (l : Fin 4636) (e : Fin 32)
  /-- The completion store accumulates an arriving reduction packet, holding B32 partials until in schedule order. (R225) -/
  | completionStoreArrival (t : TileId) (port : Fin 16) (r : Red)
  /-- A complete store entry sends its one-slot message to DST when it has credit, then frees. (R226) -/
  | completionMessageSend (t : TileId) (e : Fin 128)
  /-- A write of RT_CTRL.DEST_RESET makes the router refuse or discard traffic for its tile in reset. (R229) -/
  | destReset (a : Agent) (t : TileId) (on : Bool)
  /-- A write of PX_CTRL.ENABLE starts training on a licensed port, or disables it when 0. (R238) -/
  | portEnable (a : Agent) (p : PortId) (on : Bool)
  /-- A write of PX_CTRL.FENCE fences the port, or returns it to DOWN when 0. (R238) -/
  | portFence (a : Agent) (p : PortId) (on : Bool)
  /-- A write of PX_CTRL.RETRAIN starts training at once. (R238) -/
  | portRetrain (a : Agent) (p : PortId)
  /-- A write of LANE_MASK that clears an active lane drops it. (R240) -/
  | laneMaskWrite (a : Agent) (p : PortId) (mask : Fin 16)
  /-- Lanes pass training, identities are exchanged and the port goes UP or DEGRADED, or FENCED on a changed peer. (R239) -/
  | trainingComplete (p : PortId) (lanes : Fin 16) (dev : Fin 32768) (port : Fin 16) (serial : Fin 16777216)
  /-- No lane trains within 100 ms and the port goes DOWN. (R238) -/
  | trainFail (p : LinkId)
  /-- 10 ms after DOWN the port begins training again. (R238) -/
  | retryTimer (p : LinkId)
  /-- A lane losing lock or exceeding uncorrectable codewords is dropped with a LANES exchange and replay. (R240) -/
  | laneDrop (p : LinkId) (lane : Fin 8)
  /-- A link receiver accepts a packet in sequence or discards and sends NAK, then forwards it into the mesh or another device. (R243) -/
  | linkPacketReceive (p : LinkId) (seq : Fin 4096) (hop : Fin 256) (replay : Bool) (flaw : Fin 3) (lane : Fin 8) (pkt : Pkt)
  /-- A NAK makes the transmitter resend every packet from the named sequence. (R243) -/
  | nakReceived (p : LinkId) (seq : Fin 4096)
  /-- An ACK frees replay-buffer space up to the acknowledged sequence. (R243) -/
  | ackReceived (p : LinkId) (seq : Fin 4096)
  /-- A CREDIT block returns flit credits for each VC to the transmitter. (R245) -/
  | creditBlock (p : LinkId) (a b c d : Fin 16384)
  /-- The receiver sends an ACK and owed credits at least every 64 ns. (R243) -/
  | ackTimer (p : LinkId)
  /-- At each 1 ms window a lane whose corrected symbols exceed the alarm writes record 0x0701. (R237) -/
  | fecAlarm (p : LinkId) (lane : Fin 8) (words corrected symbols : Nat)
  /-- A packet unsent 20 µs after entering the egress buffer is discarded with record 0x0709. (R251) -/
  | residence (p : PortId)
  /-- An access of FX_DATA reads or writes 16 exit entries, ignoring unlicensed ports, and increments the index. (R263) -/
  | fxDataAccess (a : Agent) (data : Option W64)
  /-- An access of FM_DATA reads or writes a fabric multicast entry and increments the group. (R263) -/
  | fmDataAccess (a : Agent) (data : Option W64)
  /-- In each 10 µs window the device sends a time REQ on its parent port. (R255) -/
  | timeExchange
  /-- A parent receiving a REQ returns RESP_A and RESP_B with its stamps. (R255) -/
  | timeReqReceive (p : PortId) (num : Fin 64)
  /-- RESP_B completes an exchange; the servo adjusts the DT rate and updates LOCK. (R256) -/
  | timeRespReceive (p : PortId) (num : Fin 64) (ta tb : Fin 281474976710656)
  /-- A link-down condition discards buffered packets, clears checks-clean bits and originates ABORTs. (R259) -/
  | linkDown (p : PortId)
  /-- 4 µs without acknowledged progress declares the link DOWN. (R258) -/
  | noProgress (p : LinkId)
  /-- An LPDDR6 read decodes each unit and delivers, corrects or withholds it. (R269) -/
  | memRead (a : Agent) (c : Option CtxId) (addr len : Nat) (flips : List (Nat × Nat))
  /-- An LPDDR6 write is performed, journaled if durable, with read-modify-write for partial units. (R272) -/
  | memWrite (a : Agent) (c : Option CtxId) (addr : Nat) (data : List Byte) (flips : List (Nat × Nat))
  /-- A corrected unit is written back in the next free burst slot. (R270) -/
  | memWriteBack (unit : Nat)
  /-- A per-bank refresh is issued when due, ahead of foreground at its limit. (R277) -/
  | refresh (ctl : CtlId) (atLimit : Bool)
  /-- Refresh management is issued when a bank's activation count reaches its threshold. (R277) -/
  | refreshManagement (ctl : CtlId)
  /-- A channel's periodic retraining falls due every 250 ms or on a 10 °C change. (R277) -/
  | retrainDue (h : ChanId) (temp : Fin 256) (idle : Bool)
  /-- Retraining deferred 10 ms is forced and the channel serves nothing until done. (R277) -/
  | retrainForced (h : ChanId)
  /-- Retraining finishes, or fails and is retried once, fencing the channel on a second failure. (R279) -/
  | retrainComplete (h : ChanId) (ok : Bool) (odecc : Nat)
  /-- The patrol scrub reads a unit in a reserved burst slot. (R278) -/
  | patrolScrub (flips : List (Nat × Nat))
  /-- A patrol pass not done by its 24 h window end sets SCRUB_LATE with record 0x0806. (R277) -/
  | patrolScrubLate
  /-- At each 1 s window a channel over UE_LIMIT uncorrectable units is fenced. (R279) -/
  | ueLimitWindow (h : ChanId)
  /-- A channel is fenced in service; accesses to it fail and PENDING is set. (R280) -/
  | channelFence (h : ChanId) (cause : Fin 65536)
  /-- A write of MC_CTRL.RETRAIN makes a channel retrain now. (R282) -/
  | mcRetrain (a : Agent) (ctl : CtlId) (mask : Fin 16)
  /-- A write of MM_CTRL.REMAP rebuilds the interleave hash when no context is resident. (R281) -/
  | remapMem (a : Agent)
  /-- A guarded durable descriptor write is checked when VALID becomes 1. (R276) -/
  | dregSet (a : Agent) (n : Fin 64) (limit : Bool) (v : W64)
  /-- A guarded fence-map write sets fences and ignores clearing of bits. (R283) -/
  | mmFenceSet (a : Agent) (m : Fin 3) (v : W64)
  /-- A companion request reading one 64-bit register. (R293) -/
  | regRd (h : GbHdr)
  /-- A companion request writing one 64-bit register. (R293) -/
  | regWr (h : GbHdr) (v : W64)
  /-- A companion uncached read of LPDDR6 or scratchpad. (R293) -/
  | memRdUc (h : GbHdr)
  /-- A companion uncached write, with flag-table checks of R299. (R293) -/
  | memWrUc (h : GbHdr) (data : List Byte)
  /-- A companion coherent shared read of a line through the directory. (R295) -/
  | lineRdS (h : GbHdr)
  /-- A companion coherent exclusive read of a line. (R295) -/
  | lineRdX (h : GbHdr)
  /-- A companion upgrade of a shared line to exclusive. (R295) -/
  | lineUpg (h : GbHdr)
  /-- A companion write-back of a modified line. (R296) -/
  | lineWb (h : GbHdr) (data : List Byte)
  /-- A companion gives up a clean line. (R296) -/
  | lineEvict (h : GbHdr)
  /-- A companion DOORBELL ORs its value into the doorbell's pending value. (R301) -/
  | doorbell (h : GbHdr) (value : W64)
  /-- A companion MSG request sends a message into a device queue if credit exists, or completes NO_CREDIT. (R303) -/
  | msg (h : GbHdr) (data : List Byte)
  /-- A companion snoop invalidating a gateway cache line. (R297) -/
  | snpInv (h : GbHdr)
  /-- A companion snoop making a gateway cache line shared. (R297) -/
  | snpShr (h : GbHdr)
  /-- A companion snoop response without data completes a directory snoop. (R296) -/
  | snpRsp (tag : Fin 4096)
  /-- A companion snoop response with modified data is written to LPDDR6. (R296) -/
  | snpRspD (tag : Fin 4096) (data : List Byte)
  /-- A completion without data ends an outstanding device request. (R291) -/
  | cmp (tag : Fin 4096) (status : Fin 256)
  /-- A completion with data ends an outstanding device read or line request. (R291) -/
  | cmpD (tag : Fin 4096) (status : Fin 256) (data : List Byte)
  /-- A device access to companion memory hits the gateway cache or issues a line request. (R297) -/
  | gatewayAccess (a : Agent) (addr len : Nat) (data : Option (List Byte))
  /-- No snoop response within 100 µs puts the line in LOST. (R296) -/
  | gbSnoopTimeout (tag : Fin 4096)
  /-- A device request not completed within 1 ms ends as DATA_ERR. (R294) -/
  | hostTimeout (tag : Fin 4096)
  /-- A pending doorbell value is sent as a one-slot message once credit exists. (R301) -/
  | doorbellSend (n : Fin 1024)
  /-- The Gorbin link goes DOWN; E lines become LOST and outstanding requests end with LINK. (R298) -/
  | gbLinkDown
  /-- The Gorbin link comes UP and the gateway writes back or discards its M lines. (R297) -/
  | gbLinkUp (lanes : Fin 256) (serial : Fin 16777216)
  /-- A write of GB_SEND_CTX is ignored if it names a context bound to tile 9. (R289) -/
  | gbSendCtxWrite (a : Agent) (m : Fin 4) (v : W64)
  /-- An access of GB_DB_BIND reads or writes a doorbell binding and increments the index. (R306) -/
  | gbDbBindAccess (a : Agent) (data : Option W64)
  /-- A read of GB_MSG_FAIL returns the refusal and clears VALID. (R306) -/
  | gbMsgFailRead (a : Agent)
  /-- A write of GB_BOOT_CTRL.GO makes Hawthorn load and verify the image from the companion. (R305) -/
  | bootGo (a : Agent) (len : W32)
  /-- A register write to a register with no row of its own, applied by access type and checks. (R311) -/
  | regWriteAny (a : Agent) (addr : Nat) (v : W64)
  /-- A collector passes a buffered record to the error log, which assigns its SEQ and stores or drops it. (R318) -/
  | recordLogEntry (k : Fin 289)
  /-- A read of LOG_REC_0 snapshots the record at LOG_READ.INDEX. (R320) -/
  | logRecRead (a : Agent)
  /-- A write of LOG_READ advances the read pointer and lowers UNREAD. (R320) -/
  | logReadSet (a : Agent) (index : Fin 4096)
  /-- A write of TB_SET sets DT before ready, or is ignored with record 0x0A06 after. (R321) -/
  | tbSetWrite (a : Agent) (v : W64)
  /-- A write of TB_ADJ starts a slewed DT correction. (R321) -/
  | tbAdjust (a : Agent) (v : W64)
  /-- A DT slew correction finishes and SLEWING clears. (R36) -/
  | slewComplete
  /-- An edge event or level condition sets a pending bit, presented unless its group holds, and may raise a target. (R323) -/
  | interruptEvent (n : SourceId)
  /-- A write of IC_DONE completes sources, re-samples level sources and re-evaluates the target. (R325) -/
  | icDoneWrite (a : Agent) (t : Fin 4) (g : Fin 32) (mask : Fin 65536)
  /-- A write of IC_SW raises software edge sources. (R328) -/
  | icSwWrite (a : Agent) (hi : Bool) (v : W64)
  /-- A group's hold-off window ends and its pending sources are presented. (R327) -/
  | holdoffEnd (g : Fin 32)
  /-- A step-end CONTROL token reaches the head of STEP_Q and the tile holds it until its work is idle. (R339) -/
  | stepEndToken (t : TileId) (c : CtxId)
  /-- Once idle, the tile releases the token, sends its VOTE and notifies the step-commit block. (R339) -/
  | tileVote (t : TileId) (c : CtxId)
  /-- A unit outside a tile sets DIRTY for a context whose checks-clean bit it clears. (R341) -/
  | dirtySet (c : CtxId)
  /-- After LOCAL_VOTERS notices the block votes for tile 1 with CLEAN from DIRTY. (R341) -/
  | blockVote (c : CtxId)
  /-- The combined VOTE reaches the root, which decides and sends DECIDE. (R343) -/
  | voteComplete (root : TileId) (p : Ctrl)
  /-- A DECIDE of COMMIT writes the mark and applies the step journal. (R345) -/
  | decideCommit (p : Ctrl)
  /-- A DECIDE of AUDIT saves the signature, discards the journal and re-places the context. (R345) -/
  | decideAudit (p : Ctrl)
  /-- A DECIDE of ABORT_REPLAY discards the journal, tears down, quarantines suspects and replays; `contributors` are this
  device's clusters that contributed to a reduction whose residue failed on another device. (R345, R350) -/
  | abortReplay (p : Ctrl) (contributors : List ClusterId)
  /-- A DECIDE of ABORT_FAULT discards the journal and puts the context in FAULTED. (R345) -/
  | abortFault (p : Ctrl)
  /-- The journal is applied and the next step opens. (R348) -/
  | journalApplied (c : CtxId)
  /-- A voted member losing its path to the root enters IN_DOUBT and keeps its journal. (R347) -/
  | inDoubt (c : CtxId) (named : Bool)
  /-- A member that has not voted and loses its root path discards the step for replay. (R346) -/
  | rootPathLost (c : CtxId) (named : Bool)
  /-- CS_CMD OPEN opens the context's step. (R348) -/
  | csOpenCmd (a : Agent) (c : CtxId)
  /-- CS_CMD RESOLVE_COMMIT applies the journal of an in-doubt context. (R347) -/
  | resolveCommit (a : Agent) (c : CtxId)
  /-- CS_CMD RESOLVE_ABORT acts as ABORT_REPLAY for an in-doubt context. (R347) -/
  | resolveAbort (a : Agent) (c : CtxId)
  /-- CS_CMD CLEAR_FAULT returns a FAULTED context to IDLE. (R348) -/
  | clearFault (a : Agent) (c : CtxId)
  /-- A guarded write of CS_STEP sets the step number only while the context is IDLE. (R331) -/
  | csStepWrite (a : Agent) (c : CtxId) (hi : Bool) (v : W64)
  /-- A write of CS_CFG or CS_JOURNAL outside IDLE is ignored, and COMMIT_EN is refused for a bad journal. (R335) -/
  | csCfgSet (a : Agent) (c : CtxId) (journal : Bool) (v : W64)
  /-- A durable write of a stepped context is appended to the step journal. (R336) -/
  | durableWrite (t : TileId) (c : CtxId) (a : Nat) (data : List Byte)
  /-- At the replay's vote the signatures and Yew test classify suspects and strike or fence them. (R351) -/
  | classified (k : ClusterId)
  /-- A conditional fence enters or leaves force with a temperature or voltage reading. (R355) -/
  | condFence (e : Fin 18446744073709551616)
  /-- A unit is fenced, its contexts' steps aborted, the fence logged and re-placement started. (R357) -/
  | unitFence (e : Fin 18446744073709551616)
  /-- A stored guarded value with mismatched halves is invalid and its owner fenced or handled by exception. (R358) -/
  | guardFault (a : Fin 4294967296) (k : Fin 257) (flip : BitVec 64)
  /-- A write of CS_TFS_READ advances the signature ring reader. (R359) -/
  | csTfsReadWrite (a : Agent) (index : Fin 65536)
  /-- At each 1 µs window Bramble updates stall counts and finds closed wait sets. (R366) -/
  | brambleWindow
  /-- Recovery aborts and holds every suspect at its next boundary. (R369) -/
  | recoveryHold
  /-- The hang sample ends at the area end or SAMPLE_BUDGET, then teardown follows. (R371) -/
  | sampleComplete
  /-- A suspect is reopened for admission after its DECIDE. (R369) -/
  | admission (c : CtxId)
  /-- Admission ends at the context's vote, at ISO_LIMIT or at a new hang that finds it guilty. (R372) -/
  | admissionEnd
  /-- Teardown of a context stops units, raises its epoch, resets queues and credits and clears waiters. (R374) -/
  | teardown (c : CtxId)
  /-- At each 1 µs window teardown completes when in-flight counts are zero or the fabric bound passes. (R375) -/
  | teardownDrain (c : CtxId)
  /-- TD_CMD TEARDOWN tears a context down. (R374) -/
  | tdTeardown (a : Agent) (c : CtxId)
  /-- TD_CMD RELEASE tears down and unbinds a context. (R376) -/
  | tdRelease (a : Agent) (c : CtxId)
  /-- An ABORT is applied to matching stepped contexts or counted as ignored. (R380) -/
  | abortArrival (t : TileId) (p : Ctrl)
  /-- RST_CMD CLUSTER resets one cluster's tiles after tearing down its contexts. (R383) -/
  | rstCluster (a : Agent) (c : Fin 512)
  /-- RST_CMD PARTITION resets the clusters of RST_PART together. (R383) -/
  | rstPartition (a : Agent)
  /-- RST_CMD WARM resets the device outside Privet, keeping LPDDR6 in self-refresh. (R383) -/
  | rstWarm (a : Agent)
  /-- RST_CMD COLD resets the whole device. (R383) -/
  | rstCold (a : Agent)
  /-- A reset domain completes, DEST_RESET clears and record 0x0C0B is written. (R384) -/
  | resetDone
  /-- DT reaching the last seal plus τ asserts source 374. (R391) -/
  | ckDue (n : Fin 4)
  /-- CK_CMD CANCEL ends the checkpoint with the half left OPEN. (R393) -/
  | ckCancel (a : Agent) (n : Fin 4)
  /-- CK_CMD EXPORT copies a sealed half into companion-owned Bushels. (R397) -/
  | ckExport (a : Agent) (n : Fin 4) (half : Fin 2)
  /-- CK_CMD RESTORE_PARTNER sends the partner image back to the target device. (R398) -/
  | restorePartner (a : Agent) (n : Fin 4) (half : Fin 2) (dev : Fin 32768)
  /-- CK_CMD RESTORE_FLASH restores an image from the UFS slot. (R398) -/
  | restoreFlash (a : Agent) (n : Fin 4) (half : Fin 2) (dev : Fin 32768)
  /-- The mover sends a STATE data message in an idle VC3 slot. (R394) -/
  | trickleSend (n : Fin 4)
  /-- A checkpoint engine receives a queue 0xFE message and writes its data. (R398) -/
  | checkpointDataArrival (m : Msg)
  /-- The holder checks every block CRC and seals the half, or leaves it OPEN on a mismatch. (R392) -/
  | sealImage (n : Fin 4) (blocks : Nat)
  /-- The owner receives SEALED, loads LAST_STEP and restarts the τ window. (R392) -/
  | sealedReceived (n : Fin 4) (step : Fin 281474976710656) (dt : Nat)
  /-- The holder copies a sealed half to its UFS slot after every FLASH_EVERY-th seal. (R396) -/
  | flashCopy (n : Fin 4)
  /-- A write of CK_LAMBDA_HOST recomputes τ. (R400) -/
  | ckLambdaHostWrite (a : Agent) (fit : W32)
  /-- Hawthorn's ROM reads, measures and verifies the image, wiping in RETURNED or END. (R410) -/
  | romPhase
  /-- Hornbeam reads and verifies the topology statement and licence after BOOT. (R421) -/
  | startPhase
  /-- Hornbeam loads the repair map, applies fences and builds firmware groups. (R412) -/
  | repairPhase
  /-- Tile firmware is broadcast and repair rounds begin. (R416) -/
  | firmwarePhase
  /-- A firmware repair round ends; missing chunks are sent or tiles fenced after 8 rounds. (R416) -/
  | fwRoundEnd
  /-- A tile loader accepts, answers or discards an FW data or PULL packet. (R414) -/
  | fwPacket (t : TileId) (p : FwPkt)
  /-- LPDDR6 is kept, quick-started or fully tested. (R418) -/
  | memoryPhase (fail weak : List ChanId)
  /-- The Parith ports are trained. (R403) -/
  | linksPhase
  /-- Each port is compared with the statement and LOCK awaited, withholding ready on disagreement. (R422) -/
  | topologyPhase
  /-- The licence window is checked against DT and the device declares ready or halts. (R424) -/
  | licencePhase
  /-- HB_CMD BOOT gives Hornbeam the topology statement address and lets START proceed. (R421) -/
  | hbBoot (a : Agent) (arg : W64)
  /-- HB_CMD RECHECK clears topology fences and reruns LINKS and TOPOLOGY. (R422) -/
  | hbRecheck (a : Agent)
  /-- HB_CMD INSTALL_LICENCE verifies and writes a licence for the next bring-up. (R426) -/
  | installLicence (a : Agent) (arg : W64)
  /-- HB_CMD JSCAN reapplies a journal with a COMMIT mark after a warm reset. (R420) -/
  | jscan (a : Agent) (arg : W64)
  /-- HB_CMD SHARE sends tile firmware chunks over a fabric group. (R417) -/
  | shareFw (a : Agent) (g : Fin 4096)
  /-- DT reaching NOT_AFTER in service writes record 0x0E10 and raises source 378. (R426) -/
  | licExpired
  /-- A UFS command is issued and retried once on failure. (R407) -/
  | ufsCommand (aux : Fin 6)
  /-- A cluster's in-field test falls due and Yew vacates the cluster at commits. (R433) -/
  | infieldDue
  /-- A test deferred 24 h sets YW_YIELD and raises source 379. (R435) -/
  | yieldRequest (c : ClusterId)
  /-- Yew resets a vacated cluster and runs its programs at service and stress points. (R432) -/
  | infieldTest (c : ClusterId) (pace : Nat)
  /-- An invalid test is queued again after 10 minutes. (R431) -/
  | requeueTimer
  /-- Yew tests a quarantined cluster for classification. (R437) -/
  | confirmTest (c : ClusterId)
  /-- After a FAIL Yew sweeps the cluster and chooses a fence entry. (R436) -/
  | sweep (grid : List (TileId × Fin 10 × Fin 801 × Int))
  /-- YW_CMD SHUTDOWN_TEST tests every cluster and LPDDR6 and writes the shut-down record. (R438) -/
  | ywShutdown (a : Agent)
  /-- YW_CMD YIELD_GRANT reruns the vacating procedure for the waiting test. (R435) -/
  | ywYieldGrant (a : Agent)
  /-- YW_CMD TEST_NOW makes a cluster's test due at once. (R444) -/
  | ywTestNow (a : Agent) (c : Fin 512)
  /-- YW_CMD RAW_ENTER enters RAW mode where allowed. (R429) -/
  | ywRawEnter (a : Agent)
  /-- YW_CMD RAW_EXIT leaves RAW mode. (R429) -/
  | ywRawExit (a : Agent)
  /-- An access of YW_RAW_DATA or YW_RAW_TRIM reads or writes unencoded words or trims in RAW mode. (R429) -/
  | ywRawAccess (a : Agent) (trim : Bool) (data : Option W64)
  /-- A canary mismatch is counted and may take a margin action when the trip limit is reached. (R441) -/
  | canaryTrip (t : TileId) (router : Bool)
  /-- At each hour's end the ageing record of every cluster is written to the flash ring. (R443) -/
  | ageingRecord
  /-- At each 1 µs window the power block chooses cluster and device states. (R454) -/
  | powerEval
  /-- A cluster completes entry to C2 or C3. (R446) -/
  | clusterEntryComplete (c : ClusterId)
  /-- A wake event starts a cluster's exit from C2 or C3. (R448) -/
  | clusterWake (c : ClusterId)
  /-- A cluster completes its exit to C1 and held arrivals proceed. (R448) -/
  | clusterWakeComplete (c : ClusterId)
  /-- A wake event starts the device's return to P0. (R452) -/
  | deviceWake
  /-- The device completes its exit to P0. (R449) -/
  | deviceWakeComplete
  /-- A write of PW_DEV_TOL or PW_CTX_TOL changes tolerance and wakes units that no longer fit. (R453) -/
  | toleranceWrite (a : Agent) (c : Option CtxId) (us : W32)
  /-- Each 1 µs the sensor publishes junction temperature and measured voltage. (R458) -/
  | tempPublish (c : ClusterId) (temp : Fin 65536) (mv : Fin 16384)
  /-- At each 100 µs window REQUIRED moves toward the segment target by up to 2.5 mV. (R457) -/
  | segmentStep (g : Fin 8) (supplied : Fin 65536)
  /-- A segment still lacking headroom after 500 µs sets HEADROOM_LOW with record 0x1006. (R457) -/
  | headroomLow (c : ClusterId)
  /-- At each 100 µs window thermal and power offsets are raised or lowered. (R459) -/
  | throttleEval (watts : Fin 65536)
  /-- A cluster reaching T_CRIT stops issuing work until it cools. (R461) -/
  | thermTrip (c : ClusterId)
  /-- HW_CMD ATTEST writes signed evidence to the LPDDR6 buffer. (R478) -/
  | hwAttest (a : Agent) (arg : Fin 281474976710656)
  /-- HW_CMD DEBUG_OPEN opens a debug session after checking the token. (R482) -/
  | hwDebugOpen (a : Agent) (arg : Fin 281474976710656)
  /-- HW_CMD DEBUG_CLOSE ends the session. (R482) -/
  | hwDebugClose (a : Agent)
  /-- DT reaching NOT_AFTER ends the debug session. (R482) -/
  | sessionExpired
  /-- HW_CMD LC_ADVANCE verifies a token, blows fuses and cold-resets the device. (R473) -/
  | hwLcAdvance (a : Agent) (arg : Fin 281474976710656)
  /-- HW_CMD EXTEND extends MR6 or MR7 with HW_EXTEND data. (R477) -/
  | hwExtend (a : Agent) (mr : Fin 16)
  /-- HW_CMD EPOCH_COMMIT raises MIN_EPOCH by blowing fuses. (R476) -/
  | hwEpochCommit (a : Agent)
  /-- HW_CMD DBG_HOLD holds the D2 context on every tile. (R483) -/
  | hwDbgHold (a : Agent)
  /-- HW_CMD DBG_RELEASE resumes the held context. (R483) -/
  | hwDbgRelease (a : Agent)
  /-- HW_CMD FENCE_LOG_CLEAR erases the fence log for the next bring-up. (R484) -/
  | hwFenceLogClear (a : Agent)
  /-- A read of HW_CHAL_0 draws a fresh challenge. (R470) -/
  | hwChalRead (a : Agent)
  /-- A random-source health test fails and entropy commands are refused. (R466) -/
  | trngFail
  /-- The random source is retested 1 s after a failure. (R466) -/
  | trngRetest (ok : Bool)
  /-- A COMPAT register advanced but unread for 3,600 s writes record 0x1203. (R500) -/
  | compatUnsampled (t : TileId) (n : Fin 16)
  /-- MOD_RST_N low for at least 10 µs causes a device cold reset. (R508) -/
  | modRstNAssert
  /-- The rise of MOD_RST_N samples the straps and releases the cold reset. (R510) -/
  | modRstNRelease (boot : Bool) (slot : Fin 8)
  /-- A rail out of tolerance or REFCLK absent holds the device in cold reset. (R509) -/
  | supplyFaultEvent
  /-- A junction reaching 118 °C holds a cold reset until every cluster is below 100 °C. (R509) -/
  | overtempReset
  /-- The device leaves a self-held reset 1 ms after its condition ends. (R509) -/
  | selfResetRelease (boot : Bool) (slot : Fin 8)
  /-- An I3C READ operation reads a 64-bit word where R515 allows. (R514) -/
  | i3cReadOp (addr : Fin 281474976710656)
  /-- An I3C WRITE operation writes a 64-bit word where R515 allows. (R514) -/
  | i3cWriteOp (addr : Fin 281474976710656) (v : W64)
  /-- An I3C WAKE operation is a device wake event. (R514) -/
  | i3cWakeOp
  /-- A private read returns the STATUS and data of the last operation. (R514) -/
  | i3cResultRead
  /-- CK_CMD TAKE names step s, opens the half that does not hold the newest sealed image, or waits while that half is being copied. (R392) -/
  | ckTakeCmd (a : Agent) (n : Fin 4) (step : Fin 281474976710656)
  /-- A UFS command completes from the board flash device, successfully or with a failure that triggers the retry or record 0x0E14. (R407) -/
  | ufsCommandCompletion (k : Fin 32) (ok : Bool) (data : List Byte)
  /-- The UFS link enters HIBERN8 after 1 ms with no command. (R407) -/
  | hibern8Entry
  /-- The device completes its entry to P1, P2 or P3, lanes falling quiet, LPDDR6 entering self-refresh or links going down. (R452) -/
  | deviceEntryComplete
  /-- A Yew test's programs finish and the result PASS, MARGIN_LOW, FAIL or INVALID is taken, with the cluster released or a sweep started. (R432) -/
  | testComplete (service stress : List (TileId × Fin 10)) (chans weak : List ChanId)
  /-- A Hawthorn command finishes, HW_STAT.BUSY clears and source 383 is raised. (R488) -/
  | hwCommandDone
  /-- LOCK not reached within 0.2 s in TOPOLOGY writes record 0x0E0D and the device waits for RECHECK. (R422) -/
  | timeNoLock
  /-- The board management controller assigns the I3C target a dynamic address with SETDASA or ENTDAA. (R513) -/
  | dynamicAddressAssign (addr : Fin 128)
  /-- An IEEE 1149.1 instruction is shifted into the test access port and decoded as BYPASS, IDCODE or, where allowed, SAMPLE/PRELOAD, EXTEST or INTEST. (R485) -/
  | boundaryScan (op : Fin 5)
  deriving DecidableEq, Repr

end Sys2Proof
end

