-- ==== Sys2Proof/Decode.lean ====
section
/-! DEFINITION. Command words. The table of operations and events gives no row any bits: commands
arrive as packets, register accesses, pins and events, whose fields are the operands of `Instr`. -/

namespace Sys2Proof

/-- The command that a word spells by the table's bits: none, for no row of the table has bits (log entry 6, DESIGN CHOICE). -/
def decodeTableWord (_nbits _w : Nat) : Option Instr := none

end Sys2Proof
end

