-- ==== Sys2Proof/Machine/Bits.lean ====
section
/-! DEFINITION. Bit fields, little-endian byte lists and finite maps, the plain-data
helpers every operation of the block uses (spec R8, R9). -/

namespace Sys2Proof.Machine

/-- Bits `[lo + n - 1 : lo]` of a natural number (R9: bit 0 is the least significant). -/
def fieldNat (v lo n : Nat) : Nat := (v >>> lo) % 2 ^ n

/-- Field `[lo + n - 1 : lo]` of a register, as a number. -/
def fieldOf (w : W64) (lo n : Nat) : Nat := fieldNat w.toNat lo n

/-- Bit `i` of a register. -/
def bitOf (w : W64) (i : Nat) : Bool := w.toNat.testBit i

/-- Field `[lo + n - 1 : lo]` of a register replaced by the low `n` bits of `v`; every
other bit kept. -/
def setField (w : W64) (lo n v : Nat) : W64 :=
  (w &&& ~~~(BitVec.ofNat 64 ((2 ^ n - 1) <<< lo))) ||| BitVec.ofNat 64 ((v % 2 ^ n) <<< lo)

/-- A register with one bit set to `b`. -/
def setBit (w : W64) (i : Nat) (b : Bool) : W64 := setField w i 1 (if b then 1 else 0)

/-- A field value placed at bit `lo`, for building words from fields. -/
def place (lo n v : Nat) : Nat := (v % 2 ^ n) <<< lo

/-- The number a Bool stands for in a one-bit field. -/
def bit01 (b : Bool) : Nat := if b then 1 else 0

/-- Little-endian bytes of a number, lowest first (R9). -/
def bytesOf (n : Nat) : Nat → List Byte
  | v => (List.range n).map (fun i => BitVec.ofNat 8 (v >>> (8 * i)))

/-- The number that little-endian bytes hold (R9). -/
def natOfBytes : List Byte → Nat
  | [] => 0
  | b :: bs => b.toNat + 256 * natOfBytes bs

/-- A byte list cut or padded with zeros to `n` bytes. -/
def fitBytes (n : Nat) (bs : List Byte) : List Byte :=
  (bs.take n) ++ List.replicate (n - bs.length) 0

/-- The signed number that the low `n` bits of `v` hold, in two's complement. -/
def signedOf (n v : Nat) : Int :=
  let m := v % 2 ^ n
  if m < 2 ^ (n - 1) then (m : Int) else (m : Int) - 2 ^ n

/-- The `n`-bit two's-complement pattern of an integer, reduced modulo `2 ^ n`. -/
def patternOf (n : Nat) (v : Int) : Nat := (v % (2 ^ n : Int)).toNat

/-- The guarded form of a 32-bit value: the value in `[31:0]`, its complement in `[63:32]` (R313). -/
def guardOf (v : Nat) : W64 :=
  BitVec.ofNat 64 ((v % 2 ^ 32) + ((2 ^ 32 - 1 - v % 2 ^ 32) <<< 32))

/-- A guarded word is sound when its upper half complements its lower half (R313). -/
def guardOk (w : W64) : Bool :=
  fieldOf w 32 32 == 2 ^ 32 - 1 - fieldOf w 0 32

/-- The value half of a guarded word. -/
def guardVal (w : W64) : Nat := fieldOf w 0 32

/-- Ceiling division. -/
def ceilDiv (a b : Nat) : Nat := (a + b - 1) / b

/-- The half-open window test of R8: `a ≤ x < b`. -/
def inWindow (a b x : Nat) : Bool := a ≤ x && x < b

/-! ### Finite maps

A map from numbers to values is a list of pairs with rising keys that lists no entry equal
to what an unlisted key reads as, so that equal maps are equal data. -/

/-- Sparse data by key: pairs in rising key order. -/
abbrev NMap (α : Type) := List (Nat × α)

/-- The entry listed for a key. -/
def mapFind {α : Type} (k : Nat) : NMap α → Option α
  | [] => none
  | (j, v) :: m => if j = k then some v else mapFind k m

/-- What a key reads as: its entry, or the default of the key. -/
def mapGet {α : Type} (d : Nat → α) (m : NMap α) (k : Nat) : α :=
  match mapFind k m with
  | some v => v
  | none => d k

/-- A map without the entries of one key. -/
def mapErase {α : Type} (k : Nat) (m : NMap α) : NMap α :=
  m.filter (fun p => p.1 != k)

/-- An entry placed before the first greater key. -/
def mapInsert {α : Type} (k : Nat) (v : α) : NMap α → NMap α
  | [] => [(k, v)]
  | (j, w) :: m => if k < j then (k, v) :: (j, w) :: m else (j, w) :: mapInsert k v m

/-- A key set to a value; a value equal to the default is not listed. -/
def mapPut {α : Type} [DecidableEq α] (d : Nat → α) (m : NMap α) (k : Nat) (v : α) : NMap α :=
  if v = d k then mapErase k m else mapInsert k v (mapErase k m)

/-- The keys that a map lists within `[lo, hi)`. -/
def mapKeysIn {α : Type} (m : NMap α) (lo hi : Nat) : List Nat :=
  (m.filter (fun p => lo ≤ p.1 && p.1 < hi)).map Prod.fst

/-- A map without the keys in `[lo, hi)`. -/
def mapClear {α : Type} (m : NMap α) (lo hi : Nat) : NMap α :=
  m.filter (fun p => !(lo ≤ p.1 && p.1 < hi))

/-- Keys strictly rise. -/
def mapSorted {α : Type} : NMap α → Bool
  | [] => true
  | [_] => true
  | (j, _) :: (k, w) :: m => (j < k) && mapSorted ((k, w) :: m)

/-- The canonical form of a map: keys strictly rise and no entry equals its default. -/
def mapWf {α : Type} [DecidableEq α] (d : Nat → α) (m : NMap α) : Bool :=
  mapSorted m && m.all (fun p => p.2 != d p.1)

end Sys2Proof.Machine
end

