-- ==== Sys2Proof/Machine/Codes.lean ====
section
/-! DEFINITION. The error codes of the device: the activation code (R147), the weight code
(R148), the Reed–Solomon unit code of LPDDR6 (R268), CRC-64 (R349). Each decoder works on
the difference between stored and computed check bits. -/

namespace Sys2Proof.Machine

/-- Exclusive or of the bits of a number (parity). -/
def parity (n : Nat) : Nat :=
  ((List.range 128).filter (fun i => n.testBit i)).length % 2

/-! ### Activation code (R147) -/

/-- Positions 1–38 of the Hamming codeword that hold data bits d0–d31, in ascending order. -/
def hamDataPos : List Nat :=
  (List.range 39).filter (fun p => p != 0 && p != 1 && p != 2 && p != 4 && p != 8 && p != 16 && p != 32)

/-- Position of data bit `i`. -/
def hamPosOf (i : Nat) : Nat := hamDataPos.getD i 0

/-- Check bits c0–c5 as a number: the exclusive or of the positions of the data bits that are 1. -/
def hamSyn (d : Nat) : Nat :=
  hamDataPos.zipIdx.foldl (fun acc p => if d.testBit p.2 then acc ^^^ p.1 else acc) 0

/-- The eight check bits of word `d` at word offset `w` (R147). -/
def actCheck (d w : Nat) : Nat :=
  let c := hamSyn (d % 2 ^ 32)
  c + place 6 1 (parity (d % 2 ^ 32) + parity c) + place 7 1 (parity (w % 2 ^ 17))

/-- Outcome of decoding a code unit (R149, R269): clean, corrected with the data bits to flip,
uncorrectable, or an address mismatch. -/
inductive Ecc where
  | clean
  | corrected (flip : Nat)
  | uncorrectable
  | address
  deriving DecidableEq, Repr

/-- Decoding in activation class (R149) from the difference `dev` between the stored check bits
and those of the stored data. -/
def actDecode (dev : Nat) : Ecc :=
  let syn := dev % 64
  let par := (parity syn + (if dev.testBit 6 then 1 else 0)) % 2
  let adr := dev.testBit 7
  if syn = 0 && par = 0 then (if adr then .address else .clean)
  else if par = 0 then .uncorrectable
  else if 38 < syn then .uncorrectable
  else if adr then .address
  else
    match hamDataPos.findIdx? (· == syn) with
    | some i => .corrected (2 ^ i)
    | none => .corrected 0

/-! ### Weight code (R148) -/

/-- Generator polynomial: the product of the minimal polynomials of α and α³ over x⁷ + x³ + 1. -/
def bchGen : Nat := 0x4377

/-- Remainder of a polynomial of degree below `n + 14` by the generator. -/
def bchRem : Nat → Nat → Nat
  | 0, v => v
  | n + 1, v => bchRem n (if v.testBit (n + 14) then v ^^^ (bchGen <<< n) else v)

/-- Check bits b0–b13 of 64 data bits. -/
def bchCheck (d : Nat) : Nat := bchRem 64 ((d % 2 ^ 64) <<< 14)

/-- The sixteen check bits of a pair at the even word offset `w` (R148). -/
def wgtCheck (d w : Nat) : Nat :=
  let b := bchCheck d
  b + place 14 1 (parity (d % 2 ^ 64) + parity b) + place 15 1 (parity (w % 2 ^ 17 / 2))

/-- Remainder of the single error at codeword bit `i` (b0–b13 then d0–d63). -/
def bchBit (i : Nat) : Nat := if i < 14 then 2 ^ i else bchCheck (2 ^ (i - 14))

/-- Data bits that a flip of codeword bit `i` changes. -/
def bchFlip (i : Nat) : Nat := if i < 14 then 0 else 2 ^ (i - 14)

/-- The remainders of the 78 single errors. -/
def bchBits : List (Nat × Nat) := (List.range 78).map (fun i => (i, bchBit i))

/-- The two codeword bits whose errors give remainder `r`, if any. -/
def bchPair (r : Nat) : List (Nat × Nat) → Option Nat
  | [] => none
  | (i, s) :: l =>
    match l.find? (fun q => q.2 == r ^^^ s) with
    | some q => some (bchFlip i ^^^ bchFlip q.1)
    | none => bchPair r l

/-- Decoding in weight class (R149) from the 16-bit difference of stored and computed check bits. -/
def wgtDecode (dev : Nat) : Ecc :=
  let r := dev % 2 ^ 14
  let par := (parity r + (if dev.testBit 14 then 1 else 0)) % 2
  let adr := dev.testBit 15
  let fix (f : Nat) : Ecc := if adr then .address else .corrected f
  if r = 0 then (if par = 0 then (if adr then .address else .clean) else fix 0)
  else
    match bchBits.find? (fun q => q.2 == r) with
    | some q => fix (bchFlip q.1)
    | none =>
      if par = 1 then .uncorrectable
      else match bchPair r bchBits with
        | some f => fix f
        | none => .uncorrectable

/-! ### LPDDR6 unit code (R268) -/

/-- Product in GF(2⁸) with x⁸ + x⁴ + x³ + x² + 1, bits of `b` from the top. -/
def gfMulGo (a b : Nat) : Nat → Nat → Nat
  | 0, acc => acc
  | n + 1, acc =>
    let d := 2 * acc
    let d := if d.testBit 8 then d ^^^ 0x11D else d
    gfMulGo a b n (if b.testBit n then d ^^^ a else d)

/-- Product in GF(2⁸). -/
def gfMul (a b : Nat) : Nat := gfMulGo a b 8 0

/-- α^k. -/
def gfPow : Nat → Nat
  | 0 => 1
  | k + 1 => gfMul 2 (gfPow k)

/-- Inverse in GF(2⁸), as the 254th power. -/
def gfInv (a : Nat) : Nat :=
  let a2 := gfMul a a
  let a4 := gfMul a2 a2
  let a8 := gfMul a4 a4
  let a16 := gfMul a8 a8
  let a32 := gfMul a16 a16
  let a64 := gfMul a32 a32
  let a128 := gfMul a64 a64
  gfMul a2 (gfMul a4 (gfMul a8 (gfMul a16 (gfMul a32 (gfMul a64 a128)))))

/-- Generator of R268 as a row of coefficients x⁰–x³ of (x − 1)(x − α)(x − α²)(x − α³), its leading
coefficient 1 left out. -/
def rsGen : List Nat :=
  let r (l : List Nat) (a : Nat) : List Nat :=
    List.zipWith (fun x y => x ^^^ y) (0 :: l) (l.map (gfMul a) ++ [0])
  (r (r (r (r [1] 1) 2) 4) 8).take 4

/-- Remainder of message symbols, highest degree first, by the generator: four symbols. -/
def rsGo : List Nat → List Nat → List Nat
  | [], st => st
  | d :: ds, st =>
    let f := d ^^^ st.getD 3 0
    rsGo ds (List.zipWith (fun x g => x ^^^ gfMul f g) (0 :: st.take 3) rsGen)

/-- The four check symbols of a unit as a 32-bit number, p0 in bits [7:0] (R268). Symbols d0–d31
and a0–a3 are the coefficients of x⁴ to x³⁹ (log entry 11, DEDUCED). -/
def rsCheck (data : List Nat) (unitOff : Nat) : Nat :=
  let virt := (List.range 4).map (fun i => fieldNat unitOff (8 * i) 8)
  let p := rsGo (data ++ virt).reverse [0, 0, 0, 0]
  p.zipIdx.foldl (fun acc q => acc + (q.1 <<< (8 * q.2))) 0

/-- Syndrome `k` of the difference word. -/
def rsSyn (dev k : Nat) : Nat :=
  (List.range 4).foldl (fun acc j => acc ^^^ gfMul (fieldNat dev (8 * j) 8) (gfPow (j * k))) 0

/-- A located pattern of one or two symbol errors, as position and value. -/
abbrev RsPattern := List (Nat × Nat)

/-- The single error that gives the syndromes. -/
def rsOne (s0 s1 s2 s3 : Nat) : Option RsPattern :=
  ((List.range 40).find? (fun i =>
    s0 != 0 && gfMul s0 (gfPow i) == s1 && gfMul s0 (gfPow (2 * i)) == s2 && gfMul s0 (gfPow (3 * i)) == s3)).map
    (fun i => [(i, s0)])

/-- The values of two errors at positions `i` and `j`, when they give the syndromes. -/
def rsTry (s0 s1 s2 s3 i j : Nat) : Option RsPattern :=
  let xi := gfPow i
  let xj := gfPow j
  let ej := gfMul (s1 ^^^ gfMul s0 xi) (gfInv (xi ^^^ xj))
  let ei := s0 ^^^ ej
  let ok := ei != 0 && ej != 0
    && (gfMul ei (gfPow (2 * i)) ^^^ gfMul ej (gfPow (2 * j))) == s2
    && (gfMul ei (gfPow (3 * i)) ^^^ gfMul ej (gfPow (3 * j))) == s3
  if ok then some [(i, ei), (j, ej)] else none

/-- The two errors that give the syndromes, searched over positions below 40. -/
def rsTwo (s0 s1 s2 s3 : Nat) : Option RsPattern :=
  (List.range 40).findSome? (fun i =>
    (List.range 40).findSome? (fun j => if i < j then rsTry s0 s1 s2 s3 i j else none))

/-- The decodable pattern of at most two symbols of a difference word, if any; `some []` when clean. -/
def rsLocate (dev : Nat) : Option RsPattern :=
  let s0 := rsSyn dev 0
  let s1 := rsSyn dev 1
  let s2 := rsSyn dev 2
  let s3 := rsSyn dev 3
  if s0 = 0 && s1 = 0 && s2 = 0 && s3 = 0 then some []
  else match rsOne s0 s1 s2 s3 with
    | some p => some p
    | none => rsTwo s0 s1 s2 s3

/-- Decoding of a unit (R269): the flips of data bytes 0–31 as one 256-bit number. -/
def rsDecode (dev : Nat) : Ecc :=
  match rsLocate dev with
  | none => .uncorrectable
  | some [] => .clean
  | some l =>
    if l.any (fun p => 36 ≤ p.1) then .address
    else .corrected (l.foldl (fun acc p => if p.1 < 4 then acc else acc ^^^ (p.2 <<< (8 * (p.1 - 4)))) 0)

/-! ### CRC-64 (R349) -/

/-- One byte into the CRC, most significant bit first. -/
def crcByte : Nat → Nat → Nat
  | 0, c => c
  | n + 1, c =>
    let d := (2 * c) % 2 ^ 64
    crcByte n (if c.testBit 63 then d ^^^ 0x42F0E1EBA9EA3693 else d)

/-- CRC-64 with polynomial 0x42F0_E1EB_A9EA_3693, initial value 0, no final XOR. -/
def crc64 (bs : List Byte) : Nat :=
  bs.foldl (fun c b => crcByte 8 (c ^^^ (b.toNat <<< 56))) 0

end Sys2Proof.Machine
end

