-- ==== Sys2Proof/Config.lean ====
section
/-! DEFINITION. What an implementation fixes and what the spec leaves free: constants of the
device and opaque values without a body, of which nothing can be proved. -/

namespace Sys2Proof

/-- The device serial, fused at manufacture (R424, R481) (log entry 7, DESIGN CHOICE). -/
opaque Config.serial : Nat

/-- Byte of undefined contents: fill number `n`, byte address `a` (R169, R281, R403). -/
opaque Config.freeByte (n a : Nat) : Byte

/-- Difference between the stored check bits of undefined contents and those of its bytes. -/
opaque Config.freeCheck (n a : Nat) : Nat

/-- A value the spec does not state, fresh for each use. -/
opaque Config.freeNat (n : Nat) : Nat

/-- A verdict or choice the spec does not state, fresh for each use. -/
opaque Config.freeBool (n : Nat) : Bool

/-- SHAKE256 of a byte string, `n` bytes of output, as a little-endian number (FIPS 202) (log entry 115, DESIGN CHOICE). -/
opaque Config.shake256 (data : List Byte) (n : Nat) : Nat

/-- Whether signed bytes, followed by their signature, verify under a key (R467, FIPS 205): 1 image key, 2 Treystad
debug key, 3 licence key, 4 owner key, whose 64 bytes then come first. -/
opaque Config.verify (key : Nat) (data : List Byte) : Bool

/-- The signature that the identity key of a fused secret makes over a byte string (R478, FIPS 205): `n` bytes as a
little-endian number. -/
opaque Config.sign (dus : Nat) (data : List Byte) (n : Nat) : Nat

/-- The ROM's version (R477). -/
opaque Config.romVersion : Nat

/-- The public key of the identity key generated from the fused secret (R468). -/
opaque Config.identityKey (dus : Nat) : Nat

/-- Manufacture code of a trim group of a cluster, fused (R440). -/
opaque Config.fusedTrim (cluster group : Nat) : Nat

/-- Manufacture count of a cluster's tile replica in 1 ms at 0.75 V and 70 °C, fused (R442). -/
opaque Config.basePace (cluster : Nat) : Nat

/-- Which of the edge's routers that are left joins the `k`-th block of the I/O ring on an edge of a half (0 the west half's
north edge, 1 its south edge, 2 and 3 the east half's): the spec places six LPDDR6 controllers on each, and the UFS host and
Hawthorn on the west half's south edge, without naming their columns (R22). -/
opaque Config.ringColumn (edge k : Nat) : Nat

end Sys2Proof
end

