-- ==== Sys2Proof/Machine/Formats.lean ====
section
/-! DEFINITION. Number formats (R43–R47), exact values, rounding (R62), conversions (R59,
R63, R64), fixed-window sums (R52–R58), residues (R65) and the correctly rounded special
functions (R89). All arithmetic is on exact integers; rounding happens once, where the
spec says. -/

namespace Sys2Proof.Machine

/-! ### Exact values -/

/-- An exact value that an operand, product or sum can have: `±m × 2^e`, an infinity or NaN.
Zeros keep their sign (R60: a sum whose terms are all −0 is −0). -/
inductive Fl where
  | nan
  | inf (neg : Bool)
  | fin (neg : Bool) (m : Nat) (e : Int)
  deriving DecidableEq, Repr

/-- Rounding modes of R62. -/
inductive RMode where
  | nearestEven | towardZero | down | up
  deriving DecidableEq, Repr

/-- The rounding-mode field (R62). -/
def rmodeOf (v : Nat) : RMode :=
  match v % 4 with
  | 0 => .nearestEven
  | 1 => .towardZero
  | 2 => .down
  | _ => .up

/-- The signed integer of a magnitude and sign. -/
def signedMag (neg : Bool) (m : Nat) : Int := if neg then -(m : Int) else (m : Int)

/-- Magnitude `m × 2^e` rounded to a whole multiple of `2^q`, in the mode's direction for the sign. -/
def roundMag (mode : RMode) (neg : Bool) (m : Nat) (e q : Int) : Nat :=
  if q ≤ e then m <<< (e - q).toNat
  else
    let sh := (q - e).toNat
    let n := m >>> sh
    let rem := m % 2 ^ sh
    let half := 2 ^ (sh - 1)
    let bump :=
      match mode with
      | .nearestEven => decide (half < rem) || (decide (rem = half) && n % 2 == 1)
      | .towardZero => false
      | .down => neg && rem != 0
      | .up => !neg && rem != 0
    if bump then n + 1 else n

/-- Floor of the binary logarithm of `m × 2^e`, for `m` non-zero. -/
def log2Mag (m : Nat) (e : Int) : Int := (m.log2 : Int) + e

/-- Exact comparison of two finite values, `a ≤ b`. -/
def finLe (an : Bool) (am : Nat) (ae : Int) (bn : Bool) (bm : Nat) (be : Int) : Bool :=
  let q := min ae be
  let a := signedMag an (am <<< (ae - q).toNat)
  let b := signedMag bn (bm <<< (be - q).toNat)
  decide (a ≤ b)

/-- Exact sum of two finite values under the sign rules of IEEE 754-2019: an exact zero from
operands of opposite sign is +0, or −0 when rounding toward −∞. -/
def addFl (mode : RMode) (a b : Fl) : Fl :=
  match a, b with
  | .nan, _ => .nan
  | _, .nan => .nan
  | .inf x, .inf y => if x == y then .inf x else .nan
  | .inf x, _ => .inf x
  | _, .inf y => .inf y
  | .fin an am ae, .fin bn bm be =>
    let q := min ae be
    let s := signedMag an (am <<< (ae - q).toNat) + signedMag bn (bm <<< (be - q).toNat)
    if s = 0 then
      (if am = 0 && bm = 0 && an == bn then .fin an 0 0 else .fin (mode == .down) 0 0)
    else .fin (decide (s < 0)) s.natAbs q

/-- Exact product (R50). -/
def mulFl (a b : Fl) : Fl :=
  match a, b with
  | .nan, _ => .nan
  | _, .nan => .nan
  | .inf x, .inf y => .inf (x != y)
  | .inf x, .fin bn bm _ => if bm = 0 then .nan else .inf (x != bn)
  | .fin an am _, .inf y => if am = 0 then .nan else .inf (an != y)
  | .fin an am ae, .fin bn bm be => .fin (an != bn) (am * bm) (ae + be)

/-- Sign change of a value. -/
def negFl : Fl → Fl
  | .nan => .nan
  | .inf x => .inf (!x)
  | .fin n m e => .fin (!n) m e

/-- Magnitude of a value. -/
def absFl : Fl → Fl
  | .nan => .nan
  | .inf _ => .inf false
  | .fin _ m e => .fin false m e

/-- A value scaled by `2^k`. -/
def scaleFl (k : Int) : Fl → Fl
  | .fin n m e => .fin n m (e + k)
  | v => v

/-- Order of two non-NaN values, with −0 below +0 (R88, R90). -/
def totalLe (a b : Fl) : Bool :=
  match a, b with
  | .inf true, _ => true
  | _, .inf false => true
  | .inf false, _ => false
  | _, .inf true => false
  | .fin an am ae, .fin bn bm be =>
    if am = 0 && bm = 0 then an || !bn else finLe an am ae bn bm be
  | .nan, _ => true
  | _, .nan => true

/-- Order of two non-NaN values, with −0 equal to +0 (R90, R91). -/
def numLe (a b : Fl) : Bool :=
  match a, b with
  | .fin an am ae, .fin bn bm be => finLe an am ae bn bm be
  | a, b => totalLe a b

/-! ### Formats (R43) -/

/-- A binary floating format: exponent and mantissa bits, bias, the largest finite code, and
whether the format has infinities and NaNs as IEEE 754 lays them out. -/
structure FloatFmt where
  eb : Nat
  mb : Nat
  bias : Int
  maxCode : Nat
  ieee : Bool
  deriving DecidableEq, Repr

/-- binary32. -/
def fmtB32 : FloatFmt := { eb := 8, mb := 23, bias := 127, maxCode := 0x7F7FFFFF, ieee := true }
/-- binary16. -/
def fmtB16 : FloatFmt := { eb := 5, mb := 10, bias := 15, maxCode := 0x7BFF, ieee := true }
/-- bfloat16. -/
def fmtBF16 : FloatFmt := { eb := 8, mb := 7, bias := 127, maxCode := 0x7F7F, ieee := true }
/-- MXFP8 E5M2. -/
def fmtE5M2 : FloatFmt := { eb := 5, mb := 2, bias := 15, maxCode := 0x7B, ieee := true }
/-- MXFP8 E4M3. -/
def fmtE4M3 : FloatFmt := { eb := 4, mb := 3, bias := 7, maxCode := 0x7E, ieee := false }
/-- MXFP6 E3M2. -/
def fmtE3M2 : FloatFmt := { eb := 3, mb := 2, bias := 3, maxCode := 0x1F, ieee := false }
/-- MXFP6 E2M3. -/
def fmtE2M3 : FloatFmt := { eb := 2, mb := 3, bias := 1, maxCode := 0x1F, ieee := false }
/-- MXFP4 E2M1. -/
def fmtE2M1 : FloatFmt := { eb := 2, mb := 1, bias := 1, maxCode := 0x7, ieee := false }

/-- Width of a format in bits. -/
def FloatFmt.width (f : FloatFmt) : Nat := 1 + f.eb + f.mb

/-- Exponent of the least normal value. -/
def FloatFmt.emin (f : FloatFmt) : Int := 1 - f.bias

/-- The value a code of the format stands for (R43, R44). -/
def decodeFl (f : FloatFmt) (v : Nat) : Fl :=
  let neg := v.testBit (f.eb + f.mb)
  let ex := (v >>> f.mb) % 2 ^ f.eb
  let ma := v % 2 ^ f.mb
  let mag := v % 2 ^ (f.eb + f.mb)
  if f.ieee && ex == 2 ^ f.eb - 1 then (if ma = 0 then .inf neg else .nan)
  else if f.maxCode < mag then .nan
  else if ex = 0 then .fin neg ma (f.emin - f.mb)
  else .fin neg (2 ^ f.mb + ma) ((ex : Int) - f.bias - f.mb)

/-- The code of a finite magnitude rounded once to the format's precision, with the exponent
range taken as unbounded above (R63). A code above `maxCode` is beyond range. -/
def roundCode (f : FloatFmt) (mode : RMode) (neg : Bool) (m : Nat) (e : Int) : Nat :=
  if m = 0 then 0
  else
    let q := max (log2Mag m e) f.emin - f.mb
    let n := roundMag mode neg m e q
    ((q + f.mb - f.emin).toNat <<< f.mb) + n

/-- The sign bit of a code. -/
def signCode (f : FloatFmt) (neg : Bool) (c : Nat) : Nat :=
  c + (if neg then 2 ^ (f.eb + f.mb) else 0)

/-- Canonical quiet NaN of an IEEE format (R44). -/
def nanCode (f : FloatFmt) : Nat := ((2 ^ f.eb - 1) <<< f.mb) + 2 ^ (f.mb - 1)

/-- Infinity of an IEEE format. -/
def infCode (f : FloatFmt) (neg : Bool) : Nat := signCode f neg ((2 ^ f.eb - 1) <<< f.mb)

/-- Conversion to binary32, binary16 or bfloat16 (R63 first row): overflow as IEEE 754-2019
gives for the rounding mode. -/
def toIeee (f : FloatFmt) (mode : RMode) : Fl → Nat
  | .nan => nanCode f
  | .inf n => infCode f n
  | .fin n m e =>
    let c := roundCode f mode n m e
    if c ≤ f.maxCode then signCode f n c
    else
      match mode with
      | .nearestEven => infCode f n
      | .towardZero => signCode f n f.maxCode
      | .down => if n then infCode f n else signCode f n f.maxCode
      | .up => if n then signCode f n f.maxCode else infCode f n

/-- One binary32 rounding (R60). -/
def toB32 (mode : RMode) (v : Fl) : Nat := toIeee fmtB32 mode v

/-- The value of a binary32 word. -/
def ofB32 (w : Nat) : Fl := decodeFl fmtB32 w

/-- Conversion to an MX element (R63): saturates, and says whether a saturation event
occurred. The element of a NaN or infinity is the one the table of R63 gives; where it gives
only the block scale, the element is 0 (log entry 12, DESIGN CHOICE). -/
def toMxElem (f : FloatFmt) (mode : RMode) : Fl → Nat × Bool
  | .nan => (if f == fmtE5M2 then 0x7E else if f == fmtE4M3 then 0x7F else 0, false)
  | .inf n => (if f == fmtE5M2 then infCode f n else if f == fmtE4M3 then 0x7F else 0, false)
  | .fin n m e =>
    let c := roundCode f mode n m e
    if c ≤ f.maxCode then (signCode f n c, false) else (signCode f n f.maxCode, true)

/-- A value rounded to an integer multiple of `2^q` as a signed number. -/
def roundInt (mode : RMode) (q : Int) (neg : Bool) (m : Nat) (e : Int) : Int :=
  signedMag neg (roundMag mode neg m e q)

/-- Conversion to MXINT8 (R47, R63): multiples of 2⁻⁶ from −127 to 127 (log entry 14, DEDUCED). -/
def toMxInt8 (mode : RMode) : Fl → Nat × Bool
  | .nan => (0, false)
  | .inf _ => (0, false)
  | .fin n m e =>
    let v := roundInt mode (-6) n m e
    if v < -127 then (patternOf 8 (-127), true)
    else if 127 < v then (127, true)
    else (patternOf 8 v, false)

/-- Conversion to INT8 or INT4 (R63): `w` bits. -/
def toIntFmt (w : Nat) (mode : RMode) : Fl → Nat × Bool
  | .nan => (0, true)
  | .inf n => (patternOf w (if n then -(2 ^ (w - 1) : Int) else 2 ^ (w - 1) - 1), true)
  | .fin n m e =>
    let v := roundInt mode 0 n m e
    if v < -(2 ^ (w - 1) : Int) then (patternOf w (-(2 ^ (w - 1) : Int)), true)
    else if (2 ^ (w - 1) - 1 : Int) < v then (2 ^ (w - 1) - 1, true)
    else (patternOf w v, false)

/-- An integer as an exact value. -/
def flOfInt (v : Int) : Fl := .fin (decide (v < 0)) v.natAbs 0

/-! ### Format codes (R77) -/

/-- Width in bits of one element of a code; an FWS record is 256 bits; RAW has no width of its own. -/
def codeBits (c : Nat) : Nat :=
  match c with
  | 0x0 => 32 | 0x1 => 16 | 0x2 => 16 | 0x3 => 8 | 0x4 => 8 | 0x5 => 6 | 0x6 => 6
  | 0x7 => 4 | 0x8 => 8 | 0x9 => 8 | 0xA => 4 | 0xB => 256 | _ => 0

/-- MX codes are 0x3–0x8 (R77). -/
def isMx (c : Nat) : Bool := 3 ≤ c && c ≤ 8

/-- The floating format of a code, when it is a floating one. -/
def codeFmt (c : Nat) : Option FloatFmt :=
  match c with
  | 0x0 => some fmtB32 | 0x1 => some fmtB16 | 0x2 => some fmtBF16 | 0x3 => some fmtE5M2
  | 0x4 => some fmtE4M3 | 0x5 => some fmtE3M2 | 0x6 => some fmtE2M3 | 0x7 => some fmtE2M1
  | _ => none

/-- The value of an element of a code, before any block scale (R43, R47). An FWS record is
read by `flOfFwsRec`. -/
def decodeElem (c v : Nat) : Fl :=
  match codeFmt c with
  | some f => decodeFl f v
  | none =>
    match c with
    | 0x8 => scaleFl (-6) (flOfInt (signedOf 8 v))
    | 0x9 => flOfInt (signedOf 8 v)
    | 0xA => flOfInt (signedOf 4 v)
    | _ => .nan

/-- e_max of the quantisation of R64. -/
def emaxOf (c : Nat) : Int :=
  match c with
  | 0x3 => 15 | 0x4 => 8 | 0x5 => 4 | 0x6 => 2 | 0x7 => 2 | _ => 0

/-- One element quantised into an MX code (R64). -/
def quantElem (c : Nat) (mode : RMode) (v : Fl) : Nat × Bool :=
  match codeFmt c with
  | some f => toMxElem f mode v
  | none => toMxInt8 mode v

/-- Exponent of the largest finite magnitude of a block, when some value is finite and non-zero (R64). -/
def blockAmax (vs : List Fl) : Option Int :=
  vs.foldl (fun acc v =>
    match v with
    | .fin _ m e =>
      if m = 0 then acc
      else match acc with
        | none => some (log2Mag m e)
        | some k => some (max k (log2Mag m e))
    | _ => acc) none

/-- A block of 32 values quantised (R64): the scale field, and of each element its code and whether it saturates. -/
def quantElems (c : Nat) (mode : RMode) (vs : List Fl) : Nat × List (Nat × Bool) :=
  let bad := vs.any (fun v => match v with | .fin _ _ _ => false | _ => true)
  match blockAmax vs with
  | none => (if bad then 0xFF else 0, vs.map (fun v => ((quantElem c mode v).1, false)))
  | some k =>
    let x : Int := max 0 (min 254 (k - emaxOf c + 127))
    (if bad then 0xFF else x.toNat, vs.map (fun v => quantElem c mode (scaleFl (127 - x) v)))

/-- A block of 32 values quantised (R64): the scale field, the element codes and the number of
saturation events. -/
def quantBlock (c : Nat) (mode : RMode) (vs : List Fl) : Nat × List Nat × Nat :=
  let q := quantElems c mode vs
  (q.1, q.2.map Prod.fst, (q.2.filter Prod.snd).length)

/-! ### Fixed-window sums (R52–R58) -/

/-- An accumulation in progress: its kind (R51) with, for FWS and INT, the 256-bit sum, the
anchor, the flags and the carried residue (R54, R57). -/
structure Fws where
  anchor : Int
  w : Int
  ovf : Bool
  inv : Bool
  trunc : Bool
  res : Nat
  deriving DecidableEq, Repr

/-- An FWS accumulator afresh: W = 0, flags and residue 0 (R80). -/
def fwsZero (anchor : Int) : Fws :=
  { anchor, w := 0, ovf := false, inv := false, trunc := false, res := 0 }

/-- The 256-bit two's-complement register of R54. -/
def wrap256 (v : Int) : Int := signedOf 256 (patternOf 256 v)

/-- The residue of a signed integer, 0 to 126 (R65). -/
def residue (v : Int) : Nat := (v % 127).toNat

/-- Two residue patterns denote one residue: 0x00 and 0x7F are equal (R65). -/
def sameResidue (a b : Nat) : Bool := a % 127 == b % 127

/-- Whether a truncated term or final sum overflows (R55): 192 bits for FWS, 64 for INT. -/
def fwsOver (isInt : Bool) (v : Int) : Bool :=
  let b := if isInt then 63 else 191
  decide (v < -(2 ^ b : Int)) || decide ((2 ^ b : Int) ≤ v)

/-- One term added to a fixed-window sum (R53, R55, R56). -/
def fwsAdd (isInt : Bool) (a : Fws) (t : Fl) : Fws :=
  match t with
  | .nan => { a with inv := true }
  | .inf _ => { a with inv := true }
  | .fin n m e =>
    let k := signedMag n (roundMag .towardZero n m e a.anchor)
    let lost := decide (e < a.anchor) && (m % 2 ^ (a.anchor - e).toNat != 0)
    { a with
      w := wrap256 (a.w + k)
      ovf := a.ovf || fwsOver isInt k
      trunc := a.trunc || lost
      res := (a.res + residue k) % 127 }

/-- Two partials of one reduction combined (R57); partials of different anchors are not combined
and the result carries INV: what else it holds is that of the first (log entry 158, DESIGN CHOICE). -/
def fwsJoin (a b : Fws) : Fws :=
  if a.anchor = b.anchor then
    { a with w := wrap256 (a.w + b.w), ovf := a.ovf || b.ovf, inv := a.inv || b.inv
             trunc := a.trunc || b.trunc, res := (a.res + b.res) % 127 }
  else { a with inv := true }

/-- The verdict on the final sum (R55). -/
def fwsFinal (isInt : Bool) (a : Fws) : Fws :=
  { a with ovf := a.ovf || fwsOver isInt a.w }

/-- The 32-byte record of R58, as a number: W in words 0–5, flags, residue and anchor in word 6. -/
def fwsRec (a : Fws) : Nat :=
  let w := patternOf 192 a.w
  let r := residue (signedOf 192 w)
  w + ((place 24 7 r + place 18 1 (bit01 a.trunc) + place 17 1 (bit01 a.inv)
        + place 16 1 (bit01 a.ovf) + patternOf 10 a.anchor) <<< 192)

/-- A stored record of R58 read back. -/
def fwsOfRec (v : Nat) : Fws :=
  let w6 := fieldNat v 192 32
  let w := signedOf 192 (v % 2 ^ 192)
  { anchor := signedOf 10 w6, w, ovf := w6.testBit 16, inv := w6.testBit 17, trunc := w6.testBit 18
    res := residue w }

/-- A fixed-window value as the exact value that R59 converts. -/
def flOfFws (a : Fws) : Fl :=
  if a.ovf || a.inv then .nan else .fin (decide (a.w < 0)) a.w.natAbs a.anchor

/-- An FWS or INT value converted to an output code by R59: the code's bits, and whether a
saturation event occurred. -/
def fwsToCode (c : Nat) (mode : RMode) (a : Fws) : Nat × Bool :=
  match c with
  | 0x0 => (toIeee fmtB32 mode (flOfFws a), false)
  | 0x1 => (toIeee fmtB16 mode (flOfFws a), false)
  | 0x2 => (toIeee fmtBF16 mode (flOfFws a), false)
  | 0x9 => if a.ovf || a.inv then (0x80, false) else toIntFmt 8 mode (flOfFws a)
  | 0xA => if a.ovf || a.inv then (0x8, false) else toIntFmt 4 mode (flOfFws a)
  | 0xB => (fwsRec a, false)
  | _ => (0, false)

/-- An exact value made an FWS term under R63 with the record's anchor, stored as R58 gives. -/
def fwsOfFl (anchor : Int) (v : Fl) : Fws := fwsAdd false (fwsZero anchor) v

/-- An exact value converted to a non-MX code (R59, R63). `anchor` serves code 0xB. -/
def toCode (c : Nat) (mode : RMode) (anchor : Int) (v : Fl) : Nat × Bool :=
  match c with
  | 0x0 => (toIeee fmtB32 mode v, false)
  | 0x1 => (toIeee fmtB16 mode v, false)
  | 0x2 => (toIeee fmtBF16 mode v, false)
  | 0x9 => toIntFmt 8 mode v
  | 0xA => toIntFmt 4 mode v
  | 0xB => (fwsRec (fwsOfFl anchor v), false)
  | _ => (0, false)

/-- One B32 accumulation step (R60): empty takes the first term rounded once; later terms are
added with one rounding. -/
def b32Add (mode : RMode) (acc : Option Nat) (t : Fl) : Option Nat :=
  match acc with
  | none => some (toB32 mode t)
  | some w => some (toB32 mode (addFl mode (ofB32 w) t))

/-- An accumulator that holds no term reads as +0 (R60). -/
def b32Read (acc : Option Nat) : Nat := acc.getD 0

/-! ### MX blocks (R45, R46, R48, R49) -/

/-- Grid exponent g of an MX element (R48). -/
def gridOf (c : Nat) : Int :=
  match c with
  | 0x7 => -1 | 0x6 => -3 | 0x5 => -4 | 0x4 => -9 | 0x3 => -16 | _ => -6

/-- Element `i` of a packed array of elements `bits` wide (R45). -/
def elemAt (bits : Nat) (arr : Nat) (i : Nat) : Nat := fieldNat arr (bits * i) bits

/-- The block sum of two lists of element values, as R49 gives it: the exact sum of the exact
products, under IEEE rules when an element is not finite; NaN when a scale field is 0xFF.
A zero block sum is +0 (log entry 13, DEDUCED). -/
def blockSum (as bs : List Fl) (xa xb : Nat) : Fl :=
  if xa = 0xFF || xb = 0xFF then .nan
  else
    let s := (as.zip bs).foldl (fun acc p =>
      match acc, mulFl p.1 p.2 with
      | none, .fin n m e => if m = 0 then some (.fin false 0 0) else some (.fin n m e)
      | none, v => some v
      | some a, v => some (addFl .nearestEven a v)) (none : Option Fl)
    match s with
    | none => .fin false 0 0
    | some v =>
      match v with
      | .fin _ 0 _ => .fin false 0 0
      | v => scaleFl ((xa : Int) + xb - 254) v

/-! ### Correctly rounded special functions (R89)

Each function is computed as a rational interval in fixed point with a proven direction of
every truncation, the precision doubling until both ends round to the same binary32 value. -/

/-- Integer square root by bits, from bit `k` down. -/
def isqrtGo (n : Nat) : Nat → Nat → Nat
  | 0, r => if (r + 1) * (r + 1) ≤ n then r + 1 else r
  | k + 1, r =>
    let c := r + 2 ^ (k + 1)
    isqrtGo n k (if c * c ≤ n then c else r)

/-- Integer square root. -/
def isqrt (n : Nat) : Nat := isqrtGo n (n.log2 / 2 + 1) 0

/-- Sum of `1 / (k 2^k)`, the series of ln 2, in `p` fractional bits, rounded down. -/
def ln2Go (p : Nat) : Nat → Nat
  | 0 => 0
  | k + 1 => ln2Go p k + 2 ^ p / ((k + 1) * 2 ^ (k + 1))

/-- ln 2 in `p` fractional bits, as lower and upper bound. -/
def ln2I (p : Nat) : Nat × Nat :=
  let v := ln2Go p (p + 4)
  (v, v + p + 6)

/-- Taylor sum of `exp y`, `y` in `p` fractional bits, `y ≤ 1`: rounded down. -/
def expGo (p y : Nat) : Nat → Nat → Nat → Nat → Nat
  | 0, _, _, acc => acc
  | f + 1, k, term, acc =>
    let t := term * y / (2 ^ p * (k + 1))
    expGo p y f (k + 1) t (acc + t)

/-- Number of Taylor terms that leaves a remainder below one unit. -/
def expTerms (p : Nat) : Nat := p / 3 + 12

/-- `exp` of an interval of `[0, 1]`. -/
def expI (p : Nat) (y : Nat × Nat) : Nat × Nat :=
  let one := 2 ^ p
  (expGo p y.1 (expTerms p) 0 one one, expGo p y.2 (expTerms p) 0 one one + 2 * expTerms p + 4)

/-- Odd series of `atanh z` for `z ≤ 1/2`, rounded down. -/
def atanhGo (p z2 : Nat) : Nat → Nat → Nat → Nat → Nat
  | 0, _, _, acc => acc
  | f + 1, k, pow, acc => atanhGo p z2 f (k + 1) (pow * z2 / 2 ^ p) (acc + pow / (2 * k + 1))

/-- `atanh (a / b)`, with `a / b ≤ 1/3`, as lower and upper bound in `p` fractional bits. -/
def atanhI (p a b : Nat) : Nat × Nat :=
  let zl := a * 2 ^ p / b
  let zh := zl + 1
  let n := p / 3 + 6
  let lo := atanhGo p (zl * zl / 2 ^ p) n 0 zl 0
  let hi := atanhGo p (zh * zh / 2 ^ p + 1) n 0 zh 0 + 2 * n + 4
  (lo, hi)

/-- A magnitude in fixed point with `p` fractional bits, rounded down, and whether it is exact. -/
def fixOf (p m : Nat) (e : Int) : Nat × Bool :=
  let k := e + p
  if 0 ≤ k then (m <<< k.toNat, true)
  else (m >>> (-k).toNat, m % 2 ^ (-k).toNat == 0)

/-- Nearest-even binary32 of `n × 2^(k − p)`. -/
def roundFix (p n : Nat) (k : Int) : Nat := toB32 .nearestEven (.fin false n (k - p))

/-- A rounding accepted when both ends of an interval agree. -/
def agreeB32 (lo hi : Nat) : Option Nat := if lo = hi then some lo else none

/-- Precisions tried in turn. -/
def zivPrecisions : List Nat := [96, 192, 384, 768]

/-- First precision at which a function's two ends round alike; at the last one the lower end
stands (no binary32 input reaches it). -/
def zivRound (f : Nat → Nat × Nat) : List Nat → Nat
  | [] => (f 1024).1
  | p :: ps =>
    let r := f p
    match agreeB32 r.1 r.2 with
    | some v => v
    | none => zivRound f ps

/-- `2^x` for a finite x: exact for integers, else by interval (R89). -/
def exp2Fin (neg : Bool) (m : Nat) (e : Int) : Nat :=
  let big : Nat := 0x7F800000
  if m = 0 then 0x3F800000
  else if 7 < log2Mag m e then (if neg then 0 else big)
  else if log2Mag m e < -27 then 0x3F800000
  else
    let frac := decide (e < 0) && (m % 2 ^ (-e).toNat != 0)
    if !frac then
      let n := if 0 ≤ e then m <<< e.toNat else m >>> (-e).toNat
      toB32 .nearestEven (.fin false 1 (signedMag neg n))
    else
      zivRound (fun p =>
        let x := fixOf p m e
        let whole := x.1 / 2 ^ p
        let fr := x.1 % 2 ^ p
        let fl := if neg then 2 ^ p - fr - 1 else fr
        let fh := if neg then 2 ^ p - fr else fr + 1
        let k : Int := if neg then -(whole : Int) - 1 else (whole : Int)
        let l2 := ln2I p
        let y := (fl * l2.1 / 2 ^ p, fh * l2.2 / 2 ^ p + 1)
        let r := expI p y
        (roundFix p r.1 k, roundFix p r.2 k)) zivPrecisions

/-- EXP2 of R89, as binary32. -/
def exp2B32 : Fl → Nat
  | .nan => nanCode fmtB32
  | .inf true => 0
  | .inf false => infCode fmtB32 false
  | .fin n m e => exp2Fin n m e

/-- `log2 (m × 2^e)` for a positive finite value. -/
def log2Fin (m : Nat) (e : Int) : Nat :=
  let k : Int := log2Mag m e
  if m = 2 ^ m.log2 then toB32 .nearestEven (flOfInt k)
  else
    zivRound (fun p =>
      let b := 2 ^ m.log2
      let ah := atanhI p (m - b) (m + b)
      let l2 := ln2I p
      let lo := 2 * ah.1 * 2 ^ p / l2.2
      let hi := 2 * ah.2 * 2 ^ p / l2.1 + 1
      let base : Int := k * 2 ^ p
      let vl := base + lo
      let vh := base + hi
      (toB32 .nearestEven (.fin (decide (vl < 0)) vl.natAbs (-(p : Int))),
       toB32 .nearestEven (.fin (decide (vh < 0)) vh.natAbs (-(p : Int))))) zivPrecisions

/-- LOG2 of R89, as binary32. -/
def log2B32 : Fl → Nat
  | .nan => nanCode fmtB32
  | .inf true => nanCode fmtB32
  | .inf false => infCode fmtB32 false
  | .fin n m e => if m = 0 then infCode fmtB32 true else if n then nanCode fmtB32 else log2Fin m e

/-- RCP of R89: the quotient with a sticky bit below every rounding position. -/
def rcpB32 : Fl → Nat
  | .nan => nanCode fmtB32
  | .inf n => signCode fmtB32 n 0
  | .fin n m e =>
    if m = 0 then infCode fmtB32 n
    else
      let k := m.log2 + 64
      let q := 2 ^ k / m
      let st := if 2 ^ k % m = 0 then 0 else 1
      toB32 .nearestEven (.fin n (2 * q + st) (-(k : Int) - e - 1))

/-- RSQRT of R89: the integer root with a sticky bit. -/
def rsqrtB32 : Fl → Nat
  | .nan => nanCode fmtB32
  | .inf true => nanCode fmtB32
  | .inf false => 0
  | .fin n m e =>
    if m = 0 then infCode fmtB32 n
    else if n then nanCode fmtB32
    else
      let m' := if e % 2 = 0 then m else 2 * m
      let e' := if e % 2 = 0 then e else e - 1
      let k := m'.log2 / 2 + 64
      let q := 2 ^ (2 * k) / m'
      let s := isqrt q
      let st := if s * s * m' = 2 ^ (2 * k) then 0 else 1
      toB32 .nearestEven (.fin false (2 * s + st) (-(k : Int) - e' / 2 - 1))

/-- `exp (-y)` for `y = m × 2^e` below 256, as an interval in `p` fractional bits after a
shift: the pair of bounds of `exp y` scaled down by `2^n`, and `n`. -/
def expPosI (p m : Nat) (e : Int) : (Nat × Nat) × Nat :=
  let l2 := ln2I p
  let y := fixOf p m e
  let n := y.1 / l2.1
  let n := if n * l2.2 ≤ y.1 then n else n - 1
  let rl := y.1 - n * l2.2
  let rh := y.1 + 1 - n * l2.1
  (expI p (rl, rh), n)

/-- TANH of a finite non-zero magnitude. -/
def tanhFin (m : Nat) (e : Int) : Nat :=
  if 4 ≤ log2Mag m e then 0x3F800000
  else if log2Mag m e < -13 then toB32 .nearestEven (.fin false m e)
  else
    zivRound (fun p =>
      let r := expPosI p m (e + 1)
      let lo := r.1.1 <<< r.2
      let hi := r.1.2 <<< r.2
      let one := 2 ^ p
      (roundFix p ((lo - one) * one / (lo + one)) 0,
       roundFix p ((hi - one) * one / (hi + one) + 1) 0)) zivPrecisions

/-- TANH of R89, as binary32. -/
def tanhB32 : Fl → Nat
  | .nan => nanCode fmtB32
  | .inf n => signCode fmtB32 n 0x3F800000
  | .fin n m e => signCode fmtB32 n (if m = 0 then 0 else tanhFin m e)

/-- LOGISTIC of a finite non-zero value. -/
def logisticFin (neg : Bool) (m : Nat) (e : Int) : Nat :=
  if 7 ≤ log2Mag m e then (if neg then 0 else 0x3F800000)
  else if log2Mag m e < -27 then 0x3F000000
  else
    zivRound (fun p =>
      let r := expPosI p m e
      let lo := r.1.1 <<< r.2
      let hi := r.1.2 <<< r.2
      let one := 2 ^ p
      if neg then
        (roundFix (3 * p) (2 ^ (4 * p) / (hi + one)) 0, roundFix (3 * p) (2 ^ (4 * p) / (lo + one) + 1) 0)
      else
        (roundFix p (lo * one / (lo + one)) 0, roundFix p (hi * one / (hi + one) + 1) 0)) zivPrecisions

/-- LOGISTIC of R89, as binary32. -/
def logisticB32 : Fl → Nat
  | .nan => nanCode fmtB32
  | .inf true => 0
  | .inf false => 0x3F800000
  | .fin n m e => if m = 0 then 0x3F000000 else logisticFin n m e

end Sys2Proof.Machine
end

