-- ==== Sys2Proof/Machine/RegTable.lean ====
section
/-! DEFINITION. The register pages of the device: which page an address lies in (R308),
its block type and instance (R309), and the registers of each page with their access
types, fields and reset values (R310 and the register tables of every chapter). -/

namespace Sys2Proof.Machine

/-! ### Tiles (R12, R15, R18, R19) -/

/-- The four tile types of R15. -/
inductive TileType where
  | t | m | v | s
  deriving DecidableEq, Repr

/-- Half of a tile number (R18). -/
def tileHalf (t : Nat) : Nat := t / 2304

/-- Column of a tile within its half (R18). -/
def tileX (t : Nat) : Nat := (t % 2304) % 32

/-- Row of a tile within its half (R18). -/
def tileY (t : Nat) : Nat := (t % 2304) / 32

/-- The tile number of half `h`, column `x`, row `y` (R18). -/
def tileNum (h x y : Nat) : Nat := h * 2304 + y * 32 + x

/-- The cluster of a tile (R19). -/
def clusterOf (t : Nat) : Nat := tileHalf t * 144 + (tileY t / 4) * 8 + tileX t / 4

/-- The sixteen tiles of a cluster (R19), in local row order. -/
def tilesOf (c : Nat) : List Nat :=
  let h := c / 144
  let cy := (c % 144) / 8
  let cx := c % 8
  (List.range 16).map (fun i => tileNum h (4 * cx + i % 4) (4 * cy + i / 4))

/-- Tile type by local position (R15). -/
def tileType (t : Nat) : TileType :=
  match tileX t % 4, tileY t % 4 with
  | 0, 0 => .t | 1, 0 => .m | 2, 0 => .t | 3, 0 => .v
  | 0, 1 => .m | 1, 1 => .t | 2, 1 => .s | 3, 1 => .t
  | 0, 2 => .t | 1, 2 => .m | 2, 2 => .t | 3, 2 => .m
  | 0, _ => .v | 1, _ => .t | 2, _ => .m | _, _ => .t

/-- Buffer size of a tile in 32-bit words (R15). -/
def tileWords (t : Nat) : Nat :=
  match tileType t with
  | .t => 0x8000
  | .m => 0x20000
  | .v => 0x4000
  | .s => 0x4000

/-- Banks of a tile's scratchpad (R142). -/
def tileBanks (t : Nat) : Nat :=
  match tileType t with
  | .t => 8
  | .m => 32
  | .v => 4
  | .s => 4

/-- Words in one row of a tile's scratchpad (R142). -/
def rowWords (t : Nat) : Nat :=
  match tileType t with
  | .m => 2
  | _ => 16

/-- The bank that holds word offset `w` (R142, R143). -/
def bankOf (t w : Nat) : Nat :=
  match tileType t with
  | .m => 4 * ((w / 0x4000) % 8) + (w / 2) % 4
  | _ => (w / 16) % tileBanks t

/-! ### Pages (R308, R309) -/

/-- The kinds of register page of R309. -/
inductive PageKind where
  | tTile | vTile | sTile | dataflow | scratch | router | qctl
  | qdesc (n : Nat) | qcount (n : Nat) | cluster
  | ic | log | timebase | fabric | memmap | gorbin | sampler | hornbeam | hawthorn | yew
  | bramble | commit | ckpt | power | ufs | i3c
  | port | memctl
  deriving DecidableEq, Repr

/-- Base of the register-page range (R308). -/
def regBase : Nat := 0x020000000000

/-- Address of a register in slot `k` of tile `t` (R308). -/
def tileReg (t k off : Nat) : Nat := regBase + t * 0x20000 + k * 0x1000 + off

/-- Address of a register in the page of cluster `c` (R308). -/
def clusterReg (c off : Nat) : Nat := regBase + 0x30000000 + c * 0x1000 + off

/-- Address of a register in device page `d` (R308). -/
def devReg (d off : Nat) : Nat := regBase + 0x40000000 + d * 0x1000 + off

/-- The tile-page kind of slot 0 (R308). -/
def slot0Kind (t : Nat) : Option PageKind :=
  match tileType t with
  | .t => some .tTile
  | .v => some .vTile
  | .s => some .sTile
  | .m => none

/-- The page kind of slot `k` of tile `t` (R308): slots 0 and 1 of an M tile are unmapped. -/
def slotKind (t k : Nat) : Option PageKind :=
  match k with
  | 0 => slot0Kind t
  | 1 => if tileType t = .m then none else some .dataflow
  | 2 => some .scratch
  | 3 => some .router
  | 4 => some .qctl
  | k => if k ≤ 8 then some (.qdesc (k - 5)) else if k ≤ 16 then some (.qcount (k - 9)) else none

/-- The kind of device page `d` (R309). -/
def deviceKind (d : Nat) : Option PageKind :=
  match d with
  | 0 => some .ic | 1 => some .log | 2 => some .timebase | 3 => some .fabric
  | 4 => some .memmap | 5 => some .gorbin | 6 => some .sampler | 7 => some .hornbeam
  | 8 => some .hawthorn | 9 => some .yew | 10 => some .bramble | 11 => some .commit
  | 12 => some .ckpt | 13 => some .power | 14 => some .ufs | 15 => some .i3c
  | d => if 0x10 ≤ d && d < 0x1E then some .port
         else if 0x20 ≤ d && d < 0x38 then some .memctl else none

/-- A page number decoded: its kind and the tile, cluster, port or controller it belongs to (R308, R309). -/
def decodePage (p : Nat) : Option (PageKind × Nat) :=
  if p < 4608 * 32 then (slotKind (p / 32) (p % 32)).map (fun k => (k, p / 32))
  else if 0x30000 ≤ p && p < 0x30000 + 288 then some (.cluster, p - 0x30000)
  else if 0x40000 ≤ p then
    (deviceKind (p - 0x40000)).map (fun k =>
      (k, match k with
          | .port => p - 0x40010
          | .memctl => p - 0x40020
          | _ => 0))
  else none

/-- Block type code of R309. -/
def typeCode : PageKind → Nat
  | .tTile => 0x0001 | .vTile => 0x0002 | .sTile => 0x0003 | .dataflow => 0x0004
  | .scratch => 0x0005 | .router => 0x0006 | .qctl => 0x0007 | .qdesc _ => 0x0008
  | .qcount _ => 0x0009 | .cluster => 0x000A | .ic => 0x0010 | .log => 0x0011
  | .timebase => 0x0012 | .fabric => 0x0013 | .memmap => 0x0014 | .gorbin => 0x0015
  | .sampler => 0x0016 | .hornbeam => 0x0017 | .hawthorn => 0x0018 | .yew => 0x0019
  | .bramble => 0x001A | .commit => 0x001B | .ckpt => 0x001C | .power => 0x001D
  | .ufs => 0x001E | .i3c => 0x001F | .port => 0x0020 | .memctl => 0x0021

/-- INSTANCE of PAGE_ID (R309). -/
def instanceOf (k : PageKind) (i : Nat) : Nat :=
  match k with
  | .qdesc n => i + n * 0x2000
  | .qcount n => i + n * 0x2000
  | _ => i

/-- The interrupt sources a page drives, for IRQ_SRC (R310, R328): its error source first, then the
sources its home chapter gives it; for the Gorbin page the four of R306, whose error source 308 has
no field left (log entry 21, DEDUCED). -/
def pageSources (k : PageKind) (i : Nat) : List Nat :=
  match k with
  | .cluster => [i]
  | .ic => [] | .log => [288, 289, 290] | .timebase => [291] | .fabric => [292] | .memmap => [293]
  | .sampler => [294] | .hornbeam => [295, 376, 377, 378] | .hawthorn => [296, 383] | .yew => [297, 379, 380]
  | .bramble => [298, 371, 372, 373] | .commit => [299, 368, 369, 370] | .ckpt => [300, 374, 375]
  | .power => [301, 381, 382] | .ufs => [302] | .i3c => [303]
  | .gorbin => [304, 305, 306, 307] | .port => [320 + i] | .memctl => [336 + i]
  | _ => [clusterOf i]

/-- IRQ_SRC: field k at bits `[16k + 15 : 16k]`, VALID above a 9-bit source (R310). -/
def irqSrcWord (l : List Nat) : Nat :=
  ((l.take 4).zipIdx.map (fun p => (0x8000 + p.1) <<< (16 * p.2))).foldl (· + ·) 0

/-! ### Register descriptors -/

/-- Access types of R311. -/
inductive Acc where
  | rw | ro | w1c | wo | rwg | rs
  deriving DecidableEq, Repr

/-- One register, or a row of registers of one layout: its offset, how many there are and
how far apart, its access type, the fields a write replaces (or, for W1C, clears; for WO,
acts on), the named fields a write leaves alone, and its reset value. Every other bit is
reserved (R312). -/
structure RegDesc where
  off : Nat
  n : Nat
  stride : Nat
  acc : Acc
  rw : List (Nat × Nat)
  ro : List (Nat × Nat)
  reset : Nat
  deriving DecidableEq, Repr

/-- A single RW register. -/
def regRW (off : Nat) (rw : List (Nat × Nat)) (reset : Nat := 0) (ro : List (Nat × Nat) := []) : RegDesc :=
  { off, n := 1, stride := 8, acc := .rw, rw, ro, reset }

/-- A single RO register. -/
def regRO (off : Nat) (reset : Nat := 0) : RegDesc :=
  { off, n := 1, stride := 8, acc := .ro, rw := [], ro := [(0, 64)], reset }

/-- A row of RO registers. -/
def regROs (off n stride : Nat) (reset : Nat := 0) : RegDesc :=
  { off, n, stride, acc := .ro, rw := [], ro := [(0, 64)], reset }

/-- A single RS register. -/
def regRS (off : Nat) (reset : Nat := 0) : RegDesc :=
  { off, n := 1, stride := 8, acc := .rs, rw := [], ro := [(0, 64)], reset }

/-- A single WO register. -/
def regWO (off : Nat) (rw : List (Nat × Nat)) : RegDesc :=
  { off, n := 1, stride := 8, acc := .wo, rw, ro := [], reset := 0 }

/-- A row of RW registers. -/
def regRWs (off n stride : Nat) (rw : List (Nat × Nat)) (reset : Nat := 0) (ro : List (Nat × Nat) := []) : RegDesc :=
  { off, n, stride, acc := .rw, rw, ro, reset }

/-- The reset value of a guarded register holding 0: the complement is all ones (R313). -/
def guardZero : Nat := 0xFFFFFFFF00000000

/-- A row of guarded registers; `rw` names the fields of the value half. -/
def regGs (off n stride : Nat) (rw : List (Nat × Nat)) : RegDesc :=
  { off, n, stride, acc := .rwg, rw, ro := [], reset := guardZero }

/-- A single W1C register. -/
def regW1C (off : Nat) (rw : List (Nat × Nat)) : RegDesc :=
  { off, n := 1, stride := 8, acc := .w1c, rw, ro := [], reset := 0 }

/-- The bits that a list of fields covers. -/
def maskOf (l : List (Nat × Nat)) : Nat :=
  l.foldl (fun m f => m ||| ((2 ^ f.2 - 1) <<< f.1)) 0

/-- Bits a write replaces, clears or acts on. A guarded register is written whole (R313). -/
def RegDesc.wmask (r : RegDesc) : Nat :=
  match r.acc with
  | .rwg => 0xFFFFFFFF00000000 ||| maskOf r.rw
  | _ => maskOf r.rw

/-- Reserved bits of the register (R312); the complement half of a guarded register is not reserved. -/
def RegDesc.reserved (r : RegDesc) : Nat :=
  (2 ^ 64 - 1) ^^^ (r.wmask ||| maskOf r.ro)

/-- The common header's registers (R310); PAGE_ID and IRQ_SRC differ by page. -/
def headerRegs (k : PageKind) (i : Nat) : List RegDesc :=
  [ regRO 0x000 ((1 <<< 32) + (typeCode k <<< 16) + instanceOf k i)
  , regRO 0x008
  , regRW 0x010 [(0, 1)] 1
  , regRO 0x018
  , regW1C 0x020 [(0, 8)]
  , regRW 0x028 [(0, 8)]
  , regRO 0x030
  , regRO 0x038
  , regRO 0x040 (irqSrcWord (pageSources k i)) ]

/-- Interrupt controller page (R329). Reserved sources 309–319, 334–335, 360–367 are reserved bits of IC_EN (R328). -/
def icRegs : List RegDesc :=
  [ regROs 0x080 4 8
  , regROs 0x100 8 8
  , regROs 0x140 8 8
  , { off := 0x180, n := 2, stride := 8, acc := .wo, rw := [(0, 64)], ro := [], reset := 0 } ]
  ++ (List.range 4).flatMap (fun t =>
      [ regRWs (0x200 + 0x40 * t) 4 8 [(0, 64)]
      , regRW (0x220 + 0x40 * t) [(0, 53)]
      , regRW (0x228 + 0x40 * t) [(0, 14), (16, 24), (48, 16)]
      , regRWs (0x230 + 0x40 * t) 2 8 [(0, 64)]
      , regRO (0x300 + 0x10 * t)
      , regWO (0x308 + 0x10 * t) [(32, 5), (0, 16)] ])
  ++ [ regRWs 0x400 32 8 [(0, 16)] 0 [(16, 1)] ]

/-- Error log page (R320). -/
def logRegs : List RegDesc :=
  [ regRO 0x080, regRO 0x088, regRW 0x100 [(16, 12), (0, 1)] (2048 <<< 16), regRO 0x108
  , regRW 0x110 [(0, 12)], regRS 0x200, regROs 0x208 7 8 ]

/-- Timebase page (R321). -/
def timebaseRegs : List RegDesc :=
  [ regRO 0x100, regWO 0x108 [(0, 64)], regWO 0x110 [(0, 64)], regRO 0x118 ]

/-- Scratchpad page (R173); bits of BANK_PWR above the tile's bank count are reserved. -/
def scratchRegs (t : Nat) : List RegDesc :=
  [ regROs 0x080 12 8
  , regRW 0x100 [(0, 2)]
  , regRS 0x108
  , regRW 0x110 [(16, 9), (0, 1)] (60 * 0x10000 + 1)
  , regRO 0x118
  , regRW 0x120 [(0, 2 * tileBanks t)]
  , regRO 0x128
  , regRO 0x130
  , regGs 0x140 8 8 [(8, 1), (0, 8)]
  , regGs 0x180 4 0x20 [(31, 1), (17, 5), (0, 17)]
  , regROs 0x188 4 0x20 (0x1FFFF <<< 32)
  , regROs 0x190 4 0x20 (0x1FFFF <<< 32)
  , regGs 0x400 128 0x18 [(31, 1), (0, 17)]
  , regGs 0x408 128 0x18 [(0, 18)]
  , regGs 0x410 128 0x18 [(4, 6), (3, 1), (2, 1), (1, 1), (0, 1)] ]

/-- Queue control page (R203, R204). -/
def qctlRegs : List RegDesc :=
  [ regROs 0x080 6 8
  , regRO 0x100
  , regWO 0x108 [(11, 8), (8, 3), (0, 8)]
  , regWO 0x110 [(44, 17), (36, 8), (0, 28)]
  , regRW 0x118 [(0, 10)]
  , regRO 0x120
  , regRO 0x128 guardZero
  , regRO 0x130
  , regRW 0x140 [(0, 13)]
  , regRW 0x148 [(0, 32)]
  , regGs 0x180 8 0x10 [(14, 14), (0, 13)]
  , regGs 0x188 8 0x10 [(13, 11), (0, 13)]
  , regGs 0x200 8 8 [(0, 16)] ]

/-- Queue descriptor page (R179, R203). -/
def qdescRegs : List RegDesc :=
  [ regRWs 0x100 64 0x20 [(6, 42), (5, 1), (0, 5)]
  , regROs 0x108 64 0x20 guardZero
  , regROs 0x110 64 0x20 guardZero
  , regROs 0x118 64 0x20 guardZero ]

/-- Queue counter page (R203): SENT, RECEIVED, DROPPED, REFUSED, SEND_STALL, READ_WAIT of 32 queues. -/
def qcountRegs : List RegDesc := [ regROs 0x100 192 8 ]

/-- Router page (R231). RT_DATA reads the route table and MC_DATA the multicast table. -/
def routerRegs : List RegDesc :=
  [ regROs 0x080 9 8
  , regRW 0x100 [(16, 9), (8, 6), (1, 1), (0, 1)] (8 <<< 8)
  , regRO 0x108
  , regRW 0x110 [(0, 9)]
  , regRW 0x118 [(0, 64)]
  , regRW 0x120 [(0, 12)]
  , regRW 0x128 [(13, 1), (4, 9), (0, 4)]
  , regRO 0x130 ]

/-- Step-commit page (R361); 0x180–0x1D0 reach the context that CS_INDEX names. -/
def commitRegs : List RegDesc :=
  [ regROs 0x080 6 8
  , regRW 0x100 [(32, 8), (0, 32)] ((3 <<< 32) + 10000)
  , regRW 0x108 [(0, 8)]
  , regRW 0x110 [(54, 5), (9, 39)]
  , regRO 0x118
  , regRW 0x120 [(0, 16)]
  , regGs 0x180 1 8 [(0, 32)]
  , regGs 0x188 1 8 [(0, 16)]
  , regRW 0x190 [(48, 13), (36, 12), (24, 12), (16, 8), (1, 1), (0, 1)] 2
  , regRW 0x198 [(32, 18), (0, 18)]
  , regROs 0x1A0 5 8
  , regWO 0x1C8 [(0, 3)]
  , regRO 0x1D0 ]


/-- T tile page (R72, R106). -/
def tTileRegs : List RegDesc :=
  [ regROs 0x080 4 8, regRO 0x100
  , regRW 0x400 [(0, 3)], regW1C 0x408 [(0, 8)], regROs 0x410 4 8 ]

/-- V tile page (R72, R106). -/
def vTileRegs : List RegDesc :=
  [ regROs 0x080 5 8, regRO 0x100, regRW 0x108 [(0, 1)]
  , regRW 0x400 [(0, 3)], regW1C 0x408 [(0, 8)], regROs 0x410 4 8 ]

/-- S tile page (R106, R107). -/
def sTileRegs : List RegDesc :=
  [ regROs 0x080 5 8, regRO 0x100, regRW 0x108 [(0, 1)]
  , regRWs 0x140 4 0x20 [(0, 2)] 1, regROs 0x148 4 0x20, regROs 0x150 4 0x20 ]

/-- The binding's fields (R111): LAND_BASE, VALID, LAND_EN, OUT_CFG, CONTEXT, TRIG_Q. -/
def bindFields : List (Nat × Nat) := [(48, 15), (31, 1), (30, 1), (27, 3), (16, 8), (8, 8)]

/-- Fields of the eight registers of a steering entry (R125); the last two are reserved. -/
def steerRegs (base : Nat) (ro : Bool) : List RegDesc :=
  (List.range 8).flatMap (fun u =>
    let b := base + 0x40 * u
    let f (off : Nat) (fs : List (Nat × Nat)) : RegDesc :=
      if ro then regRO off else regRW off fs
    [ f b [(61, 3), (59, 2), (58, 1), (32, 16), (24, 8)]
    , f (b + 8) [(0, 40)]
    , f (b + 0x10) [(0, 40)], f (b + 0x18) [(0, 40)], f (b + 0x20) [(0, 40)], f (b + 0x28) [(0, 40)] ])

/-- Slot registers (R140): eight record registers and the binding. -/
def slotRegs (base : Nat) (ro : Bool) : List RegDesc :=
  (List.range 8).flatMap (fun n =>
    let b := base + 0x80 * n
    if ro then [regROs b 9 8]
    else [regRWs b 8 8 [(0, 64)], regRW (b + 0x40) bindFields])

/-- Dataflow page (R140), by tile type. -/
def dataflowRegs (t : Nat) : List RegDesc :=
  let common := [ regROs 0x080 7 8, regRO 0x100, regRW 0x120 [(0, 64)] 0x0706050403020100, regROs 0x180 16 8 ]
  let fold :=
    [ regRO 0x108, regRW 0x110 [(8, 6), (0, 7)], regRO 0x118
    , regRWs 0x200 32 8 [(0, 16), (28, 3), (32, 16), (60, 3)], regROs 0x300 32 8 ]
  match tileType t with
  | .t => common ++ fold ++ slotRegs 0x800 false ++ slotRegs 0xC00 true
  | .v => common ++ fold ++ steerRegs 0x400 false ++ steerRegs 0x600 true ++ slotRegs 0x800 false ++ slotRegs 0xC00 true
  | _ => common ++ steerRegs 0x400 false ++ steerRegs 0x600 true

/-- Telemetry sampler page (R138). -/
def samplerRegs : List RegDesc :=
  [ regRW 0x100 [(0, 1)], regRW 0x108 [(19, 29)], regRO 0x110, regRW 0x118 [(0, 16)], regRO 0x120
  , regRW 0x128 [(0, 9)], regRWs 0x800 256 8 [(8, 13), (0, 8)] ]

/-- Memory controller page (R282). -/
def memctlRegs : List RegDesc :=
  [ regROs 0x080 11 8, regRW 0x100 [(8, 8), (4, 4)] (16 <<< 8), regRO 0x108, regRO 0x110 ]

/-- Memory-map page (R283). -/
def memmapRegs : List RegDesc :=
  [ regRO 0x080, regRW 0x100 [(1, 1), (0, 1)] 2, regRO 0x108 ((384 <<< 16) + 192), regRO 0x110
  , regGs 0x118 3 8 [(0, 32)]
  , regGs 0x200 64 0x10 [(31, 1), (0, 18)]
  , regGs 0x208 64 0x10 [(0, 18)] ]


/-- Cluster page (R30, R463). -/
def clusterRegs : List RegDesc :=
  [ regROs 0x080 4 8, regRO 0x100, regRS 0x108 (0xFFFFF <<< 20)
  , regRW 0x110 [(20, 20), (0, 20)], regRW 0x180 [(0, 2)] 3, regRO 0x188 (750 <<< 12), regRO 0x190 ]

/-- Parith port page (R262). -/
def portRegs : List RegDesc :=
  [ regROs 0x080 16 8, regRW 0x100 [(32, 8), (20, 4), (2, 1), (1, 1), (0, 1)] ((32 <<< 32) + (0xF <<< 20))
  , regRO 0x108 0x10, regRO 0x110, regRW 0x118 [(0, 20)] 100000
  , regROs 0x180 3 8, regROs 0x1A0 5 8 ]

/-- Fabric page (R263); FM_DATA is held once per group, FX_DATA in the exit table. -/
def fabricRegs : List RegDesc :=
  [ regROs 0x080 3 8, regGs 0x100 1 8 [(15, 8), (0, 15)], regRW 0x108 [(0, 11)]
  , regRW 0x110 [(0, 64)] 0xFFFFFFFFFFFFFFFF, regRW 0x118 [(0, 12)]
  , regRW 0x120 [(20, 1), (19, 1), (5, 14), (0, 4)] 0xF
  , regRW 0x128 [(12, 4), (8, 4), (1, 1), (0, 1)] 0xFF00, regRO 0x130 (2 <<< 2), regRO 0x138 ].map
    (fun r => if r.off = 0x100 then { r with reset := 0xFFEFFFFF00100000 } else r)

/-- Gorbin page (R306). -/
def gorbinRegs : List RegDesc :=
  [ regROs 0x080 10 8, regRW 0x100 [(24, 8), (1, 1), (0, 1)] ((0xFF <<< 24) + 1), regRO 0x108, regRO 0x110
  , regRS 0x118, regRWs 0x120 4 8 [(0, 64)], regRW 0x140 [(51, 13), (21, 27)], regRW 0x148 [(6, 42)]
  , regRW 0x150 [(0, 10)], regRW 0x158 [(63, 1), (62, 1), (0, 36)], regRW 0x160 [(32, 10), (16, 16), (8, 8)]
  , regRO 0x168, regRW 0x170 [(6, 41)], regRW 0x178 [(63, 1), (0, 32)]
  , regRWs 0x180 3 0x10 [(63, 1), (2, 45)], regRWs 0x188 3 0x10 [(0, 32)]
  , regRW 0x1C0 [(0, 8)], regRW 0x1C8 [(0, 16)]
  , { off := 0x400, n := 64, stride := 8, acc := .w1c, rw := [(0, 64)], ro := [], reset := 0 }
  , regROs 0x800 32 8 ]

/-- Hornbeam page (R427, R322). -/
def hornbeamRegs : List RegDesc :=
  [ regROs 0x080 3 8, regRW 0x100 [(0, 1)], regRO 0x108 (3 <<< 10), regWO 0x110 [(3, 12), (0, 3)]
  , regRW 0x118 [(0, 64)], regRWs 0x120 4 8 [(0, 64)], regROs 0x140 4 8 ]

/-- Hawthorn page (R488). -/
def hawthornRegs : List RegDesc :=
  [ regROs 0x080 3 8, regRO 0x100, regWO 0x108 [(8, 4), (0, 4)], regRW 0x110 [(0, 48)], regRO 0x118
  , regRS 0x120, regROs 0x128 3 8, regRWs 0x140 4 8 [(0, 64)], regRO 0x160, regROs 0x180 8 8
  , regRWs 0x1C0 4 8 [(0, 64)], regROs 0x200 32 8 ]

/-- Yew page (R444). -/
def yewRegs : List RegDesc :=
  [ regROs 0x080 5 8
  , regRW 0x100 [(40, 8), (32, 8), (24, 8), (20, 4), (16, 4), (8, 8), (1, 1), (0, 1)]
      ((50 <<< 40) + (10 <<< 32) + (16 <<< 24) + (8 <<< 20) + (3 <<< 16) + (7 <<< 8) + 1)
  , regRO 0x108, regWO 0x110 [(8, 9), (0, 3)], regRO 0x118, regRW 0x120 [(0, 9)], regROs 0x128 4 8
  , regRW 0x800 [(0, 30)], regRW 0x808 [(0, 40)], regRW 0x810 [(0, 64)] ]

/-- Bramble page (R386). -/
def brambleRegs : List RegDesc :=
  [ regROs 0x080 5 8
  , regRW 0x100 [(32, 16), (16, 8), (8, 4), (0, 1)] ((20 <<< 32) + (20 <<< 16) + (4 <<< 8) + 1)
  , regRO 0x108, regRW 0x110 [(56, 8), (21, 27)], regRO 0x118, regROs 0x120 4 8
  , regWO 0x140 [(8, 3), (0, 8)], regRW 0x148 [(0, 8)], regRO 0x150, regWO 0x180 [(8, 9), (0, 3)], regRO 0x188
  , regRWs 0x1C0 4 8 [(0, 64)], regRW 0x1E0 [(0, 32)] ]

/-- Checkpoint page (R401); 0x180–0x1C0 reach the stream that CK_INDEX names. -/
def ckptRegs : List RegDesc :=
  [ regROs 0x080 4 8, regRW 0x100 [(8, 8), (0, 1)] (10 <<< 8), regRW 0x108 [(0, 2)], regRW 0x110 [(0, 32)]
  , regRO 0x118, regRW 0x120 [(56, 8), (28, 28), (0, 28)]
  , regRW 0x180 [(63, 1), (48, 8), (32, 15)], regRW 0x188 [(48, 7), (4, 44)]
  , regRW 0x190 [(63, 1), (18, 18), (0, 18)], regRW 0x198 [(63, 1), (48, 15), (40, 8), (18, 18), (0, 18)]
  , regWO 0x1A0 [(51, 1), (48, 3), (0, 48)], regROs 0x1A8 4 8 ]

/-- Power page (R463). -/
def powerRegs : List RegDesc :=
  [ regROs 0x080 4 8
  , regRW 0x100 [(50, 14), (36, 14), (28, 8), (20, 8), (12, 8), (1, 1), (0, 1)]
      ((750 <<< 50) + (650 <<< 36) + (110 <<< 28) + (95 <<< 20) + (10 <<< 12))
  , regRO 0x108, regRW 0x110 [(0, 32)], regRW 0x118 [(0, 8)], regRW 0x120 [(0, 32)], regRW 0x128 [(0, 16)] 1500
  , regRO 0x130, regRW 0x138 [(0, 64)], regRO 0x140, regROs 0x180 8 8 775 ]

/-- UFS page (R408) and I3C page (R517). -/
def ufsRegs : List RegDesc := [ regROs 0x080 3 8, regRW 0x100 [(0, 1)] 1, regRO 0x108 ]

/-- I3C page. -/
def i3cRegs : List RegDesc := [ regROs 0x080 2 8, regRW 0x100 [(0, 1)] 1, regRO 0x108 ]

/-- The registers of a page (R310 and the register tables). -/
def pageRegs (k : PageKind) (i : Nat) : List RegDesc :=
  headerRegs k i ++
  match k with
  | .tTile => tTileRegs | .vTile => vTileRegs | .sTile => sTileRegs
  | .dataflow => dataflowRegs i | .scratch => scratchRegs i | .router => routerRegs
  | .qctl => qctlRegs | .qdesc _ => qdescRegs | .qcount _ => qcountRegs | .cluster => clusterRegs
  | .ic => icRegs | .log => logRegs | .timebase => timebaseRegs | .fabric => fabricRegs
  | .memmap => memmapRegs | .gorbin => gorbinRegs | .sampler => samplerRegs | .hornbeam => hornbeamRegs
  | .hawthorn => hawthornRegs | .yew => yewRegs | .bramble => brambleRegs | .commit => commitRegs
  | .ckpt => ckptRegs | .power => powerRegs | .ufs => ufsRegs | .i3c => i3cRegs
  | .port => portRegs | .memctl => memctlRegs


end Sys2Proof.Machine
end

