-- ==== Sys2Proof/Machine/State.lean ====
section
/-! DEFINITION. The state of the block as plain data, its faults and refusals, and the state
after reset. Registers that software reads lie in one map keyed by device physical address
(R308), each with the reset value of its register table; everything else has a field here. -/

namespace Sys2Proof.Machine

/-- An error record (R316), in the order in which its fields are laid out. -/
structure Record where
  code : Nat
  ctxValid : Bool
  clean : Bool
  seq : Nat
  dt : Nat
  endpoint : Nat
  ctxEpoch : Nat
  context : Nat
  stepTag : Nat
  page : Nat
  detail : List Nat
  deriving DecidableEq, Repr

/-- Memory whose unlisted bytes hold zeros (`seed = 0`) or undefined contents: of the `size` bytes from
`lo` on, the first `width` of every `stride`. -/
structure Fill where
  lo : Nat
  size : Nat
  stride : Nat
  width : Nat
  seed : Nat
  deriving DecidableEq, Repr

/-- Device Time (R35, R36): the count, the correction still to slew in ns, what the servo of R256 has still to remove in
2⁻⁴⁰ ns, the reference nanoseconds since slewing last changed DT, and whether module reset holds it. -/
structure TimeState where
  dt : W64
  slew : Int
  servo : Int
  phase : Nat
  held : Bool
  deriving DecidableEq, Repr

/-- The error log (R318–R320): the collectors' buffers (0–287 clusters, 288 the ring), the
stored records by slot, the next SEQ, the record that LOG_REC shows, and when each collector last passed one (DT plus 1). -/
structure LogState where
  coll : NMap (List Record)
  ring : NMap Record
  seq : Nat
  snap : List Nat
  passed : NMap Nat
  deriving DecidableEq, Repr

/-- The interrupt controller (R323–R327): events on their way, pending and presented bits, the
end of each group's open hold-off window, whether a source became pending during it, and the
targets asserted. -/
structure IrqState where
  events : List Nat
  pend : BitVec 512
  pres : BitVec 512
  holdEnd : NMap Nat
  duringHold : NMap Bool
  target : NMap Bool
  deriving DecidableEq, Repr

/-- One flit: flit `idx` of a packet (R210), with the input port by which it entered the router that holds it. `id` is the
number of its packet in the mesh, a copy of a multicast having one of its own, and `orig` the number under which it came into
the router: the model's own. -/
structure Flit where
  pkt : Pkt
  idx : Nat
  inPort : Nat
  id : Nat := 0
  orig : Nat := 0
  deriving DecidableEq, Repr

/-- A packet at location `loc` that waits for a router's own action (R218, R224): the port by which it came in, its number,
and how many of its flits have come. -/
structure Here where
  loc : Nat
  port : Nat
  pkt : Pkt
  id : Nat
  came : Nat
  deriving DecidableEq, Repr

/-- A multicast packet that router `loc` has begun to copy before its last flit came: its port, its number, and the ports
that it leaves by, each with the number of the copy (R218). -/
structure McFlow where
  loc : Nat
  port : Nat
  id : Nat
  outs : List (Nat × Nat)
  deriving DecidableEq, Repr

/-- A combining entry of a router or a Parith port (R224, R254): the partial it holds and when it opened, in steps. -/
structure Comb where
  red : Red
  opened : Nat
  deriving DecidableEq, Repr

/-- An up-tree reply awaited at a router (R218): the replies combined so far and the ports heard from. -/
structure UpSlot where
  group : Nat
  type : Nat
  round : Nat
  heard : Nat
  acc : Ctrl
  deriving DecidableEq, Repr

/-- A completion-store entry (R225): the partial or the eight B32 accumulators, NEXT for B32,
the partials held for later, whether the reduction is complete, and whether partials of different anchors met (R57). -/
structure CompEntry where
  red : Red
  sums : List (Option Nat)
  next : Nat
  held : List Red
  done : Bool
  mis : Bool
  deriving DecidableEq, Repr

/-- Packets in the mesh (R207–R226): handed to their source router, on each link (sent and not
yet accepted by the receiver), received by a router for its own action, delivered to a tile;
route-table entries that
differ from the default route (R214, R215); consecutive failures of a link and the replays asked for; boundaries at which VC3 gave way;
combining entries,
up-tree slots and completion stores; the last flit of the packet of each VC that a link has begun and not
finished; a flit to be sent again; the input port whose VC0 flit a port sent last; messages refused at
their head flit whose later flits are still to come; the round of the mesh probes, how many sums in
a row were 0 and the window of the last probe (its index plus 1; R217); the flits that a link's output port sent last
(R209); and the flits of packets at a source whose earlier flits have entered (R208); the up-tree replies that Parith ports owe for packets that
went out of them, by port, and the VOTEs that came in by a port, as group and round, the last of each group (R253); the number
that the next packet in the mesh takes, and the multicast packets that are being copied. -/
structure NetState where
  inject : List (Nat × Pkt)
  links : NMap (List Flit)
  here : List Here
  ejected : List (Nat × Pkt)
  routes : NMap Nat
  fails : NMap Nat
  replay : NMap Bool
  vc3 : NMap Nat
  comb : NMap (List Comb)
  up : NMap (List UpSlot)
  comp : NMap (List CompEntry)
  last : NMap (List Flit)
  again : NMap (List Flit)
  turn : NMap Nat
  sunk : List (Nat × Nat)
  meshRound : Nat
  meshQuiet : Nat
  meshAt : Nat
  stored : NMap (List Flit)
  entering : NMap (List Flit)
  awaited : List (Nat × Ctrl)
  votes : NMap (List (Nat × Nat))
  serial : Nat
  flows : List McFlow
  deriving DecidableEq, Repr

/-- What a handler thread waits for (R187, R196, R201); `stopped` after a handler fault (R202). -/
inductive TWait where
  | none
  | credit
  | tag
  | message (q : Nat)
  | stopped
  deriving DecidableEq, Repr

/-- The message a handler thread runs on (R182): held by its queue, discarded by RESET so that the thread stops
before its next operation, or discarded by CLOSE so that the thread runs to END. -/
inductive MsgFate where
  | held
  | reset
  | closed
  deriving DecidableEq, Repr

/-- A handler thread (R200): the queue it serves and those it served before a GET, the message P, whether it came from a
queue and what became of it there, the handler's place in the store, registers and outbound buffer. -/
structure Thread where
  busy : Bool
  ctx : Nat
  queue : Nat
  served : List Nat
  own : Option Nat
  fate : MsgFate
  nack : Bool
  base : Nat
  start : Nat
  count : Nat
  pc : Nat
  g : NMap W32
  obuf : NMap W32
  msg : Msg
  wait : TWait
  since : Nat
  deriving DecidableEq, Repr

/-- The units that send messages (R177). -/
inductive Sender where
  | thread (n : Nat)
  | act
  | steer (u : Nat)
  | dma (ch : Nat)
  | store
  | doorbell (n : Nat)
  | block
  deriving DecidableEq, Repr

/-- A message that waits for credit (R187): its unit, the queue the unit serves, and since when. -/
structure SendWait where
  unit : Nat
  sender : Sender
  queue : Nat
  msg : Msg
  since : Nat
  deriving DecidableEq, Repr

/-- A credit-table entry (R185): destination, context, epoch and the guarded count of slots; and the slots of messages to
another device of which neither the credit nor a NACK has come back (R339). -/
structure Credit where
  dest : Nat
  ctx : Nat
  epoch : Nat
  cred : W64
  away : Nat
  deriving DecidableEq, Repr

/-- A refused send whose handler 0x3FF has not started (R194). -/
structure NackJob where
  tile : Nat
  queue : Nat
  cause : Nat
  hdr : Header
  deriving DecidableEq, Repr

/-- An OPEN held for the acknowledgement of a REVOKE (R188), whether Hornbeam issued it, and whether it reopens a
torn context's queue, whose grant plan follows (R376). -/
structure HeldOpen where
  tile : Nat
  queue : Nat
  ctx : Nat
  hornbeam : Bool
  plan : Bool
  deriving DecidableEq, Repr

/-- A grant of the grant plan (R376): the context, the queue and its tile, the sender's device and tile, and
the slots. -/
structure PlanGrant where
  ctx : Nat
  tile : Nat
  queue : Nat
  dev : Nat
  sender : Nat
  slots : Nat
  deriving DecidableEq, Repr

/-- Queues and handlers (R175–R205): handler stores, credit tables
(1,024 entries for each tile, then Hornbeam's and the Gorbin port's), threads, messages waiting for credit or for
a handler 0x3FF, REVOKEs not yet acknowledged (tile, queue, context), held OPENs, the grant plans, the queues (context, tile, queue) that
teardowns put into RESET and that a reopening OPENs, when readers of an empty queue
began to wait, headers on their way that handlers 0x3FF sent, and those the Gorbin port sent with
their doorbell (1,024 for an MSG). -/
structure QueueState where
  store : NMap W32
  cred : NMap Credit
  threads : NMap Thread
  sends : List SendWait
  nacks : List NackJob
  revokes : List (Nat × Nat × Nat)
  opens : List HeldOpen
  plan : List PlanGrant
  toOpen : List (Nat × Nat × Nat)
  readWait : NMap Nat
  fromNack : List Header
  gbSent : List (Header × Nat)
  deriving DecidableEq, Repr

/-- A T accumulator entry (R80): the kind that last wrote it (0 none, 1 B32, 2 FWS, 3 INT), its
eight B32 accumulators, and its fixed-window sum with flags and residue. -/
structure AccEntry where
  kind : Nat
  b32 : List (Option Nat)
  fws : Fws
  deriving DecidableEq, Repr

/-- An activation in progress (R112): its slot, context and record; 0 while a V activation
gathers its rows, 1 when ready, 2 when its operation has run; whether it waits for an operand;
rows received on IN_Q_A and IN_Q_B, and the bytes of the rows still open; the steps of its operation done, what
the accesses of the step in progress have brought (byte offset and bytes), and the conditions its accumulations
raised (accumulation, code of R74). -/
structure Act where
  on : Bool
  slot : Nat
  ctx : Nat
  words : List Nat
  phase : Nat
  waiting : Bool
  queue : Nat
  rowsA : List (List Byte)
  rowsB : List (List Byte)
  curA : List Byte
  curB : List Byte
  lists : List (List Byte)
  step : Nat
  hand : List (Nat × List (Option Byte))
  raised : List (Nat × Nat)
  deriving DecidableEq, Repr

/-- An accumulation that Scruple has still to check (R66, R67): its residue, whether a prediction from the
operands meets the block adder's residue, whether that meets an accumulator's, whether floating significands or
exponents are checked, and the codes of the conditions that it raised, whose records follow the check's (R75). -/
structure Chk where
  res : Nat
  mul : Bool
  acc : Bool
  flt : Bool
  codes : List Nat
  deriving DecidableEq, Repr

/-- Accumulations that Scruple has still to check (R68): their context, the index of the first
within the step, and whether SCR_INJECT offset the first one's prediction. -/
structure ScrJob where
  ctx : Nat
  first : Nat
  chks : List Chk
  inject : Bool
  deriving DecidableEq, Repr

/-- A DMA descriptor (R100) with the context it runs in; `last` marks the last of its message. -/
structure Desc where
  words : List Nat
  ctx : Nat
  last : Bool
  deriving DecidableEq, Repr

/-- A DMA channel (R99, R103): the descriptor in progress with its next element, the answers of that
element's accesses so far, the scale of the MX block being read (block, byte), the MX block being written (block; scale field, and
code and saturation of each element), the byte of durable memory that the last
element ended in with the contents it gave it (address, byte), whether an access waits, and the descriptors of the head message that have
not started. -/
structure Chan where
  cur : Option Desc
  elem : Nat
  hand : List (List (Option Byte))
  scale : Option (Nat × Option Byte)
  block : Option (Nat × Option (Nat × List (Nat × Bool)))
  tail : Option (Nat × Byte)
  blocked : Bool
  queued : List Desc
  deriving DecidableEq, Repr

/-- The STOP that a tile is executing (R128): target pair, mode, and whether it held a set before. -/
structure StopState where
  set : Nat
  epoch : Nat
  flush : Bool
  held : Bool
  deriving DecidableEq, Repr

/-- Where Hornbeam placed a set (R134, R135): image address, tiles, multicast group, current epoch and contexts. -/
structure Placed where
  image : Nat
  group : Nat
  tiles : List Nat
  epoch : Nat
  flush : Bool
  limit : Nat
  ctxs : List Nat
  deriving DecidableEq, Repr

/-- Hornbeam's view of a set being drained (R131, R132): when STOP was sent, its mode, target epoch
and limit, the tiles of the set, the sums of the last probe round, how many rounds in a
row were quiescent, the window of the last PROBE (its index plus 1) and whether its reply was judged, the placement that COMMIT
adopts, whether its limit passed and its hang is under recovery, and whether the hang is still to be raised again (R368). -/
structure Drain where
  set : Nat
  group : Nat
  epoch : Nat
  flush : Bool
  tStop : Nat
  limit : Nat
  tiles : List Nat
  lastInj : Option Nat
  quiet : Nat
  round : Nat
  heard : Bool
  next : Placed
  hung : Bool
  again : Bool
  deriving DecidableEq, Repr

/-- Tiles' engines (R80–R105, R112–R140): accumulators, activations, checks owed, accumulation
index within the step, DMA channels, steering counters, since when steering units have lacked credit (DT plus 1), STOPs in progress, contexts stopped by
a program fault, buffer writes waiting for a bank port, nanoseconds of the
compatibility counters with the DT of the last read, sets being drained and sets placed. -/
structure FlowState where
  acc : NMap AccEntry
  acts : NMap Act
  scr : NMap (List ScrJob)
  accIndex : NMap Nat
  chans : NMap Chan
  steerCount : NMap Nat
  steerWait : NMap Nat
  stops : NMap StopState
  stopped : List (Nat × Nat)
  bufWrites : NMap (List (Nat × List Byte))
  compatNs : NMap Nat
  compatRead : NMap Nat
  compatSeen : NMap Nat
  drains : List Drain
  sets : NMap Placed
  deriving DecidableEq, Repr

/-- A full/empty tag with its complement (R163): sound when the two differ. -/
structure Tag where
  full : Bool
  comp : Bool
  deriving DecidableEq, Repr

/-- Who asks for a scratchpad access (R159): a management agent, the companion by a request of the link (R293),
or a unit of a tile working for a context. -/
inductive Req where
  | mgmt (a : Agent)
  | link (h : GbHdr)
  | thread (t n : Nat)
  | act (t : Nat)
  | dma (t ch : Nat)
  deriving DecidableEq, Repr

/-- Access operations of R162, with the indivisible AADD and CAS of R201. -/
inductive SpOp where
  | rd | wr | rdFull | rdTake | wrFill | clrTag | aadd | cas
  deriving DecidableEq, Repr

/-- A scratchpad access (R159, R162): tile, byte offset and bytes, operation, requester, context (none
for a management access), the bytes to be written (none where a withheld word left a gap), and how many low bits of
the first byte and high bits of the last a DMA element that begins or ends inside a byte leaves as they are (R151). -/
structure SpAcc where
  tile : Nat
  boff : Nat
  len : Nat
  op : SpOp
  req : Req
  ctx : Option Nat
  data : List (Option Byte)
  keep : Nat × Nat := (0, 0)
  deriving DecidableEq, Repr

/-- A tagged access that waits for its slot, or at a port for room in the waiter table (R164, R165). -/
structure Waiter where
  acc : SpAcc
  since : Nat
  atPort : Bool
  deriving DecidableEq, Repr

/-- An access held for a bank that wakes or a region whose tags are being set, or for space or data
of a circular region (R157, R161, R171). -/
structure HeldAcc where
  acc : SpAcc
  circ : Option Nat
  deriving DecidableEq, Repr

/-- A corrected code unit that waits to be written back (R152): its tile, first word, class and data. -/
structure WriteBack where
  tile : Nat
  word : Nat
  weight : Bool
  data : Nat
  deriving DecidableEq, Repr

/-- Scratchpad (R146–R172): tags by word, residence-slot flags (bit 0 CLEAN, bit 1 NOFAULT), waiters
and held accesses, corrected code units to be written back, when each woken bank's window ends,
regions whose tags are being set EMPTY, the scrub pass in progress by tile (its index plus 1, 0 for
none), the DT plus 1 at which its last pass began, and RAW mode of Yew (R429). -/
structure PadState where
  tags : NMap Tag
  flags : NMap Nat
  waiters : List Waiter
  heldAcc : List HeldAcc
  writeBacks : List WriteBack
  wakeEnd : NMap Nat
  tagInit : List (Nat × Nat)
  pass : NMap Nat
  passAt : NMap Nat
  rawMode : Bool
  deriving DecidableEq, Repr


/-- A packet in an egress buffer (R251): when its head flit entered, the hops it carries, and whether it is an output of this
device rather than transit (R349). -/
structure EgressPkt where
  pkt : Pkt
  since : Nat
  hop : Nat
  own : Bool
  deriving DecidableEq, Repr

/-- A packet whose first run has started and that is not yet acknowledged (R242–R244): its sequence and hops, the flit that
its runs send next, the flits that credit was spent on, and whether it is being resent. -/
structure Sent (α : Type) where
  seq : Nat
  pkt : α
  hop : Nat
  next : Nat
  paid : Nat
  replay : Bool
  deriving DecidableEq, Repr

/-- A packet of the mesh in a Parith port's replay buffer. -/
abbrev SentPkt := Sent Pkt

/-- What a Parith port sends (R241, R242): the link header of a run, its flits, and control blocks. -/
inductive LinkOut where
  | header (vc : Nat) (cont replay : Bool) (len seq hop : Nat)
  | flit (p : Pkt) (idx : Nat)
  | ack (nak : Bool) (seq : Nat)
  | credits (vc0 vc1 vc2 vc3 : Nat)
  | time (kind num dt : Nat)
  | ident (dev port serial : Nat)
  | lanes (mask : Nat)
  deriving DecidableEq, Repr

/-- The time exchange in progress and its history (R255, R256): number, window (plus 1) of the last REQ,
t1; the port it went to (plus 1); the delays of the last 16 exchanges with that port, in
1/16 ns; consecutive good and bad offsets; and whether DT was set once to the parent's (R256). -/
structure TimeX where
  num : Nat
  window : Nat
  t1 : Nat
  via : Nat
  delays : List Int
  good : Nat
  bad : Nat
  jumped : Bool
  deriving DecidableEq, Repr

/-- The Parith fabric (R233–R263), by port: egress and replay buffers, next sequence to send and
sequence expected, link credits by VC and since when a VC has none (DT plus 1), flits and packets for which
credit and acknowledgement are owed, whether a NAK awaits its replay, when the state last changed and when
acknowledged progress was last made (DT plus 1), when a VC3 flit of other
traffic than checkpoint data was last sent (DT plus 1), the packet whose run is on the wire (its sequence plus 1), flit
boundaries at which VC3 gave way (R220), lanes that Hornbeam ordered trained again (R240), flits in ingress that an earlier
link brought, for which no credit is owed, the identity held before the last DOWN, the flits in the boundary FIFO toward the mesh
of each port, of the Gorbin port (14) and of Hornbeam (15), and those held before it, each with the router it enters (R32–R34), the
sequences that a port accepted before an earlier one, which a packet of a higher VC overtook (R243), and the time exchange. -/
structure FabricState where
  egress : NMap (List EgressPkt)
  sent : NMap (List SentPkt)
  txSeq : NMap Nat
  rxSeq : NMap Nat
  credit : NMap Nat
  noCredit : NMap Nat
  owed : NMap Nat
  ackOwed : NMap Bool
  nak : NMap Bool
  since : NMap Nat
  moved : NMap Nat
  vc3At : NMap (Nat × Nat)
  onWire : NMap Nat
  vc3Gave : NMap Nat
  retrain : NMap Nat
  stale : NMap Nat
  peer : NMap Nat
  fifo : NMap (List (Nat × Flit))
  fifoHeld : NMap (List (Nat × Flit))
  rxAhead : NMap (List Nat)
  time : TimeX
  deriving DecidableEq, Repr

/-- LPDDR6 memory (R265–R283): channels that the hash leaves out, corrected units to be written back,
uncorrectable units of a channel by window (window number and count), channels whose retraining
failed once, DT and temperature of the last training, when a retraining fell due (DT plus 1), the package temperature last
read by controller and by channel the one at its entry into self-refresh, the next unit of the patrol scrub within its block, and the pass in progress. -/
structure DramState where
  hashOut : List Nat
  writeBacks : List (Nat × Nat)
  ueCount : NMap (Nat × Nat)
  failedOnce : NMap Bool
  trainedAt : NMap Nat
  trainedTemp : NMap Nat
  dueAt : NMap Nat
  temp : NMap Nat
  restTemp : NMap Nat
  scrubUnit : Nat
  scrubPass : Nat
  deriving DecidableEq, Repr

/-- A line that the coherence directory tracks (R295): 1 S, 2 E, 3 LOST. -/
structure DirLine where
  line : Nat
  st : Nat
  deriving DecidableEq, Repr

/-- A request or snoop of the device that awaits its response (R290, R291). -/
structure GbReq where
  tag : Nat
  opc : Nat
  addr : Nat
  since : Nat
  deriving DecidableEq, Repr

/-- A companion request that waits behind an earlier posted one (R294). -/
structure GbWait where
  hdr : GbHdr
  data : List Byte
  deriving DecidableEq, Repr

/-- A line of the gateway cache (R297): 1 S, 2 E, 3 M, with its 64 bytes. -/
structure GwLine where
  st : Nat
  data : List Byte
  deriving DecidableEq, Repr

/-- A packet of the Gorbin port (R290). -/
structure GbPkt where
  opc : Nat
  tag : Nat
  addr : Nat
  status : Nat
  data : List Byte
  deriving DecidableEq, Repr

/-- An MSI that follows earlier writes of companion memory (R294): its vector, the DMA channels whose writes waited when it
was due, and the write that it makes. -/
structure MsiWait where
  vector : Nat
  after : List Nat
  addr : Nat
  data : List Byte
  deriving DecidableEq, Repr

/-- What waits at a line or a channel of LPDDR6 (R40, R277, R295, R296): a write by a unit of the device, the data of a line
that the companion gave back, an access that an agent asked for, or a request of the companion. -/
inductive LateItem where
  | write (addr : Nat) (data : List (Option Byte)) (ctx : Option Nat)
  | line (line : Nat) (data : List Byte)
  | agent (a : Agent) (ctx : Option Nat) (addr len : Nat)
  | comp (hdr : GbHdr) (data : List Byte)
  deriving DecidableEq, Repr

/-- The Gorbin port (R285–R307): the egress buffer and the packets sent and not acknowledged; the directory in the order in
which lines entered it, outstanding requests and snoops, companion requests that wait behind a posted one in the order in
which they came, accesses that wait at the directory in the order in which they reached it; the gateway cache by line, lines
whose request ended without data with the status, DMA channels (tile × 4 + channel) whose write waits for lines; MSIs that follow writes; the pending doorbell values and the bytes of the image that the
boot path has read (R305). The link layer's counts stand with those of the Parith ports, as port 14. -/
structure GorbinState where
  out : List GbPkt
  sent : List (Sent GbPkt)
  dir : List DirLine
  reqs : List GbReq
  waits : List GbWait
  late : List LateItem
  gw : NMap GwLine
  gwFail : NMap Nat
  gwPend : List Nat
  msiWait : List MsiWait
  db : NMap W64
  bootImg : List Byte
  deriving DecidableEq, Repr

/-- The current attempt of a context's step (R331–R352): when it opened, whether and when the
block voted, whether an ABORT arrived before the vote completed and with FAULT, its kind (0 first,
1 replay, 2 audit, 3 third), the tiles whose vote notices arrived, whether this attempt was torn
down already, the clean commits counted at the root, the clusters of the first and of the audit placement, the
first and the audit attempt's signatures, whether the journal's entries were applied, whether DIRTY
was asked for after the block's vote, and whether the root called for a third attempt. -/
structure Attempt where
  openDt : Nat
  voted : Bool
  voteDt : Nat
  aborted : Bool
  abortFault : Bool
  kind : Nat
  notices : List Nat
  torn : Bool
  cleanCount : Nat
  firstClusters : List Nat
  auditClusters : List Nat
  firstSig : Nat
  auditSig : Nat
  applied : Bool
  dirtyNext : Bool
  third : Bool
  deriving DecidableEq, Repr

/-- A quarantined cluster that waits for its classification (R350, R351): the abort's context, step
and code, the signature of the aborted attempt when it is complete, whether the replay could be
placed elsewhere, whether R352 named it, and the residues of its record. -/
structure Suspect where
  cluster : Nat
  ctx : Nat
  step : Nat
  code : Nat
  firstSig : Option Nat
  replaySig : Option Nat
  unplaced : Bool
  audit : Bool
  pred : Nat
  obs : Nat
  deriving DecidableEq, Repr

/-- A cluster named by a record that cleared a checks-clean bit (R350): the code and the residues. -/
structure Named where
  cluster : Nat
  code : Nat
  pred : Nat
  obs : Nat
  deriving DecidableEq, Repr

/-- Step commit (R331–R363): attempts, DIRTY requests on their way, clusters named by records that cleared checks-clean bits, quarantined clusters, confirmation results by cluster (1 pass, 2 fail), strikes with
the DT of the first, the tiles that contributed to reductions of the open step (tile, destination, reduction ID), fenced tiles, fences still to be logged, the fence log, conditional fences in
force, the contexts a tile holds from its vote until OPEN, step-end tokens that tiles hold, and the
trim vectors that RAW mode set. -/
structure CommitState where
  att : NMap Attempt
  dirtyReq : List Nat
  named : NMap (List Named)
  quar : List Suspect
  confirm : NMap Nat
  strikes : NMap (Nat × Nat)
  contrib : NMap (List (Nat × Nat × Nat))
  fenced : NMap Bool
  fenceJobs : List Nat
  fenceLog : List Nat
  condFences : List Nat
  inForce : List Nat
  held : NMap Bool
  endTok : NMap Bool
  rawTrim : NMap Nat
  deriving DecidableEq, Repr

/-- A hang (R366–R370): its members as pairs of cluster and context, its cause (1 closed set,
2 drain limit), its DT, and the set whose drain it ends. -/
structure Hang where
  members : List (Nat × Nat)
  cause : Nat
  dt : Nat
  set : Option Nat
  deriving DecidableEq, Repr

/-- Hang detection and recovery (R364–R385): the last two windows (index plus 1) in which each node made progress, how many
windows had ended when the last one was judged, consecutive stalled windows by node, pairs (queue, sender) granted, the queue of hangs, the hang under
recovery with its step times, the contexts of its current round, suspects to admit, a hang that the context under admission re-formed, contexts found guilty, teardowns in progress with
the DTs of their orders 1 and 2, why each torn context was torn (guilty or not), and the clusters of
a reset in progress with the contexts (cluster, context) that it tore down there, the teardowns that Hornbeam owes, the context held by a D2 session, since
when a context waits for its re-placement, and the contexts for which no placement was found. -/
structure RecovState where
  progress : NMap (Nat × Nat)
  window : Nat
  stalled : NMap Nat
  granted : List (Nat × Nat)
  hangQ : List Hang
  current : Option Hang
  phaseDt : Nat
  round : List Nat
  toAdmit : List Nat
  admitDt : Nat
  admHang : Option Hang
  guilty : List Nat
  anyGuilty : Bool
  draining : NMap (Nat × Nat)
  tornGuilty : NMap Bool
  released : List Nat
  inReset : NMap Bool
  resetting : List Nat
  resetCtx : List (Nat × Nat)
  resetCmd : Nat
  tdReq : List Nat
  dbgHold : Option Nat
  replaceDt : NMap Nat
  unplaceable : List Nat
  deriving DecidableEq, Repr

/-- What a UFS command is for: the image and the flash directory, the licence, the fence log, the ageing
area with the hour at whose end it fell due, a stream's flash copy or restore (R396, R398, R406–R411, R439, R443), or a command of the host itself. -/
inductive UfsUser where
  | directory
  | image (part : Nat)
  | licence
  | licenceWrite
  | fenceLoad (block : Nat)
  | fenceWrite
  | ageLoad (block : Nat)
  | ageWrite (hour : Nat)
  | sdRead
  | sdWrite
  | sdConsume
  | flash (stream part : Nat)
  | restore (stream part : Nat)
  | refill
  | host
  deriving DecidableEq, Repr

/-- A UFS command (R407): its operation (0 READ, 1 WRITE, 2 SYNCHRONIZE CACHE, 3 TEST UNIT READY,
4 INQUIRY, 5 REQUEST SENSE, 6 READ CAPACITY), place, data to write, user, failures so far and whether it was issued. -/
structure UfsCmd where
  op : Nat
  lun : Nat
  block : Nat
  count : Nat
  data : List Byte
  user : UfsUser
  tries : Nat
  issued : Bool
  deriving DecidableEq, Repr

/-- The UFS host (R406–R408): commands queued and issued, when the last one completed (DT plus 1), the
flash directory as loaded (kind, unit, first block, blocks), and the fence log's highest sequence number, the entries of its
block, that block's place in the area, and the places of all its blocks (R411). -/
structure UfsState where
  cmds : List UfsCmd
  idleSince : Nat
  dir : List (Nat × Nat × Nat × Nat)
  logSeq : Nat
  logCur : List Nat
  logAt : Nat
  logUsed : List Nat
  deriving DecidableEq, Repr

/-- A checkpoint stream (R388–R400): the step of the checkpoint in progress as owner and as holder, the
half it goes to, a TAKE that waits with its step and since when, whether its lateness was recorded,
the segments (address, blocks, kind), whether the snapshot was taken, STATE bytes sent, the DT of the last
seal (plus 1), whether CK_DUE stands, seals since the last flash copy, whether a flash copy is owed, the flash
copy and the export in progress (half and next part), whether the copy's next part waits to be issued, the restore in progress
(target, half, from flash, next byte), the blocks of the image that it sends, the part read from flash, the pieces of an
arriving restore by offset, the pieces of the held checkpoint that arrived by offset (lengths), and the hold in µs of the
checkpoint in progress (R400). -/
structure CkStream where
  ownTake : Option Nat
  holdTake : Option Nat
  half : Nat
  wait : Option (Nat × Nat)
  late : Bool
  segs : List (Nat × Nat × Nat)
  captured : Bool
  next : Nat
  sealDt : Nat
  due : Bool
  seals : Nat
  flashOwed : Bool
  flashAt : Option (Nat × Nat)
  exportAt : Option (Nat × Nat)
  copyWaits : Bool
  restore : Option (Nat × Nat × Bool × Nat)
  restBlocks : Nat
  part : Option (Nat × List Byte)
  got : NMap (List Byte)
  came : NMap Nat
  hold : Nat
  deriving DecidableEq, Repr

/-- Checkpoints (R388–R402): streams, and the DTs of the events that CK_EVENTS counts (R400). -/
structure CkptState where
  streams : NMap CkStream
  events : List Nat
  deriving DecidableEq, Repr

/-- A chunk that a tile's loader is collecting or holds (R414): the pieces received and whether it is complete. -/
structure FwChunk where
  got : NMap (List Byte)
  ok : Bool
  deriving DecidableEq, Repr

/-- The licence accepted at START (R424): variant, number and validity window. -/
structure Licence where
  variant : Nat
  number : Nat
  notBefore : Nat
  notAfter : Nat
  deriving DecidableEq, Repr

/-- Bring-up (R403–R426): the image as read, the step reached within the phase, the address of the topology statement and
its text once verified, the licence area as read, the licence accepted, whether TB_SET came before BOOT, blocks of the
fence log by place (sequence number, then entries), the newest ageing record, firmware chunks by loader (tile × 64 + chunk),
copy tiles by cluster, the round of R416 with its tiles and the chunks that copy tiles held at its start, clusters whose copy
tile waits for its refill, whether a context was bound since bring-up, the companion address of an INSTALL_LICENCE and the
HB_ARG of a JSCAN that wait for the companion, the shut-down record as read, the DT at which LINKS or TOPOLOGY began, and
whether the licence's expiry was noted. -/
structure BootState where
  img : List Byte
  step : Nat
  bootArg : Option Nat
  stmt : List Byte
  lic : Option (List Byte)
  licence : Option Licence
  tbSet : Bool
  logBlocks : NMap (List Nat)
  newest : Option (Nat × List Byte)
  fw : NMap FwChunk
  copyTile : NMap Nat
  fwRound : Option Nat
  fwTiles : List Nat
  fwHeld : List Nat
  refill : List Nat
  bound : Bool
  install : Option Nat
  jscan : Option Nat
  sdRecord : Option (List Byte)
  topoDt : Nat
  expired : Bool
  deriving DecidableEq, Repr

/-- A test of Yew (R429–R438): its mode as in YW_STAT, its cluster, whether its voltage has been reached, whether a
condition of R431 failed since, the tiles of its cluster fenced before it, and the tiles and pattern classes that failed at the service point. -/
structure YewTest where
  mode : Nat
  cluster : Nat
  started : Bool
  bad : Bool
  fenced : Nat
  fails : List (Nat × Nat)
  deriving DecidableEq, Repr

/-- What the hour's ageing record of a cluster collects (R443): the sum, count and lowest of TILE_PACE, the highest
temperature in °C, canary trips, and tests passed and failed. -/
structure HourStat where
  sum : Nat
  count : Nat
  low : Nat
  hot : Int
  trips : Nat
  passed : Bool
  failed : Bool
  deriving DecidableEq, Repr

/-- Yew (R429–R443): queued tests in order of request, the test in progress, tests due by cluster with their due DT,
the last cluster scheduled and when the schedule moves next, invalid tests to queue again and when, the DT of the
yield's last record, the clusters being vacated, canary trips of the open window by class (cluster × 2, plus 1 for routers) with
the window, the tiles of router trips, the ends of holds, classes whose margin is exhausted, the hours' statistics by hour and cluster (hour × 512 +
cluster), the last hour recorded (plus 1), the pace window that each cluster published last (its index plus 1; R28), fences added by the shut-down test, the test voltage of clusters under test, those of them whose regulator has shown it, the sweeps that the shut-down test still has to run, and by cluster the lowest
temperature of its strikes and of its confirmation passes in 0.1 °C (R436). -/
structure YewState where
  queue : List YewTest
  run : Option YewTest
  due : NMap Nat
  last : Nat
  nextDt : Nat
  again : List (YewTest × Nat)
  yieldDt : Nat
  vacate : List Nat
  trips : NMap Nat
  tripWin : NMap Nat
  tripTiles : NMap (List Nat)
  holdEnd : NMap Nat
  exhausted : List Nat
  hour : NMap HourStat
  aged : Nat
  paced : NMap Nat
  sdFences : Nat
  testVolt : NMap Nat
  ready : List Nat
  sdSweeps : List YewTest
  strikeTemp : NMap Int
  passTemp : NMap Int
  deriving DecidableEq, Repr

/-- Power (R446–R462): since when each cluster has had no work (DT plus 1), clusters that are entering a state (2 or
3), the DT at which each waking cluster's exit began, since when every cluster has been idle (DT plus 1), the device state
being entered, the DT at which the device's exit began, whether the lanes of R450 are quiet, REQUIRED of each segment in tenths of a
mV, since when it has stood at its target (DT plus 1), and clusters whose banks are zeroed before C3 (R486). -/
structure PowerState where
  idle : NMap Nat
  entering : NMap Nat
  waking : NMap Nat
  allIdle : Nat
  devEnter : Option Nat
  devWake : Option Nat
  quiet : Bool
  req : NMap Nat
  settled : NMap Nat
  zeroBanks : List Nat
  deriving DecidableEq, Repr


/-- An open debug session (R480–R482): level, context for D2, key (0 owner, 1 Treystad debug) and its end. -/
structure Session where
  level : Nat
  ctx : Nat
  key : Nat
  notAfter : Nat
  deriving DecidableEq, Repr

/-- Fuses (R411, R424, R467–R476): blown life-cycle groups, MIN_EPOCH, the owner key, the fused secret (none: not
present), whether a fuse failed its read-back, and the fuse map's fence entries. -/
structure Fuses where
  lc : Nat
  minEpoch : Nat
  ownerKey : Option (List Byte)
  dus : Option Nat
  failed : Bool
  map : List Nat
  deriving DecidableEq, Repr

/-- Hawthorn (R466–R490): the fuses, the DT at which the challenge shown was drawn while it is current, the session, the command in
progress (command, HW_ARG and the challenge current at its acceptance), the random source's health and the DT of its
last failure. -/
structure SecState where
  fuses : Fuses
  chal : Option Nat
  session : Option Session
  running : Option (Nat × Nat × Option Nat)
  trngOk : Bool
  trngDt : Nat
  deriving DecidableEq, Repr


/-- The module's pins and I3C target (R508–R517): MOD_RST_N low, a rail or clock fault, an over-temperature reset,
the result waiting for the BMC (status and data), the address of a read that waits for the companion, UFS_RST_N asserted, and the instruction in the test access port's register
(0 BYPASS, 1 IDCODE, 2 SAMPLE/PRELOAD, 3 EXTEST, 4 INTEST). -/
structure ModuleState where
  rstLow : Bool
  supplyFault : Bool
  overTemp : Bool
  result : Option (Nat × Nat)
  read : Option Nat
  ufsRst : Bool
  jtag : Nat
  deriving DecidableEq, Repr

/-- Answers and signals that leave the block, oldest first: register reads and management
accesses answered to their agents, Gorbin packets, in-band interrupts, pins. -/
inductive Out where
  | regRead (a : Agent) (status : Nat) (v : W64)
  | access (r : Req) (status : Nat) (data : List (Option Byte))
  | bytes (a : Agent) (status : Nat) (data : List Byte)
  | link (port : Nat) (b : LinkOut)
  | gbFlit (p : GbPkt) (idx : Nat)
  | ufs (op lun block count : Nat) (data : List Byte)
  | sealed (dev ctx step dt : Nat)
  | ibi (data : Nat)
  | i3cResult (status : Nat) (data : Nat)
  | msi (vector : Nat)
  | ufsReset (asserted : Bool)
  | jtag (instr : Nat)
  deriving DecidableEq, Repr

/-- Why a step can stop with a fault. No meaning of this model stops so: every row of the table
has an effect in the spec, and wrong operands are answered by records and error responses.
The one constructor is kept for a command whose operands name no unit of the device. -/
inductive Fault where
  /-- A command names a unit the device does not have. Raised by no meaning; safe. -/
  | noSuchUnit
  deriving DecidableEq, Repr

/-- Why a command can be refused. -/
inductive Refusal where
  /-- A row of the table without a meaning yet: raised by `exec` alone; safe. -/
  | notModelled (mnemonic : String)
  deriving DecidableEq, Repr

/-- The whole state of the block. -/
structure State where
  /-- The queue of waiting commands, first in, first out. -/
  pending : List Instr
  /-- MODEL'S OWN: the number of free values drawn so far (log entry 2). -/
  free : Nat
  /-- Registers by device physical address (R308); banked registers above 2⁴⁸ (log entry 3). -/
  regs : NMap W64
  /-- Bytes of LPDDR6 and scratchpad by device physical address (R23). -/
  mem : List Host.Cell
  /-- Stretches whose unlisted bytes hold zeros or undefined contents, newest first (log entry 150, DESIGN CHOICE). -/
  fills : List Fill
  /-- Difference between stored and encoding check bits: scratchpad words, LPDDR6 units (R146, R268). -/
  chk : NMap Nat
  /-- Windows of rate-limited records, by limiter (R37, R312). -/
  limits : NMap Nat
  time : TimeState
  log : LogState
  irq : IrqState
  net : NetState
  q : QueueState
  flow : FlowState
  pad : PadState
  fabric : FabricState
  dram : DramState
  gorbin : GorbinState
  commit : CommitState
  recov : RecovState
  ufs : UfsState
  ckpt : CkptState
  boot : BootState
  yew : YewState
  power : PowerState
  sec : SecState
  module : ModuleState
  /-- Everything handed to the world, oldest first (log entry 150, DESIGN CHOICE). -/
  out : List Out
  deriving DecidableEq, Repr

/-- A descriptor of the page that holds an offset, with the index within its row. -/
def findReg (l : List RegDesc) (off : Nat) : Option (RegDesc × Nat) :=
  match l with
  | [] => none
  | r :: rs =>
    if r.off ≤ off && off < r.off + r.n * r.stride && (off - r.off) % r.stride == 0
    then some (r, (off - r.off) / r.stride) else findReg rs off

/-- Keys at or above 2⁴⁸ hold the banked copies of an indexed register. -/
def regBankSize : Nat := 0x1000000000000

/-- The address under which copy `k` of an indexed register is held. -/
def banked (a k : Nat) : Nat := a + regBankSize * (k + 1)

/-- The reset value of the register at a key: that of its register table (R310). -/
def regReset (key : Nat) : W64 :=
  let a := key % regBankSize
  match decodePage ((a - regBase) / 0x1000) with
  | none => 0
  | some (k, i) =>
    match findReg (pageRegs k i) ((a - regBase) % 0x1000) with
    | none => 0
    | some (r, _) => BitVec.ofNat 64 r.reset

/-- An empty message, for fields that hold none. -/
def emptyMsg : Msg :=
  { hdr := { dst := 0, creditEpoch := 0, context := 0, handler := 0, vc := 0, len := 0, src := 0
             ctxEpoch := 0, linkSeq := 0, payLen := 0, stepTag := 0, rsv4 := 0, rsv5 := 0
             mgmt := false, pad := false, prov := false }
    pay := [] }

/-- The block right after module power-up (R36, R492 and the reset column of every register
table): registers at their reset values, memory with nothing listed, nothing in progress but the cold reset itself (log entry 205,
DEDUCED). -/
def State.reset : State :=
  { pending := []
    free := 0
    regs := []
    mem := []
    fills := []
    chk := []
    limits := []
    time := { dt := 0, slew := 0, servo := 0, phase := 0, held := true }
    log := { coll := [], ring := [], seq := 0, snap := [], passed := [] }
    irq := { events := [], pend := 0, pres := 0, holdEnd := [], duringHold := [], target := [] }
    net := { inject := [], links := [], here := [], ejected := [], routes := [], fails := [], replay := [], vc3 := [], comb := [], up := [], comp := []
            , last := [], again := [], turn := [], sunk := [], meshRound := 0, meshQuiet := 0, meshAt := 0
            , stored := [], entering := [], awaited := [], votes := [], serial := 1, flows := [] }
    q := { store := [], cred := [], threads := [], sends := [], nacks := [], revokes := [], opens := [], plan := [], toOpen := [], readWait := [], fromNack := [], gbSent := [] }
    flow := { acc := [], acts := [], scr := [], accIndex := [], chans := [], steerCount := [], steerWait := [], stops := []
              stopped := [], bufWrites := [], compatNs := [], compatRead := [], compatSeen := []
              drains := [], sets := [] }
    pad := { tags := [], flags := [], waiters := [], heldAcc := [], writeBacks := [], wakeEnd := []
             tagInit := [], pass := [], passAt := [], rawMode := false }
    fabric := { egress := [], sent := [], txSeq := [], rxSeq := [], credit := [], noCredit := [], owed := [], ackOwed := []
                nak := [], since := [], moved := [], vc3At := [], onWire := [], vc3Gave := [], retrain := [], stale := [], peer := [], fifo := [], fifoHeld := [], rxAhead := []
                time := { num := 0, window := 0, t1 := 0, via := 0, delays := [], good := 0, bad := 0, jumped := false } }
    dram := { hashOut := [], writeBacks := [], ueCount := [], failedOnce := [], trainedAt := [], trainedTemp := [], dueAt := [], temp := [], restTemp := []
              scrubUnit := 0, scrubPass := 0 }
    gorbin := { out := [], sent := [], dir := [], reqs := [], waits := [], late := [], gw := [], gwFail := [], gwPend := [], msiWait := [], db := [], bootImg := [] }
    commit := { att := [], dirtyReq := [], named := [], quar := [], confirm := [], strikes := [], contrib := []
                fenced := [], fenceJobs := [], fenceLog := [], condFences := [], inForce := [], held := [], endTok := [], rawTrim := [] }
    recov := { progress := [], window := 0, stalled := [], granted := [], hangQ := [], current := none, phaseDt := 0, round := [], toAdmit := []
               admitDt := 0, admHang := none, guilty := [], anyGuilty := false, draining := [], tornGuilty := [], released := []
               inReset := [], resetting := [], resetCtx := [], resetCmd := 4
               tdReq := [], dbgHold := none, replaceDt := [], unplaceable := [] }
    ufs := { cmds := [], idleSince := 0, dir := [], logSeq := 0, logCur := [], logAt := 0, logUsed := [] }
    ckpt := { streams := [], events := [] }
    boot := { img := [], step := 0, bootArg := none, stmt := [], lic := none, licence := none, tbSet := false, logBlocks := []
              newest := none, fw := [], copyTile := [], fwRound := none, fwTiles := [], fwHeld := [], refill := [], bound := false
              install := none, jscan := none, sdRecord := none, topoDt := 0, expired := false }
    yew := { queue := [], run := none, due := [], last := 287, nextDt := 0, again := [], yieldDt := 0, vacate := [], trips := [], tripWin := []
             tripTiles := [], holdEnd := [], exhausted := [], hour := [], aged := 0, paced := [], sdFences := 0, testVolt := [], ready := [], sdSweeps := [], strikeTemp := [], passTemp := [] }
    power := { idle := [], entering := [], waking := [], allIdle := 0, devEnter := none, devWake := none, quiet := false, req := [], settled := [], zeroBanks := [] }
    sec := { fuses := { lc := 0, minEpoch := 0, ownerKey := none, dus := none, failed := false, map := [] }
             chal := none, session := none, running := none, trngOk := true, trngDt := 0 }
    module := { rstLow := false, supplyFault := false, overTemp := false, result := none, read := none, ufsRst := false, jtag := 1 }
    out := [] }

end Sys2Proof.Machine
end

