-- ==== Sys2Proof/Machine/Ops.lean ====
section
/-! DEFINITION. The named operations over registers, counters, error records, interrupt events
and memory, which every meaning is built from (R308–R330, R491, R496). -/

namespace Sys2Proof.Machine

/-! ### Registers -/

/-- A register's value. -/
def rd (s : State) (a : Nat) : W64 := mapGet regReset s.regs a

/-- A register set to a value. -/
def wr (s : State) (a : Nat) (v : W64) : State := { s with regs := mapPut regReset s.regs a v }

/-- A field of a register. -/
def rdF (s : State) (a lo n : Nat) : Nat := fieldOf (rd s a) lo n

/-- A field of a register replaced. -/
def wrF (s : State) (a lo n v : Nat) : State := wr s a (setField (rd s a) lo n v)

/-- A bit of a register. -/
def rdB (s : State) (a i : Nat) : Bool := bitOf (rd s a) i

/-- A bit of a register set. -/
def wrB (s : State) (a i : Nat) (b : Bool) : State := wr s a (setBit (rd s a) i b)

/-- A guarded register written with its complement (R313). -/
def wrG (s : State) (a v : Nat) : State := wr s a (guardOf v)

/-- A field of a guarded register's value replaced, with the complement rewritten. -/
def wrGF (s : State) (a lo n v : Nat) : State := wrG s a (guardVal (setField (rd s a) lo n v))

/-- Whether a stored guarded value passes its complement (R313) (log entry 64, DEDUCED). -/
def gOk (s : State) (a : Nat) : Bool := guardOk (rd s a)

/-- Registers forgotten in an address range, which then read as their reset values. -/
def clearRegs (s : State) (lo hi : Nat) : State := { s with regs := mapClear s.regs lo hi }

/-- Address of the first register of a page. -/
def pageBase (p : Nat) : Nat := regBase + p * 0x1000

/-- The page that holds a register address. -/
def pageOf (a : Nat) : Nat := (a % regBankSize - regBase) / 0x1000

/-- Page number of slot `k` of a tile, of a cluster page and of a device page (R308). -/
def tilePage (t k : Nat) : Nat := t * 32 + k
/-- Page of a cluster. -/
def clusterPage (c : Nat) : Nat := 0x30000 + c
/-- Device page `d`. -/
def devPage (d : Nat) : Nat := 0x40000 + d

/-- Device Time as a number of ns (R35). -/
def now (s : State) : Nat := s.time.dt.toNat

/-- The device's own ID (R263). -/
def deviceId (s : State) : Nat := rdF s (devReg 3 0x100) 0 15

/-! ### Free values -/

/-- A value the spec leaves open, fresh at each use (log entry 2, DESIGN CHOICE). -/
def freeNat (s : State) : Nat := Config.freeNat s.free

/-- The next free value will be a fresh one. -/
def drawn (s : State) : State := { s with free := s.free + 1 }

/-- The next `n` free values have been used. -/
def drawnMany (s : State) (n : Nat) : State := { s with free := s.free + n }

/-! ### Interrupt events -/

/-- An event of an interrupt source on its way to the controller (R323); a rise of sources 289, 370, 381 and 382 is
also an in-band interrupt of the I3C target while IBI_EN is 1 (R516) (log entry 65, DEDUCED). -/
def raise (s : State) (src : Nat) : State :=
  let ibi := (src == 289 || src == 370 || src == 381 || src == 382) && rdB s (devReg 15 0x100) 0
  { s with irq := { s.irq with events := s.irq.events ++ [src] }, out := if ibi then s.out ++ [.ibi (src - 288)] else s.out }

/-- The error source of a page: the first source of its IRQ_SRC, for the kinds that drive one (R328). -/
def errSource (k : PageKind) (i : Nat) : Option Nat :=
  match k with
  | .ic => none
  | .log => none
  | .gorbin => some 308
  | k => (pageSources k i).head?

/-- The error source of a page number. -/
def pageErrSource (p : Nat) : Option Nat := (decodePage p).bind (fun q => errSource q.1 q.2)

/-- A page drives its error source: an unmasked ERR_STAT bit with ERR_IRQ_EN set (R310). -/
def pageErr (s : State) (p : Nat) : Bool :=
  let b := pageBase p
  rdB s (b + 0x10) 0 && (rdF s (b + 0x20) 0 8 &&& (255 - rdF s (b + 0x28) 0 8)) != 0

/-- The error condition of a source holds: some page that drives it shows an unmasked bit. -/
def errCond (s : State) (src : Nat) : Bool :=
  s.regs.any (fun q => regBase ≤ q.1 && q.1 < regBase + 0x100000000 && q.1 % 0x1000 == 0x20
    && pageErrSource (pageOf q.1) == some src && pageErr s (pageOf q.1))

/-- The event of a level source whose condition became true between two states (R323). -/
def raiseIfNew (before after : State) (src : Nat) : State :=
  if errCond after src && !errCond before src then raise after src else after

/-! ### Error records and counters -/

/-- The collector of a page: its cluster's, or the ring's (R318). -/
def collectorOf (p : Nat) : Nat :=
  if p < 4608 * 32 then clusterOf (p / 32) else if p < 0x40000 then p - 0x30000 else 288

/-- ERR_STAT bits set by one condition, with ERR_FIRST, ERR_COUNT and the page's error source (R310) (log entry 67, DEDUCED). -/
def errSet (s : State) (p bits code : Nat) : State :=
  let b := pageBase p
  let old := rdF s (b + 0x20) 0 8
  let s1 := if old = 0 then wr s (b + 0x30) (BitVec.ofNat 64 ((code <<< 32) + now s % 2 ^ 32)) else s
  let s2 := wrF s1 (b + 0x20) 0 8 (old ||| bits)
  let s3 := wrF s2 (b + 0x38) 0 32 (min (rdF s (b + 0x38) 0 32 + 1) 0xFFFFFFFF)
  match pageErrSource p with
  | some src => raiseIfNew s s3 src
  | none => s3

/-- LOG_OVERFLOW counts a lost record and source 290 has an event (R319, R328). -/
def logOverflow (s : State) : State :=
  raise (wrF s (devReg 1 0x88) 0 32 (min (rdF s (devReg 1 0x88) 0 32 + 1) 0xFFFFFFFF)) 290

/-- A record enters its collector's buffer of 16, or is lost (R318); the ERR_STAT bits it gives. -/
def enqueueRec (s : State) (p : Nat) (r : Record) : State × Nat :=
  let q := mapGet (fun _ => []) s.log.coll (collectorOf p)
  if q.length < 16 then
    ({ s with log := { s.log with coll := mapPut (fun _ => []) s.log.coll (collectorOf p) (q ++ [r]) } }, 0x40)
  else (logOverflow s, 0xC0)

/-- The 36-bit endpoint of a tile's queue on this device (R20). -/
def endpoint (s : State) (t q : Nat) : Nat := (deviceId s <<< 21) + (t <<< 8) + q

/-- Context epoch of a context, in TD_STAT (R376). -/
def epochOf (s : State) (c : Nat) : Nat := rdF s (banked (devReg 10 0x150) c) 16 16

/-- Step number of a context (R331). -/
def stepOf (s : State) (c : Nat) : Nat :=
  rdF s (banked (devReg 11 0x180) c) 0 32 + (rdF s (banked (devReg 11 0x188) c) 0 16 <<< 32)

/-- What a record says beside its code and page: the queue concerned, the context, whether a
checks-clean bit was cleared, and the detail words. -/
structure RecInfo where
  queue : Nat := 0
  ctx : Option Nat := none
  clean : Bool := false
  detail : List Nat := []
  deriving DecidableEq, Repr

/-- Codes whose home chapter gives a DETAIL (R68, R69, R150, R158, R202, R259, R271, R367, R476, R480); the detail of any other
record is 0 (R316) (log entry 203, DEDUCED). -/
def detailGiven (code : Nat) : Bool :=
  [0x0101, 0x0102, 0x0103, 0x0104, 0x0105, 0x010C, 0x0403, 0x0404, 0x0405, 0x0408, 0x050C, 0x0705, 0x0802, 0x0803, 0x0807, 0x0C01,
    0x0E01, 0x1105].contains code

/-- The record of a condition (R316): tile units name their tile and queue, units of the ring and
of Privet tile 0x1FFF. -/
def mkRec (s : State) (p code : Nat) (i : RecInfo) : Record :=
  { code := code, ctxValid := i.ctx.isSome, clean := i.clean, seq := 0, dt := now s
    endpoint := if p < 4608 * 32 then endpoint s (p / 32) i.queue else endpoint s 0x1FFF 0
    ctxEpoch := (i.ctx.map (epochOf s)).getD 0, context := i.ctx.getD 0
    stepTag := (i.ctx.map (fun c => stepOf s c % 65536)).getD 0
    page := p, detail := if detailGiven code then i.detail else [] }

/-- The cluster of a tile page that wrote a record with CLEAN_CLEARED joins those named in the open
step of the record's context (R350), with the predicted and observed residues that the record gives. -/
def nameCluster (s : State) (p code : Nat) (i : RecInfo) : State :=
  match i.ctx with
  | some c =>
    if i.clean && p < 4608 * 32 then
      let l := mapGet (fun _ => []) s.commit.named c
      let k := clusterOf (p / 32)
      if l.any (fun n => n.cluster == k) then s
      else
        let d := if code = 0x0105 then i.detail.drop 1 else i.detail
        let e : Named := { cluster := k, code := code, pred := d.getD 0 0, obs := d.getD 1 0 }
        { s with commit := { s.commit with named := mapPut (fun _ => []) s.commit.named c (l ++ [e]) } }
    else s
  | none => s

/-- The events that CK_EVENTS counts (R400): fences, links that went down, resets. -/
def noteEvent (s : State) (code : Nat) : State :=
  if code = 0x0B0A || code = 0x0705 || code = 0x0C0B then { s with ckpt := { s.ckpt with events := s.ckpt.events ++ [now s] } } else s

/-- A condition that sets ERR_STAT bits and writes a record, without a saturation record. -/
def report0 (s0 : State) (p bits code : Nat) (i : RecInfo) : State :=
  let s := noteEvent s0 code
  let e := enqueueRec s p (mkRec s p code i)
  nameCluster (errSet e.1 p (bits ||| e.2) code) p code i

/-- The record of a counter that reached its maximum (R496). -/
def saturated (s : State) (a : Nat) : State := report0 s (pageOf a) 0 0x1202 {}

/-- Saturation records of ERR_COUNT and LOG_OVERFLOW, due when a condition took them to their maximum. -/
def satCheck (before after : State) (p : Nat) : State :=
  let e := pageBase p + 0x38
  let s1 := if rdF after e 0 32 = 0xFFFFFFFF && rdF before e 0 32 != 0xFFFFFFFF then saturated after e else after
  let l := devReg 1 0x88
  if rdF after l 0 32 = 0xFFFFFFFF && rdF before l 0 32 != 0xFFFFFFFF then saturated s1 l else s1

/-- A condition that sets ERR_STAT bits and writes an error record (R310, R316). -/
def reportB (s : State) (p bits code : Nat) (i : RecInfo := {}) : State :=
  satCheck s (report0 s p bits code i) p

/-- A condition that writes an error record (R310, R316). -/
def report (s : State) (p code : Nat) (i : RecInfo := {}) : State := reportB s p 0 code i

/-- A stored guarded value found with mismatched halves: ERR_STAT.GUARD_FAULT and a record (R313). -/
def guardReport (s : State) (p code : Nat) (i : RecInfo := {}) : State := reportB s p 2 code i

/-- A condition that sets ERR_STAT bits and writes no record (R310). -/
def setErr (s : State) (p bits : Nat) : State := satCheck s (errSet s p bits 0) p

/-- A write ignored under a rule of the home chapter: ERR_STAT.IGNORED (R310). -/
def ignored (s : State) (p : Nat) : State := setErr s p 8

/-- One increment or more of a wrapping 48-bit counter with its sticky WRAP bit (R491). -/
def incWrap (s : State) (a k : Nat) : State :=
  let v := rdF s a 0 48 + k
  let s1 := wrF s a 0 48 (v % 2 ^ 48)
  if 2 ^ 48 ≤ v then wrB s1 a 63 true else s1

/-- Increments of a saturating counter of `n` bits, with its one record (R491, R496). -/
def incSatN (s : State) (a n k : Nat) : State :=
  let v := rdF s a 0 n
  let w := min (v + k) (2 ^ n - 1)
  let s1 := wrF s a 0 n w
  if w = 2 ^ n - 1 && v != w then satCheck s (saturated s1 a) (pageOf a) else s1

/-- Increments of a saturating 32-bit counter (R491). -/
def incSat (s : State) (a : Nat) (k : Nat := 1) : State := incSatN s a 32 k

/-- A limiter: whether this window's one occurrence is still to come, and the state after it. Key
and window are numbers; a window entry stands for the last window used (log entry 145, DEDUCED). -/
def limitOnce (s : State) (key win : Nat) : Bool × State :=
  if mapGet (fun _ => 0) s.limits key = win + 1 then (false, s)
  else (true, { s with limits := mapPut (fun _ => 0) s.limits key (win + 1) })

/-- Key of a limiter: its family, and two numbers within it. -/
def limitKey (fam a b : Nat) : Nat := fam * 2 ^ 96 + a * 2 ^ 48 + b

/-- A record limited to one per window; a repetition sets its ERR_STAT bits alone. -/
def reportLimited (s : State) (p bits code key win : Nat) (i : RecInfo := {}) : State :=
  let l := limitOnce s key win
  if l.1 then reportB l.2 p bits code i
  else if bits = 0 then s else setErr s p bits

/-- A wrapping counter, in the form of the read of R493: COUNT. -/
def countOf (s : State) (a : Nat) : Nat := rdF s a 0 48

/-! ### Memory bytes -/

/-- A fill covers a byte. -/
def Fill.covers (f : Fill) (a : Nat) : Bool := f.lo ≤ a && a < f.lo + f.size && (a - f.lo) % f.stride < f.width

/-- What an unlisted byte reads as: the newest fill that covers it, else 0 (log entry 4, DESIGN CHOICE). -/
def unlisted : List Fill → Nat → Byte
  | [], _ => 0
  | f :: fs, a =>
    if f.covers a then (if f.seed = 0 then 0 else Config.freeByte (f.seed - 1) a)
    else unlisted fs a

/-- The check-bit difference of contents that nothing has written: none in LPDDR6, and 256, check bits that fit the
class of whatever reads the word, in a scratchpad (log entry 4, DESIGN CHOICE). -/
def blankChk (a : Nat) : Nat := if a < 0x10000000000 then 0 else 256

/-- The check-bit difference of an unlisted unit: blank, or undefined with its contents. -/
def unlistedChk : List Fill → Nat → Nat
  | [], a => blankChk a
  | f :: fs, a =>
    if f.covers a then (if f.seed = 0 then blankChk a else Config.freeCheck (f.seed - 1) a)
    else unlistedChk fs a

/-- The canonical form of memory: addresses rise, and no entry equals what it reads as unlisted. -/
def Memory.wf (s : State) : Bool := mapWf (unlisted s.fills) s.mem

/-- A byte of memory. -/
def readByte (s : State) (a : Nat) : Byte := mapGet (unlisted s.fills) s.mem a

/-- A byte of memory written. -/
def writeByte (s : State) (a : Nat) (b : Byte) : State :=
  { s with mem := mapPut (unlisted s.fills) s.mem a b }

/-- Bytes of memory from an address on. -/
def readBytes (s : State) (a n : Nat) : List Byte := (List.range n).map (fun i => readByte s (a + i))

/-- Bytes written from an address on. -/
def writeBytes (s : State) (a : Nat) : List Byte → State
  | [] => s
  | b :: bs => writeBytes (writeByte s a b) (a + 1) bs

/-- A little-endian number of `n` bytes in memory (R9). -/
def readNat (s : State) (a n : Nat) : Nat := natOfBytes (readBytes s a n)

/-- A little-endian number of `n` bytes written to memory. -/
def writeNat (s : State) (a n v : Nat) : State := writeBytes s a (bytesOf n v)

/-- Check-bit difference of the unit or word at a byte address. -/
def chkAt (s : State) (a : Nat) : Nat := mapGet (unlistedChk s.fills) s.chk a

/-- Check-bit difference set. -/
def setChk (s : State) (a v : Nat) : State := { s with chk := mapPut (unlistedChk s.fills) s.chk a v }

/-- Memory given new contents: what was listed under the fill is forgotten. -/
def applyFill (s : State) (f : Fill) : State :=
  { s with mem := s.mem.filter (fun p => !f.covers p.1), chk := s.chk.filter (fun p => !f.covers p.1)
           fills := f :: s.fills, free := s.free + 1 }

/-- A stretch of memory given new contents: zeros, or undefined contents of a fresh seed. -/
def fillMem (s : State) (lo size : Nat) (undefinedContents : Bool) : State :=
  applyFill s { lo := lo, size := size, stride := 1, width := 1, seed := if undefinedContents then s.free + 1 else 0 }

/-- Base of the scratchpad window of a tile (R23). -/
def padBase (t : Nat) : Nat := 0x010000000000 + t * 0x80000

/-- Byte address of a scratchpad word (R25). -/
def padAddr (t w : Nat) : Nat := padBase t + 4 * w

/-- A scratchpad word's stored data bits. -/
def padWord (s : State) (t w : Nat) : Nat := readNat s (padAddr t w) 4

/-- The ranges of R23. -/
inductive Region where
  | lpddr | pad | regs | companion | unmapped
  deriving DecidableEq, Repr

/-- The range an address lies in (R23). -/
def regionOf (a : Nat) : Region :=
  if a < 0x006000000000 then .lpddr
  else if 0x010000000000 ≤ a && a < 0x010090000000 then .pad
  else if regBase ≤ a && a < 0x020100000000 then .regs
  else if 0x800000000000 ≤ a && a < 0x1000000000000 then .companion
  else .unmapped

/-- An answer or a signal handed to the world. -/
def emit (s : State) (o : Out) : State := { s with out := s.out ++ [o] }

/-- A fold of an operation over a list of operands. -/
def each {α : Type} (l : List α) (f : State → α → State) (s : State) : State := l.foldl f s

/-! ### Contexts, residence slots and fences -/

/-- A context runs in steps (R332): COMMIT_EN of its CS_CFG. -/
def stepped (s : State) (c : Nat) : Bool := rdB s (banked (devReg 11 0x190) c) 0

/-- Residence slots 0–7 of a tile that bind a context, by RES_CTX (R157). -/
def slotOfCtx (s : State) (t c : Nat) : Option Nat :=
  (List.range 8).find? (fun r =>
    let w := rd s (tileReg t 2 (0x140 + 8 * r))
    guardOk w && bitOf w 8 && fieldOf w 0 8 == c)

/-- CLEAN (bit 0) and NOFAULT (bit 1) of a residence slot (R341); both 1 at reset. -/
def slotFlags (s : State) (t r : Nat) : Nat := mapGet (fun _ => 3) s.pad.flags (t * 8 + r)

/-- The flags of a residence slot set. -/
def setSlotFlags (s : State) (t r v : Nat) : State :=
  { s with pad := { s.pad with flags := mapPut (fun _ => 3) s.pad.flags (t * 8 + r) v } }

/-! ### Background work (R40, R41) -/

/-- Background work yields a unit to one listed before it in R40, unless it alone has reached its limit (R41) (log entry
190, DEDUCED). -/
def yieldsTo (wanted mineLate itsLate : Bool) : Bool := wanted && (itsLate || !mineLate)

end Sys2Proof.Machine
end

