-- ==== Sys2Proof/Machine/Context.lean ====
section
/-! DEFINITION. What every unit of a tile shares: checks-clean bits, program faults, fences of a
tile, whether a context may work, and progress seen by Bramble (R116, R340, R341, R357, R364). -/

namespace Sys2Proof.Machine

/-! ### Life cycle and debug level (R484) -/

/-- Life-cycle state (R469): 0 BLANK, 1 MANUFACTURE, 2 PROVISIONED, 3 DEPLOYED, 4 RETURNED, 5 END. -/
def lifeCycle (s : State) : Nat := s.sec.fuses.lc

/-- Debug level of the open session, 0 when none is open. -/
def debugLevel (s : State) : Nat := match s.sec.session with | some x => x.level | none => 0

/-- The context of an open D2 session. -/
def debugCtx (s : State) : Option Nat := match s.sec.session with | some x => if x.level = 2 then some x.ctx else none | none => none

/-- Words private to contexts are open to the companion (R484): D1 reads, D2 also writes its context's words, D3 all (log entry 139, DEDUCED). -/
def privateOk (s : State) (owners : List Nat) (write : Bool) : Bool :=
  owners.isEmpty || debugLevel s == 3 || (!write && 1 ≤ debugLevel s) || owners.all (fun c => debugCtx s == some c)

/-- The device is HALTED (R403). -/
def halted (s : State) : Bool := rdF s (devReg 7 0x108) 0 4 == 10

/-- An agent that reaches memory at all (R484): not the board management controller, nor the companion in END. -/
def reachesMemory (s : State) (a : Agent) : Bool :=
  match a with
  | .bmc => false
  | .companion => lifeCycle s != 5 && !halted s
  | _ => true

/-- An access refused by life cycle or debug level by a path other than Gorbin (R315). -/
def denied (s : State) (p : Nat) : State := reportB s p 1 0x0A05

/-! ### Fences and resets of a tile -/

/-- A tile is fenced (R16, R357). -/
def tileFenced (s : State) (t : Nat) : Bool := mapGet (fun _ => false) s.commit.fenced t

/-- A tile is inside a reset domain: DEST_RESET of its router (R229). -/
def tileInReset (s : State) (t : Nat) : Bool := rdB s (tileReg t 3 0x100) 0

/-- Power state of a cluster: 0 C0, 1 C1, 2 C2, 3 C3 (R446). -/
def clusterPower (s : State) (c : Nat) : Nat := rdF s (clusterReg c 0x188) 0 2

/-- A tile can work: not fenced, not in reset, its cluster in C0 or C1 and not stopped by R461. -/
def tileRuns (s : State) (t : Nat) : Bool :=
  !tileFenced s t && !tileInReset s t && clusterPower s (clusterOf t) ≤ 1 && !rdB s (clusterReg (clusterOf t) 0x188) 5

/-! ### Contexts -/

/-- TD_STAT.STATE of a context: 0 LIVE, 1 HELD, 2 DRAINING, 3 TORN, 4 UNPLACEABLE (R386). -/
def tdState (s : State) (c : Nat) : Nat := rdF s (banked (devReg 10 0x150) c) 0 3

/-- TD_STAT.STATE set. -/
def setTdState (s : State) (c v : Nat) : State := wrF s (banked (devReg 10 0x150) c) 0 3 v

/-- CS_STATE.STATE of a context (R348): 0 IDLE, 1 OPEN, 2 VOTED, 3 APPLYING, 4 IN_DOUBT, 5 REPLAYING, 6 FAULTED. -/
def csState (s : State) (c : Nat) : Nat := rdF s (banked (devReg 11 0x1A0) c) 0 3

/-- CS_STATE.STATE set. -/
def setCsState (s : State) (c v : Nat) : State := wrF s (banked (devReg 11 0x1A0) c) 0 3 v

/-- A tile holds a context from its vote until the next OPEN (R340). -/
def voteHeld (s : State) (t c : Nat) : Bool := mapGet (fun _ => false) s.commit.held (t * 256 + c)

/-- The hold of R340 set or ended. -/
def setVoteHeld (s : State) (t c : Nat) (b : Bool) : State :=
  { s with commit := { s.commit with held := mapPut (fun _ => false) s.commit.held (t * 256 + c) b } }

/-- A program fault stopped the context's units on the tile (R116). -/
def ctxStopped (s : State) (t c : Nat) : Bool := s.flow.stopped.contains (t, c)

/-- Handlers and DMA channels of a context may work on a tile: not held from a vote, not held or
torn down by recovery, not held by a debug session, on a tile that can work. -/
def mayRun (s : State) (t c : Nat) : Bool :=
  tileRuns s t && !voteHeld s t c && tdState s c == 0 && s.recov.dbgHold != some c

/-- Configurations and steering units of a context may work on a tile: a program fault stops them (R116). -/
def mayWork (s : State) (t c : Nat) : Bool := mayRun s t c && !ctxStopped s t c

/-- The last two windows (index plus 1) in which a node made progress (R364). -/
def progressOf (s : State) (n : Nat) : Nat × Nat := mapGet (fun _ => (0, 0)) s.recov.progress n

/-- Progress of a context in a tile's cluster, in the window that holds its Device Time (R8, R364); the cluster has had work
(R454). -/
def progress (s : State) (t c : Nat) : State :=
  let n := clusterOf t * 256 + c
  let w := now s / 1000 + 1
  let p := progressOf s n
  { s with power := { s.power with idle := mapErase (clusterOf t) s.power.idle, allIdle := 0 }
           recov := { s.recov with progress := mapPut (fun _ => (0, 0)) s.recov.progress n (if p.1 = w then p else (w, p.1)) } }

/-- DIRTY of a context is on its way to the step-commit block (R341). -/
def requestDirty (s : State) (c : Nat) : State :=
  { s with commit := { s.commit with dirtyReq := s.commit.dirtyReq ++ [c] } }

/-- CLEAN of the context's residence slot cleared for its open step; a unit without the slot sets
DIRTY instead (R341). -/
def clearClean (s : State) (t c : Nat) : State :=
  match slotOfCtx s t c with
  | some r => setSlotFlags s t r (slotFlags s t r &&& 2)
  | none => requestDirty s c

/-- NOFAULT of the context's residence slot cleared (R341). -/
def clearNoFault (s : State) (t c : Nat) : State :=
  match slotOfCtx s t c with
  | some r => setSlotFlags s t r (slotFlags s t r &&& 1)
  | none => s

/-- Hornbeam owes a teardown of a context (R116, R374). -/
def requestTeardown (s : State) (c : Nat) : State :=
  if s.recov.tdReq.contains c then s
  else { s with recov := { s.recov with tdReq := s.recov.tdReq ++ [c] } }

/-- The effects of a program fault beside its record (R116): the context's units on the tile stop,
NOFAULT is cleared and Hornbeam is signalled. -/
def faultStop (s : State) (t c : Nat) : State :=
  let s1 := if ctxStopped s t c then s else { s with flow := { s.flow with stopped := s.flow.stopped ++ [(t, c)] } }
  requestTeardown (clearNoFault s1 t c) c

/-- A program fault of a context on a tile, recorded by page slot `k` (R116) (log entry 79, DEDUCED). -/
def programFault (s : State) (t k c code : Nat) (q : Nat := 0) (detail : List Nat := []) : State :=
  faultStop (report s (tilePage t k) code { queue := q, ctx := some c, detail := detail }) t c

/-! ### Fences (R354, R357) -/

/-- A fence entry of R354. -/
def fenceEntry (kind unit sub cause : Nat) (cond : Nat := 0) (value : Nat := 0) : Nat :=
  (kind <<< 60) + (cond <<< 56) + (value <<< 40) + (unit <<< 24) + (sub <<< 20) + cause

/-- The contexts bound to residence slots of a tile. -/
def residents (s : State) (t : Nat) : List Nat :=
  (List.range 8).filterMap (fun r =>
    let w := rd s (tileReg t 2 (0x140 + 8 * r))
    if guardOk w && bitOf w 8 then some (fieldOf w 0 8) else none)

/-- A fence to be logged and followed up by Hornbeam (R357, orders 3 and 4). -/
def queueFence (s : State) (entry : Nat) : State :=
  if s.commit.fenceJobs.contains entry then s
  else { s with commit := { s.commit with fenceJobs := s.commit.fenceJobs ++ [entry] } }

/-- A tile stops as a fenced unit, and every context with an open step on it has CLEAN cleared
(R357, orders 1 and 2). -/
def stopTile (s : State) (t : Nat) : State :=
  let s1 := { s with commit := { s.commit with fenced := mapPut (fun _ => false) s.commit.fenced t true } }
  each (residents s1 t) (fun u c => clearClean u t c) s1

/-- A tile fences itself after a fault of code `cause` (R184, R357). -/
def fenceTile (s : State) (t cause : Nat) : State :=
  if tileFenced s t then s else queueFence (stopTile s t) (fenceEntry 1 t 0 cause)

/-- The tiles of the array on which a context holds a residence slot. -/
def ctxTiles (s : State) (c : Nat) : List Nat :=
  let keys := (s.regs.filter (fun p => p.1 < regBase + 0x24000000 && regBase ≤ p.1)).map (fun p => (p.1 - regBase) / 0x20000)
  keys.eraseDups.filter (fun t => (slotOfCtx s t c).isSome)

end Sys2Proof.Machine
end

