-- ==== Sys2Proof/Machine/Operands.lean ====
section
/-! DEFINITION. The operand forms of the block: endpoints (R20), message headers (R175) and token
words (R113), the T, V and DMA records (R83, R93, R100), slot bindings (R111) and steering entries
(R125), each read from the words that hold it. -/

namespace Sys2Proof.Machine

/-! ### Endpoints -/

/-- Device of an endpoint (R20). -/
def epDev (e : Nat) : Nat := fieldNat e 21 15
/-- Tile of an endpoint (R20). -/
def epTile (e : Nat) : Nat := fieldNat e 8 13
/-- Queue of an endpoint (R20). -/
def epQueue (e : Nat) : Nat := e % 256

/-! ### Headers -/

/-- The six header words of a message (R175). -/
def hdrWords (h : Header) : List Nat :=
  [ h.dst % 2 ^ 32
  , place 28 4 h.creditEpoch + place 20 8 h.context + place 10 10 h.handler + place 8 2 h.vc
      + place 4 4 h.len + place 0 4 (h.dst >>> 32)
  , h.src % 2 ^ 32
  , place 16 16 h.ctxEpoch + place 4 12 h.linkSeq + place 0 4 (h.src >>> 32)
  , place 26 6 h.rsv4 + place 16 10 h.payLen + place 0 16 h.stepTag
  , place 3 29 h.rsv5 + place 2 1 (bit01 h.mgmt) + place 1 1 (bit01 h.pad) + place 0 1 (bit01 h.prov) ]

/-- A header read from its six words (R175). -/
def hdrOf (w : List Nat) : Header :=
  let g (i lo n : Nat) := fieldNat (w.getD i 0) lo n
  { dst := g 0 0 32 + (g 1 0 4 <<< 32), creditEpoch := g 1 28 4, context := g 1 20 8, handler := g 1 10 10
    vc := g 1 8 2, len := g 1 4 4, src := g 2 0 32 + (g 3 0 4 <<< 32), ctxEpoch := g 3 16 16
    linkSeq := g 3 4 12, rsv4 := g 4 26 6, payLen := g 4 16 10, stepTag := g 4 0 16, rsv5 := g 5 3 29
    mgmt := (g 5 2 1 == 1), pad := (g 5 1 1 == 1), prov := (g 5 0 1 == 1) }

/-- Little-endian bytes of 32-bit words. -/
def wordBytes (ws : List Nat) : List Byte := ws.flatMap (bytesOf 4)

/-- Up to `n` 32-bit words held by little-endian bytes. -/
def bytesWords : Nat → List Byte → List Nat
  | 0, _ => []
  | n + 1, bs => natOfBytes (bs.take 4) :: bytesWords n (bs.drop 4)

/-- Slots that a payload needs, minus 1 (R176). -/
def lenOfPay (n : Nat) : Nat := (24 + n + 63) / 64 - 1

/-- The slots of a message as bytes: header, payload, zeros to the end of the last slot (R175). -/
def msgBytes (m : Msg) : List Byte :=
  fitBytes ((m.hdr.len + 1) * 64) (wordBytes (hdrWords m.hdr) ++ m.pay)

/-- A message read from the bytes of its slots. -/
def msgOf (bs : List Byte) : Msg :=
  let h := hdrOf (bytesWords 6 bs)
  { hdr := h, pay := (bs.drop 24).take h.payLen }

/-- A header malformed under R176. -/
def malformed (h : Header) : Bool :=
  h.len != lenOfPay h.payLen || 1000 < h.payLen || h.vc < 2 || h.handler == 0x3FF || h.pad
    || h.rsv4 != 0 || h.rsv5 != 0

/-- Slots of a message. -/
def hdrSlots (h : Header) : Nat := h.len + 1

/-- Word `i` of a payload. -/
def payWord (m : Msg) (i : Nat) : Nat := natOfBytes ((m.pay.drop (4 * i)).take 4)

/-! ### Tokens (R113) -/

/-- A token word of R113. -/
structure Token where
  cfg : Nat
  epoch : Nat
  kind : Nat
  last : Bool
  set : Nat
  value : Nat
  deriving DecidableEq, Repr

/-- A token word read. -/
def tokenOf (w : Nat) : Token :=
  { cfg := fieldNat w 29 3, epoch := fieldNat w 27 2, kind := fieldNat w 25 2, last := w.testBit 24
    set := fieldNat w 16 8, value := fieldNat w 0 16 }

/-- A token word written. -/
def tokenWord (t : Token) : Nat :=
  place 29 3 t.cfg + place 27 2 t.epoch + place 25 2 t.kind + place 24 1 (bit01 t.last)
    + place 16 8 t.set + place 0 16 t.value

/-- The token word of a message. -/
def msgToken (m : Msg) : Token := tokenOf (payWord m 0)

/-- The data of a data token: from word 2 (R113). -/
def tokenData (m : Msg) : List Byte := m.pay.drop 8

/-! ### Records held in pairs of words by register (R140) -/

/-- Sixteen words from eight registers, low halves first (R140). -/
def recWords (s : State) (a : Nat) : List Nat :=
  (List.range 8).flatMap (fun j => [rdF s (a + 8 * j) 0 32, rdF s (a + 8 * j) 32 32])

/-- A T configuration record (R83). -/
structure TRec where
  op : Nat
  aFmt : Nat
  bFmt : Nat
  outFmt : Nat
  accKind : Nat
  rmode : Nat
  outMode : Nat
  anchor : Int
  m : Nat
  n : Nat
  k : Nat
  aBase : Nat
  bBase : Nat
  aScale : Nat
  bScale : Nat
  outBase : Nat
  outEp : Nat
  redId : Nat
  partIndex : Nat
  accBase : Nat
  keep : Bool
  zero : Bool
  partCount : Nat
  deriving DecidableEq, Repr

/-- A T record read from its words (R83). -/
def tRecOf (w : List Nat) : TRec :=
  let g (i lo n : Nat) := fieldNat (w.getD i 0) lo n
  { op := g 0 28 4, aFmt := g 0 24 4, bFmt := g 0 20 4, outFmt := g 0 16 4, accKind := g 0 14 2
    rmode := g 0 12 2, outMode := g 0 10 2, anchor := signedOf 10 (g 0 0 10), m := g 1 16 16, n := g 1 0 16
    k := g 2 0 24, aBase := g 3 0 15, bBase := g 4 0 15, aScale := g 5 0 17, bScale := g 6 0 17
    outBase := g 7 0 15, outEp := g 8 0 32 + (g 9 0 4 <<< 32), redId := g 9 16 16, partIndex := g 10 16 16
    accBase := g 10 8 8, keep := (g 10 1 1 == 1), zero := (g 10 0 1 == 1), partCount := g 11 16 16 }

/-- A V configuration record (R93). -/
structure VRec where
  op : Nat
  inFmt : Nat
  outFmt : Nat
  accKind : Nat
  rmode : Nat
  outMode : Nat
  anchor : Int
  len : Nat
  k : Nat
  rows : Nat
  inA : Nat
  inB : Nat
  merge : Bool
  lists : Nat
  segBase : Nat
  paramBase : Nat
  streamBase : Nat
  draw : Nat
  outEp : Nat
  redId : Nat
  partIndex : Nat
  partCount : Nat
  deriving DecidableEq, Repr

/-- A V record read from its words (R93). -/
def vRecOf (w : List Nat) : VRec :=
  let g (i lo n : Nat) := fieldNat (w.getD i 0) lo n
  { op := g 0 27 5, inFmt := g 0 23 4, outFmt := g 0 19 4, accKind := g 0 17 2, rmode := g 0 15 2
    outMode := g 0 13 2, anchor := signedOf 10 (g 0 0 10), len := g 1 0 21, k := g 2 16 9, rows := g 2 0 16
    inA := g 3 0 8, inB := g 3 8 8, merge := (g 4 31 1 == 1), lists := g 4 21 4, segBase := g 4 0 21
    paramBase := g 5 0 16, streamBase := g 6 0 32, draw := g 7 0 32
    outEp := g 8 0 32 + (g 9 0 4 <<< 32), redId := g 9 16 16, partIndex := g 10 16 16, partCount := g 11 16 16 }

/-- V operations of two operands: ADD, SUB, MUL, MAX, MIN (R87). -/
def vBinary (op : Nat) : Bool := 1 ≤ op && op ≤ 5

/-- A DMA descriptor (R100). -/
structure DRec where
  op : Nat
  srcFmt : Nat
  dstFmt : Nat
  rmode : Nat
  cmp : Bool
  anchor : Int
  tag : Nat
  elemBytes : Nat
  src : Nat
  dst : Nat
  count0 : Nat
  count1 : Nat
  count2 : Nat
  srcS1 : Int
  srcS2 : Int
  dstS1 : Int
  dstS2 : Int
  scale : Nat
  idxBase : Nat
  idxLimit : Nat
  cmpEp : Nat
  cmpHandler : Nat
  deriving DecidableEq, Repr

/-- A descriptor read from its words (R100). -/
def dRecOf (w : List Nat) : DRec :=
  let g (i lo n : Nat) := fieldNat (w.getD i 0) lo n
  { op := g 0 28 4, srcFmt := g 0 24 4, dstFmt := g 0 20 4, rmode := g 0 18 2, cmp := (g 0 17 1 == 1)
    anchor := signedOf 10 (g 0 0 10), tag := g 1 16 16, elemBytes := g 1 0 16
    src := g 2 0 32 + (g 3 0 16 <<< 32), dst := g 4 0 32 + (g 5 0 16 <<< 32)
    count1 := g 6 16 16, count0 := g 6 0 16, count2 := g 7 0 16
    srcS1 := signedOf 32 (g 8 0 32), srcS2 := signedOf 32 (g 9 0 32)
    dstS1 := signedOf 32 (g 10 0 32), dstS2 := signedOf 32 (g 11 0 32)
    scale := g 12 0 32 + (g 13 0 16 <<< 32), idxBase := g 12 0 32, idxLimit := g 13 0 32
    cmpEp := g 14 0 32 + (g 15 0 4 <<< 32), cmpHandler := g 15 4 10 }

/-! ### Slots and steering entries of a dataflow page (R111, R125, R140) -/

/-- Dataflow-page address of a tile. -/
def dfReg (t off : Nat) : Nat := tileReg t 1 off

/-- Base offset of slot `n`, shadow or active. -/
def slotOff (active : Bool) (n : Nat) : Nat := (if active then 0xC00 else 0x800) + 0x80 * n

/-- A slot's binding (R111). -/
structure Bind where
  landBase : Nat
  valid : Bool
  landEn : Bool
  outCfg : Nat
  ctx : Nat
  trigQ : Nat
  deriving DecidableEq, Repr

/-- The binding of a slot. -/
def bindOf (s : State) (t : Nat) (active : Bool) (n : Nat) : Bind :=
  let w := rd s (dfReg t (slotOff active n + 0x40))
  { landBase := fieldOf w 48 15, valid := bitOf w 31, landEn := bitOf w 30, outCfg := fieldOf w 27 3
    ctx := fieldOf w 16 8, trigQ := fieldOf w 8 8 }

/-- The record words of a slot. -/
def slotWords (s : State) (t : Nat) (active : Bool) (n : Nat) : List Nat := recWords s (dfReg t (slotOff active n))

/-- The queues that a slot's binding names: TRIG_Q of a T configuration; IN_Q_A, and IN_Q_B for a
two-operand operation, of a V configuration (R111, R119) (log entry 30, DEDUCED). -/
def slotQueues (s : State) (t : Nat) (active : Bool) (n : Nat) : List Nat :=
  match tileType t with
  | .t => [(bindOf s t active n).trigQ]
  | .v =>
    let r := vRecOf (slotWords s t active n)
    if vBinary r.op then [r.inA, r.inB] else [r.inA]
  | _ => []

/-- Slots of a tile that are VALID in the active copy. -/
def validSlots (s : State) (t : Nat) : List Nat :=
  match tileType t with
  | .t => (List.range 8).filter (fun n => (bindOf s t true n).valid)
  | .v => (List.range 8).filter (fun n => (bindOf s t true n).valid)
  | _ => []

/-- A steering entry (R121, R125). -/
structure Steer where
  op : Nat
  width : Nat
  csrc : Bool
  trip : Nat
  ctx : Nat
  ctrlQ : Nat
  inQ : List Nat
  outs : List (Bool × Nat × Nat)
  deriving DecidableEq, Repr

/-- A steering entry of a tile: outputs as VALID, OUT_CFG and endpoint. -/
def steerOf (s : State) (t : Nat) (active : Bool) (u : Nat) : Steer :=
  let b := dfReg t ((if active then 0x600 else 0x400) + 0x40 * u)
  { op := rdF s b 61 3, width := rdF s b 59 2, csrc := rdB s b 58, trip := rdF s b 32 16, ctx := rdF s b 24 8
    ctrlQ := rdF s (b + 8) 32 8, inQ := (List.range 4).map (fun i => rdF s (b + 8) (8 * i) 8)
    outs := (List.range 4).map (fun i =>
      (rdB s (b + 0x10 + 8 * i) 39, rdF s (b + 0x10 + 8 * i) 36 3, rdF s (b + 0x10 + 8 * i) 0 36)) }

/-- Inputs of a steering operation (R121). -/
def Steer.inputs (e : Steer) : List Nat :=
  match e.op with
  | 1 => e.inQ.take 1
  | 2 => e.inQ.take (e.width + 1)
  | 3 => e.inQ.take 1
  | 4 => e.inQ.take (e.width + 1)
  | 5 => e.inQ.take 1
  | _ => []

/-- Whether the operation takes control tokens (R121, R125). -/
def Steer.usesCtrl (e : Steer) : Bool := (1 ≤ e.op && e.op ≤ 3) && !e.csrc

/-- Outputs of a steering operation (R121). -/
def Steer.outputs (e : Steer) : List (Bool × Nat × Nat) :=
  match e.op with
  | 1 => e.outs.take (e.width + 1)
  | 2 => e.outs.take 1
  | 3 => e.outs.take 1
  | 4 => e.outs.take 1
  | 5 => e.outs.take (e.width + 1)
  | _ => []

/-- The queues that a steering entry names. -/
def Steer.queues (e : Steer) : List Nat := e.inputs ++ (if e.usesCtrl then [e.ctrlQ] else [])

/-- Whether a tile has steering units (R121). -/
def hasSteer (t : Nat) : Bool := tileType t == .v || tileType t == .s

/-- Steering units of a tile whose active entry names a queue. -/
def steersOn (s : State) (t q : Nat) : List Nat :=
  if hasSteer t then (List.range 8).filter (fun u => (steerOf s t true u).queues.contains q) else []

/-! ### Fold schedule (R117, R118, R120) -/

/-- The dataflow page of a tile. -/
def dfPage (t : Nat) : Nat := tilePage t 1

/-- Fold entry `i` of a copy: slot and count. -/
def foldEntry (s : State) (t : Nat) (active : Bool) (i : Nat) : Nat × Nat :=
  let a := dfReg t ((if active then 0x300 else 0x200) + 8 * (i / 2))
  let b := 32 * (i % 2)
  (rdF s a (b + 28) 3, rdF s a b 16)

/-- LEN and LOOP of a copy. -/
def foldCtrl (s : State) (t : Nat) (active : Bool) : Nat × Nat :=
  let a := dfReg t (if active then 0x118 else 0x110)
  (rdF s a 0 7, rdF s a 8 6)

/-- The entry after entry `i`. -/
def foldNext (s : State) (t i : Nat) : Nat :=
  let c := foldCtrl s t true
  if i + 1 < c.1 then i + 1 else c.2

/-- A slot whose context has been torn down (R120). -/
def slotTorn (s : State) (t n : Nat) : Bool := 2 ≤ tdState s (bindOf s t true n).ctx

/-- The entry that runs from entry `i` on, passing over entries of torn contexts (R120). -/
def foldSeek (s : State) (t : Nat) : Nat → Nat → Nat
  | 0, i => i
  | n + 1, i => if slotTorn s t (foldEntry s t true i).1 then foldSeek s t n (foldNext s t i) else i

/-- The current entry, after entries passed over. -/
def curEntry (s : State) (t : Nat) : Nat := foldSeek s t (foldCtrl s t true).1 (rdF s (dfReg t 0x108) 16 6)

/-- Activations completed in the current entry: none of an entry that the schedule reached by passing over others (R118,
R120). -/
def foldDone (s : State) (t : Nat) : Nat :=
  if curEntry s t = rdF s (dfReg t 0x108) 16 6 then rdF s (dfReg t 0x108) 0 16 else 0

/-- FOLD_STAT set. -/
def setFold (s : State) (t entry done : Nat) : State := wrF (wrF s (dfReg t 0x108) 16 6 entry) (dfReg t 0x108) 0 16 done

/-- A tile's schedule passes over entries of torn contexts, and the entry that it reaches begins with DONE at 0 (R118, R120). -/
def passTorn (s : State) (t : Nat) : State :=
  let i := curEntry s t
  if i = rdF s (dfReg t 0x108) 16 6 then s else setFold s t i 0

/-- A queue whose binding makes its messages tokens (R113). -/
def isTokenQueue (s : State) (t q : Nat) : Bool :=
  (validSlots s t).any (fun n => (slotQueues s t true n).contains q) || !(steersOn s t q).isEmpty

/-! ### A tile's place in its set (R109, R140) -/

/-- DF_STAT.STATE: 0 IDLE, 1 RUN, 2 DRAINING, 3 FLUSHING. -/
def dfState (s : State) (t : Nat) : Nat := rdF s (dfReg t 0x100) 8 2
/-- SET of a tile. -/
def dfSet (s : State) (t : Nat) : Nat := rdF s (dfReg t 0x100) 16 8
/-- EPOCH of a tile. -/
def dfEpoch (s : State) (t : Nat) : Nat := rdF s (dfReg t 0x100) 12 2

/-- STOP in progress on a tile. -/
def noStop : StopState := { set := 0, epoch := 0, flush := false, held := false }
/-- The STOP that a tile executes. -/
def stopOf (s : State) (t : Nat) : StopState := mapGet (fun _ => noStop) s.flow.stops t

/-- The tile belongs to a set: it runs one, or held one when its STOP came (R109, R128). -/
def holdsSet (s : State) (t : Nat) : Bool := dfState s t == 1 || (2 ≤ dfState s t && (stopOf s t).held)

/-- A token of the target pair of the STOP in progress (R115). -/
def isTarget (s : State) (t : Nat) (k : Token) : Bool :=
  2 ≤ dfState s t && k.set == (stopOf s t).set && k.epoch == (stopOf s t).epoch

/-- Tiles with a dataflow page. -/
def hasFlow (t : Nat) : Bool := tileType t != .m

/-- Tiles whose dataflow or queue registers differ from reset. -/
def flowTiles (s : State) : List Nat :=
  ((s.regs.filter (fun e => regBase ≤ e.1 && e.1 < regBase + 4608 * 0x20000)).map (fun e => (e.1 - regBase) / 0x20000)).eraseDups.filter hasFlow

/-- The schedules of every tile pass over entries of torn contexts (R120). -/
def passTornAll (s : State) : State :=
  each ((flowTiles s).filter (fun t => tileType t == .t || tileType t == .v)) (fun u t => passTorn u t) s

/-- A token of the set that the tile holds, or of the set for which a STOP readies it (R128, R130). -/
def ofSet (s : State) (t : Nat) (k : Token) : Bool :=
  (holdsSet s t && k.set == dfSet s t) || (2 ≤ dfState s t && k.set == (stopOf s t).set)

/-- Contexts that have configurations or steering units in the active copies of a tile. -/
def tileCtxs (s : State) (t : Nat) : List Nat :=
  ((validSlots s t).map (fun n => (bindOf s t true n).ctx)
    ++ (if hasSteer t then ((List.range 8).filter (fun u => (steerOf s t true u).op != 0)).map (fun u => (steerOf s t true u).ctx) else [])).eraseDups

/-- Contexts that have configurations or steering units in the set that a tile holds, on any of its tiles (R128)
(log entry 36, DEDUCED). -/
def setCtxs (s : State) (t : Nat) : List Nat :=
  if holdsSet s t then
    (((flowTiles s).filter (fun u => holdsSet s u && dfSet s u == dfSet s t)).flatMap (tileCtxs s)).eraseDups
  else []

/-- From STOP until the tile's set runs again, the set's contexts are not served (R128). -/
def heldBySet (s : State) (t c : Nat) : Bool := 2 ≤ dfState s t && (setCtxs s t).contains c

end Sys2Proof.Machine
end

