-- ==== Sys2Proof/Machine/Flags.lean ====
section
/-! DEFINITION. The sticky flags, counters and records of arithmetic events (R55, R56, R57, R63,
R72, R74, R101): which bit of ARITH_STAT each event sets, what is counted and which record is
written. -/

namespace Sys2Proof.Machine

/-- Number of the tile page that holds the T, V or S registers. -/
def unitPage (t : Nat) : Nat := tilePage t 0

/-- A bit of ARITH_STAT set (R72). -/
def setArith (s : State) (t bit : Nat) : State := wrB s (tileReg t 0 0x408) bit true

/-- The page that records arithmetic events of a tile: its T or V page, or the S page; an M tile
uses its queue control page (log entry 20, DEDUCED). -/
def arithPage (t : Nat) : Nat := if tileType t == .m then tilePage t 4 else tilePage t 0

/-- Whether a tile has the arithmetic registers of R72. -/
def hasArith (t : Nat) : Bool := tileType t == .t || tileType t == .v

/-- ARITH_STAT bit of a condition of R74 that a value raises (R72). FWS_INV is the bit of 0x0107 alone (log entry 191,
DESIGN CHOICE). -/
def arithBit (code : Nat) : Option Nat :=
  match code with
  | 0x0106 => some 0 | 0x0107 => some 1 | 0x0108 => some 2 | 0x0109 => some 6 | _ => none

/-- ARITH_STAT bits of conditions set, where the tile has them (R55–R57, R72) (log entry 15, DEDUCED). -/
def raiseArith (s : State) (t : Nat) (codes : List Nat) : State :=
  if hasArith t then each (codes.filterMap arithBit) (fun u b => setArith u t b) s else s

/-- The records of one accumulation's conditions: one for each, in ascending order of code (R75). -/
def arithRecords (s : State) (t c : Nat) (codes : List Nat) : State :=
  each ([0x0106, 0x0107, 0x0108, 0x0109, 0x010A, 0x010B, 0x020B].filter codes.contains) (fun u k => report u (arithPage t) k { ctx := some c }) s

/-- Conditions of a value that no check follows: bits and records. -/
def arithEvents (s : State) (t c : Nat) (codes : List Nat) : State := arithRecords (raiseArith s t codes) t c codes

/-- The conditions that arise between two values of a fixed-window sum: new OVF and new INV (R55, R56). -/
def fwsCodes (isInt : Bool) (old new : Fws) : List Nat :=
  (if new.ovf && !old.ovf then [if isInt then 0x0108 else 0x0106] else []) ++ (if new.inv && !old.inv then [0x0107] else [])

/-- The records of a fixed-window value converted with OVF or INV set to an integer format, of the converting tile;
no bit of ARITH_STAT is set beside the record (R59). -/
def convCodes (code : Nat) (a : Fws) : List Nat :=
  if code = 0x9 || code = 0xA then (if a.ovf then [0x0106] else []) ++ (if a.inv then [0x0107] else []) else []

/-- A saturation event counted (R63, R101): CONV_SAT_COUNT and CONV_SAT, or SAT_EVENTS on an S tile. -/
def satSeen (s : State) (t : Nat) : State :=
  if tileType t == .s then incWrap s (tileReg t 0 0x0A0) 1 else setArith (incSat s (tileReg t 0 0x428)) t 3

/-- The record that a saturation event owes: 0x010A or, on an S tile, 0x020B, with SAT_ERR (R63, R101). -/
def satCodes (s : State) (t : Nat) : List Nat :=
  if tileType t == .s then (if rdB s (tileReg t 0 0x108) 0 then [0x020B] else [])
  else if rdB s (tileReg t 0 0x400) 0 then [0x010A] else []

/-- A conversion's code with its saturation event, if it had one, counted: the code and the records it owes. -/
def satResult (s : State) (t : Nat) (q : Nat × Bool) (codes : List Nat) : (Nat × List Nat) × State :=
  if q.2 then ((q.1, codes ++ satCodes s t), satSeen s t) else ((q.1, codes), s)

/-- A number of saturation events, each with its record. -/
def satEvents (s : State) (t c n : Nat) : State :=
  each (List.range n) (fun u _ => arithRecords (satSeen u t) t c (satCodes u t)) s

/-- A block with scale field 0xFF was read (R72): SCALE_NAN. -/
def scaleNanSeen (s : State) (t : Nat) : State := if hasArith t then setArith s t 4 else s

/-- The record that such a block owes: 0x010B, with SCALE_NAN_ERR (R72). -/
def scaleNanCodes (s : State) (t : Nat) : List Nat := if hasArith t && rdB s (tileReg t 0 0x400) 1 then [0x010B] else []

/-- A block with scale field 0xFF read by an operation that no check follows: SCALE_NAN and its record. -/
def scaleNan (s : State) (t c : Nat) : State := arithRecords (scaleNanSeen s t) t c (scaleNanCodes s t)

end Sys2Proof.Machine
end

