-- ==== Sys2Proof/Machine/Net.lean ====
section
/-! DEFINITION. Packets and the mesh they travel on: building control packets (R211–R213), the
links and route tables of the routers (R207, R214, R215), handing packets to a source router, and
the NACKs, returns and grants that units send (R186, R188, R192, R194). -/

namespace Sys2Proof.Machine

/-! ### Packets -/

/-- Flits of a packet (R210, R414): a data FW packet has a head flit and eight of data. -/
def flitsOf : Pkt → Nat
  | .msg m => hdrSlots m.hdr
  | .ctrl _ => 1
  | .red _ => 1
  | .fw f => if f.pull then 1 else 9

/-- Virtual channel of a packet (R210, R229). -/
def pktVc : Pkt → Nat
  | .msg m => m.hdr.vc
  | .ctrl _ => 0
  | .red _ => 1
  | .fw _ => 2

/-- The context a packet names, when it names one. -/
def pktCtx : Pkt → Option Nat
  | .msg m => some m.hdr.context
  | .ctrl c => if (1 ≤ c.type && c.type ≤ 5) || c.type == 0x0C || c.type == 0x0D then some c.context else none
  | .red r => some r.context
  | .fw _ => none

/-- A control packet with its reserved fields 0 and twelve payload words (R211). -/
def mkCtrl (s : State) (type src : Nat) (ctx round : Nat) (words : List Nat) : Ctrl :=
  { type := type, mcast := false, dstTile := 0, dstDev := deviceId s, group := 0, srcDev := deviceId s, srcTile := src
    ctxEpoch := epochOf s ctx, context := ctx, round := round
    words := words ++ List.replicate (12 - words.length) 0 }

/-- A control packet to one tile. -/
def unicast (c : Ctrl) (dev tile : Nat) : Ctrl := { c with mcast := false, dstDev := dev, dstTile := tile }

/-- A control packet of a group. -/
def toGroup (c : Ctrl) (g : Nat) : Ctrl := { c with mcast := true, group := g }

/-- Types that travel up a tree (R212). -/
def isUpTree (type : Nat) : Bool := type == 0x05 || type == 0x08 || type == 0x0C || type == 0x10

/-- Types that a router knows (R212). -/
def ctrlTypeOk (type : Nat) : Bool := 1 ≤ type && type ≤ 0x10

/-- Payload words of GRANT and RETURN (R212). -/
def grantWords (ep epoch n : Nat) : List Nat :=
  [ep % 2 ^ 32, place 16 16 n + place 4 4 epoch + place 0 4 (ep >>> 32)]

/-- Endpoint of a GRANT, RETURN or REVOKE packet. -/
def ctrlEp (c : Ctrl) : Nat := c.words.getD 0 0 + (fieldNat (c.words.getD 1 0) 0 4 <<< 32)
/-- Slot count of a GRANT or RETURN packet. -/
def ctrlSlots (c : Ctrl) : Nat := fieldNat (c.words.getD 1 0) 16 16
/-- Credit epoch of a GRANT or RETURN packet. -/
def ctrlEpoch (c : Ctrl) : Nat := fieldNat (c.words.getD 1 0) 4 4

/-! ### Handing packets to the mesh -/

/-- A packet handed to the router of a tile (R216). -/
def inject (s : State) (t : Nat) (p : Pkt) : State := { s with net := { s.net with inject := s.net.inject ++ [(t, p)] } }

/-! ### Boundary FIFOs toward the mesh (R32–R34) -/

/-- Entries of a boundary FIFO: of a Parith port (0–13), of the Gorbin port (14) and of Hornbeam (15) (R34). -/
def fifoDepth (b : Nat) : Nat := if b < 14 then 32 else if b = 14 then 64 else 8

/-- The first `k` flits of a packet of number `id`, which came into the router as `orig`. -/
def someFlits (p : Pkt) (inPort id orig k : Nat) : List Flit :=
  (List.range k).map (fun i => { pkt := p, idx := i, inPort := inPort, id := id, orig := orig })

/-- Every flit of a packet that takes the next number in the mesh. -/
def allFlits (s : State) (p : Pkt) (inPort : Nat) : List Flit := someFlits p inPort s.net.serial s.net.serial (flitsOf p)

/-- `n` numbers of packets used. -/
def numbered (s : State) (n : Nat) : State := { s with net := { s.net with serial := s.net.serial + n } }

/-- Flits in a boundary FIFO, each with the router it enters. -/
def fifoOf (s : State) (b : Nat) : List (Nat × Flit) := mapGet (fun _ => []) s.fabric.fifo b
/-- Flits held before a full FIFO (R33). -/
def fifoHeld (s : State) (b : Nat) : List (Nat × Flit) := mapGet (fun _ => []) s.fabric.fifoHeld b
/-- A FIFO and what is held before it set. -/
def setFifo (s : State) (b : Nat) (l h : List (Nat × Flit)) : State :=
  { s with fabric := { s.fabric with fifo := mapPut (fun _ => []) s.fabric.fifo b l, fifoHeld := mapPut (fun _ => []) s.fabric.fifoHeld b h } }

/-- Link credit owed for flits whose places in a port's ingress buffer are free (R245); none for those that came over an
earlier link, whose places the full credit of the present one counts (R239). -/
def oweCredit (s : State) (p vc n : Nat) : State :=
  let k := 4 * p + vc
  let old := min n (mapGet (fun _ => 0) s.fabric.stale k)
  { s with fabric := { s.fabric with stale := mapPut (fun _ => 0) s.fabric.stale k (mapGet (fun _ => 0) s.fabric.stale k - old)
                                     owed := mapPut (fun _ => 0) s.fabric.owed k (mapGet (fun _ => 0) s.fabric.owed k + (n - old)) } }

/-- Held flits enter the free slots of a FIFO; their places in a Parith port's ingress buffer are free again. -/
def fifoFill (s : State) (b : Nat) : State :=
  let room := fifoDepth b - (fifoOf s b).length
  let moved := (fifoHeld s b).take room
  let s1 := setFifo s b (fifoOf s b ++ moved) ((fifoHeld s b).drop room)
  if b < 14 then each moved (fun u e => oweCredit u b (pktVc e.2.pkt) 1) s1 else s1

/-- A packet handed to a boundary FIFO on its way to router `t`: its flits are held until they have slots. -/
def submit (s : State) (b t : Nat) (p : Pkt) : State :=
  fifoFill (numbered (setFifo s b (fifoOf s b) (fifoHeld s b ++ (allFlits s p 0).map (fun f => (t, f)))) 1) b

/-- A packet of Hornbeam, on its way to router 1 (R288). -/
def hbInject (s : State) (p : Pkt) : State := submit s 15 1 p

/-- A packet for a tile's units, received by its router. -/
def eject (s : State) (t : Nat) (p : Pkt) : State := { s with net := { s.net with ejected := s.net.ejected ++ [(t, p)] } }

/-- A packet for a tile whose cluster is in C2 waits for its wake (R448), and a firmware packet also in C3
until the exit has begun (R447) (log entry 176, DEDUCED);
what Hornbeam and the Gorbin port take at tiles 1 and 9 does not. -/
def awaitsWake (s : State) (t : Nat) : Pkt → Bool
  | .msg m =>
    let c := m.hdr.context
    clusterPower s (clusterOf t) == 2 && !(t == 1 && rdB s (devReg 7 (0x120 + 8 * (c / 64))) (c % 64))
      && !(t == 9 && rdB s (devReg 5 (0x120 + 8 * (c / 64))) (c % 64))
  | .fw _ => 2 ≤ clusterPower s (clusterOf t) && !(clusterPower s (clusterOf t) == 3 && rdB s (clusterReg (clusterOf t) 0x188) 3)
  | _ => false

/-- Two packets are messages of one sending tile to one queue on one VC (R178). -/
def sameFlow : Pkt → Pkt → Bool
  | .msg a, .msg b => a.hdr.src / 256 == b.hdr.src / 256 && a.hdr.dst == b.hdr.dst && a.hdr.vc == b.hdr.vc
  | _, _ => false

/-- An earlier message of the same sending tile, queue and VC waits before this one at its tile (R178). -/
def overtakes (s : State) (t : Nat) (p : Pkt) : Bool :=
  (s.net.ejected.takeWhile (fun e => e != (t, p))).any (fun e => e.1 == t && sameFlow e.2 p)

/-- A packet that its row takes from those delivered to a tile, a message not before an earlier one of its sender, queue
and VC (R178); `none` when it is not there. -/
def takeEjected (s : State) (t : Nat) (p : Pkt) : Option State :=
  if s.net.ejected.contains (t, p) && !awaitsWake s t p && !overtakes s t p then some { s with net := { s.net with ejected := s.net.ejected.erase (t, p) } }
  else none

/-- Some packet on this device is one that `f` tells: in the mesh, delivered and not yet taken, or at a Parith port until
its far end has acknowledged it (R244). -/
def inTransit (s : State) (f : Pkt → Bool) : Bool :=
  s.net.inject.any (fun e => f e.2) || s.net.ejected.any (fun e => f e.2) || s.net.here.any (fun e => f e.pkt)
    || s.net.links.any (fun e => e.2.any (fun x => f x.pkt)) || s.net.again.any (fun e => e.2.any (fun x => f x.pkt))
    || s.fabric.egress.any (fun e => e.2.any (fun x => f x.pkt)) || s.fabric.sent.any (fun e => e.2.any (fun x => f x.pkt))
    || s.net.entering.any (fun e => e.2.any (fun x => f x.pkt))
    || s.fabric.fifo.any (fun e => e.2.any (fun x => f x.2.pkt)) || s.fabric.fifoHeld.any (fun e => e.2.any (fun x => f x.2.pkt))

/-- A tile that puts a partial into the mesh, or a router at which one enters the device, is on its reduction's paths, in the
open step of its context (R69). -/
def noteContrib (s : State) (t : Nat) (r : Red) : State :=
  let l := mapGet (fun _ => []) s.commit.contrib r.context
  if l.contains (t, r.dst, r.redId) then s
  else { s with commit := { s.commit with contrib := mapPut (fun _ => []) s.commit.contrib r.context (l ++ [(t, r.dst, r.redId)]) } }

/-- A packet that waits at a location for the router's own action, with its input port. -/
def hold (s : State) (t port : Nat) (p : Pkt) : State :=
  { s with net := { s.net with here := s.net.here ++ [{ loc := t, port := port, pkt := p, id := 0, came := flitsOf p }] } }

/-! ### Virtual channels at an output (R219, R220) -/

/-- What an output sends at a flit boundary: the first ready VC in the order VC0 to VC3, but VC3 before VC1 and VC2 once it
has given way to them 15 times in a row. -/
def serveVcs {α : Type} (ready : Nat → Option α) (gave : Nat) : Option α :=
  match ready 0 with
  | some f => some f
  | none =>
    match (ready 1).orElse (fun _ => ready 2), ready 3 with
    | some f, some g => if 15 ≤ gave then some g else some f
    | some f, none => some f
    | none, g => g

/-- The count of those boundaries after one at which VC `vc` sends, be it for the first time or again. -/
def vc3Next {α : Type} (ready : Nat → Option α) (gave vc : Nat) : Nat :=
  if (vc == 1 || vc == 2) && (ready 3).isSome && (ready 0).isNone then gave + 1 else 0

/-! ### Geometry of the mesh (R207, R214, R215) -/

/-- The router that port `p` of tile `t` joins, if any (R207). -/
def neighbour (t p : Nat) : Option Nat :=
  let h := tileHalf t
  let x := tileX t
  let y := tileY t
  match p with
  | 1 => if y < 71 then some (tileNum h x (y + 1)) else none
  | 2 => if x < 31 then some (tileNum h (x + 1) y) else if h = 0 then some (tileNum 1 0 y) else none
  | 3 => if 0 < y then some (tileNum h x (y - 1)) else none
  | 4 => if 0 < x then some (tileNum h (x - 1) y) else if h = 1 then some (tileNum 0 31 y) else none
  | 5 => if y + 4 ≤ 71 then some (tileNum h x (y + 4)) else none
  | 6 => if x + 4 ≤ 31 then some (tileNum h (x + 4) y) else none
  | 7 => if 4 ≤ y then some (tileNum h x (y - 4)) else none
  | 8 => if 4 ≤ x then some (tileNum h (x - 4) y) else none
  | _ => none

/-- The port at the far end of a link. -/
def farPort (p : Nat) : Nat :=
  match p with
  | 1 => 3 | 2 => 4 | 3 => 1 | 4 => 2 | 5 => 7 | 6 => 8 | 7 => 5 | 8 => 6 | _ => 0

/-- A link crosses the seam (R207). -/
def seamLink (t p : Nat) : Bool :=
  (p == 2 && tileHalf t == 0 && tileX t == 31) || (p == 4 && tileHalf t == 1 && tileX t == 0)

/-- The move in one dimension: positive or negative code, express when four or more remain. -/
def moveBy (cur tgt pos neg : Nat) : Nat :=
  if cur < tgt then (if 4 ≤ tgt - cur then pos + 4 else pos)
  else (if 4 ≤ cur - tgt then neg + 4 else neg)

/-- Default route of R215 from tile `t` toward tile `d`. -/
def defaultRoute (t d : Nat) : Nat :=
  if t = d then 0
  else if tileHalf t = tileHalf d then
    if tileX t != tileX d then moveBy (tileX t) (tileX d) 2 4
    else moveBy (tileY t) (tileY d) 1 3
  else if tileHalf t = 0 then (if tileX t = 31 then 2 else moveBy (tileX t) 31 2 4)
  else (if tileX t = 0 then 4 else moveBy (tileX t) 0 2 4)

/-- Route-table entry of tile `t` for tile `d` (R214). -/
def routeOf (s : State) (t d : Nat) : Nat := mapGet (fun k => defaultRoute (k / 8192) (k % 8192)) s.net.routes (t * 8192 + d)

/-- Route-table entry written. -/
def setRoute (s : State) (t d v : Nat) : State :=
  { s with net := { s.net with routes := mapPut (fun k => defaultRoute (k / 8192) (k % 8192)) s.net.routes (t * 8192 + d) v } }

/-- Multicast-table entry of a router: VALID, DOWN and UP (R218). -/
def mcEntry (s : State) (t g : Nat) : Bool × Nat × Nat :=
  let w := rd s (banked (tileReg t 3 0x128) g)
  (bitOf w 13, fieldOf w 4 9, fieldOf w 0 4)

/-- Flits waiting at output port `p` of router `t`; port 0 holds those for the router's own tile while it sleeps (R448). -/
def linkQ (s : State) (t p : Nat) : List Flit := mapGet (fun _ => []) s.net.links (t * 16 + p)

/-- The flits of an output port replaced. -/
def setLinkQ (s : State) (t p : Nat) (l : List Flit) : State :=
  { s with net := { s.net with links := mapPut (fun _ => []) s.net.links (t * 16 + p) l } }

/-- Flits placed at an output port. -/
def pushFlits (s : State) (t p : Nat) (fs : List Flit) : State := setLinkQ s t p (linkQ s t p ++ fs)

/-- LINK_FENCE of a port (R231). -/
def linkFenced (s : State) (t p : Nat) : Bool := rdB s (tileReg t 3 0x100) (16 + p)

/-- The numbers of some packets and of the copies that routers have begun to make of them; at most `k` routers on. -/
def withCopies (s : State) : Nat → List Nat → List Nat
  | 0, ids => ids
  | k + 1, ids =>
    let sent := s.net.links.flatMap (fun e => (e.2.filter (fun f => ids.contains f.orig)).map (fun f => f.id))
    let begun := (s.net.flows.filter (fun w => ids.contains w.id)).flatMap (fun w => w.outs.map Prod.snd)
    let all := (ids ++ sent ++ begun).eraseDups
    if all.length = ids.length then ids else withCopies s k all

/-- The flits of packets removed from a map of flits. -/
def dropFlits (m : NMap (List Flit)) (ids : List Nat) : NMap (List Flit) :=
  (m.map (fun q => (q.1, q.2.filter (fun f => !ids.contains f.id)))).filter (fun q => !q.2.isEmpty)

/-- The flits of packets removed from a boundary FIFO; their places in a Parith port's ingress buffer are free again. -/
def dropFromFifo (ids : List Nat) (s : State) (b : Nat) : State :=
  let stays (e : Nat × Flit) : Bool := !ids.contains e.2.id
  let gone := (fifoHeld s b).filter (fun e => !stays e)
  let s1 := setFifo s b ((fifoOf s b).filter stays) ((fifoHeld s b).filter stays)
  fifoFill (if b < 14 then each gone (fun u e => oweCredit u b (pktVc e.2.pkt) 1) s1 else s1) b

/-- Packets, with the copies begun of them, removed from every router, link and FIFO of the mesh (R209). -/
def dropPackets (s : State) (ids0 : List Nat) : State :=
  let ids := withCopies s 256 ids0
  each (List.range 16) (dropFromFifo ids)
    { s with net := { s.net with
        links := dropFlits s.net.links ids, entering := dropFlits s.net.entering ids, stored := dropFlits s.net.stored ids
        again := dropFlits s.net.again ids, last := dropFlits s.net.last ids, sunk := s.net.sunk.filter (fun e => !ids.contains e.2)
        here := s.net.here.filter (fun e => !ids.contains e.id)
        flows := (s.net.flows.filter (fun w => !ids.contains w.id)).map (fun w => { w with outs := w.outs.filter (fun o => !ids.contains o.2) }) } }

/-! ### Queue registers and counters (R179, R203) -/

/-- QD_RING, QD_STATE, QD_HEAD, QD_TAIL of a queue: `k` = 0, 1, 2, 3. -/
def qdReg (t q k : Nat) : Nat := tileReg t (5 + q / 64) (0x100 + 0x20 * (q % 64) + 8 * k)

/-- SENT, RECEIVED, DROPPED, REFUSED, SEND_STALL, READ_WAIT of a queue: `k` = 0 … 5. -/
def qcReg (t q k : Nat) : Nat := tileReg t (9 + q / 32) (0x100 + 0x30 * (q % 32) + 8 * k)

/-- A queue counter incremented. -/
def qCount (s : State) (t q k n : Nat) : State := incWrap s (qcReg t q k) n

/-- A queue-control counter: 0 STALE_DISCARDS, 1 NACKS_SENT, 2 NACKS_RECEIVED, 3 STALE_RETURNS,
4 HANDLERS_RUN, 5 PADS_WRITTEN. -/
def ctlCount (s : State) (t k n : Nat) : State := incWrap s (tileReg t 4 (0x080 + 8 * k)) n

/-- A message that is a token of the tile's set, for the counts of R130 (log entry 38, DEDUCED). -/
def countsForSet (s : State) (t : Nat) (m : Msg) : Bool := m.pay.length ≥ 8 && ofSet s t (msgToken m)

/-- DLV counts a token delivered to the tile's queue or refused there (R130). -/
def countDlv (s : State) (t : Nat) (m : Msg) : State :=
  if isTokenQueue s t (epQueue m.hdr.dst) && countsForSet s t m then incWrap s (tileReg t 3 0x0B0) 1 else s

/-- INJ counts a token that the tile injects for a queue of its set (R130) (log entry 38, DEDUCED). -/
def countInj (s : State) (t : Nat) (m : Msg) : State :=
  let d := epTile m.hdr.dst
  if epDev m.hdr.dst == deviceId s && d < 4608 && isTokenQueue s d (epQueue m.hdr.dst) && countsForSet s t m
  then incWrap s (tileReg t 3 0x0A8) 1 else s

/-- The NACK packet of a refused message, to the tile of its SRC (R192, R212). -/
def nackPkt (s : State) (src : Nat) (cause : Nat) (h : Header) : Ctrl :=
  let c := mkCtrl s 0x03 src h.context 0 (cause :: hdrWords h)
  { unicast c (epDev h.src) (epTile h.src) with ctxEpoch := h.ctxEpoch }

/-- A refusal: NACK sent, REFUSED and NACKS_SENT counted, DLV counted for a token (R130, R192) (log entry 53, DEDUCED). -/
def refuse (s : State) (t cause : Nat) (m : Msg) : State :=
  let s1 := qCount (ctlCount s t 1 1) t (epQueue m.hdr.dst) 3 1
  inject (countDlv s1 t m) t (.ctrl (nackPkt s1 t cause m.hdr))

end Sys2Proof.Machine
end

