-- ==== Sys2Proof/Machine/Link.lean ====
section
/-! DEFINITION. What the link layers of the Parith ports (R241–R245) and of the Gorbin port (R286) share: flow-control
credits, the replay buffer, and which flit of a started packet may go next. A port is 0–13, or 14 for Gorbin. -/

namespace Sys2Proof.Machine

/-- Flits of a port's ingress buffer by VC or Gorbin channel (R245, R286): full credit. -/
def fullCredit (p vc : Nat) : Nat :=
  if p = 14 then (if vc = 0 then 1536 else if vc = 1 then 512 else if vc = 2 then 2048 else 0)
  else if vc = 0 then 64 else if vc = 1 then 192 else 896

/-- Link credits of a VC; full at link initialisation (R239). -/
def linkCredit (s : State) (p vc : Nat) : Nat := mapGet (fun k => fullCredit (k / 4) (k % 4)) s.fabric.credit (p * 4 + vc)

/-- Link credits set; a VC without credit is noted with the time (R251). -/
def setLinkCredit (s : State) (p vc n : Nat) : State :=
  let k := p * 4 + vc
  let old := mapGet (fun _ => 0) s.fabric.noCredit k
  let mark := if n = 0 then (if old = 0 then now s + 1 else old) else 0
  { s with fabric := { s.fabric with credit := mapPut (fun k => fullCredit (k / 4) (k % 4)) s.fabric.credit k n
                                     noCredit := mapPut (fun _ => 0) s.fabric.noCredit k mark } }

/-- Credits that a CREDIT block returns (R241). -/
def addCredits (s : State) (p : Nat) (l : List (Nat × Nat)) : State :=
  each l (fun u q => if q.2 = 0 then u else setLinkCredit u p q.1 (linkCredit u p q.1 + q.2)) s

/-- Time of acknowledged progress noted. -/
def markMoved (s : State) (p : Nat) : State :=
  { s with fabric := { s.fabric with moved := mapPut (fun _ => 0) s.fabric.moved p (now s + 1) } }

/-- The link layer starts afresh: sequence 0 in both directions and full credit (R239). -/
def linkInit (s : State) (p : Nat) : State :=
  { s with fabric := { s.fabric with
      txSeq := mapPut (fun _ => 0) s.fabric.txSeq p 0, rxSeq := mapPut (fun _ => 0) s.fabric.rxSeq p 0
      rxAhead := mapPut (fun _ => []) s.fabric.rxAhead p []
      credit := mapClear s.fabric.credit (4 * p) (4 * p + 4), noCredit := mapClear s.fabric.noCredit (4 * p) (4 * p + 4)
      vc3Gave := mapPut (fun _ => 0) s.fabric.vc3Gave p 0 } }

/-- The link state of a port that carries no more: nothing owed, sent or being trained; `held` flits of each VC that ingress
still holds go on, and their places are not credited to the next link. -/
def linkQuiet (s : State) (p : Nat) (held : Nat → Nat) : State :=
  { s with fabric := { s.fabric with
      owed := mapClear s.fabric.owed (4 * p) (4 * p + 4), noCredit := mapClear s.fabric.noCredit (4 * p) (4 * p + 4)
      ackOwed := mapPut (fun _ => false) s.fabric.ackOwed p false, nak := mapPut (fun _ => false) s.fabric.nak p false
      onWire := mapPut (fun _ => 0) s.fabric.onWire p 0, retrain := mapPut (fun _ => 0) s.fabric.retrain p 0
      stale := (List.range 4).foldl (fun m vc => mapPut (fun _ => 0) m (4 * p + vc) (held vc)) s.fabric.stale } }

/-- Flits owed as credit for a VC. -/
def creditOwed (s : State) (p vc : Nat) : Nat := mapGet (fun _ => 0) s.fabric.owed (4 * p + vc)

/-- What ACK_TIMER sends on a running port (R243, R245): an ACK and the owed credits. -/
def ackAndCredits (s : State) (p : Nat) : State :=
  let s1 := if mapGet (fun _ => false) s.fabric.ackOwed p then
      emit { s with fabric := { s.fabric with ackOwed := mapPut (fun _ => false) s.fabric.ackOwed p false } }
        (.link p (.ack false ((mapGet (fun _ => 0) s.fabric.rxSeq p + 4095) % 4096)))
    else s
  if (List.range 4).any (fun vc => creditOwed s p vc != 0) then
    emit { s1 with fabric := { s1.fabric with owed := mapClear s1.fabric.owed (4 * p) (4 * p + 4) } }
      (.link p (.credits (creditOwed s p 0) (creditOwed s p 1) (creditOwed s p 2) (creditOwed s p 3)))
  else s1

/-- A control block other than ACK, CREDIT and TIME ends the run on the wire (R242). -/
def endRun (s : State) (p : Nat) : State := { s with fabric := { s.fabric with onWire := mapPut (fun _ => 0) s.fabric.onWire p 0 } }

/-- Sequences that a port accepted before an earlier one (R243). -/
def rxAhead (s : State) (p : Nat) : List Nat := mapGet (fun _ => []) s.fabric.rxAhead p

/-- A sequence may complete next on port `p` (R243): at most three packets of other VCs have started before it, or before one
already accepted, and are unfinished (log entry 200, DEDUCED). -/
def seqFits (s : State) (p seq : Nat) : Bool :=
  let low := mapGet (fun _ => 0) s.fabric.rxSeq p
  let past (n : Nat) : Nat := (n + 4096 - low) % 4096
  ((rxAhead s p).map past).foldl max (past seq) ≤ (rxAhead s p).length + 3

/-- The lowest sequence not yet accepted after `low` was, and those accepted above it; at most `k` of them. -/
def seqOn : Nat → Nat → List Nat → Nat × List Nat
  | 0, low, l => (low, l)
  | k + 1, low, l => if l.contains low then seqOn k ((low + 1) % 4096) (l.erase low) else (low, l)

/-- A packet accepted (R243): the next sequence is expected, its ACK is owed, and a NAK's replay has come. -/
def linkAccept (s : State) (p : Nat) : State :=
  { s with fabric := { s.fabric with
      rxSeq := mapPut (fun _ => 0) s.fabric.rxSeq p ((mapGet (fun _ => 0) s.fabric.rxSeq p + 1) % 4096)
      nak := mapPut (fun _ => false) s.fabric.nak p false
      ackOwed := mapPut (fun _ => false) s.fabric.ackOwed p true } }

/-- A packet accepted on port `p` under its sequence (R243): the lowest sequence not accepted advances, or `seq` is ahead of it. -/
def seqAccept (s : State) (p seq : Nat) : State :=
  if seq = mapGet (fun _ => 0) s.fabric.rxSeq p then
    let u := linkAccept s p
    let r := seqOn (rxAhead s p).length (mapGet (fun _ => 0) u.fabric.rxSeq p) (rxAhead s p)
    { u with fabric := { u.fabric with rxSeq := mapPut (fun _ => 0) u.fabric.rxSeq p r.1, rxAhead := mapPut (fun _ => []) u.fabric.rxAhead p r.2 } }
  else { s with fabric := { s.fabric with rxAhead := mapPut (fun _ => []) s.fabric.rxAhead p (rxAhead s p ++ [seq]) } }

/-- A NAK sent; until the replay everything is discarded (R243). -/
def nakSent (s : State) (p : Nat) : State :=
  emit (endRun { s with fabric := { s.fabric with nak := mapPut (fun _ => false) s.fabric.nak p true } } p)
    (.link p (.ack true (mapGet (fun _ => 0) s.fabric.rxSeq p)))

/-! ### Started packets (R242–R244) -/

/-- Packets up to a sequence acknowledged: freed from the replay buffer (R243, R244). -/
def acked {α : Type} (l : List (Sent α)) (seq : Nat) : List (Sent α) :=
  if l.any (fun e => e.seq == seq) then (l.dropWhile (fun e => e.seq != seq)).drop 1 else l

/-- What a NAK that names a sequence leaves to be sent again: packets before it were accepted (R243). -/
def nacked {α : Type} (l : List (Sent α)) (seq : Nat) : List (Sent α) :=
  if l.any (fun e => e.seq == seq) then l.dropWhile (fun e => e.seq != seq) else acked l ((seq + 4095) % 4096)

/-- Started packets to be sent again from their first flits. -/
def rewound {α : Type} (l : List (Sent α)) : List (Sent α) := l.map (fun e => { e with next := 0, replay := true })

/-- Flits that a replay buffer holds. -/
def keptFlits {α : Type} (size : α → Nat) (l : List (Sent α)) : Nat := (l.map (fun e => size e.pkt)).sum

/-- A started packet has flits that its runs have still to send. -/
def unsent {α : Type} (size : α → Nat) (e : Sent α) : Bool := e.next < size e.pkt

/-- A started packet may send its next flit: one that is resent starts after those before it have, and a flit sent for the
first time takes a credit (R242, R243, R245). -/
def mayResume {α : Type} [DecidableEq α] (l : List (Sent α)) (credit : Nat) (e : Sent α) : Bool :=
  (0 < e.next || (l.takeWhile (fun x => x != e)).all (fun x => 0 < x.next)) && (e.next < e.paid || 0 < credit)

/-- A new packet may start: every packet that is resent has started, a credit is held, and the replay buffer has room
(R243, R244). -/
def mayStart {α : Type} (size : α → Nat) (l : List (Sent α)) (credit : Nat) (x : α) : Bool :=
  l.all (fun e => 0 < e.next) && 0 < credit && keptFlits size l + size x ≤ 4096 && l.length < 2048

/-- A started packet after one more of its flits was sent. -/
def oneMore {α : Type} (e : Sent α) : Sent α := { e with next := e.next + 1, paid := max e.paid (e.next + 1) }

/-- The link header of a packet's next flit, where a run begins with it (R242). -/
def runHeader {α : Type} (s : State) (p vc size : Nat) (e : Sent α) : State :=
  if mapGet (fun _ => 0) s.fabric.onWire p = e.seq + 1 then s
  else emit s (.link p (.header vc (0 < e.next) e.replay (size - 1) e.seq e.hop))

/-- The packet whose run is on the wire after a flit of it: none after its last. -/
def runGoes {α : Type} (s : State) (p size : Nat) (e : Sent α) : State :=
  { s with fabric := { s.fabric with onWire := mapPut (fun _ => 0) s.fabric.onWire p (if e.next + 1 = size then 0 else e.seq + 1) } }

/-- A credit spent on a flit that is sent for the first time (R245). -/
def payFlit {α : Type} (s : State) (p vc : Nat) (e : Sent α) : State :=
  if e.paid ≤ e.next then setLinkCredit s p vc (linkCredit s p vc - 1) else s

/-- The sequence that the next new packet of a port takes, and its advance. -/
def nextSeq (s : State) (p : Nat) : Nat := mapGet (fun _ => 0) s.fabric.txSeq p
/-- The sequence advanced. -/
def seqTaken (s : State) (p : Nat) : State :=
  { s with fabric := { s.fabric with txSeq := mapPut (fun _ => 0) s.fabric.txSeq p ((nextSeq s p + 1) % 4096) } }

end Sys2Proof.Machine
end

