-- ==== Sys2Proof/Machine/GbLink.lean ====
section
/-! DEFINITION. What the Gorbin port sends (R286, R290, R291): its channels, flits and link layer, completions of the
companion's requests, the device's own requests, and MSIs behind the writes that they follow (R294, R304). -/

namespace Sys2Proof.Machine

/-- A register of the Gorbin page. -/
def gbReg (off : Nat) : Nat := devReg 5 off
/-- The Gorbin page. -/
def gbPage : Nat := devPage 5

/-- The Gorbin link is UP or DEGRADED (R306, R262). -/
def gbUp (s : State) : Bool := rdF s (gbReg 0x108) 0 3 == 2 || rdF s (gbReg 0x108) 0 3 == 3

/-! ### The link layer (R286) -/

/-- Channel of an opcode (R291): G0 completions, G1 snoops, G2 requests. -/
def gbChannel (opc : Nat) : Nat := if 0x30 ≤ opc then 0 else if 0x20 ≤ opc then 1 else 2

/-- Flits of a packet with `n` data bytes behind its 16 B header (R290). -/
def gbFlits (n : Nat) : Nat := (16 + n + 63) / 64

/-- Flits of a packet that the port sends. -/
def gbSize (p : GbPkt) : Nat := gbFlits p.data.length

/-- The packet of a channel of which the port can send a flit. -/
def gbReady (s : State) (ch : Nat) : Option (Sent GbPkt × Bool) :=
  let l := s.gorbin.sent
  let credit := linkCredit s 14 ch
  match l.find? (fun e => gbChannel e.pkt.opc == ch && unsent gbSize e) with
  | some e => if mayResume l credit e then some (e, false) else none
  | none =>
    match s.gorbin.out.find? (fun x => gbChannel x.opc == ch) with
    | some x => if mayStart gbSize l credit x then some ({ seq := nextSeq s 14, pkt := x, hop := 0, next := 0, paid := 0, replay := false }, true) else none
    | none => none

/-- A packet's first run starts. -/
def gbStart (s : State) (e : Sent GbPkt) : State :=
  let s1 := if s.gorbin.sent.isEmpty then markMoved s 14 else s
  seqTaken { s1 with gorbin := { s1.gorbin with out := s1.gorbin.out.erase e.pkt, sent := s1.gorbin.sent ++ [e] } } 14

/-- The port sends the next flit of a packet. -/
def gbFlit (s : State) (c : Sent GbPkt × Bool) : State :=
  let e := c.1
  let s1 := if c.2 then gbStart s e else s
  let s2 := emit (payFlit (runHeader s1 14 (gbChannel e.pkt.opc) (gbSize e.pkt) e) 14 (gbChannel e.pkt.opc) e) (.gbFlit e.pkt e.next)
  runGoes { s2 with gorbin := { s2.gorbin with sent := s2.gorbin.sent.map (fun x => if x == e then oneMore e else x) } } 14 (gbSize e.pkt) e

/-- The port sends what it can, G0 before G1 before G2 at every flit boundary; `n` bounds the flits. -/
def gbPumpN : Nat → State → State
  | 0, s => s
  | n + 1, s =>
    match (if gbUp s then [0, 1, 2].findSome? (gbReady s) else none) with
    | some c => gbPumpN n (gbFlit s c)
    | none => s

/-- The port sends what it can. -/
def gbPump (s : State) : State :=
  gbPumpN ((s.gorbin.out.map gbSize).sum + (s.gorbin.sent.map (fun e => gbSize e.pkt - e.next)).sum) s

/-- Every packet not acknowledged is sent again, in the original start order (R243). -/
def gbResend (s : State) : State :=
  gbPump { s with gorbin := { s.gorbin with sent := rewound s.gorbin.sent }
                  fabric := { s.fabric with onWire := mapPut (fun _ => 0) s.fabric.onWire 14 0 } }

/-! ### Packets -/

/-- A packet sent to the companion; on a link that is not running it is lost (log entry 185, DEDUCED). -/
def gbSend (s : State) (opc tag addr status : Nat) (data : List Byte) : State :=
  if gbUp s then
    gbPump { s with gorbin := { s.gorbin with out := s.gorbin.out ++ [{ opc := opc, tag := tag, addr := addr, status := status, data := data }] } }
  else s

/-- The answer to a request: with data or without; none to a request that the companion's own port has ended, with status
LINK, when the link went DOWN (R292, R298). -/
def gbReply (s : State) (h : GbHdr) (status : Nat) (data : List Byte) : State :=
  if h.status = 5 then s else gbSend s (if data.isEmpty then 0x30 else 0x31) h.tag h.addr status data

/-- The lowest tag with no request outstanding (R290). -/
def freeTag (s : State) : Option Nat := (List.range 4096).find? (fun n => !s.gorbin.reqs.any (fun r => r.tag == n))

/-- A request of the device sent, when a tag is free. -/
def gbRequest (s : State) (opc addr : Nat) : State :=
  match freeTag s with
  | none => s
  | some tag =>
    gbSend { s with gorbin := { s.gorbin with reqs := s.gorbin.reqs ++ [{ tag := tag, opc := opc, addr := addr, since := now s }] } }
      opc tag addr 0 []

/-! ### MSIs (R294, R304) -/

/-- MSIs leave in order, each once every write of companion memory that preceded it has been made in its line (R294); at most
`n`. -/
def msiFlush : Nat → State → State
  | 0, s => s
  | n + 1, s =>
    match s.gorbin.msiWait with
    | [] => s
    | m :: l =>
      if m.after.any (fun w => s.gorbin.gwPend.contains w) then s
      else msiFlush n (gbSend (emit { s with gorbin := { s.gorbin with msiWait := l } } (.msi m.vector)) 0x16 0 m.addr 0 m.data)

/-- The MSI of vector `t` is due (log entry 187, DEDUCED). -/
def msiSend (s : State) (t addr : Nat) (data : List Byte) : State :=
  let l := s.gorbin.msiWait ++ [{ vector := t, after := s.gorbin.gwPend, addr := addr, data := data }]
  msiFlush l.length { s with gorbin := { s.gorbin with msiWait := l } }

/-- An outstanding request of the device with a tag. -/
def gbReq (s : State) (tag : Nat) : Option GbReq := s.gorbin.reqs.find? (fun r => r.tag == tag)

/-- The write of channel `w` no longer waits: made, failed or given up; MSIs that followed it may leave (R294). -/
def gwSettled (s : State) (w : Nat) : State :=
  msiFlush s.gorbin.msiWait.length { s with gorbin := { s.gorbin with gwPend := s.gorbin.gwPend.filter (fun x => x != w) } }

/-- The write of channel `w` waits for lines of the companion (R297). -/
def gwWaits (s : State) (w : Nat) : State :=
  { s with gorbin := { s.gorbin with gwPend := s.gorbin.gwPend.filter (fun x => x != w) ++ [w] } }

/-- A request of the device removed. -/
def gbDone (s : State) (tag : Nat) : State :=
  { s with gorbin := { s.gorbin with reqs := s.gorbin.reqs.filter (fun r => r.tag != tag) } }

end Sys2Proof.Machine
end

