-- ==== Sys2Proof/Machine/Scratch.lean ====
section
/-! DEFINITION. Scratchpad accesses: code units and their check bits (R146–R152), the region check
(R155–R160), bank power (R169–R172), full/empty tags and waiters (R162–R166), and the one
operation `access` that every unit uses. -/

namespace Sys2Proof.Machine

/-- A register of a tile's scratchpad page. -/
def spReg (t off : Nat) : Nat := tileReg t 2 off
/-- The scratchpad page of a tile. -/
def spPage (t : Nat) : Nat := tilePage t 2

/-! ### Regions (R156, R173) -/

/-- A valid region: residence slot, number, bounds in words and attributes. -/
structure Rgn where
  r : Nat
  j : Nat
  base : Nat
  limit : Nat
  slotWords : Nat
  tagged : Bool
  weight : Bool
  canWrite : Bool
  canRead : Bool
  deriving DecidableEq, Repr

/-- Offset of a region register: `k` = 0 BASE, 1 LIMIT, 2 ATTR (R173). -/
def rgnReg (t r j k : Nat) : Nat := spReg t (0x400 + 0x18 * (16 * r + j) + 8 * k)

/-- The region that the registers of slot `r`, region `j` describe, when VALID and sound (R160). -/
def rgnAt (s : State) (t r j : Nat) : Option Rgn :=
  let b := rd s (rgnReg t r j 0)
  let l := rd s (rgnReg t r j 1)
  let a := rd s (rgnReg t r j 2)
  if bitOf b 31 && guardOk b && guardOk l && guardOk a then
    some { r := r, j := j, base := fieldOf b 0 17, limit := fieldOf l 0 18, slotWords := fieldOf a 4 6 + 1
           tagged := bitOf a 3, weight := bitOf a 2, canWrite := bitOf a 1, canRead := bitOf a 0 }
  else none

/-- Valid regions of a residence slot. -/
def rgnsOfSlot (s : State) (t r : Nat) : List Rgn := (List.range 16).filterMap (rgnAt s t r)

/-- SP_CTRL.MODE is SERVICE (R155). -/
def inService (s : State) (t : Nat) : Bool := rdF s (spReg t 0x100) 0 2 == 1

/-- Every valid region of a tile; none in MAINT mode (R155). -/
def allRgns (s : State) (t : Nat) : List Rgn :=
  if inService s t then (List.range 8).flatMap (rgnsOfSlot s t) else []

/-- A word lies in a region. -/
def Rgn.holds (g : Rgn) (w : Nat) : Bool := g.base ≤ w && w < g.limit

/-- A word is coded in weight class: a valid region of that class covers it (R146), whatever the class of another
context's read-only region over it (log entry 167, DESIGN CHOICE). -/
def isWeight (s : State) (t w : Nat) : Bool := (allRgns s t).any (fun g => g.weight && g.holds w)

/-- The residence slots of a tile that bind a context (R156). -/
def ctxSlots (s : State) (t c : Nat) : List Nat :=
  (List.range 8).filter (fun r =>
    let w := rd s (spReg t (0x140 + 8 * r))
    guardOk w && bitOf w 8 && fieldOf w 0 8 == c)

/-- A stored guarded value of slot `r`'s regions, or a RES_CTX, fails its complement (R160). -/
def rgnGuardBad (s : State) (t r : Nat) : Bool :=
  (List.range 8).any (fun i => !gOk s (spReg t (0x140 + 8 * i)))
    || (List.range 16).any (fun j => !gOk s (rgnReg t r j 0) || !gOk s (rgnReg t r j 1) || !gOk s (rgnReg t r j 2))

/-! ### Code units (R146–R152) -/

/-- The stored check byte of a word: the activation code's bits with the difference that `chk` holds. -/
def storedCheck (s : State) (t w : Nat) : Nat := (actCheck (padWord s t w) w ^^^ chkAt s (padAddr t w)) % 256

/-- Data of the unit that holds word `w`: its first word offset and its words. -/
def unitBase (weight : Bool) (w : Nat) : Nat := if weight then w / 2 * 2 else w

/-- The stored data of a unit as a number: 32 or 64 bits. -/
def unitData (s : State) (t w : Nat) (weight : Bool) : Nat :=
  if weight then padWord s t w + (padWord s t (w + 1) <<< 32) else padWord s t w

/-- Nothing has written the unit at `w`. -/
def blankUnit (s : State) (t w : Nat) (weight : Bool) : Bool :=
  chkAt s (padAddr t w) == 256 && (!weight || chkAt s (padAddr t (w + 1)) == 256)

/-- Decoding of the unit at `w` (R149). -/
def unitDecode (s : State) (t w : Nat) (weight : Bool) : Ecc :=
  if weight then
    let stored := storedCheck s t w + (storedCheck s t (w + 1) <<< 8)
    if blankUnit s t w true then .clean
    else wgtDecode (stored ^^^ wgtCheck (unitData s t w true) w)
  else actDecode (chkAt s (padAddr t w) % 256)

/-- A unit stored with fresh check bits of its class (R147, R148). -/
def storeUnit (s : State) (t w : Nat) (weight : Bool) (d : Nat) : State :=
  if weight then
    let k := wgtCheck d w
    let d0 := d % 2 ^ 32
    let d1 := fieldNat d 32 32
    setChk (setChk (writeNat (writeNat s (padAddr t w) 4 d0) (padAddr t (w + 1)) 4 d1)
      (padAddr t w) (k % 256 ^^^ actCheck d0 w)) (padAddr t (w + 1)) (k / 256 ^^^ actCheck d1 (w + 1))
  else setChk (writeNat s (padAddr t w) 4 d) (padAddr t w) 0

/-- Stored bits of a word flipped: data bits 0–31, check bits 32–39 of the pattern; a unit that nothing has written
holds the check bits of its class. -/
def flipWord (s0 : State) (t : Nat) (f : Nat × Nat) : State :=
  let w := f.1
  let u := unitBase (isWeight s0 t w) w
  let s := if blankUnit s0 t u (isWeight s0 t w) then storeUnit s0 t u (isWeight s0 t w) (unitData s0 t u (isWeight s0 t w)) else s0
  let old := storedCheck s t w
  let d := padWord s t w ^^^ (f.2 % 2 ^ 32)
  setChk (writeNat s (padAddr t w) 4 d) (padAddr t w) ((old ^^^ fieldNat f.2 32 8) ^^^ actCheck d w)

/-- ERR_ADDR of the last uncorrectable, address or region failure (R173). -/
def setErrAddr (s : State) (t w c code : Nat) : State :=
  wr s (spReg t 0x130) (BitVec.ofNat 64 (place 16 17 w + place 8 8 c + code % 256))

/-- A corrected unit: counted, recorded once per bank and 1 ms window, and due for write-back (R152). -/
def correctedAt (s : State) (t w : Nat) (weight : Bool) (ctx : Option Nat) (d : Nat) : State :=
  let s1 := incSat s (spReg t (if weight then 0x088 else 0x080))
  let s2 := reportLimited s1 (spPage t) 0 (if weight then 0x0402 else 0x0401) (limitKey 1 t (bankOf t w)) (now s / 1000000)
    { ctx := ctx, detail := [w, ctx.getD 0, bit01 weight] }
  if s2.pad.writeBacks.any (fun b => b.tile == t && b.word == w) then s2
  else { s2 with pad := { s2.pad with writeBacks := s2.pad.writeBacks ++ [{ tile := t, word := w, weight := weight, data := d }] } }

/-- An uncorrectable unit or an address mismatch (R150): counted and recorded at the serving tile. -/
def failedAt (s : State) (t w : Nat) (weight addr : Bool) (ctx : Option Nat) : State :=
  let code := if addr then 0x0405 else if weight then 0x0404 else 0x0403
  let s1 := incSat s (spReg t (if addr then 0x098 else 0x090))
  let s2 := wrB (setErrAddr s1 t w (ctx.getD 0) code) (spReg t 0x108) 0 true
  report s2 (spPage t) code { ctx := ctx, clean := ctx.isSome, detail := [w, ctx.getD 0, bit01 weight] }

/-- One unit read (R149): its data where it is delivered, with the effects of the outcome. -/
def readUnit (s : State) (t w : Nat) (weight : Bool) (ctx : Option Nat) : Option Nat × State :=
  match unitDecode s t w weight with
  | .clean => (some (unitData s t w weight), s)
  | .corrected f => (some (unitData s t w weight ^^^ f), correctedAt s t w weight ctx (unitData s t w weight ^^^ f))
  | .uncorrectable => (none, failedAt s t w weight false ctx)
  | .address => (none, failedAt s t w weight true ctx)

/-- The units that `n` words from `w` touch, in ascending order: first word and class. -/
def unitsOf (s : State) (t w n : Nat) : List (Nat × Bool) :=
  ((List.range n).map (fun i => (unitBase (isWeight s t (w + i)) (w + i), isWeight s t (w + i)))).eraseDups

/-- Word `w` of a unit's data. -/
def wordOfUnit (u : Nat × Bool) (d w : Nat) : Nat := if u.2 && w != u.1 then fieldNat d 32 32 else d % 2 ^ 32

/-- Words read: each delivered or withheld, with every unit's effects (R149, R150). -/
def readWords (s : State) (t w n : Nat) (ctx : Option Nat) : List (Option Nat) × State :=
  let r := (unitsOf s t w n).foldl (fun (acc : List ((Nat × Bool) × Option Nat) × State) u =>
    let q := readUnit acc.2 t u.1 u.2 ctx
    (acc.1 ++ [(u, q.1)], q.2)) ([], s)
  ((List.range n).map (fun i =>
    match r.1.find? (fun e => e.1.1 == w + i || (e.1.2 && e.1.1 + 1 == w + i)) with
    | some e => e.2.map (fun d => wordOfUnit e.1 d (w + i))
    | none => none), r.2)

/-- Bytes of words read, cut to `len` bytes from byte offset `b`. -/
def readPadBytes (s : State) (t b len : Nat) (ctx : Option Nat) : List (Option Byte) × State :=
  let w := b / 4
  let n := (b + len + 3) / 4 - w
  let r := readWords s t w n ctx
  ((((r.1.flatMap (fun o => match o with
      | some v => (bytesOf 4 v).map some
      | none => List.replicate 4 none)).drop (b % 4)).take len), r.2)

/-- The pending write-backs of a word's row are dropped: a foreground write has reached the row first (R152). -/
def dropWriteBack (s : State) (t w : Nat) : State :=
  { s with pad := { s.pad with
      writeBacks := s.pad.writeBacks.filter (fun p => !(p.tile == t && p.word / rowWords t == w / rowWords t)) } }

/-- DISCARDED_WRITES of a tile. -/
def discardWrite (s : State) (t : Nat) : State := incSat s (spReg t 0x0A8)

/-- A byte of a write within its code unit: place, value, and the bits that are written. -/
structure UnitByte where
  place : Nat
  val : Byte
  mask : Byte
  deriving DecidableEq, Repr

/-- Bytes merged into a unit's data. -/
def mergeBytes (d : Nat) (bs : List UnitByte) : Nat :=
  bs.foldl (fun acc p =>
    let old := fieldNat acc (8 * p.place) 8
    (acc - place (8 * p.place) 8 old) + place (8 * p.place) 8 ((p.val &&& p.mask) ||| (BitVec.ofNat 8 old &&& ~~~p.mask)).toNat) d

/-- The bits of byte `i` of `n` that a write with `keep` writes (R151). -/
def keepMask (keep : Nat × Nat) (i n : Nat) : Byte :=
  BitVec.ofNat 8 ((if i = 0 then 255 - (2 ^ keep.1 - 1) else 255) &&& (if i + 1 = n then 2 ^ (8 - keep.2) - 1 else 255))

/-- A part of a write that falls on a unit. -/
def unitBytes (u : Nat × Bool) (b : Nat) (data : List (Option Byte)) (keep : Nat × Nat) : List UnitByte :=
  data.zipIdx.filterMap (fun p =>
    let off := b + p.2
    if 4 * u.1 ≤ off && off < 4 * u.1 + (if u.2 then 8 else 4)
    then p.1.map (fun v => ({ place := off - 4 * u.1, val := v, mask := keepMask keep p.2 data.length } : UnitByte)) else none)

/-- A write covers every bit of a unit, so that it needs no read of the unit (R151). -/
def wholeUnit (u : Nat × Bool) (bs : List UnitByte) : Bool := bs.length == (if u.2 then 8 else 4) && bs.all (fun p => p.mask == 0xFF)

/-- One unit written (R151): whole units directly, part of a unit by read-modify-write, which an
uncorrectable unit stops. -/
def writeUnit (s : State) (t : Nat) (u : Nat × Bool) (bs : List UnitByte) (ctx : Option Nat) : State :=
  if bs.length = 0 then s
  else if wholeUnit u bs then storeUnit (dropWriteBack s t u.1) t u.1 u.2 (mergeBytes 0 bs)
  else
    let r := readUnit s t u.1 u.2 ctx
    match r.1 with
    | some d => storeUnit (dropWriteBack r.2 t u.1) t u.1 u.2 (mergeBytes d bs)
    | none => discardWrite r.2 t

/-- Bytes written at byte offset `b`; gaps are left unwritten (R150, R151). -/
def writePadBytes (s : State) (t b : Nat) (data : List (Option Byte)) (ctx : Option Nat) (keep : Nat × Nat := (0, 0)) : State :=
  let w := b / 4
  let n := (b + data.length + 3) / 4 - w
  (unitsOf s t w n).foldl (fun acc u => writeUnit acc t u (unitBytes u b data keep) ctx) s

/-! ### Banks (R169–R172) -/

/-- BANK_STATE of a bank: 0 ON, 1 RET, 2 OFF, 3 WAKING. -/
def bankState (s : State) (t b : Nat) : Nat := rdF s (spReg t 0x128) (2 * b) 2
/-- BANK_STATE set. -/
def setBankState (s : State) (t b v : Nat) : State := wrF s (spReg t 0x128) (2 * b) 2 v
/-- BANK_PWR: the requested state. -/
def bankAsked (s : State) (t b : Nat) : Nat := rdF s (spReg t 0x120) (2 * b) 2

/-- Banks that `n` words from `w` lie in. -/
def banksOf (t w n : Nat) : List Nat := ((List.range n).map (fun i => bankOf t (w + i))).eraseDups

/-- End of the window for which a woken bank stays ON; 0 for a bank that was not woken (R171). -/
def wakeEndOf (s : State) (t b : Nat) : Nat := mapGet (fun _ => 0) s.pad.wakeEnd (t * 32 + b)

/-- The window of a woken bank set, or forgotten with 0. -/
def setWakeEnd (s : State) (t b v : Nat) : State :=
  { s with pad := { s.pad with wakeEnd := mapPut (fun _ => 0) s.pad.wakeEnd (t * 32 + b) v } }

/-- A woken bank's window runs 4,000 ns from its last access (R171). -/
def touchBanks (s : State) (t w n : Nat) : State :=
  each (banksOf t w n) (fun u b => if wakeEndOf u t b != 0 then setWakeEnd u t b (now u + 4000) else u) s

/-- Banks in RET that an access reaches begin to wake, each counted once in LATE_WAKES (R171). -/
def wakeBanks (s : State) (t w n : Nat) : State :=
  each (banksOf t w n) (fun u b =>
    if bankState u t b = 1 && clusterPower u (clusterOf t) ≤ 1 then incSat (setBankState u t b 3) (spReg t 0x0B0) else u) s

/-! ### The region check (R159) -/

/-- The read and write permissions an operation needs (R159 row 6). -/
def opNeeds : SpOp → Bool × Bool
  | .rd => (true, false) | .wr => (false, true) | .rdFull => (true, false) | .rdTake => (true, false)
  | .wrFill => (false, true) | .clrTag => (false, true) | .aadd => (true, true) | .cas => (true, true)

/-- Operations of a tagged region (R162). -/
def opTagged : SpOp → Bool
  | .rdFull => true | .rdTake => true | .wrFill => true | .clrTag => true | _ => false

/-- Operations counted as writes when they fail (R159, R166). -/
def opWrites : SpOp → Bool
  | .wr => true | .wrFill => true | .clrTag => true | .aadd => true | .cas => true | _ => false

/-- The valid regions of a context on a tile, in every residence slot that binds it. -/
def ctxRgns (s : State) (t c : Nat) : List Rgn :=
  if inService s t then (ctxSlots s t c).flatMap (rgnsOfSlot s t) else []

/-- The bound contexts that have a word of `[w, w + n)` in a valid region of a tile in SERVICE (R484). -/
def padOwners (s : State) (t w n : Nat) : List Nat :=
  if inService s t then
    ((List.range 8).filter (fun r => (rgnsOfSlot s t r).any (fun g => g.base < w + n && w < g.limit))).filterMap (fun r =>
      let v := rd s (spReg t (0x140 + 8 * r))
      if guardOk v && bitOf v 8 then some (fieldOf v 0 8) else none)
  else []

/-- A management access of words that life cycle or debug level refuses (R484). -/
def padDenied (s : State) (a : Agent) (t boff len : Nat) (write : Bool) : Bool :=
  !reachesMemory s a || (a == .companion && !privateOk s (padOwners s t (boff / 4) ((boff + len + 3) / 4 - boff / 4)) write)

/-- Whether the mode admits the requester (R155): in MAINT mode only Hornbeam and Yew. -/
def modeAdmits (s : State) (t : Nat) (req : Req) : Bool :=
  inService s t || (match req with
    | .mgmt .hornbeam => true
    | .mgmt .yew => true
    | _ => false)

/-- The code of an access for which the context's slot holds no valid region: 0x040B where a guarded value that
governs it fails its complement (R160), else 0x0406 (R159): a RES_CTX of the tile governs every access, a region register
of a slot every access of its context (log entry 194, DESIGN CHOICE). -/
def regionCode (s : State) (t c : Nat) : Nat :=
  if (List.range 8).any (fun i => !gOk s (spReg t (0x140 + 8 * i))) || (ctxSlots s t c).any (rgnGuardBad s t) then 0x040B else 0x0406

/-- The first failing row of R159 for words `[w, w + n)`, as its code. -/
def regionCheck (s : State) (a : SpAcc) : Option Nat :=
  let t := a.tile
  let w := a.boff / 4
  let n := (a.boff + a.len + 3) / 4 - w
  if tileFenced s t || tileWords t < w + n then some 0x0407
  else if !modeAdmits s t a.req then some 0x0406
  else if (banksOf t w n).any (fun b => bankState s t b == 2) then some 0x0408
  else match a.ctx with
    | none => none
    | some c =>
      if (ctxSlots s t c).isEmpty || regionCode s t c = 0x040B then some (regionCode s t c)
      else
          let gs := ctxRgns s t c
          let ws := (List.range n).map (fun i => w + i)
          if ws.any (fun x => !gs.any (fun g => g.holds x)) then some 0x0406
          else if ws.any (fun x => gs.any (fun g => g.holds x
              && (((opNeeds a.op).1 && !g.canRead) || ((opNeeds a.op).2 && !g.canWrite)))) then some 0x0406
          else
            match gs.find? (fun g => g.holds w) with
            | none => some 0x0406
            | some g =>
              if g.tagged != opTagged a.op || ws.any (fun x => gs.any (fun h => h.holds x && h.tagged != opTagged a.op)) then some 0x0409
              else if g.tagged && ((w - g.base) % g.slotWords != 0 || n != g.slotWords || a.boff % 4 != 0 || a.len != 4 * g.slotWords
                  || g.limit < w + n) then some 0x0409
              else none

/-- A failed access: not performed, counted and recorded; a region guard fault fences the tile (R159, R160). -/
def accessFailed (s : State) (a : SpAcc) (code : Nat) : State :=
  let t := a.tile
  let w := a.boff / 4
  let s1 := incSat s (spReg t 0x0A0)
  let s2 := if opWrites a.op then discardWrite s1 t else s1
  let s3 := reportB (setErrAddr s2 t w (a.ctx.getD 0) code) (spPage t) (if code = 0x040B then 2 else 0) code { ctx := a.ctx, detail := [w, a.ctx.getD 0] }
  if code = 0x040B then fenceTile s3 t 0x040B else s3

/-! ### Tags and waiters (R162–R166) -/

/-- A tag at reset: EMPTY with its complement. -/
def tagEmpty : Tag := { full := false, comp := true }
/-- A tag's key. -/
def tagKey (t w : Nat) : Nat := t * 0x20000 + w
/-- The tag of the slot whose first word is `w` (log entry 1, DESIGN CHOICE). -/
def tagAt (s : State) (t w : Nat) : Tag := mapGet (fun _ => tagEmpty) s.pad.tags (tagKey t w)
/-- A tag set FULL or EMPTY with its complement. -/
def setTag (s : State) (t w : Nat) (full : Bool) : State :=
  { s with pad := { s.pad with tags := mapPut (fun _ => tagEmpty) s.pad.tags (tagKey t w) { full := full, comp := !full } } }
/-- A tag and its complement disagree (R163). -/
def tagBad (g : Tag) : Bool := g.full == g.comp

/-- Waiters of a bank's table. -/
def bankWaiters (s : State) (t b : Nat) : List Waiter :=
  s.pad.waiters.filter (fun x => x.acc.tile == t && bankOf t (x.acc.boff / 4) == b && !x.atPort)

/-- An operation's tag condition (R162). -/
def tagReady (g : Tag) : SpOp → Bool
  | .rdFull => g.full | .rdTake => g.full | .wrFill => !g.full | _ => true

/-- Waiters of one slot that wait for the same condition. -/
def slotWaiters (s : State) (t b : Nat) (isWrite : Bool) : List Waiter :=
  s.pad.waiters.filter (fun x => x.acc.tile == t && x.acc.boff == b && (x.acc.op == .wrFill) == isWrite && !x.atPort)

/-- An access joins the waiter table of its bank, or waits at its port (R164, R165). -/
def addWaiter (s : State) (a : SpAcc) : State :=
  let b := bankOf a.tile (a.boff / 4)
  let n := (bankWaiters s a.tile b).length
  let s1 := { s with pad := { s.pad with waiters := s.pad.waiters ++ [{ acc := a, since := now s, atPort := decide (64 ≤ n) }] } }
  let m := min (n + 1) 64
  if rdF s1 (spReg a.tile 0x108) 2 7 < m then wrF s1 (spReg a.tile 0x108) 2 7 m else s1

/-- A guard fault of a tag: recorded, and the tile fenced (R163) (log entry 47, DEDUCED). -/
def tagGuard (s : State) (t w : Nat) (ctx : Option Nat) : State :=
  fenceTile (guardReport s (spPage t) 0x040A { ctx := ctx, detail := [w] }) t 0x040A

/-! ### One access -/

/-- How an access ended: data delivered (withheld bytes none), still waiting, or failed with a code. -/
inductive AccRes where
  | ok (data : List (Option Byte))
  | waiting
  | failed (code : Nat)
  deriving DecidableEq, Repr

/-- Old word of an indivisible access, and the word written (R201): AADD adds, CAS compares. -/
def rmwWord (op : SpOp) (old : Nat) (data : List (Option Byte)) : Option Nat :=
  let d := natOfBytes (data.map (fun o => o.getD 0))
  match op with
  | .aadd => some ((old + d) % 2 ^ 32)
  | .cas => if old = d % 2 ^ 32 then some (fieldNat d 32 32) else none
  | _ => none

/-- The data movement of an access that passed its checks (R149–R151, R201). -/
def moveData (s : State) (a : SpAcc) : AccRes × State :=
  match a.op with
  | .rd | .rdFull | .rdTake =>
    let r := readPadBytes s a.tile a.boff a.len a.ctx
    (.ok r.1, r.2)
  | .wr | .wrFill => (.ok [], writePadBytes s a.tile a.boff a.data a.ctx a.keep)
  | .clrTag => (.ok [], s)
  | .aadd | .cas =>
    let r := readPadBytes s a.tile a.boff 4 a.ctx
    if r.1.any (fun o => o.isNone) then (.ok r.1, discardWrite r.2 a.tile)
    else
      let old := natOfBytes (r.1.map (fun o => o.getD 0))
      match rmwWord a.op old a.data with
      | some v => (.ok r.1, writePadBytes r.2 a.tile a.boff ((bytesOf 4 v).map some) a.ctx)
      | none => (.ok r.1, r.2)

/-- The tile that hosts the unit whose step a withheld word makes not clean (R150). -/
def reqTile (a : SpAcc) : Nat :=
  match a.req with
  | .thread t _ => t | .act t => t | .dma t _ => t | .mgmt _ => a.tile | .link _ => a.tile

/-- A write that meets an uncorrectable unit which it covers only in part (R151). -/
def writeWithheld (s : State) (a : SpAcc) : Bool :=
  let w := a.boff / 4
  (a.op == .wr || a.op == .wrFill) && (unitsOf s a.tile w ((a.boff + a.data.length + 3) / 4 - w)).any (fun u =>
    let bs := unitBytes u a.boff a.data a.keep
    bs.length != 0 && !wholeUnit u bs
      && (match unitDecode s a.tile u.1 u.2 with | .uncorrectable => true | .address => true | _ => false))

/-- R150: withheld words, and a unit that a partial write could not read, clear the checks-clean bit of the requesting
context at its tile. -/
def withheldClean (s : State) (a : SpAcc) (bad : Bool) (r : AccRes) : State :=
  match r, a.ctx with
  | .ok l, some c => if bad || l.any (fun o => o.isNone) then clearClean s (reqTile a) c else s
  | _, _ => s

/-- The tag effect of a tagged operation (R162), which is progress of its context (R364). -/
def tagEffect (s : State) (a : SpAcc) : State :=
  let w := a.boff / 4
  let s1 := match a.op with
    | .rdTake => setTag s a.tile w false
    | .wrFill => setTag s a.tile w true
    | .clrTag => setTag s a.tile w false
    | _ => s
  match a.ctx with
  | some c => progress s1 a.tile c
  | none => s1

/-- An access performed now, its rows together (log entry 165, DESIGN CHOICE): data, tag, and the bank windows of R171. -/
def perform (s : State) (a : SpAcc) : AccRes × State :=
  let w := a.boff / 4
  let u := touchBanks s a.tile w ((a.boff + a.len + 3) / 4 - w)
  let r := moveData u a
  let s1 := withheldClean r.2 a (writeWithheld u a) r.1
  (r.1, if opTagged a.op then tagEffect s1 a else s1)

/-- A region of the access, the context's or for a management access any, whose tags are still being set EMPTY (R157). -/
def initPending (s : State) (a : SpAcc) : Bool :=
  let gs := match a.ctx with
    | some c => ctxRgns s a.tile c
    | none => allRgns s a.tile
  gs.any (fun g => g.base < (a.boff + a.len + 3) / 4 && a.boff / 4 < g.limit && s.pad.tagInit.contains (a.tile, g.r * 16 + g.j))

/-- An access held at its port for a bank that is not ON, or for a region's tags (R157, R171) (log entry 41, DEDUCED). -/
def mustHold (s : State) (a : SpAcc) : Bool :=
  let w := a.boff / 4
  (banksOf a.tile w ((a.boff + a.len + 3) / 4 - w)).any (fun b => bankState s a.tile b == 1 || bankState s a.tile b == 3)
    || initPending s a

/-- One scratchpad access (R159, R162, R171): checked, then held, made a waiter or performed. -/
def access (s : State) (a : SpAcc) : AccRes × State :=
  match regionCheck s a with
  | some code => (.failed code, accessFailed s a code)
  | none =>
    if mustHold s a then
      (.waiting, { s with pad := { s.pad with heldAcc := s.pad.heldAcc ++ [{ acc := a, circ := none }] } })
    else if opTagged a.op then
      let g := tagAt s a.tile (a.boff / 4)
      if tagBad g && a.op != .clrTag then (.failed 0x040A, tagGuard s a.tile (a.boff / 4) a.ctx)
      else if tagReady g a.op && (a.op == .clrTag || (slotWaiters s a.tile a.boff (a.op == .wrFill)).isEmpty) then perform s a
      else (.waiting, addWaiter s a)
    else perform s a

/-! ### Accesses of the device's own controllers -/

/-- Rows 1 and 3 of R159 for words that a queue's controller, a loader or a sampler reaches. -/
def ownCheck (s : State) (t w n : Nat) : Option Nat :=
  if tileFenced s t || tileWords t < w + n then some 0x0407
  else if (banksOf t w n).any (fun b => bankState s t b == 2) then some 0x0408
  else none

/-- An access of one of the device's own controllers waits for a bank that is in RET or wakes (R171) (log entry 168,
DEDUCED). -/
def ownWaits (s : State) (t b len : Nat) : Bool :=
  let w := b / 4
  let n := (b + len + 3) / 4 - w
  (ownCheck s t w n).isNone && (banksOf t w n).any (fun k => bankState s t k != 0)

/-- The banks that such an access waits for begin to wake. -/
def ownWake (s : State) (t b len : Nat) : State := wakeBanks s t (b / 4) ((b + len + 3) / 4 - b / 4)

/-- The windows of the woken banks whose words such an access reaches. -/
def ownTouch (s : State) (t b len : Nat) : State := touchBanks s t (b / 4) ((b + len + 3) / 4 - b / 4)

/-- The access of one of the device's own controllers, for a context or none. -/
def ownAcc (t b len : Nat) (op : SpOp) (ctx : Option Nat) : SpAcc :=
  { tile := t, boff := b, len := len, op := op, req := .mgmt .hornbeam, ctx := ctx, data := [] }

/-- Bytes read by one of the device's own controllers: withheld words are absent, and none comes of a failed access. -/
def ownRead (s : State) (t b len : Nat) (ctx : Option Nat) : List (Option Byte) × State :=
  match ownCheck s t (b / 4) ((b + len + 3) / 4 - b / 4) with
  | some code => (List.replicate len none, accessFailed s (ownAcc t b len .rd ctx) code)
  | none => readPadBytes (ownTouch s t b len) t b len ctx

/-- Bytes written by one of the device's own controllers. -/
def ownWrite (s : State) (t b : Nat) (data : List (Option Byte)) (ctx : Option Nat) : State :=
  match ownCheck s t (b / 4) ((b + data.length + 3) / 4 - b / 4) with
  | some code => accessFailed s (ownAcc t b data.length .wr ctx) code
  | none => writePadBytes (ownTouch s t b data.length) t b data ctx

/-- The valid region that a relative access of a context names (R158). -/
def relRgn (s : State) (t c j : Nat) : Option Rgn :=
  if inService s t then (slotOfCtx s t c).bind (fun r => rgnAt s t r j) else none

/-- The word that a relative access names (R158): region `j` of the context's slot and a word offset within it; none
where row 4 of R159 fails. -/
def relative (s : State) (t c j off n : Nat) : Option Nat :=
  match relRgn s t c j with
  | some g => if g.base + off + n ≤ g.limit then some (g.base + off) else none
  | none => none

/-- An access of `n` words by a unit of a context. -/
def wordAcc (t w n : Nat) (op : SpOp) (req : Req) (c : Nat) (data : List (Option Byte)) : SpAcc :=
  { tile := t, boff := 4 * w, len := 4 * n, op := op, req := req, ctx := some c, data := data }

/-- The code of a relative access that fails row 4 of R159, rows 1 to 3 first: for the words beyond the region, or, where
the region is not valid, for the tile alone. -/
def relativeCode (s : State) (t c j off n : Nat) (op : SpOp) (req : Req) : Nat :=
  let a : SpAcc := { wordAcc t (((relRgn s t c j).map (fun g => g.base)).getD 0 + off) n op req c [] with ctx := none }
  match relRgn s t c j with
  | some _ => (regionCheck s a).getD (regionCode s t c)
  | none => if tileFenced s t then 0x0407 else if !modeAdmits s t req then 0x0406 else regionCode s t c

end Sys2Proof.Machine
end

