-- ==== Sys2Proof/Machine/Coherence.lean ====
section
/-! DEFINITION. The interleave of LPDDR6 (R273) and the states of its channels, the coherence directory of the I/O ring (R295, R296), snoops of the companion, and the
ownership flags of the shared window (R299). -/

namespace Sys2Proof.Machine

/-! ### Places of units -/

/-- A register of the memory-map page. -/
def mmReg (off : Nat) : Nat := devReg 4 off
/-- A register of controller `c`'s page. -/
def mcReg (c off : Nat) : Nat := devReg (0x20 + c) off

/-- Sub-channels in the hash, in ascending order (R273). -/
def liveSubs (s : State) : List Nat := (List.range 192).filter (fun g => !s.dram.hashOut.contains (g / 2))

/-- LIVE of MM_STAT (R283). -/
def liveCount (s : State) : Nat := rdF s (mmReg 0x108) 0 8

/-- Mapped capacity in bytes: n × 2 GiB (R273, R274). -/
def dramCap (s : State) : Nat := 0x80000000 * liveCount s

/-- A range of bytes lies within the mapped capacity. -/
def dramMapped (s : State) (a len : Nat) : Bool := a + len ≤ dramCap s

/-- Slot of the hash, and byte offset within the sub-channel, of address `a` (R273). -/
def hashSlot (n a : Nat) : Nat × Nat :=
  let b := a / 512
  let q := b / n
  let h := fieldNat q 0 8 ^^^ fieldNat q 8 8 ^^^ fieldNat q 16 6
  ((b % n + h) % n, q * 512 + a % 512)

/-- Global sub-channel of an address (R273). -/
def subOf (s : State) (a : Nat) : Nat :=
  if liveCount s = 0 then 0 else (liveSubs s).getD (hashSlot (liveCount s) a).1 0

/-- Channel of an address (R265). -/
def channelOf (s : State) (a : Nat) : Nat := subOf s a / 2
/-- Controller of an address (R265). -/
def controllerOf (s : State) (a : Nat) : Nat := channelOf s a / 4

/-- The fence mask of register `m`: every channel that either half names when the guard fails (R280). -/
def fenceMask (s : State) (m : Nat) : Nat :=
  let w := rd s (mmReg (0x118 + 8 * m))
  if guardOk w then guardVal w else guardVal w ||| (2 ^ 32 - 1 - fieldOf w 32 32)

/-- A channel is fenced in the memory fence map (R280). -/
def channelFenced (s : State) (h : Nat) : Bool := (fenceMask s (h / 32)).testBit (h % 32)

/-- MC_STAT.CH_i of a channel (R282): 0 OFFLINE, 1 TRAINING, 2 READY, 3 RETRAINING, 4 SELF_REFRESH, 5 FENCED. -/
def chState (s : State) (h : Nat) : Nat := rdF s (mcReg (h / 4) 0x108) (3 * (h % 4)) 3
/-- MC_STAT.CH_i set. -/
def setChState (s : State) (h v : Nat) : State := wrF s (mcReg (h / 4) 0x108) (3 * (h % 4)) 3 v

/-- A channel serves nothing while it is trained or retrained, or in self-refresh (R40, R277, R451). -/
def chBusy (s : State) (h : Nat) : Bool := chState s h == 1 || chState s h == 3 || chState s h == 4

/-- Some channel of the device serves nothing for now. -/
def anyBusy (s : State) : Bool := (List.range 96).any (chBusy s)

/-- The 32 B units that `len` bytes from `a` touch. -/
def unitsIn (a len : Nat) : List Nat := (List.range ((a + len + 31) / 32 - a / 32)).map (fun i => (a / 32 + i) * 32)

/-- An access of LPDDR6 has to wait for a channel. -/
def channelWaits (s : State) (a len : Nat) : Bool := anyBusy s && (unitsIn a len).any (fun u => chBusy s (channelOf s u))

/-! ### Answers -/

/-- The outcome of the companion's scratchpad access, answered when it was a read (R292, R293). -/
def padReply (s : State) (h : GbHdr) (r : AccRes) : State :=
  if h.opc = 0x03 then
    match r with
    | .ok d => if d.any (fun o => o.isNone) then gbReply s h 3 [] else gbReply s h 0 (d.map (fun o => o.getD 0))
    | .waiting => s
    | .failed _ => gbReply s h 3 []
  else s

/-! ### Directory (R295) -/

/-- State of a line: 0 I, 1 S, 2 E, 3 LOST. -/
def dirAt (s : State) (line : Nat) : Nat := ((s.gorbin.dir.find? (fun e => e.line == line)).map (fun e => e.st)).getD 0

/-- A line's state set; LOST_LINES follows (R298). -/
def setDir (s : State) (line st : Nat) : State :=
  let d := s.gorbin.dir
  let d1 :=
    if st = 0 then d.filter (fun e => e.line != line)
    else if d.any (fun e => e.line == line) then d.map (fun e => if e.line = line then { e with st := st } else e)
    else d ++ [{ line := line, st := st }]
  wrF { s with gorbin := { s.gorbin with dir := d1 } } (gbReg 0x108) 22 21 (d1.filter (fun e => e.st == 3)).length

/-- A snoop of a line is outstanding. -/
def snooping (s : State) (line : Nat) : Bool :=
  s.gorbin.reqs.any (fun r => (r.opc == 0x20 || r.opc == 0x21) && r.addr == line * 64)

/-- The companion is snooped for a line, unless it is already. -/
def snoop (s : State) (line : Nat) (inv : Bool) : State :=
  if snooping s line then s else gbRequest s (if inv then 0x20 else 0x21) (line * 64)

/-- Lines that `len` bytes from `a` touch. -/
def linesIn (a len : Nat) : List Nat := (List.range ((a + len + 63) / 64 - a / 64)).map (fun i => a / 64 + i)

/-- A device access of a line must first snoop the companion, or wait for a snoop (R295, R296). -/
def mustSnoop (s : State) (write : Bool) (line : Nat) : Bool :=
  snooping s line || dirAt s line == 2 || (write && dirAt s line == 1)

/-- Lines that a waiting item concerns. -/
def LateItem.lines : LateItem → List Nat
  | .write a d _ => linesIn a d.length
  | .line l _ => [l]
  | .agent _ _ a n => linesIn a n
  | .comp h _ => linesIn h.addr (max h.len 1)

/-- An earlier access of a line waits at the directory (R296). -/
def lateOn (s : State) (line : Nat) : Bool := s.gorbin.late.any (fun i => i.lines.contains line)

/-- An access of a line has to wait for the companion, or behind an earlier access (R295, R296). -/
def lineWaits (s : State) (write : Bool) (line : Nat) : Bool := mustSnoop s write line || lateOn s line

/-- A device access has to wait: for the companion (R295), behind an earlier access (R296), or for a channel that is retrained
(R277). -/
def unsettled (s : State) (a len : Nat) (write : Bool) : Bool :=
  regionOf a == .lpddr
    && ((!(s.gorbin.dir.isEmpty && s.gorbin.reqs.isEmpty && s.gorbin.late.isEmpty) && (linesIn a len).any (lineWaits s write))
      || channelWaits s a len)

/-- The snoops that a device access needs, sent. -/
def settle (s : State) (a len : Nat) (write : Bool) : State :=
  each ((linesIn a len).filter (mustSnoop s write)) (fun u l => snoop u l write) s

/-- A device access met a LOST line (R295): counted and recorded. -/
def lostAccess (s : State) (a : Nat) (ctx : Option Nat) : State :=
  report (incSat s (gbReg 0x0B8)) gbPage 0x0908 { ctx := ctx, detail := [a] }

/-- An access waits in the memory system until its lines are settled and its channels serve (R277, R295, R296) (log entries 57 and
204, DEDUCED). -/
def putLate (s : State) (i : LateItem) : State := { s with gorbin := { s.gorbin with late := s.gorbin.late ++ [i] } }

/-- An access of `len` bytes at `a` waits; the snoops that it needs are sent. -/
def settleLate (s : State) (i : LateItem) (a len : Nat) (write : Bool) : State := putLate (settle s a len write) i

/-- A write of the unit at `u` has to wait. -/
def lateUnit (s : State) (u : Nat) : Bool := lineWaits s true (u / 64) || chBusy s (channelOf s u)

/-! ### Ownership flags (R299) -/

/-- Base of the flag table and its length in bytes. -/
def flagTable (s : State) : Nat × Nat := (rdF s (gbReg 0x148) 6 42 * 64, 8 * rdF s (gbReg 0x140) 51 13)

/-- The code of a flag word, or none when it is contested. -/
def flagCode (w : Nat) : Option Nat :=
  let lo := fieldNat w 0 32
  if fieldNat w 32 32 = 2 ^ 32 - 1 - lo && (lo == 0x4B1D0F0F || lo == 0x4B1D3C3C || lo == 0x4B1DC3C3) then some lo else none

/-- Some bit of GB_NOTIFY is set. -/
def notified (s : State) : Bool := (List.range 64).any (fun m => rd s (gbReg (0x400 + 8 * m)) != 0)

/-- Notice of Bushel `i` (R299): its bit, and source 304 when it is the first. -/
def notifyBushel (s : State) (i : Nat) : State :=
  let s1 := wrB s (gbReg (0x400 + 8 * (i / 64))) (i % 64) true
  if notified s then s1 else raise s1 304

/-- A flag write by the side that does not own the Bushel, or a malformed one: discarded, counted and recorded (R299, R307). -/
def flagRefused (s : State) (a : Nat) : State := report (incSat s (gbReg 0x0C0)) gbPage 0x0907 { detail := [a] }

/-- The stored bytes of a unit as a number. -/
def unitStored (s : State) (u : Nat) : Nat := readNat s u 32

/-- A unit as a read of it would deliver it now (R24, R269, R280, R295), without the effects of a read; none when it cannot be
delivered. -/
def unitNow (s : State) (u : Nat) : Option Nat :=
  if !dramMapped s u 32 || channelFenced s (channelOf s u) || dirAt s (u / 64) == 3 then none
  else match rsDecode (chkAt s u % 2 ^ 32) with
  | .clean => some (unitStored s u)
  | .corrected f => some (unitStored s u ^^^ f)
  | _ => none

/-- The eight bytes at an aligned address as their controller decodes them; the flag table's entries. -/
def flagWord (s : State) (a : Nat) : Option Nat := (unitNow s (a / 32 * 32)).map (fun d => fieldNat d (8 * (a % 32)) 64)

/-- Bytes of LPDDR6 as a read would deliver them, as a number, withheld units as 0: the fields of what an engine reads, whose
read has its effects once (`mappedRead`). -/
def natNow (s : State) (a n : Nat) : Nat :=
  natOfBytes ((((unitsIn a n).flatMap (fun u => bytesOf 32 ((unitNow s u).getD 0))).drop (a % 32)).take n)

/-- An access reaches into the flag table. -/
def meetsFlags (s : State) (a len : Nat) : Bool := a < (flagTable s).1 + (flagTable s).2 && (flagTable s).1 < a + len

/-- The value of a write of one flag: eight aligned bytes of the table. -/
def flagValue (s : State) (a : Nat) (data : List (Option Byte)) : Option Nat :=
  if data.length = 8 && (flagTable s).1 ≤ a && (a - (flagTable s).1) % 8 = 0 && data.all (fun o => o.isSome) then
    some (natOfBytes (data.map (fun o => o.getD 0)))
  else none

/-- The check of a write into the flag table against the present flag, as its controller corrects it (R269, R299): whether it
goes on to memory, where it fails when the flag's unit cannot be read (log entry 63, DEDUCED). -/
def flagCheck (s : State) (a : Nat) (data : List (Option Byte)) (companion : Bool) : Bool × State :=
  if !meetsFlags s a data.length then (true, s)
  else match (flagValue s a data).bind flagCode, flagWord s a with
    | none, _ => (false, flagRefused s a)
    | some _, none => (true, s)
    | some _, some w =>
      match flagCode w with
      | none => if companion then (true, s) else (false, raise (report s gbPage 0x0906 { detail := [a] }) 306)
      | some o => if (o == 0x4B1DC3C3) == companion then (false, flagRefused s a) else (true, s)

/-- The Bushel that a device's flag write, once performed, passes to the companion (R299): from DEVICE to HOST or FREE. -/
def flagNotice (s : State) (a : Nat) (data : List (Option Byte)) : Option Nat :=
  if !meetsFlags s a data.length then none
  else match (flagValue s a data).bind flagCode, (flagWord s a).bind flagCode with
    | some n, some 0x4B1DC3C3 => if n = 0x4B1DC3C3 then none else some ((a - (flagTable s).1) / 8)
    | _, _ => none

end Sys2Proof.Machine
end

