-- ==== Sys2Proof/Machine/Dram.lean ====
section
/-! DEFINITION. LPDDR6 memory: the interleave (R273), units and their code (R268–R272), fenced
channels (R280), durable regions (R275), and the step journal that durable writes of an open step go
to (R335–R337). -/

namespace Sys2Proof.Machine

/-! ### Units -/

/-- MC_ERR_ADDR and a record of a failed unit (R271); the requester's context is named. -/
def unitFailed (s : State) (u : Nat) (ctx : Option Nat) (code cnt : Nat) : State :=
  let c := controllerOf s u
  let s1 := incSat s (mcReg c cnt)
  let s2 := wr s1 (mcReg c 0x110) (BitVec.ofNat 64 (place 56 8 (code % 256) + place 48 8 (ctx.getD 0) + place 0 48 u))
  report s2 (devPage (0x20 + c)) code { ctx := ctx, detail := [u, ctx.getD 0] }

/-- An uncorrectable unit counts against the channel's limit in the present 1 s window (R279). -/
def countUe (s : State) (u : Nat) : State :=
  let h := channelOf s u
  let w := now s / 1000000000
  let old := mapGet (fun _ => (0, 0)) s.dram.ueCount h
  let n := if old.1 = w then old.2 + 1 else 1
  { s with dram := { s.dram with ueCount := mapPut (fun _ => (0, 0)) s.dram.ueCount h (w, n) } }

/-- A unit stored with fresh check symbols; a pending write-back is dropped (R270). -/
def storeUnit32 (s : State) (u d : Nat) : State :=
  let s1 := setChk (writeNat s u 32 d) u 0
  { s1 with dram := { s1.dram with writeBacks := s1.dram.writeBacks.filter (fun x => x.1 != u) } }

/-- Stored bits of a unit flipped: data bits 0–255 and check bits 256–287 of the pattern. -/
def flipUnit (s : State) (f : Nat × Nat) : State :=
  let u := f.1 / 32 * 32
  let d := f.2 % 2 ^ 256
  let diff := rsCheck ((List.range 32).map (fun i => fieldNat d (8 * i) 8)) 0 ^^^ fieldNat f.2 256 32
  setChk (writeNat s u 32 (unitStored s u ^^^ d)) u (chkAt s u ^^^ diff)

/-- One unit read by its controller (R269–R271): its data where delivered, and the effects of the outcome. -/
def ctlUnit (s : State) (u : Nat) (ctx : Option Nat) : Option Nat × State :=
  let c := controllerOf s u
  let s0 := incWrap s (mcReg c 0x080) 1
  match rsDecode (chkAt s0 u % 2 ^ 32) with
  | .clean => (some (unitStored s0 u), s0)
  | .corrected f =>
    let s1 := incSat s0 (mcReg c 0x090)
    let s2 := reportLimited s1 (devPage (0x20 + c)) 0 0x0801 (limitKey 2 (subOf s u) 0) (now s / 1000000) { ctx := ctx }
    (some (unitStored s0 u ^^^ f),
      if s2.dram.writeBacks.any (fun b => b.1 == u) then s2
      else { s2 with dram := { s2.dram with writeBacks := s2.dram.writeBacks ++ [(u, unitStored s0 u ^^^ f)] } })
  | .uncorrectable => (none, countUe (unitFailed s0 u ctx 0x0802 0x098) u)
  | .address => (none, unitFailed s0 u ctx 0x0803 0x0A0)

/-- One unit read for a requester (R269–R271, R280, R295). -/
def dramUnit (s : State) (u : Nat) (ctx : Option Nat) : Option Nat × State :=
  if channelFenced s (channelOf s u) then (none, unitFailed s u ctx 0x0807 0x0B0)
  else if dirAt s (u / 64) = 3 then (none, lostAccess s u ctx)
  else ctlUnit s u ctx

/-- Bytes read: withheld bytes are none (R269, R271). -/
def dramRead (s : State) (a len : Nat) (ctx : Option Nat) : List (Option Byte) × State :=
  let r := (unitsIn a len).foldl (fun (acc : List (Option Byte) × State) u =>
    let q := dramUnit acc.2 u ctx
    (acc.1 ++ (match q.1 with
      | some d => (bytesOf 32 d).map some
      | none => List.replicate 32 none), q.2)) ([], s)
  ((r.1.drop (a % 32)).take len, r.2)

/-- A write that was not performed: DISCARDED_WRITES of the controller (R272, R275, R337). -/
def discardDram (s : State) (a : Nat) : State := incSat s (mcReg (controllerOf s a) 0x0A8)

/-- A whole unit stored by its controller, unless its channel is fenced (R272, R280). -/
def storeWhole (s : State) (u d : Nat) (ctx : Option Nat) : Bool × State :=
  if channelFenced s (channelOf s u) then (false, unitFailed s u ctx 0x0807 0x0B0)
  else (true, incWrap (storeUnit32 s u d) (mcReg (controllerOf s u) 0x088) 1)

/-- One unit written (R272): 32 B directly, fewer by read-modify-write; while its line is the companion's or its channel
serves nothing it waits (R277, R295). -/
def dramWriteUnit (s : State) (u : Nat) (bs : List UnitByte) (ctx : Option Nat) : Bool × State :=
  if bs.length = 0 then (true, s)
  else if channelFenced s (channelOf s u) then (false, unitFailed s u ctx 0x0807 0x0B0)
  else if lateUnit s u then
    (true, settleLate s (.write u ((List.range 32).map (fun i => (bs.find? (fun b => b.place == i)).map (fun b => b.val))) ctx) u 32 true)
  else if dirAt s (u / 64) = 3 then (false, lostAccess s u ctx)
  else if bs.length = 32 then storeWhole s u (mergeBytes 0 bs) ctx
  else
    let r := dramUnit s u ctx
    match r.1 with
    | some d => storeWhole r.2 u (mergeBytes d bs) ctx
    | none => (false, discardDram r.2 u)

/-- Bytes read for a unit whose page is `p`: an unmapped range is not read, and recorded (R24). -/
def mappedRead (s : State) (p a len : Nat) (ctx : Option Nat) : List (Option Byte) × State :=
  if dramMapped s a len then dramRead s a len ctx
  else (List.replicate len none, report s p 0x0A01 { ctx := ctx, detail := [a] })

/-! ### Durable regions (R275) -/

/-- A 2 MiB block in bytes. -/
def mib2 : Nat := 0x200000

/-- Durable descriptor `n` when sound and valid: its blocks. -/
def dregAt (s : State) (n : Nat) : Option (Nat × Nat) :=
  let b := rd s (mmReg (0x200 + 0x10 * n))
  let l := rd s (mmReg (0x208 + 0x10 * n))
  if guardOk b && guardOk l && bitOf b 31 then some (fieldOf b 0 18, fieldOf l 0 18) else none

/-- The valid durable regions, as byte ranges. -/
def durableRanges (s : State) : List (Nat × Nat) :=
  ((List.range 64).filterMap (dregAt s)).map (fun r => (r.1 * mib2, r.2 * mib2))

/-- A byte is of durable class. -/
def isDurable (s : State) (a : Nat) : Bool := (durableRanges s).any (fun r => r.1 ≤ a && a < r.2)

/-- Candidate values of a guarded word: its lower half and the complement of its upper half. -/
def candidates (w : W64) : List Nat := [guardVal w, 2 ^ 32 - 1 - fieldOf w 32 32]

/-- Blocks that a descriptor with a failed complement could govern (R275). -/
def suspectBlocks (s : State) (n : Nat) : Option (Nat × Nat) :=
  let b := rd s (mmReg (0x200 + 0x10 * n))
  let l := rd s (mmReg (0x208 + 0x10 * n))
  if guardOk b && guardOk l then none
  else
    let lo := (candidates b).foldl (fun m v => min m (v % 2 ^ 18)) (2 ^ 18)
    let hi := (candidates l).foldl (fun m v => max m (v % 2 ^ 18)) 0
    some (lo * mib2, min (hi * mib2) (dramCap s))

/-- A write touches blocks that a failed descriptor could govern. -/
def suspectWrite (s : State) (a len : Nat) : Bool :=
  (List.range 64).any (fun n =>
    match suspectBlocks s n with
    | some r => a < r.2 && r.1 < a + len
    | none => false)

/-! ### Writes -/

/-- Bytes written at once, unit by unit; gaps are left unwritten. False when some unit failed. A write
that a failed descriptor could govern is discarded (R275). -/
def dramStore (s : State) (a : Nat) (data : List (Option Byte)) (ctx : Option Nat) : Bool × State :=
  if suspectWrite s a data.length then (true, discardDram s a)
  else (unitsIn a data.length).foldl (fun (acc : Bool × State) u =>
    let bs := data.zipIdx.filterMap (fun p =>
      let off := a + p.2
      if u ≤ off && off < u + 32 then p.1.map (fun v => ({ place := off - u, val := v, mask := 0xFF } : UnitByte)) else none)
    let r := dramWriteUnit acc.2 u bs ctx
    (acc.1 && r.1, r.2)) (true, s)

/-- A write of a device unit, or of the journal at commit, after the check of the flag table, which its controller makes when it
performs the write; a Bushel that it passes to the companion is noticed once it is stored (R299). -/
def dramWrite (s : State) (a : Nat) (data : List (Option Byte)) (ctx : Option Nat) : Bool × State :=
  let f := flagCheck s a data false
  if meetsFlags s a data.length && (unitsIn a data.length).any (lateUnit s) then
    (true, settleLate s (.write a data ctx) a data.length true)
  else if f.1 then
    let r := dramStore f.2 a data ctx
    match flagNotice s a data with
    | some i => (r.1, if r.1 then notifyBushel r.2 i else r.2)
    | none => r
  else (true, f.2)

/-- Bytes written for a unit whose page is `p`: an unmapped range is not written, and recorded (R24). -/
def mappedWrite (s : State) (p a : Nat) (data : List (Option Byte)) (ctx : Option Nat) : Bool × State :=
  if dramMapped s a data.length then dramWrite s a data ctx else (false, report s p 0x0A01 { ctx := ctx, detail := [a] })

/-! ### The step journal (R335–R337) -/

/-- A register of the step-commit page, or its copy for a context. -/
def csReg (off : Nat) : Nat := devReg 11 off
/-- The copy of a step-commit register for a context. -/
def csCtx (c off : Nat) : Nat := banked (devReg 11 off) c

/-- The context has an open step: from OPEN until the decision is applied (R331) (log entry 80, DEDUCED). -/
def stepOpen (s : State) (c : Nat) : Bool :=
  stepped s c && (csState s c == 1 || csState s c == 2 || csState s c == 4)

/-- Byte range of a context's journal. -/
def journalRange (s : State) (c : Nat) : Nat × Nat :=
  let w := rd s (csCtx c 0x198)
  (fieldOf w 0 18 * mib2, fieldOf w 32 18 * mib2)

/-- The 32 B header of a journal entry (R336). -/
def entryHeader (addr len step kind : Nat) : List Byte :=
  bytesOf 6 addr ++ bytesOf 2 len ++ bytesOf 6 step ++ bytesOf 1 kind ++ List.replicate 17 0

/-- The journal entry of a durable write: the header, and the data in blocks of 32 B (R336). -/
def entryBytes (addr step : Nat) (data : List Byte) : List Byte :=
  entryHeader addr data.length step 1 ++ fitBytes ((data.length + 31) / 32 * 32) data

/-- One output of the step added to CS_SIG (R349). -/
def addSig (s : State) (c : Nat) (bytes : List Byte) : State :=
  wr s (csCtx c 0x1A8) (rd s (csCtx c 0x1A8) + BitVec.ofNat 64 (crc64 bytes))

/-- A durable write whose entry has been written: JUSED, JOURNAL_WRITES and CS_SIG follow (R336, R349). -/
def journalDone (s : State) (c a : Nat) (data : List Byte) (used : Nat) : State :=
  addSig (incWrap (wr s (csCtx c 0x1D0) (BitVec.ofNat 64 used)) (csReg 0x098) ((used - (rd s (csCtx c 0x1D0)).toNat) / 32)) c
    ([1] ++ bytesOf 6 a ++ data)

/-- Where the next entry of a context's journal stands: behind the head block and the JUSED bytes of entries. -/
def journalPlace (s : State) (c : Nat) : Nat := (journalRange s c).1 + 32 + (rd s (csCtx c 0x1D0)).toNat

/-- A durable write that its journal has no room for, discarded; the writing tile clears NOFAULT (R337; log entry 82, DEDUCED). -/
def journalRefuse (s : State) (c : Nat) (tile : Option Nat) (a : Nat) : State :=
  let s1 := report (discardDram s a) (devPage 11) 0x0B03 { ctx := some c, detail := [a] }
  match tile with
  | some t => clearNoFault s1 t c
  | none => s1

/-- A durable write of an open step appended to the journal, or discarded at LIMIT (R336, R337). False where its entry could not
be written: the write failed, and the journal stays as it was. -/
def journalAppend (s : State) (c : Nat) (tile : Option Nat) (a : Nat) (data : List Byte) : Bool × State :=
  let entry := entryBytes a (stepOf s c) data
  if (journalRange s c).2 < journalPlace s c + entry.length then (true, journalRefuse s c tile a)
  else
    let w := mappedWrite s (devPage 11) (journalPlace s c) (entry.map some) (some c)
    (w.1, if w.1 then journalDone w.2 c a data ((rd s (csCtx c 0x1D0)).toNat + entry.length) else w.2)

/-- Runs of present bytes with their addresses, each of one class and at most 512 B. -/
def writeRuns (s : State) (ctx : Option Nat) : Nat → List (Option Byte) → List (Bool × Nat × List Byte) → List (Bool × Nat × List Byte)
  | _, [], acc => acc
  | a, none :: ds, acc => writeRuns s ctx (a + 1) ds acc
  | a, some b :: ds, acc =>
    let d := isDurable s a && (match ctx with | some c => stepOpen s c | none => false)
    writeRuns s ctx (a + 1) ds
      (match acc with
       | (d', a', bs) :: rest =>
         if d' = d && a' + bs.length = a && (bs.length < 512 || !d) then (d', a', bs ++ [b]) :: rest else (d, a, [b]) :: acc
       | [] => [(d, a, [b])])

/-- A write to LPDDR6 by a unit (R272, R275, R336): bytes of durable class by a context with an open
step go to its journal, the others are performed at once. False when some unit failed. -/
def memWrite (s : State) (a : Nat) (data : List (Option Byte)) (ctx tile : Option Nat) : Bool × State :=
  if suspectWrite s a data.length then (true, discardDram s a)
  else
    (writeRuns s ctx a data []).reverse.foldl (fun (acc : Bool × State) r =>
      let q := if r.1 then journalAppend acc.2 (ctx.getD 0) tile r.2.1 r.2.2 else dramWrite acc.2 r.2.1 (r.2.2.map some) ctx
      (acc.1 && q.1, q.2)) (true, s)

end Sys2Proof.Machine
end

