-- ==== Sys2Proof/Machine/Fabric.lean ====
section
/-! DEFINITION. The egress side of the Parith fabric that the mesh uses: where packets go (R246, R247),
the hop fields of packets in transit (R249), egress and replay buffers (R244, R245, R251), and the
ABORT that a lost peer originates (R260, R378). -/

namespace Sys2Proof.Machine

/-! ### Ports -/

/-- A register of Parith port `p` (R262). -/
def pxReg (p off : Nat) : Nat := devReg (0x10 + p) off
/-- The page of a port. -/
def pxPage (p : Nat) : Nat := devPage (0x10 + p)
/-- A register of the fabric page (R263). -/
def fxReg (off : Nat) : Nat := devReg 3 off

/-- PX_STAT.STATE: 0 DISABLED, 1 TRAINING, 2 UP, 3 DEGRADED, 4 DOWN, 5 FENCED (R262). -/
def portState (s : State) (p : Nat) : Nat := rdF s (pxReg p 0x108) 0 3
/-- PX_STAT.STATE set. -/
def setPortState (s : State) (p v : Nat) : State :=
  { wrF s (pxReg p 0x108) 0 3 v with fabric := { s.fabric with since := mapPut (fun _ => 0) s.fabric.since p (now s + 1) } }
/-- A port carries packets. -/
def portRuns (s : State) (p : Nat) : Bool := portState s p == 2 || portState s p == 3
/-- The licence enables the port (R235). -/
def portLicensed (s : State) (p : Nat) : Bool := rdB s (pxReg p 0x108) 3
/-- LANES_ACTIVE. -/
def lanesActive (s : State) (p : Nat) : Nat := rdF s (pxReg p 0x108) 8 4

/-- The tile of attachment `k` (0 lower, 1 upper) of a port (R235). -/
def attach (p k : Nat) : Nat := if p < 7 then (10 * p + 4 + k) * 32 else 2304 + (10 * (p - 7) + 4 + k) * 32 + 31

/-- The router port that an attachment uses: W or E (R235). -/
def edgePort (p : Nat) : Nat := if p < 7 then 4 else 2

/-- The Parith port attached to a tile. -/
def portAt (t : Nat) : Option Nat := (List.range 14).find? (fun p => attach p 0 == t || attach p 1 == t)

/-! ### Where a packet goes -/

/-- Destination device of a packet. -/
def pktDev (s : State) : Pkt → Nat
  | .msg m => epDev m.hdr.dst
  | .ctrl c => c.dstDev
  | .red r => epDev r.dst
  | .fw _ => deviceId s

/-- Destination tile of a packet. -/
def pktTile : Pkt → Nat
  | .msg m => epTile m.hdr.dst
  | .ctrl c => c.dstTile
  | .red r => epTile r.dst
  | .fw f => f.dst

/-- TRANSIT and HOP of a packet (R249). -/
def pktTransit : Pkt → Nat
  | .msg m => place 8 1 (m.hdr.linkSeq >>> 11) + m.hdr.linkSeq % 256
  | .ctrl c => c.transit
  | .red r => r.transit
  | .fw _ => 0

/-- TRANSIT and HOP written: `v` is 0, or 256 plus the hops. -/
def withTransit (v : Nat) : Pkt → Pkt
  | .msg m => .msg { m with hdr := { m.hdr with linkSeq := place 11 1 (v / 256) + v % 256 } }
  | .ctrl c => .ctrl { c with transit := v }
  | .red r => .red { r with transit := v }
  | .fw f => .fw f

/-- Exit-table entry of a device (R246); the own device reads LOCAL. -/
def exitOf (s : State) (dev : Nat) : Nat :=
  if dev = deviceId s then 0xE else rdF s (banked (fxReg 0x110) (dev / 16)) (4 * (dev % 16)) 4

/-- A packet is for this device. -/
def isLocal (s : State) (p : Pkt) : Bool := exitOf s (pktDev s p) == 0xE

/-- The running port by which a packet leaves (R246). -/
def exitPort (s : State) (p : Pkt) : Option Nat :=
  let e := exitOf s (pktDev s p)
  if e < 14 && portRuns s e then some e else none

/-- The tile toward which a packet is routed: its own, or the attachment of its exit port (R247). -/
def routeTarget (s : State) (p : Pkt) : Nat :=
  if isLocal s p then pktTile p else attach (exitOf s (pktDev s p)) (pktDev s p % 2)

/-! ### Refusals away from the destination -/

/-- A message refused at router `t` with a NACK of a cause (R216, R246, R250, R251). -/
def nackFrom (s : State) (t cause : Nat) (m : Msg) : State := inject s t (.ctrl (nackPkt s t cause m.hdr))

/-- A message NACKed FENCED; other packets are discarded. -/
def nackOrDrop (s : State) (t : Nat) : Pkt → State
  | .msg m => nackFrom s t 9 m
  | _ => s

/-- A packet whose exit is unreachable (R246). -/
def exitRefuse (s : State) (t : Nat) (p : Pkt) : State :=
  let s1 := incWrap s (fxReg 0x088) 1
  let s2 := reportLimited s1 (devPage 3) 0 0x070A (limitKey 8 (pktDev s p) 0) (now s / 1000000) { ctx := pktCtx p, detail := [pktDev s p] }
  nackOrDrop s2 t p

/-! ### Egress, replay buffer and credits (R244, R245, R251) -/

/-- Egress buffer of a port. -/
def egressOf (s : State) (p : Nat) : List EgressPkt := mapGet (fun _ => []) s.fabric.egress p
/-- Packets sent and not acknowledged. -/
def sentOf (s : State) (p : Nat) : List SentPkt := mapGet (fun _ => []) s.fabric.sent p

/-- Egress buffer set, with EGRESS_EMPTY. -/
def setEgress (s : State) (p : Nat) (l : List EgressPkt) : State :=
  { wrB s (pxReg p 0x108) 4 l.isEmpty with fabric := { s.fabric with egress := mapPut (fun _ => []) s.fabric.egress p l } }

/-- Replay buffer set. -/
def setSent (s : State) (p : Nat) (l : List SentPkt) : State :=
  { s with fabric := { s.fabric with sent := mapPut (fun _ => []) s.fabric.sent p l } }

/-- A VC has had no link credit for 20 µs (R251). -/
def creditStuck (s : State) (p vc : Nat) : Bool :=
  let m := mapGet (fun _ => 0) s.fabric.noCredit (p * 4 + vc)
  m != 0 && m - 1 + 20000 ≤ now s

/-- The packet of a VC of which a port can send a flit (R242): its unfinished one, else the first of the egress buffer. -/
def portReady (s : State) (p vc : Nat) : Option (SentPkt × Option EgressPkt) :=
  let l := sentOf s p
  let credit := linkCredit s p vc
  match l.find? (fun e => pktVc e.pkt == vc && unsent flitsOf e) with
  | some e => if mayResume l credit e then some (e, none) else none
  | none =>
    match (egressOf s p).find? (fun e => pktVc e.pkt == vc) with
    | some x =>
      if mayStart flitsOf l credit x.pkt then some ({ seq := nextSeq s p, pkt := x.pkt, hop := x.hop, next := 0, paid := 0, replay := false }, some x)
      else none
    | none => none

/-- Flit boundaries of a port at which VC3 gave way (R220). -/
def portGave (s : State) (p : Nat) : Nat := mapGet (fun _ => 0) s.fabric.vc3Gave p

/-- Word 12 of a reduction packet (R223). -/
def redWord12 (r : Red) : Nat :=
  place 30 2 r.kind + place 29 1 (bit01 r.trunc) + place 28 1 (bit01 r.inv) + place 27 1 (bit01 r.ovf) + place 20 7 r.residue
    + place 18 2 r.rmode + patternOf 10 r.anchor

/-- The bytes that an output leaving on a port adds to the signature of its context (R349). -/
def outBytesOf : Pkt → Option (Nat × List Byte)
  | .msg m => some (m.hdr.context, [2] ++ bytesOf 2 m.hdr.handler ++ m.pay)
  | .red r => some (r.context, [3] ++ bytesOf 2 r.redId ++ bytesOf 2 r.elem ++ bytesOf 32 r.value ++ bytesOf 4 (redWord12 r))
  | _ => none

/-- An output of this device's open step leaves on a port (R349). -/
def signOut (s : State) (pkt : Pkt) : State :=
  match outBytesOf pkt with
  | some b => if stepOpen s b.1 then addSig s b.1 b.2 else s
  | none => s

/-- A packet's first run starts: it is numbered and kept for replay (R243, R244). -/
def startPacket (s : State) (p : Nat) (e : SentPkt) (x : EgressPkt) : State :=
  let s1 := setEgress (if x.own then signOut s x.pkt else s) p ((egressOf s p).erase x)
  let s2 := if (sentOf s1 p).isEmpty then markMoved s1 p else s1
  incWrap (seqTaken (setSent s2 p (sentOf s2 p ++ [e])) p) (pxReg p 0x180) 1

/-- STATE data of the mover: a piece of a checkpoint in progress on its way to its holder, whose flits R394 does not count. -/
def moverPkt (s : State) : Pkt → Bool
  | .msg m =>
    epQueue m.hdr.dst == 0xFE && m.hdr.mgmt && epDev m.hdr.src == deviceId s
      && (List.range 4).any (fun n =>
        let x := mapFind n s.ckpt.streams
        let own := rd s (banked (devReg 12 0x180) n)
        (match x with | some y => y.ownTake.isSome && y.restore.isNone | none => false)
          && fieldOf own 48 8 == m.hdr.context && fieldOf own 32 15 == epDev m.hdr.dst)
  | _ => false

/-- The last two 1 µs windows, plus 1, in which a port sent a VC3 flit other than the mover's. -/
def vc3Of (s : State) (p : Nat) : Nat × Nat := mapGet (fun _ => (0, 0)) s.fabric.vc3At p

/-- A VC3 flit sent in the present window noted (R394). -/
def vc3Sent (s : State) (p : Nat) : Nat × Nat :=
  if (vc3Of s p).1 = now s / 1000 + 1 then vc3Of s p else (now s / 1000 + 1, (vc3Of s p).1)

/-- A port sends the next flit of a packet, under a link header where its run begins (R242). -/
def sendFlit (s : State) (p : Nat) (c : SentPkt × Option EgressPkt) : State :=
  let e := c.1
  let vc := pktVc e.pkt
  let n := flitsOf e.pkt
  let s1 := match c.2 with | some x => startPacket s p e x | none => s
  let s2 := emit (payFlit (runHeader s1 p vc n e) p vc e) (.link p (.flit e.pkt e.next))
  let s3 := runGoes (setSent s2 p ((sentOf s2 p).map (fun x => if x == e then oneMore e else x))) p n e
  { s3 with fabric := { s3.fabric with
      vc3Gave := mapPut (fun _ => 0) s3.fabric.vc3Gave p (vc3Next (portReady s p) (portGave s p) vc)
      vc3At := if vc = 3 && !moverPkt s e.pkt then mapPut (fun _ => (0, 0)) s3.fabric.vc3At p (vc3Sent s p) else s3.fabric.vc3At } }

/-- A port sends what it can, VCs by R219 and R220; `n` bounds the flits. -/
def pumpN : Nat → State → Nat → State
  | 0, s, _ => s
  | n + 1, s, p =>
    if portRuns s p then
      match serveVcs (portReady s p) (portGave s p) with
      | some c => pumpN n (sendFlit s p c) p
      | none => s
    else s

/-- Flits that a port has to send. -/
def flitsDue (s : State) (p : Nat) : Nat :=
  ((egressOf s p).map (fun e => flitsOf e.pkt)).sum + ((sentOf s p).map (fun e => flitsOf e.pkt - e.next)).sum

/-- A port sends what it can. -/
def pump (s : State) (p : Nat) : State := pumpN (flitsDue s p) s p

/-- A packet discarded at an egress port after 20 µs (R251). -/
def residenceDrop (s : State) (p : Nat) (pkt : Pkt) : State :=
  let s1 := report (incSat s (pxReg p 0x1B0)) (pxPage p) 0x0709 { ctx := pktCtx pkt }
  nackOrDrop s1 (attach p (pktDev s pkt % 2)) pkt

/-- A packet enters the egress buffer of a port. -/
def egressAdd (s : State) (p : Nat) (pkt : Pkt) : State :=
  if !portRuns s p then exitRefuse s (attach p (pktDev s pkt % 2)) pkt
  else if creditStuck s p (pktVc pkt) then residenceDrop s p (withTransit 0 pkt)
  else
    let h := pktTransit pkt
    let hop := if 256 ≤ h then h % 256 else rdF s (fxReg 0x100) 15 8
    pump (setEgress s p (egressOf s p ++ [{ pkt := withTransit 0 pkt, since := now s, hop := hop, own := decide (h < 256) }])) p

/-- A packet handed to a port by the mesh: a fixed-window partial meets the port's combining entries
first (R254) (log entry 55, DEDUCED). -/
def toPort (s : State) (p : Nat) (pkt : Pkt) : State :=
  match pkt with
  | .red r => if (r.kind = 1 || r.kind = 2) && portRuns s p then hold s (4608 + p) 0 pkt else egressAdd s p pkt
  | _ => egressAdd s p pkt

/-! ### The fabric multicast table (R252) -/

/-- FM_DATA of a group. -/
def fmEntry (s : State) (g : Nat) : W64 := rd s (banked (fxReg 0x120) g)

/-- The port toward the fabric root of a group, when the group spans devices and this is not its root. -/
def fabricUp (s : State) (g : Nat) : Option Nat :=
  let w := fmEntry s g
  if bitOf w 20 && fieldOf w 0 4 < 14 then some (fieldOf w 0 4) else none

/-- Port `p` leads away from the root of a group. -/
def fabricDown (s : State) (g p : Nat) : Bool := bitOf (fmEntry s g) 20 && bitOf (fmEntry s g) (5 + p)

/-! ### ABORT (R378) -/

/-- An ABORT for a group. -/
def abortPkt (s : State) (g cause : Nat) (fault : Bool) (lost : Option Nat) : Ctrl :=
  { type := 0x0E, mcast := true, dstTile := 0, dstDev := deviceId s, group := g, srcDev := deviceId s, srcTile := 0x1FFF
    ctxEpoch := 0, context := 0, round := 0
    words := [place 7 1 (bit01 fault) + cause, (match lost with | some d => 2 ^ 31 + d | none => 0)
              , now s % 2 ^ 32, now s / 2 ^ 32] ++ List.replicate 8 0 }

end Sys2Proof.Machine
end

