-- ==== Sys2Proof/Machine/Queues.lean ====
section
/-! DEFINITION. Hardware queues and credits: handler tables (R199), rings (R179–R182, R189–R191),
credit tables, sends, grants, returns and revokes (R185–R188), arrival checks (R192–R195) and
releases (R196–R198). -/

namespace Sys2Proof.Machine

/-! ### Units that hold credit tables -/

/-- Unit number of Hornbeam's credit table. -/
def unitHornbeam : Nat := 4608
/-- Unit number of the Gorbin port's credit table. -/
def unitGorbin : Nat := 4609

/-- A context is set in HB_SEND_CTX (R322). -/
def hbSends (s : State) (c : Nat) : Bool := rdB s (devReg 7 (0x120 + 8 * (c / 64))) (c % 64)
/-- A context is set in GB_SEND_CTX (R288). -/
def gbSends (s : State) (c : Nat) : Bool := rdB s (devReg 5 (0x120 + 8 * (c / 64))) (c % 64)

/-- The unit that owns a context's control packets at tile `t` (R288) (log entry 148, DEDUCED). -/
def unitAt (s : State) (t c : Nat) : Nat :=
  if t = 1 && hbSends s c then unitHornbeam else if t = 9 && gbSends s c then unitGorbin else t

/-- The page on which a unit's queue records are written. -/
def unitRecPage (u : Nat) : Nat := if u = unitHornbeam then devPage 7 else if u = unitGorbin then devPage 5 else tilePage u 4

/-! ### Handler stores and tables (R199) -/

/-- A register of a tile's queue control page. -/
def qctl (t off : Nat) : Nat := tileReg t 4 off

/-- A word of a handler store. -/
def hsWord (s : State) (t a : Nat) : Nat := (mapGet (fun _ => 0) s.q.store (t * 8192 + a)).toNat

/-- A word of a handler store written. -/
def setHsWord (s : State) (t a v : Nat) : State :=
  { s with q := { s.q with store := mapPut (fun _ => 0) s.q.store (t * 8192 + a) (BitVec.ofNat 32 v) } }

/-- HS_BOUND of residence slot `r`: BASE and LIMIT. -/
def hsBound (s : State) (t r : Nat) : Nat × Nat :=
  let w := rd s (qctl t (0x180 + 0x10 * r))
  if guardOk w then (fieldOf w 0 13, fieldOf w 14 14) else (0, 0)

/-- The handler that index `h` of a context names on a tile, when valid: base, start and count (R199). -/
def handlerEntry (s : State) (t c h : Nat) : Option (Nat × Nat × Nat) :=
  match slotOfCtx s t c with
  | none => none
  | some r =>
    let b := hsBound s t r
    let ht := rd s (qctl t (0x188 + 0x10 * r))
    if guardOk ht && h < fieldOf ht 13 11 && b.1 + fieldOf ht 0 13 + h < 8192 then
      let e := hsWord s t (b.1 + fieldOf ht 0 13 + h)
      let start := fieldNat e 0 13
      let count := fieldNat e 13 6
      if e.testBit 31 && b.1 + start + count < b.2 then some (b.1, start, count) else none
    else none

/-! ### Handler threads -/

/-- A free handler thread. -/
def idleThread : Thread :=
  { busy := false, ctx := 0, queue := 0, served := [], own := none, fate := .held, nack := false, base := 0, start := 0, count := 0, pc := 0
    g := [], obuf := [], msg := emptyMsg, wait := .none, since := 0 }

/-- Thread `n` of tile `t` (R197). -/
def threadOf (s : State) (t n : Nat) : Thread := mapGet (fun _ => idleThread) s.q.threads (t * 4 + n)

/-- A thread set. -/
def setThread (s : State) (t n : Nat) (h : Thread) : State :=
  { s with q := { s.q with threads := mapPut (fun _ => idleThread) s.q.threads (t * 4 + n) h } }

/-- The threads of a tile that run on a message held by queue `q`. -/
def threadsOn (s : State) (t q : Nat) : List Nat :=
  (List.range 4).filter (fun n => (threadOf s t n).busy && (threadOf s t n).own == some q)

/-- THREADS_BUSY of QC_STAT. -/
def updBusy (s : State) (t : Nat) : State :=
  wrF s (qctl t 0x100) 8 3 ((List.range 4).filter (fun n => (threadOf s t n).busy)).length

/-! ### Queue descriptors (R179, R181, R184) -/

/-- QD_STATE.STATE: 0 RESET, 1 OPEN, 2 DRAINING, 3 CLOSED. -/
def qState (s : State) (t q : Nat) : Nat := rdF s (qdReg t q 1) 0 2
/-- Owning context of a queue. -/
def qOwner (s : State) (t q : Nat) : Nat := rdF s (qdReg t q 1) 8 8
/-- CREDIT_EPOCH of a queue. -/
def qEpoch (s : State) (t q : Nat) : Nat := rdF s (qdReg t q 1) 4 4
/-- GRANTED of a queue. -/
def qGranted (s : State) (t q : Nat) : Nat := rdF s (qdReg t q 1) 16 16
/-- HEAD of a queue. -/
def qHead (s : State) (t q : Nat) : Nat := rdF s (qdReg t q 2) 0 17
/-- TAIL of a queue. -/
def qTail (s : State) (t q : Nat) : Nat := rdF s (qdReg t q 3) 0 17
/-- Ring size in slots. -/
def qSize (s : State) (t q : Nat) : Nat := 2 ^ rdF s (qdReg t q 0) 0 5
/-- Address of slot 0. -/
def qBase (s : State) (t q : Nat) : Nat := rdF s (qdReg t q 0) 6 42 * 64
/-- MODE is READ. -/
def qRead (s : State) (t q : Nat) : Bool := rdB s (qdReg t q 0) 5
/-- Slots held, messages and PADs. -/
def qOcc (s : State) (t q : Nat) : Nat := (qTail s t q + 2 * qSize s t q - qHead s t q) % (2 * qSize s t q)

/-- The three guarded values of a queue are sound. -/
def qSound (s : State) (t q : Nat) : Bool := gOk s (qdReg t q 1) && gOk s (qdReg t q 2) && gOk s (qdReg t q 3)

/-- STATE of a queue set. -/
def setQState (s : State) (t q v : Nat) : State := wrGF s (qdReg t q 1) 0 2 v

/-- The page of a queue's descriptor. -/
def qdPage (t q : Nat) : Nat := tilePage t (5 + q / 64)

/-! ### Ring memory -/

/-- The tile and byte offset of a scratchpad address. -/
def padPlace (a : Nat) : Nat × Nat := ((a - padBase 0) / 0x80000, (a - padBase 0) % 0x80000)

/-- Bytes of a ring cannot be reached yet: the companion holds lines of them, or a bank of them is not ON (R171, R295). -/
def ringBusy (s : State) (a len : Nat) (write : Bool) : Bool :=
  match regionOf a with
  | .pad => ownWaits s (padPlace a).1 (padPlace a).2 len
  | _ => unsettled s a len write

/-- What bytes of a ring wait for is set going: the companion snooped, the banks woken. -/
def ringAwait (s : State) (a len : Nat) (write : Bool) : State :=
  if !ringBusy s a len write then s
  else match regionOf a with
  | .pad => ownWake s (padPlace a).1 (padPlace a).2 len
  | _ => settle s a len write

/-- Bytes read from a ring; withheld bytes read as 0 and make the owner's step not clean (R150). -/
def ringRead (s : State) (t a len : Nat) (c : Nat) : List Byte × State :=
  let r := match regionOf a with
    | .pad => ownRead s (padPlace a).1 (padPlace a).2 len (some c)
    | _ => dramRead s a len (some c)
  (r.1.map (fun o => o.getD 0), if r.1.any (fun o => o.isNone) then clearClean r.2 t c else r.2)

/-- Bytes written to a ring of tile `t`; a write that fails makes the owner's step not clean (R150, R271). -/
def ringWrite (s : State) (t a : Nat) (bs : List Byte) (c : Nat) : State :=
  match regionOf a with
  | .pad => ownWrite s (padPlace a).1 (padPlace a).2 (bs.map some) (some c)
  | _ =>
    let w := dramWrite s a (bs.map some) (some c)
    if w.1 then w.2 else clearClean w.2 t c

/-- Address of the slot that a pointer names. -/
def slotAddr (s : State) (t q p : Nat) : Nat := qBase s t q + 64 * (p % qSize s t q)

/-- The header at a pointer, as a read of the ring decodes it (R149, R269); a withheld word reads as 0 (log entry 170,
DESIGN CHOICE). -/
def hdrAt (s : State) (t q p : Nat) : Header := hdrOf (bytesWords 6 (ringRead s t (slotAddr s t q p) 24 (qOwner s t q)).1)

/-- Messages in the ring between a pointer and the tail, with at most `n` records left to walk. -/
def heldFrom (s : State) (t q : Nat) : Nat → Nat → Nat
  | 0, _ => 0
  | n + 1, p =>
    if p = qTail s t q then 0
    else
      let h := hdrAt s t q p
      (if h.pad then 0 else 1) + heldFrom s t q n ((p + hdrSlots h) % (2 * qSize s t q))

/-- Headers of the messages between a pointer and the tail, PADs left out. -/
def hdrsFrom (s : State) (t q : Nat) : Nat → Nat → List Header
  | 0, _ => []
  | n + 1, p =>
    if p = qTail s t q then []
    else
      let h := hdrAt s t q p
      (if h.pad then [] else [h]) ++ hdrsFrom s t q n ((p + hdrSlots h) % (2 * qSize s t q))

/-- Headers of the messages that a queue holds, oldest first. -/
def msgsIn (s : State) (t q : Nat) : List Header := hdrsFrom s t q (qSize s t q) (qHead s t q)

/-- Messages that a queue holds. -/
def heldMsgs (s : State) (t q : Nat) : Nat := heldFrom s t q (qSize s t q) (qHead s t q)

/-- The bytes of the record at HEAD: its address and length. A PAD is read as its header alone. -/
def headRange (s : State) (t q : Nat) : Nat × Nat :=
  let h := hdrAt s t q (qHead s t q)
  (slotAddr s t q (qHead s t q), if h.pad then 24 else 64 * hdrSlots h)

/-- The record at HEAD cannot be read yet: lines that the companion may have modified, or a bank that is not ON (R171,
R295). -/
def headBusy (s : State) (t q : Nat) : Bool := ringBusy s (headRange s t q).1 (headRange s t q).2 false

/-- A PAD record lies at HEAD. -/
def headPad (s : State) (t q : Nat) : Bool := qOcc s t q != 0 && (hdrAt s t q (qHead s t q)).pad

/-- HEAD advanced past a PAD record (R190), which is read like any other record of the ring. -/
def skipPad (s : State) (t q : Nat) : State :=
  if headPad s t q && !headBusy s t q then
    let h := hdrAt s t q (qHead s t q)
    let u := (ringRead s t (slotAddr s t q (qHead s t q)) 24 (qOwner s t q)).2
    wrG u (qdReg t q 2) ((qHead s t q + hdrSlots h) % (2 * qSize s t q))
  else s

/-- What the record at HEAD waits for is set going, and a PAD that can be read now is passed (R190, R295). -/
def snoopHead (s : State) (t q : Nat) : State :=
  if qOcc s t q = 0 then s
  else if headBusy s t q then ringAwait s (headRange s t q).1 (headRange s t q).2 false
  else skipPad s t q

/-- The message at HEAD, read with the effects of the read; none while its bytes cannot be reached or a PAD lies before
it. -/
def headMsg (s : State) (t q : Nat) : Option (Msg × State) :=
  if qOcc s t q = 0 || headBusy s t q || headPad s t q then none
  else
    let h := hdrAt s t q (qHead s t q)
    let r := ringRead s t (slotAddr s t q (qHead s t q)) ((hdrSlots h) * 64) (qOwner s t q)
    some (msgOf r.1, r.2)

/-! ### Credit tables (R185–R188) -/

/-- Entries of a unit's table. -/
def creditsOf (s : State) (u : Nat) : List (Nat × Credit) :=
  s.q.cred.filter (fun e => u * 1024 ≤ e.1 && e.1 < (u + 1) * 1024)

/-- The entry for a key of R185. -/
def findCredit (s : State) (u dest c : Nat) : Option (Nat × Credit) :=
  (creditsOf s u).find? (fun e => e.2.dest == dest && e.2.ctx == c)

/-- An entry written. -/
def setCredit (s : State) (k : Nat) (e : Credit) : State :=
  { s with q := { s.q with cred := mapInsert k e (mapErase k s.q.cred) } }

/-- An entry invalidated. -/
def dropCredit (s : State) (k : Nat) : State := { s with q := { s.q with cred := mapErase k s.q.cred } }

/-- The lowest free entry of a unit's table. -/
def freeCredit (s : State) (u : Nat) : Option Nat :=
  ((List.range 1024).find? (fun i => (mapFind (u * 1024 + i) s.q.cred).isNone)).map (fun i => u * 1024 + i)

/-- A credit entry whose complement fails (R185): invalidated, recorded, and the tile fenced. -/
def creditGuard (s : State) (u k c : Nat) : State :=
  let s1 := guardReport (dropCredit s k) (unitRecPage u) 0x0509 { ctx := some c, detail := [k % 1024] }
  if u < 4608 then fenceTile s1 u 0x0509 else s1

/-- CREDITS of an entry. -/
def Credit.slots (e : Credit) : Nat := fieldOf e.cred 0 16

/-- An entry holding `n` slots. -/
def Credit.withSlots (e : Credit) (n : Nat) : Credit := { e with cred := guardOf n }

/-- The fate of `n` slots of messages sent to another device is known: their credit or a NACK has come (R339). -/
def Credit.heard (e : Credit) (n : Nat) : Credit := { e with away := e.away - n }

/-- Slots returned to a unit for a key and epoch: added to the entry, or counted in STALE_RETURNS (R188, R194) (log entry 43, DEDUCED). -/
def returnCredit (s : State) (u dest c epoch n : Nat) : State :=
  let stale := if u < 4608 then ctlCount s u 3 1 else s
  match findCredit s u dest c with
  | none => stale
  | some e =>
    if !guardOk e.2.cred then creditGuard s u e.1 c
    else if e.2.epoch != epoch then stale
    else setCredit s e.1 ((e.2.withSlots (e.2.slots + n)).heard n)

/-- A grant at the sending unit (R186): true when the table is full and the grant goes back. -/
def takeGrant (s : State) (u dest c epoch n : Nat) : Bool × State :=
  match findCredit s u dest c with
  | some e =>
    if !guardOk e.2.cred then (false, creditGuard s u e.1 c)
    else if e.2.epoch = epoch then (false, setCredit s e.1 (e.2.withSlots (e.2.slots + n)))
    else (false, setCredit s e.1 { dest := dest, ctx := c, epoch := epoch, cred := guardOf n, away := 0 })
  | none =>
    match freeCredit s u with
    | some k => (false, setCredit s k { dest := dest, ctx := c, epoch := epoch, cred := guardOf n, away := 0 })
    | none => (true, s)

/-! ### Sends (R177, R187, R194) -/

/-- CTX_EPOCH of a unit's context: that of the tile's residence slot (R204), or the context's. -/
def senderEpoch (s : State) (u c : Nat) : Nat :=
  if u < 4608 then
    match slotOfCtx s u c with
    | some r => rdF s (qctl u (0x200 + 8 * r)) 0 16
    | none => epochOf s c
  else epochOf s c

/-- SRC of a message (R177, R288). -/
def srcOf (s : State) (u q : Nat) : Nat :=
  if u = unitHornbeam then endpoint s 1 0xFF else if u = unitGorbin then endpoint s 9 0xFF else endpoint s u q

/-- A message as the sending unit's controller builds it (R177). -/
def buildMsg (s : State) (u q c dst handler vc : Nat) (pay : List Byte) : Msg :=
  { hdr := { dst := dst, creditEpoch := 0, context := c, handler := handler, vc := vc, len := lenOfPay pay.length
             src := srcOf s u q, ctxEpoch := senderEpoch s u c, linkSeq := 0, payLen := pay.length
             stepTag := if u = unitGorbin then 0 else stepOf s c % 65536, rsv4 := 0, rsv5 := 0, mgmt := decide (4608 ≤ u), pad := false
             prov := decide (u < 4608) && stepped s c }
    pay := pay }

/-- How a send ended. -/
inductive SendRes where
  | sent | wait | noEntry
  deriving DecidableEq, Repr

/-- The tile through whose S port Hornbeam's packets enter the mesh, tile 1, or those of the Gorbin port: the attachment
of the destination (R287, R288). -/
def entryTile (u dst : Nat) : Nat := if u = unitHornbeam then 1 else 9 + 4 * (epTile dst % 4)

/-- A header as its sender wrote it: a Parith port that the message crosses sets LINK_SEQ (R175, R177). -/
def unlinked (h : Header) : Header := { h with linkSeq := 0 }

/-- The send itself (R187): credit taken, the message handed to the mesh, SENT counted for the queue the unit
serves; a completion store serves none (R177). -/
def sendNow (s : State) (u q : Nat) (sender : Sender) (e : Nat × Credit) (m : Msg) : State :=
  let h := { m.hdr with creditEpoch := e.2.epoch }
  let far := if epDev m.hdr.dst = deviceId s then 0 else hdrSlots m.hdr
  let s1 := setCredit s e.1 { e.2.withSlots (e.2.slots - hdrSlots m.hdr) with away := e.2.away + far }
  let s2 := if u < 4608 && sender != .store then qCount s1 u q 0 1 else s1
  let s3 := match sender with
    | .thread n => if (threadOf s2 u n).nack then { s2 with q := { s2.q with fromNack := s2.q.fromNack ++ [h] } } else s2
    | .doorbell d => { s2 with q := { s2.q with gbSent := s2.q.gbSent ++ [(h, d)] } }
    | _ => s2
  if u < 4608 then inject s3 u (.msg { m with hdr := h })
  else submit s3 (if u = unitHornbeam then 15 else 14) (entryTile u m.hdr.dst) (.msg { m with hdr := h })

/-- A failure of a send at its unit (R194): counted, and handler 0x3FF is due, or record 0x050A (log entry 45, DEDUCED). -/
def sendFailed (s : State) (u q cause : Nat) (fromNack : Bool) (h : Header) : State :=
  if u < 4608 then
    let s1 := qCount (ctlCount s u 2 1) u q 2 1
    if fromNack || (handlerEntry s1 u h.context 0x3FF).isNone then
      report s1 (unitRecPage u) 0x050A { queue := q, ctx := some h.context, detail := [cause, h.dst] }
    else { s1 with q := { s1.q with nacks := s1.q.nacks ++ [{ tile := u, queue := q, cause := cause, hdr := h }] } }
  else if u = unitHornbeam then report s (unitRecPage u) 0x050A { ctx := some h.context, detail := [cause, h.dst] }
  else s

/-- The message waits for credit (R187). -/
def waitSend (s : State) (u q : Nat) (sender : Sender) (m : Msg) : State :=
  { s with q := { s.q with sends := s.q.sends ++ [{ unit := u, sender := sender, queue := q, msg := m, since := now s }] } }

/-- A send of a unit (R187): behind an earlier send of the same sender it waits as well. The Gorbin
port never waits (R303). -/
def trySend (s : State) (u q : Nat) (sender : Sender) (m : Msg) : SendRes × State :=
  let nack := match sender with | .thread n => (threadOf s u n).nack | _ => false
  if s.q.sends.any (fun w => w.unit == u && w.sender == sender) then (.wait, waitSend s u q sender m)
  else
    match findCredit s u m.hdr.dst m.hdr.context with
    | none => (.noEntry, sendFailed s u q 0xB nack m.hdr)
    | some e =>
      if !guardOk e.2.cred then
        let s1 := creditGuard s u e.1 m.hdr.context
        (.noEntry, sendFailed s1 u q 0xB nack m.hdr)
      else if e.2.slots < hdrSlots m.hdr then
        if u = unitGorbin then (.noEntry, s) else (.wait, waitSend s u q sender m)
      else (.sent, sendNow s u q sender e m)

/-- A unit has credit for a message at once. -/
def hasCredit (s : State) (u dst c slots : Nat) : Bool :=
  match findCredit s u dst c with
  | some e => guardOk e.2.cred && slots ≤ e.2.slots
  | none => false

/-- A sender resumes after its wait: a handler thread runs on, or ends where RESET stopped it (R182). -/
def resumeSender (s : State) (w : SendWait) : State :=
  match w.sender with
  | .thread n =>
    if (threadOf s w.unit n).wait ≠ .credit then s
    else if (threadOf s w.unit n).fate = .reset then updBusy (setThread s w.unit n idleThread) w.unit
    else setThread s w.unit n { threadOf s w.unit n with wait := .none }
  | _ => s

/-- The wait of a unit's send ends: SEND_STALL counts it in units of 16 ns (R204). -/
def stallCount (s : State) (w : SendWait) : State :=
  if w.unit < 4608 then qCount s w.unit w.queue 4 ((now s - w.since) / 16) else s

/-- Waiting sends given up, each wait counted (R204). -/
def dropSends (s : State) (p : SendWait → Bool) : State :=
  each (s.q.sends.filter p) stallCount { s with q := { s.q with sends := s.q.sends.filter (fun w => !p w) } }

/-- Waiting send `w` tried again (R187): sent once credit suffices, or failed with NO_ENTRY. -/
def retrySend (s : State) (w : SendWait) : State :=
  let gone := { s with q := { s.q with sends := s.q.sends.erase w } }
  match findCredit s w.unit w.msg.hdr.dst w.msg.hdr.context with
  | none =>
    resumeSender (sendFailed (stallCount gone w) w.unit w.queue 0xB
      (match w.sender with | .thread n => (threadOf s w.unit n).nack | _ => false) w.msg.hdr) w
  | some e =>
    if !guardOk e.2.cred then creditGuard s w.unit e.1 w.msg.hdr.context
    else if e.2.slots < hdrSlots w.msg.hdr then s
    else resumeSender (sendNow (stallCount gone w) w.unit w.queue w.sender e w.msg) w

/-! ### Grants and revokes -/

/-- A grant refused, or withdrawn because the sender's table was full (R186); the record names the context that
asked (log entry 151, DEDUCED). -/
def grantRefused (s : State) (t q : Nat) (asked : Option Nat := none) : State :=
  report s (tilePage t 4) 0x050B { queue := q, ctx := some (asked.getD (qOwner s t q)) }

/-- A grant of `n` slots of queue `q` of tile `t` to tile `dt` of device `dd` (R186); true when performed. -/
def grant (s : State) (t q dd dt n : Nat) (owner : Option Nat) : Bool × State :=
  if qState s t q = 1 && 1 ≤ n && qGranted s t q + n + 15 ≤ qSize s t q && dt < 4608
      && (match owner with | some c => c == qOwner s t q | none => true) then
    let s1 := wrGF s (qdReg t q 1) 16 16 (qGranted s t q + n)
    let c := unicast (mkCtrl s 0x01 t (qOwner s t q) 0 (grantWords (endpoint s t q) (qEpoch s t q) n)) dd dt
    let e := epochOf s (qOwner s t q)
    (true, inject { s1 with recov := { s1.recov with granted := s1.recov.granted ++ [(t * 256 + q, dd * 8192 + dt)] } } t
      (.ctrl { c with ctxEpoch := e }))
  else (false, grantRefused s t q owner)

/-- The REVOKE of a queue goes to the group of context `c` (R188). -/
def sendRevokeTo (s : State) (t q c : Nat) : State :=
  let p := toGroup (mkCtrl s 0x04 t c q (grantWords (endpoint s t q) (qEpoch s t q) 0)) (rdF s (csCtx c 0x190) 24 12)
  inject { s with q := { s.q with revokes := s.q.revokes ++ [(t, q, c)] }
                  recov := { s.recov with granted := s.recov.granted.filter (fun g => g.1 != t * 256 + q) } } t (.ctrl p)

/-- The REVOKE of a queue goes to the group of its owning context (R188). -/
def sendRevoke (s : State) (t q : Nat) : State := sendRevokeTo s t q (qOwner s t q)

/-- The acknowledgement of a REVOKE of the queue is still to come (R188). -/
def revoking (s : State) (t q : Nat) : Bool := s.q.revokes.any (fun r => r.1 == t && r.2.1 == q)

/-! ### States of a queue (R182) -/

/-- A DMA channel with nothing to do (R99). -/
def idleChan : Chan := { cur := none, elem := 0, hand := [], scale := none, block := none, tail := none, blocked := false, queued := [] }

/-- Channel `ch` of an S tile. -/
def chanOf (s : State) (t ch : Nat) : Chan := mapGet (fun _ => idleChan) s.flow.chans (t * 4 + ch)

/-- A channel set. -/
def setChan (s : State) (t ch : Nat) (c : Chan) : State :=
  { s with flow := { s.flow with chans := mapPut (fun _ => idleChan) s.flow.chans (t * 4 + ch) c } }

/-- Every held message discarded and counted, HEAD at TAIL; `keep` messages are not counted. Descriptors
of a discarded message that have not started go with it. -/
def discardHeld (s : State) (t q keep : Nat) : State :=
  let s1 := wrG (qCount s t q 2 (heldMsgs s t q - keep)) (qdReg t q 2) (qTail s t q)
  if tileType t == .s && q < 4 then setChan s1 t q { chanOf s1 t q with queued := [] } else s1

/-- The wait of a queue's reader ends: READ_WAIT counts it in units of 16 ns (R204). -/
def endRead (s : State) (t q : Nat) : State :=
  let w := mapGet (fun _ => 0) s.q.readWait (t * 256 + q)
  if w = 0 then s
  else qCount { s with q := { s.q with readWait := mapPut (fun _ => 0) s.q.readWait (t * 256 + q) 0 } } t q 5 ((now s + 1 - w) / 16)

/-- A queue enters CLOSED by CLOSE (R182): running handlers run on without their message. -/
def closeQueue (s : State) (t q : Nat) : State :=
  let run := (threadsOn s t q).filter (fun n => (threadOf s t n).fate == .held)
  let s1 := discardHeld s t q run.length
  let s2 := each run (fun u n => setThread u t n { threadOf u t n with fate := .closed }) s1
  sendRevoke (setQState s2 t q 3) t q

/-- A thread whose message RESET discards (R182): an operation that waits ends first (log entry 152, DEDUCED). -/
def stopThread (s : State) (t n : Nat) : State :=
  match (threadOf s t n).wait with
  | .credit => setThread s t n { threadOf s t n with fate := .reset }
  | .tag => setThread s t n { threadOf s t n with fate := .reset }
  | _ => setThread s t n idleThread

/-- A queue enters RESET (R182): handlers on its messages stop, and its reader waits no more; `revoke` except at teardown. -/
def resetQueue (s : State) (t q : Nat) (revoke : Bool) : State :=
  let was := qState s t q
  let s1 := each (threadsOn s t q) (fun u n => stopThread u t n) s
  let s2 := updBusy (endRead (discardHeld s1 t q 0) t q) t
  let s3 := setQState s2 t q 0
  if revoke && (was = 1 || was = 2) then sendRevoke s3 t q else s3

/-- DRAINING with occupancy 0 becomes CLOSED (R182). -/
def drainDone (s : State) (t q : Nat) : State :=
  if qState s t q = 2 && qOcc s t q = 0 then sendRevoke (setQState s t q 3) t q else s

/-- A queue whose message at HEAD cannot be read now: what it waits for is set going, and a PAD is passed, which may be the
last record of a queue in DRAINING (R182, R190). -/
def awaitHead (s : State) (t q : Nat) : State := if qOcc s t q = 0 then s else drainDone (snoopHead s t q) t q

/-- A pointer found invalid (R184): how many messages the queue held is not known, so DROPPED grows by a free number of
them, and both pointers take the value of the other one, or a free value (log entry 169, DESIGN CHOICE). -/
def losePointers (s : State) (t q : Nat) : State :=
  let h := qdReg t q 2
  let b := qdReg t q 3
  if gOk s h && gOk s b then s
  else
    let p := if gOk s b then qTail s t q else if gOk s h then qHead s t q else freeNat s % 2 ^ 17
    drawnMany (wrG (wrG (qCount s t q 2 (Config.freeNat (s.free + 1) % (qSize s t q + 1))) h p) b p) 2

/-- A queue whose QD_STATE is invalid enters RESET: what state it left is not known, so the REVOKE goes to the group of
each context that either half of the value names. Its CREDIT_EPOCH and CONTEXT stand as the low half has them (log entry 169,
DESIGN CHOICE). -/
def resetUnknown (s : State) (t q : Nat) : State :=
  let a := qdReg t q 1
  let cs := (candidates (rd s a)).map (fun v => fieldNat v 8 8)
  each cs.eraseDups (fun u c => sendRevokeTo u t q c) (resetQueue (wrG s a (guardVal (rd s a))) t q false)

/-- A guard fault of a descriptor (R184): the mismatched value is invalid, the queue enters RESET and the tile fences
itself. -/
def queueGuard (s : State) (t q : Nat) : State :=
  let sound := gOk s (qdReg t q 1)
  let s1 := losePointers s t q
  fenceTile (guardReport (if sound then resetQueue s1 t q true else resetUnknown s1 t q) (qdPage t q) 0x0508
    { queue := q, ctx := if sound then some (qOwner s t q) else none }) t 0x0508

/-! ### OPEN (R180) -/

/-- The place of a ring in scratchpad (R180, R159 rows 1–3). -/
def ringInPad (s : State) (t c a len : Nat) (hornbeam : Bool) : Bool :=
  let p := (a - padBase 0) / 0x80000
  let w := (a - padBase 0) % 0x80000 / 4
  let n := len / 4
  p < 4608 && clusterOf p == clusterOf t && w + n ≤ tileWords p && !tileFenced s p
    && !(banksOf p w n).any (fun b => bankState s p b == 2)
    && (if inService s p then (ctxRgns s p c).any (fun g => !g.tagged && g.canRead && g.canWrite && g.base ≤ w && w + n ≤ g.limit)
        else hornbeam)

/-- The place of a ring in LPDDR6 (R180). -/
def ringInDram (s : State) (a len : Nat) : Bool :=
  dramMapped s a len && !(durableRanges s).any (fun r => a < r.2 && r.1 < a + len)

/-- The checks of R180. -/
def ringPlaced (s : State) (t q c : Nat) (hornbeam : Bool) : Bool :=
  let lg := rdF s (qdReg t q 0) 0 5
  let a := qBase s t q
  let len := 64 * qSize s t q
  4 ≤ lg && lg ≤ 16 && (slotOfCtx s t c).isSome
    && (match regionOf a with
        | .pad => ringInPad s t c a len hornbeam
        | .lpddr => ringInDram s a len
        | _ => false)

/-- The context lives again on the device (R376). -/
def revive (s : State) (c : Nat) : State :=
  let s1 := passTornAll (setTdState s c 0)
  { s1 with recov := { s1.recov with draining := mapErase c s1.recov.draining, tornGuilty := mapErase c s1.recov.tornGuilty } }

/-- A torn context that runs in no steps is restarted by an OPEN of a queue for it (R369) (log entry 153, DEDUCED). -/
def restart (s : State) (c : Nat) : State := if tdState s c = 3 && !stepped s c then revive s c else s

/-- The queue is loaded anew: what its grant plan held before is over (R376) (log entry 153, DEDUCED). -/
def dropPlan (s : State) (t q : Nat) : State :=
  { s with q := { s.q with plan := s.q.plan.filter (fun g => !(g.tile == t && g.queue == q))
                           toOpen := s.q.toOpen.filter (fun x => x.2 != (t, q)) } }

/-- A queue enters OPEN (R182): its credit epoch begins, under which nothing has been granted yet (R365). -/
def openQueue (s : State) (t q c : Nat) : State :=
  let v := place 8 8 c + place 4 4 (qEpoch s t q + 1) + 1
  let s1 := { s with recov := { s.recov with granted := s.recov.granted.filter (fun g => g.1 != t * 256 + q) } }
  wrG (wrG (wrG s1 (qdReg t q 1) v) (qdReg t q 2) 0) (qdReg t q 3) 0

/-- A fence entry of R354 covers a tile. -/
def entryCovers (e t : Nat) : Bool :=
  let u := fieldNat e 24 16
  (fieldNat e 60 4 == 1 && u == t) || (fieldNat e 60 4 == 2 && u == clusterOf t)

/-- A PATTERN fence keeps work of a class off a tile (R355, R356). -/
def patternBars (s : State) (t cls : Nat) : Bool :=
  s.commit.condFences.any (fun e => entryCovers e t && fieldNat e 56 4 == 3 && fieldNat e 40 16 == cls)

/-- Pattern class of the work that a queue brings to its tile (R356): DMA, handlers, or none of its own. -/
def queueClass (s : State) (t q : Nat) : Nat :=
  if !qRead s t q then 8 else if tileType t == .s && q < 4 then 7 else 0

/-- OPEN performed, or refused with 0x050E (R180, R182). Hornbeam opens no queue whose work a PATTERN fence keeps off the
tile (R355) (log entry 195, DEDUCED). -/
def performOpen (s : State) (t q c : Nat) (hornbeam : Bool) : State :=
  if hornbeam && patternBars s t (queueClass s t q) then s
  else if ringPlaced s t q c hornbeam then restart (openQueue (dropPlan s t q) t q c) c
  else report s (tilePage t 4) 0x050E { queue := q, ctx := some c }

/-- A torn context's queue OPENed at its reopening (R376). -/
def performReopen (s : State) (t q c : Nat) : State :=
  if ringPlaced s t q c true then openQueue s t q c
  else report s (tilePage t 4) 0x050E { queue := q, ctx := some c }

/-- The grants of a context's plan for an open queue, repeated (R376). -/
def repeatGrants (s : State) (c t q : Nat) : State :=
  if qState s t q = 1 then
    each (s.q.plan.filter (fun g => g.ctx == c && g.tile == t && g.queue == q)) (fun u g => (grant u t q g.dev g.sender g.slots none).2) s
  else s

/-- Queue `q` of tile `t` reopened for a context that is still resident there; where the tile still awaits the
acknowledgement of a REVOKE, the OPEN is held (R188, R376). -/
def reopenQueue (s : State) (c t q : Nat) : State :=
  if qState s t q != 0 || (slotOfCtx s t c).isNone || tileFenced s t then s
  else if revoking s t q then
    { s with q := { s.q with opens := s.q.opens ++ [{ tile := t, queue := q, ctx := c, hornbeam := true, plan := true }] } }
  else performReopen s t q c

/-- A reopening: Hornbeam OPENs the queues that the teardown put into RESET, and then repeats the grant plan (R376)
(log entry 153, DEDUCED). -/
def reopenQueues (s : State) (c : Nat) : State :=
  let mine := (s.q.toOpen.filter (fun x => x.1 == c)).map Prod.snd
  let s1 := each mine (fun u x => reopenQueue u c x.1 x.2) { s with q := { s.q with toOpen := s.q.toOpen.filter (fun x => x.1 != c) } }
  each mine (fun u x => repeatGrants u c x.1 x.2) s1

/-- While the queue's context is being loaded, a grant made by a write joins its grant plan (R376) (log entry 153,
DEDUCED). -/
def notePlan (s : State) (t q dd dt n : Nat) : State :=
  if csState s (qOwner s t q) = 0 then
    { s with q := { s.q with plan := s.q.plan ++ [{ ctx := qOwner s t q, tile := t, queue := q, dev := dd, sender := dt, slots := n }] } }
  else s

/-- A write to Q_GRANT (R186). -/
def grantWrite (s : State) (t q dd dt n : Nat) : State :=
  let r := grant s t q dd dt n none
  if r.1 then notePlan r.2 t q dd dt n else r.2

/-- A command not allowed in the state: ignored with record 0x050D (R182, R206). -/
def badCmd (s : State) (p q : Nat) : State := reportB s p 8 0x050D { queue := q }

/-- A write to Q_CMD (R182): OPEN waits for the acknowledgement of an earlier REVOKE (R188) (log entry 42, DEDUCED). -/
def queueCmd (s : State) (t q cmd c : Nat) (hornbeam : Bool) : State :=
  let st := qState s t q
  let p := tilePage t 4
  if cmd = 0 then s
  else if !qSound s t q then queueGuard s t q
  else match cmd with
  | 1 =>
    if st = 1 || st = 2 then badCmd s p q
    else if revoking s t q then
      { s with q := { s.q with opens := s.q.opens ++ [{ tile := t, queue := q, ctx := c, hornbeam := hornbeam, plan := false }] } }
    else performOpen s t q c hornbeam
  | 2 => if st = 1 then drainDone (setQState s t q 2) t q else badCmd s p q
  | 3 => if st = 1 || st = 2 then closeQueue s t q else badCmd s p q
  | 4 => if st = 0 then s else resetQueue s t q true
  | _ => badCmd s p q

/-- The combined REVOKE_ACK of context `c` for a queue has reached the root (R188): held OPENs proceed once none is
awaited. -/
def revokeDone (s : State) (t q c : Nat) : State :=
  let s1 := { s with q := { s.q with revokes := s.q.revokes.erase (t, q, c) } }
  if revoking s1 t q then s1
  else
    let s2 := { s1 with q := { s1.q with opens := s1.q.opens.filter (fun o => !(o.tile == t && o.queue == q)) } }
    each (s1.q.opens.filter (fun o => o.tile == t && o.queue == q)) (fun u o =>
      if o.plan then (if qState u t q = 0 then repeatGrants (performReopen u t q o.ctx) o.ctx t q else u)
      else if qState u t q = 0 || qState u t q = 3 then performOpen u t q o.ctx o.hornbeam else badCmd u (tilePage t 4) q) s2

/-- The tile and queue of a QD_STATE register. -/
def queueOfKey (a : Nat) : Option (Nat × Nat) :=
  let t := (a - regBase) / 0x20000
  let k := (a - regBase) % 0x20000 / 0x1000
  let o := (a - regBase) % 0x1000
  if regBase ≤ a && t < 4608 && 5 ≤ k && k ≤ 8 && 0x100 ≤ o && o % 0x20 == 8 && o < 0x900
  then some (t, (k - 5) * 64 + (o - 0x100) / 0x20) else none

/-- The queues that are not in RESET, from their descriptors. -/
def setQueues (s : State) : List (Nat × Nat) :=
  (s.regs.filterMap (fun e => queueOfKey e.1)).filter (fun x => qState s x.1 x.2 != 0)

/-- The queues that are OPEN or DRAINING. -/
def liveQueues (s : State) : List (Nat × Nat) := (setQueues s).filter (fun x => qState s x.1 x.2 != 3)

/-- The region words `[lo, hi)` of tile `p` became invalid: queues of `c` whose ring lies there enter RESET (R180, R182) (log
entry 171, DEDUCED). -/
def ringRegionGone (s : State) (p lo hi c : Nat) : State :=
  each (setQueues s) (fun u x =>
    let a := qBase u x.1 x.2
    let len := 64 * qSize u x.1 x.2
    if qOwner u x.1 x.2 == c && a < padAddr p hi && padAddr p lo < a + len then
      report (resetQueue u x.1 x.2 true) (tilePage x.1 4) 0x050E { queue := x.2, ctx := some c }
    else u) s

/-! ### Arrival (R189–R193, R195) -/

/-- Slots that a message and any PAD it needs take (R189) (log entry 44, DEDUCED). -/
def roomNeeded (s : State) (t q l : Nat) : Nat :=
  let i := qTail s t q % qSize s t q
  if qSize s t q < i + l then qSize s t q - i + l else l

/-- A PAD record of R189. -/
def padHeader (slots : Nat) : Header := { emptyMsg.hdr with pad := true, len := slots - 1 }

/-- The credit return of a released message (R188). -/
def returnPkt (s : State) (t q : Nat) (h : Header) : Ctrl :=
  let c := unicast (mkCtrl s 0x02 t h.context 0 (grantWords (endpoint s t q) (qEpoch s t q) (hdrSlots h))) (epDev h.src) (epTile h.src)
  { c with ctxEpoch := h.ctxEpoch }

/-- A reader begins to wait for a message of an empty queue (R196). -/
def beginRead (s : State) (t q : Nat) : State :=
  if mapGet (fun _ => 0) s.q.readWait (t * 256 + q) = 0 then
    { s with q := { s.q with readWait := mapPut (fun _ => 0) s.q.readWait (t * 256 + q) (now s + 1) } }
  else s

/-- The record written at TAIL, after a PAD where it would pass the end (R189, R191). -/
def ringPut (s : State) (t q : Nat) (m : Msg) : State :=
  let size := qSize s t q
  let l := hdrSlots m.hdr
  let i := qTail s t q % size
  let c := qOwner s t q
  let s1 := if size < i + l then
      let u := ringWrite s t (slotAddr s t q i) (wordBytes (hdrWords (padHeader (size - i)))) c
      ctlCount (wrG u (qdReg t q 3) ((qTail s t q + size - i) % (2 * size))) t 5 1
    else s
  let s2 := ringWrite s1 t (slotAddr s1 t q (qTail s1 t q)) (msgBytes m) c
  skipPad (wrG s2 (qdReg t q 3) ((qTail s2 t q + l) % (2 * size))) t q

/-- The code units of `len` bytes of a ring as they are stored: their bytes and check-bit differences. -/
def ringRaw (s : State) (a len : Nat) : List (List Byte × Nat) :=
  let k := if regionOf a = .pad then 4 else 32
  (List.range (len / k)).map (fun i => (readBytes s (a + k * i) k, chkAt s (a + k * i)))

/-- Stored units put back as they were, so that an error in one stays an error (R150). -/
def putRaw (s : State) (a : Nat) (us : List (List Byte × Nat)) : State :=
  let k := if regionOf a = .pad then 4 else 32
  each us.zipIdx (fun u x => setChk (writeBytes u (a + k * x.2) x.1.1) (a + k * x.2) x.1.2) s

/-- A message of a ring moved up to TAIL, as it is stored. -/
def ringMove (s : State) (t q : Nat) (m : Msg) (us : List (List Byte × Nat)) : State :=
  let u := ringPut s t q m
  putRaw u (slotAddr u t q (qTail u t q + 2 * qSize u t q - hdrSlots m.hdr)) us

/-- A message accepted by its queue is counted, and is progress of its context (R130, R203, R334, R364). -/
def received (s : State) (t q : Nat) (m : Msg) : State :=
  let s1 := progress (countDlv (qCount s t q 1 1) t m) t (qOwner s t q)
  if m.hdr.prov && !stepped s1 (qOwner s t q) then incWrap s1 (csReg 0x0A0) 1 else s1

/-- A tile in FLUSHING removes a token as it arrives, unless it carries the target pair of the STOP (R128). -/
def flushes (s : State) (t : Nat) (m : Msg) : Bool :=
  dfState s t == 3 && isTokenQueue s t (epQueue m.hdr.dst) && !isTarget s t (msgToken m)

/-- The message enters its queue, where a waiting reader finds it (R189, R191, R204), or is removed at once by a flush,
its credit going back (R128, R188). -/
def enqueue (s : State) (t q : Nat) (m : Msg) : State :=
  if flushes s t m then
    let s1 := received s t q m
    inject (incWrap s1 (dfReg t 0x0A8) 1) t (.ctrl (returnPkt s1 t q m.hdr))
  else received (endRead (ringPut s t q m) t q) t q m

/-- The byte ranges of the ring that an arriving message writes (R189). -/
def arrivalRanges (s : State) (t : Nat) (m : Msg) : List (Nat × Nat) :=
  let q := epQueue m.hdr.dst
  let i := qTail s t q % qSize s t q
  if qState s t q != 1 then []
  else if qSize s t q < i + hdrSlots m.hdr then [(slotAddr s t q i, 64), (qBase s t q, 64 * hdrSlots m.hdr)]
  else [(slotAddr s t q i, 64 * hdrSlots m.hdr)]

/-- The ring slots of an arriving message lie in lines that the companion holds, or in banks that are not ON (R171, R295). -/
def arrivalBusy (s : State) (t : Nat) (m : Msg) : Bool := (arrivalRanges s t m).any (fun r => ringBusy s r.1 r.2 true)

/-- What the ring slots of an arriving message wait for is set going. -/
def arrivalSnoop (s : State) (t : Nat) (m : Msg) : State :=
  each (arrivalRanges s t m) (fun u r => ringAwait u r.1 r.2 true) s

/-- One record for each code, queue and 1 ms window (R192). -/
def queueRec (s : State) (t q code c : Nat) : State :=
  reportLimited s (tilePage t 4) 0 code (limitKey 3 (t * 256 + q) code) (now s / 1000000) { queue := q, ctx := some c }

/-- The fate of a message of the Gorbin port is known: the first of its like that it sent is no longer awaited (R303). -/
def gbKnown (s : State) (p : Header → Bool) : State :=
  { s with q := { s.q with gbSent := s.q.gbSent.eraseP (fun e => p e.1) } }

/-- Row 4 of R192 (R195): a message refused without NACK; a token counts in DLV (R130). -/
def staleDiscard (s : State) (t q c : Nat) (m : Msg) : State :=
  reportLimited (countDlv (qCount (ctlCount (gbKnown s (fun h => h == unlinked m.hdr)) t 0 1) t q 3 1) t m) (tilePage t 4) 0 0x0502 (limitKey 4 t 0) (now s / 1000) { queue := q, ctx := some c }

/-- The slot of the message's context, when CTX_EPOCH matches (R192 row 4). -/
def epochMatches (s : State) (t c e : Nat) : Bool :=
  match slotOfCtx s t c with
  | some r => gOk s (qctl t (0x200 + 8 * r)) && rdF s (qctl t (0x200 + 8 * r)) 0 16 == e
  | none => false

/-- A message at its tile's enqueue unit (R192). -/
def arrive (s0 : State) (t : Nat) (m : Msg) : State :=
  let s := { s0 with q := { s0.q with fromNack := s0.q.fromNack.erase (unlinked m.hdr) } }
  let q := epQueue m.hdr.dst
  let c := m.hdr.context
  let p := tilePage t 4
  if tileFenced s t then refuse s0 t 0x9 m
  else if tileInReset s t then refuse s0 t 0xA m
  else if malformed m.hdr then report (refuse s0 t 0x7 m) p 0x0501 { queue := q, ctx := some c }
  else if !epochMatches s t c m.hdr.ctxEpoch then staleDiscard s t q c m
  else if !qSound s t q then refuse (queueGuard s0 t q) t 0x9 m
  else if qEpoch s t q != m.hdr.creditEpoch then queueRec (refuse s0 t 0x4 m) t q 0x0503 c
  else if qState s t q != 1 then
    queueRec (refuse s0 t (if qState s t q = 0 then 2 else if qState s t q = 3 then 1 else 3) m) t q 0x0504 c
  else if qOwner s t q != c then queueRec (refuse s0 t 0x5 m) t q 0x0505 c
  else if !qRead s t q && (handlerEntry s t c m.hdr.handler).isNone then report (refuse s0 t 0x6 m) p 0x0506 { queue := q, ctx := some c }
  else if qSize s t q < qOcc s t q + roomNeeded s t q (hdrSlots m.hdr) then
    let s1 := clearClean (refuse s0 t 0x8 m) t (qOwner s t q)
    fenceTile (report s1 p 0x0507 { queue := q, ctx := some c, clean := true }) t 0x0507
  else enqueue (gbKnown s (fun h => h == unlinked m.hdr)) t q m

/-! ### NACKs (R194, R303) -/

/-- Causes of R194 that return credit. -/
def causeReturns (cause : Nat) : Bool := 1 ≤ cause && cause ≤ 0xA && cause != 4

/-- The Gorbin port's report of a refused message (R303). -/
def gbSendFailed (s : State) (cause : Nat) (h : Header) : State :=
  let d := ((s.q.gbSent.find? (fun e => e.1 == unlinked h)).map Prod.snd).getD 1024
  let s1 := gbKnown s (fun e => e == unlinked h)
  let v := 2 ^ 63 + place 56 4 cause + place 48 8 h.context
    + (if d = 1024 then 2 ^ 46 else place 36 10 d) + h.dst % 2 ^ 36
  let s2 := incSat (wr s1 (devReg 5 0x118) (BitVec.ofNat 64 v)) (devReg 5 0x0B0)
  raise (report s2 (devPage 5) 0x0909 { ctx := some h.context, detail := [cause, h.dst] }) 305

/-- A NACK that returns no credit still tells the fate of its message (R339). -/
def nackHeard (s : State) (u : Nat) (h : Header) : State :=
  match findCredit s u h.dst h.context with
  | some e => if e.2.epoch = h.creditEpoch then setCredit s e.1 (e.2.heard (hdrSlots h)) else s
  | none => s

/-- A NACK at the sending unit (R194). -/
def nackArrives (s : State) (u cause : Nat) (h : Header) : State :=
  let s1 := if causeReturns cause then returnCredit s u h.dst h.context h.creditEpoch (hdrSlots h) else nackHeard s u h
  if u = unitGorbin then gbSendFailed s1 cause h
  else
    let own := s1.q.fromNack.contains (unlinked h)
    sendFailed { s1 with q := { s1.q with fromNack := s1.q.fromNack.erase (unlinked h) } } u (epQueue h.src) cause own h

/-! ### Release (R198) -/

/-- The message at HEAD released: HEAD advances, past a PAD behind it, and its credit returns (R188, R190, R198). -/
def release (s : State) (t q : Nat) : State :=
  if qOcc s t q = 0 then s
  else
    let h := hdrAt s t q (qHead s t q)
    let s1 := skipPad (wrG s (qdReg t q 2) ((qHead s t q + hdrSlots h) % (2 * qSize s t q))) t q
    let s2 := inject s1 t (.ctrl (returnPkt s1 t q h))
    drainDone (progress s2 t (qOwner s t q)) t q

end Sys2Proof.Machine
end

