-- ==== Sys2Proof/Machine/Ufs.lean ====
section
/-! DEFINITION. The UFS host (R406–R408): its command list and link. What a completed command means to its
user is in BringUp. -/

namespace Sys2Proof.Machine

/-- A register of the UFS page. -/
def ufsReg (off : Nat) : Nat := devReg 14 off

/-- UFS_STAT.LINK: 0 DOWN, 1 ACTIVE, 2 HIBERN8. -/
def ufsLink (s : State) : Nat := rdF s (ufsReg 0x108) 0 2

/-- The command list replaced. -/
def setUfs (s : State) (l : List UfsCmd) : State := { s with ufs := { s.ufs with cmds := l } }

/-- A command of a flash copy that is not yet issued (R396). -/
def UfsCmd.copies (x : UfsCmd) : Bool := match x.user with | .flash _ _ => !x.issued | _ => false

/-- An ageing record that waits, 15 minutes past its hour (R40). -/
def UfsCmd.late (now : Nat) (x : UfsCmd) : Bool :=
  match x.user with | .ageWrite w => !x.issued && decide (w * 3600000000000 + 900000000000 ≤ now) | _ => false

/-- The command that goes out next: the oldest one waiting, but an ageing record at its limit ahead of flash copies (R40,
R396). -/
def ufsNext (now : Nat) (l : List UfsCmd) : Option UfsCmd :=
  match l.find? (fun x => !x.issued) with
  | some x => if x.copies then (l.find? (UfsCmd.late now)).orElse (fun _ => some x) else some x
  | none => none

/-- A command queued for the flash device. -/
def ufsQueue (s : State) (x : UfsCmd) : State := setUfs s (s.ufs.cmds ++ [x])

/-- A READ (16) of `count` 4 KiB blocks. -/
def ufsRead (s : State) (lun block count : Nat) (user : UfsUser) : State :=
  ufsQueue s { op := 0, lun := lun, block := block, count := count, data := [], user := user, tries := 0, issued := false }

/-- A WRITE (16) of 4 KiB blocks. -/
def ufsWrite (s : State) (lun block : Nat) (data : List Byte) (user : UfsUser) : State :=
  ufsQueue s { op := 1, lun := lun, block := block, count := (data.length + 4095) / 4096, data := data, user := user, tries := 0, issued := false }

/-- A command goes out: the link is active with two lanes at HS-G5 (R407) (log entry 141, DEDUCED). -/
def ufsIssue (s : State) (x : UfsCmd) : State :=
  let v := (rd s (ufsReg 0x108)).toNat / 256 % 2 * 256 + 2 * 64 + 5 * 4 + 1
  emit (wr s (ufsReg 0x108) (BitVec.ofNat 64 v)) (.ufs x.op x.lun x.block x.count x.data)

/-- The list with the first command of a kind changed. -/
def markFirst (p : UfsCmd → Bool) (f : UfsCmd → UfsCmd) : List UfsCmd → List UfsCmd
  | [] => []
  | x :: xs => if p x then f x :: xs else x :: markFirst p f xs

/-- Meaning of UFS_COMMAND (R407): the oldest command not yet issued goes to the flash device while ENABLE is 1
and one of the 32 slots is free; `aux` 1–5 makes it TEST UNIT READY, INQUIRY, REQUEST SENSE, READ CAPACITY or SYNCHRONIZE CACHE
(log entry 141, DEDUCED). -/
def execUfsCommand (aux : Fin 6) (s : State) : Host.Outcome State Fault Refusal :=
  .next (
    let s1 := if aux.val = 0 then s
      else setUfs s ({ op := if aux.val = 5 then 2 else 2 + aux.val, lun := 0, block := 0, count := 0, data := [], user := .host, tries := 0, issued := false } :: s.ufs.cmds)
    if !rdB s (ufsReg 0x100) 0 || 32 ≤ (s.ufs.cmds.filter (fun x => x.issued)).length then s
    else match ufsNext (now s) s1.ufs.cmds with
      | none => s
      | some x =>
        incWrap (ufsIssue (setUfs s1 (markFirst (fun y => y == x) (fun y => { y with issued := true }) s1.ufs.cmds)) x) (ufsReg 0x080) 1)

/-- Meaning of HIBERN8_ENTRY (R407): 1 ms with no command. -/
def execHibern8Entry (s : State) : Host.Outcome State Fault Refusal :=
  .next (if ufsLink s = 1 && !s.ufs.cmds.any (fun x => x.issued) && s.ufs.idleSince + 1000000 ≤ now s + 1
    then wrF s (ufsReg 0x108) 0 2 2 else s)

end Sys2Proof.Machine
end

