-- ==== Sys2Proof/Machine/Ckpt.lean ====
section
/-! DEFINITION. Checkpoints (R388–R402): streams, images in the halves of a partner region, the mover, flash
copies, exports and restores. -/

namespace Sys2Proof.Machine

/-- A register of the checkpoint page. -/
def ckReg (off : Nat) : Nat := devReg 12 off
/-- The copy of a checkpoint register for a stream. -/
def ckSt (n off : Nat) : Nat := banked (devReg 12 off) n
/-- The checkpoint page. -/
def ckPage : Nat := devPage 12

/-- A stream with nothing in progress. -/
def idleStream : CkStream :=
  { ownTake := none, holdTake := none, half := 0, wait := none, late := false, segs := [], captured := false, next := 0, sealDt := 0
    due := false, seals := 0, flashOwed := false, flashAt := none, exportAt := none, copyWaits := false, restore := none
    restBlocks := 0, part := none, got := [], came := [], hold := 0 }

/-- Stream `n`. -/
def streamOf (s : State) (n : Nat) : CkStream := mapGet (fun _ => idleStream) s.ckpt.streams n
/-- Stream `n` set. -/
def setStream (s : State) (n : Nat) (x : CkStream) : State :=
  { s with ckpt := { s.ckpt with streams := mapPut (fun _ => idleStream) s.ckpt.streams n x } }

/-- What a stream does: 0 IDLE, 1 WAITING, 2 CAPTURING, 3 TRICKLING, 4 FLASHING, 5 RESTORING. -/
def CkStream.state (x : CkStream) : Nat :=
  if x.restore.isSome then 5
  else if x.ownTake.isSome && x.captured then 3
  else if x.ownTake.isSome || x.holdTake.isSome then 2
  else if x.wait.isSome then 1
  else if x.flashAt.isSome then 4 else 0

/-- CK_STAT.STATE (R401) (log entry 107, DEDUCED). -/
def ckState (s : State) (n : Nat) : Nat := (streamOf s n).state

/-- CK_OWN is set up. -/
def ownValid (s : State) (n : Nat) : Bool := rdB s (ckSt n 0x180) 63
/-- The owner stream's context. -/
def ownCtx (s : State) (n : Nat) : Nat := rdF s (ckSt n 0x180) 48 8
/-- The holder of the owner stream. -/
def ownHolder (s : State) (n : Nat) : Nat := rdF s (ckSt n 0x180) 32 15
/-- CK_HOLD is in use. -/
def holdValid (s : State) (n : Nat) : Bool := rdB s (ckSt n 0x198) 63
/-- The owner device of a held image. -/
def holdOwner (s : State) (n : Nat) : Nat := rdF s (ckSt n 0x198) 48 15
/-- The context of a held image. -/
def holdCtx (s : State) (n : Nat) : Nat := rdF s (ckSt n 0x198) 40 8
/-- Bytes of a half of the partner region (R390). -/
def halfLen (s : State) (n : Nat) : Nat := rdF s (ckSt n 0x198) 18 18 / 2 * mib2
/-- First byte of a half. -/
def halfBase (s : State) (n h : Nat) : Nat := rdF s (ckSt n 0x198) 0 18 * mib2 + h * halfLen s n
/-- First byte of the snapshot area, and its length, which is that of a half (R395): none while it is not in use (log entry 107,
DEDUCED). -/
def snapArea (s : State) (n : Nat) : Nat × Nat :=
  (rdF s (ckSt n 0x190) 0 18 * mib2, if rdB s (ckSt n 0x190) 63 then rdF s (ckSt n 0x190) 18 18 * mib2 else 0)

/-! ### The interval (R400) -/

/-- Nanoseconds of 720 h. -/
def hours720 : Nat := 720 * 3600 * 1000000000

/-- CK_EVENTS: events of the window [DT − 720 h, DT) (R8, R400). -/
def ckEvents (s : State) : Nat := min ((s.ckpt.events.filter (fun d => now s ≤ d + hours720 && d < now s)).length) 65535

/-- τ in ms for a hold of `c` µs: √(2C ÷ λ), clamped to 30 s … 6 h. -/
def tauOf (s : State) (c : Nat) : Nat :=
  let lam := 720 * rdF s (ckReg 0x110) 0 32 + ckEvents s * 1000000000
  if lam = 0 then 21600000
  else min 21600000 (max 30000 (isqrt (2 * c * 3600 * 720000000000 / lam)))

/-- C of a stream in µs: 1 s before the first seal. -/
def holdCost (s : State) (n : Nat) : Nat := if (streamOf s n).sealDt = 0 then 1000000 else rdF s (ckSt n 0x1B0) 0 32

/-- CK_TAU recomputed. -/
def setTau (s : State) (n : Nat) : State := wrF s (ckSt n 0x1B8) 0 32 (tauOf s (holdCost s n))

/-- The effect of a write of CK_LAMBDA_HOST (R400). -/
def lambdaWrite (s : State) (v : Nat) : State := each (List.range 4) setTau (wrF s (ckReg 0x110) 0 32 v)

/-- τ in force. -/
def tauMs (s : State) (n : Nat) : Nat := let v := rdF s (ckSt n 0x1B8) 0 32; if v = 0 then tauOf s (holdCost s n) else v

/-- Level source 374: some stream is due. -/
def ckDueAny (s : State) : Bool := (List.range 4).any (fun n => (streamOf s n).due)

/-! ### Segments and halves (R389, R390) -/

/-- The segment table of a stream: address, blocks and kind. -/
def segTable (s : State) (n : Nat) : List (Nat × Nat × Nat) :=
  (List.range (rdF s (ckSt n 0x188) 48 7)).map (fun i =>
    let a := rdF s (ckSt n 0x188) 4 44 * 16 + 16 * i
    (natNow s a 6, natNow s (a + 6) 4, natNow s (a + 10) 1))

/-- Blocks of a table. -/
def segBlocks (l : List (Nat × Nat × Nat)) : Nat := (l.map (fun g => g.2.1)).sum

/-- Offset of the segment data within a half. -/
def dataOff (l : List (Nat × Nat × Nat)) : Nat := 4096 + 8 * segBlocks l

/-- Segments with the offsets of their data within a half. -/
def segPlaces (l : List (Nat × Nat × Nat)) : List (Nat × Nat × Nat × Nat) :=
  (l.foldl (fun (acc : Nat × List (Nat × Nat × Nat × Nat)) g => (acc.1 + g.2.1 * mib2, acc.2 ++ [(acc.1, g.1, g.2.1, g.2.2)])) (dataOff l, [])).2

/-- Two ranges of bytes meet. -/
def meets (a la b lb : Nat) : Bool := a < b + lb && b < a + la

/-- The table breaks R389. -/
def segBad (s : State) (n : Nat) : Bool :=
  let l := segTable s n
  64 < l.length
    || l.any (fun g => (g.2.2 != 1 && g.2.2 != 2) || g.2.1 == 0 || g.1 % mib2 != 0
        || (List.range 256).any (fun c => let j := journalRange s c; meets g.1 (g.2.1 * mib2) j.1 (j.2 - j.1)))
    || l.zipIdx.any (fun g => l.zipIdx.any (fun h => g.2 < h.2 && meets g.1.1 (g.1.2.1 * mib2) h.1.1 (h.1.2.1 * mib2)))
    || (snapArea s n).2 < segBlocks l * mib2

/-- The 4 KiB header of a half (R390). -/
def halfHeader (owner ctx st step dt blocks : Nat) : List Byte :=
  fitBytes 4096 (bytesOf 8 0x3154504B434B4454 ++ bytesOf 2 owner ++ bytesOf 1 ctx ++ bytesOf 1 st ++ bytesOf 6 step ++ bytesOf 8 dt ++ bytesOf 4 blocks)

/-- Bytes of LPDDR6 read for an engine; withheld bytes read as 0 (log entry 105, DEDUCED). -/
def engineRead (s : State) (a len : Nat) : List Byte × State :=
  let r := mappedRead s ckPage a len none
  (r.1.map (fun o => o.getD 0), r.2)

/-- The effects of reading a table whose fields are then taken one by one. -/
def engineTouch (s : State) (a len : Nat) : State := (mappedRead s ckPage a len none).2

/-- Bytes of LPDDR6 written by an engine. -/
def engineWrite (s : State) (a : Nat) (bs : List Byte) : State := (mappedWrite s ckPage a (bs.map some) none).2

/-- A half holds a SEALED image (R390). -/
def halfSealed (s : State) (n h : Nat) : Bool :=
  natNow s (halfBase s n h) 8 == 0x3154504B434B4454 && natNow s (halfBase s n h + 11) 1 == 2

/-! ### Ends and waits (R392, R393) -/

/-- The newest sealed half. -/
def newestHalf (s : State) (n : Nat) : Nat := rdF s (ckSt n 0x1A8) 60 1

/-- The half that does not hold the newest sealed image. -/
def nextHalf (s : State) (n : Nat) : Nat := if halfSealed s n (newestHalf s n) then 1 - newestHalf s n else newestHalf s n

/-- A half is being copied to flash, or exported (R392, R397). -/
def halfCopied (s : State) (n h : Nat) : Bool :=
  (match (streamOf s n).flashAt with | some f => f.1 == h | none => false)
    || (match (streamOf s n).exportAt with | some f => f.1 == h | none => false)

/-- A checkpoint in progress on the stream. -/
def ckBusy (s : State) (n : Nat) : Bool := (streamOf s n).ownTake.isSome || (streamOf s n).holdTake.isSome

/-- The step that a TAKE names has committed on this device (R391). -/
def takeLate (s : State) (n step : Nat) : Bool :=
  (ownValid s n && step < stepOf s (ownCtx s n)) || (holdValid s n && step < stepOf s (holdCtx s n))

/-- Bytes of the segment table: first and length. -/
def segSpan (s : State) (n : Nat) : Nat × Nat := (rdF s (ckSt n 0x188) 4 44 * 16, 16 * rdF s (ckSt n 0x188) 48 7)

/-- What a TAKE reads and writes cannot be reached yet (R277, R295). -/
def takeBusy (s : State) (n : Nat) : Bool :=
  (ownValid s n && unsettled s (segSpan s n).1 (segSpan s n).2 false)
    || (holdValid s n && (unsettled s (halfBase s n 0) 4096 true || unsettled s (halfBase s n 1) 4096 true))

/-- A TAKE waits: for a checkpoint in progress, a copy of the half, or memory (R392). -/
def takeHeld (s : State) (n : Nat) : Bool := ckBusy s n || (holdValid s n && halfCopied s n (nextHalf s n)) || takeBusy s n

/-- The half that a checkpoint goes to: an owner that holds no half counts its seals (log entry 107, DEDUCED). -/
def takeHalf (s : State) (n : Nat) : Nat :=
  if holdValid s n then nextHalf s n else if (streamOf s n).sealDt = 0 then newestHalf s n else 1 - newestHalf s n

/-- A checkpoint begins on the sides that are set up (R392 order 1). -/
def takeBegins (s : State) (n step : Nat) : State :=
  let h := takeHalf s n
  let s1 := if holdValid s n then engineWrite s (halfBase s n h) (halfHeader (holdOwner s n) (holdCtx s n) 1 step 0 0) else s
  let x := streamOf s1 n
  setStream s1 n { x with ownTake := if ownValid s n then some step else none, holdTake := if holdValid s n then some step else none, half := h
                          segs := segTable s n, captured := false, next := 0, wait := none, late := false, came := [] }

/-- The tables that a TAKE looks at are read: the segment table and the headers of the halves. -/
def takeReads (s : State) (n : Nat) : State :=
  let s1 := if ownValid s n then engineTouch s (segSpan s n).1 (segSpan s n).2 else s
  if holdValid s n then engineTouch s1 (halfBase s n (newestHalf s n)) 32 else s1

/-- A checkpoint begins, or is refused (R389, R391). -/
def startTake (s : State) (n step : Nat) : State :=
  let u := takeReads s n
  if takeLate s n step then report s ckPage 0x0D01 { ctx := some (if ownValid s n then ownCtx s n else holdCtx s n) }
  else if ownValid s n && segBad s n then report u ckPage 0x0D08 { ctx := some (ownCtx s n) }
  else takeBegins u n step

/-- The effect of CK_CMD TAKE (R391, R392). -/
def ckTake (s : State) (n step : Nat) : State :=
  if !rdB s (ckReg 0x100) 0 || !(ownValid s n || holdValid s n) then ignored s ckPage
  else if takeHeld s n && !takeLate s n step then setStream s n { streamOf s n with wait := some (step, now s), late := false }
  else startTake s n step

/-- A waiting TAKE proceeds once nothing holds it back. -/
def resumeTake (s : State) (n : Nat) : State :=
  match (streamOf s n).wait with
  | some w => if takeHeld s n then s else startTake (setStream s n { streamOf s n with wait := none, late := false }) n w.1
  | none => s

/-- The owner's side of a checkpoint ends before its seal, with a record (R393). -/
def ckEndOwn (s : State) (n code : Nat) : State :=
  if (streamOf s n).ownTake.isNone then s
  else report (setStream s n { streamOf s n with ownTake := none, captured := false }) ckPage code { ctx := some (ownCtx s n) }

/-- The holder's side of a checkpoint ends before its seal, with a record (R393): the half stays OPEN. -/
def ckEndHold (s : State) (n code : Nat) : State :=
  if (streamOf s n).holdTake.isNone then s
  else report (setStream s n { streamOf s n with holdTake := none }) ckPage code { ctx := some (holdCtx s n) }

/-- CANCEL (R393): what the stream does, and a TAKE that waits, end. -/
def ckCancel (s : State) (n : Nat) : State :=
  let s1 := ckEndHold (ckEndOwn s n 0x0D09) n 0x0D09
  if (streamOf s1 n).wait.isNone then s1
  else
    let s2 := setStream s1 n { streamOf s1 n with wait := none, late := false }
    if ckBusy s n then s2 else report s2 ckPage 0x0D09 { ctx := some (if ownValid s n then ownCtx s n else holdCtx s n) }

/-- The checkpoints of a context that entered FAULTED end, taken or held here (R393). -/
def ckFaulted (s : State) (c : Nat) : State :=
  each (List.range 4) (fun u n =>
    let v := if ownCtx u n = c then ckEndOwn u n 0x0D09 else u
    if holdCtx v n = c then ckEndHold v n 0x0D09 else v) s

/-- A port went DOWN (R393): checkpoints whose partner lies behind it end. -/
def ckLinkLost (s : State) (p : Nat) : State :=
  each (List.range 4) (fun u n =>
    let v := if exitOf u (ownHolder u n) = p then ckEndOwn u n 0x0D03 else u
    if exitOf v (holdOwner v n) = p then ckEndHold v n 0x0D03 else v) s

/-! ### Messages of the engine (R394, R398) -/

/-- A message of the engine: data and their offset within the half, for queue 0xFE of tile 1 (log entry 46, DEDUCED). -/
def ckMsg (s : State) (c dev off : Nat) (data : List Byte) : Msg :=
  let m := buildMsg s (unitAt s 1 c) 0xFE c ((dev <<< 21) + (1 <<< 8) + 0xFE) 0 3 (data ++ bytesOf 8 off)
  { m with hdr := { m.hdr with src := endpoint s 1 0xFE, mgmt := true, prov := false } }

/-- Pieces of up to 992 B. -/
def pieces992 : Nat → Nat → List Byte → List (Nat × List Byte)
  | 0, _, _ => []
  | n + 1, off, bs => if bs.isEmpty then [] else (off, bs.take 992) :: pieces992 n (off + 992) (bs.drop 992)

/-- Bytes handed to the holder as messages. -/
def ckSendAll (s : State) (c dev off : Nat) (bs : List Byte) : State :=
  each (pieces992 (bs.length / 992 + 1) off bs) (fun u p => (trySend u (unitAt u 1 c) 0xFE .block (ckMsg u c dev p.1 p.2)).2) s

/-! ### Capture (R392 order 3) -/

/-- STATE segments with their offsets in the half. -/
def statePlaces (l : List (Nat × Nat × Nat)) : List (Nat × Nat × Nat × Nat) := (segPlaces l).filter (fun g => g.2.2.2 == 2)

/-- The capture would read lines that the companion may have modified (R295). -/
def captureBusy (s : State) (n : Nat) : Bool := (streamOf s n).segs.any (fun g => unsettled s g.1 (g.2.1 * mib2) false)

/-- Streams whose owner captures step `step` of context `c` now. -/
def capturing (s : State) (c step : Nat) : List Nat :=
  (List.range 4).filter (fun n => ownValid s n && ownCtx s n == c && (streamOf s n).ownTake == some step && !(streamOf s n).captured)

/-- A block's CRC added to a list. -/
def addCrc (l : List Byte) (r : List Byte × State) : List Byte × State := (l ++ bytesOf 8 (crc64 r.1), r.2)

/-- The manifest of a table: the CRC-64 of every block (R390). -/
def manifest (s : State) (l : List (Nat × Nat × Nat)) : List Byte × State :=
  l.foldl (fun (acc : List Byte × State) g =>
    (List.range g.2.1).foldl (fun (b : List Byte × State) k => addCrc b.1 (engineRead b.2 (g.1 + k * mib2) mib2)) acc) ([], s)

/-- A STATE segment copied to its place in the snapshot area, where the STATE segments lie one behind the other. -/
def snapCopy (s : State) (n at' addr len : Nat) : State :=
  let r := engineRead s addr len
  engineWrite r.2 ((snapArea s n).1 + at') r.1

/-- The snapshot of the STATE segments (R392 order 3). -/
def snapTake (s : State) (n : Nat) (l : List (Nat × Nat × Nat × Nat)) : State :=
  (l.foldl (fun (acc : Nat × State) g => (acc.1 + g.2.2.1 * mib2, snapCopy acc.2 n acc.1 g.2.1 (g.2.2.1 * mib2))) (0, s)).2

/-- The snapshot, the manifest and its sending; the hold's time is measured, not computed (R392 order 3) (log entries 100 and 103,
DEDUCED). -/
def ckCapture (s : State) (n : Nat) : State :=
  let x := streamOf s n
  let m := manifest (snapTake s n (statePlaces x.segs)) x.segs
  let s2 := ckSendAll m.2 (ownCtx s n) (ownHolder s n) 4096 m.1
  let total := ((statePlaces x.segs).map (fun g => g.2.2.1)).sum
  let s4 := wr (drawn s2) (ckSt n 0x1C0) (BitVec.ofNat 64 (place 32 32 total))
  setStream s4 n { x with captured := true, next := 0, hold := freeNat s2 % 2 ^ 32 }

/-! ### The mover (R394, R397, R398) -/

/-- STATE byte `k` of a table: its place in the half and the bytes left in its segment. -/
def stateAt (l : List (Nat × Nat × Nat)) (k : Nat) : Option (Nat × Nat) :=
  ((statePlaces l).foldl (fun (acc : Nat × Option (Nat × Nat)) g =>
    let len := g.2.2.1 * mib2
    if acc.2.isSome then acc
    else if acc.1 < len then (acc.1, some (g.1 + acc.1, len - acc.1)) else (acc.1 - len, none)) (k, none)).2

/-- The egress port toward a device sent no other VC3 flit in the preceding window and holds VC3 credit (R394) (log entry 106, DEDUCED). -/
def vc3Idle (s : State) (dev : Nat) : Bool :=
  let e := exitOf s dev
  if e = 0xE then true
  else
    let k := now s / 1000
    e < 14 && portRuns s e && (k == 0 || ((vc3Of s e).1 != k && (vc3Of s e).2 != k)) && 16 ≤ linkCredit s e 3

/-- One message of the trickle. -/
def trickle (s : State) (n : Nat) : State :=
  let x := streamOf s n
  let c := ownCtx s n
  let h := ownHolder s n
  if x.ownTake.isNone || !x.captured then s
  else match stateAt x.segs x.next with
    | none => s
    | some p =>
      let len := min 992 p.2
      let a := (snapArea s n).1 + x.next
      let r := engineRead s a len
      let m := ckMsg s c h p.1 r.1
      if unsettled s a len false then settle s a len false
      else if vc3Idle s h && hasCredit s (unitAt s 1 c) m.hdr.dst c (hdrSlots m.hdr) then
        let s1 := (trySend r.2 (unitAt s 1 c) 0xFE .block m).2
        let s2 := incWrap s1 (ckReg 0x088) (hdrSlots m.hdr)
        wrF (setStream s2 n { x with next := x.next + len }) (ckSt n 0x1C0) 0 32 ((x.next + len) / mib2)
      else s

/-- Bushels whose flag reads DEVICE, in ascending order (R299). -/
def deviceBushels (s : State) : List Nat :=
  (List.range (rdF s (gbReg 0x140) 51 13)).filter (fun i => (flagWord s ((flagTable s).1 + 8 * i)).bind flagCode == some 0x4B1DC3C3)

/-- One block of an export (R397): copied into the lowest Bushel set to DEVICE, whose flag becomes HOST. -/
def exportBlock (s : State) (n h k : Nat) : State :=
  let x := streamOf s n
  if halfLen s n ≤ k * mib2 then resumeTake (setStream s n { x with exportAt := none }) n
  else match deviceBushels s with
    | [] => s
    | b :: _ =>
      let src := halfBase s n h + k * mib2
      let dst := (rdF s (gbReg 0x140) 21 27 + b) * mib2
      if unsettled s src mib2 false || unsettled s dst mib2 true then settle (settle s src mib2 false) dst mib2 true
      else
        let r := engineRead (engineTouch s (flagTable s).1 (8 * (b + 1))) src mib2
        let s1 := engineWrite r.2 dst r.1
        let s2 := engineWrite s1 ((flagTable s).1 + 8 * b) (bytesOf 8 ((2 ^ 32 - 1 - 0x4B1D3C3C) * 2 ^ 32 + 0x4B1D3C3C))
        setStream s2 n { x with exportAt := some (h, k + 1) }

/-- Bytes of flash in one command (R396). -/
def flashPart : Nat := 0x80000

/-- First 4 KiB block of an image slot (R396). -/
def slotBlock (s : State) (h : Nat) : Nat := rdF s (ckReg 0x120) 28 28 + h * (rdF s (ckReg 0x120) 0 28 / 2)

/-- A message of a restore with the bytes `d` of the image from `next` on, when it holds credit. -/
def restoreMsg (r : List Byte × State) (n target h : Nat) (flash : Bool) (next : Nat) : State :=
  let s := r.2
  let c := holdCtx s n
  let m := ckMsg s c target next r.1
  if hasCredit s (unitAt s 1 c) m.hdr.dst c (hdrSlots m.hdr) then
    let u := (trySend s (unitAt s 1 c) 0xFE .block m).2
    setStream u n { streamOf u n with restore := some (target, h, flash, next + r.1.length) }
  else s

/-- One message of a restore (R398): the image from byte 4,096 on, from the half or from the part read from flash;
the next part is asked for when it is needed. -/
def restoreSend (s : State) (n target h : Nat) (flash : Bool) (next : Nat) : State :=
  let x := streamOf s n
  let stop := 4096 + 8 * x.restBlocks + x.restBlocks * mib2
  let len := min 992 (stop - next)
  let k := next / flashPart
  if flash && x.part.isNone then s
  else if stop ≤ next then resumeTake (setStream (incWrap s (ckReg 0x090) 1) n { x with restore := none, part := none }) n
  else if flash then
    match x.part with
    | some p =>
      if p.1 = k then restoreMsg ((p.2.drop (next % flashPart)).take (min len (flashPart - next % flashPart)), s) n target h flash next
      else setStream (ufsRead s (rdF s (ckReg 0x120) 56 8) (slotBlock s h + k * 128) 128 (.restore n k)) n { x with part := none }
    | none => s
  else if unsettled s (halfBase s n h + next) len false then settle s (halfBase s n h + next) len false
  else restoreMsg (engineRead s (halfBase s n h + next) len) n target h flash next

/-- Meaning of TRICKLE_SEND (R394): while ENABLE is 1 the mover takes its next step: a block of an export, a message of a
restore, or a message of the trickle in an idle slot. -/
def execTrickleSend (n : Fin 4) (s : State) : Host.Outcome State Fault Refusal :=
  let x := streamOf s n
  .next (if !rdB s (ckReg 0x100) 0 then s else match x.exportAt, x.restore with
    | some e, _ => exportBlock s n e.1 e.2
    | none, some r => restoreSend s n r.1 r.2.1 r.2.2.1 r.2.2.2
    | none, none => trickle s n)

/-! ### Arrivals -/

/-- The bytes `[off, off + len)` of an arriving restore, when pieces cover them. -/
def gotRange (l : NMap (List Byte)) : Nat → Nat → Nat → Option (List Byte)
  | 0, _, len => if len = 0 then some [] else none
  | fuel + 1, off, len =>
    if len = 0 then some []
    else match l.find? (fun (e : Nat × List Byte) => e.1 ≤ off && off < e.1 + e.2.length) with
      | none => none
      | some e =>
        let d := (e.2.drop (off - e.1)).take len
        (gotRange l fuel (off + d.length) (len - d.length)).map (fun r => d ++ r)

/-- Blocks of a table with their offsets in the half and their addresses, in manifest order. -/
def blockPlaces (l : List (Nat × Nat × Nat)) : List (Nat × Nat) :=
  (segPlaces l).flatMap (fun g => (List.range g.2.2.1).map (fun k => (g.1 + k * mib2, g.2.1 + k * mib2)))

/-- A piece of a restore at its target (R398): the first, at byte 4,096, begins it; a block that is complete is checked against
the manifest and written at its address. -/
def restorePiece (s : State) (n off : Nat) (data : List Byte) : State :=
  let l := segTable s n
  let x := streamOf s n
  let got := if off = 4096 then [(off, data)] else mapInsert off data (mapErase off x.got)
  let s1 := setStream (engineTouch s (segSpan s n).1 (segSpan s n).2) n { x with got := got }
  each (blockPlaces l).zipIdx (fun u b =>
    if meets b.1.1 mib2 off data.length then
      match gotRange got 4000 b.1.1 mib2, gotRange got 16 (4096 + 8 * b.2) 8 with
      | some d, some m =>
        if crc64 d = natOfBytes m then engineWrite u b.1.2 d
        else report u ckPage 0x0D06 { ctx := some (ownCtx u n) }
      | _, _ => u
    else u) s1

/-- A piece of a checkpoint written into the half that it goes to, and noted (R392). -/
def pieceHeld (s : State) (n off : Nat) (data : List Byte) : State :=
  let x := streamOf s n
  setStream (engineWrite s (halfBase s n x.half + off) data) n { x with came := mapInsert off data.length (mapErase off x.came) }

/-- Meaning of CHECKPOINT_DATA_ARRIVAL (R388, R394, R398): a message for queue 0xFE of tile 1 is written into the
open half of its owner's stream, or restored. -/
def execCheckpointDataArrival (m : Msg) (s : State) : Host.Outcome State Fault Refusal :=
  .next (if epQueue m.hdr.dst != 0xFE || epTile m.hdr.dst != 1 || m.pay.length < 8 then s
    else match takeEjected s 1 (.msg m) with
      | none => s
      | some u =>
        let s1 := inject u 1 (.ctrl (returnPkt u 1 0xFE m.hdr))
        let off := natOfBytes (m.pay.drop (m.pay.length - 8))
        let data := m.pay.take (m.pay.length - 8)
        let src := epDev m.hdr.src
        let c := m.hdr.context
        match (List.range 4).find? (fun n => holdValid s n && holdOwner s n == src && holdCtx s n == c && (streamOf s n).holdTake.isSome) with
        | some n =>
          if off + data.length ≤ halfLen s n then pieceHeld s1 n off data else s1
        | none =>
          match (List.range 4).find? (fun n => ownValid s n && ownHolder s n == src && ownCtx s n == c) with
          | some n => restorePiece s1 n off data
          | none => s1)

/-! ### Seals -/

/-- Pieces cover the bytes `[off, off + len)`. -/
def covers (l : NMap Nat) : Nat → Nat → Nat → Bool
  | 0, _, len => len == 0
  | fuel + 1, off, len =>
    len == 0 || (match l.find? (fun (e : Nat × Nat) => e.1 ≤ off && off < e.1 + e.2) with
      | none => false
      | some e => covers l fuel (e.1 + e.2) (len - (e.1 + e.2 - off)))

/-- The manifest of an image of `blocks` blocks has come whole, and so has every block of which a piece has come (R392 order 5)
(log entry 102, DEDUCED). -/
def imageCame (l : NMap Nat) (blocks : Nat) : Bool :=
  let d := 4096 + 8 * blocks
  covers l (l.length + 1) 4096 (8 * blocks)
    && (List.range blocks).all (fun k => !l.any (fun e => meets (d + k * mib2) mib2 e.1 e.2) || covers l (l.length + 1) (d + k * mib2) mib2)
    && l.all (fun e => e.1 + e.2 ≤ d + blocks * mib2)

/-- A received block `r`, checked against its CRC in the manifest `m`. -/
def sealBlock (ok : Bool) (m : Nat) (r : List Byte × State) : Bool × State := (ok && crc64 r.1 == m, r.2)

/-- Block `k` of the half whose header lies at `a` checked. -/
def sealCheck (a blocks : Nat) (acc : Bool × State) (k : Nat) : Bool × State :=
  let m := engineRead acc.2 (a + 4096 + 8 * k) 8
  sealBlock acc.1 (natOfBytes m.1) (engineRead m.2 (a + 4096 + 8 * blocks + k * mib2) mib2)

/-- The half is sealed for `step` (R392). -/
def sealGood (s : State) (n step blocks : Nat) (a : Nat) : State :=
  let x := streamOf s n
  let s1 := engineWrite s a (halfHeader (holdOwner s n) (holdCtx s n) 2 step (now s) blocks)
  let every := rdF s (ckReg 0x100) 8 8
  let owed := every != 0 && every ≤ x.seals + 1
  let s2 := setStream (incWrap s1 (ckReg 0x080) 1) n { x with holdTake := none, seals := if owed then 0 else x.seals + 1, flashOwed := x.flashOwed || owed }
  let s3 := wrF (wrF s2 (ckSt n 0x1A8) 60 1 x.half) (ckSt n 0x1A8) 0 48 step
  emit (resumeTake s3 n) (.sealed (holdOwner s n) (holdCtx s n) step (now s))

/-- The end of a seal: the half is sealed, or the image is broken and reported (R393). -/
def sealDone (n step blocks : Nat) (a : Nat) (r : Bool × State) : State :=
  if r.1 then sealGood r.2 n step blocks a
  else resumeTake (ckEndHold (incSat r.2 (ckReg 0x098)) n 0x0D02) n

/-- Meaning of SEAL (R392 order 5): once the image has come, the holder compares every block with the manifest; `blocks` is the
image's block count (log entry 102, DEDUCED). -/
def execSeal (n : Fin 4) (blocks : Nat) (s : State) : Host.Outcome State Fault Refusal :=
  let x := streamOf s n
  let a := halfBase s n x.half
  let len := 4096 + 8 * blocks + blocks * mib2
  .next (match x.holdTake with
    | none => s
    | some step =>
      if !rdB s (ckReg 0x100) 0 || blocks = 0 || halfLen s n < len || !imageCame x.came blocks then s
      else if unsettled s a len false then settle s a len false
      else sealDone n step blocks a ((List.range blocks).foldl (sealCheck a blocks) (true, s)))

/-- Meaning of SEALED_RECEIVED (R392 order 6): the owner of step `step` learns the DT of the seal; C is now that of the sealed
checkpoint (R400). -/
def execSealedReceived (n : Fin 4) (step : Fin 281474976710656) (dt : Nat) (s : State) : Host.Outcome State Fault Refusal :=
  let x := streamOf s n
  .next (if x.ownTake = some step.val && x.captured then
      let s1 := wrF (setStream s n { x with ownTake := none, captured := false, sealDt := dt + 1, due := false }) (ckSt n 0x1B0) 0 32 x.hold
      let s2 := wrF s1 (ckSt n 0x1A8) 0 48 step
      resumeTake (raise (setTau (if holdValid s n then s2 else wrF s2 (ckSt n 0x1A8) 60 1 x.half) n) 375) n
    else s)

/-- Meaning of CK_DUE (R391, R392, R394): τ has passed since the last seal; a TAKE that has waited for τ, or a
trickle that still runs, is recorded (log entry 104, DEDUCED). -/
def execCkDue (n : Fin 4) (s : State) : Host.Outcome State Fault Refusal :=
  let x := streamOf s n
  let tau := tauMs s n * 1000000
  .next (resumeTake (
    let s1 := match x.wait with
      | some w => if w.2 + tau ≤ now s && !x.late then report (setStream s n { x with late := true }) ckPage 0x0D04 {} else s
      | none => s
    if ownValid s n && rdB s (ckReg 0x100) 0 && !x.due && (x.sealDt - 1) + tau ≤ now s then
      let s2 := setStream s1 n { streamOf s1 n with due := true }
      let s3 := if x.ownTake.isSome && x.captured then report s2 ckPage 0x0D04 { ctx := some (ownCtx s n) } else s2
      if ckDueAny s then s3 else raise s3 374
    else s1) n)

/-! ### Flash (R396) -/

/-- Parts of a half, of 512 KiB each. -/
def halfParts (s : State) (n : Nat) : Nat := halfLen s n / flashPart

/-- Part `k` of a flash copy, in a command of 512 KiB: the parts of the half in order, then the first again, with its header. -/
def flashPartAt (s : State) (n h k : Nat) : Nat := halfBase s n h + k % halfParts s n * flashPart

/-- The bytes of part `k`: the first time, the first part's header is made invalid. -/
def flashBytes (k : Nat) (l : List Byte) : List Byte := if k = 0 then List.replicate 4096 0 ++ l.drop 4096 else l

/-- Part `k` of a flash copy issued, or kept until the half can be read (R277). -/
def flashStep (s : State) (n h k : Nat) : State :=
  let a := flashPartAt s n h k
  if unsettled s a flashPart false then setStream (settle s a flashPart false) n { streamOf s n with flashAt := some (h, k), copyWaits := true }
  else
    let r := engineRead s a flashPart
    let u := ufsWrite r.2 (rdF s (ckReg 0x120) 56 8) (slotBlock s h + k % halfParts s n * 128) (flashBytes k r.1) (.flash n k)
    setStream u n { streamOf u n with flashAt := some (h, k), copyWaits := false }

/-- Meaning of FLASH_COPY (R396): an owed copy of the newest sealed half starts, or one that waited goes on. -/
def execFlashCopy (n : Fin 4) (s : State) : Host.Outcome State Fault Refusal :=
  let x := streamOf s n
  .next (if !rdB s (ckReg 0x100) 0 || !holdValid s n then s
    else match x.flashAt with
      | some f => if x.copyWaits then flashStep s n f.1 f.2 else s
      | none => if x.flashOwed then flashStep (setStream s n { x with flashOwed := false }) n (newestHalf s n) 0 else s)

/-- A part of a flash copy was written, or failed (R396). -/
def flashDone (s : State) (n : Nat) (ok : Bool) : State :=
  let x := streamOf s n
  match x.flashAt with
  | none => s
  | some f =>
    let done := setStream s n { x with flashAt := none, copyWaits := false }
    if !ok then resumeTake (report done ckPage 0x0D05 { ctx := some (holdCtx s n) }) n
    else if halfParts s n ≤ f.2 then resumeTake done n
    else flashStep s n f.1 (f.2 + 1)

/-- A header shows a SEALED image. -/
def headerSealed (b : List Byte) : Bool := natOfBytes (b.take 8) == 0x3154504B434B4454 && natOfBytes ((b.drop 11).take 1) == 2

/-- A part of an image was read from flash, or failed (R398). -/
def restorePart (s : State) (n k : Nat) (ok : Bool) (data : List Byte) : State :=
  let x := streamOf s n
  match x.restore with
  | none => s
  | some _ =>
    if !ok || (k = 0 && !headerSealed data) then
      resumeTake (report (setStream s n { x with restore := none, part := none }) ckPage 0x0D07 { ctx := some (holdCtx s n) }) n
    else setStream s n { x with part := some (k, data), restBlocks := if k = 0 then natOfBytes ((data.drop 26).take 4) else x.restBlocks }

/-! ### Commands (R397, R398, R401) -/

/-- A restore command (R398): one at a time, foreground to whatever else the stream does. -/
def startRestore (s : State) (n target h : Nat) (flash : Bool) : State :=
  let x := streamOf s n
  if x.restore.isSome || !holdValid s n then ignored s ckPage
  else if flash then
    ufsRead (setStream s n { x with restore := some (target, h, true, 4096), part := none }) (rdF s (ckReg 0x120) 56 8) (slotBlock s h) 128 (.restore n 0)
  else
    let u := engineTouch s (halfBase s n h) 32
    if halfSealed s n h then
      setStream u n { x with restore := some (target, h, false, 4096), restBlocks := natNow s (halfBase s n h + 26) 4 }
    else report u ckPage 0x0D07 { ctx := some (holdCtx s n) }

/-- The effect of a write of CK_CMD for stream `n` (R401) (log entry 101, DEDUCED) (log entry 108, DEDUCED). -/
def ckCmd (s : State) (n v : Nat) : State :=
  let h := fieldNat v 51 1
  let arg := fieldNat v 0 48
  match fieldNat v 48 3 with
  | 0 => s
  | 1 => ckTake s n arg
  | 2 => ckCancel s n
  | 3 => if holdValid s n && (streamOf s n).exportAt.isNone then setStream s n { streamOf s n with exportAt := some (h, 0) } else ignored s ckPage
  | 4 => startRestore s n (arg % 32768) h false
  | 5 => startRestore s n (arg % 32768) h true
  | _ => ignored s ckPage

end Sys2Proof.Machine
end

