-- ==== Sys2Proof/Machine/Engine.lean ====
section
/-! DEFINITION. What the T and V engines share: the activation in progress (R112), engine accesses to the
operand buffer (R86), output in the three output modes (R83, R114, R223), checks owed to Scruple
(R66–R68), and the checks of configuration records (R85, R93, R522). -/

namespace Sys2Proof.Machine

/-! ### Activations -/

/-- No activation. -/
def noAct : Act :=
  { on := false, slot := 0, ctx := 0, words := [], phase := 0, waiting := false, queue := 0, rowsA := [], rowsB := []
    curA := [], curB := [], lists := [], step := 0, hand := [], raised := [] }

/-- The activation of a tile. -/
def actOf (s : State) (t : Nat) : Act := mapGet (fun _ => noAct) s.flow.acts t

/-- The activation of a tile set. -/
def setAct (s : State) (t : Nat) (a : Act) : State :=
  { s with flow := { s.flow with acts := mapPut (fun _ => noAct) s.flow.acts t a } }

/-- The running activation whose operation is due and waits for no operand, when its record's OP is `op` (R84, R87). -/
def dueAct (s : State) (t op : Nat) (opOfRec : List Nat → Nat) : Option Act :=
  let a := actOf s t
  if a.on && a.phase == 1 && !a.waiting && opOfRec a.words == op && mayWork s t a.ctx then some a else none

/-- Steps counted in a step counter of slot page 0. -/
def countSteps (s : State) (t off n : Nat) : State := incWrap s (tileReg t 0 off) n

/-- BUSY_STEPS of a tile (log entry 159, DESIGN CHOICE). -/
def busySteps (s : State) (t n : Nat) : State := countSteps s t 0x080 n

/-! ### Engine accesses (R86, R162) -/

/-- The valid region of a context that holds word `w`. -/
def ctxRegion (s : State) (t c w : Nat) : Option Rgn := (ctxRgns s t c).find? (fun g => g.holds w)

/-- Accesses that a byte range takes: whole slots of a tagged region, else the range itself, in
ascending order. `n` bounds the pieces. -/
def pieces (s : State) (t c : Nat) (rdOp wrOp : SpOp) (data : List (Option Byte)) : Nat → Nat → Nat → List SpAcc
  | 0, _, _ => []
  | _, _, 0 => []
  | n + 1, b, len =>
    match ctxRegion s t c (b / 4) with
    | some g =>
      if g.tagged then
        let w := g.base + (b / 4 - g.base) / g.slotWords * g.slotWords
        let stop := min (b + len) (4 * (w + g.slotWords))
        { tile := t, boff := 4 * w, len := 4 * g.slotWords, op := wrOp, req := .act t, ctx := some c, data := data }
          :: pieces s t c rdOp wrOp data n stop (b + len - stop)
      else
        let stop := min (b + len) (4 * g.limit)
        { tile := t, boff := b, len := stop - b, op := rdOp, req := .act t, ctx := some c, data := data }
          :: pieces s t c rdOp wrOp data n stop (b + len - stop)
    | none => [{ tile := t, boff := b, len := len, op := rdOp, req := .act t, ctx := some c, data := data }]

/-- The accesses that read byte ranges. -/
def readsOf (s : State) (t c : Nat) (ranges : List (Nat × Nat)) : List SpAcc :=
  ranges.flatMap (fun r => pieces s t c .rd .rdFull [] (r.2 + 1) r.1 r.2)

/-- Bytes `[b, b + len)` of what accesses brought; those of a withheld word read as 0 (R150). -/
def handBytes (h : List (Nat × List (Option Byte))) (b len : Nat) : List Byte :=
  (List.range len).map (fun i =>
    match h.find? (fun e => e.1 ≤ b + i && b + i < e.1 + e.2.length) with
    | some e => (e.2.getD (b + i - e.1) none).getD 0
    | none => 0)

/-- How the reads of a step end: all performed, one waits, or one fails with a code. -/
inductive EngRes where
  | done
  | wait
  | fail
  deriving DecidableEq, Repr

/-- Accesses of a tile's activation performed in order, what each brings kept in hand. -/
def engReads (t : Nat) : List SpAcc → State → EngRes × State
  | [], s => (.done, s)
  | x :: xs, s =>
    let q := access s x
    match q.1 with
    | .ok d => engReads t xs (setAct q.2 t { actOf q.2 t with hand := (actOf q.2 t).hand ++ [(x.boff, d)] })
    | .waiting => (.wait, setAct q.2 t { actOf q.2 t with waiting := true })
    | .failed _ => (.fail, q.2)

/-! ### Abandoned activations (R86) -/

/-- An accumulator entry afresh for every kind (R80). -/
def freshEntry : AccEntry := { kind := 0, b32 := List.replicate 8 none, fws := fwsZero 0 }

/-- Accumulator entry `i` of a tile. -/
def accEntry (s : State) (t i : Nat) : AccEntry := mapGet (fun _ => freshEntry) s.flow.acc (t * 256 + i)

/-- An accumulator entry set. -/
def setAccEntry (s : State) (t i : Nat) (e : AccEntry) : State :=
  { s with flow := { s.flow with acc := mapPut (fun _ => freshEntry) s.flow.acc (t * 256 + i) e } }

/-- Entries that a T record's range covers (R80). -/
def accRange (r : TRec) : List Nat :=
  let n := if r.accKind = 0 then (r.m * r.n + 7) / 8 else r.m * r.n
  (List.range n).map (fun i => r.accBase + i)

/-- Accumulator entries that an activation's operation names: none for NOP and the reserved values (R84). -/
def actRange (t : Nat) (a : Act) : List Nat :=
  let r := tRecOf a.words
  if tileType t == .t && a.on && 1 ≤ r.op && r.op ≤ 4 then accRange r else []

/-- The records of the conditions that an abandoned activation's accumulations had raised (R55, R56, R75). -/
def raisedRecords (s : State) (t : Nat) (a : Act) : State :=
  each (a.raised.map Prod.fst).eraseDups (fun u i => arithRecords u t a.ctx ((a.raised.filter (fun x => x.1 == i)).map Prod.snd)) s

/-- An activation abandoned: its accumulator range is cleared, the records that its work so far owes are written, its
waiting accesses go and it no longer runs. TILE_STAT keeps the context and the index of the configuration (log entry 162,
DESIGN CHOICE). -/
def abandonAct (s : State) (t : Nat) : State :=
  let s1 := raisedRecords (each (actRange t (actOf s t)) (fun u i => setAccEntry u t i freshEntry) s) t (actOf s t)
  let s2 := { s1 with
    flow := { s1.flow with bufWrites := mapPut (fun _ => []) s1.flow.bufWrites t [] }
    pad := { s1.pad with waiters := s1.pad.waiters.filter (fun w => w.acc.req != .act t)
                         heldAcc := s1.pad.heldAcc.filter (fun h => h.acc.req != .act t) } }
  wrF (setAct s2 t noAct) (tileReg t 0 0x100) 4 1 0

/-- An access of an activation has failed the region check (R86): the 0x04 record is that of R116. -/
def engFault (s : State) (t : Nat) : State :=
  let c := (actOf s t).ctx
  faultStop (abandonAct s t) t c

/-- Up to `k` steps of a tile's activation from the one in progress on: a step's reads, its effect, then the next
step. The activation stops where an access waits, and is abandoned at one that fails (R86); the flag tells whether
every step was done. -/
def engSteps (t : Nat) (ranges : Nat → List (Nat × Nat)) (effect : State → Act → State) : Nat → State → Bool × State
  | 0, s => (true, s)
  | k + 1, s =>
    let a := actOf s t
    let q := engReads t ((readsOf s t a.ctx (ranges a.step)).drop a.hand.length) s
    match q.1 with
    | .done =>
      let u := effect q.2 (actOf q.2 t)
      engSteps t ranges effect k (setAct u t { actOf u t with step := a.step + 1, hand := [] })
    | .wait => (false, q.2)
    | .fail => (false, engFault q.2 t)

/-- An operation of `n` steps run from the step in progress on, and `finish` when the last is done. -/
def runSteps (s : State) (t n : Nat) (ranges : Nat → List (Nat × Nat)) (effect : State → Act → State) (finish : State → State) : State :=
  let q := engSteps t ranges effect (n - (actOf s t).step) s
  if q.1 then finish q.2 else q.2

/-- Some access of a tile's activation waits: for its slot, for room at a port, or for a bank (R164, R165, R171). -/
def actPends (s : State) (t : Nat) : Bool :=
  s.pad.waiters.any (fun w => w.acc.req == .act t) || s.pad.heldAcc.any (fun h => h.acc.req == .act t)

/-- A waiting access of an activation was performed: a read is in hand, and a write of output is done. -/
def actDeliver (s : State) (x : SpAcc) (t : Nat) (data : List (Option Byte)) : State :=
  if opWrites x.op then
    { s with flow := { s.flow with bufWrites := mapPut (fun _ => []) s.flow.bufWrites t ((mapGet (fun _ => []) s.flow.bufWrites t).drop 1) } }
  else setAct s t { actOf s t with hand := (actOf s t).hand ++ [(x.boff, data)] }

/-! ### Scruple's work (R66–R68) -/

/-- Accumulation index within the step, of a tile and context. -/
def accIdx (s : State) (t c : Nat) : Nat := mapGet (fun _ => 0) s.flow.accIndex (t * 256 + c)

/-- Accumulations handed to Scruple (log entry 23, DESIGN CHOICE) (log entry 24, DEDUCED). SCR_INJECT offsets the first
accumulation after it was set, and stays set until that one is checked (R72). -/
def owe (s : State) (t c : Nat) (l : List Chk) : State :=
  if l.isEmpty then s
  else
    let i := accIdx s t c
    let js := mapGet (fun _ => []) s.flow.scr t
    let job : ScrJob := { ctx := c, first := i, chks := l, inject := rdB s (tileReg t 0 0x400) 2 && !js.any (fun j => j.inject) }
    { s with flow := { s.flow with
        scr := mapPut (fun _ => []) s.flow.scr t (js ++ [job])
        accIndex := mapPut (fun _ => 0) s.flow.accIndex (t * 256 + c) (i + l.length) } }

/-- An error of the arithmetic that a check meets (R67): the code of the comparison that sees it, the accumulation's place
in its group, and the residue observed. -/
structure Flaw where
  code : Nat
  index : Nat
  observed : Nat
  deriving DecidableEq, Repr

/-- The residue that accumulation `i` shows in the comparison of `code`, where an error changed it. -/
def flawOf (flaws : List Flaw) (code i : Nat) : Option Nat :=
  (flaws.find? (fun f => f.code == code && f.index == i)).map (fun f => f.observed)

/-- A mismatch found: its code, the residue expected and the residue observed. -/
structure Miss where
  code : Nat
  pred : Nat
  obs : Nat
  deriving DecidableEq, Repr

/-- A comparison of two residues, and the mismatch it gives. -/
def missOf (code pred obs : Nat) : List Miss := if sameResidue pred obs then [] else [{ code := code, pred := pred, obs := obs }]

/-- The mismatches of accumulation `i` of a group (R67): the prediction, offset by 1 when injected (R72), against the
block adder's residue, that against the accumulator's, floating residues, and parity. A mismatch of the offset
prediction is reported as injected (R73). -/
def missesOf (k : Chk) (inj : Bool) (flaws : List Flaw) (i : Nat) : List Miss :=
  let p := if inj then (k.res + 1) % 127 else k.res
  let b := (flawOf flaws 0x0101 i).getD k.res
  let f := (flawOf flaws 0x0103 i).getD k.res
  let first := k.mul || k.acc
  (if first then missOf (if inj then 0x010C else 0x0101) p b else [])
    ++ (if k.acc then missOf 0x0102 b ((flawOf flaws 0x0102 i).getD b) else [])
    ++ (if k.flt then missOf (if inj && !first then 0x010C else 0x0103) (if first then k.res else p) f else [])
    ++ (if k.flt then ((flawOf flaws 0x0104 i).map (fun o => ({ code := 0x0104, pred := k.res, obs := o } : Miss))).toList else [])

/-- A mismatch of an accumulation (R68, R73): flags, SCR_LAST, SCR_MISMATCH, record and CLEAN. -/
def mismatch (s : State) (t c index : Nat) (m : Miss) : State :=
  let s1 := setArith s t 5
  let s2 := if m.code = 0x010C then setArith s1 t 7 else s1
  let s3 := wr s2 (tileReg t 0 0x420) (BitVec.ofNat 64 (place 40 16 (stepOf s c) + place 32 8 c
    + place 16 16 index + 2 ^ 15 + place 7 7 m.pred + place 0 7 m.obs))
  clearClean (report (incSat s3 (tileReg t 0 0x418)) (unitPage t) m.code
    { ctx := some c, clean := true, detail := [m.pred, m.obs, index] }) t c

/-- One accumulation checked: a record for each condition that it raised and each mismatch, in ascending order of
code (R75). -/
def checkOne (s : State) (t c first : Nat) (inj : Bool) (flaws : List Flaw) (x : Chk × Nat) : State :=
  let ms := missesOf x.1 (inj && x.2 == 0) flaws x.2
  let s1 := each (ms.filter (fun m => m.code != 0x010C)) (fun u m => mismatch u t c (first + x.2) m) s
  each (ms.filter (fun m => m.code == 0x010C)) (fun u m => mismatch u t c (first + x.2) m) (arithRecords s1 t c x.1.codes)

/-- The checks of the oldest group of accumulations complete: `flaws` are the errors that the arithmetic made (R68). -/
def scrupleCheck (s : State) (t : Nat) (flaws : List Flaw) : State :=
  match mapGet (fun _ => []) s.flow.scr t with
  | [] => s
  | j :: js =>
    let s1 := { s with flow := { s.flow with scr := mapPut (fun _ => []) s.flow.scr t js } }
    let s2 := incWrap (if j.inject then wrB s1 (tileReg t 0 0x400) 2 false else s1) (tileReg t 0 0x410) j.chks.length
    each j.chks.zipIdx (fun u x => checkOne u t j.ctx j.first j.inject flaws x) s2

/-- Checks of a context still owed on a tile. -/
def checksOwed (s : State) (t c : Nat) : Bool := (mapGet (fun _ => []) s.flow.scr t).any (fun j => j.ctx == c)

/-! ### Tokens and partials (R114, R223) -/

/-- Pieces of at most 992 B; the last flag marks the end of the row (R114). -/
def tokenPieces : Nat → List Byte → List (List Byte × Bool)
  | 0, bs => [(bs, true)]
  | n + 1, bs => if bs.length ≤ 992 then [(bs, true)] else (bs.take 992, false) :: tokenPieces n (bs.drop 992)

/-- A row sent as tokens by a configuration (R114). -/
def sendRow (s : State) (t : Nat) (a : Act) (ep outCfg : Nat) (row : List Byte) : State :=
  each (tokenPieces row.length row) (fun u p =>
    let w := tokenWord { cfg := outCfg, epoch := dfEpoch u t, kind := 0, last := p.2, set := dfSet u t, value := 0 }
    (trySend u t a.queue .act (buildMsg u t a.queue a.ctx ep 0 2 (wordBytes [w, 0] ++ p.1))).2) s

/-- A partial sent toward its destination (R223). -/
def sendPartial (s : State) (t : Nat) (r : Red) : State := inject (noteContrib s t r) t (.red r)

/-- The packet of a fixed-window partial, or of eight B32 values. -/
def partialOf (s : State) (t c ep redId partIdx partCount rmode kind elem value : Nat) (f : Fws) : Red :=
  { value := value, dst := ep, ctxEpoch := senderEpoch s t c, context := c, redId := redId, elem := elem, contrib := 1
    total := partCount, kind := kind, trunc := f.trunc, inv := f.inv, ovf := f.ovf, residue := f.res, rmode := rmode
    anchor := f.anchor, stepTag := stepOf s c % 65536, partIndex := partIdx }

/-- VALUE of a fixed-window partial: its 256-bit sum. -/
def fwsValue (f : Fws) : Nat := patternOf 256 f.w

/-- Eight B32 results as VALUE. -/
def b32Value (l : List Nat) : Nat := l.zipIdx.foldl (fun acc p => acc + (p.1 <<< (32 * p.2))) 0

/-! ### Element codes in byte order (R45, R523) -/

/-- Elements of one code packed little-endian, each of the code's width. -/
def packElems (bits : Nat) (l : List Nat) : List Byte :=
  let v := l.zipIdx.foldl (fun acc p => acc + ((p.1 % 2 ^ bits) <<< (bits * p.2))) 0
  bytesOf ((bits * l.length + 7) / 8) v

/-- `n` elements of `bits` bits read from bytes. -/
def unpackElems (bits n : Nat) (bs : List Byte) : List Nat :=
  let v := natOfBytes bs
  (List.range n).map (fun i => elemAt bits v i)

/-! ### Record checks (R79, R80, R85) -/

/-- Sub-tile rows, sub-tile columns and chunk of an operand code pair (R78, R79). -/
def shapeOf (a b : Nat) : Option (Nat × Nat × Nat) :=
  if isMx a && isMx b then (if a = 7 && b = 7 then some (8, 8, 32) else some (8, 4, 32))
  else if a = 0xA && b = 0xA then some (8, 8, 32)
  else if (a = 9 || a = 0xA) && (b = 9 || b = 0xA) then some (8, 4, 32)
  else if a = b && (a = 1 || a = 2) then some (4, 4, 32)
  else if a = 0 && b = 0 then some (4, 4, 8)
  else none

/-- Chunk size in bytes (R81). -/
def chunkBytes (c : Nat) : Nat :=
  match c with
  | 0x7 => 16 | 0xA => 16 | 0x5 => 24 | 0x6 => 24 | 0x1 => 64 | 0x2 => 64 | _ => 32

/-- An integer code of T operands. -/
def isIntCode (c : Nat) : Bool := c == 9 || c == 0xA

/-- ACC_KIND allowed for a pairing (R79). -/
def kindAllowed (a kind : Nat) : Bool := if isIntCode a then kind == 1 || kind == 2 else kind == 0 || kind == 1

/-- Capacity in accumulators from ACC_BASE (R80). -/
def accCapacity (kind base : Nat) : Nat := if kind = 0 then 8 * (256 - base) else 256 - base

/-- Bytes of one output element (R85). -/
def outBytes (c : Nat) : Nat :=
  match c with
  | 0x0 => 4 | 0x1 => 2 | 0x2 => 2 | 0x9 => 1 | 0xB => 32 | _ => 0

/-- The output code conditions of R85 row 2. -/
def tOutBad (r : TRec) : Bool :=
  r.outMode == 3 || !(r.outFmt == 0 || r.outFmt == 1 || r.outFmt == 2 || r.outFmt == 9 || (r.outFmt == 0xB && r.accKind != 0))
    || (r.outMode == 2 && !(if r.accKind = 0 then r.outFmt == 0 else r.outFmt == 0xB))

/-- The first failing row of R85 for a T record, as its code. M, N or K of 0 is a multiple of every number, so an MMA
may have it (log entry 27, DEDUCED). -/
def tRecCheck (w : List Nat) : Option Nat :=
  let r := tRecOf w
  let kindBad := r.accKind == 3 || (r.accKind == 2 && r.anchor != 0)
  let cap := r.m * r.n ≤ accCapacity r.accKind r.accBase
  let outUsed := r.op == 2 || (r.op == 1 && !r.keep)
  let loc := outUsed && r.outMode == 0
  let extentBad := 0x8000 * 4 < 4 * r.outBase + r.m * r.n * (if r.op = 4 then 32 else outBytes r.outFmt)
  match r.op with
  | 0 => none
  | 1 =>
    match shapeOf r.aFmt r.bFmt with
    | none => some 0x0201
    | some (sr, sc, ch) =>
      if kindBad || !kindAllowed r.aFmt r.accKind || (outUsed && tOutBad r) then some 0x0201
      else if r.m % sr != 0 || r.n % sc != 0 || r.k % ch != 0 || !cap
          || r.aBase % 16 != 0 || r.bBase % 16 != 0 || (loc && r.outBase % 16 != 0)
          || (outUsed && r.outMode == 2 && r.partCount == 0) then some 0x0202
      else
        let j := r.k / ch
        let lim := 0x8000 * 4
        if lim < 4 * r.aBase + j * r.m * chunkBytes r.aFmt || lim < 4 * r.bBase + j * r.n * chunkBytes r.bFmt
            || (isMx r.aFmt && (lim < r.aScale + j * r.m || lim < r.bScale + j * r.n)) || (loc && extentBad) then some 0x0203
        else none
  | 2 =>
    if kindBad || tOutBad r then some 0x0201
    else if r.m == 0 || r.n == 0 || !cap || (loc && r.outBase % 16 != 0) || (r.outMode == 2 && r.partCount == 0) then some 0x0202
    else if loc && extentBad then some 0x0203 else none
  | 3 => if kindBad then some 0x0201 else if r.m == 0 || r.n == 0 || !cap then some 0x0202 else none
  | 4 =>
    if kindBad then some 0x0201
    else if r.m == 0 || r.n == 0 || !cap || r.outBase % 16 != 0 then some 0x0202
    else if extentBad then some 0x0203 else none
  | _ => some 0x0204

/-! ### V record checks (R88, R93, R522) -/

/-- Codes 0x0–0x2. -/
def isFlt (c : Nat) : Bool := decide (c < 3)

/-- V operations of the table of R87. -/
def vOpKnown (op : Nat) : Bool := op ≤ 9 || (0x10 ≤ op && op ≤ 0x15) || (0x18 ≤ op && op ≤ 0x1D)

/-- The format conditions of R522. -/
def vFormatOk (r : VRec) : Bool :=
  let tok := r.outMode == 1
  if 1 ≤ r.op && r.op ≤ 7 then isFlt r.inFmt && isFlt r.outFmt && tok
  else if r.op = 8 then r.inFmt ≤ 0xB && (isFlt r.outFmt || r.outFmt == 9 || r.outFmt == 0xA || r.outFmt == 0xB) && tok
  else if r.op = 9 then (isFlt r.inFmt || r.inFmt == 9 || r.inFmt == 0xA || r.inFmt == 0xB) && isMx r.outFmt && tok
  else if 0x10 ≤ r.op && r.op ≤ 0x15 then isFlt r.inFmt && isFlt r.outFmt && tok
  else if r.op = 0x18 then
    (if isFlt r.inFmt then r.accKind == 0 || r.accKind == 1 else isIntCode r.inFmt && (r.accKind == 1 || r.accKind == 2))
      && !(r.accKind == 2 && r.anchor != 0)
      && (if r.outMode = 1 then (if r.accKind = 0 then isFlt r.outFmt else isFlt r.outFmt || r.outFmt == 9 || r.outFmt == 0xA || r.outFmt == 0xB)
          else r.outMode == 2 && (if r.accKind = 0 then r.outFmt == 0 else r.outFmt == 0xB))
  else if r.op = 0x19 || r.op = 0x1A then isFlt r.inFmt && isFlt r.outFmt && tok
  else if r.op = 0x1B then isFlt r.inFmt && r.outFmt == 0 && tok
  else if r.op = 0x1C then (if r.merge then r.inFmt == 0 else isFlt r.inFmt) && r.outFmt == 0 && tok
  else if r.op = 0x1D then r.inFmt == 0 && r.outFmt == 0 && tok
  else true

/-- The shape conditions of R93; LEN is not a field of MERGE or SAMPLE, whose rows are pairs (R523). -/
def vShapeBad (r : VRec) : Bool :=
  let merge := r.op == 0x1C && r.merge
  r.rows == 0 || (!merge && r.op != 0x1D && (r.len == 0 || 1048576 < r.len))
    || ((r.op == 0x1C || r.op == 0x1D) && (r.k == 0 || 256 < r.k))
    || ((r.op == 8 || r.op == 9) && (isMx r.inFmt || isMx r.outFmt) && r.len % 32 != 0)
    || (r.op == 0x1D && r.paramBase % 16 != 0)
    || (r.op == 0x18 && r.outMode == 2 && (r.partCount == 0 || (r.accKind == 0 && r.rows % 8 != 0)))

/-- The first failing condition of R93 for a V record, as its code. -/
def vRecCheck (w : List Nat) : Option Nat :=
  let r := vRecOf w
  if r.op = 0 then none
  else if !vOpKnown r.op then some 0x0204
  else if !vFormatOk r then some 0x0201
  else if vShapeBad r then some 0x0202
  else if r.op = 0x1D && 0x10000 < r.paramBase + 16 * r.rows then some 0x0203
  else none

end Sys2Proof.Machine
end

