-- ==== Sys2Proof/Machine/Dataflow.lean ====
section
/-! DEFINITION. Configurations, fold schedules and steering (R109–R125): the token at a queue's head,
activations, the fold schedule and steering firings. -/

namespace Sys2Proof.Machine

/-! ### The current entry of the fold schedule (R117, R118, R120) -/

/-- The slot of the current entry, when the tile runs configurations. -/
def curSlot (s : State) (t : Nat) : Option Nat :=
  if (foldCtrl s t true).1 = 0 then none
  else
    let n := (foldEntry s t true (curEntry s t)).1
    if slotTorn s t n then none else some n

/-- Nanoseconds added to a compatibility counter (R139). -/
def addCompat (s : State) (t k ns : Nat) : State :=
  let key := t * 32 + k
  let v := (mapGet (fun _ => 0) s.flow.compatNs key + ns) % (1000 * 2 ^ 32)
  { s with flow := { s.flow with compatNs := mapPut (fun _ => 0) s.flow.compatNs key v } }

/-- An activation of the current entry completed (R118): a switch of slot takes 4 steps, whose time
depends on the tile's pace (log entry 35, DEDUCED). -/
def foldAdvance (s : State) (t : Nat) : State :=
  let i := curEntry s t
  let d := foldDone s t + 1
  let e := foldEntry s t true i
  if e.2 ≤ d then
    let j := foldSeek s t (foldCtrl s t true).1 (foldNext s t i)
    let s1 := setFold s t j 0
    if (foldEntry s t true j).1 = e.1 then s1
    else addCompat (drawn (incWrap s1 (dfReg t 0x088) 1)) t 2 (freeNat s)
  else setFold s t i d

/-! ### The token at a queue's head (R113, R115, R116, R119) -/

/-- What becomes of the token at a queue's head. -/
inductive Head where
  | empty
  | hold
  | stale
  | flush
  | fault (code : Nat)
  | slot (n : Nat) (m : Msg)
  | steer (m : Msg)
  deriving DecidableEq, Repr

/-- A token of the tile's current pair. -/
def isCurrent (s : State) (t : Nat) (k : Token) : Bool :=
  holdsSet s t && k.set == dfSet s t && k.epoch == dfEpoch s t

/-- Rows or lists still to come on IN_Q_A (R112, R523). -/
def needA (a : Act) : Bool :=
  let r := vRecOf a.words
  if r.op = 0x1C && r.merge then a.lists.length < (r.lists + 1) * r.rows else a.rowsA.length < r.rows

/-- Rows of the second operand still to come. -/
def needB (a : Act) : Bool :=
  let r := vRecOf a.words
  vBinary r.op && a.rowsB.length < r.rows

/-- A V activation gathers rows from this queue. -/
def gathers (t q : Nat) (a : Act) : Bool :=
  let r := vRecOf a.words
  tileType t == .v && a.on && a.phase == 0 && ((q == r.inA && needA a) || (q == r.inB && needB a))

/-- The current fold entry, of slot `n`, needs tokens of a queue (R119): to gather rows, or to trigger an activation that
its COUNT leaves. -/
def entryNeeds (s : State) (t n q : Nat) : Bool :=
  (slotQueues s t true n).contains q
    && (!(actOf s t).on || gathers t q (actOf s t) || foldDone s t + 1 < (foldEntry s t true (curEntry s t)).2)

/-- The slots that share a queue. -/
def slotsOn (s : State) (t q : Nat) : List Nat := (validSlots s t).filter (fun n => (slotQueues s t true n).contains q)

/-- The verdict on a current token of a data queue of configurations (R116, R119). -/
def slotVerdict (s : State) (t q : Nat) (m : Msg) : Head :=
  let k := msgToken m
  let b := bindOf s t true k.cfg
  if !(slotsOn s t q).contains k.cfg || b.ctx != m.hdr.context then .fault 0x0304
  else if curSlot s t != some k.cfg then
    (match curSlot s t with
     | some n => if entryNeeds s t n q then .fault 0x0305 else if k.kind != 0 then .fault 0x0307 else .hold
     | none => if k.kind != 0 then .fault 0x0307 else .hold)
  else if k.kind != 0 then .fault 0x0307
  else .slot k.cfg m

/-- The verdict on a current token of a steering input (R116, R121). -/
def steerVerdict (s : State) (t q : Nat) (m : Msg) : Head :=
  let us := steersOn s t q
  let ctrl := us.any (fun u => (steerOf s t true u).usesCtrl && (steerOf s t true u).ctrlQ == q)
  if (msgToken m).kind != (if ctrl then 1 else 0) then .fault 0x0307 else .steer m

/-- The message at the head of a token queue, and what becomes of it. -/
def headOf (s : State) (t q : Nat) : Head :=
  if !isTokenQueue s t q then .empty
  else
    match headMsg s t q with
    | none => .empty
    | some (m, _) =>
      let k := msgToken m
      if isTarget s t k then .hold
      else if dfState s t == 3 && ofSet s t k then .flush
      else if !isCurrent s t k then .stale
      else if !(slotsOn s t q).isEmpty then slotVerdict s t q m
      else steerVerdict s t q m

/-- The read of the message at a queue's head has been made, with what it meets in the ring (R149, R150). -/
def readHead (s : State) (t q : Nat) : State := ((headMsg s t q).map Prod.snd).getD s

/-- A token removed as stale (R115). -/
def dropStale (s : State) (t q : Nat) : State :=
  let c := qOwner s t q
  reportLimited (incWrap (release (readHead s t q) t q) (dfReg t 0x0A0) 1) (dfPage t) 0 0x0308 (limitKey 5 t 0) (now s / 1000)
    { queue := q, ctx := some c }

/-- A program fault of the dataflow units, once for each context stopped (R116). -/
def flowFault (s : State) (t q c code : Nat) : State :=
  if ctxStopped s t c then s else programFault (readHead s t q) t 1 c code q

/-! ### Activations (R112, R523) -/

/-- A row's bytes cut or completed to its size, with record 0x020E (R523). -/
def endRow (s : State) (t slot c size : Nat) (checked : Bool) (bs : List Byte) : List Byte × State :=
  if !checked || bs.length = size then (fitBytes size bs, s)
  else (fitBytes size bs, reportLimited s (unitPage t) 0 0x020E (limitKey 6 (t * 8 + slot) 0) (now s / 1000000)
    { ctx := some c, detail := [bs.length, size] })

/-- A V activation with all its rows is ready (R112). -/
def vReady (a : Act) : Act := if needA a || needB a then a else { a with phase := 1 }

/-- Size of an input row: pairs of R91 for SAMPLE, elements of IN_FMT otherwise (R523). -/
def rowSizeOf (r : VRec) : Nat :=
  if r.op = 0x1D then 8 * r.k
  else if isMx r.inFmt then r.len / 32 * (codeBits r.inFmt * 4) + r.len / 32 else (codeBits r.inFmt * r.len + 7) / 8

/-- A token's data taken by a V activation from one of its input queues (R112, R523). A merged list keeps at most 256
pairs, and an empty one none (log entry 161, DESIGN CHOICE). -/
def gather (s : State) (t q : Nat) (m : Msg) : State :=
  let a := actOf s t
  let r := vRecOf a.words
  let last := (msgToken m).last
  let merge := r.op == 0x1C && r.merge
  if q = r.inA && needA a then
    let bs := a.curA ++ tokenData m
    if !last then setAct s t { a with curA := bs }
    else if merge then
      let n := min (bs.length / 8) 256 * 8
      let e := endRow s t a.slot a.ctx n true bs
      setAct e.2 t (vReady { a with curA := [], lists := a.lists ++ [e.1] })
    else
      let e := endRow s t a.slot a.ctx (rowSizeOf r) (r.op != 0) bs
      setAct e.2 t (vReady { a with curA := [], rowsA := a.rowsA ++ [e.1] })
  else
    let bs := a.curB ++ tokenData m
    if !last then setAct s t { a with curB := bs }
    else
      let e := endRow s t a.slot a.ctx (rowSizeOf r) true bs
      setAct e.2 t (vReady { a with curB := [], rowsB := a.rowsB ++ [e.1] })

/-- A running V activation takes tokens from this queue. -/
def takesFrom (s : State) (t q : Nat) : Bool := gathers t q (actOf s t) && mayWork s t (actOf s t).ctx

/-- A unit asks for a token of a queue that holds none: the companion is snooped where it holds the ring's lines, and the
wait is counted (R196, R295). -/
def awaitToken (s : State) (t q : Nat) : State :=
  let u := awaitHead s t q
  if qOcc u t q = 0 then beginRead u t q else u

/-- A consumed token's message is released (R198). -/
def consume (s : State) (t q : Nat) : State :=
  match headMsg s t q with
  | some (_, s1) => endRead (release s1 t q) t q
  | none => s

/-- Meaning of TOKEN_AT_HEAD (R115): the token is removed as stale, flushed, faulted on, held, or taken
by the V activation that gathers rows; other consumers take it at their own commands. -/
def execTokenAtHead (t : TileId) (q : QueueId) (s : State) : Host.Outcome State Fault Refusal :=
  .next (match headOf s t q with
    | .stale => dropStale s t q
    | .flush => incWrap (release (readHead s t q) t q) (dfReg t 0x0A8) 1
    | .fault code => flowFault s t q (qOwner s t q) code
    | .slot n m => if takesFrom s t q && n = (actOf s t).slot then gather (consume s t q) t q m else s
    | .empty => if takesFrom s t q then awaitToken s t q else awaitHead s t q
    | _ => s)

/-- Landing of a trigger token's data (R111): the accesses it takes (log entry 16, DEDUCED). -/
def landing (s : State) (t c base : Nat) (bs : List Byte) : List SpAcc :=
  let rec go : Nat → Nat → List Byte → List SpAcc
    | 0, _, _ => []
    | _, _, [] => []
    | n + 1, b, l =>
      let g := ctxRegion s t c (b / 4)
      let tagged := (g.map (fun x => x.tagged)).getD false
      let k := if tagged then 4 * (g.map (fun x => x.slotWords)).getD 1 else l.length
      { tile := t, boff := b, len := (l.take k).length, op := if tagged then .wrFill else .wr, req := .act t, ctx := some c
        data := (l.take k).map some } :: go n (b + k) (l.drop k)
  go bs.length (4 * base) bs

/-- The data of a trigger token written (R111): the activation waits for an access that must wait (R164, R165, R171). -/
def land (s : State) (t : Nat) (l : List SpAcc) : State :=
  let s1 := each l (fun u x => (access u x).2) s
  if actPends s1 t then setAct s1 t { actOf s1 t with waiting := true } else s1

/-- An activation begins (R112): the trigger token is taken and, on a T tile, its data land. -/
def startAct (s : State) (t n q : Nat) (m : Msg) : State :=
  let b := bindOf s t true n
  let a : Act := { noAct with on := true, slot := n, ctx := b.ctx, words := slotWords s t true n, queue := q
                              phase := if tileType t == .t then 1 else 0 }
  let s1 := wr (consume s t q) (tileReg t 0 0x100) (BitVec.ofNat 64 (place 8 8 b.ctx + 16 + n))
  let s2 := setAct s1 t (if tileType t == .v then vReady a else a)
  let s3 := progress s2 t b.ctx
  if tileType t == .t then
    if b.landEn then land s3 t (landing s3 t b.ctx b.landBase (tokenData m)) else s3
  else if (actOf s3 t).phase = 0 then gather s3 t q m else s3

/-- Meaning of ACTIVATION_START (R112): the configuration of the current fold entry takes its trigger token. -/
def execActivationStart (t : TileId) (s : State) : Host.Outcome State Fault Refusal :=
  .next (match curSlot s t with
    | none => s
    | some n =>
      let b := bindOf s t true n
      let q := match tileType t with | .v => (vRecOf (slotWords s t true n)).inA | _ => b.trigQ
      if (actOf s t).on || !(dfState s t == 1 || dfState s t == 2) || !b.valid || !mayWork s t b.ctx then s
      else
        match headOf s t q with
        | .slot k m => if k = n then startAct s t n q m else s
        | .fault code => flowFault s t q b.ctx code
        | .empty => awaitToken s t q
        | _ => s)

/-- Meaning of ACTIVATION_COMPLETE (R118): the last output has left and Scruple has checked it (log entry 28, DEDUCED). -/
def execActivationComplete (t : TileId) (s : State) : Host.Outcome State Fault Refusal :=
  .next (let a := actOf s t
    if a.on && a.phase = 2 && (mapGet (fun _ => []) s.flow.bufWrites t).isEmpty && !checksOwed s t a.ctx
        && !(s.q.sends.any (fun w => w.unit == t.val && w.sender == .act)) then
      let s1 := wrF (setAct s t noAct) (tileReg t 0 0x100) 4 1 0
      foldAdvance (progress (incWrap s1 (dfReg t 0x080) 1) t a.ctx) t
    else s)

/-! ### Steering (R121–R125) -/

/-- The token that a steering unit finds at an input, with its message. -/
def steerHead (s : State) (t q : Nat) : Option Msg :=
  match headOf s t q with
  | .steer m => some m
  | _ => none

/-- The internal counter of a unit (R125). -/
def steerCnt (s : State) (t u : Nat) : Nat := mapGet (fun _ => 0) s.flow.steerCount (t * 8 + u)

/-- The generated control value (R125). -/
def genValue (op trip n : Nat) : Nat :=
  match op with
  | 1 => if n + 1 = trip then 0 else 1
  | 2 => if n = 0 then 0 else 1
  | _ => if n + 1 = trip then 1 else 0

/-- The control value of a unit's next firing, when there is one (R122, R125). -/
def ctrlValue (s : State) (t u : Nat) (e : Steer) : Option Nat :=
  if e.csrc then some (genValue e.op e.trip (steerCnt s t u))
  else (steerHead s t e.ctrlQ).map (fun m => (msgToken m).value)

/-- A token forwarded: its CFG becomes the output's OUT_CFG (R122). -/
def forwarded (m : Msg) (cfg : Nat) : List Byte :=
  wordBytes [tokenWord { msgToken m with cfg := cfg }] ++ m.pay.drop 4

/-- Outputs have credit for a message (R122): a unit does not fire, and so does not fail with NO_ENTRY, while an output has no
credit entry (log entry 194, DESIGN CHOICE). -/
def outsReady (s : State) (t : Nat) (m : Msg) (outs : List (Bool × Nat × Nat)) : Bool :=
  outs.all (fun o => hasCredit s t o.2.2 m.hdr.context (hdrSlots m.hdr))

/-- A token sent to one output of a unit (R114, R177). -/
def sendOut (s : State) (t u q : Nat) (m : Msg) (o : Bool × Nat × Nat) : State :=
  (trySend s t q (.steer u) (buildMsg s t q m.hdr.context o.2.2 m.hdr.handler m.hdr.vc (forwarded m o.2.1))).2

/-- The counter after a firing (R125). -/
def bumpSteer (s : State) (t u : Nat) (e : Steer) : State :=
  if e.csrc then
    { s with flow := { s.flow with steerCount := mapPut (fun _ => 0) s.flow.steerCount (t * 8 + u) ((steerCnt s t u + 1) % e.trip) } }
  else s

/-- Since when a unit with its tokens has lacked credit (DT plus 1). -/
def steerSince (s : State) (t u : Nat) : Nat := mapGet (fun _ => 0) s.flow.steerWait (t * 8 + u)

/-- The wait of a unit for credit set, or ended with 0. -/
def setSteerSince (s : State) (t u v : Nat) : State :=
  { s with flow := { s.flow with steerWait := mapPut (fun _ => 0) s.flow.steerWait (t * 8 + u) v } }

/-- A unit that has its tokens and lacks credit begins to wait (R187). -/
def stallSteer (s : State) (t u : Nat) : State := if steerSince s t u = 0 then setSteerSince s t u (now s + 1) else s

/-- A unit's wait for credit ends: SEND_STALL of the queue of the token that it forwards counts it in units of 16 ns
(R187, R204). -/
def endStall (s : State) (t u q : Nat) : State :=
  let w := steerSince s t u
  if w = 0 then s else qCount (setSteerSince s t u 0) t q 4 ((now s + 1 - w) / 16)

/-- A firing: tokens sent to outputs, inputs consumed, the control token with them (R122). -/
def fire (s : State) (t u : Nat) (e : Steer) (q : Nat) (m : Msg) (outs : List (Bool × Nat × Nat)) (ins : List Nat) : State :=
  let s1 := each outs (fun x o => sendOut x t u q m o) (endStall s t u q)
  let s2 := each ins (fun x i => consume x t i) s1
  let s3 := if e.usesCtrl then consume s2 t e.ctrlQ else s2
  progress (incWrap (bumpSteer s3 t u e) (dfReg t 0x090) 1) t e.ctx

/-- A unit with its operation that may fire now (R116, R128). -/
def steerDue (s : State) (t u op : Nat) : Option Steer :=
  if hasSteer t && (dfState s t == 1 || dfState s t == 2) then
    let e := steerOf s t true u
    if e.op = op && mayWork s t e.ctx then some e else none
  else none

/-- The data input from which a unit's next firing forwards a token, once the control value that chooses it is known
(R121, R122). -/
def steerFrom (s : State) (t u : Nat) (e : Steer) : Option Nat :=
  if e.op = 2 then (ctrlValue s t u e).bind (fun v => if v ≤ e.width then some (e.inQ.getD v 0) else none)
  else if e.op = 0 then none else some (e.inQ.getD 0 0)

/-- The queues whose tokens a unit's next firing needs (R122): a MERGE needs its control value before it needs an input. -/
def steerNeeds (s : State) (t u : Nat) (e : Steer) : List Nat :=
  (if e.usesCtrl then [e.ctrlQ] else []) ++ (if e.op = 4 then e.inputs else (steerFrom s t u e).toList)

/-- The needed queues that hold no token. -/
def steerMissing (s : State) (t u : Nat) (e : Steer) : List Nat := (steerNeeds s t u e).filter (fun q => (steerHead s t q).isNone)

/-- The outputs that a unit's next firing sends to (R121): a GATE whose control value is 0 sends nothing. -/
def steerTo (s : State) (t u : Nat) (e : Steer) : List (Bool × Nat × Nat) :=
  if e.op = 5 then e.outputs
  else if e.op = 2 || e.op = 4 then [e.outs.getD 0 (false, 0, 0)]
  else match ctrlValue s t u e with
    | none => []
    | some v =>
      if e.op = 1 then (if v ≤ e.width then [e.outs.getD v (false, 0, 0)] else [])
      else if v = 0 then [] else [e.outs.getD 0 (false, 0, 0)]

/-- The outputs without credit for the token that a unit with all its tokens would send (R122). -/
def steerStalled (s : State) (t u : Nat) (e : Steer) : List (Bool × Nat × Nat) :=
  if !(steerMissing s t u e).isEmpty then []
  else match (steerFrom s t u e).bind (steerHead s t) with
    | some m => (steerTo s t u e).filter (fun o => !hasCredit s t o.2.2 m.hdr.context (hdrSlots m.hdr))
    | none => []

/-- The credit entry that a unit's output finds fails its complement: it is invalidated, and the tile fenced (R185). -/
def outGuard (t : Nat) (c : Nat) (s : State) (o : Bool × Nat × Nat) : State :=
  match findCredit s t o.2.2 c with
  | some e => if guardOk e.2.cred then s else creditGuard s t e.1 c
  | none => s

/-- A unit that cannot fire waits for the tokens it misses (R196), or for credit (R187). -/
def steerIdle (s : State) (t u : Nat) (e : Steer) : State :=
  let s1 := each (steerMissing s t u e) (fun x q => awaitToken x t q) s
  if (steerStalled s1 t u e).isEmpty then s1 else each (steerStalled s1 t u e) (outGuard t e.ctx) (stallSteer s1 t u)

/-- The waits of a tile's steering units for credit end without a firing, those of context `c` or of every one: each is
counted for the queue of the token that waits (R204). -/
def endStalls (s : State) (t : Nat) (c : Option Nat) : State :=
  each (List.range 8) (fun x u =>
    let e := steerOf x t true u
    if steerSince x t u = 0 || (c.isSome && c != some e.ctx) then x
    else endStall x t u ((steerFrom x t u e).getD (e.inQ.getD 0 0))) s

/-- Meaning of SWITCH (R121). -/
def execSwitch (t : TileId) (u : Fin 8) (s : State) : Host.Outcome State Fault Refusal :=
  .next (match steerDue s t u 1 with
    | none => s
    | some e =>
      let q := e.inQ.getD 0 0
      match ctrlValue s t u e with
      | none => steerIdle s t u e
      | some v =>
        if e.width < v then flowFault s t e.ctrlQ e.ctx 0x0306
        else match steerHead s t q with
          | some m =>
            let o := e.outs.getD v (false, 0, 0)
            if outsReady s t m [o] then fire s t u e q m [o] [q] else steerIdle s t u e
          | none => steerIdle s t u e)

/-- Meaning of MERGE (R121). -/
def execMerge (t : TileId) (u : Fin 8) (s : State) : Host.Outcome State Fault Refusal :=
  .next (match steerDue s t u 2 with
    | none => s
    | some e =>
      match ctrlValue s t u e with
      | none => steerIdle s t u e
      | some v =>
        if e.width < v then flowFault s t e.ctrlQ e.ctx 0x0306
        else
          let q := e.inQ.getD v 0
          match steerHead s t q with
          | some m =>
            let o := e.outs.getD 0 (false, 0, 0)
            if outsReady s t m [o] then fire s t u e q m [o] [q] else steerIdle s t u e
          | none => steerIdle s t u e)

/-- Meaning of GATE (R121). -/
def execGate (t : TileId) (u : Fin 8) (s : State) : Host.Outcome State Fault Refusal :=
  .next (match steerDue s t u 3 with
    | none => s
    | some e =>
      let q := e.inQ.getD 0 0
      match ctrlValue s t u e, steerHead s t q with
      | some v, some m =>
        let o := e.outs.getD 0 (false, 0, 0)
        if v = 0 then incWrap (fire s t u e q m [] [q]) (dfReg t 0x098) 1
        else if outsReady s t m [o] then fire s t u e q m [o] [q] else steerIdle s t u e
      | _, _ => steerIdle s t u e)

/-- Meaning of JOIN (R121). -/
def execJoin (t : TileId) (u : Fin 8) (s : State) : Host.Outcome State Fault Refusal :=
  .next (match steerDue s t u 4 with
    | none => s
    | some e =>
      let q := e.inQ.getD 0 0
      match steerHead s t q with
      | some m =>
        let o := e.outs.getD 0 (false, 0, 0)
        if e.inputs.all (fun i => (steerHead s t i).isSome) && outsReady s t m [o] then fire s t u e q m [o] e.inputs
        else steerIdle s t u e
      | none => steerIdle s t u e)

/-- Meaning of REPLICATE (R121). -/
def execReplicate (t : TileId) (u : Fin 8) (s : State) : Host.Outcome State Fault Refusal :=
  .next (match steerDue s t u 5 with
    | none => s
    | some e =>
      let q := e.inQ.getD 0 0
      match steerHead s t q with
      | some m => if outsReady s t m e.outputs then fire s t u e q m e.outputs [q] else steerIdle s t u e
      | none => steerIdle s t u e)

end Sys2Proof.Machine
end

