-- ==== Sys2Proof/Machine/Handlers.lean ====
section
/-! DEFINITION. Handlers (R196–R202): dispatch, the state a handler runs with, its operations, and
the commands that run them. -/

namespace Sys2Proof.Machine

/-! ### Registers, P and O (R200) -/

/-- Register `i` of a thread; g0 reads 0. -/
def gReg (h : Thread) (i : Nat) : Nat := if i = 0 then 0 else (mapGet (fun _ => 0) h.g i).toNat

/-- Register `i` written, modulo 2³²; writes to g0 are ignored. -/
def setG (h : Thread) (i v : Nat) : Thread :=
  if i = 0 then h else { h with g := mapPut (fun _ => 0) h.g i (BitVec.ofNat 32 v) }

/-- Words of P that may be read: (PAY_LEN + 3) div 4 (R202). -/
def pWords (h : Thread) : Nat := (h.msg.hdr.payLen + 3) / 4

/-- Word `i` of P. -/
def pWord (h : Thread) (i : Nat) : Nat := payWord h.msg i

/-- Word `i` of O. -/
def oWord (h : Thread) (i : Nat) : Nat := (mapGet (fun _ => 0) h.obuf i).toNat

/-- Word `i` of O written. -/
def setO (h : Thread) (i v : Nat) : Thread := { h with obuf := mapPut (fun _ => 0) h.obuf i (BitVec.ofNat 32 v) }

/-- Words of O written from index `i` on. -/
def setOs (h : Thread) : Nat → List Nat → Thread
  | _, [] => h
  | i, v :: vs => setOs (setO h i v) (i + 1) vs

/-- The first `n` bytes of O. -/
def oBytes (h : Thread) (n : Nat) : List Byte := ((List.range ((n + 3) / 4)).flatMap (fun i => bytesOf 4 (oWord h i))).take n

/-- g1–g4 for a message (R200). -/
def loadMsg (h : Thread) (q : Nat) (own : Option Nat) (m : Msg) : Thread :=
  setG (setG (setG (setG { h with msg := m, own := own, fate := .held, queue := q } 1 m.hdr.payLen) 2 (m.hdr.src % 2 ^ 32))
    3 (place 16 16 m.hdr.stepTag + place 0 4 (m.hdr.src >>> 32))) 4 q

/-! ### Words of the store and operation fields (R201) -/

/-- OP of an operation word. -/
def opOf (w : Nat) : Nat := fieldNat w 27 5
/-- Field A. -/
def opA (w : Nat) : Nat := fieldNat w 23 4
/-- Field B. -/
def opB (w : Nat) : Nat := fieldNat w 19 4
/-- Field C. -/
def opC (w : Nat) : Nat := fieldNat w 15 4
/-- IMM. -/
def opImm (w : Nat) : Nat := fieldNat w 0 15
/-- s(IMM), modulo 2³². -/
def opSImm (w : Nat) : Nat := patternOf 32 (signedOf 15 (opImm w))

/-- The operation at a thread's place. -/
def opWord (s : State) (t : Nat) (h : Thread) : Nat := hsWord s t (h.base + h.start + h.pc)

/-- The thread and its next operation, when it can perform one (R200, R369, R483). -/
def ready (s : State) (t n : Nat) : Option (Thread × Nat) :=
  let h := threadOf s t n
  if h.busy && h.wait == .none && h.fate != .reset && mayRun s t h.ctx then some (h, opWord s t h) else none

/-- A handler fault (R202): a program fault with the operation index, and the handler stops; its
message stays unreleased. -/
def handlerFault (s : State) (t n : Nat) (code : Nat := 0) : State :=
  let h := threadOf s t n
  programFault (setThread s t n { h with wait := .stopped }) t 4 h.ctx 0x050C h.queue [h.pc, code]

/-- The thread becomes free. -/
def endThread (s : State) (t n : Nat) : State := updBusy (setThread s t n idleThread) t

/-- A thread that moves to operation `pc`; past its last operation it faults (R202), and where RESET
discarded its message it ends (R182). -/
def goTo (s : State) (t n : Nat) (h : Thread) (pc : Nat) : State :=
  let s1 := progress (setThread s t n { h with pc := pc }) t h.ctx
  if h.fate = .reset then endThread s1 t n
  else if h.count < pc then handlerFault s1 t n else s1

/-- An operation that ends with a new thread state and moves to the next one. -/
def next (s : State) (t n : Nat) (h : Thread) : State := goTo s t n h (h.pc + 1)

/-- A handler operation performed by thread `n`, when that is its next operation. -/
def onOp (s : State) (t n op : Nat) (f : State → Thread → Nat → State) : State :=
  match ready s t n with
  | some (h, w) => if opOf w = op then f s h w else s
  | none => s

/-! ### Dispatch (R194, R197) -/

/-- A thread starts a handler; HANDLERS_RUN and THREADS_BUSY follow. -/
def startThread (s : State) (t n : Nat) (h : Thread) : State :=
  updBusy (ctlCount (setThread s t n h) t 4 1) t

/-- A fresh thread at a handler entry (R200). -/
def freshThread (s : State) (c : Nat) (e : Nat × Nat × Nat) : Thread :=
  { idleThread with busy := true, ctx := c, base := e.1, start := e.2.1, count := e.2.2, since := now s }

/-- Handler 0x3FF started for a refused send (R194). -/
def startNack (s : State) (n : Nat) (j : NackJob) : State :=
  let s1 := { s with q := { s.q with nacks := s.q.nacks.erase j } }
  match handlerEntry s1 j.tile j.hdr.context 0x3FF with
  | none => report s1 (tilePage j.tile 4) 0x050A { queue := j.queue, ctx := some j.hdr.context, detail := [j.cause, j.hdr.dst] }
  | some e =>
    let m : Msg := { hdr := { j.hdr with payLen := 24 }, pay := wordBytes (hdrWords j.hdr) }
    let h := { freshThread s1 j.hdr.context e with queue := j.queue, nack := true, msg := m }
    startThread s1 j.tile n (setG (setG (setG (setG h 1 24) 2 (j.hdr.dst % 2 ^ 32))
      3 (place 16 16 j.hdr.stepTag + place 0 4 (j.hdr.dst >>> 32))) 4 j.cause)

/-- A DISPATCH queue is eligible (R197). -/
def eligible (s : State) (t q : Nat) : Bool :=
  !qRead s t q && qOcc s t q != 0 && (threadsOn s t q).isEmpty && mayRun s t (qOwner s t q)
    && !heldBySet s t (qOwner s t q)

/-- The queue that follows the one dispatched last, among the eligible ones. -/
def nextQueue (s : State) (t : Nat) : Option Nat :=
  let l := ((liveQueues s).filter (fun x => x.1 == t && eligible s t x.2)).map Prod.snd
  let last := rdF s (qctl t 0x100) 0 8
  (List.range 256).findSome? (fun i => let q := (last + 1 + i) % 256; if l.contains q then some q else none)

/-- The start of the handler entered at `e`, or the answer that the message names none. -/
def dispatchEntry (s : State) (t n q c : Nat) (m : Msg) (e : Option (Nat × Nat × Nat)) : State :=
  match e with
  | none => report (qCount (release s t q) t q 2 1) (tilePage t 4) 0x0506 { queue := q, ctx := some c }
  | some e => startThread s t n (loadMsg (freshThread s c e) q (some q) m)

/-- The dispatch of the message at the head, where it can be read now. -/
def dispatchHead (s : State) (t n q : Nat) (h : Option (Msg × State)) : State :=
  match h with
  | none => awaitHead s t q
  | some (m, s1) =>
    let s2 := wrF s1 (qctl t 0x100) 0 8 q
    dispatchEntry s2 t n q (qOwner s t q) m (handlerEntry s2 t (qOwner s t q) m.hdr.handler)

/-- The message of queue `q` dispatched to thread `n`, or released when it names no valid handler (R197). -/
def dispatchQueue (s : State) (t n q : Nat) : State :=
  if !qSound s t q then queueGuard s t q else dispatchHead s t n q (headMsg s t q)

/-- Meaning of HANDLER_DISPATCH (R197): a free thread takes a refused send first, else the next
eligible queue. -/
def execHandlerDispatch (t : TileId) (s : State) : Host.Outcome State Fault Refusal :=
  .next (match (List.range 4).find? (fun n => !(threadOf s t n).busy) with
    | none => s
    | some n =>
      match s.q.nacks.find? (fun j => j.tile == t.val && mayRun s t j.hdr.context) with
      | some j => startNack s n j
      | none =>
        match nextQueue s t with
        | some q => dispatchQueue s t n q
        | none => s)

/-! ### Ends and releases -/

/-- P is released when a queue holds it. -/
def releaseP (s : State) (t : Nat) (h : Thread) : State :=
  match h.own with
  | some q => if h.fate = .held then release s t q else s
  | none => s

/-- END performed by a thread that reaches it (R201). -/
def endOp (s : State) (t n : Nat) : State :=
  onOp s t n 0x00 (fun u h _ => endThread (releaseP (progress u t h.ctx) t h) t n)

/-- Meaning of END (R201). -/
def execEnd (t : TileId) (n : Fin 4) (s : State) : Host.Outcome State Fault Refusal := .next (endOp s t n)

/-! ### Arithmetic and logic -/

/-- An operation that only writes g(A). -/
def aluOp (s : State) (t n op : Nat) (f : Thread → Nat → Nat) : State :=
  onOp s t n op (fun u h w => next u t n (setG h (opA w) (f h w)))

/-- Meaning of LI (R201). -/
def execLi (t : TileId) (n : Fin 4) (s : State) : Host.Outcome State Fault Refusal :=
  .next (aluOp s t n 0x01 (fun _ w => opSImm w))

/-- Meaning of LUI (R201). -/
def execLui (t : TileId) (n : Fin 4) (s : State) : Host.Outcome State Fault Refusal :=
  .next (aluOp s t n 0x02 (fun h w => place 15 17 (fieldNat w 0 17) + gReg h (opA w) % 2 ^ 15))

/-- Meaning of ADD (R201). -/
def execAdd (t : TileId) (n : Fin 4) (s : State) : Host.Outcome State Fault Refusal :=
  .next (aluOp s t n 0x03 (fun h w => gReg h (opB w) + gReg h (opC w)))

/-- Meaning of SUB (R201). -/
def execSub (t : TileId) (n : Fin 4) (s : State) : Host.Outcome State Fault Refusal :=
  .next (aluOp s t n 0x04 (fun h w => gReg h (opB w) + 2 ^ 32 - gReg h (opC w)))

/-- Meaning of AND (R201). -/
def execAnd (t : TileId) (n : Fin 4) (s : State) : Host.Outcome State Fault Refusal :=
  .next (aluOp s t n 0x05 (fun h w => gReg h (opB w) &&& gReg h (opC w)))

/-- Meaning of OR (R201). -/
def execOr (t : TileId) (n : Fin 4) (s : State) : Host.Outcome State Fault Refusal :=
  .next (aluOp s t n 0x06 (fun h w => gReg h (opB w) ||| gReg h (opC w)))

/-- Meaning of XOR (R201). -/
def execXor (t : TileId) (n : Fin 4) (s : State) : Host.Outcome State Fault Refusal :=
  .next (aluOp s t n 0x07 (fun h w => gReg h (opB w) ^^^ gReg h (opC w)))

/-- Meaning of SHLI (R201). -/
def execShli (t : TileId) (n : Fin 4) (s : State) : Host.Outcome State Fault Refusal :=
  .next (aluOp s t n 0x08 (fun h w => gReg h (opB w) <<< (opImm w % 32)))

/-- Meaning of SHRI (R201). -/
def execShri (t : TileId) (n : Fin 4) (s : State) : Host.Outcome State Fault Refusal :=
  .next (aluOp s t n 0x09 (fun h w => gReg h (opB w) >>> (opImm w % 32)))

/-- Meaning of ADDI (R201). -/
def execAddi (t : TileId) (n : Fin 4) (s : State) : Host.Outcome State Fault Refusal :=
  .next (aluOp s t n 0x0A (fun h w => gReg h (opB w) + opSImm w))

/-- Meaning of MUL (R201). -/
def execMul (t : TileId) (n : Fin 4) (s : State) : Host.Outcome State Fault Refusal :=
  .next (aluOp s t n 0x0B (fun h w => gReg h (opB w) * gReg h (opC w)))

/-- Meaning of STEP (R201). -/
def execStep (t : TileId) (n : Fin 4) (s : State) : Host.Outcome State Fault Refusal :=
  .next (aluOp s t n 0x1E (fun h _ => stepOf s h.ctx % 2 ^ 32))

/-! ### P and O -/

/-- Meaning of LDP (R201, R202). -/
def execLdp (t : TileId) (n : Fin 4) (s : State) : Host.Outcome State Fault Refusal :=
  .next (onOp s t n 0x0C (fun u h w =>
    let i := gReg h (opB w) + opImm w
    if i < pWords h then next u t n (setG h (opA w) (pWord h i)) else handlerFault u t n))

/-- Meaning of STO (R201, R202). -/
def execSto (t : TileId) (n : Fin 4) (s : State) : Host.Outcome State Fault Refusal :=
  .next (onOp s t n 0x0D (fun u h w =>
    let i := gReg h (opB w) + opImm w
    if i < 250 then next u t n (setO h i (gReg h (opA w))) else handlerFault u t n))

/-- Meaning of MOVPO (R201, R202). -/
def execMovpo (t : TileId) (n : Fin 4) (s : State) : Host.Outcome State Fault Refusal :=
  .next (onOp s t n 0x16 (fun u h w =>
    let k := opImm w
    let src := gReg h (opA w)
    let dst := gReg h (opB w)
    if 1 ≤ k && k ≤ 250 && src + k ≤ pWords h && dst + k ≤ 250 then
      next u t n (setOs h dst ((List.range k).map (fun i => pWord h (src + i))))
    else handlerFault u t n))

/-! ### Branches -/

/-- A branch: the next IMM operations are skipped when taken; its target must be an operation of the
handler, and IMM non-zero (R201, R202). -/
def branchOp (s : State) (t n op : Nat) (taken : Nat → Nat → Bool) : State :=
  onOp s t n op (fun u h w =>
    let k := opImm w
    if k = 0 || h.count < h.pc + 1 + k then handlerFault u t n
    else if taken (gReg h (opA w)) (gReg h (opB w)) then goTo u t n h (h.pc + 1 + k) else next u t n h)

/-- Meaning of BEQ (R201). -/
def execBeq (t : TileId) (n : Fin 4) (s : State) : Host.Outcome State Fault Refusal :=
  .next (branchOp s t n 0x17 (fun a b => a == b))

/-- Meaning of BNE (R201). -/
def execBne (t : TileId) (n : Fin 4) (s : State) : Host.Outcome State Fault Refusal :=
  .next (branchOp s t n 0x18 (fun a b => a != b))

/-- Meaning of BLTU (R201). -/
def execBltu (t : TileId) (n : Fin 4) (s : State) : Host.Outcome State Fault Refusal :=
  .next (branchOp s t n 0x19 (fun a b => decide (a < b)))

/-! ### Scratchpad operations -/

/-- Words that an operation's access covers: one, or the slot of a tagged region (R162). -/
def opWords (s : State) (t : Nat) (h : Thread) (w : Nat) : Nat :=
  if opOf w < 0x12 then 1
  else
    match slotOfCtx s t h.ctx with
    | some r => ((rgnAt s t r (opC w)).map (fun g => g.slotWords)).getD 1
    | none => 1

/-- The scratchpad operation of an operation word (R201). -/
def opAccess (w : Nat) : SpOp :=
  match opOf w with
  | 0x0E => .rd | 0x0F => .wr | 0x10 => .aadd | 0x11 => .cas | 0x12 => .wrFill
  | 0x13 => .rdTake | 0x14 => .rdFull | _ => .clrTag

/-- Data that an operation writes (R201). -/
def opData (s : State) (t : Nat) (h : Thread) (w : Nat) : List (Option Byte) :=
  let a := opA w
  let ws := match opOf w with
    | 0x0F => [gReg h a]
    | 0x10 => [gReg h a]
    | 0x11 => [gReg h a, gReg h (a + 1)]
    | 0x12 => (List.range (opWords s t h w)).map (fun i => pWord h (gReg h a + i))
    | _ => []
  (wordBytes ws).map some

/-- Operand faults of the scratchpad operations (R202). -/
def opBad (s : State) (t : Nat) (h : Thread) (w : Nat) : Bool :=
  let i := gReg h (opA w)
  let k := opWords s t h w
  match opOf w with
  | 0x11 => opA w == 15
  | 0x12 => pWords h < i + k
  | 0x13 => 250 < i + k
  | 0x14 => 250 < i + k
  | _ => false

/-- The thread after an access delivered its data (R201); withheld words read as 0 (R150). -/
def accessDone (s : State) (t n : Nat) (data : List (Option Byte)) : State :=
  let h := { threadOf s t n with wait := .none }
  let w := opWord s t h
  let ws := bytesWords ((data.length + 3) / 4)
    ((List.range data.length).map (fun i =>
      if (((data.drop (i / 4 * 4)).take 4).any (fun o => o.isNone)) then (0 : Byte) else ((data.getD i none).getD 0)))
  match opOf w with
  | 0x0E | 0x10 | 0x11 => next s t n (setG h (opA w) (ws.getD 0 0))
  | 0x13 | 0x14 => next s t n (setOs h (gReg h (opA w)) ws)
  | _ => next s t n h

/-- A scratchpad operation of a handler: relative form, checked, performed or waited for (R158, R159,
R201, R202). -/
def padOp (s : State) (t n op : Nat) : State :=
  onOp s t n op (fun u h w =>
    if opBad u t h w then handlerFault u t n
    else
      let k := opWords u t h w
      let off := gReg h (opB w) + opImm w
      match relative u t h.ctx (opC w) off k with
      | none =>
        let code := relativeCode u t h.ctx (opC w) off k (opAccess w) (.thread t n)
        handlerFault (accessFailed u (wordAcc t off k (opAccess w) (.thread t n) h.ctx []) code) t n code
      | some x =>
        let r := access u (wordAcc t x k (opAccess w) (.thread t n) h.ctx (opData u t h w))
        match r.1 with
        | .ok d => accessDone r.2 t n d
        | .waiting => setThread r.2 t n { h with wait := .tag, since := now u }
        | .failed code => handlerFault r.2 t n code)

/-- Meaning of LD (R201). -/
def execLd (t : TileId) (n : Fin 4) (s : State) : Host.Outcome State Fault Refusal := .next (padOp s t n 0x0E)

/-- Meaning of ST (R201). -/
def execSt (t : TileId) (n : Fin 4) (s : State) : Host.Outcome State Fault Refusal := .next (padOp s t n 0x0F)

/-- Meaning of AADD (R201). -/
def execAadd (t : TileId) (n : Fin 4) (s : State) : Host.Outcome State Fault Refusal := .next (padOp s t n 0x10)

/-- Meaning of CAS (R201). -/
def execCas (t : TileId) (n : Fin 4) (s : State) : Host.Outcome State Fault Refusal := .next (padOp s t n 0x11)

/-- Meaning of FILL (R201). -/
def execFill (t : TileId) (n : Fin 4) (s : State) : Host.Outcome State Fault Refusal := .next (padOp s t n 0x12)

/-- Meaning of TAKE (R201). -/
def execTake (t : TileId) (n : Fin 4) (s : State) : Host.Outcome State Fault Refusal := .next (padOp s t n 0x13)

/-- Meaning of PEEK (R201). -/
def execPeek (t : TileId) (n : Fin 4) (s : State) : Host.Outcome State Fault Refusal := .next (padOp s t n 0x14)

/-- Meaning of CLRT (R201). -/
def execClrt (t : TileId) (n : Fin 4) (s : State) : Host.Outcome State Fault Refusal := .next (padOp s t n 0x15)

/-! ### Messages and grants -/

/-- A message sent by a handler: the thread goes on, or waits for credit (R187, R201). -/
def handlerSend (s : State) (t n : Nat) (h : Thread) (dst handler vc len : Nat) : State :=
  if 1000 < len || handler = 0x3FF then handlerFault s t n
  else
    let r := trySend s t h.queue (.thread n) (buildMsg s t h.queue h.ctx dst handler vc (oBytes h len))
    match r.1 with
    | .wait => next r.2 t n { h with wait := .credit, since := now s }
    | _ => next r.2 t n h

/-- Meaning of SEND (R201, R202). -/
def execSend (t : TileId) (n : Fin 4) (s : State) : Host.Outcome State Fault Refusal :=
  .next (onOp s t n 0x1A (fun u h w =>
    if opA w = 15 then handlerFault u t n
    else
      let x := gReg h (opA w + 1)
      handlerSend u t n h (gReg h (opA w) + (fieldNat x 0 4 <<< 32)) (fieldNat x 4 10) (if x.testBit 14 then 3 else 2)
        (gReg h (opC w))))

/-- Meaning of REPLY (R201, R202). -/
def execReply (t : TileId) (n : Fin 4) (s : State) : Host.Outcome State Fault Refusal :=
  .next (onOp s t n 0x1B (fun u h w =>
    handlerSend u t n h h.msg.hdr.src (gReg h (opB w) % 1024) 2 (gReg h (opC w))))

/-- Meaning of GRANT (R186, R201). -/
def execGrant (t : TileId) (n : Fin 4) (s : State) : Host.Outcome State Fault Refusal :=
  .next (onOp s t n 0x1C (fun u h w =>
    let x := gReg h (opA w)
    let k := gReg h (opB w)
    let r := grant u t (opImm w % 256) (fieldNat x 13 15) (fieldNat x 0 13) k (some h.ctx)
    next r.2 t n (setG h (opB w) (if r.1 then k else 0))))

/-- A queue that a binding, a steering entry or a DMA channel reads (R196). -/
def unitReads (s : State) (t q : Nat) : Bool :=
  isTokenQueue s t q || (tileType t == .s && decide (q < 4))

/-- GET takes the message at HEAD of `q` as P when it is there and no other thread holds it. -/
def takeMessage (s : State) (t n q : Nat) : State :=
  if (threadsOn s t q).isEmpty then
    match headMsg s t q with
    | some (m, s1) =>
      let h := threadOf s1 t n
      next (endRead s1 t q) t n (loadMsg { h with wait := .none, served := h.queue :: h.served } q (some q) m)
    | none => beginRead (awaitHead s t q) t q
  else s

/-- GET performed by a thread that reaches it (R201, R202): P is released, then the thread takes or awaits the queue's
message. -/
def getOp (s : State) (t n : Nat) : State :=
  onOp s t n 0x1D (fun u h w =>
    let q := opImm w % 256
    if !qRead u t q || qOwner u t q != h.ctx || unitReads u t q then handlerFault u t n
    else
      let u1 := setThread (releaseP u t h) t n { h with own := none, wait := .message q, since := now u }
      takeMessage u1 t n q)

/-- Meaning of GET (R201, R202). -/
def execGet (t : TileId) (n : Fin 4) (s : State) : Host.Outcome State Fault Refusal := .next (getOp s t n)

/-- Meaning of MESSAGE_AVAILABLE (R196): a reader that waited on the queue has its message. -/
def execMessageAvailable (t : TileId) (q : QueueId) (s : State) : Host.Outcome State Fault Refusal :=
  .next (if qOcc s t q = 0 then s
    else
      match (List.range 4).find? (fun n => (threadOf s t n).busy && (threadOf s t n).wait == .message q && mayRun s t (threadOf s t n).ctx) with
      | some n => takeMessage s t n q
      | none => endRead s t q)

/-- A message or grant of a handler that has not reached its target, sent for the queue it serves or one that it served
before a GET; one on another device is past what this device can see (log entry 172, DESIGN CHOICE). -/
def inFlight (s : State) (t : Nat) (h : Thread) : Bool :=
  inTransit s (fun p => match p with
    | .msg m => (h.queue :: h.served).any (fun q => m.hdr.src == endpoint s t q) && m.hdr.context == h.ctx
    | .ctrl c => c.type == 0x01 && c.srcTile == t && c.srcDev == deviceId s && c.context == h.ctx
    | _ => false)

/-- Meaning of FENCE (R201): waits until the handler's earlier effects have been performed at their targets. -/
def execFence (t : TileId) (n : Fin 4) (s : State) : Host.Outcome State Fault Refusal :=
  .next (onOp s t n 0x1F (fun u h _ => if inFlight u t h then u else next u t n h))

end Sys2Proof.Machine
end

