-- ==== Sys2Proof/Machine/FlowRows.lean ====
section
/-! DEFINITION. Reconfiguration by draining (R126–R135): shadow checks, STOP, PROBE, COMMIT, CANCEL and
RELEASE, Hornbeam's probe rounds and limits, the placement of set images, queue-depth sampling
(R137) and the compatibility counters (R139, R500). -/

namespace Sys2Proof.Machine

/-! ### Shadow copies (R126, R129) -/

/-- SHADOW_BAD set or cleared. -/
def setShadowBad (s : State) (t : Nat) (b : Bool) : State := wrB s (dfReg t 0x100) 15 b

/-- SHADOW_BAD of a tile. -/
def shadowBad (s : State) (t : Nat) : Bool := rdB s (dfReg t 0x100) 15

/-- DF_STAT.STATE set. -/
def setDfState (s : State) (t v : Nat) : State := wrF s (dfReg t 0x100) 8 2 v

/-- The shadow copies of a tile are read-only (R126). -/
def shadowLocked (s : State) (t : Nat) : Bool := 2 ≤ dfState s t

/-- The check of a record for the tile's type (R85, R93). -/
def recCheck (t : Nat) (w : List Nat) : Option Nat :=
  match tileType t with
  | .t => tRecCheck w
  | .v => vRecCheck w
  | _ => none

/-- A refused record: not stored, SHADOW_BAD set and a record written (R85, R126). -/
def recRefused (s : State) (t slot code : Nat) : State :=
  report (setShadowBad s t true) (unitPage t) code { detail := [slot] }

/-- A record stored in a shadow slot after its check. -/
def storeRec (s : State) (t slot : Nat) (w : List Nat) : State :=
  match recCheck t w with
  | some code => recRefused s t slot code
  | none =>
    each (List.range 8) (fun u j =>
      wr u (dfReg t (slotOff false slot + 8 * j)) (BitVec.ofNat 64 (w.getD (2 * j) 0 % 2 ^ 32 + ((w.getD (2 * j + 1) 0 % 2 ^ 32) <<< 32)))) s

/-- The fold check of R129 fails. -/
def foldBad (s : State) (t : Nat) : Bool :=
  let c := foldCtrl s t false
  64 < c.1 || (0 < c.1 && c.1 ≤ c.2)
    || (List.range (min c.1 64)).any (fun i =>
      let e := foldEntry s t false i
      e.2 == 0 || !(bindOf s t false e.1).valid)

/-- A steering entry breaks R129. -/
def steerBad (s : State) (t u : Nat) : Bool :=
  let e := steerOf s t false u
  5 < e.op
    || ((e.op == 1 || e.op == 2 || e.op == 4 || e.op == 5) && e.width == 0) || (e.op == 3 && e.width != 0)
    || (e.csrc && (e.op == 4 || e.op == 5 || e.op == 0)) || (e.csrc && e.trip == 0)
    || e.outputs.any (fun o => !o.1)
    || (e.op != 0 && e.queues.any (fun q => qOwner s t q != e.ctx))

/-- The checks of STOP (R129). -/
def stopChecks (s : State) (t : Nat) : State :=
  let s1 := if (tileType t == .t || tileType t == .v) && foldBad s t
    then report (setShadowBad s t true) (dfPage t) 0x0302 {} else s
  if hasSteer t && (List.range 8).any (steerBad s t) then report (setShadowBad s1 t true) (dfPage t) 0x0303 {} else s1

/-! ### Tokens held in queues -/

/-- Messages of a queue from a pointer on with the place of each, at most `n` records, as reads of the ring decode them. -/
def ringWalk (t q : Nat) : Nat → Nat → State → List (Nat × Msg) × State
  | 0, _, s => ([], s)
  | n + 1, p, s =>
    if p = qTail s t q then ([], s)
    else
      let h := hdrAt s t q p
      let next := (p + hdrSlots h) % (2 * qSize s t q)
      if h.pad then ringWalk t q n next s
      else
        let r := ringRead s t (slotAddr s t q p) (64 * hdrSlots h) (qOwner s t q)
        let w := ringWalk t q n next r.2
        ((p, msgOf r.1) :: w.1, w.2)

/-- The messages that a queue holds, with their places, and the state after the reads. -/
def msgsAt (s : State) (t q : Nat) : List (Nat × Msg) × State := ringWalk t q (qSize s t q) (qHead s t q) s

/-- Messages that a queue holds. -/
def msgsOf (s : State) (t q : Nat) : List Msg := (msgsAt s t q).1.map Prod.snd

/-- Token queues of a tile. -/
def tokenQueues (s : State) (t : Nat) : List Nat :=
  ((validSlots s t).flatMap (slotQueues s t true)
    ++ (if hasSteer t then (List.range 8).flatMap (fun u => (steerOf s t true u).queues) else [])).eraseDups

/-- A token removed by a flush: counted, and its slots returned (R128, R188). -/
def flushed (s : State) (t q : Nat) (m : Msg) : State :=
  inject (incWrap s (dfReg t 0x0A8) 1) t (.ctrl (returnPkt s t q m.hdr))

/-- A flush removes the tokens of the set that the tile holds (R128); others are removed when they reach the head (R115). -/
def flushGone (s : State) (t : Nat) (m : Msg) : Bool :=
  holdsSet s t && (msgToken m).set == dfSet s t && !isTarget s t (msgToken m)

/-- Every token of the set removed from a queue (R128); the others move up to HEAD in their order, as they are stored. A
queue whose lines the companion holds is flushed as its tokens reach HEAD (R295). -/
def flushQueue (s : State) (t q : Nat) : State :=
  let r := msgsAt s t q
  let gone := r.1.filter (fun x => flushGone s t x.2)
  if qOcc s t q = 0 || headBusy s t q || gone.isEmpty then s
  else
    let keep := (r.1.filter (fun x => !flushGone s t x.2)).map (fun x => (x.2, ringRaw s (slotAddr s t q x.1) (64 * hdrSlots x.2.hdr)))
    let s1 := each keep (fun u x => ringMove u t q x.1 x.2) (wrG r.2 (qdReg t q 3) (qHead s t q))
    drainDone (progress (each gone (fun u x => flushed u t q x.2) s1) t (qOwner s t q)) t q

/-- Senders of the dataflow units. -/
def flowSender : Sender → Bool
  | .act => true
  | .steer _ => true
  | _ => false

/-- The state FLUSHING entered (R128): activations abandoned, tokens removed (log entry 37, DEDUCED). -/
def enterFlush (s : State) (t : Nat) : State :=
  let s1 := setDfState s t 3
  let s2 := if (actOf s1 t).on then abandonAct s1 t else s1
  let s3 := dropSends (endStalls s2 t none) (fun w => w.unit == t && flowSender w.sender)
  each (tokenQueues s3 t) (fun u q => flushQueue (endRead u t q) t q) s3

/-! ### STOP, PROBE, COMMIT, CANCEL, RELEASE (R127, R128) -/

/-- SET of a command packet (R213). -/
def cmdSet (p : Ctrl) : Nat := fieldNat (p.words.getD 0 0) 16 8
/-- EPOCH of a command packet. -/
def cmdEpoch (p : Ctrl) : Nat := fieldNat (p.words.getD 0 0) 12 2
/-- MODE of a STOP: FLUSH. -/
def cmdFlush (p : Ctrl) : Bool := (p.words.getD 0 0).testBit 31

/-- The STOP in progress of a tile set. -/
def setStop (s : State) (t : Nat) (x : StopState) : State :=
  { s with flow := { s.flow with stops := mapPut (fun _ => noStop) s.flow.stops t x } }

/-- STOP at a tile (R128). -/
def stopAt (s : State) (t : Nat) (p : Ctrl) : State :=
  let st := dfState s t
  if !hasFlow t then s
  else if st < 2 then
    let s1 := setStop s t { set := cmdSet p, epoch := cmdEpoch p, flush := cmdFlush p, held := st == 1 }
    let s2 := stopChecks (setDfState s1 t 2) t
    if cmdFlush p then enterFlush s2 t else s2
  else if st = 2 && cmdFlush p then
    enterFlush (setStop s t { stopOf s t with set := cmdSet p, epoch := cmdEpoch p, flush := true }) t
  else s

/-- Meaning of STOP (R128). -/
def execStop (t : TileId) (p : Ctrl) (s : State) : Host.Outcome State Fault Refusal :=
  .next (match takeEjected s t (.ctrl p) with
    | some u => if p.type = 0x06 then stopAt u t p else s
    | none => s)

/-- A DMA descriptor of one of these contexts is in progress on a tile. -/
def dmaBusy (s : State) (t : Nat) (cs : List Nat) : Bool :=
  (List.range 4).any (fun ch =>
    match mapFind (t * 4 + ch) s.flow.chans with
    | some c => (match c.cur with | some d => cs.contains d.ctx | none => false)
    | none => false)

/-- A firing or activation of the tile has emitted a token that its router has not yet counted in INJ (R123, R130). -/
def emitting (s : State) (t : Nat) : Bool :=
  s.net.inject.any (fun e => e.1 == t && (match e.2 with | .msg m => countsForSet s t m | _ => false))
    || s.q.sends.any (fun w => w.unit == t && flowSender w.sender)

/-- A tile is idle (R130); a fenced tile is reported idle. -/
def tileIdle (s : State) (t : Nat) : Bool :=
  tileFenced s t ||
    (let cs := setCtxs s t
     !emitting s t && !((actOf s t).on && cs.contains (actOf s t).ctx) && !dmaBusy s t cs
      && !(tokenQueues s t).any (fun q => (msgsOf s t q).any (fun m => isCurrent s t (msgToken m))))

/-- Words of a PROBE_REPLY (R212). -/
def probeWords (s : State) (t : Nat) : List Nat :=
  let inj := rdF s (tileReg t 3 0x0A8) 0 48
  let dlv := rdF s (tileReg t 3 0x0B0) 0 48
  [bit01 (!tileIdle s t), bit01 (shadowBad s t), inj % 2 ^ 32, inj >>> 32, dlv % 2 ^ 32, dlv >>> 32]

/-- An up-tree reply to a packet of a group. -/
def flowReply (s : State) (t : Nat) (p : Ctrl) (type : Nat) (words : List Nat) : State :=
  inject s t (.ctrl (toGroup (mkCtrl s type t 0 p.round words) p.group))

/-- Meaning of PROBE (R131). -/
def execProbe (t : TileId) (p : Ctrl) (s : State) : Host.Outcome State Fault Refusal :=
  .next (match takeEjected s t (.ctrl p) with
    | some u => if p.type = 0x07 then (if 2 ≤ dfState u t then flowReply u t p 0x08 (probeWords u t) else u) else s
    | none => s)

/-- Registers copied from one area of a dataflow page to another. -/
def copyRegs (s : State) (t src dst n : Nat) : State :=
  each (List.range n) (fun u i => wr u (dfReg t (dst + 8 * i)) (rd u (dfReg t (src + 8 * i)))) s

/-- Registers of an area cleared. -/
def zeroRegs (s : State) (t dst n : Nat) : State := each (List.range n) (fun u i => wr u (dfReg t (dst + 8 * i)) 0) s

/-- Steering counters of a tile restart (R125, R128). -/
def restartSteer (s : State) (t : Nat) : State :=
  { s with flow := { s.flow with steerCount := mapClear s.flow.steerCount (t * 8) (t * 8 + 8) } }

/-- COMMIT at a tile (R128): the shadow copies become active. -/
def commitAt (s : State) (t : Nat) (p : Ctrl) : State :=
  let ty := tileType t
  let s1 := if ty == .t || ty == .v then
      copyRegs (wr (copyRegs s t 0x800 0xC00 0x80) (dfReg t 0x118) (rd s (dfReg t 0x110))) t 0x200 0x300 32 else s
  let s2 := if hasSteer t then copyRegs s1 t 0x400 0x600 64 else s1
  let s3 := wrF (wrF (setShadowBad (setDfState s2 t 1) t false) (dfReg t 0x100) 16 8 (cmdSet p)) (dfReg t 0x100) 12 2 (cmdEpoch p)
  let s4 := if ty == .t || ty == .v then setFold s3 t 0 0 else s3
  let s5 := passTorn (setStop s4 t noStop) t
  incWrap (restartSteer s5 t) (dfReg t 0x0B0) 1

/-- CANCEL at a tile (R128). -/
def cancelAt (s : State) (t : Nat) : State :=
  setStop (setShadowBad (setDfState s t (if (stopOf s t).held then 1 else 0)) t false) t noStop

/-- RELEASE at a tile (R128). -/
def releaseAt (s : State) (t : Nat) : State :=
  let ty := tileType t
  let s1 := if ty == .t || ty == .v then zeroRegs (zeroRegs (zeroRegs s t 0xC00 0x80) t 0x300 32) t 0x118 1 else s
  let s2 := if hasSteer t then zeroRegs s1 t 0x600 64 else s1
  let s3 := wrF (wrF (setDfState s2 t 0) (dfReg t 0x100) 16 8 0) (dfReg t 0x100) 12 2 0
  setStop s3 t noStop

/-- A command packet at a tile that drains or flushes; ignored in IDLE and RUN (R128). -/
def onDraining (s : State) (t type : Nat) (p : Ctrl) (f : State → State) : State :=
  match takeEjected s t (.ctrl p) with
  | some u => if p.type = type then (if hasFlow t && 2 ≤ dfState u t then f u else u) else s
  | none => s

/-- Meaning of COMMIT (R128). -/
def execCommit (t : TileId) (p : Ctrl) (s : State) : Host.Outcome State Fault Refusal :=
  .next (onDraining s t 0x09 p (fun u => commitAt u t p))

/-- Meaning of CANCEL (R128). -/
def execCancel (t : TileId) (p : Ctrl) (s : State) : Host.Outcome State Fault Refusal :=
  .next (onDraining s t 0x0A p (fun u => cancelAt u t))

/-- Meaning of RELEASE (R128). -/
def execRelease (t : TileId) (p : Ctrl) (s : State) : Host.Outcome State Fault Refusal :=
  .next (onDraining s t 0x0B p (fun u => releaseAt u t))

/-! ### Hornbeam's side (R131, R132) -/

/-- A command of R127 sent by Hornbeam to the group of a set (R213). -/
def flowCmd (s : State) (type group set epoch round : Nat) (flush : Bool) : State :=
  hbInject s (.ctrl (toGroup (mkCtrl s type 1 0 round
    [if type = 0x07 then 0 else place 31 1 (bit01 flush) + place 16 8 set + place 12 2 epoch]) group))

/-- The drain of a set, if one is in progress. -/
def drainOf (s : State) (set : Nat) : Option Drain := s.flow.drains.find? (fun d => d.set == set)

/-- The drain of a set replaced or ended. -/
def setDrain (s : State) (set : Nat) (d : Option Drain) : State :=
  let l := s.flow.drains.filter (fun x => x.set != set)
  { s with flow := { s.flow with drains := match d with | some x => l ++ [x] | none => l } }

/-- Where a set is placed. -/
def noPlaced : Placed := { image := 0, group := 0, tiles := [], epoch := 0, flush := false, limit := 100, ctxs := [] }
/-- The placement of a set. -/
def placedOf (s : State) (set : Nat) : Placed := mapGet (fun _ => noPlaced) s.flow.sets set
/-- The placement of a set written. -/
def setPlaced (s : State) (set : Nat) (p : Placed) : State :=
  { s with flow := { s.flow with sets := mapPut (fun _ => noPlaced) s.flow.sets set p } }

/-- The sums of a combined PROBE_REPLY: non-idle tiles, SHADOW_BAD tiles, ΣINJ, ΣDLV. -/
def probeSums (p : Ctrl) : Nat × Nat × Nat × Nat :=
  let w (i : Nat) := p.words.getD i 0
  (w 0, w 1, w 2 + (w 3 <<< 32), w 4 + (w 5 <<< 32))

/-- The tiles of a set that its new placement leaves (R135). -/
def leftTiles (s : State) (set : Nat) (p : List Nat) : List Nat :=
  (placedOf s set).tiles.filter (fun t => !p.contains t && !tileFenced s t && holdsSet s t && dfSet s t == set)

/-- RELEASE sent to one tile that a set leaves (log entry 173, DESIGN CHOICE). -/
def releaseTile (s : State) (set epoch t : Nat) : State :=
  hbInject s (.ctrl (unicast (mkCtrl s 0x0B 1 0 0 [place 16 8 set + place 12 2 epoch]) (deviceId s) t))

/-- Hornbeam commits a set (R131): tiles that it leaves are released, and the new placement stands; a context that waits at
its step boundary for this placement is torn down, before it is opened there (R374, R381). -/
def commitSet (s : State) (d : Drain) : State :=
  let s1 := each (leftTiles s d.set d.next.tiles) (fun u t => releaseTile u d.set d.epoch t) s
  let s2 := setPlaced (setDrain (flowCmd s1 0x09 d.group d.set d.epoch 0 false) d.set none) d.set { d.next with epoch := d.epoch }
  each (d.next.ctxs.filter (fun c => csState s c == 5 && tdState s c == 0)) requestTeardown s2

/-- A probe round's result (R131): CANCEL on SHADOW_BAD, COMMIT at the second equal quiescent round. -/
def probeResult (s : State) (d : Drain) (p : Ctrl) : State :=
  let x := probeSums p
  if x.2.1 != 0 then
    report (setDrain (flowCmd s 0x0A d.group d.set d.epoch 0 false) d.set none) (devPage 7) 0x0301 { detail := [d.set, x.2.1] }
  else if x.1 = 0 && x.2.2.1 = x.2.2.2 then
    if d.lastInj = some x.2.2.1 then commitSet s d
    else setDrain s d.set (some { d with lastInj := some x.2.2.1, quiet := 1, heard := true })
  else setDrain s d.set (some { d with lastInj := none, quiet := 0, heard := true })

/-- A reply is that of the last PROBE of a drain, not yet judged (R131). -/
def answersProbe (d : Drain) (p : Ctrl) : Bool := p.type == 0x08 && p.group == d.group && !d.heard && p.round == (d.round - 1) % 256

/-- The next PROBE of a drain, one in each window of 1 µs after STOP (R131): a round whose PROBE was not answered breaks the
row of equal rounds. -/
def sendProbe (s : State) (d : Drain) : State :=
  let w := now s / 1000
  if d.round = w + 1 then s
  else
    let keep := if d.heard then d.lastInj else none
    flowCmd (setDrain s d.set (some { d with round := w + 1, heard := false, lastInj := keep, quiet := if d.heard then d.quiet else 0 }))
      0x07 d.group d.set d.epoch (w % 256) false

/-- Meaning of PROBE_ROUND (R131): the combined reply of the last round, when it has reached the root's
tile, is judged; while the drain goes on, Hornbeam sends the next PROBE (log entry 147, DEDUCED). -/
def execProbeRound (set : Fin 256) (root : TileId) (reply : Option Ctrl) (s : State) : Host.Outcome State Fault Refusal :=
  .next (match drainOf s set with
    | none => s
    | some d =>
      if d.hung then s else
      let s1 := match reply with
        | some p =>
          if answersProbe d p then
            (match takeEjected s root (.ctrl p) with
             | some u => probeResult u d p
             | none => s)
          else s
        | none => s
      match drainOf s1 set with
      | some e => sendProbe s1 e
      | none => s1)

/-- A drain has reached its limit (R132). -/
def drainExpired (s : State) (d : Drain) : Bool := d.tStop + d.limit * 1000 ≤ now s

/-- Meaning of FLUSH_TIMEOUT (R132): the tiles that still report non-idle are fenced, and the others are released so that
Hornbeam's SET_LOAD can place the set again (log entry 173, DESIGN CHOICE). -/
def execFlushTimeout (set : Fin 256) (s : State) : Host.Outcome State Fault Refusal :=
  .next (match drainOf s set with
    | none => s
    | some d =>
      if d.flush && drainExpired s d then
        let bad := d.tiles.filter (fun t => !tileIdle s t)
        let s1 := report s (devPage 7) 0x030A { detail := [d.set, bad.length] }
        setDrain (flowCmd (each bad (fun u t => fenceTile u t 0x030A) s1) 0x0B d.group d.set d.epoch 0 false) d.set none
      else s)

/-! ### Placing a set image (R134, R135) -/

/-- A set image's header: SET, MODE, limit, NCFG, NSTEER and whether VERSION is 1. -/
structure Image where
  ok : Bool
  set : Nat
  flush : Bool
  limit : Nat
  ncfg : Nat
  nsteer : Nat
  deriving DecidableEq, Repr

/-- The header of a set image. -/
def imageOf (s : State) (a : Nat) : Image :=
  let lim := natNow s (a + 4) 2
  { ok := natNow s a 2 == 1, set := natNow s (a + 2) 1, flush := natNow s (a + 3) 1 == 1
    limit := if lim = 0 then 100 else lim, ncfg := natNow s (a + 6) 2, nsteer := natNow s (a + 8) 2 }

/-- A configuration entry of an image: record words, binding, RANK and HOME. -/
def cfgEntry (s : State) (a i : Nat) : List Nat × Nat × Nat × Nat :=
  let b := a + 32 + 80 * i
  ((List.range 16).map (fun j => natNow s (b + 4 * j) 4), natNow s (b + 64) 8, natNow s (b + 72) 2, natNow s (b + 74) 2)

/-- A steering entry of an image: its eight registers and HOME. -/
def steerEntry (s : State) (a ncfg i : Nat) : List Nat × Nat :=
  let b := a + 32 + 80 * ncfg + 80 * i
  ((List.range 8).map (fun j => natNow s (b + 8 * j) 8), natNow s (b + 64) 2)

/-- An endpoint after Hornbeam's renumbering of queues: pairs of old and new endpoints (R135). -/
def renumEp (m : List (Nat × Nat)) (e : Nat) : Nat := ((m.find? (fun p => p.1 == e)).map Prod.snd).getD e

/-- A queue of a unit of HOME tile `h` after renumbering. -/
def renumQ (s : State) (m : List (Nat × Nat)) (h q : Nat) : Nat := epQueue (renumEp m (endpoint s h q))

/-- A record with its endpoints and queues renumbered (R135). -/
def renumRec (s : State) (m : List (Nat × Nat)) (h : Nat) (w : List Nat) : List Nat :=
  let ep := renumEp m (w.getD 8 0 + (fieldNat (w.getD 9 0) 0 4 <<< 32))
  let w1 := (w.set 8 (ep % 2 ^ 32)).set 9 (w.getD 9 0 / 16 * 16 + (ep >>> 32))
  match tileType h with
  | .v => w1.set 3 (w.getD 3 0 / 65536 * 65536 + renumQ s m h (fieldNat (w.getD 3 0) 8 8) * 256 + renumQ s m h (fieldNat (w.getD 3 0) 0 8))
  | _ => w1

/-- A binding with its trigger queue renumbered. -/
def renumBind (s : State) (m : List (Nat × Nat)) (h b : Nat) : Nat :=
  (setField (BitVec.ofNat 64 b) 8 8 (renumQ s m h (fieldNat b 8 8))).toNat

/-- A steering entry with its queues and endpoints renumbered. -/
def renumSteer (s : State) (m : List (Nat × Nat)) (h : Nat) (r : List Nat) : List Nat :=
  let q := r.getD 1 0
  let q' := (List.range 5).foldl (fun acc i => acc + (renumQ s m h (fieldNat q (8 * i) 8) <<< (8 * i))) 0
  let out (i : Nat) := let v := r.getD (2 + i) 0; v - v % 2 ^ 36 + renumEp m (v % 2 ^ 36)
  [r.getD 0 0, q', out 0, out 1, out 2, out 3]

/-- Operand-buffer extents of a T record in bytes (R81). -/
def tExtents (w : List Nat) : List (Nat × Nat) :=
  let r := tRecOf w
  match shapeOf r.aFmt r.bFmt with
  | some (_, _, ch) =>
    if r.op = 1 then
      [(4 * r.aBase, r.k / ch * r.m * chunkBytes r.aFmt), (4 * r.bBase, r.k / ch * r.n * chunkBytes r.bFmt)]
        ++ (if isMx r.aFmt then [(r.aScale, r.k / ch * r.m), (r.bScale, r.k / ch * r.n)] else [])
    else []
  | none => []

/-- Byte ranges that overlap. -/
def overlaps (a b : Nat × Nat) : Bool := a.1 < b.1 + b.2 && b.1 < a.1 + a.2

/-- Two T records may share a tile (R135). -/
def mayShare (v w : List Nat) : Bool :=
  !((tExtents v).any (fun x => (tExtents w).any (overlaps x)))
    && !((accRange (tRecOf v)).any (fun i => (accRange (tRecOf w)).contains i))

/-- A steering entry from its words. -/
def steerOfWords (r : List Nat) : Steer :=
  let c := r.getD 0 0
  { op := fieldNat c 61 3, width := fieldNat c 59 2, csrc := c.testBit 58, trip := fieldNat c 32 16, ctx := fieldNat c 24 8
    ctrlQ := fieldNat (r.getD 1 0) 32 8, inQ := (List.range 4).map (fun i => fieldNat (r.getD 1 0) (8 * i) 8), outs := [] }

/-- Input queues of a configuration of an image (R111, R119). -/
def cfgQueues (e : List Nat × Nat × Nat × Nat) : List Nat :=
  match tileType e.2.2.2 with
  | .t => [fieldNat e.2.1 8 8]
  | _ => let r := vRecOf e.1; if vBinary r.op then [r.inA, r.inB] else [r.inA]

/-- A placement of an image: for each configuration its tile and slot, for each steering entry its
tile and unit. -/
structure Placement where
  cfgs : List (Nat × Nat)
  steers : List (Nat × Nat)
  renum : List (Nat × Nat)
  deriving DecidableEq, Repr

/-- The tiles of a placement. -/
def Placement.tiles (p : Placement) : List Nat := (p.cfgs.map Prod.fst ++ p.steers.map Prod.fst).eraseDups

/-- Pattern class of R356 of a configuration record on a tile of a type: MMA by its wider operand. -/
def patternClass (ty : TileType) (w : List Nat) : Nat :=
  match ty with
  | .t =>
    let b := max (codeBits (tRecOf w).aFmt) (codeBits (tRecOf w).bFmt)
    if b = 4 then 1 else if b ≤ 8 then 2 else if b = 16 then 3 else 4
  | .v => if 0x10 ≤ (vRecOf w).op && (vRecOf w).op ≤ 0x15 then 5 else 6
  | _ => 9

/-- A conditional fence in force keeps work of a pattern class off a tile (R355, R356). -/
def keptOff (s : State) (t cls : Nat) : Bool :=
  patternBars s t cls || s.commit.condFences.any (fun e => entryCovers e t && fieldNat e 56 4 != 3 && s.commit.inForce.contains e)

/-- The classes of the configurations and steering units of a context that a tile holds. -/
def workClasses (s : State) (t c : Nat) : List Nat :=
  ((validSlots s t).filter (fun n => (bindOf s t true n).ctx == c)).map (fun n => patternClass (tileType t) (slotWords s t true n))
    ++ (if hasSteer t && (List.range 8).any (fun u => (steerOf s t true u).op != 0 && (steerOf s t true u).ctx == c) then [9] else [])

/-- The tiles on which a context is placed: those of its residence slots and of its sets. -/
def placesOf (s : State) (c : Nat) : List Nat :=
  (ctxTiles s c ++ (s.flow.sets.filter (fun (e : Nat × Placed) => e.2.ctxs.contains c)).flatMap (fun (e : Nat × Placed) => e.2.tiles)).eraseDups

/-- A conditional fence in force covers work of a context, which leaves its place at the next step boundary (R355). -/
def fenceMoves (s : State) (c : Nat) : Bool := (placesOf s c).any (fun t => (0 :: workClasses s t c).any (keptOff s t))

/-- Yew vacates a cluster on which a context is placed (R434). -/
def vacates (s : State) (c : Nat) : Bool := (placesOf s c).any (fun t => s.yew.vacate.contains (clusterOf t))

/-- The clusters that a context's audit attempt, or its third attempt, is to be kept off (R352). -/
def auditAvoids (s : State) (c : Nat) : List Nat :=
  match mapFind c s.commit.att with
  | some (a : Attempt) => if a.kind = 2 then a.firstClusters else if a.kind = 3 then a.firstClusters ++ a.auditClusters else []
  | none => []

/-- Tiles outside some clusters suffice for a set: for each type as many as it takes are in service and hold no other set
(R352) (log entry 195, DEDUCED). -/
def floorAllows (s : State) (set : Nat) (tiles avoid : List Nat) : Bool :=
  [TileType.t, .m, .v, .s].all (fun ty =>
    let free := (List.range 4608).filter (fun t => tileType t == ty && !tileFenced s t && !avoid.contains (clusterOf t)
      && (dfState s t == 0 || dfSet s t == set))
    decide ((tiles.filter (fun t => tileType t == ty)).length ≤ free.length))

/-- A set keeps to the clusters that the attempts of its contexts may use, as far as the floor allows (R352). -/
def auditOk (s : State) (set : Nat) (ctxs tiles : List Nat) : Bool :=
  ctxs.all (fun c => let l := auditAvoids s c; !tiles.any (fun t => l.contains (clusterOf t)) || !floorAllows s set tiles l)

/-- A tile's cluster is quarantined (R350) (log entry 92, DEDUCED). -/
def quarantined (s : State) (t : Nat) : Bool := s.commit.quar.any (fun (q : Suspect) => q.cluster == clusterOf t)

/-- The input queues of an image's units as endpoints of their HOME tiles, each with the tile where its unit is placed. -/
def homeQueues (s : State) (a : Nat) (im : Image) (p : Placement) : List (Nat × Nat) :=
  (p.cfgs.zipIdx.flatMap (fun c =>
      let e := cfgEntry s a c.2
      (cfgQueues e).map (fun q => (endpoint s e.2.2.2 q, c.1.1)))
    ++ p.steers.zipIdx.flatMap (fun c =>
      let e := steerEntry s a im.ncfg c.2
      (steerOfWords e.1).queues.map (fun q => (endpoint s e.2 q, c.1.1)))).eraseDups

/-- Renumbering takes every input queue to its unit's tile, and no two of them to one queue (R135). -/
def renumOk (s : State) (a : Nat) (im : Image) (p : Placement) : Bool :=
  let l := homeQueues s a im p
  l.all (fun x => renumEp p.renum x.1 / 256 == endpoint s x.2 0 / 256)
    && l.all (fun x => l.all (fun y => x.1 == y.1 || renumEp p.renum x.1 != renumEp p.renum y.1))

/-- Contexts of an image. -/
def imageCtxs (s : State) (a : Nat) (im : Image) : List Nat :=
  ((List.range im.ncfg).map (fun i => fieldNat (cfgEntry s a i).2.1 16 8)
    ++ (List.range im.nsteer).map (fun i => fieldNat ((steerEntry s a im.ncfg i).1.getD 0 0) 24 8)).eraseDups

/-- The conditions of R135 on a placement of the image at `a`, which avoids quarantined clusters beyond those of the placement
before it (R350), the clusters that Yew vacates (R434), those of an audit's earlier attempts (R352) and conditional fences in
force (R355). -/
def placeOk (s : State) (a : Nat) (im : Image) (p : Placement) : Bool :=
  im.ok && p.cfgs.length == im.ncfg && p.steers.length == im.nsteer
    && (p.cfgs.eraseDups.length == p.cfgs.length) && (p.steers.eraseDups.length == p.steers.length)
    && p.tiles.all (fun t => t < 4608 && !tileFenced s t && dfState s t < 2 && (dfState s t == 0 || dfSet s t == im.set)
        && !s.flow.drains.any (fun d => d.tiles.contains t))
    && renumOk s a im p
    && p.cfgs.zipIdx.all (fun c => c.1.2 < 8 && tileType c.1.1 == tileType (cfgEntry s a c.2).2.2.2)
    && p.steers.all (fun c => c.2 < 8 && hasSteer c.1 && !keptOff s c.1 9)
    && p.tiles.all (fun t => !s.yew.vacate.contains (clusterOf t) && (!quarantined s t || (placedOf s im.set).tiles.contains t))
    && auditOk s im.set (imageCtxs s a im) p.tiles
    && p.cfgs.zipIdx.all (fun c => !keptOff s c.1.1 (patternClass (tileType c.1.1) (cfgEntry s a c.2).1))
    && p.cfgs.zipIdx.all (fun c => p.cfgs.zipIdx.all (fun d =>
        c.2 == d.2 || c.1.1 != d.1.1 || tileType c.1.1 != .t || mayShare (cfgEntry s a c.2).1 (cfgEntry s a d.2).1))

/-- Configurations of a tile in ascending RANK. -/
def rankOrder (s : State) (a : Nat) (l : List (Nat × Nat)) : List (Nat × Nat) :=
  l.foldl (fun acc x =>
    let rank (y : Nat × Nat) := (cfgEntry s a y.1).2.2.1
    acc.takeWhile (fun y => rank y ≤ rank x) ++ [x] ++ acc.dropWhile (fun y => rank y ≤ rank x)) []

/-- The shadow fold schedule of a tile: slots in ascending RANK, COUNT 1, LOOP 0 (R135). -/
def placeFold (s : State) (t : Nat) (slots : List Nat) : State :=
  let s1 := wr (zeroRegs s t 0x200 32) (dfReg t 0x110) (BitVec.ofNat 64 slots.length)
  each slots.zipIdx (fun u x =>
    let r := dfReg t (0x200 + 8 * (x.2 / 2))
    wrF (wrF u r (32 * (x.2 % 2)) 16 1) r (32 * (x.2 % 2) + 28) 3 x.1) s1

/-- One tile's shadow copies written for a placement. -/
def placeTile (s : State) (a : Nat) (im : Image) (p : Placement) (t : Nat) : State :=
  let mine := (p.cfgs.zipIdx.filter (fun c => c.1.1 == t)).map (fun c => (c.2, c.1.2))
  let cfgTile := tileType t == .t || tileType t == .v
  let s1 := if cfgTile then each (List.range 8) (fun u n => wr u (dfReg t (slotOff false n + 0x40)) 0) s else s
  let s2 := each mine (fun u c =>
    let e := cfgEntry s a c.1
    wr (storeRec u t c.2 (renumRec s p.renum e.2.2.2 e.1)) (dfReg t (slotOff false c.2 + 0x40))
      (BitVec.ofNat 64 (renumBind s p.renum e.2.2.2 e.2.1) ||| BitVec.ofNat 64 (2 ^ 31))) s1
  let s3 := if cfgTile then placeFold s2 t ((rankOrder s a mine).map Prod.snd) else s2
  let s4 := if hasSteer t then zeroRegs s3 t 0x400 64 else s3
  each (p.steers.zipIdx.filter (fun c => c.1.1 == t)) (fun u c =>
    let e := steerEntry s a im.ncfg c.2
    each (renumSteer s p.renum e.2 e.1).zipIdx (fun x r =>
      wr x (dfReg t (0x400 + 0x40 * c.1.2 + 8 * r.2)) (BitVec.ofNat 64 r.1)) u) s4

/-- Hornbeam sends STOP for a set and begins its drain (R127, R131), at whose commit `next` stands. -/
def beginDrain (s : State) (set epoch : Nat) (flush : Bool) (tiles : List Nat) (next : Placed) : State :=
  setDrain (flowCmd s 0x06 next.group set epoch 0 flush) set
    (some { set := set, group := next.group, epoch := epoch, flush := flush, tStop := now s, limit := next.limit, tiles := tiles
            lastInj := none, quiet := 0, round := now s / 1000 + 1, heard := true, next := next, hung := false, again := false })

/-- The mode of the STOP for a placement: FLUSH for a context that a fence displaced (R381), RUN for one that leaves a cluster
for its test (R434), else the image's. -/
def loadFlush (s : State) (im : Image) (ctxs : List Nat) : Bool :=
  if ctxs.any (fun c => (mapFind c s.recov.replaceDt).isSome) then true
  else if (placedOf s im.set).tiles.any (fun t => s.yew.vacate.contains (clusterOf t)) then false
  else im.flush

/-- Hornbeam finds no placement for a set whose contexts wait for one (R382): it releases them. -/
def noPlacement (s : State) (a : Nat) (im : Image) : State :=
  let cs := (imageCtxs s a im).filter (fun c => (mapFind c s.recov.replaceDt).isSome && !s.recov.unplaceable.contains c)
  each cs requestTeardown { s with recov := { s.recov with unplaceable := s.recov.unplaceable ++ cs } }

/-- Meaning of SET_LOAD (R135): Hornbeam places the image at `image` as the operands say, which its
program chooses within R135, and starts the set's reconfiguration; a placement of nothing says that it found none
(R382) (log entry 93, DEDUCED). -/
def execSetLoad (image : Nat) (group : Fin 4096) (cfgs steers renum : List (Nat × Nat)) (s : State) :
    Host.Outcome State Fault Refusal :=
  .next (
    let im := imageOf s image
    let p : Placement := { cfgs := cfgs, steers := steers, renum := renum }
    if placeOk s image im p && (drainOf s im.set).isNone then
      let old := placedOf s im.set
      let epoch := if old = noPlaced then 0 else (old.epoch + 1) % 4
      let tiles := p.tiles ++ leftTiles s im.set p.tiles
      beginDrain (each tiles (fun u t => placeTile u image im p t) s) im.set epoch (loadFlush s im (imageCtxs s image im)) tiles
        { image := image, group := group, tiles := p.tiles, epoch := epoch, flush := im.flush, limit := im.limit
          ctxs := imageCtxs s image im }
    else if im.ok && cfgs.isEmpty && steers.isEmpty then noPlacement s image im
    else s)

/-! ### Queue-depth sampling (R137, R138) -/

/-- A register of the sampler page. -/
def tsReg (off : Nat) : Nat := devReg 6 off

/-- Slots that a queue's messages hold, PADs left out (R137). -/
def msgSlots (s : State) (t q : Nat) : Nat := (msgsOf s t q).foldl (fun n m => n + hdrSlots m.hdr) 0

/-- Meaning of TS_SAMPLE_WINDOW (R137, R138). An entry that names a reserved tile reads DEPTH 0 (log entry 163, DESIGN
CHOICE); a length above 256 samples all 256 entries (log entry 164, DESIGN CHOICE). One window is sampled once. -/
def execTsSampleWindow (s0 : State) : Host.Outcome State Fault Refusal :=
  .next (let l := limitOnce s0 (limitKey 21 0 0) (now s0 / 1000)
    let s := l.2
    if rdB s0 (tsReg 0x100) 0 && l.1 then
      let n := rdF s (tsReg 0x128) 0 9
      let w := rdF s (tsReg 0x110) 0 16
      let free := (rdF s (tsReg 0x118) 0 16 + 65536 - w - 1) % 65536
      if free < n then
        reportLimited (incSat s (tsReg 0x120)) (devPage 6) 0 0x1201 (limitKey 7 0 0) (now s / 1000000)
      else
        let base := rdF s (tsReg 0x108) 19 29 * 0x80000
        let s1 := each (List.range (min n 256)) (fun u i =>
          let q := rd u (tsReg (0x800 + 8 * i))
          let t := fieldOf q 8 13
          let d := if t < 4608 then msgSlots u t (fieldOf q 0 8) else 0
          (mappedWrite u (devPage 6) (base + 8 * ((w + i) % 65536))
            ((bytesOf 8 (place 48 16 d + place 40 8 (fieldOf q 0 8) + place 27 13 t + place 0 27 (now u / 1000))).map some) none).2) s
        wrF s1 (tsReg 0x110) 0 16 ((w + min n 256) % 65536)
    else s0)

/-! ### Compatibility counters (R139, R500) -/

/-- The queues from which the current fold entry, of slot `n`, needs a token next (R112, R136, R139): the operands that a V
activation still gathers, else the trigger queue. -/
def entryWants (s : State) (t n : Nat) : List Nat :=
  let a := actOf s t
  if a.on then
    (if a.phase = 0 then (if needA a then [(vRecOf a.words).inA] else []) ++ (if needB a then [(vRecOf a.words).inB] else []) else [])
  else (slotQueues s t true n).take 1

/-- The queues among them that offer no token of slot `n`. -/
def entryMisses (s : State) (t n : Nat) : List Nat :=
  (entryWants s t n).filter (fun q => match headOf s t q with | .slot k _ => k != n | .fault _ => false | _ => true)

/-- The conditions of R139 that hold on a tile; PIPE_SWITCH is counted at the switch. -/
def compatHolds (s : State) (t k : Nat) : Bool :=
  let st := dfState s t
  if k = 0 then
    (st == 1 || st == 2) && (match curSlot s t with
      | some n => !(entryMisses s t n).isEmpty
      | none => false)
  else if k = 1 then s.q.sends.any (fun w => w.unit == t && w.sender == .act)
  else if k = 3 then 2 ≤ st
  else if 4 ≤ k && k < 12 then hasSteer t && st != 0 && !(steerMissing s t (k - 4) (steerOf s t true (k - 4))).isEmpty
  else if 12 ≤ k && k < 20 then hasSteer t && st != 0 && !(steerStalled s t (k - 12) (steerOf s t true (k - 12))).isEmpty
  else if 20 ≤ k && k < 28 then
    let q := rdF s (dfReg t 0x120) (8 * (k - 20)) 8
    (qState s t q == 1 || qState s t q == 2) && qSize s t q ≤ qGranted s t q + 15
  else false

/-- One nanosecond of the compatibility counters (R139). -/
def compatTick (s : State) : State :=
  each (flowTiles s) (fun u t => each ((List.range 28).filter (compatHolds s t)) (fun x k => addCompat x t k 1) u) s

/-- Counter `k` of a tile in microseconds. -/
def compatCount (s : State) (t k : Nat) : Nat := mapGet (fun _ => 0) s.flow.compatNs (t * 32 + k) / 1000

/-- COMPAT_n as it reads. -/
def compatReg (s : State) (t n : Nat) : Nat := compatCount s t (2 * n) + (compatCount s t (2 * n + 1) <<< 32)

/-- A read of COMPAT_n is noted (R500). -/
def noteCompat (s : State) (t n dt : Nat) : State :=
  { s with flow := { s.flow with compatRead := mapPut (fun _ => 0) s.flow.compatRead (t * 16 + n) dt
                                 compatSeen := mapPut (fun _ => 0) s.flow.compatSeen (t * 16 + n) (compatReg s t n) } }

/-- Meaning of COMPAT_UNSAMPLED (R500). -/
def execCompatUnsampled (t : TileId) (n : Fin 16) (s : State) : Host.Outcome State Fault Refusal :=
  .next (
    let last := mapGet (fun _ => 0) s.flow.compatRead (t * 16 + n)
    if hasFlow t && last + 3600000000000 ≤ now s && compatReg s t n != mapGet (fun _ => 0) s.flow.compatSeen (t * 16 + n) then
      noteCompat (report s (dfPage t) 0x1203 { detail := [n] }) t n (last + 3600000000000)
    else s)

/-! ### Releases (R198) -/

/-- Meaning of MESSAGE_RELEASE (R198): the reader that is due to release the message at HEAD does so. A handler that runs on
it reaches END, or GET; a stale token is removed. A token that an activation or a firing consumes, and a message whose last
descriptor a channel starts, are released by those commands. -/
def execMessageRelease (t : TileId) (q : QueueId) (s : State) : Host.Outcome State Fault Refusal :=
  .next (if qState s t q = 1 || qState s t q = 2 then
      if !qSound s t q then queueGuard s t q
      else match threadsOn s t q with
        | n :: _ => getOp (endOp s t n) t n
        | [] => if headOf s t q = .stale then dropStale s t q else s
    else s)

end Sys2Proof.Machine
end

