-- ==== Sys2Proof/Machine/QueueRows.lean ====
section
/-! DEFINITION. The commands of queues, credits and messages (R186–R198). -/

namespace Sys2Proof.Machine

/-- Meaning of MESSAGE_SEND (R187): unit `u` sends for queue `q` of context `c`; Hornbeam and the
Gorbin port send only in contexts that their mask names (R288). -/
def execMessageSend (u : Fin 4610) (q : QueueId) (c : CtxId) (dst handler vc : Nat) (pay : List Byte) (s : State) :
    Host.Outcome State Fault Refusal :=
  let go : Bool := if u.val < 4608 then mayRun s u c else if u.val = unitHornbeam then hbSends s c else gbSends s c
  .next (if go then (trySend s u q .block (buildMsg s u q c dst handler vc pay)).2 else s)

/-- Meaning of CREDIT_AVAILABLE (R187): the `i`th waiting send is tried again, once no earlier send of its sender
waits (R178). -/
def execCreditAvailable (i : Nat) (s : State) : Host.Outcome State Fault Refusal :=
  .next (match s.q.sends[i]? with
    | some w =>
      if (w.unit < 4608 && !mayRun s w.unit w.msg.hdr.context)
          || (s.q.sends.take i).any (fun x => x.unit == w.unit && x.sender == w.sender) then s
      else retrySend s w
    | none => s)

/-- Meaning of MESSAGE_ARRIVAL (R192): a message delivered to a tile meets its enqueue unit;
one for queue 0xFE of tile 1 is for the checkpoint engine (R388). -/
def execMessageArrival (t : TileId) (m : Msg) (s : State) : Host.Outcome State Fault Refusal :=
  .next (if t = 1 && epQueue m.hdr.dst = 0xFE then s else match takeEjected s t (.msg m) with
    | some u => if arrivalBusy s t m then arrivalSnoop s t m else arrive u t m
    | none => s)

/-- A control packet of one type taken from those delivered to a tile. -/
def onCtrl (t type : Nat) (p : Ctrl) (s : State) (f : State → State) : State :=
  if p.type = type then
    match takeEjected s t (.ctrl p) with
    | some u => f u
    | none => s
  else s

/-- Meaning of NACK_ARRIVAL (R194). -/
def execNackArrival (t : TileId) (p : Ctrl) (s : State) : Host.Outcome State Fault Refusal :=
  .next (onCtrl t 0x03 p s (fun u =>
    let h := hdrOf (p.words.drop 1)
    nackArrives u (unitAt u t h.context) (p.words.getD 0 0 % 16) h))

/-- A grant packet that comes back: its source is not the queue's tile (R186). -/
def isBounce (p : Ctrl) : Bool := !(epTile (ctrlEp p) == p.srcTile && epDev (ctrlEp p) == p.srcDev)

/-- GRANTED withdrawn after a bounce of the current epoch, with record 0x050B (R186). -/
def withdrawGrant (s : State) (t : Nat) (p : Ctrl) : State :=
  let q := epQueue (ctrlEp p)
  let s1 := if qEpoch s t q = ctrlEpoch p then wrGF s (qdReg t q 1) 16 16 (qGranted s t q - ctrlSlots p) else s
  grantRefused s1 t q

/-- Meaning of GRANT_PACKET_ARRIVAL (R186): a full table sends the grant back. -/
def execGrantPacketArrival (t : TileId) (p : Ctrl) (s : State) : Host.Outcome State Fault Refusal :=
  .next (if isBounce p then s else onCtrl t 0x01 p s (fun u =>
    let unit := unitAt u t p.context
    let r := takeGrant u unit (ctrlEp p) p.context (ctrlEpoch p) (ctrlSlots p)
    if r.1 then
      if unit = p.srcTile && p.srcDev = deviceId u then withdrawGrant r.2 t p
      else inject r.2 t (.ctrl { p with dstDev := p.srcDev, dstTile := p.srcTile, srcDev := deviceId u
                                        srcTile := if unit < 4608 then unit else 0x1FFF })
    else r.2))

/-- Meaning of GRANT_BOUNCE (R186). -/
def execGrantBounce (t : TileId) (p : Ctrl) (s : State) : Host.Outcome State Fault Refusal :=
  .next (if isBounce p then onCtrl t 0x01 p s (fun u => withdrawGrant u t p) else s)

/-- Meaning of RETURN_ARRIVAL (R188). -/
def execReturnArrival (t : TileId) (p : Ctrl) (s : State) : Host.Outcome State Fault Refusal :=
  .next (onCtrl t 0x02 p s (fun u =>
    returnCredit u (unitAt u t p.context) (ctrlEp p) p.context (ctrlEpoch p) (ctrlSlots p)))

/-- Every entry of a unit for a revoked endpoint invalidated (R188). -/
def revokeEntries (s : State) (u ep : Nat) : State :=
  { s with q := { s.q with cred := s.q.cred.filter (fun e => !(u * 1024 ≤ e.1 && e.1 < (u + 1) * 1024 && e.2.dest == ep)) } }

/-- An up-tree reply of a tile to a packet of its group (R218). -/
def upReply (s : State) (t : Nat) (p : Ctrl) (type : Nat) (words : List Nat) : State :=
  inject s t (.ctrl { toGroup (mkCtrl s type t p.context p.round words) p.group with ctxEpoch := p.ctxEpoch })

/-- Meaning of REVOKE_ARRIVAL (R188): entries invalidated and REVOKE_ACK with DONE replied. -/
def execRevokeArrival (t : TileId) (p : Ctrl) (s : State) : Host.Outcome State Fault Refusal :=
  .next (onCtrl t 0x04 p s (fun u => upReply (revokeEntries u (unitAt u t p.context) (ctrlEp p)) t p 0x05 [1]))

/-- Meaning of REVOKE_ACK_COMPLETE (R188): the combined REVOKE_ACK at its root releases held OPENs of
queue `q` of tile `t`. -/
def execRevokeAckComplete (root : TileId) (p : Ctrl) (t : TileId) (q : QueueId) (s : State) : Host.Outcome State Fault Refusal :=
  .next (if s.q.revokes.contains (t.val, q.val, p.context) && p.group = rdF s (csCtx p.context 0x190) 24 12 && p.round = q.val then
      onCtrl root 0x05 p s (fun u => revokeDone u t q p.context)
    else s)

end Sys2Proof.Machine
end

