-- ==== Sys2Proof/Machine/Mesh.lean ====
section
/-! DEFINITION. The on-die mesh: source checks (R216), links and their replay (R208, R209, R219,
R220, R222, R227), delivery and tiles in reset (R229, R524), multicast and up-tree replies (R218),
mesh probes (R217), combining in routers and ports (R223, R224, R254) and completion stores (R225,
R226). -/

namespace Sys2Proof.Machine

/-- A register of a router page (R231). -/
def rtReg (t off : Nat) : Nat := tileReg t 3 off
/-- The page of a router. -/
def rtPage (t : Nat) : Nat := tilePage t 3

/-! ### Delivery at a router (R229, R524) -/

/-- A flit is the last of its packet. -/
def isTail (f : Flit) : Bool := f.idx + 1 == flitsOf f.pkt

/-- A VC1 or VC0 packet discarded for a tile in reset or fenced, or without a route (R216, R229). -/
def redDiscard (s : State) (t : Nat) : State := incWrap s (rtReg t 0x098) 1

/-- A reduction packet discarded at its fenced or resetting tile: record 0x0606 once per window; its context's step does not
commit (R229, R341). -/
def redReset (s : State) (t c : Nat) : State :=
  requestDirty (reportLimited (redDiscard s t) (rtPage t) 0 0x0606 (limitKey 9 t 0) (now s / 1000000) { ctx := some c }) c

/-- A message refused when its head flit `id` meets a fenced or resetting tile (R229, R524) (log entry 51, DEDUCED). -/
def headRefused (s : State) (t id : Nat) (m : Msg) : State :=
  let s1 := if tileFenced s t then refuse s t 9 m else incWrap (refuse s t 0xA m) (rtReg t 0x0A0) 1
  if flitsOf (.msg m) = 1 then s1 else { s1 with net := { s1.net with sunk := s1.net.sunk ++ [(t, id)] } }

/-- A firmware packet at its tile (R229, R524). -/
def fwDeliver (s : State) (t : Nat) (p : Pkt) : State := if tileFenced s t then ctlCount s t 0 1 else eject s t p

/-- A flit for its tile stays in the router's buffer: the tile's cluster sleeps, or an earlier flit of its VC stays
(R229, R448). -/
def staysIn (s : State) (t : Nat) (p : Pkt) : Bool :=
  !tileFenced s t && (awaitsWake s t p || (linkQ s t 0).any (fun g => pktVc g.pkt == pktVc p))

/-- A flit that reached its tile's router. -/
def deliverFlit (s : State) (t : Nat) (f : Flit) : State :=
  match f.pkt with
  | .msg m =>
    if s.net.sunk.contains (t, f.id) then
      if isTail f then { s with net := { s.net with sunk := s.net.sunk.erase (t, f.id) } } else s
    else if f.idx = 0 && (tileFenced s t || tileInReset s t) then headRefused s t f.id m
    else if staysIn s t f.pkt then pushFlits s t 0 [f]
    else if isTail f then eject s t f.pkt
    else s
  | .ctrl c =>
    if (tileFenced s t || tileInReset s t) && unitAt s t c.context < 4608 then redDiscard s t else eject s t f.pkt
  | .red _ => s
  | .fw _ => if staysIn s t f.pkt then pushFlits s t 0 [f] else if isTail f then fwDeliver s t f.pkt else s

/-- Packets on which each router acts itself: multicasts, up-tree replies and reductions. -/
def routerActs : Pkt → Bool
  | .msg _ => false
  | .ctrl c => c.mcast || isUpTree c.type
  | .red _ => true
  | .fw f => f.mcast

/-- A control packet of a reserved type (R212). -/
def badType : Pkt → Bool
  | .ctrl c => !ctrlTypeOk c.type
  | _ => false

/-- A copy of a multicast packet leaves by port `o.1`, or (16 and above) by Parith port `o.1 - 16`: one flit of it, as number
`o.2` (R218). -/
def copyFlit (t ip : Nat) (f : Flit) (s : State) (o : Nat × Nat) : State :=
  let g : Flit := { f with inPort := ip, id := o.2, orig := f.id }
  if o.1 = 0 then deliverFlit s t g
  else if 16 ≤ o.1 then (if isTail f then toPort s (o.1 - 16) f.pkt else s)
  else match neighbour t o.1, portAt t with
    | none, some q => if o.1 = edgePort q then (if isTail f then toPort s q f.pkt else s) else pushFlits s t o.1 [g]
    | _, _ => pushFlits s t o.1 [g]

/-- A flit of a packet on which router `n` acts itself: the first waits for that action, the later ones stay with it, or
follow it once it has been copied (R218). -/
def keepFlit (s : State) (n ip : Nat) (f : Flit) : State :=
  let mine (l p i : Nat) : Bool := l == n && p == ip && i == f.id
  if f.idx = 0 then { s with net := { s.net with here := s.net.here ++ [{ loc := n, port := ip, pkt := f.pkt, id := f.id, came := 1 }] } }
  else match s.net.flows.find? (fun w => mine w.loc w.port w.id) with
    | some w =>
      let u := each w.outs (copyFlit n ip f) s
      if isTail f then { u with net := { u.net with flows := u.net.flows.filter (fun x => !mine x.loc x.port x.id) } } else u
    | none => { s with net := { s.net with here := s.net.here.map (fun e => if mine e.loc e.port e.id then { e with came := e.came + 1 } else e) } }

/-- A flit at router `n`, which came in by port `ip`: kept for the router's action, delivered, handed
to a Parith port or placed at its output port (R212, R214). -/
def advanceFlit (n ip : Nat) (s : State) (f : Flit) : State :=
  if badType f.pkt then report s (rtPage n) 0x0609
  else if routerActs f.pkt then keepFlit s n ip f
  else
    let r := routeOf s n (routeTarget s f.pkt)
    if r != 0 then pushFlits s n r [{ f with inPort := ip, orig := f.id }]
    else if isLocal s f.pkt then deliverFlit s n f
    else if isTail f then toPort s (exitOf s (pktDev s f.pkt)) f.pkt
    else s

/-! ### Input buffers (R208) -/

/-- The places of flits that input port `ip` of router `n` buffers for a VC: each flit once, however many ports it is to
leave by. -/
def buffered (s : State) (n ip vc : Nat) : Nat :=
  (((List.range 16).flatMap (fun p => ((linkQ s n p).filter (fun f => f.inPort == ip && pktVc f.pkt == vc)).map (fun f => (f.orig, f.idx)))).eraseDups).length
  + ((s.net.here.filter (fun e => e.loc == n && e.port % 16 == ip && pktVc e.pkt == vc)).map (fun e => e.came)).sum

/-- Buffer entries of an input port for a VC (R208). -/
def vcBuffer (vc : Nat) : Nat := if vc = 0 then 2 else if vc = 1 then 4 else 8

/-- Input port `ip` of router `n` has an entry free for a VC. -/
def portRoom (s : State) (n ip vc : Nat) : Bool := buffered s n ip vc < vcBuffer vc

/-- Flits of a source that have not yet entered input port `ip` of router `n`, though an earlier one of their packet has. -/
def enteringOf (s : State) (n ip : Nat) : List Flit := mapGet (fun _ => []) s.net.entering (n * 16 + ip)
/-- The flits of a source set. -/
def setEntering (s : State) (n ip : Nat) (l : List Flit) : State :=
  { s with net := { s.net with entering := mapPut (fun _ => []) s.net.entering (n * 16 + ip) l } }

/-- Flits of a source enter its router while their VC has room; at most `k`. -/
def enterPort (n ip : Nat) : Nat → State → State
  | 0, s => s
  | k + 1, s =>
    match (enteringOf s n ip).find? (fun f => portRoom s n ip (pktVc f.pkt)) with
    | some f => enterPort n ip k (advanceFlit n ip (setEntering s n ip ((enteringOf s n ip).erase f)) f)
    | none => s

/-- A packet enters router `n` by port `ip`, flit by flit as its buffer has room. -/
def enter (s : State) (n ip : Nat) (p : Pkt) : State :=
  let s1 := numbered (setEntering s n ip (enteringOf s n ip ++ allFlits s p ip)) 1
  enterPort n ip (enteringOf s1 n ip).length s1

/-- Flits that wait to enter a router by port `ip` after an entry of its buffer was freed. -/
def enterOn (s : State) (n ip : Nat) : State := enterPort n ip (enteringOf s n ip).length s

/-- The flits that stayed in a router's buffers go to its tile, as far as it is awake (R448). -/
def drainLocal (s : State) (t : Nat) : State :=
  if (linkQ s t 0).isEmpty then s
  else each (List.range 9) (fun u ip => enterOn u t ip) (each (linkQ s t 0) (fun u f => deliverFlit u t f) (setLinkQ s t 0 []))

/-! ### Injection (R216, R217) -/

/-- Step 2 of R216: a reserved destination tile. -/
def destReserved (s : State) (t : Nat) (p : Pkt) : State :=
  match p with
  | .msg m => report (nackFrom s t 7 m) (rtPage t) 0x0604 { ctx := some m.hdr.context }
  | .red r => faultStop (report (redDiscard s t) (rtPage t) 0x0604 { ctx := some r.context }) t r.context
  | _ => s

/-- Step 3 of R216: no route. -/
def unreachable (s : State) (t : Nat) (p : Pkt) : State :=
  match p with
  | .msg m => report (nackFrom s t 9 m) (rtPage t) 0x0605 { ctx := some m.hdr.context }
  | _ =>
    let s1 := report (redDiscard s t) (rtPage t) 0x0605 { ctx := pktCtx p, clean := (pktCtx p).isSome }
    match pktCtx p with
    | some c => requestDirty s1 c
    | none => s1

/-- The checks of R216 at the source router: none where the packet enters the mesh, else what becomes of it. A packet of a
group goes to the router's own action. -/
def sourceRefusal (s : State) (t : Nat) (p : Pkt) : Option State :=
  let grouped := match p with | .ctrl c => c.mcast || isUpTree c.type | .fw f => f.mcast | _ => false
  if grouped || badType p then none
  else if !isLocal s p && (exitPort s p).isNone then some (exitRefuse s t p)
  else if isLocal s p && 4608 ≤ pktTile p then some (destReserved s t p)
  else if routeOf s t (routeTarget s p) = 0xF then some (unreachable s t p)
  else none

/-- A packet of the router's tile, checked, enters by port L; INJ counts a token for a tile of the device (R130, R216). -/
def sourceCheck (s : State) (t : Nat) (p : Pkt) : State :=
  match sourceRefusal s t p with
  | some u => u
  | none => enter (match p with | .msg m => countInj s t m | _ => s) t 0 p

/-- INJ_HOLD holds a packet at its source (R217). -/
def injHeld (s : State) (t : Nat) (p : Pkt) : Bool := rdB s (rtReg t 0x100) 1 && pktVc p != 0

/-- A packet is the tile's own, and not one that its router gives: a tile in reset injects none (R229), but for the firmware
packets of its reload (R417) (log entry 183, DEDUCED). -/
def ofTile : Pkt → Bool
  | .msg _ => true
  | .red _ => true
  | .ctrl c => c.type == 1 || c.type == 2
  | .fw _ => false

/-- The first packet of a tile and VC that waits for injection, taken once the flits of the one before it have entered. -/
def injectOne (s : State) (t : Nat) (vc : Nat) : State :=
  match s.net.inject.find? (fun e => e.1 == t && pktVc e.2 == vc) with
  | some e =>
    if injHeld s t e.2 || (tileInReset s t && ofTile e.2) || (enteringOf s t 0).any (fun f => pktVc f.pkt == vc) then s
    else sourceCheck { s with net := { s.net with inject := s.net.inject.erase e } } t e.2
  | none => s

/-- Meaning of PACKET_INJECT (R216): the oldest packet of VC `vc` at tile `t`'s source router. -/
def execPacketInject (t : TileId) (vc : Fin 4) (s : State) : Host.Outcome State Fault Refusal := .next (injectOne s t vc)

/-- Meaning of INJECTION_HOLD_RELEASE (R217): held injections of VC1–VC3 proceed once INJ_HOLD is 0. -/
def execInjectionHoldRelease (t : TileId) (s : State) : Host.Outcome State Fault Refusal :=
  .next (if rdB s (rtReg t 0x100) 1 then s else each [1, 2, 3] (fun u vc => injectOne u t vc) s)

/-! ### Boundary FIFOs (R32–R34) -/

/-- The router's input port behind a boundary FIFO: the edge port of a Parith attachment, else S (R235, R287, R288). -/
def fifoPort (b : Nat) : Nat := if b < 14 then edgePort b else 3

/-- The rest of a packet whose head flit, just read from a FIFO, was refused. -/
def dropRest (s : State) (b id : Nat) : State :=
  let more (e : Nat × Flit) : Bool := e.2.id == id && e.2.idx != 0
  let l := (fifoOf s b).dropWhile more
  setFifo s b l (if l.isEmpty then (fifoHeld s b).dropWhile more else fifoHeld s b)

/-- The oldest flit of a FIFO enters router `t`, unless its port has no room or INJ_HOLD holds the packet (log entry 179,
DEDUCED); the packets of the Gorbin port and of Hornbeam meet the checks of R216 there. -/
def fifoTake (s : State) (b t : Nat) (f : Flit) (l : List (Nat × Flit)) : Option State :=
  let s1 := setFifo s b l (fifoHeld s b)
  if f.idx = 0 && injHeld s t f.pkt then none
  else match (if f.idx = 0 && 14 ≤ b then sourceRefusal s1 t f.pkt else none) with
    | some u => some (dropRest u b f.id)
    | none => if portRoom s t (fifoPort b) (pktVc f.pkt) then some (advanceFlit t (fifoPort b) s1 { f with inPort := fifoPort b }) else none

/-- The mesh side of a FIFO reads what it has room for, at most `n` entries; held ones enter the freed slots (R33). -/
def fifoRead (b : Nat) : Nat → State → State
  | 0, s => s
  | n + 1, s =>
    match fifoOf s b with
    | [] => s
    | e :: l => match fifoTake s b e.1 e.2 l with
      | some u => fifoRead b n (fifoFill u b)
      | none => s

/-- Entries that wait in a FIFO or before it. -/
def fifoWaiting (s : State) (b : Nat) : Nat := (fifoOf s b).length + (fifoHeld s b).length

/-- A partial's way through this device begins at router `t` (R69). -/
def noteWay (s : State) (t : Nat) : Pkt → State
  | .red r => noteContrib s t r
  | _ => s

/-- A packet crosses from a Parith port into router `t`, as far as the FIFO and the router have room. -/
def crossIn (s : State) (p t : Nat) (pkt : Pkt) : State :=
  let s1 := submit (noteWay s t pkt) p t pkt
  fifoRead p (fifoWaiting s1 p) s1

/-! ### Links (R208, R209, R219, R220, R222, R227) -/

/-- The sender of link `p` of router `t` has a credit for a VC (R208, R227). -/
def linkRoom (s : State) (t p vc : Nat) : Bool :=
  match neighbour t p with
  | none => false
  | some n =>
    let ip := farPort p
    if seamLink t p then
      buffered s n ip vc = 0 || ((List.range 4).map (fun v => buffered s n ip v - 1)).sum < 4
    else portRoom s n ip vc

/-- The flit of a VC that a port would send next: the next of an unfinished packet, else a head flit;
VC0 flits in turn over the input ports (R219, R222). -/
def readyFlit (s : State) (t p vc : Nat) : Option Flit :=
  if !linkRoom s t p vc then none
  else
    let q := (linkQ s t p).filter (fun f => pktVc f.pkt == vc)
    match mapGet (fun _ => []) s.net.last ((t * 16 + p) * 4 + vc) with
    | g :: _ => q.find? (fun f => f.id == g.id && f.idx == g.idx + 1)
    | [] =>
      let heads := q.filter (fun f => f.idx == 0)
      if vc = 0 then
        let turn := mapGet (fun _ => 0) s.net.turn (t * 16 + p)
        (List.range 9).findSome? (fun k => heads.find? (fun f => f.inPort == (turn + 1 + k) % 9))
      else heads.head?

/-- Consecutive flit boundaries of a port at which VC3 gave way (R220). -/
def vc3Count (s : State) (t p : Nat) : Nat := mapGet (fun _ => 0) s.net.vc3 (t * 16 + p)

/-- The flit that a port sends at a flit boundary (R219, R220). -/
def chooseFlit (s : State) (t p : Nat) : Option Flit := serveVcs (readyFlit s t p) (vc3Count s t p)

/-- The count of R220 after a boundary at which a port sends a flit. -/
def countVc3 (s : State) (t p : Nat) (f : Flit) : State :=
  { s with net := { s.net with vc3 := mapPut (fun _ => 0) s.net.vc3 (t * 16 + p) (vc3Next (readyFlit s t p) (vc3Count s t p) (pktVc f.pkt)) } }

/-- Router `n` still buffers a flit that came in by port `ip`. -/
def holdsFlit (s : State) (n ip : Nat) (f : Flit) : Bool :=
  (List.range 16).any (fun p => (linkQ s n p).any (fun g => g.inPort == ip && g.orig == f.id && g.idx == f.idx))
    || s.net.here.any (fun e => e.loc == n && e.port % 16 == ip && e.id == f.id && f.idx < e.came)

/-- The replay store of output port `p` of router `t` (R209): of the last 16 flits that it sent, those that the receiver
has not acknowledged, which it does with the credit of their buffer entry (log entry 176, DEDUCED). -/
def replayStore (s : State) (t p : Nat) : List Flit :=
  match neighbour t p with
  | some n => (mapGet (fun _ => []) s.net.stored (t * 16 + p)).filter (holdsFlit s n (farPort p))
  | none => []

/-- A flit taken from its output port after the receiver accepted it; FLITS_OUT counts it (R231) (log entry 50, DEDUCED). -/
def takeFlit (s : State) (t p : Nat) (f : Flit) : State :=
  let k := t * 16 + p
  let kept := replayStore s t p ++ [f]
  let s1 := incWrap (setLinkQ s t p ((linkQ s t p).erase f)) (rtReg t 0x080) 1
  { s1 with net := { s1.net with
      last := mapPut (fun _ => []) s1.net.last (k * 4 + pktVc f.pkt) (if isTail f then [] else [f])
      turn := if pktVc f.pkt = 0 then mapPut (fun _ => 0) s1.net.turn k f.inPort else s1.net.turn
      stored := mapPut (fun _ => []) s1.net.stored k (kept.drop (kept.length - 16))
      again := mapPut (fun _ => []) s1.net.again k []
      fails := mapPut (fun _ => 0) s1.net.fails k 0 } }

/-- One direction of a link fenced: LINK_FENCE set (R231). -/
def fenceLink (s : State) (t p : Nat) : State := wrB s (rtReg t 0x100) (16 + p) true

/-- A flit failed three times in a row (R209): the link is fenced, and every packet with a flit in its replay store, the
failed one among them, is discarded (log entry 98, DEDUCED). -/
def linkFail (s : State) (t p n : Nat) (f : Flit) : State :=
  let k := t * 16 + p
  let lost := f :: replayStore s t p
  let s1 := fenceLink (fenceLink s t p) n (farPort p)
  let s2 := report s1 (rtPage t) 0x0603 { ctx := pktCtx f.pkt, clean := (pktCtx f.pkt).isSome, detail := [p] }
  let s3 := { s2 with net := { s2.net with again := mapPut (fun _ => []) s2.net.again k [], fails := mapPut (fun _ => 0) s2.net.fails k 0
                                           replay := mapPut (fun _ => false) s2.net.replay k false } }
  let s4 := dropPackets s3 (lost.map (fun g => g.id)).eraseDups
  queueFence (each (lost.filterMap (fun g => pktCtx g.pkt)).eraseDups requestDirty s4) (fenceEntry 3 t p 0x0603)

/-- A flit dropped by its receiver, which asks for a replay; at the third time the link fails. -/
def dropFlit (s : State) (t p n : Nat) (f : Flit) : State :=
  let k := t * 16 + p
  let fails := mapGet (fun _ => 0) s.net.fails k + 1
  if fails = 3 then linkFail s t p n f
  else { s with net := { s.net with again := mapPut (fun _ => []) s.net.again k [f], fails := mapPut (fun _ => 0) s.net.fails k fails
                                    replay := mapPut (fun _ => false) s.net.replay k true } }

/-- A flit corrected by its receiver (R209): LINK_CE, recorded once for each link and window (log entry 52, DEDUCED). -/
def linkCe (s : State) (t p n : Nat) : State :=
  reportLimited (incSat s (rtReg n 0x0B8)) (rtPage n) 0 0x0601 (limitKey 10 (t * 16 + p) 0) (now s / 1000000) { detail := [farPort p] }

/-- The flit that port `p` of router `t` sends is `f`: it crosses to router `n`, and flits behind it move up. -/
def crossLink (s : State) (t p n err : Nat) (f : Flit) : State :=
  let s1 := countVc3 s t p f
  if err = 2 then dropFlit s1 t p n f
  else enterOn (advanceFlit n (farPort p) (takeFlit (if err = 1 then linkCe s1 t p n else s1) t p f) f) t f.inPort

/-- Meaning of FLIT_RECEIVE (R209): the flit that port `p` of router `t` sends arrives at the neighbour,
sound (`err` 0), with a single-bit error (1) or with an uncorrectable error (2). -/
def execFlitReceive (t : TileId) (p : Fin 9) (err : Fin 3) (s : State) : Host.Outcome State Fault Refusal :=
  .next (match neighbour t p with
    | none => s
    | some n =>
      if linkFenced s t p || mapGet (fun _ => false) s.net.replay (t.val * 16 + p.val) then s
      else
        match (mapGet (fun _ => []) s.net.again (t.val * 16 + p.val)).head?.orElse (fun _ => chooseFlit s t p) with
        | some f => crossLink s t p n err f
        | none => s)

/-- Meaning of LINK_REPLAY (R209): the output port resends from the dropped flit (log entry 52, DEDUCED). -/
def execLinkReplay (t : TileId) (p : Fin 9) (s : State) : Host.Outcome State Fault Refusal :=
  .next (if mapGet (fun _ => false) s.net.replay (t.val * 16 + p.val) then
      report (incSat { s with net := { s.net with replay := mapPut (fun _ => false) s.net.replay (t.val * 16 + p.val) false } } (rtReg t 0x0C0))
        (rtPage t) 0x0602 { detail := [p.val] }
    else s)

/-- Flits of a VC that a router holds in buffers and replay stores (RT_HELD, R231). -/
def heldFlits (s : State) (t vc : Nat) : Nat :=
  ((List.range 9).map (fun ip => buffered s t ip vc)).sum + buffered s t 15 vc
  + ((List.range 9).map (fun p => ((replayStore s t p).filter (fun f => pktVc f.pkt == vc)).length)).sum

/-! ### Multicast (R218, R252) -/

/-- The first packet equal to `p` that waits at a location for the router's own action. -/
def hereOf (s : State) (t port : Nat) (p : Pkt) : Option Here := s.net.here.find? (fun e => e.loc == t && e.port == port && e.pkt == p)

/-- A packet waiting for a router's own action taken; `none` when it is not there. -/
def takeHere (s : State) (t port : Nat) (p : Pkt) : Option State :=
  (hereOf s t port p).map (fun e => { s with net := { s.net with here := s.net.here.erase e } })

/-- Flits that waited for a buffer entry of the port by which a packet came in enter after the router's action. -/
def acted (s : State) (t port : Nat) : State := if t < 4608 then enterOn s t (port % 16) else s

/-- The DOWN ports of a router for a group: those of its table and its Parith port where the fabric tree
continues (R252). -/
def downPorts (s : State) (t g : Nat) : Nat :=
  let d := (mcEntry s t g).2.1
  match portAt t with
  | some p => if attach p 0 = t && fabricDown s g p then d ||| 2 ^ edgePort p else d
  | none => d

/-- Reply given by the router in place of its fenced or resetting tile (R218, R130, R188). -/
def standIn (s : State) (t : Nat) (c : Ctrl) : State :=
  if c.type = 0x07 then
    let i := countOf s (rtReg t 0x0A8)
    let d := countOf s (rtReg t 0x0B0)
    upReply s t c 0x08 [0, 0, i % 2 ^ 32, i / 2 ^ 32, d % 2 ^ 32, d / 2 ^ 32]
  else if c.type = 0x04 then upReply s t c 0x05 [1]
  else s

/-- A multicast packet copied to the L port; a DECIDE is for the step-commit block at router 1 alone (R338). -/
def deliverCopy (s : State) (t : Nat) (p : Pkt) : State :=
  match p with
  | .ctrl c =>
    if c.type = 0x0F then upReply s t c 0x10 [heldFlits s t 1 + heldFlits s t 2 + heldFlits s t 3]
    else if c.type = 0x0D then (if t = 1 then eject s t p else s)
    else if (tileFenced s t || tileInReset s t) && !(t = 1 && c.type = 0x0E) && unitAt s t c.context < 4608
    then standIn s t c
    else eject s t p
  | .fw _ => fwDeliver s t p
  | _ => s

/-- All the flits of a packet have come (R218). -/
def whole (x : Here) : Bool := flitsOf x.pkt ≤ x.came

/-- The flits of a packet that have come, as copy `id`. -/
def copiesOf (x : Here) (id : Nat) : List Flit := someFlits x.pkt x.port id x.id x.came

/-- A packet sent by port `n` of router `t` as copy `id`: over its link, or into the Parith port attached there. -/
def sendBy (s : State) (t n id : Nat) (x : Here) : State :=
  match neighbour t n, portAt t with
  | none, some q => if n = edgePort q then (if whole x then toPort s q x.pkt else s) else pushFlits s t n (copiesOf x id)
  | _, _ => pushFlits s t n (copiesOf x id)

/-- Group of a multicast packet. -/
def pktGroup : Pkt → Nat
  | .ctrl c => c.group
  | .fw f => f.group
  | _ => 0

/-! ### Up-tree replies (R218, R253) -/

/-- Two 64-bit sums held in two words each added. -/
def addWide (a b : List Nat) (i : Nat) : List Nat :=
  let v := (a.getD i 0 + (a.getD (i + 1) 0 <<< 32) + b.getD i 0 + (b.getD (i + 1) 0 <<< 32)) % 2 ^ 64
  [v % 2 ^ 32, v / 2 ^ 32]

/-- Replies of a type combined: AND of words, or integer sums (R212). -/
def combineReply (type : Nat) (a b : List Nat) : List Nat :=
  if type = 0x08 then
    [(a.getD 0 0 + b.getD 0 0) % 2 ^ 32, (a.getD 1 0 + b.getD 1 0) % 2 ^ 32] ++ addWide a b 2 ++ addWide a b 4 ++ List.replicate 6 0
  else if type = 0x10 then [(a.getD 0 0 + b.getD 0 0) % 2 ^ 32] ++ List.replicate 11 0
  else (List.range 12).map (fun i => a.getD i 0 &&& b.getD i 0)

/-- Open up-tree slots of a router. -/
def upSlots (s : State) (t : Nat) : List UpSlot := mapGet (fun _ => []) s.net.up t

/-- Up-tree slots set. -/
def setUpSlots (s : State) (t : Nat) (l : List UpSlot) : State :=
  { s with net := { s.net with up := mapPut (fun _ => []) s.net.up t l } }

/-- The lost subtree behind the Parith port of a router, when the group has one there (R253). -/
def lostPort (s : State) (t g : Nat) : Option Nat :=
  match portAt t with
  | some p => if attach p 0 = t && fabricDown s g p && !portRuns s p then some (edgePort p) else none
  | none => none

/-- The answer for a lost subtree (R253): a VOTE not clean; a REVOKE_ACK done. -/
def lostWords (type : Nat) (w : List Nat) : List Nat :=
  if type = 0x0C then (w.getD 0 0 &&& 0xFFFFFFFE) :: w.drop 1 else w

/-- The combined reply, whose last part came in by `port`, leaves a router: up its tree, out of the fabric port, or to its L port at the root. -/
def replyUp (s : State) (t port : Nat) (c : Ctrl) : State :=
  let up := (mcEntry s t c.group).2.2
  let k := s.net.serial
  if up != 0 then sendBy (numbered s 1) t up k { loc := t, port := port, pkt := .ctrl c, id := k, came := 1 }
  else match (if c.type = 0x08 || c.type = 0x10 then none else fabricUp s c.group) with
    | some q => toPort s q (.ctrl c)
    | none => eject s t (.ctrl c)

/-- A slot whose every DOWN port has replied, last by `port`, sends one reply and is freed. -/
def upEval (s : State) (t port : Nat) (x : UpSlot) : State :=
  let lost := (lostPort s t x.group).filter (fun n => !x.heard.testBit n)
  let heard := match lost with | some n => x.heard ||| 2 ^ n | none => x.heard
  let words := if lost.isSome then lostWords x.type x.acc.words else x.acc.words
  let d := downPorts s t x.group
  if heard &&& d = d then replyUp (setUpSlots s t ((upSlots s t).erase x)) t port { x.acc with words := words }
  else s

/-- A reply that came in by `port` of router `t`, or that the router gives for a lost port, combined (R218); with all 16
slots in use there is no place for it. -/
def hearReply (s : State) (t port : Nat) (c : Ctrl) : Option State :=
  let l := upSlots s t
  if !(mcEntry s t c.group).1 then some s
  else match l.find? (fun x => x.group == c.group && x.type == c.type && x.round == c.round) with
    | some x =>
      let y := { x with heard := x.heard ||| 2 ^ port, acc := { x.acc with words := combineReply c.type x.acc.words c.words } }
      some (upEval (setUpSlots s t (l.map (fun z => if z == x then y else z))) t port y)
    | none =>
      if l.length < 16 then
        let y : UpSlot := { group := c.group, type := c.type, round := c.round, heard := 2 ^ port, acc := c }
        some (upEval (setUpSlots s t (l ++ [y])) t port y)
      else none

/-- A reply that the router gives for a lost port is combined, or waits for a slot as any other (R218, R253). -/
def hearOrHold (s : State) (t port : Nat) (c : Ctrl) : State := (hearReply s t port c).getD (hold s t port (.ctrl c))

/-- The Parith port whose link is port `n` of router `t`, at the router that stands for it in a tree (R252). -/
def treePort (t n : Nat) : Option Nat := (portAt t).filter (fun p => attach p 0 == t && edgePort p == n)

/-- A reply has come in by port `n` of a router: a Parith port there owes it no longer (R253). -/
def replyHeard (s : State) (t n : Nat) (c : Ctrl) : State :=
  match treePort t n with
  | none => s
  | some p =>
    let v := mapGet (fun _ => []) s.net.votes p
    { s with net := { s.net with
      awaited := s.net.awaited.filter (fun e => !(e.1 == p && e.2.group == c.group && e.2.type == c.type && e.2.round == c.round))
      votes := if c.type = 0x0C then mapPut (fun _ => []) s.net.votes p (v.filter (fun e => e.1 != c.group) ++ [(c.group, c.round)]) else s.net.votes } }

/-- The reply that stands for a lost subtree (R253): a REVOKE_ACK with DONE. -/
def ackFor (s : State) (t : Nat) (c : Ctrl) : Ctrl :=
  { toGroup (mkCtrl s 0x05 t c.context c.round [1]) c.group with ctxEpoch := c.ctxEpoch }

/-- A REVOKE copied to port `n` of a router: the Parith port there owes its REVOKE_ACK, or, where it is lost, the router gives
it (R188, R253). -/
def owesReply (s : State) (t n : Nat) (p : Pkt) : State :=
  match treePort t n, p with
  | some q, .ctrl c =>
    if c.type != 0x04 then s
    else if portRuns s q then { s with net := { s.net with awaited := s.net.awaited ++ [(q, ackFor s t c)] } }
    else hearOrHold s t n (ackFor s t c)
  | _, _ => s

/-! ### Packets of a group (R218, R252) -/

/-- One copy of a packet of a group leaves by port `o.1` as number `o.2`: to the L port, out of Parith port `o.1 - 16`, or by a
link (R218, R252). -/
def copyOut (t d : Nat) (x : Here) (s : State) (o : Nat × Nat) : State :=
  if o.1 = 0 then
    match x.pkt with
    | .fw _ => each (copiesOf x o.2) (fun u f => deliverFlit u t f) s
    | p => deliverCopy s t p
  else if 16 ≤ o.1 then (if whole x then toPort s (o.1 - 16) x.pkt else s)
  else
    let u := sendBy s t o.1 o.2 x
    if d.testBit o.1 then owesReply u t o.1 x.pkt else u

/-- The ports by which a packet of a group leaves a router: up toward the root, out of the port toward the fabric root while
that port runs or the packet is no ABORT (log entry 182, DEDUCED), or down the tree (R218, R252, R260). -/
def groupOuts (s : State) (t : Nat) (x : Here) : List Nat :=
  let g := pktGroup x.pkt
  let e := mcEntry s t g
  let abort := match x.pkt with | .ctrl c => c.type == 0x0E | _ => false
  let down := (List.range 9).filter (fun n => (downPorts s t g).testBit n)
  if !e.1 then []
  else if e.2.2 != 0 && x.port != e.2.2 then [e.2.2]
  else match (if e.2.2 = 0 then fabricUp s g else none) with
    | some q => if (x.port = edgePort q && portAt t == some q) || (abort && !portRuns s q) then down else [16 + q]
    | none => down

/-- A packet of a group at a router goes on; later flits of it follow (R218). -/
def forwardGroup (s : State) (t : Nat) (x : Here) : State :=
  let outs := (groupOuts s t x).zipIdx s.net.serial
  let u := each outs (copyOut t (downPorts s t (pktGroup x.pkt)) x) (numbered s outs.length)
  if whole x then u
  else { u with net := { u.net with flows := u.net.flows ++ [{ loc := t, port := x.port, id := x.id, outs := outs }] } }

/-- Meaning of MULTICAST_FORWARD (R218, R252): a packet that came in by `port` travels up to the root,
or is copied down the tree. A group without a valid entry drops it (log entry 17, DEDUCED) (log entry 18, DEDUCED). -/
def execMulticastForward (t : TileId) (port : Fin 9) (p : Pkt) (s : State) : Host.Outcome State Fault Refusal :=
  let mcast := match p with | .ctrl c => c.mcast && !isUpTree c.type | .fw f => f.mcast | _ => false
  .next (match (if mcast then hereOf s t port p else none) with
    | none => s
    | some x => acted (forwardGroup { s with net := { s.net with here := s.net.here.erase x } } t x) t port)

/-! ### Replies and probes (R217, R218) -/

/-- Meaning of UPTREE_REPLY (R218): a reply that came in by `port` is combined. With all 16 slots in
use it waits. -/
def execUptreeReply (t : TileId) (port : Fin 9) (c : Ctrl) (s : State) : Host.Outcome State Fault Refusal :=
  .next (if !isUpTree c.type then s
    else match (takeHere s t port (.ctrl c)).bind (fun u => hearReply (replyHeard u t port c) t port c) with
      | some u => acted u t port
      | none => s)

/-- Meaning of MESH_PROBE (R217): Hornbeam takes the reply of the last round, if it has come to the
root, and sends the next probe to group `g`, one in each window of 1 µs (log entry 175, DESIGN CHOICE). -/
def execMeshProbe (g : Fin 4096) (root : TileId) (reply : Option Ctrl) (s : State) : Host.Outcome State Fault Refusal :=
  let probe (u : State) : State :=
    let r := (u.net.meshRound + 1) % 256
    hbInject { u with net := { u.net with meshRound := r, meshAt := now u / 1000 + 1 } } (.ctrl (toGroup (mkCtrl u 0x0F 1 0 r []) g))
  .next (if s.net.meshAt = now s / 1000 + 1 then s else match reply with
    | none => probe s
    | some c =>
      if c.type = 0x10 && c.round = s.net.meshRound && c.group = g.val then
        match takeEjected s root (.ctrl c) with
        | some u => probe { u with net := { u.net with meshQuiet := if c.words.getD 0 0 = 0 then u.net.meshQuiet + 1 else 0 } }
        | none => s
      else s)

/-! ### Combining (R57, R224, R254) -/

/-- The fixed-window sum of a reduction packet. -/
def redFws (r : Red) : Fws :=
  { anchor := r.anchor, w := signedOf 256 r.value, ovf := r.ovf, inv := r.inv, trunc := r.trunc, res := r.residue }

/-- A reduction packet with another sum. -/
def redWith (r : Red) (f : Fws) : Red :=
  { r with value := patternOf 256 f.w, ovf := f.ovf, inv := f.inv, trunc := f.trunc, residue := f.res, anchor := f.anchor }

/-- Keys of two partials agree (R224). -/
def sameKey (a b : Red) : Bool :=
  a.dst == b.dst && a.context == b.context && a.ctxEpoch == b.ctxEpoch && a.redId == b.redId && a.elem == b.elem

/-- A partial added to another of its key: a mismatch of TOTAL or KIND, or of anchors, sets INV and is recorded on
page `p`; the tile of a store sets its own bit, and the record of the anchors follows its check (R57, R75, R224) (log
entry 48, DEDUCED) (log entry 192, DESIGN CHOICE). -/
def redJoin (s : State) (p : Nat) (store : Option Nat) (a b : Red) : State × Red :=
  let bad := a.total != b.total || a.kind != b.kind
  let s1 := if bad then report s p 0x0607 { ctx := some a.context } else s
  let s2 := if a.anchor != b.anchor then
      (match store with | some t => raiseArith s1 t [0x0109] | none => report s1 p 0x0109 { ctx := some a.context }) else s1
  let f := fwsJoin (redFws a) (redFws b)
  (s2, { redWith a { f with inv := f.inv || bad } with contrib := a.contrib + b.contrib })

/-- Combining entries of a router (below 4608), or of the egress or ingress side of a port. -/
def combOf (s : State) (l : Nat) : List Comb := mapGet (fun _ => []) s.net.comb l

/-- Combining entries set. -/
def setComb (s : State) (l : Nat) (c : List Comb) : State := { s with net := { s.net with comb := mapPut (fun _ => []) s.net.comb l c } }

/-- The page of a combining location. -/
def combPage (l : Nat) : Nat := if l < 4608 then rtPage l else pxPage ((l - 4608) % 14)

/-- Number of combining entries (R224, R254). -/
def combRoom (l : Nat) : Nat := if l < 4608 then 8 else 32

/-- Output port of a partial at a router: 0 is L. -/
def redOut (s : State) (t : Nat) (r : Red) : Nat := routeOf s t (routeTarget s (.red r))

/-- A partial for the tile of router `t`. -/
def redHome (s : State) (t : Nat) (r : Red) : Bool := redOut s t r = 0 && isLocal s (.red r)

/-- A partial, which came in by `port` or (15) of an entry whose hold is over, leaves a combining location: to the completion store's buffer, over a link, or through its port. -/
def redForward (s : State) (l port : Nat) (r : Red) : State :=
  if l < 4608 then
    if redHome s l r then
      if tileFenced s l || tileInReset s l then redReset s l r.context else hold s l (16 + port) (.red r)
    else if redOut s l r = 0 then toPort s (exitOf s (pktDev s (.red r))) (.red r)
    else pushFlits (numbered s 1) l (redOut s l r) (allFlits s (.red r) port)
  else if l < 4622 then egressAdd s (l - 4608) (.red r)
  else crossIn s (l - 4622) (attach (l - 4622) (pktDev s (.red r) % 2)) (.red r)

/-- A partial at a combining location: added to the entry of its key, opening one, or passed on uncombined (R224, R254). -/
def combine (s : State) (l port : Nat) (r : Red) : State :=
  let cs := combOf s l
  if r.kind != 1 && r.kind != 2 then redForward s l port r
  else match cs.find? (fun e => sameKey e.red r) with
    | some e =>
      let j := redJoin s (combPage l) none e.red r
      let v := if l < 4608 then incWrap j.1 (rtReg l 0x088) 1 else if 4622 ≤ l then oweCredit j.1 (l - 4622) 1 1 else j.1
      if j.2.total ≤ j.2.contrib then redForward (setComb v l (cs.erase e)) l port j.2
      else setComb v l (cs.map (fun x => if x == e then { e with red := j.2 } else x))
    | none =>
      if cs.length < combRoom l && !(l < 4608 && redHome s l r) then
        if r.total ≤ r.contrib then redForward s l port r
        else setComb s l (cs ++ [{ red := r, opened := now s }])
      else redForward (if l < 4608 then incWrap s (rtReg l 0x090) 1 else s) l port r

/-- Meaning of REDUCTION_PACKET_ARRIVAL (R224, R254) at a router (`l` below 4608), the egress side of
port `l` − 4608 or the ingress side of port `l` − 4622 (log entry 19, DEDUCED). -/
def execReductionPacketArrival (l : Fin 4636) (port : Fin 9) (r : Red) (s : State) : Host.Outcome State Fault Refusal :=
  .next (match takeHere s l port (.red r) with
    | none => s
    | some u => acted (combine u l port r) l port)

/-- Meaning of RED_HOLD_EXPIRY (R224, R254): entry `i` of a location forwards its packet. A port's hold is
counted in periods of its 1.6 GHz clock; a router's in steps, whose passing the command tells. -/
def execRedHoldExpiry (l : Fin 4636) (i : Fin 32) (s : State) : Host.Outcome State Fault Refusal :=
  .next (match (combOf s l)[i.val]? with
    | none => s
    | some e =>
      if l.val < 4608 || rdF s (pxReg ((l.val - 4608) % 14) 0x100) 32 8 * 10 ≤ (now s - e.opened) * 16
      then redForward (setComb s l ((combOf s l).eraseIdx i)) l 15 e.red
      else s)

/-! ### Completion stores (R225, R226) -/

/-- The completion store of a tile. -/
def compOf (s : State) (t : Nat) : List CompEntry := mapGet (fun _ => []) s.net.comp t

/-- A completion store set. -/
def setComp (s : State) (t : Nat) (l : List CompEntry) : State := { s with net := { s.net with comp := mapPut (fun _ => []) s.net.comp t l } }

/-- Entries in use: one for each key and one for each B32 partial that waits. -/
def compUsed (l : List CompEntry) : Nat := (l.map (fun e => 1 + e.held.length)).sum

/-- The eight values of a B32 partial. -/
def b32Values (r : Red) : List Nat := (List.range 8).map (fun i => fieldNat r.value (32 * i) 32)

/-- A B32 partial added to its accumulators (R60, R225). -/
def addB32 (e : CompEntry) (r : Red) : CompEntry :=
  { e with sums := (e.sums.zip (b32Values r)).map (fun q => b32Add (rmodeOf r.rmode) q.1 (ofB32 q.2)), next := e.next + 1 }

/-- Held partials that have become next are added, at most `n`. -/
def drainHeld : Nat → CompEntry → CompEntry
  | 0, e => e
  | n + 1, e =>
    match e.held.find? (fun r => r.partIndex == e.next) with
    | some r => drainHeld n (addB32 { e with held := e.held.erase r } r)
    | none => e

/-- The routers of the way from router `n` to tile `d`, both among them; at most `k`. -/
def pathOf (s : State) : Nat → Nat → Nat → List Nat
  | 0, _, _ => []
  | k + 1, n, d =>
    n :: (if n = d then [] else match neighbour n (routeOf s n d) with
      | some m => pathOf s k m d
      | none => [])

/-- The clusters of the tiles that contributed to a reduction in its context's open step, and of the routers of their
partials' ways to its destination (R69, R350) (log entry 177, DEDUCED). -/
def redClusters (s : State) (t : Nat) (r : Red) : List Nat :=
  (((mapGet (fun _ => []) s.commit.contrib r.context).filter (fun e => e.2.1 == r.dst && e.2.2 == r.redId)).flatMap
    (fun e => (pathOf s 256 e.1 t).map clusterOf)).eraseDups

/-- Clusters of this device on the ways of the partials that clusters of `ks` contributed, in the open step of `c`, to
reductions that complete on another device (R69, R350) (log entry 177, DEDUCED): the record 0x0105 stands there. -/
def contributedAway (s : State) (c : Nat) (ks : List Nat) : List Nat :=
  (((mapGet (fun _ => []) s.commit.contrib c).filter (fun e => ks.contains (clusterOf e.1) && epDev e.2.1 != deviceId s)).flatMap
    (fun e => (pathOf s 256 e.1 (attach (exitOf s (epDev e.2.1)) (epDev e.2.1 % 2))).map clusterOf)).eraseDups

/-- Clusters named beside the one whose record stands for them (R69). -/
def nameAlso (s : State) (c code : Nat) (ks : List Nat) : State :=
  let l := mapGet (fun _ => []) s.commit.named c
  let more := (ks.filter (fun k => !l.any (fun n => n.cluster == k))).map (fun k => ({ cluster := k, code := code, pred := 0, obs := 0 } : Named))
  if more.isEmpty then s else { s with commit := { s.commit with named := mapPut (fun _ => []) s.commit.named c (l ++ more) } }

/-- A completed fixed-window entry whose residue disagrees with its sum (R69): record 0x0105, checks-clean
cleared, the suspects named, and in a T or V tile the actions of R68. -/
def residueBad (s : State) (t : Nat) (r : Red) : State :=
  let obs := residue (signedOf 256 r.value)
  let s1 := if hasArith t then
      wr (incSat (setArith s t 5) (tileReg t 0 0x418)) (tileReg t 0 0x420)
        (BitVec.ofNat 64 (place 40 16 r.stepTag + place 32 8 r.context + 2 ^ 15 + place 7 7 r.residue + place 0 7 obs))
    else s
  let s2 := report s1 (arithPage t) 0x0105 { ctx := some r.context, clean := true, detail := [r.redId, r.residue, obs] }
  clearClean (nameAlso s2 r.context 0x0105 (redClusters s2 t r)) t r.context

/-- A fixed-window entry after its sum changed: complete when CONTRIB reaches TOTAL, and then checked, in a T or V tile as one
of SCR_CHECKS (R69, R72), with a record for each of its conditions in ascending order of code (R75). SCR_INJECT offsets
no prediction here, since the packets carry it (log entry 191, DESIGN CHOICE). -/
def fwsDone (s : State) (t : Nat) (e : CompEntry) : State × CompEntry :=
  if e.red.total ≤ e.red.contrib then
    let f := fwsFinal (e.red.kind == 2) (redFws e.red)
    let s0 := if hasArith t then incWrap s (tileReg t 0 0x410) 1 else s
    let s1 := if sameResidue (residue (signedOf 256 e.red.value)) e.red.residue then s0 else residueBad s0 t e.red
    (arithEvents s1 t e.red.context (fwsCodes (e.red.kind == 2) { redFws e.red with inv := f.inv } f ++ if e.mis then [0x0109] else []), { e with red := redWith e.red f, done := true })
  else (s, e)

/-- A partial taken into a store; `none` when it must wait for an entry. -/
def compTake (s : State) (t : Nat) (r : Red) : Option State :=
  let l := compOf s t
  let full := 128 < compUsed l + (if r.kind = 0 && r.partIndex != 0 && !l.any (fun e => sameKey e.red r && !e.done) then 2 else 1)
  match l.find? (fun e => sameKey e.red r && !e.done) with
  | some e =>
    let put (u : State) (x : CompEntry) : State := setComp u t (l.map (fun y => if y == e then x else y))
    if e.red.kind = 0 && r.kind = 0 then
      let bad := e.red.total != r.total
      let u := if bad then report s (rtPage t) 0x0607 { ctx := some r.context } else s
      let e1 := if bad then { e with red := { e.red with inv := true } } else e
      if r.partIndex = e.next then
        let x := drainHeld e.held.length (addB32 e1 r)
        some (put u { x with done := decide (e.red.total ≤ x.next) })
      else if full then none
      else some (put u { e1 with held := e.held ++ [r] })
    else
      let j := redJoin s (rtPage t) (some t) e.red r
      let d := fwsDone j.1 t { e with red := j.2, mis := e.mis || e.red.anchor != r.anchor }
      some (put d.1 d.2)
  | none =>
    if full then none
    else
      let e : CompEntry := { red := r, sums := List.replicate 8 none, next := 0, held := [], done := false, mis := false }
      if r.kind = 0 then
        let x := if r.partIndex = 0 then addB32 e r else { e with held := [r] }
        some (setComp s t (l ++ [{ x with done := decide (r.total ≤ x.next) }]))
      else
        let d := fwsDone s t e
        some (setComp d.1 t (l ++ [d.2]))

/-- Meaning of COMPLETION_STORE_ARRIVAL (R225, R374): a partial at its destination; one of an older
context epoch is discarded, and one for a cluster in C2 waits for its wake (R448). -/
def execCompletionStoreArrival (t : TileId) (port : Fin 16) (r : Red) (s : State) : Host.Outcome State Fault Refusal :=
  .next (match takeHere s t (16 + port.val) (.red r) with
    | none => s
    | some u =>
      if tileFenced u t || tileInReset u t then acted (redReset u t r.context) t port
      else if clusterPower s (clusterOf t) = 2 then s
      else if !epochMatches u t r.context r.ctxEpoch then acted (ctlCount u t 0 1) t port
      else match compTake u t r with
        | some v => acted v t port
        | none => s)

/-- The message of a complete entry (R226). -/
def compPayload (e : CompEntry) : List Byte :=
  wordBytes [place 16 16 e.red.redId + e.red.elem % 65536, place 30 2 e.red.kind]
    ++ (if e.red.kind = 0 then wordBytes (e.sums.map b32Read) else bytesOf 32 (fwsRec (redFws e.red)))

/-- Meaning of COMPLETION_MESSAGE_SEND (R226): entry `i` of a store, complete, is sent and freed; until
it has credit it is held. -/
def execCompletionMessageSend (t : TileId) (i : Fin 128) (s : State) : Host.Outcome State Fault Refusal :=
  .next (match (compOf s t)[i.val]? with
    | none => s
    | some e =>
      if e.done && tileRuns s t then
        let m0 := buildMsg s t 0 e.red.context e.red.dst 0 2 (compPayload e)
        let m := { m0 with hdr := { m0.hdr with ctxEpoch := e.red.ctxEpoch } }
        let r := trySend (setComp s t ((compOf s t).eraseIdx i)) t 0 .store m
        if r.1 == .wait then s else r.2
      else s)

end Sys2Proof.Machine
end

