-- ==== Sys2Proof/Machine/Gateway.lean ====
section
/-! DEFINITION. The gateway cache, by which device units reach companion memory (R297, R298). -/

namespace Sys2Proof.Machine

/-- First address of companion memory (R23). -/
def hostBase : Nat := 0x800000000000

/-- The cached line that holds companion line `l`, if any. -/
def gwAt (s : State) (l : Nat) : Option GwLine := mapFind l s.gorbin.gw

/-- A cached line set, or removed. -/
def setGw (s : State) (l : Nat) (e : Option GwLine) : State :=
  { s with gorbin := { s.gorbin with gw := match e with
    | some x => mapInsert l x (mapErase l s.gorbin.gw)
    | none => mapErase l s.gorbin.gw } }

/-- A modified line written back to the companion, or a clean one given up (R297). -/
def giveUp (s : State) (l : Nat) : State :=
  match gwAt s l with
  | none => s
  | some e =>
    if e.st = 3 then gbSend (incWrap (setGw s l none) (gbReg 0x0A8) 1) 0x13 0 (l * 64) 0 e.data
    else gbSend (setGw s l none) 0x14 0 (l * 64) 0 []

/-- Lines cached in the set of line `l` (R297: 32,768 sets). -/
def gwSet (s : State) (l : Nat) : List Nat := (s.gorbin.gw.filter (fun e => e.1 % 32768 == l % 32768)).map Prod.fst

/-- A line installed; a full set of 16 ways first gives up a line of the cache's choice. -/
def gwInstall (s : State) (l st : Nat) (data : List Byte) : State :=
  let ways := gwSet s l
  let s1 := if 16 ≤ ways.length && !ways.contains l then giveUp (drawn s) (ways.getD (freeNat s % ways.length) l) else s
  setGw s1 l (some { st := st, data := data })

/-- The request that an access of a line needs (R297): none on a hit. -/
def gwNeed (s : State) (l : Nat) (write : Bool) : Option Nat :=
  match gwAt s l with
  | some e => if write && e.st == 1 then some 0x12 else none
  | none => some (if write then 0x11 else 0x10)

/-- Misses outstanding. -/
def gwMisses (s : State) : Nat := (s.gorbin.reqs.filter (fun r => r.opc == 0x10 || r.opc == 0x11)).length

/-- A line's request ended without data, with a status of R292: the access that needs it fails. -/
def gwFailed (s : State) (l status : Nat) : State :=
  { s with gorbin := { s.gorbin with gwFail := mapInsert l status (mapErase l s.gorbin.gwFail) } }

/-- A line's request issued, unless one for it is outstanding; a miss, which an upgrade of a line held is not, waits while
1,024 are outstanding; on a link that is not running it ends at once with LINK (R297, R298). -/
def gwMiss (s : State) (l opc : Nat) : State :=
  if s.gorbin.reqs.any (fun r => (r.opc == 0x10 || r.opc == 0x11 || r.opc == 0x12) && r.addr == l * 64) then s
  else if !gbUp s then gwFailed s l 5
  else if opc = 0x12 then gbRequest s opc (l * 64)
  else if 1024 ≤ gwMisses s then s
  else gbRequest (incWrap s (gbReg 0x0A0) 1) opc (l * 64)

/-- How an access of companion memory stands: its data, that it waits, or the status with which it failed (R292). -/
inductive GwRes where
  | ok (data : List Byte)
  | wait
  | fail (status : Nat)
  deriving DecidableEq, Repr

/-- Byte of a cached line. -/
def gwByte (s : State) (a : Nat) : Byte := match gwAt s (a / 64) with | some e => e.data.getD (a % 64) 0 | none => 0

/-- Byte of a cached line written: the line becomes M. -/
def gwPut (s : State) (a : Nat) (b : Byte) : State :=
  match gwAt s (a / 64) with
  | some e => setGw s (a / 64) (some { st := 3, data := e.data.set (a % 64) b })
  | none => s

/-- An access to companion memory at device address `a` (R297): performed when every line hits, else
its misses are issued and it waits, or it fails with a line that could not be had. -/
def gwAccess (s : State) (a len : Nat) (data : Option (List (Option Byte))) : GwRes × State :=
  let c := a - hostBase
  let lines := linesIn c len
  match s.gorbin.gwFail.find? (fun e => lines.contains e.1) with
  | some e => (.fail e.2, { s with gorbin := { s.gorbin with gwFail := s.gorbin.gwFail.filter (fun x => !lines.contains x.1) } })
  | none =>
    let need := lines.filterMap (fun l => (gwNeed s l data.isSome).map (fun o => (l, o)))
    if need.isEmpty then
      match data with
      | none => (.ok ((List.range len).map (fun i => gwByte s (c + i))), s)
      | some d => (.ok [], each d.zipIdx (fun u p => match p.1 with | some b => gwPut u (c + p.2) b | none => u) s)
    else (.wait, each need (fun u p => gwMiss u p.1 p.2) s)

end Sys2Proof.Machine
end

