-- ==== Sys2Proof/Machine/Vector.lean ====
section
/-! DEFINITION. The V engine: elementwise operations, conversions, special functions, row reductions,
top-k and the sampler (R87–R98, R522, R523). -/

namespace Sys2Proof.Machine

/-! ### Rows (R523) -/

/-- Bytes of a row of `len` elements of a code. -/
def rowBytes (code len : Nat) : Nat :=
  if isMx code then len / 32 * (codeBits code * 4) + len / 32 else (codeBits code * len + 7) / 8

/-- Bytes of an input row of a V record. -/
def inRowBytes (r : VRec) : Nat := if r.op = 0x1D then 8 * r.k else rowBytes r.inFmt r.len

/-- Values of a row in a code other than the FWS record, and the number of blocks with scale 0xFF. -/
def rowValues (code len : Nat) (bs : List Byte) : List Fl × Nat :=
  if isMx code then
    let nb := len / 32
    let bb := codeBits code * 4
    let blocks := (List.range nb).map (fun i =>
      let x := (bs.getD (nb * bb + i) 0).toNat
      let es := (unpackElems (codeBits code) 32 ((bs.drop (i * bb)).take bb)).map (decodeElem code)
      (x, if x = 0xFF then es.map (fun _ => Fl.nan) else es.map (scaleFl ((x : Int) - 127))))
    (blocks.flatMap Prod.snd, (blocks.filter (fun b => b.1 == 0xFF)).length)
  else ((unpackElems (codeBits code) len bs).map (decodeElem code), 0)

/-- FWS records of a row. -/
def rowRecords (len : Nat) (bs : List Byte) : List Fws :=
  (List.range len).map (fun i => fwsOfRec (natOfBytes ((bs.drop (32 * i)).take 32)))

/-- The V activation that is due with an operation. -/
def dueV (s : State) (t op : Nat) : Option (Act × VRec) :=
  if tileType t = .v then (dueAct s t op (fun w => (vRecOf w).op)).map (fun a => (a, vRecOf a.words)) else none

/-- The check of a row whose residue the spec does not state: floating significands and exponents (R66). -/
def rowChk (s : State) : Chk := { res := freeNat s % 127, mul := false, acc := false, flt := true, codes := [] }

/-- A V operation's row: the bytes it sends, the checks it owes to Scruple, and the state after its events. -/
abbrev RowRes := (List Byte × List Chk) × State

/-- A row that owes one check of floating arithmetic (log entry 23, DESIGN CHOICE). -/
def checkedRow (s : State) (bs : List Byte) : RowRes := ((bs, [rowChk s]), drawn s)

/-- An activation whose rows are done: the checks they owe, and the operation at its end. -/
def endRows (s : State) (t c : Nat) (chks : List Chk) : State :=
  let s1 := owe s t c chks
  progress (setAct s1 t { actOf s1 t with phase := 2, waiting := false }) t c

/-- A V operation run to its end: `f` answers each row. -/
def runRows (s : State) (t : Nat) (a : Act) (r : VRec) (steps : Nat)
    (f : State → Nat → List Byte → List Byte → RowRes) : State :=
  let outCfg := (bindOf s t true a.slot).outCfg
  let q := (List.range r.rows).foldl (fun (acc : List Chk × State) i =>
    let x := f acc.2 i (a.rowsA.getD i []) (a.rowsB.getD i [])
    (acc.1 ++ x.1.2, sendRow x.2 t a r.outEp outCfg x.1.1)) ([], busySteps s t steps)
  endRows q.2 t a.ctx q.1

/-- A V operation of one kind, when it is due. -/
def vOp (t op : Nat) (s : State) (f : State → Act → VRec → State) : State :=
  match dueV s t op with
  | some (a, r) => f s a r
  | none => s

/-- Steps at a rate of results per step, rounded up over the rows of the activation (log entry 159, DESIGN CHOICE). -/
def rateSteps (r : VRec) (rate : Nat) : Nat := ceilDiv (r.rows * r.len) rate

/-! ### Elementwise arithmetic (R87, R88) -/

/-- Codes of a row of values rounded once to the output format. -/
def outRow (r : VRec) (vs : List Fl) : List Byte :=
  packElems (codeBits r.outFmt) (vs.map (fun v => (toCode r.outFmt (rmodeOf r.rmode) r.anchor v).1))

/-- A row of an elementwise operation of R88: additions and products are checked by Scruple, comparisons and sign
operations have no path of R66. -/
def elementRow (op : Nat) (r : VRec) (f : RMode → Fl → Fl → Fl) (s : State) (ra rb : List Byte) : RowRes :=
  let va := (rowValues r.inFmt r.len ra).1
  let vb := if vBinary op then (rowValues r.inFmt r.len rb).1 else va
  let bs := outRow r ((va.zip vb).map (fun p => f (rmodeOf r.rmode) p.1 p.2))
  if op ≤ 3 then checkedRow s bs else ((bs, []), s)

/-- An elementwise operation of R88. -/
def elementwise (t op : Nat) (s : State) (f : RMode → Fl → Fl → Fl) : State :=
  vOp t op s (fun u a r =>
    runRows u t a r (rateSteps r (if r.outFmt = 0 then 64 else 128)) (fun x _ ra rb => elementRow op r f x ra rb))

/-- IEEE 754-2019 maximum. -/
def maxFl (a b : Fl) : Fl :=
  match a, b with
  | .nan, _ => .nan
  | _, .nan => .nan
  | a, b => if totalLe a b then b else a

/-- IEEE 754-2019 minimum. -/
def minFl (a b : Fl) : Fl :=
  match a, b with
  | .nan, _ => .nan
  | _, .nan => .nan
  | a, b => if totalLe a b then a else b

/-- Meaning of V_NOP (R87). -/
def execVNop (t : TileId) (s : State) : Host.Outcome State Fault Refusal :=
  .next (vOp t 0 s (fun u a _ => progress (setAct u t { a with phase := 2, waiting := false }) t a.ctx))

/-- Meaning of V_ADD (R88). -/
def execVAdd (t : TileId) (s : State) : Host.Outcome State Fault Refusal :=
  .next (elementwise t 1 s (fun m a b => addFl m a b))

/-- Meaning of V_SUB (R88). -/
def execVSub (t : TileId) (s : State) : Host.Outcome State Fault Refusal :=
  .next (elementwise t 2 s (fun m a b => addFl m a (negFl b)))

/-- Meaning of V_MUL (R88). -/
def execVMul (t : TileId) (s : State) : Host.Outcome State Fault Refusal :=
  .next (elementwise t 3 s (fun _ a b => mulFl a b))

/-- Meaning of V_MAX (R87). -/
def execVMax (t : TileId) (s : State) : Host.Outcome State Fault Refusal :=
  .next (elementwise t 4 s (fun _ a b => maxFl a b))

/-- Meaning of V_MIN (R87). -/
def execVMin (t : TileId) (s : State) : Host.Outcome State Fault Refusal :=
  .next (elementwise t 5 s (fun _ a b => minFl a b))

/-- Meaning of V_ABS (R87). -/
def execVAbs (t : TileId) (s : State) : Host.Outcome State Fault Refusal :=
  .next (elementwise t 6 s (fun _ a _ => absFl a))

/-- Meaning of V_NEG (R87). -/
def execVNeg (t : TileId) (s : State) : Host.Outcome State Fault Refusal :=
  .next (elementwise t 7 s (fun _ a _ => negFl a))

/-! ### Conversions (R59, R63, R64) -/

/-- Events of scale fields 0xFF that a row's blocks hold (R72). -/
def nanBlocks (s : State) (t c n : Nat) : State := each (List.range n) (fun u _ => scaleNan u t c) s

/-- One value converted to an output code, with its events in ascending order of code (R75). -/
def cvtOne (s : State) (t c : Nat) (r : VRec) (v : Fl) : Nat × State :=
  if r.outFmt = 0xB then
    let f := fwsOfFl r.anchor v
    (fwsRec f, arithEvents s t c (fwsCodes false (fwsZero r.anchor) f))
  else
    let q := satResult s t (toCode r.outFmt (rmodeOf r.rmode) r.anchor v) []
    (q.1.1, arithRecords q.2 t c q.1.2)

/-- One FWS record converted to an output code, with its events (R58, R59). A record of the output's own anchor passes
with its flags (log entry 160, DESIGN CHOICE). -/
def cvtFws (s : State) (t c : Nat) (r : VRec) (f : Fws) : Nat × State :=
  if r.outFmt = 0xB then
    if f.anchor = r.anchor then (fwsRec f, s)
    else
      let g := fwsOfFl r.anchor (flOfFws f)
      (fwsRec g, arithEvents s t c (fwsCodes false (fwsZero r.anchor) g))
  else
    let q := satResult s t (fwsToCode r.outFmt (rmodeOf r.rmode) f) (convCodes r.outFmt f)
    (q.1.1, arithRecords q.2 t c q.1.2)

/-- A list of conversions in element order. -/
def cvtAll {α : Type} (f : State → α → Nat × State) (s : State) (l : List α) : List Nat × State :=
  l.foldl (fun (acc : List Nat × State) v =>
    let q := f acc.2 v
    (acc.1 ++ [q.1], q.2)) ([], s)

/-- Meaning of CVT (R522). -/
def execCvt (t : TileId) (s : State) : Host.Outcome State Fault Refusal :=
  .next (vOp t 8 s (fun u a r =>
    runRows u t a r (rateSteps r 64) (fun x _ ra _ =>
      if r.inFmt = 0xB then
        let q := cvtAll (fun y f => cvtFws y t a.ctx r f) x (rowRecords r.len ra)
        ((packElems (codeBits r.outFmt) q.1, []), q.2)
      else
        let vs := rowValues r.inFmt r.len ra
        let q := cvtAll (fun y v => cvtOne y t a.ctx r v) (nanBlocks x t a.ctx vs.2) vs.1
        ((packElems (codeBits r.outFmt) q.1, []), q.2))))

/-- Values of a QUANT row, each first converted to binary32 (R522). -/
def quantInputs (r : VRec) (bs : List Byte) : List Fl :=
  if r.inFmt = 0xB then (rowRecords r.len bs).map (fun f => ofB32 (fwsToCode 0x0 (rmodeOf r.rmode) f).1)
  else (rowValues r.inFmt r.len bs).1.map (fun v => ofB32 (toB32 (rmodeOf r.rmode) v))

/-- Meaning of QUANT (R64, R522). -/
def execQuant (t : TileId) (s : State) : Host.Outcome State Fault Refusal :=
  .next (vOp t 9 s (fun u a r =>
    runRows u t a r (rateSteps r 64) (fun x _ ra _ =>
      let vs := quantInputs r ra
      let qs := (List.range (r.len / 32)).map (fun i => quantBlock r.outFmt (rmodeOf r.rmode) ((vs.drop (32 * i)).take 32))
      let es := qs.flatMap (fun q => packElems (codeBits r.outFmt) q.2.1)
      ((es ++ qs.map (fun q => BitVec.ofNat 8 q.1), []), satEvents x t a.ctx (qs.foldl (fun n q => n + q.2.2) 0)))))

/-! ### Special functions (R89) -/

/-- A special function over every element; SF_RESULTS counts the results. -/
def special (t op : Nat) (s : State) (f : Fl → Nat) : State :=
  vOp t op s (fun u a r =>
    runRows (countSteps u t 0x088 (r.rows * r.len)) t a r (rateSteps r 16) (fun x _ ra _ =>
      checkedRow x (packElems (codeBits r.outFmt) ((rowValues r.inFmt r.len ra).1.map (fun v =>
        if r.outFmt = 0 then f v else (toCode r.outFmt .nearestEven 0 (ofB32 (f v))).1)))))

/-- Meaning of EXP2 (R89). -/
def execExp2 (t : TileId) (s : State) : Host.Outcome State Fault Refusal := .next (special t 0x10 s exp2B32)

/-- Meaning of LOG2 (R89). -/
def execLog2 (t : TileId) (s : State) : Host.Outcome State Fault Refusal := .next (special t 0x11 s log2B32)

/-- Meaning of RCP (R89). -/
def execRcp (t : TileId) (s : State) : Host.Outcome State Fault Refusal := .next (special t 0x12 s rcpB32)

/-- Meaning of RSQRT (R89). -/
def execRsqrt (t : TileId) (s : State) : Host.Outcome State Fault Refusal := .next (special t 0x13 s rsqrtB32)

/-- Meaning of TANH (R89). -/
def execTanh (t : TileId) (s : State) : Host.Outcome State Fault Refusal := .next (special t 0x14 s tanhB32)

/-- Meaning of LOGISTIC (R89). -/
def execLogistic (t : TileId) (s : State) : Host.Outcome State Fault Refusal := .next (special t 0x15 s logisticB32)

/-! ### Row reductions (R90) -/

/-- The fixed-window sum of a row. -/
def rowFws (r : VRec) (vs : List Fl) : Fws := vs.foldl (fwsAdd (r.accKind == 2)) (fwsZero r.anchor)

/-- The B32 sum of a row. -/
def rowB32 (r : VRec) (vs : List Fl) : Nat := b32Read (vs.foldl (b32Add (rmodeOf r.rmode)) none)

/-- What Scruple checks of a fixed-window row sum: the residue of W, as on a T tile (R66). -/
def rsumChk (r : VRec) (f : Fws) (codes : List Nat) : Chk :=
  { res := f.res, mul := isIntCode r.inFmt, acc := true, flt := !isIntCode r.inFmt, codes := codes }

/-- One row of an RSUM with TOKEN output. -/
def rsumRow (s : State) (t : Nat) (r : VRec) (vs : List Fl) : RowRes :=
  if r.accKind = 0 then checkedRow s (outRow r [ofB32 (rowB32 r vs)])
  else
    let f := fwsFinal (r.accKind == 2) (rowFws r vs)
    let new := fwsCodes (r.accKind == 2) (fwsZero r.anchor) f
    let q := satResult (raiseArith s t new) t (fwsToCode r.outFmt (rmodeOf r.rmode) f) (new ++ convCodes r.outFmt f)
    ((packElems (codeBits r.outFmt) [q.1.1], [rsumChk r f q.1.2]), q.2)

/-- RSUM with PARTIAL output (R522). -/
def rsumPartial (s : State) (t : Nat) (a : Act) (r : VRec) : State :=
  let c := a.ctx
  let row (i : Nat) := (rowValues r.inFmt r.len (a.rowsA.getD i [])).1
  if r.accKind = 0 then
    let s1 := each (List.range (r.rows / 8)) (fun u i =>
      sendPartial u t (partialOf u t c r.outEp r.redId r.partIndex r.partCount r.rmode 0 (8 * i)
        (b32Value ((List.range 8).map (fun l => rowB32 r (row (8 * i + l))))) (fwsZero 0))) s
    endRows (drawnMany s1 r.rows) t c ((List.range r.rows).map (fun i => { rowChk s1 with res := Config.freeNat (s1.free + i) % 127 }))
  else
    let codes (i : Nat) := fwsCodes (r.accKind == 2) (fwsZero r.anchor) (rowFws r (row i))
    let s1 := each (List.range r.rows) (fun u i =>
      sendPartial (raiseArith u t (codes i)) t
        (partialOf u t c r.outEp r.redId r.partIndex r.partCount r.rmode r.accKind i (fwsValue (rowFws r (row i))) (rowFws r (row i)))) s
    endRows s1 t c ((List.range r.rows).map (fun i => rsumChk r (rowFws r (row i)) (codes i)))

/-- Meaning of RSUM (R90, R522). -/
def execRsum (t : TileId) (s : State) : Host.Outcome State Fault Refusal :=
  .next (vOp t 0x18 s (fun u a r =>
    if r.outMode = 2 then rsumPartial (busySteps u t (rateSteps r 64)) t a r
    else runRows u t a r (rateSteps r 64) (fun x _ ra _ => rsumRow x t r (rowValues r.inFmt r.len ra).1)))

/-- A reduction of a row to one value. -/
def reduceRow (t op : Nat) (s : State) (f : Fl → Fl → Fl) : State :=
  vOp t op s (fun u a r =>
    runRows u t a r (rateSteps r 64) (fun x _ ra _ =>
      match (rowValues r.inFmt r.len ra).1 with
      | v :: vs => ((outRow r [vs.foldl f v], []), x)
      | [] => ((outRow r [.nan], []), x)))

/-- Meaning of RMAX (R90). -/
def execRmax (t : TileId) (s : State) : Host.Outcome State Fault Refusal := .next (reduceRow t 0x19 s maxFl)

/-- Meaning of RMIN (R90). -/
def execRmin (t : TileId) (s : State) : Host.Outcome State Fault Refusal := .next (reduceRow t 0x1A s minFl)

/-- Position of the largest value, the lowest of equal ones; of the first NaN when there is one (R90). -/
def argMax (vs : List Fl) : Nat :=
  match vs.findIdx? (fun v => v == .nan) with
  | some i => i
  | none =>
    (vs.zipIdx.foldl (fun (best : Option (Fl × Nat)) p =>
      match best with
      | none => some p
      | some b => if numLe p.1 b.1 then some b else some p) none |>.map Prod.snd).getD 0

/-- Meaning of RARGMAX (R90). -/
def execRargmax (t : TileId) (s : State) : Host.Outcome State Fault Refusal :=
  .next (vOp t 0x1B s (fun u a r =>
    runRows u t a r (rateSteps r 64) (fun x _ ra _ =>
      ((bytesOf 4 ((r.segBase + argMax (rowValues r.inFmt r.len ra).1) % 2 ^ 21), []), x))))

/-! ### Top-k (R91, R92) -/

/-- A pair of R91: the value in binary32 and the index. -/
abbrev Pair := Nat × Nat

/-- Pair order: value descending, −0 equal to +0, then index ascending. -/
def pairBefore (a b : Pair) : Bool :=
  let x := ofB32 a.1
  let y := ofB32 b.1
  if numLe x y && numLe y x then a.2 < b.2 else numLe y x

/-- A pair placed in order. -/
def insertPair (p : Pair) : List Pair → List Pair
  | [] => [p]
  | q :: qs => if pairBefore p q then p :: q :: qs else q :: insertPair p qs

/-- The first K pairs of a list without NaN, padded (R91). -/
def topPairs (k : Nat) (ps : List Pair) : List Pair :=
  let l := ps.foldl (fun acc p => (insertPair p acc).take k) []
  l ++ List.replicate (k - l.length) (0xFF800000, 0x1FFFFF)

/-- Pairs as the bytes of a row. -/
def pairBytes (ps : List Pair) : List Byte := ps.flatMap (fun p => bytesOf 4 p.1 ++ bytesOf 4 p.2)

/-- Pairs read from bytes. -/
def pairsOf (bs : List Byte) : List Pair :=
  (List.range (bs.length / 8)).map (fun i =>
    (natOfBytes ((bs.drop (8 * i)).take 4), natOfBytes ((bs.drop (8 * i + 4)).take 4) % 2 ^ 21))

/-- NaN values left out of a TOPK row, counted and, with NAN_ERR, recorded (R91) (log entry 29, DEDUCED). -/
def topkNan (s : State) (t c n : Nat) : State :=
  if n = 0 then s
  else
    let s1 := countSteps s t 0x090 n
    if rdB s1 (tileReg t 0 0x108) 0 then report s1 (unitPage t) 0x0205 { ctx := some c, detail := [n] } else s1

/-- The pairs of row `i` of a TOPK: of its LISTS + 1 lists with MERGE, else of its values (R91, R92). -/
def topkInput (a : Act) (r : VRec) (i : Nat) (ra : List Byte) : List Pair :=
  if r.merge then ((a.lists.drop (i * (r.lists + 1))).take (r.lists + 1)).flatMap pairsOf
  else (rowValues r.inFmt r.len ra).1.zipIdx.map (fun p => (toB32 .nearestEven p.1, (r.segBase + p.2) % 2 ^ 21))

/-- Steps of a TOPK: the scan of each row's values or pairs at 64 in a step, and a finish that the spec only bounds (R91). -/
def topkSteps (s : State) (a : Act) (r : VRec) : Nat :=
  (List.range r.rows).foldl (fun n i => n + ceilDiv (if r.merge then (topkInput a r i []).length else r.len) 64) 0
    + r.rows * (freeNat s % (2 * r.k + 1))

/-- Meaning of TOPK (R91, R92): a row of values, or LISTS + 1 lists of pairs with MERGE. -/
def execTopk (t : TileId) (s : State) : Host.Outcome State Fault Refusal :=
  .next (vOp t 0x1C s (fun u a r =>
    runRows (drawn u) t a r (topkSteps u a r) (fun x i ra _ =>
      let ps := topkInput a r i ra
      let good := ps.filter (fun p => ofB32 p.1 != .nan)
      ((pairBytes (topPairs r.k good), []), topkNan x t a.ctx (ps.length - good.length)))))

/-! ### The sampler (R94–R98) -/

/-- Rounds of Philox-4×32-10 (R94). -/
def philox : Nat → Nat → Nat → Nat × Nat × Nat × Nat → Nat × Nat × Nat × Nat
  | 0, _, _, c => c
  | n + 1, k0, k1, (c0, c1, c2, c3) =>
    let p0 := 0xD2511F53 * c0
    let p1 := 0xCD9E8D57 * c2
    philox n ((k0 + 0x9E3779B9) % 2 ^ 32) ((k1 + 0xBB67AE85) % 2 ^ 32)
      ((p1 >>> 32) ^^^ c1 ^^^ k0, p1 % 2 ^ 32, (p0 >>> 32) ^^^ c3 ^^^ k1, p0 % 2 ^ 32)

/-- The draw u of a row (R94). -/
def drawOf (seed draw step stream : Nat) : Nat :=
  (philox 10 (seed % 2 ^ 32) (fieldNat seed 32 32) (draw, step % 2 ^ 32, fieldNat step 32 16, stream % 2 ^ 32)).1 >>> 8

/-- A parameter entry is invalid (R95). -/
def paramBad (inv top : Fl) : Bool :=
  (match inv with
    | .nan => true
    | .inf n => n
    | .fin n m _ => n || m == 0)
  || (match top with
    | .nan => true
    | .inf _ => true
    | .fin n m e => n || m == 0 || !finLe false m e false 1 0)

/-- Partial sums P of R96, and the last of them: fixed-window sums with anchor −40. -/
def sampleSums (inv : Fl) (m : Fl) (ps : List Pair) : List Int × Fws :=
  ps.foldl (fun (acc : List Int × Fws) p =>
    let d := ofB32 (toB32 .nearestEven (addFl .nearestEven (ofB32 p.1) (negFl m)))
    let z := ofB32 (toB32 .nearestEven (mulFl d inv))
    let y := ofB32 (toB32 .nearestEven (mulFl z (ofB32 0x3FB8AA3B)))
    let f := fwsAdd false acc.2 (ofB32 (exp2B32 y))
    (acc.1 ++ [f.w], f)) ([], fwsZero (-40))

/-- The index chosen by R96 from the sums, TOP_P and u. -/
def sampleChoice (sums : List Int) (top : Fl) (u : Nat) : Nat :=
  let last := (sums.getLast?.getD 0).toNat
  let scaled := mulFl top (.fin false last 0)
  let ge (p : Int) : Bool := match scaled with
    | .fin n m e => finLe n m e false p.toNat 0
    | _ => false
  let cut := (sums.findIdx? ge).getD (sums.length - 1)
  let pc := (sums.getD cut 0).toNat
  (sums.findIdx? (fun p => decide (u * pc < p.toNat * 2 ^ 24))).getD cut

/-- A SAMPLE_FALLBACK of a row with its record (R95, R97). -/
def fallback (s : State) (t c code : Nat) : State := report s (unitPage t) code { ctx := some c }

/-- What Scruple checks of the sums of a SAMPLE row (R66, R96): the residue of W, as on a T tile. -/
def sampleChk (f : Fws) : Chk := { res := f.res, mul := false, acc := true, flt := false, codes := fwsCodes false (fwsZero (-40)) f }

/-- One row of SAMPLE (R95–R97), with its parameter entry's bytes: the result word, and the checks it owes. -/
def sampleRow (s : State) (t : Nat) (a : Act) (r : VRec) (n : Nat) (par : List Byte) : RowRes :=
  let seed := natOfBytes (par.take 8)
  let inv := ofB32 (natOfBytes ((par.drop 8).take 4))
  let top := ofB32 (natOfBytes ((par.drop 12).take 4))
  let ps := pairsOf (a.rowsA.getD n [])
  let v0 := ofB32 (ps.getD 0 (0, 0)).1
  let idx (i : Nat) : Nat := (ps.getD i (0, 0)).2
  let bad := paramBad inv top
  let empty := v0 == .inf true
  let s1 := countSteps s t 0x098 1
  let s2 := if bad || empty then countSteps s1 t 0x0A0 1 else s1
  let s3 := if bad then fallback s2 t a.ctx 0x0206 else s2
  let s4 := if empty then fallback s3 t a.ctx 0x020D else s3
  if bad || empty then checkedRow s4 (bytesOf 4 (idx 0 + 2 ^ 31))
  else if v0 == .inf false || inv == .inf false || r.k = 1 then checkedRow s4 (bytesOf 4 (idx 0))
  else
    let u := drawOf seed r.draw (stepOf s a.ctx) (r.streamBase + n)
    let z := sampleSums inv v0 ps
    let k := sampleChk z.2
    ((bytesOf 4 (idx (sampleChoice z.1 top u)), [rowChk s4, k]), drawn (raiseArith s4 t k.codes))

/-- Byte range of row `n`'s parameter entry (R95). -/
def paramRange (r : VRec) (n : Nat) : Nat × Nat := (r.paramBase + 16 * n, 16)

/-- One row of SAMPLE once its parameter entry is in hand: the result is sent, the checks of the row's special functions
and of its sums are owed, and its steps are counted (R66, R87, R96). -/
def sampleStep (t : Nat) (r : VRec) (s : State) (a : Act) : State :=
  let x := paramRange r a.step
  let q := sampleRow s t a r a.step (handBytes a.hand x.1 x.2)
  let s1 := sendRow q.2 t a r.outEp (bindOf s t true a.slot).outCfg q.1.1
  busySteps (owe s1 t a.ctx q.1.2) t (2 * r.k + 40)

/-- Meaning of SAMPLE (R96): row by row; a parameter read that fails the region check abandons the activation there. -/
def execSample (t : TileId) (s : State) : Host.Outcome State Fault Refusal :=
  .next (vOp t 0x1D s (fun u a r =>
    runSteps u t r.rows (fun n => [paramRange r n]) (sampleStep t r) (fun x => endRows x t a.ctx [])))

end Sys2Proof.Machine
end

