-- ==== Sys2Proof/Machine/Dma.lean ====
section
/-! DEFINITION. The DMA channels of S tiles (R99–R107): descriptor messages, elements and their accesses,
conversions, indexed moves, ends of descriptors, and the answers that waiting accesses bring. -/

namespace Sys2Proof.Machine

/-- A register of channel `ch` on the S page: `k` = 0 DMA_CTRL, 1 DMA_STAT, 2 DMA_LAST (R106). -/
def dmaReg (t ch k : Nat) : Nat := tileReg t 0 (0x140 + 0x20 * ch + 8 * k)

/-- DMA_CTRL.HALT of a channel. -/
def dmaHalted (s : State) (t ch : Nat) : Bool := rdB s (dmaReg t ch 0) 1

/-! ### Descriptors (R99–R104) -/

/-- Codes that a DMA descriptor may name (R77). -/
def dmaCode (c : Nat) : Bool := c ≤ 0xB || c == 0xF

/-- A descriptor that runs no element (R104). FILL uses no SRC_FMT, but a reserved code there breaks R101 (log entry 193,
DESIGN CHOICE). -/
def dmaBad (d : DRec) : Bool :=
  let raw := d.srcFmt == 0xF || d.dstFmt == 0xF
  let mx := isMx d.srcFmt || isMx d.dstFmt
  if d.op = 0 then false
  else if 5 < d.op || !dmaCode d.srcFmt || !dmaCode d.dstFmt || d.count0 == 0 || d.count1 == 0 || d.count2 == 0 then true
  else if d.anchor != 0 && d.dstFmt != 0xB then true
  else if (raw || 2 ≤ d.op) && (d.elemBytes < 4 || 2048 < d.elemBytes || d.elemBytes % 4 != 0) then true
  else if d.op = 5 then d.dstFmt != 0xF || d.elemBytes != 4
  else if d.op != 1 then
    d.count1 != 1 || d.count2 != 1 || d.srcFmt != 0xF || d.dstFmt != 0xF
      || (d.op == 4 && (d.elemBytes != 4 || d.dst % 4 != 0))
  else d.srcFmt != d.dstFmt && (raw || (isMx d.srcFmt && isMx d.dstFmt) || (mx && d.count0 % 32 != 0))

/-- Bits of one element on a side with code `c`. -/
def dmaBits (d : DRec) (c : Nat) : Nat := if c = 0xF then 8 * d.elemBytes else codeBits c

/-- A conversion to an MX code, whose blocks each have one scale (R64, R101). -/
def toMx (d : DRec) : Bool := d.srcFmt != d.dstFmt && isMx d.dstFmt

/-- Elements of a descriptor (R101, R102). -/
def dmaTotal (d : DRec) : Nat := if d.op = 0 then 0 else if d.op = 1 then d.count0 * d.count1 * d.count2 else d.count0

/-- Byte addresses are 48 bits wide (R23). -/
def addr48 (v : Int) : Nat := (v % (2 ^ 48 : Int)).toNat

/-- Byte address and bit within the byte at which an element of `bits` bits begins, `c0` elements into a row at `base`. -/
def bitPlace (base : Int) (c0 bits : Nat) : Nat × Nat := (addr48 (base + ((c0 * bits / 8 : Nat) : Int)), c0 * bits % 8)

/-- Source and destination place of COPY element `e` (R101). -/
def copyPlaces (d : DRec) (e : Nat) : (Nat × Nat) × (Nat × Nat) :=
  let c0 := e % d.count0
  let c1 : Int := (e / d.count0 % d.count1 : Nat)
  let c2 : Int := (e / d.count0 / d.count1 : Nat)
  (bitPlace (d.src + c2 * d.srcS2 + c1 * d.srcS1) c0 (dmaBits d d.srcFmt),
   bitPlace (d.dst + c2 * d.dstS2 + c1 * d.dstS1) c0 (dmaBits d d.dstFmt))

/-- Bytes that `bits` bits from bit `o` of a byte on touch. -/
def spanBytes (o bits : Nat) : Nat := (o + bits + 7) / 8

/-! ### Accesses of an element (R104, R150, R159) -/

/-- How an access of an element, or an element, stands. -/
inductive DmaRes where
  | ok (data : List (Option Byte))
  | wait
  | fail (code : Nat)
  deriving DecidableEq, Repr

/-- The region of the descriptor's context in which a scratchpad access begins is tagged, and the access
is of whole words (log entry 32, DEDUCED). -/
def dmaTagged (s : State) (p boff len c : Nat) : Bool :=
  boff % 4 == 0 && len % 4 == 0 && ((ctxRegion s p c (boff / 4)).map (fun g => g.tagged)).getD false

/-- Bytes counted in BYTES_READ (`k` = 0) or BYTES_WRITTEN (`k` = 1). -/
def dmaCount (s : State) (t k n : Nat) : State := incWrap s (tileReg t 0 (0x080 + 8 * k)) n

/-- Bytes of an access that begin with its element: one that an earlier element began counted there (log entry 174,
DESIGN CHOICE). -/
def begun (len : Nat) (keep : Nat × Nat) : Nat := if keep.1 = 0 then len else len - 1

/-- The bytes of a scratchpad access performed for a channel of tile `t`, counted; an AADD counts apart. -/
def dmaCounted (s : State) (t : Nat) (x : SpAcc) : State :=
  match x.op with
  | .aadd => s
  | op => dmaCount s t (if opWrites op then 1 else 0) (begun x.len x.keep)

/-- The scratchpad access of a channel at an address. -/
def padAcc (t ch c addr len : Nat) (op : SpOp) (data : List (Option Byte)) (keep : Nat × Nat) : SpAcc :=
  { tile := (addr - padBase 0) / 0x80000, boff := (addr - padBase 0) % 0x80000, len := len, op := op
    req := .dma t ch, ctx := some c, data := data, keep := keep }

/-- A scratchpad access of a channel. -/
def dmaPad (s : State) (t ch c addr len : Nat) (op : SpOp) (data : List (Option Byte)) (keep : Nat × Nat) : DmaRes × State :=
  let x := padAcc t ch c addr len op data keep
  let r := access s x
  match r.1 with
  | .ok d => (.ok d, dmaCounted r.2 t x)
  | .waiting => (.wait, setChan r.2 t ch { chanOf r.2 t ch with blocked := true })
  | .failed _ => (.fail 0x0209, r.2)

/-- What a gateway access of a channel answers; a failed one has no data and clears the clean bit. -/
def dmaGwDone (t c len : Nat) (keep : Nat × Nat) (write : Bool) (r : GwRes × State) : DmaRes × State :=
  match r.1 with
  | .ok d => (.ok (if write then [] else d.map some), dmaCount r.2 t (if write then 1 else 0) (begun len keep))
  | .wait => (.wait, r.2)
  | .fail _ => (.ok (if write then [] else List.replicate len none), clearClean r.2 t c)

/-- A gateway write of channel `w`: MSIs that are due wait for it until it is made or fails (R294). -/
def gwWrite (s : State) (w a : Nat) (data : List (Option Byte)) : GwRes × State :=
  let r := gwAccess s a data.length (some data)
  (r.1, if r.1 == .wait then gwWaits r.2 w else gwSettled r.2 w)

/-- What a read of LPDDR bytes by a channel answers. -/
def dmaLineDone (t c : Nat) (r : List (Option Byte) × State) : DmaRes × State :=
  (.ok r.1, if r.1.any (fun o => o.isNone) then clearClean r.2 t c else r.2)

/-- A read of bytes by a channel in the region `g`, from bit `o` of the first byte on. -/
def dmaReadIn (s : State) (t ch c addr len o : Nat) (g : Region) : DmaRes × State :=
  match g with
  | .lpddr =>
    if !dramMapped s addr len then (.fail 0x0209, s)
    else if unsettled s addr len false then (.wait, settle s addr len false)
    else dmaLineDone t c (dramRead (dmaCount s t 0 (begun len (o, 0))) addr len (some c))
  | .pad =>
    dmaPad s t ch c addr len
      (if dmaTagged s ((addr - padBase 0) / 0x80000) ((addr - padBase 0) % 0x80000) len c then .rdTake else .rd) [] (o, 0)
  | .companion => dmaGwDone t c len (o, 0) false (gwAccess s addr len none)
  | _ => (.fail 0x0209, s)

/-- A read of `len` bytes by a channel (R101, R104, R150). -/
def dmaRead (s : State) (t ch c addr len : Nat) (o : Nat := 0) : DmaRes × State := dmaReadIn s t ch c addr len o (regionOf addr)

/-- Bytes of an element with the bits of its first and last byte that it leaves as they are. -/
def mergeKept (keep : Nat × Nat) (data old : List (Option Byte)) : List (Option Byte) :=
  (data.zip old).zipIdx.map (fun x =>
    let m := keepMask keep x.2 data.length
    match x.1.1 with
    | none => none
    | some v => if m = 0xFF then some v else x.1.2.map (fun b => (v &&& m) ||| (b &&& ~~~m)))

/-- The first byte of an element in durable memory that shares it with the one before, whose write lies in the journal. -/
def journalTail (s : State) (t ch c addr : Nat) (old : List (Option Byte)) : List (Option Byte) :=
  match (chanOf s t ch).tail with
  | some (a, b) => if a = addr && isDurable s a && stepOpen s c then some b :: old.drop 1 else old
  | none => old

/-- A write of LPDDR bytes by a channel (R272): an element that ends inside a byte merges with what the byte holds, and is
not performed where that cannot be read (R271). -/
def dmaLineWrite (s : State) (t ch c addr : Nat) (data : List (Option Byte)) (keep : Nat × Nat) : DmaRes × State :=
  let r := dramRead s addr data.length (some c)
  let bytes := if keep = (0, 0) then data else mergeKept keep data (journalTail s t ch c addr r.1)
  if bytes.any (fun o => o.isNone) && data.all (fun o => o.isSome) then (.ok [], clearClean (discardDram r.2 addr) t c)
  else
    let s1 := dmaCount s t 1 (begun data.length keep)
    let last := bytes.getLast?.bind (fun o => o.map (fun b => (addr + data.length - 1, b)))
    let w := memWrite (setChan s1 t ch { chanOf s1 t ch with tail := if keep.2 = 0 then none else last }) addr bytes (some c) (some t)
    (.ok [], if w.1 then w.2 else clearClean w.2 t c)

/-- The companion bytes that a channel's element leaves as they are, from the cached lines. -/
def gwOld (s : State) (addr len : Nat) : List (Option Byte) := (List.range len).map (fun i => some (gwByte s (addr - hostBase + i)))

/-- A write of bytes by a channel in the region `g`. -/
def dmaWriteIn (s : State) (t ch c addr : Nat) (data : List (Option Byte)) (keep : Nat × Nat) (g : Region) : DmaRes × State :=
  match g with
  | .lpddr =>
    if !dramMapped s addr data.length then (.fail 0x0209, s)
    else if unsettled s addr data.length true then (.wait, settle s addr data.length true)
    else dmaLineWrite s t ch c addr data keep
  | .pad =>
    if dmaTagged s ((addr - padBase 0) / 0x80000) ((addr - padBase 0) % 0x80000) data.length c then
      dmaPad s t ch c addr data.length .wrFill data (0, 0)
    else dmaPad s t ch c addr data.length .wr data keep
  | .companion =>
    dmaGwDone t c data.length keep true (gwWrite s (4 * t + ch) addr (mergeKept keep data (gwOld s addr data.length)))
  | _ => (.fail 0x0209, s)

/-- A write of `len` bytes by a channel would fail as it stands (R104). -/
def dmaRefuses (s : State) (t ch c addr len : Nat) : Bool :=
  match regionOf addr with
  | .lpddr => !dramMapped s addr len
  | .pad =>
    let op : SpOp := if dmaTagged s ((addr - padBase 0) / 0x80000) ((addr - padBase 0) % 0x80000) len c then .wrFill else .wr
    (regionCheck s (padAcc t ch c addr len op [] (0, 0))).isSome
  | .companion => false
  | _ => true

/-- A write of bytes by a channel; gaps are left unwritten (R150). -/
def dmaWrite (s : State) (t ch c addr : Nat) (data : List (Option Byte)) (keep : Nat × Nat := (0, 0)) : DmaRes × State :=
  dmaWriteIn s t ch c addr data keep (regionOf addr)

/-- Access number `k` of the element in progress: its answer when it is in hand, else the access itself,
whose answer is kept, and then the rest of the element. -/
def dmaThen (s : State) (t ch k : Nat) (op : State → DmaRes × State)
    (rest : State → List (Option Byte) → DmaRes × State) : DmaRes × State :=
  match (chanOf s t ch).hand[k]? with
  | some d => rest s d
  | none =>
    let r := op s
    match r.1 with
    | .ok d => rest (setChan r.2 t ch { chanOf r.2 t ch with hand := (chanOf r.2 t ch).hand ++ [d] }) d
    | .wait => (.wait, r.2)
    | .fail c => (.fail c, r.2)

/-! ### COPY (R101) -/

/-- Present bytes, with 0 where one was withheld (log entry 34, DEDUCED). -/
def orZero (l : List (Option Byte)) : List Byte := l.map (fun o => o.getD 0)

/-- A record that carries a descriptor's destination code, rounding mode and anchor to the conversions of CVT. -/
def dmaCvt (d : DRec) : VRec := { vRecOf [] with outFmt := d.dstFmt, rmode := d.rmode, anchor := d.anchor }

/-- The bits of a source element, when every byte that holds them was delivered. -/
def elemBits (o bits : Nat) (src : List (Option Byte)) : Option Nat :=
  if src.any (fun x => x.isNone) then none else some ((natOfBytes (orZero src) >>> o) % 2 ^ bits)

/-- The value of a source element under its block's scale field. -/
def dmaValue (d : DRec) (v scale : Nat) : Fl :=
  let x := decodeElem d.srcFmt v
  if isMx d.srcFmt then (if scale = 0xFF then Fl.nan else scaleFl ((scale : Int) - 127) x) else x

/-- One element converted: its code, and the state after the events (R59, R63, R64). -/
def dmaConvert (s : State) (t c : Nat) (d : DRec) (v scale : Nat) : Nat × State :=
  if d.srcFmt = 0xB then cvtFws s t c (dmaCvt d) (fwsOfRec v) else cvtOne s t c (dmaCvt d) (dmaValue d v scale)

/-- Values of a group for a block quantisation: an FWS source goes through binary32 (R59, R64). -/
def dmaBlock (d : DRec) (src : List (Option Byte)) : List Fl :=
  if d.srcFmt = 0xB then (rowRecords 32 (orZero src)).map (fun f => ofB32 (fwsToCode 0x0 (rmodeOf d.rmode) f).1)
  else (unpackElems (codeBits d.srcFmt) 32 (orZero src)).map (decodeElem d.srcFmt)

/-- The bits of an element written at its place as access `k`. -/
def storeBits (s : State) (t ch c k : Nat) (p : Nat × Nat) (bits v : Nat) : DmaRes × State :=
  let n := spanBytes p.2 bits
  dmaThen s t ch k (fun u => dmaWrite u t ch c p.1 ((bytesOf n (v <<< p.2)).map some) (p.2, 8 * n - p.2 - bits)) (fun u _ => (.ok [], u))

/-- The scale field of an MX source's block, read once for the block, as access `k`; 127 for a source without scales, and
none where its byte was withheld. -/
def withScale (s : State) (t ch c k : Nat) (d : DRec) (e : Nat) (rest : State → Option Nat → DmaRes × State) : DmaRes × State :=
  dmaThen s t ch k (fun u =>
    if !isMx d.srcFmt then (.ok [some 127], u)
    else match (chanOf u t ch).scale with
      | some (b, x) => if b = e / 32 then (.ok [x], u) else dmaRead u t ch c ((d.scale + e / 32) % 2 ^ 48) 1
      | none => dmaRead u t ch c ((d.scale + e / 32) % 2 ^ 48) 1) (fun u x =>
    rest (setChan u t ch { chanOf u t ch with scale := some (e / 32, x.getD 0 none) }) ((x.getD 0 none).map (fun b => b.toNat)))

/-- One element of a COPY. A conversion counts as an access of the element, so that its events happen once however often
the element waits, and not at all where the element's write fails (R104). -/
def copyOne (s : State) (t ch c : Nat) (d : DRec) (e : Nat) : DmaRes × State :=
  let a := copyPlaces d e
  let bs := dmaBits d d.srcFmt
  let bd := dmaBits d d.dstFmt
  dmaThen s t ch 0 (fun u => dmaRead u t ch c a.1.1 (spanBytes a.1.2 bs) a.1.2) (fun u src =>
    if d.srcFmt = d.dstFmt && bs % 8 = 0 then dmaThen u t ch 1 (fun v => dmaWrite v t ch c a.2.1 src) (fun v _ => (.ok [], v))
    else match elemBits a.1.2 bs src with
      | none => (.ok [], u)
      | some x =>
        if d.srcFmt = d.dstFmt then storeBits u t ch c 1 a.2 bd x
        else withScale u t ch c 1 d e (fun v y =>
          match y with
          | none => (.ok [], v)
          | some sc =>
            dmaThen v t ch 2 (fun w =>
              if dmaRefuses w t ch c a.2.1 (spanBytes a.2.2 bd) then (.ok [], w)
              else let q := dmaConvert w t c d x sc; (.ok ((bytesOf ((bd + 7) / 8) q.1).map some), q.2))
              (fun w out => storeBits w t ch c 3 a.2 bd (natOfBytes (orZero out)))))

/-- The block that holds element `e` of a COPY to an MX code, read and quantised once as access 0 and kept by the channel
(R64); none where a byte of it was withheld. -/
def withBlock (s : State) (t ch c : Nat) (d : DRec) (e : Nat) (rest : State → Option (Nat × List (Nat × Bool)) → DmaRes × State) :
    DmaRes × State :=
  let b := e / 32
  let kept (u : State) : Option (Option (Nat × List (Nat × Bool))) := (chanOf u t ch).block.bind (fun x => if x.1 = b then some x.2 else none)
  let a := (copyPlaces d (32 * b)).1
  match kept s with
  | some q => rest s q
  | none => dmaThen s t ch 0 (fun u => dmaRead u t ch c a.1 (4 * dmaBits d d.srcFmt)) (fun u src =>
      let q := if src.any (fun o => o.isNone) then none else some (quantElems d.dstFmt (rmodeOf d.rmode) (dmaBlock d src))
      rest (setChan u t ch { chanOf u t ch with block := some (b, q), hand := [] }) q)

/-- One element of a COPY to an MX code; the first element of a block writes its scale too (R64) (log entry 31, DEDUCED).
Nothing is left of an element whose write fails (R104). -/
def copyMx (s : State) (t ch c : Nat) (d : DRec) (e : Nat) : DmaRes × State :=
  let p := (copyPlaces d e).2
  let bits := dmaBits d d.dstFmt
  withBlock s t ch c d e (fun u q =>
    match q with
    | none => (.ok [], u)
    | some q =>
      let x := q.2.getD (e % 32) (0, false)
      dmaThen u t ch 0 (fun v =>
        if e % 32 != 0 || dmaRefuses v t ch c p.1 (spanBytes p.2 bits) then (.ok [], v)
        else dmaWrite v t ch c ((d.scale + e / 32) % 2 ^ 48) [some (BitVec.ofNat 8 q.1)]) (fun v _ =>
          let r := storeBits v t ch c 1 p bits x.1
          match r.1 with
          | .ok _ => (.ok [], satEvents r.2 t c (bit01 x.2))
          | _ => r))

/-- Element `e` of a COPY (R101). -/
def copyElem (s : State) (t ch c : Nat) (d : DRec) (e : Nat) : DmaRes × State :=
  if toMx d then copyMx s t ch c d e else copyOne s t ch c d e

/-! ### Indexed moves and FILL (R101, R102) -/

/-- The index of element `e`, then the rest; an index not below INDEX_LIMIT fails, a withheld one moves nothing. An
INDEX_BASE past the word addresses of R25 is unmapped. -/
def withIndex (s : State) (t ch c : Nat) (d : DRec) (e : Nat) (f : State → Nat → DmaRes × State) : DmaRes × State :=
  dmaThen s t ch 0 (fun u => dmaRead u t ch c (padBase 0 + 4 * (d.idxBase + e)) 4) (fun u x =>
    if x.any (fun o => o.isNone) then (.ok [], u)
    else
      let i := natOfBytes (orZero x)
      if d.idxLimit ≤ i then (.fail 0x0208, u) else f u i)

/-- Element `e` of a GATHER or SCATTER. -/
def moveIndexed (s : State) (t ch c : Nat) (d : DRec) (e : Nat) : DmaRes × State :=
  withIndex s t ch c d e (fun u i =>
    let from1 := if d.op = 2 then i else e
    let into := if d.op = 2 then e else i
    dmaThen u t ch 1 (fun v => dmaRead v t ch c ((d.src + from1 * d.elemBytes) % 2 ^ 48) d.elemBytes) (fun v x =>
      dmaThen v t ch 2 (fun y => dmaWrite y t ch c ((d.dst + into * d.elemBytes) % 2 ^ 48) x) (fun y _ => (.ok [], y))))

/-- Element `e` of a SCATTER_ADD_I32 (R102): one indivisible add. -/
def addIndexed (s : State) (t ch c : Nat) (d : DRec) (e : Nat) : DmaRes × State :=
  withIndex s t ch c d e (fun u i =>
    dmaThen u t ch 1 (fun v => dmaRead v t ch c ((d.src + 4 * e) % 2 ^ 48) 4) (fun v x =>
      if x.any (fun o => o.isNone) then (.ok [], v)
      else
        let a := (d.dst + 4 * i) % 2 ^ 48
        if regionOf a != .pad then (.fail 0x0209, v)
        else dmaThen v t ch 2 (fun y => dmaPad y t ch c a 4 .aadd x (0, 0)) (fun y old =>
          if old.any (fun o => o.isNone) then (.ok [], y)
          else
            let sum := signedOf 32 (natOfBytes (orZero old)) + signedOf 32 (natOfBytes (orZero x))
            let y1 := dmaCount y t 1 4
            (.ok [], if sum < -(2 ^ 31) || 2 ^ 31 ≤ sum then report y1 (unitPage t) 0x020A { queue := ch, ctx := some c } else y1))))

/-- Element `e` of a descriptor. -/
def dmaElement (s : State) (t ch c : Nat) (d : DRec) (e : Nat) : DmaRes × State :=
  match d.op with
  | 1 => copyElem s t ch c d e
  | 5 => dmaThen s t ch 0 (fun u => dmaWrite u t ch c ((d.dst + 4 * e) % 2 ^ 48) ((bytesOf 4 d.idxBase).map some)) (fun u _ => (.ok [], u))
  | 4 => addIndexed s t ch c d e
  | _ => moveIndexed s t ch c d e

/-! ### Starts and ends (R103–R107, R198) -/

/-- BUSY and CONTEXT of TILE_STAT, and the STATE and CONTEXT of DMA_STAT (log entry 33, DEDUCED) (log entry 193, DESIGN
CHOICE). -/
def dmaStat (s : State) (t ch c : Nat) (run : Bool) : State :=
  let s1 := wrF (wrF s (dmaReg t ch 1) 8 8 c) (dmaReg t ch 1) 0 2 (if run then 1 else if dmaHalted s t ch then 2 else 0)
  let busy := run || (List.range 4).any (fun k => k != ch && (chanOf s t k).cur.isSome)
  wrF (wrF s1 (tileReg t 0 0x100) 8 8 c) (tileReg t 0 0x100) 4 1 (bit01 busy)

/-- A descriptor ends with a status: counted, recorded, and its completion message sent (R104, R105). -/
def dmaFinish (s : State) (t ch : Nat) (x : Desc) (status done failing : Nat) : State :=
  let d := dRecOf x.words
  let s1 := dmaStat (setChan s t ch { idleChan with queued := (chanOf s t ch).queued }) t ch x.ctx false
  let s2 := incWrap s1 (tileReg t 0 (if status = 0 then 0x090 else 0x098)) 1
  let s3 := if status = 0 then s2 else report s2 (unitPage t) status { queue := ch, ctx := some x.ctx, detail := [failing] }
  let s4 := wr s3 (dmaReg t ch 2) (BitVec.ofNat 64 (place 32 16 d.tag + place 16 16 status))
  let s5 := progress s4 t x.ctx
  if d.cmp || status != 0 then
    (trySend s5 t ch (.dma ch) (buildMsg s5 t ch x.ctx d.cmpEp d.cmpHandler 2
      (wordBytes [d.tag, status, done % 2 ^ 32, failing]))).2
  else s5

/-- The channel may start a descriptor of a context (R103, R107, R128). -/
def dmaMayStart (s : State) (t ch c : Nat) : Bool :=
  tileType t == .s && (chanOf s t ch).cur.isNone && rdB s (dmaReg t ch 0) 0 && !dmaHalted s t ch
    && mayRun s t c && !heldBySet s t c

/-- The next descriptor starts; its message is released when it is the message's last (R198). -/
def dmaStart (s : State) (t ch : Nat) (x : Desc) (rest : List Desc) : State :=
  let s1 := setChan s t ch { idleChan with cur := some x, queued := rest }
  let s2 := dmaStat s1 t ch x.ctx true
  if x.last then release s2 t ch else s2

/-- Up to `n` elements of the descriptor in progress, to its end, its halt, a failure or a wait (R103, R104). -/
def dmaRun (t ch : Nat) : Nat → State → State
  | 0, s => s
  | n + 1, s =>
    let h := chanOf s t ch
    match h.cur with
    | none => s
    | some x =>
      let d := dRecOf x.words
      if h.hand.isEmpty && h.elem = 0 && dmaBad d then dmaFinish s t ch x 0x0207 0 0xFFFFFFFF
      else if dmaTotal d ≤ h.elem then dmaFinish s t ch x 0 h.elem 0xFFFFFFFF
      else if h.hand.isEmpty && dmaHalted s t ch then dmaFinish s t ch x 0x020C h.elem h.elem
      else
        let r := dmaElement s t ch x.ctx d h.elem
        match r.1 with
        | .wait => r.2
        | .fail code => dmaFinish r.2 t ch x code h.elem h.elem
        | .ok _ =>
          let u := setChan r.2 t ch { chanOf r.2 t ch with elem := h.elem + 1, hand := [] }
          let v := progress u t x.ctx
          if dmaTotal d ≤ h.elem + 1 then dmaFinish v t ch x 0 (h.elem + 1) 0xFFFFFFFF else dmaRun t ch n v

/-- Descriptors of a reserved OP at the front of the queue fail at once when they may start (R104). -/
def dmaSkip (t ch : Nat) : Nat → State → State
  | 0, s => s
  | n + 1, s =>
    match (chanOf s t ch).queued with
    | x :: rest => if 5 < (dRecOf x.words).op && dmaMayStart s t ch x.ctx then dmaSkip t ch n (dmaRun t ch 1 (dmaStart s t ch x rest)) else s
    | [] => s

/-- A command that runs descriptors of one OP: the one in progress goes on, or the next one starts. -/
def dmaOp (s : State) (t ch op n : Nat) : State :=
  let h := chanOf s t ch
  let s1 := match h.cur with
    | some x => if (dRecOf x.words).op = op && !h.blocked && mayRun s t x.ctx then dmaRun t ch n s else s
    | none =>
      match h.queued with
      | x :: rest => if (dRecOf x.words).op = op && dmaMayStart s t ch x.ctx then dmaRun t ch n (dmaStart s t ch x rest) else s
      | [] => s
  dmaSkip t ch (chanOf s1 t ch).queued.length s1

/-- Meaning of DESCRIPTOR_MESSAGE (R99): the message at the head of the channel's queue hands over its descriptors. -/
def execDescriptorMessage (t : TileId) (ch : Fin 4) (s : State) : Host.Outcome State Fault Refusal :=
  .next (
    let c := qOwner s t ch
    if tileType t != .s || !qRead s t ch || !(chanOf s t ch).queued.isEmpty || !mayRun s t c then s
    else if !qSound s t ch then queueGuard s t ch
    else
      match headMsg s t ch with
      | none => beginRead (awaitHead s t ch) t ch
      | some (m, s1) =>
        let n := m.hdr.payLen / 64
        let ds := (List.range n).map (fun i =>
          ({ words := bytesWords 16 ((m.pay.drop (64 * i)).take 64), ctx := m.hdr.context, last := decide (i + 1 = n) } : Desc))
        let s2 := setChan (endRead s1 t ch) t ch { chanOf s1 t ch with queued := ds }
        let s3 := if m.hdr.payLen % 64 = 0 then s2
          else report (incWrap s2 (tileReg t 0 0x098) 1) (unitPage t) 0x0207 { queue := ch, ctx := some m.hdr.context }
        if n = 0 then release s3 t ch else dmaSkip t ch n s3)

/-- Meaning of DMA_NOP (R104). -/
def execDmaNop (t : TileId) (ch : Fin 4) (s : State) : Host.Outcome State Fault Refusal := .next (dmaOp s t ch 0 1)

/-- Meaning of COPY (R101): up to `n` elements. -/
def execCopy (t : TileId) (ch : Fin 4) (n : Nat) (s : State) : Host.Outcome State Fault Refusal := .next (dmaOp s t ch 1 n)

/-- Meaning of GATHER (R102): up to `n` elements. -/
def execGather (t : TileId) (ch : Fin 4) (n : Nat) (s : State) : Host.Outcome State Fault Refusal := .next (dmaOp s t ch 2 n)

/-- Meaning of SCATTER (R102): up to `n` elements. -/
def execScatter (t : TileId) (ch : Fin 4) (n : Nat) (s : State) : Host.Outcome State Fault Refusal := .next (dmaOp s t ch 3 n)

/-- Meaning of SCATTER_ADD_I32 (R102): up to `n` elements. -/
def execScatterAddI32 (t : TileId) (ch : Fin 4) (n : Nat) (s : State) : Host.Outcome State Fault Refusal := .next (dmaOp s t ch 4 n)

/-- Meaning of FILL (R101): up to `n` elements. -/
def execDmaFill (t : TileId) (ch : Fin 4) (n : Nat) (s : State) : Host.Outcome State Fault Refusal := .next (dmaOp s t ch 5 n)

/-- A write of DMA_CTRL (R107): a halt takes effect at once between elements. -/
def dmaCtrl (s : State) (t ch : Nat) (v : W64) : State :=
  let s1 := wr s (dmaReg t ch 0) v
  let h := chanOf s1 t ch
  let s2 := match h.cur with
    | some x => if bitOf v 1 && h.hand.isEmpty && !h.blocked then dmaRun t ch 1 s1 else dmaStat s1 t ch x.ctx true
    | none => dmaStat s1 t ch (rdF s1 (dmaReg t ch 1) 8 8) false
  dmaSkip t ch (chanOf s2 t ch).queued.length s2

/-- PENDING of DMA_STAT (R107): descriptors of the queue's messages that have not started. -/
def dmaPending (s : State) (t ch : Nat) : Nat :=
  let h := chanOf s t ch
  let l := msgsIn s t ch
  h.queued.length + ((if h.queued.isEmpty then l else l.drop 1).map (fun m => m.payLen / 64)).foldl (· + ·) 0

/-! ### Answers of waiting accesses (R164, R166, R171) -/

/-- A waiting access of a channel has its answer: the bytes read, or nothing for a write. -/
def dmaDeliver (s : State) (x : SpAcc) (t ch : Nat) (data : List (Option Byte)) : State :=
  let h := chanOf s t ch
  setChan (dmaCounted s t x) t ch { h with hand := h.hand ++ [data], blocked := false }

/-- A waiting access of a channel was removed: the element fails (R166). -/
def dmaFailed (s : State) (t ch : Nat) : State :=
  let h := chanOf s t ch
  match h.cur with
  | some x => dmaFinish s t ch x 0x0209 h.elem h.elem
  | none => s

end Sys2Proof.Machine
end

