-- ==== Sys2Proof/Machine/Pads.lean ====
section
/-! DEFINITION. Scratchpad commands: management and unit accesses with bit upsets (R149–R151, R162), circular
regions (R161), waiters (R164–R166), region and residence registers (R156, R157), bank power
(R169–R172), write-backs and the scrubber (R152–R154). -/

namespace Sys2Proof.Machine

/-! ### Answers -/

/-- The answer of an access that waited reaches its requester. -/
def deliver (s : State) (a : SpAcc) (data : List (Option Byte)) : State :=
  match a.req with
  | .thread t n => accessDone s t n data
  | .dma t ch => dmaDeliver s a t ch data
  | .act t => if (actOf s t).on then actDeliver s a t data else s
  | .mgmt _ => emit s (.access a.req 0 data)
  | .link h => padReply s h (.ok data)

/-- A waiting access that is not performed: its requester fails (R166). -/
def deliverFail (s : State) (a : SpAcc) (code : Nat) : State :=
  match a.req with
  | .thread t n => handlerFault s t n code
  | .dma t ch => dmaFailed s t ch
  | .act t => if (actOf s t).on then engFault s t else s
  | .mgmt _ => emit s (.access a.req code [])
  | .link h => padReply s h (.failed code)

/-- An access made again after a wait, and its answer delivered. -/
def retryAccess (s : State) (a : SpAcc) : State :=
  let r := access s a
  match r.1 with
  | .ok d => deliver r.2 a d
  | .waiting => r.2
  | .failed code => deliverFail r.2 a code

/-- An access that leaves the block's answer with the world at once, or waits. -/
def openAccess (s : State) (a : SpAcc) : State :=
  let refused := match a.req with
    | .mgmt g => a.ctx.isNone && padDenied s g a.tile a.boff a.len (opWrites a.op)
    | _ => false
  if refused then emit (denied s (spPage a.tile)) (.access a.req 0x0A05 [])
  else
    let r := access s a
    match r.1 with
    | .ok d => emit r.2 (.access a.req 0 d)
    | .waiting => r.2
    | .failed code => emit r.2 (.access a.req code [])

/-- Held accesses of a tile made again, in order (R157, R171). -/
def retryHeld (s : State) (t : Nat) : State :=
  let l := s.pad.heldAcc.filter (fun h => h.acc.tile == t && h.circ.isNone)
  each l (fun u h => retryAccess u h.acc)
    { s with pad := { s.pad with heldAcc := s.pad.heldAcc.filter (fun h => !(h.acc.tile == t && h.circ.isNone)) } }

/-! ### Circular regions (R161) -/

/-- A register of circular region `n`: `k` = 0 CFG, 1 HEAD, 2 TAIL. -/
def circReg (t n k : Nat) : Nat := spReg t (0x180 + 0x20 * n + 8 * k)

/-- A pointer of R173: 17 bits with their complement. -/
def circPtr (v : Nat) : W64 := BitVec.ofNat 64 (v % 2 ^ 17 + ((2 ^ 17 - 1 - v % 2 ^ 17) <<< 32))

/-- A pointer whose complement matches. -/
def circPtrOk (w : W64) : Bool := fieldOf w 32 17 == 2 ^ 17 - 1 - fieldOf w 0 17

/-- Base and size of a circular region that is valid and sound. -/
def circAt (s : State) (t n : Nat) : Option (Nat × Nat) :=
  let w := rd s (circReg t n 0)
  if guardOk w && bitOf w 31 && !inService s t then some (fieldOf w 0 17, 2 ^ fieldOf w 17 5) else none

/-- Words present in a circular region. -/
def circUsed (s : State) (t n size : Nat) : Nat :=
  (rdF s (circReg t n 2) 0 17 + size - rdF s (circReg t n 1) 0 17 % size) % size

/-- Word offset `i` places after a pointer, within the region. -/
def circWord (b : Nat × Nat) (p i : Nat) : Nat := b.1 + (p - b.1 + i) % b.2

/-- An access to circular region `n` that has room or data: performed word by word, pointer advanced. -/
def circMove (s : State) (a : SpAcc) (n : Nat) (b : Nat × Nat) : List (Option Byte) × State :=
  let t := a.tile
  let wr' := a.op == .wr
  let p := rdF s (circReg t n (if wr' then 2 else 1)) 0 17
  let k := a.len / 4
  let r := (List.range k).foldl (fun (acc : List (Option Byte) × State) i =>
    let w := circWord b p i
    let u := touchBanks acc.2 t w 1
    if wr' then (acc.1, writePadBytes u t (4 * w) ((a.data.drop (4 * i)).take 4) none)
    else
      let q := readPadBytes u t (4 * w) 4 none
      (acc.1 ++ q.1, q.2)) ([], s)
  (r.1, wr r.2 (circReg t n (if wr' then 2 else 1)) (circPtr (circWord b p k)))

/-- A guard fault of a circular region (R160, R161): recorded, and the tile fenced. -/
def circGuard (s : State) (t code : Nat) : State := fenceTile (guardReport s (spPage t) code) t code

/-- The pointers of circular region `n` match their complements. -/
def circSound (s : State) (t n : Nat) : Bool := circPtrOk (rd s (circReg t n 1)) && circPtrOk (rd s (circReg t n 2))

/-- The words of an access to circular region `n`, one by one, as its pointer gives them. -/
def circWords (s : State) (a : SpAcc) (n : Nat) (b : Nat × Nat) : List SpAcc :=
  let p := rdF s (circReg a.tile n (if a.op == .wr then 2 else 1)) 0 17
  (List.range (a.len / 4)).map (fun i => { a with boff := 4 * circWord b p i, len := 4 })

/-- Region `n` has the space or the data of an access. -/
def circRoom (s : State) (a : SpAcc) (n : Nat) (b : Nat × Nat) : Bool :=
  if a.op == .wr then a.len / 4 ≤ b.2 - 1 - circUsed s a.tile n b.2 else a.len / 4 ≤ circUsed s a.tile n b.2

/-- An access to the valid and sound circular region `n`, the first of its kind: failed, performed, or none where it
waits for words, for space or for a bank. -/
def circTry (s : State) (a : SpAcc) (n : Nat) (b : Nat × Nat) : Option State :=
  match (circWords s a n b).findSome? (regionCheck s) with
  | some code => some (emit (accessFailed s a code) (.access a.req code []))
  | none =>
    if circRoom s a n b && !(circWords s a n b).any (mustHold s) then
      let r := circMove s a n b
      some (emit r.2 (.access a.req 0 r.1))
    else none

/-- An access to circular region `n`, which waits behind earlier ones of its kind, for space or for data; rows 1 and 2 of
R159 come before its configuration. -/
def circAccess (s : State) (a : SpAcc) (n : Nat) : State :=
  let t := a.tile
  if tileFenced s t then emit (accessFailed s a 0x0407) (.access a.req 0x0407 [])
  else if !modeAdmits s t a.req then emit (accessFailed s a 0x0406) (.access a.req 0x0406 [])
  else if !gOk s (circReg t n 0) then emit (circGuard s t 0x040B) (.access a.req 0x040B [])
  else match circAt s t n with
  | none => emit (accessFailed s a 0x0406) (.access a.req 0x0406 [])
  | some b =>
    if !circSound s t n then emit (circGuard s t 0x040C) (.access a.req 0x040C [])
    else
      let held := { s with pad := { s.pad with heldAcc := s.pad.heldAcc ++ [{ acc := a, circ := some n }] } }
      if s.pad.heldAcc.any (fun h => h.acc.tile == t && h.circ == some n && h.acc.op == a.op) then held
      else (circTry s a n b).getD held

/-- Accesses that wait on circular region `n` and can now proceed, oldest of each kind first; at most `k` passes. A
region whose pointers are not sound accepts none (R161). -/
def circServe (t n : Nat) : Nat → State → State
  | 0, s => s
  | k + 1, s =>
    let turn (op : SpOp) (u : State) : State :=
      match u.pad.heldAcc.find? (fun h => h.acc.tile == t && h.circ == some n && h.acc.op == op), circAt u t n with
      | some h, some b =>
        if circSound u t n then
          (circTry { u with pad := { u.pad with heldAcc := u.pad.heldAcc.erase h } } h.acc n b).getD u
        else u
      | _, _ => u
    circServe t n k (turn .rd (turn .wr s))

/-- A management access to a circular region by Hornbeam or Yew. -/
def circOp (s : State) (a : Agent) (t n words : Nat) (op : SpOp) (data : List Byte) : State :=
  let acc : SpAcc := { tile := t, boff := 0, len := 4 * words, op := op, req := .mgmt a, ctx := none, data := (fitBytes (4 * words) data).map some }
  if padDenied s a t 0 0 false then emit (denied s (spPage t)) (.access acc.req 0x0A05 [])
  else circServe t n (s.pad.heldAcc.length + 1) (circAccess s acc n)

/-- Meaning of CIRC_WRITE (R161). -/
def execCircWrite (a : Agent) (t : TileId) (n : Fin 4) (data : List W32) (s : State) : Host.Outcome State Fault Refusal :=
  .next (circOp s a t n data.length .wr (wordBytes (data.map (fun w => w.toNat))))

/-- Meaning of CIRC_READ (R161). -/
def execCircRead (a : Agent) (t : TileId) (n : Fin 4) (words : Nat) (s : State) : Host.Outcome State Fault Refusal :=
  .next (circOp s a t n words .rd [])

/-! ### Accesses (R149–R151, R159, R162) -/

/-- Stored bits of words flipped before an access: tile, word, and pattern of 40 bits (log entry 149, DESIGN CHOICE). -/
def upset (s : State) (t : Nat) (flips : List (Nat × Nat)) : State := each flips (fun u f => if f.1 < tileWords t then flipWord u t f else u) s

/-- An access of whole words at word offset `w`, by an agent, for a context when one is named. -/
def wordsAcc (a : Agent) (c : Option CtxId) (t w n : Nat) (op : SpOp) (data : List Byte) : SpAcc :=
  { tile := t, boff := 4 * w, len := 4 * n, op := op, req := .mgmt a, ctx := c.map (fun x => x.val), data := data.map some }

/-- The operation that a 3-bit code of R162 names. -/
def opOfCode (k : Nat) : Option SpOp :=
  match k with
  | 0 => some .rd | 1 => some .wr | 2 => some .rdFull | 3 => some .rdTake | 4 => some .wrFill | 5 => some .clrTag | _ => none

/-- An access with an operation code (R162): a reserved one fails rows 1 to 6 of R159 as the operation `dflt` would, and
else is refused (log entry 194, DESIGN CHOICE). -/
def codedAccess (s : State) (code : Nat) (dflt : SpOp) (a : SpOp → SpAcc) : State :=
  match opOfCode code with
  | some op => openAccess s (a op)
  | none =>
    let k := (regionCheck s (a dflt)).getD 0x0409
    emit (accessFailed s (a dflt) k) (.access (a dflt).req k [])

/-- Meaning of SCRATCHPAD_READ (R149, R150): `len` bytes from byte offset `b` with an operation code that reads. -/
def execScratchpadRead (a : Agent) (c : Option CtxId) (t : TileId) (b len : Nat) (code : Fin 8) (flips : List (Nat × Nat))
    (s : State) : Host.Outcome State Fault Refusal :=
  .next (if code.val = 1 || code.val = 4 || code.val = 5 || len = 0 then s
    else codedAccess (upset s t flips) code .rd (fun op =>
      { tile := t, boff := b, len := len, op := op, req := .mgmt a, ctx := c.map (fun x => x.val), data := [] }))

/-- Meaning of SCRATCHPAD_WRITE (R151): bytes from byte offset `b` with an operation code that writes. -/
def execScratchpadWrite (a : Agent) (c : Option CtxId) (t : TileId) (b : Nat) (data : List Byte) (code : Fin 8)
    (flips : List (Nat × Nat)) (s : State) : Host.Outcome State Fault Refusal :=
  .next (if code.val = 0 || code.val = 2 || code.val = 3 || data.isEmpty then s
    else codedAccess (upset s t flips) code .wr (fun op =>
      { tile := t, boff := b, len := data.length, op := op, req := .mgmt a, ctx := c.map (fun x => x.val), data := data.map some }))

/-- Meaning of RD (R162): an untagged read, or one of a circular region. -/
def execRd (a : Agent) (c : Option CtxId) (t : TileId) (w n : Nat) (circ : Option (Fin 4)) (s : State) :
    Host.Outcome State Fault Refusal :=
  .next (match circ with
    | some k => circOp s a t k n .rd []
    | none => openAccess s (wordsAcc a c t w n .rd []))

/-- Meaning of WR (R162): an untagged write, or one of a circular region. -/
def execWr (a : Agent) (c : Option CtxId) (t : TileId) (w : Nat) (data : List W32) (circ : Option (Fin 4)) (s : State) :
    Host.Outcome State Fault Refusal :=
  .next (match circ with
    | some k => circOp s a t k data.length .wr (wordBytes (data.map (fun x => x.toNat)))
    | none => openAccess s (wordsAcc a c t w data.length .wr (wordBytes (data.map (fun x => x.toNat)))))

/-- Meaning of RD_FULL (R162). -/
def execRdFull (a : Agent) (c : Option CtxId) (t : TileId) (w n : Nat) (s : State) : Host.Outcome State Fault Refusal :=
  .next (openAccess s (wordsAcc a c t w n .rdFull []))

/-- Meaning of RD_TAKE (R162). -/
def execRdTake (a : Agent) (c : Option CtxId) (t : TileId) (w n : Nat) (s : State) : Host.Outcome State Fault Refusal :=
  .next (openAccess s (wordsAcc a c t w n .rdTake []))

/-- Meaning of WR_FILL (R162). -/
def execWrFill (a : Agent) (c : Option CtxId) (t : TileId) (w : Nat) (data : List W32) (s : State) :
    Host.Outcome State Fault Refusal :=
  .next (openAccess s (wordsAcc a c t w data.length .wrFill (wordBytes (data.map (fun x => x.toNat)))))

/-- Meaning of CLR_TAG (R162). -/
def execClrTag (a : Agent) (c : Option CtxId) (t : TileId) (w n : Nat) (s : State) : Host.Outcome State Fault Refusal :=
  .next (openAccess s (wordsAcc a c t w n .clrTag []))

/-! ### Waiters (R164, R165) -/

/-- Steps of a wait counted in a step counter: as many as the pipeline completed, which DT does not tell
(R27); none for no wait (log entry 144, DEDUCED). -/
def waitSteps (s : State) (t off since : Nat) : State :=
  if since = now s then s else incWrap (drawn s) (spReg t off) (freeNat s)

/-- A waiter served: its access performed and answered. -/
def serveWaiter (s : State) (x : Waiter) : State :=
  let s1 := waitSteps { s with pad := { s.pad with waiters := s.pad.waiters.erase x } } x.acc.tile 0x0C8 x.since
  if mustHold s1 x.acc then { s1 with pad := { s1.pad with heldAcc := s1.pad.heldAcc ++ [{ acc := x.acc, circ := none }] } }
  else
    let r := perform s1 x.acc
    match r.1 with
    | .ok d => deliver r.2 x.acc d
    | _ => r.2

/-- The waiters of a slot served while its tag admits the oldest (R164): at most `n`. -/
def serveSlot (t b : Nat) : Nat → State → State
  | 0, s => s
  | n + 1, s =>
    let g := tagAt s t (b / 4)
    if tagBad g then s
    else
      match (slotWaiters s t b (!g.full)).head? with
      | some x => if g.full then serveSlot t b n (serveWaiter s x) else serveWaiter s x
      | none => s

/-- Meaning of WAITER_SERVED (R164): the slot whose first word is `w` serves its waiters. -/
def execWaiterServed (t : TileId) (w : Nat) (s : State) : Host.Outcome State Fault Refusal :=
  .next (serveSlot t (4 * w) (s.pad.waiters.length + 1) s)

/-- Meaning of WAITER_TABLE_ROOM (R165): the access held longest at a port of the bank proceeds. -/
def execWaiterTableRoom (t : TileId) (b : Fin 32) (s : State) : Host.Outcome State Fault Refusal :=
  .next (match s.pad.waiters.find? (fun x => x.atPort && x.acc.tile == t.val && bankOf t (x.acc.boff / 4) == b.val) with
    | some x =>
      if (bankWaiters s t b).length < 64 then
        retryAccess (waitSteps { s with pad := { s.pad with waiters := s.pad.waiters.erase x } } t 0x0D0 x.since) x.acc
      else s
    | none => s)

/-! ### Regions that become invalid (R166) -/

/-- A removed access: a write is counted as discarded, and its requester fails. -/
def removeAccess (s : State) (a : SpAcc) : State :=
  let s1 := if opWrites a.op then discardWrite s a.tile else s
  deliverFail s1 a 0x0406

/-- Words `[lo, hi)` of a context's region are no longer valid: waiters on its slots go, and queues whose
ring lies there are reset (R166, R180). -/
def regionGone (s : State) (t lo hi c : Nat) : State :=
  let gone (x : Waiter) : Bool := x.acc.tile == t && lo ≤ x.acc.boff / 4 && x.acc.boff / 4 < hi && (x.acc.ctx == some c || x.acc.ctx.isNone)
  let l := s.pad.waiters.filter gone
  let s1 := { s with pad := { s.pad with waiters := s.pad.waiters.filter (fun x => !gone x) } }
  ringRegionGone (each l (fun u x => removeAccess u x.acc) s1) t lo hi c

/-- Region `j` of slot `r` invalidated; accesses that were held for its tags are made again, and fail (R157, R159) (log
entry 41, DEDUCED). -/
def dropRegion (s : State) (t r j c : Nat) : State :=
  match rgnAt s t r j with
  | none => s
  | some g =>
    let k := (t, r * 16 + j)
    let s1 := wrGF s (rgnReg t r j 0) 31 1 0
    let s2 := { s1 with pad := { s1.pad with tagInit := s1.pad.tagInit.filter (fun x => x != k) } }
    let s3 := regionGone (wrB s2 (spReg t 0x108) 1 (s2.pad.tagInit.any (fun x => x.1 == t))) t g.base g.limit c
    if s.pad.tagInit.contains k then retryHeld s3 t else s3

/-- Every region of slot `r` invalidated. -/
def dropSlot (s : State) (t r : Nat) : State :=
  let c := rdF s (spReg t (0x140 + 8 * r)) 0 8
  each (List.range 16) (fun u j => dropRegion u t r j c) s

/-- The waiting accesses of every circular region removed, and the regions invalidated. -/
def dropCirc (s : State) (t : Nat) : State :=
  let l := s.pad.heldAcc.filter (fun h => h.acc.tile == t && h.circ.isSome)
  let s1 := { s with pad := { s.pad with heldAcc := s.pad.heldAcc.filter (fun h => !(h.acc.tile == t && h.circ.isSome)) } }
  each (List.range 4) (fun u n => if gOk u (circReg t n 0) then wrGF u (circReg t n 0) 31 1 0 else u)
    (each l (fun u h => removeAccess u h.acc) s1)

/-! ### Register writes (R155–R157, R161, R170, R173) -/

/-- A write that would break R156 or R170: ignored with record 0x040E (R157). -/
def rgnRefused (s : State) (t : Nat) (detail : List Nat) : State := reportB s (spPage t) 8 0x040E { detail := detail }

/-- A write of SP_CTRL (R155): a change of mode invalidates what the left mode had. -/
def modeWrite (s : State) (t : Nat) (v : W64) : State :=
  let m := fieldOf v 0 2
  if 2 ≤ m then ignored s (spPage t)
  else if m = rdF s (spReg t 0x100) 0 2 then s
  else
    let s1 := if m = 1 then dropCirc s t else each (List.range 8) (fun u r => dropSlot u t r) s
    wr s1 (spReg t 0x100) v

/-- The Gorbin port or Hornbeam takes the control packets of a context at a tile (R288): it is bound to no slot there. -/
def portTakes (s : State) (t c : Nat) : Bool := (t == 9 && gbSends s c) || (t == 1 && hbSends s c)

/-- A guarded write of RES_CTX_r (R157): a slot unbound or bound to another context loses its regions. A
context beyond the licence's number is refused (R425), and one that R289 or R322 keeps from the tile (log entry 186, DEDUCED). -/
def resCtxWrite (s : State) (t r : Nat) (v : W64) (contexts : Nat) : State :=
  let a := spReg t (0x140 + 8 * r)
  let old := rd s a
  let same := bitOf v 8 == bitOf old 8 && (fieldOf v 0 8 == fieldOf old 0 8 || !bitOf v 8)
  if bitOf v 8 && (contexts ≤ fieldOf v 0 8 || portTakes s t (fieldOf v 0 8)) then ignored s (spPage t)
  else
    let s1 := if bitOf v 8 then { s with recov := { s.recov with resetCtx := s.recov.resetCtx.filter (fun e => e.2 != fieldOf v 0 8) } } else s
    wr (if same && guardOk old then s1 else dropSlot s1 t r) a v

/-- Two ranges of words meet. -/
def overlap (a b c d : Nat) : Bool := a < d && c < b

/-- The region that three values would make keeps R156 and R157 on a tile. A bank for which an accepted OFF request
stands, and which is not OFF yet, does not refuse it (log entry 166, DESIGN CHOICE). -/
def rgnOk (s : State) (t r j : Nat) (b l a : W64) : Bool :=
  let base := fieldOf b 0 17
  let lim := fieldOf l 0 18
  let res := rd s (spReg t (0x140 + 8 * r))
  let ro := !bitOf a 1
  guardOk res && bitOf res 8 && inService s t
    && base % 16 == 0 && lim % 16 == 0 && decide (base < lim) && decide (lim ≤ tileWords t)
    && !(banksOf t base (lim - base)).any (fun k => bankState s t k == 2)
    && (List.range 8).all (fun r' =>
      let c' := rd s (spReg t (0x140 + 8 * r'))
      (rgnsOfSlot s t r').all (fun g =>
        (r' == r && g.j == j) || !overlap base lim g.base g.limit
          || (fieldOf c' 0 8 != fieldOf res 0 8 && ro && !g.canWrite)))

/-- A guarded write of register `k` of region `j` of slot `r` (R156, R157). -/
def rgnWrite (s : State) (t r j k : Nat) (v : W64) : State :=
  let at' (i : Nat) : W64 := if i = k then v else rd s (rgnReg t r j i)
  let was := rgnAt s t r j
  let c := rdF s (spReg t (0x140 + 8 * r)) 0 8
  if !bitOf (at' 0) 31 then
    let s1 := if was.isSome then dropRegion s t r j c else s
    wr s1 (rgnReg t r j k) v
  else if rgnOk s t r j (at' 0) (at' 1) (at' 2) then
    let s1 := wr s (rgnReg t r j k) v
    if was.isNone && bitOf (at' 2) 3 then
      wrB { s1 with pad := { s1.pad with tagInit := s1.pad.tagInit ++ [(t, r * 16 + j)] } } (spReg t 0x108) 1 true
    else s1
  else rgnRefused s t [16 * r + j]

/-- A guarded write of CIRC_n_CFG (R157, R161): a valid configuration resets head and tail to BASE; one that
R161 does not allow is refused (log entry 194, DESIGN CHOICE). -/
def circCfgWrite (s : State) (t n : Nat) (v : W64) : State :=
  let base := fieldOf v 0 17
  let lg := fieldOf v 17 5
  let waiting := s.pad.heldAcc.filter (fun h => h.acc.tile == t && h.circ == some n)
  let drop (u : State) : State :=
    each waiting (fun x h => removeAccess x h.acc)
      { u with pad := { u.pad with heldAcc := u.pad.heldAcc.filter (fun h => !(h.acc.tile == t && h.circ == some n)) } }
  if !bitOf v 31 then wr (drop s) (circReg t n 0) v
  else if inService s t || lg < 4 || 16 < lg || base % 2 ^ lg != 0 || tileWords t < base + 2 ^ lg
      || (banksOf t base (2 ^ lg)).any (fun k => bankState s t k == 2) then rgnRefused s t [128 + n]
  else wr (wr (wr (drop s) (circReg t n 0) v) (circReg t n 1) (circPtr base)) (circReg t n 2) (circPtr base)

/-- Some valid region of either mode maps a word of the bank (R170). -/
def bankMapped (s : State) (t b : Nat) : Bool :=
  (allRgns s t).any (fun g => (banksOf t g.base (g.limit - g.base)).contains b)
    || (List.range 4).any (fun n => match circAt s t n with
      | some c => (banksOf t c.1 c.2).contains b
      | none => false)

/-- A write of BANK_PWR (R169, R170): each bank's request stands, but one for OFF of a mapped bank; a
bank asked ON begins to wake (log entry 40, DEDUCED). -/
def bankPwrWrite (s : State) (t : Nat) (v : W64) : State :=
  let bs := List.range (tileBanks t)
  if bs.any (fun b => fieldOf v (2 * b) 2 == 3) then ignored s (spPage t)
  else
    let bad := bs.filter (fun b => fieldOf v (2 * b) 2 == 2 && bankMapped s t b)
    let s1 := each bs (fun u b =>
      let q := fieldOf v (2 * b) 2
      if bad.contains b then u
      else
        let u1 := wrF u (spReg t 0x120) (2 * b) 2 q
        if q != 0 then u1 else if bankState u1 t b = 0 then setWakeEnd u1 t b 0 else setBankState (setWakeEnd u1 t b 0) t b 3) s
    if bad.isEmpty then s1 else rgnRefused s1 t bad

/-! ### Events of regions and banks -/

/-- Meaning of TAG_INIT_COMPLETE (R157): the slots of region `j` of slot `r` are EMPTY. -/
def execTagInitComplete (t : TileId) (r : Fin 8) (j : Fin 16) (s : State) : Host.Outcome State Fault Refusal :=
  .next (
    let k := (t.val, r.val * 16 + j.val)
    if !s.pad.tagInit.contains k then s
    else
      let s1 := { s with pad := { s.pad with tagInit := s.pad.tagInit.filter (fun x => x != k) } }
      let s2 := match rgnAt s1 t r j with
        | some g => each (List.range ((g.limit - g.base) / g.slotWords)) (fun u i => setTag u t (g.base + i * g.slotWords) false) s1
        | none => s1
      retryHeld (wrB s2 (spReg t 0x108) 1 (s2.pad.tagInit.any (fun x => x.1 == t.val))) t)

/-- A bank's contents are undefined from now on (R142, R143, R169), and nothing is left to be written back to it. -/
def loseBank (s : State) (t b : Nat) : State :=
  let row := 4 * rowWords t
  applyFill { s with pad := { s.pad with writeBacks := s.pad.writeBacks.filter (fun x => !(x.tile == t && bankOf t x.word == b)) } } (if tileType t == .m then
      { lo := padBase t + 0x10000 * (b / 4) + row * (b % 4), size := 0x10000 - row * (b % 4), stride := 4 * row, width := row, seed := s.free + 1 }
    else { lo := padBase t + row * b, size := 4 * tileWords t - row * b, stride := tileBanks t * row, width := row, seed := s.free + 1 })

/-- A bank's wake is over: it is ON, for the window of R171 where it is asked for another state, and the accesses it
held go on. -/
def bankOn (s : State) (t b : Nat) : State :=
  let s1 := setBankState s t b 0
  let s2 := if bankAsked s t b = 0 then s1 else setWakeEnd s1 t b (now s + 4000)
  each (List.range 4) (fun u n => circServe t n (u.pad.heldAcc.length + 1) u) (retryHeld s2 t)

/-- Meaning of BANK_STATE_REACHED (R169): a bank enters RET or OFF, or is ON after its wake. -/
def execBankStateReached (t : TileId) (b : Fin 32) (s : State) : Host.Outcome State Fault Refusal :=
  .next (
    let st := bankState s t b
    let q := bankAsked s t b
    if tileBanks t ≤ b.val then s
    else if st = 3 then bankOn s t b
    else if q = 2 && st != 2 && !bankMapped s t b then loseBank (setBankState s t b 2) t b
    else if q = 1 && (st = 2 || (st = 0 && wakeEndOf s t b = 0)) then setBankState s t b 1
    else s)

/-- The words that a held access reaches lie in a bank. -/
def reachesBank (s : State) (h : HeldAcc) (b : Nat) : Bool :=
  let t := h.acc.tile
  let hits (a : SpAcc) : Bool := (banksOf t (a.boff / 4) ((a.boff + a.len + 3) / 4 - a.boff / 4)).contains b
  match h.circ with
  | none => hits h.acc
  | some n => match circAt s t n with
    | some r => circRoom s h.acc n r && (circWords s h.acc n r).any hits
    | none => false

/-- An access waits for a bank to wake. -/
def bankWanted (s : State) (t b : Nat) : Bool := s.pad.heldAcc.any (fun h => h.acc.tile == t && reachesBank s h b)

/-- Meaning of BANK_WAKE (R171): a bank in RET that an access has reached begins to wake. -/
def execBankWake (t : TileId) (b : Fin 32) (s : State) : Host.Outcome State Fault Refusal :=
  .next (if bankState s t b = 1 && bankWanted s t b && clusterPower s (clusterOf t) ≤ 1 then incSat (setBankState s t b 3) (spReg t 0x0B0) else s)

/-- Meaning of BANK_IDLE_RETURN (R171): the window of a woken bank has ended. -/
def execBankIdleReturn (t : TileId) (b : Fin 32) (s : State) : Host.Outcome State Fault Refusal :=
  .next (
    let e := wakeEndOf s t b
    if bankState s t b = 0 && bankAsked s t b = 1 && e != 0 && e ≤ now s then setBankState (setWakeEnd s t b 0) t b 1
    else s)

/-! ### Write-backs and the scrubber (R152–R154) -/

/-- Meaning of WRITE_BACK (R152): the corrected unit at word `w` is stored, once its bank serves accesses (R169). -/
def execWriteBack (t : TileId) (w : Nat) (s : State) : Host.Outcome State Fault Refusal :=
  .next (match s.pad.writeBacks.find? (fun b => b.tile == t.val && b.word == w && bankState s t (bankOf t w) == 0) with
    | some b => storeUnit { s with pad := { s.pad with writeBacks := s.pad.writeBacks.erase b } } t b.word b.weight b.data
    | none => s)

/-- SCRUB_PERIOD in nanoseconds. -/
def scrubPeriod (s : State) (t : Nat) : Nat := rdF s (spReg t 0x110) 16 9 * 1000000000

/-- The tile's scrub pass begins at its first row (R154). -/
def beginPass (s : State) (t : Nat) : State :=
  wr { s with pad := { s.pad with
    pass := mapPut (fun _ => 0) s.pad.pass t (now s / scrubPeriod s t + 1)
    passAt := mapPut (fun _ => 0) s.pad.passAt t (now s + 1) } } (spReg t 0x118) 0

/-- Pass in progress of a tile: its index plus 1, 0 for none. -/
def passOf (s : State) (t : Nat) : Nat := mapGet (fun _ => 0) s.pad.pass t

/-- A pass has visited its last row: counted; a late pass is followed by the next one at once (R154). -/
def endPass (s : State) (t : Nat) : State :=
  let late := rdB s (spReg t 0x118) 17
  let s1 := incWrap { s with pad := { s.pad with pass := mapPut (fun _ => 0) s.pad.pass t 0 } } (spReg t 0x0D8) 1
  if late then beginPass s1 t else wr s1 (spReg t 0x118) 0

/-- A row scrubbed (R153): units decoded, corrected data stored, tags checked. -/
def scrubRow (s : State) (t w : Nat) : State :=
  let n := rowWords t
  let r := readWords (touchBanks s t w n) t w n none
  let fixes := r.2.pad.writeBacks.filter (fun b => b.tile == t && w ≤ b.word && b.word < w + n)
  let s1 := each fixes (fun u b => storeUnit { u with pad := { u.pad with writeBacks := u.pad.writeBacks.erase b } } t b.word b.weight b.data) r.2
  let s2 := if fixes.isEmpty then s1 else incSat s1 (spReg t 0x0C0)
  each ((List.range n).map (fun i => w + i)) (fun u x => if tagBad (tagAt u t x) then tagGuard u t x none else u) s2

/-- A bank in RET that the scrubber has reached begins to wake, counted in SCRUB_WAKES (R153). -/
def scrubWake (s : State) (t b : Nat) : State :=
  if clusterPower s (clusterOf t) ≤ 1 then incSat (setBankState s t b 3) (spReg t 0x0B8) else s

/-- An in-field test has the tile's cluster, or wants it and no foreground work does (R40, R435). -/
def testWants (s : State) (c : Nat) : Bool :=
  (mapFind c s.yew.testVolt).isSome || ((mapFind c s.yew.due).isSome && (tilesOf c).all (fun t => (residents s t).isEmpty))

/-- The test's deferral of 24 h is over (R40). -/
def testAtLimit (s : State) (c : Nat) : Bool :=
  match mapFind c s.yew.due with | some d => decide (d + 86400000000000 ≤ now s) | none => false

/-- The scrub leaves a cluster to its in-field test (R41). -/
def padYields (s : State) (t : Nat) : Bool :=
  yieldsTo (testWants s (clusterOf t)) (rdB s (spReg t 0x118) 17) (testAtLimit s (clusterOf t))

/-- Meaning of SCRUB_ROW (R153): the row at POSITION; a row of a bank in RET is scrubbed once its bank is ON. -/
def execScrubRow (t : TileId) (flips : List (Nat × Nat)) (s : State) : Host.Outcome State Fault Refusal :=
  .next (if passOf s t = 0 || !rdB s (spReg t 0x110) 0 || padYields s t then s
    else
      let u := upset s t flips
      let w := rdF u (spReg t 0x118) 0 17
      let b := bankOf t w
      let st := bankState u t b
      if st = 1 then scrubWake u t b
      else if st = 3 then u
      else
      let s1 := if st = 2 then u else scrubRow u t w
      if tileWords t ≤ w + rowWords t then endPass s1 t else wrF s1 (spReg t 0x118) 0 17 (w + rowWords t))

/-- Meaning of SCRUB_PASS_START (R154): at DT 0 and each multiple of SCRUB_PERIOD, one pass begins. -/
def execScrubPassStart (t : TileId) (s : State) : Host.Outcome State Fault Refusal :=
  .next (if passOf s t = 0 && now s % scrubPeriod s t = 0 && mapGet (fun _ => 0) s.pad.passAt t != now s + 1 then beginPass s t else s)

/-- Meaning of SCRUB_LATE (R154): the pass has outrun its window. -/
def execScrubLate (t : TileId) (s : State) : Host.Outcome State Fault Refusal :=
  .next (
    if passOf s t = 0 || rdB s (spReg t 0x118) 17 || now s < passOf s t * scrubPeriod s t then s
    else report (wrB s (spReg t 0x118) 17 true) (spPage t) 0x040D)

end Sys2Proof.Machine
end

