-- ==== Sys2Proof/Machine/Teardown.lean ====
section
/-! DEFINITION. What step commit and recovery share: attempts and votes (R338–R342), ABORTs
(R378, R379), the teardown of a context (R374–R377) and its release (R376). -/

namespace Sys2Proof.Machine

/-! ### Attempts -/

/-- No attempt yet. -/
def noAttempt : Attempt :=
  { openDt := 0, voted := false, voteDt := 0, aborted := false, abortFault := false, kind := 0, notices := [], torn := false
    cleanCount := 0, firstClusters := [], auditClusters := [], firstSig := 0, auditSig := 0, applied := false, dirtyNext := false, third := false }

/-- The current attempt of a context's step. -/
def attOf (s : State) (c : Nat) : Attempt := mapGet (fun _ => noAttempt) s.commit.att c

/-- The current attempt set. -/
def setAtt (s : State) (c : Nat) (a : Attempt) : State :=
  { s with commit := { s.commit with att := mapPut (fun _ => noAttempt) s.commit.att c a } }

/-- A field of CS_CFG. -/
def csCfg (s : State) (c lo n : Nat) : Nat := rdF s (csCtx c 0x190) lo n

/-- VOTE_GROUP and CTX_GROUP of a context (R338). -/
def voteGroup (s : State) (c : Nat) : Nat := csCfg s c 36 12
/-- CTX_GROUP. -/
def ctxGroup (s : State) (c : Nat) : Nat := csCfg s c 24 12

/-- A tile's router delivers a group to its L port. -/
def inGroup (s : State) (t g : Nat) : Bool := (mcEntry s t g).1 && (mcEntry s t g).2.1.testBit 0

/-- The multicast tables' routers that hold an entry of a group for their tile. -/
def groupTiles (s : State) (g : Nat) : List Nat :=
  let keys := s.regs.filterMap (fun p =>
    let a := p.1 % regBankSize - regBase
    if p.1 / regBankSize = g + 1 && regBase ≤ p.1 % regBankSize && a % 0x20000 == 0x3128 then some (a / 0x20000) else none)
  keys.filter (fun t => t < 4608 && inGroup s t g)

/-- Member tiles of a context's VOTE_GROUP on the device other than tile 1, in ascending order (R338). -/
def voters (s : State) (c : Nat) : List Nat := (groupTiles s (voteGroup s c)).filter (fun t => t != 1)

/-! ### Votes (R341, R342) -/

/-- The words of a VOTE of the current step. -/
def voteWords (s : State) (c : Nat) (clean nofault sigmatch : Bool) : List Nat :=
  let n := stepOf s c
  [place 2 1 (bit01 sigmatch) + place 1 1 (bit01 nofault) + bit01 clean, n % 2 ^ 32, n / 2 ^ 32 % 65536
   , 2 ^ 32 - 1 - n % 2 ^ 32, 65535 - n / 2 ^ 32 % 65536]

/-- The words of a VOTE that a router gives in a tile's place (R377). -/
def standInWords (guilty : Bool) : List Nat :=
  [4 + (if guilty then 0 else 2), 2 ^ 32 - 1, 65535, 2 ^ 32 - 1, 65535]

/-- The VOTE of the open step of context `c` given for the lost port `p` (R253), unless the port has brought it. -/
def voteForPort (s : State) (c p : Nat) : State :=
  let t := attach p 0
  let g := voteGroup s c
  let v := { toGroup (mkCtrl s 0x0C t c (stepOf s c % 256) (standInWords false)) g with ctxEpoch := epochOf s c }
  if fabricDown s g p && !portRuns s p && !(mapGet (fun _ => []) s.net.votes p).contains (g, v.round) then
    hearOrHold (replyHeard s t (edgePort p) v) t (edgePort p) v
  else s

/-- The ports that are lost and lead to members give their votes of a context's open step (R253). -/
def votesOfLost (s : State) (c : Nat) : State := each (List.range 14) (fun u p => voteForPort u c p) s

/-- A VOTE handed to a router (R342). -/
def sendVote (s : State) (t c : Nat) (words : List Nat) : State :=
  inject s t (.ctrl (toGroup (mkCtrl s 0x0C t c (stepOf s c % 256) words) (voteGroup s c)))

/-- A vote notice of a tile reaches the step-commit block (R339, R341). -/
def notice (s : State) (t c : Nat) : State :=
  let a := attOf s c
  if a.notices.contains t then s else setAtt s c { a with notices := a.notices ++ [t] }

/-- A tile votes, holds the context and notifies the block (R339, R340). -/
def tileVote (s : State) (t c : Nat) (clean nofault : Bool) : State :=
  setVoteHeld (notice (sendVote s t c (voteWords s c clean nofault true)) t c) t c true

/-- A router votes in its tile's place, and the tile counts as having noticed (R377). -/
def standInVote (s : State) (t c : Nat) (guilty : Bool) : State := notice (sendVote s t c (standInWords guilty)) t c

/-- Routers vote in the place of those of `tiles` that are members and have not voted (R377). -/
def standIns (s : State) (c : Nat) (tiles : List Nat) : State :=
  let guilty := mapGet (fun _ => false) s.recov.tornGuilty c
  each (tiles.filter (fun t => (voters s c).contains t && !(attOf s c).notices.contains t)) (fun u t => standInVote u t c guilty) s

/-- Level source 369: some context is in IN_DOUBT (R362). -/
def inDoubtAny (s : State) : Bool := (List.range 256).any (fun c => csState s c == 4)

/-! ### ABORT (R378, R379) -/

/-- An ABORT for a context's CTX_GROUP, handed to router 1 and counted in ABORTS_ORIGINATED (R263) (log entry 157, DEDUCED). -/
def originate (s : State) (c cause : Nat) (fault : Bool) : State :=
  incWrap (inject s 1 (.ctrl (abortPkt s (ctxGroup s c) cause fault none))) (fxReg 0x080) 1

/-! ### Teardown (R374) -/

/-- Residence slots 0–7 of a context on each tile. -/
def slotsOf (s : State) (c : Nat) : List (Nat × Nat) := (ctxTiles s c).filterMap (fun t => (slotOfCtx s t c).map (fun r => (t, r)))

/-- Order 1 on one tile: every unit of the context stops. -/
def stopUnits (c : Nat) (s : State) (t : Nat) : State :=
  let s0 := if hasSteer t then endStalls s t (some c) else s
  let s1 := if (actOf s0 t).on && (actOf s0 t).ctx = c then abandonAct s0 t else s0
  let s2 := each (List.range 4) (fun u n => if (threadOf u t n).busy && (threadOf u t n).ctx = c then setThread u t n idleThread else u) s1
  let s3 := each (List.range 4) (fun u ch =>
    let x := chanOf u t ch
    let cur := x.cur.filter (fun d => d.ctx != c)
    let q := x.queued.filter (fun d => d.ctx != c)
    if cur.isSome || x.cur.isNone then setChan u t ch { x with queued := q }
    else gwSettled (dmaStat (setChan u t ch { idleChan with queued := q }) t ch c false) (4 * t + ch)) s2
  updBusy { s3 with q := { s3.q with nacks := s3.q.nacks.filter (fun j => !(j.tile == t && j.hdr.context == c)) } } t

/-- A DMA channel works for a context. -/
def chanServes (c : Nat) (x : Chan) : Bool := x.cur.any (fun (d : Desc) => d.ctx == c) || x.queued.any (fun (d : Desc) => d.ctx == c)

/-- Tiles on which a context has units or queues. -/
def unitTiles (s : State) (c : Nat) : List Nat :=
  (ctxTiles s c ++ (s.flow.acts.filter (fun (e : Nat × Act) => e.2.ctx == c)).map Prod.fst
    ++ (s.q.threads.filter (fun (e : Nat × Thread) => e.2.ctx == c)).map (fun (e : Nat × Thread) => e.1 / 4)
    ++ (s.flow.chans.filter (fun (e : Nat × Chan) => chanServes c e.2)).map (fun (e : Nat × Chan) => e.1 / 4)).eraseDups

/-- Order 1 of R374. -/
def tearStop (s : State) (c : Nat) : State :=
  dropSends (each (unitTiles s c) (stopUnits c) s) (fun w => w.msg.hdr.context == c)

/-- The Gorbin port's copies of a context's epoch: its table's entry, and CTX_EPOCH of the doorbells bound to it (R302). -/
def gbEpochs (s : State) (c e : Nat) : State :=
  each (List.range 1024) (fun u n =>
    if rdB u (banked (devReg 5 0x158) n) 63 && rdF u (banked (devReg 5 0x160) n) 8 8 = c then wrF u (banked (devReg 5 0x160) n) 16 16 e else u)
    (wrF s (banked (devReg 5 0x1C8) c) 0 16 e)

/-- Order 2 of R374: the context epoch rises in every table that holds it (R302). -/
def tearEpoch (s : State) (c : Nat) : State :=
  let e := (epochOf s c + 1) % 65536
  let s1 := wrF s (banked (devReg 10 0x150) c) 16 16 e
  let s2 := each (slotsOf s c) (fun u x => wrG u (qctl x.1 (0x200 + 8 * x.2)) ((rdF u (qctl x.1 (0x200 + 8 * x.2)) 0 16 + 1) % 65536)) s1
  gbEpochs s2 c e

/-- Order 3 of R374: the context's queues enter RESET without a REVOKE, and await its reopening (R376). -/
def tearQueues (s : State) (c : Nat) : State :=
  let mine := (setQueues s).filter (fun x => qOwner s x.1 x.2 == c)
  let s1 := each mine (fun u x => resetQueue u x.1 x.2 false) s
  { s1 with q := { s1.q with opens := s1.q.opens.filter (fun o => o.ctx != c)
                             toOpen := s1.q.toOpen.filter (fun x => !(x.1 == c && mine.contains x.2)) ++ mine.map (fun x => (c, x.1, x.2)) } }

/-- Order 4 of R374: credit entries of the context, in every table. -/
def tearCredits (s : State) (c : Nat) : State := { s with q := { s.q with cred := s.q.cred.filter (fun e => e.2.ctx != c) } }

/-- A waiter waits on a slot of a context: by its own access, or by a management access of its regions. -/
def waitsOn (s : State) (c : Nat) (a : SpAcc) : Bool :=
  a.ctx == some c || (a.ctx.isNone && (ctxRgns s a.tile c).any (fun g => g.holds (a.boff / 4)))

/-- Order 5 of R374: waiters removed as R166 gives, where the context's own units, which have stopped, receive nothing; and
the tags of tagged regions set EMPTY. -/
def tearTags (s : State) (c : Nat) : State :=
  let mine := s.pad.waiters.filter (fun w => waitsOn s c w.acc)
  let s1 := { s with pad := { s.pad with waiters := s.pad.waiters.filter (fun w => !waitsOn s c w.acc)
                                         heldAcc := s.pad.heldAcc.filter (fun h => h.acc.ctx != some c) } }
  let s2 := each mine (fun u w =>
    if w.acc.ctx.isNone then removeAccess u w.acc else if opWrites w.acc.op then discardWrite u w.acc.tile else u) s1
  each (slotsOf s c) (fun u x =>
    each ((rgnsOfSlot u x.1 x.2).filter (fun g => g.tagged)) (fun v g =>
      { v with pad := { v.pad with tags := v.pad.tags.filter (fun e => !(e.1 / 0x20000 == x.1 && g.holds (e.1 % 0x20000))) } }) u) s2

/-- Order 6 of R374: completion-store entries of the context. -/
def tearComp (s : State) (c : Nat) : State :=
  { s with net := { s.net with comp := (s.net.comp.map (fun e => (e.1, e.2.filter (fun x => x.red.context != c)))).filter (fun e => !e.2.isEmpty) } }

/-- Teardown of a context, orders 1 to 6, and the start of its drain (R374, R375). While its step is open
the routers of the tiles that have not voted answer in their place (R377), with NOFAULT 0 also after a program
fault, whose step is not replayed (R116) (log entry 154, DEDUCED). -/
def tearDown (s : State) (c : Nat) (guilty : Bool) : State :=
  let absent := if stepOpen s c then (voters s c).filter (fun t => !(attOf s c).notices.contains t) else []
  let s1 := tearComp (tearTags (tearCredits (tearQueues (tearEpoch (tearStop s c) c) c) c) c) c
  let faulted := (slotsOf s c).any (fun x => !(slotFlags s x.1 x.2).testBit 1)
  let s2 := each absent (fun u t => standInVote u t c (guilty || faulted)) s1
  let s3 := passTornAll (setTdState (incWrap s2 (devReg 10 0x088) 1) c 2)
  let s4 := if stepped s3 c then setAtt s3 c { attOf s3 c with torn := true } else s3
  { s4 with
    recov := { s4.recov with draining := mapInsert c (now s, now s) (mapErase c s4.recov.draining)
                             tornGuilty := mapPut (fun _ => false) s4.recov.tornGuilty c guilty
                             tdReq := s4.recov.tdReq.erase c }
    flow := { s4.flow with stopped := s4.flow.stopped.filter (fun x => x.2 != c) } }

/-- A teardown of a context, unless one is in progress or due after a hang's sample, or its aborted attempt was
torn down already (R369, R374). -/
def tearOnce (s : State) (c : Nat) (guilty : Bool) : State :=
  if tdState s c = 1 || tdState s c = 2 || (attOf s c).torn then s else tearDown s c guilty

/-- Packets of a context in the ports' egress, replay and ingress buffers (R375). -/
def portsHold (s : State) (c : Nat) : Nat :=
  let own (p : Pkt) : Bool := match p with | .msg m => m.hdr.context == c | .red r => r.context == c | p => pktCtx p == some c
  (s.fabric.egress.map (fun e => (e.2.filter (fun x => own x.pkt)).length)).sum
  + (s.fabric.sent.map (fun e => (e.2.filter (fun x => own x.pkt)).length)).sum
  + (s.fabric.fifo.map (fun e => (e.2.filter (fun x => own x.2.pkt)).length)).sum
  + (s.fabric.fifoHeld.map (fun e => (e.2.filter (fun x => own x.2.pkt)).length)).sum

/-- Level source 372: some context is UNPLACEABLE (R386). -/
def unplaceableAny (s : State) : Bool := (List.range 256).any (fun c => tdState s c == 4)

/-- A context's residence slots, configuration slots and steering units unbound (R376). -/
def unbind (s : State) (c : Nat) : State :=
  let s1 := each (slotsOf s c) (fun u x => wrG (dropSlot u x.1 x.2) (spReg x.1 (0x140 + 8 * x.2)) 0) s
  let tiles := ((s1.flow.sets.filter (fun e => e.2.ctxs.contains c)).flatMap (fun e => e.2.tiles)).eraseDups
  each tiles (fun u t =>
    let u1 := if tileType t == .t || tileType t == .v then
        each (List.range 8) (fun v n => if (bindOf v t true n).ctx = c then wr v (dfReg t (slotOff true n + 0x40)) 0 else v) u
      else u
    if tileType t == .s || tileType t == .v then
      each (List.range 8) (fun v n => if (steerOf v t true n).ctx = c then each (List.range 8) (fun w k => wr w (dfReg t (0x600 + 0x40 * n + 8 * k)) 0) v else v) u1
    else u1) s1

end Sys2Proof.Machine
end

