-- ==== Sys2Proof/Machine/Tfs.lean ====
section
/-! DEFINITION. Fault signatures (R359, R360): CBOR items (RFC 8949) in the ring of CS_TFS. -/

namespace Sys2Proof.Machine

/-! ### CBOR -/

/-- A number in `n` bytes, most significant first. -/
def bigEndian (n v : Nat) : List Byte := (bytesOf n v).reverse

/-- Head of a CBOR item: major type and argument in the shortest form. -/
def cborHead (major n : Nat) : List Byte :=
  let b (x : Nat) : Byte := BitVec.ofNat 8 (32 * major + x)
  if n < 24 then [b n]
  else if n < 2 ^ 8 then b 24 :: bigEndian 1 n
  else if n < 2 ^ 16 then b 25 :: bigEndian 2 n
  else if n < 2 ^ 32 then b 26 :: bigEndian 4 n
  else b 27 :: bigEndian 8 n

/-- An unsigned integer. -/
def cborNat (n : Nat) : List Byte := cborHead 0 n
/-- An integer. -/
def cborInt (v : Int) : List Byte := if 0 ≤ v then cborHead 0 v.toNat else cborHead 1 (-1 - v).toNat
/-- A byte string. -/
def cborBytes (l : List Byte) : List Byte := cborHead 2 l.length ++ l
/-- A text string. -/
def cborText (l : List Byte) : List Byte := cborHead 3 l.length ++ l
/-- An array of items. -/
def cborArray (l : List (List Byte)) : List Byte := cborHead 4 l.length ++ l.flatten
/-- A map with integer keys. -/
def cborMap (l : List (Nat × List Byte)) : List Byte := cborHead 5 l.length ++ (l.map (fun e => cborNat e.1 ++ e.2)).flatten
/-- The null item. -/
def cborNull : List Byte := [0xF6]

/-! ### Readings of a cluster -/

/-- A register of the Yew page, or its copy for a cluster. -/
def ywReg (off : Nat) : Nat := devReg 9 off
/-- The copy of a Yew register for a cluster. -/
def ywCl (c off : Nat) : Nat := banked (devReg 9 off) c

/-- Code of trim group `g` of a cluster (R440): the fused code and the lengthening of its class. -/
def trimCode (s : State) (c g : Nat) : Nat :=
  Config.fusedTrim c g % 64 + (if g = 5 then rdF s (ywCl c 0x130) 12 4 else rdF s (ywCl c 0x130) 8 4)

/-- The trim vector of a cluster (R440), or the one that RAW mode set (R429). -/
def trimVector (s : State) (c : Nat) : Nat :=
  match mapFind c s.commit.rawTrim with
  | some v => v
  | none => (List.range 6).foldl (fun v g => v + (min (trimCode s c g) 63 <<< (8 * g))) 0

/-- Junction temperature of a cluster in 0.1 °C (R458). -/
def clusterTemp (s : State) (c : Nat) : Int := signedOf 16 (rdF s (clusterReg c 0x190) 0 16)
/-- Measured voltage of a cluster in mV. -/
def clusterVolt (s : State) (c : Nat) : Nat := rdF s (clusterReg c 0x188) 26 14

/-! ### Items of R360 -/

/-- What a signature says beside the device's own fields. -/
structure Tfs where
  loc : List (Nat × Nat) := []
  ctx : Option Nat := none
  step : Option Nat := none
  code : Nat
  cls : Option Nat := none
  cluster : Option Nat := none
  pattern : Option Nat := none
  residues : Option (Nat × Nat) := none
  sigs : Option (Option Nat × Nat) := none
  entry : Option Nat := none
  deriving DecidableEq, Repr

/-- A key that is present only when it has a value (log entry 90, DEDUCED). -/
def tfsKey (k : Nat) (v : Option (List Byte)) : List (Nat × List Byte) :=
  match v with
  | some b => [(k, b)]
  | none => []

/-- The tfs/1 item of a signature (R360). -/
def tfsItem (s : State) (x : Tfs) : List Byte :=
  cborMap ([(0, cborText [0x74, 0x66, 0x73, 0x2F, 0x31]), (1, cborBytes (bytesOf 16 Config.serial)), (2, cborNat (deviceId s)), (3, cborNat (now s))
      , (4, cborMap (x.loc.map (fun e => (e.1, cborNat e.2))))]
    ++ tfsKey 5 (x.ctx.map cborNat) ++ tfsKey 6 (x.step.map cborNat) ++ [(7, cborNat x.code)] ++ tfsKey 8 (x.cls.map cborNat)
    ++ tfsKey 9 (x.cluster.map (fun c => cborArray [cborNat (rdF s (clusterReg c 0x100) 20 20), cborNat (rdF s (clusterReg c 0x100) 40 20)]))
    ++ tfsKey 10 (x.cluster.map (fun c => cborNat (clusterVolt s c)))
    ++ tfsKey 11 (x.cluster.map (fun c => cborInt (clusterTemp s c)))
    ++ tfsKey 12 (x.cluster.map (fun c => cborBytes (bytesOf 8 (trimVector s c))))
    ++ tfsKey 13 (x.pattern.map cborNat)
    ++ tfsKey 14 (x.residues.map (fun r => cborArray [cborNat r.1, cborNat r.2]))
    ++ tfsKey 15 (x.sigs.map (fun g => cborArray [(match g.1 with | some v => cborNat v | none => cborNull), cborNat g.2]))
    ++ tfsKey 16 (x.entry.map cborNat))

/-- A signature written to the ring, or dropped when the ring is full (R359); source 370 when the ring
stops being empty. -/
def writeTfs (s : State) (x : Tfs) : State :=
  let n := 2 ^ rdF s (csReg 0x110) 54 5
  let w := rdF s (csReg 0x118) 0 16
  let r := rdF s (csReg 0x120) 0 16
  if (w + 1) % n = r % n || 65536 < n then report (incSat s (csReg 0x0A8)) (devPage 11) 0x0B10
  else
    let item := tfsItem s x
    let a := rdF s (csReg 0x110) 9 39 * 512 + 512 * (w % n)
    let s1 := (mappedWrite s (devPage 11) a ((bytesOf 2 item.length ++ item).map some) none).2
    let s2 := wrF s1 (csReg 0x118) 0 16 ((w + 1) % n)
    if w = r then raise s2 370 else s2

end Sys2Proof.Machine
end

