-- ==== Sys2Proof/Machine/Commit.lean ====
section
/-! DEFINITION. Step commit (R331–R353): step-end tokens, votes, decisions, the application of journals,
IN_DOUBT, and the commands of CS_CMD. -/

namespace Sys2Proof.Machine

/-! ### Step ends and votes (R339–R342) -/

/-- A tile holds the step-end token of a context. -/
def endHeld (s : State) (t c : Nat) : Bool := mapGet (fun _ => false) s.commit.endTok (t * 256 + c)

/-- The hold of a step-end token set or ended. -/
def setEndHeld (s : State) (t c : Nat) (b : Bool) : State :=
  { s with commit := { s.commit with endTok := mapPut (fun _ => false) s.commit.endTok (t * 256 + c) b } }

/-- Meaning of STEP_END_TOKEN (R339): the token at the head of STEP_Q is held; another VALUE is a program fault. -/
def execStepEndToken (t : TileId) (c : CtxId) (s : State) : Host.Outcome State Fault Refusal :=
  let q := csCfg s c 16 8
  .next (
    if !stepped s c || !(csState s c == 1 || csState s c == 2) || endHeld s t c || voteHeld s t c || !tileRuns s t || ctxStopped s t c
      || qState s t q == 0 || !qRead s t q || qOwner s t q != c.val then s
    else match headMsg s t q with
      | none => awaitHead s t q
      | some (m, u) =>
        if (msgToken m).kind != 1 then programFault u t 4 c 0x0307 q
        else if (msgToken m).value != stepOf s c % 65536 then programFault u t 4 c 0x0B05 q
        else setEndHeld u t c true)

/-- A packet is a send of the context from the tile that may still be refused, or a NACK on its way to it. -/
def owesNack (s : State) (t c : Nat) : Pkt → Bool
  | .msg m => m.hdr.context == c && epDev m.hdr.src == deviceId s && epTile m.hdr.src == t
  | .ctrl p => p.type == 0x03 && p.context == c && p.dstDev == deviceId s && p.dstTile == t
  | _ => false

/-- Messages of a context from a tile to another device of which neither credit nor a NACK has come back (R339) (log entry
195, DEDUCED). -/
def awayFrom (s : State) (t c : Nat) : Bool := (creditsOf s t).any (fun e => e.2.ctx == c && e.2.away != 0)

/-- A durable write of a context waits to be made in its journal (R336, R339). -/
def journalLate (s : State) (c : Nat) : Bool :=
  s.gorbin.late.any (fun w =>
    match w with
    | .write a _ x => x == some c && (journalRange s c).1 ≤ a && a < (journalRange s c).2
    | _ => false)

/-- The four conditions of R339 on a tile's work of a context. -/
def stepIdle (s : State) (t c : Nat) : Bool :=
  !((actOf s t).on && (actOf s t).ctx == c)
    && (List.range 4).all (fun n => !((threadOf s t n).busy && (threadOf s t n).ctx == c))
    && (List.range 4).all (fun n => !chanServes c (chanOf s t n))
    && !s.q.sends.any (fun w => w.unit == t && w.msg.hdr.context == c)
    && !s.q.nacks.any (fun j => j.tile == t && j.hdr.context == c)
    && !checksOwed s t c && !inTransit s (owesNack s t c) && !awayFrom s t c && !journalLate s c

/-- Meaning of TILE_VOTE (R339–R341): the token is released and the tile votes with its slot's bits. -/
def execTileVote (t : TileId) (c : CtxId) (s : State) : Host.Outcome State Fault Refusal :=
  .next (if endHeld s t c && stepIdle s t c then
      let s1 := setEndHeld (release s t (csCfg s c 16 8)) t c false
      let f := match slotOfCtx s t c with | some r => slotFlags s t r | none => 3
      tileVote s1 t c (f.testBit 0) (f.testBit 1)
    else s)

/-- Meaning of DIRTY_SET (R341): an event after the block's vote counts against the next step. -/
def execDirtySet (c : CtxId) (s : State) : Host.Outcome State Fault Refusal :=
  .next (if s.commit.dirtyReq.contains c.val then
      let s1 := { s with commit := { s.commit with dirtyReq := s.commit.dirtyReq.erase c.val } }
      if (attOf s c).voted && csState s c != 1 then setAtt s1 c { attOf s c with dirtyNext := true }
      else wrB s1 (csCtx c 0x1A0) 10 true
    else s)

/-- CS_SIG of a context. -/
def csSig (s : State) (c : Nat) : Nat := (rd s (csCtx c 0x1A8)).toNat

/-- A third attempt that agrees with neither earlier one (R351, R352): its classification. -/
def nondeterministic (s : State) (c : Nat) : State :=
  let s1 := report (report s (devPage 11) 0x0B08 { ctx := some c }) (devPage 11) 0x0B09 { ctx := some c, detail := [9] }
  writeTfs s1 { ctx := some c, step := some (stepOf s c), code := 0x0B08, cls := some 9, sigs := some (some (attOf s c).firstSig, csSig s c) }

/-- SIGMATCH of the block's vote (R342, R352): in an audit attempt equal signatures, in a third attempt one of
the two earlier ones. -/
def sigMatches (s : State) (c : Nat) : Bool :=
  let a := attOf s c
  if a.kind = 2 then csSig s c == a.firstSig
  else if a.kind = 3 then csSig s c == a.firstSig || csSig s c == a.auditSig
  else true

/-- The block votes for tile 1 (R341): the state becomes VOTED, and a replay's signature is kept for R351. -/
def blockVote (s : State) (c : Nat) (clean nofault : Bool) : State :=
  let a := attOf s c
  let s1 := sendVote s 1 c (voteWords s c clean nofault (sigMatches s c))
  let s2 := setAtt s1 c { a with voted := true, voteDt := now s }
  setCsState { s2 with commit := { s2.commit with quar := s2.commit.quar.map (fun q =>
    if q.ctx = c && q.step = stepOf s c && a.kind != 0 then { q with replaySig := some (csSig s c) } else q) } } c 2

/-- DIRTY of a context. -/
def isDirty (s : State) (c : Nat) : Bool := rdB s (csCtx c 0x1A0) 10

/-- Meaning of BLOCK_VOTE (R341): LOCAL_VOTERS vote notices have arrived (log entry 83, DEDUCED). -/
def execBlockVote (c : CtxId) (s : State) : Host.Outcome State Fault Refusal :=
  .next (if stepped s c && csState s c == 1 && !(attOf s c).voted && csCfg s c 48 13 ≤ (attOf s c).notices.length
    then blockVote s c (!isDirty s c) true else s)

/-! ### Deciding (R343, R344) -/

/-- Step number in words of a VOTE or a DECIDE. -/
def wordsStep (w : List Nat) (i : Nat) : Nat := w.getD i 0 + ((w.getD (i + 1) 0 % 65536) <<< 32)

/-- A control packet of an older context epoch (R374); votes and decisions of the attempt that was torn down count
(log entry 206, DEDUCED). -/
def oldEpoch (s : State) (c e : Nat) : Bool :=
  let d := (epochOf s c + 65536 - e) % 65536
  d != 0 && d < 32768 && !(d == 1 && (attOf s c).torn)

/-- DECIDE sent by the root (R344). -/
def sendDecide (s : State) (c d : Nat) : State :=
  let n := stepOf s c
  inject s 1 (.ctrl (toGroup (mkCtrl s 0x0D 1 c (n % 256) [d, n % 2 ^ 32, n / 2 ^ 32]) (voteGroup s c)))

/-- The step is selected for audit (R352): the first attempt of a clean step takes the count to AUDIT_N (log entry 87, DEDUCED). -/
def auditDue (s : State) (c : Nat) : Bool :=
  let n := rdF s (csReg 0x100) 0 32
  n != 0 && csCfg s c 1 1 == 1 && (attOf s c).kind < 2 && n ≤ (attOf s c).cleanCount + 1

/-- The count of clean commits set, with AUDIT_LEFT. -/
def setCleanCount (s : State) (c n : Nat) : State :=
  wrF (setAtt s c { attOf s c with cleanCount := n }) (csCtx c 0x1A0) 32 32 (rdF s (csReg 0x100) 0 32 - n)

/-- The table of R343 (log entry 88, DEDUCED). -/
def decide343 (s : State) (c : Nat) (w : List Nat) : State :=
  let f := w.getD 0 0
  let skew := wordsStep w 1 + wordsStep w 3 != 2 ^ 48 - 1 || wordsStep w 1 &&& wordsStep w 3 != 0
  if skew then sendDecide (report s (devPage 11) 0x0B04 { ctx := some c }) c 3
  else if !f.testBit 1 then sendDecide s c 3
  else if !f.testBit 0 || (attOf s c).aborted then sendDecide s c 2
  else if !f.testBit 2 then
    if (attOf s c).kind = 3 then sendDecide (nondeterministic s c) c 3
    else sendDecide (setAtt (report s (devPage 11) 0x0B07 { ctx := some c }) c { attOf s c with third := true }) c 2
  else if auditDue s c then sendDecide (setCleanCount s c 0) c 4
  else sendDecide (if (attOf s c).kind < 2 then setCleanCount s c ((attOf s c).cleanCount + 1) else s) c 1

/-- Meaning of VOTE_COMPLETE (R343): the combined VOTE has reached the root of its group. -/
def execVoteComplete (root : TileId) (p : Ctrl) (s : State) : Host.Outcome State Fault Refusal :=
  .next (if p.type != 0x0C then s else match takeEjected s root (.ctrl p) with
    | none => s
    | some u =>
      if !stepped u p.context || !(csState u p.context == 1 || csState u p.context == 2) then u
      else if oldEpoch u p.context p.ctxEpoch then ctlCount u 1 0 1
      else decide343 u p.context p.words)

/-! ### Decisions at a member (R345) -/

/-- LAST_DECISION. -/
def setDecision (s : State) (c d : Nat) : State := wrF s (csCtx c 0x1A0) 5 3 d

/-- LAST_DECISION, CS_WAIT and CS_WAIT_TOTAL at a DECIDE (R348, R361). -/
def noteDecide (s : State) (c d : Nat) : State :=
  let a := attOf s c
  let w := if a.voted then min (now s - a.voteDt) (2 ^ 32 - 1) else 0
  incWrap (wrF (setDecision s c d) (csCtx c 0x1B8) 0 32 w) (csCtx c 0x1C0) (w / 16)

/-- A DECIDE taken by the step-commit block, when it is for the decision and the open step (log entry 85, DEDUCED). -/
def onDecide (s : State) (p : Ctrl) (d : Nat) (f : State → Nat → State) : State :=
  if p.type != 0x0D || p.words.getD 0 0 % 8 != d then s
  else match takeEjected s 1 (.ctrl p) with
    | none => s
    | some u =>
      let c := p.context
      if oldEpoch u c p.ctxEpoch then ctlCount u 1 0 1
      else if !stepped u c || !(csState u c == 1 || csState u c == 2) || wordsStep p.words 1 != stepOf u c then u
      else f (noteDecide u c d) c

/-- JUSED of a context. -/
def jused (s : State) (c : Nat) : Nat := (rd s (csCtx c 0x1D0)).toNat

/-- The journal discarded (R345). -/
def dropJournal (s : State) (c : Nat) : State := wr s (csCtx c 0x1D0) 0

/-- Journal entries from a position on: address and length of each. -/
def journalEntries (s : State) (stop : Nat) : Nat → Nat → List (Nat × Nat)
  | 0, _ => []
  | n + 1, p =>
    if stop ≤ p then []
    else
      let len := natNow s (p + 6) 2
      (natNow s p 6, len) :: journalEntries s stop n (p + 32 + (len + 31) / 32 * 32)

/-- Lines that applying the journal `[p, stop)` would touch are in the companion's hands (R295). -/
def journalBusy (s : State) (p stop : Nat) : Bool :=
  unsettled s p (stop - p) false || (journalEntries s stop ((stop - p) / 32) p).any (fun e => unsettled s e.1 e.2 true)

/-- The companion snooped for those lines. -/
def journalSettle (s : State) (p stop : Nat) : State :=
  each (journalEntries s stop ((stop - p) / 32) p) (fun u e => if unsettled u e.1 e.2 true then settle u e.1 e.2 true else u)
    (if unsettled s p (stop - p) false then settle s p (stop - p) false else s)

/-- The page of the block that applies a journal: step commit, or Hornbeam for JSCAN (R345, R420). -/
def applyPage (ctx : Option Nat) : Nat := if ctx.isSome then devPage 11 else devPage 7

/-- The data of a journal entry read and, in a data entry, written (R336), withheld bytes left as they are. -/
def applyData (ctx : Option Nat) (write : Bool) (dest : Nat) (d : List (Option Byte) × State) : State :=
  if write then (mappedWrite d.2 (applyPage ctx) dest d.1 ctx).2 else d.2

/-- The journal entry at `p` applied once its header `h` is read (R336): where the next entry begins comes with the
state, or nothing where the header is withheld (log entry 86, DEDUCED). -/
def applyHeader (ctx : Option Nat) (p : Nat) (h : List (Option Byte) × State) : Option Nat × State :=
  if h.1.any (fun o => o.isNone) then (none, h.2)
  else
    let b := h.1.map (fun o => o.getD 0)
    let len := natOfBytes ((b.drop 6).take 2)
    (some (p + 32 + (len + 31) / 32 * 32),
      applyData ctx (natOfBytes ((b.drop 14).take 1) == 1) (natOfBytes (b.take 6)) (mappedRead h.2 (applyPage ctx) (p + 32) len ctx))

/-- The journal entry at `p` applied (R336). -/
def applyOne (ctx : Option Nat) (p : Nat) (s : State) : Option Nat × State :=
  applyHeader ctx p (mappedRead s (applyPage ctx) p 32 ctx)

/-- Entries of a journal applied in order (R336), with their count; an entry whose header is withheld ends the
application. -/
def applyEntries (ctx : Option Nat) (stop : Nat) : Nat → Nat → State → Nat × State
  | 0, _, s => (0, s)
  | n + 1, p, s =>
    if stop ≤ p then (0, s)
    else
      let e := applyOne ctx p s
      match e.1 with
      | none => (0, e.2)
      | some q =>
        let r := applyEntries ctx stop n q e.2
        (r.1 + 1, r.2)

/-- First entry and end of a context's journal. -/
def journalSpan (s : State) (c : Nat) : Nat × Nat := ((journalRange s c).1 + 32, (journalRange s c).1 + 32 + jused s c)

/-- The journal applied, once no line has to be snooped. -/
def applyJournal (s : State) (c : Nat) : State :=
  let j := journalSpan s c
  if (attOf s c).applied then s
  else if journalBusy s j.1 j.2 then journalSettle s j.1 j.2
  else
    let s1 := (applyEntries (some c) j.2 (jused s c / 32) j.1 s).2
    setAtt s1 c { attOf s1 c with applied := true }

/-- COMMIT (R345): the mark is written and the journal applied. -/
def startApply (s : State) (c : Nat) : State :=
  let mark := entryHeader (jused s c) 0 (stepOf s c) 2
  applyJournal (setCsState (mappedWrite s (devPage 11) (journalRange s c).1 (mark.map some) (some c)).2 c 3) c

/-- Meaning of DECIDE_COMMIT (R345). -/
def execDecideCommit (p : Ctrl) (s : State) : Host.Outcome State Fault Refusal := .next (onDecide s p 1 startApply)

/-! ### Opening a step (R331, R341, R348) -/

/-- Clusters on which a context is placed: those of its residence slots and of its sets' tiles. -/
def ctxClusters (s : State) (c : Nat) : List Nat := ((placesOf s c).map clusterOf).eraseDups

/-- Keys `t × 256 + c` of one context removed from a map. -/
def dropCtx {α : Type} (m : NMap α) (c : Nat) : NMap α := m.filter (fun e => e.1 % 256 != c)

/-- A step opens: flags of the residence slots set, DIRTY and CS_SIG cleared, the tiles' holds end (log entry 84,
DEDUCED), the routers of member tiles that are fenced or in reset vote for them (R377), as those of every member do for a
context that was torn down, and lost ports' votes are given anew (R253). -/
def openStep (s : State) (c kind attempt : Nat) : State :=
  let a := attOf s c
  let s1 := each (slotsOf s c) (fun u x => setSlotFlags u x.1 x.2 3) s
  let s2 := { s1 with
    commit := { s1.commit with held := dropCtx s1.commit.held c, endTok := dropCtx s1.commit.endTok c
                               named := mapErase c s1.commit.named, contrib := mapErase c s1.commit.contrib }
    flow := { s1.flow with accIndex := dropCtx s1.flow.accIndex c }
    net := { s1.net with votes := s1.net.votes.map (fun e => (e.1, e.2.filter (fun v => v.1 != voteGroup s1 c))) } }
  let torn := tdState s c == 2 || tdState s c == 3
  let s3 := setAtt s2 c { noAttempt with openDt := now s, torn := torn, kind := kind, cleanCount := a.cleanCount, firstClusters := a.firstClusters
                                         auditClusters := a.auditClusters, firstSig := a.firstSig, auditSig := a.auditSig }
  let s4 := wrB (wrF s3 (csCtx c 0x1A0) 24 8 (min attempt 255)) (csCtx c 0x1A0) 10 a.dirtyNext
  let s5 := setCsState (wr s4 (csCtx c 0x1A8) 0) c 1
  votesOfLost (standIns s5 c ((voters s5 c).filter (fun t => torn || tileFenced s5 t || tileInReset s5 t))) c

/-- Clusters quarantined (R350). -/
def quarantine (s : State) (l : List Suspect) : State := { s with commit := { s.commit with quar := s.commit.quar ++ l } }

/-- After a third attempt that commits, the clusters of the placement that disagreed are suspects (R352). -/
def auditSuspects (s : State) (c : Nat) : State :=
  let a := attOf s c
  if a.kind != 3 then s
  else
    let l := if csSig s c = a.firstSig then a.auditClusters else if csSig s c = a.auditSig then a.firstClusters else []
    let mk (k : Nat) : Suspect := { cluster := k, ctx := c, step := stepOf s c, code := 0x0B07, firstSig := some a.firstSig
                                    replaySig := some (csSig s c), unplaced := false, audit := true, pred := 0, obs := 0 }
    quarantine s (l.map mk)

/-- Step number set, both guarded halves (R361). -/
def setStep (s : State) (c n : Nat) : State := wrG (wrG s (csCtx c 0x180) (n % 2 ^ 32)) (csCtx c 0x188) (n / 2 ^ 32 % 65536)

/-- At a step boundary a conditional fence in force, or Yew, takes the context off its place (R355, R434): the step waits for
Hornbeam's OPEN, as a replay does, and after a fence the re-placement is owed (R381) (log entry 195, DEDUCED). -/
def awaitPlace (s : State) (c : Nat) : State :=
  let a := attOf s c
  let s1 := wrF (setAtt s c { noAttempt with cleanCount := a.cleanCount, dirtyNext := a.dirtyNext }) (csCtx c 0x1A0) 24 8 0
  let s2 := setCsState s1 c 5
  if fenceMoves s c && (mapFind c s2.recov.replaceDt).isNone then
    { s2 with recov := { s2.recov with replaceDt := mapInsert c (now s2) s2.recov.replaceDt } }
  else s2

/-- The journal is applied (R345, R348): checkpoints of the step are captured, EMPTY is written, and the next step opens where
the context need not leave its place. -/
def finishApply (s : State) (c : Nat) : State :=
  let n := stepOf s c
  let s1 := each (capturing s c n) ckCapture s
  let s2 := (mappedWrite s1 (devPage 11) (journalRange s c).1 ((entryHeader 0 0 0 0).map some) (some c)).2
  let s3 := incWrap (setStep (auditSuspects (dropJournal s2 c) c) c ((n + 1) % 2 ^ 48)) (csReg 0x080) 1
  if tdState s3 c = 0 && (fenceMoves s3 c || vacates s3 c) then awaitPlace s3 c else openStep s3 c 0 1

/-- Meaning of JOURNAL_APPLIED (R348): it waits while the companion holds lines that are needed. -/
def execJournalApplied (c : CtxId) (s : State) : Host.Outcome State Fault Refusal :=
  .next (if csState s c != 3 then s
    else
      let s1 := applyJournal s c
      if !(attOf s1 c).applied then s1
      else if (capturing s1 c (stepOf s1 c)).any (captureBusy s1) then
        each (capturing s1 c (stepOf s1 c)) (fun u n => each (streamOf u n).segs (fun v g => if unsettled v g.1 (g.2.1 * mib2) false then settle v g.1 (g.2.1 * mib2) false else v) u) s1
      else finishApply s1 c)

/-! ### Aborts (R345, R346, R350) -/

/-- CS_SIG kept for the comparison (R345). -/
def keepSig (s : State) (c : Nat) (complete : Bool) : State :=
  wrB (wr s (csCtx c 0x1B0) (rd s (csCtx c 0x1A8))) (csCtx c 0x1A0) 11 complete

/-- The suspects of an aborted step (R350): the clusters that its records named, those of R69 among them. -/
def suspectsOf (s : State) (c : Nat) : List Suspect :=
  let a := attOf s c
  (mapGet (fun _ => []) s.commit.named c).map (fun n =>
    { cluster := n.cluster, ctx := c, step := stepOf s c, code := n.code
      firstSig := if a.voted then some (csSig s c) else none, replaySig := none, unplaced := false, audit := false, pred := n.pred, obs := n.obs })

/-- What both aborts share: record, source 368 and STEPS_ABORTED (R345, R362). -/
def abortNote (s : State) (c code : Nat) : State := raise (incWrap (report s (devPage 11) code { ctx := some c }) (csReg 0x088) 1) 368

/-- The kind of the attempt that follows an ABORT_REPLAY (R352). -/
def nextKind (s : State) (c : Nat) : Nat :=
  let a := attOf s c
  if a.kind = 3 || (a.kind = 2 && a.voted && (a.third || csSig s c != a.firstSig)) then 3 else 1

/-- ABORT_REPLAY (R345): the signature is kept, the journal discarded, suspects quarantined, the context torn down. -/
def abortReplay (s : State) (c : Nat) : State :=
  let a := attOf s c
  let s1 := dropJournal (keepSig (quarantine s (suspectsOf s c)) c a.voted) c
  let k := nextKind s c
  let s2 := setAtt s1 c { a with kind := k, auditSig := if a.kind = 2 && k = 3 then csSig s c else a.auditSig
                                 auditClusters := if a.kind = 2 && k = 3 then ctxClusters s c else a.auditClusters }
  setCsState (tearOnce (abortNote s2 c 0x0B01) c false) c 5

/-- Meaning of ABORT_REPLAY (R345); `contributors` are the clusters that the report of a residue failed on another
device names as its contributors here (R350). -/
def execAbortReplay (p : Ctrl) (contributors : List ClusterId) (s : State) : Host.Outcome State Fault Refusal :=
  .next (onDecide s p 2 (fun u c => abortReplay (nameAlso u c 0x0105 (contributedAway u c (contributors.map (fun k => k.val)))) c))

/-- Meaning of DECIDE_AUDIT (R345, R352). -/
def execDecideAudit (p : Ctrl) (s : State) : Host.Outcome State Fault Refusal :=
  .next (onDecide s p 4 (fun u c =>
    let u1 := dropJournal (keepSig u c true) c
    let u2 := setAtt u1 c { attOf u c with kind := 2, firstSig := csSig u c, firstClusters := ctxClusters u c }
    setCsState (tearOnce (incWrap u2 (csReg 0x090) 1) c false) c 5))

/-- ABORT_FAULT (R345): the context enters FAULTED; its checkpoints end (R393). -/
def abortFault (s : State) (c : Nat) : State :=
  ckFaulted (setCsState (tearOnce (abortNote (dropJournal s c) c 0x0B02) c false) c 6) c

/-- Meaning of ABORT_FAULT (R345). -/
def execAbortFault (p : Ctrl) (s : State) : Host.Outcome State Fault Refusal := .next (onDecide s p 3 abortFault)

/-! ### Paths to the root (R346, R347) -/

/-- The member's path to the root is lost: the UP port of its fabric entry is DOWN or FENCED, or `named`: an
ABORT named the root device as lost. -/
def pathLost (s : State) (c : Nat) (named : Bool) : Bool :=
  match fabricUp s (voteGroup s c) with
  | some p => named || portState s p == 4 || portState s p == 5
  | none => false

/-- Meaning of IN_DOUBT (R347). -/
def execInDoubt (c : CtxId) (named : Bool) (s : State) : Host.Outcome State Fault Refusal :=
  .next (if stepped s c && csState s c == 2 && pathLost s c named then
      let s1 := report (setCsState s c 4) (devPage 11) 0x0B06 { ctx := some c }
      if inDoubtAny s then s1 else raise s1 369
    else s)

/-- Meaning of ROOT_PATH_LOST (R346): a member that has not voted discards the step as for ABORT_REPLAY. -/
def execRootPathLost (c : CtxId) (named : Bool) (s : State) : Host.Outcome State Fault Refusal :=
  .next (if stepped s c && csState s c == 1 && pathLost s c named then abortReplay s c else s)

/-! ### CS_CMD (R348) -/

/-- Suspects of a context whose replay could not avoid them (R350): record 0x0B0E. -/
def noteUnplaced (s : State) (c : Nat) : State :=
  let ks := ctxClusters s c
  let bad (q : Suspect) : Bool := q.ctx == c && ks.contains q.cluster && !q.audit && q.replaySig.isNone
  if s.commit.quar.any bad then
    report { s with commit := { s.commit with quar := s.commit.quar.map (fun q => if bad q then { q with unplaced := true } else q) } }
      (devPage 11) 0x0B0E { ctx := some c }
  else s

/-- The entry of a group at a router, with one port taken out of DOWN (R218). -/
def dropDown (s : State) (t g port : Nat) : State :=
  let k := banked (tileReg t 3 0x128) g
  wrF s k 4 9 (fieldOf (rd s k) 4 9 &&& (511 - 2 ^ port))

/-- A router that a group's tree leads to no more is taken out of it, and so are the routers above it that led to it alone
(R218, R381). -/
def pruneTree (g : Nat) : Nat → Nat → State → State
  | 0, _, s => s
  | n + 1, t, s =>
    let e := mcEntry s t g
    if !e.1 || e.2.1 != 0 then s
    else match neighbour t e.2.2 with
      | none => s
      | some u => pruneTree g n u (dropDown (wrB s (banked (tileReg t 3 0x128) g) 13 false) u g (farPort e.2.2))

/-- A group's tree rebuilt without its fenced tiles (R381 order 3). -/
def rebuildTree (s : State) (g : Nat) : State :=
  each ((groupTiles s g).filter (fun t => t != 1 && tileFenced s t)) (fun u t => pruneTree g 160 t (dropDown u t g 0)) s

/-- The context's re-placement is complete (R381): its trees hold no fenced tile and LOCAL_VOTERS counts the members that are
left; record 0x0C09 when it took longer than 5 ms. -/
def replaced (s : State) (c : Nat) : State :=
  match mapFind c s.recov.replaceDt with
  | none => s
  | some t =>
    let s0 := rebuildTree (rebuildTree s (voteGroup s c)) (ctxGroup s c)
    let s1 := wrF { s0 with recov := { s0.recov with replaceDt := mapErase c s0.recov.replaceDt } } (csCtx c 0x190) 48 13 (voters s0 c).length
    if t + 5000000 < now s then report s1 (devPage 7) 0x0C09 { ctx := some c } else s1

/-- A placement that keeps a context's next attempt waiting: one under a conditional fence in force (R355), or one that its
audit has to avoid (R352). -/
def badPlace (s : State) (c : Nat) : Bool :=
  fenceMoves s c || s.flow.sets.any (fun (e : Nat × Placed) => e.2.ctxs.contains c && !auditOk s e.1 [c] e.2.tiles)

/-- A reset domain that holds the context, or held it and has it placed nowhere anew, is not out of its reset (R384). -/
def resetWaits (s : State) (c : Nat) : Bool :=
  (placesOf s c).any (tileInReset s) || s.recov.resetCtx.any (fun e => e.2 == c && (tilesOf e.1).any (tileInReset s))

/-- OPEN (R348): of an IDLE context, or by Hornbeam of a context that waits for its replay (log entry 155, DEDUCED). -/
def csOpen (s : State) (c : Nat) (hornbeam : Bool) : Option State :=
  let td := tdState s c
  if td = 1 || td = 2 || td = 4 || s.recov.tdReq.contains c || badPlace s c || resetWaits s c then none
  else if csState s c = 0 then some (openStep (reopenQueues (revive (replaced s c) c) c) c 0 1)
  else if csState s c = 5 && hornbeam then
    some (openStep (reopenQueues (revive (noteUnplaced (replaced s c) c) c) c) c (attOf s c).kind (rdF s (csCtx c 0x1A0) 24 8 + 1))
  else none

/-- The effect of a write of CS_CMD for a context (R347, R348); others are ignored. -/
def csCmd (s : State) (c cmd : Nat) (hornbeam : Bool) : State :=
  match cmd with
  | 0 => s
  | 1 => (csOpen s c hornbeam).getD (ignored s (devPage 11))
  | 2 => if csState s c = 4 then startApply (setDecision s c 1) c else ignored s (devPage 11)
  | 3 => if csState s c = 4 then abortReplay (setDecision s c 2) c else ignored s (devPage 11)
  | 4 => if csState s c = 6 then setCsState s c 0 else ignored s (devPage 11)
  | _ => ignored s (devPage 11)

/-! ### Durable writes (R336) -/

/-- Meaning of DURABLE_WRITE (R336, R337): a write by tile `t` for a context; parts outside durable regions are performed at once,
after any snoop they need. A part that fails clears the tile's checks-clean bit (R150, R271). -/
def execDurableWrite (t : TileId) (c : CtxId) (a : Nat) (data : List Byte) (s : State) : Host.Outcome State Fault Refusal :=
  .next (if !stepped s c then s
    else if !dramMapped s a data.length then report s (tilePage t 2) 0x0A01 { ctx := some c, detail := [a] }
    else
      let w := memWrite s a (data.map some) (some c) (some t)
      if w.1 then w.2 else clearClean w.2 t c)

end Sys2Proof.Machine
end

