-- ==== Sys2Proof/Machine/Firmware.lean ====
section
/-! DEFINITION. Tile firmware (R409, R414–R417): the image's chunks, loaders, copy tiles and repair rounds. -/

namespace Sys2Proof.Machine

/-- A register of the Hornbeam page. -/
def hbReg (off : Nat) : Nat := devReg 7 off
/-- HB_STAT.PHASE (R403). -/
def hbPhase (s : State) : Nat := rdF s (hbReg 0x108) 0 4
/-- HB_STAT.READY. -/
def hbReady (s : State) : Bool := rdB s (hbReg 0x108) 5

/-! ### The image (R409) -/

/-- A little-endian number of the image. -/
def imgNat (s : State) (off n : Nat) : Nat := natOfBytes ((s.boot.img.drop off).take n)
/-- Chunk counts: 0 Hornbeam, 1 T, 2 M, 3 V, 4 S. -/
def chunkCount (s : State) (i : Nat) : Nat := imgNat s (16 + 2 * i) 2
/-- Tile chunks of the image, at most 64. -/
def tileChunks (s : State) : Nat := min 64 (((List.range 4).map (fun i => chunkCount s (i + 1))).sum)
/-- Blocks of the hash list. -/
def hashBlocks (s : State) : Nat := ceilDiv (32 * (chunkCount s 0 + tileChunks s)) 4096
/-- Byte offset of chunk `i`, counted over the whole image. -/
def chunkOff (s : State) (i : Nat) : Nat := 4096 * (1 + hashBlocks s + i)
/-- Entry of the hash list. -/
def hashAt (s : State) (i : Nat) : Nat := imgNat s (4096 + 32 * i) 32
/-- SHAKE256 entry of tile chunk `k`. -/
def chunkHash (s : State) (k : Nat) : Nat := hashAt s (chunkCount s 0 + k)
/-- Bytes of tile chunk `k`. -/
def chunkData (s : State) (k : Nat) : List Byte := (s.boot.img.drop (chunkOff s (chunkCount s 0 + k))).take 4096

/-- Number of a tile type in the image's order. -/
def typeIndex : TileType → Nat
  | .t => 0 | .m => 1 | .v => 2 | .s => 3

/-- First tile chunk of a type. -/
def typeStart (s : State) (i : Nat) : Nat := ((List.range i).map (fun j => chunkCount s (j + 1))).sum
/-- Tile chunks of a tile's type. -/
def ownChunks (s : State) (t : Nat) : List Nat :=
  let i := typeIndex (tileType t)
  (List.range (chunkCount s (i + 1))).map (fun k => typeStart s i + k)
/-- Type of tile chunk `k`. -/
def chunkType (s : State) (k : Nat) : Nat := ((List.range 4).find? (fun i => k < typeStart s (i + 1))).getD 3

/-! ### Copy tiles (R415) -/

/-- The lowest-numbered M tile of a cluster that is not fenced. -/
def copyIn (s : State) (c : Nat) : Option Nat :=
  let l := (tilesOf c).filter (fun t => tileType t == .m && !tileFenced s t)
  l.foldl (fun (m : Option Nat) t => match m with | some x => some (min x t) | none => some t) none

/-- Clusters of the same half by distance from `c`, the lower number first. -/
def nearClusters (c : Nat) : List Nat :=
  (List.range 144).flatMap (fun d =>
    if d = 0 then [c]
    else (if d ≤ c && (c - d) / 144 == c / 144 then [c - d] else []) ++ (if (c + d) / 144 = c / 144 then [c + d] else []))

/-- Copy tile of a tile's cluster. -/
def copyOf (s : State) (t : Nat) : Option Nat := mapFind (clusterOf t) s.boot.copyTile
/-- A tile is the copy tile of some cluster. -/
def isCopy (s : State) (t : Nat) : Bool := s.boot.copyTile.any (fun e => e.2 == t)
/-- A tile's loader and copy area forget their chunks. -/
def dropFw (s : State) (t : Nat) : State := { s with boot := { s.boot with fw := mapClear s.boot.fw (t * 64) (t * 64 + 64) } }

/-- The copy tile chosen for a cluster, with record 0x0E07 when it is another cluster's; one that was none keeps no chunk yet. -/
def chooseCopy (s : State) (c : Nat) : State :=
  let s1 := if (copyIn s c).isNone then report s (devPage 7) 0x0E07 { detail := [c] } else s
  match ((nearClusters c).find? (fun k => (copyIn s k).isSome)).bind (copyIn s) with
  | some t =>
    let s2 := if isCopy s1 t then s1 else dropFw s1 t
    { s2 with boot := { s2.boot with copyTile := mapInsert c t (mapErase c s2.boot.copyTile) } }
  | none => { s1 with boot := { s1.boot with copyTile := mapErase c s1.boot.copyTile } }

/-- First byte of a copy tile's copy area (R415) (log entry 109, DEDUCED). -/
def copyArea (s : State) : Nat := 4 * (0x20000 - (tileChunks s + 1) * 1024)

/-! ### Loaders (R414) -/

/-- A chunk of which nothing arrived. -/
def noChunk : FwChunk := { got := [], ok := false }
/-- A loader's chunk. -/
def fwOf (s : State) (t k : Nat) : FwChunk := mapGet (fun _ => noChunk) s.boot.fw (t * 64 + k)
/-- A loader's chunk set. -/
def setFw (s : State) (t k : Nat) (c : FwChunk) : State :=
  { s with boot := { s.boot with fw := mapPut (fun _ => noChunk) s.boot.fw (t * 64 + k) c } }
/-- Chunks that a tile needs. -/
def neededChunks (s : State) (t : Nat) : List Nat := if isCopy s t then List.range (tileChunks s) else ownChunks s t
/-- Chunks that a tile lacks. -/
def lacks (s : State) (t : Nat) : List Nat := (neededChunks s t).filter (fun k => !(fwOf s t k).ok)

/-- A data packet of a chunk. -/
def fwData (s : State) (dst : Nat) (group : Option Nat) (src k i hash : Nat) (data : List Byte) : FwPkt :=
  { dst := dst, mcast := group.isSome, group := group.getD 0, chunk := k, pull := false, piece := i
    src := deviceId s * 8192 + src, hash := hash, data := (data.drop (512 * i)).take 512 }

/-- The 8 pieces of a chunk sent from a copy tile. -/
def sendPieces (s : State) (src dst k hash : Nat) (data : List Byte) : State :=
  each (List.range 8) (fun u i => inject u src (.fw (fwData u dst none src k i hash data))) s

/-- The 8 pieces of a chunk sent by Hornbeam, to a tile or to a group. -/
def hbPieces (s : State) (dst : Nat) (group : Option Nat) (k hash : Nat) (data : List Byte) : State :=
  each (List.range 8) (fun u i => hbInject u (.fw (fwData u dst group 1 k i hash data))) s

/-- A chunk kept in the copy area, with the hash list after the last chunk. -/
def keepCopy (s : State) (t k : Nat) (data : List Byte) : State :=
  let s1 := ownWrite s t (copyArea s + 4096 * k) (data.map some) none
  ownWrite s1 t (copyArea s + 4096 * tileChunks s) (((List.range (tileChunks s)).flatMap (fun j => bytesOf 32 (chunkHash s j))).map some) none

/-- A piece received by a loader; a chunk whose hash fails counts as missing, if none was held, and one that another device
shares is counted in STALE_DISCARDS then (R414, R417). -/
def fwPiece (s : State) (t : Nat) (p : FwPkt) : State :=
  let c := fwOf s t p.chunk
  let got := mapInsert p.piece p.data (mapErase p.piece c.got)
  if got.length < 8 then setFw s t p.chunk { c with got := got }
  else
    let data := got.flatMap Prod.snd
    if Config.shake256 data 32 = p.hash then
      let s1 := setFw s t p.chunk { got := [], ok := true }
      if isCopy s t then keepCopy s1 t p.chunk data else s1
    else
      let s1 := setFw s t p.chunk { c with got := [] }
      if p.src / 8192 != deviceId s then ctlCount s1 t 0 1 else s1

/-- A PULL answered from the copy area (R416), a withheld word as 0 (log entry 181, DESIGN CHOICE): FW_PULLS counts the
pieces. -/
def answerPull (s : State) (t : Nat) (p : FwPkt) : State :=
  let r := ownRead s t (copyArea s + 4096 * p.chunk) 4096 none
  incWrap (sendPieces r.2 t (p.src % 8192) p.chunk (chunkHash s p.chunk) (r.1.map (fun o => o.getD 0))) (hbReg 0x090) 8

/-- The words of the copy area that a packet reaches: a piece that may complete its chunk, and the hash list, or the chunk
that a PULL asks for. -/
def copyWords (s : State) (p : FwPkt) : List (Nat × Nat) :=
  (copyArea s + 4096 * p.chunk, 4096) :: (if p.pull then [] else [(copyArea s + 4096 * tileChunks s, 32 * tileChunks s)])

/-- A packet of a copy tile waits for the banks of its copy area (R171). -/
def copyWaits (s : State) (t : Nat) (p : FwPkt) : Bool :=
  isCopy s t && p.chunk < tileChunks s && (copyWords s p).any (fun x => ownWaits s t x.1 x.2)

/-- Meaning of FW_PACKET (R414, R417): taken into the loader's store in MAINT mode, or into the copy area when the
chunk is the one of the verified list, once its banks are ON; a PULL is answered by a copy tile; every other packet is discarded. -/
def execFwPacket (t : TileId) (p : FwPkt) (s : State) : Host.Outcome State Fault Refusal :=
  .next (match takeEjected s t (.fw p) with
    | none => s
    | some u =>
      if copyWaits u t p then each (copyWords s p) (fun v x => ownWake v t x.1 x.2) s
      else
      let copy := isCopy u t
      if p.pull then (if copy && (fwOf u t p.chunk).ok && p.src % 8192 < 4608 then answerPull u t p else ctlCount u t 0 1)
      else if copy && p.chunk < tileChunks u && p.piece < 8 && p.hash == chunkHash u p.chunk then fwPiece u t p
      else if !copy && !inService u t && (ownChunks u t).contains p.chunk && p.piece < 8 then fwPiece u t p
      else ctlCount u t 0 1)

/-! ### Rounds (R416, R417) -/

/-- Hornbeam sends the chunks that a copy tile lacks, and tiles pull what their copy tile holds at the round's start. -/
def beginRound (s : State) (n : Nat) : State :=
  let l := s.boot.fwTiles.filter (fun t => !tileFenced s t)
  let held := (s.boot.copyTile.map Prod.snd).eraseDups.flatMap (fun t => ((List.range (tileChunks s)).filter (fun k => (fwOf s t k).ok)).map (fun k => t * 64 + k))
  let s1 := { s with boot := { s.boot with fwRound := some n, fwHeld := held } }
  each l (fun u t =>
    if isCopy u t then each (lacks u t) (fun v k => hbPieces v t none k (chunkHash v k) (chunkData v k)) u
    else match copyOf u t with
      | some m => each ((lacks u t).filter (fun k => held.contains (m * 64 + k))) (fun v k =>
          inject v t (.fw { dst := m, mcast := false, group := 0, chunk := k, pull := true, piece := 0
                            src := deviceId v * 8192 + t, hash := chunkHash v k, data := [] })) u
      | none => u) s1

/-- Tiles that still lack a chunk. -/
def incomplete (s : State) : List Nat := s.boot.fwTiles.filter (fun t => !tileFenced s t && !(lacks s t).isEmpty)

/-- The rounds are over: tiles still incomplete are fenced, and another M tile takes the place of a fenced copy tile. -/
def endRounds (s : State) : State :=
  let bad := incomplete s
  let s1 := each bad (fun u t => fenceTile (report u (devPage 7) 0x0E06 { detail := [t] }) t 0x0E06) s
  let s2 := each ((s1.boot.copyTile.filter (fun e => bad.contains e.2)).map Prod.fst) chooseCopy s1
  let s3 := { s2 with boot := { s2.boot with fwRound := none, fwTiles := [], fwHeld := [] } }
  if hbPhase s3 = 4 then wrF { s3 with boot := { s3.boot with step := 0 } } (hbReg 0x108) 0 4 5 else s3

/-- Meaning of FW_ROUND_END (R416): the next round, or the end after every tile is complete or after round 8. -/
def execFwRoundEnd (s : State) : Host.Outcome State Fault Refusal :=
  .next (match s.boot.fwRound with
    | none => s
    | some n => if (incomplete s).isEmpty || 8 ≤ n then endRounds s else beginRound s (n + 1))

/-- The tiles of a reload: those that reload, and their copy tiles that lack chunks or are among them (R416, R417). -/
def reloadTiles (s : State) (tiles : List Nat) : List Nat :=
  (tiles ++ (tiles.filterMap (copyOf s)).filter (fun m => !(lacks s m).isEmpty)).eraseDups

/-- Tiles reload by PULL (R417): a copy tile that lacks chunks, as one among them does, is first refilled from flash. -/
def reload (s : State) (tiles : List Nat) : State :=
  let l := reloadTiles s tiles
  let s1 := { s with boot := { s.boot with fwTiles := s.boot.fwTiles ++ l.filter (fun t => !s.boot.fwTiles.contains t) } }
  match (s.ufs.dir.find? (fun e => e.1 == 1)) with
  | some e =>
    if l.any (isCopy s) && tileChunks s != 0 then
      ufsRead { s1 with boot := { s1.boot with refill := s1.boot.refill ++ (tiles.map clusterOf).eraseDups } } e.2.1
        (e.2.2.1 + chunkOff s (chunkCount s 0) / 4096) (tileChunks s) .refill
    else if s1.boot.fwRound.isSome then s1 else beginRound s1 1
  | none => if s1.boot.fwRound.isSome then s1 else beginRound s1 1

/-- The refill read from flash has come, or failed: the rounds begin with what Hornbeam holds. -/
def refillDone (s : State) (ok : Bool) (data : List Byte) : State :=
  let img := if ok then s.boot.img.take (chunkOff s (chunkCount s 0)) ++ data else s.boot.img
  let s1 := { s with boot := { s.boot with img := img, refill := [] } }
  if s1.boot.fwRound.isSome then s1 else beginRound s1 1

/-- A tile's firmware is complete, or the tile is fenced. -/
def fwReady (s : State) (t : Nat) : Bool := tileFenced s t || (lacks s t).isEmpty

end Sys2Proof.Machine
end

