-- ==== Sys2Proof/Machine/Directory.lean ====
section
/-! DEFINITION. Accesses of LPDDR6 by agents (R24, R271) and by the companion (R293–R296) at the directory and the channels:
performed, or waiting in the order in which they came (R40, R277). -/

namespace Sys2Proof.Machine

/-! ### Failed accesses -/

/-- The page that records an unmapped access of an agent (R24, log entry 22, DEDUCED). -/
def unmappedPage (a : Agent) : Nat := match a with | .companion => gbPage | _ => devPage 7

/-- An access of an agent to an unmapped address (R24). -/
def unmapped (s : State) (a : Agent) (addr : Nat) : State := report s (unmappedPage a) 0x0A01

/-- A withheld unit makes the step of a context that no tile stands for not clean (R271, R341). -/
def withheldDirty (s : State) (c : Option Nat) (data : List (Option Byte)) : State :=
  match c with
  | some x => if data.any (fun o => o.isNone) then requestDirty s x else s
  | none => s

/-- A write of which some unit was not performed does the same (R271, R272, R284). -/
def failDirty (r : Bool × State) (c : Option Nat) : State :=
  match c with
  | some x => if r.1 then r.2 else requestDirty r.2 x
  | none => r.2

/-! ### Requests of the companion -/

/-- A malformed request (R292), a misaligned line among them: recorded; a non-posted one is answered UNMAPPED. -/
def gbBad (s : State) (h : GbHdr) (posted : Bool) : State :=
  let s1 := report s gbPage 0x0903
  if posted then s1 else gbReply s1 h 1 []

/-- A request refused with ACCESS (R293, R295). -/
def gbAccess (s : State) (h : GbHdr) (posted : Bool) : State :=
  let s1 := report s gbPage 0x0904
  if posted then s1 else gbReply s1 h 2 []

/-- A request of the companion is well formed for its opcode (R290–R292). -/
def gbWell (h : GbHdr) (opc : Nat) (lenOk : Bool) : Bool := h.opc == opc && h.rsv == 0 && h.status == 0 && lenOk

/-- Entries of the directory set of a line, oldest first (R295). -/
def dirSet (s : State) (line : Nat) : List DirLine := s.gorbin.dir.filter (fun e => e.line % 65536 == line % 65536)

/-- A line is given to the companion in state `st`, with its data (R295). -/
def grantLine (s : State) (h : GbHdr) (line st : Nat) : State :=
  let r := dramRead s (line * 64) 64 none
  if r.1.any (fun o => o.isNone) then gbReply r.2 h 3 []
  else gbReply (setDir r.2 line st) h 0 (r.1.map (fun o => o.getD 0))

/-- A request of the companion waits at the directory, or for a channel (R277, R295, R296). -/
def compLate (s : State) (h : GbHdr) (data : List Byte) : State := putLate s (.comp h data)

/-- A coherent read of a line, shared (`st` 1) or exclusive (2), by R295 and R296; a full set gives up the line that entered
it first. -/
def lineRead (s : State) (h : GbHdr) (st : Nat) : State :=
  let line := h.addr / 64
  if !reachesMemory s .companion || regionOf h.addr != .lpddr || meetsFlags s h.addr 64 then gbAccess s h false
  else if !dramMapped s h.addr 64 then gbReply (unmapped s .companion h.addr) h 1 []
  else if snooping s line || lateOn s line || channelWaits s h.addr 64 then compLate s h []
  else if dirAt s line = 3 then gbReply (lostAccess s h.addr none) h 3 []
  else if dirAt s line != 0 then grantLine s h line (max st (dirAt s line))
  else match (if 16 ≤ (dirSet s line).length then (dirSet s line).head? else none) with
    | none => grantLine s h line st
    | some v => compLate (if snooping s v.line then s else snoop (incWrap s (gbReg 0x098) 1) v.line true) h []

/-- Shared to exclusive (R295); of a line that the companion does not share the status is open (log entry 59, DEDUCED). -/
def lineUpg (s : State) (h : GbHdr) : State :=
  let line := h.addr / 64
  if !reachesMemory s .companion || regionOf h.addr != .lpddr || meetsFlags s h.addr 64 then gbAccess s h false
  else if !dramMapped s h.addr 64 then gbReply (unmapped s .companion h.addr) h 1 []
  else if snooping s line || lateOn s line then compLate s h []
  else if dirAt s line = 3 then gbReply (lostAccess s h.addr none) h 3 []
  else if dirAt s line = 1 then gbReply (setDir s line 2) h 0 []
  else gbReply (drawn s) h (freeNat s % 6) []

/-- The bytes of an uncached read are in one block of 512 B (R293). -/
def ucShape (h : GbHdr) : Bool := 8 ≤ h.len && h.len ≤ 512 && h.len % 8 == 0
/-- An uncached access crosses a 512 B boundary. -/
def ucCrosses (h : GbHdr) : Bool := h.addr / 512 != (h.addr + h.len - 1) / 512

/-- The tile of a scratchpad-window address. -/
def padTile (a : Nat) : Nat := (a - padBase 0) / 0x80000

/-- A memory access of the companion that R484 refuses. -/
def gbRefused (s : State) (h : GbHdr) (write : Bool) : Bool :=
  match regionOf h.addr with
  | .lpddr => !reachesMemory s .companion
  | .pad => padDenied s .companion (padTile h.addr) ((h.addr - padBase 0) % 0x80000) h.len write
  | _ => false

/-- The page of a refused scratchpad access sets ERR_STAT.DENIED (R315). -/
def gbPadDenied (s : State) (h : GbHdr) : State :=
  match regionOf h.addr with
  | .pad => setErr s (spPage (padTile h.addr)) 1
  | _ => s

/-- An uncached read (R293): ordered like a device access of a tracked line (R295) (log entry 62, DEDUCED). -/
def ucRead (s : State) (h : GbHdr) : State :=
  if gbRefused s h false then gbAccess (gbPadDenied s h) h false
  else match regionOf h.addr with
  | .lpddr =>
    if !dramMapped s h.addr h.len then gbReply (unmapped s .companion h.addr) h 1 []
    else if unsettled s h.addr h.len false then compLate (settle s h.addr h.len false) h []
    else
      let r := dramRead s h.addr h.len none
      if r.1.any (fun o => o.isNone) then gbReply r.2 h 3 [] else gbReply r.2 h 0 (r.1.map (fun o => o.getD 0))
  | .pad =>
    let r := access s { tile := (h.addr - padBase 0) / 0x80000, boff := (h.addr - padBase 0) % 0x80000, len := h.len, op := .rd
                        req := .link h, ctx := none, data := [] }
    padReply r.2 h r.1
  | .unmapped => gbReply (unmapped s .companion h.addr) h 1 []
  | _ => gbReply s h 1 []

/-- LOST lines that a write covers whole return to I (R296). -/
def clearLost (s : State) (a len : Nat) : State :=
  each ((linesIn a len).filter (fun l => dirAt s l == 3 && a ≤ l * 64 && l * 64 + 64 ≤ a + len)) (fun u l => setDir u l 0) s

/-- An uncached write (R293, R296, R299). -/
def ucWrite (s : State) (h : GbHdr) (data : List Byte) : State :=
  if gbRefused s h true then gbAccess (gbPadDenied s h) h true
  else match regionOf h.addr with
  | .lpddr =>
    if !dramMapped s h.addr h.len then unmapped s .companion h.addr
    else if unsettled s h.addr h.len true then compLate (settle s h.addr h.len true) h data
    else
      let f := flagCheck s h.addr (data.map some) true
      if f.1 then (dramStore (clearLost f.2 h.addr h.len) h.addr (data.map some) none).2 else f.2
  | .pad =>
    (access s { tile := (h.addr - padBase 0) / 0x80000, boff := (h.addr - padBase 0) % 0x80000, len := h.len, op := .wr
                req := .link h, ctx := none, data := data.map some }).2
  | .unmapped => unmapped s .companion h.addr
  | _ => s

/-- Modified data of a line that the companion gives back (R295, R296), stored by the controller of its two units: before every
access of the line that waits, once the channel serves (R277). -/
def takeLine (s : State) (line : Nat) (data : List Byte) : State :=
  let half (u : State) (i : Nat) : State :=
    let a := line * 64 + 32 * i
    if suspectWrite u a 32 then discardDram u a else (storeWhole u a (natOfBytes ((data.drop (32 * i)).take 32)) none).2
  if channelWaits s (line * 64) 64 then { s with gorbin := { s.gorbin with late := .line line data :: s.gorbin.late } }
  else half (half s 0) 1

/-- A request with `n` data bytes was taken in state `s`, which gave `u`: unless it waits, it has left the ingress buffer, whose
places are credited (R286). -/
def gbLeaves (s u : State) (n : Nat) : State :=
  if s.gorbin.waits.length < u.gorbin.waits.length || s.gorbin.late.length < u.gorbin.late.length then u else oweCredit u 14 2 (gbFlits n)

/-! ### Accesses that have waited -/

/-- A read of memory by an agent, answered once nothing holds it back (R269–R271). -/
def agentRead (s : State) (a : Agent) (ctx : Option Nat) (addr len : Nat) : State :=
  if unsettled s addr len false then settleLate s (.agent a ctx addr len) addr len false
  else
    let r := dramRead s addr len ctx
    emit (withheldDirty r.2 ctx r.1) (.access (.mgmt a) 0 r.1)

/-- A request of the companion that had reached the directory. -/
def compServe (s : State) (h : GbHdr) (data : List Byte) : State :=
  match h.opc with
  | 0x03 => ucRead s h
  | 0x04 => ucWrite s h data
  | 0x05 => lineRead s h 1
  | 0x06 => lineRead s h 2
  | _ => lineUpg s h

/-- An access that has waited is tried again: performed, or it waits on in its place. -/
def lateServe (s : State) : LateItem → State
  | .write a d ctx => failDirty (dramWrite s a d ctx) ctx
  | .line l d => if channelWaits s (l * 64) 64 then putLate s (.line l d) else takeLine s l d
  | .agent a ctx addr len => agentRead s a ctx addr len
  | .comp h d => gbLeaves s (compServe s h d) d.length

/-- The accesses that wait at a line or a channel are tried again, in the order in which they came (R40, R277, R295, R296). -/
def lateRun (s : State) : State := each s.gorbin.late lateServe { s with gorbin := { s.gorbin with late := [] } }

end Sys2Proof.Machine
end

