-- ==== Sys2Proof/Machine/Lpddr.lean ====
section
/-! DEFINITION. LPDDR6 commands: reads and writes by units that are not tiles (R269–R272), write-backs,
refresh and retraining (R277, R279), the patrol scrub (R277, R278), fenced channels and the hash
(R279–R281), and the writes of the memory-map registers (R276, R281, R283). -/

namespace Sys2Proof.Machine

/-! ### Accesses -/

/-- Stored bits of units flipped before an access: byte address and pattern of 288 bits. -/
def upsetUnits (s : State) (flips : List (Nat × Nat)) : State := each flips (fun u f => if dramMapped u f.1 1 then flipUnit u f else u) s

/-- Meaning of MEM_READ (R40, R269–R271, R277, R295): answered, or held in its order for a snoop of the companion or a channel. -/
def execMemRead (a : Agent) (c : Option CtxId) (addr len : Nat) (flips : List (Nat × Nat)) (s : State) :
    Host.Outcome State Fault Refusal :=
  .next (
    let u := upsetUnits s flips
    if c.isNone && !reachesMemory s a then emit (denied u (devPage 4)) (.access (.mgmt a) 0x0A05 [])
    else if regionOf addr != .lpddr || !dramMapped u addr len then emit (unmapped u a addr) (.access (.mgmt a) 1 [])
    else agentRead u a (c.map (fun v => v.val)) addr len)

/-- Meaning of MEM_WRITE (R272, R275): performed, or held in its order unit by unit (R40, R277, R295). -/
def execMemWrite (a : Agent) (c : Option CtxId) (addr : Nat) (data : List Byte) (flips : List (Nat × Nat)) (s : State) :
    Host.Outcome State Fault Refusal :=
  .next (
    let u := upsetUnits s flips
    if c.isNone && !reachesMemory s a then denied u (devPage 4)
    else if regionOf addr != .lpddr || !dramMapped u addr data.length then unmapped u a addr
    else failDirty (memWrite u addr (data.map some) (c.map (fun v => v.val)) none) (c.map (fun v => v.val)))

/-- Meaning of MEM_WRITE_BACK (R270): the corrected unit is stored. -/
def execMemWriteBack (unit : Nat) (s : State) : Host.Outcome State Fault Refusal :=
  .next (match s.dram.writeBacks.find? (fun b => b.1 == unit) with
    | some b => if channelFenced s (channelOf s unit) || chBusy s (channelOf s unit) then s else storeUnit32 s unit b.2
    | none => s)

/-! ### Refresh and retraining (R277, R279) -/

/-- Meaning of REFRESH (R277): at its limit it goes ahead of foreground traffic and is counted (log entry 56, DEDUCED). -/
def execRefresh (ctl : CtlId) (atLimit : Bool) (s : State) : Host.Outcome State Fault Refusal :=
  .next (if atLimit then incWrap s (mcReg ctl 0x0C0) 1 else s)

/-- Meaning of REFRESH_MANAGEMENT (R277). -/
def execRefreshManagement (ctl : CtlId) (s : State) : Host.Outcome State Fault Refusal := .next (incWrap s (mcReg ctl 0x0C8) 1)

/-- Bit of MC_CTRL.RETRAIN that orders a channel's retraining (R282). -/
def retrainBit (h : Nat) : Nat := 4 + h % 4

/-- A retraining of a READY channel begins (R277, R282): the channel serves nothing until it completes, and the order for it
clears itself. -/
def startRetrain (s : State) (h : Nat) : State :=
  if chState s h != 2 then s
  else
    let s1 := { s with dram := { s.dram with dueAt := mapPut (fun _ => 0) s.dram.dueAt h 0, failedOnce := mapPut (fun _ => false) s.dram.failedOnce h false } }
    wrB (setChState s1 h 3) (mcReg (h / 4) 0x100) (retrainBit h) false

/-- A channel becomes READY: what waited for it is performed, and a retraining ordered meanwhile begins. -/
def chReady (s : State) (h : Nat) : State :=
  let s1 := lateRun (setChState s h 2)
  if rdB s1 (mcReg (h / 4) 0x100) (retrainBit h) then startRetrain s1 h else s1

/-- The package temperature last read by a channel's controller, plus 1; 0 before the first reading. -/
def chTemp (s : State) (h : Nat) : Nat := mapGet (fun _ => 0) s.dram.temp (h / 4)

/-- A package temperature read by a channel's controller; MC_STAT.TEMP keeps the highest (R282). The first reading counts as
that of a training that came before it (log entry 58, DEDUCED). -/
def readTemp (s : State) (h temp : Nat) : State :=
  let a := mcReg (h / 4) 0x108
  let s1 := { s with dram := { s.dram with
    temp := mapPut (fun _ => 0) s.dram.temp (h / 4) (temp + 1)
    trainedTemp := if mapGet (fun _ => 0) s.dram.trainedTemp h = 0 then mapPut (fun _ => 0) s.dram.trainedTemp h (temp + 1) else s.dram.trainedTemp } }
  if rdF s a 16 8 < temp then wrF s1 a 16 8 temp else s1

/-- A channel trained at the present temperature (R277). -/
def noteTrained (s : State) (h : Nat) : State :=
  { s with dram := { s.dram with
    trainedAt := mapPut (fun _ => 0) s.dram.trainedAt h (now s), trainedTemp := mapPut (fun _ => 0) s.dram.trainedTemp h (chTemp s h)
    failedOnce := mapPut (fun _ => false) s.dram.failedOnce h false } }

/-- Two readings 10 °C or more apart. -/
def tempMoved (a b : Nat) : Bool := a != 0 && b != 0 && (a + 10 ≤ b || b + 10 ≤ a)

/-- The DT at which a retraining fell due, if one is (R277): 250 ms after the last, or now that the temperature has moved. -/
def retrainDueAt (s : State) (h : Nat) : Option Nat :=
  let next' := 250000000 + mapGet (fun _ => 0) s.dram.trainedAt h
  if next' ≤ now s then some next' else if tempMoved (mapGet (fun _ => 0) s.dram.trainedTemp h) (chTemp s h) then some (now s) else none

/-- A deferred retraining has reached its limit of 10 ms (R40). -/
def retrainAtLimit (s : State) (h : Nat) : Bool :=
  mapGet (fun _ => 0) s.dram.dueAt h != 0 && mapGet (fun _ => 0) s.dram.dueAt h + 10000000 ≤ now s + 1

/-- The patrol scrub has reached its limit and wants the channel: it goes before a retraining that has not (R41). -/
def patrolFirst (s : State) (h : Nat) : Bool :=
  rdB s (mmReg 0x108) 9 && rdB s (mmReg 0x100) 1 && channelOf s (rdF s (mmReg 0x110) 0 30 * 512) == h && !retrainAtLimit s h

/-- Meaning of RETRAIN_DUE (R40, R41, R277): the controller has read the temperature; an idle channel begins a due retraining at
once, another defers it from the DT at which it fell due. -/
def execRetrainDue (h : ChanId) (temp : Fin 256) (idle : Bool) (s : State) : Host.Outcome State Fault Refusal :=
  .next (
    let s1 := readTemp s h temp
    match retrainDueAt s1 h with
    | none => s1
    | some d =>
      if chState s h != 2 then s1
      else if idle && !patrolFirst s1 h then startRetrain s1 h
      else if mapGet (fun _ => 0) s1.dram.dueAt h = 0 then
        { s1 with dram := { s1.dram with dueAt := mapPut (fun _ => 0) s1.dram.dueAt h (d + 1) } }
      else s1)

/-- Meaning of RETRAIN_FORCED (R277): deferred for 10 ms. -/
def execRetrainForced (h : ChanId) (s : State) : Host.Outcome State Fault Refusal :=
  .next (
    if retrainAtLimit s h && chState s h = 2 then
      report (incSat (startRetrain s h) (mcReg (h.val / 4) 0x0B8)) (devPage (0x20 + h.val / 4)) 0x0805 { detail := [h.val] }
    else s)

/-- A channel's bit in the fence map set; channels that either half of a broken register names stay fenced (R280). -/
def markFenced (s : State) (h : Nat) : State :=
  wrB (wrG s (mmReg (0x118 + 8 * (h / 32))) (fenceMask s (h / 32) ||| 2 ^ (h % 32))) (mmReg 0x108) 8 true

/-- A channel fenced in service (R280): its bit, PENDING and the state of the channel; the fence is logged
and followed up by Hornbeam; writes that waited for the channel fail. -/
def fenceChannel (s : State) (h cause : Nat) : State :=
  if channelFenced s h then s
  else queueFence (lateRun (setChState (markFenced s h) h 5)) (fenceEntry 4 h 0 cause)

/-- Meaning of RETRAIN_COMPLETE (R279, R284): of a training or a retraining; a failure is tried once more, and a second one
fences the channel (log entry 58, DEDUCED). -/
def execRetrainComplete (h : ChanId) (ok : Bool) (odecc : Nat) (s : State) : Host.Outcome State Fault Refusal :=
  .next (if chState s h != 3 && chState s h != 1 then s
    else if ok then incSat (chReady (noteTrained s h) h) (mcReg (h.val / 4) 0x0D0) odecc
    else if mapGet (fun _ => false) s.dram.failedOnce h then
      fenceChannel (report s (devPage (0x20 + h.val / 4)) 0x0804 { detail := [h.val] }) h 0x0804
    else { s with dram := { s.dram with failedOnce := mapPut (fun _ => false) s.dram.failedOnce h true } })

/-! ### Self-refresh (R267, R451) -/

/-- A READY channel enters self-refresh, at its present temperature (R267). -/
def restChannel (s : State) (h : Nat) : State :=
  if chState s h != 2 then s
  else setChState { s with dram := { s.dram with restTemp := mapPut (fun _ => 0) s.dram.restTemp h (chTemp s h) } } h 4

/-- READY channels enter self-refresh. -/
def toSelfRefresh (s : State) : State := each (List.range 96) restChannel s

/-- A channel leaves self-refresh: with a retraining where the temperature has moved 10 °C or more since its entry (R267). -/
def leaveSelfRefresh (s : State) (h : Nat) : State :=
  if tempMoved (mapGet (fun _ => 0) s.dram.restTemp h) (chTemp s h) then startRetrain (setChState s h 2) h else chReady s h

/-- Every channel in self-refresh leaves it. -/
def fromSelfRefresh (s : State) : State :=
  each (List.range 96) (fun u h => if chState u h = 4 then leaveSelfRefresh u h else u) s

/-! ### The limit of uncorrectable units (R279) -/

/-- Meaning of UE_LIMIT_WINDOW (R279): a channel over UE_LIMIT in its 1 s window is fenced. -/
def execUeLimitWindow (h : ChanId) (s : State) : Host.Outcome State Fault Refusal :=
  .next (
    let limit := rdF s (mcReg (h.val / 4) 0x100) 8 8
    let e := mapGet (fun _ => (0, 0)) s.dram.ueCount h
    if limit != 0 && limit < e.2 && !channelFenced s h then
      fenceChannel (report s (devPage (0x20 + h.val / 4)) 0x0804 { detail := [h.val] }) h 0x0804
    else s)

/-- Meaning of CHANNEL_FENCE (R280): Hornbeam fences a channel after a fault of the given code. -/
def execChannelFence (h : ChanId) (cause : Fin 65536) (s : State) : Host.Outcome State Fault Refusal :=
  .next (fenceChannel s h cause)

/-! ### Patrol scrub (R277, R278) -/

/-- Nanoseconds of a patrol window. -/
def patrolWindow : Nat := 86400000000000

/-- The patrol pass has read its last unit (R277): counted; after a late pass the present window's pass starts at once. -/
def endPatrol (s : State) : State :=
  let late := rdB s (mmReg 0x108) 9
  let next' := if late then now s / patrolWindow else s.dram.scrubPass + 1
  let s1 := { s with dram := { s.dram with scrubUnit := 0, scrubPass := next' } }
  incWrap (wrB (wr s1 (mmReg 0x110) 0) (mmReg 0x108) 9 false) (mmReg 0x080) 1

/-- The scrub leaves a channel to its training, and to a retraining that is due (R41, R277). -/
def scrubYields (s : State) (h : Nat) : Bool :=
  chBusy s h || yieldsTo (mapGet (fun _ => 0) s.dram.dueAt h != 0) (rdB s (mmReg 0x108) 9) (retrainAtLimit s h)

/-- A unit read by the patrol scrub (R277): its controller reads it, also where the companion's copy of its line is lost. -/
def scrubUnit (s : State) (u : Nat) : State :=
  if channelFenced s (channelOf s u) then unitFailed s u none 0x0807 0x0B0 else (ctlUnit s u none).2

/-- Meaning of PATROL_SCRUB (R278): the next unit of the pass; a pass that a remap has left beyond the capacity is over. -/
def execPatrolScrub (flips : List (Nat × Nat)) (s : State) : Host.Outcome State Fault Refusal :=
  .next (
    let u := upsetUnits s flips
    let b := rdF u (mmReg 0x110) 0 30
    if !rdB u (mmReg 0x100) 1 || now u < u.dram.scrubPass * patrolWindow then u
    else if dramCap u ≤ b * 512 then endPatrol u
    else if scrubYields u (channelOf u (b * 512)) then u
    else
      let s1 := scrubUnit u (b * 512 + u.dram.scrubUnit * 32)
      if u.dram.scrubUnit < 15 then { s1 with dram := { s1.dram with scrubUnit := u.dram.scrubUnit + 1 } }
      else if dramCap u ≤ (b + 1) * 512 then endPatrol s1
      else wr { s1 with dram := { s1.dram with scrubUnit := 0 } } (mmReg 0x110) (BitVec.ofNat 64 (b + 1)))

/-- Meaning of PATROL_SCRUB_LATE (R277). -/
def execPatrolScrubLate (s : State) : Host.Outcome State Fault Refusal :=
  .next (if rdB s (mmReg 0x108) 9 || now s < (s.dram.scrubPass + 1) * patrolWindow then s
    else report (wrB s (mmReg 0x108) 9 true) (devPage 4) 0x0806)

/-! ### Writes of the memory-map registers -/

/-- A context is bound to some residence slot of the device. -/
def anyResident (s : State) : Bool :=
  s.regs.any (fun p =>
    let o := p.1 - regBase
    regBase ≤ p.1 && o < 4608 * 0x20000 && o / 0x1000 % 32 == 2 && 0x140 ≤ o % 0x1000 && o % 0x1000 < 0x180
      && guardOk p.2 && bitOf p.2 8)

/-- The hash rebuilt from the fence map (R281): every LPDDR6 byte is undefined afterwards. -/
def remap (s : State) : State :=
  let out := (List.range 96).filter (channelFenced s)
  let n := 192 - 2 * out.length
  let s1 := fillMem { s with dram := { s.dram with hashOut := out, writeBacks := [] } } 0 0x6000000000 true
  let s2 := wrB (wrF (wrF s1 (mmReg 0x108) 0 8 n) (mmReg 0x108) 16 10 (2 * n)) (mmReg 0x108) 8 false
  each (List.range 64) (fun u i =>
    match dregAt u i with
    | some d => if dramCap u < d.2 * mib2 then wrGF u (mmReg (0x200 + 0x10 * i)) 31 1 0 else u
    | none => u) s2

/-- A write of MM_CTRL (R281, R283): REMAP is refused while a context is resident. -/
def mmCtrlWrite (s : State) (v : W64) : State :=
  let s1 := wr s (mmReg 0x100) (setBit v 0 false)
  if !bitOf v 0 then s1
  else if anyResident s then reportB s1 (devPage 4) 8 0x0808
  else remap s1

/-- A guarded write of MM_DREG_BASE_n (`k` = 0) or MM_DREG_LIMIT_n (`k` = 1) (R276). -/
def dregWrite (s : State) (n k : Nat) (v : W64) : State :=
  let a := mmReg (0x200 + 0x10 * n)
  let b := if k = 0 then v else rd s a
  let l := if k = 1 then v else rd s (a + 8)
  let lo := fieldOf b 0 18
  let hi := fieldOf l 0 18
  let bad := hi ≤ lo || dramCap s < hi * mib2
    || (List.range 64).any (fun i => i != n && (match dregAt s i with | some d => decide (lo < d.2) && decide (d.1 < hi) | none => false))
  if bitOf b 31 && bad then reportB s (devPage 4) 8 0x0809 { detail := [n] }
  else wr s (a + 8 * k) v

/-- A guarded write of MM_FENCE_m (R280, R283): bits are only set, and none that either half of a broken register names is
cleared. -/
def mmFenceWrite (s : State) (m : Nat) (v : W64) : State :=
  let old := fenceMask s m
  if (old &&& (2 ^ 32 - 1 - fieldOf v 0 32)) != 0 then ignored s (devPage 4)
  else
    let s1 := each ((List.range 32).filter (fun i => bitOf v i)) (fun u i => fenceChannel u (32 * m + i) 0) s
    wrG s1 (mmReg (0x118 + 8 * m)) (fenceMask s1 m)

/-- A write of MC_CTRL (R282): READY channels named in RETRAIN begin to retrain; the order for another waits until it is. -/
def mcCtrlWrite (s : State) (c : Nat) (v : W64) : State :=
  each ((List.range 4).filter (fun i => bitOf v (4 + i))) (fun u i => startRetrain u (4 * c + i)) (wr s (mcReg c 0x100) v)

end Sys2Proof.Machine
end

