-- ==== Sys2Proof/Machine/Gorbin.lean ====
section
/-! DEFINITION. The commands of the Gorbin link: the companion's requests (R290–R296, R299–R303),
snoops both ways, the device's own requests and their completion (R294, R297), doorbells, the
link's state (R285, R297, R298) and the boot path (R305). -/

namespace Sys2Proof.Machine

/-! ### Lines given back by the companion -/

/-- LINE_WB (R295, R296): the modified data of a line held E, also while its snoop is on its way (log entry 60, DEDUCED). -/
def lineWb (s : State) (h : GbHdr) (data : List Byte) : State :=
  if regionOf h.addr != .lpddr || meetsFlags s h.addr 64 then gbAccess s h true
  else if !dramMapped s h.addr 64 then unmapped s .companion h.addr
  else if dirAt s (h.addr / 64) = 2 then takeLine (setDir s (h.addr / 64) 0) (h.addr / 64) data
  else s

/-- LINE_EVICT (R295): a clean line given up. -/
def lineEvict (s : State) (h : GbHdr) : State :=
  if regionOf h.addr != .lpddr || meetsFlags s h.addr 64 then gbAccess s h true
  else if !dramMapped s h.addr 64 then unmapped s .companion h.addr
  else if dirAt s (h.addr / 64) = 1 || dirAt s (h.addr / 64) = 2 then setDir s (h.addr / 64) 0
  else s

/-! ### Snoops -/

/-- A line's entry becomes the newest of its set. -/
def renewDir (s : State) (line : Nat) : State :=
  let l := s.gorbin.dir.filter (fun e => e.line == line)
  { s with gorbin := { s.gorbin with dir := s.gorbin.dir.filter (fun e => e.line != line) ++ l } }

/-- A line after the response to its snoop: a LOST one that brought no data stays LOST (log entry 188, DESIGN CHOICE). -/
def afterSnoop (s : State) (line : Nat) (inv : Bool) (data : Option (List Byte)) : State :=
  if dirAt s line = 3 && data.isNone then renewDir s line
  else setDir s line (if inv || dirAt s line = 0 || dirAt s line = 3 then 0 else 1)

/-- A LINE_WB or LINE_EVICT that waits behind a posted request crosses a snoop of its line: it is taken now (R296). -/
def takeCrossing (s : State) (line : Nat) : State :=
  let mine (w : GbWait) : Bool := (w.hdr.opc == 0x08 || w.hdr.opc == 0x09) && w.hdr.addr / 64 == line
  each (s.gorbin.waits.filter mine)
    (fun u w => oweCredit (if w.hdr.opc = 0x08 then lineWb u w.hdr w.data else lineEvict u w.hdr) 14 2 (gbFlits w.data.length))
    { s with gorbin := { s.gorbin with waits := s.gorbin.waits.filter (fun w => !mine w) } }

/-- A snoop response (R291, R295, R296), with the modified data it brings; writes that waited for it are performed. -/
def snoopResponse (s : State) (tag : Nat) (data : Option (List Byte)) : State :=
  match gbReq s tag with
  | none => s
  | some r =>
    if r.opc = 0x20 || r.opc = 0x21 then
      let line := r.addr / 64
      let s1 := afterSnoop (gbDone (takeCrossing s line) tag) line (r.opc = 0x20) data
      lateRun (match data with | some d => takeLine s1 line d | none => s1)
    else s

/-- The snoop of a line has no response after 100 µs (R296): the line is LOST. -/
def snoopLate (s : State) (tag : Nat) : State :=
  match gbReq s tag with
  | none => s
  | some r =>
    if (r.opc = 0x20 || r.opc = 0x21) && r.since + 100000 ≤ now s then
      lateRun (report (setDir (gbDone (takeCrossing s (r.addr / 64)) tag) (r.addr / 64) 3) gbPage 0x0905)
    else s

/-- A snoop of the gateway cache by the companion (R297). -/
def gwSnoop (s : State) (h : GbHdr) (inv : Bool) : State :=
  let l := h.addr / 64
  match gwAt s l with
  | none => gbSend s 0x32 h.tag h.addr 0 []
  | some e =>
    let s1 := setGw s l (if inv then none else some { e with st := 1 })
    if e.st = 3 then gbSend s1 0x33 h.tag h.addr 0 e.data else gbSend s1 0x32 h.tag h.addr 0 []

/-! ### The boot path (R305) -/

/-- GB_BOOT_STAT.STATE set: 0 IDLE, 1 WAITING, 2 LOADING, 3 REJECTED. -/
def setBoot (s : State) (v : Nat) : State := wrF s (gbReg 0x168) 0 2 v

/-- The next 64 B of the image requested; an image that is whole waits for the ROM to verify it. -/
def bootStep (s : State) : State :=
  let got := s.gorbin.bootImg.length
  if got < rdF s (gbReg 0x178) 0 32 then gbRequest s 0x15 (rdF s (gbReg 0x170) 6 41 * 64 + got) else s

/-- The image from the companion is rejected (R305, R428). -/
def bootRejected (s : State) : State := setBoot (report s (devPage 7) 0x0E02) 3

/-- The effect of a write of GB_BOOT_CTRL: GO loads the image when the ROM waits (R305). -/
def bootCtrlWrite (s : State) (v : W64) : State :=
  let st := rdF s (gbReg 0x168) 0 2
  let s1 := wr s (gbReg 0x178) v
  if bitOf v 63 && (st = 1 || st = 3) then
    let s2 := setBoot (wrB s1 (gbReg 0x178) 63 false) 2
    bootStep { s2 with gorbin := { s2.gorbin with bootImg := [] } }
  else s1

/-! ### Completions of the device's requests (R294, R297) -/

/-- A request of the device ended with a status, and data if any. -/
def complete (s : State) (tag status : Nat) (data : List Byte) : State :=
  match gbReq s tag with
  | none => s
  | some r =>
    let l := r.addr / 64
    let s1 := gbDone s tag
    if r.opc = 0x20 || r.opc = 0x21 then s
    else if r.opc = 0x15 then
      if status = 0 && data.length = 64 then bootStep { s1 with gorbin := { s1.gorbin with bootImg := s1.gorbin.bootImg ++ data } }
      else bootRejected s1
    else if status != 0 then gwFailed s1 l status
    else if r.opc = 0x12 then
      match gwAt s1 l with
      | some e => setGw s1 l (some { e with st := max e.st 2 })
      | none => s1
    else if data.length = 64 then gwInstall s1 l (if r.opc = 0x10 then 1 else 2) data
    else gwFailed s1 l 3

/-- Meaning of HOST_TIMEOUT (R294): a device request not completed within 1 ms ends as DATA_ERR. -/
def execHostTimeout (tag : Fin 4096) (s : State) : Host.Outcome State Fault Refusal :=
  .next (match gbReq s tag with
    | none => s
    | some r =>
      if r.opc != 0x20 && r.opc != 0x21 && r.since + 1000000 ≤ now s then complete (report s gbPage 0x090A) tag 3 []
      else s)

/-- The answer to an agent's access over the gateway; a wait leaves it to a later command. -/
def gwAnswered (a : Agent) (r : GwRes × State) : State :=
  match r.1 with
  | .ok d => emit r.2 (.bytes a 0 d)
  | .wait => r.2
  | .fail st => emit r.2 (.bytes a st [])

/-- An agent's access of `n` bytes of companion memory: a read, or a write of the given bytes (R297). -/
def gwAsked (s : State) (a : Agent) (addr n : Nat) (data : Option (List (Option Byte))) : State :=
  if !reachesMemory s a then emit (denied s gbPage) (.bytes a 0x0A05 [])
  else if regionOf addr != .companion || regionOf (addr + n - 1) != .companion || n = 0 then
    emit (unmapped s a addr) (.bytes a 1 [])
  else gwAnswered a (gwAccess s addr n data)

/-- Meaning of GATEWAY_ACCESS (R297): a device unit reads or writes companion memory. -/
def execGatewayAccess (a : Agent) (addr len : Nat) (data : Option (List Byte)) (s : State) : Host.Outcome State Fault Refusal :=
  .next (match data with
    | some d => gwAsked s a addr d.length (some (d.map some))
    | none => gwAsked s a addr len none)

/-! ### Doorbells and messages (R301–R303) -/

/-- Pending value of a doorbell. -/
def dbValue (s : State) (n : Nat) : W64 := mapGet (fun _ => 0) s.gorbin.db n

/-- Pending value set. -/
def setDb (s : State) (n : Nat) (v : W64) : State := { s with gorbin := { s.gorbin with db := mapPut (fun _ => 0) s.gorbin.db n v } }

/-- GB_DB_DEST and GB_DB_BIND of a doorbell. -/
def dbDest (s : State) (n : Nat) : W64 := rd s (banked (gbReg 0x158) n)
/-- GB_DB_BIND of a doorbell. -/
def dbBind (s : State) (n : Nat) : W64 := rd s (banked (gbReg 0x160) n)

/-- A doorbell message sent when its value is not zero and a slot of credit is held (R301). -/
def doorbellSend (s : State) (n : Nat) : State :=
  let d := dbDest s n
  let b := dbBind s n
  let ctx := fieldOf b 8 8
  if bitOf d 63 && dbValue s n != 0 && hasCredit s unitGorbin (fieldOf d 0 36) ctx 1 then
    let m0 := buildMsg s unitGorbin 0xFF ctx (fieldOf d 0 36) (fieldOf b 32 10) (if bitOf d 62 then 3 else 2) (bytesOf 8 (dbValue s n).toNat)
    let m := { m0 with hdr := { m0.hdr with ctxEpoch := fieldOf b 16 16 } }
    incWrap (trySend (setDb s n 0) unitGorbin 0xFF (.doorbell n) m).2 (gbReg 0x080) 1
  else s

/-- DOORBELL (R301): the value is merged into the pending value. -/
def ringBell (s : State) (h : GbHdr) (value : W64) : State :=
  let n := h.addr % 1024
  if !bitOf (dbDest s n) 63 then gbBad s h true
  else setDb (if dbValue s n != 0 then incWrap s (gbReg 0x088) 1 else s) n (dbValue s n ||| value)

/-- Meaning of DOORBELL_SEND (R301). -/
def execDoorbellSend (n : Fin 1024) (s : State) : Host.Outcome State Fault Refusal := .next (doorbellSend s n)

/-- The words of an MSG request (R302): the first eight data bytes. -/
def msgWord (data : List Byte) (i : Nat) : Nat := natOfBytes ((data.drop (4 * i)).take 4)

/-- An MSG request has a length and reserved fields that R302 allows. -/
def msgShape (h : GbHdr) (data : List Byte) : Bool :=
  8 ≤ h.len && h.len ≤ 1008 && data.length == h.len && fieldNat (msgWord data 1) 28 4 == 0 && fieldNat (msgWord data 1) 16 1 == 0
    && fieldNat (msgWord data 1) 0 4 == 0

/-- The message of an MSG request (R302), with the context epoch of the port's table. -/
def gbMsg (s : State) (data : List Byte) : Msg :=
  let w := msgWord data 1
  let ctx := fieldNat w 4 8
  let m := buildMsg s unitGorbin 0xFF ctx (msgWord data 0 + (fieldNat w 12 4 <<< 32)) (fieldNat w 18 10) (if w.testBit 17 then 3 else 2) (data.drop 8)
  { m with hdr := { m.hdr with ctxEpoch := rdF s (banked (gbReg 0x1C8) ctx) 0 16 } }

/-- MSG (R302, R303): sent at once, or NO_CREDIT. -/
def sendMsg (s : State) (h : GbHdr) (data : List Byte) : State :=
  let m := gbMsg s data
  if gbSends s m.hdr.context && hasCredit s unitGorbin m.hdr.dst m.hdr.context (hdrSlots m.hdr) then
    gbReply (incWrap (trySend s unitGorbin 0xFF (.doorbell 1024) m).2 (gbReg 0x090) 1) h 0 []
  else gbReply s h 4 []

/-! ### The state of the link (R285, R297, R298) -/

/-- GB_STAT.STATE: as PX_STAT.STATE (R306). -/
def gbState (s : State) : Nat := rdF s (gbReg 0x108) 0 3

/-- GB_STAT.STATE and LANES_ACTIVE set. -/
def setGbState (s : State) (st lanes : Nat) : State :=
  let u := { s with fabric := { s.fabric with since := mapPut (fun _ => 0) s.fabric.since 14 (now s + 1) } }
  wrF (wrF u (gbReg 0x108) 0 3 st) (gbReg 0x108) 8 8 lanes

/-- Lanes active. -/
def gbLanes (s : State) : Nat := rdF s (gbReg 0x108) 8 8

/-- Training starts; RETRAIN clears itself (R238, R306). -/
def gbTrain (s : State) : State := setGbState (wrB s (gbReg 0x100) 1 false) 1 0

/-- A request that the companion's own port ended with LINK: its effect remains, its answer is not sent (R292, R298). -/
def ended (h : GbHdr) : GbHdr := { h with status := 5 }

/-- A request that only asks for a line or for data has no effect once it cannot be answered. -/
def onlyAsks (h : GbHdr) : Bool := h.opc == 0x03 || h.opc == 0x05 || h.opc == 0x06 || h.opc == 0x07

/-- An access of the companion to a scratchpad that waits, when the link goes DOWN. -/
def endedAcc (x : SpAcc) : SpAcc := { x with req := match x.req with | .link h => .link (ended h) | r => r }

/-- The port and the companion's requests when the link goes DOWN (R259, R298): those that have reached the device are
performed, without answer. -/
def gbQuiet (s : State) : State :=
  let waits := (s.gorbin.waits.filter (fun w => !onlyAsks w.hdr)).map (fun w => { w with hdr := ended w.hdr })
  let late := s.gorbin.late.filterMap (fun i =>
    match i with
    | .comp h d => if onlyAsks h then none else some (.comp (ended h) d)
    | _ => some i)
  let held (i : LateItem) : Nat := match i with | .comp _ d => gbFlits d.length | _ => 0
  let u := linkQuiet s 14 (fun ch => if ch = 2 then (waits.map (fun w => gbFlits w.data.length)).sum + (late.map held).sum else 0)
  { u with gorbin := { u.gorbin with out := [], sent := [], waits := waits, late := late, gwPend := [], msiWait := [] }
           pad := { u.pad with waiters := u.pad.waiters.map (fun w => { w with acc := endedAcc w.acc })
                               heldAcc := u.pad.heldAcc.map (fun w => { w with acc := endedAcc w.acc }) } }

/-- The link went down (R297, R298), to DOWN (4) or DISABLED (0). -/
def gbLost (s : State) (st : Nat) : State :=
  let failed := (s.gorbin.reqs.filter (fun r => r.opc == 0x10 || r.opc == 0x11 || r.opc == 0x12)).map (fun r => r.addr / 64)
  let boot := s.gorbin.reqs.any (fun r => r.opc == 0x15)
  let d := s.gorbin.dir.filterMap (fun e => if e.st = 1 then none else some { e with st := 3 })
  let s0 := gbQuiet s
  let s1 := { s0 with gorbin := { s0.gorbin with dir := d, reqs := [], gw := s0.gorbin.gw.filter (fun e => e.2.st == 3) } }
  let s2 := wrF (setGbState (each failed (fun u l => gwFailed u l 5) s1) st 0) (gbReg 0x108) 22 21 d.length
  raise (report (lateRun (if boot then bootRejected s2 else s2)) gbPage 0x0901) 307

/-- Meaning of GB_LINK_DOWN (R298). -/
def execGbLinkDown (s : State) : Host.Outcome State Fault Refusal := .next (if gbUp s then gbLost s 4 else s)

/-- The modified lines of the gateway cache when the link comes up (R297): written back, or discarded with one record when the
companion is another. -/
def gwAfterUp (s : State) (another : Bool) : State :=
  let modified := s.gorbin.gw.filter (fun e => e.2.st == 3)
  if another then
    report (incSat { s with gorbin := { s.gorbin with gw := [] } } (gbReg 0x0C8) modified.length) gbPage 0x090B
  else each modified (fun u e => giveUp u e.1) s

/-- Training has brought the link up on lanes `mask` (R238, R285): record 0x0706 and source 307 (log entry 61, DEDUCED). -/
def gbCameUp (s : State) (mask : Nat) : State :=
  raise (report (setGbState s (if mask = 255 then 2 else 3) mask) gbPage 0x0706 { detail := [mask] }) 307

/-- The device's own IDENT block (R239, R285), with the port as 14 (log entry 61, DEDUCED). -/
def gbIdent (s : State) : State := emit s (.link 14 (.ident (deviceId s) 14 (Config.serial % 2 ^ 24)))

/-- Meaning of GB_LINK_UP (R239, R240, R285, R297): `lanes` trained and the IDENT blocks were exchanged, with the companion's
serial; on a DEGRADED link the lanes that were ordered trained join. -/
def execGbLinkUp (lanes : Fin 256) (serial : Fin 16777216) (s : State) : Host.Outcome State Fault Refusal :=
  let mask := lanes.val &&& rdF s (gbReg 0x100) 24 8
  let ordered := mapGet (fun _ => 0) s.fabric.retrain 14
  let was := rd s (gbReg 0x110)
  .next (if gbState s = 1 && mask != 0 then
      gwAfterUp (gbCameUp (linkInit (gbIdent (wr s (gbReg 0x110) (BitVec.ofNat 64 (2 ^ 63 + serial.val)))) 14) mask)
        (bitOf was 63 && fieldOf was 0 24 != serial.val)
    else if gbState s = 3 && mask &&& ordered != 0 then
      gbCameUp { s with fabric := { s.fabric with retrain := mapPut (fun _ => 0) s.fabric.retrain 14 (ordered &&& (255 - mask)) } }
        (gbLanes s ||| (mask &&& ordered))
    else s)

/-- Lanes dropped from the running link (R240): the rest go on, with a replay. -/
def gbDropLanes (s : State) (mask : Nat) : State :=
  let keep := gbLanes s &&& (255 - mask % 256)
  if !gbUp s || keep = gbLanes s then s
  else
    let s1 := report s gbPage 0x0902 { detail := [gbLanes s - keep] }
    if keep = 0 then gbLost s1 4 else gbResend (emit (setGbState s1 3 keep) (.link 14 (.lanes keep)))

/-- The effect of a write of GB_CTRL (R238, R240, R285, R306). -/
def gbCtrlWrite (s : State) (v : W64) : State :=
  let s1 := wr s (gbReg 0x100) v
  if !bitOf v 0 then (if gbUp s1 then gbLost s1 0 else setGbState s1 0 0)
  else if gbUp s1 then
    let s2 := gbDropLanes s1 (255 - fieldOf v 24 8)
    let idle := fieldOf v 24 8 &&& (255 - gbLanes s2)
    if bitOf v 1 && gbUp s2 && idle != 0 then
      let s3 := wrB s2 (gbReg 0x100) 1 false
      { s3 with fabric := { s3.fabric with retrain := mapPut (fun _ => 0) s3.fabric.retrain 14 idle } }
    else s2
  else if gbState s1 = 0 || (bitOf v 1 && gbState s1 = 4) then gbTrain s1
  else s1

/-! ### The link layer's rows on the Gorbin port (R285, R286) -/

/-- No lane trained within 100 ms: DOWN, with record 0x0707 (R238). -/
def gbTrainFail (s : State) : State :=
  if gbState s = 1 && mapGet (fun _ => 0) s.fabric.since 14 + 99999999 ≤ now s then report (setGbState s 4 0) gbPage 0x0707 else s

/-- 10 ms after DOWN training starts again (R238). -/
def gbRetry (s : State) : State :=
  if gbState s = 4 && mapGet (fun _ => 0) s.fabric.since 14 + 9999999 ≤ now s then gbTrain s else s

/-- No acknowledged progress for 4 µs (R258). -/
def gbNoProgress (s : State) : State :=
  if gbUp s && !s.gorbin.sent.isEmpty && mapGet (fun _ => 0) s.fabric.moved 14 + 3999 ≤ now s then
    gbLost (report s gbPage 0x0703) 4
  else s

/-- The replay buffer of the port set. -/
def setGbSent (s : State) (l : List (Sent GbPkt)) : State := { s with gorbin := { s.gorbin with sent := l } }

/-- An ACK of the companion (R243). -/
def gbAcked (s : State) (seq : Nat) : State :=
  let l := acked s.gorbin.sent seq
  if l.length < s.gorbin.sent.length then gbPump (markMoved (setGbSent s l) 14) else s

/-- A NAK of the companion (R243). -/
def gbNacked (s : State) (seq : Nat) : State :=
  let l := nacked s.gorbin.sent seq
  if !gbUp s then s
  else gbResend (if l.length < s.gorbin.sent.length then markMoved (setGbSent s l) 14 else setGbSent s l)

/-- Credits of the companion (R245). -/
def gbCredits (s : State) (l : List (Nat × Nat)) : State := if gbUp s then gbPump (addCredits s 14 l) else s

/-- A packet of the companion accepted on a channel (R243); credit for its flits is owed once they leave the ingress buffer. -/
def gbTaken (s : State) (ch len : Nat) : State := oweCredit (linkAccept s 14) 14 ch (gbFlits len)

/-- A packet of the companion that its link receiver refuses (R243, R286): an uncorrectable codeword of a lane, a protocol
error, VC 0b11 among them, or a wrong sequence. A sound one comes by the row of its opcode. -/
def gbReceive (s : State) (seq vc flaw lane : Nat) (replay : Bool) : State :=
  let expected := mapGet (fun _ => 0) s.fabric.rxSeq 14
  let deaf := mapGet (fun _ => false) s.fabric.nak 14 && !(replay && seq = expected)
  let s1 := if flaw = 1 then
      reportLimited (incSat s (gbReg (0x818 + 0x20 * lane))) gbPage 0 0x0702 (limitKey 11 (56 + lane) 0) (now s / 1000000) { detail := [lane] }
    else s
  if !gbUp s then s
  else if deaf then s1
  else if flaw = 1 then nakSent s1 14
  else if flaw = 2 || vc = 3 || seq != expected then nakSent (report s gbPage 0x070E) 14
  else s

/-- A lane's window of FEC counts (R237, R306). -/
def gbFec (s : State) (lane words corrected symbols : Nat) : State :=
  let base := 0x800 + 0x20 * lane
  incSatN (incSatN (incWrap s (gbReg base) words) (gbReg (base + 8)) 48 corrected) (gbReg (base + 16)) 48 symbols

/-- A context is bound to a residence slot of a tile (R289). -/
def boundAt (s : State) (t c : Nat) : Bool := (slotOfCtx s t c).isSome

/-- The effect of a write of GB_SEND_CTX_m (tile 9) or HB_SEND_CTX_m (tile 1), by R289 and R322. -/
def sendCtxWrite (s : State) (page a t m : Nat) (v : W64) : State :=
  if (List.range 64).any (fun i => bitOf v i && !rdB s a i && boundAt s t (64 * m + i)) then ignored s page else wr s a v

/-- The effect of a write of GB_WIN or GB_FLAGS (R306): ignored while a notice is set or a context named in
GB_SEND_CTX is resident. -/
def gbWinWrite (s : State) (a : Nat) (v : W64) : State :=
  if notified s || (List.range 256).any (fun c => gbSends s c && !(ctxTiles s c).isEmpty) then ignored s gbPage else wr s a v

/-- The effect of a write of GB_NOTIFY_m: bits written 1 are cleared. -/
def notifyWrite (s : State) (a : Nat) (v : W64) : State := wr s a (rd s a &&& ~~~v)

end Sys2Proof.Machine
end

