-- ==== Sys2Proof/Machine/Parith.lean ====
section
/-! DEFINITION. The commands of the Parith fabric: port states and training (R238–R240), the link
layer (R241–R245), which the Gorbin port shares (R285, R286), transit (R246–R251), lost links (R258–R260) and Device Time across the system
(R255, R256). -/

namespace Sys2Proof.Machine

/-! ### Replay and lost links -/

/-- Every packet not acknowledged is to be sent again, from its first flit and in the original start order (R240, R243)
(log entry 54, DEDUCED). -/
def resend (s : State) (p : Nat) : State :=
  let l := sentOf s p
  let s1 := setSent (endRun s p) p (rewound l)
  if l.isEmpty then s1 else incWrap s1 (pxReg p 0x190) 1

/-- Checks-clean of the contexts that lost packets name (R259); a port has no residence slot. -/
def lostContexts (s : State) (l : List Pkt) : State := each (l.filterMap pktCtx).eraseDups requestDirty s

/-- The time parent in use was lost: the backup takes over, or the device holds over (R256). -/
def timeLost (s : State) (p : Nat) : State :=
  let st := fxReg 0x130
  let ctl := fxReg 0x128
  let active := rdF s st 2 2
  let parent := rdF s ctl 8 4
  let backup := rdF s ctl 12 4
  let hit := (active = 0 && parent = p) || (active = 1 && backup = p)
  if !hit then s
  else
    let s1 := wrB { s with fabric := { s.fabric with time := { s.fabric.time with good := 0, bad := 0 } } } st 0 false
    let other := if active = 0 then backup else parent
    if other < 14 && portRuns s1 other then wrF s1 st 2 2 (1 - active)
    else report (wrB (wrF s1 st 2 2 2) st 1 true) (devPage 3) 0x070B

/-- One ABORT for every group whose fabric entry has the port in DOWN or as UP (R260). -/
def peerAborts (s : State) (p : Nat) : State :=
  let peer := rdF s (pxReg p 0x110) 32 15
  let groups := (List.range 4096).filter (fun g => bitOf (fmEntry s g) 20 && (fabricDown s g p || fabricUp s g == some p))
  each groups (fun u g => incWrap (inject u (attach p 0) (.ctrl (abortPkt u g 2 false (some peer)))) (fxReg 0x080) 1) s

/-- Up-tree replies that a port's subtree no longer gives are answered in its place (R253): the REVOKE_ACKs that it owes, the
VOTEs of open steps, and what open slots await. -/
def answerLost (s : State) (p : Nat) : State :=
  let t := attach p 0
  let owed := (s.net.awaited.filter (fun e => e.1 == p)).map Prod.snd
  let s1 := each owed (fun u c => hearOrHold (replyHeard u t (edgePort p) c) t (edgePort p) c) s
  let s2 := each ((List.range 256).filter (stepOpen s1)) (fun u c => voteForPort u c p) s1
  each (upSlots s2 t) (fun u x => if fabricDown u x.group p then upEval u t (edgePort p) x else u) s2

/-- A port enters DOWN: the identity in PX_PEER is the one held before (R238). -/
def enterDown (s : State) (p : Nat) : State :=
  let s1 := setPortState s p 4
  { s1 with fabric := { s1.fabric with peer := mapPut (fun _ => 0) s1.fabric.peer p (rdF s (pxReg p 0x110) 0 64 + 1) } }

/-- A port enters a state that it may leave only by training or by Hornbeam. -/
def enterState (s : State) (p st : Nat) : State := if st = 4 then enterDown s p else setPortState s p st

/-- Flits of a VC that a port's ingress buffer still holds (R245). -/
def ingressHeld (s : State) (p vc : Nat) : Nat :=
  ((fifoHeld s p).filter (fun e => pktVc e.2.pkt == vc)).length
    + (if vc = 1 then (combOf s (4622 + p)).length + (s.net.here.filter (fun e => e.loc == 4622 + p)).length else 0)

/-- Contexts that packets partly received at the loss of a link name: at most one packet of each VC, each of them or none at all,
a free value (R259) (log entry 196, DESIGN CHOICE). -/
def partlyReceived (s : State) : List Nat :=
  (List.range 4).filterMap (fun v => if Config.freeBool (s.free + v) then some (Config.freeNat (s.free + v) % 256) else none)

/-- The actions of R259 and R260 for a port that carried packets, which then enters state `st`; packets accepted at its
ingress side go on. -/
def linkLost (s : State) (p st : Nat) : State :=
  let held := s.net.here.filter (fun e => e.loc == 4608 + p)
  let lost := (sentOf s p).map (fun e => e.pkt) ++ (egressOf s p).map (fun e => e.pkt) ++ (combOf s (4608 + p)).map (fun c => .red c.red)
    ++ held.map (fun e => e.pkt)
  let s0 := { s with net := { s.net with here := s.net.here.filter (fun e => e.loc != 4608 + p) } }
  let s1 := setComb (setSent (setEgress s0 p []) p []) (4608 + p) []
  let s2 := linkQuiet (wrF (enterState s1 p st) (pxReg p 0x108) 8 4 0) p (ingressHeld s p)
  let s3 := each (partlyReceived s2) requestDirty (drawnMany s2 4)
  let peer := rdF s (pxReg p 0x110) 0 64
  let s4 := report (incSat (lostContexts s3 lost) (pxReg p 0x1B8)) (pxPage p) 0x0705 { detail := [peer / 2 ^ 32, peer % 2 ^ 32] }
  ckLinkLost (peerAborts (answerLost (timeLost s4 p) p) p) p

/-- A port enters a state; from UP or DEGRADED with the actions of a lost link (R238). -/
def portDown (s : State) (p st : Nat) : State := if portRuns s p then linkLost s p st else enterState s p st

/-- Meaning of LINK_DOWN (R258, R259): no valid block, or lock lost on every active lane. -/
def execLinkDown (p : PortId) (s : State) : Host.Outcome State Fault Refusal :=
  .next (if portRuns s p then linkLost s p 4 else s)

/-- Meaning of NO_PROGRESS (R258): 4 µs without acknowledged progress while packets wait. -/
def execNoProgress (link : LinkId) (s : State) : Host.Outcome State Fault Refusal :=
  .next (match link with
    | .gorbin => gbNoProgress s
    | .parith p =>
      if portRuns s p && !(sentOf s p).isEmpty && mapGet (fun _ => 0) s.fabric.moved p + 3999 ≤ now s
      then linkLost (report s (pxPage p) 0x0703) p 4 else s)

/-! ### Training (R238–R240) -/

/-- Training starts; RETRAIN clears itself. -/
def startTraining (s : State) (p : Nat) : State := setPortState (wrB s (pxReg p 0x100) 2 false) p 1

/-- Lanes dropped from a running port (R240). -/
def dropLanes (s : State) (p mask : Nat) : State :=
  let keep := (List.range 4).foldl (fun v i => v + (if (lanesActive s p).testBit i && !mask.testBit i then 2 ^ i else 0)) 0
  let gone := ((List.range 4).filter (fun i => (lanesActive s p).testBit i && mask.testBit i)).length
  if gone = 0 || !portRuns s p then s
  else
    let s1 := wrF (incSat s (pxReg p 0x1C0) gone) (pxReg p 0x108) 8 4 keep
    let s2 := report s1 (pxPage p) 0x0704 { detail := [mask] }
    if keep = 0 then linkLost s2 p 4
    else pump (resend (emit (if portState s2 p = 2 then setPortState s2 p 3 else s2) (.link p (.lanes keep))) p) p

/-- Meaning of LANE_DROP (R240): a lane lost lock, or counted too many uncorrectable codewords. -/
def execLaneDrop (link : LinkId) (lane : Fin 8) (s : State) : Host.Outcome State Fault Refusal :=
  .next (match link with | .parith p => dropLanes s p (2 ^ lane.val) | .gorbin => gbDropLanes s (2 ^ lane.val))

/-- The effect of a write of PX_CTRL (R235, R238, R240): RETRAIN on a running port trains the permitted lanes that it has
dropped. -/
def pxCtrlWrite (s : State) (p : Nat) (v : W64) : State :=
  let refused := bitOf v 0 && !portLicensed s p
  let v1 := if refused then setBit v 0 (rdB s (pxReg p 0x100) 0) else v
  let s0 := wr s (pxReg p 0x100) v1
  let s1 := if refused then reportB s0 (pxPage p) 8 0x070F else s0
  let s2 := if bitOf v1 0 then (if portState s1 p = 0 then startTraining s1 p else s1)
    else if portState s1 p = 0 then s1 else portDown s1 p 0
  let s3 := if bitOf v1 1 then (if portState s2 p = 0 || portState s2 p = 5 then s2 else portDown s2 p 5)
    else if portState s2 p = 5 then enterDown s2 p else s2
  let s4 := dropLanes s3 p (15 - fieldOf v1 20 4)
  if !bitOf v1 2 then s4
  else if portState s4 p = 4 then startTraining s4 p
  else
    let idle := fieldOf v1 20 4 &&& (15 - lanesActive s4 p)
    if portRuns s4 p && idle != 0 then
      let s5 := wrB s4 (pxReg p 0x100) 2 false
      { s5 with fabric := { s5.fabric with retrain := mapPut (fun _ => 0) s5.fabric.retrain p idle } }
    else s4

/-- Meaning of TRAINING_COMPLETE (R238, R239): `lanes` passed, and the peer's IDENT gave its device, port
and the low 24 bits of its serial; on a DEGRADED port the lanes that Hornbeam ordered trained join those active (R240). -/
def execTrainingComplete (p : PortId) (lanes : Fin 16) (dev : Fin 32768) (port : Fin 16) (serial : Fin 16777216) (s : State) :
    Host.Outcome State Fault Refusal :=
  let got := lanes.val &&& rdF s (pxReg p 0x100) 20 4
  let up (u : State) (mask : Nat) : State :=
    report (setPortState (wrF u (pxReg p 0x108) 8 4 mask) p (if mask = 15 then 2 else 3)) (pxPage p) 0x0706 { detail := [mask] }
  .next (if got = 0 then s
    else if portState s p = 3 then
      let ordered := mapGet (fun _ => 0) s.fabric.retrain p
      let s1 := { s with fabric := { s.fabric with retrain := mapPut (fun _ => 0) s.fabric.retrain p (ordered &&& (15 - got)) } }
      if got &&& ordered = 0 then s else up s1 (lanesActive s p ||| (got &&& ordered))
    else if portState s p = 1 then
      let id := 2 ^ 63 + (dev.val <<< 32) + (port.val <<< 28) + serial.val
      let was := mapGet (fun _ => 0) s.fabric.peer p
      let s1 := emit (wr s (pxReg p 0x110) (BitVec.ofNat 64 id))
        (.link p (.ident (deviceId s) p (Config.serial % 2 ^ 24)))
      if was > 2 ^ 63 && was - 1 != id then report (setPortState s1 p 5) (pxPage p) 0x070D { detail := [id / 2 ^ 32, id % 2 ^ 32] }
      else up (linkInit s1 p) got
    else s)

/-- Meaning of TRAIN_FAIL (R238): no lane trained within 100 ms. -/
def execTrainFail (link : LinkId) (s : State) : Host.Outcome State Fault Refusal :=
  .next (match link with
    | .gorbin => gbTrainFail s
    | .parith p =>
      if portState s p = 1 && mapGet (fun _ => 0) s.fabric.since p + 99999999 ≤ now s
      then report (enterDown s p) (pxPage p) 0x0707 else s)

/-- Meaning of RETRY_TIMER (R238): 10 ms after DOWN. -/
def execRetryTimer (link : LinkId) (s : State) : Host.Outcome State Fault Refusal :=
  .next (match link with
    | .gorbin => gbRetry s
    | .parith p => if portState s p = 4 && mapGet (fun _ => 0) s.fabric.since p + 9999999 ≤ now s then startTraining s p else s)

/-! ### The link layer (R241–R245) -/

/-- Meaning of ACK_RECEIVED (R243). -/
def execAckReceived (link : LinkId) (seq : Fin 4096) (s : State) : Host.Outcome State Fault Refusal :=
  .next (match link with
    | .gorbin => gbAcked s seq
    | .parith p =>
      let l := acked (sentOf s p) seq
      if l.length < (sentOf s p).length then pump (markMoved (setSent s p l) p) p else s)

/-- Meaning of NAK_RECEIVED (R243): packets before the named sequence were accepted; the rest are resent. -/
def execNakReceived (link : LinkId) (seq : Fin 4096) (s : State) : Host.Outcome State Fault Refusal :=
  .next (match link with
    | .gorbin => gbNacked s seq
    | .parith p =>
      let rest := nacked (sentOf s p) seq
      let s1 := setSent s p rest
      if portRuns s p then pump (resend (if rest.length < (sentOf s p).length then markMoved s1 p else s1) p) p else s)

/-- Meaning of CREDIT_BLOCK (R245). -/
def execCreditBlock (link : LinkId) (c0 c1 c2 c3 : Fin 16384) (s : State) : Host.Outcome State Fault Refusal :=
  let l := [(0, c0.val), (1, c1.val), (2, c2.val), (3, c3.val)]
  .next (match link with
    | .gorbin => gbCredits s l
    | .parith p => if portRuns s p then pump (addCredits s p l) p else s)

/-- Meaning of ACK_TIMER (R243, R245): an ACK and the owed credits are sent. -/
def execAckTimer (link : LinkId) (s : State) : Host.Outcome State Fault Refusal :=
  .next (match link with
    | .gorbin => if gbUp s then ackAndCredits s 14 else s
    | .parith p => if portRuns s p then ackAndCredits s p else s)

/-- A NAK sent by a Parith port, and counted (R243). -/
def sendNak (s : State) (p : Nat) : State := nakSent (incSat s (pxReg p 0x1A0)) p

/-! ### Into the mesh (R32–R34, R247–R249) -/

/-- Meaning of BOUNDARY_FIFO_SLOT_FREE (R33): the mesh side of a FIFO reads what it has room for, and held entries enter the
freed slots (log entry 178, DESIGN CHOICE). -/
def execBoundaryFifoSlotFree (b : BoundaryId) (s : State) : Host.Outcome State Fault Refusal := .next (fifoRead b (fifoWaiting s b) s)

/-- Link credit owed for every flit of a packet that leaves the ingress buffer otherwise than into the mesh. -/
def oweAll (s : State) (p : Nat) (pkt : Pkt) : State := oweCredit s p (pktVc pkt) (flitsOf pkt)

/-- The checks of R216 at an ingress port, and the packet's way into the mesh (R247, R248). -/
def ingressLocal (s : State) (p : Nat) (pkt : Pkt) : State :=
  let t := attach p (pktTile pkt % 2)
  let grouped := match pkt with | .ctrl c => c.mcast || isUpTree c.type | _ => false
  if grouped then crossIn s p (attach p 0) pkt
  else if badType pkt then crossIn s p t pkt
  else if 4608 ≤ pktTile pkt then
    match pkt with
    | .msg m => oweAll (report (nackFrom s t 7 m) (rtPage t) 0x0604 { ctx := some m.hdr.context }) p pkt
    | .red r => oweAll (report (redDiscard s t) (rtPage t) 0x0604 { ctx := some r.context }) p pkt
    | _ => oweAll s p pkt
  else if routeOf s t (pktTile pkt) = 0xF then oweAll (unreachable s t pkt) p pkt
  else crossIn s p t pkt

/-- A packet for another device: a hop is spent, and it crosses the mesh to its exit port (R248–R250). -/
def ingressTransit (s : State) (p hop : Nat) (pkt : Pkt) : State :=
  let t := attach p (pktDev s pkt % 2)
  if hop = 0 then oweAll (nackOrDrop (report (incSat s (pxReg p 0x1A8)) (pxPage p) 0x0708 { ctx := pktCtx pkt }) t pkt) p pkt
  else if (exitPort s pkt).isNone then oweAll (exitRefuse s t pkt) p pkt
  else
    let q := withTransit (256 + (hop - 1)) pkt
    match q with
    | .red r => if r.kind = 1 || r.kind = 2 then hold s (4622 + p) 0 q else crossIn s p t q
    | _ => crossIn s p t q

/-- A packet accepted from a link goes on (R243, R248, R249). -/
def ingress (s : State) (p seq hop : Nat) (pkt : Pkt) : State :=
  let grouped := match pkt with | .ctrl c => c.mcast || isUpTree c.type | _ => false
  if grouped || isLocal s pkt then
    ingressLocal s p (match pkt with
      | .msg m => .msg { m with hdr := { m.hdr with linkSeq := seq } }
      | q => withTransit 0 q)
  else ingressTransit s p hop pkt

/-- A packet with the link header of its first run, received by a Parith port (R243) sound (`flaw` 0), in an uncorrectable
codeword of a lane (1) or with a protocol error (2): a stray or reserved block, a wrong CONT, or other than LEN + 1 flits (log
entry 49, DEDUCED). A packet that a higher VC interrupted may end after one of a later sequence (log entry 200, DEDUCED).
While a NAK awaits its replay everything else is discarded, and so is a packet sent again that has been accepted. -/
def portReceive (s : State) (p seq hop : Nat) (replay : Bool) (flaw lane : Nat) (pkt : Pkt) : State :=
  let expected := mapGet (fun _ => 0) s.fabric.rxSeq p
  let again := (rxAhead s p).contains seq
  let deaf := again || (mapGet (fun _ => false) s.fabric.nak p && !(replay && seq = expected))
  let s1 := if flaw = 1 then
      reportLimited (incSat s (pxReg p (0x098 + 0x20 * (lane % 4)))) (pxPage p) 0 0x0702 (limitKey 11 (p * 4 + lane % 4) 0)
        (now s / 1000000) { detail := [lane % 4] }
    else s
  if !portRuns s p then s
  else if deaf then s1
  else if flaw = 1 then sendNak s1 p
  else if flaw = 2 || !seqFits s p seq then sendNak (report s (pxPage p) 0x070E) p
  else ingress (incWrap (seqAccept s p seq) (pxReg p 0x188) 1) p seq hop pkt

/-- Meaning of LINK_PACKET_RECEIVE (R243). On the Gorbin link it brings what the port refuses; a sound packet there is the row
of its opcode (log entry 49, DEDUCED). -/
def execLinkPacketReceive (link : LinkId) (seq : Fin 4096) (hop : Fin 256) (replay : Bool) (flaw : Fin 3) (lane : Fin 8) (pkt : Pkt)
    (s : State) : Host.Outcome State Fault Refusal :=
  .next (match link with
    | .gorbin => gbReceive s seq (pktVc pkt) flaw lane replay
    | .parith p => portReceive s p seq hop replay flaw lane pkt)

/-- A lane's window of FEC counts on a Parith port (R237). -/
def portFec (s : State) (p lane words corrected symbols : Nat) : State :=
  let base := 0x080 + 0x20 * (lane % 4)
  let limit := rdF s (pxReg p 0x118) 0 20
  let s1 := incSatN (incSatN (incWrap s (pxReg p base) words) (pxReg p (base + 8)) 48 corrected) (pxReg p (base + 16)) 48 symbols
  if limit != 0 && limit < symbols then
    reportLimited s1 (pxPage p) 0 0x0701 (limitKey 12 (p * 4 + lane % 4) 0) (now s / 1000000) { detail := [lane % 4, symbols] }
  else s1

/-- Meaning of FEC_ALARM (R237): at the end of a 1 ms window a lane's codewords, corrected codewords and
corrected symbols of the window are counted, and the alarm compared. -/
def execFecAlarm (link : LinkId) (lane : Fin 8) (words corrected symbols : Nat) (s : State) : Host.Outcome State Fault Refusal :=
  .next (match link with
    | .gorbin => gbFec s lane words corrected symbols
    | .parith p => portFec s p lane words corrected symbols)

/-- Meaning of RESIDENCE (R251): the oldest packet of an egress buffer, unsent after 20 µs. -/
def execResidence (p : PortId) (s : State) : Host.Outcome State Fault Refusal :=
  .next (match (egressOf s p).find? (fun e => e.since + 20000 ≤ now s) with
    | some e => residenceDrop (setEgress s p ((egressOf s p).erase e)) p e.pkt
    | none => s)

/-- The effect of a write of FX_DATA (R263): entries that name an unlicensed port stay; INDEX advances. -/
def fxDataWrite (s : State) (v : W64) : State :=
  let i := rdF s (fxReg 0x108) 0 11
  let old := rd s (banked (fxReg 0x110) i)
  let bad := (List.range 16).filter (fun k => fieldOf v (4 * k) 4 < 14 && !portLicensed s (fieldOf v (4 * k) 4))
  let w := bad.foldl (fun x k => setField x (4 * k) 4 (fieldOf old (4 * k) 4)) v
  let s1 := wrF (wr s (banked (fxReg 0x110) i) w) (fxReg 0x108) 0 11 ((i + 1) % 2048)
  if bad.isEmpty then s1 else reportB s1 (devPage 3) 8 0x070F

/-! ### Device Time across the system (R255, R256) -/

/-- The port that time follows: the parent or the backup in use; at first use the parent, else the backup, if running. -/
def timePort (s : State) : Option (Nat × Nat) :=
  let ctl := fxReg 0x128
  let active := rdF s (fxReg 0x130) 2 2
  let parent := rdF s ctl 8 4
  let backup := rdF s ctl 12 4
  let ok (p : Nat) : Bool := p < 14 && portRuns s p
  if active = 1 && ok backup then some (1, backup)
  else if ok parent then some (0, parent)
  else if ok backup then some (1, backup)
  else none

/-- Meaning of TIME_EXCHANGE (R255): one REQ in each 10 µs window. -/
def execTimeExchange (s : State) : Host.Outcome State Fault Refusal :=
  let x := s.fabric.time
  let on := rdB s (fxReg 0x128) 0 && !rdB s (fxReg 0x128) 1
  .next (match timePort s with
    | none => s
    | some (a, p) =>
      if on && x.window != now s / 10000 + 1 then
        let n := (x.num + 1) % 64
        let s1 := { s with fabric := { s.fabric with time := { x with num := n, window := now s / 10000 + 1, t1 := now s } } }
        emit (incWrap (wrB (wrF s1 (fxReg 0x130) 2 2 a) (fxReg 0x130) 1 false) (fxReg 0x090) 1) (.link p (.time 0 n (now s % 2 ^ 48)))
      else s)

/-- Meaning of TIME_REQ_RECEIVE (R255): the parent answers with t2 and t3. -/
def execTimeReqReceive (p : PortId) (num : Fin 64) (s : State) : Host.Outcome State Fault Refusal :=
  .next (if portRuns s p then
      emit (emit s (.link p (.time 1 num (now s % 2 ^ 48)))) (.link p (.time 2 num (now s % 2 ^ 48)))
    else s)

/-- Lock after an offset, in 1/16 ns (R256). -/
def lockStep (s : State) (offset : Int) : State :=
  let x := s.fabric.time
  let st := fxReg 0x130
  let m := offset.natAbs
  let good := if m < 80 then x.good + 1 else 0
  let bad := if 160 ≤ m then x.bad + 1 else 0
  let s1 := { s with fabric := { s.fabric with time := { x with good := min good 100, bad := if bad = 10 then 0 else bad } } }
  if bad = 10 then report (wrB s1 st 0 false) (devPage 3) 0x070C
  else if 100 ≤ good then wrB s1 st 0 true
  else s1

/-- The rate correction that the servo chooses, which is open, inside the slew limits of R36: at most 1,000 ppm, in units of
2⁻⁴⁰ (log entry 184, DESIGN CHOICE). -/
def servoRate (s : State) : Int := (freeNat s % 2199023255 : Nat) - (1099511627 : Int)

/-- The offset of an exchange used, in 1/16 ns: before ready the first sets DT; later ones go to the servo, with a rate. -/
def steerTime (s : State) (offset : Int) : State :=
  let first := !s.fabric.time.jumped && !rdB s (devReg 7 0x108) 5
  let s1 := { s with fabric := { s.fabric with time := { s.fabric.time with jumped := true } }
                     time := if first then { s.time with dt := s.time.dt + BitVec.ofInt 64 (offset / 16), servo := 0 }
                             else { s.time with servo := offset * 2 ^ 36 } }
  drawn (wrF s1 (fxReg 0x138) 0 32 (patternOf 32 (servoRate s1)))

/-- The clock is outside R431: LOCK is 1 and |FX_RATE.RATE| exceeds 300 ppm. -/
def clockBad (s : State) : Bool := rdB s (fxReg 0x130) 0 && 329853488 < (signedOf 32 (rdF s (fxReg 0x138) 0 32)).natAbs

/-- A test whose programs run is no more valid once the clock leaves its bounds (R431). -/
def noteClock (s : State) : State :=
  match s.yew.run with
  | some t => if t.started && clockBad s then { s with yew := { s.yew with run := some { t with bad := true } } } else s
  | none => s

/-- Meaning of TIME_RESP_RECEIVE (R255, R256): RESP_B arrives with t3, after RESP_A brought t2. An exchange whose delay is
more than 4 ns off the mean of the last 16 is not used; the mean is of all of them with this port. -/
def execTimeRespReceive (p : PortId) (num : Fin 64) (t2 t3 : Fin 281474976710656) (s : State) : Host.Outcome State Fault Refusal :=
  let x := s.fabric.time
  let d (a b : Nat) : Int := signedOf 48 (a % 2 ^ 48 + 2 ^ 48 - b % 2 ^ 48)
  let offset := (d t2 x.t1 - d (now s) t3) * 8
  let delay := (d (now s) x.t1 - d t3 t2) * 8
  let past := if x.via = p.val + 1 then x.delays else []
  let n := (past.length : Int)
  let unused : Bool := past.length == 16 && decide (64 * n < ((delay * n - past.sum).natAbs : Int))
  .next (match timePort s with
    | none => s
    | some (_, q) =>
      if q != p.val || num.val != x.num || x.window = 0 then s
      else
        let s1 := { s with fabric := { s.fabric with time := { x with via := p.val + 1, delays := (past ++ [delay]).drop (past.length - 15) } } }
        if unused then s1
        else
          let s2 := wrF (wrF s1 (fxReg 0x130) 32 32 (patternOf 32 offset)) (fxReg 0x130) 16 16 (patternOf 16 delay)
          noteClock (lockStep (noteClock (steerTime s2 offset)) offset))

end Sys2Proof.Machine
end

