-- ==== Sys2Proof/Machine/Fence.lean ====
section
/-! DEFINITION. Fences (R354–R358), the classification of suspects (R351–R353), the field fence log (R411) and
guarded values found broken (R358). -/

namespace Sys2Proof.Machine

/-! ### Fields of an entry (R354) -/

/-- KIND of a fence entry. -/
def feKind (e : Nat) : Nat := fieldNat e 60 4
/-- COND. -/
def feCond (e : Nat) : Nat := fieldNat e 56 4
/-- VALUE. -/
def feValue (e : Nat) : Nat := fieldNat e 40 16
/-- UNIT. -/
def feUnit (e : Nat) : Nat := fieldNat e 24 16
/-- SUB. -/
def feSub (e : Nat) : Nat := fieldNat e 20 4
/-- CAUSE. -/
def feCause (e : Nat) : Nat := fieldNat e 0 16

/-- The entry names a unit of the device, and for PATTERN a class of R356. -/
def feOk (e : Nat) : Bool :=
  (feCond e != 3 || (1 ≤ feValue e && feValue e ≤ 9)) && match feKind e with
  | 1 => decide (feUnit e < 4608)
  | 2 => decide (feUnit e < 288)
  | 3 => decide (feUnit e < 4608) && decide (feSub e < 9)
  | 4 => decide (feUnit e < 96)
  | 5 => decide (feUnit e < 14) && decide (feSub e < 4)
  | 6 => decide (feSub e < 8)
  | _ => false

/-- The tiles that an entry stops. -/
def feTiles (e : Nat) : List Nat :=
  match feKind e with
  | 1 => [feUnit e]
  | 2 => tilesOf (feUnit e)
  | _ => []

/-- The cluster whose readings a conditional entry watches (R355). -/
def feCluster (e : Nat) : Option Nat :=
  match feKind e with
  | 1 => some (clusterOf (feUnit e))
  | 2 => some (feUnit e)
  | 3 => some (clusterOf (feUnit e))
  | _ => none

/-- Location of a signature (R360 key 4). -/
def feLoc (e : Nat) : List (Nat × Nat) :=
  let u := feUnit e
  match feKind e with
  | 1 => [(1, 1), (2, u), (3, clusterOf u)]
  | 2 => [(1, 2), (3, u)]
  | 3 => [(1, 3), (2, u), (3, clusterOf u), (5, feSub e)]
  | 4 => [(1, 4), (4, u)]
  | 5 => [(1, 5), (4, u), (5, feSub e)]
  | k => [(1, k), (5, feSub e)]

/-! ### The field fence log (R411) -/

/-- Entry of the flash directory of a kind (R406): unit, first block, blocks. -/
def dirEntry (s : State) (kind : Nat) : Option (Nat × Nat × Nat) := (s.ufs.dir.find? (fun e => e.1 == kind)).map Prod.snd

/-- A block of the fence log (R411). -/
def logBlock (seq : Nat) (l : List Nat) : List Byte :=
  let b := fitBytes 4088 (bytesOf 8 0x31474F4C464B4454 ++ bytesOf 4 seq ++ bytesOf 2 l.length ++ bytesOf 2 0 ++ (l.map (bytesOf 8)).flatten)
  b ++ bytesOf 8 (crc64 b)

/-- An entry joins the block with the highest sequence of the fence log, or a new block at the first place that no block of the
log has taken, and the block is written whole (R357, R411). With no such place the write fails: none that is there is
overwritten (log entry 198, DEDUCED). -/
def logFence (s : State) (e : Nat) : State :=
  let s1 := { s with commit := { s.commit with fenceLog := s.commit.fenceLog ++ [e] } }
  let fresh := s.ufs.logUsed.isEmpty || 509 ≤ s.ufs.logCur.length
  let seq := if fresh && !s.ufs.logUsed.isEmpty then s.ufs.logSeq + 1 else s.ufs.logSeq
  let cur := if fresh then [e] else s.ufs.logCur ++ [e]
  match dirEntry s 3 with
  | none => report s1 (devPage 7) 0x0E05
  | some d =>
    match (if fresh then (List.range d.2.2).find? (fun i => !s.ufs.logUsed.contains i) else some s.ufs.logAt) with
    | none => report s1 (devPage 7) 0x0E05
    | some i =>
      ufsWrite { s1 with ufs := { s1.ufs with logSeq := seq, logCur := cur, logAt := i, logUsed := if fresh then s.ufs.logUsed ++ [i] else s.ufs.logUsed } }
        d.1 (d.2.1 + i) (logBlock seq cur) .fenceWrite

/-- HB_FLOOR (R412): tiles of each type in service. -/
def setFloor (s : State) : State :=
  let n (ty : TileType) : Nat := ((List.range 4608).filter (fun t => tileType t == ty && !tileFenced s t)).length
  wr s (devReg 7 0x150) (BitVec.ofNat 64 (place 48 16 (n .t) + place 32 16 (n .m) + place 16 16 (n .v) + place 0 16 (n .s)))

/-! ### Applying a fence (R357, R412) -/

/-- The unit of an unconditional entry stops (R357 orders 1 and 2, R412). -/
def fenceUnit (s : State) (e : Nat) : State :=
  let u := feUnit e
  match feKind e with
  | 3 => match neighbour u (feSub e) with
    | some n => fenceLink (fenceLink s u (feSub e)) n (farPort (feSub e))
    | none => fenceLink s u (feSub e)
  | 4 => if channelFenced s u then s
    else setChState (markFenced s u) u 5
  | 5 => dropLanes (wrB s (pxReg u 0x100) (20 + feSub e) false) u (2 ^ feSub e)
  | 6 => gbCtrlWrite s (setBit (rd s (gbReg 0x100)) (24 + feSub e) false)
  | _ => each (feTiles e) (fun v t => if tileFenced v t then v else stopTile v t) s

/-- Contexts with a packet on one of a router's links. -/
def linkCtxs (s : State) (t p : Nat) : List Nat :=
  let on (e : Nat × List Flit) : List Nat := if e.1 = t * 16 + p then e.2.filterMap (fun x => pktCtx x.pkt) else []
  s.net.links.flatMap on ++ s.net.again.flatMap on

/-- Contexts whose work a fenced unit holds (R357): those resident on its tiles; for a mesh link those with a packet on it, in
either direction; for a memory channel, over which every address range is spread, those resident on the device; a lane's
packets are sent again on the other lanes (log entry 99, DEDUCED). -/
def feContexts (s : State) (e : Nat) : List Nat :=
  (match feKind e with
  | 3 => linkCtxs s (feUnit e) (feSub e) ++ (match neighbour (feUnit e) (feSub e) with
    | some n => linkCtxs s n (farPort (feSub e))
    | none => [])
  | 4 => (List.range 256).filter (fun c => stepOpen s c && !(ctxTiles s c).isEmpty)
  | _ => (feTiles e).flatMap (residents s)).eraseDups

/-- Hornbeam follows up the stop of a unit (R357, R379, R381): ABORTs for open steps, for which the routers of the
stopped tiles vote (R377), CLEAN is cleared by DIRTY where no tile stopped (R341), and the re-placement is owed (log entry 99,
DEDUCED). -/
def followFence (s : State) (cs : List Nat) (e : Nat) : State :=
  each cs (fun u c =>
    let u0 := if (feTiles e).isEmpty then requestDirty u c else u
    let u1 := if stepOpen u0 c then standIns (originate u0 c 3 false) c (feTiles e) else u0
    if (mapFind c u1.recov.replaceDt).isSome then u1 else { u1 with recov := { u1.recov with replaceDt := mapInsert c (now u1) u1.recov.replaceDt } }) s

/-- Record and signature of a fence (R357 order 3). -/
def noteFence (s : State) (e : Nat) : State :=
  let s1 := report s (devPage 11) 0x0B0A { detail := [e / 2 ^ 32, e % 2 ^ 32] }
  writeTfs s1 { loc := feLoc e, code := feCause e, cluster := feCluster e, entry := some e
                pattern := if feCond e = 3 then some (feValue e) else none }

/-- Clusters whose copy tile is among those fenced take another (R415). -/
def moveCopies (s : State) (ts : List Nat) : State := each ((s.boot.copyTile.filter (fun e => ts.contains e.2)).map Prod.fst) chooseCopy s

/-- A fence in all its orders (R357); a conditional one is placed under R355. -/
def applyFence (s : State) (e : Nat) : State :=
  let s1 := if feCond e = 0 then moveCopies (followFence (fenceUnit s e) (feContexts s e) e) (feTiles e)
    else { s with commit := { s.commit with condFences := if s.commit.condFences.contains e then s.commit.condFences else s.commit.condFences ++ [e] } }
  noteFence (logFence s1 e) e

/-- Meaning of UNIT_FENCE (R357): a fence that a unit began is followed up, or a unit is fenced; once for each entry. -/
def execUnitFence (e : Fin 18446744073709551616) (s : State) : Host.Outcome State Fault Refusal :=
  .next (if !feOk e || 3 < feCond e then s
    else if s.commit.fenceJobs.contains e.val then
      setFloor (applyFence { s with commit := { s.commit with fenceJobs := s.commit.fenceJobs.erase e.val } } e)
    else if s.commit.fenceLog.contains e.val then s
    else setFloor (applyFence s e))

/-! ### Conditional fences (R355) -/

/-- The reading of a cluster brings a conditional fence into force, or (none) leaves it as it is (log entry 91, DEDUCED). -/
def condReading (s : State) (e k : Nat) : Option Bool :=
  if feCond e = 1 then
    (if Int.ofNat (10 * feValue e) ≤ clusterTemp s k then some true
     else if clusterTemp s k ≤ Int.ofNat (10 * feValue e) - 50 then some false else none)
  else if feCond e = 2 then
    (if clusterVolt s k < feValue e then some true else if feValue e + 10 ≤ clusterVolt s k then some false else none)
  else none

/-- The reading passes the failing point from which Yew set VALUE (R355, R436). -/
def pastFailing (s : State) (e k : Nat) : Bool :=
  (feCond e == 1 && decide (Int.ofNat (10 * feValue e) + 50 ≤ clusterTemp s k)) || (feCond e == 2 && clusterVolt s k + 20 < feValue e)

/-- Meaning of COND_FENCE (R355): a conditional fence enters or leaves force; past the failing point the open
steps of the contexts on the unit are aborted. -/
def execCondFence (e : Fin 18446744073709551616) (s : State) : Host.Outcome State Fault Refusal :=
  .next (match feCluster e with
    | none => s
    | some k =>
      if !s.commit.condFences.contains e.val then s
      else
        let isIn := s.commit.inForce.contains e.val
        let s1 := match condReading s e k with
          | some true =>
            if isIn then s
            else report { s with commit := { s.commit with inForce := s.commit.inForce ++ [e.val] } } (devPage 11) 0x0B0B { detail := [e.val / 2 ^ 32, e.val % 2 ^ 32, 1] }
          | some false =>
            if isIn then report { s with commit := { s.commit with inForce := s.commit.inForce.erase e.val } } (devPage 11) 0x0B0B { detail := [e.val / 2 ^ 32, e.val % 2 ^ 32, 0] }
            else s
          | none => s
        if pastFailing s e k then
          each (feContexts s e) (fun u c => if stepOpen u c && !(attOf u c).aborted then originate u c 3 false else u) s1
        else s1)

/-! ### Classification (R351–R353) -/

/-- A strike of a cluster: whether it is the STRIKE_LIMIT-th within 24 h of the first (R351) (log entry 89, DEDUCED). -/
def strike (s : State) (k : Nat) : Bool × State :=
  let old := mapGet (fun _ => (0, 0)) s.commit.strikes k
  let new := if old.1 = 0 || old.2 + 86400000000000 ≤ now s then (1, now s) else (old.1 + 1, old.2)
  let limit := rdF s (csReg 0x100) 32 8
  let temp := if new.1 = 1 then clusterTemp s k else min (mapGet (fun _ => clusterTemp s k) s.yew.strikeTemp k) (clusterTemp s k)
  (limit != 0 && limit ≤ new.1
    , { s with commit := { s.commit with strikes := mapPut (fun _ => (0, 0)) s.commit.strikes k new }
               yew := { s.yew with strikeTemp := mapInsert k temp (mapErase k s.yew.strikeTemp) } })

/-- The class of a suspect whose test passed; a failed test or the last strike adds 1 to the transient classes. -/
def baseClass (q : Suspect) : Nat :=
  if q.audit then 8 else if q.unplaced then 7
  else match q.firstSig with
    | none => 5
    | some f => if q.replaySig = some f then 1 else 3

/-- Meaning of CLASSIFIED (R351): a suspect whose replay has voted and whose test has a result leaves quarantine.
After a failed test its fence is the entry that Yew chooses (R437). -/
def execClassified (k : ClusterId) (s : State) : Host.Outcome State Fault Refusal :=
  let res := mapGet (fun _ => 0) s.commit.confirm k
  .next (match s.commit.quar.find? (fun (q : Suspect) => q.cluster == k.val && q.replaySig.isSome) with
    | none => s
    | some q =>
      if res = 0 then s
      else
        let left := s.commit.quar.erase q
        let s1 := { s with commit := { s.commit with
          quar := left, confirm := if left.any (fun (x : Suspect) => x.cluster == k.val) then s.commit.confirm else mapErase k s.commit.confirm } }
        let st := if res = 1 then strike s1 k else (false, s1)
        let persistent := res = 2 || st.1
        let cls := if baseClass q < 7 && persistent then baseClass q + 1 else baseClass q
        let e := fenceEntry 2 k 0 q.code
        let s2 := report st.2 (devPage 11) 0x0B09 { ctx := some q.ctx, detail := [cls, k] }
        let s3 := writeTfs s2 { loc := [(1, 2), (3, k)], ctx := some q.ctx, step := some q.step, code := q.code, cls := some cls, cluster := some k
                                residues := if 0x0101 ≤ q.code && q.code ≤ 0x0105 then some (q.pred, q.obs) else none
                                sigs := q.replaySig.map (fun r => (q.firstSig, r)), entry := if st.1 then some e else none }
        if st.1 then queueFence (each (tilesOf k) (fun u t => if tileFenced u t then u else stopTile u t) s3) e else s3)

/-! ### Guarded values (R358) -/

/-- The step number of a context failed its complement: the context is FAULTED with record 0x0B0C. -/
def stepGuard (s : State) (c : Nat) : State := ckFaulted (setCsState (guardReport s (devPage 11) 0x0B0C { ctx := some c }) c 6) c

/-- `guardBroken` for the register at offset `off` of page `p`, which is of kind `x`; the fabric page's unit is the Parith
fabric, whose ports are fenced (log entry 195, DEDUCED). -/
def guardBrokenIn (s : State) (p off k : Nat) (x : Option (PageKind × Nat)) : State :=
  match x with
  | some (.commit, _) => stepGuard s (k - 1)
  | some (.memmap, _) => guardReport s p 0x080A { detail := [off] }
  | some (.qdesc n, t) => queueGuard s t (n * 64 + (off - 0x100) / 0x20)
  | some (.scratch, t) =>
    let code := if 0x180 ≤ off && off < 0x200 && off % 0x20 != 0 then 0x040C else 0x040B
    fenceTile (guardReport s p code) t code
  | some (.qctl, t) => fenceTile (guardReport s p 0x0B0D) t 0x0B0D
  | some (.fabric, _) => each (List.range 14) (fun u q => if portState u q = 0 || portState u q = 5 then u else portDown u q 5) (guardReport s p 0x0B0D)
  | _ => guardReport s p 0x0B0D

/-- What a broken guarded register does (R358): by page and offset. -/
def guardBroken (s : State) (a k : Nat) : State := guardBrokenIn s (pageOf a) (a % 0x1000) k (decodePage (pageOf a))

/-- A register holds a guarded value. -/
def isGuarded (a : Nat) : Bool :=
  match decodePage (pageOf a) with
  | some (k, i) =>
    match findReg (pageRegs k i) (a % 0x1000) with
    | some (r, _) => r.acc == .rwg || (match k with | .qdesc _ => a % 0x20 != 0 | .scratch => 0x180 ≤ a % 0x1000 && a % 0x1000 < 0x200 | _ => false)
    | none => false
  | none => false

/-- The regions of a tile that were valid before a guarded value of it broke and are so no more, with their contexts
(R160). -/
def lostRegions (s s1 : State) (t : Nat) : List (Rgn × Nat) :=
  (List.range 8).flatMap (fun r =>
    ((rgnsOfSlot s t r).filter (fun g => (rgnAt s1 t r g.j).isNone || (gOk s (spReg t (0x140 + 8 * r)) && !gOk s1 (spReg t (0x140 + 8 * r))))).map
      (fun g => (g, rdF s (spReg t (0x140 + 8 * r)) 0 8)))

/-- What becomes of the waiters and rings of regions that a value broken on page `o` made invalid (R160, R166, R180). -/
def dropLost (s s1 u : State) (o : Option (PageKind × Nat)) : State :=
  match o with
  | some (.scratch, t) => each (lostRegions s s1 t) (fun v x => regionGone v t x.1.base x.1.limit x.2) u
  | _ => u

/-- The credit-table entry that CT_CREDIT of a tile shows, with the tile and its place (R185, R204). -/
def shownCredit (s : State) (a : Nat) : Option (Nat × Nat × Credit) :=
  match decodePage (pageOf a) with
  | some (.qctl, t) =>
    let i := t * 1024 + rdF s (qctl t 0x118) 0 10
    if a % 0x1000 = 0x128 then (mapFind i s.q.cred).map (fun e => (t, i, e)) else none
  | _ => none

/-- CREDITS of an entry is found with its complement mismatched (R185). -/
def creditBroken (s : State) (x : Nat × Nat × Credit) (flip : BitVec 64) : State :=
  let e := { x.2.2 with cred := x.2.2.cred ^^^ flip }
  if guardOk e.cred then setCredit s x.2.1 e else creditGuard (setCredit s x.2.1 e) x.1 x.2.1 e.ctx

/-- Meaning of GUARD_FAULT (R358): bits of the stored guarded register at `a` (copy `k` − 1 when `k` is not 0), or of the
CREDITS of the credit-table entry that it shows, are found flipped. -/
def execGuardFault (a : Fin 4294967296) (k : Fin 257) (flip : BitVec 64) (s : State) : Host.Outcome State Fault Refusal :=
  let r := regBase + a.val
  let key := if k.val = 0 then r else banked r (k.val - 1)
  .next (match (if k.val = 0 then shownCredit s r else none) with
    | some x => creditBroken s x flip
    | none => if !isGuarded r || flip = 0 || ((k.val != 0) != (pageOf r == devPage 11)) then s
    else
      let s1 := wr s key (rd s key ^^^ flip)
      if guardOk (rd s1 key) then s1 else dropLost s s1 (guardBroken s1 r k) (decodePage (pageOf r)))

end Sys2Proof.Machine
end

