-- ==== Sys2Proof/Machine/Measure.lean ====
section
/-! DEFINITION. Hawthorn's life-cycle state, measurement registers and session ends (R469, R477, R482), which bring-up
and resets use. -/

namespace Sys2Proof.Machine

/-- A register of the Hawthorn page. -/
def hwReg (off : Nat) : Nat := devReg 8 off

/-- The fused secret is present and not destroyed. -/
def hasIdentity (s : State) : Bool := match s.sec.fuses.dus with | some d => d != 2 ^ 256 - 1 | none => false

/-- Bytes of the public identity key (R468). -/
def idPub (s : State) : List Byte := bytesOf 64 (if hasIdentity s then Config.identityKey (s.sec.fuses.dus.getD 0) else 0)

/-- What HW_STAT and HW_IDPUB show of the fuses (R489). -/
def showFuses (s : State) : State :=
  let f := s.sec.fuses
  let s1 := wrF (wrF (wrB (wrB s (hwReg 0x100) 13 f.ownerKey.isSome) (hwReg 0x100) 12 (hasIdentity s)) (hwReg 0x100) 24 6 f.minEpoch) (hwReg 0x100) 0 3 f.lc
  each (List.range 8) (fun u k => wr u (hwReg (0x180 + 8 * k)) (BitVec.ofNat 64 (natOfBytes (((idPub s).drop (8 * k)).take 8)))) s1

/-- Bytes of four consecutive registers. -/
def regBytes (s : State) (a : Nat) : List Byte := (List.range 4).flatMap (fun k => bytesOf 8 (rd s (a + 8 * k)).toNat)

/-- Four consecutive registers written with a 32-byte number. -/
def wrBytes (s : State) (a v : Nat) : State := each (List.range 4) (fun u k => wr u (a + 8 * k) (BitVec.ofNat 64 (v >>> (64 * k)))) s

/-- MRj extended with data (R477). -/
def extendMr (s : State) (j : Nat) (d : List Byte) : State :=
  wrBytes s (hwReg (0x200 + 0x20 * j)) (Config.shake256 (regBytes s (hwReg (0x200 + 0x20 * j)) ++ d) 32)

/-- Yew leaves RAW mode (R429): the trims follow R440 again (log entry 134, DEDUCED). -/
def leaveRaw (s : State) : State :=
  if rdF s (devReg 9 0x108) 0 3 = 5 then
    wrF { s with pad := { s.pad with rawMode := false }, commit := { s.commit with rawTrim := [] }, yew := { s.yew with run := none } } (devReg 9 0x108) 0 12 0
  else s

/-- The open session ends with a cause (R482): MR5, record, source 383, and any hold released. -/
def endSession (s : State) (cause : Nat) : State :=
  match s.sec.session with
  | none => s
  | some _ =>
    let s1 := { s with sec := { s.sec with session := none }, recov := { s.recov with dbgHold := none }, power := { s.power with zeroBanks := [] } }
    let s2 := wr (wrF (leaveRaw s1) (hwReg 0x100) 4 2 0) (hwReg 0x118) (BitVec.ofNat 64 (place 8 4 cause))
    raise (report (extendMr s2 5 (bytesOf 1 cause)) (devPage 8) 0x1105 { detail := [0, cause] }) 383

/-- Hawthorn's state at the entry to the ROM phase: measurement registers 0, the fuses shown (R477). -/
def enterRomSec (s : State) : State := showFuses (clearRegs s (hwReg 0x200) (hwReg 0x300))

end Sys2Proof.Machine
end

