-- ==== Sys2Proof/Machine/Bramble.lean ====
section
/-! DEFINITION. What Bramble watches (R136, R364–R366): nodes, what waits on what, and closed sets. -/

namespace Sys2Proof.Machine

/-- A node of a context on a tile's cluster (R364). -/
def nodeOf (t c : Nat) : Nat := clusterOf t * 256 + c

/-- A unit of a context that is not idle: whether it waits, and the nodes it waits on; `none` is the external node. -/
structure UnitWait where
  ctx : Nat
  waiting : Bool
  edges : List (Option Nat)
  deriving DecidableEq, Repr

/-- The node of an endpoint's tile and a context; remote ones, and tiles in reset, are external (R365, R385). -/
def epNode (s : State) (e c : Nat) : Option Nat :=
  if epDev e = deviceId s && epTile e < 4608 && !tileInReset s (epTile e) then some (nodeOf (epTile e) c) else none

/-- Tiles with any register that differs from reset. -/
def liveTiles (s : State) : List Nat :=
  ((s.regs.filter (fun e => regBase ≤ e.1 && e.1 < regBase + 4608 * 0x20000)).map (fun e => (e.1 - regBase) / 0x20000)).eraseDups

/-- Output endpoint of a configuration slot. -/
def slotOutEp (s : State) (t n : Nat) : Nat :=
  let w := slotWords s t true n
  w.getD 8 0 + (fieldNat (w.getD 9 0) 0 4 <<< 32)

/-- The handler queues that feed a queue of a set: those that its context opened for handlers on the tiles of the set (R110,
R136) (log entry 97, DEDUCED). -/
def handlerFeeds (s : State) (t q : Nat) : List (Option Nat) :=
  if !isTokenQueue s t q then []
  else
    let c := qOwner s t q
    let tiles := (s.flow.sets.filter (fun (e : Nat × Placed) => e.2.tiles.contains t)).flatMap (fun (e : Nat × Placed) => e.2.tiles)
    (((liveQueues s).filter (fun x => tiles.contains x.1 && !qRead s x.1 x.2 && qOwner s x.1 x.2 == c)).map
      (fun x => nodeOf x.1 c)).eraseDups.map some

/-- Producers of a queue: configurations, steering outputs and handler queues that feed it (R136), and holders of its credit
(R365) (log entry 97, DEDUCED). -/
def producers (s : State) (t q : Nat) : List (Option Nat) :=
  let e := endpoint s t q
  (flowTiles s).flatMap (fun u =>
    ((validSlots s u).filter (fun n => slotOutEp s u n == e)).map (fun n => some (nodeOf u (bindOf s u true n).ctx))
      ++ (if hasSteer u then ((List.range 8).filter (fun v => (steerOf s u true v).op != 0 && (steerOf s u true v).outs.any (fun o => o.1 && o.2.2 == e))).map
            (fun v => some (nodeOf u (steerOf s u true v).ctx)) else []))
    ++ (s.recov.granted.filter (fun g => g.1 == t * 256 + q)).map (fun g =>
      let c := qOwner s t q
      let dt := g.2 % 8192
      if g.2 / 8192 != deviceId s || 4608 ≤ unitAt s dt c || tileInReset s dt then none else some (nodeOf dt c))
    ++ handlerFeeds s t q

/-- Every node of a context on the device. -/
def ctxNodes (s : State) (c : Nat) : List (Option Nat) := ((ctxTiles s c).map (fun t => nodeOf t c)).eraseDups.map some

/-- What a tagged access of a unit waits on (R365). -/
def tagEdges (s : State) (t c : Nat) (req : Req) : List (Option Nat) :=
  match s.pad.waiters.find? (fun w => w.acc.req == req) with
  | some w =>
    if w.atPort then (bankWaiters s w.acc.tile (bankOf w.acc.tile (w.acc.boff / 4))).map (fun x => some (nodeOf (reqTile x.acc) (x.acc.ctx.getD 0)))
    else ctxNodes s (w.acc.ctx.getD c)
  | none => some (nodeOf t c) :: ctxNodes s c

/-- What a waiting send of a unit waits on (R365). -/
def sendEdges (s : State) (t : Nat) (p : Sender → Bool) : List (Option Nat) :=
  (s.q.sends.filter (fun w => w.unit == t && p w.sender)).map (fun w => epNode s w.msg.hdr.dst w.msg.hdr.context)

/-- Handler threads (R365). -/
def threadWaits (s : State) (t : Nat) : List UnitWait :=
  (List.range 4).filterMap (fun n =>
    let h := threadOf s t n
    if !h.busy then none
    else match h.wait with
      | .none => some { ctx := h.ctx, waiting := false, edges := [] }
      | .stopped => none
      | .credit => some { ctx := h.ctx, waiting := true, edges := sendEdges s t (fun x => x == .thread n) }
      | .tag => some { ctx := h.ctx, waiting := true, edges := tagEdges s t h.ctx (.thread t n) }
      | .message q => some { ctx := h.ctx, waiting := true, edges := producers s t q })

/-- The activation of a tile, or the configuration of its current fold entry (R136). -/
def actWaits (s : State) (t : Nat) : List UnitWait :=
  let a := actOf s t
  let empties (n : Nat) : List (Option Nat) := ((slotQueues s t true n).filter (fun q => qOcc s t q == 0)).flatMap (producers s t)
  if a.on then
    if a.waiting || actPends s t then [{ ctx := a.ctx, waiting := true, edges := tagEdges s t a.ctx (.act t) }]
    else if s.q.sends.any (fun w => w.unit == t && w.sender == .act) then [{ ctx := a.ctx, waiting := true, edges := sendEdges s t (fun x => x == .act) }]
    else if a.phase = 0 && (slotQueues s t true a.slot).any (fun q => qOcc s t q == 0) then [{ ctx := a.ctx, waiting := true, edges := empties a.slot }]
    else [{ ctx := a.ctx, waiting := false, edges := [] }]
  else match curSlot s t with
    | none => []
    | some n =>
      let b := bindOf s t true n
      if !b.valid || ctxStopped s t b.ctx || !(dfState s t == 1 || dfState s t == 2) then []
      else if (slotQueues s t true n).any (fun q => qOcc s t q == 0) then [{ ctx := b.ctx, waiting := true, edges := empties n }]
      else [{ ctx := b.ctx, waiting := false, edges := [] }]

/-- Steering units (R136). -/
def steerWaits (s : State) (t : Nat) : List UnitWait :=
  if !hasSteer t || dfState s t = 0 then []
  else (List.range 8).filterMap (fun u =>
    let e := steerOf s t true u
    if e.op = 0 || ctxStopped s t e.ctx then none
    else
      let miss := steerMissing s t u e
      let stall := steerStalled s t u e
      if !miss.isEmpty then some { ctx := e.ctx, waiting := true, edges := miss.flatMap (producers s t) }
      else some { ctx := e.ctx, waiting := !stall.isEmpty, edges := stall.map (fun o => epNode s o.2.2 e.ctx) })

/-- DMA channels: one that runs a descriptor, or that waits for a message of its empty queue (R196). -/
def chanWaits (s : State) (t : Nat) : List UnitWait :=
  (List.range 4).filterMap (fun ch =>
    match (chanOf s t ch).cur with
    | some (d : Desc) =>
      some (if (chanOf s t ch).blocked then { ctx := d.ctx, waiting := true, edges := tagEdges s t d.ctx (.dma t ch) }
        else { ctx := d.ctx, waiting := false, edges := [] })
    | none =>
      if tileType t == .s && (chanOf s t ch).queued.isEmpty && mapGet (fun _ => 0) s.q.readWait (t * 256 + ch) != 0
      then some { ctx := qOwner s t ch, waiting := true, edges := producers s t ch } else none)

/-- Other sends of a tile that wait for credit. -/
def otherSends (s : State) (t : Nat) : List UnitWait :=
  (s.q.sends.filter (fun w => w.unit == t && !(w.sender == .act || (List.range 4).any (fun n => w.sender == .thread n)))).map
    (fun w => { ctx := w.msg.hdr.context, waiting := true, edges := [epNode s w.msg.hdr.dst w.msg.hdr.context] })

/-- DISPATCH queues that are eligible while all four threads are busy, and partials that wait for the
completion store (R365). -/
def queueWaits (s : State) (t : Nat) (live : List (Nat × Nat)) : List UnitWait :=
  let threads := (List.range 4).map (threadOf s t)
  (if threads.all (fun h => h.busy) then
    (live.filter (fun x => x.1 == t && !qRead s t x.2 && qOcc s t x.2 != 0)).map (fun x =>
      { ctx := qOwner s t x.2, waiting := true, edges := threads.map (fun h => some (nodeOf t h.ctx)) })
   else [])
  ++ (s.net.here.filter (fun e => e.loc == t && 16 ≤ e.port)).filterMap (fun e =>
      match e.pkt with
      | .red r => some { ctx := r.context, waiting := true, edges := (compOf s t).map (fun x => some (nodeOf t x.red.context)) }
      | _ => none)

/-- The units of a tile that are not idle; one of a context held from its vote waits on the external node (R365), and those
of a context that recovery holds or tears down are stopped. -/
def tileWaits (s : State) (t : Nat) (live : List (Nat × Nat)) : List UnitWait :=
  if tileInReset s t then []
  else
    ((threadWaits s t ++ actWaits s t ++ steerWaits s t ++ chanWaits s t ++ otherSends s t ++ queueWaits s t live).filter
      (fun w => tdState s w.ctx == 0)).map (fun w =>
      if voteHeld s t w.ctx then { w with waiting := true, edges := [none] } else w)

/-- Every unit that is not idle, with its tile. -/
def allWaits (s : State) : List (Nat × UnitWait) :=
  let live := liveQueues s
  (liveTiles s).flatMap (fun t => (tileWaits s t live).map (fun w => (t, w)))

/-- The contexts that have a residence slot, a configuration slot or a steering unit on a tile (R364, R369). -/
def unitCtxs (s : State) (t : Nat) : List Nat :=
  residents s t ++ (validSlots s t).map (fun n => (bindOf s t true n).ctx)
    ++ (if hasSteer t then ((List.range 8).filter (fun u => (steerOf s t true u).op != 0)).map (fun u => (steerOf s t true u).ctx) else [])

/-- The nodes: one for each context that has a unit in a cluster (R364). -/
def allNodes (s : State) : List Nat :=
  (((liveTiles s).filter (fun t => !tileInReset s t)).flatMap (fun t => (unitCtxs s t).map (nodeOf t))
    ++ (allWaits s).map (fun w => nodeOf w.1 w.2.ctx)).eraseDups

/-- A node is stalled in window `k` (R364), at whose end `ws` are the units that are not idle. -/
def nodeStalled (s : State) (ws : List (Nat × UnitWait)) (k n : Nat) : Bool :=
  let mine := ws.filter (fun w => nodeOf w.1 w.2.ctx == n)
  let p := progressOf s n
  p.1 != k + 1 && p.2 != k + 1 && mine.all (fun w => w.2.waiting) && !mine.isEmpty

/-- Edges of a node. -/
def nodeEdges (ws : List (Nat × UnitWait)) (n : Nat) : List (Option Nat) :=
  (ws.filter (fun w => nodeOf w.1 w.2.ctx == n)).flatMap (fun w => w.2.edges)

/-- Candidates with an edge that leaves the candidates removed, until none is left (R366); `fuel` rounds. -/
def closedSet (ws : List (Nat × UnitWait)) : Nat → List Nat → List Nat
  | 0, l => l
  | n + 1, l =>
    let m := l.filter (fun x => (nodeEdges ws x).all (fun e => match e with | some y => l.contains y | none => false))
    if m.length = l.length then l else closedSet ws n m

end Sys2Proof.Machine
end

