-- ==== Sys2Proof/Machine/Recovery.lean ====
section
/-! DEFINITION. Hangs (R366–R368), recovery (R369–R373), the drain of a teardown (R375, R376), TD_CMD, and ABORTs at
a member (R380). -/

namespace Sys2Proof.Machine

/-! ### The Bramble page (R386) -/

/-- A register of the Bramble page. -/
def brReg (off : Nat) : Nat := devReg 10 off
/-- BR_STAT.PHASE. -/
def brPhase (s : State) : Nat := rdF s (brReg 0x108) 0 3
/-- PHASE set, with the DT at which it began. -/
def setPhase (s : State) (p : Nat) : State :=
  let s1 := wrF s (brReg 0x108) 0 3 p
  { s1 with recov := { s1.recov with phaseDt := now s } }

/-- A context is a suspect of the current recovery. -/
def isSuspect (s : State) (c : Nat) : Bool := rdB s (brReg (0x120 + 8 * (c / 64))) (c % 64)
/-- Suspects in ascending order. -/
def suspects (s : State) : List Nat := (List.range 256).filter (isSuspect s)
/-- BR_SUSPECT set to these contexts. -/
def setSuspects (s : State) (l : List Nat) : State :=
  each l (fun u c => wrB u (brReg (0x120 + 8 * (c / 64))) (c % 64) true) (clearRegs s (brReg 0x120) (brReg 0x140))

/-- The context under admission. -/
def admitted (s : State) : Option Nat := if rdB s (brReg 0x108) 16 then some (rdF s (brReg 0x108) 8 8) else none
/-- ADMITTED and ADMIT_VALID. -/
def setAdmitted (s : State) (c : Option Nat) : State :=
  let s1 := wrF (wrB s (brReg 0x108) 16 c.isSome) (brReg 0x108) 8 8 (c.getD 0)
  { s1 with recov := { s1.recov with admitDt := now s, admHang := none } }

/-- A list of numbers in ascending order without repeats. -/
def ascending (l : List Nat) : List Nat := (l.foldl (fun m x => mapInsert x () (mapErase x m)) ([] : NMap Unit)).map Prod.fst

/-! ### Raising a hang (R366–R369) -/

/-- Contexts that share a tile with a waiting unit of a member (R369). -/
def suspectsAt (s : State) (ws : List (Nat × UnitWait)) (h : Hang) : List Nat :=
  let tiles := ((ws.filter (fun w => w.2.waiting && h.members.contains (clusterOf w.1, w.2.ctx))).map Prod.fst).eraseDups
  ascending (tiles.flatMap (unitCtxs s))

/-- Recovery of a hang begins (R369). -/
def beginRecovery (s : State) (h : Hang) (l : List Nat) : State :=
  let s1 := setPhase (setSuspects s l) 1
  { s1 with recov := { s1.recov with current := some h, round := l, toAdmit := [], guilty := [], anyGuilty := false } }

/-- A hang is raised (R367): record, HANGS, BR_LAST and source 371. -/
def raiseHang (s : State) (h : Hang) (nsus : Nat) : State :=
  let low := (h.members.map Prod.fst).foldl min 511
  let s1 := report s (devPage 10) (if h.cause = 2 then 0x0C02 else 0x0C01) { detail := [h.members.length, low] }
  raise (wr (incWrap s1 (brReg 0x080) 1) (brReg 0x118)
    (BitVec.ofNat 64 (place 32 32 h.dt + place 16 16 h.members.length + place 7 9 nsus))) 371

/-- A hang holds a node of the context under admission, for which none was found before (R369). -/
def admissionHang (s : State) (h : Hang) : Bool :=
  brPhase s == 4 && s.recov.admHang.isNone && (match admitted s with | some c => h.members.any (fun m => m.2 == c) | none => false)

/-- A hang is one of the current suspects', or waits already (R368). -/
def hangKnown (s : State) (h : Hang) : Bool :=
  h.members.any (fun m => isSuspect s m.2) || s.recov.hangQ.any (fun q => q.members.any (fun m => h.members.contains m))

/-- A hang found while the queue of hangs is full, to be raised again at the next window's end (R368). -/
def hangLost (s : State) (h : Hang) : Bool :=
  brPhase s != 0 && !admissionHang s h && !hangKnown s h && decide (16 ≤ s.recov.hangQ.length)

/-- A hang found (R368, R369): recovered, taken as the fault of the context under admission, queued, or dropped (log entry 95, DEDUCED). -/
def foundHang (s : State) (ws : List (Nat × UnitWait)) (h : Hang) : State :=
  let l := suspectsAt s ws h
  if brPhase s = 0 then beginRecovery (raiseHang s h l.length) h l
  else if admissionHang s h then
    let s1 := raiseHang s h l.length
    { s1 with recov := { s1.recov with admHang := some h } }
  else if hangKnown s h then s
  else
    let s1 := raiseHang s h l.length
    if 16 ≤ s1.recov.hangQ.length then s1 else { s1 with recov := { s1.recov with hangQ := s1.recov.hangQ ++ [h] } }

/-- Consecutive stalled windows by node, once window `k` is judged: a window that was not judged breaks the row (R366). -/
def stalledRows (s : State) (ws : List (Nat × UnitWait)) (k : Nat) : NMap Nat :=
  let old (n : Nat) : Nat := if s.recov.window = k then mapGet (fun _ => 0) s.recov.stalled n else 0
  ((allNodes s).filter (nodeStalled s ws k)).foldl (fun (acc : NMap Nat) n => mapPut (fun _ => 0) acc n (min 15 (old n + 1))) []

/-- The largest closed set of the nodes that were stalled for BR_CTRL.WINDOWS windows (R366). -/
def hangSet (s : State) (ws : List (Nat × UnitWait)) (m : NMap Nat) : List Nat :=
  let cand := (m.filter (fun e => rdF s (brReg 0x100) 8 4 ≤ e.2)).map Prod.fst
  closedSet ws cand.length cand

/-- Meaning of BRAMBLE_WINDOW (R364, R366): the window that ended last is judged, once, and the largest closed set is
raised. -/
def execBrambleWindow (s : State) : Host.Outcome State Fault Refusal :=
  .next (
    let w := now s / 1000
    if w = 0 || s.recov.window = w then s
    else
      let ws := allWaits s
      let m := stalledRows s ws (w - 1)
      let s1 := { s with recov := { s.recov with stalled := m, window := w } }
      let set := hangSet s ws m
      if set.isEmpty || !rdB s (brReg 0x100) 0 then s1
      else foundHang s1 ws { members := set.map (fun n => (n / 256, n % 256)), cause := 1, dt := now s, set := none })

/-- The hang of a drain past its limit: every node of the set's contexts (R132, R367). -/
def drainHang (s : State) (d : Drain) : Hang :=
  let cs := ((placedOf s d.set).ctxs ++ d.next.ctxs).eraseDups
  { members := ((allNodes s).filter (fun n => cs.contains (n % 256))).map (fun n => (n / 256, n % 256)), cause := 2, dt := now s, set := some d.set }

/-- Meaning of DRAIN_TIMEOUT (R132): a RUN-mode drain past its limit is handed over as a hang, again at the end of each
window while the queue of hangs is full (R368). -/
def execDrainTimeout (set : Fin 256) (s : State) : Host.Outcome State Fault Refusal :=
  .next (match drainOf s set with
    | none => s
    | some d =>
      let l := limitOnce s (limitKey 22 set 0) (now s / 1000)
      if d.flush || !drainExpired s d || (d.hung && !(d.again && l.1)) then s
      else
        let s1 := if d.hung then l.2 else report l.2 (devPage 7) 0x0309 { detail := [d.set] }
        let h := drainHang s1 d
        foundHang (setDrain s1 d.set (some { d with hung := true, again := hangLost s1 h })) (allWaits s1) h)

/-! ### Hold and sample (R369–R371) -/

/-- Meaning of RECOVERY_HOLD (R369): ABORTs for the suspects that run in steps, and every unit of the suspects stops. -/
def execRecoveryHold (s : State) : Host.Outcome State Fault Refusal :=
  .next (if brPhase s = 1 then
      let s1 := each (s.recov.round.filter (stepped s)) (fun u c => if s.recov.guilty.contains c then u else originate u c 1 false) s
      setPhase (each (s1.recov.round.filter (fun c => tdState s1 c == 0)) (fun u c => setTdState u c 1) s1) 2
    else s)

/-- The recovery area: first byte and size. -/
def brArea (s : State) : Nat × Nat := (rdF s (brReg 0x110) 21 27 * 0x200000, rdF s (brReg 0x110) 56 8 * 0x200000)

/-- The 16 B head of a sample entry. -/
def sampleHead (kind c t n len : Nat) : List Byte :=
  fitBytes 16 (bytesOf 1 kind ++ bytesOf 1 c ++ bytesOf 2 t ++ bytesOf 1 n ++ bytesOf 3 0 ++ bytesOf 4 len)

/-- Entries of the SERVICE-mode regions of a context on a tile. -/
def sampleRegions (c : Nat) (acc : List Byte × State) (x : Nat × Nat) : List Byte × State :=
  if !inService acc.2 x.1 then acc
  else (rgnsOfSlot acc.2 x.1 x.2).foldl (fun (a : List Byte × State) g =>
    let n := min 4096 (4 * (g.limit - g.base))
    let r := ownRead a.2 x.1 (4 * g.base) n (some c)
    (a.1 ++ sampleHead 1 c x.1 g.j n ++ r.1.map (fun o => o.getD 0), r.2)) acc

/-- Entries of the queue descriptors of a tile. -/
def sampleQueues (s : State) (t : Nat) : List Byte :=
  (List.range 256).flatMap (fun q => sampleHead 2 (qOwner s t q) t q 32 ++ (List.range 4).flatMap (fun k => bytesOf 8 (rd s (qdReg t q k)).toNat))

/-- The words of the sample's regions that are not in banks that are ON: tile, byte offset and length (R171). -/
def sampleSleeps (s : State) : List (Nat × Nat × Nat) :=
  (s.recov.round.flatMap (slotsOf s)).flatMap (fun x =>
    if !inService s x.1 then []
    else ((rgnsOfSlot s x.1 x.2).map (fun g => (x.1, 4 * g.base, min 4096 (4 * (g.limit - g.base))))).filter (fun y => ownWaits s y.1 y.2.1 y.2.2))

/-- The entries of the sample, in the order of R370. -/
def sampleEntries (s : State) : List Byte × State :=
  let r := s.recov.round.foldl (fun (acc : List Byte × State) c => (slotsOf acc.2 c).foldl (sampleRegions c) acc) ([], s)
  (r.1 ++ (ascending (s.recov.round.flatMap (ctxTiles s))).flatMap (sampleQueues r.2), r.2)

/-- The header of the sample. -/
def sampleHeader (s : State) (h : Hang) (trunc : Bool) : List Byte :=
  let mask (i : Nat) : Nat := ((List.range 8).filter (fun b => s.recov.round.contains (8 * i + b))).foldl (fun a b => a + 2 ^ b) 0
  fitBytes 32 (bytesOf 2 1 ++ bytesOf 2 h.members.length ++ bytesOf 8 h.dt ++ bytesOf 1 h.cause ++ bytesOf 1 (bit01 trunc))
    ++ (List.range 32).flatMap (fun i => bytesOf 1 (mask i))

/-- The sample's budget is over (R371). -/
def sampleLate (s : State) : Bool := s.recov.phaseDt + rdF s (brReg 0x100) 16 8 * 1000 < now s

/-- The sample is written (R370); past the budget it holds an open number of bytes, and it ends with the area (R371) (log entry 96, DEDUCED). -/
def takeSample (s : State) (h : Hang) : State :=
  let e := sampleEntries s
  let late := sampleLate s
  let room := (brArea s).2 - 64
  let len := min room (if late then freeNat s % (e.1.length + 1) else e.1.length)
  let trunc := late || room < e.1.length
  let s1 := if late then drawn e.2 else e.2
  let s2 := (mappedWrite s1 (devPage 10) (brArea s).1 ((sampleHeader s h trunc ++ e.1.take len).map some) none).2
  if trunc then wrB (report s2 (devPage 10) 0x0C04) (brReg 0x118) 0 true else s2

/-! ### Teardown and drain (R374–R376) -/

/-- A released context lives again without its bindings (R376). -/
def releaseCtx (s : State) (c : Nat) : State :=
  let s1 := revive (unbind s c) c
  { s1 with recov := { s1.recov with released := s1.recov.released.erase c }
            q := { s1.q with plan := s1.q.plan.filter (fun g => g.ctx != c), toOpen := s1.q.toOpen.filter (fun x => x.1 != c) } }

/-- No placement was found for a torn context (R382). -/
def toUnplaceable (s : State) (c : Nat) : State :=
  let s1 := report (setTdState (unbind s c) c 4) (devPage 7) 0x0C0A { ctx := some c }
  let s2 := { s1 with recov := { s1.recov with unplaceable := s1.recov.unplaceable.erase c, replaceDt := mapErase c s1.recov.replaceDt } }
  if unplaceableAny s then s2 else raise s2 372

/-- What follows the last order of a teardown, by why it was asked for. -/
def afterTorn (s : State) (c : Nat) : State :=
  if s.recov.unplaceable.contains c then toUnplaceable s c
  else if s.recov.released.contains c then releaseCtx s c
  else s

/-- The next queued hang is recovered (R368). -/
def nextHang (s : State) : State :=
  match s.recov.hangQ with
  | [] => s
  | h :: hs => let s1 := { s with recov := { s.recov with hangQ := hs } }; beginRecovery s1 h (suspectsAt s1 (allWaits s1) h)

/-- Drains past their limit whose hang is not still queued end with a STOP in FLUSH mode (R132). -/
def flushHung (s : State) : State :=
  each (s.flow.drains.filter (fun d => d.hung && !d.again && !s.recov.hangQ.any (fun h => h.set == some d.set))) (fun u d =>
    beginDrain u d.set d.epoch true d.tiles d.next) s

/-- Recovery ends (R369, R372); that of a drain limit ends with a STOP in FLUSH mode (R132). -/
def endRecovery (s : State) : State :=
  let s1 := if s.recov.anyGuilty then s else report s (devPage 10) 0x0C06
  let s2 := flushHung s1
  let s3 := setSuspects (setAdmitted (setPhase s2 0) none) []
  nextHang { s3 with recov := { s3.recov with current := none, round := [], toAdmit := [], guilty := [], anyGuilty := false } }

/-- The contexts of the round are torn: admission begins, or recovery ends (R369). -/
def afterRound (s : State) : State :=
  if brPhase s = 3 && s.recov.round.all (fun c => !(tdState s c == 1 || tdState s c == 2) && !s.recov.tdReq.contains c) then
    let l := (ascending (s.recov.toAdmit ++ s.recov.round)).filter (fun c => stepped s c && !s.recov.guilty.contains c)
    let s1 := setPhase { s with recov := { s.recov with toAdmit := l, round := [] } } 4
    if l.isEmpty then endRecovery s1 else s1
  else s

/-- Meaning of SAMPLE_COMPLETE (R370, R371): the sample is in the recovery area, once the banks it reads are ON, and Hornbeam
is asked for the teardowns of the round. -/
def execSampleComplete (s : State) : Host.Outcome State Fault Refusal :=
  .next (match s.recov.current with
    | none => s
    | some h =>
      if brPhase s = 2 && (brArea s).2 != 0 && !sampleLate s && !(sampleSleeps s).isEmpty then
        each (sampleSleeps s) (fun u y => ownWake u y.1 y.2.1 y.2.2) s
      else if brPhase s = 2 then
        let s1 := if (brArea s).2 = 0 then report s (devPage 10) 0x0C0D else takeSample s h
        afterRound (setPhase (each s1.recov.round requestTeardown s1) 3)
      else s)

/-- Meaning of TEARDOWN (R374): orders 1–6 of a teardown that Hornbeam owes. -/
def execTeardown (c : CtxId) (s : State) : Host.Outcome State Fault Refusal :=
  .next (if s.recov.tdReq.contains c.val then
      let s1 := { s with recov := { s.recov with tdReq := s.recov.tdReq.erase c.val } }
      if tdState s c = 2 then s1
      else if tdState s c = 3 || tdState s c = 4 then afterRound (afterTorn s1 c)
      else tearDown s1 c (s.recov.guilty.contains c.val)
    else s)

/-- The port drain of a context is over: whether, and whether the fabric drain bound ended it (R375) (log entry 94, DEDUCED). -/
def drainOver (s : State) (c : Nat) (stop ep : Nat) : Bool × Bool :=
  if portsHold s c = 0 && stop + 10000 ≤ now s then (true, false)
  else if ep + rdF s (devReg 3 0x100) 15 8 * 25000 ≤ now s then (true, true)
  else (false, false)

/-- Meaning of TEARDOWN_DRAIN (R375, R376). -/
def execTeardownDrain (c : CtxId) (s : State) : Host.Outcome State Fault Refusal :=
  .next (match mapFind c s.recov.draining with
    | none => s
    | some d =>
      let o := drainOver s c d.1 d.2
      if tdState s c != 2 || !o.1 then s
      else
        let s1 := if o.2 then incSat (report s (devPage 10) 0x0C03 { ctx := some c }) (brReg 0x0A0) else s
        let s2 := setTdState { s1 with recov := { s1.recov with draining := mapErase c s1.recov.draining } } c 3
        let s3 := if s2.recov.round.contains c.val && !stepped s2 c then report s2 (devPage 10) 0x0C07 { ctx := some c } else s2
        afterRound (afterTorn s3 c))

/-- TD_CMD (R374, R376, R379): the step-commit block originates an ABORT for an open step. -/
def tdCmd (s : State) (c cmd : Nat) : State :=
  if cmd = 0 then s
  else if cmd = 1 || cmd = 2 then
    let s1 := if stepOpen s c then originate s c 5 false else s
    let s2 := if cmd = 2 then { s1 with recov := { s1.recov with released := if s1.recov.released.contains c then s1.recov.released else s1.recov.released ++ [c] } } else s1
    if tdState s2 c = 3 || tdState s2 c = 4 then afterTorn s2 c
    else if tdState s2 c = 2 || s2.recov.round.contains c then s2
    else requestTeardown s2 c
  else ignored s (devPage 10)

/-! ### Admission (R369, R372) -/

/-- Meaning of ADMISSION (R369): the next suspect, once its step is decided, is reopened by Hornbeam. -/
def execAdmission (c : CtxId) (s : State) : Host.Outcome State Fault Refusal :=
  .next (if brPhase s != 4 || (admitted s).isSome || s.recov.toAdmit.head? != some c.val then s
    else if csState s c = 5 then
      match csOpen s c true with
      | some u => setAdmitted { u with recov := { u.recov with toAdmit := u.recov.toAdmit.drop 1 } } (some c.val)
      | none => s
    else if csState s c = 0 || csState s c = 6 then
      let s1 := { s with recov := { s.recov with toAdmit := s.recov.toAdmit.drop 1 } }
      if s1.recov.toAdmit.isEmpty then endRecovery s1 else s1
    else s)

/-- The context under admission re-formed a hang (R372). -/
def findGuilty (s : State) (c : Nat) (h : Hang) : State :=
  let s1 := originate (report s (devPage 10) 0x0C05 { ctx := some c }) c 1 true
  let l := ascending (c :: h.members.map Prod.snd)
  let s2 := setPhase (setAdmitted (setSuspects s1 (suspects s1 ++ l)) none) 1
  { s2 with recov := { s2.recov with current := some h, round := l, anyGuilty := true, guilty := s2.recov.guilty ++ [c] } }

/-- Meaning of ADMISSION_END (R369, R372): a new hang, the first vote, or ISO_LIMIT. -/
def execAdmissionEnd (s : State) : Host.Outcome State Fault Refusal :=
  .next (match admitted s with
    | none => s
    | some c =>
      match s.recov.admHang with
      | some h => findGuilty s c h
      | none =>
        let a := attOf s c
        if !a.notices.isEmpty || a.voted || csState s c != 1 || s.recov.admitDt + rdF s (brReg 0x100) 32 16 * 100000 ≤ now s then
          let s1 := setAdmitted s none
          if s1.recov.toAdmit.isEmpty then endRecovery s1 else s1
        else s)

/-! ### ABORT at a member (R346, R380) -/

/-- DT of origination of an ABORT. -/
def originDt (p : Ctrl) : Nat := p.words.getD 2 0 + (p.words.getD 3 0 <<< 32)

/-- An ABORT applies to a context (R380). -/
def abortMatches (s : State) (p : Ctrl) (c : Nat) : Bool :=
  stepped s c && csState s c != 0 && ctxGroup s c == p.group && decide ((attOf s c).openDt < originDt p)

/-- An ABORT applied to a context at one tile (R346, R380); a tile that has voted, or in whose place its router
has answered (R377), only stops. -/
def abortCtx (p : Ctrl) (t : Nat) (s : State) (c : Nat) : State :=
  let fault := (p.words.getD 0 0).testBit 7
  if !(csState s c == 1 || csState s c == 2 || csState s c == 4) then s
  else
    let s1 := stopUnits c s t
    let member := inGroup s1 t (voteGroup s1 c) && t != 1
    let s2 := if member && !voteHeld s1 t c && !(attOf s1 c).notices.contains t then
        let f := match slotOfCtx s1 t c with | some r => (slotFlags s1 t r).testBit 1 | none => true
        tileVote (setEndHeld s1 t c false) t c false (f && !fault)
      else setVoteHeld s1 t c true
    let a := attOf s2 c
    if a.aborted then s2
    else
      let s3 := incWrap (setAtt s2 c { a with aborted := true, abortFault := fault }) (brReg 0x090) 1
      if csState s3 c = 1 && !a.voted then blockVote s3 c false (!fault) else s3

/-- An ABORT that matches no current attempt, counted once for the device (R380). -/
def abortIgnored (s : State) (p : Ctrl) : State :=
  let l := limitOnce s (limitKey 13 (p.group * 32768 + p.srcDev) 0) (originDt p)
  if l.1 then reportLimited (incSat l.2 (brReg 0x098)) (devPage 10) 0 0x0C08 (limitKey 14 0 0) (now s / 1000000)
  else s

/-- Meaning of ABORT_ARRIVAL (R380). -/
def execAbortArrival (t : TileId) (p : Ctrl) (s : State) : Host.Outcome State Fault Refusal :=
  .next (if p.type != 0x0E then s else match takeEjected s t (.ctrl p) with
    | none => s
    | some u =>
      let cs := (List.range 256).filter (abortMatches u p)
      if cs.isEmpty then abortIgnored u p else each cs (abortCtx p t) u)

end Sys2Proof.Machine
end

