-- ==== Sys2Proof/Machine/Reset.lean ====
section
/-! DEFINITION. Reset domains (R383–R385): clusters and partitions, warm and cold resets, and their completion; the
release of module reset (R36, R403). -/

namespace Sys2Proof.Machine

/-! ### Tiles (R383) -/

/-- A register key lies in a page of a tile other than its router's: the tile. -/
def tileOfKey (k : Nat) : Option Nat :=
  let a := k % regBankSize - regBase
  if regBase ≤ k % regBankSize && a < 4608 * 0x20000 && a / 0x1000 % 32 != 3 then some (a / 0x20000) else none

/-- A map without the keys that `key` assigns to tiles in a set. -/
def dropOf {α : Type} (key : Nat → Nat) (p : Nat → Bool) (m : NMap α) : NMap α := m.filter (fun e => !p (key e.1))

/-- Tiles return to their reset state: registers, stores, queues, accumulators, engines and tags; the words of their
scratchpads keep what they hold (log entry 112, DEDUCED). -/
def clearTiles (s : State) (p : Nat → Bool) : State :=
  let drop (n : Nat) (k : Nat) : Nat := k / n
  { s with
    regs := s.regs.filter (fun e => match tileOfKey e.1 with | some t => !p t | none => true)
    q := { s.q with
      store := dropOf (drop 8192) p s.q.store, cred := dropOf (drop 1024) p s.q.cred, threads := dropOf (drop 4) p s.q.threads
      sends := s.q.sends.filter (fun w => !p w.unit), nacks := s.q.nacks.filter (fun j => !p j.tile)
      revokes := s.q.revokes.filter (fun r => !p r.1), opens := s.q.opens.filter (fun o => !p o.tile)
      plan := s.q.plan.filter (fun g => !p g.tile), toOpen := s.q.toOpen.filter (fun x => !p x.2.1)
      readWait := dropOf (drop 256) p s.q.readWait }
    flow := { s.flow with
      acc := dropOf (drop 256) p s.flow.acc, acts := dropOf id p s.flow.acts, scr := dropOf id p s.flow.scr
      accIndex := dropOf (drop 256) p s.flow.accIndex, chans := dropOf (drop 4) p s.flow.chans
      steerCount := dropOf (drop 8) p s.flow.steerCount, steerWait := dropOf (drop 8) p s.flow.steerWait
      stops := dropOf id p s.flow.stops
      stopped := s.flow.stopped.filter (fun x => !p x.1), bufWrites := dropOf id p s.flow.bufWrites
      compatNs := dropOf (drop 32) p s.flow.compatNs, compatRead := dropOf (drop 16) p s.flow.compatRead
      compatSeen := dropOf (drop 16) p s.flow.compatSeen }
    pad := { s.pad with
      tags := dropOf (drop 0x20000) p s.pad.tags, flags := dropOf (drop 8) p s.pad.flags
      waiters := s.pad.waiters.filter (fun w => !p w.acc.tile), heldAcc := s.pad.heldAcc.filter (fun h => !p h.acc.tile)
      writeBacks := s.pad.writeBacks.filter (fun w => !p w.tile), wakeEnd := dropOf (drop 32) p s.pad.wakeEnd
      tagInit := s.pad.tagInit.filter (fun x => !p x.1), pass := dropOf id p s.pad.pass, passAt := dropOf id p s.pad.passAt }
    net := { s.net with comp := dropOf id p s.net.comp, inject := s.net.inject.filter (fun e => !(p e.1 && ofTile e.2))
                        ejected := s.net.ejected.filter (fun e => match e.2 with | .msg _ => !p e.1 | .red _ => !p e.1 | _ => true) }
    commit := { s.commit with held := dropOf (drop 256) p s.commit.held, endTok := dropOf (drop 256) p s.commit.endTok }
    boot := { s.boot with fw := dropOf (drop 64) p s.boot.fw } }

/-! ### Clusters (R383, R384) -/

/-- The tiles of clusters. -/
def tilesIn (ks : List Nat) : List Nat := ks.flatMap tilesOf

/-- Contexts resident in a domain are torn down, after ABORTs for their open steps (R384). -/
def tearResidents (s : State) (tiles : List Nat) : State :=
  each ((tiles.flatMap (residents s)).eraseDups) (fun u c => tearOnce (if stepOpen u c then originate u c 4 false else u) c false) s

/-- DEST_RESET of tiles' routers set or cleared (R229). -/
def setDestReset (s : State) (tiles : List Nat) (b : Bool) : State := each tiles (fun u t => wrB u (tileReg t 3 0x100) 0 b) s

/-- Clusters wake for a reset (R448). -/
def wakeNow (s : State) (ks : List Nat) : State :=
  each ks (fun u k =>
    let u1 := wrB (wrF u (clusterReg k 0x188) 0 2 0) (clusterReg k 0x188) 3 false
    { u1 with power := { u1.power with entering := mapErase k u1.power.entering, waking := mapErase k u1.power.waking, idle := mapErase k u1.power.idle } }) s

/-- The contexts that a reset of clusters tears down there, by cluster, until they are bound anew or the reset is complete
(R384). -/
def noteReset (s : State) (ks : List Nat) : State :=
  let l := ks.flatMap (fun k => (((tilesOf k).flatMap (residents s)).eraseDups).map (fun c => (k, c)))
  { s with recov := { s.recov with resetCtx := s.recov.resetCtx ++ l.filter (fun e => !s.recov.resetCtx.contains e) } }

/-- The tiles of clusters reset and held in reset; what waited in their routers for a wake is refused (R229, R383). -/
def resetClusters (s : State) (ks : List Nat) : State :=
  let tiles := tilesIn ks
  each tiles drainLocal
    (clearTiles (setDestReset (wakeNow (tearResidents (noteReset s ks) tiles) ks) tiles true) (fun t => ks.contains (clusterOf t)))

/-- Clusters reset whose firmware is then reloaded (R417); RESET_DONE follows. -/
def resetAndReload (s : State) (ks : List Nat) : State :=
  let s1 := resetClusters s ks
  reload { s1 with recov := { s1.recov with resetting := s1.recov.resetting ++ ks.filter (fun k => !s1.recov.resetting.contains k) } }
    ((tilesIn ks).filter (fun t => !tileFenced s1 t))

/-! ### The device (R383, R403) -/

/-- A register key lies in a cluster or device page that a warm reset resets; what stays are the pages of Privet, the
telemetry sampler's among them (R137), and of Hawthorn, three counters of the Hornbeam page (R427) and the straps of I3C_STAT. -/
def warmKey (k : Nat) : Bool :=
  let a := k % regBankSize
  let p := (a - regBase) / 0x1000
  regBase ≤ a && (match tileOfKey k with
    | some _ => true
    | none => 0x30000 ≤ p && p != 0x40000 && p != 0x40001 && p != 0x40002 && p != 0x40006 && p != 0x40008
      && a != hbReg 0x080 && a != hbReg 0x088 && a != hbReg 0x090 && a != devReg 15 0x108)

/-- The Gorbin port trains with its reset values before any firmware runs (R285, R305). -/
def gbFirst (s : State) : State := if rdB s (gbReg 0x100) 0 && gbState s = 0 then gbTrain s else s

/-- Bring-up begins at ROM (R403): BOOTS counts it. -/
def enterRom (s : State) : State := gbFirst (enterRomSec (incWrap (wrF s (hbReg 0x108) 0 4 0) (hbReg 0x080) 1))

/-- A channel whose contents a warm reset keeps: trained, and not fenced (R383). -/
def keepsContents (s : State) (h : Nat) : Bool := chState s h == 2 || chState s h == 3 || chState s h == 4

/-- Device warm reset (R383, R384): the world's packets in the routers, DT, the error log, the interrupt controller,
Hawthorn and LPDDR6 contents are kept. A shut-down test that it interrupts leaves no record (R438) (log entry 111, DEDUCED). -/
def warmReset (s : State) : State :=
  let s0 := tearResidents s ((List.range 4608).filter (fun t => !(residents s t).isEmpty))
  let s1 := if gbUp s0 then each (s0.gorbin.gw.filter (fun e => e.2.st == 3)) (fun u e => giveUp u e.1) s0 else s0
  let s2 := endSession (if rdF s1 (devReg 9 0x108) 0 3 = 4 then report s1 (devPage 9) 0x0F0A else s1) 4
  let s3 := each (List.range 14) (fun u p => if portRuns u p then linkLost u p 4 else u) s2
  let s4 := if gbUp s3 then gbLost s3 4 else s3
  let s5 := toSelfRefresh (each ((List.range 96).filter (fun h => chState s4 h == 3)) (fun u h => setChState u h 2) (clearTiles s4 (fun _ => true)))
  let r := State.reset
  let s6 := { s5 with
    regs := s5.regs.filter (fun e => !warmKey e.1)
    q := { r.q with gbSent := [] }, flow := r.flow, pad := r.pad, gorbin := r.gorbin, commit := r.commit
    recov := { r.recov with resetCmd := 3 }
    fabric := r.fabric
    dram := { r.dram with hashOut := s5.dram.hashOut, temp := s5.dram.temp, restTemp := s5.dram.restTemp }
    ufs := r.ufs, ckpt := r.ckpt, yew := r.yew, power := r.power, boot := r.boot }
  let s7 := each ((List.range 96).filter (keepsContents s5)) (fun u h => setChState u h 4) s6
  enterRom (wr s7 (devReg 10 0x188) (BitVec.ofNat 64 (place 1 3 3 + 1)))

/-- Device cold reset (R383, R403, R517): everything but the fuses returns to its reset state, LPDDR6 and scratchpad
contents become undefined, and UFS_RST_N is asserted. DT stands until the reset is released. -/
def coldReset (s : State) : State :=
  let r := State.reset
  let s1 := { r with pending := s.pending, free := s.free, out := s.out
                     sec := { r.sec with fuses := s.sec.fuses }
                     module := { r.module with rstLow := s.module.rstLow, supplyFault := s.module.supplyFault, overTemp := s.module.overTemp, ufsRst := true }
                     regs := s.regs.filter (fun e => e.1 == devReg 15 0x108) }
  emit (fillMem (fillMem (wrF s1 (devReg 15 0x108) 8 8 0) 0 0x6000000000 true) 0x010000000000 0x90000000 true) (.ufsReset true)

/-- Module reset is released (R36): DT starts at 0 and bring-up begins; UFS_RST_N rises. -/
def releaseReset (s : State) : State :=
  if s.time.held then
    let s1 := if s.module.ufsRst then emit { s with module := { s.module with ufsRst := false } } (.ufsReset false) else s
    enterRom { s1 with time := { dt := 0, slew := 0, servo := 0, phase := 0, held := false } }
  else s

/-- Meaning of MODULE_RESET_RELEASE (R36): unless a pin or a condition of R509 still holds the reset. -/
def execModuleResetRelease (s : State) : Host.Outcome State Fault Refusal :=
  .next (if s.module.rstLow || s.module.supplyFault || s.module.overTemp then s else releaseReset s)

/-! ### RST_CMD (R383–R386) -/

/-- RST_STAT.BUSY. -/
def rstBusy (s : State) : Bool := rdB s (devReg 10 0x188) 0

/-- Clusters set in RST_PART. -/
def rstPart (s : State) : List Nat := (List.range 320).filter (fun k => rdB s (devReg 10 (0x1C0 + 8 * (k / 64))) (k % 64))

/-- A cluster or partition reset accepted. -/
def startReset (s : State) (cmd : Nat) (ks : List Nat) : State :=
  let s1 := resetAndReload s ks
  wr { s1 with recov := { s1.recov with resetCmd := cmd } } (devReg 10 0x188) (BitVec.ofNat 64 (place 1 3 cmd + 1))

/-- A reset command refused (R385). -/
def rstRefused (s : State) : State := reportB s (devPage 10) 8 0x0C0C

/-- The effect of a write of RST_CMD. -/
def rstCmd (s : State) (cmd cluster : Nat) : State :=
  if cmd = 0 then s
  else if rstBusy s then rstRefused s
  else match cmd with
    | 1 => if cluster < 288 then startReset s 1 [cluster] else rstRefused s
    | 2 => if (rstPart s).isEmpty || (rstPart s).any (fun k => 288 ≤ k) then rstRefused s else startReset s 2 (rstPart s)
    | 3 => warmReset s
    | 4 => coldReset s
    | _ => rstRefused s

/-- The resetting domain is ready: its tiles hold their firmware, or the device, warm (3) or cold (4), declared ready. -/
def resetReady (s : State) : Bool :=
  if s.recov.resetCmd = 3 || s.recov.resetCmd = 4 then hbReady s
  else !s.recov.resetting.isEmpty && s.boot.refill.isEmpty && (tilesIn s.recov.resetting).all (fwReady s)

/-- Tiles whose reset completes: those of the clusters, or after a reset of the device every one held in reset before it
(R230). -/
def resetTiles (s : State) : List Nat :=
  if s.recov.resetCmd = 3 || s.recov.resetCmd = 4 then (List.range 4608).filter (tileInReset s) else tilesIn s.recov.resetting

/-- Meaning of RESET_DONE (R230, R384): DEST_RESET is cleared, a record is written and source 373 raised. -/
def execResetDone (s : State) : Host.Outcome State Fault Refusal :=
  .next (if resetReady s then
      let s1 := setDestReset s (resetTiles s) false
      let s2 := wrB { s1 with recov := { s1.recov with
        resetting := [], resetCmd := 0, resetCtx := s1.recov.resetCtx.filter (fun e => !s1.recov.resetting.contains e.1) } } (devReg 10 0x188) 0 false
      raise (report s2 (devPage 10) 0x0C0B { detail := [s.recov.resetCmd] }) 373
    else s)

end Sys2Proof.Machine
end

