-- ==== Sys2Proof/Machine/Privet.lean ====
section
/-! DEFINITION. What the always-on rail keeps: the error log (R318–R320), Device Time (R36, R321), the interrupt
controller (R323–R329) and the pace sensors (R28–R31). -/

namespace Sys2Proof.Machine

/-! ### The error log (R316–R320) -/

/-- A register of the error log page. -/
def logReg (off : Nat) : Nat := devReg 1 off
/-- LOG_STAT.UNREAD. -/
def logUnread (s : State) : Nat := rdF s (logReg 0x108) 16 13
/-- UNREAD is at or above a non-zero THRESH (R328). -/
def logHigh (s : State) : Bool := rdF s (logReg 0x100) 16 12 != 0 && rdF s (logReg 0x100) 16 12 ≤ logUnread s

/-- The words of a record (R316). -/
def recordWords (r : Record) : List Nat :=
  [ place 16 16 r.code + place 15 1 (bit01 r.ctxValid) + place 14 1 (bit01 r.clean), r.seq % 2 ^ 32
  , r.dt % 2 ^ 32, r.dt / 2 ^ 32 % 2 ^ 32, r.endpoint % 2 ^ 32, place 12 16 r.ctxEpoch + place 4 8 r.context + r.endpoint / 2 ^ 32 % 16
  , place 16 16 r.stepTag, r.page % 2 ^ 20 ] ++ (List.range 8).map (fun i => r.detail.getD i 0 % 2 ^ 32)

/-- UNREAD set, with the events of sources 288 and 289 when their conditions become true. -/
def setUnread (s : State) (n : Nat) : State :=
  let s1 := wrF s (logReg 0x108) 16 13 n
  let s2 := if logUnread s = 0 && n != 0 then raise s1 288 else s1
  if logHigh s2 && !logHigh s then raise s2 289 else s2

/-- A record stored at WRITE with the next SEQ. -/
def logStore (s : State) (r : Record) : State :=
  let w := rdF s (logReg 0x108) 0 12
  let s1 := { s with log := { s.log with ring := mapInsert w { r with seq := s.log.seq } (mapErase w s.log.ring), seq := (s.log.seq + 1) % 2 ^ 32 } }
  wrF (incWrap s1 (logReg 0x080) 1) (logReg 0x108) 0 12 ((w + 1) % 4096)

/-- A record reaches the log (R319): a full ring overwrites its oldest record, or with HOLD drops the new one. -/
def logTake (s : State) (r : Record) : State :=
  if logUnread s < 4096 then setUnread (logStore s r) (logUnread s + 1)
  else if rdB s (logReg 0x100) 0 then logOverflow s
  else logOverflow (wrF (logStore s r) (logReg 0x110) 0 12 ((rdF s (logReg 0x110) 0 12 + 1) % 4096))

/-- A collector passed a record less than 4 ns ago (R318). -/
def collectorRests (s : State) (k : Nat) : Bool :=
  let p := mapGet (fun _ => 0) s.log.passed k
  p != 0 && p ≤ now s + 1 && now s + 1 < p + 4

/-- Meaning of RECORD_LOG_ENTRY (R318): a collector (288: the I/O ring's) passes its oldest record to the log, at most one in
4 ns. -/
def execRecordLogEntry (k : Fin 289) (s : State) : Host.Outcome State Fault Refusal :=
  .next (match mapGet (fun _ => []) s.log.coll k with
    | [] => s
    | r :: rs =>
      if collectorRests s k then s
      else logTake { s with log := { s.log with coll := mapPut (fun _ => []) s.log.coll k rs, passed := mapPut (fun _ => 0) s.log.passed k (now s + 1) } } r)

/-- The effect of a write of LOG_READ (R320): READ advances, or a write past WRITE is ignored. -/
def logReadWrite (s : State) (v : Nat) : State :=
  let adv := (v % 4096 + 4096 - rdF s (logReg 0x110) 0 12) % 4096
  if logUnread s < adv then ignored s (devPage 1)
  else setUnread (wrF s (logReg 0x110) 0 12 (v % 4096)) (logUnread s - adv)

/-- A read of LOG_REC_0 snapshots the record at LOG_READ.INDEX (R320). -/
def logSnap (s : State) : State :=
  { s with log := { s.log with snap := match mapFind (rdF s (logReg 0x110) 0 12) s.log.ring with | some r => recordWords r | none => [] } }

/-- LOG_REC_j of the snapshot. -/
def logRec (s : State) (j : Nat) : W64 := BitVec.ofNat 64 (s.log.snap.getD (2 * j) 0 + (s.log.snap.getD (2 * j + 1) 0 <<< 32))

/-! ### Device Time (R36, R321) -/

/-- The effect of a write of TB_SET: DT is set before ready; afterwards the write is ignored. -/
def tbSet (s : State) (v : W64) : State :=
  if hbReady s then reportB s (devPage 2) 8 0x0A06
  else
    let s1 := { s with time := { s.time with dt := v } }
    if s1.boot.bootArg.isSome then s1
    else wrB { s1 with boot := { s1.boot with tbSet := true } } (hbReg 0x108) 8 true

/-- The effect of a write of TB_ADJ: a signed correction is slewed; it adds to one in progress (log entry 68, DEDUCED). -/
def tbAdj (s : State) (v : W64) : State :=
  let c := s.time.slew + v.toInt
  { s with time := { s.time with slew := c, phase := 0 } }

/-- TB_STAT: SLEWING shows from the write until SLEW_COMPLETE. -/
def tbStat (s : State) : W64 := if s.time.slew != 0 || rdB s (devReg 2 0x118) 0 then 1 else 0

/-- A write of TB_ADJ with SLEWING set. -/
def tbAdjWrite (s : State) (v : W64) : State := wrB (tbAdj s v) (devReg 2 0x118) 0 true

/-- Meaning of SLEW_COMPLETE (R36). -/
def execSlewComplete (s : State) : Host.Outcome State Fault Refusal :=
  .next (if s.time.slew = 0 then wrB s (devReg 2 0x118) 0 false else s)

/-- The rate correction of FX_RATE, in 2⁻⁴⁰ ns per ns (R256, R263). -/
def rateOf (s : State) : Int := signedOf 32 (rdF s (devReg 3 0x138) 0 32)

/-- One nanosecond of reference time (R35, R36, R256): the servo's part grows by the rate; while a correction or a whole
nanosecond of it remains, every 1,000th moves DT by 2 or 0. -/
def tickTime (s : State) : State :=
  let owed := s.time.servo + rateOf s
  let one : Int := 2 ^ 40
  let due : Int := if s.time.slew != 0 then s.time.slew else if one ≤ owed then 1 else if owed ≤ -one then -1 else 0
  let sign : Int := if 0 < due then 1 else -1
  if s.time.held then s
  else if due = 0 then { s with time := { s.time with dt := s.time.dt + 1, servo := owed } }
  else if s.time.phase < 999 then { s with time := { s.time with dt := s.time.dt + 1, servo := owed, phase := s.time.phase + 1 } }
  else
    { s with time := { s.time with
      dt := if 0 < due then s.time.dt + 2 else s.time.dt
      phase := 0
      slew := if s.time.slew != 0 then s.time.slew - sign else 0
      servo := if s.time.slew != 0 then owed else owed - sign * one } }

/-! ### The interrupt controller (R323–R329) -/

/-- A register of the interrupt controller page. -/
def icReg (off : Nat) : Nat := devReg 0 off

/-- Level sources (R328). -/
def isLevel (n : Nat) : Bool :=
  n ≤ 289 || (291 ≤ n && n ≤ 304) || n == 308 || (320 ≤ n && n ≤ 333) || (336 ≤ n && n ≤ 359)
    || n == 369 || n == 370 || n == 372 || n == 374 || n == 377 || n == 379 || n == 381

/-- The device waits for HB_CMD BOOT, in TOPOLOGY, or is HALTED (R405). -/
def bootWaits (s : State) : Bool :=
  !s.time.held && ((hbPhase s == 2 && s.boot.bootArg.isNone) || hbPhase s == 7 || hbPhase s == 10)

/-- A tfs/1 item waits to be read (R359). -/
def tfsPending (s : State) : Bool := rdF s (devReg 11 0x118) 0 16 != rdF s (devReg 11 0x120) 0 16

/-- Some cluster's or the device's voltage offset is non-zero (R459). -/
def throttled (s : State) : Bool :=
  rdF s (devReg 13 0x108) 8 8 != 0 || (List.range 288).any (fun c => rdF s (clusterReg c 0x188) 40 8 != 0)

/-- Some owned stream's CK_DUE stands (R391). -/
def dueNow (s : State) : Bool := s.ckpt.streams.any (fun e => e.2.due)

/-- The condition of a level source (R328). -/
def levelCond (s : State) (n : Nat) : Bool :=
  if n = 288 then logUnread s != 0
  else if n = 289 then logHigh s
  else if n = 304 then (List.range 64).any (fun m => rd s (devReg 5 (0x400 + 8 * m)) != 0)
  else if n = 369 then inDoubtAny s
  else if n = 370 then tfsPending s
  else if n = 372 then unplaceableAny s
  else if n = 374 then dueNow s
  else if n = 377 then bootWaits s
  else if n = 379 then rdB s (devReg 9 0x118) 63
  else if n = 381 then throttled s
  else errCond s n

/-- A source is enabled on a target. -/
def icEnabled (s : State) (t n : Nat) : Bool := rdB s (icReg (0x200 + 0x40 * t + 8 * (n / 64))) (n % 64)
/-- A target's condition (R324). -/
def icWants (s : State) (t : Nat) : Bool := (List.range 512).any (fun n => s.irq.pres.getLsbD n && icEnabled s t n)

/-- A rise of a target (R304, R329). -/
def icRise (s : State) (t : Nat) : State :=
  let s1 := incWrap { s with irq := { s.irq with target := mapPut (fun _ => false) s.irq.target t true } } (icReg (0x080 + 8 * t)) 1
  if t < 3 then
    let a := rd s1 (devReg 5 (0x180 + 0x10 * t))
    if bitOf a 63 && gbUp s1 then
      msiSend s1 t (fieldOf a 2 45 * 4) (bytesOf 4 (rdF s1 (devReg 5 (0x188 + 0x10 * t)) 0 32))
    else s1
  else s1

/-- Targets evaluated: they rise or fall (R324). -/
def icEval (s : State) : State :=
  each (List.range 4) (fun u t =>
    let on := mapGet (fun _ => false) u.irq.target t
    if icWants u t then (if on then u else icRise u t)
    else { u with irq := { u.irq with target := mapPut (fun _ => false) u.irq.target t false } }) s

/-- The hold-off window of a group opens at DT `t` (R327). -/
def icHold (s : State) (g t : Nat) : State :=
  let h := rdF s (icReg (0x400 + 8 * g)) 0 16
  if h = 0 then s
  else
    wrB { s with irq := { s.irq with holdEnd := mapPut (fun _ => 0) s.irq.holdEnd g (t + h * 1000), duringHold := mapPut (fun _ => false) s.irq.duringHold g false } }
      (icReg (0x400 + 8 * g)) 16 true

/-- A group's window ends once DT has reached its end (R8, R327): its pending sources are presented, and a new window opens at
that end when one became pending in it (log entry 66, DEDUCED). -/
def holdEnds (s : State) (g : Nat) : State :=
  let e := mapGet (fun _ => 0) s.irq.holdEnd g
  if e = 0 || now s < e then s
  else
    let l := ((List.range 16).map (fun i => 16 * g + i)).filter (fun n => s.irq.pend.getLsbD n)
    let s1 := wrB { s with irq := { s.irq with holdEnd := mapPut (fun _ => 0) s.irq.holdEnd g 0
                                               duringHold := mapPut (fun _ => false) s.irq.duringHold g false
                                               pres := l.foldl (fun p n => p ||| BitVec.ofNat 512 (2 ^ n)) s.irq.pres } } (icReg (0x400 + 8 * g)) 16 false
    if mapGet (fun _ => false) s.irq.duringHold g then icHold s1 g e else s1

/-- A source becomes pending: presented, unless its group holds (R324, R327); windows over by now have ended before it (R8). -/
def icPend (s0 : State) (n : Nat) : State :=
  let g := n / 16
  let s := holdEnds (holdEnds s0 g) g
  if s.irq.pend.getLsbD n then s
  else
    let s1 := { s with irq := { s.irq with pend := s.irq.pend ||| BitVec.ofNat 512 (2 ^ n) } }
    if mapGet (fun _ => 0) s.irq.holdEnd g != 0 then
      { s1 with irq := { s1.irq with duringHold := mapPut (fun _ => false) s1.irq.duringHold g true } }
    else icHold { s1 with irq := { s1.irq with pres := s1.irq.pres ||| BitVec.ofNat 512 (2 ^ n) } } g (now s)

/-- A source's pending bit cleared. -/
def icClear (s : State) (n : Nat) : State :=
  { s with irq := { s.irq with pend := s.irq.pend &&& ~~~(BitVec.ofNat 512 (2 ^ n)), pres := s.irq.pres &&& ~~~(BitVec.ofNat 512 (2 ^ n)) } }

/-- Meaning of INTERRUPT_EVENT (R323): an event of a source reaches the controller. -/
def execInterruptEvent (n : SourceId) (s : State) : Host.Outcome State Fault Refusal :=
  .next (if s.irq.events.contains n.val then
      icEval (icPend { s with irq := { s.irq with events := s.irq.events.erase n.val } } n)
    else s)

/-- The effect of a write of IC_DONE_t (R325). -/
def icDone (s : State) (t g mask : Nat) : State :=
  let l := ((List.range 16).filter (fun i => mask.testBit i)).map (fun i => 16 * g + i)
  let s1 := each l (fun u n => let u1 := icClear u n; if isLevel n && levelCond u1 n then icPend u1 n else u1) s
  icEval { s1 with irq := { s1.irq with target := mapPut (fun _ => false) s1.irq.target t false } }

/-- The effect of a write of IC_SW_6 or IC_SW_7 (R328). -/
def icSw (s : State) (m : Nat) (v : W64) : State := each ((List.range 64).filter (bitOf v)) (fun u i => raise u (64 * m + i)) s

/-- Meaning of HOLDOFF_END (R327): the group's pending sources are presented, and a new window opens when one became
pending during the last. -/
def execHoldoffEnd (g : Fin 32) (s : State) : Host.Outcome State Fault Refusal := .next (icEval (holdEnds s g))

/-- IC_PEND_m. -/
def icPendReg (s : State) (m : Nat) : W64 := (s.irq.pend >>> (64 * m)).truncate 64
/-- IC_KIND_m. -/
def icKindReg (m : Nat) : W64 := BitVec.ofNat 64 (((List.range 64).filter (fun i => isLevel (64 * m + i))).foldl (fun a i => a + 2 ^ i) 0)
/-- IC_FIRST_t (R324). -/
def icFirstReg (s : State) (t : Nat) : W64 :=
  match (List.range 512).find? (fun n => s.irq.pres.getLsbD n && icEnabled s t n) with
  | some n => BitVec.ofNat 64 (2 ^ 15 + n)
  | none => 0

/-! ### Pace sensors (R28–R31, R446) -/

/-- Nanoseconds of an hour. -/
def hourNs : Nat := 3600000000000

/-- The statistics of an hour and cluster as they begin (R443). -/
def freshHour : HourStat := { sum := 0, count := 0, low := 0xFFFFF, hot := -273, trips := 0, passed := false, failed := false }
/-- The statistics of the window [k h, (k + 1) h) for a cluster (R8, R443). -/
def hourOf (s : State) (k c : Nat) : HourStat := mapGet (fun _ => freshHour) s.yew.hour (k * 512 + c)
/-- The statistics of an hour set. -/
def setHour (s : State) (k c : Nat) (h : HourStat) : State :=
  { s with yew := { s.yew with hour := mapPut (fun _ => freshHour) s.yew.hour (k * 512 + c) h } }
/-- What is recorded now counts in the hour that holds DT (R37). -/
def noteHour (s : State) (c : Nat) (f : HourStat → HourStat) : State := setHour s (now s / hourNs) c (f (hourOf s (now s / hourNs) c))

/-- Record 0x1001 for a pace below its non-zero floor (R31). -/
def paceLow (s : State) (c pace floor which : Nat) : State :=
  if floor != 0 && pace < floor then report s (clusterPage c) 0x1001 { detail := [which, pace] } else s

/-- The pace window that has ended last: [k × 1,000 ns, (k + 1) × 1,000 ns) for k one less than this (R28). -/
def paceWindow (s : State) : Nat := now s / 1000

/-- The sensor's counts for the window `k` (R28, R30, R443): a cluster in C2 or C3 shows a tile pace of 0. -/
def publishPace (s : State) (c k tile router : Nat) : State :=
  let p := if 2 ≤ clusterPower s c then 0 else tile
  let e := clusterReg c 0x108
  let hr := k * 1000 / hourNs
  let h := hourOf s hr c
  let s1 := wr s (clusterReg c 0x100) (BitVec.ofNat 64 (place 40 20 router + place 20 20 p + k % 2 ^ 20))
  let s2 := wrF (wrF (wrF s1 e 40 20 (max (rdF s e 40 20) p)) e 20 20 (min (rdF s e 20 20) p)) e 0 20 (min (rdF s e 0 20 + 1) 0xFFFFF)
  let s3 := setHour s2 hr c { h with sum := h.sum + p, count := h.count + 1, low := min h.low p }
  paceLow (paceLow s3 c p (rdF s (clusterReg c 0x110) 0 20) 0) c router (rdF s (clusterReg c 0x110) 20 20) 1

/-- Meaning of PACE_WINDOW_END (R28, R30, R31): the window that has ended last is published, once. -/
def execPaceWindowEnd (c : ClusterId) (tile router : Fin 1048576) (s : State) : Host.Outcome State Fault Refusal :=
  let k := paceWindow s
  .next (if k = 0 || mapGet (fun _ => 0) s.yew.paced c = k then s
    else publishPace { s with yew := { s.yew with paced := mapPut (fun _ => 0) s.yew.paced c k } } c (k - 1) tile router)

/-- PW_HALF (R462): each half's mean TILE_PACE. -/
def paceHalf (s : State) : W64 :=
  let mean (h : Nat) : Nat := ((List.range 144).map (fun i => rdF s (clusterReg (144 * h + i) 0x100) 20 20)).sum / 144
  BitVec.ofNat 64 (place 20 20 (mean 1) + mean 0 % 2 ^ 20)

end Sys2Proof.Machine
end

