-- ==== Sys2Proof/Machine/Boot.lean ====
section
/-! DEFINITION. Bring-up from ROM to FIRMWARE (R403–R417, R421, R423, R424, R474–R477). -/

namespace Sys2Proof.Machine

/-- A phase of bring-up entered (R403). -/
def toPhase (s : State) (p : Nat) : State :=
  wrF { s with boot := { s.boot with step := 0 } } (hbReg 0x108) 0 4 p

/-- The next step within a phase. -/
def atStep (s : State) (n : Nat) : State := { s with boot := { s.boot with step := n } }

/-- The event of source 377 when the device begins to wait (R405). -/
def noteWait (before after : State) : State :=
  if bootWaits after && !bootWaits before then raise after 377 else after

/-- HALTED (R403). -/
def halt (s : State) : State := toPhase s 10

/-! ### ROM (R406, R410, R474–R477) -/

/-- GORBIN_WAIT (R305, R403). -/
def romWait (s : State) : State := setBoot (toPhase s 1) 1

/-- The flash image is missing or bad (R410) (log entry 116, DEDUCED). -/
def imageBad (s : State) (detail : List Nat) : State := romWait (report s (devPage 7) 0x0E01 { detail := detail })

/-- Entries of a flash directory block (R406). -/
def dirEntries (b : List Byte) : List (Nat × Nat × Nat × Nat) :=
  ((List.range 255).map (fun i =>
    let e := (b.drop (8 + 16 * i)).take 16
    (natOfBytes (e.take 1), natOfBytes ((e.drop 1).take 1), natOfBytes ((e.drop 2).take 6), natOfBytes ((e.drop 8).take 4)))).filter
    (fun e => 1 ≤ e.1 && e.1 ≤ 4)

/-- A block ends in the CRC-64 of what precedes it. -/
def crcHolds (b : List Byte) : Bool := natOfBytes (b.drop (b.length - 8)) == crc64 (b.take (b.length - 8))

/-- The flash directory was read, or is missing (R406). -/
def dirDone (s : State) (ok : Bool) (b : List Byte) : State :=
  if ok && b.length = 4096 && natOfBytes (b.take 8) = 0x3152494446_4B4454 && crcHolds b then
    wrB (atStep { s with ufs := { s.ufs with dir := dirEntries b } } 2) (ufsReg 0x108) 8 true
  else atStep (report s (devPage 7) 0x0E03) 2

/-- The image was read from flash, or could not be. -/
def imageDone (s : State) (ok : Bool) (data : List Byte) : State :=
  if hbPhase s != 0 then s
  else if ok then atStep { s with boot := { s.boot with img := data } } 4 else imageBad s []

/-- VERSION of the image (R409). -/
def imgVersion (s : State) : Nat := imgNat s 8 4
/-- Header and hash list of the image, which are signed and measured. -/
def imgHead (s : State) : List Byte := s.boot.img.take (4096 * (1 + hashBlocks s))
/-- Chunks of the whole image. -/
def allChunks (s : State) : Nat := chunkCount s 0 + tileChunks s

/-- The image passes R410 and R476: magic, counts, length, signature, rollback, and the hash of every Hornbeam chunk. -/
def imageGood (s : State) : Bool :=
  imgNat s 0 8 == 0x314D4957464B4454
    && decide (chunkCount s 0 ≤ 1024) && decide (((List.range 4).map (fun i => chunkCount s (i + 1))).sum ≤ 64)
    && decide (chunkOff s (allChunks s) + 29792 ≤ s.boot.img.length)
    && Config.verify 1 (imgHead s ++ (s.boot.img.drop (chunkOff s (allChunks s))).take 29792)
    && decide (s.sec.fuses.minEpoch ≤ imgVersion s / 2 ^ 24)
    && (List.range (chunkCount s 0)).all (fun i => Config.shake256 ((s.boot.img.drop (chunkOff s i)).take 4096) 32 == hashAt s i)

/-- The verified image is measured and its security epoch shown (R476, R477). -/
def imageTaken (s : State) : State :=
  setBoot (atStep (wrF (extendMr s 1 (bytesOf 32 (Config.shake256 (imgHead s) 32))) (hwReg 0x100) 32 8 (imgVersion s / 2 ^ 24)) 5) 0

/-- MR0 (R477). -/
def measureRom (s : State) : State := extendMr s 0 (bytesOf 1 (lifeCycle s) ++ bytesOf 1 s.sec.fuses.minEpoch ++ bytesOf 4 Config.romVersion)

/-- Reads of every block of the fence log (R411). -/
def readLog (s : State) : State :=
  match dirEntry s 3 with
  | some d => each (List.range d.2.2) (fun u i => ufsRead u d.1 (d.2.1 + i) 1 (.fenceLoad i)) { s with boot := { s.boot with logBlocks := [] } }
  | none => s

/-- A user of flash commands still waits for some. -/
def ufsAwaits (s : State) (p : UfsUser → Bool) : Bool := s.ufs.cmds.any (fun x => p x.user)

/-- Reads of the fence log are outstanding. -/
def logAwaited (s : State) : Bool := ufsAwaits s (fun u => match u with | .fenceLoad _ => true | _ => false)

/-- A block of the fence log was read (R411): one that fails its CRC, or cannot be read, is skipped with a record (log entry 119, DEDUCED). -/
def logDone (s : State) (i : Nat) (ok : Bool) (b : List Byte) : State :=
  if !ok || b.length != 4096 || !crcHolds b then report s (devPage 7) 0x0E04 { detail := [i] }
  else if natOfBytes (b.take 8) != 0x31474F4C464B4454 then s
  else
    let n := min 509 (natOfBytes ((b.drop 12).take 2))
    let l := (List.range n).map (fun k => natOfBytes ((b.drop (16 + 8 * k)).take 8))
    { s with boot := { s.boot with logBlocks := mapInsert i (natOfBytes ((b.drop 8).take 4) :: l) (mapErase i s.boot.logBlocks) } }

/-- The repair map in load order (R411): fuse map, then the blocks of the log. -/
def repairMap (s : State) : List Nat := s.sec.fuses.map ++ s.boot.logBlocks.flatMap (fun e => e.2.drop 1)

/-- Channels out of reach of a wipe. -/
def outOfReach (s : State) : List Nat :=
  ascending (s.dram.hashOut ++ (List.range 96).filter (channelFenced s) ++ ((repairMap s).filter (fun e => feKind e == 4 && feOk e)).map feUnit)

/-- The wipe of R474 and R475 (log entry 120, DEDUCED). -/
def wipe (s : State) : State :=
  let s1 := clearTiles s (fun _ => true)
  let s2 := { s1 with
    net := { s1.net with comb := s1.net.comb.filter (fun e => 4608 ≤ e.1), comp := [] }
    q := { s1.q with cred := [] }
    gorbin := { s1.gorbin with dir := [], gw := [], gwFail := [] } }
  let s3 := fillMem (fillMem (wrF s2 (gbReg 0x108) 22 21 0) 0 0x6000000000 false) 0x010000000000 0x90000000 false
  let out := outOfReach s
  let s4 := if out.isEmpty then s3
    else report (wrB s3 (hwReg 0x100) 16 true) (devPage 8) 0x1109 { detail := (List.range 3).map (fun k => (out.filter (fun h => h / 32 == k)).foldl (fun a h => a + 2 ^ (h % 32)) 0) }
  wrB s4 (hwReg 0x100) 15 false

/-- The ROM's last steps (R475): a wipe in RETURNED or END; then Hornbeam starts, or END halts. -/
def romEnd (s : State) : State :=
  if lifeCycle s < 4 then toPhase s 2
  else if s.boot.step = 5 then atStep (readLog (wrB s (hwReg 0x100) 15 true)) 6
  else if logAwaited s then s
  else if lifeCycle s = 5 then halt (wipe s)
  else toPhase (wipe s) 2

/-- One step of the ROM in phase ROM or GORBIN_WAIT (log entry 125, DEDUCED). -/
def romStep (s : State) : State :=
  if hbPhase s = 0 then
    match s.boot.step with
    | 0 => atStep (ufsRead (measureRom s) 0 0 1 .directory) 1
    | 2 =>
      if rdB s (devReg 15 0x108) 4 then romWait s
      else match dirEntry s 1 with
        | some d => atStep (ufsRead s d.1 d.2.1 d.2.2 (.image 0)) 3
        | none => imageBad s []
    | 4 => if imageGood s then imageTaken s else imageBad s [imgVersion s / 2 ^ 24]
    | 5 => romEnd s
    | 6 => romEnd s
    | _ => s
  else if 5 ≤ s.boot.step then romEnd s
  else if rdF s (gbReg 0x168) 0 2 = 2 && rdF s (gbReg 0x178) 0 32 ≤ s.gorbin.bootImg.length then
    let s1 := { s with boot := { s.boot with img := s.gorbin.bootImg } }
    if imageGood s1 then imageTaken s1 else bootRejected s1
  else s

/-- Meaning of ROM_PHASE (R410). -/
def execRomPhase (s : State) : Host.Outcome State Fault Refusal :=
  .next (if !s.time.held && hbPhase s ≤ 1 then noteWait s (romStep s) else s)

/-! ### START (R421, R423, R424) -/

/-- A number of the topology statement. -/
def stmtNat (b : List Byte) (off n : Nat) : Nat := natOfBytes ((b.drop off).take n)
/-- Port entry of the statement. -/
def stmtPort (b : List Byte) (p : Nat) : Nat := stmtNat b (32 + 8 * p) 8

/-- The key that topology statements are signed with, and its public key where it is the owner's (R467). -/
def stmtSigned (s : State) (b : List Byte) : Bool :=
  if lifeCycle s = 2 || lifeCycle s = 3 then (match s.sec.fuses.ownerKey with | some k => Config.verify 4 (k ++ b) | none => false)
  else Config.verify 2 b

/-- The statement passes R421 (log entry 114, DEDUCED). -/
def stmtGood (s : State) (b : List Byte) : Bool :=
  stmtNat b 0 8 == 0x314F504F544B4454 && stmtSigned s b && stmtNat b 8 16 == Config.serial % 2 ^ 128
    && !(stmtNat b 24 2).testBit 15 && stmtNat b 26 1 / 2 == 0 && stmtNat b 144 16 == 0
    && (List.range 14).all (fun p => fieldNat (stmtPort b p) 24 19 == 0 && fieldNat (stmtPort b p) 62 2 != 3)

/-- What the statement says is set up before LINKS (R421). -/
def stmtApply (s : State) (b : List Byte) : State :=
  let s1 := wrG s (devReg 3 0x100) (place 15 8 (stmtNat b 31 1) + stmtNat b 24 2 % 2 ^ 15)
  let s2 := wr s1 (devReg 3 0x128) (BitVec.ofNat 64 (place 12 4 (stmtNat b 27 1 / 16) + place 8 4 (stmtNat b 27 1) + place 1 1 (stmtNat b 26 1) + 1))
  { s2 with boot := { s2.boot with stmt := b } }

/-- A licence passes R424: signature, serial, variant and reserved bytes. -/
def licGood (b : List Byte) : Bool :=
  decide (29856 ≤ b.length) && stmtNat b 0 8 == 0x31304349_4C4B4454 && Config.verify 3 (b.take 29856)
    && stmtNat b 8 16 == Config.serial % 2 ^ 128 && decide (1 ≤ stmtNat b 24 1) && decide (stmtNat b 24 1 ≤ 3)
    && stmtNat b 25 7 == 0 && stmtNat b 56 8 == 0

/-- The fields of a licence (R423). -/
def licOf (b : List Byte) : Licence :=
  { variant := stmtNat b 24 1, number := stmtNat b 32 8, notBefore := stmtNat b 40 8, notAfter := stmtNat b 48 8 }

/-- Ports that a variant enables (R235). -/
def variantPorts (v : Nat) : List Nat :=
  if v = 1 then List.range 14 else if v = 2 then [0, 1, 2, 3, 4, 7, 8, 9, 10, 11] else [0, 1, 2, 7, 8, 9]

/-- The features of a variant take effect (R424). -/
def setVariant (s : State) (v : Nat) : State :=
  each (List.range 14) (fun u p => wrB u (pxReg p 0x108) 3 ((variantPorts v).contains p)) (wrF s (hbReg 0x108) 10 2 v)

/-- The licence area was read, or could not be. -/
def licenceDone (s : State) (ok : Bool) (b : List Byte) : State :=
  { s with boot := { s.boot with lic := some (if ok then b else []) } }

/-- The licence read is accepted or refused (R424); MR2 (R477). -/
def takeLicence (s : State) (b : List Byte) : State :=
  if licGood b then
    let l := licOf b
    let s1 := extendMr { s with boot := { s.boot with licence := some l } } 2 (bytesOf 32 (Config.shake256 (b.take 64) 32))
    wr (wrB (setVariant s1 l.variant) (hbReg 0x108) 9 true) (hbReg 0x148) (BitVec.ofNat 64 l.notAfter)
  else setVariant (extendMr s 2 (List.replicate 32 0)) 3

/-- A topology statement that fails: record 0x0E0B and HALTED. -/
def stmtBad (s : State) : State := halt (report s (devPage 7) 0x0E0B)

/-- What the root does with the statement read, or with the answer that it cannot be (log entry 113, DEDUCED) (log entry 117, DEDUCED). -/
def stmtRead (r : GwRes × State) : State :=
  match r.1 with
  | .wait => r.2
  | .fail _ => stmtBad r.2
  | .ok b =>
    let s1 := extendMr r.2 3 (bytesOf 32 (Config.shake256 (b.take 160) 32))
    if stmtGood s1 b then atStep (stmtApply s1 b) 1 else stmtBad s1

/-- The statement is read through the gateway cache, measured and checked. -/
def readStmt (s : State) (arg : Nat) : State :=
  if 0x1000000000000 < hostBase + arg % 2 ^ 47 + 29952 then stmtBad s
  else stmtRead (gwAccess s (hostBase + arg % 2 ^ 47) 29952 none)

/-- One step of START. -/
def startStep (s : State) : State :=
  match s.boot.step, s.boot.bootArg with
  | 0, some a => readStmt s a
  | 0, none => s
  | 1, _ =>
    match dirEntry s 2 with
    | some d => atStep (ufsRead s d.1 d.2.1 d.2.2 .licence) 2
    | none => toPhase (takeLicence s []) 3
  | _, _ =>
    match s.boot.lic with
    | some b => toPhase (takeLicence s b) 3
    | none => s

/-- Meaning of START_PHASE (R421, R424). -/
def execStartPhase (s : State) : Host.Outcome State Fault Refusal :=
  .next (if hbPhase s = 2 then noteWait s (startStep s) else s)

/-! ### REPAIR (R411–R413, R415, R440) -/

/-- Reads of the ageing area's slots (R443). -/
def readAges (s : State) : State :=
  match dirEntry s 4 with
  | some d => each (List.range (min 8784 ((d.2.2 - 1) / 2))) (fun u i => ufsRead u d.1 (d.2.1 + 1 + 2 * i) 2 (.ageLoad i)) s
  | none => s

/-- Reads of the repair phase are outstanding. -/
def repairAwaited (s : State) : Bool :=
  ufsAwaits s (fun u => match u with | .fenceLoad _ => true | .ageLoad _ => true | _ => false)

/-- A slot of the ageing area was read: the record with the highest `k` whose CRC holds is kept (R443). -/
def ageDone (s : State) (ok : Bool) (b : List Byte) : State :=
  if ok && b.length = 8192 && crcHolds b && natOfBytes (b.take 8) = 0x3130454741_4B4454 then
    let k := stmtNat b 8 8
    match s.boot.newest with
    | some o => if k < o.1 then s else { s with boot := { s.boot with newest := some (k, b) } }
    | none => { s with boot := { s.boot with newest := some (k, b) } }
  else s

/-- L_TILE, L_ROUTER and VOLT_STEPS of every cluster restored from the newest record, or 0 (R440). -/
def restoreMargin (s : State) : State :=
  each (List.range 288) (fun u c =>
    match s.boot.newest with
    | some o =>
      let e := (o.2.drop (64 + 24 * c)).take 24
      let l (g : Nat) : Nat := stmtNat e (8 + g) 1 - Config.fusedTrim c g % 64
      wrF (wrF (wrF u (ywCl c 0x130) 8 4 (l 0)) (ywCl c 0x130) 12 4 (l 5)) (ywCl c 0x130) 0 5 (min 24 (stmtNat e 16 1))
    | none => wrF (wrF u (ywCl c 0x130) 8 8 0) (ywCl c 0x130) 0 5 0) s

/-- An entry of the repair map applied (R412): conditional ones are placed under R355. -/
def applyEntry (s : State) (e : Nat) : State :=
  if !feOk e || 3 < feCond e then s
  else if feCond e = 0 then fenceUnit s e
  else if s.commit.condFences.contains e then s
  else { s with commit := { s.commit with condFences := s.commit.condFences ++ [e] } }

/-- The interleave hash built without a set of channels (R280, R413): PENDING shows fenced channels that stay in it. -/
def buildHash (s : State) (out : List Nat) : State :=
  let n := 192 - 2 * out.length
  let s1 := wrF (wrF { s with dram := { s.dram with hashOut := out } } (mmReg 0x108) 0 8 n) (mmReg 0x108) 16 10 (2 * n)
  wrB s1 (mmReg 0x108) 8 ((List.range 96).any (fun h => channelFenced s h && !out.contains h))

/-- LPDDR6 contents are kept: bring-up follows a warm reset (R413, R418). -/
def memKept (s : State) : Bool := s.recov.resetCmd = 3

/-- The firmware multicast trees (R415): row 0 from tile 1, then the columns; members are the tiles not fenced (log entry 110, DEDUCED). -/
def treeEntry (s : State) (g t : Nat) : W64 :=
  let h := tileHalf t
  let x := tileX t
  let y := tileY t
  let own : Bool := !tileFenced s t && (if g = 4 then isCopy s t else typeIndex (tileType t) == g)
  let up := if 0 < y then 3 else if h = 0 && x = 0 then 2 else if h = 0 && x = 1 then 0 else 4
  let ports := (if own then [0] else []) ++ (if y < 71 then [1] else [])
    ++ (if y = 0 && ((h = 0 && 1 ≤ x) || (h = 1 && x < 31)) then [2] else []) ++ (if y = 0 && h = 0 && x = 1 then [4] else [])
  let down := (ports.filter (fun p => p == 0 || !linkFenced s t p)).foldl (fun a p => a + 2 ^ p) 0
  BitVec.ofNat 64 (place 13 1 1 + place 4 9 down + up)

/-- Groups 0xFF0–0xFF4 built. -/
def buildTrees (s : State) : State :=
  each (List.range 5) (fun u g => each (List.range 4608) (fun v t => wr v (banked (tileReg t 3 0x128) (0xFF0 + g)) (treeEntry s g t)) u) s

/-- The fence log's block with the highest sequence goes on being filled, at the place from which it was read (R411). -/
def adoptLog (s : State) : State :=
  let best := s.boot.logBlocks.foldl (fun (m : Option (Nat × List Nat)) (e : Nat × List Nat) => match m with
    | some l => if l.2.headD 0 ≤ e.2.headD 0 then some e else m
    | none => some e) none
  let used := s.boot.logBlocks.map Prod.fst
  match best with
  | some l => { s with ufs := { s.ufs with logSeq := l.2.headD 0, logCur := l.2.drop 1, logAt := l.1, logUsed := used } }
  | none => { s with ufs := { s.ufs with logSeq := 0, logCur := [], logAt := 0, logUsed := used } }

/-- The repair map applied and the firmware groups built. -/
def repair (s : State) : State :=
  let m := repairMap s
  let s1 := extendMr s 4 (bytesOf 32 (Config.shake256 (m.flatMap (bytesOf 8)) 32))
  let s2 := adoptLog (each m applyEntry { s1 with commit := { s1.commit with fenceLog := m } })
  let s3 := buildHash s2 (if memKept s2 then s2.dram.hashOut else (List.range 96).filter (channelFenced s2))
  let s4 := each (List.range 288) chooseCopy (setFloor (restoreMargin s3))
  toPhase (buildTrees s4) 4

/-- Meaning of REPAIR_PHASE (R412); after a wipe the fence log has been read already. -/
def execRepairPhase (s : State) : Host.Outcome State Fault Refusal :=
  .next (if hbPhase s != 3 then s
    else if s.boot.step = 0 then atStep (readAges (if lifeCycle s < 4 then readLog s else s)) 1
    else if repairAwaited s then s
    else repair s)

/-! ### FIRMWARE (R416) -/

/-- Meaning of FIRMWARE_PHASE (R416): the broadcast; the rounds follow. -/
def execFirmwarePhase (s : State) : Host.Outcome State Fault Refusal :=
  .next (if hbPhase s = 4 && s.boot.step = 0 then
      let s1 := each (List.range (tileChunks s)) (fun u k =>
        let send (v : State) (g : Nat) : State := hbPieces v 0 (some g) k (chunkHash s k) (chunkData s k)
        send (send u 0xFF4) (0xFF0 + chunkType s k)) s
      atStep { s1 with boot := { s1.boot with fwRound := some 0, fwTiles := (List.range 4608).filter (fun t => !tileFenced s1 t) } } 1
    else s)

end Sys2Proof.Machine
end

