-- ==== Sys2Proof/Machine/BringUp.lean ====
section
/-! DEFINITION. Bring-up from MEMORY to READY (R404, R405, R418–R424, R426), and HB_CMD (R417, R420–R422, R426, R427). -/

namespace Sys2Proof.Machine

/-! ### MEMORY (R418, R419, R439) -/

/-- The shut-down record was read, or could not be (R439). -/
def sdDone (s : State) (ok : Bool) (b : List Byte) : State :=
  { s with boot := { s.boot with sdRecord := some (if ok then b else []) } }

/-- A shut-down record is intact: magic and CRC. -/
def sdIntact (b : List Byte) : Bool := b.length == 4096 && natOfBytes (b.take 8) == 0x31524453594B4454 && crcHolds b

/-- The record allows a quick start (R418, R439). -/
def sdValid (s : State) (b : List Byte) : Bool :=
  sdIntact b && stmtNat b 8 16 == Config.serial % 2 ^ 128 && stmtNat b 32 1 == 1 && stmtNat b 34 4 == imgVersion s
    && decide (stmtNat b 24 8 ≤ now s) && decide (now s < stmtNat b 24 8 + 2592000000000000)

/-- The record rewritten as CONSUMED (R439). -/
def sdConsume (s : State) (b : List Byte) : State :=
  if sdIntact b then
    let c := b.take 32 ++ [2] ++ ((b.drop 33).take 4055)
    match dirEntry s 4 with
    | some d => ufsWrite s d.1 d.2.1 (c ++ bytesOf 8 (crc64 c)) .sdConsume
    | none => s
  else s

/-- A channel that fails the full test (R419): record, entry in the log and fence (log entry 121, DEDUCED). -/
def memFail (s : State) (h : Nat) : State :=
  let e := fenceEntry 4 h 0 0x0E08
  if channelFenced s h then s else noteFence (logFence (fenceUnit (report s (devPage 7) 0x0E08 { detail := [h] }) e) e) e

/-- The channels in service that are to be trained (R418, R419). -/
def trainChannels (s : State) : State :=
  if memKept s then s else each (List.range 96) (fun u h => if channelFenced u h || chState u h != 0 then u else setChState u h 1) s

/-- Every channel in service is trained. -/
def channelsUp (s : State) : State :=
  each (List.range 96) (fun u h => if channelFenced u h || chState u h = 2 then u else chReady (noteTrained u h) h) s

/-- Every channel in service leaves the self-refresh in which its contents were kept (R267, R418). -/
def channelsKept (s : State) : State :=
  each (List.range 96) (fun u h => if channelFenced u h then u else leaveSelfRefresh u h) s

/-- LPDDR6 initialised: the hash without the fenced channels, and zeros in every unit (R418, R419). -/
def memInit (s : State) : State :=
  let s1 := buildHash s ((List.range 96).filter (channelFenced s))
  channelsUp (fillMem { s1 with dram := { s1.dram with writeBacks := [] } } 0 0x6000000000 false)

/-- The channels that the full test fences (R419): one of their units failed at nominal refresh, or more than 64 failed
retention. -/
def testFails (fail weak : List Nat) : List Nat := (List.range 96).filter (fun h => fail.contains h || 64 < weak.count h)

/-- The path of R418: `fail` names the channel of each unit that the full test finds failing at nominal refresh, `weak` that of
each that fails retention (R419) (log entry 122, DEDUCED). -/
def memoryPath (s : State) (b : List Byte) (fail weak : List Nat) : State :=
  let s1 := sdConsume s b
  let s2 :=
    if memKept s then wrB (wrB (channelsKept s1) (hbReg 0x108) 7 true) (hbReg 0x108) 6 true
    else if !rdB s (hbReg 0x100) 0 && rdB s (hbReg 0x108) 8 && sdValid s b then
      memInit (incWrap (wrB s1 (hbReg 0x108) 6 true) (hbReg 0x088) 1)
    else
      let s3 := if rdB s (hbReg 0x100) 0 then s1 else report s1 (devPage 7) 0x0E0A
      let bad := testFails fail weak
      let s4 := each (weak.eraseDups.filter (fun h => !bad.contains h && !channelFenced s h)) (fun u h => report u (devPage 7) 0x0E09 { detail := [h] }) s3
      memInit (each bad memFail s4)
  toPhase s2 6

/-- Meaning of MEMORY_PHASE (R418). -/
def execMemoryPhase (fail weak : List ChanId) (s : State) : Host.Outcome State Fault Refusal :=
  .next (if hbPhase s != 5 then s
    else match s.boot.step, s.boot.sdRecord with
      | 0, _ =>
        match dirEntry s 4 with
        | some d => atStep (ufsRead (trainChannels s) d.1 d.2.1 1 .sdRead) 1
        | none => memoryPath s [] (fail.map (fun h => h.val)) (weak.map (fun h => h.val))
      | _, some b => memoryPath s b (fail.map (fun h => h.val)) (weak.map (fun h => h.val))
      | _, none => s)

/-! ### LINKS (R238, R403) -/

/-- Every licensed port is enabled, and trains unless it runs or is fenced. -/
def trainPorts (s : State) : State :=
  each ((List.range 14).filter (portLicensed s)) (fun u p =>
    let u1 := wrB u (pxReg p 0x100) 0 true
    if portState u1 p = 0 || portState u1 p = 4 then startTraining u1 p else u1) s

/-- Some port is training. -/
def anyTraining (s : State) : Bool := (List.range 14).any (fun p => portState s p == 1)

/-- A DT at which a phase's time began. -/
def markTopo (s : State) : State := { s with boot := { s.boot with topoDt := now s } }

/-- Meaning of LINKS_PHASE (R403): the ports train for at most 1 s. -/
def execLinksPhase (s : State) : Host.Outcome State Fault Refusal :=
  .next (if hbPhase s != 6 then s
    else if s.boot.step = 0 then atStep (markTopo (trainPorts s)) 1
    else if anyTraining s && now s < s.boot.topoDt + 1000000000 then s
    else noteWait s (toPhase s 7))

/-! ### TOPOLOGY (R404, R422) -/

/-- Result of a Parith port: 0 AGREE, 1 MISSING, 2 WRONG_PEER, 3 UNEXPECTED, 4 UNLICENSED. An entry with EXPECT NONE names no
identity that a peer could differ from (log entry 199, DEDUCED). -/
def portResult (s : State) (p : Nat) : Nat :=
  let e := stmtPort s.boot.stmt p
  let expect := fieldNat e 62 2
  let peer := rd s (pxReg p 0x110)
  let matches' : Bool := bitOf peer 63 && fieldOf peer 32 15 == fieldNat e 47 15 && fieldOf peer 28 4 == fieldNat e 43 4 && fieldOf peer 0 24 == fieldNat e 0 24
  if matches' || (expect != 1 && !portRuns s p) then 0
  else if expect = 1 && !portRuns s p then 1
  else if expect != 0 && portRuns s p then 2
  else if portRuns s p then 3
  else 4

/-- Result of the Gorbin port (log entry 124, DEDUCED). -/
def gorbinResult (s : State) : Nat :=
  let g := rd s (gbReg 0x110)
  if bitOf g 63 && fieldOf g 0 24 == stmtNat s.boot.stmt 28 3 then 0 else 2

/-- The comparison of R422: results, records and fences. -/
def compareTopo (s : State) : State :=
  let rs := (List.range 14).map (portResult s)
  let g := gorbinResult s
  let s1 := wr s (hbReg 0x140) (BitVec.ofNat 64 ((rs.zipIdx.foldl (fun a x => a + place (3 * x.2) 3 x.1) 0) + place 42 3 g))
  let s2 := each rs.zipIdx (fun u x =>
    if x.1 = 0 then u
    else
      let u1 := report u (devPage 7) 0x0E0C { detail := [x.2, x.1] }
      if x.1 = 2 || x.1 = 3 then pxCtrlWrite u1 x.2 (setBit (rd u1 (pxReg x.2 0x100)) 1 true) else u1) s1
  let s3 := if g = 0 then s2 else report s2 (devPage 7) 0x0E0C { detail := [14, g] }
  atStep (markTopo s3) (if g = 0 && rs.all (fun r => r == 0) then 2 else 1)

/-- LOCK is reached, or the device is the time root (R404). -/
def locked (s : State) : Bool := rdB s (devReg 3 0x130) 0 || rdB s (devReg 3 0x128) 1

/-- Meaning of TOPOLOGY_PHASE (R422): the comparison, then LOCK. -/
def execTopologyPhase (s : State) : Host.Outcome State Fault Refusal :=
  .next (if hbPhase s != 7 then s
    else
      let s1 := if s.boot.step = 0 then compareTopo s else s
      if s1.boot.step = 2 && locked s1 then toPhase s1 8 else s1)

/-- Meaning of TIME_NO_LOCK (R422): no LOCK within 0.2 s. -/
def execTimeNoLock (s : State) : Host.Outcome State Fault Refusal :=
  .next (if hbPhase s = 7 && s.boot.step = 2 && !locked s && s.boot.topoDt + 200000000 ≤ now s
    then report (atStep s 3) (devPage 7) 0x0E0D else s)

/-! ### LICENCE and READY (R404, R424, R426) -/

/-- DT has reached NOT_AFTER of a licence that has an end (R423) (log entry 118, DEDUCED). -/
def pastEnd (s : State) (l : Licence) : Bool := l.notAfter != 2 ^ 64 - 1 && decide (l.notAfter ≤ now s)

/-- Ready declared (R404). -/
def declareReady (s : State) : State :=
  raise (report (wrB (toPhase s 9) (hbReg 0x108) 5 true) (devPage 7) 0x0E13) 376

/-- Meaning of LICENCE_PHASE (R424). -/
def execLicencePhase (s : State) : Host.Outcome State Fault Refusal :=
  .next (if hbPhase s != 8 then s
    else match s.boot.licence with
      | none => noteWait s (halt (report s (devPage 7) 0x0E0E))
      | some l =>
        if l.notBefore ≤ now s && !pastEnd s l then declareReady s
        else noteWait s (halt (report s (devPage 7) 0x0E0F)))

/-- Meaning of LIC_EXPIRED (R426): DT reached NOT_AFTER in service. -/
def execLicExpired (s : State) : Host.Outcome State Fault Refusal :=
  .next (match s.boot.licence with
    | none => s
    | some l =>
      if hbReady s && !s.boot.expired && pastEnd s l then
        raise (report { s with boot := { s.boot with expired := true } } (devPage 7) 0x0E10) 378
      else s)

/-! ### HB_CMD (R427) -/

/-- The installation is over. -/
def installOver (s : State) : State := { s with boot := { s.boot with install := none } }

/-- The record given is no record of this die. -/
def installBad (s : State) : State := report (installOver s) (devPage 7) 0x0E11

/-- What is done with the record read, or with the answer that it cannot be. -/
def installRead (r : GwRes × State) : State :=
  match r.1 with
  | .wait => r.2
  | .fail _ => installBad r.2
  | .ok b =>
    match dirEntry r.2 2 with
    | some d => if licGood b && 8 ≤ d.2.2 then ufsWrite (installOver r.2) d.1 d.2.1 (fitBytes 32768 b) .licenceWrite else installBad r.2
    | none => installBad r.2

/-- The licence at the companion's address is verified and written (R426), once its data have come. -/
def installTry (s : State) : State :=
  match s.boot.install with
  | none => s
  | some arg =>
    if 0x1000000000000 < hostBase + arg % 2 ^ 47 + 29856 then installBad s
    else installRead (gwAccess s (hostBase + arg % 2 ^ 47) 29856 none)

/-- HB_JSCAN_STAT set. -/
def setJscan (s : State) (result n : Nat) : State := wr s (hbReg 0x158) (BitVec.ofNat 64 (place 32 2 result + place 0 32 n))

/-- The journal of a waiting JSCAN is applied once no line has to be snooped (R420) (log entry 123, DEDUCED). -/
def jscanTry (s : State) : State :=
  match s.boot.jscan with
  | none => s
  | some arg =>
    let base := arg % 2 ^ 18 * mib2
    let ended (u : State) : State := { u with boot := { u.boot with jscan := none } }
    if !dramMapped s base 32 then setJscan (ended (report s (devPage 7) 0x0A01 { detail := [base] })) 2 0
    else if unsettled s base 32 false then settle s base 32 false
    else
      let m := dramRead s base 32 none
      let h := m.1.map (fun o => o.getD 0)
      if m.1.any (fun o => o.isNone) || natOfBytes ((h.drop 14).take 1) != 2 then setJscan (ended m.2) 2 0
      else
        let stop := base + 32 + natOfBytes (h.take 6)
        if journalBusy m.2 (base + 32) stop then journalSettle m.2 (base + 32) stop
        else
          let r := applyEntries none stop (natOfBytes (h.take 6) / 32) (base + 32) m.2
          setJscan (ended (dramWrite r.2 base ((entryHeader 0 0 0 0).map some) none).2) 1 r.1

/-- RECHECK: the fences of R422 are cleared, and LINKS runs again. -/
def recheck (s : State) : State :=
  let l := (List.range 14).filter (fun p => let r := rdF s (hbReg 0x140) (3 * p) 3; r == 2 || r == 3)
  toPhase (each l (fun u p => pxCtrlWrite u p (setBit (rd u (pxReg p 0x100)) 1 false)) s) 6

/-- SHARE: every tile chunk sent over a fabric group (R417). -/
def share (s : State) (g : Nat) : State :=
  each (List.range (tileChunks s)) (fun u k => hbPieces u 0 (some g) k (chunkHash s k) (chunkData s k)) s

/-- The effect of a write of HB_CMD (R427). -/
def hbCmd (s : State) (cmd group : Nat) : State :=
  let p := hbPhase s
  let arg := (rd s (hbReg 0x118)).toNat
  match cmd with
  | 0 => s
  | 1 => if p = 2 && s.boot.bootArg.isNone then { s with boot := { s.boot with bootArg := some arg } } else ignored s (devPage 7)
  | 2 => if p = 7 && 1 ≤ s.boot.step then recheck s else ignored s (devPage 7)
  | 3 => if 2 ≤ p && p ≤ 10 && lifeCycle s != 5 && s.boot.install.isNone then installTry { s with boot := { s.boot with install := some arg } } else ignored s (devPage 7)
  | 4 =>
    if rdB s (hbReg 0x108) 7 && !s.boot.bound && s.boot.jscan.isNone then jscanTry (setJscan { s with boot := { s.boot with jscan := some arg } } 0 0)
    else report (setJscan s 3 0) (devPage 7) 0x0E12
  | 5 => if hbReady s then share s group else ignored s (devPage 7)
  | _ => ignored s (devPage 7)

end Sys2Proof.Machine
end

