-- ==== Sys2Proof/Machine/Power.lean ====
section
/-! DEFINITION. Power states and wake tolerance (R446–R462): clusters, the device, voltages and throttling. -/

namespace Sys2Proof.Machine

/-- A register of the power page. -/
def pwReg (off : Nat) : Nat := devReg 13 off
/-- CL_PWR_STAT of a cluster. -/
def clStat (c : Nat) : Nat := clusterReg c 0x188
/-- PW_STAT.PSTATE. -/
def devState (s : State) : Nat := rdF s (pwReg 0x108) 0 2
/-- PW_STAT.WAKING. -/
def devWaking (s : State) : Bool := rdB s (pwReg 0x108) 2
/-- CL_PWR_STAT.WAKING. -/
def clWaking (s : State) (c : Nat) : Bool := rdB s (clStat c) 3

/-! ### Work (R446, R447, R454) -/

/-- A tile's unit has work: a thread, an activation, a DMA channel, a message to be sent or handled (log entry 128, DEDUCED). -/
def tileWorks (s : State) (t : Nat) : Bool :=
  (List.range 4).any (fun n => (threadOf s t n).busy) || (actOf s t).on
    || (List.range 4).any (fun ch => match mapFind (t * 4 + ch) s.flow.chans with | some c => c.cur.isSome || !c.queued.isEmpty | none => false)
    || s.q.sends.any (fun w => w.unit == t) || s.q.nacks.any (fun j => j.tile == t)
    || (nextQueue s t).isSome || s.net.ejected.any (fun e => e.1 == t) || !(linkQ s t 0).isEmpty

/-- A cluster has work, or is reset or tested. -/
def clusterWorks (s : State) (c : Nat) : Bool := (tilesOf c).any (tileWorks s) || s.recov.resetting.contains c

/-- Yew holds a cluster for a test (R448). -/
def underTest (s : State) (c : Nat) : Bool := (mapFind c s.yew.testVolt).isSome

/-- Contexts resident on tiles. -/
def residentOn (s : State) (l : List Nat) : List Nat := (l.flatMap (residents s)).eraseDups

/-- A cluster may lose its state (R447). -/
def mayTurnOff (s : State) (c : Nat) : Bool :=
  (tilesOf c).all (fun t => (residents s t).isEmpty && (validSlots s t).isEmpty && (allRgns s t).isEmpty
    && (List.range 8).all (fun u => !hasSteer t || (steerOf s t true u).op == 0)
    && !(List.range (tileBanks t)).any (bankMapped s t))

/-! ### Tolerances (R453, R454) -/

/-- PW_CTX_TOL of a context. -/
def ctxTol (s : State) (x : Nat) : Nat := rdF s (banked (pwReg 0x120) x) 0 32
/-- Tolerance of a set of contexts with the device's own. -/
def tolOf (s : State) (l : List Nat) : Nat := l.foldl (fun m x => min m (ctxTol s x)) (rdF s (pwReg 0x110) 0 32)
/-- AUTO_EN. -/
def autoEn (s : State) : Bool := rdB s (pwReg 0x100) 0
/-- IDLE_US in ns. -/
def idleNs (s : State) : Nat := rdF s (pwReg 0x100) 12 8 * 1000
/-- MAX_STATE of a cluster; 0 stands for C1. -/
def maxState (s : State) (c : Nat) : Nat := max 1 (rdF s (clusterReg c 0x180) 0 2)

/-- The state R454 chooses for a cluster that has had no work for IDLE_US: 1, 2 or 3. -/
def chooseCluster (s : State) (c : Nat) : Nat :=
  let rs := residentOn s (tilesOf c)
  let tol := tolOf s rs
  if 3 ≤ maxState s c && rs.isEmpty && mayTurnOff s c && 1040 ≤ tol then 3 else if 2 ≤ maxState s c && 3 ≤ tol then 2 else 1

/-- Tiles with a residence slot bound. -/
def residentTiles (s : State) : List Nat :=
  ((s.regs.filter (fun e => regBase ≤ e.1 && e.1 < regBase + 4608 * 0x20000)).map (fun e => (e.1 - regBase) / 0x20000)).eraseDups

/-- The state R454 chooses for the device when every cluster has been idle for IDLE_US. -/
def chooseDevice (s : State) : Nat :=
  let rs := residentOn s (residentTiles s)
  let tol := tolOf s rs
  let deep (n : Nat) : Bool := (List.range 288).all (fun c => n ≤ clusterPower s c)
  if rdB s (pwReg 0x100) 1 && rs.isEmpty && deep 3 && 20000 ≤ tol && debugLevel s != 3 && lifeCycle s != 5 then 3
  else if deep 2 && 30 ≤ tol then 2 else if 1 ≤ tol then 1 else 0

/-! ### Wakes (R448, R450–R452) -/

/-- The `k` lowest lanes of a mask. -/
def lowLanes (k m : Nat) : Nat := ((((List.range 8).filter m.testBit).take k).map (fun i => 2 ^ i)).sum

/-- A LANES block ends the run on the wire (R242). -/
def sayLanesOf (s : State) (p m : Nat) : State := emit (endRun s p) (.link p (.lanes m))

/-- LANES blocks of the ports that carry packets (R450): a Parith port's lowest lane and the two lowest of the Gorbin port, or
all their active lanes. -/
def sayLanes (s : State) (low : Bool) : State :=
  let s1 := each ((List.range 14).filter (portRuns s)) (fun u p =>
    sayLanesOf u p (if low then lowLanes 1 (lanesActive u p) else lanesActive u p)) s
  let m := rdF s (gbReg 0x108) 8 8
  if gbUp s then sayLanesOf s1 14 (if low then lowLanes 2 m else m) else s1

/-- The quiet lanes rejoin. -/
def loudLanes (s : State) : State := if s.power.quiet then sayLanes { s with power := { s.power with quiet := false } } false else s

/-- The device begins to return to P0, or abandons an entry (R452). -/
def wakeDevice (s : State) : State :=
  let s1 := { s with power := { s.power with devEnter := none, allIdle := 0 } }
  if devState s = 0 || devWaking s then s1
  else incWrap (wrB { s1 with power := { s1.power with devWake := some (now s) } } (pwReg 0x108) 2 true) (pwReg 0x088) 1

/-- A cluster begins its exit, or abandons an entry; a cluster in C3 reloads its firmware (R447, R448). -/
def wakeCluster (s : State) (c : Nat) : State :=
  let s1 := { s with power := { s.power with entering := mapErase c s.power.entering, idle := mapErase c s.power.idle } }
  if clusterPower s c < 2 || clWaking s c then s1
  else
    let s2 := incWrap (wrB { s1 with power := { s1.power with waking := mapInsert c (now s) (mapErase c s1.power.waking) } } (clStat c) 3 true) (clusterReg c 0x090) 1
    wakeDevice (if clusterPower s c = 3 then each (tilesOf c) drainLocal (reload s2 ((tilesOf c).filter (fun t => !tileFenced s2 t))) else s2)

/-- Meaning of CLUSTER_WAKE (R448): an arrival, an access, a write, a reset or a test. -/
def execClusterWake (c : ClusterId) (s : State) : Host.Outcome State Fault Refusal := .next (wakeCluster s c)

/-- Banks of a cluster held in RET (R446). -/
def retainBanks (s : State) (c : Nat) : State :=
  each (tilesOf c) (fun u t => each (List.range (tileBanks t)) (fun v b => if bankState v t b = 2 then v else setBankState v t b 1) u) s

/-- Banks of a cluster return to what BANK_PWR asks, and held accesses proceed (R448). -/
def restoreBanks (s : State) (c : Nat) : State :=
  each (tilesOf c) (fun u t =>
    let u1 := each (List.range (tileBanks t)) (fun v b => if bankState v t b = 2 then v else setBankState v t b (min 1 (bankAsked v t b))) u
    each (List.range 4) (fun v n => circServe t n (v.pad.heldAcc.length + 1) v) (retryHeld u1 t)) s

/-- Banks of a cluster that was off take the states that BANK_PWR asks for. -/
def powerBanks (s : State) (c : Nat) : State :=
  each (tilesOf c) (fun u t => each (List.range (tileBanks t)) (fun v b => setBankState v t b (bankAsked v t b)) u) s

/-- An exit that took longer than its latency (R455). -/
def lateExit (s : State) (start limit : Nat) : State :=
  if start + limit < now s then report (incSat s (pwReg 0x098)) (devPage 13) 0x1002 else s

/-- Meaning of CLUSTER_WAKE_COMPLETE (R446–R448): the cluster is in C1; after C3 its firmware is complete. -/
def execClusterWakeComplete (c : ClusterId) (s : State) : Host.Outcome State Fault Refusal :=
  .next (match mapFind c.val s.power.waking with
    | none => s
    | some d =>
      let off : Bool := clusterPower s c == 3
      if off && !(s.boot.refill.isEmpty && (tilesOf c).all (fwReady s)) then s
      else
        let s1 := wrB (wrF { s with power := { s.power with waking := mapErase c s.power.waking, idle := mapErase c s.power.idle } } (clStat c) 0 2 0) (clStat c) 3 false
        let s2 := if off then setDestReset (powerBanks s1 c) (tilesOf c) false else restoreBanks s1 c
        lateExit (each (tilesOf c) drainLocal s2) d (if off then 1040000 else 3000))

/-- Meaning of DEVICE_WAKE (R452). -/
def execDeviceWake (s : State) : Host.Outcome State Fault Refusal := .next (wakeDevice s)

/-- Meaning of DEVICE_WAKE_COMPLETE (R449–R452): P0; from P3 every cluster wakes too (log entry 127, DEDUCED). -/
def execDeviceWakeComplete (s : State) : Host.Outcome State Fault Refusal :=
  .next (match s.power.devWake with
    | none => s
    | some d =>
      let p := devState s
      let s1 := wrB (wrF { s with power := { s.power with devWake := none } } (pwReg 0x108) 0 2 0) (pwReg 0x108) 2 false
      let s2 := fromSelfRefresh (loudLanes s1)
      let s3 := if p = 3 then each (List.range 288) wakeCluster s2 else s2
      lateExit s3 d (if p = 1 then 1000 else if p = 2 then 30000 else 20000000))

/-! ### Entries (R446, R447, R449–R451, R486) -/

/-- A cluster in C3 keeps nothing: its tiles are reset, their contents undefined, and traffic for them refused. -/
def turnOff (s : State) (c : Nat) : State :=
  let s0 := if s.power.zeroBanks.contains c then each (tilesOf c) (fun u t => fillMem u (padBase t) 0x80000 false) s else s
  let s1 := clearTiles s0 (fun t => clusterOf t == c)
  let s2 := each (tilesOf c) (fun u t => fillMem u (padBase t) 0x80000 true) s1
  let s3 := each (tilesOf c) (fun u t => each (List.range (tileBanks t)) (fun v b => setBankState v t b 2) u) s2
  each (tilesOf c) drainLocal (setDestReset s3 (tilesOf c) true)

/-- Meaning of CLUSTER_ENTRY_COMPLETE (R446, R447). -/
def execClusterEntryComplete (c : ClusterId) (s : State) : Host.Outcome State Fault Refusal :=
  .next (match mapFind c.val s.power.entering with
    | none => s
    | some st =>
      let s1 := { s with power := { s.power with entering := mapErase c s.power.entering } }
      if st = 3 then
        if mayTurnOff s c then incWrap (wrF (turnOff s1 c) (clStat c) 0 2 3) (clusterReg c 0x088) 1 else s1
      else incWrap (wrF (retainBanks s1 c) (clStat c) 0 2 2) (clusterReg c 0x080) 1)

/-- Meaning of DEVICE_ENTRY_COMPLETE (R449–R452). -/
def execDeviceEntryComplete (s : State) : Host.Outcome State Fault Refusal :=
  .next (match s.power.devEnter with
    | none => s
    | some p =>
      let s1 := incWrap (wrF { s with power := { s.power with devEnter := none } } (pwReg 0x108) 0 2 p) (pwReg 0x080) 1
      let s2 := if s1.power.quiet || p = 3 then s1 else sayLanes { s1 with power := { s1.power with quiet := true } } true
      let s3 := if 2 ≤ p then toSelfRefresh s2 else s2
      if p = 3 then
        let s4 := endSession s3 3
        let s5 := each (List.range 14) (fun u q => if portRuns u q then linkLost u q 4 else u) s4
        { (if gbUp s5 then gbLost s5 4 else s5) with power := { s5.power with quiet := false } }
      else s3)

/-! ### The evaluation (R454) -/

/-- Since when a cluster has had no work. -/
def noteIdle (s : State) (c : Nat) : State :=
  if clusterWorks s c then { s with power := { s.power with idle := mapErase c s.power.idle } }
  else if (mapFind c s.power.idle).isSome then s
  else { s with power := { s.power with idle := mapInsert c (now s + 1) s.power.idle } }

/-- A cluster has had no work for IDLE_US. -/
def longIdle (s : State) (c : Nat) : Bool := match mapFind c s.power.idle with | some d => d - 1 + idleNs s ≤ now s | none => false

/-- One cluster evaluated: it begins to enter a deeper state, or to leave one that no longer fits. -/
def evalCluster (s : State) (c : Nat) : State :=
  let p := clusterPower s c
  let want := if autoEn s then chooseCluster s c else 1
  if clWaking s c || underTest s c || s.recov.resetting.contains c then s
  else if 2 ≤ p && want < p then wakeCluster s c
  else if autoEn s && max 1 p < want && longIdle s c && (mapFind c s.power.entering).isNone then
    { s with power := { s.power with entering := mapInsert c want s.power.entering } }
  else s

/-- The device evaluated. -/
def evalDevice (s : State) : State :=
  let idle : Bool := (List.range 288).all (fun c => !clusterWorks s c)
  let s1 := if !idle then { s with power := { s.power with allIdle := 0 } }
    else if s.power.allIdle = 0 then { s with power := { s.power with allIdle := now s + 1 } } else s
  let want := if autoEn s then chooseDevice s else 0
  let p := devState s
  if devWaking s then s1
  else if want < p then wakeDevice s1
  else if autoEn s && p < want && s1.power.allIdle != 0 && s1.power.allIdle - 1 + idleNs s ≤ now s && s1.power.devEnter.isNone then
    { s1 with power := { s1.power with devEnter := some want } }
  else s1

/-- DT has reached a non-zero PW_WAKE_DT (R452). -/
def timedWake (s : State) : Bool := let w := (rd s (pwReg 0x138)).toNat; w != 0 && decide (w ≤ now s) && decide (now s < w + 1000)

/-- Meaning of POWER_EVAL (R454). -/
def execPowerEval (s : State) : Host.Outcome State Fault Refusal :=
  .next (
    let s1 := each (List.range 288) evalCluster (each (List.range 288) noteIdle s)
    if timedWake s then wakeDevice s1 else evalDevice s1)

/-- Tolerances were written: what no longer fits wakes first (R453). -/
def fitTolerance (s : State) : State :=
  let s1 := each (List.range 288) (fun u c => if 2 ≤ clusterPower u c && chooseCluster u c < clusterPower u c then wakeCluster u c else u) s
  if chooseDevice s1 < devState s1 then wakeDevice s1 else s1

/-! ### Voltages (R456, R457, R460) -/

/-- Segment of a cluster (R14). -/
def segmentOf (c : Nat) : Nat := c / 144 * 4 + c % 8 / 2

/-- VOLT_BELOW entries on a cluster's units raise the throttle floor by 10 mV above their VALUE (R460). -/
def voltFloor (s : State) (c : Nat) : Nat :=
  (s.commit.condFences.filter (fun e => feCond e == 2 && feCluster e == some c)).foldl (fun m e => max m (feValue e + 10)) (rdF s (pwReg 0x100) 36 14)

/-- Set voltage in tenths of a mV before the floor and the cap, with offsets in steps. -/
def rawVolt (s : State) (c off : Nat) : Int :=
  Int.ofNat (10 * rdF s (pwReg 0x100) 50 14 + 25 * rdF s (ywCl c 0x130) 0 5) - Int.ofNat (25 * off)

/-- T_OFF and P_OFF together. -/
def voltOff (s : State) (c : Nat) : Nat := rdF s (clStat c) 40 8 + rdF s (pwReg 0x108) 8 8

/-- Set voltage of a cluster without a test, in tenths of a mV (R456). -/
def serviceVolt (s : State) (c : Nat) : Nat :=
  min 8500 (max (10 * voltFloor s c) (rawVolt s c (voltOff s c)).toNat)

/-- Set voltage of a cluster in tenths of a mV: a test voltage replaces it. -/
def setVolt (s : State) (c : Nat) : Nat := match mapFind c s.yew.testVolt with | some v => v | none => serviceVolt s c

/-- CL_PWR_STAT as it reads: STATE of a running cluster and V_SET are computed. -/
def clStatView (s : State) (c : Nat) : W64 :=
  let v := setField (rd s (clStat c)) 12 14 (setVolt s c / 10)
  if clusterPower s c < 2 then setField v 0 2 (bit01 (!clusterWorks s c)) else v

/-- Clusters of a segment. -/
def segClusters (g : Nat) : List Nat := (List.range 288).filter (fun c => segmentOf c == g)

/-- REQUIRED in tenths of a mV. -/
def segReq (s : State) (g : Nat) : Nat := mapGet (fun _ => 7750) s.power.req g
/-- The target of a segment (R457) (log entry 126, DEDUCED). -/
def segTarget (s : State) (g : Nat) : Nat := (segClusters g).foldl (fun m c => max m (setVolt s c)) 0 + 250

/-- Meaning of SEGMENT_STEP (R457, R516): REQUIRED of a segment moves by up to 2.5 mV; the voltage supplied is shown (log entry 77, DEDUCED). -/
def execSegmentStep (g : Fin 8) (supplied : Fin 65536) (s : State) : Host.Outcome State Fault Refusal :=
  let old := segReq s g
  let tgt := segTarget s g
  let new := if old < tgt then min tgt (old + 25) else max tgt (old - 25)
  let since := mapGet (fun _ => 0) s.power.settled g
  let s1 := { s with power := { s.power with req := mapPut (fun _ => 7750) s.power.req g new
                                             settled := mapPut (fun _ => 0) s.power.settled g (if new = tgt then (if since = 0 then now s + 1 else since) else 0) } }
  let s2 := wr s1 (pwReg (0x180 + 8 * g.val)) (BitVec.ofNat 64 (place 16 16 supplied + new / 10))
  let s3 := each ((segClusters g).filter (fun c => rdB s (clStat c) 4 && setVolt s c + 250 ≤ 10 * supplied.val)) (fun u c => wrB u (clStat c) 4 false) s2
  .next (if old / 10 != new / 10 && rdB s (devReg 15 0x100) 0 then emit s3 (.ibi (0x20 + g.val)) else s3)

/-- Meaning of HEADROOM_LOW (R457): 500 µs after REQUIRED reached the target the segment still lacks headroom. -/
def execHeadroomLow (c : ClusterId) (s : State) : Host.Outcome State Fault Refusal :=
  let g := segmentOf c
  let d := mapGet (fun _ => 0) s.power.settled g
  .next (if d != 0 && d - 1 + 500000 ≤ now s && 10 * rdF s (pwReg (0x180 + 8 * g)) 16 16 < setVolt s c + 250 then
      reportLimited (wrB s (clStat c) 4 true) (clusterPage c) 0 0x1006 (limitKey 20 c 0) (now s / 1000000)
    else s)

/-! ### Temperatures and throttling (R458, R459, R461) -/

/-- A regulator's reading in mV at a cluster under test: its programs run from the reading that shows its test voltage on (R432),
and the test is valid while the voltage lies from 0.72 V to 0.80 V (R431). -/
def noteReading (s : State) (c mv : Nat) : State :=
  match s.yew.run, mapFind c s.yew.testVolt with
  | some t, some v =>
    if t.mode != 4 && t.cluster != c then s
    else
      let seen := s.yew.ready.contains c
      let ready := if seen || v + 9 < 10 * mv || 10 * mv + 9 < v then s.yew.ready else s.yew.ready ++ [c]
      let all : Bool := if t.mode = 4 then s.yew.testVolt.all (fun e => ready.contains e.1) else ready.contains c
      { s with yew := { s.yew with ready := ready
                                   run := some { t with started := t.started || all, bad := t.bad || (seen && (mv < 720 || 800 < mv)) } } }
  | _, _ => s

/-- Meaning of TEMP_PUBLISH (R458, R461): temperature in 0.1 °C (two's complement) and regulator output in mV; a stopped
cluster resumes below T_CRIT − 10 °C. -/
def execTempPublish (c : ClusterId) (temp : Fin 65536) (mv : Fin 16384) (s : State) : Host.Outcome State Fault Refusal :=
  let t := signedOf 16 temp
  let a := clusterReg c 0x190
  let hi := max (signedOf 16 (rdF s a 16 16)) t
  let s1 := wrF (wr s a (BitVec.ofNat 64 (place 16 16 (patternOf 16 hi) + temp.val))) (clStat c) 26 14 mv
  let s2 := noteHour s1 c (fun h => { h with hot := max h.hot (t / 10) })
  let s3 := if t < Int.ofNat (10 * rdF s (pwReg 0x100) 28 8) - 100 then wrB s2 (clStat c) 5 false else s2
  .next (noteReading s3 c mv)

/-- A thermal offset moves by one step (R459, R460). -/
def throttleCluster (s : State) (c : Nat) : State :=
  let t := clusterTemp s c
  let lim := Int.ofNat (10 * rdF s (pwReg 0x100) 20 8)
  let off := rdF s (clStat c) 40 8
  let s1 := if underTest s c then s
    else if lim ≤ t then
      let u := wrF s (clStat c) 40 8 (min 255 (off + 1))
      let u1 := if off = 0 then report u (clusterPage c) 0x1003 else u
      if rawVolt u1 c (voltOff u1 c) < Int.ofNat (10 * voltFloor u1 c) then report u1 (clusterPage c) 0x1007 else u1
    else if t < lim - 20 && off != 0 then wrF s (clStat c) 40 8 (off - 1) else s
  if rdF s1 (clStat c) 40 8 = 0 then s1 else incWrap s1 (clusterReg c 0x098) 1

/-- The power offset moves by one step (R459, R460). -/
def throttlePower (s : State) : State :=
  let m := rdF s (pwReg 0x130) 0 16
  let lim := rdF s (pwReg 0x128) 0 16
  let off := rdF s (pwReg 0x108) 8 8
  let s1 := if lim != 0 && lim < m then
      let u := wrF s (pwReg 0x108) 8 8 (min 255 (off + 1))
      let u1 := if off = 0 then report u (devPage 13) 0x1004 else u
      if (List.range 288).any (fun c => !underTest u1 c && rawVolt u1 c (voltOff u1 c) < Int.ofNat (10 * voltFloor u1 c)) then report u1 (devPage 13) 0x1007 else u1
    else if off != 0 && (lim = 0 || 100 * m ≤ 95 * lim) then wrF s (pwReg 0x108) 8 8 (off - 1) else s
  if rdF s1 (pwReg 0x108) 8 8 = 0 then s1 else incWrap s1 (pwReg 0x090) 1

/-- Meaning of THROTTLE_EVAL (R459): the module power over the window is published and the offsets move. -/
def execThrottleEval (watts : Fin 65536) (s : State) : Host.Outcome State Fault Refusal :=
  let s1 := throttlePower (each (List.range 288) throttleCluster (wr s (pwReg 0x130) (BitVec.ofNat 64 watts)))
  .next (if throttled s1 && !throttled s then raise s1 381 else s1)

/-- Meaning of THERM_TRIP (R461): a cluster that reached T_CRIT stops issuing work. -/
def execThermTrip (c : ClusterId) (s : State) : Host.Outcome State Fault Refusal :=
  .next (if Int.ofNat (10 * rdF s (pwReg 0x100) 28 8) ≤ clusterTemp s c && !rdB s (clStat c) 5 then
      raise (report (wrB s (clStat c) 5 true) (clusterPage c) 0x1005) 382
    else s)

end Sys2Proof.Machine
end

