-- ==== Sys2Proof/Machine/Yew.lean ====
section
/-! DEFINITION. Self-test and ageing (R429–R443): Yew's tests, sweeps, the shut-down record, canaries and the margin
plan, and the hourly records. -/

namespace Sys2Proof.Machine

/-- The Yew page. -/
def ywPage : Nat := devPage 9
/-- YW_STAT.MODE. -/
def ywMode (s : State) : Nat := rdF s (ywReg 0x108) 0 3

/-- Yew's test modes are allowed by the life-cycle state (R429). -/
def yewAllowed (s : State) : Bool := 1 ≤ lifeCycle s && lifeCycle s ≤ 4

/-- RAW mode is allowed: MANUFACTURE or RETURNED with D3 open (R429). -/
def rawAllowed (s : State) : Bool := (lifeCycle s == 1 || lifeCycle s == 4) && debugLevel s == 3

/-- A request that the life-cycle state or debug level refuses: ERR_STAT.DENIED with its record (R315, R429). -/
def yewDenied (s : State) : State := denied s ywPage

/-- Every tile of a cluster is fenced. -/
def clusterFenced (s : State) (c : Nat) : Bool := (tilesOf c).all (tileFenced s)

/-- Contexts placed on a cluster (R434): those with a residence slot there, or a set on one of its tiles. -/
def placedOn (s : State) (c : Nat) : List Nat :=
  (residentOn s (tilesOf c) ++ (s.flow.sets.filter (fun e => e.2.tiles.any (fun t => clusterOf t == c))).flatMap (fun e => e.2.ctxs)).eraseDups

/-- QUEUED of YW_STAT follows the queue (R430, R444). -/
def setQueue (s : State) (l : List YewTest) : State :=
  wrF { s with yew := { s.yew with queue := l } } (ywReg 0x108) 12 5 (min 16 l.length)

/-- A fresh test. -/
def newTest (mode c : Nat) : YewTest := { mode := mode, cluster := c, started := false, bad := false, fenced := 0, fails := [] }

/-- A request joins the queue of at most 16; in a full queue an INFIELD one gives its place to another mode and waits in the
schedule; `none` when there is no place (R430) (log entry 201, DEDUCED). -/
def queueTest (s : State) (t : YewTest) : Option State :=
  if s.yew.queue.any (fun x => x.mode == t.mode && x.cluster == t.cluster) then some s
  else if s.yew.queue.length < 16 then some (setQueue s (s.yew.queue ++ [t]))
  else if t.mode = 1 then none
  else (s.yew.queue.reverse.find? (fun x => x.mode == 1)).map (fun x => setQueue s (s.yew.queue.erase x ++ [t]))

/-- A request joins the queue, or waits in the schedule or with the step-commit block that makes it. -/
def enqueueTest (s : State) (t : YewTest) : State := (queueTest s t).getD s

/-! ### The schedule (R433–R435) -/

/-- Nanoseconds between two tests of the schedule: PERIOD_DAYS × 86,400 s ÷ 288. -/
def testPeriod (s : State) : Nat := rdF s (ywReg 0x100) 8 8 * 300000000000

/-- The cluster that is tested after the last one. -/
def nextCluster (s : State) : Option Nat :=
  ((List.range 288).map (fun i => (s.yew.last + 1 + i) % 288)).find? (fun c => !clusterFenced s c)

/-- A cluster's test falls due at `dt` and its vacating begins. -/
def makeDue (s : State) (c dt : Nat) : State :=
  { s with yew := { s.yew with due := mapInsert c dt (mapErase c s.yew.due)
                               vacate := if s.yew.vacate.contains c then s.yew.vacate else s.yew.vacate ++ [c] } }

/-- Meaning of INFIELD_DUE (R429, R433, R434): the schedule's next test falls due, or its request is refused. -/
def execInfieldDue (s : State) : Host.Outcome State Fault Refusal :=
  .next (if !rdB s (ywReg 0x100) 0 || now s < s.yew.nextDt then s
    else match nextCluster s with
      | none => s
      | some c =>
        let t := if s.yew.nextDt = 0 then now s else s.yew.nextDt
        let s1 := { s with yew := { s.yew with last := c, nextDt := t + testPeriod s } }
        if !yewAllowed s then yewDenied s1 else if (mapFind c s.yew.due).isSome then s1 else makeDue s1 c t)

/-- Nanoseconds of 24 h. -/
def hours24 : Nat := 86400000000000

/-- Meaning of YIELD_REQUEST (R435): the deferral window of a cluster's test closed; each further 24 h is recorded again. -/
def execYieldRequest (c : ClusterId) (s : State) : Host.Outcome State Fault Refusal :=
  let y := rd s (ywReg 0x118)
  .next (match mapFind c.val s.yew.due with
    | none => s
    | some d =>
      if bitOf y 63 then
        if fieldOf y 32 9 = c.val && s.yew.yieldDt + hours24 ≤ now s then
          report { s with yew := { s.yew with yieldDt := now s } } ywPage 0x0F04 { detail := [c] }
        else s
      else if d + hours24 ≤ now s && !(placedOn s c).isEmpty then
        let s1 := { s with yew := { s.yew with yieldDt := now s, vacate := s.yew.vacate.erase c } }
        raise (report (wr s1 (ywReg 0x118) (BitVec.ofNat 64 (2 ^ 63 + place 32 9 c + d / 1000000000 % 2 ^ 32))) ywPage 0x0F04 { detail := [c] }) 379
      else s)

/-- YIELD_GRANT: the procedure of R434 runs again for the cluster that waits (log entry 131, DEDUCED). -/
def yieldGrant (s : State) : State :=
  let y := rd s (ywReg 0x118)
  if bitOf y 63 && !s.yew.vacate.contains (fieldOf y 32 9) then { s with yew := { s.yew with vacate := s.yew.vacate ++ [fieldOf y 32 9] } } else s

/-! ### Tests (R431, R432, R442) -/

/-- The test voltage in tenths of a mV: the present one within [0.72 V, 0.80 V]. -/
def clampVolt (v : Nat) : Nat := min 8000 (max 7200 v)

/-- Fenced tiles of a cluster. -/
def fencedIn (s : State) (c : Nat) : Nat := ((tilesOf c).filter (tileFenced s)).length

/-- A test of one cluster begins: its tiles are reset and held, and Yew sets its voltage (R432, R456). -/
def beginTest (s : State) (t : YewTest) : State :=
  let c := t.cluster
  let s0 := { s with yew := { s.yew with testVolt := mapInsert c (clampVolt (serviceVolt s c)) (mapErase c s.yew.testVolt)
                                         ready := s.yew.ready.erase c
                                         run := some { t with fenced := fencedIn s c } } }
  let s1 := resetClusters s0 [c]
  let s2 := setQueue s1 (s1.yew.queue.filter (fun x => !(x.mode == t.mode && x.cluster == c)))
  wrF (wrF s2 (ywReg 0x108) 0 3 t.mode) (ywReg 0x108) 3 9 c

/-- DRIFT of a count of the replica at 0.75 V, every L at 0 and 70 °C (R442) (log entry 130, DEDUCED). -/
def driftOf (c pace : Nat) : Nat :=
  let base := Config.basePace c
  min 255 ((base - pace) * 1000 / base)

/-- The drift measured at an in-field test (R442). -/
def noteDrift (s : State) (c pace : Nat) : State :=
  let d := driftOf c pace
  let limit := rdF s (ywReg 0x100) 40 8
  let s1 := wrF s (ywCl c 0x130) 16 8 d
  if limit != 0 && limit ≤ d then raise (report s1 ywPage 0x0F08 { detail := [c, d] }) 380 else s1

/-- Yew may begin a test of a mode: it is idle and nothing that goes first is queued, CONFIRM before SWEEP before INFIELD (R430). -/
def yewFree (s : State) (mode : Nat) : Bool :=
  s.yew.run.isNone && yewAllowed s && !s.yew.queue.any (fun x => (x.mode == 2 && mode != 2) || (x.mode == 3 && mode == 1))

/-- An invalid test of the cluster waits for its 10 minutes. -/
def heldBack (s : State) (c : Nat) : Bool := s.yew.again.any (fun x => x.1.cluster == c)

/-- A late scratchpad scrub of the cluster goes before a test that is not at its limit (R41). -/
def scrubFirst (s : State) (c : Nat) : Bool := (tilesOf c).any (fun t => rdB s (spReg t 0x118) 17) && !testAtLimit s c

/-- Meaning of INFIELD_TEST (R41, R432, R434, R442): a vacated cluster whose test is due is tested, but not while Yew is off in
P3; `pace` is the count of the drift measurement. -/
def execInfieldTest (c : ClusterId) (pace : Nat) (s : State) : Host.Outcome State Fault Refusal :=
  .next (if (mapFind c.val s.yew.due).isNone || !s.yew.vacate.contains c.val || !(placedOn s c).isEmpty || heldBack s c || clusterFenced s c || devState s = 3 then s
    else if !yewAllowed s then yewDenied s
    else if scrubFirst s c then s
    else if yewFree s 1 then noteDrift (beginTest s (newTest 1 c)) c pace
    else enqueueTest s (newTest 1 c))

/-- Meaning of CONFIRM_TEST (R430, R437): a quarantined cluster without a result is tested, in order of request. -/
def execConfirmTest (c : ClusterId) (s : State) : Host.Outcome State Fault Refusal :=
  let first : Bool := match s.yew.queue.find? (fun x => x.mode == 2) with | some x => x.cluster == c.val | none => true
  .next (if !s.commit.quar.any (fun (q : Suspect) => q.cluster == c.val) || mapGet (fun _ => 0) s.commit.confirm c != 0 || heldBack s c
      || s.yew.run.any (fun (x : YewTest) => x.cluster == c.val) then s
    else if !yewAllowed s then yewDenied s
    else if yewFree s 2 && first && (residentOn s (tilesOf c)).isEmpty then beginTest s (newTest 2 c)
    else enqueueTest s (newTest 2 c))

/-- YW_RESULT of a cluster (R444). -/
def setResult (s : State) (c result : Nat) (classes : List Nat) : State :=
  let mask := (classes.eraseDups.filter (fun n => 1 ≤ n && n ≤ 9)).foldl (fun a n => a + 2 ^ (n - 1)) 0
  wr s (ywCl c 0x138) (BitVec.ofNat 64 (place 32 32 (now s / 1000000000) + place 16 9 mask + place 7 1 (bit01 (!rdB s (devReg 3 0x130) 0)) + result))

/-- The march over every row and check bit leaves undefined contents in the scratchpads of the tiles tested (R432) (log entry
202, DEDUCED). -/
def marched (s : State) (ks : List Nat) : State :=
  each ((ks.flatMap tilesOf).filter (fun t => !tileFenced s t)) (fun u t => fillMem u (padBase t) 0x80000 true) s

/-- Clusters are released: reset again and their firmware reloaded; their voltage follows R456 again. -/
def releaseClusters (s : State) (ks : List Nat) : State :=
  resetAndReload { s with yew := { s.yew with testVolt := s.yew.testVolt.filter (fun e => !ks.contains e.1), ready := s.yew.ready.filter (fun c => !ks.contains c) } } ks

/-- Yew is idle. -/
def yewIdle (s : State) : State := wrF { s with yew := { s.yew with run := none } } (ywReg 0x108) 0 12 0

/-- A test that has run is no longer due, and its yield ends (R435). -/
def testRan (s : State) (c : Nat) : State :=
  let s1 := { s with yew := { s.yew with due := mapErase c s.yew.due, vacate := s.yew.vacate.erase c } }
  let y := rd s (ywReg 0x118)
  if bitOf y 63 && fieldOf y 32 9 = c then wr s1 (ywReg 0x118) 0 else s1

/-- A test of clusters ends as INVALID and is queued again after 10 minutes, a sweep with the failures that it is for (R431). -/
def invalidTest (s : State) (t : YewTest) : State :=
  let ks := if t.mode = 4 then s.yew.testVolt.map Prod.fst else [t.cluster]
  let s1 := report (incSat (each ks (fun u c => setResult u c 4 []) s) (ywReg 0x090)) ywPage 0x0F03 { detail := [t.cluster] }
  let again := { newTest t.mode (if t.mode = 4 then 0 else t.cluster) with fails := if t.mode = 3 then t.fails else [] }
  let s2 := { s1 with yew := { s1.yew with again := s1.yew.again ++ [(again, now s + 600000000000)], sdSweeps := if t.mode = 4 then [] else s1.yew.sdSweeps } }
  releaseClusters (marched (yewIdle s2) ks) ks

/-- A condition of R431 has failed for the test in progress, or a fence has come to its cluster (R432). -/
def testBad (s : State) (t : YewTest) : Bool := t.bad || clockBad s || (t.mode != 4 && fencedIn s t.cluster != t.fenced)

/-! ### The margin plan (R440, R441) -/

/-- L_TILE (`off` 8) or L_ROUTER (`off` 12) rises by one when it may. -/
def lengthen (s : State) (c off : Nat) : Option State :=
  let l := rdF s (ywCl c 0x130) off 4
  if l < rdF s (ywReg 0x100) 20 4 then some (report (incSat (wrF s (ywCl c 0x130) off 4 (l + 1)) (ywReg 0x0A0)) ywPage 0x0F05 { detail := [c, l + 1] }) else none

/-- VOLT_STEPS rises by one when it may. -/
def voltStep (s : State) (c : Nat) : Option State :=
  let v := rdF s (ywCl c 0x130) 0 5
  if v < 24 then some (report (incSat (wrF s (ywCl c 0x130) 0 5 (v + 1)) (ywReg 0x0A0)) ywPage 0x0F06 { detail := [c, v + 1] }) else none

/-- No margin action is left for a class (R441, R445). -/
def exhausted (s : State) (k : Nat) : State :=
  report { s with yew := { s.yew with exhausted := if s.yew.exhausted.contains k then s.yew.exhausted else s.yew.exhausted ++ [k] } } ywPage 0x0F07 { detail := [k / 2, k % 2] }

/-- A fence that Yew finds, in all its orders; one that the map holds already is not repeated. -/
def yewFence (s : State) (e : Nat) : State :=
  if s.commit.fenceLog.contains e then s
  else
    let s1 := setFloor (applyFence s e)
    if ywMode s = 4 then { s1 with yew := { s1.yew with sdFences := s1.yew.sdFences + 1 } } else s1

/-- One margin action of the tile groups. -/
def tileAction (s : State) (c : Nat) : State :=
  let a := if rdB s (ywReg 0x100) 1 then (voltStep s c).orElse (fun _ => lengthen s c 8) else (lengthen s c 8).orElse (fun _ => voltStep s c)
  match a with
  | some u => u
  | none => yewFence (exhausted s (2 * c)) (fenceEntry 2 c 0 0x0F07)

/-- One margin action of the router group; `tiles` tripped. -/
def routerAction (s : State) (c : Nat) (tiles : List Nat) : State :=
  match lengthen s c 12 with
  | some u => u
  | none =>
    each tiles (fun u t =>
      each ((List.range 9).filter (fun p => (neighbour t p).isSome)) (fun v p => yewFence v (fenceEntry 3 t p 0x0F07)) (yewFence u (fenceEntry 1 t 0 0x0F07)))
      (exhausted s (2 * c + 1))

/-- Meaning of CANARY_TRIP (R441): a trip of the router's canary, or of another group's, on a tile. -/
def execCanaryTrip (t : TileId) (router : Bool) (s : State) : Host.Outcome State Fault Refusal :=
  let c := clusterOf t
  let k := 2 * c + bit01 router
  let win := now s / 1000000000
  let fresh : Bool := mapGet (fun _ => 0) s.yew.tripWin k != win + 1
  let n := if fresh then 1 else mapGet (fun _ => 0) s.yew.trips k + 1
  let tiles := if fresh then [t.val] else (mapGet (fun _ => []) s.yew.tripTiles k ++ [t.val]).eraseDups
  .next (if underTest s c then s
    else
      let s1 := { s with yew := { s.yew with
        trips := mapPut (fun _ => 0) s.yew.trips k n, tripWin := mapPut (fun _ => 0) s.yew.tripWin k (win + 1)
        tripTiles := mapPut (fun _ => []) s.yew.tripTiles k tiles } }
      let s2 := noteHour (incWrap s1 (ywReg 0x098) 1) c (fun h => { h with trips := min 65535 (h.trips + 1) })
      if rdF s (ywReg 0x100) 24 8 ≤ n && mapGet (fun _ => 0) s.yew.holdEnd k ≤ now s then
        let hold := now s + rdF s (ywReg 0x100) 32 8 * 1000000000
        let s3 := { s2 with yew := { s2.yew with holdEnd := mapPut (fun _ => 0) s2.yew.holdEnd k hold } }
        if router then routerAction s3 c tiles else tileAction s3 c
      else s2)

/-! ### Results (R432, R436–R438) -/

/-- The failures among the tiles of a cluster that are not fenced. -/
def failsIn (s : State) (c : Nat) (l : List (TileId × Fin 10)) : List (Nat × Nat) :=
  (l.filter (fun x => clusterOf x.1 == c && !tileFenced s x.1 && x.2.val != 0)).map (fun x => (x.1.val, x.2.val))

/-- What a cluster's result does before its release: result, records, margin action, hour statistics. -/
def takeResult (s : State) (c : Nat) (fails weak : List (Nat × Nat)) : State :=
  let r := if !fails.isEmpty then 3 else if !weak.isEmpty then 2 else 1
  let s1 := setResult (incWrap s (ywReg 0x080) 1) c r ((fails ++ weak).map Prod.snd)
  let s2 := noteHour s1 c (fun h => { h with passed := h.passed || r != 3, failed := h.failed || r == 3 })
  if r = 3 then report (incSat s2 (ywReg 0x088)) ywPage 0x0F01 { detail := [c] }
  else if r = 2 then tileAction (report s2 ywPage 0x0F02 { detail := [c] }) c
  else s2

/-- The result of a confirmation goes to the step-commit block (R351), and a pass's temperature is kept (R436). -/
def confirmResult (s : State) (c : Nat) (pass : Bool) : State :=
  let s1 := { s with commit := { s.commit with confirm := mapPut (fun _ => 0) s.commit.confirm c (if pass then 1 else 2) } }
  if pass then
    let t := min (mapGet (fun _ => clusterTemp s c) s.yew.passTemp c) (clusterTemp s c)
    { s1 with yew := { s1.yew with passTemp := mapInsert c t (mapErase c s1.yew.passTemp) } }
  else s1

/-- The shut-down record written (R438, R439), or the test fails without an area for it. -/
def writeSdRecord (s : State) : State :=
  let b := fitBytes 4088 (bytesOf 8 0x31524453594B4454 ++ bytesOf 16 Config.serial ++ bytesOf 8 (now s) ++ [1] ++ bytesOf 1 s.yew.sdFences ++ bytesOf 4 (imgVersion s))
  match dirEntry s 4 with
  | some d => ufsWrite s d.1 d.2.1 (b ++ bytesOf 8 (crc64 b)) .sdWrite
  | none => yewIdle (report s ywPage 0x0F0A)

/-- Clusters of a VCORE segment that a shut-down test covers (R438). -/
def testable (s : State) (g : Nat) : List Nat := (segClusters g).filter (fun c => !clusterFenced s c)

/-- The shut-down test goes on with the first segment from `g` on that has clusters to test, or `none` has (R438). -/
def nextWave (s : State) (g : Nat) : Option State :=
  ((List.range 8).find? (fun k => g ≤ k && !(testable s k).isEmpty)).map (fun k =>
    let ks := testable s k
    let s1 := { s with yew := { s.yew with
      run := some { newTest 4 k with fails := [] }, ready := s.yew.ready.filter (fun c => !ks.contains c)
      testVolt := s.yew.testVolt.filter (fun e => !ks.contains e.1) ++ ks.map (fun c => (c, clampVolt (serviceVolt s c))) } }
    wrF (resetClusters s1 ks) (ywReg 0x108) 3 9 (ks.headD 0))

/-- The shut-down test has no segment and no sweep left: clusters are released and the record is written. -/
def sdFinish (s : State) : State :=
  if !s.yew.sdSweeps.isEmpty || s.yew.run.any (fun (t : YewTest) => t.mode == 4 && t.fails.isEmpty) then s
  else writeSdRecord (releaseClusters s (s.yew.testVolt.map Prod.fst))

/-- The channels found by the LPDDR6 phases of the shut-down test: failing or weak ones (R419, R438). -/
def sdChannels (s : State) (chans weak : List Nat) : State :=
  let bad := testFails chans weak
  let s1 := each (weak.eraseDups.filter (fun h => !bad.contains h && !channelFenced s h)) (fun u h => report u (devPage 7) 0x0E09 { detail := [h] }) s
  each bad (fun u h => if channelFenced u h then u else
    let v := memFail u h
    { v with yew := { v.yew with sdFences := v.yew.sdFences + 1 } }) s1

/-- The results of a segment in the shut-down test: a cluster that failed is kept for its sweep, the others are released (R432). -/
def waveDone (s : State) (g : Nat) (service stress : List (TileId × Fin 10)) : State :=
  let ks := (segClusters g).filter (underTest s)
  let s1 := each ks (fun u k =>
    let f := failsIn u k service
    let v := takeResult u k f (failsIn u k stress)
    if f.isEmpty then v else { v with yew := { v.yew with sdSweeps := v.yew.sdSweeps ++ [{ newTest 3 k with fails := f }] } }) s
  let s2 := marched s1 ks
  releaseClusters s2 (ks.filter (fun k => !s2.yew.sdSweeps.any (fun x => x.cluster == k)))

/-- The results of a cluster's INFIELD or CONFIRM test: it is released, or swept, after the CONFIRM tests that wait (R430, R432). -/
def testDone (s : State) (t : YewTest) (service stress : List (TileId × Fin 10)) : State :=
  let c := t.cluster
  let f := failsIn s c service
  let s1 := takeResult s c f (failsIn s c stress)
  let s2 := marched (if t.mode = 2 then confirmResult s1 c f.isEmpty else testRan s1 c) [c]
  if f.isEmpty then releaseClusters (yewIdle s2) [c]
  else
    let sweep := { t with mode := 3, fails := f }
    match (if s2.yew.queue.any (fun x => x.mode == 2) then queueTest s2 sweep else none) with
    | some u => yewIdle u
    | none => wrF { s2 with yew := { s2.yew with run := some sweep } } (ywReg 0x108) 0 3 3

/-- Meaning of TEST_COMPLETE (R432, R438): tiles and pattern classes that differed at the service point and at the stress
point; `chans` and `weak` are the LPDDR6 channels of the units that a shut-down test finds failing, or weak in retention (log entry
129, DEDUCED). -/
def execTestComplete (service stress : List (TileId × Fin 10)) (chans weak : List ChanId) (s : State) : Host.Outcome State Fault Refusal :=
  .next (match s.yew.run with
    | none => s
    | some t =>
      if t.mode = 4 then
        if !t.fails.isEmpty then s
        else if testBad s t then invalidTest s t
        else if !t.started then s
        else
          let s1 := sdChannels (waveDone s t.cluster service stress) (chans.map (fun h => h.val)) (weak.map (fun h => h.val))
          match nextWave s1 (t.cluster + 1) with
          | some u => u
          | none => sdFinish { s1 with yew := { s1.yew with run := some { t with fails := [(4608, 0)] } } }
      else if t.mode != 1 && t.mode != 2 then s
      else if testBad s t then invalidTest s t
      else if !t.started then s
      else testDone s t service stress)

/-! ### Sweeps (R436) -/

/-- A failing point of the grid: tile, pattern class, voltage in mV and lengthening of the tile groups in codes. -/
abbrev GridPoint : Type := TileId × Fin 10 × Fin 801 × Int

/-- The units of the entries: at most two tiles, or the cluster. -/
def sweepUnits (c : Nat) (fails : List (Nat × Nat)) : List (Nat × Nat) :=
  let ts := (fails.map Prod.fst).eraseDups
  if ts.length ≤ 2 then ts.map (fun t => (1, t)) else [(2, c)]

/-- VALUE of a VOLT_BELOW entry: every failing point at the service trims lies below a grid voltage that passes. -/
def sweepVolt (c : Nat) (grid : List GridPoint) : Option Nat :=
  let bad := (grid.filter (fun g => clusterOf g.1 == c && g.2.2.2 == 0)).map (fun g => g.2.2.1.val)
  let vf := (bad.foldl max 0 - 720) / 20 * 20 + 740
  if bad.isEmpty || 800 < vf then none else some (vf + 20)

/-- VALUE of a TEMP_ABOVE entry: two strikes or more at or above T_f, and a pass at least 10 °C below. -/
def sweepTemp (s : State) (c : Nat) : Option Nat :=
  match mapFind c s.yew.strikeTemp, mapFind c s.yew.passTemp with
  | some a, some p =>
    let tf := a / 10
    if 2 ≤ (mapGet (fun _ => (0, 0)) s.commit.strikes c).1 && p ≤ 10 * tf - 100 then some (tf - 5).toNat else none
  | _, _ => none

/-- The failing points of the grid in a cluster: tile and class. -/
def gridFails (c : Nat) (grid : List GridPoint) : List (Nat × Nat) :=
  (grid.filter (fun g => clusterOf g.1 == c)).map (fun g => (g.1.val, g.2.1.val))

/-- The entries that Yew chooses from the first row that fits (R436) (log entry 132, DEDUCED). -/
def sweepEntries (s : State) (c : Nat) (fails : List (Nat × Nat)) (grid : List GridPoint) : List Nat :=
  let us := sweepUnits c (fails ++ gridFails c grid)
  let classes := (fails.map Prod.snd).eraseDups
  if classes.length < 9 then us.flatMap (fun u => classes.map (fun n => fenceEntry u.1 u.2 0 0x0F01 3 n))
  else match sweepVolt c grid with
    | some v => us.map (fun u => if serviceVolt s c < 10 * v then fenceEntry u.1 u.2 0 0x0F01 else fenceEntry u.1 u.2 0 0x0F01 2 v)
    | none => match sweepTemp s c with
      | some v => us.map (fun u => fenceEntry u.1 u.2 0 0x0F01 1 v)
      | none => us.map (fun u => fenceEntry u.1 u.2 0 0x0F01)

/-- The sweep of a cluster ends (R436): its entries are applied and the cluster is released. -/
def sweepDone (s : State) (t : YewTest) (grid : List GridPoint) : State :=
  releaseClusters (marched (yewIdle (each (sweepEntries s t.cluster t.fails grid) yewFence s)) [t.cluster]) [t.cluster]

/-- A queued sweep whose turn it is begins, on a cluster that is still held for it or is vacated (R430). -/
def beginSweep (s : State) : State :=
  match (if yewFree s 3 then s.yew.queue.find? (fun x => x.mode == 3) else none) with
  | none => s
  | some x =>
    if underTest s x.cluster then
      let s1 := setQueue s (s.yew.queue.erase x)
      wrF (wrF { s1 with yew := { s1.yew with run := some x } } (ywReg 0x108) 0 3 3) (ywReg 0x108) 3 9 x.cluster
    else if (placedOn s x.cluster).isEmpty then beginTest s x else s

/-- Meaning of SWEEP (R431, R436): the failing points of the grid; the entries are applied and the cluster released. With Yew idle
it begins the sweep that waits first. -/
def execSweep (grid : List (TileId × Fin 10 × Fin 801 × Int)) (s : State) : Host.Outcome State Fault Refusal :=
  .next (match s.yew.run with
    | none => beginSweep s
    | some t =>
      if t.mode = 3 then (if testBad s t then invalidTest s t else if t.started then sweepDone s t grid else s)
      else if t.mode = 4 then
        match s.yew.sdSweeps with
        | x :: l =>
          if testBad s t then invalidTest s t
          else
            let s1 := marched { s with yew := { s.yew with sdSweeps := l } } [x.cluster]
            sdFinish (releaseClusters (each (sweepEntries s1 x.cluster x.fails grid) yewFence s1) [x.cluster])
        | [] => s
      else s)

/-! ### The shut-down test (R438) -/

/-- SHUTDOWN_TEST: refused while a context is resident; a test in progress ends as INVALID. The logic is tested one VCORE segment
after the other, and the LPDDR6 phases leave its contents undefined (R419, R438) (log entry 133, DEDUCED). -/
def shutdownTest (s : State) : State :=
  if !yewAllowed s then yewDenied s
  else if anyResident s then reportB s ywPage 8 0x0F0A
  else if s.yew.run.any (fun (t : YewTest) => t.mode == 4 || t.mode == 5) then ignored s ywPage
  else
    let s1 := match s.yew.run with | some t => invalidTest s t | none => s
    let s2 := fillMem { s1 with yew := { s1.yew with sdFences := 0, sdSweeps := [], run := some { newTest 4 8 with fails := [(4608, 0)] } } } 0 0x6000000000 true
    let s3 := wrF s2 (ywReg 0x108) 0 3 4
    (nextWave s3 0).getD (sdFinish s3)

/-- Meaning of REQUEUE_TIMER (R431): tests whose 10 minutes have passed are queued again, as far as there is room; a shut-down
test goes first (R430). -/
def execRequeueTimer (s : State) : Host.Outcome State Fault Refusal :=
  let l := s.yew.again.filter (fun x => x.2 ≤ now s)
  .next (each l (fun u x =>
      if x.1.mode = 4 then shutdownTest u
      else match queueTest u x.1 with
        | some v => v
        | none => { u with yew := { u.yew with again := u.yew.again ++ [x] } })
    { s with yew := { s.yew with again := s.yew.again.filter (fun x => now s < x.2) } })

/-- The shut-down record was written, or could not be (R438). -/
def sdWritten (s : State) (ok : Bool) : State :=
  if ywMode s != 4 then s
  else if ok then report (wrB (yewIdle s) (ywReg 0x108) 17 true) ywPage 0x0F09 else report (yewIdle s) ywPage 0x0F0A

/-! ### RAW mode and YW_CMD (R429, R444) -/

/-- RAW_ENTER. -/
def rawEnter (s : State) : State :=
  if !rawAllowed s then yewDenied s
  else if s.yew.run.isSome then ignored s ywPage
  else wrF { s with yew := { s.yew with run := some (newTest 5 0) }, pad := { s.pad with rawMode := true } } (ywReg 0x108) 0 3 5

/-- The effect of a write of YW_CMD (R444). -/
def ywCmd (s : State) (cmd c : Nat) : State :=
  match cmd with
  | 0 => s
  | 1 => shutdownTest s
  | 2 => yieldGrant s
  | 3 => if 288 ≤ c then ignored s ywPage else if yewAllowed s then makeDue s c (now s) else yewDenied s
  | 4 => rawEnter s
  | 5 => leaveRaw s
  | _ => ignored s ywPage

/-- YW_NEXT of a cluster. -/
def ywNext (s : State) (c : Nat) : W64 :=
  let (d, p) : Nat × Bool := match mapFind c s.yew.due with
    | some d => (d, true)
    | none => (s.yew.nextDt + ((c + 288 - (s.yew.last + 1) % 288) % 288) * testPeriod s, false)
  BitVec.ofNat 64 (place 32 32 (d / 1000000000) + bit01 p)

/-! ### Ageing records (R443) -/

/-- Entry of a cluster in the record of hour `k`. -/
def ageEntry (s : State) (k c : Nat) : List Byte :=
  let h := hourOf s k c
  let flags := bit01 (clusterFenced s c) + 2 * bit01 (s.yew.exhausted.any (fun k => k / 2 == c)) + 4 * bit01 h.passed + 8 * bit01 h.failed
  bytesOf 2 c ++ bytesOf 3 (h.sum / h.count) ++ bytesOf 3 h.low ++ bytesOf 8 (trimVector s c) ++ bytesOf 1 (rdF s (ywCl c 0x130) 0 5)
    ++ bytesOf 1 (patternOf 8 h.hot) ++ bytesOf 2 h.trips ++ bytesOf 1 (rdF s (ywCl c 0x130) 16 8) ++ bytesOf 1 flags ++ bytesOf 2 0

/-- The slot of hour `k`. -/
def ageSlot (s : State) (k : Nat) : List Byte :=
  let b := fitBytes 8184 (fitBytes 64 (bytesOf 8 0x31304547414B4454 ++ bytesOf 8 k ++ bytesOf 8 Config.serial) ++ ((List.range 288).map (ageEntry s k)).flatten)
  b ++ bytesOf 8 (crc64 b)

/-- Hours before `w` are over: their statistics are given up. -/
def dropHours (s : State) (w : Nat) : State :=
  { s with yew := { s.yew with aged := w, hour := s.yew.hour.filter (fun e => w * 512 ≤ e.1) } }

/-- Meaning of AGEING_RECORD (R443): the hour that has ended is written to its slot, once. -/
def execAgeingRecord (s : State) : Host.Outcome State Fault Refusal :=
  let w := now s / hourNs
  .next (if w = 0 || s.yew.aged = w then s
    else match dirEntry s 4 with
      | some d => ufsWrite (dropHours s w) d.1 (d.2.1 + 1 + 2 * ((w - 1) % 8784)) (ageSlot s (w - 1)) (.ageWrite w)
      | none => report (dropHours s w) ywPage 0x0F0B)

end Sys2Proof.Machine
end

