-- ==== Sys2Proof/Machine/Security.lean ====
section
/-! DEFINITION. Hawthorn's commands (R470–R473, R476–R483, R488): attestation, debug sessions and the life cycle. -/

namespace Sys2Proof.Machine

/-- The Hawthorn page. -/
def hwPage : Nat := devPage 8
/-- HW_STAT.BUSY. -/
def hwBusy (s : State) : Bool := rdB s (hwReg 0x100) 14
/-- BUSY set or cleared. -/
def setBusy (s : State) (b : Bool) : State := wrB s (hwReg 0x100) 14 b

/-! ### The challenge (R470) and the random source (R466) -/

/-- The challenge shown, as a number. -/
def challenge (s : State) : Nat := natOfBytes (regBytes s (hwReg 0x120))

/-- The challenge that is current. -/
def currentChallenge (s : State) : Option Nat :=
  match s.sec.chal with
  | some t => if now s < t + 600000000000 then some (challenge s) else none
  | none => none

/-- A read of HW_CHAL_0 draws a fresh challenge while the random source is healthy (log entry 135, DEDUCED). -/
def drawChallenge (s : State) : State :=
  if s.sec.trngOk then
    let s1 := wrBytes (drawn s) (hwReg 0x120) (freeNat s % 2 ^ 256)
    { s1 with sec := { s1.sec with chal := some (now s) } }
  else s

/-- Meaning of TRNG_FAIL (R466). -/
def execTrngFail (s : State) : Host.Outcome State Fault Refusal :=
  .next (report { s with sec := { s.sec with trngOk := false, trngDt := now s } } hwPage 0x110A)

/-- Meaning of TRNG_RETEST (R466): the tests are tried again 1 s after a failure. -/
def execTrngRetest (ok : Bool) (s : State) : Host.Outcome State Fault Refusal :=
  .next (if s.sec.trngOk || now s < s.sec.trngDt + 1000000000 then s
    else if ok then { s with sec := { s.sec with trngOk := true } }
    else report { s with sec := { s.sec with trngDt := now s } } hwPage 0x110A)

/-! ### Tokens (R471, R473, R481) -/

/-- How a read of a token or buffer stands. -/
inductive TokenRead where
  | bytes (b : List Byte)
  | wait
  | bad
  deriving DecidableEq, Repr

/-- What reading a record from memory answers; a poisoned byte spoils it. -/
def tokenLines (r : List (Option Byte) × State) : TokenRead × State :=
  if r.1.any (fun o => o.isNone) then (.bad, r.2) else (.bytes (r.1.map (fun o => o.getD 0)), r.2)

/-- What reading a record over the gateway answers. -/
def tokenGw (r : GwRes × State) : TokenRead × State :=
  match r.1 with
  | .ok b => (.bytes b, r.2)
  | .wait => (.wait, r.2)
  | .fail _ => (.bad, r.2)

/-- A record read in the region `g`. -/
def readTokenIn (s : State) (a n : Nat) (g : Region) : TokenRead × State :=
  match g with
  | .lpddr =>
    if !dramMapped s a n then (.bad, s)
    else if unsettled s a n false then (.wait, settle s a n false)
    else tokenLines (dramRead s a n none)
  | .companion => if 0x1000000000000 < a + n then (.bad, s) else tokenGw (gwAccess s a n none)
  | _ => (.bad, s)

/-- Bytes of a token at a device physical address, in LPDDR6 or in companion memory. -/
def readToken (s : State) (a n : Nat) : TokenRead × State := readTokenIn s a n (regionOf a)

/-- A signature under the owner key (1) or the Treystad debug key (2). -/
def signedBy (s : State) (key : Nat) (b : List Byte) : Bool :=
  if key = 2 then Config.verify 2 b
  else if key = 1 then (match s.sec.fuses.ownerKey with | some k => Config.verify 4 (k ++ b) | none => false)
  else false

/-- A token is refused (R473, R490). -/
def tokenRefused (s : State) (code : Nat) : State :=
  report (if code = 0x1101 || code = 0x1102 then incSat s (hwReg 0x090) else s) hwPage code

/-- The challenge of a token is the one that was current, and is consumed. -/
def consumeChallenge (s : State) (chal : Option Nat) : State :=
  if chal = some (challenge s) then { s with sec := { s.sec with chal := none } } else s

/-! ### Debug sessions (R480–R483, R487) -/

/-- The rows of R487 that allow a level, by life-cycle state and key. -/
def levelAllowed (lc level key : Nat) : Bool :=
  match lc with
  | 1 => 1 ≤ level && level ≤ 3 && key == 2
  | 2 => (level == 1 || level == 2) && (key == 1 || key == 2)
  | 3 => (level == 1 || level == 2) && key == 1
  | 4 => 1 ≤ level && level ≤ 3 && key == 2
  | _ => false

/-- The code of the first condition of R482 that a debug token fails. -/
def debugRefusal (s : State) (b : List Byte) (chal : Option Nat) : Option Nat :=
  let level := stmtNat b 24 1
  let key := stmtNat b 26 1
  if !(stmtNat b 0 8 == 0x31304742444B4454 && signedBy s key b && stmtNat b 8 16 == Config.serial % 2 ^ 128
      && 1 ≤ level && level ≤ 3 && (level == 2 || stmtNat b 25 1 == 0) && stmtNat b 27 5 == 0 && stmtNat b 80 16 == 0) then some 0x1101
  else if chal != some (stmtNat b 32 32) then some 0x1102
  else if !levelAllowed (lifeCycle s) level key then some 0x1103
  else if now s < stmtNat b 64 8 || stmtNat b 72 8 ≤ now s then some 0x1103
  else if s.sec.session.isSome || rdB s (hwReg 0x100) 15 then some 0x1104
  else none

/-- Clusters on whose tiles a context holds a residence slot. -/
def clustersOf (s : State) (c : Nat) : List Nat := ((ctxTiles s c).map clusterOf).eraseDups

/-- A session opens (R482). -/
def openSession (s : State) (b : List Byte) : State :=
  let level := stmtNat b 24 1
  let ctx := if level = 2 then stmtNat b 25 1 else 0
  let key := stmtNat b 26 1 - 1
  let s1 := { s with sec := { s.sec with session := some { level := level, ctx := ctx, key := key, notAfter := stmtNat b 72 8 } }
                     power := { s.power with zeroBanks := if level = 2 then clustersOf s ctx else [] } }
  let d := place 32 32 (stmtNat b 72 8 / 1000000000) + place 16 8 ctx + place 8 4 (rdF s (hwReg 0x118) 8 4) + place 2 1 key + level
  let s2 := wr (wrF s1 (hwReg 0x100) 4 2 level) (hwReg 0x118) (BitVec.ofNat 64 d)
  report (incWrap (extendMr s2 5 (bytesOf 32 (Config.shake256 (b.take 96) 32))) (hwReg 0x088) 1) hwPage 0x1105 { detail := [level] }

/-- DEBUG_OPEN with the token read. -/
def debugOpen (s : State) (b : List Byte) (chal : Option Nat) : State :=
  let s1 := if chal = some (stmtNat b 32 32) then consumeChallenge s chal else s
  match debugRefusal s b chal with
  | some code => tokenRefused s1 code
  | none => openSession s1 b

/-- Meaning of SESSION_EXPIRED (R482). -/
def execSessionExpired (s : State) : Host.Outcome State Fault Refusal :=
  .next (match s.sec.session with
    | some x => if x.notAfter ≤ now s then endSession s 2 else s
    | none => s)

/-- DBG_HOLD (R483). -/
def dbgHold (s : State) : State :=
  match s.sec.session with
  | some x => wrB { s with recov := { s.recov with dbgHold := some x.ctx } } (hwReg 0x118) 3 true
  | none => s

/-- DBG_RELEASE (R483). -/
def dbgRelease (s : State) : State := wrB { s with recov := { s.recov with dbgHold := none } } (hwReg 0x118) 3 false

/-! ### The life cycle (R472, R473) -/

/-- Transitions of R472 that take a token: keys that may sign them. -/
def transitionKeys (lc target : Nat) : List Nat :=
  match lc, target with
  | 1, 2 => [2]
  | 1, 5 => [2]
  | 2, 3 => [1]
  | 2, 4 => [1, 2]
  | 3, 4 => [1, 2]
  | 2, 5 => [1]
  | 3, 5 => [1]
  | 4, 5 => [2]
  | _, _ => []

/-- A transition is allowed now (R472, R473 step 2). -/
def transitionOk (s : State) (target : Nat) : Bool :=
  !anyResident s && (target == 5 || !s.sec.fuses.failed)
    && (lifeCycle s != 1 || target != 2 || (debugLevel s == 3 && s.sec.trngOk))

/-- The fuses blown by a transition; a fuse that fails its read-back leaves the state as it was (log entry 137, DESIGN CHOICE). -/
def blowFuses (s : State) (target : Nat) (owner : List Byte) : State :=
  let f := s.sec.fuses
  let ok := Config.freeBool s.free
  let f1 : Fuses := if target = 2 then { f with lc := 2, ownerKey := some owner, dus := some (Config.freeNat s.free % 2 ^ 256) }
    else if target = 5 && lifeCycle s != 0 then { f with lc := 5, dus := some (2 ^ 256 - 1) }
    else { f with lc := target }
  let s1 := endSession (drawn s) 5
  if ok then coldReset (report { s1 with sec := { s1.sec with fuses := f1 } } hwPage 0x1106 { detail := [target] })
  else report { s1 with sec := { s1.sec with fuses := { f with failed := true } } } hwPage 0x110D

/-- LC_ADVANCE out of BLANK, which takes no token; after a fuse has failed only END is left (log entry 136, DEDUCED). -/
def advanceBlank (s : State) : State :=
  let target := if s.sec.fuses.failed then 5 else 1
  if transitionOk s target then blowFuses s target [] else report s hwPage 0x1107

/-- LC_ADVANCE with the token read (R473). -/
def advanceToken (s : State) (b : List Byte) (chal : Option Nat) : State :=
  let target := stmtNat b 24 1
  let key := stmtNat b 25 1
  let keys := transitionKeys (lifeCycle s) target
  let s1 := if chal = some (stmtNat b 32 32) then consumeChallenge s chal else s
  if !(stmtNat b 0 8 == 0x313054434C4B4454 && signedBy s key b && stmtNat b 8 16 == Config.serial % 2 ^ 128 && stmtNat b 26 6 == 0
      && (target == 2 || stmtNat b 64 64 == 0) && (keys.isEmpty || keys.contains key)) then tokenRefused s1 0x1101
  else if chal != some (stmtNat b 32 32) then tokenRefused s1 0x1102
  else if keys.isEmpty || !transitionOk s target then tokenRefused s1 0x1107
  else blowFuses s1 target ((b.drop 64).take 64)

/-! ### Attestation (R478, R479) -/

/-- Payload of the evidence (R479). -/
def evidence (s : State) : List Byte :=
  let bs (a n : Nat) : List Byte := (List.range n).flatMap (fun k => bytesOf 8 (rd s (a + 8 * k)).toNat)
  let ctx := match s.sec.session with | some x => if x.level = 2 then x.ctx else 0 | none => 0
  cborMap
    [ (0, cborText [0x74, 0x65, 0x76, 0x2F, 0x31]), (1, cborBytes (bytesOf 16 Config.serial)), (2, cborBytes (bs (hwReg 0x140) 4))
    , (3, cborNat (now s)), (4, cborNat (lifeCycle s)), (5, cborArray [cborNat (debugLevel s), cborNat ctx])
    , (6, cborNat (rdF s (hbReg 0x108) 10 2)), (7, match s.boot.licence with | some l => cborNat l.number | none => cborNull)
    , (8, cborArray ((List.range 8).map (fun j => cborBytes (bs (hwReg (0x200 + 0x20 * j)) 4))))
    , (9, cborNat (imgVersion s)), (10, cborNat s.sec.fuses.minEpoch)
    , (11, cborArray [cborNat (rdF s (hbReg 0x150) 48 16), cborNat (rdF s (hbReg 0x150) 32 16), cborNat (rdF s (hbReg 0x150) 16 16), cborNat (rdF s (hbReg 0x150) 0 16)])
    , (12, [if rdB s (hwReg 0x100) 16 then 0xF5 else 0xF4]) ]

/-- The COSE_Sign1 of a payload (R478, RFC 9052). -/
def coseSign (s : State) (payload : List Byte) : List Byte :=
  let prot := cborMap [(1, cborInt (-65537))]
  let sigText : List Byte := [0x53, 0x69, 0x67, 0x6E, 0x61, 0x74, 0x75, 0x72, 0x65, 0x31]
  let toSign := cborArray [cborText sigText, cborBytes prot, cborBytes [], cborBytes payload]
  let sig := bytesOf 49856 (Config.sign (s.sec.fuses.dus.getD 0) toSign 49856)
  0xD2 :: cborArray [cborBytes prot, cborMap [(4, cborBytes (bytesOf 32 (Config.shake256 (idPub s) 32)))], cborBytes payload, cborBytes sig]

/-- The buffer and the life-cycle state allow evidence (R478). -/
def attestOk (s : State) (a : Nat) : Bool :=
  regionOf a == .lpddr && a % 4096 == 0 && dramMapped s a 65536 && !(List.range 16).any (fun i => isDurable s (a + 4096 * i))
    && 2 ≤ lifeCycle s && lifeCycle s ≤ 4 && hasIdentity s

/-- ATTEST performed: evidence written, or FAILED. -/
def attest (s : State) (a : Nat) : State :=
  let item := coseSign s (evidence s)
  if attestOk s a then
    let s1 := (mappedWrite s (devPage 8) a ((bytesOf 4 item.length ++ item).map some) none).2
    wr (incWrap s1 (hwReg 0x080) 1) (hwReg 0x160) (BitVec.ofNat 64 (place 32 32 item.length + 2))
  else wr (report s hwPage 0x110B) (hwReg 0x160) 3

/-! ### HW_CMD (R484, R488) -/

/-- EPOCH_COMMIT (R476). -/
def epochCommit (s : State) : State :=
  let n := min 63 (rdF s (hwReg 0x100) 32 8)
  if (lifeCycle s = 2 || lifeCycle s = 3) && s.sec.fuses.minEpoch < n then
    showFuses { s with sec := { s.sec with fuses := { s.sec.fuses with minEpoch := n } } }
  else report s hwPage 0x110C

/-- FENCE_LOG_CLEAR (R484): the area is erased; fences stay in force until the next bring-up. -/
def fenceLogClear (s : State) : State :=
  match dirEntry s 3 with
  | some d => each (List.range d.2.2) (fun u i => ufsWrite u d.1 (d.2.1 + i) (List.replicate 4096 0) .host) { s with ufs := { s.ufs with logCur := [] } }
  | none => s

/-- A command begins: BUSY until HW_COMMAND_DONE. -/
def hwBegin (s : State) (cmd : Nat) : State :=
  setBusy { s with sec := { s.sec with running := some (cmd, rdF s (hwReg 0x110) 0 48, currentChallenge s) } } true

/-- The effect of a write of HW_CMD (R488). Commands that read a token or sign evidence do so until HW_COMMAND_DONE;
the others act at once (log entry 138, DEDUCED) (log entry 140, DEDUCED). -/
def hwCmd (s : State) (cmd mr : Nat) : State :=
  if cmd = 0 then s
  else if hwBusy s then report s hwPage 0x1108
  else match cmd with
    | 1 => wr (hwBegin s 1) (hwReg 0x160) 1
    | 2 => hwBegin s 2
    | 3 => if s.sec.session.isSome then endSession (hwBegin s 3) 1 else ignored s hwPage
    | 4 => hwBegin s 4
    | 5 => if mr = 6 || mr = 7 then extendMr (hwBegin s 5) mr (regBytes s (hwReg 0x1C0)) else ignored s hwPage
    | 6 => epochCommit (hwBegin s 6)
    | 7 => if debugLevel s = 2 then dbgHold (hwBegin s 7) else setErr s hwPage 1
    | 8 => if debugLevel s = 2 then dbgRelease (hwBegin s 8) else ignored s hwPage
    | 9 => if rawAllowed s then fenceLogClear (hwBegin s 9) else setErr s hwPage 1
    | _ => ignored s hwPage

/-- A command that reads a token: what it does, or `none` while its data are still to come. -/
def withToken (s : State) (a n : Nat) (f : State → List Byte → State) : Bool × State :=
  let r := readToken s a n
  match r.1 with
  | .bytes b => (true, f r.2 b)
  | .wait => (false, r.2)
  | .bad => (true, tokenRefused r.2 0x1101)

/-- The command in progress performed: whether it is over. -/
def hwPerform (s : State) (cmd a : Nat) (chal : Option Nat) : Bool × State :=
  match cmd with
  | 1 => if attestOk s a && unsettled s a 65536 true then (false, settle s a 65536 true) else (true, attest s a)
  | 2 => withToken s a 29888 (fun u b => debugOpen u b chal)
  | 4 => if lifeCycle s = 0 then (true, advanceBlank s) else withToken s a 29920 (fun u b => advanceToken u b chal)
  | _ => (true, s)

/-- Meaning of HW_COMMAND_DONE (R488): the command in progress ends, BUSY clears and source 383 is raised; one whose
data the companion still holds goes on. -/
def execHwCommandDone (s : State) : Host.Outcome State Fault Refusal :=
  .next (match s.sec.running with
    | none => s
    | some r =>
      let p := hwPerform s r.1 r.2.1 r.2.2
      if !p.1 then p.2
      else if p.2.time.held then p.2
      else raise (setBusy { p.2 with sec := { p.2.sec with running := none } } false) 383)

end Sys2Proof.Machine
end

