-- ==== Sys2Proof/Machine/RegAccess.lean ====
section
/-! DEFINITION. Register accesses (R308–R315, R484): which agent reaches which register, the checks of a write in
their order, what each register's write does, and what a read shows and samples away. -/

namespace Sys2Proof.Machine

/-! ### Registers behind an index register -/

/-- The key under which a register is held: an index register chooses the copy that is reached (log entry 3, DESIGN CHOICE). -/
def regKey (s : State) (k : PageKind) (a off : Nat) : Nat :=
  match k with
  | .commit => if 0x180 ≤ off && off ≤ 0x1D0 then banked a (rdF s (devReg 11 0x108) 0 8) else a
  | .ckpt => if 0x180 ≤ off && off ≤ 0x1C0 then banked a (rdF s (devReg 12 0x108) 0 2) else a
  | .bramble => if off = 0x150 then banked a (rdF s (devReg 10 0x148) 0 8) else a
  | .yew => if 0x128 ≤ off && off ≤ 0x140 then banked a (rdF s (devReg 9 0x120) 0 9) else a
  | .power => if off = 0x120 then banked a (rdF s (devReg 13 0x118) 0 8) else a
  | .gorbin =>
    if off = 0x158 || off = 0x160 then banked a (rdF s (devReg 5 0x150) 0 10)
    else if off = 0x1C8 then banked a (rdF s (devReg 5 0x1C0) 0 8) else a
  | .fabric =>
    if off = 0x110 then banked a (rdF s (devReg 3 0x108) 0 11)
    else if off = 0x120 then banked a (rdF s (devReg 3 0x118) 0 12) else a
  | .router => if off = 0x128 then banked a (rdF s (a - 8) 0 12) else a
  | _ => a

/-- An index register advanced after an access of its data register. -/
def advance (s : State) (a n size : Nat) : State := wrF s a 0 n ((rdF s a 0 n + 1) % size)

/-! ### Fences and access rights (R315, R484) -/

/-- The block of a page, or the tile that holds it, is fenced (R310) (log entry 69, DEDUCED). -/
def blockFenced (s : State) (k : PageKind) (i : Nat) : Bool :=
  match k with
  | .cluster => clusterFenced s i
  | .port => portState s i == 5
  | .memctl => (List.range 4).all (fun h => channelFenced s (4 * i + h))
  | .tTile => tileFenced s i | .vTile => tileFenced s i | .sTile => tileFenced s i | .dataflow => tileFenced s i
  | .scratch => tileFenced s i | .router => tileFenced s i | .qctl => tileFenced s i
  | .qdesc _ => tileFenced s i | .qcount _ => tileFenced s i
  | _ => false

/-- The block of a page is inside a reset domain that has not completed (R310, R383) (log entry 70, DEDUCED). -/
def blockInReset (s : State) (k : PageKind) (i : Nat) : Bool :=
  let warm := rstBusy s && s.recov.resetCmd == 3
  let domain := warm || s.recov.resetting.contains (clusterOf i) || (mapFind (clusterOf i) s.yew.testVolt).isSome
  match k with
  | .cluster => warm || s.recov.resetting.contains i
  | .router => false
  | .tTile => domain | .vTile => domain | .sTile => domain
  | .dataflow => domain | .scratch => domain | .qctl => domain
  | .qdesc _ => domain | .qcount _ => domain
  | .power => warm | .i3c => warm
  | .hornbeam => warm | .yew => warm | .bramble => warm | .port => warm | .gorbin => warm | .memctl => warm
  | .fabric => warm | .memmap => warm | .commit => warm | .ckpt => warm | .ufs => warm
  | _ => false

/-- PAGE_STAT (R310). -/
def pageStat (s : State) (k : PageKind) (i : Nat) : W64 :=
  BitVec.ofNat 64 (place 1 1 (bit01 (blockFenced s k i)) + bit01 (blockInReset s k i))

/-- Writes to a fenced page are ignored (R315), but for ERR_STAT, the router page, and the register that ends a
port's own fence (R238). -/
def fencedWrite (s : State) (k : PageKind) (i off : Nat) : Bool :=
  blockFenced s k i && off != 0x20 && k != .router && !(k == .port && off == 0x100)

/-- The contexts whose handler-store range holds a word (R484). -/
def hsOwners (s : State) (t a : Nat) : List Nat :=
  (List.range 8).filterMap (fun r =>
    let v := rd s (spReg t (0x140 + 8 * r))
    let b := hsBound s t r
    if guardOk v && bitOf v 8 && b.1 ≤ a && a < b.2 then some (fieldOf v 0 8) else none)

/-- The binding registers of R484. -/
def isBinding (k : PageKind) (off : Nat) : Bool :=
  match k with
  | .scratch => (0x140 ≤ off && off < 0x180) || 0x400 ≤ off || (0x180 ≤ off && off < 0x200 && off % 0x20 == 0)
  | .qctl => 0x180 ≤ off && off < 0x240
  | _ => false

/-- HW_CMD, HW_ARG, HW_NONCE and HW_EXTEND. -/
def hwInput (off : Nat) : Bool := off == 0x108 || off == 0x110 || (0x140 ≤ off && off < 0x160) || (0x1C0 ≤ off && off < 0x1E0)

/-- Yew's RAW registers. -/
def ywRaw (off : Nat) : Bool := off == 0x800 || off == 0x808 || off == 0x810

/-- The pages that the board management controller reads (R515). -/
def bmcReads (k : PageKind) (off : Nat) : Bool :=
  match k with
  | .cluster => true | .ic => true | .log => true | .timebase => true | .hornbeam => true
  | .hawthorn => !hwInput off | .commit => true | .power => true | .i3c => true
  | _ => false

/-- The writes of the board management controller (R515). -/
def bmcWrites (s : State) (k : PageKind) (off : Nat) : Bool :=
  (k == .power && off == 0x128) || (!gbUp s && ((k == .log && off == 0x110) || (k == .commit && off == 0x120)))

/-- What the companion is refused (R484). -/
def companionDenied (s : State) (k : PageKind) (i off : Nat) (write : Bool) (v : W64) : Bool :=
  if lifeCycle s = 5 then write || !(k == .hawthorn || k == .gorbin)
  else if k == .hawthorn then (if hwInput off then !write || (off == 0x108 && fieldOf v 0 4 == 9 && !rawAllowed s) else write)
  else if k == .yew && ywRaw off then !rawAllowed s
  else if isBinding k off then write && debugLevel s != 3
  else if k == .qctl && off == 0x148 then !privateOk s (hsOwners s i (rdF s (qctl i 0x140) 0 13)) write
  else false

/-- What Hornbeam is refused (R484). -/
def hornbeamDenied (k : PageKind) (off : Nat) (write : Bool) (v : W64) : Bool :=
  (k == .hawthorn && (hwInput off || write)) || (k == .yew && ywRaw off)
    || ((k == .tTile || k == .vTile) && off == 0x400 && write && bitOf v 2)

/-- An access that life-cycle state, debug level or the agent's table refuses (R484, R515) (log entry 72, DEDUCED). -/
def regDenied (s : State) (a : Agent) (k : PageKind) (i off : Nat) (write : Bool) (v : W64) : Bool :=
  match a with
  | .companion => companionDenied s k i off write v
  | .hornbeam => hornbeamDenied k off write v
  | .bmc => if write then !bmcWrites s k off else !bmcReads k off
  | .hawthorn => false
  | .yew => false

/-- In HALTED only INSTALL_LICENCE, its argument and the resets are accepted (R405) (log entry 73, DEDUCED). -/
def haltedWrite (s : State) (k : PageKind) (off : Nat) (v : W64) : Bool :=
  hbPhase s == 10 && !(k == .hornbeam && (off == 0x118 || (off == 0x110 && fieldOf v 0 3 == 3)))
    && !(k == .bramble && (off == 0x180 || 0x1C0 ≤ off))

/-! ### What a write does, page by page -/

/-- SCR_INJECT may be set (R73): the tile's current context is that of a D2 session, D3, MANUFACTURE or RETURNED (log entry 78, DEDUCED). -/
def injectOk (s : State) (t : Nat) : Bool :=
  debugLevel s == 3 || lifeCycle s == 1 || lifeCycle s == 4 || ((actOf s t).on && debugCtx s == some (actOf s t).ctx)

/-- A write of ARITH_CTRL (R73). -/
def arithCtrl (s : State) (t : Nat) (v : W64) : State :=
  wr s (tileReg t 0 0x400) (if bitOf v 2 && !injectOk s t then setBit v 2 false else v)

/-- A register of a shadow record written (R85, R126): the record that the write makes is checked (log entry 26, DEDUCED). -/
def shadowRec (s : State) (t slot j : Nat) (v : W64) : State :=
  let w := slotWords s t false slot
  storeRec s t slot ((w.set (2 * j) (fieldOf v 0 32)).set (2 * j + 1) (fieldOf v 32 32))

/-- A write of a dataflow page (R126, R140). -/
def dfWrite (s : State) (t off : Nat) (v : W64) : State :=
  if off = 0x120 then wr s (dfReg t off) v
  else if shadowLocked s t then ignored s (dfPage t)
  else if 0x800 ≤ off && off % 0x80 < 0x40 then shadowRec s t ((off - 0x800) / 0x80) (off % 0x80 / 8) v
  else wr s (dfReg t off) v

/-- A cluster holds a region of the open D2 session's context, which its banks remember (R486). -/
def noteDebugRegion (s : State) (t r : Nat) : State :=
  let v := rd s (spReg t (0x140 + 8 * r))
  if bitOf v 8 && debugCtx s == some (fieldOf v 0 8) && !s.power.zeroBanks.contains (clusterOf t) then
    { s with power := { s.power with zeroBanks := s.power.zeroBanks ++ [clusterOf t] } }
  else s

/-- Contexts that the licence allows (R425). -/
def licensedContexts (s : State) : Nat :=
  match rdF s (hbReg 0x108) 10 2 with
  | 1 => 256
  | 2 => 64
  | _ => 16

/-- A context is bound since bring-up (R420). -/
def noteBound (s : State) : State := { s with boot := { s.boot with bound := true } }

/-- A write of RES_CTX_r. Hornbeam, when it binds a context, writes its epoch into the Gorbin port's tables (R302) (log entry
186, DEDUCED). -/
def bindWrite (s : State) (t r : Nat) (v : W64) (hornbeam : Bool) : State :=
  let c := fieldOf v 0 8
  let s1 := resCtxWrite (if bitOf v 8 && c < licensedContexts s then noteBound s else s) t r v (licensedContexts s)
  if hornbeam && bitOf v 8 && c < licensedContexts s && (slotOfCtx s1 t c).isSome then gbEpochs s1 c (epochOf s1 c) else s1

/-- A write of a scratchpad page (R155–R157, R161, R170, R173) (log entry 39, DEDUCED). -/
def padWrite (s : State) (t off : Nat) (v : W64) (hornbeam : Bool) : State :=
  if off = 0x100 then modeWrite s t v
  else if off = 0x110 then
    (if fieldOf v 16 9 = 0 || 300 < fieldOf v 16 9 then ignored s (spPage t) else wr s (spReg t off) v)
  else if off = 0x120 then bankPwrWrite s t v
  else if 0x140 ≤ off && off < 0x180 then
    bindWrite s t ((off - 0x140) / 8) v hornbeam
  else if 0x180 ≤ off && off < 0x200 then circCfgWrite s t ((off - 0x180) / 0x20) v
  else if 0x400 ≤ off then
    let n := (off - 0x400) / 0x18
    noteDebugRegion (rgnWrite s t (n / 16) (n % 16) ((off - 0x400) % 0x18 / 8) v) t (n / 16)
  else wr s (spReg t off) v

/-- A residence slot is bound. -/
def slotBound (s : State) (t r : Nat) : Bool := let v := rd s (spReg t (0x140 + 8 * r)); guardOk v && bitOf v 8

/-- A write of HS_DATA (R205): a word of a bound slot's range stays; HS_ADDR advances. -/
def hsDataWrite (s : State) (t : Nat) (v : W64) : State :=
  let a := rdF s (qctl t 0x140) 0 13
  let s1 := if (hsOwners s t a).isEmpty then setHsWord s t a (fieldOf v 0 32) else ignored s (tilePage t 4)
  advance s1 (qctl t 0x140) 13 8192

/-- A write of HS_BOUND_r or HT_r (R205). -/
def hsBoundWrite (s : State) (t r : Nat) (table : Bool) (v : W64) : State :=
  let b := hsBound s t r
  let bad := slotBound s t r || (if table then b.2 < b.1 + fieldOf v 0 13 + fieldOf v 13 11
    else fieldOf v 14 14 ≤ fieldOf v 0 13 || 8192 < fieldOf v 14 14)
  if bad then ignored s (tilePage t 4)
  else wr s (qctl t ((if table then 0x188 else 0x180) + 0x10 * r)) v

/-- A write of a queue control page (R182, R186, R204, R205). -/
def qctlWrite (s : State) (t off : Nat) (v : W64) (hornbeam : Bool) : State :=
  if off = 0x108 then queueCmd s t (fieldOf v 0 8) (fieldOf v 8 3) (fieldOf v 11 8) hornbeam
  else if off = 0x110 then grantWrite s t (fieldOf v 36 8) (fieldOf v 13 15) (fieldOf v 0 13) (fieldOf v 44 17)
  else if off = 0x148 then hsDataWrite s t v
  else if 0x180 ≤ off && off < 0x200 then hsBoundWrite s t ((off - 0x180) / 0x10) (off % 0x10 == 8) v
  else wr s (qctl t off) v

/-- A write of QD_RING (R179): only while the queue is CLOSED or RESET. -/
def ringCfgWrite (s : State) (t q : Nat) (v : W64) : State :=
  if qState s t q = 0 || qState s t q = 3 then wr s (qdReg t q 0) v else badCmd s (qdPage t q) q

/-- The hops of the route in the tables from `t` to `d`, and the worst-case time of a one-flit VC0 packet on them in ps at
the nominal pace (R221); `none` when it does not arrive within `fuel` hops. -/
def routeCost (next : Nat → Nat → Nat) : Nat → Nat → Nat → Option (Nat × Nat)
  | 0, _, _ => none
  | fuel + 1, t, d =>
    if t = d then some (0, 500)
    else
      let p := next t d
      match neighbour t p with
      | some n => (routeCost next fuel n d).map (fun r =>
          (r.1 + 1, r.2 + 625 + (if 5 ≤ p then 250 else 150) + (if seamLink t p then 2500 else 0)))
      | none => none

/-- Hornbeam's record for each tile whose route from `t` is longer than R222 allows: the pair and its own bound. -/
def routeLong (s : State) (t : Nat) : State :=
  if s.net.routes.isEmpty then s
  else each (List.range 4608) (fun u d =>
    match routeCost (routeOf u) 256 t d, routeCost defaultRoute 64 t d with
    | some a, some b => if b.1 + 2 < a.1 then report u (devPage 7) 0x0608 { detail := [t, d, a.2] } else u
    | _, _ => u) s

/-- A write of RT_CTRL (R217, R222, R229, R231): the end of an injection hold completes a route change (log entry 143,
DEDUCED). -/
def rtCtrlWrite (s : State) (t : Nat) (v : W64) : State :=
  let s1 := wr s (rtReg t 0x100) v
  if rdB s (rtReg t 0x100) 1 && !bitOf v 1 then routeLong s1 t else s1

/-- A write of a router page (R231). -/
def routerWrite (s : State) (t off key : Nat) (v : W64) : State :=
  if off = 0x100 then rtCtrlWrite s t v
  else if off = 0x118 then
    let i := rdF s (rtReg t 0x110) 0 9
    advance (if i < 288 then each (List.range 16) (fun u k => setRoute u t (16 * i + k) (fieldOf v (4 * k) 4)) s else s) (rtReg t 0x110) 9 288
  else if off = 0x128 then advance (wr s key v) (rtReg t 0x120) 12 4096
  else wr s key v

/-- Interrupt controller (R324–R329). -/
def icWrite (s : State) (off : Nat) (v : W64) : State :=
  if off = 0x180 then icSw s 6 v
  else if off = 0x188 then icSw s 7 v
  else if 0x200 ≤ off && off < 0x300 then icEval (wr s (icReg off) v)
  else if 0x300 ≤ off && off < 0x340 then icDone s ((off - 0x308) / 0x10) (fieldOf v 32 5) (fieldOf v 0 16)
  else wr s (icReg off) v

/-- Error log (R319, R320). -/
def logWrite (s : State) (off : Nat) (v : W64) : State :=
  if off = 0x110 then logReadWrite s (fieldOf v 0 12)
  else
    let s1 := wr s (logReg off) v
    if off = 0x100 && logHigh s1 && !logHigh s then raise s1 289 else s1

/-- Timebase (R321). -/
def timeWrite (s : State) (off : Nat) (v : W64) : State :=
  if off = 0x108 then tbSet s v else if off = 0x110 then tbAdjWrite s v else wr s (devReg 2 off) v

/-- Fabric (R263). -/
def fabricWrite (s : State) (off key : Nat) (v : W64) : State :=
  if off = 0x110 then fxDataWrite s v
  else if off = 0x120 then advance (wr s key v) (fxReg 0x118) 12 4096
  else wr s key v

/-- Memory map (R276, R281, R283). -/
def memmapWrite (s : State) (off : Nat) (v : W64) : State :=
  if off = 0x100 then mmCtrlWrite s v
  else if 0x118 ≤ off && off < 0x130 then mmFenceWrite s ((off - 0x118) / 8) v
  else if 0x200 ≤ off then dregWrite s ((off - 0x200) / 0x10) (off % 0x10 / 8) v
  else wr s (mmReg off) v

/-- A write of a SEND_CTX register (R289, R322, R425). -/
def ctxSetWrite (s : State) (page a t m : Nat) (v : W64) : State :=
  if (List.range 64).any (fun i => bitOf v i && licensedContexts s ≤ 64 * m + i) then ignored s page
  else sendCtxWrite s page a t m v

/-- Gorbin port (R285, R289, R305, R306). -/
def gorbinWrite (s : State) (off key : Nat) (v : W64) : State :=
  if off = 0x100 then gbCtrlWrite s v
  else if 0x120 ≤ off && off < 0x140 then ctxSetWrite s gbPage (gbReg off) 9 ((off - 0x120) / 8) v
  else if off = 0x140 || off = 0x148 then gbWinWrite s (gbReg off) v
  else if off = 0x160 then advance (wr s key v) (gbReg 0x150) 10 1024
  else if off = 0x178 then bootCtrlWrite s v
  else if 0x400 ≤ off && off < 0x600 then notifyWrite s (gbReg off) v
  else wr s key v

/-- Hornbeam (R322, R427). -/
def hornbeamWrite (s : State) (off : Nat) (v : W64) : State :=
  if off = 0x110 then hbCmd s (fieldOf v 0 3) (fieldOf v 3 12)
  else if 0x120 ≤ off && off < 0x140 then ctxSetWrite s (devPage 7) (hbReg off) 1 ((off - 0x120) / 8) v
  else wr s (hbReg off) v

/-- RAW mode of Yew runs. -/
def inRaw (s : State) : Bool := ywMode s == 5

/-- The scratchpad word that YW_RAW_ADDR names: a device physical address of the window. -/
def rawWord (s : State) : Option (Nat × Nat) :=
  let a := rdF s (ywReg 0x800) 0 30
  let t := a / 0x20000
  if t < 4608 && a % 0x20000 < tileWords t then some (t, a % 0x20000) else none

/-- Yew (R429, R444): the RAW registers act in RAW mode alone. -/
def yewWrite (s : State) (off key : Nat) (v : W64) : State :=
  if off = 0x110 then ywCmd s (fieldOf v 0 3) (fieldOf v 8 9)
  else if off = 0x100 && (fieldOf v 8 8 = 0 || 90 < fieldOf v 8 8) then ignored s ywPage
  else if off = 0x808 then
    (if !inRaw s then ignored s ywPage
     else match rawWord s with
      | some w =>
        let s1 := writeNat s (padAddr w.1 w.2) 4 (fieldOf v 0 32)
        setChk s1 (padAddr w.1 w.2) (actCheck (fieldOf v 0 32) w.2 ^^^ fieldOf v 32 8)
      | none => ignored s ywPage)
  else if off = 0x810 then
    (if inRaw s && rdF s (ywReg 0x120) 0 9 < 288 then
      let c := rdF s (ywReg 0x120) 0 9
      { s with commit := { s.commit with rawTrim := mapInsert c v.toNat (mapErase c s.commit.rawTrim) } }
     else ignored s ywPage)
  else wr s key v

/-- Bramble (R374, R383, R386). -/
def brambleWrite (s : State) (off key : Nat) (v : W64) : State :=
  if off = 0x100 && fieldOf v 8 4 < 2 then ignored s (devPage 10)
  else if off = 0x140 then tdCmd s (fieldOf v 0 8) (fieldOf v 8 3)
  else if off = 0x180 then rstCmd s (fieldOf v 0 3) (fieldOf v 8 9)
  else wr s key v

/-- The journal range of a context breaks R335 (log entry 81, DEDUCED). -/
def journalBad (s : State) (c : Nat) : Bool :=
  let r := journalRange s c
  dramCap s < r.2 || (durableRanges s).any (fun d => decide (r.1 < d.2) && decide (d.1 < r.2))
    || (List.range 256).any (fun x => x != c &&
      (let q := journalRange s x; decide (r.1 < q.2) && decide (q.1 < r.2)))

/-- A write of CS_CFG (R335, R361). -/
def csCfgWrite (s : State) (c key : Nat) (v : W64) : State :=
  if csState s c != 0 && csState s c != 6 then ignored s (devPage 11)
  else if bitOf v 0 && journalBad s c then reportB s (devPage 11) 8 0x0B0F { ctx := some c }
  else wr s key v

/-- Step commit (R331, R335, R347, R361): hornbeam alone reopens a replay. -/
def commitWrite (s : State) (off key : Nat) (v : W64) (hornbeam : Bool) : State :=
  let c := rdF s (csReg 0x108) 0 8
  if off = 0x1C8 then csCmd s c (fieldOf v 0 3) hornbeam
  else if off = 0x180 || off = 0x188 then (if csState s c = 0 then wr s key v else ignored s (devPage 11))
  else if off = 0x190 then csCfgWrite s c key v
  else if off = 0x198 then (if csState s c = 0 || csState s c = 6 then wr s key v else ignored s (devPage 11))
  else if off = 0x120 then
    let s1 := wr s key v
    if tfsPending s1 && !tfsPending s then raise s1 370 else s1
  else wr s key v

/-- Checkpoints (R400, R401). -/
def ckptWrite (s : State) (off key : Nat) (v : W64) : State :=
  let n := rdF s (ckReg 0x108) 0 2
  if off = 0x110 then lambdaWrite s (fieldOf v 0 32)
  else if off = 0x1A0 then ckCmd s n v.toNat
  else if 0x180 ≤ off && off < 0x1A0 then
    (if ckState s n != 0 then ignored s ckPage else wr s key v)
  else wr s key v

/-- PW_CTRL sets a field outside its range (R464). -/
def pwCtrlBad (v : W64) : Bool :=
  let f := fieldOf v
  f 50 14 < 650 || 800 < f 50 14 || f 36 14 < 550 || 750 < f 36 14 || f 28 8 < f 20 8 + 5 || f 12 8 = 0

/-- Power (R453, R464). -/
def powerWrite (s : State) (off key : Nat) (v : W64) : State :=
  if off = 0x100 && pwCtrlBad v then ignored s (devPage 13)
  else if off = 0x110 || off = 0x120 then fitTolerance (wr s key v)
  else wr s key v

/-- The effect of an accepted write of a register beyond the header: `v` has the bits that the write may change, and
the old value's elsewhere. -/
def pageWrite (s : State) (a : Agent) (k : PageKind) (i off key : Nat) (v : W64) : State :=
  match k with
  | .tTile => if off = 0x400 then arithCtrl s i v else wr s key v
  | .vTile => if off = 0x400 then arithCtrl s i v else wr s key v
  | .sTile => if 0x140 ≤ off && off < 0x1C0 then dmaCtrl s i ((off - 0x140) / 0x20) v else wr s key v
  | .dataflow => dfWrite s i off v
  | .scratch => padWrite s i off v (a == .hornbeam)
  | .router => routerWrite s i off key v
  | .qctl => qctlWrite s i off v (a == .hornbeam)
  | .qdesc n => ringCfgWrite s i (64 * n + (off - 0x100) / 0x20) v
  | .ic => icWrite s off v
  | .log => logWrite s off v
  | .timebase => timeWrite s off v
  | .fabric => fabricWrite s off key v
  | .memmap => memmapWrite s off v
  | .gorbin => gorbinWrite s off key v
  | .hornbeam => hornbeamWrite s off v
  | .hawthorn => if off = 0x108 then hwCmd s (fieldOf v 0 4) (fieldOf v 8 4) else wr s key v
  | .yew => yewWrite s off key v
  | .bramble => brambleWrite s off key v
  | .commit => commitWrite s off key v (a == .hornbeam)
  | .ckpt => ckptWrite s off key v
  | .power => powerWrite s off key v
  | .port => if off = 0x100 then pxCtrlWrite s i v else wr s key v
  | .memctl => if off = 0x100 then mcCtrlWrite s i v else wr s key v
  | .qcount _ => wr s key v
  | .cluster => wr s key v
  | .sampler => wr s key v
  | .ufs => wr s key v
  | .i3c => wr s key v

/-! ### The checks of a write (R311–R313, R315) -/

/-- A record of codes 0x0A02–0x0A04 limited to one for a page and code in each ms (R312); its ERR_STAT bit always. -/
def accessRec (s : State) (p bits code addr : Nat) : State :=
  reportLimited s p bits code (limitKey 40 p code) (now s / 1000000) { detail := [addr] }

/-- A page of a tile whose cluster is in C2 or C3 is written: the cluster wakes (R448) (log entry 74, DEDUCED). -/
def writeWakes (s : State) (p : Nat) : State :=
  if p < 4608 * 32 && 2 ≤ clusterPower s (clusterOf (p / 32)) then wakeCluster s (clusterOf (p / 32)) else s

/-- The write of a header register (R310): masks and enables can make the page's error condition true. -/
def headerWrite (s : State) (p key : Nat) (v : W64) : State :=
  let s1 := wr s key v
  match pageErrSource p with
  | some src => raiseIfNew s s1 src
  | none => s1

/-- An accepted write by its access type (R311). -/
def typedWrite (s : State) (a : Agent) (k : PageKind) (i p off key : Nat) (r : RegDesc) (v : W64) : State :=
  let m := BitVec.ofNat 64 r.wmask
  let old := rd s key
  let w := match r.acc with
    | .rw => (old &&& ~~~m) ||| (v &&& m)
    | _ => v
  if off < 0x80 then headerWrite s p key (if r.acc == .w1c then old &&& ~~~(v &&& m) else w)
  else if r.acc == .w1c && k != .gorbin then wr s key (old &&& ~~~(v &&& m))
  else pageWrite s a k i off key w

/-- How a register access ends: performed, address unmapped, refused, or of a wrong size. -/
inductive RegStat where
  | ok | unmapped | denied | size
  deriving DecidableEq, Repr

/-- An access refused (R315): the page records it, or over Gorbin the port does (R293) (log entry 76, DEDUCED). -/
def refuseAccess (s : State) (a : Agent) (p addr : Nat) : State :=
  match a with
  | .companion => report (setErr s p 1) gbPage 0x0904 { detail := [addr] }
  | _ => denied s p

/-- The number of the page that an address lies in (R308). -/
def pageAt (addr : Nat) : Nat := (addr - regBase) / 0x1000

/-- The offset of an address in its page. -/
def offAt (addr : Nat) : Nat := (addr - regBase) % 0x1000

/-- The page that an address lies in, decoded. -/
def pageHit (addr : Nat) : Option (PageKind × Nat) := if regBase ≤ addr then decodePage (pageAt addr) else none

/-- A write of the register found at an offset of a page: reserved bits, the complement, fences and HALTED, then its effect. -/
def regWriteReg (s : State) (a : Agent) (k : PageKind) (i p off addr : Nat) (v : W64) (x : Option (RegDesc × Nat)) : State :=
  match x with
  | none => accessRec s p 0x10 0x0A04 addr
  | some (r, _) =>
    if r.acc == .ro || r.acc == .rs || v.toNat &&& r.reserved != 0 then accessRec s p 0x10 0x0A04 addr
    else if r.acc == .rwg && !guardOk v then accessRec s p 0x04 0x0A03 addr
    else if fencedWrite s k i off || haltedWrite s k off v then ignored s p
    else typedWrite s a k i p off (regKey s k addr off) r v

/-- A write to a mapped page: its size and the agent's rights first. -/
def regWriteIn (s : State) (a : Agent) (k : PageKind) (i p off addr : Nat) (v : W64) : RegStat × State :=
  if addr % 8 != 0 then (.size, accessRec s p 0x20 0x0A02 addr)
  else if regDenied s a k i off true v then (.denied, refuseAccess s a p addr)
  else (.ok, regWriteReg (writeWakes s p) a k i p off addr v (findReg (pageRegs k i) off))

/-- A write where the page decodes to `x`. -/
def regWriteAt (s : State) (a : Agent) (p off addr : Nat) (v : W64) (x : Option (PageKind × Nat)) : RegStat × State :=
  match x with
  | none => (.unmapped, unmapped s a addr)
  | some (k, i) => regWriteIn s a k i p off addr v

/-- A register write by an agent (R308–R315): the checks in their order, then the register's effect. -/
def regWrite (s : State) (a : Agent) (addr : Nat) (v : W64) : RegStat × State :=
  regWriteAt s a (pageAt addr) (offAt addr) addr v (pageHit addr)

/-! ### Reads -/

/-- CT_DEST of a credit-table entry (R204). -/
def ctDest (e : Credit) : W64 := BitVec.ofNat 64 (place 63 1 1 + place 52 4 e.epoch + place 44 8 e.ctx + place 0 36 e.dest)

/-- The route-table entries that RT_DATA shows. -/
def rtData (s : State) (t : Nat) : W64 :=
  let i := rdF s (rtReg t 0x110) 0 9
  BitVec.ofNat 64 (((List.range 16).map (fun k => place (4 * k) 4 (routeOf s t (16 * i + k)))).sum)

/-- Columns taken one by one by the blocks of an edge, `k` of them left to place, out of those in `free`. -/
def drawColumns (edge : Nat) : Nat → List Nat → List Nat
  | 0, _ => []
  | k + 1, free =>
    let c := free.getD (Config.ringColumn edge k % free.length) 0
    c :: drawColumns edge k (free.erase c)

/-- Columns of an edge whose routers join the blocks of the ring that the spec places there without a column: six LPDDR6
controllers on each north and each south edge, and the UFS host and Hawthorn on the west half's south edge, where Hornbeam
and the Gorbin port have columns 1, 9, 13, 17 and 21 (R22) (log entry 180, DESIGN CHOICE). -/
def ringColumns (edge : Nat) : List Nat :=
  if edge = 1 then drawColumns 1 8 ((List.range 32).filter (fun x => !([1, 9, 13, 17, 21] : List Nat).contains x)) else drawColumns edge 6 (List.range 32)

/-- A port of a router has a link (R22, R207, R235, R287, R288): to its tile, to another router, or to a block of the ring. -/
def hasLink (t p : Nat) : Bool :=
  p == 0 || (neighbour t p).isSome || ((portAt t).isSome && p == (if tileHalf t = 0 then 4 else 2))
    || (p == 3 && (t == 1 || t == 9 || t == 13 || t == 17 || t == 21))
    || (p == 1 && tileY t == 71 && (ringColumns (2 * tileHalf t)).contains (tileX t))
    || (p == 3 && tileY t == 0 && (ringColumns (2 * tileHalf t + 1)).contains (tileX t))

/-- RT_STAT (R231): links train when module reset is released, and a fenced link is not up (log entry 71, DEDUCED). -/
def rtStat (s : State) (t : Nat) : W64 :=
  if s.time.held then 0
  else BitVec.ofNat 64 (((List.range 9).map (fun p => place p 1 (bit01 (hasLink t p && !linkFenced s t p)))).sum)

/-- FX_DATA (R246, R263): the own device's entry reads LOCAL. -/
def fxData (s : State) (held : W64) : W64 :=
  let d := deviceId s
  if rdF s (fxReg 0x108) 0 11 = d / 16 then setField held (4 * (d % 16)) 4 0xE else held

/-- RT_HELD (R231). -/
def rtHeld (s : State) (t : Nat) : W64 := BitVec.ofNat 64 (((List.range 4).map (fun v => place (8 * v) 8 (heldFlits s t v))).sum)

/-- What a register shows (R311): registers that are computed, then those held. -/
def regView (s : State) (k : PageKind) (i off key : Nat) : W64 :=
  let held := rd s key
  match k with
  | .dataflow =>
    if off = 0x108 then setField (setField held 16 6 (curEntry s i)) 0 16 (foldDone s i)
    else if 0x180 ≤ off && off < 0x200 then BitVec.ofNat 64 (compatReg s i ((off - 0x180) / 8)) else held
  | .fabric => if off = 0x110 then fxData s held else held
  | .sTile => if 0x140 ≤ off && off < 0x1C0 && off % 0x20 = 8 then setField held 32 16 (min 65535 (dmaPending s i ((off - 0x140) / 0x20))) else held
  | .router => if off = 0x108 then rtStat s i else if off = 0x118 then rtData s i else if off = 0x130 then rtHeld s i else held
  | .qctl =>
    let e := mapFind (i * 1024 + rdF s (qctl i 0x118) 0 10) s.q.cred
    if off = 0x120 then (match e with | some x => ctDest x | none => 0)
    else if off = 0x128 then (match e with | some x => x.cred | none => BitVec.ofNat 64 guardZero)
    else if off = 0x130 then BitVec.ofNat 64 (creditsOf s i).length
    else if off = 0x148 then BitVec.ofNat 64 (hsWord s i (rdF s (qctl i 0x140) 0 13))
    else held
  | .cluster => if off = 0x188 then clStatView s i else held
  | .ic =>
    if 0x100 ≤ off && off < 0x140 then icPendReg s ((off - 0x100) / 8)
    else if 0x140 ≤ off && off < 0x180 then icKindReg ((off - 0x140) / 8)
    else if 0x300 ≤ off && off < 0x340 && off % 0x10 = 0 then icFirstReg s ((off - 0x300) / 0x10)
    else held
  | .log => if 0x200 ≤ off && off < 0x240 then logRec s ((off - 0x200) / 8) else held
  | .timebase => if off = 0x100 then s.time.dt else if off = 0x118 then tbStat s else held
  | .bramble => if off = 0x150 then setField held 32 32 (portsHold s (rdF s (brReg 0x148) 0 8)) else held
  | .ckpt =>
    if off = 0x118 then BitVec.ofNat 64 (ckEvents s)
    else if off = 0x1A8 then setField held 61 3 (ckState s (rdF s (ckReg 0x108) 0 2))
    else held
  | .power => if off = 0x140 then paceHalf s else held
  | .yew =>
    let c := rdF s (ywReg 0x120) 0 9
    if off = 0x128 then BitVec.ofNat 64 (trimVector s c)
    else if off = 0x140 then ywNext s c
    else if off = 0x808 then
      (match rawWord s with
        | some w => if inRaw s then BitVec.ofNat 64 (padWord s w.1 w.2 + (storedCheck s w.1 w.2 <<< 32)) else 0
        | none => 0)
    else if off = 0x810 then (if inRaw s then BitVec.ofNat 64 (trimVector s c) else 0)
    else held
  | _ => held

/-- What a read does besides answering: RS registers are sampled away, index registers advance. -/
def readEffect (s : State) (k : PageKind) (i off : Nat) : State :=
  match k with
  | .dataflow => if 0x180 ≤ off && off < 0x200 then noteCompat s i ((off - 0x180) / 8) (now s) else s
  | .scratch => if off = 0x108 then wrF s (spReg i 0x108) 2 7 0 else s
  | .qctl => if off = 0x148 then advance s (qctl i 0x140) 13 8192 else s
  | .router =>
    if off = 0x118 then advance s (rtReg i 0x110) 9 288
    else if off = 0x128 then advance s (rtReg i 0x120) 12 4096 else s
  | .cluster => if off = 0x108 then wr s (clusterReg i 0x108) (BitVec.ofNat 64 (0xFFFFF <<< 20)) else s
  | .fabric =>
    if off = 0x110 then advance s (fxReg 0x108) 11 2048
    else if off = 0x120 then advance s (fxReg 0x118) 12 4096 else s
  | .gorbin =>
    if off = 0x118 then wrB s (gbReg 0x118) 63 false
    else if off = 0x160 then advance s (gbReg 0x150) 10 1024 else s
  | _ => s

/-- What a read does first: LOG_REC_0 takes its snapshot, HW_CHAL_0 draws a challenge (R320, R470). -/
def readFirst (s : State) (k : PageKind) (off : Nat) : State :=
  match k with
  | .log => if off = 0x200 then logSnap s else s
  | .hawthorn => if off = 0x120 then drawChallenge s else s
  | _ => s

/-- A read of the register found at an offset of a page. -/
def regReadReg (s : State) (k : PageKind) (i off addr : Nat) (x : Option (RegDesc × Nat)) : W64 × State :=
  match x with
  | none => (0, s)
  | some (r, _) =>
    if r.acc == .wo then (0, s)
    else if off = 0x18 then (pageStat s k i, s)
    else
      let s1 := readFirst s k off
      (regView s1 k i off (regKey s1 k addr off), readEffect s1 k i off)

/-- A read in a mapped page: its size and the agent's rights first. -/
def regReadIn (s : State) (a : Agent) (k : PageKind) (i p off addr : Nat) : RegStat × W64 × State :=
  if addr % 8 != 0 then (.size, 0, accessRec s p 0x20 0x0A02 addr)
  else if regDenied s a k i off false 0 then (.denied, 0, refuseAccess s a p addr)
  else (.ok, regReadReg s k i off addr (findReg (pageRegs k i) off))

/-- A read where the page decodes to `x`. -/
def regReadAt (s : State) (a : Agent) (p off addr : Nat) (x : Option (PageKind × Nat)) : RegStat × W64 × State :=
  match x with
  | none => (.unmapped, 0, unmapped s a addr)
  | some (k, i) => regReadIn s a k i p off addr

/-- A register read by an agent (R308–R315): its value, or how it failed. -/
def regRead (s : State) (a : Agent) (addr : Nat) : RegStat × W64 × State :=
  regReadAt s a (pageAt addr) (offAt addr) addr (pageHit addr)

end Sys2Proof.Machine
end

