-- ==== Sys2Proof/Machine/GorbinRows.lean ====
section
/-! DEFINITION. What arrives over the Gorbin link, row by row of its opcode: the companion's requests in the order that R294
and R296 give (R290–R296, R301–R303), its snoops of the gateway cache and its answers (R291, R297). -/

namespace Sys2Proof.Machine

/-! ### Order (R294, R296) -/

/-- A posted request of G2 (R291): a register write, a memory write, a line given back or a doorbell. -/
def gbPosted (h : GbHdr) : Bool := h.opc == 0x02 || h.opc == 0x04 || h.opc == 0x08 || h.opc == 0x09 || h.opc == 0x0A

/-- A request waits behind an earlier one. -/
def gbPark (s : State) (h : GbHdr) (data : List Byte) : State :=
  { s with gorbin := { s.gorbin with waits := s.gorbin.waits ++ [{ hdr := h, data := data }] } }

/-- A posted write of the companion that waits at a scratchpad. -/
def padPosted (x : SpAcc) : Bool := match x.req with | .link h => gbPosted h | _ => false

/-- A posted write of the companion that waits at the directory or for a channel. -/
def latePosted : LateItem → Bool | .comp h _ => gbPosted h | _ => false

/-- A request waits behind an earlier posted one, or behind one that does (R294); LINE_WB and LINE_EVICT of a line whose snoop is
outstanding cross it, and do not (R296). -/
def gbBlocked (s : State) (h : GbHdr) : Bool :=
  (!s.gorbin.waits.isEmpty || s.gorbin.late.any latePosted
    || s.pad.waiters.any (fun w => padPosted w.acc) || s.pad.heldAcc.any (fun w => padPosted w.acc))
    && !((h.opc == 0x08 || h.opc == 0x09) && snooping s (h.addr / 64))

/-- A request of the companion performed, or parked by what it waits for; a HALTED device rings no doorbell and sends no
message (R405) (log entry 197, DESIGN CHOICE). -/
def gbServe (s : State) (h : GbHdr) (data : List Byte) : State :=
  match h.opc with
  | 0x01 =>
    let r := regRead s .companion h.addr
    (match r.1 with
    | .ok => gbReply r.2.2 h 0 (bytesOf 8 r.2.1.toNat)
    | .denied => gbReply r.2.2 h 2 []
    | .unmapped => gbReply r.2.2 h 1 []
    | .size => gbReply r.2.2 h 1 [])
  | 0x02 => (regWrite s .companion h.addr (BitVec.ofNat 64 (natOfBytes data))).2
  | 0x03 => ucRead s h
  | 0x04 => ucWrite s h data
  | 0x05 => lineRead s h 1
  | 0x06 => lineRead s h 2
  | 0x07 => lineUpg s h
  | 0x08 => lineWb s h data
  | 0x09 => lineEvict s h
  | 0x0A => if halted s then gbAccess s h true else ringBell s h (BitVec.ofNat 64 (natOfBytes data))
  | 0x0B => if halted s then gbAccess s h false else sendMsg s h data
  | _ => s

/-- A request in its turn: it waits, or is performed and leaves the ingress buffer. -/
def gbTake (s : State) (h : GbHdr) (data : List Byte) : State :=
  gbLeaves s (if gbBlocked s h then gbPark s h data else gbServe s h data) data.length

/-- The requests that wait, in the order in which they came (log entry 5, DESIGN CHOICE). -/
def gbResume (s : State) : State :=
  each s.gorbin.waits (fun u w => gbTake u w.hdr w.data) { s with gorbin := { s.gorbin with waits := [] } }

/-- A request of the companion arrives on a running link (R290, R292): well formed, or not. -/
def gbArrive (h : GbHdr) (data : List Byte) (posted well : Bool) (s : State) : State :=
  if !gbUp s then s
  else
    let s1 := gbResume (linkAccept s 14)
    if well then gbTake s1 h data else gbBad (oweCredit s1 14 2 (gbFlits data.length)) h posted

/-! ### Requests of the companion -/

/-- Meaning of REG_RD (R293): a read over Gorbin. -/
def execRegRd (h : GbHdr) (s : State) : Host.Outcome State Fault Refusal :=
  .next (gbArrive h [] false (gbWell h 0x01 (h.len == 0)) s)

/-- Meaning of REG_WR (R293): a posted write over Gorbin. -/
def execRegWr (h : GbHdr) (v : W64) (s : State) : Host.Outcome State Fault Refusal :=
  .next (gbArrive h (bytesOf 8 v.toNat) true (gbWell h 0x02 (h.len == 8)) s)

/-- Meaning of MEM_RD_UC (R293). -/
def execMemRdUc (h : GbHdr) (s : State) : Host.Outcome State Fault Refusal :=
  .next (gbArrive h [] false (gbWell h 0x03 (ucShape h && !ucCrosses h)) s)

/-- Meaning of MEM_WR_UC (R293). -/
def execMemWrUc (h : GbHdr) (data : List Byte) (s : State) : Host.Outcome State Fault Refusal :=
  .next (gbArrive h data true (gbWell h 0x04 (ucShape h && data.length == h.len && !ucCrosses h)) s)

/-- A line request has no data and names a line (R291, R295). -/
def lineShape (h : GbHdr) : Bool := h.len == 0 && h.addr % 64 == 0

/-- Meaning of LINE_RD_S (R295). -/
def execLineRdS (h : GbHdr) (s : State) : Host.Outcome State Fault Refusal :=
  .next (gbArrive h [] false (gbWell h 0x05 (lineShape h)) s)

/-- Meaning of LINE_RD_X (R295). -/
def execLineRdX (h : GbHdr) (s : State) : Host.Outcome State Fault Refusal :=
  .next (gbArrive h [] false (gbWell h 0x06 (lineShape h)) s)

/-- Meaning of LINE_UPG (R295). -/
def execLineUpg (h : GbHdr) (s : State) : Host.Outcome State Fault Refusal :=
  .next (gbArrive h [] false (gbWell h 0x07 (lineShape h)) s)

/-- Meaning of LINE_WB (R295, R296): in its order, or at once where a snoop of its line crosses it. -/
def execLineWb (h : GbHdr) (data : List Byte) (s : State) : Host.Outcome State Fault Refusal :=
  .next (gbArrive h data true (gbWell h 0x08 (h.len == 64 && data.length == 64 && h.addr % 64 == 0)) s)

/-- Meaning of LINE_EVICT (R295): a clean line given up. -/
def execLineEvict (h : GbHdr) (s : State) : Host.Outcome State Fault Refusal :=
  .next (gbArrive h [] true (gbWell h 0x09 (lineShape h)) s)

/-- Meaning of DOORBELL (R301). -/
def execDoorbell (h : GbHdr) (value : W64) (s : State) : Host.Outcome State Fault Refusal :=
  .next (gbArrive h (bytesOf 8 value.toNat) true (gbWell h 0x0A (h.len == 8)) s)

/-- Meaning of MSG (R302, R303): parameters in 8 bytes, then the payload. -/
def execMsg (h : GbHdr) (data : List Byte) (s : State) : Host.Outcome State Fault Refusal :=
  .next (gbArrive h data false (gbWell h 0x0B (msgShape h data)) s)

/-! ### Snoops and answers -/

/-- Meaning of SNP_INV (R291, R297). -/
def execSnpInv (h : GbHdr) (s : State) : Host.Outcome State Fault Refusal :=
  .next (if !gbUp s then s
    else if gbWell h 0x20 (lineShape h) then gwSnoop (gbTaken s 1 0) h true else gbBad (gbTaken s 1 0) h false)

/-- Meaning of SNP_SHR (R291, R297). -/
def execSnpShr (h : GbHdr) (s : State) : Host.Outcome State Fault Refusal :=
  .next (if !gbUp s then s
    else if gbWell h 0x21 (lineShape h) then gwSnoop (gbTaken s 1 0) h false else gbBad (gbTaken s 1 0) h false)

/-- Meaning of SNP_RSP (R291): the snooped line was not modified. -/
def execSnpRsp (tag : Fin 4096) (s : State) : Host.Outcome State Fault Refusal :=
  .next (if gbUp s then gbResume (snoopResponse (gbTaken s 0 0) tag none) else s)

/-- Meaning of SNP_RSP_D (R291, R296): 64 bytes of modified data. -/
def execSnpRspD (tag : Fin 4096) (data : List Byte) (s : State) : Host.Outcome State Fault Refusal :=
  .next (if gbUp s && data.length == 64 then gbResume (snoopResponse (gbTaken s 0 64) tag (some data)) else s)

/-- Meaning of GB_SNOOP_TIMEOUT (R296): no response after 100 µs; the line is LOST. -/
def execGbSnoopTimeout (tag : Fin 4096) (s : State) : Host.Outcome State Fault Refusal := .next (gbResume (snoopLate s tag))

/-- Meaning of CMP (R291, R292). -/
def execCmp (tag : Fin 4096) (status : Fin 256) (s : State) : Host.Outcome State Fault Refusal :=
  .next (if gbUp s then complete (gbTaken s 0 0) tag status [] else s)

/-- Meaning of CMP_D (R291, R292). -/
def execCmpD (tag : Fin 4096) (status : Fin 256) (data : List Byte) (s : State) : Host.Outcome State Fault Refusal :=
  .next (if gbUp s then complete (gbTaken s 0 data.length) tag status data else s)

end Sys2Proof.Machine
end

