-- ==== Sys2Proof/Machine/ModuleRows.lean ====
section
/-! DEFINITION. The module's pins and its I3C target (R485, R508–R517). -/

namespace Sys2Proof.Machine

/-! ### Resets of the module (R508–R510) -/

/-- A register of the I3C page. -/
def i3cReg (off : Nat) : Nat := devReg 15 off

/-- The straps as sampled, in I3C_STAT (R510). -/
def sampleStraps (s : State) (boot : Bool) (slot : Nat) : State :=
  wrF (wrB s (i3cReg 0x108) 4 boot) (i3cReg 0x108) 0 3 slot

/-- A condition that holds the device in cold reset remains; commands keep their effect (log entry 10, DESIGN CHOICE). -/
def resetHeld (s : State) : Bool := s.module.rstLow || s.module.supplyFault || s.module.overTemp

/-- Meaning of MOD_RST_N_ASSERT (R508): a low of at least 10 µs. -/
def execModRstNAssert (s : State) : Host.Outcome State Fault Refusal :=
  .next (coldReset { s with module := { s.module with rstLow := true } })

/-- Meaning of MOD_RST_N_RELEASE (R510): the rise samples the straps, and ends the reset unless R509 holds it (log entry 8, DESIGN CHOICE). -/
def execModRstNRelease (boot : Bool) (slot : Fin 8) (s : State) : Host.Outcome State Fault Refusal :=
  .next (
    let s1 := sampleStraps { s with module := { s.module with rstLow := false } } boot slot
    if !s.module.rstLow then s else if resetHeld s1 then s1 else releaseReset s1)

/-- Meaning of SUPPLY_FAULT (R509): a rail out of tolerance, or REFCLK absent. -/
def execSupplyFault (s : State) : Host.Outcome State Fault Refusal :=
  .next (coldReset { s with module := { s.module with supplyFault := true } })

/-- Meaning of OVERTEMP_RESET (R509). -/
def execOvertempReset (s : State) : Host.Outcome State Fault Refusal :=
  .next (coldReset { s with module := { s.module with overTemp := true } })

/-- Meaning of SELF_RESET_RELEASE (R509): 1 ms after the conditions ended, as though MOD_RST_N had risen. -/
def execSelfResetRelease (boot : Bool) (slot : Fin 8) (s : State) : Host.Outcome State Fault Refusal :=
  .next (if s.module.supplyFault || s.module.overTemp then
      let s1 := { s with module := { s.module with supplyFault := false, overTemp := false } }
      if s.module.rstLow then s1 else releaseReset (sampleStraps s1 boot slot)
    else s)

/-! ### The I3C target (R513–R516) -/

/-- The device cannot serve the bus: P3, in reset, or Hornbeam does not run (R514) (log entry 142, DEDUCED). -/
def i3cAsleep (s : State) : Bool := s.time.held || devState s == 3 || hbPhase s < 2 || lifeCycle s == 5

/-- The result of an operation waits for the board management controller (R514). -/
def i3cResult (s : State) (status data : Nat) : State :=
  let s1 := { s with module := { s.module with result := some (status, data), read := none } }
  if status = 2 then incSat s1 (i3cReg 0x088) else s1

/-- An operation that arrives before the last result was read is ignored, and that result says so (R514). -/
def i3cOp (s : State) (f : State → State) : State :=
  match s.module.result with
  | some r => { s with module := { s.module with result := some (5, r.2) } }
  | none => if s.module.read.isSome then s else f (incWrap s (i3cReg 0x080) 1)

/-- The status of a register access over I3C. -/
def i3cStatus : RegStat → Nat
  | .ok => 0 | .denied => 2 | .unmapped => 1 | .size => 1

/-- An address lies in the fault-signature ring that CS_TFS gives (R515). -/
def inTfsRing (s : State) (a : Nat) : Bool :=
  let b := rdF s (csReg 0x110) 9 39 * 512
  b ≤ a && a + 8 ≤ b + 512 * 2 ^ rdF s (csReg 0x110) 54 5

/-- A word of the ring read (log entry 75, DEDUCED). -/
def i3cMemRead (s : State) (a : Nat) : State :=
  if unsettled s a 8 false then { settle s a 8 false with module := { s.module with read := some a } }
  else
    let r := dramRead s a 8 none
    if r.1.any (fun o => o.isNone) then i3cResult r.2 3 0 else i3cResult r.2 0 (natOfBytes (r.1.map (fun o => o.getD 0)))

/-- Meaning of I3C_READ (R514, R515). -/
def execI3cRead (addr : Fin 281474976710656) (s : State) : Host.Outcome State Fault Refusal :=
  .next (i3cOp s (fun u =>
    let a := addr.val
    if i3cAsleep u then i3cResult u 4 0
    else if a % 8 != 0 then i3cResult u 1 0
    else match regionOf a with
      | .unmapped => i3cResult (unmapped u .bmc a) 1 0
      | .lpddr =>
        if !dramMapped u a 8 then i3cResult (unmapped u .bmc a) 1 0 else if inTfsRing u a && !halted u then i3cMemRead u a else i3cResult u 2 0
      | .pad => i3cResult u 2 0
      | .companion => i3cResult u 2 0
      | .regs =>
        let r := regRead u .bmc a
        i3cResult r.2.2 (i3cStatus r.1) r.2.1.toNat))

/-- Meaning of I3C_WRITE (R514, R515). -/
def execI3cWrite (addr : Fin 281474976710656) (v : W64) (s : State) : Host.Outcome State Fault Refusal :=
  .next (i3cOp s (fun u =>
    let a := addr.val
    if i3cAsleep u then i3cResult u 4 0
    else if a % 8 != 0 then i3cResult u 1 0
    else match regionOf a with
      | .unmapped => i3cResult (unmapped u .bmc a) 1 0
      | .regs => let r := regWrite u .bmc a v; i3cResult r.2 (i3cStatus r.1) 0
      | .lpddr => i3cResult u 2 0
      | .pad => i3cResult u 2 0
      | .companion => i3cResult u 2 0))

/-- Meaning of I3C_WAKE (R452, R514): a wake event in every state. -/
def execI3cWake (s : State) : Host.Outcome State Fault Refusal := .next (i3cOp s (fun u => i3cResult (wakeDevice u) 0 0))

/-- Meaning of I3C_RESULT_READ (R514): the result leaves, or the read header is not acknowledged yet. -/
def execI3cResultRead (s : State) : Host.Outcome State Fault Refusal :=
  .next (
    let u := match s.module.read with
      | some a => i3cMemRead { s with module := { s.module with read := none } } a
      | none => s
    match u.module.result with
    | some r => emit { u with module := { u.module with result := none } } (.i3cResult r.1 r.2)
    | none => u)

/-- Meaning of DYNAMIC_ADDRESS_ASSIGN (R513). -/
def execDynamicAddressAssign (addr : Fin 128) (s : State) : Host.Outcome State Fault Refusal :=
  .next (wrB (wrF s (i3cReg 0x108) 8 7 addr) (i3cReg 0x108) 15 true)

/-! ### Boundary scan (R485) -/

/-- Meaning of BOUNDARY_SCAN_INSTRUCTION (R485): every instruction but BYPASS (0) and IDCODE (1) decodes as BYPASS, except with D3
open in MANUFACTURE or RETURNED (log entry 146, DEDUCED). -/
def execBoundaryScanInstruction (op : Fin 5) (s : State) : Host.Outcome State Fault Refusal :=
  .next (
    let open3 := debugLevel s == 3 && (lifeCycle s == 1 || lifeCycle s == 4)
    let i := if op.val ≤ 1 || open3 then op.val else 0
    emit { s with module := { s.module with jtag := i } } (.jtag i))

end Sys2Proof.Machine
end

