-- ==== Sys2Proof/Machine/RegRows.lean ====
section
/-! DEFINITION. The commands that are register accesses: each names its register and fields, and goes through the checks
of `regWrite` and `regRead`. -/

namespace Sys2Proof.Machine

/-! ### Accesses and their answers -/

/-- The status that an agent sees: 0 performed, 1 unmapped, 2 refused, 4 of a wrong size. -/
def RegStat.code : RegStat → Nat
  | .ok => 0 | .unmapped => 1 | .denied => 2 | .size => 4

/-- A write by an agent: one that fails is answered with an error, but for the companion's, which are posted (R291). -/
def writeBy (s : State) (a : Agent) (addr : Nat) (v : W64) : State :=
  let r := regWrite s a addr v
  if r.1 == .ok || a == .companion then r.2 else emit r.2 (.regRead a r.1.code 0)

/-- A write of one field of a register, which keeps the others. -/
def writeField (s : State) (a : Agent) (addr lo n v : Nat) : State := writeBy s a addr (setField (rd s addr) lo n v)

/-- A write of a number. -/
def writeNum (s : State) (a : Agent) (addr v : Nat) : State := writeBy s a addr (BitVec.ofNat 64 v)

/-- A read by an agent, answered. -/
def readBy (s : State) (a : Agent) (addr : Nat) : State :=
  let r := regRead s a addr
  emit r.2.2 (.regRead a r.1.code r.2.1)

/-- A write of a data register when data are given, else a read of it. -/
def accessBy (s : State) (a : Agent) (addr : Nat) (data : Option W64) : State :=
  match data with
  | some v => writeBy s a addr v
  | none => readBy s a addr

/-! ### Any register (R311) -/

/-- Meaning of REG_WRITE (R311). -/
def execRegWrite (a : Agent) (addr : Nat) (v : W64) (s : State) : Host.Outcome State Fault Refusal := .next (writeBy s a addr v)

/-! ### Tiles (R73, R85, R107, R126) -/

/-- Meaning of SCR_INJECT_WRITE (R73): a write of ARITH_CTRL. -/
def execScrInjectWrite (a : Agent) (t : TileId) (v : W64) (s : State) : Host.Outcome State Fault Refusal :=
  .next (writeBy s a (tileReg t 0 0x400) v)

/-- Meaning of DMA_HALT (R107): DMA_CTRL with HALT. -/
def execDmaHalt (a : Agent) (t : TileId) (ch : Fin 4) (enable : Bool) (s : State) : Host.Outcome State Fault Refusal :=
  .next (writeNum s a (dmaReg t ch 0) (2 + bit01 enable))

/-- Meaning of DMA_ENABLE (R107): DMA_CTRL without HALT. -/
def execDmaEnable (a : Agent) (t : TileId) (ch : Fin 4) (enable : Bool) (s : State) : Host.Outcome State Fault Refusal :=
  .next (writeNum s a (dmaReg t ch 0) (bit01 enable))

/-- Meaning of SHADOW_WRITE (R126): a write of a register of the dataflow page. -/
def execShadowWrite (a : Agent) (t : TileId) (off : Fin 4096) (v : W64) (s : State) : Host.Outcome State Fault Refusal :=
  .next (writeBy s a (dfReg t off) v)

/-- Meaning of CFG_RECORD_WRITE (R85, R93): a whole record for a shadow slot, in sixteen words, refused when its check fails. -/
def execCfgRecordWrite (a : Agent) (t : TileId) (slot : Fin 8) (w : List W32) (s : State) : Host.Outcome State Fault Refusal :=
  .next (match slotKind t 1, tileType t with
    | some _, .s => (accessRec s (dfPage t) 0x10 0x0A04 (dfReg t (slotOff false slot)))
    | none, _ => unmapped s a (dfReg t (slotOff false slot))
    | some k, _ =>
      if regDenied s a k t (slotOff false slot) true 0 then refuseAccess s a (dfPage t) (dfReg t (slotOff false slot))
      else
        let u := writeWakes s (dfPage t)
        if fencedWrite u k t (slotOff false slot) || haltedWrite u k (slotOff false slot) 0 || shadowLocked u t then ignored u (dfPage t)
        else storeRec u t slot ((List.range 16).map (fun i => (w.getD i 0).toNat)))


/-! ### Scratchpad (R155–R161, R170) -/

/-- Meaning of MODE_CHANGE (R155). -/
def execModeChange (a : Agent) (t : TileId) (mode : Fin 4) (s : State) : Host.Outcome State Fault Refusal :=
  .next (writeNum s a (spReg t 0x100) mode)

/-- Meaning of RES_CTX_WRITE (R157). -/
def execResCtxWrite (a : Agent) (t : TileId) (r : Fin 8) (v : W64) (s : State) : Host.Outcome State Fault Refusal :=
  .next (writeBy s a (spReg t (0x140 + 8 * r.val)) v)

/-- Meaning of RGN_WRITE (R157): register `k` (BASE, LIMIT, ATTR) of region `j` of slot `r`. -/
def execRgnWrite (a : Agent) (t : TileId) (r : Fin 8) (j : Fin 16) (k : Fin 3) (v : W64) (s : State) : Host.Outcome State Fault Refusal :=
  .next (writeBy s a (rgnReg t r j k) v)

/-- Meaning of CIRC_CFG_WRITE (R161). -/
def execCircCfgWrite (a : Agent) (t : TileId) (n : Fin 4) (v : W64) (s : State) : Host.Outcome State Fault Refusal :=
  .next (writeBy s a (circReg t n 0) v)

/-- Meaning of BANK_PWR_WRITE (R170). -/
def execBankPwrWrite (a : Agent) (t : TileId) (v : W64) (s : State) : Host.Outcome State Fault Refusal :=
  .next (writeBy s a (spReg t 0x120) v)


/-! ### Queues (R179–R186, R205) -/

/-- Meaning of OPEN (R182). -/
def execOpen (a : Agent) (t : TileId) (q : QueueId) (c : CtxId) (s : State) : Host.Outcome State Fault Refusal :=
  .next (writeNum s a (qctl t 0x108) (place 8 3 1 + q.val + place 11 8 c))

/-- Meaning of DRAIN (R182). -/
def execDrain (a : Agent) (t : TileId) (q : QueueId) (s : State) : Host.Outcome State Fault Refusal :=
  .next (writeNum s a (qctl t 0x108) (place 8 3 2 + q.val))

/-- Meaning of CLOSE (R182). -/
def execClose (a : Agent) (t : TileId) (q : QueueId) (s : State) : Host.Outcome State Fault Refusal :=
  .next (writeNum s a (qctl t 0x108) (place 8 3 3 + q.val))

/-- Meaning of Q_RESET (R182). -/
def execQReset (a : Agent) (t : TileId) (q : QueueId) (s : State) : Host.Outcome State Fault Refusal :=
  .next (writeNum s a (qctl t 0x108) (place 8 3 4 + q.val))

/-- Meaning of Q_GRANT (R186): a write of Q_GRANT. -/
def execQGrant (a : Agent) (t : TileId) (q : QueueId) (dev : Fin 32768) (tile : Fin 8192) (n : Fin 131072) (s : State) : Host.Outcome State Fault Refusal :=
  .next (writeNum s a (qctl t 0x110) (place 44 17 n + place 36 8 q + place 13 15 dev + tile.val))

/-- Meaning of QD_RING_WRITE (R179). -/
def execQdRingWrite (a : Agent) (t : TileId) (q : QueueId) (v : W64) (s : State) : Host.Outcome State Fault Refusal :=
  .next (writeBy s a (qdReg t q 0) v)

/-- Meaning of HS_DATA_ACCESS (R205). -/
def execHsDataAccess (a : Agent) (t : TileId) (data : Option W64) (s : State) : Host.Outcome State Fault Refusal :=
  .next (accessBy s a (qctl t 0x148) data)

/-- Meaning of HS_BOUND_WRITE (R205): HS_BOUND_r, or HT_r. -/
def execHsBoundWrite (a : Agent) (t : TileId) (r : Fin 8) (table : Bool) (v : W64) (s : State) : Host.Outcome State Fault Refusal :=
  .next (writeBy s a (qctl t ((if table then 0x188 else 0x180) + 0x10 * r.val)) v)


/-! ### Routers (R217, R229, R231) -/

/-- Meaning of INJ_HOLD (R217): RT_CTRL.INJ_HOLD. -/
def execInjHold (a : Agent) (t : TileId) (on : Bool) (s : State) : Host.Outcome State Fault Refusal :=
  .next (writeField s a (rtReg t 0x100) 1 1 (bit01 on))

/-- Meaning of DEST_RESET (R229): RT_CTRL.DEST_RESET. -/
def execDestReset (a : Agent) (t : TileId) (on : Bool) (s : State) : Host.Outcome State Fault Refusal :=
  .next (writeField s a (rtReg t 0x100) 0 1 (bit01 on))

/-- Meaning of RT_DATA_ACCESS (R231). -/
def execRtDataAccess (a : Agent) (t : TileId) (data : Option W64) (s : State) : Host.Outcome State Fault Refusal :=
  .next (accessBy s a (rtReg t 0x118) data)

/-- Meaning of MC_DATA_ACCESS (R231). -/
def execMcDataAccess (a : Agent) (t : TileId) (data : Option W64) (s : State) : Host.Outcome State Fault Refusal :=
  .next (accessBy s a (rtReg t 0x128) data)


/-! ### Parith ports and the fabric (R238, R240, R263) -/

/-- Meaning of PORT_ENABLE (R238): PX_CTRL.ENABLE. -/
def execPortEnable (a : Agent) (p : PortId) (on : Bool) (s : State) : Host.Outcome State Fault Refusal :=
  .next (writeField s a (pxReg p 0x100) 0 1 (bit01 on))

/-- Meaning of PORT_FENCE (R238): PX_CTRL.FENCE. -/
def execPortFence (a : Agent) (p : PortId) (on : Bool) (s : State) : Host.Outcome State Fault Refusal :=
  .next (writeField s a (pxReg p 0x100) 1 1 (bit01 on))

/-- Meaning of PORT_RETRAIN (R238): PX_CTRL.RETRAIN. -/
def execPortRetrain (a : Agent) (p : PortId) (s : State) : Host.Outcome State Fault Refusal :=
  .next (writeField s a (pxReg p 0x100) 2 1 1)

/-- Meaning of LANE_MASK_WRITE (R240): PX_CTRL.LANE_MASK. -/
def execLaneMaskWrite (a : Agent) (p : PortId) (mask : Fin 16) (s : State) : Host.Outcome State Fault Refusal :=
  .next (writeField s a (pxReg p 0x100) 20 4 mask)

/-- Meaning of FX_DATA_ACCESS (R263). -/
def execFxDataAccess (a : Agent) (data : Option W64) (s : State) : Host.Outcome State Fault Refusal :=
  .next (accessBy s a (fxReg 0x110) data)

/-- Meaning of FM_DATA_ACCESS (R263). -/
def execFmDataAccess (a : Agent) (data : Option W64) (s : State) : Host.Outcome State Fault Refusal :=
  .next (accessBy s a (fxReg 0x120) data)


/-! ### Memory (R276, R281–R283) -/

/-- Meaning of MC_RETRAIN (R282): MC_CTRL.RETRAIN. -/
def execMcRetrain (a : Agent) (ctl : CtlId) (mask : Fin 16) (s : State) : Host.Outcome State Fault Refusal :=
  .next (writeField s a (mcReg ctl 0x100) 4 4 mask)

/-- Meaning of REMAP (R281): MM_CTRL.REMAP. -/
def execRemap (a : Agent) (s : State) : Host.Outcome State Fault Refusal :=
  .next (writeField s a (mmReg 0x100) 0 1 1)

/-- Meaning of DREG_WRITE (R276): MM_DREG_BASE_n, or MM_DREG_LIMIT_n. -/
def execDregWrite (a : Agent) (n : Fin 64) (limit : Bool) (v : W64) (s : State) : Host.Outcome State Fault Refusal :=
  .next (writeBy s a (mmReg ((if limit then 0x208 else 0x200) + 0x10 * n.val)) v)

/-- Meaning of MM_FENCE_WRITE (R283). -/
def execMmFenceWrite (a : Agent) (m : Fin 3) (v : W64) (s : State) : Host.Outcome State Fault Refusal :=
  .next (writeBy s a (mmReg (0x118 + 8 * m.val)) v)


/-! ### Gorbin port (R289, R305, R306) -/

/-- Meaning of GB_SEND_CTX_WRITE (R289). -/
def execGbSendCtxWrite (a : Agent) (m : Fin 4) (v : W64) (s : State) : Host.Outcome State Fault Refusal :=
  .next (writeBy s a (gbReg (0x120 + 8 * m.val)) v)

/-- Meaning of GB_DB_BIND_ACCESS (R306). -/
def execGbDbBindAccess (a : Agent) (data : Option W64) (s : State) : Host.Outcome State Fault Refusal :=
  .next (accessBy s a (gbReg 0x160) data)

/-- Meaning of GB_MSG_FAIL_READ (R306). -/
def execGbMsgFailRead (a : Agent) (s : State) : Host.Outcome State Fault Refusal :=
  .next (readBy s a (gbReg 0x118))

/-- Meaning of BOOT_GO (R305): GB_BOOT_CTRL with GO. -/
def execBootGo (a : Agent) (len : W32) (s : State) : Host.Outcome State Fault Refusal :=
  .next (writeNum s a (gbReg 0x178) (place 63 1 1 + len.toNat))


/-! ### Log, time and interrupts (R320, R321, R325, R328) -/

/-- Meaning of LOG_REC_READ (R320): a read of LOG_REC_0. -/
def execLogRecRead (a : Agent) (s : State) : Host.Outcome State Fault Refusal :=
  .next (readBy s a (logReg 0x200))

/-- Meaning of LOG_READ_WRITE (R320). -/
def execLogReadWrite (a : Agent) (index : Fin 4096) (s : State) : Host.Outcome State Fault Refusal :=
  .next (writeNum s a (logReg 0x110) index)

/-- Meaning of TB_SET (R321). -/
def execTbSet (a : Agent) (v : W64) (s : State) : Host.Outcome State Fault Refusal :=
  .next (writeBy s a (devReg 2 0x108) v)

/-- Meaning of TB_ADJ (R321). -/
def execTbAdj (a : Agent) (v : W64) (s : State) : Host.Outcome State Fault Refusal :=
  .next (writeBy s a (devReg 2 0x110) v)

/-- Meaning of IC_DONE (R325). -/
def execIcDone (a : Agent) (t : Fin 4) (g : Fin 32) (mask : Fin 65536) (s : State) : Host.Outcome State Fault Refusal :=
  .next (writeNum s a (icReg (0x308 + 0x10 * t.val)) (place 32 5 g + mask.val))

/-- Meaning of IC_SW (R328): IC_SW_6, or IC_SW_7. -/
def execIcSw (a : Agent) (hi : Bool) (v : W64) (s : State) : Host.Outcome State Fault Refusal :=
  .next (writeBy s a (icReg (if hi then 0x188 else 0x180)) v)


/-! ### Step commit (R331, R335, R347, R348, R359): CS_INDEX, then the register -/

/-- Meaning of CS_OPEN (R348). -/
def execCsOpen (a : Agent) (c : CtxId) (s : State) : Host.Outcome State Fault Refusal :=
  .next (writeNum (writeNum s a (csReg 0x108) c) a (csReg 0x1C8) 1)

/-- Meaning of RESOLVE_COMMIT (R347). -/
def execResolveCommit (a : Agent) (c : CtxId) (s : State) : Host.Outcome State Fault Refusal :=
  .next (writeNum (writeNum s a (csReg 0x108) c) a (csReg 0x1C8) 2)

/-- Meaning of RESOLVE_ABORT (R347). -/
def execResolveAbort (a : Agent) (c : CtxId) (s : State) : Host.Outcome State Fault Refusal :=
  .next (writeNum (writeNum s a (csReg 0x108) c) a (csReg 0x1C8) 3)

/-- Meaning of CLEAR_FAULT (R348). -/
def execClearFault (a : Agent) (c : CtxId) (s : State) : Host.Outcome State Fault Refusal :=
  .next (writeNum (writeNum s a (csReg 0x108) c) a (csReg 0x1C8) 4)

/-- Meaning of CS_STEP_WRITE (R331): CS_STEP_LO, or CS_STEP_HI. -/
def execCsStepWrite (a : Agent) (c : CtxId) (hi : Bool) (v : W64) (s : State) : Host.Outcome State Fault Refusal :=
  .next (writeBy (writeNum s a (csReg 0x108) c) a (csReg (if hi then 0x188 else 0x180)) v)

/-- Meaning of CS_CFG_WRITE (R335): CS_CFG, or CS_JOURNAL. -/
def execCsCfgWrite (a : Agent) (c : CtxId) (journal : Bool) (v : W64) (s : State) : Host.Outcome State Fault Refusal :=
  .next (writeBy (writeNum s a (csReg 0x108) c) a (csReg (if journal then 0x198 else 0x190)) v)

/-- Meaning of CS_TFS_READ_WRITE (R359). -/
def execCsTfsReadWrite (a : Agent) (index : Fin 65536) (s : State) : Host.Outcome State Fault Refusal :=
  .next (writeNum s a (csReg 0x120) index)


/-! ### Teardown and resets (R374, R376, R383) -/

/-- Meaning of TD_TEARDOWN (R374). -/
def execTdTeardown (a : Agent) (c : CtxId) (s : State) : Host.Outcome State Fault Refusal :=
  .next (writeNum s a (brReg 0x140) (place 8 3 1 + c.val))

/-- Meaning of TD_RELEASE (R376). -/
def execTdRelease (a : Agent) (c : CtxId) (s : State) : Host.Outcome State Fault Refusal :=
  .next (writeNum s a (brReg 0x140) (place 8 3 2 + c.val))

/-- Meaning of RST_CLUSTER (R383). -/
def execRstCluster (a : Agent) (c : Fin 512) (s : State) : Host.Outcome State Fault Refusal :=
  .next (writeNum s a (brReg 0x180) (place 8 9 c + 1))

/-- Meaning of RST_PARTITION (R383). -/
def execRstPartition (a : Agent) (s : State) : Host.Outcome State Fault Refusal :=
  .next (writeNum s a (brReg 0x180) 2)

/-- Meaning of RST_WARM (R383). -/
def execRstWarm (a : Agent) (s : State) : Host.Outcome State Fault Refusal :=
  .next (writeNum s a (brReg 0x180) 3)

/-- Meaning of RST_COLD (R383). -/
def execRstCold (a : Agent) (s : State) : Host.Outcome State Fault Refusal :=
  .next (writeNum s a (brReg 0x180) 4)


/-! ### Checkpoints (R392–R401): CK_INDEX, then CK_CMD -/

/-- Meaning of CK_TAKE (R392). -/
def execCkTake (a : Agent) (n : Fin 4) (step : Fin 281474976710656) (s : State) : Host.Outcome State Fault Refusal :=
  .next (writeNum (writeNum s a (ckReg 0x108) n) a (ckReg 0x1A0) (place 48 3 1 + step.val))

/-- Meaning of CK_CANCEL (R393). -/
def execCkCancel (a : Agent) (n : Fin 4) (s : State) : Host.Outcome State Fault Refusal :=
  .next (writeNum (writeNum s a (ckReg 0x108) n) a (ckReg 0x1A0) (place 48 3 2))

/-- Meaning of EXPORT (R397). -/
def execExport (a : Agent) (n : Fin 4) (half : Fin 2) (s : State) : Host.Outcome State Fault Refusal :=
  .next (writeNum (writeNum s a (ckReg 0x108) n) a (ckReg 0x1A0) (place 51 1 half + place 48 3 3))

/-- Meaning of RESTORE_PARTNER (R398). -/
def execRestorePartner (a : Agent) (n : Fin 4) (half : Fin 2) (dev : Fin 32768) (s : State) : Host.Outcome State Fault Refusal :=
  .next (writeNum (writeNum s a (ckReg 0x108) n) a (ckReg 0x1A0) (place 51 1 half + place 48 3 4 + dev.val))

/-- Meaning of RESTORE_FLASH (R398). -/
def execRestoreFlash (a : Agent) (n : Fin 4) (half : Fin 2) (dev : Fin 32768) (s : State) : Host.Outcome State Fault Refusal :=
  .next (writeNum (writeNum s a (ckReg 0x108) n) a (ckReg 0x1A0) (place 51 1 half + place 48 3 5 + dev.val))

/-- Meaning of CK_LAMBDA_HOST_WRITE (R400). -/
def execCkLambdaHostWrite (a : Agent) (fit : W32) (s : State) : Host.Outcome State Fault Refusal :=
  .next (writeNum s a (ckReg 0x110) fit.toNat)


/-! ### Bring-up (R417–R427): HB_ARG, then HB_CMD -/

/-- Meaning of BOOT (R421). -/
def execBoot (a : Agent) (arg : W64) (s : State) : Host.Outcome State Fault Refusal :=
  .next (writeNum (writeBy s a (hbReg 0x118) arg) a (hbReg 0x110) (1))

/-- Meaning of RECHECK (R422). -/
def execRecheck (a : Agent) (s : State) : Host.Outcome State Fault Refusal :=
  .next (writeNum s a (hbReg 0x110) (2))

/-- Meaning of INSTALL_LICENCE (R426). -/
def execInstallLicence (a : Agent) (arg : W64) (s : State) : Host.Outcome State Fault Refusal :=
  .next (writeNum (writeBy s a (hbReg 0x118) arg) a (hbReg 0x110) (3))

/-- Meaning of JSCAN (R420). -/
def execJscan (a : Agent) (arg : W64) (s : State) : Host.Outcome State Fault Refusal :=
  .next (writeNum (writeBy s a (hbReg 0x118) arg) a (hbReg 0x110) (4))

/-- Meaning of SHARE (R417). -/
def execShare (a : Agent) (g : Fin 4096) (s : State) : Host.Outcome State Fault Refusal :=
  .next (writeNum s a (hbReg 0x110) (place 3 12 g + 5))


/-! ### Yew (R429, R435, R438, R444) -/

/-- Meaning of SHUTDOWN_TEST (R438). -/
def execShutdownTest (a : Agent) (s : State) : Host.Outcome State Fault Refusal :=
  .next (writeNum s a (ywReg 0x110) 1)

/-- Meaning of YIELD_GRANT (R435). -/
def execYieldGrant (a : Agent) (s : State) : Host.Outcome State Fault Refusal :=
  .next (writeNum s a (ywReg 0x110) 2)

/-- Meaning of TEST_NOW (R444). -/
def execTestNow (a : Agent) (c : Fin 512) (s : State) : Host.Outcome State Fault Refusal :=
  .next (writeNum s a (ywReg 0x110) (place 8 9 c + 3))

/-- Meaning of RAW_ENTER (R429). -/
def execRawEnter (a : Agent) (s : State) : Host.Outcome State Fault Refusal :=
  .next (writeNum s a (ywReg 0x110) 4)

/-- Meaning of RAW_EXIT (R429). -/
def execRawExit (a : Agent) (s : State) : Host.Outcome State Fault Refusal :=
  .next (writeNum s a (ywReg 0x110) 5)

/-- Meaning of YW_RAW_ACCESS (R429): YW_RAW_DATA, or YW_RAW_TRIM. -/
def execYwRawAccess (a : Agent) (trim : Bool) (data : Option W64) (s : State) : Host.Outcome State Fault Refusal :=
  .next (accessBy s a (ywReg (if trim then 0x810 else 0x808)) data)


/-! ### Power (R453) and pace (R30) -/

/-- Meaning of CL_PACE_EXT_READ (R30). -/
def execClPaceExtRead (a : Agent) (c : ClusterId) (s : State) : Host.Outcome State Fault Refusal :=
  .next (readBy s a (clusterReg c 0x108))

/-- Meaning of TOLERANCE_WRITE (R453): PW_DEV_TOL, or PW_CTX_TOL of a context. -/
def execToleranceWrite (a : Agent) (c : Option CtxId) (us : W32) (s : State) : Host.Outcome State Fault Refusal :=
  .next (match c with
    | none => writeNum s a (pwReg 0x110) us.toNat
    | some x => writeNum (writeNum s a (pwReg 0x118) x) a (pwReg 0x120) us.toNat)


/-! ### Hawthorn (R470–R484): HW_ARG, then HW_CMD -/

/-- Meaning of ATTEST (R478). -/
def execAttest (a : Agent) (arg : Fin 281474976710656) (s : State) : Host.Outcome State Fault Refusal :=
  .next (writeNum (writeNum s a (hwReg 0x110) arg) a (hwReg 0x108) 1)

/-- Meaning of DEBUG_OPEN (R482). -/
def execDebugOpen (a : Agent) (arg : Fin 281474976710656) (s : State) : Host.Outcome State Fault Refusal :=
  .next (writeNum (writeNum s a (hwReg 0x110) arg) a (hwReg 0x108) 2)

/-- Meaning of DEBUG_CLOSE (R482). -/
def execDebugClose (a : Agent) (s : State) : Host.Outcome State Fault Refusal :=
  .next (writeNum s a (hwReg 0x108) 3)

/-- Meaning of LC_ADVANCE (R473). -/
def execLcAdvance (a : Agent) (arg : Fin 281474976710656) (s : State) : Host.Outcome State Fault Refusal :=
  .next (writeNum (writeNum s a (hwReg 0x110) arg) a (hwReg 0x108) 4)

/-- Meaning of EXTEND (R477). -/
def execExtend (a : Agent) (mr : Fin 16) (s : State) : Host.Outcome State Fault Refusal :=
  .next (writeNum s a (hwReg 0x108) (place 8 4 mr + 5))

/-- Meaning of EPOCH_COMMIT (R476). -/
def execEpochCommit (a : Agent) (s : State) : Host.Outcome State Fault Refusal :=
  .next (writeNum s a (hwReg 0x108) 6)

/-- Meaning of DBG_HOLD (R483). -/
def execDbgHold (a : Agent) (s : State) : Host.Outcome State Fault Refusal :=
  .next (writeNum s a (hwReg 0x108) 7)

/-- Meaning of DBG_RELEASE (R483). -/
def execDbgRelease (a : Agent) (s : State) : Host.Outcome State Fault Refusal :=
  .next (writeNum s a (hwReg 0x108) 8)

/-- Meaning of FENCE_LOG_CLEAR (R484). -/
def execFenceLogClear (a : Agent) (s : State) : Host.Outcome State Fault Refusal :=
  .next (writeNum s a (hwReg 0x108) 9)

/-- Meaning of HW_CHAL_READ (R470). -/
def execHwChalRead (a : Agent) (s : State) : Host.Outcome State Fault Refusal :=
  .next (readBy s a (hwReg 0x120))

end Sys2Proof.Machine
end

