-- ==== Sys2Proof/Machine/Tensor.lean ====
section
/-! DEFINITION. The T engine: MMA, EMIT, CLEAR, LOAD_ACC and NOP (R78–R86), buffer writes (R82) and
Scruple's checks (R68). -/

namespace Sys2Proof.Machine

/-! ### Accumulators (R80) -/

/-- An accumulator's fixed-window value, afresh when its entry records another kind. -/
def accFws (e : AccEntry) (kind : Nat) (anchor : Int) : Fws := if e.kind = kind + 1 then e.fws else fwsZero anchor

/-- Lane `i` of a B32 entry, empty when its entry records another kind. -/
def accB32 (e : AccEntry) (i : Nat) : Option Nat := if e.kind = 1 then (e.b32.getD i none) else none

/-- A lane of a B32 entry set; an entry of another kind starts afresh. -/
def putB32 (e : AccEntry) (i : Nat) (v : Option Nat) : AccEntry :=
  let l := if e.kind = 1 then e.b32 else List.replicate 8 none
  { kind := 1, b32 := l.set i v, fws := fwsZero 0 }

/-- A fixed-window entry. -/
def putFws (kind : Nat) (f : Fws) : AccEntry := { kind := kind + 1, b32 := List.replicate 8 none, fws := f }

/-- Value of accumulator `i` of a record's range, for emission. -/
def accLane (s : State) (t : Nat) (r : TRec) (i : Nat) : Option Nat := accB32 (accEntry s t (r.accBase + i / 8)) (i % 8)

/-! ### Operands (R81) -/

/-- Chunk, sub-tile row and sub-tile column of step `n`: the chunk index is the outer loop (R86). -/
def stepPlace (r : TRec) (sr sc n : Nat) : Nat × Nat × Nat :=
  let w := r.n / sc
  let h := r.m / sr
  (n / (h * w), n / w % h, n % w)

/-- Byte ranges that a step reads: elements of A, elements of B, and for an MX operand its scales. -/
def stepRanges (r : TRec) (sr sc : Nat) (p : Nat × Nat × Nat) : List (Nat × Nat) :=
  let ca := chunkBytes r.aFmt
  let cb := chunkBytes r.bFmt
  [(4 * r.aBase + (p.1 * r.m + p.2.1 * sr) * ca, sr * ca), (4 * r.bBase + (p.1 * r.n + p.2.2 * sc) * cb, sc * cb)]
    ++ (if isMx r.aFmt then [(r.aScale + p.1 * r.m + p.2.1 * sr, sr), (r.bScale + p.1 * r.n + p.2.2 * sc, sc)] else [])

/-- A chunk of an operand decoded: element values of each row, and its scale field (R45, R81). -/
def decodeChunk (code rows ch : Nat) (bytes scales : List Byte) : List (List Fl × Nat) :=
  (List.range rows).map (fun r =>
    ((unpackElems (codeBits code) ch ((bytes.drop (r * chunkBytes code)).take (chunkBytes code))).map (decodeElem code),
     if isMx code then (scales.getD r 0).toNat else 127))

/-- The terms that one chunk adds to an accumulator: one block sum for MX operands, else one product
for each element (R49, R50, R60). -/
def chunkTerms (mx : Bool) (a b : List Fl × Nat) : List Fl :=
  if mx then [blockSum a.1 b.1 a.2 b.2] else (a.1.zip b.1).map (fun p => mulFl p.1 p.2)

/-- 64 B lines that a byte range covers. -/
def linesOf (x : Nat × Nat) : List Nat := (List.range ((x.1 + x.2 + 63) / 64 - x.1 / 64)).map (fun i => x.1 / 64 + i)

/-- Extra steps of one operand step: lines beyond the first of each bank (R82). -/
def stepConflicts (ranges : List (Nat × Nat)) : Nat :=
  let ls := (ranges.flatMap linesOf).eraseDups
  (List.range 8).foldl (fun acc b => acc + ((ls.filter (fun l => l % 8 == b)).length - 1)) 0

/-! ### Output (R59, R62, R63, R83, R86) -/

/-- Accumulator `i` of a range converted for output, with its final verdict (R55, R59, R63): the code, the codes of the
conditions it raises, and the state with ARITH_STAT and CONV_SAT_COUNT after them. An entry of another kind is output
as afresh and stays as it is (R80) (log entry 156, DEDUCED). -/
def emitOne (s : State) (t : Nat) (r : TRec) (i : Nat) : (Nat × List Nat) × State :=
  if r.accKind = 0 then
    satResult s t (toCode r.outFmt (rmodeOf r.rmode) r.anchor (ofB32 (b32Read (accLane s t r i)))) []
  else
    let e := accEntry s t (r.accBase + i)
    let old := accFws e r.accKind r.anchor
    let f := fwsFinal (r.accKind == 2) old
    let new := fwsCodes (r.accKind == 2) old f
    let s1 := if e.kind = r.accKind + 1 then setAccEntry s t (r.accBase + i) (putFws r.accKind f) else s
    satResult (raiseArith s1 t new) t (fwsToCode r.outFmt (rmodeOf r.rmode) f) (new ++ convCodes r.outFmt f)

/-- A range converted in row-major order: codes, the conditions of each accumulator, and the state. -/
def emitCodes (s : State) (t : Nat) (r : TRec) : List (Nat × List Nat) × State :=
  (List.range (r.m * r.n)).foldl (fun (acc : List (Nat × List Nat) × State) i =>
    let q := emitOne acc.2 t r i
    (acc.1 ++ [q.1], q.2)) ([], s)

/-- The pieces in which output is written to the buffer: whole slots of a tagged region, else lines. -/
def writePieces (s : State) (t c : Nat) : Nat → Nat → List Byte → List (Nat × List Byte)
  | 0, _, _ => []
  | _, _, [] => []
  | n + 1, b, bs =>
    let k := match ctxRegion s t c (b / 4) with
      | some g => if g.tagged then 4 * g.slotWords else 64 - b % 64
      | none => 64 - b % 64
    (b, bs.take k) :: writePieces s t c n (b + k) (bs.drop k)

/-- A T range emitted by its OUT_MODE (R83): LOCAL output waits for the buffer's ports (R82). The conditions that each
accumulator raised come beside the state; a partial's verdict is its destination's. -/
def emitRange (s : State) (t : Nat) (a : Act) (r : TRec) : List (List Nat) × State :=
  let c := a.ctx
  let outCfg := (bindOf s t true a.slot).outCfg
  match r.outMode with
  | 2 =>
    ([], if r.accKind = 0 then
      each (List.range ((r.m * r.n + 7) / 8)) (fun u i =>
        let vs := (List.range 8).map (fun l => b32Read (accLane u t r (8 * i + l)))
        sendPartial u t (partialOf u t c r.outEp r.redId r.partIndex r.partCount r.rmode 0 (8 * i) (b32Value vs) (fwsZero 0))) s
    else
      each (List.range (r.m * r.n)) (fun u i =>
        let f := accFws (accEntry u t (r.accBase + i)) r.accKind r.anchor
        sendPartial u t (partialOf u t c r.outEp r.redId r.partIndex r.partCount r.rmode r.accKind i (fwsValue f) f)) s)
  | _ =>
    let q := emitCodes s t r
    let bits := codeBits r.outFmt
    let codes := q.1.map Prod.fst
    (q.1.map Prod.snd,
      if r.outMode = 0 then
        let bytes := packElems bits codes
        let l := mapGet (fun _ => []) q.2.flow.bufWrites t ++ writePieces q.2 t c bytes.length (4 * r.outBase) bytes
        { q.2 with flow := { q.2.flow with bufWrites := mapPut (fun _ => []) q.2.flow.bufWrites t l } }
      else
        each (List.range r.m) (fun u i => sendRow u t a r.outEp outCfg (packElems bits ((codes.drop (i * r.n)).take r.n))) q.2)

/-- Steps of emission at 32 accumulators per step (R86). -/
def emitSteps (r : TRec) : Nat := ceilDiv (r.m * r.n) 32

/-- An activation whose operation has run (R118 waits for its outputs and checks). -/
def executed (s : State) (t : Nat) : State := setAct s t { actOf s t with phase := 2, waiting := false }

/-! ### MMA -/

/-- Conditions that accumulation `i` of an activation raised, kept for the records that follow its check (R75). -/
def noteRaised (s : State) (t i : Nat) (codes : List Nat) : State :=
  if codes.isEmpty then s
  else setAct (raiseArith s t codes) t { actOf s t with raised := (actOf s t).raised ++ codes.map (fun k => (i, k)) }

/-- Accumulator `i` of an MMA before its first term (R57, R60, R80): afresh with ZERO = 1 or under another kind, invalid
under another anchor, else as it stands. -/
def mmaInit (s : State) (t : Nat) (r : TRec) (i : Nat) : State :=
  if r.accKind = 0 then
    let e := accEntry s t (r.accBase + i / 8)
    if r.zero || e.kind != 1 then setAccEntry s t (r.accBase + i / 8) (putB32 e (i % 8) none) else s
  else
    let e := accEntry s t (r.accBase + i)
    let old := if r.zero then fwsZero r.anchor else accFws e r.accKind r.anchor
    if old.anchor = r.anchor then setAccEntry s t (r.accBase + i) (putFws r.accKind old)
    else noteRaised (setAccEntry s t (r.accBase + i) (putFws r.accKind (fwsJoin (fwsZero r.anchor) old))) t i [0x0109]

/-- Terms added to accumulator `i` of an MMA (R55, R56, R60). -/
def mmaAdd (s : State) (t : Nat) (r : TRec) (i : Nat) (terms : List Fl) : State :=
  if r.accKind = 0 then
    let e := accEntry s t (r.accBase + i / 8)
    setAccEntry s t (r.accBase + i / 8) (putB32 e (i % 8) (terms.foldl (b32Add (rmodeOf r.rmode)) (accB32 e (i % 8))))
  else
    let old := accFws (accEntry s t (r.accBase + i)) r.accKind r.anchor
    let f := terms.foldl (fwsAdd (r.accKind == 2)) old
    noteRaised (setAccEntry s t (r.accBase + i) (putFws r.accKind f)) t i (fwsCodes (r.accKind == 2) old f)

/-- A sub-tile's share of one step: row `x` and column `y` of the sub-tile at `p`. -/
def mmaCell (s : State) (t : Nat) (r : TRec) (p : Nat × Nat × Nat) (sr sc : Nat) (a b : List (List Fl × Nat)) (q : Nat) : State :=
  mmaAdd s t r ((p.2.1 * sr + q / sc) * r.n + p.2.2 * sc + q % sc)
    (chunkTerms (isMx r.aFmt) (a.getD (q / sc) ([], 0)) (b.getD (q % sc) ([], 0)))

/-- A block with scale field 0xFF that accumulator `i` is the first to read (R72): its record follows the check of that
accumulation (R75) (log entry 192, DESIGN CHOICE). -/
def mmaNan (s : State) (t i : Nat) : State := noteRaised (scaleNanSeen s t) t i (scaleNanCodes s t)

/-- The accumulators of the sub-tile at `p` that are the first to read a block with scale field 0xFF: for a row of A the
leftmost of C, for a column of B the topmost. -/
def nanCells (r : TRec) (p : Nat × Nat × Nat) (sr sc : Nat) (sa sb : List Byte) : List Nat :=
  (if p.2.2 = 0 then ((List.range sr).filter (fun x => sa.getD x 0 == 0xFF)).map (fun x => (p.2.1 * sr + x) * r.n) else [])
    ++ (if p.2.1 = 0 then ((List.range sc).filter (fun y => sb.getD y 0 == 0xFF)).map (fun y => p.2.2 * sc + y) else [])

/-- One step of an MMA once its operands are in hand (R78, R82, R86). -/
def mmaStep (t : Nat) (r : TRec) (sr sc ch : Nat) (s : State) (a : Act) : State :=
  let p := stepPlace r sr sc a.step
  let rs := stepRanges r sr sc p
  let bytes (i : Nat) : List Byte := let x := rs.getD i (0, 0); handBytes a.hand x.1 x.2
  let s1 := if isMx r.aFmt then each (nanCells r p sr sc (bytes 2) (bytes 3)) (fun u i => mmaNan u t i) s else s
  let da := decodeChunk r.aFmt sr ch (bytes 0) (bytes 2)
  let db := decodeChunk r.bFmt sc ch (bytes 1) (bytes 3)
  let s2 := each (List.range (sr * sc)) (fun u q => mmaCell u t r p sr sc da db q) s1
  let conf := stepConflicts rs
  busySteps (countSteps (countSteps s2 t 0x088 1) t 0x090 conf) t (1 + conf)

/-- What Scruple checks of accumulator `i` of an MMA (R66, R67): residues that the spec does not state are free. -/
def mmaChk (s : State) (t : Nat) (r : TRec) (i : Nat) (codes : List Nat) : Chk :=
  let mx := isMx r.aFmt || isIntCode r.aFmt
  { res := if r.accKind = 0 then Config.freeNat (s.free + i) % 127 else (accFws (accEntry s t (r.accBase + i)) r.accKind r.anchor).res
    mul := mx, acc := r.accKind != 0, flt := !mx || r.accKind == 0, codes := codes }

/-- The end of an MMA: the pipeline's 24 steps, emission unless KEEP, and the checks owed (R68, R86). -/
def mmaEnd (s : State) (t : Nat) (r : TRec) : State :=
  let a := actOf s t
  let s1 := busySteps s t (24 + (if r.keep then 0 else emitSteps r))
  let q := if r.keep then ([], s1) else emitRange s1 t a r
  let chks := (List.range (r.m * r.n)).map (fun i =>
    mmaChk q.2 t r i (((a.raised.filter (fun x => x.1 == i)).map Prod.snd) ++ q.1.getD i []))
  progress (executed (owe (drawnMany q.2 (r.m * r.n)) t a.ctx chks) t) t a.ctx

/-- An MMA from the step in progress on (R86). -/
def runMma (s : State) (t : Nat) (r : TRec) (sr sc ch : Nat) : State :=
  let a := actOf s t
  let s1 := if a.step = 0 && a.hand.isEmpty then each (List.range (r.m * r.n)) (fun u i => mmaInit u t r i) s else s
  runSteps s1 t ((r.m / sr) * (r.n / sc) * (r.k / ch)) (fun n => stepRanges r sr sc (stepPlace r sr sc n))
    (mmaStep t r sr sc ch) (fun u => mmaEnd u t r)

/-- Meaning of MMA (R84, R86). -/
def execMma (t : TileId) (s : State) : Host.Outcome State Fault Refusal :=
  .next (if tileType t = .t then
      match dueAct s t 1 (fun w => (tRecOf w).op) with
      | some a =>
        let r := tRecOf a.words
        match shapeOf r.aFmt r.bFmt with
        | some (sr, sc, ch) => runMma s t r sr sc ch
        | none => s
      | none => s
    else s)

/-- Meaning of T_NOP (R84). -/
def execTNop (t : TileId) (s : State) : Host.Outcome State Fault Refusal :=
  .next (if tileType t = .t then
      match dueAct s t 0 (fun w => (tRecOf w).op) with
      | some a => progress (executed (busySteps s t 1) t) t a.ctx
      | none => s
    else s)

/-- Meaning of EMIT (R84). -/
def execEmit (t : TileId) (s : State) : Host.Outcome State Fault Refusal :=
  .next (if tileType t = .t then
      match dueAct s t 2 (fun w => (tRecOf w).op) with
      | some a =>
        let r := tRecOf a.words
        let q := emitRange (busySteps s t (emitSteps r)) t a r
        progress (executed (each q.1 (fun u l => arithRecords u t a.ctx l) q.2) t) t a.ctx
      | none => s
    else s)

/-- The range set to zero (R60, R84) (log entry 25, DEDUCED). -/
def clearRange (s : State) (t : Nat) (r : TRec) : State :=
  if r.accKind = 0 then
    each (List.range (r.m * r.n)) (fun u i =>
      setAccEntry u t (r.accBase + i / 8) (putB32 (accEntry u t (r.accBase + i / 8)) (i % 8) (some 0))) s
  else each (accRange r) (fun u i => setAccEntry u t i (putFws r.accKind (fwsZero r.anchor))) s

/-- Meaning of CLEAR (R84). -/
def execClear (t : TileId) (s : State) : Host.Outcome State Fault Refusal :=
  .next (if tileType t = .t then
      match dueAct s t 3 (fun w => (tRecOf w).op) with
      | some a =>
        let r := tRecOf a.words
        progress (executed (clearRange (busySteps s t (emitSteps r)) t r) t) t a.ctx
      | none => s
    else s)

/-- One record of LOAD_ACC enters its accumulator (R57, R59, R84): as a term of an INT reduction it is held to the
bounds of R55. -/
def loadOne (s : State) (t c : Nat) (r : TRec) (i v : Nat) : State :=
  let f := fwsOfRec v
  if r.accKind = 0 then
    setAccEntry s t (r.accBase + i / 8) (putB32 (accEntry s t (r.accBase + i / 8)) (i % 8)
      (some (toIeee fmtB32 (rmodeOf r.rmode) (flOfFws f))))
  else if f.anchor != r.anchor then
    arithEvents (setAccEntry s t (r.accBase + i) (putFws r.accKind (fwsJoin (fwsZero r.anchor) f))) t c [0x0109]
  else
    let g := fwsFinal (r.accKind == 2) f
    arithEvents (setAccEntry s t (r.accBase + i) (putFws r.accKind g)) t c (fwsCodes (r.accKind == 2) f g)

/-- Byte range of step `n` of LOAD_ACC: up to 16 records (R84). -/
def loadRange (r : TRec) (n : Nat) : Nat × Nat := (4 * r.outBase + 512 * n, 32 * min 16 (r.m * r.n - 16 * n))

/-- One step of LOAD_ACC once its records are in hand. -/
def loadStep (t : Nat) (r : TRec) (s : State) (a : Act) : State :=
  let x := loadRange r a.step
  busySteps (each (List.range (x.2 / 32)) (fun u i =>
    loadOne u t a.ctx r (16 * a.step + i) (natOfBytes (handBytes a.hand (x.1 + 32 * i) 32))) s) t 1

/-- Meaning of LOAD_ACC (R84). -/
def execLoadAcc (t : TileId) (s : State) : Host.Outcome State Fault Refusal :=
  .next (if tileType t = .t then
      match dueAct s t 4 (fun w => (tRecOf w).op) with
      | some a =>
        let r := tRecOf a.words
        runSteps s t (ceilDiv (r.m * r.n) 16) (fun n => [loadRange r n]) (loadStep t r) (fun u => progress (executed u t) t a.ctx)
      | none => s
    else s)

/-- Meaning of OPERAND_ARRIVAL (R86): an activation whose waiting accesses have all been performed goes on; the steps it
waited are counted, their number depending on the tile's pace. -/
def execOperandArrival (t : TileId) (s : State) : Host.Outcome State Fault Refusal :=
  .next (let a := actOf s t
    if a.on && a.waiting && !actPends s t then
      let s1 := setAct s t { a with waiting := false }
      if tileType t = .t then drawn (countSteps s1 t 0x098 (freeNat s)) else s1
    else s)

/-- Meaning of BUFFER_WRITE_PORT (R82): the oldest write of the tile's output takes its bank's port; one that waits for
its slot or bank is done when it is served. -/
def execBufferWritePort (t : TileId) (s : State) : Host.Outcome State Fault Refusal :=
  .next (match mapGet (fun _ => []) s.flow.bufWrites t with
    | [] => s
    | (b, bs) :: rest =>
      let a := actOf s t
      let tagged := ((ctxRegion s t a.ctx (b / 4)).map (fun g => g.tagged)).getD false
      let x : SpAcc := { tile := t, boff := b, len := bs.length, op := if tagged then .wrFill else .wr, req := .act t
                         ctx := some a.ctx, data := bs.map some }
      if !a.on || actPends s t then s
      else
        let q := access s x
        match q.1 with
        | .ok _ => { q.2 with flow := { q.2.flow with bufWrites := mapPut (fun _ => []) q.2.flow.bufWrites t rest } }
        | .waiting => q.2
        | .failed _ => engFault q.2 t)

/-- Meaning of SCRUPLE_CHECK (R68): the oldest accumulations owed to Scruple are checked; `flaws` are the
errors that the arithmetic made: the comparison that sees each, its accumulation, and the residue observed (log entry 9, DEDUCED). -/
def execScrupleCheck (t : TileId) (flaws : List (Nat × Nat × Nat)) (s : State) : Host.Outcome State Fault Refusal :=
  .next (scrupleCheck s t (flaws.map (fun f => { code := f.1, index := f.2.1, observed := f.2.2 % 128 })))

end Sys2Proof.Machine
end

