-- ==== Sys2Proof/Machine/UfsDone.lean ====
section
/-! DEFINITION. Completion of UFS commands (R407) and what each means to the command's user. -/

namespace Sys2Proof.Machine

/-- Whether a command moves blocks to the host (0) or from it (1). -/
def UfsCmd.bytes (x : UfsCmd) : Nat := if x.op ≤ 1 then 4096 * x.count else 0

/-- What the completed command means to its user: `ok` is false after the second failure. -/
def ufsUser (s : State) (u : UfsUser) (ok : Bool) (data : List Byte) : State :=
  match u with
  | .directory => dirDone s ok data
  | .image _ => imageDone s ok data
  | .licence => licenceDone s ok data
  | .licenceWrite => if ok then s else report s (devPage 7) 0x0E11
  | .fenceLoad b => logDone s b ok data
  | .fenceWrite => if ok then s else report s (devPage 7) 0x0E05
  | .ageLoad _ => ageDone s ok data
  | .ageWrite _ => if ok then s else report s ywPage 0x0F0B
  | .sdRead => sdDone s ok data
  | .sdWrite => sdWritten s ok
  | .sdConsume => s
  | .flash n _ => flashDone s n ok
  | .restore n k => restorePart s n k ok data
  | .refill => refillDone s ok data
  | .host => s

/-- The place in the list of the `k`-th command issued. -/
def issuedAt : List UfsCmd → Nat → Nat → Option Nat
  | [], _, _ => none
  | x :: xs, k, p => if x.issued then (if k = 0 then some p else issuedAt xs (k - 1) (p + 1)) else issuedAt xs k (p + 1)

/-- Meaning of UFS_COMMAND_COMPLETION (R407): slot `k` of the commands issued completes with its data, or fails. A first
failure sends it again; a second writes record 0x0E14. -/
def execUfsCommandCompletion (k : Fin 32) (ok : Bool) (data : List Byte) (s : State) : Host.Outcome State Fault Refusal :=
  .next (match issuedAt s.ufs.cmds k.val 0 with
    | none => s
    | some p => match s.ufs.cmds[p]? with
      | none => s
      | some x =>
        let s1 := { s with ufs := { s.ufs with idleSince := now s + 1 } }
        if !ok && x.tries = 0 then
          let s2 := setUfs s1 (s.ufs.cmds.set p { x with tries := 1 })
          incWrap (ufsIssue (incSat s2 (ufsReg 0x90)) x) (ufsReg 0x80) 1
        else
          let s2 := setUfs s1 (s.ufs.cmds.eraseIdx p)
          if ok then ufsUser (incWrap s2 (ufsReg 0x88) x.bytes) x.user true (if x.op = 0 then fitBytes x.bytes data else [])
          else ufsUser (report (incSat s2 (ufsReg 0x90)) (devPage 14) 0x0E14) x.user false [])

end Sys2Proof.Machine
end

