-- ==== Sys2Proof/Machine/Dispatch.lean ====
section
/-! DEFINITION. The dispatch of every command to its meaning. -/

namespace Sys2Proof.Machine

def exec (i : Instr) (s : State) : Host.Outcome State Fault Refusal :=
  match i with
  | .moduleResetRelease => Sys2Proof.Machine.execModuleResetRelease s
  | .paceWindowEnd c tile router => Sys2Proof.Machine.execPaceWindowEnd c tile router s
  | .clPaceExtRead a c => Sys2Proof.Machine.execClPaceExtRead a c s
  | .boundaryFifoSlotFree b => Sys2Proof.Machine.execBoundaryFifoSlotFree b s
  | .scrupleCheck t flaws => Sys2Proof.Machine.execScrupleCheck t flaws s
  | .scrInjectWrite a t v => Sys2Proof.Machine.execScrInjectWrite a t v s
  | .cfgRecordWrite a t slot w => Sys2Proof.Machine.execCfgRecordWrite a t slot w s
  | .tNop t => Sys2Proof.Machine.execTNop t s
  | .mma t => Sys2Proof.Machine.execMma t s
  | .emit t => Sys2Proof.Machine.execEmit t s
  | .clear t => Sys2Proof.Machine.execClear t s
  | .loadAcc t => Sys2Proof.Machine.execLoadAcc t s
  | .operandArrival t => Sys2Proof.Machine.execOperandArrival t s
  | .bufferWritePort t => Sys2Proof.Machine.execBufferWritePort t s
  | .vNop t => Sys2Proof.Machine.execVNop t s
  | .vAdd t => Sys2Proof.Machine.execVAdd t s
  | .vSub t => Sys2Proof.Machine.execVSub t s
  | .vMul t => Sys2Proof.Machine.execVMul t s
  | .vMax t => Sys2Proof.Machine.execVMax t s
  | .vMin t => Sys2Proof.Machine.execVMin t s
  | .vAbs t => Sys2Proof.Machine.execVAbs t s
  | .vNeg t => Sys2Proof.Machine.execVNeg t s
  | .cvt t => Sys2Proof.Machine.execCvt t s
  | .quant t => Sys2Proof.Machine.execQuant t s
  | .exp2 t => Sys2Proof.Machine.execExp2 t s
  | .log2 t => Sys2Proof.Machine.execLog2 t s
  | .rcp t => Sys2Proof.Machine.execRcp t s
  | .rsqrt t => Sys2Proof.Machine.execRsqrt t s
  | .tanh t => Sys2Proof.Machine.execTanh t s
  | .logistic t => Sys2Proof.Machine.execLogistic t s
  | .rsum t => Sys2Proof.Machine.execRsum t s
  | .rmax t => Sys2Proof.Machine.execRmax t s
  | .rmin t => Sys2Proof.Machine.execRmin t s
  | .rargmax t => Sys2Proof.Machine.execRargmax t s
  | .topk t => Sys2Proof.Machine.execTopk t s
  | .sample t => Sys2Proof.Machine.execSample t s
  | .descriptorMessage t ch => Sys2Proof.Machine.execDescriptorMessage t ch s
  | .dmaNop t ch => Sys2Proof.Machine.execDmaNop t ch s
  | .dmaCopy t ch n => Sys2Proof.Machine.execCopy t ch n s
  | .dmaGather t ch n => Sys2Proof.Machine.execGather t ch n s
  | .dmaScatter t ch n => Sys2Proof.Machine.execScatter t ch n s
  | .dmaScatterAdd t ch n => Sys2Proof.Machine.execScatterAddI32 t ch n s
  | .dmaFill t ch n => Sys2Proof.Machine.execDmaFill t ch n s
  | .dmaHalt a t ch enable => Sys2Proof.Machine.execDmaHalt a t ch enable s
  | .dmaEnable a t ch enable => Sys2Proof.Machine.execDmaEnable a t ch enable s
  | .activationStart t => Sys2Proof.Machine.execActivationStart t s
  | .tokenAtHead t q => Sys2Proof.Machine.execTokenAtHead t q s
  | .activationComplete t => Sys2Proof.Machine.execActivationComplete t s
  | .steerSwitch t u => Sys2Proof.Machine.execSwitch t u s
  | .steerMerge t u => Sys2Proof.Machine.execMerge t u s
  | .steerGate t u => Sys2Proof.Machine.execGate t u s
  | .steerJoin t u => Sys2Proof.Machine.execJoin t u s
  | .steerReplicate t u => Sys2Proof.Machine.execReplicate t u s
  | .shadowWrite a t off v => Sys2Proof.Machine.execShadowWrite a t off v s
  | .stop t p => Sys2Proof.Machine.execStop t p s
  | .probe t p => Sys2Proof.Machine.execProbe t p s
  | .probeRound set root reply => Sys2Proof.Machine.execProbeRound set root reply s
  | .commitSet t p => Sys2Proof.Machine.execCommit t p s
  | .cancelSet t p => Sys2Proof.Machine.execCancel t p s
  | .releaseSet t p => Sys2Proof.Machine.execRelease t p s
  | .drainTimeout set => Sys2Proof.Machine.execDrainTimeout set s
  | .flushTimeout set => Sys2Proof.Machine.execFlushTimeout set s
  | .setLoad image group cfgs steers renum => Sys2Proof.Machine.execSetLoad image group cfgs steers renum s
  | .tsSampleWindow => Sys2Proof.Machine.execTsSampleWindow s
  | .scratchpadRead a c t b len code flips => Sys2Proof.Machine.execScratchpadRead a c t b len code flips s
  | .scratchpadWrite a c t b data code flips => Sys2Proof.Machine.execScratchpadWrite a c t b data code flips s
  | .writeBack t w => Sys2Proof.Machine.execWriteBack t w s
  | .scrubRow t flips => Sys2Proof.Machine.execScrubRow t flips s
  | .scrubPassStart t => Sys2Proof.Machine.execScrubPassStart t s
  | .scrubLate t => Sys2Proof.Machine.execScrubLate t s
  | .modeChange a t mode => Sys2Proof.Machine.execModeChange a t mode s
  | .resCtxSet a t r v => Sys2Proof.Machine.execResCtxWrite a t r v s
  | .rgnWriteReg a t r j k v => Sys2Proof.Machine.execRgnWrite a t r j k v s
  | .tagInitComplete t r j => Sys2Proof.Machine.execTagInitComplete t r j s
  | .circCfgSet a t n v => Sys2Proof.Machine.execCircCfgWrite a t n v s
  | .circWrite a t n data => Sys2Proof.Machine.execCircWrite a t n data s
  | .circRead a t n words => Sys2Proof.Machine.execCircRead a t n words s
  | .spRd a c t w n circ => Sys2Proof.Machine.execRd a c t w n circ s
  | .spWr a c t w data circ => Sys2Proof.Machine.execWr a c t w data circ s
  | .spRdFull a c t w n => Sys2Proof.Machine.execRdFull a c t w n s
  | .spRdTake a c t w n => Sys2Proof.Machine.execRdTake a c t w n s
  | .spWrFill a c t w data => Sys2Proof.Machine.execWrFill a c t w data s
  | .spClrTag a c t w n => Sys2Proof.Machine.execClrTag a c t w n s
  | .waiterServed t w => Sys2Proof.Machine.execWaiterServed t w s
  | .waiterTableRoom t b => Sys2Proof.Machine.execWaiterTableRoom t b s
  | .bankPwrSet a t v => Sys2Proof.Machine.execBankPwrWrite a t v s
  | .bankStateReached t b => Sys2Proof.Machine.execBankStateReached t b s
  | .bankWake t b => Sys2Proof.Machine.execBankWake t b s
  | .bankIdleReturn t b => Sys2Proof.Machine.execBankIdleReturn t b s
  | .messageSend u q c dst handler vc pay => Sys2Proof.Machine.execMessageSend u q c dst handler vc pay s
  | .creditAvailable n => Sys2Proof.Machine.execCreditAvailable n s
  | .messageArrival t m => Sys2Proof.Machine.execMessageArrival t m s
  | .nackArrival t p => Sys2Proof.Machine.execNackArrival t p s
  | .qGrant a t q dev tile n => Sys2Proof.Machine.execQGrant a t q dev tile n s
  | .grantPacketArrival t p => Sys2Proof.Machine.execGrantPacketArrival t p s
  | .grantBounce t p => Sys2Proof.Machine.execGrantBounce t p s
  | .returnArrival t p => Sys2Proof.Machine.execReturnArrival t p s
  | .revokeArrival t p => Sys2Proof.Machine.execRevokeArrival t p s
  | .revokeAckComplete root p t q => Sys2Proof.Machine.execRevokeAckComplete root p t q s
  | .qOpen a t q c => Sys2Proof.Machine.execOpen a t q c s
  | .qDrain a t q => Sys2Proof.Machine.execDrain a t q s
  | .qClose a t q => Sys2Proof.Machine.execClose a t q s
  | .qReset a t q => Sys2Proof.Machine.execQReset a t q s
  | .qdRingWrite a t q v => Sys2Proof.Machine.execQdRingWrite a t q v s
  | .handlerDispatch t => Sys2Proof.Machine.execHandlerDispatch t s
  | .messageAvailable t q => Sys2Proof.Machine.execMessageAvailable t q s
  | .messageRelease t q => Sys2Proof.Machine.execMessageRelease t q s
  | .opEnd t n => Sys2Proof.Machine.execEnd t n s
  | .opLi t n => Sys2Proof.Machine.execLi t n s
  | .opLui t n => Sys2Proof.Machine.execLui t n s
  | .opAdd t n => Sys2Proof.Machine.execAdd t n s
  | .opSub t n => Sys2Proof.Machine.execSub t n s
  | .opAnd t n => Sys2Proof.Machine.execAnd t n s
  | .opOr t n => Sys2Proof.Machine.execOr t n s
  | .opXor t n => Sys2Proof.Machine.execXor t n s
  | .opShli t n => Sys2Proof.Machine.execShli t n s
  | .opShri t n => Sys2Proof.Machine.execShri t n s
  | .opAddi t n => Sys2Proof.Machine.execAddi t n s
  | .opMul t n => Sys2Proof.Machine.execMul t n s
  | .opLdp t n => Sys2Proof.Machine.execLdp t n s
  | .opSto t n => Sys2Proof.Machine.execSto t n s
  | .opLd t n => Sys2Proof.Machine.execLd t n s
  | .opSt t n => Sys2Proof.Machine.execSt t n s
  | .opAadd t n => Sys2Proof.Machine.execAadd t n s
  | .opCas t n => Sys2Proof.Machine.execCas t n s
  | .opFill t n => Sys2Proof.Machine.execFill t n s
  | .opTake t n => Sys2Proof.Machine.execTake t n s
  | .opPeek t n => Sys2Proof.Machine.execPeek t n s
  | .opClrt t n => Sys2Proof.Machine.execClrt t n s
  | .opMovpo t n => Sys2Proof.Machine.execMovpo t n s
  | .opBeq t n => Sys2Proof.Machine.execBeq t n s
  | .opBne t n => Sys2Proof.Machine.execBne t n s
  | .opBltu t n => Sys2Proof.Machine.execBltu t n s
  | .opSend t n => Sys2Proof.Machine.execSend t n s
  | .opReply t n => Sys2Proof.Machine.execReply t n s
  | .opGrant t n => Sys2Proof.Machine.execGrant t n s
  | .opGet t n => Sys2Proof.Machine.execGet t n s
  | .opStep t n => Sys2Proof.Machine.execStep t n s
  | .opFence t n => Sys2Proof.Machine.execFence t n s
  | .hsDataAccess a t data => Sys2Proof.Machine.execHsDataAccess a t data s
  | .hsBoundSet a t r table v => Sys2Proof.Machine.execHsBoundWrite a t r table v s
  | .flitReceive t p err => Sys2Proof.Machine.execFlitReceive t p err s
  | .linkReplay t p => Sys2Proof.Machine.execLinkReplay t p s
  | .packetInject t vc => Sys2Proof.Machine.execPacketInject t vc s
  | .injectionHoldRelease t => Sys2Proof.Machine.execInjectionHoldRelease t s
  | .injHold a t on => Sys2Proof.Machine.execInjHold a t on s
  | .meshProbe g root reply => Sys2Proof.Machine.execMeshProbe g root reply s
  | .rtDataAccess a t data => Sys2Proof.Machine.execRtDataAccess a t data s
  | .mcDataAccess a t data => Sys2Proof.Machine.execMcDataAccess a t data s
  | .multicastForward t port p => Sys2Proof.Machine.execMulticastForward t port p s
  | .uptreeReply t port c => Sys2Proof.Machine.execUptreeReply t port c s
  | .reductionPacketArrival l port r => Sys2Proof.Machine.execReductionPacketArrival l port r s
  | .redHoldExpiry l e => Sys2Proof.Machine.execRedHoldExpiry l e s
  | .completionStoreArrival t port r => Sys2Proof.Machine.execCompletionStoreArrival t port r s
  | .completionMessageSend t e => Sys2Proof.Machine.execCompletionMessageSend t e s
  | .destReset a t on => Sys2Proof.Machine.execDestReset a t on s
  | .portEnable a p on => Sys2Proof.Machine.execPortEnable a p on s
  | .portFence a p on => Sys2Proof.Machine.execPortFence a p on s
  | .portRetrain a p => Sys2Proof.Machine.execPortRetrain a p s
  | .laneMaskWrite a p mask => Sys2Proof.Machine.execLaneMaskWrite a p mask s
  | .trainingComplete p lanes dev port serial => Sys2Proof.Machine.execTrainingComplete p lanes dev port serial s
  | .trainFail p => Sys2Proof.Machine.execTrainFail p s
  | .retryTimer p => Sys2Proof.Machine.execRetryTimer p s
  | .laneDrop p lane => Sys2Proof.Machine.execLaneDrop p lane s
  | .linkPacketReceive p seq hop replay flaw lane pkt => Sys2Proof.Machine.execLinkPacketReceive p seq hop replay flaw lane pkt s
  | .nakReceived p seq => Sys2Proof.Machine.execNakReceived p seq s
  | .ackReceived p seq => Sys2Proof.Machine.execAckReceived p seq s
  | .creditBlock p a b c d => Sys2Proof.Machine.execCreditBlock p a b c d s
  | .ackTimer p => Sys2Proof.Machine.execAckTimer p s
  | .fecAlarm p lane words corrected symbols => Sys2Proof.Machine.execFecAlarm p lane words corrected symbols s
  | .residence p => Sys2Proof.Machine.execResidence p s
  | .fxDataAccess a data => Sys2Proof.Machine.execFxDataAccess a data s
  | .fmDataAccess a data => Sys2Proof.Machine.execFmDataAccess a data s
  | .timeExchange => Sys2Proof.Machine.execTimeExchange s
  | .timeReqReceive p num => Sys2Proof.Machine.execTimeReqReceive p num s
  | .timeRespReceive p num ta tb => Sys2Proof.Machine.execTimeRespReceive p num ta tb s
  | .linkDown p => Sys2Proof.Machine.execLinkDown p s
  | .noProgress p => Sys2Proof.Machine.execNoProgress p s
  | .memRead a c addr len flips => Sys2Proof.Machine.execMemRead a c addr len flips s
  | .memWrite a c addr data flips => Sys2Proof.Machine.execMemWrite a c addr data flips s
  | .memWriteBack unit => Sys2Proof.Machine.execMemWriteBack unit s
  | .refresh ctl atLimit => Sys2Proof.Machine.execRefresh ctl atLimit s
  | .refreshManagement ctl => Sys2Proof.Machine.execRefreshManagement ctl s
  | .retrainDue h temp idle => Sys2Proof.Machine.execRetrainDue h temp idle s
  | .retrainForced h => Sys2Proof.Machine.execRetrainForced h s
  | .retrainComplete h ok odecc => Sys2Proof.Machine.execRetrainComplete h ok odecc s
  | .patrolScrub flips => Sys2Proof.Machine.execPatrolScrub flips s
  | .patrolScrubLate => Sys2Proof.Machine.execPatrolScrubLate s
  | .ueLimitWindow h => Sys2Proof.Machine.execUeLimitWindow h s
  | .channelFence h cause => Sys2Proof.Machine.execChannelFence h cause s
  | .mcRetrain a ctl mask => Sys2Proof.Machine.execMcRetrain a ctl mask s
  | .remapMem a => Sys2Proof.Machine.execRemap a s
  | .dregSet a n limit v => Sys2Proof.Machine.execDregWrite a n limit v s
  | .mmFenceSet a m v => Sys2Proof.Machine.execMmFenceWrite a m v s
  | .regRd h => Sys2Proof.Machine.execRegRd h s
  | .regWr h v => Sys2Proof.Machine.execRegWr h v s
  | .memRdUc h => Sys2Proof.Machine.execMemRdUc h s
  | .memWrUc h data => Sys2Proof.Machine.execMemWrUc h data s
  | .lineRdS h => Sys2Proof.Machine.execLineRdS h s
  | .lineRdX h => Sys2Proof.Machine.execLineRdX h s
  | .lineUpg h => Sys2Proof.Machine.execLineUpg h s
  | .lineWb h data => Sys2Proof.Machine.execLineWb h data s
  | .lineEvict h => Sys2Proof.Machine.execLineEvict h s
  | .doorbell h value => Sys2Proof.Machine.execDoorbell h value s
  | .msg h data => Sys2Proof.Machine.execMsg h data s
  | .snpInv h => Sys2Proof.Machine.execSnpInv h s
  | .snpShr h => Sys2Proof.Machine.execSnpShr h s
  | .snpRsp tag => Sys2Proof.Machine.execSnpRsp tag s
  | .snpRspD tag data => Sys2Proof.Machine.execSnpRspD tag data s
  | .cmp tag status => Sys2Proof.Machine.execCmp tag status s
  | .cmpD tag status data => Sys2Proof.Machine.execCmpD tag status data s
  | .gatewayAccess a addr len data => Sys2Proof.Machine.execGatewayAccess a addr len data s
  | .gbSnoopTimeout tag => Sys2Proof.Machine.execGbSnoopTimeout tag s
  | .hostTimeout tag => Sys2Proof.Machine.execHostTimeout tag s
  | .doorbellSend n => Sys2Proof.Machine.execDoorbellSend n s
  | .gbLinkDown => Sys2Proof.Machine.execGbLinkDown s
  | .gbLinkUp lanes serial => Sys2Proof.Machine.execGbLinkUp lanes serial s
  | .gbSendCtxWrite a m v => Sys2Proof.Machine.execGbSendCtxWrite a m v s
  | .gbDbBindAccess a data => Sys2Proof.Machine.execGbDbBindAccess a data s
  | .gbMsgFailRead a => Sys2Proof.Machine.execGbMsgFailRead a s
  | .bootGo a len => Sys2Proof.Machine.execBootGo a len s
  | .regWriteAny a addr v => Sys2Proof.Machine.execRegWrite a addr v s
  | .recordLogEntry k => Sys2Proof.Machine.execRecordLogEntry k s
  | .logRecRead a => Sys2Proof.Machine.execLogRecRead a s
  | .logReadSet a index => Sys2Proof.Machine.execLogReadWrite a index s
  | .tbSetWrite a v => Sys2Proof.Machine.execTbSet a v s
  | .tbAdjust a v => Sys2Proof.Machine.execTbAdj a v s
  | .slewComplete => Sys2Proof.Machine.execSlewComplete s
  | .interruptEvent n => Sys2Proof.Machine.execInterruptEvent n s
  | .icDoneWrite a t g mask => Sys2Proof.Machine.execIcDone a t g mask s
  | .icSwWrite a hi v => Sys2Proof.Machine.execIcSw a hi v s
  | .holdoffEnd g => Sys2Proof.Machine.execHoldoffEnd g s
  | .stepEndToken t c => Sys2Proof.Machine.execStepEndToken t c s
  | .tileVote t c => Sys2Proof.Machine.execTileVote t c s
  | .dirtySet c => Sys2Proof.Machine.execDirtySet c s
  | .blockVote c => Sys2Proof.Machine.execBlockVote c s
  | .voteComplete root p => Sys2Proof.Machine.execVoteComplete root p s
  | .decideCommit p => Sys2Proof.Machine.execDecideCommit p s
  | .decideAudit p => Sys2Proof.Machine.execDecideAudit p s
  | .abortReplay p contributors => Sys2Proof.Machine.execAbortReplay p contributors s
  | .abortFault p => Sys2Proof.Machine.execAbortFault p s
  | .journalApplied c => Sys2Proof.Machine.execJournalApplied c s
  | .inDoubt c named => Sys2Proof.Machine.execInDoubt c named s
  | .rootPathLost c named => Sys2Proof.Machine.execRootPathLost c named s
  | .csOpenCmd a c => Sys2Proof.Machine.execCsOpen a c s
  | .resolveCommit a c => Sys2Proof.Machine.execResolveCommit a c s
  | .resolveAbort a c => Sys2Proof.Machine.execResolveAbort a c s
  | .clearFault a c => Sys2Proof.Machine.execClearFault a c s
  | .csStepWrite a c hi v => Sys2Proof.Machine.execCsStepWrite a c hi v s
  | .csCfgSet a c journal v => Sys2Proof.Machine.execCsCfgWrite a c journal v s
  | .durableWrite t c a data => Sys2Proof.Machine.execDurableWrite t c a data s
  | .classified k => Sys2Proof.Machine.execClassified k s
  | .condFence e => Sys2Proof.Machine.execCondFence e s
  | .unitFence e => Sys2Proof.Machine.execUnitFence e s
  | .guardFault a k flip => Sys2Proof.Machine.execGuardFault a k flip s
  | .csTfsReadWrite a index => Sys2Proof.Machine.execCsTfsReadWrite a index s
  | .brambleWindow => Sys2Proof.Machine.execBrambleWindow s
  | .recoveryHold => Sys2Proof.Machine.execRecoveryHold s
  | .sampleComplete => Sys2Proof.Machine.execSampleComplete s
  | .admission c => Sys2Proof.Machine.execAdmission c s
  | .admissionEnd => Sys2Proof.Machine.execAdmissionEnd s
  | .teardown c => Sys2Proof.Machine.execTeardown c s
  | .teardownDrain c => Sys2Proof.Machine.execTeardownDrain c s
  | .tdTeardown a c => Sys2Proof.Machine.execTdTeardown a c s
  | .tdRelease a c => Sys2Proof.Machine.execTdRelease a c s
  | .abortArrival t p => Sys2Proof.Machine.execAbortArrival t p s
  | .rstCluster a c => Sys2Proof.Machine.execRstCluster a c s
  | .rstPartition a => Sys2Proof.Machine.execRstPartition a s
  | .rstWarm a => Sys2Proof.Machine.execRstWarm a s
  | .rstCold a => Sys2Proof.Machine.execRstCold a s
  | .resetDone => Sys2Proof.Machine.execResetDone s
  | .ckDue n => Sys2Proof.Machine.execCkDue n s
  | .ckCancel a n => Sys2Proof.Machine.execCkCancel a n s
  | .ckExport a n half => Sys2Proof.Machine.execExport a n half s
  | .restorePartner a n half dev => Sys2Proof.Machine.execRestorePartner a n half dev s
  | .restoreFlash a n half dev => Sys2Proof.Machine.execRestoreFlash a n half dev s
  | .trickleSend n => Sys2Proof.Machine.execTrickleSend n s
  | .checkpointDataArrival m => Sys2Proof.Machine.execCheckpointDataArrival m s
  | .sealImage n blocks => Sys2Proof.Machine.execSeal n blocks s
  | .sealedReceived n step dt => Sys2Proof.Machine.execSealedReceived n step dt s
  | .flashCopy n => Sys2Proof.Machine.execFlashCopy n s
  | .ckLambdaHostWrite a fit => Sys2Proof.Machine.execCkLambdaHostWrite a fit s
  | .romPhase => Sys2Proof.Machine.execRomPhase s
  | .startPhase => Sys2Proof.Machine.execStartPhase s
  | .repairPhase => Sys2Proof.Machine.execRepairPhase s
  | .firmwarePhase => Sys2Proof.Machine.execFirmwarePhase s
  | .fwRoundEnd => Sys2Proof.Machine.execFwRoundEnd s
  | .fwPacket t p => Sys2Proof.Machine.execFwPacket t p s
  | .memoryPhase fail weak => Sys2Proof.Machine.execMemoryPhase fail weak s
  | .linksPhase => Sys2Proof.Machine.execLinksPhase s
  | .topologyPhase => Sys2Proof.Machine.execTopologyPhase s
  | .licencePhase => Sys2Proof.Machine.execLicencePhase s
  | .hbBoot a arg => Sys2Proof.Machine.execBoot a arg s
  | .hbRecheck a => Sys2Proof.Machine.execRecheck a s
  | .installLicence a arg => Sys2Proof.Machine.execInstallLicence a arg s
  | .jscan a arg => Sys2Proof.Machine.execJscan a arg s
  | .shareFw a g => Sys2Proof.Machine.execShare a g s
  | .licExpired => Sys2Proof.Machine.execLicExpired s
  | .ufsCommand aux => Sys2Proof.Machine.execUfsCommand aux s
  | .infieldDue => Sys2Proof.Machine.execInfieldDue s
  | .yieldRequest c => Sys2Proof.Machine.execYieldRequest c s
  | .infieldTest c pace => Sys2Proof.Machine.execInfieldTest c pace s
  | .requeueTimer => Sys2Proof.Machine.execRequeueTimer s
  | .confirmTest c => Sys2Proof.Machine.execConfirmTest c s
  | .sweep grid => Sys2Proof.Machine.execSweep grid s
  | .ywShutdown a => Sys2Proof.Machine.execShutdownTest a s
  | .ywYieldGrant a => Sys2Proof.Machine.execYieldGrant a s
  | .ywTestNow a c => Sys2Proof.Machine.execTestNow a c s
  | .ywRawEnter a => Sys2Proof.Machine.execRawEnter a s
  | .ywRawExit a => Sys2Proof.Machine.execRawExit a s
  | .ywRawAccess a trim data => Sys2Proof.Machine.execYwRawAccess a trim data s
  | .canaryTrip t router => Sys2Proof.Machine.execCanaryTrip t router s
  | .ageingRecord => Sys2Proof.Machine.execAgeingRecord s
  | .powerEval => Sys2Proof.Machine.execPowerEval s
  | .clusterEntryComplete c => Sys2Proof.Machine.execClusterEntryComplete c s
  | .clusterWake c => Sys2Proof.Machine.execClusterWake c s
  | .clusterWakeComplete c => Sys2Proof.Machine.execClusterWakeComplete c s
  | .deviceWake => Sys2Proof.Machine.execDeviceWake s
  | .deviceWakeComplete => Sys2Proof.Machine.execDeviceWakeComplete s
  | .toleranceWrite a c us => Sys2Proof.Machine.execToleranceWrite a c us s
  | .tempPublish c temp mv => Sys2Proof.Machine.execTempPublish c temp mv s
  | .segmentStep g supplied => Sys2Proof.Machine.execSegmentStep g supplied s
  | .headroomLow c => Sys2Proof.Machine.execHeadroomLow c s
  | .throttleEval watts => Sys2Proof.Machine.execThrottleEval watts s
  | .thermTrip c => Sys2Proof.Machine.execThermTrip c s
  | .hwAttest a arg => Sys2Proof.Machine.execAttest a arg s
  | .hwDebugOpen a arg => Sys2Proof.Machine.execDebugOpen a arg s
  | .hwDebugClose a => Sys2Proof.Machine.execDebugClose a s
  | .sessionExpired => Sys2Proof.Machine.execSessionExpired s
  | .hwLcAdvance a arg => Sys2Proof.Machine.execLcAdvance a arg s
  | .hwExtend a mr => Sys2Proof.Machine.execExtend a mr s
  | .hwEpochCommit a => Sys2Proof.Machine.execEpochCommit a s
  | .hwDbgHold a => Sys2Proof.Machine.execDbgHold a s
  | .hwDbgRelease a => Sys2Proof.Machine.execDbgRelease a s
  | .hwFenceLogClear a => Sys2Proof.Machine.execFenceLogClear a s
  | .hwChalRead a => Sys2Proof.Machine.execHwChalRead a s
  | .trngFail => Sys2Proof.Machine.execTrngFail s
  | .trngRetest ok => Sys2Proof.Machine.execTrngRetest ok s
  | .compatUnsampled t n => Sys2Proof.Machine.execCompatUnsampled t n s
  | .modRstNAssert => Sys2Proof.Machine.execModRstNAssert s
  | .modRstNRelease boot slot => Sys2Proof.Machine.execModRstNRelease boot slot s
  | .supplyFaultEvent => Sys2Proof.Machine.execSupplyFault s
  | .overtempReset => Sys2Proof.Machine.execOvertempReset s
  | .selfResetRelease boot slot => Sys2Proof.Machine.execSelfResetRelease boot slot s
  | .i3cReadOp addr => Sys2Proof.Machine.execI3cRead addr s
  | .i3cWriteOp addr v => Sys2Proof.Machine.execI3cWrite addr v s
  | .i3cWakeOp => Sys2Proof.Machine.execI3cWake s
  | .i3cResultRead => Sys2Proof.Machine.execI3cResultRead s
  | .ckTakeCmd a n step => Sys2Proof.Machine.execCkTake a n step s
  | .ufsCommandCompletion k ok data => Sys2Proof.Machine.execUfsCommandCompletion k ok data s
  | .hibern8Entry => Sys2Proof.Machine.execHibern8Entry s
  | .deviceEntryComplete => Sys2Proof.Machine.execDeviceEntryComplete s
  | .testComplete service stress chans weak => Sys2Proof.Machine.execTestComplete service stress chans weak s
  | .hwCommandDone => Sys2Proof.Machine.execHwCommandDone s
  | .timeNoLock => Sys2Proof.Machine.execTimeNoLock s
  | .dynamicAddressAssign addr => Sys2Proof.Machine.execDynamicAddressAssign addr s
  | .boundaryScan op => Sys2Proof.Machine.execBoundaryScanInstruction op s

end Sys2Proof.Machine
end

