-- ==== Sys2Proof/Machine/Tick.lean ====
section
/-! DEFINITION. What passes with time while no command waits: one nanosecond of Device Time (R35, R36), the compatibility
counters (R139), the HB_CMD commands that wait for the Gorbin link or for snoops (R420, R427), and the companion's requests that
wait (R294, R296). -/

namespace Sys2Proof.Machine

/-- One nanosecond without a command (log entry 5, DESIGN CHOICE). -/
def idleTick (s : State) : State := gbResume (jscanTry (installTry (compatTick (tickTime s))))

end Sys2Proof.Machine
end

