-- ==== Sys2Proof/Safety.lean ====
section
/-! DEFINITION. What counts as a good state, and when a register access passes its checks. -/

namespace Sys2Proof.Machine

/-- Memory, check bits and registers are in canonical form. -/
def State.Canonical (s : State) : Prop :=
  Memory.wf s = true ∧ mapWf (unlistedChk s.fills) s.chk = true ∧ mapWf regReset s.regs = true

/-- The cluster of a tile page is awake; other pages need none (R448). -/
def pageAwake (s : State) (p : Nat) : Bool := !(p < 4608 * 32 && 2 ≤ clusterPower s (clusterOf (p / 32)))

/-- The register `r` takes the written value: it can be written, no reserved bit is set, and a guarded value has its complement. -/
def regTakes (v : W64) (r : RegDesc) : Bool :=
  r.acc != .ro && r.acc != .rs && v.toNat &&& r.reserved == 0 && (r.acc != .rwg || guardOk v)

/-- A write at an offset of a page of kind `k` passes the checks of rights, fences and HALTED, and its register takes it. -/
def writeOkIn (s : State) (a : Agent) (off : Nat) (v : W64) (x : PageKind × Nat) : Bool :=
  !regDenied s a x.1 x.2 off true v && !fencedWrite s x.1 x.2 off && !haltedWrite s x.1 off v
    && (findReg (pageRegs x.1 x.2) off).any (fun r => regTakes v r.1)

/-- A write passes every check of R311–R313, R315, R405 and R484 and wakes no cluster. -/
def writeOk (s : State) (a : Agent) (addr : Nat) (v : W64) : Bool :=
  addr % 8 == 0 && pageAwake s (pageAt addr) && (pageHit addr).any (writeOkIn s a (offAt addr) v)

/-- A read at an offset of a page is allowed, of a register that can be read. -/
def readOkIn (s : State) (a : Agent) (off : Nat) (x : PageKind × Nat) : Bool :=
  !regDenied s a x.1 x.2 off false 0 && (findReg (pageRegs x.1 x.2) off).any (fun r => r.1.acc != .wo)

/-- A read passes every check, of a register that can be read and is not PAGE_STAT. -/
def readOk (s : State) (a : Agent) (addr : Nat) : Bool :=
  addr % 8 == 0 && offAt addr != 0x18 && (pageHit addr).any (readOkIn s a (offAt addr))

/-- What a write leaves in a register whose writable bits are `m` (R311). -/
def merged (s : State) (key : Nat) (m : Nat) (v : W64) : W64 :=
  (rd s key &&& ~~~(BitVec.ofNat 64 m)) ||| (v &&& BitVec.ofNat 64 m)

/-- An index register, whose writable bits are `m`, set to `n`. -/
def indexed (s : State) (key m n : Nat) : State := wr s key (merged s key m (BitVec.ofNat 64 n))

/-- A handler thread that has moved on to operation `pc`, with its context's progress noted (R200). -/
def movedOn (s : State) (t n : Nat) (h : Thread) (pc : Nat) : State := progress (setThread s t n { h with pc := pc }) t h.ctx

/-! ### Scratchpad commands and DMA elements -/

/-- The access that a scratchpad command of an agent makes at a tile, for a context or none, and the state that it finds:
the stored bits that the command upsets are flipped first. None for a command of another kind. -/
def padAccess (i : Instr) (a : Agent) (c : Option CtxId) (t : TileId) (s : State) : Option (SpAcc × State) :=
  match i with
  | .scratchpadRead a' c' t' b len k flips =>
    if a' = a ∧ c' = c ∧ t' = t ∧ len ≠ 0 ∧ (k = 0 ∨ k = 2 ∨ k = 3) then
      (opOfCode k).map (fun op =>
        ({ tile := t, boff := b, len := len, op := op, req := .mgmt a, ctx := c.map (fun x => x.val), data := [] }, upset s t flips))
    else none
  | .scratchpadWrite a' c' t' b data k flips =>
    if a' = a ∧ c' = c ∧ t' = t ∧ data ≠ [] ∧ (k = 1 ∨ k = 4 ∨ k = 5) then
      (opOfCode k).map (fun op =>
        ({ tile := t, boff := b, len := data.length, op := op, req := .mgmt a, ctx := c.map (fun x => x.val), data := data.map some }, upset s t flips))
    else none
  | .spRd a' c' t' w n none => if a' = a ∧ c' = c ∧ t' = t then some (wordsAcc a c t w n .rd [], s) else none
  | .spRdFull a' c' t' w n => if a' = a ∧ c' = c ∧ t' = t then some (wordsAcc a c t w n .rdFull [], s) else none
  | .spRdTake a' c' t' w n => if a' = a ∧ c' = c ∧ t' = t then some (wordsAcc a c t w n .rdTake [], s) else none
  | .spClrTag a' c' t' w n => if a' = a ∧ c' = c ∧ t' = t then some (wordsAcc a c t w n .clrTag [], s) else none
  | .spWr a' c' t' w data none =>
    if a' = a ∧ c' = c ∧ t' = t then some (wordsAcc a c t w data.length .wr (wordBytes (data.map (fun x => x.toNat))), s) else none
  | .spWrFill a' c' t' w data =>
    if a' = a ∧ c' = c ∧ t' = t then some (wordsAcc a c t w data.length .wrFill (wordBytes (data.map (fun x => x.toNat))), s) else none
  | _ => none

/-- A command of operation `op` works on descriptor `x` from state `u` on: `x` is in progress, or is the next one and
starts (R103). -/
def dmaWorksOn (s : State) (t ch op : Nat) (x : Desc) (u : State) : Prop :=
  (dRecOf x.words).op = op ∧ (chanOf u t ch).cur = some x ∧
    (((chanOf s t ch).cur = some x ∧ (chanOf s t ch).blocked = false ∧ mayRun s t x.ctx = true ∧ u = s) ∨
      ∃ rest, (chanOf s t ch).cur = none ∧ (chanOf s t ch).queued = x :: rest ∧ dmaMayStart s t ch x.ctx = true ∧
        u = dmaStart s t ch x rest)

/-- One element of the descriptor in progress moves, from state `u` to state `v`: none of its
accesses waits or fails (R101, R102, R104). -/
def dmaMoves (element : State → Nat → DmaRes × State) (t ch : Nat) (x : Desc) (u v : State) : Prop :=
  (chanOf u t ch).cur = some x ∧ dmaBad (dRecOf x.words) = false ∧ (chanOf u t ch).elem < dmaTotal (dRecOf x.words) ∧
    ((chanOf u t ch).hand = [] → dmaHalted u t ch = false) ∧
    ∃ d w, element u (chanOf u t ch).elem = (.ok d, w) ∧
      v = progress (setChan w t ch { chanOf w t ch with elem := (chanOf u t ch).elem + 1, hand := [] }) t x.ctx

/-! ### Requests of the companion -/

/-- The requests of the companion that are taken in their turn, as commands: with the data that they bring, whether they are
posted, and whether they are well formed (R290–R293). -/
def gbForms (h : GbHdr) (v : W64) (data : List Byte) : List (Instr × List Byte × Bool × Bool) :=
  [(.regRd h, [], false, gbWell h 0x01 (h.len == 0)),
   (.regWr h v, bytesOf 8 v.toNat, true, gbWell h 0x02 (h.len == 8)),
   (.memRdUc h, [], false, gbWell h 0x03 (ucShape h && !ucCrosses h)),
   (.memWrUc h data, data, true, gbWell h 0x04 (ucShape h && data.length == h.len && !ucCrosses h)),
   (.lineRdS h, [], false, gbWell h 0x05 (lineShape h)),
   (.lineRdX h, [], false, gbWell h 0x06 (lineShape h)),
   (.lineUpg h, [], false, gbWell h 0x07 (lineShape h)),
   (.lineWb h data, data, true, gbWell h 0x08 (h.len == 64 && data.length == 64 && h.addr % 64 == 0)),
   (.lineEvict h, [], true, gbWell h 0x09 (lineShape h)),
   (.doorbell h v, bytesOf 8 v.toNat, true, gbWell h 0x0A (h.len == 8)),
   (.msg h data, data, false, gbWell h 0x0B (msgShape h data))]

end Sys2Proof.Machine
end

