-- ==== Sys2Proof/WellFormed.lean ====
section
/-! DEFINITION. Well-formed commands: every field of a packet fits its place in the layout, and data have the length that
the command's transaction gives them (R175, R211, R223, R290, R414). -/

namespace Sys2Proof

/-- A header's fields fit the places of R175. -/
def Header.wf (h : Header) : Bool :=
  decide (h.dst < 2 ^ 36) && decide (h.creditEpoch < 16) && decide (h.context < 256) && decide (h.handler < 1024)
  && decide (h.vc < 4) && decide (h.len < 16) && decide (h.src < 2 ^ 36) && decide (h.ctxEpoch < 65536)
  && decide (h.linkSeq < 4096) && decide (h.payLen < 1024) && decide (h.stepTag < 65536) && decide (h.rsv4 < 64)
  && decide (h.rsv5 < 2 ^ 29)

/-- A message's header fits, and its payload fills what LEN leaves after the header, up to PAY_LEN. -/
def Msg.wf (m : Msg) : Bool := m.hdr.wf && decide (m.pay.length ≤ m.hdr.payLen)

/-- A control packet's fields fit the places of R211; words 4–15 are at most twelve. -/
def Ctrl.wf (c : Ctrl) : Bool :=
  decide (c.type < 256) && decide (c.dstTile < 8192) && decide (c.dstDev < 32768) && decide (c.group < 4096)
  && decide (c.srcDev < 32768) && decide (c.srcTile < 8192) && decide (c.ctxEpoch < 65536) && decide (c.context < 256)
  && decide (c.round < 256) && decide (c.words.length ≤ 12) && c.words.all (fun w => decide (w < 2 ^ 32)) && decide (c.transit < 512)

/-- A reduction packet's fields fit the places of R223. -/
def Red.wf (r : Red) : Bool :=
  decide (r.value < 2 ^ 256) && decide (r.dst < 2 ^ 36) && decide (r.ctxEpoch < 65536) && decide (r.context < 256)
  && decide (r.redId < 65536) && decide (r.elem < 65536) && decide (r.contrib < 65536) && decide (r.total < 65536)
  && decide (r.kind < 4) && decide (r.residue < 128) && decide (r.rmode < 4) && decide (-512 ≤ r.anchor) && decide (r.anchor < 512)
  && decide (r.stepTag < 65536) && decide (r.partIndex < 65536) && decide (r.transit < 512)

/-- A firmware packet's fields fit the places of R414; a data packet carries a piece of 512 B. -/
def FwPkt.wf (f : FwPkt) : Bool :=
  decide (f.dst < 2 ^ 36) && decide (f.group < 4096) && decide (f.chunk < 512) && decide (f.piece < 8) && decide (f.src < 2 ^ 32)
  && decide (f.hash < 2 ^ 256) && decide (f.data.length = if f.pull then 0 else 512)

/-- A packet's fields fit its layout. -/
def Pkt.wf : Pkt → Bool
  | .msg m => m.wf
  | .ctrl c => c.wf
  | .red r => r.wf
  | .fw f => f.wf

/-- A transaction header's fields fit the places of R290. -/
def GbHdr.wf (h : GbHdr) : Bool :=
  decide (h.opc < 64) && decide (h.tag < 4096) && decide (h.len < 4096) && decide (h.addr < 2 ^ 48) && decide (h.status < 256)
  && decide (h.rsv < 2 ^ 42)

/-- A reply that need not be there fits its layout. -/
def optWf : Option Ctrl → Bool
  | none => true
  | some c => c.wf

/-- A lane exists on its link: four on a Parith port, eight on the Gorbin port (R240, R285). -/
def laneOk (p : LinkId) (lane : Fin 8) : Bool :=
  match p with
  | .parith _ => decide (lane.val < 4)
  | .gorbin => true

/-- A command's operands fit the layouts they come from. -/
def Instr.wf (i : Instr) : Bool :=
  match i with
  | .cfgRecordWrite _ _ _ w => decide (w.length = 16)
  | .stop _ p => p.wf
  | .probe _ p => p.wf
  | .probeRound _ _ reply => optWf reply
  | .commitSet _ p => p.wf
  | .cancelSet _ p => p.wf
  | .releaseSet _ p => p.wf
  | .scratchpadRead _ _ _ _ len _ _ => decide (0 < len)
  | .scratchpadWrite _ _ _ _ data _ _ => decide (0 < data.length)
  | .circWrite _ _ _ data => decide (0 < data.length)
  | .circRead _ _ _ words => decide (0 < words)
  | .spRd _ _ _ _ n _ => decide (0 < n)
  | .spWr _ _ _ _ data _ => decide (0 < data.length)
  | .spRdFull _ _ _ _ n => decide (0 < n)
  | .spRdTake _ _ _ _ n => decide (0 < n)
  | .spWrFill _ _ _ _ data => decide (0 < data.length)
  | .spClrTag _ _ _ _ n => decide (0 < n)
  | .messageSend _ _ _ dst handler vc pay => decide (dst < 2 ^ 36) && decide (handler < 1024) && decide (vc < 4) && decide (pay.length ≤ 1000)
  | .messageArrival _ m => m.wf
  | .nackArrival _ p => p.wf
  | .grantPacketArrival _ p => p.wf
  | .grantBounce _ p => p.wf
  | .returnArrival _ p => p.wf
  | .revokeArrival _ p => p.wf
  | .revokeAckComplete _ p _ _ => p.wf
  | .meshProbe _ _ reply => optWf reply
  | .multicastForward _ _ p => p.wf
  | .uptreeReply _ _ c => c.wf
  | .reductionPacketArrival _ _ r => r.wf
  | .completionStoreArrival _ _ r => r.wf
  | .linkPacketReceive p _ _ _ _ lane pkt => laneOk p lane && pkt.wf
  | .laneDrop p lane => laneOk p lane
  | .fecAlarm p lane _ _ _ => laneOk p lane
  | .memRead _ _ addr len _ => decide (addr < 2 ^ 48) && decide (0 < len)
  | .memWrite _ _ addr data _ => decide (addr < 2 ^ 48) && decide (0 < data.length)
  | .regRd h => h.wf
  | .regWr h _ => h.wf
  | .memRdUc h => h.wf
  | .memWrUc h data => h.wf && decide (data.length = h.len)
  | .lineRdS h => h.wf
  | .lineRdX h => h.wf
  | .lineUpg h => h.wf
  | .lineWb h data => h.wf && decide (data.length = 64)
  | .lineEvict h => h.wf
  | .doorbell h _ => h.wf
  | .msg h data => h.wf && decide (data.length = h.len)
  | .snpInv h => h.wf
  | .snpShr h => h.wf
  | .snpRspD _ data => decide (data.length = 64)
  | .cmpD _ _ data => decide (data.length ≤ 1008)
  | .gatewayAccess _ addr len _ => decide (addr < 2 ^ 48) && decide (0 < len)
  | .regWriteAny _ addr _ => decide (addr < 2 ^ 48)
  | .voteComplete _ p => p.wf
  | .decideCommit p => p.wf
  | .decideAudit p => p.wf
  | .abortReplay p _ => p.wf
  | .abortFault p => p.wf
  | .durableWrite _ _ a data => decide (a < 2 ^ 48) && decide (0 < data.length)
  | .abortArrival _ p => p.wf
  | .checkpointDataArrival m => m.wf
  | .fwPacket _ p => p.wf
  | .moduleResetRelease | .paceWindowEnd _ _ _ | .clPaceExtRead _ _ | .boundaryFifoSlotFree _ | .scrupleCheck _ _ | .scrInjectWrite _ _ _ | .tNop _
  | .mma _ | .emit _ | .clear _ | .loadAcc _ | .operandArrival _ | .bufferWritePort _ | .vNop _ | .vAdd _ | .vSub _ | .vMul _ | .vMax _ | .vMin _
  | .vAbs _ | .vNeg _ | .cvt _ | .quant _ | .exp2 _ | .log2 _ | .rcp _ | .rsqrt _ | .tanh _ | .logistic _ | .rsum _ | .rmax _ | .rmin _ | .rargmax _
  | .topk _ | .sample _ | .descriptorMessage _ _ | .dmaNop _ _ | .dmaCopy _ _ _ | .dmaGather _ _ _ | .dmaScatter _ _ _ | .dmaScatterAdd _ _ _
  | .dmaFill _ _ _ | .dmaHalt _ _ _ _ | .dmaEnable _ _ _ _ | .activationStart _ | .tokenAtHead _ _ | .activationComplete _ | .steerSwitch _ _
  | .steerMerge _ _ | .steerGate _ _ | .steerJoin _ _ | .steerReplicate _ _ | .shadowWrite _ _ _ _ | .drainTimeout _ | .flushTimeout _
  | .setLoad _ _ _ _ _ | .tsSampleWindow | .writeBack _ _ | .scrubRow _ _ | .scrubPassStart _ | .scrubLate _ | .modeChange _ _ _ | .resCtxSet _ _ _ _
  | .rgnWriteReg _ _ _ _ _ _ | .tagInitComplete _ _ _ | .circCfgSet _ _ _ _ | .waiterServed _ _ | .waiterTableRoom _ _ | .bankPwrSet _ _ _
  | .bankStateReached _ _ | .bankWake _ _ | .bankIdleReturn _ _ | .creditAvailable _ | .qGrant _ _ _ _ _ _ | .qOpen _ _ _ _ | .qDrain _ _ _
  | .qClose _ _ _ | .qReset _ _ _ | .qdRingWrite _ _ _ _ | .handlerDispatch _ | .messageAvailable _ _ | .messageRelease _ _ | .opEnd _ _ | .opLi _ _
  | .opLui _ _ | .opAdd _ _ | .opSub _ _ | .opAnd _ _ | .opOr _ _ | .opXor _ _ | .opShli _ _ | .opShri _ _ | .opAddi _ _ | .opMul _ _ | .opLdp _ _
  | .opSto _ _ | .opLd _ _ | .opSt _ _ | .opAadd _ _ | .opCas _ _ | .opFill _ _ | .opTake _ _ | .opPeek _ _ | .opClrt _ _ | .opMovpo _ _ | .opBeq _ _
  | .opBne _ _ | .opBltu _ _ | .opSend _ _ | .opReply _ _ | .opGrant _ _ | .opGet _ _ | .opStep _ _ | .opFence _ _ | .hsDataAccess _ _ _
  | .hsBoundSet _ _ _ _ _ | .flitReceive _ _ _ | .linkReplay _ _ | .packetInject _ _ | .injectionHoldRelease _ | .injHold _ _ _ | .rtDataAccess _ _ _
  | .mcDataAccess _ _ _ | .redHoldExpiry _ _ | .completionMessageSend _ _ | .destReset _ _ _ | .portEnable _ _ _ | .portFence _ _ _
  | .portRetrain _ _ | .laneMaskWrite _ _ _ | .trainingComplete _ _ _ _ _ | .trainFail _ | .retryTimer _ | .nakReceived _ _
  | .ackReceived _ _ | .creditBlock _ _ _ _ _ | .ackTimer _ | .residence _ | .fxDataAccess _ _ | .fmDataAccess _ _
  | .timeExchange | .timeReqReceive _ _ | .timeRespReceive _ _ _ _ | .linkDown _ | .noProgress _ | .memWriteBack _ | .refresh _ _
  | .refreshManagement _ | .retrainDue _ _ _ | .retrainForced _ | .retrainComplete _ _ _ | .patrolScrub _ | .patrolScrubLate | .ueLimitWindow _
  | .channelFence _ _ | .mcRetrain _ _ _ | .remapMem _ | .dregSet _ _ _ _ | .mmFenceSet _ _ _ | .snpRsp _ | .cmp _ _ | .gbSnoopTimeout _
  | .hostTimeout _ | .doorbellSend _ | .gbLinkDown | .gbLinkUp _ _ | .gbSendCtxWrite _ _ _ | .gbDbBindAccess _ _ | .gbMsgFailRead _ | .bootGo _ _
  | .recordLogEntry _ | .logRecRead _ | .logReadSet _ _ | .tbSetWrite _ _ | .tbAdjust _ _ | .slewComplete | .interruptEvent _ | .icDoneWrite _ _ _ _
  | .icSwWrite _ _ _ | .holdoffEnd _ | .stepEndToken _ _ | .tileVote _ _ | .dirtySet _ | .blockVote _ | .journalApplied _ | .inDoubt _ _
  | .rootPathLost _ _ | .csOpenCmd _ _ | .resolveCommit _ _ | .resolveAbort _ _ | .clearFault _ _ | .csStepWrite _ _ _ _ | .csCfgSet _ _ _ _
  | .classified _ | .condFence _ | .unitFence _ | .guardFault _ _ _ | .csTfsReadWrite _ _ | .brambleWindow | .recoveryHold | .sampleComplete
  | .admission _ | .admissionEnd | .teardown _ | .teardownDrain _ | .tdTeardown _ _ | .tdRelease _ _ | .rstCluster _ _ | .rstPartition _ | .rstWarm _
  | .rstCold _ | .resetDone | .ckDue _ | .ckCancel _ _ | .ckExport _ _ _ | .restorePartner _ _ _ _ | .restoreFlash _ _ _ _ | .trickleSend _
  | .sealImage _ _ | .sealedReceived _ _ _ | .flashCopy _ | .ckLambdaHostWrite _ _ | .romPhase | .startPhase | .repairPhase | .firmwarePhase | .fwRoundEnd
  | .memoryPhase _ _ | .linksPhase | .topologyPhase | .licencePhase | .hbBoot _ _ | .hbRecheck _ | .installLicence _ _ | .jscan _ _ | .shareFw _ _
  | .licExpired | .ufsCommand _ | .infieldDue | .yieldRequest _ | .infieldTest _ _ | .requeueTimer | .confirmTest _ | .sweep _ | .ywShutdown _
  | .ywYieldGrant _ | .ywTestNow _ _ | .ywRawEnter _ | .ywRawExit _ | .ywRawAccess _ _ _ | .canaryTrip _ _ | .ageingRecord | .powerEval
  | .clusterEntryComplete _ | .clusterWake _ | .clusterWakeComplete _ | .deviceWake | .deviceWakeComplete | .toleranceWrite _ _ _
  | .tempPublish _ _ _ | .segmentStep _ _ | .headroomLow _ | .throttleEval _ | .thermTrip _ | .hwAttest _ _ | .hwDebugOpen _ _ | .hwDebugClose _
  | .sessionExpired | .hwLcAdvance _ _ | .hwExtend _ _ | .hwEpochCommit _ | .hwDbgHold _ | .hwDbgRelease _ | .hwFenceLogClear _ | .hwChalRead _
  | .trngFail | .trngRetest _ | .compatUnsampled _ _ | .modRstNAssert | .modRstNRelease _ _ | .supplyFaultEvent | .overtempReset
  | .selfResetRelease _ _ | .i3cReadOp _ | .i3cWriteOp _ _ | .i3cWakeOp | .i3cResultRead | .ckTakeCmd _ _ _ | .ufsCommandCompletion _ _ _
  | .hibern8Entry | .deviceEntryComplete | .testComplete _ _ _ _ | .hwCommandDone | .timeNoLock | .dynamicAddressAssign _ | .boundaryScan _ => true

end Sys2Proof
end

