-- ==== Sys2Proof/Certificates/Slice0/Obligations.lean ====
section
/-! DEFINITION. The statements for the provers. -/

open Sys2Proof Sys2Proof.Machine

/-- An accepted write of ARITH_CTRL stores its fields, SCR_INJECT only where R73 allows it; DMA_CTRL is stored with or without HALT and the channel goes on from there; a write of a shadow record's register, and of a whole shadow record, stores the record when its check passes. Nothing else changes. -/
def Obligations.TileControlWrites : Prop :=
    (∀ (a : Agent) (t : TileId) (v : W64) (s : State),
      writeOk s a (tileReg t 0 0x400) v = true →
      exec (.scrInjectWrite a t v) s = .next (wr s (tileReg t 0 0x400)
      (if bitOf (merged s (tileReg t 0 0x400) 7 v) 2 && !injectOk s t then setBit (merged s (tileReg t 0 0x400) 7 v) 2 false else merged s (tileReg t 0 0x400) 7 v))) ∧
    (∀ (a : Agent) (t : TileId) (ch : Fin 4) (e : Bool) (s : State),
      writeOk s a (dmaReg t ch 0) (BitVec.ofNat 64 (2 + bit01 e)) = true →
      exec (.dmaHalt a t ch e) s = .next (dmaCtrl s t ch (merged s (dmaReg t ch 0) 3 (BitVec.ofNat 64 (2 + bit01 e))))) ∧
    (∀ (a : Agent) (t : TileId) (ch : Fin 4) (e : Bool) (s : State),
      writeOk s a (dmaReg t ch 0) (BitVec.ofNat 64 (bit01 e)) = true →
      exec (.dmaEnable a t ch e) s = .next (dmaCtrl s t ch (merged s (dmaReg t ch 0) 3 (BitVec.ofNat 64 (bit01 e))))) ∧
    (∀ (a : Agent) (t : TileId) (n j : Fin 8) (off : Fin 4096) (v : W64) (s : State),
      off.val = 0x800 + 0x80 * n.val + 8 * j.val →
      writeOk s a (dfReg t off) v = true →
      shadowLocked s t = false →
      exec (.shadowWrite a t off v) s = .next (storeRec s t n
      (((slotWords s t false n).set (2 * j) (fieldOf v 0 32)).set (2 * j + 1) (fieldOf v 32 32)))) ∧
    (∀ (a : Agent) (t : TileId) (n : Fin 8) (w : List W32) (k : PageKind) (s : State),
      slotKind t 1 = some k →
      tileType t ≠ .s →
      regDenied s a k t (slotOff false n) true 0 = false →
      pageAwake s (dfPage t) = true →
      fencedWrite s k t (slotOff false n) = false →
      haltedWrite s k (slotOff false n) 0 = false →
      shadowLocked s t = false →
      exec (.cfgRecordWrite a t n w) s = .next (storeRec s t n ((List.range 16).map (fun i => (w.getD i 0).toNat))))

/-- With an activation in its working phase whose record holds the operation, NOP, EMIT and CLEAR count their busy steps, act on the accumulators and end the operation; MMA and LOADACC do so once every step's reads are performed; an activation whose waiting accesses have all been performed goes on, on a T tile with a free number of steps counted; a buffer write that is performed leaves its port; the check queue loses its front, each of its accumulations checked. Nothing else changes. -/
def Obligations.TensorCommands : Prop :=
    (∀ (t : TileId) (a : Act) (s : State),
      tileType t = .t →
      dueAct s t 0 (fun w => (tRecOf w).op) = some a →
      exec (.tNop t) s = .next (progress (executed (busySteps s t 1) t) t a.ctx)) ∧
    (∀ (t : TileId) (a : Act) (r : TRec) (s1 s : State) (sr sc ch : Nat) (q : Bool × State),
      tileType t = .t →
      dueAct s t 1 (fun w => (tRecOf w).op) = some a →
      r = tRecOf a.words →
      shapeOf r.aFmt r.bFmt = some (sr, sc, ch) →
      s1 = (if a.step = 0 && a.hand.isEmpty then each (List.range (r.m * r.n)) (fun u i => mmaInit u t r i) s else s) →
      q = engSteps t (fun n => stepRanges r sr sc (stepPlace r sr sc n)) (mmaStep t r sr sc ch)
        ((r.m / sr) * (r.n / sc) * (r.k / ch) - (actOf s1 t).step) s1 →
      q.1 = true →
      exec (.mma t) s = .next (mmaEnd q.2 t r)) ∧
    (∀ (t : TileId) (a : Act) (q : List (List Nat) × State) (s : State),
      tileType t = .t →
      dueAct s t 2 (fun w => (tRecOf w).op) = some a →
      q = emitRange (busySteps s t (emitSteps (tRecOf a.words))) t a (tRecOf a.words) →
      exec (.emit t) s = .next (progress (executed (each q.1 (fun u l => arithRecords u t a.ctx l) q.2) t) t a.ctx)) ∧
    (∀ (t : TileId) (a : Act) (s : State),
      tileType t = .t →
      dueAct s t 3 (fun w => (tRecOf w).op) = some a →
      exec (.clear t) s = .next (progress (executed (clearRange (busySteps s t (emitSteps (tRecOf a.words))) t (tRecOf a.words)) t) t a.ctx)) ∧
    (∀ (t : TileId) (a : Act) (r : TRec) (q : Bool × State) (s : State),
      tileType t = .t →
      dueAct s t 4 (fun w => (tRecOf w).op) = some a →
      r = tRecOf a.words →
      q = engSteps t (fun n => [loadRange r n]) (loadStep t r) (ceilDiv (r.m * r.n) 16 - (actOf s t).step) s →
      q.1 = true →
      exec (.loadAcc t) s = .next (progress (executed q.2 t) t a.ctx)) ∧
    (∀ (t : TileId) (s : State),
      tileType t = .t →
      (actOf s t).on = true →
      (actOf s t).waiting = true →
      actPends s t = false →
      exec (.operandArrival t) s = .next (drawn (countSteps (setAct s t { actOf s t with waiting := false }) t 0x098 (freeNat s)))) ∧
    (∀ (t : TileId) (s : State),
      tileType t ≠ .t →
      (actOf s t).on = true →
      (actOf s t).waiting = true →
      actPends s t = false →
      exec (.operandArrival t) s = .next (setAct s t { actOf s t with waiting := false })) ∧
    (∀ (t : TileId) (b : Nat) (d : List Byte) (rest : List (Nat × List Byte)) (x : SpAcc) (s : State),
      mapGet (fun _ => []) s.flow.bufWrites t = (b, d) :: rest →
      (actOf s t).on = true →
      actPends s t = false →
      x = { tile := t, boff := b, len := d.length, op := .wr, req := .act t, ctx := some (actOf s t).ctx, data := d.map some } →
      ((ctxRegion s t (actOf s t).ctx (b / 4)).map (fun g => g.tagged)).getD false = false →
      regionCheck s x = none →
      mustHold s x = false →
      exec (.bufferWritePort t) s = .next (
      { (perform s x).2 with flow := { (perform s x).2.flow with bufWrites := mapPut (fun _ => []) (perform s x).2.flow.bufWrites t rest } })) ∧
    (∀ (t : TileId) (b : Nat) (d : List Byte) (rest : List (Nat × List Byte)) (x : SpAcc) (s : State),
      mapGet (fun _ => []) s.flow.bufWrites t = (b, d) :: rest →
      (actOf s t).on = true →
      actPends s t = false →
      x = { tile := t, boff := b, len := d.length, op := .wrFill, req := .act t, ctx := some (actOf s t).ctx, data := d.map some } →
      ((ctxRegion s t (actOf s t).ctx (b / 4)).map (fun g => g.tagged)).getD false = true →
      regionCheck s x = none →
      mustHold s x = false →
      tagAt s t (b / 4) = tagEmpty →
      slotWaiters s t b true = [] →
      exec (.bufferWritePort t) s = .next (
      { (perform s x).2 with flow := { (perform s x).2.flow with bufWrites := mapPut (fun _ => []) (perform s x).2.flow.bufWrites t rest } })) ∧
    (∀ (t : TileId) (j : ScrJob) (js : List ScrJob) (fs : List (Nat × Nat × Nat)) (s1 s : State),
      mapGet (fun _ => []) s.flow.scr t = j :: js →
      s1 = { s with flow := { s.flow with scr := mapPut (fun _ => []) s.flow.scr t js } } →
      exec (.scrupleCheck t fs) s = .next (
      each j.chks.zipIdx (fun u x => checkOne u t j.ctx j.first j.inject (fs.map (fun f => { code := f.1, index := f.2.1, observed := f.2.2 % 128 })) x)
        (incWrap (if j.inject then wrB s1 (tileReg t 0 0x400) 2 false else s1) (tileReg t 0 0x410) j.chks.length)))

/-- With an activation in its working phase whose record holds the operation, NOP ends the operation; ADD, SUB, MUL, MAX, MIN, ABS and NEG write each row whose elements are the operation of the rows' elements, one element at a time, at 64 or 128 elements in a step. Nothing else changes. -/
def Obligations.VectorElementwise : Prop :=
    (∀ (t : TileId) (a : Act) (r : VRec) (s : State),
      dueV s t 0 = some (a, r) →
      exec (.vNop t) s = .next (progress (setAct s t { a with phase := 2, waiting := false }) t a.ctx)) ∧
    (∀ (t : TileId) (a : Act) (r : VRec) (s : State),
      dueV s t 1 = some (a, r) →
      exec (.vAdd t) s = .next (runRows s t a r (rateSteps r (if r.outFmt = 0 then 64 else 128)) (fun x _ ra rb =>
      checkedRow x (outRow r (((rowValues r.inFmt r.len ra).1.zip (rowValues r.inFmt r.len rb).1).map (fun p => addFl (rmodeOf r.rmode) p.1 p.2)))))) ∧
    (∀ (t : TileId) (a : Act) (r : VRec) (s : State),
      dueV s t 2 = some (a, r) →
      exec (.vSub t) s = .next (runRows s t a r (rateSteps r (if r.outFmt = 0 then 64 else 128)) (fun x _ ra rb =>
      checkedRow x (outRow r (((rowValues r.inFmt r.len ra).1.zip (rowValues r.inFmt r.len rb).1).map (fun p => addFl (rmodeOf r.rmode) p.1 (negFl p.2))))))) ∧
    (∀ (t : TileId) (a : Act) (r : VRec) (s : State),
      dueV s t 3 = some (a, r) →
      exec (.vMul t) s = .next (runRows s t a r (rateSteps r (if r.outFmt = 0 then 64 else 128)) (fun x _ ra rb =>
      checkedRow x (outRow r (((rowValues r.inFmt r.len ra).1.zip (rowValues r.inFmt r.len rb).1).map (fun p => mulFl p.1 p.2)))))) ∧
    (∀ (t : TileId) (a : Act) (r : VRec) (s : State),
      dueV s t 4 = some (a, r) →
      exec (.vMax t) s = .next (runRows s t a r (rateSteps r (if r.outFmt = 0 then 64 else 128)) (fun x _ ra rb =>
      ((outRow r (((rowValues r.inFmt r.len ra).1.zip (rowValues r.inFmt r.len rb).1).map (fun p => maxFl p.1 p.2)), []), x)))) ∧
    (∀ (t : TileId) (a : Act) (r : VRec) (s : State),
      dueV s t 5 = some (a, r) →
      exec (.vMin t) s = .next (runRows s t a r (rateSteps r (if r.outFmt = 0 then 64 else 128)) (fun x _ ra rb =>
      ((outRow r (((rowValues r.inFmt r.len ra).1.zip (rowValues r.inFmt r.len rb).1).map (fun p => minFl p.1 p.2)), []), x)))) ∧
    (∀ (t : TileId) (a : Act) (r : VRec) (s : State),
      dueV s t 6 = some (a, r) →
      exec (.vAbs t) s = .next (runRows s t a r (rateSteps r (if r.outFmt = 0 then 64 else 128)) (fun x _ ra _ =>
      ((outRow r (((rowValues r.inFmt r.len ra).1.zip (rowValues r.inFmt r.len ra).1).map (fun p => absFl p.1)), []), x)))) ∧
    (∀ (t : TileId) (a : Act) (r : VRec) (s : State),
      dueV s t 7 = some (a, r) →
      exec (.vNeg t) s = .next (runRows s t a r (rateSteps r (if r.outFmt = 0 then 64 else 128)) (fun x _ ra _ =>
      ((outRow r (((rowValues r.inFmt r.len ra).1.zip (rowValues r.inFmt r.len ra).1).map (fun p => negFl p.1)), []), x))))

/-- CVT converts each element of a row to the output code, an FWS input by its own conversion, with the events that the conversions raise; QUANT makes blocks of 32 elements with a scale byte each after the elements; the six special functions are counted and applied to each element, then converted to the output code. Nothing else changes. -/
def Obligations.VectorConversions : Prop :=
    (∀ (t : TileId) (a : Act) (r : VRec) (s : State),
      dueV s t 8 = some (a, r) →
      r.inFmt = 0xB →
      exec (.cvt t) s = .next (runRows s t a r (rateSteps r 64) (fun x _ ra _ =>
      ((packElems (codeBits r.outFmt) (cvtAll (fun y f => cvtFws y t a.ctx r f) x (rowRecords r.len ra)).1, []), (cvtAll (fun y f => cvtFws y t a.ctx r f) x (rowRecords r.len ra)).2)))) ∧
    (∀ (t : TileId) (a : Act) (r : VRec) (s : State),
      dueV s t 8 = some (a, r) →
      r.inFmt ≠ 0xB →
      exec (.cvt t) s = .next (runRows s t a r (rateSteps r 64) (fun x _ ra _ =>
      let q := cvtAll (fun y v => cvtOne y t a.ctx r v) (nanBlocks x t a.ctx (rowValues r.inFmt r.len ra).2) (rowValues r.inFmt r.len ra).1
      ((packElems (codeBits r.outFmt) q.1, []), q.2)))) ∧
    (∀ (t : TileId) (a : Act) (r : VRec) (s : State),
      dueV s t 9 = some (a, r) →
      exec (.quant t) s = .next (runRows s t a r (rateSteps r 64) (fun x _ ra _ =>
      let qs := (List.range (r.len / 32)).map (fun i => quantBlock r.outFmt (rmodeOf r.rmode) (((quantInputs r ra).drop (32 * i)).take 32))
      ((qs.flatMap (fun q => packElems (codeBits r.outFmt) q.2.1) ++ qs.map (fun q => BitVec.ofNat 8 q.1), []), satEvents x t a.ctx (qs.foldl (fun n q => n + q.2.2) 0))))) ∧
    (∀ (t : TileId) (a : Act) (r : VRec) (s : State),
      dueV s t 0x10 = some (a, r) →
      exec (.exp2 t) s = .next (runRows (countSteps s t 0x088 (r.rows * r.len)) t a r (rateSteps r 16) (fun x _ ra _ =>
      checkedRow x (packElems (codeBits r.outFmt) ((rowValues r.inFmt r.len ra).1.map (fun v => if r.outFmt = 0 then exp2B32 v else (toCode r.outFmt .nearestEven 0 (ofB32 (exp2B32 v))).1)))))) ∧
    (∀ (t : TileId) (a : Act) (r : VRec) (s : State),
      dueV s t 0x11 = some (a, r) →
      exec (.log2 t) s = .next (runRows (countSteps s t 0x088 (r.rows * r.len)) t a r (rateSteps r 16) (fun x _ ra _ =>
      checkedRow x (packElems (codeBits r.outFmt) ((rowValues r.inFmt r.len ra).1.map (fun v => if r.outFmt = 0 then log2B32 v else (toCode r.outFmt .nearestEven 0 (ofB32 (log2B32 v))).1)))))) ∧
    (∀ (t : TileId) (a : Act) (r : VRec) (s : State),
      dueV s t 0x12 = some (a, r) →
      exec (.rcp t) s = .next (runRows (countSteps s t 0x088 (r.rows * r.len)) t a r (rateSteps r 16) (fun x _ ra _ =>
      checkedRow x (packElems (codeBits r.outFmt) ((rowValues r.inFmt r.len ra).1.map (fun v => if r.outFmt = 0 then rcpB32 v else (toCode r.outFmt .nearestEven 0 (ofB32 (rcpB32 v))).1)))))) ∧
    (∀ (t : TileId) (a : Act) (r : VRec) (s : State),
      dueV s t 0x13 = some (a, r) →
      exec (.rsqrt t) s = .next (runRows (countSteps s t 0x088 (r.rows * r.len)) t a r (rateSteps r 16) (fun x _ ra _ =>
      checkedRow x (packElems (codeBits r.outFmt) ((rowValues r.inFmt r.len ra).1.map (fun v => if r.outFmt = 0 then rsqrtB32 v else (toCode r.outFmt .nearestEven 0 (ofB32 (rsqrtB32 v))).1)))))) ∧
    (∀ (t : TileId) (a : Act) (r : VRec) (s : State),
      dueV s t 0x14 = some (a, r) →
      exec (.tanh t) s = .next (runRows (countSteps s t 0x088 (r.rows * r.len)) t a r (rateSteps r 16) (fun x _ ra _ =>
      checkedRow x (packElems (codeBits r.outFmt) ((rowValues r.inFmt r.len ra).1.map (fun v => if r.outFmt = 0 then tanhB32 v else (toCode r.outFmt .nearestEven 0 (ofB32 (tanhB32 v))).1)))))) ∧
    (∀ (t : TileId) (a : Act) (r : VRec) (s : State),
      dueV s t 0x15 = some (a, r) →
      exec (.logistic t) s = .next (runRows (countSteps s t 0x088 (r.rows * r.len)) t a r (rateSteps r 16) (fun x _ ra _ =>
      checkedRow x (packElems (codeBits r.outFmt) ((rowValues r.inFmt r.len ra).1.map (fun v => if r.outFmt = 0 then logisticB32 v else (toCode r.outFmt .nearestEven 0 (ofB32 (logisticB32 v))).1))))))

/-- RSUM sends partial sums or one sum for each row; RMAX and RMIN fold each row from its first element; RARGMAX writes the index of the largest element with the segment's base; TOPK writes the k greatest pairs, merging lists where the record says so, its finishing steps within the bound that R91 gives; SAMPLE makes its choice for each row once the reads of its parameters are performed. Nothing else changes. -/
def Obligations.VectorReductions : Prop :=
    (∀ (t : TileId) (a : Act) (r : VRec) (s : State),
      dueV s t 0x18 = some (a, r) →
      r.outMode = 2 →
      exec (.rsum t) s = .next (rsumPartial (busySteps s t (rateSteps r 64)) t a r)) ∧
    (∀ (t : TileId) (a : Act) (r : VRec) (s : State),
      dueV s t 0x18 = some (a, r) →
      r.outMode ≠ 2 →
      exec (.rsum t) s = .next (runRows s t a r (rateSteps r 64) (fun x _ ra _ => rsumRow x t r (rowValues r.inFmt r.len ra).1))) ∧
    (∀ (t : TileId) (a : Act) (r : VRec) (s : State),
      dueV s t 0x19 = some (a, r) →
      exec (.rmax t) s = .next (runRows s t a r (rateSteps r 64) (fun x _ ra _ =>
      ((outRow r [match (rowValues r.inFmt r.len ra).1 with | v :: vs => vs.foldl maxFl v | [] => .nan], []), x)))) ∧
    (∀ (t : TileId) (a : Act) (r : VRec) (s : State),
      dueV s t 0x1A = some (a, r) →
      exec (.rmin t) s = .next (runRows s t a r (rateSteps r 64) (fun x _ ra _ =>
      ((outRow r [match (rowValues r.inFmt r.len ra).1 with | v :: vs => vs.foldl minFl v | [] => .nan], []), x)))) ∧
    (∀ (t : TileId) (a : Act) (r : VRec) (s : State),
      dueV s t 0x1B = some (a, r) →
      exec (.rargmax t) s = .next (runRows s t a r (rateSteps r 64) (fun x _ ra _ =>
      ((bytesOf 4 ((r.segBase + argMax (rowValues r.inFmt r.len ra).1) % 2 ^ 21), []), x)))) ∧
    (∀ (t : TileId) (a : Act) (r : VRec) (s : State),
      dueV s t 0x1C = some (a, r) →
      exec (.topk t) s = .next (
      runRows (drawn s) t a r (topkSteps s a r) (fun x i ra _ =>
      let ps := if r.merge then ((a.lists.drop (i * (r.lists + 1))).take (r.lists + 1)).flatMap pairsOf
      else (rowValues r.inFmt r.len ra).1.zipIdx.map (fun p => (toB32 .nearestEven p.1, (r.segBase + p.2) % 2 ^ 21))
      ((pairBytes (topPairs r.k (ps.filter (fun p => ofB32 p.1 != .nan))), []), topkNan x t a.ctx (ps.length - (ps.filter (fun p => ofB32 p.1 != .nan)).length))))) ∧
    (∀ (t : TileId) (a : Act) (r : VRec) (q : Bool × State) (s : State),
      dueV s t 0x1D = some (a, r) →
      q = engSteps t (fun n => [(r.paramBase + 16 * n, 16)]) (sampleStep t r) (r.rows - (actOf s t).step) s →
      q.1 = true →
      exec (.sample t) s = .next (endRows q.2 t a.ctx []))

/-- A descriptor message at the head of the queue of an idle channel becomes the channel's queued descriptors, one whose length is not whole descriptors being recorded and counted too, and one with no whole descriptor being released; DMA_NOP completes its descriptor, in progress or next; COPY, GATHER, SCATTER, SCATTER_ADD_I32 and FILL move the elements of their descriptor, in progress or next, one after another while none waits or fails, and complete the descriptor after its last element. Descriptors of a reserved OP that then stand in front fail. Nothing else changes. -/
def Obligations.DmaCommands : Prop :=
    (∀ (t : TileId) (ch : Fin 4) (m : Msg) (u v s : State),
      tileType t = .s →
      qRead s t ch = true →
      (chanOf s t ch).queued = [] →
      mayRun s t (qOwner s t ch) = true →
      qSound s t ch = true →
      headMsg s t ch = some (m, u) →
      m.hdr.payLen / 64 ≠ 0 →
      v = setChan (endRead u t ch) t ch { chanOf u t ch with queued := (List.range (m.hdr.payLen / 64)).map (fun i =>
        ({ words := bytesWords 16 ((m.pay.drop (64 * i)).take 64), ctx := m.hdr.context, last := decide (i + 1 = m.hdr.payLen / 64) } : Desc)) } →
      exec (.descriptorMessage t ch) s = .next (dmaSkip t ch (m.hdr.payLen / 64)
      (if m.hdr.payLen % 64 = 0 then v
       else report (incWrap v (tileReg t 0 0x098) 1) (unitPage t) 0x0207 { queue := ch, ctx := some m.hdr.context }))) ∧
    (∀ (t : TileId) (ch : Fin 4) (m : Msg) (u v s : State),
      tileType t = .s →
      qRead s t ch = true →
      (chanOf s t ch).queued = [] →
      mayRun s t (qOwner s t ch) = true →
      qSound s t ch = true →
      headMsg s t ch = some (m, u) →
      m.hdr.payLen / 64 = 0 →
      v = setChan (endRead u t ch) t ch { chanOf u t ch with queued := [] } →
      exec (.descriptorMessage t ch) s = .next (release
      (if m.hdr.payLen % 64 = 0 then v
       else report (incWrap v (tileReg t 0 0x098) 1) (unitPage t) 0x0207 { queue := ch, ctx := some m.hdr.context }) t ch)) ∧
    (∀ (t : TileId) (ch : Fin 4) (x : Desc) (u v s : State),
      dmaWorksOn s t ch 0 x u →
      v = dmaFinish u t ch x 0 (chanOf u t ch).elem 0xFFFFFFFF →
      exec (.dmaNop t ch) s = .next (dmaSkip t ch (chanOf v t ch).queued.length v)) ∧
    (∀ (t : TileId) (ch : Fin 4) (n : Nat) (x : Desc) (u : Nat → State) (s : State),
      dmaWorksOn s t ch 1 x (u 0) →
      (∀ i, i < n → dmaMoves (fun y e => copyElem y t ch x.ctx (dRecOf x.words) e) t ch x (u i) (u (i + 1)) ∧ (chanOf (u i) t ch).elem + 1 < dmaTotal (dRecOf x.words)) →
      exec (.dmaCopy t ch n) s = .next (dmaSkip t ch (chanOf (u n) t ch).queued.length (u n))) ∧
    (∀ (t : TileId) (ch : Fin 4) (n k : Nat) (x : Desc) (u : Nat → State) (v s : State),
      dmaWorksOn s t ch 1 x (u 0) →
      (∀ i, i ≤ n → dmaMoves (fun y e => copyElem y t ch x.ctx (dRecOf x.words) e) t ch x (u i) (u (i + 1)) ∧ (i < n ↔ (chanOf (u i) t ch).elem + 1 < dmaTotal (dRecOf x.words))) →
      v = dmaFinish (u (n + 1)) t ch x 0 ((chanOf (u n) t ch).elem + 1) 0xFFFFFFFF →
      exec (.dmaCopy t ch (n + 1 + k)) s = .next (dmaSkip t ch (chanOf v t ch).queued.length v)) ∧
    (∀ (t : TileId) (ch : Fin 4) (n : Nat) (x : Desc) (u : Nat → State) (s : State),
      dmaWorksOn s t ch 2 x (u 0) →
      (∀ i, i < n → dmaMoves (fun y e => moveIndexed y t ch x.ctx (dRecOf x.words) e) t ch x (u i) (u (i + 1)) ∧ (chanOf (u i) t ch).elem + 1 < dmaTotal (dRecOf x.words)) →
      exec (.dmaGather t ch n) s = .next (dmaSkip t ch (chanOf (u n) t ch).queued.length (u n))) ∧
    (∀ (t : TileId) (ch : Fin 4) (n k : Nat) (x : Desc) (u : Nat → State) (v s : State),
      dmaWorksOn s t ch 2 x (u 0) →
      (∀ i, i ≤ n → dmaMoves (fun y e => moveIndexed y t ch x.ctx (dRecOf x.words) e) t ch x (u i) (u (i + 1)) ∧ (i < n ↔ (chanOf (u i) t ch).elem + 1 < dmaTotal (dRecOf x.words))) →
      v = dmaFinish (u (n + 1)) t ch x 0 ((chanOf (u n) t ch).elem + 1) 0xFFFFFFFF →
      exec (.dmaGather t ch (n + 1 + k)) s = .next (dmaSkip t ch (chanOf v t ch).queued.length v)) ∧
    (∀ (t : TileId) (ch : Fin 4) (n : Nat) (x : Desc) (u : Nat → State) (s : State),
      dmaWorksOn s t ch 3 x (u 0) →
      (∀ i, i < n → dmaMoves (fun y e => moveIndexed y t ch x.ctx (dRecOf x.words) e) t ch x (u i) (u (i + 1)) ∧ (chanOf (u i) t ch).elem + 1 < dmaTotal (dRecOf x.words)) →
      exec (.dmaScatter t ch n) s = .next (dmaSkip t ch (chanOf (u n) t ch).queued.length (u n))) ∧
    (∀ (t : TileId) (ch : Fin 4) (n k : Nat) (x : Desc) (u : Nat → State) (v s : State),
      dmaWorksOn s t ch 3 x (u 0) →
      (∀ i, i ≤ n → dmaMoves (fun y e => moveIndexed y t ch x.ctx (dRecOf x.words) e) t ch x (u i) (u (i + 1)) ∧ (i < n ↔ (chanOf (u i) t ch).elem + 1 < dmaTotal (dRecOf x.words))) →
      v = dmaFinish (u (n + 1)) t ch x 0 ((chanOf (u n) t ch).elem + 1) 0xFFFFFFFF →
      exec (.dmaScatter t ch (n + 1 + k)) s = .next (dmaSkip t ch (chanOf v t ch).queued.length v)) ∧
    (∀ (t : TileId) (ch : Fin 4) (n : Nat) (x : Desc) (u : Nat → State) (s : State),
      dmaWorksOn s t ch 4 x (u 0) →
      (∀ i, i < n → dmaMoves (fun y e => addIndexed y t ch x.ctx (dRecOf x.words) e) t ch x (u i) (u (i + 1)) ∧ (chanOf (u i) t ch).elem + 1 < dmaTotal (dRecOf x.words)) →
      exec (.dmaScatterAdd t ch n) s = .next (dmaSkip t ch (chanOf (u n) t ch).queued.length (u n))) ∧
    (∀ (t : TileId) (ch : Fin 4) (n k : Nat) (x : Desc) (u : Nat → State) (v s : State),
      dmaWorksOn s t ch 4 x (u 0) →
      (∀ i, i ≤ n → dmaMoves (fun y e => addIndexed y t ch x.ctx (dRecOf x.words) e) t ch x (u i) (u (i + 1)) ∧ (i < n ↔ (chanOf (u i) t ch).elem + 1 < dmaTotal (dRecOf x.words))) →
      v = dmaFinish (u (n + 1)) t ch x 0 ((chanOf (u n) t ch).elem + 1) 0xFFFFFFFF →
      exec (.dmaScatterAdd t ch (n + 1 + k)) s = .next (dmaSkip t ch (chanOf v t ch).queued.length v)) ∧
    (∀ (t : TileId) (ch : Fin 4) (n : Nat) (x : Desc) (u : Nat → State) (s : State),
      dmaWorksOn s t ch 5 x (u 0) →
      (∀ i, i < n → dmaMoves (fun y e => dmaThen y t ch 0 (fun z => dmaWrite z t ch x.ctx (((dRecOf x.words).dst + 4 * e) % 2 ^ 48) ((bytesOf 4 (dRecOf x.words).idxBase).map some)) (fun z _ => (.ok [], z))) t ch x (u i) (u (i + 1)) ∧ (chanOf (u i) t ch).elem + 1 < dmaTotal (dRecOf x.words)) →
      exec (.dmaFill t ch n) s = .next (dmaSkip t ch (chanOf (u n) t ch).queued.length (u n))) ∧
    (∀ (t : TileId) (ch : Fin 4) (n k : Nat) (x : Desc) (u : Nat → State) (v s : State),
      dmaWorksOn s t ch 5 x (u 0) →
      (∀ i, i ≤ n → dmaMoves (fun y e => dmaThen y t ch 0 (fun z => dmaWrite z t ch x.ctx (((dRecOf x.words).dst + 4 * e) % 2 ^ 48) ((bytesOf 4 (dRecOf x.words).idxBase).map some)) (fun z _ => (.ok [], z))) t ch x (u i) (u (i + 1)) ∧ (i < n ↔ (chanOf (u i) t ch).elem + 1 < dmaTotal (dRecOf x.words))) →
      v = dmaFinish (u (n + 1)) t ch x 0 ((chanOf (u n) t ch).elem + 1) 0xFFFFFFFF →
      exec (.dmaFill t ch (n + 1 + k)) s = .next (dmaSkip t ch (chanOf v t ch).queued.length v))

/-- The slot the fold stands at starts when its token is at the head; a stale token is dropped and recorded, a token in a flush is discarded and counted, and a token for the running slot is gathered; a finished activation with nothing owed ends, is counted and advances the fold. Nothing else changes. -/
def Obligations.ActivationCommands : Prop :=
    (∀ (t : TileId) (n q : Nat) (m : Msg) (s : State),
      curSlot s t = some n →
      (actOf s t).on = false →
      (dfState s t = 1 ∨ dfState s t = 2) →
      (bindOf s t true n).valid = true →
      mayWork s t (bindOf s t true n).ctx = true →
      q = (if tileType t = .v then (vRecOf (slotWords s t true n)).inA else (bindOf s t true n).trigQ) →
      headOf s t q = .slot n m →
      exec (.activationStart t) s = .next (startAct s t n q m)) ∧
    (∀ (t : TileId) (q : QueueId) (s : State),
      headOf s t q = .stale →
      exec (.tokenAtHead t q) s = .next (dropStale s t q)) ∧
    (∀ (t : TileId) (q : QueueId) (s : State),
      headOf s t q = .flush →
      exec (.tokenAtHead t q) s = .next (incWrap (release (readHead s t q) t q) (dfReg t 0x0A8) 1)) ∧
    (∀ (t : TileId) (q : QueueId) (m : Msg) (s : State),
      headOf s t q = .slot (actOf s t).slot m →
      takesFrom s t q = true →
      exec (.tokenAtHead t q) s = .next (gather (consume s t q) t q m)) ∧
    (∀ (t : TileId) (s : State),
      (actOf s t).on = true →
      (actOf s t).phase = 2 →
      (mapGet (fun _ => []) s.flow.bufWrites t).isEmpty = true →
      checksOwed s t (actOf s t).ctx = false →
      s.q.sends.any (fun w => w.unit == t.val && w.sender == .act) = false →
      exec (.activationComplete t) s = .next (
      foldAdvance (progress (incWrap (wrF (setAct s t noAct) (tileReg t 0 0x100) 4 1 0) (dfReg t 0x080) 1) t (actOf s t).ctx) t))

/-- SWITCH sends its input to the output that the control value names, MERGE the input it names, GATE the input or, with value 0, nothing (counted), JOIN one of its inputs once all are there, REPLICATE its input to every output; each consumes what it took, counts and advances its state. Nothing else changes. -/
def Obligations.SteeringCommands : Prop :=
    (∀ (t : TileId) (u : Fin 8) (e : Steer) (v : Nat) (m : Msg) (s : State),
      steerDue s t u 1 = some e →
      ctrlValue s t u e = some v →
      v ≤ e.width →
      steerHead s t (e.inQ.getD 0 0) = some m →
      outsReady s t m [e.outs.getD v (false, 0, 0)] = true →
      exec (.steerSwitch t u) s = .next (fire s t u e (e.inQ.getD 0 0) m [e.outs.getD v (false, 0, 0)] [e.inQ.getD 0 0])) ∧
    (∀ (t : TileId) (u : Fin 8) (e : Steer) (v : Nat) (m : Msg) (s : State),
      steerDue s t u 2 = some e →
      ctrlValue s t u e = some v →
      v ≤ e.width →
      steerHead s t (e.inQ.getD v 0) = some m →
      outsReady s t m [e.outs.getD 0 (false, 0, 0)] = true →
      exec (.steerMerge t u) s = .next (fire s t u e (e.inQ.getD v 0) m [e.outs.getD 0 (false, 0, 0)] [e.inQ.getD v 0])) ∧
    (∀ (t : TileId) (u : Fin 8) (e : Steer) (v : Nat) (m : Msg) (s : State),
      steerDue s t u 3 = some e →
      ctrlValue s t u e = some v →
      v ≠ 0 →
      steerHead s t (e.inQ.getD 0 0) = some m →
      outsReady s t m [e.outs.getD 0 (false, 0, 0)] = true →
      exec (.steerGate t u) s = .next (fire s t u e (e.inQ.getD 0 0) m [e.outs.getD 0 (false, 0, 0)] [e.inQ.getD 0 0])) ∧
    (∀ (t : TileId) (u : Fin 8) (e : Steer) (m : Msg) (s : State),
      steerDue s t u 3 = some e →
      ctrlValue s t u e = some 0 →
      steerHead s t (e.inQ.getD 0 0) = some m →
      exec (.steerGate t u) s = .next (incWrap (fire s t u e (e.inQ.getD 0 0) m [] [e.inQ.getD 0 0]) (dfReg t 0x098) 1)) ∧
    (∀ (t : TileId) (u : Fin 8) (e : Steer) (m : Msg) (s : State),
      steerDue s t u 4 = some e →
      steerHead s t (e.inQ.getD 0 0) = some m →
      e.inputs.all (fun i => (steerHead s t i).isSome) = true →
      outsReady s t m [e.outs.getD 0 (false, 0, 0)] = true →
      exec (.steerJoin t u) s = .next (fire s t u e (e.inQ.getD 0 0) m [e.outs.getD 0 (false, 0, 0)] e.inputs)) ∧
    (∀ (t : TileId) (u : Fin 8) (e : Steer) (m : Msg) (s : State),
      steerDue s t u 5 = some e →
      steerHead s t (e.inQ.getD 0 0) = some m →
      outsReady s t m e.outputs = true →
      exec (.steerReplicate t u) s = .next (fire s t u e (e.inQ.getD 0 0) m e.outputs [e.inQ.getD 0 0]))

/-- A STOP packet ejected at a tile stops it; a draining tile answers a PROBE with its idle flag, shadow flag and counts, and commits, cancels or releases its shadow configuration; a probe's reply is weighed against the last one and the next round begins. The packet is taken from the ejection queue. Nothing else changes. -/
def Obligations.PlacementPackets : Prop :=
    (∀ (t : TileId) (p : Ctrl) (u s : State),
      takeEjected s t (.ctrl p) = some u →
      p.type = 0x06 →
      exec (.stop t p) s = .next (stopAt u t p)) ∧
    (∀ (t : TileId) (p : Ctrl) (u s : State),
      takeEjected s t (.ctrl p) = some u →
      p.type = 0x07 →
      2 ≤ dfState u t →
      exec (.probe t p) s = .next (flowReply u t p 0x08 (probeWords u t))) ∧
    (∀ (set : Fin 256) (root : TileId) (d e : Drain) (p : Ctrl) (k : Nat) (v u s : State),
      drainOf s set = some d →
      d.hung = false →
      p.type = 0x08 →
      p.group = d.group →
      d.heard = false →
      p.round = (d.round - 1) % 256 →
      takeEjected s root (.ctrl p) = some u →
      v = probeResult u d p →
      drainOf v set = some e →
      k = now v / 1000 →
      e.round ≠ k + 1 →
      exec (.probeRound set root (some p)) s = .next (
      flowCmd (setDrain v e.set (some { e with round := k + 1, heard := false, lastInj := if e.heard then e.lastInj else none, quiet := if e.heard then e.quiet else 0 }))
        0x07 e.group e.set e.epoch (k % 256) false)) ∧
    (∀ (set : Fin 256) (root : TileId) (d : Drain) (k : Nat) (s : State),
      drainOf s set = some d →
      d.hung = false →
      k = now s / 1000 →
      exec (.probeRound set root none) s = .next (
      if d.round = k + 1 then s
      else flowCmd (setDrain s d.set (some { d with round := k + 1, heard := false, lastInj := if d.heard then d.lastInj else none, quiet := if d.heard then d.quiet else 0 }))
        0x07 d.group d.set d.epoch (k % 256) false)) ∧
    (∀ (t : TileId) (p : Ctrl) (u s : State),
      takeEjected s t (.ctrl p) = some u →
      p.type = 0x09 →
      hasFlow t = true →
      2 ≤ dfState u t →
      exec (.commitSet t p) s = .next (commitAt u t p)) ∧
    (∀ (t : TileId) (p : Ctrl) (u s : State),
      takeEjected s t (.ctrl p) = some u →
      p.type = 0x0A →
      hasFlow t = true →
      2 ≤ dfState u t →
      exec (.cancelSet t p) s = .next (cancelAt u t)) ∧
    (∀ (t : TileId) (p : Ctrl) (u s : State),
      takeEjected s t (.ctrl p) = some u →
      p.type = 0x0B →
      hasFlow t = true →
      2 ≤ dfState u t →
      exec (.releaseSet t p) s = .next (releaseAt u t))

/-- Loading a placement that passes its checks writes the shadow copies of every tile of it and of every tile that it leaves, and begins the set's drain; a drain that expires is recorded and handed over as a hang, and a flush that expires fences the tiles still busy and releases the others; the sampler writes its records to its ring, or counts and reports what it drops when they do not fit; a compatibility count left unread for an hour is recorded. Nothing else changes. -/
def Obligations.PlacementTimers : Prop :=
    (∀ (set : Fin 256) (d : Drain) (l : Bool × State) (h : Hang) (s1 s : State),
      drainOf s set = some d →
      d.flush = false →
      drainExpired s d = true →
      l = limitOnce s (limitKey 22 set 0) (now s / 1000) →
      (d.hung = false ∨ (d.again = true ∧ l.1 = true)) →
      s1 = (if d.hung then l.2 else report l.2 (devPage 7) 0x0309 { detail := [d.set] }) →
      h = { members := ((allNodes s1).filter (fun n => ((placedOf s1 d.set).ctxs ++ d.next.ctxs).eraseDups.contains (n % 256))).map (fun n => (n / 256, n % 256))
            cause := 2, dt := now s1, set := some d.set } →
      exec (.drainTimeout set) s = .next (
      foundHang (setDrain s1 d.set (some { d with hung := true, again := hangLost s1 h })) (allWaits s1) h)) ∧
    (∀ (set : Fin 256) (d : Drain) (bad : List Nat) (s : State),
      drainOf s set = some d →
      d.flush = true →
      drainExpired s d = true →
      bad = d.tiles.filter (fun t => !tileIdle s t) →
      exec (.flushTimeout set) s = .next (
      setDrain (flowCmd (each bad (fun u t => fenceTile u t 0x030A) (report s (devPage 7) 0x030A { detail := [d.set, bad.length] }))
        0x0B d.group d.set d.epoch 0 false) d.set none)) ∧
    (∀ (image : Nat) (group : Fin 4096) (cfgs steers renum : List (Nat × Nat)) (im : Image) (p : Placement) (epoch : Nat) (tiles : List Nat) (s : State),
      im = imageOf s image →
      p = { cfgs := cfgs, steers := steers, renum := renum } →
      placeOk s image im p = true →
      drainOf s im.set = none →
      epoch = (if placedOf s im.set = noPlaced then 0 else ((placedOf s im.set).epoch + 1) % 4) →
      tiles = p.tiles ++ leftTiles s im.set p.tiles →
      exec (.setLoad image group cfgs steers renum) s = .next (
      beginDrain (each tiles (fun u t => placeTile u image im p t) s) im.set epoch (loadFlush s im (imageCtxs s image im)) tiles
        { image := image, group := group, tiles := p.tiles, epoch := epoch, flush := im.flush, limit := im.limit
          ctxs := imageCtxs s image im })) ∧
    (∀ (s : State),
      (limitOnce s (limitKey 21 0 0) (now s / 1000)).1 = false →
      exec .tsSampleWindow s = .next s) ∧
    (∀ (s u : State),
      rdB u (tsReg 0x100) 0 = true →
      limitOnce u (limitKey 21 0 0) (now u / 1000) = (true, s) →
      (rdF s (tsReg 0x118) 0 16 + 65536 - rdF s (tsReg 0x110) 0 16 - 1) % 65536 < rdF s (tsReg 0x128) 0 9 →
      exec .tsSampleWindow u = .next (
      reportLimited (incSat s (tsReg 0x120)) (devPage 6) 0 0x1201 (limitKey 7 0 0) (now s / 1000000))) ∧
    (∀ (s u : State),
      rdB u (tsReg 0x100) 0 = true →
      limitOnce u (limitKey 21 0 0) (now u / 1000) = (true, s) →
      rdF s (tsReg 0x128) 0 9 ≤ (rdF s (tsReg 0x118) 0 16 + 65536 - rdF s (tsReg 0x110) 0 16 - 1) % 65536 →
      exec .tsSampleWindow u = .next (
      wrF (each (List.range (min (rdF s (tsReg 0x128) 0 9) 256)) (fun v i =>
      let q := rd v (tsReg (0x800 + 8 * i))
      (mappedWrite v (devPage 6) (rdF s (tsReg 0x108) 19 29 * 0x80000 + 8 * ((rdF s (tsReg 0x110) 0 16 + i) % 65536))
      ((bytesOf 8 (place 48 16 (if fieldOf q 8 13 < 4608 then msgSlots v (fieldOf q 8 13) (fieldOf q 0 8) else 0) + place 40 8 (fieldOf q 0 8)
      + place 27 13 (fieldOf q 8 13) + place 0 27 (now v / 1000))).map some) none).2) s)
      (tsReg 0x110) 0 16 ((rdF s (tsReg 0x110) 0 16 + min (rdF s (tsReg 0x128) 0 9) 256) % 65536))) ∧
    (∀ (t : TileId) (n : Fin 16) (s : State),
      hasFlow t = true →
      mapGet (fun _ => 0) s.flow.compatRead (t * 16 + n) + 3600000000000 ≤ now s →
      compatReg s t n ≠ mapGet (fun _ => 0) s.flow.compatSeen (t * 16 + n) →
      exec (.compatUnsampled t n) s = .next (
      noteCompat (report s (dfPage t) 0x1203 { detail := [n] }) t n (mapGet (fun _ => 0) s.flow.compatRead (t * 16 + n) + 3600000000000)))

/-- Each access of a scratchpad that the agent may make, that passes the region checks, and for which neither a bank nor a tag holds it up, is performed and answered: a read with its bytes, a write or a clearing of a tag with none. Each access whose slot is not ready, or behind which others of its kind wait, becomes a waiter; each that a bank or a region's tags hold up is held at its port; each that fails the region check, and each that the agent may not make, is answered with its code. The bit upsets that a read or a write names come before it. Nothing else changes. -/
def Obligations.ScratchAccesses : Prop :=
    (∀ (a : Agent) (c : Option CtxId) (t : TileId) (b len : Nat) (flips : List (Nat × Nat)) (x : SpAcc) (s : State),
      len ≠ 0 →
      x = { tile := t, boff := b, len := len, op := .rd, req := .mgmt a, ctx := c.map (fun y => y.val), data := [] } →
      (c.isNone && padDenied (upset s t flips) a t x.boff x.len (opWrites x.op)) = false →
      regionCheck (upset s t flips) x = none →
      mustHold (upset s t flips) x = false →
      exec (.scratchpadRead a c t b len 0 flips) s = .next (emit (perform (upset s t flips) x).2 (.access (.mgmt a) 0 (readPadBytes (touchBanks (upset s t flips) t (x.boff / 4) ((x.boff + x.len + 3) / 4 - x.boff / 4)) t x.boff x.len x.ctx).1))) ∧
    (∀ (a : Agent) (c : Option CtxId) (t : TileId) (b len : Nat) (flips : List (Nat × Nat)) (x : SpAcc) (s : State),
      len ≠ 0 →
      x = { tile := t, boff := b, len := len, op := .rdFull, req := .mgmt a, ctx := c.map (fun y => y.val), data := [] } →
      (c.isNone && padDenied (upset s t flips) a t x.boff x.len (opWrites x.op)) = false →
      regionCheck (upset s t flips) x = none →
      mustHold (upset s t flips) x = false →
      tagAt (upset s t flips) t (x.boff / 4) = { full := true, comp := false } →
      slotWaiters (upset s t flips) t x.boff false = [] →
      exec (.scratchpadRead a c t b len 2 flips) s = .next (emit (perform (upset s t flips) x).2 (.access (.mgmt a) 0 (readPadBytes (touchBanks (upset s t flips) t (x.boff / 4) ((x.boff + x.len + 3) / 4 - x.boff / 4)) t x.boff x.len x.ctx).1))) ∧
    (∀ (a : Agent) (c : Option CtxId) (t : TileId) (b len : Nat) (flips : List (Nat × Nat)) (x : SpAcc) (s : State),
      len ≠ 0 →
      x = { tile := t, boff := b, len := len, op := .rdTake, req := .mgmt a, ctx := c.map (fun y => y.val), data := [] } →
      (c.isNone && padDenied (upset s t flips) a t x.boff x.len (opWrites x.op)) = false →
      regionCheck (upset s t flips) x = none →
      mustHold (upset s t flips) x = false →
      tagAt (upset s t flips) t (x.boff / 4) = { full := true, comp := false } →
      slotWaiters (upset s t flips) t x.boff false = [] →
      exec (.scratchpadRead a c t b len 3 flips) s = .next (emit (perform (upset s t flips) x).2 (.access (.mgmt a) 0 (readPadBytes (touchBanks (upset s t flips) t (x.boff / 4) ((x.boff + x.len + 3) / 4 - x.boff / 4)) t x.boff x.len x.ctx).1))) ∧
    (∀ (a : Agent) (c : Option CtxId) (t : TileId) (b : Nat) (data : List Byte) (flips : List (Nat × Nat)) (x : SpAcc) (s : State),
      data ≠ [] →
      x = { tile := t, boff := b, len := data.length, op := .wr, req := .mgmt a, ctx := c.map (fun y => y.val), data := data.map some } →
      (c.isNone && padDenied (upset s t flips) a t x.boff x.len (opWrites x.op)) = false →
      regionCheck (upset s t flips) x = none →
      mustHold (upset s t flips) x = false →
      exec (.scratchpadWrite a c t b data 1 flips) s = .next (emit (perform (upset s t flips) x).2 (.access (.mgmt a) 0 []))) ∧
    (∀ (a : Agent) (c : Option CtxId) (t : TileId) (b : Nat) (data : List Byte) (flips : List (Nat × Nat)) (x : SpAcc) (s : State),
      data ≠ [] →
      x = { tile := t, boff := b, len := data.length, op := .wrFill, req := .mgmt a, ctx := c.map (fun y => y.val), data := data.map some } →
      (c.isNone && padDenied (upset s t flips) a t x.boff x.len (opWrites x.op)) = false →
      regionCheck (upset s t flips) x = none →
      mustHold (upset s t flips) x = false →
      tagAt (upset s t flips) t (x.boff / 4) = { full := false, comp := true } →
      slotWaiters (upset s t flips) t x.boff true = [] →
      exec (.scratchpadWrite a c t b data 4 flips) s = .next (emit (perform (upset s t flips) x).2 (.access (.mgmt a) 0 []))) ∧
    (∀ (a : Agent) (c : Option CtxId) (t : TileId) (b : Nat) (data : List Byte) (flips : List (Nat × Nat)) (x : SpAcc) (s : State),
      data ≠ [] →
      x = { tile := t, boff := b, len := data.length, op := .clrTag, req := .mgmt a, ctx := c.map (fun y => y.val), data := data.map some } →
      (c.isNone && padDenied (upset s t flips) a t x.boff x.len (opWrites x.op)) = false →
      regionCheck (upset s t flips) x = none →
      mustHold (upset s t flips) x = false →
      exec (.scratchpadWrite a c t b data 5 flips) s = .next (emit (perform (upset s t flips) x).2 (.access (.mgmt a) 0 []))) ∧
    (∀ (a : Agent) (c : Option CtxId) (t : TileId) (w n : Nat) (x : SpAcc) (s : State),
      x = wordsAcc a c t w n .rd [] →
      (c.isNone && padDenied s a t x.boff x.len (opWrites x.op)) = false →
      regionCheck s x = none →
      mustHold s x = false →
      exec (.spRd a c t w n none) s = .next (emit (perform s x).2 (.access (.mgmt a) 0 (readPadBytes (touchBanks s t (x.boff / 4) ((x.boff + x.len + 3) / 4 - x.boff / 4)) t x.boff x.len x.ctx).1))) ∧
    (∀ (a : Agent) (c : Option CtxId) (t : TileId) (w n : Nat) (x : SpAcc) (s : State),
      x = wordsAcc a c t w n .rdFull [] →
      (c.isNone && padDenied s a t x.boff x.len (opWrites x.op)) = false →
      regionCheck s x = none →
      mustHold s x = false →
      tagAt s t (x.boff / 4) = { full := true, comp := false } →
      slotWaiters s t x.boff false = [] →
      exec (.spRdFull a c t w n) s = .next (emit (perform s x).2 (.access (.mgmt a) 0 (readPadBytes (touchBanks s t (x.boff / 4) ((x.boff + x.len + 3) / 4 - x.boff / 4)) t x.boff x.len x.ctx).1))) ∧
    (∀ (a : Agent) (c : Option CtxId) (t : TileId) (w n : Nat) (x : SpAcc) (s : State),
      x = wordsAcc a c t w n .rdTake [] →
      (c.isNone && padDenied s a t x.boff x.len (opWrites x.op)) = false →
      regionCheck s x = none →
      mustHold s x = false →
      tagAt s t (x.boff / 4) = { full := true, comp := false } →
      slotWaiters s t x.boff false = [] →
      exec (.spRdTake a c t w n) s = .next (emit (perform s x).2 (.access (.mgmt a) 0 (readPadBytes (touchBanks s t (x.boff / 4) ((x.boff + x.len + 3) / 4 - x.boff / 4)) t x.boff x.len x.ctx).1))) ∧
    (∀ (a : Agent) (c : Option CtxId) (t : TileId) (w : Nat) (data : List W32) (x : SpAcc) (s : State),
      x = wordsAcc a c t w data.length .wr (wordBytes (data.map (fun y => y.toNat))) →
      (c.isNone && padDenied s a t x.boff x.len (opWrites x.op)) = false →
      regionCheck s x = none →
      mustHold s x = false →
      exec (.spWr a c t w data none) s = .next (emit (perform s x).2 (.access (.mgmt a) 0 []))) ∧
    (∀ (a : Agent) (c : Option CtxId) (t : TileId) (w : Nat) (data : List W32) (x : SpAcc) (s : State),
      x = wordsAcc a c t w data.length .wrFill (wordBytes (data.map (fun y => y.toNat))) →
      (c.isNone && padDenied s a t x.boff x.len (opWrites x.op)) = false →
      regionCheck s x = none →
      mustHold s x = false →
      tagAt s t (x.boff / 4) = { full := false, comp := true } →
      slotWaiters s t x.boff true = [] →
      exec (.spWrFill a c t w data) s = .next (emit (perform s x).2 (.access (.mgmt a) 0 []))) ∧
    (∀ (a : Agent) (c : Option CtxId) (t : TileId) (w n : Nat) (x : SpAcc) (s : State),
      x = wordsAcc a c t w n .clrTag [] →
      (c.isNone && padDenied s a t x.boff x.len (opWrites x.op)) = false →
      regionCheck s x = none →
      mustHold s x = false →
      exec (.spClrTag a c t w n) s = .next (emit (perform s x).2 (.access (.mgmt a) 0 []))) ∧
    (∀ (a : Agent) (c : Option CtxId) (t : TileId) (i : Instr) (x : SpAcc) (u s : State),
      padAccess i a c t s = some (x, u) →
      (c.isNone && padDenied u a t x.boff x.len (opWrites x.op)) = false →
      regionCheck u x = none →
      mustHold u x = false →
      opTagged x.op = true →
      x.op ≠ .clrTag →
      tagBad (tagAt u t (x.boff / 4)) = false →
      (tagReady (tagAt u t (x.boff / 4)) x.op = false ∨ slotWaiters u t x.boff (x.op == .wrFill) ≠ []) →
      exec i s = .next (addWaiter u x)) ∧
    (∀ (a : Agent) (c : Option CtxId) (t : TileId) (i : Instr) (x : SpAcc) (u s : State),
      padAccess i a c t s = some (x, u) →
      (c.isNone && padDenied u a t x.boff x.len (opWrites x.op)) = false →
      regionCheck u x = none →
      mustHold u x = true →
      exec i s = .next { u with pad := { u.pad with heldAcc := u.pad.heldAcc ++ [{ acc := x, circ := none }] } }) ∧
    (∀ (a : Agent) (c : Option CtxId) (t : TileId) (i : Instr) (x : SpAcc) (code : Nat) (u s : State),
      padAccess i a c t s = some (x, u) →
      (c.isNone && padDenied u a t x.boff x.len (opWrites x.op)) = false →
      regionCheck u x = some code →
      exec i s = .next (emit (accessFailed u x code) (.access (.mgmt a) code []))) ∧
    (∀ (a : Agent) (c : Option CtxId) (t : TileId) (i : Instr) (x : SpAcc) (u s : State),
      padAccess i a c t s = some (x, u) →
      (c.isNone && padDenied u a t x.boff x.len (opWrites x.op)) = true →
      exec i s = .next (emit (denied u (spPage t)) (.access (.mgmt a) 0x0A05 [])))

/-- An agent with access to the tile reads and writes a circular region through its pointers, and waiting accesses of the region are served after it; an accepted write of CIRC_CFG, of a region register, of RES_CTX, of SP_CTRL and of BANK_PWR has the effect its rule gives. -/
def Obligations.CircularAccesses : Prop :=
    (∀ (a : Agent) (t : TileId) (n : Fin 4) (data : List W32) (x : SpAcc) (s : State),
      padDenied s a t 0 0 false = false →
      x = { tile := t, boff := 0, len := 4 * data.length, op := .wr, req := .mgmt a, ctx := none, data := (fitBytes (4 * data.length) (wordBytes (data.map (fun w => w.toNat)))).map some } →
      exec (.circWrite a t n data) s = .next (circServe t n (s.pad.heldAcc.length + 1) (circAccess s x n))) ∧
    (∀ (a : Agent) (t : TileId) (n : Fin 4) (k : Nat) (x : SpAcc) (s : State),
      padDenied s a t 0 0 false = false →
      x = { tile := t, boff := 0, len := 4 * k, op := .rd, req := .mgmt a, ctx := none, data := (fitBytes (4 * k) []).map some } →
      exec (.circRead a t n k) s = .next (circServe t n (s.pad.heldAcc.length + 1) (circAccess s x n))) ∧
    (∀ (a : Agent) (t : TileId) (mode : Fin 4) (s : State),
      writeOk s a (spReg t 0x100) (BitVec.ofNat 64 mode) = true →
      exec (.modeChange a t mode) s = .next (modeWrite s t (merged s (spReg t 0x100) 3 (BitVec.ofNat 64 mode)))) ∧
    (∀ (a : Agent) (t : TileId) (r : Fin 8) (v : W64) (s : State),
      writeOk s a (spReg t (0x140 + 8 * r.val)) v = true →
      exec (.resCtxSet a t r v) s = .next (bindWrite s t r v (a == .hornbeam))) ∧
    (∀ (a : Agent) (t : TileId) (r : Fin 8) (j : Fin 16) (k : Fin 3) (v : W64) (s : State),
      writeOk s a (rgnReg t r j k) v = true →
      exec (.rgnWriteReg a t r j k v) s = .next (noteDebugRegion (rgnWrite s t r j k v) t r)) ∧
    (∀ (a : Agent) (t : TileId) (n : Fin 4) (v : W64) (s : State),
      writeOk s a (circReg t n 0) v = true →
      exec (.circCfgSet a t n v) s = .next (circCfgWrite s t n v)) ∧
    (∀ (a : Agent) (t : TileId) (v : W64) (s : State),
      writeOk s a (spReg t 0x120) v = true →
      exec (.bankPwrSet a t v) s = .next (bankPwrWrite s t (merged s (spReg t 0x120) (2 ^ (2 * tileBanks t) - 1) v)))

/-- A corrected unit is written back; a scrub row whose bank is ON is swept and the pass moves on, one whose bank is in RET wakes it, and one whose bank is OFF ends the pass when it is the last; a pass begins at its time and is late once; tags being set EMPTY are set and what waited on them is tried again; waiters of a slot are served and a waiter at the port enters the table; a bank wakes, is retained, is lost or returns when its time and its user allow. Nothing else changes. -/
def Obligations.ScratchpadUpkeep : Prop :=
    (∀ (t : TileId) (w : Nat) (b : WriteBack) (s : State),
      s.pad.writeBacks.find? (fun b => b.tile == t.val && b.word == w && bankState s t (bankOf t w) == 0) = some b →
      exec (.writeBack t w) s = .next (storeUnit { s with pad := { s.pad with writeBacks := s.pad.writeBacks.erase b } } t b.word b.weight b.data)) ∧
    (∀ (t : TileId) (flips : List (Nat × Nat)) (u s : State),
      passOf s t ≠ 0 →
      rdB s (spReg t 0x110) 0 = true →
      padYields s t = false →
      u = upset s t flips →
      bankState u t (bankOf t (rdF u (spReg t 0x118) 0 17)) = 1 →
      exec (.scrubRow t flips) s = .next (scrubWake u t (bankOf t (rdF u (spReg t 0x118) 0 17)))) ∧
    (∀ (t : TileId) (flips : List (Nat × Nat)) (u s : State),
      passOf s t ≠ 0 →
      rdB s (spReg t 0x110) 0 = true →
      padYields s t = false →
      u = upset s t flips →
      bankState u t (bankOf t (rdF u (spReg t 0x118) 0 17)) = 0 →
      rdF u (spReg t 0x118) 0 17 + rowWords t < tileWords t →
      exec (.scrubRow t flips) s = .next (
      wrF (scrubRow u t (rdF u (spReg t 0x118) 0 17)) (spReg t 0x118) 0 17 (rdF u (spReg t 0x118) 0 17 + rowWords t))) ∧
    (∀ (t : TileId) (flips : List (Nat × Nat)) (u s : State),
      passOf s t ≠ 0 →
      rdB s (spReg t 0x110) 0 = true →
      padYields s t = false →
      u = upset s t flips →
      bankState u t (bankOf t (rdF u (spReg t 0x118) 0 17)) = 2 →
      tileWords t ≤ rdF u (spReg t 0x118) 0 17 + rowWords t →
      exec (.scrubRow t flips) s = .next (endPass u t)) ∧
    (∀ (t : TileId) (s : State),
      passOf s t = 0 →
      now s % scrubPeriod s t = 0 →
      mapGet (fun _ => 0) s.pad.passAt t ≠ now s + 1 →
      exec (.scrubPassStart t) s = .next (beginPass s t)) ∧
    (∀ (t : TileId) (s : State),
      passOf s t ≠ 0 →
      rdB s (spReg t 0x118) 17 = false →
      passOf s t * (rdF s (spReg t 0x110) 16 9 * 1000000000) ≤ now s →
      exec (.scrubLate t) s = .next (report (wrB s (spReg t 0x118) 17 true) (spPage t) 0x040D)) ∧
    (∀ (t : TileId) (r : Fin 8) (j : Fin 16) (g : Rgn) (s1 s : State),
      s.pad.tagInit.contains (t.val, r.val * 16 + j.val) = true →
      s1 = { s with pad := { s.pad with tagInit := s.pad.tagInit.filter (fun x => x != (t.val, r.val * 16 + j.val)) } } →
      rgnAt s1 t r j = some g →
      exec (.tagInitComplete t r j) s = .next (
      let s2 := each (List.range ((g.limit - g.base) / g.slotWords)) (fun u i => setTag u t (g.base + i * g.slotWords) false) s1
      retryHeld (wrB s2 (spReg t 0x108) 1 (s2.pad.tagInit.any (fun x => x.1 == t.val))) t)) ∧
    (∀ (t : TileId) (w : Nat) (x : Waiter) (s : State),
      tagBad (tagAt s t w) = false →
      (slotWaiters s t (4 * w) (!(tagAt s t w).full)).head? = some x →
      (tagAt s t w).full = false →
      exec (.waiterServed t w) s = .next (serveWaiter s x)) ∧
    (∀ (t : TileId) (b : Fin 32) (x : Waiter) (s : State),
      s.pad.waiters.find? (fun x => x.atPort && x.acc.tile == t.val && bankOf t (x.acc.boff / 4) == b.val) = some x →
      (bankWaiters s t b).length < 64 →
      exec (.waiterTableRoom t b) s = .next (retryAccess (waitSteps { s with pad := { s.pad with waiters := s.pad.waiters.erase x } } t 0x0D0 x.since) x.acc)) ∧
    (∀ (t : TileId) (b : Fin 32) (s : State),
      b.val < tileBanks t →
      bankState s t b = 3 →
      exec (.bankStateReached t b) s = .next (each (List.range 4) (fun u n => circServe t n (u.pad.heldAcc.length + 1) u)
      (retryHeld (if bankAsked s t b = 0 then setBankState s t b 0 else setWakeEnd (setBankState s t b 0) t b (now s + 4000)) t))) ∧
    (∀ (t : TileId) (b : Fin 32) (s : State),
      b.val < tileBanks t →
      bankState s t b ≠ 2 →
      bankState s t b ≠ 3 →
      bankAsked s t b = 2 →
      bankMapped s t b = false →
      exec (.bankStateReached t b) s = .next (loseBank (setBankState s t b 2) t b)) ∧
    (∀ (t : TileId) (b : Fin 32) (s : State),
      b.val < tileBanks t →
      (bankState s t b = 2 ∨ (bankState s t b = 0 ∧ wakeEndOf s t b = 0)) →
      bankAsked s t b = 1 →
      exec (.bankStateReached t b) s = .next (setBankState s t b 1)) ∧
    (∀ (t : TileId) (b : Fin 32) (s : State),
      bankState s t b = 1 →
      bankWanted s t b = true →
      clusterPower s (clusterOf t) ≤ 1 →
      exec (.bankWake t b) s = .next (incSat (setBankState s t b 3) (spReg t 0x0B0))) ∧
    (∀ (t : TileId) (b : Fin 32) (s : State),
      bankState s t b = 0 →
      bankAsked s t b = 1 →
      wakeEndOf s t b ≠ 0 →
      wakeEndOf s t b ≤ now s →
      exec (.bankIdleReturn t b) s = .next (setBankState (setWakeEnd s t b 0) t b 1))

/-- An accepted write of Q_CMD opens a queue whose ring is well placed, drains, closes or resets it; one of Q_GRANT that fits performs the grant; QD_RING is written while the queue is RESET or CLOSED, HS_DATA reads and writes a word and advances HS_ADDR, and HS_BOUND and HT are written while their slot is unbound. Nothing else changes. -/
def Obligations.QueueRegisters : Prop :=
    (∀ (a : Agent) (t : TileId) (q : QueueId) (c : CtxId) (s : State),
      writeOk s a (qctl t 0x108) (BitVec.ofNat 64 (place 8 3 1 + q.val + place 11 8 c.val)) = true →
      qSound s t q = true →
      (qState s t q = 0 ∨ qState s t q = 3) →
      revoking s t q = false →
      ringPlaced s t q c (a == .hornbeam) = true →
      exec (.qOpen a t q c) s = .next (
      restart (wrG (wrG (wrG (dropPlan s t q) (qdReg t q 1) (place 8 8 c.val + place 4 4 (qEpoch (dropPlan s t q) t q + 1) + 1)) (qdReg t q 2) 0) (qdReg t q 3) 0) c)) ∧
    (∀ (a : Agent) (t : TileId) (q : QueueId) (s : State),
      writeOk s a (qctl t 0x108) (BitVec.ofNat 64 (place 8 3 2 + q.val)) = true →
      qSound s t q = true →
      qState s t q = 1 →
      exec (.qDrain a t q) s = .next (drainDone (setQState s t q 2) t q)) ∧
    (∀ (a : Agent) (t : TileId) (q : QueueId) (s : State),
      writeOk s a (qctl t 0x108) (BitVec.ofNat 64 (place 8 3 3 + q.val)) = true →
      qSound s t q = true →
      (qState s t q = 1 ∨ qState s t q = 2) →
      exec (.qClose a t q) s = .next (closeQueue s t q)) ∧
    (∀ (a : Agent) (t : TileId) (q : QueueId) (s : State),
      writeOk s a (qctl t 0x108) (BitVec.ofNat 64 (place 8 3 4 + q.val)) = true →
      qSound s t q = true →
      qState s t q ≠ 0 →
      exec (.qReset a t q) s = .next (resetQueue s t q true)) ∧
    (∀ (a : Agent) (t : TileId) (q : QueueId) (dev : Fin 32768) (tile : Fin 8192) (n : Fin 131072) (s : State),
      writeOk s a (qctl t 0x110) (BitVec.ofNat 64 (place 44 17 n.val + place 36 8 q.val + place 13 15 dev.val + tile.val)) = true →
      (grant s t q dev tile n none).1 = true →
      exec (.qGrant a t q dev tile n) s = .next (notePlan (grant s t q dev tile n none).2 t q dev tile n)) ∧
    (∀ (a : Agent) (t : TileId) (q : QueueId) (v : W64) (s : State),
      writeOk s a (qdReg t q 0) v = true →
      (qState s t q = 0 ∨ qState s t q = 3) →
      exec (.qdRingWrite a t q v) s = .next (wr s (qdReg t q 0) (merged s (qdReg t q 0) 0xFFFFFFFFFFFF v))) ∧
    (∀ (a : Agent) (t : TileId) (s : State),
      readOk s a (qctl t 0x148) = true →
      exec (.hsDataAccess a t none) s = .next (emit (advance s (qctl t 0x140) 13 8192) (.regRead a 0 (BitVec.ofNat 64 (hsWord s t (rdF s (qctl t 0x140) 0 13)))))) ∧
    (∀ (a : Agent) (t : TileId) (v : W64) (s : State),
      writeOk s a (qctl t 0x148) v = true →
      hsOwners s t (rdF s (qctl t 0x140) 0 13) = [] →
      exec (.hsDataAccess a t (some v)) s = .next (advance (setHsWord s t (rdF s (qctl t 0x140) 0 13) (fieldOf v 0 32)) (qctl t 0x140) 13 8192)) ∧
    (∀ (a : Agent) (t : TileId) (r : Fin 8) (v : W64) (s : State),
      writeOk s a (qctl t (0x180 + 0x10 * r.val)) v = true →
      slotBound s t r = false →
      fieldOf v 0 13 < fieldOf v 14 14 →
      fieldOf v 14 14 ≤ 8192 →
      exec (.hsBoundSet a t r false v) s = .next (wr s (qctl t (0x180 + 0x10 * r.val)) v)) ∧
    (∀ (a : Agent) (t : TileId) (r : Fin 8) (v : W64) (s : State),
      writeOk s a (qctl t (0x188 + 0x10 * r.val)) v = true →
      slotBound s t r = false →
      (hsBound s t r).1 + fieldOf v 0 13 + fieldOf v 13 11 ≤ (hsBound s t r).2 →
      exec (.hsBoundSet a t r true v) s = .next (wr s (qctl t (0x188 + 0x10 * r.val)) v))

/-- A send with credit takes the credit and hands the message to the mesh, one without enough waits, one with no entry fails; a waiting send goes when credit suffices; a message that passes every check is enqueued, one of a stale epoch is discarded, one of another credit epoch is refused with its record; grants, bounces, returns, revokes and their acknowledgements change the tables; the reader due to release the message at HEAD reaches END or GET, and a stale token at HEAD is dropped. Nothing else changes. -/
def Obligations.MessageTraffic : Prop :=
    (∀ (u : Fin 4610) (q : QueueId) (c : CtxId) (dst handler vc : Nat) (pay : List Byte) (m : Msg) (e : Nat × Credit) (s : State),
      u.val < 4608 →
      mayRun s u c = true →
      m = buildMsg s u q c dst handler vc pay →
      s.q.sends.any (fun w => w.unit == u.val && w.sender == .block) = false →
      findCredit s u dst c = some e →
      guardOk e.2.cred = true →
      hdrSlots m.hdr ≤ e.2.slots →
      exec (.messageSend u q c dst handler vc pay) s = .next (sendNow s u q .block e m)) ∧
    (∀ (u : Fin 4610) (q : QueueId) (c : CtxId) (dst handler vc : Nat) (pay : List Byte) (m : Msg) (e : Nat × Credit) (s : State),
      u.val = unitHornbeam →
      hbSends s c = true →
      m = buildMsg s u q c dst handler vc pay →
      s.q.sends.any (fun w => w.unit == u.val && w.sender == .block) = false →
      findCredit s u dst c = some e →
      guardOk e.2.cred = true →
      e.2.slots < hdrSlots m.hdr →
      exec (.messageSend u q c dst handler vc pay) s = .next (waitSend s u q .block m)) ∧
    (∀ (u : Fin 4610) (q : QueueId) (c : CtxId) (dst handler vc : Nat) (pay : List Byte) (m : Msg) (s : State),
      u.val = unitGorbin →
      gbSends s c = true →
      m = buildMsg s u q c dst handler vc pay →
      s.q.sends.any (fun w => w.unit == u.val && w.sender == .block) = false →
      findCredit s u dst c = none →
      exec (.messageSend u q c dst handler vc pay) s = .next (sendFailed s u q 0xB false m.hdr)) ∧
    (∀ (i : Nat) (w : SendWait) (e : Nat × Credit) (u s : State),
      s.q.sends[i]? = some w →
      (w.unit < 4608 → mayRun s w.unit w.msg.hdr.context = true) →
      (s.q.sends.take i).any (fun x => x.unit == w.unit && x.sender == w.sender) = false →
      u = { s with q := { s.q with sends := s.q.sends.erase w } } →
      findCredit s w.unit w.msg.hdr.dst w.msg.hdr.context = some e →
      guardOk e.2.cred = true →
      hdrSlots w.msg.hdr ≤ e.2.slots →
      exec (.creditAvailable i) s = .next (
      resumeSender (sendNow (if w.unit < 4608 then qCount u w.unit w.queue 4 ((now s - w.since) / 16) else u) w.unit w.queue w.sender e w.msg) w)) ∧
    (∀ (t : TileId) (m : Msg) (q c : Nat) (v u s : State),
      q = epQueue m.hdr.dst →
      c = m.hdr.context →
      (t = 1 && q = 0xFE) = false →
      takeEjected s t (.msg m) = some v →
      arrivalBusy s t m = false →
      u = { v with q := { v.q with fromNack := v.q.fromNack.erase (unlinked m.hdr) } } →
      tileFenced u t = false →
      tileInReset u t = false →
      malformed m.hdr = false →
      epochMatches u t c m.hdr.ctxEpoch = true →
      qSound u t q = true →
      qEpoch u t q = m.hdr.creditEpoch →
      qState u t q = 1 →
      qOwner u t q = c →
      (qRead u t q = true ∨ (handlerEntry u t c m.hdr.handler).isSome = true) →
      qOcc u t q + roomNeeded u t q (hdrSlots m.hdr) ≤ qSize u t q →
      exec (.messageArrival t m) s = .next (enqueue (gbKnown u (fun h => h == unlinked m.hdr)) t q m)) ∧
    (∀ (t : TileId) (m : Msg) (v u s : State),
      (t = 1 && epQueue m.hdr.dst = 0xFE) = false →
      takeEjected s t (.msg m) = some v →
      arrivalBusy s t m = false →
      u = { v with q := { v.q with fromNack := v.q.fromNack.erase (unlinked m.hdr) } } →
      tileFenced u t = false →
      tileInReset u t = false →
      malformed m.hdr = false →
      epochMatches u t m.hdr.context m.hdr.ctxEpoch = false →
      exec (.messageArrival t m) s = .next (staleDiscard u t (epQueue m.hdr.dst) m.hdr.context m)) ∧
    (∀ (t : TileId) (m : Msg) (v u s : State),
      (t = 1 && epQueue m.hdr.dst = 0xFE) = false →
      takeEjected s t (.msg m) = some v →
      arrivalBusy s t m = false →
      u = { v with q := { v.q with fromNack := v.q.fromNack.erase (unlinked m.hdr) } } →
      tileFenced u t = false →
      tileInReset u t = false →
      malformed m.hdr = false →
      epochMatches u t m.hdr.context m.hdr.ctxEpoch = true →
      qSound u t (epQueue m.hdr.dst) = true →
      qEpoch u t (epQueue m.hdr.dst) ≠ m.hdr.creditEpoch →
      exec (.messageArrival t m) s = .next (queueRec (refuse v t 0x4 m) t (epQueue m.hdr.dst) 0x0503 m.hdr.context)) ∧
    (∀ (t : TileId) (p : Ctrl) (u s : State),
      takeEjected s t (.ctrl p) = some u →
      p.type = 0x03 →
      exec (.nackArrival t p) s = .next (nackArrives u (unitAt u t (hdrOf (p.words.drop 1)).context) (p.words.getD 0 0 % 16) (hdrOf (p.words.drop 1)))) ∧
    (∀ (t : TileId) (p : Ctrl) (u v s : State),
      takeEjected s t (.ctrl p) = some u →
      p.type = 0x01 →
      isBounce p = false →
      takeGrant u (unitAt u t p.context) (ctrlEp p) p.context (ctrlEpoch p) (ctrlSlots p) = (false, v) →
      exec (.grantPacketArrival t p) s = .next v) ∧
    (∀ (t : TileId) (p : Ctrl) (u v s : State),
      takeEjected s t (.ctrl p) = some u →
      p.type = 0x01 →
      isBounce p = false →
      takeGrant u (unitAt u t p.context) (ctrlEp p) p.context (ctrlEpoch p) (ctrlSlots p) = (true, v) →
      (unitAt u t p.context ≠ p.srcTile ∨ p.srcDev ≠ deviceId u) →
      exec (.grantPacketArrival t p) s = .next (
      inject v t (.ctrl { p with dstDev := p.srcDev, dstTile := p.srcTile, srcDev := deviceId u, srcTile := if unitAt u t p.context < 4608 then unitAt u t p.context else 0x1FFF }))) ∧
    (∀ (t : TileId) (p : Ctrl) (u s : State),
      takeEjected s t (.ctrl p) = some u →
      p.type = 0x01 →
      isBounce p = true →
      exec (.grantBounce t p) s = .next (withdrawGrant u t p)) ∧
    (∀ (t : TileId) (p : Ctrl) (u s : State),
      takeEjected s t (.ctrl p) = some u →
      p.type = 0x02 →
      exec (.returnArrival t p) s = .next (returnCredit u (unitAt u t p.context) (ctrlEp p) p.context (ctrlEpoch p) (ctrlSlots p))) ∧
    (∀ (t : TileId) (p : Ctrl) (u s : State),
      takeEjected s t (.ctrl p) = some u →
      p.type = 0x04 →
      exec (.revokeArrival t p) s = .next (upReply (revokeEntries u (unitAt u t p.context) (ctrlEp p)) t p 0x05 [1])) ∧
    (∀ (root : TileId) (p : Ctrl) (t : TileId) (q : QueueId) (u s : State),
      s.q.revokes.contains (t.val, q.val, p.context) = true →
      p.group = rdF s (csCtx p.context 0x190) 24 12 →
      p.round = q.val →
      takeEjected s root (.ctrl p) = some u →
      p.type = 0x05 →
      exec (.revokeAckComplete root p t q) s = .next (revokeDone u t q p.context)) ∧
    (∀ (t : TileId) (q : QueueId) (s : State),
      (qState s t q = 1 ∨ qState s t q = 2) →
      qSound s t q = true →
      threadsOn s t q = [] →
      headOf s t q = .stale →
      exec (.messageRelease t q) s = .next (dropStale s t q)) ∧
    (∀ (t : TileId) (q : QueueId) (n : Nat) (l : List Nat) (s : State),
      (qState s t q = 1 ∨ qState s t q = 2) →
      qSound s t q = true →
      threadsOn s t q = n :: l →
      exec (.messageRelease t q) s = .next (getOp (endOp s t n) t n))

/-- When a thread's next operation is one of LI, LUI, ADD, SUB, AND, OR, XOR, SHLI, SHRI, ADDI, MUL or STEP and another operation follows, it writes the named result to its register and moves on; no other thread, register of the device, memory byte or message changes. -/
def Obligations.HandlerArithmetic : Prop :=
    (∀ (t : TileId) (n : Fin 4) (h : Thread) (w : Nat) (s : State),
      ready s t n = some (h, w) →
      opOf w = 0x01 →
      h.pc < h.count →
      exec (.opLi t n) s = .next (movedOn s t n (setG h (opA w) (opSImm w)) (h.pc + 1))) ∧
    (∀ (t : TileId) (n : Fin 4) (h : Thread) (w : Nat) (s : State),
      ready s t n = some (h, w) →
      opOf w = 0x02 →
      h.pc < h.count →
      exec (.opLui t n) s = .next (movedOn s t n (setG h (opA w) (place 15 17 (fieldNat w 0 17) + gReg h (opA w) % 2 ^ 15)) (h.pc + 1))) ∧
    (∀ (t : TileId) (n : Fin 4) (h : Thread) (w : Nat) (s : State),
      ready s t n = some (h, w) →
      opOf w = 0x03 →
      h.pc < h.count →
      exec (.opAdd t n) s = .next (movedOn s t n (setG h (opA w) (gReg h (opB w) + gReg h (opC w))) (h.pc + 1))) ∧
    (∀ (t : TileId) (n : Fin 4) (h : Thread) (w : Nat) (s : State),
      ready s t n = some (h, w) →
      opOf w = 0x04 →
      h.pc < h.count →
      exec (.opSub t n) s = .next (movedOn s t n (setG h (opA w) (gReg h (opB w) + 2 ^ 32 - gReg h (opC w))) (h.pc + 1))) ∧
    (∀ (t : TileId) (n : Fin 4) (h : Thread) (w : Nat) (s : State),
      ready s t n = some (h, w) →
      opOf w = 0x05 →
      h.pc < h.count →
      exec (.opAnd t n) s = .next (movedOn s t n (setG h (opA w) (gReg h (opB w) &&& gReg h (opC w))) (h.pc + 1))) ∧
    (∀ (t : TileId) (n : Fin 4) (h : Thread) (w : Nat) (s : State),
      ready s t n = some (h, w) →
      opOf w = 0x06 →
      h.pc < h.count →
      exec (.opOr t n) s = .next (movedOn s t n (setG h (opA w) (gReg h (opB w) ||| gReg h (opC w))) (h.pc + 1))) ∧
    (∀ (t : TileId) (n : Fin 4) (h : Thread) (w : Nat) (s : State),
      ready s t n = some (h, w) →
      opOf w = 0x07 →
      h.pc < h.count →
      exec (.opXor t n) s = .next (movedOn s t n (setG h (opA w) (gReg h (opB w) ^^^ gReg h (opC w))) (h.pc + 1))) ∧
    (∀ (t : TileId) (n : Fin 4) (h : Thread) (w : Nat) (s : State),
      ready s t n = some (h, w) →
      opOf w = 0x08 →
      h.pc < h.count →
      exec (.opShli t n) s = .next (movedOn s t n (setG h (opA w) (gReg h (opB w) <<< (opImm w % 32))) (h.pc + 1))) ∧
    (∀ (t : TileId) (n : Fin 4) (h : Thread) (w : Nat) (s : State),
      ready s t n = some (h, w) →
      opOf w = 0x09 →
      h.pc < h.count →
      exec (.opShri t n) s = .next (movedOn s t n (setG h (opA w) (gReg h (opB w) >>> (opImm w % 32))) (h.pc + 1))) ∧
    (∀ (t : TileId) (n : Fin 4) (h : Thread) (w : Nat) (s : State),
      ready s t n = some (h, w) →
      opOf w = 0x0a →
      h.pc < h.count →
      exec (.opAddi t n) s = .next (movedOn s t n (setG h (opA w) (gReg h (opB w) + opSImm w)) (h.pc + 1))) ∧
    (∀ (t : TileId) (n : Fin 4) (h : Thread) (w : Nat) (s : State),
      ready s t n = some (h, w) →
      opOf w = 0x0b →
      h.pc < h.count →
      exec (.opMul t n) s = .next (movedOn s t n (setG h (opA w) (gReg h (opB w) * gReg h (opC w))) (h.pc + 1))) ∧
    (∀ (t : TileId) (n : Fin 4) (h : Thread) (w : Nat) (s : State),
      ready s t n = some (h, w) →
      opOf w = 0x1e →
      h.pc < h.count →
      exec (.opStep t n) s = .next (movedOn s t n (setG h (opA w) (stepOf s h.ctx % 2 ^ 32)) (h.pc + 1)))

/-- LDP, STO and MOVPO move words between the message, the outbound buffer and registers; a branch goes to its target or to the next operation; a scratchpad operation that its region allows is performed once; SEND, REPLY and GRANT hand their packets on, GET takes the next message, FENCE waits for the thread's packets and END frees the thread and releases its message. An LDP of a word outside the message stops the thread. -/
def Obligations.HandlerOperations : Prop :=
    (∀ (t : TileId) (n : Fin 4) (h : Thread) (w : Nat) (s : State),
      ready s t n = some (h, w) →
      opOf w = 0x0c →
      h.pc < h.count →
      gReg h (opB w) + opImm w < pWords h →
      exec (.opLdp t n) s = .next (movedOn s t n (setG h (opA w) (pWord h (gReg h (opB w) + opImm w))) (h.pc + 1))) ∧
    (∀ (t : TileId) (n : Fin 4) (h : Thread) (w : Nat) (s : State),
      ready s t n = some (h, w) →
      opOf w = 0x0c →
      h.pc < h.count →
      pWords h ≤ gReg h (opB w) + opImm w →
      exec (.opLdp t n) s = .next (handlerFault s t n)) ∧
    (∀ (t : TileId) (n : Fin 4) (h : Thread) (w : Nat) (s : State),
      ready s t n = some (h, w) →
      opOf w = 0x0d →
      h.pc < h.count →
      gReg h (opB w) + opImm w < 250 →
      exec (.opSto t n) s = .next (movedOn s t n (setO h (gReg h (opB w) + opImm w) (gReg h (opA w))) (h.pc + 1))) ∧
    (∀ (t : TileId) (n : Fin 4) (h : Thread) (w : Nat) (s : State),
      ready s t n = some (h, w) →
      opOf w = 0x16 →
      h.pc < h.count →
      1 ≤ opImm w →
      opImm w ≤ 250 →
      gReg h (opA w) + opImm w ≤ pWords h →
      gReg h (opB w) + opImm w ≤ 250 →
      exec (.opMovpo t n) s = .next (movedOn s t n (setOs h (gReg h (opB w)) ((List.range (opImm w)).map (fun i => pWord h (gReg h (opA w) + i)))) (h.pc + 1))) ∧
    (∀ (t : TileId) (n : Fin 4) (h : Thread) (w : Nat) (s : State),
      ready s t n = some (h, w) →
      opOf w = 0x17 →
      opImm w ≠ 0 →
      h.pc + 1 + opImm w ≤ h.count →
      gReg h (opA w) = gReg h (opB w) →
      exec (.opBeq t n) s = .next (movedOn s t n h (h.pc + 1 + opImm w))) ∧
    (∀ (t : TileId) (n : Fin 4) (h : Thread) (w : Nat) (s : State),
      ready s t n = some (h, w) →
      opOf w = 0x17 →
      opImm w ≠ 0 →
      h.pc + 1 + opImm w ≤ h.count →
      gReg h (opA w) ≠ gReg h (opB w) →
      exec (.opBeq t n) s = .next (movedOn s t n h (h.pc + 1))) ∧
    (∀ (t : TileId) (n : Fin 4) (h : Thread) (w : Nat) (s : State),
      ready s t n = some (h, w) →
      opOf w = 0x18 →
      opImm w ≠ 0 →
      h.pc + 1 + opImm w ≤ h.count →
      gReg h (opA w) ≠ gReg h (opB w) →
      exec (.opBne t n) s = .next (movedOn s t n h (h.pc + 1 + opImm w))) ∧
    (∀ (t : TileId) (n : Fin 4) (h : Thread) (w : Nat) (s : State),
      ready s t n = some (h, w) →
      opOf w = 0x18 →
      opImm w ≠ 0 →
      h.pc + 1 + opImm w ≤ h.count →
      gReg h (opA w) = gReg h (opB w) →
      exec (.opBne t n) s = .next (movedOn s t n h (h.pc + 1))) ∧
    (∀ (t : TileId) (n : Fin 4) (h : Thread) (w : Nat) (s : State),
      ready s t n = some (h, w) →
      opOf w = 0x19 →
      opImm w ≠ 0 →
      h.pc + 1 + opImm w ≤ h.count →
      gReg h (opA w) < gReg h (opB w) →
      exec (.opBltu t n) s = .next (movedOn s t n h (h.pc + 1 + opImm w))) ∧
    (∀ (t : TileId) (n : Fin 4) (h : Thread) (w : Nat) (s : State),
      ready s t n = some (h, w) →
      opOf w = 0x19 →
      opImm w ≠ 0 →
      h.pc + 1 + opImm w ≤ h.count →
      gReg h (opB w) ≤ gReg h (opA w) →
      exec (.opBltu t n) s = .next (movedOn s t n h (h.pc + 1))) ∧
    (∀ (t : TileId) (n : Fin 4) (h : Thread) (w : Nat) (x : Nat) (d : List (Option Byte)) (s : State),
      ready s t n = some (h, w) →
      opOf w = 0x0e →
      opBad s t h w = false →
      relative s t h.ctx (opC w) (gReg h (opB w) + opImm w) (opWords s t h w) = some x →
      (access s (wordAcc t x (opWords s t h w) (opAccess w) (.thread t n) h.ctx (opData s t h w))).1 = .ok d →
      exec (.opLd t n) s = .next (accessDone (access s (wordAcc t x (opWords s t h w) (opAccess w) (.thread t n) h.ctx (opData s t h w))).2 t n d)) ∧
    (∀ (t : TileId) (n : Fin 4) (h : Thread) (w : Nat) (x : Nat) (d : List (Option Byte)) (s : State),
      ready s t n = some (h, w) →
      opOf w = 0x0f →
      opBad s t h w = false →
      relative s t h.ctx (opC w) (gReg h (opB w) + opImm w) (opWords s t h w) = some x →
      (access s (wordAcc t x (opWords s t h w) (opAccess w) (.thread t n) h.ctx (opData s t h w))).1 = .ok d →
      exec (.opSt t n) s = .next (accessDone (access s (wordAcc t x (opWords s t h w) (opAccess w) (.thread t n) h.ctx (opData s t h w))).2 t n d)) ∧
    (∀ (t : TileId) (n : Fin 4) (h : Thread) (w : Nat) (x : Nat) (d : List (Option Byte)) (s : State),
      ready s t n = some (h, w) →
      opOf w = 0x10 →
      opBad s t h w = false →
      relative s t h.ctx (opC w) (gReg h (opB w) + opImm w) (opWords s t h w) = some x →
      (access s (wordAcc t x (opWords s t h w) (opAccess w) (.thread t n) h.ctx (opData s t h w))).1 = .ok d →
      exec (.opAadd t n) s = .next (accessDone (access s (wordAcc t x (opWords s t h w) (opAccess w) (.thread t n) h.ctx (opData s t h w))).2 t n d)) ∧
    (∀ (t : TileId) (n : Fin 4) (h : Thread) (w : Nat) (x : Nat) (d : List (Option Byte)) (s : State),
      ready s t n = some (h, w) →
      opOf w = 0x11 →
      opBad s t h w = false →
      relative s t h.ctx (opC w) (gReg h (opB w) + opImm w) (opWords s t h w) = some x →
      (access s (wordAcc t x (opWords s t h w) (opAccess w) (.thread t n) h.ctx (opData s t h w))).1 = .ok d →
      exec (.opCas t n) s = .next (accessDone (access s (wordAcc t x (opWords s t h w) (opAccess w) (.thread t n) h.ctx (opData s t h w))).2 t n d)) ∧
    (∀ (t : TileId) (n : Fin 4) (h : Thread) (w : Nat) (x : Nat) (d : List (Option Byte)) (s : State),
      ready s t n = some (h, w) →
      opOf w = 0x12 →
      opBad s t h w = false →
      relative s t h.ctx (opC w) (gReg h (opB w) + opImm w) (opWords s t h w) = some x →
      (access s (wordAcc t x (opWords s t h w) (opAccess w) (.thread t n) h.ctx (opData s t h w))).1 = .ok d →
      exec (.opFill t n) s = .next (accessDone (access s (wordAcc t x (opWords s t h w) (opAccess w) (.thread t n) h.ctx (opData s t h w))).2 t n d)) ∧
    (∀ (t : TileId) (n : Fin 4) (h : Thread) (w : Nat) (x : Nat) (d : List (Option Byte)) (s : State),
      ready s t n = some (h, w) →
      opOf w = 0x13 →
      opBad s t h w = false →
      relative s t h.ctx (opC w) (gReg h (opB w) + opImm w) (opWords s t h w) = some x →
      (access s (wordAcc t x (opWords s t h w) (opAccess w) (.thread t n) h.ctx (opData s t h w))).1 = .ok d →
      exec (.opTake t n) s = .next (accessDone (access s (wordAcc t x (opWords s t h w) (opAccess w) (.thread t n) h.ctx (opData s t h w))).2 t n d)) ∧
    (∀ (t : TileId) (n : Fin 4) (h : Thread) (w : Nat) (x : Nat) (d : List (Option Byte)) (s : State),
      ready s t n = some (h, w) →
      opOf w = 0x14 →
      opBad s t h w = false →
      relative s t h.ctx (opC w) (gReg h (opB w) + opImm w) (opWords s t h w) = some x →
      (access s (wordAcc t x (opWords s t h w) (opAccess w) (.thread t n) h.ctx (opData s t h w))).1 = .ok d →
      exec (.opPeek t n) s = .next (accessDone (access s (wordAcc t x (opWords s t h w) (opAccess w) (.thread t n) h.ctx (opData s t h w))).2 t n d)) ∧
    (∀ (t : TileId) (n : Fin 4) (h : Thread) (w : Nat) (x : Nat) (d : List (Option Byte)) (s : State),
      ready s t n = some (h, w) →
      opOf w = 0x15 →
      opBad s t h w = false →
      relative s t h.ctx (opC w) (gReg h (opB w) + opImm w) (opWords s t h w) = some x →
      (access s (wordAcc t x (opWords s t h w) (opAccess w) (.thread t n) h.ctx (opData s t h w))).1 = .ok d →
      exec (.opClrt t n) s = .next (accessDone (access s (wordAcc t x (opWords s t h w) (opAccess w) (.thread t n) h.ctx (opData s t h w))).2 t n d)) ∧
    (∀ (t : TileId) (n : Fin 4) (h : Thread) (w : Nat) (x : Nat) (s : State),
      ready s t n = some (h, w) →
      opOf w = 0x13 →
      opBad s t h w = false →
      relative s t h.ctx (opC w) (gReg h (opB w) + opImm w) (opWords s t h w) = some x →
      (access s (wordAcc t x (opWords s t h w) (opAccess w) (.thread t n) h.ctx (opData s t h w))).1 = .waiting →
      exec (.opTake t n) s = .next (setThread (access s (wordAcc t x (opWords s t h w) (opAccess w) (.thread t n) h.ctx (opData s t h w))).2 t n { h with wait := .tag, since := now s })) ∧
    (∀ (t : TileId) (n : Fin 4) (h : Thread) (w : Nat) (m : Msg) (u s : State),
      ready s t n = some (h, w) →
      opOf w = 0x1A →
      h.pc < h.count →
      opA w ≠ 15 →
      gReg h (opC w) ≤ 1000 →
      fieldNat (gReg h (opA w + 1)) 4 10 ≠ 0x3FF →
      m = buildMsg s t h.queue h.ctx (gReg h (opA w) + (fieldNat (gReg h (opA w + 1)) 0 4 <<< 32)) (fieldNat (gReg h (opA w + 1)) 4 10) (if (gReg h (opA w + 1)).testBit 14 then 3 else 2) (oBytes h (gReg h (opC w))) →
      trySend s t h.queue (.thread n) m = (.sent, u) →
      exec (.opSend t n) s = .next (movedOn u t n h (h.pc + 1))) ∧
    (∀ (t : TileId) (n : Fin 4) (h : Thread) (w : Nat) (m : Msg) (u s : State),
      ready s t n = some (h, w) →
      opOf w = 0x1A →
      h.pc < h.count →
      opA w ≠ 15 →
      gReg h (opC w) ≤ 1000 →
      fieldNat (gReg h (opA w + 1)) 4 10 ≠ 0x3FF →
      m = buildMsg s t h.queue h.ctx (gReg h (opA w) + (fieldNat (gReg h (opA w + 1)) 0 4 <<< 32)) (fieldNat (gReg h (opA w + 1)) 4 10) (if (gReg h (opA w + 1)).testBit 14 then 3 else 2) (oBytes h (gReg h (opC w))) →
      trySend s t h.queue (.thread n) m = (.wait, u) →
      exec (.opSend t n) s = .next (movedOn u t n { h with wait := .credit, since := now s } (h.pc + 1))) ∧
    (∀ (t : TileId) (n : Fin 4) (h : Thread) (w : Nat) (m : Msg) (u s : State),
      ready s t n = some (h, w) →
      opOf w = 0x1B →
      h.pc < h.count →
      gReg h (opC w) ≤ 1000 →
      gReg h (opB w) % 1024 ≠ 0x3FF →
      m = buildMsg s t h.queue h.ctx h.msg.hdr.src (gReg h (opB w) % 1024) 2 (oBytes h (gReg h (opC w))) →
      trySend s t h.queue (.thread n) m = (.sent, u) →
      exec (.opReply t n) s = .next (movedOn u t n h (h.pc + 1))) ∧
    (∀ (t : TileId) (n : Fin 4) (h : Thread) (w : Nat) (u s : State),
      ready s t n = some (h, w) →
      opOf w = 0x1C →
      h.pc < h.count →
      grant s t (opImm w % 256) (fieldNat (gReg h (opA w)) 13 15) (fieldNat (gReg h (opA w)) 0 13) (gReg h (opB w)) (some h.ctx) = (true, u) →
      exec (.opGrant t n) s = .next (movedOn u t n (setG h (opB w) (gReg h (opB w))) (h.pc + 1))) ∧
    (∀ (t : TileId) (n : Fin 4) (h : Thread) (w : Nat) (q : Nat) (s : State),
      ready s t n = some (h, w) →
      opOf w = 0x1D →
      q = opImm w % 256 →
      qRead s t q = true →
      qOwner s t q = h.ctx →
      unitReads s t q = false →
      exec (.opGet t n) s = .next (takeMessage (setThread (releaseP s t h) t n { h with own := none, wait := .message q, since := now s }) t n q)) ∧
    (∀ (t : TileId) (n : Fin 4) (h : Thread) (w : Nat) (s : State),
      ready s t n = some (h, w) →
      opOf w = 0x1F →
      h.pc < h.count →
      inFlight s t h = false →
      exec (.opFence t n) s = .next (movedOn s t n h (h.pc + 1))) ∧
    (∀ (t : TileId) (n : Fin 4) (h : Thread) (w : Nat) (s : State),
      ready s t n = some (h, w) →
      opOf w = 0x00 →
      exec (.opEnd t n) s = .next (endThread (releaseP (progress s t h.ctx) t h) t n))

/-- A free thread takes a refused send first and starts handler 0x3FF on it; otherwise it takes the message at the head of the next eligible queue and starts the handler its message names; a thread that waits on a queue takes the message when one is there; a message with no reader there ends the queue's wait. Nothing else changes. -/
def Obligations.HandlerDispatch : Prop :=
    (∀ (t : TileId) (n : Nat) (j : NackJob) (s : State),
      (List.range 4).find? (fun n => !(threadOf s t n).busy) = some n →
      s.q.nacks.find? (fun j => j.tile == t.val && mayRun s t j.hdr.context) = some j →
      exec (.handlerDispatch t) s = .next (startNack s n j)) ∧
    (∀ (t : TileId) (n q : Nat) (m : Msg) (e : Nat × Nat × Nat) (v u s : State),
      (List.range 4).find? (fun n => !(threadOf s t n).busy) = some n →
      s.q.nacks.find? (fun j => j.tile == t.val && mayRun s t j.hdr.context) = none →
      nextQueue s t = some q →
      qSound s t q = true →
      headMsg s t q = some (m, u) →
      v = wrF u (qctl t 0x100) 0 8 q →
      handlerEntry v t (qOwner s t q) m.hdr.handler = some e →
      exec (.handlerDispatch t) s = .next (startThread v t n (loadMsg (freshThread v (qOwner s t q) e) q (some q) m))) ∧
    (∀ (t : TileId) (q : QueueId) (n : Nat) (m : Msg) (u s : State),
      qOcc s t q ≠ 0 →
      (List.range 4).find? (fun n => (threadOf s t n).busy && (threadOf s t n).wait == .message q && mayRun s t (threadOf s t n).ctx) = some n →
      threadsOn s t q = [] →
      headMsg s t q = some (m, u) →
      exec (.messageAvailable t q) s = .next (next (endRead u t q) t n (loadMsg { threadOf u t n with wait := .none, served := (threadOf u t n).queue :: (threadOf u t n).served } q (some q) m))) ∧
    (∀ (t : TileId) (q : QueueId) (s : State),
      qOcc s t q ≠ 0 →
      (List.range 4).find? (fun n => (threadOf s t n).busy && (threadOf s t n).wait == .message q && mayRun s t (threadOf s t n).ctx) = none →
      exec (.messageAvailable t q) s = .next (endRead s t q))

/-- A flit that a port sends arrives sound or corrected and moves on at the neighbour; one with an uncorrectable error is asked for again, and a third time fences the link; the replay is counted and recorded; a packet leaves its source by the checks of the source router unless it is held; an accepted write of RT_CTRL, RT_DATA or MC_DATA changes the router and its tables, and a read of the data registers shows the entries and advances the index. -/
def Obligations.MeshLinks : Prop :=
    (∀ (t : TileId) (p : Fin 9) (n : Nat) (f : Flit) (s : State),
      neighbour t p = some n →
      linkFenced s t p = false →
      mapGet (fun _ => false) s.net.replay (t.val * 16 + p.val) = false →
      (mapGet (fun _ => []) s.net.again (t.val * 16 + p.val)).head?.orElse (fun _ => chooseFlit s t p) = some f →
      exec (.flitReceive t p 0) s = .next (enterOn (advanceFlit n (farPort p) (takeFlit (countVc3 s t p f) t p f) f) t f.inPort)) ∧
    (∀ (t : TileId) (p : Fin 9) (n : Nat) (f : Flit) (s : State),
      neighbour t p = some n →
      linkFenced s t p = false →
      mapGet (fun _ => false) s.net.replay (t.val * 16 + p.val) = false →
      (mapGet (fun _ => []) s.net.again (t.val * 16 + p.val)).head?.orElse (fun _ => chooseFlit s t p) = some f →
      exec (.flitReceive t p 1) s = .next (enterOn (advanceFlit n (farPort p) (takeFlit (linkCe (countVc3 s t p f) t p n) t p f) f) t f.inPort)) ∧
    (∀ (t : TileId) (p : Fin 9) (n : Nat) (f : Flit) (s : State),
      neighbour t p = some n →
      linkFenced s t p = false →
      mapGet (fun _ => false) s.net.replay (t.val * 16 + p.val) = false →
      (mapGet (fun _ => []) s.net.again (t.val * 16 + p.val)).head?.orElse (fun _ => chooseFlit s t p) = some f →
      exec (.flitReceive t p 2) s = .next (dropFlit (countVc3 s t p f) t p n f)) ∧
    (∀ (t : TileId) (p : Fin 9) (err : Fin 3) (s : State),
      (neighbour t p = none ∨ linkFenced s t p = true ∨ mapGet (fun _ => false) s.net.replay (t.val * 16 + p.val) = true) →
      exec (.flitReceive t p err) s = .next s) ∧
    (∀ (t : TileId) (p : Fin 9) (s : State),
      mapGet (fun _ => false) s.net.replay (t.val * 16 + p.val) = true →
      exec (.linkReplay t p) s = .next (
      report (incSat { s with net := { s.net with replay := mapPut (fun _ => false) s.net.replay (t.val * 16 + p.val) false } } (rtReg t 0x0C0)) (rtPage t) 0x0602 { detail := [p.val] })) ∧
    (∀ (t : TileId) (vc : Fin 4) (e : Nat × Pkt) (s : State),
      s.net.inject.find? (fun e => e.1 == t.val && pktVc e.2 == vc.val) = some e →
      injHeld s t e.2 = false →
      (tileInReset s t && ofTile e.2) = false →
      (enteringOf s t 0).any (fun f => pktVc f.pkt == vc.val) = false →
      exec (.packetInject t vc) s = .next (sourceCheck { s with net := { s.net with inject := s.net.inject.erase e } } t e.2)) ∧
    (∀ (t : TileId) (s : State),
      rdB s (rtReg t 0x100) 1 = false →
      exec (.injectionHoldRelease t) s = .next (each [1, 2, 3] (fun u vc => injectOne u t vc) s)) ∧
    (∀ (a : Agent) (t : TileId) (on : Bool) (v : W64) (s : State),
      v = setField (rd s (rtReg t 0x100)) 1 1 (bit01 on) →
      writeOk s a (rtReg t 0x100) v = true →
      exec (.injHold a t on) s = .next (rtCtrlWrite s t (merged s (rtReg t 0x100) 0x1FF3F03 v))) ∧
    (∀ (a : Agent) (t : TileId) (on : Bool) (v : W64) (s : State),
      v = setField (rd s (rtReg t 0x100)) 0 1 (bit01 on) →
      writeOk s a (rtReg t 0x100) v = true →
      exec (.destReset a t on) s = .next (rtCtrlWrite s t (merged s (rtReg t 0x100) 0x1FF3F03 v))) ∧
    (∀ (a : Agent) (t : TileId) (s : State),
      readOk s a (rtReg t 0x118) = true →
      exec (.rtDataAccess a t none) s = .next (emit (advance s (rtReg t 0x110) 9 288) (.regRead a 0 (rtData s t)))) ∧
    (∀ (a : Agent) (t : TileId) (v : W64) (s : State),
      writeOk s a (rtReg t 0x118) v = true →
      rdF s (rtReg t 0x110) 0 9 < 288 →
      exec (.rtDataAccess a t (some v)) s = .next (
      advance (each (List.range 16) (fun u k => setRoute u t (16 * rdF s (rtReg t 0x110) 0 9 + k) (fieldOf (merged s (rtReg t 0x118) (2 ^ 64 - 1) v) (4 * k) 4)) s) (rtReg t 0x110) 9 288)) ∧
    (∀ (a : Agent) (t : TileId) (s : State),
      readOk s a (rtReg t 0x128) = true →
      exec (.mcDataAccess a t none) s = .next (emit (advance s (rtReg t 0x120) 12 4096) (.regRead a 0 (rd s (banked (rtReg t 0x128) (rdF s (rtReg t 0x120) 0 12)))))) ∧
    (∀ (a : Agent) (t : TileId) (v : W64) (s : State),
      writeOk s a (rtReg t 0x128) v = true →
      exec (.mcDataAccess a t (some v)) s = .next (
      advance (wr s (banked (rtReg t 0x128) (rdF s (rtReg t 0x120) 0 12)) (merged s (banked (rtReg t 0x128) (rdF s (rtReg t 0x120) 0 12)) 0x3FFF v)) (rtReg t 0x120) 12 4096))

/-- A multicast packet that came in by a port other than the router's UP port goes up, and one that came in by the UP port, or that is at the root of a tree with no port toward a fabric root, is copied down the tree; at the root of a device's part of a fabric tree it goes out of the running port toward the fabric root. A reply joins the slot of its group, type and round or opens one of sixteen, which is then evaluated: it goes up once every DOWN port has answered. Hornbeam's probe takes the reply of its round and begins the next, one in each window of 1 µs. Flits that waited for a place that the router's action freed enter. Nothing else changes. -/
def Obligations.MeshTrees : Prop :=
    (∀ (t : TileId) (port : Fin 9) (p : Pkt) (x : Here) (u s : State),
      (match p with | .ctrl c => c.mcast && !isUpTree c.type | .fw f => f.mcast | _ => false) = true →
      hereOf s t port p = some x →
      u = { s with net := { s.net with here := s.net.here.erase x } } →
      (mcEntry u t (pktGroup p)).1 = true →
      (mcEntry u t (pktGroup p)).2.2 ≠ 0 →
      port.val ≠ (mcEntry u t (pktGroup p)).2.2 →
      (downPorts u t (pktGroup p)).testBit (mcEntry u t (pktGroup p)).2.2 = false →
      exec (.multicastForward t port p) s = .next (
      let w := sendBy (numbered u 1) t (mcEntry u t (pktGroup p)).2.2 u.net.serial x
      if flitsOf p ≤ x.came then acted w t port
      else acted { w with net := { w.net with flows := w.net.flows ++ [{ loc := t, port := port, id := x.id, outs := [((mcEntry u t (pktGroup p)).2.2, u.net.serial)] }] } } t port)) ∧
    (∀ (t : TileId) (port : Fin 9) (c : Ctrl) (x : Here) (outs : List (Nat × Nat)) (u s : State),
      c.mcast = true →
      isUpTree c.type = false →
      hereOf s t port (.ctrl c) = some x →
      u = { s with net := { s.net with here := s.net.here.erase x } } →
      (mcEntry u t c.group).1 = true →
      (((mcEntry u t c.group).2.2 ≠ 0 ∧ port.val = (mcEntry u t c.group).2.2) ∨ ((mcEntry u t c.group).2.2 = 0 ∧ fabricUp u c.group = none)) →
      outs = ((List.range 9).filter (fun n => (downPorts u t c.group).testBit n)).zipIdx u.net.serial →
      exec (.multicastForward t port (.ctrl c)) s = .next (
      let w := each outs (fun v o => if o.1 = 0 then deliverCopy v t (.ctrl c) else owesReply (sendBy v t o.1 o.2 x) t o.1 (.ctrl c)) (numbered u outs.length)
      if flitsOf (.ctrl c) ≤ x.came then acted w t port
      else acted { w with net := { w.net with flows := w.net.flows ++ [{ loc := t, port := port, id := x.id, outs := outs }] } } t port)) ∧
    (∀ (t : TileId) (port : Fin 9) (f : FwPkt) (x : Here) (outs : List (Nat × Nat)) (u s : State),
      f.mcast = true →
      hereOf s t port (.fw f) = some x →
      u = { s with net := { s.net with here := s.net.here.erase x } } →
      (mcEntry u t f.group).1 = true →
      (((mcEntry u t f.group).2.2 ≠ 0 ∧ port.val = (mcEntry u t f.group).2.2) ∨ ((mcEntry u t f.group).2.2 = 0 ∧ fabricUp u f.group = none)) →
      outs = ((List.range 9).filter (fun n => (downPorts u t f.group).testBit n)).zipIdx u.net.serial →
      exec (.multicastForward t port (.fw f)) s = .next (
      let w := each outs (fun v o => if o.1 = 0 then each (copiesOf x o.2) (fun y g => deliverFlit y t g) v else sendBy v t o.1 o.2 x) (numbered u outs.length)
      if flitsOf (.fw f) ≤ x.came then acted w t port
      else acted { w with net := { w.net with flows := w.net.flows ++ [{ loc := t, port := port, id := x.id, outs := outs }] } } t port)) ∧
    (∀ (t : TileId) (port : Fin 9) (c : Ctrl) (q : Nat) (x : Here) (u s : State),
      c.mcast = true →
      isUpTree c.type = false →
      hereOf s t port (.ctrl c) = some x →
      u = { s with net := { s.net with here := s.net.here.erase x } } →
      (mcEntry u t c.group).1 = true →
      (mcEntry u t c.group).2.2 = 0 →
      fabricUp u c.group = some q →
      portRuns u q = true →
      (port.val ≠ edgePort q ∨ portAt t ≠ some q) →
      flitsOf (.ctrl c) ≤ x.came →
      exec (.multicastForward t port (.ctrl c)) s = .next (acted (toPort (numbered u 1) q (.ctrl c)) t port)) ∧
    (∀ (t : TileId) (port : Fin 9) (c : Ctrl) (x : UpSlot) (u v s : State),
      isUpTree c.type = true →
      takeHere s t port (.ctrl c) = some u →
      v = replyHeard u t port c →
      (mcEntry v t c.group).1 = true →
      (upSlots v t).find? (fun x => x.group == c.group && x.type == c.type && x.round == c.round) = some x →
      exec (.uptreeReply t port c) s = .next (
      let y := { x with heard := x.heard ||| 2 ^ port.val, acc := { x.acc with words := combineReply c.type x.acc.words c.words } }
      acted (upEval (setUpSlots v t ((upSlots v t).map (fun z => if z == x then y else z))) t port y) t port)) ∧
    (∀ (t : TileId) (port : Fin 9) (c : Ctrl) (u v s : State),
      isUpTree c.type = true →
      takeHere s t port (.ctrl c) = some u →
      v = replyHeard u t port c →
      (mcEntry v t c.group).1 = true →
      (upSlots v t).find? (fun x => x.group == c.group && x.type == c.type && x.round == c.round) = none →
      (upSlots v t).length < 16 →
      exec (.uptreeReply t port c) s = .next (
      let y : UpSlot := { group := c.group, type := c.type, round := c.round, heard := 2 ^ port.val, acc := c }
      acted (upEval (setUpSlots v t (upSlots v t ++ [y])) t port y) t port)) ∧
    (∀ (g : Fin 4096) (root : TileId) (r : Nat) (s : State),
      s.net.meshAt ≠ now s / 1000 + 1 →
      r = (s.net.meshRound + 1) % 256 →
      exec (.meshProbe g root none) s = .next (
      hbInject { s with net := { s.net with meshRound := r, meshAt := now s / 1000 + 1 } } (.ctrl (toGroup (mkCtrl s 0x0F 1 0 r []) g)))) ∧
    (∀ (g : Fin 4096) (root : TileId) (c : Ctrl) (u v s : State),
      s.net.meshAt ≠ now s / 1000 + 1 →
      c.type = 0x10 →
      c.round = s.net.meshRound →
      c.group = g.val →
      takeEjected s root (.ctrl c) = some u →
      v = { u with net := { u.net with meshQuiet := if c.words.getD 0 0 = 0 then u.net.meshQuiet + 1 else 0 } } →
      exec (.meshProbe g root (some c)) s = .next (
      hbInject { v with net := { v.net with meshRound := (v.net.meshRound + 1) % 256, meshAt := now v / 1000 + 1 } }
        (.ctrl (toGroup (mkCtrl v 0x0F 1 0 ((v.net.meshRound + 1) % 256) []) g))))

/-- A fixed-window or integer partial joins the entry of its key and goes on once every contribution is in, opens an entry where one is free and it is not at its tile, or goes on as it is; a held entry goes on when its hold ends; at its tile a partial of the current epoch is taken into the completion store, and one of another epoch is counted and discarded; a complete entry that can be sent is sent as a message and freed. Flits that waited for a place that this freed enter. Nothing else changes. -/
def Obligations.Reductions : Prop :=
    (∀ (l : Fin 4636) (port : Fin 9) (r : Red) (e : Comb) (j : State × Red) (v u s : State),
      takeHere s l port (.red r) = some u →
      (r.kind = 1 ∨ r.kind = 2) →
      (combOf u l).find? (fun e => sameKey e.red r) = some e →
      j = redJoin u (combPage l) none e.red r →
      v = (if l.val < 4608 then incWrap j.1 (rtReg l 0x088) 1 else if 4622 ≤ l.val then oweCredit j.1 (l.val - 4622) 1 1 else j.1) →
      j.2.total ≤ j.2.contrib →
      exec (.reductionPacketArrival l port r) s = .next (acted (redForward (setComb v l ((combOf u l).erase e)) l port j.2) l port)) ∧
    (∀ (l : Fin 4636) (port : Fin 9) (r : Red) (e : Comb) (j : State × Red) (v u s : State),
      takeHere s l port (.red r) = some u →
      (r.kind = 1 ∨ r.kind = 2) →
      (combOf u l).find? (fun e => sameKey e.red r) = some e →
      j = redJoin u (combPage l) none e.red r →
      v = (if l.val < 4608 then incWrap j.1 (rtReg l 0x088) 1 else if 4622 ≤ l.val then oweCredit j.1 (l.val - 4622) 1 1 else j.1) →
      j.2.contrib < j.2.total →
      exec (.reductionPacketArrival l port r) s = .next (
      acted (setComb v l ((combOf u l).map (fun x => if x == e then { e with red := j.2 } else x))) l port)) ∧
    (∀ (l : Fin 4636) (port : Fin 9) (r : Red) (u s : State),
      takeHere s l port (.red r) = some u →
      (r.kind = 1 ∨ r.kind = 2) →
      (combOf u l).find? (fun e => sameKey e.red r) = none →
      (combOf u l).length < combRoom l →
      (l.val < 4608 && redHome u l r) = false →
      r.contrib < r.total →
      exec (.reductionPacketArrival l port r) s = .next (acted (setComb u l (combOf u l ++ [{ red := r, opened := now u }])) l port)) ∧
    (∀ (l : Fin 4636) (port : Fin 9) (r : Red) (u s : State),
      takeHere s l port (.red r) = some u →
      (r.kind = 1 ∨ r.kind = 2) →
      (combOf u l).find? (fun e => sameKey e.red r) = none →
      (combRoom l ≤ (combOf u l).length ∨ (l.val < 4608 && redHome u l r) = true) →
      exec (.reductionPacketArrival l port r) s = .next (
      acted (redForward (if l.val < 4608 then incWrap u (rtReg l 0x090) 1 else u) l port r) l port)) ∧
    (∀ (l : Fin 4636) (i : Fin 32) (e : Comb) (s : State),
      (combOf s l)[i.val]? = some e →
      (l.val < 4608 ∨ rdF s (pxReg ((l.val - 4608) % 14) 0x100) 32 8 * 10 ≤ (now s - e.opened) * 16) →
      exec (.redHoldExpiry l i) s = .next (redForward (setComb s l ((combOf s l).eraseIdx i)) l 15 e.red)) ∧
    (∀ (t : TileId) (port : Fin 16) (r : Red) (v u s : State),
      takeHere s t (16 + port.val) (.red r) = some u →
      tileFenced u t = false →
      tileInReset u t = false →
      clusterPower s (clusterOf t) ≠ 2 →
      epochMatches u t r.context r.ctxEpoch = true →
      compTake u t r = some v →
      exec (.completionStoreArrival t port r) s = .next (acted v t port)) ∧
    (∀ (t : TileId) (port : Fin 16) (r : Red) (u s : State),
      takeHere s t (16 + port.val) (.red r) = some u →
      tileFenced u t = false →
      tileInReset u t = false →
      clusterPower s (clusterOf t) ≠ 2 →
      epochMatches u t r.context r.ctxEpoch = false →
      exec (.completionStoreArrival t port r) s = .next (acted (ctlCount u t 0 1) t port)) ∧
    (∀ (t : TileId) (i : Fin 128) (e : CompEntry) (m : Msg) (r : SendRes × State) (s : State),
      (compOf s t)[i.val]? = some e →
      e.done = true →
      tileRuns s t = true →
      m = buildMsg s t 0 e.red.context e.red.dst 0 2 (compPayload e) →
      r = trySend (setComp s t ((compOf s t).eraseIdx i)) t 0 .store { m with hdr := { m.hdr with ctxEpoch := e.red.ctxEpoch } } →
      (r.1 == .wait) = false →
      exec (.completionMessageSend t i) s = .next r.2)

/-- An accepted write of PX_CTRL has the effect of its fields on the port's state and lanes; FX_DATA and FM_DATA show and take the entry of their index and advance it, the own device's entry showing LOCAL. Nothing else changes. -/
def Obligations.PortRegisters : Prop :=
    (∀ (a : Agent) (p : PortId) (on : Bool) (v : W64) (s : State),
      v = setField (rd s (pxReg p 0x100)) 0 1 (bit01 on) →
      writeOk s a (pxReg p 0x100) v = true →
      exec (.portEnable a p on) s = .next (pxCtrlWrite s p (merged s (pxReg p 0x100) 0xFF00F00007 v))) ∧
    (∀ (a : Agent) (p : PortId) (on : Bool) (v : W64) (s : State),
      v = setField (rd s (pxReg p 0x100)) 1 1 (bit01 on) →
      writeOk s a (pxReg p 0x100) v = true →
      exec (.portFence a p on) s = .next (pxCtrlWrite s p (merged s (pxReg p 0x100) 0xFF00F00007 v))) ∧
    (∀ (a : Agent) (p : PortId) (v : W64) (s : State),
      v = setField (rd s (pxReg p 0x100)) 2 1 1 →
      writeOk s a (pxReg p 0x100) v = true →
      exec (.portRetrain a p) s = .next (pxCtrlWrite s p (merged s (pxReg p 0x100) 0xFF00F00007 v))) ∧
    (∀ (a : Agent) (p : PortId) (mask : Fin 16) (v : W64) (s : State),
      v = setField (rd s (pxReg p 0x100)) 20 4 mask →
      writeOk s a (pxReg p 0x100) v = true →
      exec (.laneMaskWrite a p mask) s = .next (pxCtrlWrite s p (merged s (pxReg p 0x100) 0xFF00F00007 v))) ∧
    (∀ (a : Agent) (s : State),
      readOk s a (fxReg 0x110) = true →
      exec (.fxDataAccess a none) s = .next (emit (advance s (fxReg 0x108) 11 2048) (.regRead a 0 (fxData s (rd s (banked (fxReg 0x110) (rdF s (fxReg 0x108) 0 11))))))) ∧
    (∀ (a : Agent) (v : W64) (s : State),
      writeOk s a (fxReg 0x110) v = true →
      exec (.fxDataAccess a (some v)) s = .next (fxDataWrite s (merged s (banked (fxReg 0x110) (rdF s (fxReg 0x108) 0 11)) 0xFFFFFFFFFFFFFFFF v))) ∧
    (∀ (a : Agent) (s : State),
      readOk s a (fxReg 0x120) = true →
      exec (.fmDataAccess a none) s = .next (emit (advance s (fxReg 0x118) 12 4096) (.regRead a 0 (rd s (banked (fxReg 0x120) (rdF s (fxReg 0x118) 0 12)))))) ∧
    (∀ (a : Agent) (v : W64) (s : State),
      writeOk s a (fxReg 0x120) v = true →
      exec (.fmDataAccess a (some v)) s = .next (
      advance (wr s (banked (fxReg 0x120) (rdF s (fxReg 0x118) 0 12)) (merged s (banked (fxReg 0x120) (rdF s (fxReg 0x118) 0 12)) 0x1FFFEF v)) (fxReg 0x118) 12 4096))

/-- Training that trains a lane identifies the peer, starts the link layer afresh and brings the port UP or DEGRADED, or fences it when the peer is another than before its last DOWN; on a DEGRADED port the lanes that were ordered trained join. Training that takes 100 ms fails; a port DOWN for 10 ms trains again; a running port without lock, or without progress for 4 µs while packets wait, goes DOWN; a lost lane leaves the active ones; a lane's window is counted and, over its limit, recorded. The Gorbin port does the same at its own registers. Nothing else changes. -/
def Obligations.PortStates : Prop :=
    (∀ (p : PortId) (lanes : Fin 16) (dev : Fin 32768) (port : Fin 16) (serial : Fin 16777216) (got id : Nat) (s : State),
      got = lanes.val &&& rdF s (pxReg p 0x100) 20 4 →
      got ≠ 0 →
      portState s p = 1 →
      id = 2 ^ 63 + (dev.val <<< 32) + (port.val <<< 28) + serial.val →
      (mapGet (fun _ => 0) s.fabric.peer p ≤ 2 ^ 63 ∨ mapGet (fun _ => 0) s.fabric.peer p = id + 1) →
      exec (.trainingComplete p lanes dev port serial) s = .next (
      let u := linkInit (emit (wr s (pxReg p 0x110) (BitVec.ofNat 64 id)) (.link p (.ident (deviceId s) p (Config.serial % 2 ^ 24)))) p
      report (setPortState (wrF u (pxReg p 0x108) 8 4 got) p (if got = 15 then 2 else 3)) (pxPage p) 0x0706 { detail := [got] })) ∧
    (∀ (p : PortId) (lanes : Fin 16) (dev : Fin 32768) (port : Fin 16) (serial : Fin 16777216) (got id : Nat) (s : State),
      got = lanes.val &&& rdF s (pxReg p 0x100) 20 4 →
      got ≠ 0 →
      portState s p = 1 →
      id = 2 ^ 63 + (dev.val <<< 32) + (port.val <<< 28) + serial.val →
      2 ^ 63 < mapGet (fun _ => 0) s.fabric.peer p →
      mapGet (fun _ => 0) s.fabric.peer p ≠ id + 1 →
      exec (.trainingComplete p lanes dev port serial) s = .next (
      let u := emit (wr s (pxReg p 0x110) (BitVec.ofNat 64 id)) (.link p (.ident (deviceId s) p (Config.serial % 2 ^ 24)))
      report (setPortState u p 5) (pxPage p) 0x070D { detail := [id / 2 ^ 32, id % 2 ^ 32] })) ∧
    (∀ (p : PortId) (lanes : Fin 16) (dev : Fin 32768) (port : Fin 16) (serial : Fin 16777216) (got ordered mask : Nat) (u s : State),
      got = lanes.val &&& rdF s (pxReg p 0x100) 20 4 →
      portState s p = 3 →
      ordered = mapGet (fun _ => 0) s.fabric.retrain p →
      got &&& ordered ≠ 0 →
      u = { s with fabric := { s.fabric with retrain := mapPut (fun _ => 0) s.fabric.retrain p (ordered &&& (15 - got)) } } →
      mask = lanesActive s p ||| (got &&& ordered) →
      exec (.trainingComplete p lanes dev port serial) s = .next (
      report (setPortState (wrF u (pxReg p 0x108) 8 4 mask) p (if mask = 15 then 2 else 3)) (pxPage p) 0x0706 { detail := [mask] })) ∧
    (∀ (p : PortId) (s : State),
      portState s p = 1 →
      mapGet (fun _ => 0) s.fabric.since p + 99999999 ≤ now s →
      exec (.trainFail (.parith p)) s = .next (report (enterDown s p) (pxPage p) 0x0707)) ∧
    (∀ (p : PortId) (s : State),
      portState s p = 4 →
      mapGet (fun _ => 0) s.fabric.since p + 9999999 ≤ now s →
      exec (.retryTimer (.parith p)) s = .next (setPortState (wrB s (pxReg p 0x100) 2 false) p 1)) ∧
    (∀ (p : PortId) (s : State),
      portRuns s p = true →
      exec (.linkDown p) s = .next (linkLost s p 4)) ∧
    (∀ (p : PortId) (s : State),
      portRuns s p = true →
      sentOf s p ≠ [] →
      mapGet (fun _ => 0) s.fabric.moved p + 3999 ≤ now s →
      exec (.noProgress (.parith p)) s = .next (linkLost (report s (pxPage p) 0x0703) p 4)) ∧
    (∀ (p : PortId) (lane : Fin 8) (s : State),
      exec (.laneDrop (.parith p) lane) s = .next (dropLanes s p (2 ^ lane.val))) ∧
    (∀ (p : PortId) (lane : Fin 8) (words corrected symbols limit : Nat) (u s : State),
      limit = rdF s (pxReg p 0x118) 0 20 →
      u = incSatN (incSatN (incWrap s (pxReg p (0x080 + 0x20 * (lane.val % 4))) words) (pxReg p (0x080 + 0x20 * (lane.val % 4) + 8)) 48 corrected) (pxReg p (0x080 + 0x20 * (lane.val % 4) + 16)) 48 symbols →
      exec (.fecAlarm (.parith p) lane words corrected symbols) s = .next (
      if limit ≠ 0 ∧ limit < symbols then
        reportLimited u (pxPage p) 0 0x0701 (limitKey 12 (p.val * 4 + lane.val % 4) 0) (now s / 1000000) { detail := [lane.val % 4, symbols] }
      else u)) ∧
    (∀ (s : State),
      gbState s = 1 →
      mapGet (fun _ => 0) s.fabric.since 14 + 99999999 ≤ now s →
      exec (.trainFail .gorbin) s = .next (report (setGbState s 4 0) gbPage 0x0707)) ∧
    (∀ (s : State),
      gbState s = 4 →
      mapGet (fun _ => 0) s.fabric.since 14 + 9999999 ≤ now s →
      exec (.retryTimer .gorbin) s = .next (setGbState (wrB s (gbReg 0x100) 1 false) 1 0)) ∧
    (∀ (s : State),
      gbUp s = true →
      s.gorbin.sent ≠ [] →
      mapGet (fun _ => 0) s.fabric.moved 14 + 3999 ≤ now s →
      exec (.noProgress .gorbin) s = .next (gbLost (report s gbPage 0x0703) 4)) ∧
    (∀ (lane : Fin 8) (s : State),
      exec (.laneDrop .gorbin lane) s = .next (gbDropLanes s (2 ^ lane.val))) ∧
    (∀ (lane : Fin 8) (words corrected symbols : Nat) (s : State),
      exec (.fecAlarm .gorbin lane words corrected symbols) s = .next (
      incSatN (incSatN (incWrap s (gbReg (0x800 + 0x20 * lane.val)) words) (gbReg (0x800 + 0x20 * lane.val + 8)) 48 corrected) (gbReg (0x800 + 0x20 * lane.val + 16)) 48 symbols))

/-- On a running Parith port a packet with the expected sequence is accepted, its acknowledgement owed, and goes on; one that ends before an interrupted packet of an earlier sequence is accepted ahead of it, and is not accepted twice; one in an uncorrectable codeword, or with a protocol error or a sequence that does not fit, is answered with a NAK; while a NAK awaits its replay everything else is discarded. Acknowledged packets leave the replay buffer, a NAK has the rest sent again, credits are added, and owed credits and an owed acknowledgement are sent. The Gorbin port acknowledges, replays and takes credits in the same way. The mesh side of a boundary FIFO reads what it has room for. An egress packet of 20 µs is dropped. Nothing else changes. -/
def Obligations.LinkPackets : Prop :=
    (∀ (p : PortId) (seq : Fin 4096) (hop : Fin 256) (replay : Bool) (lane : Fin 8) (pkt : Pkt) (u s : State),
      portRuns s p = true →
      rxAhead s p = [] →
      seq.val = mapGet (fun _ => 0) s.fabric.rxSeq p →
      (mapGet (fun _ => false) s.fabric.nak p = false ∨ replay = true) →
      u = linkAccept s p →
      exec (.linkPacketReceive (.parith p) seq hop replay 0 lane pkt) s = .next (
      ingress (incWrap { u with fabric := { u.fabric with
      rxSeq := mapPut (fun _ => 0) u.fabric.rxSeq p ((seq.val + 1) % 4096)
      rxAhead := mapPut (fun _ => []) s.fabric.rxAhead p [] } } (pxReg p 0x188) 1) p seq hop pkt)) ∧
    (∀ (p : PortId) (seq : Fin 4096) (hop : Fin 256) (replay : Bool) (lane : Fin 8) (pkt : Pkt) (s : State),
      portRuns s p = true →
      (rxAhead s p).contains seq.val = false →
      seq.val ≠ mapGet (fun _ => 0) s.fabric.rxSeq p →
      seqFits s p seq = true →
      mapGet (fun _ => false) s.fabric.nak p = false →
      exec (.linkPacketReceive (.parith p) seq hop replay 0 lane pkt) s = .next (
      ingress (incWrap { s with fabric := { s.fabric with rxAhead := mapPut (fun _ => []) s.fabric.rxAhead p (rxAhead s p ++ [seq.val]) } } (pxReg p 0x188) 1)
        p seq hop pkt)) ∧
    (∀ (p : PortId) (seq : Fin 4096) (hop : Fin 256) (replay : Bool) (lane : Fin 8) (pkt : Pkt) (s : State),
      (rxAhead s p).contains seq.val = true →
      exec (.linkPacketReceive (.parith p) seq hop replay 0 lane pkt) s = .next s) ∧
    (∀ (p : PortId) (seq : Fin 4096) (hop : Fin 256) (replay : Bool) (lane : Fin 8) (pkt : Pkt) (s : State),
      portRuns s p = true →
      (rxAhead s p).contains seq.val = false →
      (mapGet (fun _ => false) s.fabric.nak p = false ∨ (replay = true ∧ seq.val = mapGet (fun _ => 0) s.fabric.rxSeq p)) →
      exec (.linkPacketReceive (.parith p) seq hop replay 1 lane pkt) s = .next (
      sendNak (reportLimited (incSat s (pxReg p (0x098 + 0x20 * (lane.val % 4)))) (pxPage p) 0 0x0702 (limitKey 11 (p.val * 4 + lane.val % 4) 0) (now s / 1000000) { detail := [lane.val % 4] }) p)) ∧
    (∀ (p : PortId) (seq : Fin 4096) (hop : Fin 256) (replay : Bool) (flaw : Fin 3) (lane : Fin 8) (pkt : Pkt) (s : State),
      portRuns s p = true →
      (rxAhead s p).contains seq.val = false →
      mapGet (fun _ => false) s.fabric.nak p = false →
      (flaw = 2 ∨ (flaw = 0 ∧ seqFits s p seq = false)) →
      exec (.linkPacketReceive (.parith p) seq hop replay flaw lane pkt) s = .next (sendNak (report s (pxPage p) 0x070E) p)) ∧
    (∀ (p : PortId) (seq : Fin 4096) (hop : Fin 256) (replay : Bool) (flaw : Fin 3) (lane : Fin 8) (pkt : Pkt) (s : State),
      portRuns s p = true →
      mapGet (fun _ => false) s.fabric.nak p = true →
      (replay = false ∨ seq.val ≠ mapGet (fun _ => 0) s.fabric.rxSeq p) →
      flaw ≠ 1 →
      exec (.linkPacketReceive (.parith p) seq hop replay flaw lane pkt) s = .next s) ∧
    (∀ (p : PortId) (seq : Fin 4096) (s : State),
      (acked (sentOf s p) seq).length < (sentOf s p).length →
      exec (.ackReceived (.parith p) seq) s = .next (pump (markMoved (setSent s p (acked (sentOf s p) seq)) p) p)) ∧
    (∀ (p : PortId) (seq : Fin 4096) (rest : List SentPkt) (s : State),
      portRuns s p = true →
      rest = nacked (sentOf s p) seq →
      exec (.nakReceived (.parith p) seq) s = .next (
      pump (resend (if rest.length < (sentOf s p).length then markMoved (setSent s p rest) p else setSent s p rest) p) p)) ∧
    (∀ (p : PortId) (c0 c1 c2 c3 : Fin 16384) (s : State),
      portRuns s p = true →
      exec (.creditBlock (.parith p) c0 c1 c2 c3) s = .next (
      pump (each [(0, c0.val), (1, c1.val), (2, c2.val), (3, c3.val)] (fun u q => if q.2 = 0 then u else setLinkCredit u p q.1 (linkCredit u p q.1 + q.2)) s) p)) ∧
    (∀ (p : PortId) (u s : State),
      portRuns s p = true →
      mapGet (fun _ => false) s.fabric.ackOwed p = true →
      u = emit { s with fabric := { s.fabric with ackOwed := mapPut (fun _ => false) s.fabric.ackOwed p false } } (.link p (.ack false ((mapGet (fun _ => 0) s.fabric.rxSeq p + 4095) % 4096))) →
      (List.range 4).any (fun vc => creditOwed s p vc != 0) = true →
      exec (.ackTimer (.parith p)) s = .next (
      emit { u with fabric := { u.fabric with owed := mapClear u.fabric.owed (4 * p.val) (4 * p.val + 4) } } (.link p (.credits (creditOwed s p 0) (creditOwed s p 1) (creditOwed s p 2) (creditOwed s p 3))))) ∧
    (∀ (seq : Fin 4096) (hop : Fin 256) (replay : Bool) (lane : Fin 8) (pkt : Pkt) (s : State),
      gbUp s = true →
      mapGet (fun _ => false) s.fabric.nak 14 = false →
      exec (.linkPacketReceive .gorbin seq hop replay 2 lane pkt) s = .next (nakSent (report s gbPage 0x070E) 14)) ∧
    (∀ (seq : Fin 4096) (s : State),
      (acked s.gorbin.sent seq).length < s.gorbin.sent.length →
      exec (.ackReceived .gorbin seq) s = .next (gbPump (markMoved (setGbSent s (acked s.gorbin.sent seq)) 14))) ∧
    (∀ (seq : Fin 4096) (rest : List (Sent GbPkt)) (s : State),
      gbUp s = true →
      rest = nacked s.gorbin.sent seq →
      exec (.nakReceived .gorbin seq) s = .next (
      gbResend (if rest.length < s.gorbin.sent.length then markMoved (setGbSent s rest) 14 else setGbSent s rest))) ∧
    (∀ (c0 c1 c2 c3 : Fin 16384) (s : State),
      gbUp s = true →
      exec (.creditBlock .gorbin c0 c1 c2 c3) s = .next (gbPump (addCredits s 14 [(0, c0.val), (1, c1.val), (2, c2.val), (3, c3.val)]))) ∧
    (∀ (s : State),
      gbUp s = true →
      exec (.ackTimer .gorbin) s = .next (ackAndCredits s 14)) ∧
    (∀ (b : BoundaryId) (s : State),
      exec (.boundaryFifoSlotFree b) s = .next (fifoRead b ((fifoOf s b).length + (fifoHeld s b).length) s)) ∧
    (∀ (p : PortId) (e : EgressPkt) (s : State),
      (egressOf s p).find? (fun e => e.since + 20000 ≤ now s) = some e →
      exec (.residence p) s = .next (residenceDrop (setEgress s p ((egressOf s p).erase e)) p e.pkt))

/-- Once in each 10 µs window the port that time follows is sent a request with the sender's time; a running port answers with its two times; an answer to the latest request on that port gives an offset and a delay, which is kept among the last 16, and, unless it is more than 4 ns off their mean, records them, steers Device Time and moves the lock. The rate the servo writes is free (log entry 184). Nothing else changes. -/
def Obligations.LinkTime : Prop :=
    (∀ (a p : Nat) (s u : State),
      timePort s = some (a, p) →
      rdB s (fxReg 0x128) 0 = true →
      rdB s (fxReg 0x128) 1 = false →
      s.fabric.time.window ≠ now s / 10000 + 1 →
      u = { s with fabric := { s.fabric with time := { s.fabric.time with num := (s.fabric.time.num + 1) % 64, window := now s / 10000 + 1, t1 := now s } } } →
      exec .timeExchange s = .next (
      emit (incWrap (wrB (wrF u (fxReg 0x130) 2 2 a) (fxReg 0x130) 1 false) (fxReg 0x090) 1) (.link p (.time 0 ((s.fabric.time.num + 1) % 64) (now s % 2 ^ 48))))) ∧
    (∀ (p : PortId) (num : Fin 64) (s : State),
      portRuns s p = true →
      exec (.timeReqReceive p num) s = .next (
      emit (emit s (.link p (.time 1 num (now s % 2 ^ 48)))) (.link p (.time 2 num (now s % 2 ^ 48))))) ∧
    (∀ (p : PortId) (num : Fin 64) (t2 t3 : Fin 281474976710656) (a : Nat) (offset delay : Int) (past : List Int) (u v s : State),
      timePort s = some (a, p.val) →
      num.val = s.fabric.time.num →
      s.fabric.time.window ≠ 0 →
      offset = (signedOf 48 (t2.val % 2 ^ 48 + 2 ^ 48 - s.fabric.time.t1 % 2 ^ 48) - signedOf 48 (now s % 2 ^ 48 + 2 ^ 48 - t3.val % 2 ^ 48)) * 8 →
      delay = (signedOf 48 (now s % 2 ^ 48 + 2 ^ 48 - s.fabric.time.t1 % 2 ^ 48) - signedOf 48 (t3.val % 2 ^ 48 + 2 ^ 48 - t2.val % 2 ^ 48)) * 8 →
      past = (if s.fabric.time.via = p.val + 1 then s.fabric.time.delays else []) →
      u = { s with fabric := { s.fabric with time := { s.fabric.time with via := p.val + 1, delays := (past ++ [delay]).drop (past.length - 15) } } } →
      (past.length ≠ 16 ∨ (delay * 16 - past.sum).natAbs ≤ 1024) →
      v = wrF (wrF u (fxReg 0x130) 32 32 (patternOf 32 offset)) (fxReg 0x130) 16 16 (patternOf 16 delay) →
      exec (.timeRespReceive p num t2 t3) s = .next (noteClock (lockStep (noteClock (steerTime v offset)) offset))) ∧
    (∀ (p : PortId) (num : Fin 64) (t2 t3 : Fin 281474976710656) (a : Nat) (offset delay : Int) (past : List Int) (u s : State),
      timePort s = some (a, p.val) →
      num.val = s.fabric.time.num →
      s.fabric.time.window ≠ 0 →
      offset = (signedOf 48 (t2.val % 2 ^ 48 + 2 ^ 48 - s.fabric.time.t1 % 2 ^ 48) - signedOf 48 (now s % 2 ^ 48 + 2 ^ 48 - t3.val % 2 ^ 48)) * 8 →
      delay = (signedOf 48 (now s % 2 ^ 48 + 2 ^ 48 - s.fabric.time.t1 % 2 ^ 48) - signedOf 48 (t3.val % 2 ^ 48 + 2 ^ 48 - t2.val % 2 ^ 48)) * 8 →
      past = (if s.fabric.time.via = p.val + 1 then s.fabric.time.delays else []) →
      u = { s with fabric := { s.fabric with time := { s.fabric.time with via := p.val + 1, delays := (past ++ [delay]).drop (past.length - 15) } } } →
      past.length = 16 →
      1024 < (delay * 16 - past.sum).natAbs →
      exec (.timeRespReceive p num t2 t3) s = .next u)

/-- A read of mapped memory by a sender that may make it is answered with its bytes, and a write is made; one that must wait sends the snoops that it needs and is held, in order; one of an unmapped address is recorded. A corrected unit is written back; a refresh at its limit and refresh management are counted. A READY channel's due retraining begins at once when it is idle, is deferred from the time at which it fell due, or is forced at its limit; its completion makes the channel READY or, failing twice, fences it; too many uncorrectable units fence it. The patrol scrub checks its next unit, or leaves the channel to what goes before it, and is late once. Nothing else changes. -/
def Obligations.MemoryAccess : Prop :=
    (∀ (a : Agent) (c : Option CtxId) (addr len : Nat) (flips : List (Nat × Nat)) (d : List (Option Byte)) (u v s : State),
      u = upsetUnits s flips →
      (c.isNone && !reachesMemory s a) = false →
      regionOf addr = .lpddr →
      dramMapped u addr len = true →
      unsettled u addr len false = false →
      dramRead u addr len (c.map (fun v => v.val)) = (d, v) →
      exec (.memRead a c addr len flips) s = .next (emit (withheldDirty v (c.map (fun v => v.val)) d) (.access (.mgmt a) 0 d))) ∧
    (∀ (a : Agent) (c : Option CtxId) (addr len : Nat) (flips : List (Nat × Nat)) (u s : State),
      u = upsetUnits s flips →
      (c.isNone && !reachesMemory s a) = false →
      regionOf addr = .lpddr →
      dramMapped u addr len = true →
      unsettled u addr len false = true →
      exec (.memRead a c addr len flips) s = .next (putLate (settle u addr len false) (.agent a (c.map (fun v => v.val)) addr len))) ∧
    (∀ (a : Agent) (c : Option CtxId) (addr : Nat) (data : List Byte) (flips : List (Nat × Nat)) (u s : State),
      u = upsetUnits s flips →
      (c.isNone && !reachesMemory s a) = false →
      regionOf addr = .lpddr →
      dramMapped u addr data.length = true →
      exec (.memWrite a c addr data flips) s = .next (
      failDirty (memWrite u addr (data.map some) (c.map (fun v => v.val)) none) (c.map (fun v => v.val)))) ∧
    (∀ (a : Nat) (data : List (Option Byte)) (c : Option Nat) (s : State),
      meetsFlags s a data.length = true →
      (unitsIn a data.length).any (lateUnit s) = true →
      dramWrite s a data c = (true, putLate (settle s a data.length true) (.write a data c))) ∧
    (∀ (a : Agent) (c : Option CtxId) (addr len : Nat) (data : List Byte) (flips : List (Nat × Nat)) (u s : State),
      u = upsetUnits s flips →
      (c.isNone && !reachesMemory s a) = false →
      (regionOf addr ≠ .lpddr ∨ (dramMapped u addr len = false ∧ dramMapped u addr data.length = false)) →
      exec (.memRead a c addr len flips) s = .next (emit (report u (unmappedPage a) 0x0A01) (.access (.mgmt a) 1 [])) ∧
      exec (.memWrite a c addr data flips) s = .next (report u (unmappedPage a) 0x0A01)) ∧
    (∀ (unit : Nat) (b : Nat × Nat) (s : State),
      s.dram.writeBacks.find? (fun b => b.1 == unit) = some b →
      channelFenced s (channelOf s unit) = false →
      chBusy s (channelOf s unit) = false →
      exec (.memWriteBack unit) s = .next (storeUnit32 s unit b.2)) ∧
    (∀ (ctl : CtlId) (s : State),
      exec (.refresh ctl true) s = .next (incWrap s (mcReg ctl 0x0C0) 1)) ∧
    (∀ (ctl : CtlId) (s : State),
      exec (.refreshManagement ctl) s = .next (incWrap s (mcReg ctl 0x0C8) 1)) ∧
    (∀ (h : ChanId) (temp : Fin 256) (d : Nat) (s : State),
      retrainDueAt (readTemp s h temp) h = some d →
      chState s h = 2 →
      patrolFirst (readTemp s h temp) h = false →
      exec (.retrainDue h temp true) s = .next (startRetrain (readTemp s h temp) h)) ∧
    (∀ (h : ChanId) (temp : Fin 256) (idle : Bool) (d : Nat) (u s : State),
      u = readTemp s h temp →
      retrainDueAt u h = some d →
      chState s h = 2 →
      (idle = false ∨ patrolFirst u h = true) →
      mapGet (fun _ => 0) u.dram.dueAt h = 0 →
      exec (.retrainDue h temp idle) s = .next { u with dram := { u.dram with dueAt := mapPut (fun _ => 0) u.dram.dueAt h (d + 1) } }) ∧
    (∀ (h : ChanId) (s : State),
      mapGet (fun _ => 0) s.dram.dueAt h ≠ 0 →
      mapGet (fun _ => 0) s.dram.dueAt h + 10000000 ≤ now s + 1 →
      chState s h = 2 →
      exec (.retrainForced h) s = .next (report (incSat (startRetrain s h) (mcReg (h.val / 4) 0x0B8)) (devPage (0x20 + h.val / 4)) 0x0805 { detail := [h.val] })) ∧
    (∀ (h : ChanId) (odecc : Nat) (s : State),
      (chState s h = 3 ∨ chState s h = 1) →
      exec (.retrainComplete h true odecc) s = .next (
      incSat (chReady { s with dram := { s.dram with
        trainedAt := mapPut (fun _ => 0) s.dram.trainedAt h (now s)
        trainedTemp := mapPut (fun _ => 0) s.dram.trainedTemp h (mapGet (fun _ => 0) s.dram.temp (h.val / 4))
        failedOnce := mapPut (fun _ => false) s.dram.failedOnce h false } } h) (mcReg (h.val / 4) 0x0D0) odecc)) ∧
    (∀ (h : ChanId) (odecc : Nat) (s : State),
      (chState s h = 3 ∨ chState s h = 1) →
      mapGet (fun _ => false) s.dram.failedOnce h = false →
      exec (.retrainComplete h false odecc) s = .next { s with dram := { s.dram with failedOnce := mapPut (fun _ => false) s.dram.failedOnce h true } }) ∧
    (∀ (h : ChanId) (odecc : Nat) (s : State),
      (chState s h = 3 ∨ chState s h = 1) →
      mapGet (fun _ => false) s.dram.failedOnce h = true →
      exec (.retrainComplete h false odecc) s = .next (fenceChannel (report s (devPage (0x20 + h.val / 4)) 0x0804 { detail := [h.val] }) h 0x0804)) ∧
    (∀ (h : ChanId) (s : State),
      rdF s (mcReg (h.val / 4) 0x100) 8 8 ≠ 0 →
      rdF s (mcReg (h.val / 4) 0x100) 8 8 < (mapGet (fun _ => (0, 0)) s.dram.ueCount h).2 →
      channelFenced s h = false →
      exec (.ueLimitWindow h) s = .next (fenceChannel (report s (devPage (0x20 + h.val / 4)) 0x0804 { detail := [h.val] }) h 0x0804)) ∧
    (∀ (h : ChanId) (cause : Fin 65536) (s : State),
      exec (.channelFence h cause) s = .next (fenceChannel s h cause)) ∧
    (∀ (flips : List (Nat × Nat)) (u s : State),
      u = upsetUnits s flips →
      rdB u (mmReg 0x100) 1 = true →
      u.dram.scrubPass * patrolWindow ≤ now u →
      rdF u (mmReg 0x110) 0 30 * 512 < dramCap u →
      scrubYields u (channelOf u (rdF u (mmReg 0x110) 0 30 * 512)) = false →
      u.dram.scrubUnit < 15 →
      exec (.patrolScrub flips) s = .next (
      let v := scrubUnit u (rdF u (mmReg 0x110) 0 30 * 512 + u.dram.scrubUnit * 32)
      { v with dram := { v.dram with scrubUnit := u.dram.scrubUnit + 1 } })) ∧
    (∀ (flips : List (Nat × Nat)) (u s : State),
      u = upsetUnits s flips →
      rdF u (mmReg 0x110) 0 30 * 512 < dramCap u →
      scrubYields u (channelOf u (rdF u (mmReg 0x110) 0 30 * 512)) = true →
      exec (.patrolScrub flips) s = .next u) ∧
    (∀ (s : State),
      rdB s (mmReg 0x108) 9 = false →
      (s.dram.scrubPass + 1) * patrolWindow ≤ now s →
      exec .patrolScrubLate s = .next (report (wrB s (mmReg 0x108) 9 true) (devPage 4) 0x0806))

/-- An accepted write of MC_CTRL starts the named retrainings; one of MM_CTRL with REMAP while no context is resident rebuilds the map; one of MM_DREG that describes a valid range, or none, is stored, and one that does not is recorded; one of MM_FENCE that clears no bit that the register names, in either half when it is broken, fences the channels it names and is stored with the complement, and one that clears such a bit is ignored. Nothing else changes. -/
def Obligations.MemoryRegisters : Prop :=
    (∀ (a : Agent) (ctl : CtlId) (mask : Fin 16) (v : W64) (s : State),
      v = setField (rd s (mcReg ctl 0x100)) 4 4 mask →
      writeOk s a (mcReg ctl 0x100) v = true →
      exec (.mcRetrain a ctl mask) s = .next (mcCtrlWrite s ctl (merged s (mcReg ctl 0x100) 0xFFF0 v))) ∧
    (∀ (a : Agent) (v w : W64) (s : State),
      v = setField (rd s (mmReg 0x100)) 0 1 1 →
      writeOk s a (mmReg 0x100) v = true →
      w = merged s (mmReg 0x100) 3 v →
      bitOf w 0 = true →
      anyResident s = false →
      exec (.remapMem a) s = .next (remap (wr s (mmReg 0x100) (setBit w 0 false)))) ∧
    (∀ (a : Agent) (n : Fin 64) (limit : Bool) (v : W64) (s : State),
      writeOk s a (mmReg ((if limit then 0x208 else 0x200) + 0x10 * n.val)) v = true →
      exec (.dregSet a n limit v) s = .next (dregWrite s n (bit01 limit) v)) ∧
    (∀ (a : Agent) (n : Fin 64) (v : W64) (s : State),
      writeOk s a (mmReg (0x200 + 0x10 * n.val)) v = true →
      bitOf v 31 = false →
      exec (.dregSet a n false v) s = .next (wr s (mmReg (0x200 + 0x10 * n.val)) v)) ∧
    (∀ (a : Agent) (m : Fin 3) (v : W64) (u s : State),
      writeOk s a (mmReg (0x118 + 8 * m.val)) v = true →
      fenceMask s m &&& (2 ^ 32 - 1 - fieldOf v 0 32) = 0 →
      u = each ((List.range 32).filter (fun i => bitOf v i)) (fun x i => fenceChannel x (32 * m + i) 0) s →
      exec (.mmFenceSet a m v) s = .next (wrG u (mmReg (0x118 + 8 * m.val)) (fenceMask u m))) ∧
    (∀ (a : Agent) (m : Fin 3) (v : W64) (s : State),
      writeOk s a (mmReg (0x118 + 8 * m.val)) v = true →
      fenceMask s m &&& (2 ^ 32 - 1 - fieldOf v 0 32) ≠ 0 →
      exec (.mmFenceSet a m v) s = .next (ignored s (devPage 4)))

/-- On a running link a request of the companion that arrives first has those before it that waited performed, as far as they can be, and is then performed, unless it must wait behind one of them, when it is parked; a malformed one is recorded and, unless posted, answered UNMAPPED; its places in the ingress buffer are credited once it has left. A register read is answered with the value, or ACCESS; a register write is made. An uncached read of LPDDR6 is answered with its bytes, or DATA_ERR where one is withheld, and an uncached write is made when the flag table allows it; either is held, in order, when a line needs a snoop or a channel is not ready. A coherent read is given its line, shared or exclusive, when the directory set has room, and otherwise waits for the snoop of the set's first line; a shared line is upgraded, and a LOST one answered DATA_ERR. LINE_WB stores the line and LINE_EVICT gives it up. A snoop of the gateway cache is answered, with data when the line was modified, which is then invalid or shared. A doorbell merges its value; a message that may be sent, with credit, is sent and answered OK, and another NO_CREDIT; in HALTED neither is performed, and record 0x0904 is written. On a link that does not run, none changes anything. -/
def Obligations.CompanionRequests : Prop :=
    (∀ (h : GbHdr) (u s : State),
      gbUp s = true →
      gbWell h 0x01 (h.len == 0) = true →
      u = gbResume (linkAccept s 14) →
      gbBlocked u h = false →
      (regRead u .companion h.addr).1 = .ok →
      exec (.regRd h) s = .next (gbLeaves u (gbReply (regRead u .companion h.addr).2.2 h 0 (bytesOf 8 (regRead u .companion h.addr).2.1.toNat)) 0)) ∧
    (∀ (h : GbHdr) (u s : State),
      gbUp s = true →
      gbWell h 0x01 (h.len == 0) = true →
      u = gbResume (linkAccept s 14) →
      gbBlocked u h = false →
      (regRead u .companion h.addr).1 = .denied →
      exec (.regRd h) s = .next (gbLeaves u (gbReply (regRead u .companion h.addr).2.2 h 2 []) 0)) ∧
    (∀ (h : GbHdr) (v : W64) (u s : State),
      gbUp s = true →
      gbWell h 0x02 (h.len == 8) = true →
      u = gbResume (linkAccept s 14) →
      gbBlocked u h = false →
      exec (.regWr h v) s = .next (gbLeaves u ((regWrite u .companion h.addr v).2) 8)) ∧
    (∀ (h : GbHdr) (d : List (Option Byte)) (v : State) (u s : State),
      gbUp s = true →
      gbWell h 0x03 (ucShape h && !ucCrosses h) = true →
      u = gbResume (linkAccept s 14) →
      gbBlocked u h = false →
      gbRefused u h false = false →
      regionOf h.addr = .lpddr →
      dramMapped u h.addr h.len = true →
      unsettled u h.addr h.len false = false →
      dramRead u h.addr h.len none = (d, v) →
      exec (.memRdUc h) s = .next (gbLeaves u (if d.any (fun o => o.isNone) then gbReply v h 3 [] else gbReply v h 0 (d.map (fun o => o.getD 0))) 0)) ∧
    (∀ (h : GbHdr) (u s : State),
      gbUp s = true →
      gbWell h 0x03 (ucShape h && !ucCrosses h) = true →
      u = gbResume (linkAccept s 14) →
      gbBlocked u h = false →
      gbRefused u h false = false →
      regionOf h.addr = .lpddr →
      dramMapped u h.addr h.len = true →
      unsettled u h.addr h.len false = true →
      exec (.memRdUc h) s = .next (gbLeaves u (putLate (settle u h.addr h.len false) (.comp h [])) 0)) ∧
    (∀ (h : GbHdr) (u s : State),
      gbUp s = true →
      gbWell h 0x03 (ucShape h && !ucCrosses h) = true →
      u = gbResume (linkAccept s 14) →
      gbBlocked u h = false →
      gbRefused u h false = false →
      regionOf h.addr = .lpddr →
      dramMapped u h.addr h.len = false →
      exec (.memRdUc h) s = .next (gbLeaves u (gbReply (report u gbPage 0x0A01) h 1 []) 0)) ∧
    (∀ (h : GbHdr) (data : List Byte) (u s : State),
      gbUp s = true →
      gbWell h 0x04 (ucShape h && data.length == h.len && !ucCrosses h) = true →
      u = gbResume (linkAccept s 14) →
      gbBlocked u h = false →
      gbRefused u h true = false →
      regionOf h.addr = .lpddr →
      dramMapped u h.addr h.len = true →
      unsettled u h.addr h.len true = false →
      (flagCheck u h.addr (data.map some) true).1 = true →
      exec (.memWrUc h data) s = .next (gbLeaves u ((dramStore (clearLost (flagCheck u h.addr (data.map some) true).2 h.addr h.len) h.addr (data.map some) none).2) data.length)) ∧
    (∀ (h : GbHdr) (data : List Byte) (u s : State),
      gbUp s = true →
      gbWell h 0x04 (ucShape h && data.length == h.len && !ucCrosses h) = true →
      u = gbResume (linkAccept s 14) →
      gbBlocked u h = false →
      gbRefused u h true = false →
      regionOf h.addr = .lpddr →
      dramMapped u h.addr h.len = true →
      unsettled u h.addr h.len true = false →
      (flagCheck u h.addr (data.map some) true).1 = false →
      exec (.memWrUc h data) s = .next (gbLeaves u ((flagCheck u h.addr (data.map some) true).2) data.length)) ∧
    (∀ (h : GbHdr) (data : List Byte) (u s : State),
      gbUp s = true →
      gbWell h 0x04 (ucShape h && data.length == h.len && !ucCrosses h) = true →
      u = gbResume (linkAccept s 14) →
      gbBlocked u h = false →
      gbRefused u h true = false →
      regionOf h.addr = .lpddr →
      dramMapped u h.addr h.len = true →
      unsettled u h.addr h.len true = true →
      exec (.memWrUc h data) s = .next (gbLeaves u (putLate (settle u h.addr h.len true) (.comp h data)) data.length)) ∧
    (∀ (h : GbHdr) (u s : State),
      gbUp s = true →
      gbWell h 0x05 (lineShape h) = true →
      u = gbResume (linkAccept s 14) →
      gbBlocked u h = false →
      reachesMemory u .companion = true →
      regionOf h.addr = .lpddr →
      meetsFlags u h.addr 64 = false →
      dramMapped u h.addr 64 = true →
      snooping u (h.addr / 64) = false →
      lateOn u (h.addr / 64) = false →
      channelWaits u h.addr 64 = false →
      dirAt u (h.addr / 64) = 0 →
      (dirSet u (h.addr / 64)).length < 16 →
      exec (.lineRdS h) s = .next (gbLeaves u (grantLine u h (h.addr / 64) 1) 0)) ∧
    (∀ (h : GbHdr) (v : DirLine) (u s : State),
      gbUp s = true →
      gbWell h 0x05 (lineShape h) = true →
      u = gbResume (linkAccept s 14) →
      gbBlocked u h = false →
      reachesMemory u .companion = true →
      regionOf h.addr = .lpddr →
      meetsFlags u h.addr 64 = false →
      dramMapped u h.addr 64 = true →
      snooping u (h.addr / 64) = false →
      lateOn u (h.addr / 64) = false →
      channelWaits u h.addr 64 = false →
      dirAt u (h.addr / 64) = 0 →
      16 ≤ (dirSet u (h.addr / 64)).length →
      (dirSet u (h.addr / 64)).head? = some v →
      exec (.lineRdS h) s = .next (gbLeaves u (putLate (if snooping u v.line then u else snoop (incWrap u (gbReg 0x098) 1) v.line true) (.comp h [])) 0)) ∧
    (∀ (h : GbHdr) (u s : State),
      gbUp s = true →
      gbWell h 0x06 (lineShape h) = true →
      u = gbResume (linkAccept s 14) →
      gbBlocked u h = false →
      reachesMemory u .companion = true →
      regionOf h.addr = .lpddr →
      meetsFlags u h.addr 64 = false →
      dramMapped u h.addr 64 = true →
      snooping u (h.addr / 64) = false →
      lateOn u (h.addr / 64) = false →
      channelWaits u h.addr 64 = false →
      dirAt u (h.addr / 64) = 0 →
      (dirSet u (h.addr / 64)).length < 16 →
      exec (.lineRdX h) s = .next (gbLeaves u (grantLine u h (h.addr / 64) 2) 0)) ∧
    (∀ (h : GbHdr) (v : DirLine) (u s : State),
      gbUp s = true →
      gbWell h 0x06 (lineShape h) = true →
      u = gbResume (linkAccept s 14) →
      gbBlocked u h = false →
      reachesMemory u .companion = true →
      regionOf h.addr = .lpddr →
      meetsFlags u h.addr 64 = false →
      dramMapped u h.addr 64 = true →
      snooping u (h.addr / 64) = false →
      lateOn u (h.addr / 64) = false →
      channelWaits u h.addr 64 = false →
      dirAt u (h.addr / 64) = 0 →
      16 ≤ (dirSet u (h.addr / 64)).length →
      (dirSet u (h.addr / 64)).head? = some v →
      exec (.lineRdX h) s = .next (gbLeaves u (putLate (if snooping u v.line then u else snoop (incWrap u (gbReg 0x098) 1) v.line true) (.comp h [])) 0)) ∧
    (∀ (h : GbHdr) (u s : State),
      gbUp s = true →
      gbWell h 0x07 (lineShape h) = true →
      u = gbResume (linkAccept s 14) →
      gbBlocked u h = false →
      reachesMemory u .companion = true →
      regionOf h.addr = .lpddr →
      meetsFlags u h.addr 64 = false →
      dramMapped u h.addr 64 = true →
      snooping u (h.addr / 64) = false →
      lateOn u (h.addr / 64) = false →
      dirAt u (h.addr / 64) = 1 →
      exec (.lineUpg h) s = .next (gbLeaves u (gbReply (setDir u (h.addr / 64) 2) h 0 []) 0)) ∧
    (∀ (h : GbHdr) (u s : State),
      gbUp s = true →
      gbWell h 0x07 (lineShape h) = true →
      u = gbResume (linkAccept s 14) →
      gbBlocked u h = false →
      reachesMemory u .companion = true →
      regionOf h.addr = .lpddr →
      meetsFlags u h.addr 64 = false →
      dramMapped u h.addr 64 = true →
      snooping u (h.addr / 64) = false →
      lateOn u (h.addr / 64) = false →
      dirAt u (h.addr / 64) = 3 →
      exec (.lineUpg h) s = .next (gbLeaves u (gbReply (report (incSat u (gbReg 0x0B8)) gbPage 0x0908) h 3 []) 0)) ∧
    (∀ (h : GbHdr) (data : List Byte) (u s : State),
      gbUp s = true →
      gbWell h 0x08 (h.len == 64 && data.length == 64 && h.addr % 64 == 0) = true →
      u = gbResume (linkAccept s 14) →
      gbBlocked u h = false →
      regionOf h.addr = .lpddr →
      meetsFlags u h.addr 64 = false →
      dramMapped u h.addr 64 = true →
      dirAt u (h.addr / 64) = 2 →
      exec (.lineWb h data) s = .next (gbLeaves u (takeLine (setDir u (h.addr / 64) 0) (h.addr / 64) data) data.length)) ∧
    (∀ (h : GbHdr) (u s : State),
      gbUp s = true →
      gbWell h 0x09 (lineShape h) = true →
      u = gbResume (linkAccept s 14) →
      gbBlocked u h = false →
      regionOf h.addr = .lpddr →
      meetsFlags u h.addr 64 = false →
      dramMapped u h.addr 64 = true →
      (dirAt u (h.addr / 64) = 1 ∨ dirAt u (h.addr / 64) = 2) →
      exec (.lineEvict h) s = .next (gbLeaves u (setDir u (h.addr / 64) 0) 0)) ∧
    (∀ (h : GbHdr) (e : GwLine) (u s : State),
      gbUp s = true →
      gbWell h 0x20 (lineShape h) = true →
      u = oweCredit (linkAccept s 14) 14 1 (gbFlits 0) →
      gwAt u (h.addr / 64) = some e →
      exec (.snpInv h) s = .next (
      if e.st = 3 then gbSend (setGw u (h.addr / 64) none) 0x33 h.tag h.addr 0 e.data else gbSend (setGw u (h.addr / 64) none) 0x32 h.tag h.addr 0 [])) ∧
    (∀ (h : GbHdr) (u s : State),
      gbUp s = true →
      gbWell h 0x20 (lineShape h) = true →
      u = oweCredit (linkAccept s 14) 14 1 (gbFlits 0) →
      gwAt u (h.addr / 64) = none →
      exec (.snpInv h) s = .next (gbSend u 0x32 h.tag h.addr 0 [])) ∧
    (∀ (h : GbHdr) (e : GwLine) (u s : State),
      gbUp s = true →
      gbWell h 0x21 (lineShape h) = true →
      u = oweCredit (linkAccept s 14) 14 1 (gbFlits 0) →
      gwAt u (h.addr / 64) = some e →
      exec (.snpShr h) s = .next (
      if e.st = 3 then gbSend (setGw u (h.addr / 64) (some { e with st := 1 })) 0x33 h.tag h.addr 0 e.data else gbSend (setGw u (h.addr / 64) (some { e with st := 1 })) 0x32 h.tag h.addr 0 [])) ∧
    (∀ (h : GbHdr) (u s : State),
      gbUp s = true →
      gbWell h 0x21 (lineShape h) = true →
      u = oweCredit (linkAccept s 14) 14 1 (gbFlits 0) →
      gwAt u (h.addr / 64) = none →
      exec (.snpShr h) s = .next (gbSend u 0x32 h.tag h.addr 0 [])) ∧
    (∀ (h : GbHdr) (value : W64) (n : Nat) (u s : State),
      gbUp s = true →
      gbWell h 0x0A (h.len == 8) = true →
      u = gbResume (linkAccept s 14) →
      gbBlocked u h = false →
      halted u = false →
      n = h.addr % 1024 →
      bitOf (dbDest u n) 63 = true →
      exec (.doorbell h value) s = .next (gbLeaves u (setDb (if dbValue u n != 0 then incWrap u (gbReg 0x088) 1 else u) n (dbValue u n ||| value)) 8)) ∧
    (∀ (h : GbHdr) (data : List Byte) (m : Msg) (u s : State),
      gbUp s = true →
      gbWell h 0x0B (msgShape h data) = true →
      u = gbResume (linkAccept s 14) →
      gbBlocked u h = false →
      halted u = false →
      m = gbMsg u data →
      gbSends u m.hdr.context = true →
      hasCredit u unitGorbin m.hdr.dst m.hdr.context (hdrSlots m.hdr) = true →
      exec (.msg h data) s = .next (gbLeaves u (gbReply (incWrap (trySend u unitGorbin 0xFF (.doorbell 1024) m).2 (gbReg 0x090) 1) h 0 []) data.length)) ∧
    (∀ (h : GbHdr) (data : List Byte) (m : Msg) (u s : State),
      gbUp s = true →
      gbWell h 0x0B (msgShape h data) = true →
      u = gbResume (linkAccept s 14) →
      gbBlocked u h = false →
      halted u = false →
      m = gbMsg u data →
      (gbSends u m.hdr.context && hasCredit u unitGorbin m.hdr.dst m.hdr.context (hdrSlots m.hdr)) = false →
      exec (.msg h data) s = .next (gbLeaves u (gbReply u h 4 []) data.length)) ∧
    (∀ (h : GbHdr) (value : W64) (data : List Byte) (u s : State),
      gbUp s = true →
      u = gbResume (linkAccept s 14) →
      gbBlocked u h = false →
      halted u = true →
      (gbWell h 0x0A (h.len == 8) = true → exec (.doorbell h value) s = .next (gbLeaves u (report u gbPage 0x0904) 8)) ∧
        (gbWell h 0x0B (msgShape h data) = true → exec (.msg h data) s = .next (gbLeaves u (gbReply (report u gbPage 0x0904) h 2 []) data.length))) ∧
    (∀ (h : GbHdr) (v : W64) (data d : List Byte) (i : Instr) (posted : Bool) (u s : State),
      gbUp s = true →
      u = gbResume (linkAccept s 14) →
      (i, d, posted, true) ∈ gbForms h v data →
      gbBlocked u h = true →
      exec i s = .next (gbPark u h d)) ∧
    (∀ (h : GbHdr) (v : W64) (data d : List Byte) (i : Instr) (posted : Bool) (u s : State),
      gbUp s = true →
      u = report (oweCredit (gbResume (linkAccept s 14)) 14 2 (gbFlits d.length)) gbPage 0x0903 →
      (i, d, posted, false) ∈ gbForms h v data →
      exec i s = .next (if posted then u else gbReply u h 1 [])) ∧
    (∀ (h : GbHdr) (v : W64) (data : List Byte) (i : Instr) (s : State),
      gbUp s = false →
      i ∈ [.regRd h, .regWr h v, .memRdUc h, .memWrUc h data, .lineRdS h, .lineRdX h, .lineUpg h, .lineWb h data, .lineEvict h, .snpInv h, .snpShr h, .doorbell h v, .msg h data] →
      exec i s = .next s)

/-- On a running link a snoop response ends its snoop, moves the line, stores the data that it brings, and has the requests that waited performed; a LOST line that brought no data stays LOST. A completion ends its request: the line is installed, or upgraded, or the access that needs it fails with the status. After its time a snoop leaves its line LOST, and another request ends as DATA_ERR. An access of companion memory that hits is answered, one that misses waits, and one whose line could not be had fails. A doorbell with a value and credit is sent. The link goes down, and comes up from training, or takes in the lanes ordered trained. Nothing else changes. -/
def Obligations.DeviceRequests : Prop :=
    (∀ (tag : Fin 4096) (r : GbReq) (v s : State),
      gbUp s = true →
      gbReq s tag = some r →
      r.opc = 0x20 →
      v = gbDone (takeCrossing (oweCredit (linkAccept s 14) 14 0 (gbFlits 0)) (r.addr / 64)) tag →
      dirAt v (r.addr / 64) ≠ 3 →
      exec (.snpRsp tag) s = .next (gbResume (lateRun (setDir v (r.addr / 64) 0)))) ∧
    (∀ (tag : Fin 4096) (r : GbReq) (v s : State),
      gbUp s = true →
      gbReq s tag = some r →
      (r.opc = 0x20 ∨ r.opc = 0x21) →
      v = gbDone (takeCrossing (oweCredit (linkAccept s 14) 14 0 (gbFlits 0)) (r.addr / 64)) tag →
      dirAt v (r.addr / 64) = 3 →
      exec (.snpRsp tag) s = .next (gbResume (lateRun (renewDir v (r.addr / 64))))) ∧
    (∀ (tag : Fin 4096) (data : List Byte) (r : GbReq) (v s : State),
      gbUp s = true →
      data.length = 64 →
      gbReq s tag = some r →
      r.opc = 0x21 →
      v = gbDone (takeCrossing (oweCredit (linkAccept s 14) 14 0 (gbFlits 64)) (r.addr / 64)) tag →
      (dirAt v (r.addr / 64) = 1 ∨ dirAt v (r.addr / 64) = 2) →
      exec (.snpRspD tag data) s = .next (gbResume (lateRun (takeLine (setDir v (r.addr / 64) 1) (r.addr / 64) data)))) ∧
    (∀ (tag : Fin 4096) (r : GbReq) (e : GwLine) (v s : State),
      gbUp s = true →
      gbReq s tag = some r →
      r.opc = 0x12 →
      v = gbDone (oweCredit (linkAccept s 14) 14 0 (gbFlits 0)) tag →
      gwAt v (r.addr / 64) = some e →
      exec (.cmp tag 0) s = .next (setGw v (r.addr / 64) (some { e with st := max e.st 2 }))) ∧
    (∀ (tag : Fin 4096) (status : Fin 256) (r : GbReq) (s : State),
      gbUp s = true →
      gbReq s tag = some r →
      (r.opc = 0x10 ∨ r.opc = 0x11 ∨ r.opc = 0x12) →
      status ≠ 0 →
      exec (.cmp tag status) s = .next (gwFailed (gbDone (oweCredit (linkAccept s 14) 14 0 (gbFlits 0)) tag) (r.addr / 64) status)) ∧
    (∀ (tag : Fin 4096) (data : List Byte) (r : GbReq) (s : State),
      gbUp s = true →
      gbReq s tag = some r →
      (r.opc = 0x10 ∨ r.opc = 0x11) →
      data.length = 64 →
      exec (.cmpD tag 0 data) s = .next (
      gwInstall (gbDone (oweCredit (linkAccept s 14) 14 0 (gbFlits 64)) tag) (r.addr / 64) (if r.opc = 0x10 then 1 else 2) data)) ∧
    (∀ (tag : Fin 4096) (r : GbReq) (s : State),
      gbReq s tag = some r →
      (r.opc = 0x20 ∨ r.opc = 0x21) →
      r.since + 100000 ≤ now s →
      exec (.gbSnoopTimeout tag) s = .next (
      gbResume (lateRun (report (setDir (gbDone (takeCrossing s (r.addr / 64)) tag) (r.addr / 64) 3) gbPage 0x0905)))) ∧
    (∀ (tag : Fin 4096) (r : GbReq) (s : State),
      gbReq s tag = some r →
      r.opc ≠ 0x20 →
      r.opc ≠ 0x21 →
      r.since + 1000000 ≤ now s →
      exec (.hostTimeout tag) s = .next (complete (report s gbPage 0x090A) tag 3 [])) ∧
    (∀ (a : Agent) (addr len : Nat) (d : List Byte) (u s : State),
      reachesMemory s a = true →
      regionOf addr = .companion →
      regionOf (addr + len - 1) = .companion →
      len ≠ 0 →
      gwAccess s addr len none = (.ok d, u) →
      exec (.gatewayAccess a addr len none) s = .next (emit u (.bytes a 0 d))) ∧
    (∀ (a : Agent) (addr len : Nat) (data : List Byte) (u s : State),
      reachesMemory s a = true →
      regionOf addr = .companion →
      regionOf (addr + data.length - 1) = .companion →
      data ≠ [] →
      gwAccess s addr data.length (some (data.map some)) = (.wait, u) →
      exec (.gatewayAccess a addr len (some data)) s = .next u) ∧
    (∀ (a : Agent) (addr len st : Nat) (u s : State),
      reachesMemory s a = true →
      regionOf addr = .companion →
      regionOf (addr + len - 1) = .companion →
      len ≠ 0 →
      gwAccess s addr len none = (.fail st, u) →
      exec (.gatewayAccess a addr len none) s = .next (emit u (.bytes a st []))) ∧
    (∀ (n : Fin 1024) (m : Msg) (s : State),
      bitOf (dbDest s n) 63 = true →
      dbValue s n ≠ 0 →
      hasCredit s unitGorbin (fieldOf (dbDest s n) 0 36) (fieldOf (dbBind s n) 8 8) 1 = true →
      m = buildMsg s unitGorbin 0xFF (fieldOf (dbBind s n) 8 8) (fieldOf (dbDest s n) 0 36) (fieldOf (dbBind s n) 32 10) (if bitOf (dbDest s n) 62 then 3 else 2) (bytesOf 8 (dbValue s n).toNat) →
      exec (.doorbellSend n) s = .next (
      incWrap (trySend (setDb s n 0) unitGorbin 0xFF (.doorbell n) { m with hdr := { m.hdr with ctxEpoch := fieldOf (dbBind s n) 16 16 } }).2 (gbReg 0x080) 1)) ∧
    (∀ (s : State),
      gbUp s = true →
      exec .gbLinkDown s = .next (gbLost s 4)) ∧
    (∀ (lanes : Fin 256) (serial : Fin 16777216) (mask : Nat) (was : W64) (w u s : State),
      gbState s = 1 →
      mask = lanes.val &&& rdF s (gbReg 0x100) 24 8 →
      mask ≠ 0 →
      was = rd s (gbReg 0x110) →
      w = wr s (gbReg 0x110) (BitVec.ofNat 64 (2 ^ 63 + serial.val)) →
      u = linkInit (emit w (.link 14 (.ident (deviceId w) 14 (Config.serial % 2 ^ 24)))) 14 →
      exec (.gbLinkUp lanes serial) s = .next (
      gwAfterUp (raise (report (setGbState u (if mask = 255 then 2 else 3) mask) gbPage 0x0706 { detail := [mask] }) 307)
        (bitOf was 63 && fieldOf was 0 24 != serial.val))) ∧
    (∀ (lanes : Fin 256) (serial : Fin 16777216) (mask ordered : Nat) (u s : State),
      gbState s = 3 →
      mask = lanes.val &&& rdF s (gbReg 0x100) 24 8 →
      ordered = mapGet (fun _ => 0) s.fabric.retrain 14 →
      mask &&& ordered ≠ 0 →
      u = { s with fabric := { s.fabric with retrain := mapPut (fun _ => 0) s.fabric.retrain 14 (ordered &&& (255 - mask)) } } →
      exec (.gbLinkUp lanes serial) s = .next (gbCameUp u (gbLanes s ||| (mask &&& ordered))))

/-- An accepted write of GB_SEND_CTX that names only licensed contexts, none of them newly resident at the port's tile, is stored; GB_DB_BIND shows and takes the entry of its index; a read of GB_MSG_FAIL answers with it and clears VALID; GO of the boot path, while the ROM waits, begins the load. Nothing else changes. -/
def Obligations.GorbinRegisters : Prop :=
    (∀ (a : Agent) (m : Fin 4) (v : W64) (s : State),
      writeOk s a (gbReg (0x120 + 8 * m.val)) v = true →
      v = 0 →
      exec (.gbSendCtxWrite a m v) s = .next (wr s (gbReg (0x120 + 8 * m.val)) 0)) ∧
    (∀ (a : Agent) (m : Fin 4) (v : W64) (s : State),
      writeOk s a (gbReg (0x120 + 8 * m.val)) v = true →
      v ≠ 0 →
      (List.range 64).any (fun i => bitOf v i && licensedContexts s ≤ 64 * m + i) = false →
      (List.range 64).any (fun i => bitOf v i && !rdB s (gbReg (0x120 + 8 * m.val)) i && boundAt s 9 (64 * m + i)) = false →
      exec (.gbSendCtxWrite a m v) s = .next (wr s (gbReg (0x120 + 8 * m.val)) v)) ∧
    (∀ (a : Agent) (s : State),
      readOk s a (gbReg 0x160) = true →
      exec (.gbDbBindAccess a none) s = .next (emit (advance s (gbReg 0x150) 10 1024) (.regRead a 0 (rd s (banked (gbReg 0x160) (rdF s (gbReg 0x150) 0 10)))))) ∧
    (∀ (a : Agent) (v : W64) (s : State),
      writeOk s a (gbReg 0x160) v = true →
      exec (.gbDbBindAccess a (some v)) s = .next (
      advance (wr s (banked (gbReg 0x160) (rdF s (gbReg 0x150) 0 10)) (merged s (banked (gbReg 0x160) (rdF s (gbReg 0x150) 0 10)) 0x3FFFFFFFF00 v)) (gbReg 0x150) 10 1024)) ∧
    (∀ (a : Agent) (s : State),
      readOk s a (gbReg 0x118) = true →
      exec (.gbMsgFailRead a) s = .next (emit (wrB s (gbReg 0x118) 63 false) (.regRead a 0 (rd s (gbReg 0x118))))) ∧
    (∀ (a : Agent) (len : W32) (v : W64) (s : State),
      v = BitVec.ofNat 64 (place 63 1 1 + len.toNat) →
      writeOk s a (gbReg 0x178) v = true →
      exec (.bootGo a len) s = .next (bootCtrlWrite s (merged s (gbReg 0x178) 0x80000000FFFFFFFF v)))

/-- A collector's oldest record reaches the log, one in each 4 ns of Device Time; a read of LOG_REC shows the record at READ and LOG_READ moves it as far as WRITE; TB_SET before ready sets Device Time, TB_ADJ adds a correction that is slewed and its end is shown; a window's counts are published with their extremes and floors compared, a read of the extremes clears them, and a temperature is published. Nothing else changes. -/
def Obligations.LogAndTime : Prop :=
    (∀ (k : Fin 289) (r : Record) (rs : List Record) (s : State),
      mapGet (fun _ => []) s.log.coll k = r :: rs →
      exec (.recordLogEntry k) s = .next (
      if mapGet (fun _ => 0) s.log.passed k ≠ 0 ∧ mapGet (fun _ => 0) s.log.passed k ≤ now s + 1 ∧ now s + 1 < mapGet (fun _ => 0) s.log.passed k + 4 then s
      else logTake { s with log := { s.log with coll := mapPut (fun _ => []) s.log.coll k rs, passed := mapPut (fun _ => 0) s.log.passed k (now s + 1) } } r)) ∧
    (∀ (a : Agent) (s : State),
      readOk s a (logReg 0x200) = true →
      exec (.logRecRead a) s = .next (emit (logSnap s) (.regRead a 0 (logRec (logSnap s) 0)))) ∧
    (∀ (a : Agent) (index : Fin 4096) (s : State),
      writeOk s a (logReg 0x110) (BitVec.ofNat 64 index.val) = true →
      logUnread s < (index.val + 4096 - rdF s (logReg 0x110) 0 12) % 4096 →
      exec (.logReadSet a index) s = .next (ignored s (devPage 1))) ∧
    (∀ (a : Agent) (index : Fin 4096) (s : State),
      writeOk s a (logReg 0x110) (BitVec.ofNat 64 index.val) = true →
      (index.val + 4096 - rdF s (logReg 0x110) 0 12) % 4096 ≤ logUnread s →
      exec (.logReadSet a index) s = .next (setUnread (wrF s (logReg 0x110) 0 12 index.val) (logUnread s - (index.val + 4096 - rdF s (logReg 0x110) 0 12) % 4096))) ∧
    (∀ (a : Agent) (v : W64) (s : State),
      writeOk s a (devReg 2 0x108) v = true →
      hbReady s = false →
      s.boot.bootArg = none →
      exec (.tbSetWrite a v) s = .next (
      wrB { s with time := { s.time with dt := v }, boot := { s.boot with tbSet := true } } (hbReg 0x108) 8 true)) ∧
    (∀ (a : Agent) (v : W64) (s : State),
      writeOk s a (devReg 2 0x108) v = true →
      hbReady s = true →
      exec (.tbSetWrite a v) s = .next (reportB s (devPage 2) 8 0x0A06)) ∧
    (∀ (a : Agent) (v : W64) (s : State),
      writeOk s a (devReg 2 0x110) v = true →
      exec (.tbAdjust a v) s = .next (
      wrB { s with time := { s.time with slew := s.time.slew + v.toInt, phase := 0 } } (devReg 2 0x118) 0 true)) ∧
    (∀ (s : State),
      s.time.slew = 0 →
      exec .slewComplete s = .next (wrB s (devReg 2 0x118) 0 false)) ∧
    (∀ (c : ClusterId) (tile router : Fin 1048576) (k p : Nat) (h : HourStat) (u s1 s2 s3 s : State),
      k = now s / 1000 - 1 →
      now s / 1000 ≠ 0 →
      mapGet (fun _ => 0) s.yew.paced c ≠ now s / 1000 →
      u = { s with yew := { s.yew with paced := mapPut (fun _ => 0) s.yew.paced c (now s / 1000) } } →
      p = (if 2 ≤ clusterPower u c then 0 else tile.val) →
      s1 = wr u (clusterReg c 0x100) (BitVec.ofNat 64 (place 40 20 router.val + place 20 20 p + k % 2 ^ 20)) →
      s2 = wrF (wrF (wrF s1 (clusterReg c 0x108) 40 20 (max (rdF u (clusterReg c 0x108) 40 20) p)) (clusterReg c 0x108) 20 20 (min (rdF u (clusterReg c 0x108) 20 20) p)) (clusterReg c 0x108) 0 20 (min (rdF u (clusterReg c 0x108) 0 20 + 1) 0xFFFFF) →
      h = hourOf u (k * 1000 / hourNs) c →
      s3 = setHour s2 (k * 1000 / hourNs) c { h with sum := h.sum + p, count := h.count + 1, low := min h.low p } →
      exec (.paceWindowEnd c tile router) s = .next (
      paceLow (paceLow s3 c p (rdF u (clusterReg c 0x110) 0 20) 0) c router (rdF u (clusterReg c 0x110) 20 20) 1)) ∧
    (∀ (c : ClusterId) (tile router : Fin 1048576) (s : State),
      mapGet (fun _ => 0) s.yew.paced c = now s / 1000 →
      exec (.paceWindowEnd c tile router) s = .next s) ∧
    (∀ (a : Agent) (c : ClusterId) (s : State),
      readOk s a (clusterReg c 0x108) = true →
      exec (.clPaceExtRead a c) s = .next (emit (wr s (clusterReg c 0x108) (BitVec.ofNat 64 (0xFFFFF <<< 20))) (.regRead a 0 (rd s (clusterReg c 0x108)))))

/-- An event of a source that reaches the controller becomes pending and the targets are evaluated; IC_DONE clears the named sources of a group, pends a level source whose condition holds again, and lets the target fall; IC_SW raises the named software sources; at the end of a hold-off its group's pending sources are presented and a new window opens when one became pending during it. Nothing else changes. -/
def Obligations.InterruptController : Prop :=
    (∀ (n : SourceId) (s : State),
      s.irq.events.contains n.val = true →
      exec (.interruptEvent n) s = .next (icEval (icPend { s with irq := { s.irq with events := s.irq.events.erase n.val } } n))) ∧
    (∀ (a : Agent) (t : Fin 4) (g : Fin 32) (mask : Fin 65536) (s : State),
      writeOk s a (icReg (0x308 + 0x10 * t.val)) (BitVec.ofNat 64 (place 32 5 g.val + mask.val)) = true →
      exec (.icDoneWrite a t g mask) s = .next (icDone s t g mask)) ∧
    (∀ (a : Agent) (v : W64) (s : State),
      writeOk s a (icReg 0x180) v = true →
      exec (.icSwWrite a false v) s = .next (each ((List.range 64).filter (bitOf v)) (fun u i => raise u (64 * 6 + i)) s)) ∧
    (∀ (a : Agent) (v : W64) (s : State),
      writeOk s a (icReg 0x188) v = true →
      exec (.icSwWrite a true v) s = .next (each ((List.range 64).filter (bitOf v)) (fun u i => raise u (64 * 7 + i)) s)) ∧
    (∀ (g : Fin 32) (u s : State),
      mapGet (fun _ => 0) s.irq.holdEnd g ≠ 0 →
      mapGet (fun _ => 0) s.irq.holdEnd g ≤ now s →
      mapGet (fun _ => false) s.irq.duringHold g = true →
      u = wrB { s with irq := { s.irq with holdEnd := mapPut (fun _ => 0) s.irq.holdEnd g 0, duringHold := mapPut (fun _ => false) s.irq.duringHold g false, pres := (((List.range 16).map (fun i => 16 * g.val + i)).filter (fun n => s.irq.pend.getLsbD n)).foldl (fun p n => p ||| BitVec.ofNat 512 (2 ^ n)) s.irq.pres } } (icReg (0x400 + 8 * g.val)) 16 false →
      exec (.holdoffEnd g) s = .next (icEval (icHold u g (mapGet (fun _ => 0) s.irq.holdEnd g)))) ∧
    (∀ (g : Fin 32) (u s : State),
      mapGet (fun _ => 0) s.irq.holdEnd g ≠ 0 →
      mapGet (fun _ => 0) s.irq.holdEnd g ≤ now s →
      mapGet (fun _ => false) s.irq.duringHold g = false →
      u = wrB { s with irq := { s.irq with holdEnd := mapPut (fun _ => 0) s.irq.holdEnd g 0, duringHold := mapPut (fun _ => false) s.irq.duringHold g false, pres := (((List.range 16).map (fun i => 16 * g.val + i)).filter (fun n => s.irq.pend.getLsbD n)).foldl (fun p n => p ||| BitVec.ofNat 512 (2 ^ n)) s.irq.pres } } (icReg (0x400 + 8 * g.val)) 16 false →
      exec (.holdoffEnd g) s = .next (icEval u))

/-- A step-end token with the step's value at the head of STEP_Q is held, one with another value is a program fault; a tile whose token is held and whose work is idle releases it and votes; the block votes once its local notices are in; a dirty mark after the vote counts against the next step; a combined VOTE of the current epoch at its root is decided by the table of R343. Nothing else changes. -/
def Obligations.StepVotes : Prop :=
    (∀ (t : TileId) (c : CtxId) (m : Msg) (u s : State),
      stepped s c = true →
      (csState s c = 1 ∨ csState s c = 2) →
      endHeld s t c = false →
      voteHeld s t c = false →
      tileRuns s t = true →
      ctxStopped s t c = false →
      qState s t (csCfg s c 16 8) ≠ 0 →
      qRead s t (csCfg s c 16 8) = true →
      qOwner s t (csCfg s c 16 8) = c.val →
      headMsg s t (csCfg s c 16 8) = some (m, u) →
      (msgToken m).kind = 1 →
      (msgToken m).value = stepOf s c % 65536 →
      exec (.stepEndToken t c) s = .next (setEndHeld u t c true)) ∧
    (∀ (t : TileId) (c : CtxId) (m : Msg) (u s : State),
      stepped s c = true →
      (csState s c = 1 ∨ csState s c = 2) →
      endHeld s t c = false →
      voteHeld s t c = false →
      tileRuns s t = true →
      ctxStopped s t c = false →
      qState s t (csCfg s c 16 8) ≠ 0 →
      qRead s t (csCfg s c 16 8) = true →
      qOwner s t (csCfg s c 16 8) = c.val →
      headMsg s t (csCfg s c 16 8) = some (m, u) →
      (msgToken m).kind = 1 →
      (msgToken m).value ≠ stepOf s c % 65536 →
      exec (.stepEndToken t c) s = .next (programFault u t 4 c 0x0B05 (csCfg s c 16 8))) ∧
    (∀ (t : TileId) (c : CtxId) (r : Nat) (s : State),
      endHeld s t c = true →
      stepIdle s t c = true →
      slotOfCtx s t c = some r →
      exec (.tileVote t c) s = .next (
      tileVote (setEndHeld (release s t (csCfg s c 16 8)) t c false) t c ((slotFlags s t r).testBit 0) ((slotFlags s t r).testBit 1))) ∧
    (∀ (c : CtxId) (s : State),
      stepped s c = true →
      csState s c = 1 →
      (attOf s c).voted = false →
      csCfg s c 48 13 ≤ (attOf s c).notices.length →
      exec (.blockVote c) s = .next (blockVote s c (!isDirty s c) true)) ∧
    (∀ (c : CtxId) (u s : State),
      s.commit.dirtyReq.contains c.val = true →
      u = { s with commit := { s.commit with dirtyReq := s.commit.dirtyReq.erase c.val } } →
      (attOf u c).voted = true →
      csState u c ≠ 1 →
      exec (.dirtySet c) s = .next (setAtt u c { attOf u c with dirtyNext := true })) ∧
    (∀ (c : CtxId) (u s : State),
      s.commit.dirtyReq.contains c.val = true →
      u = { s with commit := { s.commit with dirtyReq := s.commit.dirtyReq.erase c.val } } →
      csState u c = 1 →
      exec (.dirtySet c) s = .next (wrB u (csCtx c 0x1A0) 10 true)) ∧
    (∀ (root : TileId) (p : Ctrl) (u s : State),
      p.type = 0x0C →
      takeEjected s root (.ctrl p) = some u →
      stepped u p.context = true →
      (csState u p.context = 1 ∨ csState u p.context = 2) →
      oldEpoch u p.context p.ctxEpoch = false →
      exec (.voteComplete root p) s = .next (decide343 u p.context p.words))

/-- A DECIDE of the open step is counted and starts the journal's application on COMMIT, aborts for a replay (naming also this device's contributors to a reduction whose residue failed on another one, log entry 177), for an audit or as a fault; once the journal is applied the next step opens; a member that loses its path is in doubt when it has voted and aborts when it has not; a durable write of mapped memory is made through the journal. Nothing else changes. -/
def Obligations.StepDecisions : Prop :=
    (∀ (p : Ctrl) (u s : State),
      p.type = 0x0D →
      p.words.getD 0 0 % 8 = 1 →
      takeEjected s 1 (.ctrl p) = some u →
      oldEpoch u p.context p.ctxEpoch = false →
      stepped u p.context = true →
      (csState u p.context = 1 ∨ csState u p.context = 2) →
      wordsStep p.words 1 = stepOf u p.context →
      exec (.decideCommit p) s = .next (startApply (noteDecide u p.context 1) p.context)) ∧
    (∀ (p : Ctrl) (l : List ClusterId) (u v s : State),
      p.type = 0x0D →
      p.words.getD 0 0 % 8 = 2 →
      takeEjected s 1 (.ctrl p) = some u →
      oldEpoch u p.context p.ctxEpoch = false →
      stepped u p.context = true →
      (csState u p.context = 1 ∨ csState u p.context = 2) →
      wordsStep p.words 1 = stepOf u p.context →
      v = noteDecide u p.context 2 →
      exec (.abortReplay p l) s
        = .next (abortReplay (nameAlso v p.context 0x0105 (contributedAway v p.context (l.map (fun k => k.val)))) p.context)) ∧
    (∀ (p : Ctrl) (u s : State),
      p.type = 0x0D →
      p.words.getD 0 0 % 8 = 3 →
      takeEjected s 1 (.ctrl p) = some u →
      oldEpoch u p.context p.ctxEpoch = false →
      stepped u p.context = true →
      (csState u p.context = 1 ∨ csState u p.context = 2) →
      wordsStep p.words 1 = stepOf u p.context →
      exec (.abortFault p) s = .next (abortFault (noteDecide u p.context 3) p.context)) ∧
    (∀ (p : Ctrl) (v u s : State),
      p.type = 0x0D →
      p.words.getD 0 0 % 8 = 4 →
      takeEjected s 1 (.ctrl p) = some u →
      oldEpoch u p.context p.ctxEpoch = false →
      stepped u p.context = true →
      (csState u p.context = 1 ∨ csState u p.context = 2) →
      wordsStep p.words 1 = stepOf u p.context →
      v = noteDecide u p.context 4 →
      exec (.decideAudit p) s = .next (
      let w := setAtt (dropJournal (keepSig v p.context true) p.context) p.context { attOf v p.context with kind := 2, firstSig := csSig v p.context, firstClusters := ctxClusters v p.context }
      setCsState (tearOnce (incWrap w (csReg 0x090) 1) p.context false) p.context 5)) ∧
    (∀ (c : CtxId) (u s : State),
      csState s c = 3 →
      applyJournal s c = u →
      (attOf u c).applied = true →
      (capturing u c (stepOf u c)).any (captureBusy u) = false →
      exec (.journalApplied c) s = .next (finishApply u c)) ∧
    (∀ (c : CtxId) (named : Bool) (u s : State),
      stepped s c = true →
      csState s c = 2 →
      pathLost s c named = true →
      u = report (setCsState s c 4) (devPage 11) 0x0B06 { ctx := some c } →
      exec (.inDoubt c named) s = .next (if inDoubtAny s then u else raise u 369)) ∧
    (∀ (c : CtxId) (named : Bool) (s : State),
      stepped s c = true →
      csState s c = 1 →
      pathLost s c named = true →
      exec (.rootPathLost c named) s = .next (abortReplay s c)) ∧
    (∀ (t : TileId) (c : CtxId) (a : Nat) (data : List Byte) (s : State),
      stepped s c = true →
      dramMapped s a data.length = true →
      exec (.durableWrite t c a data) s = .next (
      let w := memWrite s a (data.map some) (some c) (some t)
      if w.1 then w.2 else clearClean w.2 t c))

/-- With CS_INDEX written, CS_CMD opens a step, resolves a member in doubt or clears a fault; the step number is written while the context is IDLE and its configuration while it is IDLE or FAULTED; CS_TFS_READ is stored and raises its source when an item becomes pending. Nothing else changes. -/
def Obligations.StepRegisters : Prop :=
    (∀ (a : Agent) (c : CtxId) (v u s : State),
      writeOk s a (csReg 0x108) (BitVec.ofNat 64 c.val) = true →
      u = indexed s (csReg 0x108) 0xFF c →
      writeOk u a (csReg 0x1C8) 1 = true →
      csOpen u c (a == .hornbeam) = some v →
      exec (.csOpenCmd a c) s = .next v) ∧
    (∀ (a : Agent) (c : CtxId) (u s : State),
      writeOk s a (csReg 0x108) (BitVec.ofNat 64 c.val) = true →
      u = indexed s (csReg 0x108) 0xFF c →
      writeOk u a (csReg 0x1C8) 2 = true →
      csState u c = 4 →
      exec (.resolveCommit a c) s = .next (startApply (setDecision u c 1) c)) ∧
    (∀ (a : Agent) (c : CtxId) (u s : State),
      writeOk s a (csReg 0x108) (BitVec.ofNat 64 c.val) = true →
      u = indexed s (csReg 0x108) 0xFF c →
      writeOk u a (csReg 0x1C8) 3 = true →
      csState u c = 4 →
      exec (.resolveAbort a c) s = .next (abortReplay (setDecision u c 2) c)) ∧
    (∀ (a : Agent) (c : CtxId) (u s : State),
      writeOk s a (csReg 0x108) (BitVec.ofNat 64 c.val) = true →
      u = indexed s (csReg 0x108) 0xFF c →
      writeOk u a (csReg 0x1C8) 4 = true →
      csState u c = 6 →
      exec (.clearFault a c) s = .next (setCsState u c 0)) ∧
    (∀ (a : Agent) (c : CtxId) (hi : Bool) (v : W64) (u s : State),
      writeOk s a (csReg 0x108) (BitVec.ofNat 64 c.val) = true →
      u = indexed s (csReg 0x108) 0xFF c →
      writeOk u a (csReg (if hi then 0x188 else 0x180)) v = true →
      csState u c = 0 →
      exec (.csStepWrite a c hi v) s = .next (wr u (csCtx c (if hi then 0x188 else 0x180)) v)) ∧
    (∀ (a : Agent) (c : CtxId) (v w : W64) (u s : State),
      writeOk s a (csReg 0x108) (BitVec.ofNat 64 c.val) = true →
      u = indexed s (csReg 0x108) 0xFF c →
      writeOk u a (csReg 0x190) v = true →
      w = merged u (csCtx c 0x190) 0x1FFFFFFFFFFF0003 v →
      (csState u c = 0 ∨ csState u c = 6) →
      (bitOf w 0 = false ∨ journalBad u c = false) →
      exec (.csCfgSet a c false v) s = .next (wr u (csCtx c 0x190) w)) ∧
    (∀ (a : Agent) (c : CtxId) (v : W64) (u s : State),
      writeOk s a (csReg 0x108) (BitVec.ofNat 64 c.val) = true →
      u = indexed s (csReg 0x108) 0xFF c →
      writeOk u a (csReg 0x198) v = true →
      (csState u c = 0 ∨ csState u c = 6) →
      exec (.csCfgSet a c true v) s = .next (wr u (csCtx c 0x198) (merged u (csCtx c 0x198) 0x3FFFF0003FFFF v))) ∧
    (∀ (a : Agent) (index : Fin 65536) (u s : State),
      writeOk s a (csReg 0x120) (BitVec.ofNat 64 index.val) = true →
      u = wr s (csReg 0x120) (merged s (csReg 0x120) 0xFFFF (BitVec.ofNat 64 index.val)) →
      exec (.csTfsReadWrite a index) s = .next (if tfsPending u && !tfsPending s then raise u 370 else u))

/-- A replay that voted settles a quarantined cluster by the test's result: the class is recorded in 0x0B09 and in tfs/1, and a strike that reaches the limit fences the cluster; a conditional fence enters and leaves force with its reading; a fence ordered or commanded by its entry is applied and the floor counts recomputed; a credit entry whose halves no longer match is handled as its unit says, and another stored guarded value as its page says, and the waiters and rings of the regions that it made invalid are dropped. Nothing else changes. -/
def Obligations.FenceEvents : Prop :=
    (∀ (k : ClusterId) (q : Suspect) (u v s : State),
      s.commit.quar.find? (fun (x : Suspect) => x.cluster == k.val && x.replaySig.isSome) = some q →
      mapGet (fun _ => 0) s.commit.confirm k = 2 →
      u = { s with commit := { s.commit with quar := s.commit.quar.erase q, confirm := if (s.commit.quar.erase q).any (fun (x : Suspect) => x.cluster == k.val) then s.commit.confirm else mapErase k s.commit.confirm } } →
      v = report u (devPage 11) 0x0B09 { ctx := some q.ctx, detail := [if baseClass q < 7 then baseClass q + 1 else baseClass q, k.val] } →
      exec (.classified k) s = .next (
      writeTfs v { loc := [(1, 2), (3, k.val)], ctx := some q.ctx, step := some q.step, code := q.code, cls := some (if baseClass q < 7 then baseClass q + 1 else baseClass q), cluster := some k.val, residues := if 0x0101 ≤ q.code && q.code ≤ 0x0105 then some (q.pred, q.obs) else none, sigs := q.replaySig.map (fun r => (q.firstSig, r)), entry := none })) ∧
    (∀ (k : ClusterId) (q : Suspect) (u v w s : State),
      s.commit.quar.find? (fun (x : Suspect) => x.cluster == k.val && x.replaySig.isSome) = some q →
      mapGet (fun _ => 0) s.commit.confirm k = 1 →
      u = { s with commit := { s.commit with quar := s.commit.quar.erase q, confirm := if (s.commit.quar.erase q).any (fun (x : Suspect) => x.cluster == k.val) then s.commit.confirm else mapErase k s.commit.confirm } } →
      strike u k = (true, v) →
      w = report v (devPage 11) 0x0B09 { ctx := some q.ctx, detail := [if baseClass q < 7 then baseClass q + 1 else baseClass q, k.val] } →
      exec (.classified k) s = .next (
      queueFence (each (tilesOf k) (fun x t => if tileFenced x t then x else stopTile x t) (writeTfs w { loc := [(1, 2), (3, k.val)], ctx := some q.ctx, step := some q.step, code := q.code, cls := some (if baseClass q < 7 then baseClass q + 1 else baseClass q), cluster := some k.val, residues := if 0x0101 ≤ q.code && q.code ≤ 0x0105 then some (q.pred, q.obs) else none, sigs := q.replaySig.map (fun r => (q.firstSig, r)), entry := some (fenceEntry 2 k.val 0 q.code) })) (fenceEntry 2 k.val 0 q.code))) ∧
    (∀ (k : ClusterId) (q : Suspect) (u v w s : State),
      s.commit.quar.find? (fun (x : Suspect) => x.cluster == k.val && x.replaySig.isSome) = some q →
      mapGet (fun _ => 0) s.commit.confirm k = 1 →
      u = { s with commit := { s.commit with quar := s.commit.quar.erase q, confirm := if (s.commit.quar.erase q).any (fun (x : Suspect) => x.cluster == k.val) then s.commit.confirm else mapErase k s.commit.confirm } } →
      strike u k = (false, v) →
      w = report v (devPage 11) 0x0B09 { ctx := some q.ctx, detail := [baseClass q, k.val] } →
      exec (.classified k) s = .next (
      writeTfs w { loc := [(1, 2), (3, k.val)], ctx := some q.ctx, step := some q.step, code := q.code, cls := some (baseClass q), cluster := some k.val, residues := if 0x0101 ≤ q.code && q.code ≤ 0x0105 then some (q.pred, q.obs) else none, sigs := q.replaySig.map (fun r => (q.firstSig, r)), entry := none })) ∧
    (∀ (e : Fin 18446744073709551616) (k : Nat) (s : State),
      feCluster e = some k →
      s.commit.condFences.contains e.val = true →
      s.commit.inForce.contains e.val = false →
      condReading s e k = some true →
      pastFailing s e k = false →
      exec (.condFence e) s = .next (
      report { s with commit := { s.commit with inForce := s.commit.inForce ++ [e.val] } } (devPage 11) 0x0B0B { detail := [e.val / 2 ^ 32, e.val % 2 ^ 32, 1] })) ∧
    (∀ (e : Fin 18446744073709551616) (k : Nat) (s : State),
      feCluster e = some k →
      s.commit.condFences.contains e.val = true →
      s.commit.inForce.contains e.val = true →
      condReading s e k = some false →
      pastFailing s e k = false →
      exec (.condFence e) s = .next (
      report { s with commit := { s.commit with inForce := s.commit.inForce.erase e.val } } (devPage 11) 0x0B0B { detail := [e.val / 2 ^ 32, e.val % 2 ^ 32, 0] })) ∧
    (∀ (e : Fin 18446744073709551616) (s : State),
      feOk e = true →
      feCond e ≤ 3 →
      s.commit.fenceJobs.contains e.val = true →
      exec (.unitFence e) s = .next (
      setFloor (applyFence { s with commit := { s.commit with fenceJobs := s.commit.fenceJobs.erase e.val } } e))) ∧
    (∀ (e : Fin 18446744073709551616) (s : State),
      feOk e = true →
      feCond e ≤ 3 →
      s.commit.fenceJobs.contains e.val = false →
      s.commit.fenceLog.contains e.val = false →
      exec (.unitFence e) s = .next (setFloor (applyFence s e))) ∧
    (∀ (a : Fin 4294967296) (flip : W64) (x : Nat × Nat × Credit) (e : Credit) (s : State),
      shownCredit s (regBase + a.val) = some x →
      e = { x.2.2 with cred := x.2.2.cred ^^^ flip } →
      exec (.guardFault a 0 flip) s = .next (
      if guardOk (x.2.2.cred ^^^ flip) then setCredit s x.2.1 e else creditGuard (setCredit s x.2.1 e) x.1 x.2.1 e.ctx)) ∧
    (∀ (a : Fin 4294967296) (flip : W64) (u s : State),
      shownCredit s (regBase + a.val) = none →
      isGuarded (regBase + a.val) = true →
      pageOf (regBase + a.val) ≠ devPage 11 →
      flip ≠ 0 →
      guardOk (rd s (regBase + a.val) ^^^ flip) = false →
      u = wr s (regBase + a.val) (rd s (regBase + a.val) ^^^ flip) →
      exec (.guardFault a 0 flip) s = .next (dropLost s u (guardBroken u (regBase + a.val) 0) (decodePage (pageOf (regBase + a.val))))) ∧
    (∀ (a : Fin 4294967296) (k : Fin 257) (flip : W64) (s : State),
      isGuarded (regBase + a.val) = true →
      pageOf (regBase + a.val) = devPage 11 →
      k ≠ 0 →
      flip ≠ 0 →
      guardOk (rd s (banked (regBase + a.val) (k.val - 1)) ^^^ flip) = false →
      exec (.guardFault a k flip) s = .next (
      guardBroken (wr s (banked (regBase + a.val) (k.val - 1)) (rd s (banked (regBase + a.val) (k.val - 1)) ^^^ flip)) (regBase + a.val) k.val))

/-- At a window's end the nodes that waited without progress count one more stalled window, and the largest closed set of nodes stalled for WINDOWS windows is a hang; recovery aborts and holds, samples, tears down, and then opens the suspects again one by one until each has shown itself or is found guilty. Nothing else changes. -/
def Obligations.HangRounds : Prop :=
    (∀ (s : State),
      (now s / 1000 = 0 ∨ s.recov.window = now s / 1000) →
      exec .brambleWindow s = .next s) ∧
    (∀ (w : Nat) (m : NMap Nat) (u s : State),
      w = now s / 1000 →
      w ≠ 0 →
      s.recov.window ≠ w →
      m = ((allNodes s).filter (nodeStalled s (allWaits s) (w - 1))).foldl (fun (acc : NMap Nat) n => mapPut (fun _ => 0) acc n
        (min 15 ((if s.recov.window = w - 1 then mapGet (fun _ => 0) s.recov.stalled n else 0) + 1))) [] →
      u = { s with recov := { s.recov with stalled := m, window := w } } →
      (rdB u (brReg 0x100) 0 = false ∨ closedSet (allWaits s) ((m.filter (fun e => rdF s (brReg 0x100) 8 4 ≤ e.2)).map Prod.fst).length ((m.filter (fun e => rdF s (brReg 0x100) 8 4 ≤ e.2)).map Prod.fst) = []) →
      exec .brambleWindow s = .next u) ∧
    (∀ (w : Nat) (m : NMap Nat) (l : List Nat) (u s : State),
      w = now s / 1000 →
      w ≠ 0 →
      s.recov.window ≠ w →
      m = ((allNodes s).filter (nodeStalled s (allWaits s) (w - 1))).foldl (fun (acc : NMap Nat) n => mapPut (fun _ => 0) acc n
        (min 15 ((if s.recov.window = w - 1 then mapGet (fun _ => 0) s.recov.stalled n else 0) + 1))) [] →
      u = { s with recov := { s.recov with stalled := m, window := w } } →
      rdB s (brReg 0x100) 0 = true →
      closedSet (allWaits s) ((m.filter (fun e => rdF s (brReg 0x100) 8 4 ≤ e.2)).map Prod.fst).length ((m.filter (fun e => rdF s (brReg 0x100) 8 4 ≤ e.2)).map Prod.fst) = l →
      l ≠ [] →
      exec .brambleWindow s = .next (
      foundHang u (allWaits s) { members := l.map (fun n => (n / 256, n % 256)), cause := 1, dt := now s, set := none })) ∧
    (∀ (u s : State),
      brPhase s = 1 →
      u = each (s.recov.round.filter (stepped s)) (fun x c => if s.recov.guilty.contains c then x else originate x c 1 false) s →
      exec .recoveryHold s = .next (
      setPhase (each (u.recov.round.filter (fun c => tdState u c == 0)) (fun x c => setTdState x c 1) u) 2)) ∧
    (∀ (h : Hang) (u s : State),
      s.recov.current = some h →
      brPhase s = 2 →
      (brArea s).2 = 0 →
      u = report s (devPage 10) 0x0C0D →
      exec .sampleComplete s = .next (afterRound (setPhase (each u.recov.round requestTeardown u) 3))) ∧
    (∀ (h : Hang) (u s : State),
      s.recov.current = some h →
      brPhase s = 2 →
      (brArea s).2 ≠ 0 →
      (sampleLate s = true ∨ sampleSleeps s = []) →
      u = takeSample s h →
      exec .sampleComplete s = .next (afterRound (setPhase (each u.recov.round requestTeardown u) 3))) ∧
    (∀ (h : Hang) (s : State),
      s.recov.current = some h →
      brPhase s = 2 →
      (brArea s).2 ≠ 0 →
      sampleLate s = false →
      sampleSleeps s ≠ [] →
      exec .sampleComplete s = .next (each (sampleSleeps s) (fun u y => ownWake u y.1 y.2.1 y.2.2) s)) ∧
    (∀ (c : CtxId) (u s : State),
      brPhase s = 4 →
      admitted s = none →
      s.recov.toAdmit.head? = some c.val →
      csState s c = 5 →
      csOpen s c true = some u →
      exec (.admission c) s = .next (setAdmitted { u with recov := { u.recov with toAdmit := u.recov.toAdmit.drop 1 } } (some c.val))) ∧
    (∀ (c : CtxId) (u s : State),
      brPhase s = 4 →
      admitted s = none →
      s.recov.toAdmit.head? = some c.val →
      (csState s c = 0 ∨ csState s c = 6) →
      u = { s with recov := { s.recov with toAdmit := s.recov.toAdmit.drop 1 } } →
      exec (.admission c) s = .next (if u.recov.toAdmit.isEmpty then endRecovery u else u)) ∧
    (∀ (c : Nat) (h : Hang) (s : State),
      admitted s = some c →
      s.recov.admHang = some h →
      exec .admissionEnd s = .next (findGuilty s c h)) ∧
    (∀ (c : Nat) (u s : State),
      admitted s = some c →
      s.recov.admHang = none →
      ((attOf s c).notices ≠ [] ∨ (attOf s c).voted = true ∨ csState s c ≠ 1 ∨ s.recov.admitDt + rdF s (brReg 0x100) 32 16 * 100000 ≤ now s) →
      u = setAdmitted s none →
      exec .admissionEnd s = .next (if u.recov.toAdmit.isEmpty then endRecovery u else u))

/-- A teardown asked for takes its steps once; a context already torn down goes on to what awaited it; a drain that is over ends the teardown, with record 0x0C03 when it ended by its bound; TD_CMD asks for a teardown, and RELEASE notes that the context is to be unbound; an ABORT applies to every context its group and time name, and is counted as ignored when it names none. Nothing else changes. -/
def Obligations.Teardowns : Prop :=
    (∀ (c : CtxId) (u s : State),
      s.recov.tdReq.contains c.val = true →
      u = { s with recov := { s.recov with tdReq := s.recov.tdReq.erase c.val } } →
      tdState s c ≠ 2 →
      tdState s c ≠ 3 →
      tdState s c ≠ 4 →
      exec (.teardown c) s = .next (tearDown u c (s.recov.guilty.contains c.val))) ∧
    (∀ (c : CtxId) (u s : State),
      s.recov.tdReq.contains c.val = true →
      u = { s with recov := { s.recov with tdReq := s.recov.tdReq.erase c.val } } →
      (tdState s c = 3 ∨ tdState s c = 4) →
      exec (.teardown c) s = .next (afterRound (afterTorn u c))) ∧
    (∀ (c : CtxId) (d : Nat × Nat) (u v s : State),
      mapFind c s.recov.draining = some d →
      tdState s c = 2 →
      drainOver s c d.1 d.2 = (true, false) →
      u = setTdState { s with recov := { s.recov with draining := mapErase c s.recov.draining } } c 3 →
      v = (if u.recov.round.contains c.val && !stepped u c then report u (devPage 10) 0x0C07 { ctx := some c.val } else u) →
      exec (.teardownDrain c) s = .next (afterRound (afterTorn v c))) ∧
    (∀ (c : CtxId) (d : Nat × Nat) (w u v s : State),
      mapFind c s.recov.draining = some d →
      tdState s c = 2 →
      drainOver s c d.1 d.2 = (true, true) →
      w = incSat (report s (devPage 10) 0x0C03 { ctx := some c.val }) (brReg 0x0A0) →
      u = setTdState { w with recov := { w.recov with draining := mapErase c w.recov.draining } } c 3 →
      v = (if u.recov.round.contains c.val && !stepped u c then report u (devPage 10) 0x0C07 { ctx := some c.val } else u) →
      exec (.teardownDrain c) s = .next (afterRound (afterTorn v c))) ∧
    (∀ (a : Agent) (c : CtxId) (s : State),
      writeOk s a (brReg 0x140) (BitVec.ofNat 64 (place 8 3 1 + c.val)) = true →
      exec (.tdTeardown a c) s = .next (tdCmd s c 1)) ∧
    (∀ (a : Agent) (c : CtxId) (s : State),
      writeOk s a (brReg 0x140) (BitVec.ofNat 64 (place 8 3 2 + c.val)) = true →
      exec (.tdRelease a c) s = .next (tdCmd s c 2)) ∧
    (∀ (t : TileId) (p : Ctrl) (u s : State),
      p.type = 0x0E →
      takeEjected s t (.ctrl p) = some u →
      (List.range 256).filter (abortMatches u p) ≠ [] →
      exec (.abortArrival t p) s = .next (each ((List.range 256).filter (abortMatches u p)) (abortCtx p t) u)) ∧
    (∀ (t : TileId) (p : Ctrl) (u s : State),
      p.type = 0x0E →
      takeEjected s t (.ctrl p) = some u →
      (List.range 256).filter (abortMatches u p) = [] →
      exec (.abortArrival t p) s = .next (abortIgnored u p))

/-- RST_CMD, while no reset is in progress, starts the reset of one cluster, of the clusters of RST_PART, of the device outside Privet or of the whole device; a command that comes while one is in progress is refused; a cluster or partition reset is over when its tiles run their firmware again, and a device reset when the device is ready; releasing module reset starts Device Time at 0. Nothing else changes. -/
def Obligations.ResetDomains : Prop :=
    (∀ (a : Agent) (c : Fin 512) (s : State),
      writeOk s a (brReg 0x180) (BitVec.ofNat 64 (place 8 9 c.val + 1)) = true →
      rstBusy s = false →
      c.val < 288 →
      exec (.rstCluster a c) s = .next (startReset s 1 [c.val])) ∧
    (∀ (a : Agent) (c : Fin 512) (s : State),
      writeOk s a (brReg 0x180) (BitVec.ofNat 64 (place 8 9 c.val + 1)) = true →
      (rstBusy s = true ∨ 288 ≤ c.val) →
      exec (.rstCluster a c) s = .next (rstRefused s)) ∧
    (∀ (a : Agent) (s : State),
      writeOk s a (brReg 0x180) 2 = true →
      rstBusy s = false →
      rstPart s ≠ [] →
      (rstPart s).all (fun k => k < 288) = true →
      exec (.rstPartition a) s = .next (startReset s 2 (rstPart s))) ∧
    (∀ (a : Agent) (s : State),
      writeOk s a (brReg 0x180) 3 = true →
      rstBusy s = false →
      exec (.rstWarm a) s = .next (warmReset s)) ∧
    (∀ (a : Agent) (s : State),
      writeOk s a (brReg 0x180) 4 = true →
      rstBusy s = false →
      exec (.rstCold a) s = .next (coldReset s)) ∧
    (∀ (u v s : State),
      resetReady s = true →
      u = setDestReset s (if s.recov.resetCmd = 3 ∨ s.recov.resetCmd = 4 then (List.range 4608).filter (tileInReset s) else tilesIn s.recov.resetting) false →
      v = wrB { u with recov := { u.recov with
        resetting := [], resetCmd := 0, resetCtx := u.recov.resetCtx.filter (fun e => !u.recov.resetting.contains e.1) } } (devReg 10 0x188) 0 false →
      exec .resetDone s = .next (raise (report v (devPage 10) 0x0C0B { detail := [s.recov.resetCmd] }) 373)) ∧
    (∀ (s : State),
      s.module.rstLow = false →
      s.module.supplyFault = false →
      s.module.overTemp = false →
      exec .moduleResetRelease s = .next (releaseReset s)) ∧
    (∀ (s : State),
      (s.module.rstLow = true ∨ s.module.supplyFault = true ∨ s.module.overTemp = true) →
      exec .moduleResetRelease s = .next s)

/-- DT reaching the last seal plus τ makes a checkpoint due and raises source 374; while ENABLE is 1 the mover takes the next step of an export or a restore, or sends the next piece of the captured state in an idle slot, as the credit allows; a piece that arrives for an open half is answered with its credit, written into it and noted; while ENABLE is 1 a half whose image has come whole and can be read is sealed or left open by its block checks; SEALED gives the owner its step and the C of the checkpoint, restarts the window and raises source 375; a copy owed to flash starts, and one that waited for memory goes on. Nothing else changes. -/
def Obligations.CheckpointEvents : Prop :=
    (∀ (n : Fin 4) (u s : State),
      (streamOf s n).wait = none →
      ownValid s n = true →
      rdB s (ckReg 0x100) 0 = true →
      (streamOf s n).due = false →
      ((streamOf s n).sealDt - 1) + tauMs s n * 1000000 ≤ now s →
      ((streamOf s n).ownTake = none ∨ (streamOf s n).captured = false) →
      u = setStream s n { streamOf s n with due := true } →
      exec (.ckDue n) s = .next (if ckDueAny s then u else raise u 374)) ∧
    (∀ (n : Fin 4) (p : Nat × Nat) (s : State),
      (streamOf s n).exportAt = none →
      (streamOf s n).restore = none →
      (streamOf s n).ownTake.isSome = true →
      (streamOf s n).captured = true →
      rdB s (ckReg 0x100) 0 = true →
      stateAt (streamOf s n).segs (streamOf s n).next = some p →
      unsettled s ((snapArea s n).1 + (streamOf s n).next) (min 992 p.2) false = false →
      (vc3Idle s (ownHolder s n) && hasCredit s (unitAt s 1 (ownCtx s n)) (ckMsg s (ownCtx s n) (ownHolder s n) p.1 (engineRead s ((snapArea s n).1 + (streamOf s n).next) (min 992 p.2)).1).hdr.dst (ownCtx s n) (hdrSlots (ckMsg s (ownCtx s n) (ownHolder s n) p.1 (engineRead s ((snapArea s n).1 + (streamOf s n).next) (min 992 p.2)).1).hdr)) = true →
      exec (.trickleSend n) s = .next (
      let m := ckMsg s (ownCtx s n) (ownHolder s n) p.1 (engineRead s ((snapArea s n).1 + (streamOf s n).next) (min 992 p.2)).1
      let s1 := (trySend (engineRead s ((snapArea s n).1 + (streamOf s n).next) (min 992 p.2)).2 (unitAt s 1 (ownCtx s n)) 0xFE .block m).2
      let s2 := incWrap s1 (ckReg 0x088) (hdrSlots m.hdr)
      wrF (setStream s2 n { streamOf s n with next := (streamOf s n).next + min 992 p.2 }) (ckSt n 0x1C0) 0 32 (((streamOf s n).next + min 992 p.2) / mib2))) ∧
    (∀ (n : Fin 4) (e : Nat × Nat) (s : State),
      (streamOf s n).exportAt = some e →
      rdB s (ckReg 0x100) 0 = true →
      exec (.trickleSend n) s = .next (exportBlock s n e.1 e.2)) ∧
    (∀ (n : Fin 4) (r : Nat × Nat × Bool × Nat) (s : State),
      (streamOf s n).exportAt = none →
      (streamOf s n).restore = some r →
      rdB s (ckReg 0x100) 0 = true →
      exec (.trickleSend n) s = .next (restoreSend s n r.1 r.2.1 r.2.2.1 r.2.2.2)) ∧
    (∀ (n : Fin 4) (s : State),
      rdB s (ckReg 0x100) 0 = false →
      exec (.trickleSend n) s = .next s ∧ exec (.flashCopy n) s = .next s) ∧
    (∀ (m : Msg) (n off : Nat) (data : List Byte) (v w u s : State),
      epQueue m.hdr.dst = 0xFE →
      epTile m.hdr.dst = 1 →
      8 ≤ m.pay.length →
      takeEjected s 1 (.msg m) = some u →
      v = inject u 1 (.ctrl (returnPkt u 1 0xFE m.hdr)) →
      (List.range 4).find? (fun k => holdValid s k && holdOwner s k == epDev m.hdr.src && holdCtx s k == m.hdr.context && (streamOf s k).holdTake.isSome) = some n →
      off = natOfBytes (m.pay.drop (m.pay.length - 8)) →
      data = m.pay.take (m.pay.length - 8) →
      off + data.length ≤ halfLen s n →
      w = engineWrite v (halfBase v n (streamOf v n).half + off) data →
      exec (.checkpointDataArrival m) s = .next (
      setStream w n { streamOf v n with came := mapInsert off data.length (mapErase off (streamOf v n).came) })) ∧
    (∀ (n : Fin 4) (blocks step a : Nat) (s : State),
      (streamOf s n).holdTake = some step →
      rdB s (ckReg 0x100) 0 = true →
      blocks ≠ 0 →
      4096 + 8 * blocks + blocks * mib2 ≤ halfLen s n →
      imageCame (streamOf s n).came blocks = true →
      a = halfBase s n (streamOf s n).half →
      unsettled s a (4096 + 8 * blocks + blocks * mib2) false = false →
      exec (.sealImage n blocks) s = .next (
      sealDone n step blocks a ((List.range blocks).foldl (fun (acc : Bool × State) k =>
      let m := engineRead acc.2 (a + 4096 + 8 * k) 8
      sealBlock acc.1 (natOfBytes m.1) (engineRead m.2 (a + 4096 + 8 * blocks + k * mib2) mib2)) (true, s)))) ∧
    (∀ (n : Fin 4) (blocks step : Nat) (s : State),
      (streamOf s n).holdTake = some step →
      (rdB s (ckReg 0x100) 0 = false ∨ blocks = 0 ∨ imageCame (streamOf s n).came blocks = false) →
      exec (.sealImage n blocks) s = .next s) ∧
    (∀ (n : Fin 4) (step : Fin 281474976710656) (dt : Nat) (v u s : State),
      (streamOf s n).ownTake = some step.val →
      (streamOf s n).captured = true →
      v = wrF (setStream s n { streamOf s n with ownTake := none, captured := false, sealDt := dt + 1, due := false }) (ckSt n 0x1B0) 0 32 (streamOf s n).hold →
      u = wrF v (ckSt n 0x1A8) 0 48 step →
      exec (.sealedReceived n step dt) s = .next (
      resumeTake (raise (setTau (if holdValid s n then u else wrF u (ckSt n 0x1A8) 60 1 (streamOf s n).half) n) 375) n)) ∧
    (∀ (n : Fin 4) (s : State),
      rdB s (ckReg 0x100) 0 = true →
      (streamOf s n).flashOwed = true →
      (streamOf s n).flashAt = none →
      holdValid s n = true →
      exec (.flashCopy n) s = .next (flashStep (setStream s n { streamOf s n with flashOwed := false }) n (newestHalf s n) 0)) ∧
    (∀ (n : Fin 4) (f : Nat × Nat) (s : State),
      rdB s (ckReg 0x100) 0 = true →
      (streamOf s n).flashAt = some f →
      (streamOf s n).copyWaits = true →
      holdValid s n = true →
      exec (.flashCopy n) s = .next (flashStep s n f.1 f.2))

/-- With CK_INDEX written, CK_CMD TAKE starts a take, or waits while another runs, the half it would open is being copied or memory cannot be reached; CANCEL ends both sides of the one that runs, and a TAKE that waits, with record 0x0D09; EXPORT and the restores start when the stream holds an image and is free for it, and are ignored otherwise; a write of CK_LAMBDA_HOST recomputes τ. Nothing else changes. -/
def Obligations.CheckpointRegisters : Prop :=
    (∀ (a : Agent) (n : Fin 4) (step : Fin 281474976710656) (u s : State),
      writeOk s a (ckReg 0x108) (BitVec.ofNat 64 n.val) = true →
      u = indexed s (ckReg 0x108) 3 n →
      writeOk u a (ckReg 0x1A0) (BitVec.ofNat 64 (place 48 3 1 + step.val)) = true →
      rdB u (ckReg 0x100) 0 = true →
      (ownValid u n = true ∨ holdValid u n = true) →
      (takeLate u n step = true ∨ (ckBusy u n = false ∧ (holdValid u n && halfCopied u n (nextHalf u n)) = false ∧ takeBusy u n = false)) →
      exec (.ckTakeCmd a n step) s = .next (startTake u n step)) ∧
    (∀ (a : Agent) (n : Fin 4) (step : Fin 281474976710656) (v u s : State),
      writeOk s a (ckReg 0x108) (BitVec.ofNat 64 n.val) = true →
      u = indexed s (ckReg 0x108) 3 n →
      writeOk u a (ckReg 0x1A0) (BitVec.ofNat 64 (place 48 3 1 + step.val)) = true →
      rdB u (ckReg 0x100) 0 = true →
      (ownValid u n = true ∨ holdValid u n = true) →
      takeLate u n step = false →
      (ckBusy u n = true ∨ (holdValid u n && halfCopied u n (nextHalf u n)) = true ∨ takeBusy u n = true) →
      exec (.ckTakeCmd a n step) s = .next (setStream u n { streamOf u n with wait := some (step.val, now u), late := false })) ∧
    (∀ (a : Agent) (n : Fin 4) (v u s : State),
      writeOk s a (ckReg 0x108) (BitVec.ofNat 64 n.val) = true →
      u = indexed s (ckReg 0x108) 3 n →
      writeOk u a (ckReg 0x1A0) (BitVec.ofNat 64 (place 48 3 2)) = true →
      v = ckEndHold (ckEndOwn u n 0x0D09) n 0x0D09 →
      (streamOf v n).wait = none →
      exec (.ckCancel a n) s = .next v) ∧
    (∀ (a : Agent) (n : Fin 4) (w : Nat × Nat) (v u s : State),
      writeOk s a (ckReg 0x108) (BitVec.ofNat 64 n.val) = true →
      u = indexed s (ckReg 0x108) 3 n →
      writeOk u a (ckReg 0x1A0) (BitVec.ofNat 64 (place 48 3 2)) = true →
      v = ckEndHold (ckEndOwn u n 0x0D09) n 0x0D09 →
      (streamOf v n).wait = some w →
      exec (.ckCancel a n) s = .next (
      let y := setStream v n { streamOf v n with wait := none, late := false }
      if ckBusy u n then y else report y ckPage 0x0D09 { ctx := some (if ownValid u n then ownCtx u n else holdCtx u n) })) ∧
    (∀ (n code : Nat) (s : State),
      (streamOf s n).ownTake.isSome = true →
      ckEndOwn s n code = report (setStream s n { streamOf s n with ownTake := none, captured := false }) ckPage code { ctx := some (ownCtx s n) }) ∧
    (∀ (n code : Nat) (s : State),
      (streamOf s n).holdTake.isSome = true →
      ckEndHold s n code = report (setStream s n { streamOf s n with holdTake := none }) ckPage code { ctx := some (holdCtx s n) }) ∧
    (∀ (a : Agent) (n : Fin 4) (half : Fin 2) (u s : State),
      writeOk s a (ckReg 0x108) (BitVec.ofNat 64 n.val) = true →
      u = indexed s (ckReg 0x108) 3 n →
      writeOk u a (ckReg 0x1A0) (BitVec.ofNat 64 (place 51 1 half.val + place 48 3 3)) = true →
      holdValid u n = true →
      (streamOf u n).exportAt = none →
      exec (.ckExport a n half) s = .next (setStream u n { streamOf u n with exportAt := some (half.val, 0) })) ∧
    (∀ (a : Agent) (n : Fin 4) (half : Fin 2) (dev : Fin 32768) (u s : State),
      writeOk s a (ckReg 0x108) (BitVec.ofNat 64 n.val) = true →
      u = indexed s (ckReg 0x108) 3 n →
      writeOk u a (ckReg 0x1A0) (BitVec.ofNat 64 (place 51 1 half.val + place 48 3 4 + dev.val)) = true →
      exec (.restorePartner a n half dev) s = .next (startRestore u n dev half false)) ∧
    (∀ (a : Agent) (n : Fin 4) (half : Fin 2) (dev : Fin 32768) (u s : State),
      writeOk s a (ckReg 0x108) (BitVec.ofNat 64 n.val) = true →
      u = indexed s (ckReg 0x108) 3 n →
      writeOk u a (ckReg 0x1A0) (BitVec.ofNat 64 (place 51 1 half.val + place 48 3 5 + dev.val)) = true →
      exec (.restoreFlash a n half dev) s = .next (startRestore u n dev half true)) ∧
    (∀ (n target half : Nat) (s : State),
      (holdValid s n = false ∨ (streamOf s n).restore.isSome = true) →
      ∀ flash : Bool, startRestore s n target half flash = ignored s ckPage) ∧
    (∀ (a : Agent) (fit : W32) (s : State),
      writeOk s a (ckReg 0x110) (BitVec.ofNat 64 fit.toNat) = true →
      exec (.ckLambdaHostWrite a fit) s = .next (lambdaWrite s fit.toNat))

/-- Each phase acts only while it is the one that runs: ROM and START take their next step, REPAIR builds the repair map once what it reads has come, FIRMWARE sends every chunk to the copies and the type groups, MEMORY keeps, quick-starts or tests the channels, LINKS trains the ports and ends when none trains or 1 s has passed, TOPOLOGY compares the ports and waits for LOCK, LICENCE declares ready inside the window and halts outside it; a wait that begins raises source 377. A tile loader answers a PULL of a chunk that its copy has, takes the pieces meant for it and counts every other firmware packet; a round ends in the next one, or, after eight or with nothing missing, in the fencing of the incomplete tiles. Nothing else changes. -/
def Obligations.BootPhases : Prop :=
    (∀ (s : State),
      s.time.held = false →
      hbPhase s ≤ 1 →
      exec .romPhase s = .next (noteWait s (romStep s))) ∧
    (∀ (s : State),
      hbPhase s = 0 →
      s.boot.step = 0 →
      romStep s = atStep (ufsRead (measureRom s) 0 0 1 .directory) 1) ∧
    (∀ (s : State),
      hbPhase s = 0 →
      s.boot.step = 4 →
      romStep s = (if imageGood s then imageTaken s else imageBad s [imgVersion s / 2 ^ 24])) ∧
    (∀ (s : State),
      hbPhase s = 2 →
      exec .startPhase s = .next (noteWait s (startStep s))) ∧
    (∀ (s : State),
      hbPhase s = 3 →
      s.boot.step = 0 →
      exec .repairPhase s = .next (atStep (readAges (if lifeCycle s < 4 then readLog s else s)) 1)) ∧
    (∀ (s : State),
      hbPhase s = 3 →
      s.boot.step ≠ 0 →
      repairAwaited s = false →
      exec .repairPhase s = .next (repair s)) ∧
    (∀ (u s : State),
      hbPhase s = 4 →
      s.boot.step = 0 →
      u = each (List.range (tileChunks s)) (fun x k => hbPieces (hbPieces x 0 (some 0xFF4) k (chunkHash s k) (chunkData s k)) 0 (some (0xFF0 + chunkType s k)) k (chunkHash s k) (chunkData s k)) s →
      exec .firmwarePhase s = .next (
      atStep { u with boot := { u.boot with fwRound := some 0, fwTiles := (List.range 4608).filter (fun t => !tileFenced u t) } } 1)) ∧
    (∀ (fail weak : List ChanId) (s : State),
      hbPhase s = 5 →
      s.boot.step = 0 →
      dirEntry s 4 = none →
      exec (.memoryPhase fail weak) s = .next (memoryPath s [] (fail.map (fun h => h.val)) (weak.map (fun h => h.val)))) ∧
    (∀ (fail weak : List ChanId) (d : Nat × Nat × Nat) (s : State),
      hbPhase s = 5 →
      s.boot.step = 0 →
      dirEntry s 4 = some d →
      exec (.memoryPhase fail weak) s = .next (atStep (ufsRead (trainChannels s) d.1 d.2.1 1 .sdRead) 1)) ∧
    (∀ (s : State),
      hbPhase s = 6 →
      s.boot.step = 0 →
      exec .linksPhase s = .next (atStep (markTopo (trainPorts s)) 1)) ∧
    (∀ (s : State),
      hbPhase s = 6 →
      s.boot.step ≠ 0 →
      (anyTraining s = false ∨ s.boot.topoDt + 1000000000 ≤ now s) →
      exec .linksPhase s = .next (noteWait s (toPhase s 7))) ∧
    (∀ (u s : State),
      hbPhase s = 7 →
      u = (if s.boot.step = 0 then compareTopo s else s) →
      exec .topologyPhase s = .next (if u.boot.step = 2 && locked u then toPhase u 8 else u)) ∧
    (∀ (l : Licence) (s : State),
      hbPhase s = 8 →
      s.boot.licence = some l →
      l.notBefore ≤ now s →
      pastEnd s l = false →
      exec .licencePhase s = .next (declareReady s)) ∧
    (∀ (l : Licence) (s : State),
      hbPhase s = 8 →
      s.boot.licence = some l →
      (now s < l.notBefore ∨ pastEnd s l = true) →
      exec .licencePhase s = .next (noteWait s (halt (report s (devPage 7) 0x0E0F)))) ∧
    (∀ (s : State),
      hbPhase s = 8 →
      s.boot.licence = none →
      exec .licencePhase s = .next (noteWait s (halt (report s (devPage 7) 0x0E0E)))) ∧
    (∀ (s : State),
      hbPhase s = 7 →
      s.boot.step = 2 →
      locked s = false →
      s.boot.topoDt + 200000000 ≤ now s →
      exec .timeNoLock s = .next (report (atStep s 3) (devPage 7) 0x0E0D)) ∧
    (∀ (l : Licence) (s : State),
      s.boot.licence = some l →
      hbReady s = true →
      s.boot.expired = false →
      pastEnd s l = true →
      exec .licExpired s = .next (raise (report { s with boot := { s.boot with expired := true } } (devPage 7) 0x0E10) 378)) ∧
    (∀ (t : TileId) (p : FwPkt) (u s : State),
      takeEjected s t (.fw p) = some u →
      p.pull = true →
      isCopy u t = true →
      (fwOf u t p.chunk).ok = true →
      p.src % 8192 < 4608 →
      exec (.fwPacket t p) s = .next (answerPull u t p)) ∧
    (∀ (t : TileId) (p : FwPkt) (u s : State),
      takeEjected s t (.fw p) = some u →
      p.pull = true →
      (isCopy u t = false ∨ (fwOf u t p.chunk).ok = false ∨ 4608 ≤ p.src % 8192) →
      exec (.fwPacket t p) s = .next (ctlCount u t 0 1)) ∧
    (∀ (t : TileId) (p : FwPkt) (u s : State),
      takeEjected s t (.fw p) = some u →
      p.pull = false →
      p.piece < 8 →
      ((isCopy u t = true ∧ p.chunk < tileChunks u ∧ p.hash = chunkHash u p.chunk) ∨ (isCopy u t = false ∧ inService u t = false ∧ (ownChunks u t).contains p.chunk = true)) →
      exec (.fwPacket t p) s = .next (fwPiece u t p)) ∧
    (∀ (t : TileId) (p : FwPkt) (u s : State),
      takeEjected s t (.fw p) = some u →
      p.pull = false →
      (8 ≤ p.piece ∨ (isCopy u t = true ∧ (tileChunks u ≤ p.chunk ∨ (p.hash == chunkHash u p.chunk) = false)) ∨ (isCopy u t = false ∧ (inService u t = true ∨ (ownChunks u t).contains p.chunk = false))) →
      exec (.fwPacket t p) s = .next (ctlCount u t 0 1)) ∧
    (∀ (n : Nat) (s : State),
      s.boot.fwRound = some n →
      (incomplete s).isEmpty = false →
      n < 8 →
      exec .fwRoundEnd s = .next (beginRound s (n + 1))) ∧
    (∀ (n : Nat) (s : State),
      s.boot.fwRound = some n →
      ((incomplete s).isEmpty = true ∨ 8 ≤ n) →
      exec .fwRoundEnd s = .next (endRounds s))

/-- HB_CMD acts in the phases that allow it and is ignored in the others: BOOT gives START its argument, RECHECK runs LINKS and TOPOLOGY again, INSTALL_LICENCE reads a licence, JSCAN applies a journal after a warm reset before any binding, SHARE sends the tile firmware over a group; the host controller issues the oldest waiting command, or an ageing record at its limit that only waits behind a flash copy, while it is enabled and fewer than 32 are out, a failed one is issued once more and then ends with record 0x0E14, and the link rests in HIBERN8 after 1 ms without a command. Nothing else changes. -/
def Obligations.BootCommands : Prop :=
    (∀ (a : Agent) (arg : W64) (u s : State),
      writeOk s a (hbReg 0x118) arg = true →
      u = wr s (hbReg 0x118) arg →
      writeOk u a (hbReg 0x110) 1 = true →
      hbPhase u = 2 →
      u.boot.bootArg = none →
      exec (.hbBoot a arg) s = .next { u with boot := { u.boot with bootArg := some arg.toNat } }) ∧
    (∀ (a : Agent) (s : State),
      writeOk s a (hbReg 0x110) 2 = true →
      hbPhase s = 7 →
      1 ≤ s.boot.step →
      exec (.hbRecheck a) s = .next (recheck s)) ∧
    (∀ (a : Agent) (s : State),
      writeOk s a (hbReg 0x110) 2 = true →
      (hbPhase s ≠ 7 ∨ s.boot.step = 0) →
      exec (.hbRecheck a) s = .next (ignored s (devPage 7))) ∧
    (∀ (a : Agent) (arg : W64) (u s : State),
      writeOk s a (hbReg 0x118) arg = true →
      u = wr s (hbReg 0x118) arg →
      writeOk u a (hbReg 0x110) 3 = true →
      2 ≤ hbPhase u →
      hbPhase u ≤ 10 →
      lifeCycle u ≠ 5 →
      u.boot.install = none →
      exec (.installLicence a arg) s = .next (installTry { u with boot := { u.boot with install := some arg.toNat } })) ∧
    (∀ (a : Agent) (arg : W64) (u s : State),
      writeOk s a (hbReg 0x118) arg = true →
      u = wr s (hbReg 0x118) arg →
      writeOk u a (hbReg 0x110) 4 = true →
      2 ≤ hbPhase u →
      hbPhase u ≤ 9 →
      rdB u (hbReg 0x108) 7 = true →
      u.boot.bound = false →
      u.boot.jscan = none →
      exec (.jscan a arg) s = .next (jscanTry (setJscan { u with boot := { u.boot with jscan := some arg.toNat } } 0 0))) ∧
    (∀ (a : Agent) (g : Fin 4096) (s : State),
      writeOk s a (hbReg 0x110) (BitVec.ofNat 64 (place 3 12 g.val + 5)) = true →
      hbReady s = true →
      exec (.shareFw a g) s = .next (share s g)) ∧
    (∀ (aux : Fin 6) (x : UfsCmd) (u s : State),
      u = (if aux.val = 0 then s else setUfs s ({ op := if aux.val = 5 then 2 else 2 + aux.val, lun := 0, block := 0, count := 0, data := [], user := .host, tries := 0, issued := false } :: s.ufs.cmds)) →
      rdB s (ufsReg 0x100) 0 = true →
      (s.ufs.cmds.filter (fun y => y.issued)).length < 32 →
      ufsNext (now s) u.ufs.cmds = some x →
      exec (.ufsCommand aux) s = .next (
      incWrap (ufsIssue (setUfs u (markFirst (fun y => y == x) (fun y => { y with issued := true }) u.ufs.cmds)) x) (ufsReg 0x080) 1)) ∧
    (∀ (k : Fin 32) (data : List Byte) (p : Nat) (x : UfsCmd) (s : State),
      issuedAt s.ufs.cmds k.val 0 = some p →
      s.ufs.cmds[p]? = some x →
      x.tries = 0 →
      exec (.ufsCommandCompletion k false data) s = .next (
      let s1 := { s with ufs := { s.ufs with idleSince := now s + 1 } }
      incWrap (ufsIssue (incSat (setUfs s1 (s.ufs.cmds.set p { x with tries := 1 })) (ufsReg 0x90)) x) (ufsReg 0x80) 1)) ∧
    (∀ (k : Fin 32) (data : List Byte) (p : Nat) (x : UfsCmd) (s : State),
      issuedAt s.ufs.cmds k.val 0 = some p →
      s.ufs.cmds[p]? = some x →
      x.tries ≠ 0 →
      exec (.ufsCommandCompletion k false data) s = .next (
      let s1 := { s with ufs := { s.ufs with idleSince := now s + 1 } }
      ufsUser (report (incSat (setUfs s1 (s.ufs.cmds.eraseIdx p)) (ufsReg 0x90)) (devPage 14) 0x0E14) x.user false [])) ∧
    (∀ (k : Fin 32) (data : List Byte) (p : Nat) (x : UfsCmd) (s : State),
      issuedAt s.ufs.cmds k.val 0 = some p →
      s.ufs.cmds[p]? = some x →
      exec (.ufsCommandCompletion k true data) s = .next (
      let s1 := { s with ufs := { s.ufs with idleSince := now s + 1 } }
      ufsUser (incWrap (setUfs s1 (s.ufs.cmds.eraseIdx p)) (ufsReg 0x88) x.bytes) x.user true (if x.op = 0 then fitBytes x.bytes data else []))) ∧
    (∀ (s : State),
      ufsLink s = 1 →
      s.ufs.cmds.any (fun x => x.issued) = false →
      s.ufs.idleSince + 1000000 ≤ now s + 1 →
      exec .hibern8Entry s = .next (wrF s (ufsReg 0x108) 0 2 2))

/-- The next cluster in rotation falls due and is to be vacated; a test kept waiting for 24 h by a placement asks the companion for the cluster once; a due and vacated cluster is tested or its test queued, with the drift of its canary noted, but not in power state P3 and not before the scrub of a bank; where the life cycle forbids it the request is denied; the queue holds 16 tests, of which one in service gives way; invalid tests come back after their wait; a quarantined cluster is tested for its classification; a test that the clock, the voltage or a new fence spoilt is invalid; a test's result is taken once its voltage was reached, the scratchpads' contents are undefined, and a failed one goes on to a sweep, at once or after a queued CONFIRM, whose entries are fenced; a shut-down test goes from segment to segment, with a sweep for each cluster that failed; a canary's trip is counted in its second and hour and acts at the limit; each hour's record goes to the flash ring. Nothing else changes. -/
def Obligations.TestEvents : Prop :=
    (∀ (c t : Nat) (u s : State),
      rdB s (ywReg 0x100) 0 = true →
      yewAllowed s = true →
      s.yew.nextDt ≤ now s →
      nextCluster s = some c →
      t = (if s.yew.nextDt = 0 then now s else s.yew.nextDt) →
      u = { s with yew := { s.yew with last := c, nextDt := t + testPeriod s } } →
      exec .infieldDue s = .next (if (mapFind c s.yew.due).isSome then u else makeDue u c t)) ∧
    (∀ (c : Nat) (s : State),
      rdB s (ywReg 0x100) 0 = true →
      yewAllowed s = false →
      s.yew.nextDt ≤ now s →
      nextCluster s = some c →
      exec .infieldDue s = .next (
      reportB { s with yew := { s.yew with last := c, nextDt := (if s.yew.nextDt = 0 then now s else s.yew.nextDt) + testPeriod s } } ywPage 1 0x0A05)) ∧
    (∀ (c : ClusterId) (d : Nat) (u s : State),
      mapFind c.val s.yew.due = some d →
      rdB s (ywReg 0x118) 63 = false →
      d + hours24 ≤ now s →
      (placedOn s c).isEmpty = false →
      u = { s with yew := { s.yew with yieldDt := now s, vacate := s.yew.vacate.erase c } } →
      exec (.yieldRequest c) s = .next (
      raise (report (wr u (ywReg 0x118) (BitVec.ofNat 64 (2 ^ 63 + place 32 9 c.val + d / 1000000000 % 2 ^ 32))) ywPage 0x0F04 { detail := [c.val] }) 379)) ∧
    (∀ (c : ClusterId) (pace : Nat) (s : State),
      (mapFind c.val s.yew.due).isSome = true →
      s.yew.vacate.contains c.val = true →
      (placedOn s c).isEmpty = true →
      heldBack s c = false →
      clusterFenced s c = false →
      devState s ≠ 3 →
      scrubFirst s c = false →
      yewFree s 1 = true →
      exec (.infieldTest c pace) s = .next (noteDrift (beginTest s (newTest 1 c.val)) c pace)) ∧
    (∀ (c : ClusterId) (pace : Nat) (s : State),
      (mapFind c.val s.yew.due).isSome = true →
      s.yew.vacate.contains c.val = true →
      (placedOn s c).isEmpty = true →
      heldBack s c = false →
      clusterFenced s c = false →
      devState s ≠ 3 →
      scrubFirst s c = false →
      yewAllowed s = true →
      yewFree s 1 = false →
      exec (.infieldTest c pace) s = .next (enqueueTest s (newTest 1 c.val))) ∧
    (∀ (c : ClusterId) (pace : Nat) (s : State),
      (devState s = 3 ∨ (yewAllowed s = true ∧ scrubFirst s c = true)) →
      exec (.infieldTest c pace) s = .next s) ∧
    (∀ (s : State),
      exec .requeueTimer s = .next (
      each (s.yew.again.filter (fun x => x.2 ≤ now s)) (fun u x =>
        if x.1.mode = 4 then shutdownTest u else (queueTest u x.1).getD { u with yew := { u.yew with again := u.yew.again ++ [x] } })
        { s with yew := { s.yew with again := s.yew.again.filter (fun x => now s < x.2) } })) ∧
    (∀ (x : YewTest) (s : State),
      s.yew.queue.any (fun y => y.mode == x.mode && y.cluster == x.cluster) = false →
      s.yew.queue.length < 16 →
      queueTest s x = some (setQueue s (s.yew.queue ++ [x]))) ∧
    (∀ (x y : YewTest) (s : State),
      s.yew.queue.any (fun y => y.mode == x.mode && y.cluster == x.cluster) = false →
      16 ≤ s.yew.queue.length →
      x.mode ≠ 1 →
      s.yew.queue.reverse.find? (fun y => y.mode == 1) = some y →
      queueTest s x = some (setQueue s (s.yew.queue.erase y ++ [x]))) ∧
    (∀ (c : ClusterId) (s : State),
      s.commit.quar.any (fun (q : Suspect) => q.cluster == c.val) = true →
      mapGet (fun _ => 0) s.commit.confirm c = 0 →
      heldBack s c = false →
      s.yew.run.any (fun (x : YewTest) => x.cluster == c.val) = false →
      yewFree s 2 = true →
      (s.yew.queue.find? (fun x => x.mode == 2) = none ∨ (s.yew.queue.find? (fun x => x.mode == 2)).map (fun x => x.cluster) = some c.val) →
      (residentOn s (tilesOf c)).isEmpty = true →
      exec (.confirmTest c) s = .next (beginTest s (newTest 2 c.val))) ∧
    (∀ (c : ClusterId) (s : State),
      s.commit.quar.any (fun (q : Suspect) => q.cluster == c.val) = true →
      mapGet (fun _ => 0) s.commit.confirm c = 0 →
      heldBack s c = false →
      s.yew.run.any (fun (x : YewTest) => x.cluster == c.val) = false →
      yewAllowed s = true →
      (yewFree s 2 = false ∨ (residentOn s (tilesOf c)).isEmpty = false) →
      exec (.confirmTest c) s = .next (enqueueTest s (newTest 2 c.val))) ∧
    (∀ (service stress : List (TileId × Fin 10)) (chans weak : List ChanId) (t : YewTest) (u s : State),
      s.yew.run = some t →
      (t.mode = 1 ∨ t.mode = 2) →
      t.bad = false →
      clockBad s = false →
      fencedIn s t.cluster = t.fenced →
      t.started = true →
      failsIn s t.cluster service = [] →
      u = takeResult s t.cluster [] (failsIn s t.cluster stress) →
      exec (.testComplete service stress chans weak) s = .next (
      releaseClusters (yewIdle (marched (if t.mode = 2 then confirmResult u t.cluster true else testRan u t.cluster) [t.cluster])) [t.cluster])) ∧
    (∀ (service stress : List (TileId × Fin 10)) (chans weak : List ChanId) (t x : YewTest) (u v s : State),
      s.yew.run = some t →
      (t.mode = 1 ∨ t.mode = 2) →
      t.bad = false →
      clockBad s = false →
      fencedIn s t.cluster = t.fenced →
      t.started = true →
      failsIn s t.cluster service ≠ [] →
      u = takeResult s t.cluster (failsIn s t.cluster service) (failsIn s t.cluster stress) →
      v = marched (if t.mode = 2 then confirmResult u t.cluster false else testRan u t.cluster) [t.cluster] →
      x = { t with mode := 3, fails := failsIn s t.cluster service } →
      exec (.testComplete service stress chans weak) s = .next (
      if v.yew.queue.any (fun y => y.mode == 2) = true ∧ (queueTest v x).isSome = true then yewIdle ((queueTest v x).getD v)
      else wrF { v with yew := { v.yew with run := some x } } (ywReg 0x108) 0 3 3)) ∧
    (∀ (service stress : List (TileId × Fin 10)) (chans weak : List ChanId) (t : YewTest) (s : State),
      s.yew.run = some t →
      (((t.mode = 1 ∨ t.mode = 2) ∧ (t.bad = true ∨ clockBad s = true ∨ fencedIn s t.cluster ≠ t.fenced)) ∨
        (t.mode = 4 ∧ t.fails = [] ∧ (t.bad = true ∨ clockBad s = true))) →
      exec (.testComplete service stress chans weak) s = .next (invalidTest s t)) ∧
    (∀ (service stress : List (TileId × Fin 10)) (chans weak : List ChanId) (grid : List (TileId × Fin 10 × Fin 801 × Int)) (t : YewTest) (s : State),
      s.yew.run = some t →
      t.bad = false →
      clockBad s = false →
      fencedIn s t.cluster = t.fenced →
      t.started = false →
      ((t.mode = 1 ∨ t.mode = 2 ∨ (t.mode = 4 ∧ t.fails = [])) → exec (.testComplete service stress chans weak) s = .next s) ∧
        (t.mode = 3 → exec (.sweep grid) s = .next s)) ∧
    (∀ (service stress : List (TileId × Fin 10)) (chans weak : List ChanId) (t : YewTest) (u s : State),
      s.yew.run = some t →
      t.mode = 4 →
      t.fails = [] →
      t.bad = false →
      clockBad s = false →
      t.started = true →
      u = sdChannels (waveDone s t.cluster service stress) (chans.map (fun h => h.val)) (weak.map (fun h => h.val)) →
      exec (.testComplete service stress chans weak) s = .next (
      (nextWave u (t.cluster + 1)).getD (sdFinish { u with yew := { u.yew with run := some { t with fails := [(4608, 0)] } } }))) ∧
    (∀ (grid : List (TileId × Fin 10 × Fin 801 × Int)) (t : YewTest) (s : State),
      s.yew.run = some t →
      t.mode = 3 →
      testBad s t = false →
      t.started = true →
      exec (.sweep grid) s = .next (
      releaseClusters (marched (yewIdle (each (sweepEntries s t.cluster t.fails grid) yewFence s)) [t.cluster]) [t.cluster])) ∧
    (∀ (grid : List (TileId × Fin 10 × Fin 801 × Int)) (t x : YewTest) (l : List YewTest) (u s : State),
      s.yew.run = some t →
      t.mode = 4 →
      s.yew.sdSweeps = x :: l →
      testBad s t = false →
      u = marched { s with yew := { s.yew with sdSweeps := l } } [x.cluster] →
      exec (.sweep grid) s = .next (
      sdFinish (releaseClusters (each (sweepEntries u x.cluster x.fails grid) yewFence u) [x.cluster]))) ∧
    (∀ (grid : List (TileId × Fin 10 × Fin 801 × Int)) (x : YewTest) (u s : State),
      s.yew.run = none →
      yewFree s 3 = true →
      s.yew.queue.find? (fun y => y.mode == 3) = some x →
      underTest s x.cluster = true →
      u = setQueue s (s.yew.queue.erase x) →
      exec (.sweep grid) s = .next (
      wrF (wrF { u with yew := { u.yew with run := some x } } (ywReg 0x108) 0 3 3) (ywReg 0x108) 3 9 x.cluster)) ∧
    (∀ (grid : List (TileId × Fin 10 × Fin 801 × Int)) (x : YewTest) (s : State),
      s.yew.run = none →
      yewFree s 3 = true →
      s.yew.queue.find? (fun y => y.mode == 3) = some x →
      underTest s x.cluster = false →
      placedOn s x.cluster = [] →
      exec (.sweep grid) s = .next (beginTest s x)) ∧
    (∀ (t : TileId) (router : Bool) (k n : Nat) (l : List Nat) (u v s : State),
      underTest s (clusterOf t) = false →
      k = 2 * clusterOf t + bit01 router →
      n = (if mapGet (fun _ => 0) s.yew.tripWin k = now s / 1000000000 + 1 then mapGet (fun _ => 0) s.yew.trips k + 1 else 1) →
      l = (if mapGet (fun _ => 0) s.yew.tripWin k = now s / 1000000000 + 1 then (mapGet (fun _ => []) s.yew.tripTiles k ++ [t.val]).eraseDups else [t.val]) →
      u = { s with yew := { s.yew with trips := mapPut (fun _ => 0) s.yew.trips k n, tripWin := mapPut (fun _ => 0) s.yew.tripWin k (now s / 1000000000 + 1), tripTiles := mapPut (fun _ => []) s.yew.tripTiles k l } } →
      v = noteHour (incWrap u (ywReg 0x098) 1) (clusterOf t) (fun h => { h with trips := min 65535 (h.trips + 1) }) →
      exec (.canaryTrip t router) s = .next (
      if rdF s (ywReg 0x100) 24 8 ≤ n ∧ mapGet (fun _ => 0) s.yew.holdEnd k ≤ now s then
      let w := { v with yew := { v.yew with holdEnd := mapPut (fun _ => 0) v.yew.holdEnd k (now s + rdF s (ywReg 0x100) 32 8 * 1000000000) } }
      if router then routerAction w (clusterOf t) l else tileAction w (clusterOf t)
      else v)) ∧
    (∀ (w : Nat) (d : Nat × Nat × Nat) (s : State),
      w = now s / 3600000000000 →
      w ≠ 0 →
      s.yew.aged ≠ w →
      dirEntry s 4 = some d →
      exec .ageingRecord s = .next (
      ufsWrite (dropHours s w) d.1 (d.2.1 + 1 + 2 * ((w - 1) % 8784)) (ageSlot s (w - 1)) (.ageWrite w))) ∧
    (∀ (w : Nat) (s : State),
      w = now s / 3600000000000 →
      w ≠ 0 →
      s.yew.aged ≠ w →
      dirEntry s 4 = none →
      exec .ageingRecord s = .next (
      report (dropHours s w) ywPage 0x0F0B))

/-- SHUTDOWN_TEST tests the whole device when nothing is resident: LPDDR6 contents are undefined, and the clusters of the first segment that has one to test are reset at their test voltage; YIELD_GRANT vacates the waiting cluster; TEST_NOW makes a cluster due now; RAW_ENTER and RAW_EXIT enter and leave RAW mode, where RAW_DATA reads and writes a scratchpad word with its check bits and RAW_TRIM sets a cluster's trim; where the life cycle forbids a command it is denied, and RAW writes outside RAW mode are ignored. Nothing else changes. -/
def Obligations.TestRegisters : Prop :=
    (∀ (a : Agent) (v u s : State),
      writeOk s a (ywReg 0x110) 1 = true →
      yewAllowed s = true →
      anyResident s = false →
      s.yew.run = none →
      u = fillMem { s with yew := { s.yew with sdFences := 0, sdSweeps := [], run := some { newTest 4 8 with fails := [(4608, 0)] } } } 0 0x6000000000 true →
      v = wrF u (ywReg 0x108) 0 3 4 →
      exec (.ywShutdown a) s = .next ((nextWave v 0).getD (sdFinish v))) ∧
    (∀ (g : Nat) (u s : State),
      g < 8 →
      testable s g ≠ [] →
      u = { s with yew := { s.yew with
        run := some { mode := 4, cluster := g, started := false, bad := false, fenced := 0, fails := [] }
        ready := s.yew.ready.filter (fun c => !(testable s g).contains c)
        testVolt := s.yew.testVolt.filter (fun e => !(testable s g).contains e.1) ++ (testable s g).map (fun c => (c, clampVolt (serviceVolt s c))) } } →
      nextWave s g = some (wrF (resetClusters u (testable s g)) (ywReg 0x108) 3 9 ((testable s g).headD 0))) ∧
    (∀ (a : Agent) (s : State),
      writeOk s a (ywReg 0x110) 1 = true →
      yewAllowed s = true →
      anyResident s = true →
      exec (.ywShutdown a) s = .next (reportB s ywPage 8 0x0F0A)) ∧
    (∀ (a : Agent) (s : State),
      writeOk s a (ywReg 0x110) 2 = true →
      rdB s (ywReg 0x118) 63 = true →
      s.yew.vacate.contains (rdF s (ywReg 0x118) 32 9) = false →
      exec (.ywYieldGrant a) s = .next { s with yew := { s.yew with vacate := s.yew.vacate ++ [rdF s (ywReg 0x118) 32 9] } }) ∧
    (∀ (a : Agent) (c : Fin 512) (s : State),
      writeOk s a (ywReg 0x110) (BitVec.ofNat 64 (place 8 9 c.val + 3)) = true →
      c.val < 288 →
      yewAllowed s = true →
      exec (.ywTestNow a c) s = .next (makeDue s c (now s))) ∧
    (∀ (a : Agent) (c : Fin 512) (s : State),
      writeOk s a (ywReg 0x110) (BitVec.ofNat 64 (place 8 9 c.val + 3)) = true →
      288 ≤ c.val →
      exec (.ywTestNow a c) s = .next (ignored s ywPage)) ∧
    (∀ (a : Agent) (c : Fin 512) (s : State),
      writeOk s a (ywReg 0x110) (BitVec.ofNat 64 (place 8 9 c.val + 3)) = true →
      c.val < 288 →
      yewAllowed s = false →
      exec (.ywTestNow a c) s = .next (yewDenied s)) ∧
    (∀ (a : Agent) (s : State),
      writeOk s a (ywReg 0x110) 4 = true →
      rawAllowed s = true →
      s.yew.run = none →
      exec (.ywRawEnter a) s = .next (wrF { s with yew := { s.yew with run := some (newTest 5 0) }, pad := { s.pad with rawMode := true } } (ywReg 0x108) 0 3 5)) ∧
    (∀ (a : Agent) (s : State),
      writeOk s a (ywReg 0x110) 5 = true →
      rdF s (devReg 9 0x108) 0 3 = 5 →
      exec (.ywRawExit a) s = .next (
      wrF { s with pad := { s.pad with rawMode := false }, commit := { s.commit with rawTrim := [] }, yew := { s.yew with run := none } } (devReg 9 0x108) 0 12 0)) ∧
    (∀ (a : Agent) (v : W64) (w : Nat × Nat) (s : State),
      writeOk s a (ywReg 0x808) v = true →
      inRaw s = true →
      rawWord s = some w →
      exec (.ywRawAccess a false (some v)) s = .next (
      setChk (writeNat s (padAddr w.1 w.2) 4 (fieldOf v 0 32)) (padAddr w.1 w.2) (actCheck (fieldOf v 0 32) w.2 ^^^ fieldOf v 32 8))) ∧
    (∀ (a : Agent) (v : W64) (s : State),
      writeOk s a (ywReg 0x810) v = true →
      inRaw s = true →
      rdF s (ywReg 0x120) 0 9 < 288 →
      exec (.ywRawAccess a true (some v)) s = .next (
      { s with commit := { s.commit with rawTrim := mapInsert (rdF s (ywReg 0x120) 0 9) v.toNat (mapErase (rdF s (ywReg 0x120) 0 9) s.commit.rawTrim) } })) ∧
    (∀ (a : Agent) (w : Nat × Nat) (s : State),
      readOk s a (ywReg 0x808) = true →
      inRaw s = true →
      rawWord s = some w →
      exec (.ywRawAccess a false none) s = .next (
      emit s (.regRead a 0 (BitVec.ofNat 64 (padWord s w.1 w.2 + (storedCheck s w.1 w.2 <<< 32)))))) ∧
    (∀ (a : Agent) (s : State),
      readOk s a (ywReg 0x810) = true →
      inRaw s = true →
      exec (.ywRawAccess a true none) s = .next (emit s (.regRead a 0 (BitVec.ofNat 64 (trimVector s (rdF s (ywReg 0x120) 0 9))))))

/-- At a window's end the block evaluates every cluster and the device; a cluster entry that runs turns the cluster off or puts its banks in retention, and the cluster is counted in C3 or C2; a wake starts the exit, and the exit's end shows the cluster or the device awake, brings back banks, lanes and channels, and reports one that took too long; a device entry quiets the lanes, puts the channels in self-refresh, and in P3 takes the links down; a write of a tolerance wakes what no longer fits. Nothing else changes. -/
def Obligations.PowerStates : Prop :=
    (∀ (u s : State),
      timedWake s = false →
      u = each (List.range 288) evalCluster (each (List.range 288) noteIdle s) →
      exec .powerEval s = .next (evalDevice u)) ∧
    (∀ (u s : State),
      timedWake s = true →
      u = each (List.range 288) evalCluster (each (List.range 288) noteIdle s) →
      exec .powerEval s = .next (wakeDevice u)) ∧
    (∀ (c : ClusterId) (u s : State),
      mapFind c.val s.power.entering = some 3 →
      mayTurnOff s c = true →
      u = { s with power := { s.power with entering := mapErase c s.power.entering } } →
      exec (.clusterEntryComplete c) s = .next (incWrap (wrF (turnOff u c) (clStat c) 0 2 3) (clusterReg c 0x088) 1)) ∧
    (∀ (c : ClusterId) (st : Nat) (u s : State),
      mapFind c.val s.power.entering = some st →
      st ≠ 3 →
      u = { s with power := { s.power with entering := mapErase c s.power.entering } } →
      exec (.clusterEntryComplete c) s = .next (incWrap (wrF (retainBanks u c) (clStat c) 0 2 2) (clusterReg c 0x080) 1)) ∧
    (∀ (c : ClusterId) (v u s : State),
      2 ≤ clusterPower s c →
      clWaking s c = false →
      u = { s with power := { s.power with entering := mapErase c s.power.entering, idle := mapErase c s.power.idle } } →
      v = incWrap (wrB { u with power := { u.power with waking := mapInsert c (now s) (mapErase c u.power.waking) } } (clStat c) 3 true) (clusterReg c 0x090) 1 →
      exec (.clusterWake c) s = .next (
      wakeDevice (if clusterPower s c = 3 then each (tilesOf c) drainLocal (reload v ((tilesOf c).filter (fun t => !tileFenced v t))) else v))) ∧
    (∀ (c : ClusterId) (u s : State),
      (clusterPower s c < 2 ∨ clWaking s c = true) →
      u = { s with power := { s.power with entering := mapErase c s.power.entering, idle := mapErase c s.power.idle } } →
      exec (.clusterWake c) s = .next u) ∧
    (∀ (c : ClusterId) (d : Nat) (u s : State),
      mapFind c.val s.power.waking = some d →
      clusterPower s c ≠ 3 →
      u = wrB (wrF { s with power := { s.power with waking := mapErase c s.power.waking, idle := mapErase c s.power.idle } } (clStat c) 0 2 0) (clStat c) 3 false →
      exec (.clusterWakeComplete c) s = .next (lateExit (each (tilesOf c) drainLocal (restoreBanks u c)) d 3000)) ∧
    (∀ (c : ClusterId) (d : Nat) (u s : State),
      mapFind c.val s.power.waking = some d →
      clusterPower s c = 3 →
      s.boot.refill.isEmpty = true →
      (tilesOf c).all (fwReady s) = true →
      u = wrB (wrF { s with power := { s.power with waking := mapErase c s.power.waking, idle := mapErase c s.power.idle } } (clStat c) 0 2 0) (clStat c) 3 false →
      exec (.clusterWakeComplete c) s = .next (
      lateExit (each (tilesOf c) drainLocal (setDestReset (powerBanks u c) (tilesOf c) false)) d 1040000)) ∧
    (∀ (u s : State),
      devState s ≠ 0 →
      devWaking s = false →
      u = { s with power := { s.power with devEnter := none, allIdle := 0 } } →
      exec .deviceWake s = .next (
      incWrap (wrB { u with power := { u.power with devWake := some (now s) } } (pwReg 0x108) 2 true) (pwReg 0x088) 1)) ∧
    (∀ (s : State),
      (devState s = 0 ∨ devWaking s = true) →
      exec .deviceWake s = .next { s with power := { s.power with devEnter := none, allIdle := 0 } }) ∧
    (∀ (d : Nat) (u v s : State),
      s.power.devWake = some d →
      u = fromSelfRefresh (loudLanes (wrB (wrF { s with power := { s.power with devWake := none } } (pwReg 0x108) 0 2 0) (pwReg 0x108) 2 false)) →
      v = (if devState s = 3 then each (List.range 288) wakeCluster u else u) →
      exec .deviceWakeComplete s = .next (
      lateExit v d (if devState s = 1 then 1000 else if devState s = 2 then 30000 else 20000000))) ∧
    (∀ (p : Nat) (u v s : State),
      s.power.devEnter = some p →
      p < 3 →
      u = incWrap (wrF { s with power := { s.power with devEnter := none } } (pwReg 0x108) 0 2 p) (pwReg 0x080) 1 →
      v = (if u.power.quiet then u else sayLanes { u with power := { u.power with quiet := true } } true) →
      exec .deviceEntryComplete s = .next (if p = 2 then toSelfRefresh v else v)) ∧
    (∀ (w u v s : State),
      s.power.devEnter = some 3 →
      u = toSelfRefresh (incWrap (wrF { s with power := { s.power with devEnter := none } } (pwReg 0x108) 0 2 3) (pwReg 0x080) 1) →
      v = each (List.range 14) (fun y q => if portRuns y q then linkLost y q 4 else y) (endSession u 3) →
      w = (if gbUp v then gbLost v 4 else v) →
      exec .deviceEntryComplete s = .next { w with power := { v.power with quiet := false } }) ∧
    (∀ (a : Agent) (us : W32) (s : State),
      writeOk s a (pwReg 0x110) (BitVec.ofNat 64 us.toNat) = true →
      exec (.toleranceWrite a none us) s = .next (fitTolerance (indexed s (pwReg 0x110) 0xFFFFFFFF us.toNat))) ∧
    (∀ (a : Agent) (c : CtxId) (us : W32) (u s : State),
      writeOk s a (pwReg 0x118) (BitVec.ofNat 64 c.val) = true →
      u = indexed s (pwReg 0x118) 0xFF c →
      writeOk u a (pwReg 0x120) (BitVec.ofNat 64 us.toNat) = true →
      exec (.toleranceWrite a (some c) us) s = .next (fitTolerance (indexed u (banked (pwReg 0x120) c) 0xFFFFFFFF us.toNat)))

/-- Each µs a cluster's temperature and voltage are published, with the highest kept and a thermal trip released below its limit; each 100 µs a segment's request moves at most 2.5 mV toward its target, its supplied value is shown and clusters with headroom again lose HEADROOM_LOW; one without it 500 µs after the request settled gains it, with record 0x1006; the offsets of the throttle are evaluated and the first one raises source 381; a cluster at its critical temperature trips with record 0x1005 and source 382. Nothing else changes. -/
def Obligations.PowerReadings : Prop :=
    (∀ (c : ClusterId) (temp : Fin 65536) (mv : Fin 16384) (t : Int) (u v s : State),
      t = signedOf 16 temp →
      u = wrF (wr s (clusterReg c 0x190) (BitVec.ofNat 64 (place 16 16 (patternOf 16 (max (signedOf 16 (rdF s (clusterReg c 0x190) 16 16)) t)) + temp.val))) (clStat c) 26 14 mv →
      v = noteHour u c (fun h => { h with hot := max h.hot (t / 10) }) →
      exec (.tempPublish c temp mv) s = .next (
      noteReading (if t < Int.ofNat (10 * rdF s (pwReg 0x100) 28 8) - 100 then wrB v (clStat c) 5 false else v) c mv)) ∧
    (∀ (g : Fin 8) (supplied : Fin 65536) (n : Nat) (u v s : State),
      n = (if segReq s g < segTarget s g then min (segTarget s g) (segReq s g + 25) else max (segTarget s g) (segReq s g - 25)) →
      u = { s with power := { s.power with req := mapPut (fun _ => 7750) s.power.req g n, settled := mapPut (fun _ => 0) s.power.settled g (if n = segTarget s g then (if mapGet (fun _ => 0) s.power.settled g = 0 then now s + 1 else mapGet (fun _ => 0) s.power.settled g) else 0) } } →
      v = each ((segClusters g).filter (fun c => rdB s (clStat c) 4 && setVolt s c + 250 ≤ 10 * supplied.val)) (fun y c => wrB y (clStat c) 4 false) (wr u (pwReg (0x180 + 8 * g.val)) (BitVec.ofNat 64 (place 16 16 supplied.val + n / 10))) →
      exec (.segmentStep g supplied) s = .next (
      if segReq s g / 10 ≠ n / 10 ∧ rdB s (devReg 15 0x100) 0 = true then emit v (.ibi (0x20 + g.val)) else v)) ∧
    (∀ (c : ClusterId) (d : Nat) (s : State),
      d = mapGet (fun _ => 0) s.power.settled (segmentOf c) →
      d ≠ 0 →
      d - 1 + 500000 ≤ now s →
      10 * rdF s (pwReg (0x180 + 8 * segmentOf c)) 16 16 < setVolt s c + 250 →
      exec (.headroomLow c) s = .next (
      reportLimited (wrB s (clStat c) 4 true) (clusterPage c) 0 0x1006 (limitKey 20 c 0) (now s / 1000000))) ∧
    (∀ (watts : Fin 65536) (u s : State),
      u = throttlePower (each (List.range 288) throttleCluster (wr s (pwReg 0x130) (BitVec.ofNat 64 watts))) →
      exec (.throttleEval watts) s = .next (if throttled u && !throttled s then raise u 381 else u)) ∧
    (∀ (c : ClusterId) (s : State),
      Int.ofNat (10 * rdF s (pwReg 0x100) 28 8) ≤ clusterTemp s c →
      rdB s (clStat c) 5 = false →
      exec (.thermTrip c) s = .next (raise (report (wrB s (clStat c) 5 true) (clusterPage c) 0x1005) 382))

/-- HW_CMD is refused with record 0x1108 while a command runs; ATTEST, DEBUG_OPEN and LC_ADVANCE take the argument and the current challenge and run; DEBUG_CLOSE ends an open session; EXTEND extends MR6 or MR7 with the data of HW_EXTEND; EPOCH_COMMIT raises the least epoch; DBG_HOLD and DBG_RELEASE hold and let go the session's context at debug level 2; FENCE_LOG_CLEAR erases the log where RAW mode is allowed. A command that has been performed clears BUSY and raises source 383. A read of HW_CHAL_0 draws a fresh challenge and answers its first word; a failing health test stops the random source, which is tested again 1 s later; a session past its NOT_AFTER ends with cause 2. Nothing else changes. -/
def Obligations.SecurityCommands : Prop :=
    (∀ (a : Agent) (arg : Fin 281474976710656) (u s : State),
      writeOk s a (hwReg 0x110) (BitVec.ofNat 64 arg.val) = true →
      u = indexed s (hwReg 0x110) 0xFFFFFFFFFFFF arg →
      writeOk u a (hwReg 0x108) 1 = true →
      hwBusy u = false →
      exec (.hwAttest a arg) s = .next (wr (hwBegin u 1) (hwReg 0x160) 1)) ∧
    (∀ (a : Agent) (arg : Fin 281474976710656) (u s : State),
      writeOk s a (hwReg 0x110) (BitVec.ofNat 64 arg.val) = true →
      u = indexed s (hwReg 0x110) 0xFFFFFFFFFFFF arg →
      writeOk u a (hwReg 0x108) 2 = true →
      hwBusy u = false →
      exec (.hwDebugOpen a arg) s = .next (hwBegin u 2)) ∧
    (∀ (a : Agent) (arg : Fin 281474976710656) (u s : State),
      writeOk s a (hwReg 0x110) (BitVec.ofNat 64 arg.val) = true →
      u = indexed s (hwReg 0x110) 0xFFFFFFFFFFFF arg →
      writeOk u a (hwReg 0x108) 4 = true →
      hwBusy u = false →
      exec (.hwLcAdvance a arg) s = .next (hwBegin u 4)) ∧
    (∀ (a : Agent) (s : State),
      writeOk s a (hwReg 0x108) 3 = true →
      hwBusy s = false →
      s.sec.session.isSome = true →
      exec (.hwDebugClose a) s = .next (endSession (hwBegin s 3) 1)) ∧
    (∀ (a : Agent) (s : State),
      writeOk s a (hwReg 0x108) 3 = true →
      hwBusy s = true →
      exec (.hwDebugClose a) s = .next (report s hwPage 0x1108)) ∧
    (∀ (a : Agent) (mr : Fin 16) (s : State),
      writeOk s a (hwReg 0x108) (BitVec.ofNat 64 (place 8 4 mr.val + 5)) = true →
      hwBusy s = false →
      (mr = 6 ∨ mr = 7) →
      exec (.hwExtend a mr) s = .next (extendMr (hwBegin s 5) mr (regBytes s (hwReg 0x1C0)))) ∧
    (∀ (a : Agent) (mr : Fin 16) (s : State),
      writeOk s a (hwReg 0x108) (BitVec.ofNat 64 (place 8 4 mr.val + 5)) = true →
      hwBusy s = false →
      mr ≠ 6 →
      mr ≠ 7 →
      exec (.hwExtend a mr) s = .next (ignored s hwPage)) ∧
    (∀ (a : Agent) (s : State),
      writeOk s a (hwReg 0x108) 6 = true →
      hwBusy s = false →
      exec (.hwEpochCommit a) s = .next (epochCommit (hwBegin s 6))) ∧
    (∀ (a : Agent) (s : State),
      writeOk s a (hwReg 0x108) 7 = true →
      hwBusy s = false →
      debugLevel s = 2 →
      exec (.hwDbgHold a) s = .next (dbgHold (hwBegin s 7))) ∧
    (∀ (a : Agent) (s : State),
      writeOk s a (hwReg 0x108) 7 = true →
      hwBusy s = false →
      debugLevel s ≠ 2 →
      exec (.hwDbgHold a) s = .next (setErr s hwPage 1)) ∧
    (∀ (a : Agent) (s : State),
      writeOk s a (hwReg 0x108) 8 = true →
      hwBusy s = false →
      debugLevel s = 2 →
      exec (.hwDbgRelease a) s = .next (dbgRelease (hwBegin s 8))) ∧
    (∀ (a : Agent) (s : State),
      writeOk s a (hwReg 0x108) 9 = true →
      hwBusy s = false →
      rawAllowed s = true →
      exec (.hwFenceLogClear a) s = .next (fenceLogClear (hwBegin s 9))) ∧
    (∀ (a : Agent) (s : State),
      writeOk s a (hwReg 0x108) 9 = true →
      hwBusy s = false →
      rawAllowed s = false →
      exec (.hwFenceLogClear a) s = .next (setErr s hwPage 1)) ∧
    (∀ (r : Nat × Nat × Option Nat) (u s : State),
      s.sec.running = some r →
      hwPerform s r.1 r.2.1 r.2.2 = (true, u) →
      u.time.held = false →
      exec .hwCommandDone s = .next (raise (setBusy { u with sec := { u.sec with running := none } } false) 383)) ∧
    (∀ (r : Nat × Nat × Option Nat) (u s : State),
      s.sec.running = some r →
      hwPerform s r.1 r.2.1 r.2.2 = (false, u) →
      exec .hwCommandDone s = .next u) ∧
    (∀ (a : Agent) (s : State),
      readOk s a (hwReg 0x120) = true →
      exec (.hwChalRead a) s = .next (emit (drawChallenge s) (.regRead a 0 (rd (drawChallenge s) (hwReg 0x120))))) ∧
    (∀ (s : State),
      exec .trngFail s = .next (report { s with sec := { s.sec with trngOk := false, trngDt := now s } } hwPage 0x110A)) ∧
    (∀ (s : State),
      s.sec.trngOk = false →
      s.sec.trngDt + 1000000000 ≤ now s →
      exec (.trngRetest true) s = .next { s with sec := { s.sec with trngOk := true } }) ∧
    (∀ (s : State),
      s.sec.trngOk = false →
      s.sec.trngDt + 1000000000 ≤ now s →
      exec (.trngRetest false) s = .next (report { s with sec := { s.sec with trngDt := now s } } hwPage 0x110A)) ∧
    (∀ (x : Session) (s : State),
      s.sec.session = some x →
      x.notAfter ≤ now s →
      exec .sessionExpired s = .next (endSession s 2)) ∧
    (∀ (x : Session) (s : State),
      s.sec.session = some x →
      now s < x.notAfter →
      exec .sessionExpired s = .next s)

/-- MOD_RST_N low, a supply fault and an overtemperature each put the device in cold reset and hold it there; the rise of MOD_RST_N samples the straps and releases the reset unless another cause holds; the end of a self-held reset does the same unless the pin is low; an assigned dynamic address is kept; the test access port takes BYPASS for an instruction that the life cycle does not allow. Nothing else changes. -/
def Obligations.ModuleSignals : Prop :=
    (∀ (s : State),
      exec .modRstNAssert s = .next (coldReset { s with module := { s.module with rstLow := true } })) ∧
    (∀ (s : State),
      exec .supplyFaultEvent s = .next (coldReset { s with module := { s.module with supplyFault := true } })) ∧
    (∀ (s : State),
      exec .overtempReset s = .next (coldReset { s with module := { s.module with overTemp := true } })) ∧
    (∀ (boot : Bool) (slot : Fin 8) (u s : State),
      s.module.rstLow = true →
      u = sampleStraps { s with module := { s.module with rstLow := false } } boot slot →
      exec (.modRstNRelease boot slot) s = .next (if resetHeld u then u else releaseReset u)) ∧
    (∀ (boot : Bool) (slot : Fin 8) (s : State),
      s.module.rstLow = false →
      exec (.modRstNRelease boot slot) s = .next s) ∧
    (∀ (boot : Bool) (slot : Fin 8) (u s : State),
      (s.module.supplyFault = true ∨ s.module.overTemp = true) →
      u = { s with module := { s.module with supplyFault := false, overTemp := false } } →
      exec (.selfResetRelease boot slot) s = .next (if s.module.rstLow then u else releaseReset (sampleStraps u boot slot))) ∧
    (∀ (addr : Fin 128) (s : State),
      exec (.dynamicAddressAssign addr) s = .next (wrB (wrF s (i3cReg 0x108) 8 7 addr) (i3cReg 0x108) 15 true)) ∧
    (∀ (op : Fin 5) (s : State),
      (op.val ≤ 1 ∨ (debugLevel s = 3 ∧ (lifeCycle s = 1 ∨ lifeCycle s = 4))) →
      exec (.boundaryScan op) s = .next (emit { s with module := { s.module with jtag := op } } (.jtag op))) ∧
    (∀ (op : Fin 5) (s : State),
      1 < op.val →
      (debugLevel s ≠ 3 ∨ (lifeCycle s ≠ 1 ∧ lifeCycle s ≠ 4)) →
      exec (.boundaryScan op) s = .next (emit { s with module := { s.module with jtag := 0 } } (.jtag 0)))

/-- An operation is counted and leaves its status and data for the result read: a register is read or written with the rights of the board management controller, a word of the tfs ring is read unless bring-up has halted, WAKE wakes the device, status 4 answers while the device sleeps, 1 an address that is not aligned, or one that is not mapped, which is recorded, 2 an address that R515 does not allow; an operation that comes before the last result was read turns that result's status to 5; a result read sends status and data once. Nothing else changes. -/
def Obligations.ModuleAccess : Prop :=
    (∀ (addr : Fin 281474976710656) (u s : State),
      s.module.result = none →
      s.module.read = none →
      u = incWrap s (i3cReg 0x080) 1 →
      i3cAsleep u = false →
      addr.val % 8 = 0 →
      regionOf addr.val = .regs →
      exec (.i3cReadOp addr) s = .next (
      i3cResult (regRead u .bmc addr.val).2.2 (i3cStatus (regRead u .bmc addr.val).1) (regRead u .bmc addr.val).2.1.toNat)) ∧
    (∀ (addr : Fin 281474976710656) (u s : State),
      s.module.result = none →
      s.module.read = none →
      u = incWrap s (i3cReg 0x080) 1 →
      i3cAsleep u = false →
      addr.val % 8 = 0 →
      regionOf addr.val = .lpddr →
      inTfsRing u addr.val = true →
      halted u = false →
      dramMapped u addr.val 8 = true →
      exec (.i3cReadOp addr) s = .next (i3cMemRead u addr.val)) ∧
    (∀ (addr : Fin 281474976710656) (v : W64) (u s : State),
      s.module.result = none →
      s.module.read = none →
      u = incWrap s (i3cReg 0x080) 1 →
      i3cAsleep u = false →
      addr.val % 8 = 0 →
      regionOf addr.val = .regs →
      exec (.i3cWriteOp addr v) s = .next (i3cResult (regWrite u .bmc addr.val v).2 (i3cStatus (regWrite u .bmc addr.val v).1) 0)) ∧
    (∀ (addr : Fin 281474976710656) (v : W64) (u s : State),
      s.module.result = none →
      s.module.read = none →
      u = incWrap s (i3cReg 0x080) 1 →
      i3cAsleep u = false →
      addr.val % 8 = 0 →
      (regionOf addr.val = .pad ∨ regionOf addr.val = .companion) →
      exec (.i3cReadOp addr) s = .next (i3cResult u 2 0) ∧ exec (.i3cWriteOp addr v) s = .next (i3cResult u 2 0)) ∧
    (∀ (addr : Fin 281474976710656) (v : W64) (u w s : State),
      s.module.result = none →
      s.module.read = none →
      u = incWrap s (i3cReg 0x080) 1 →
      i3cAsleep u = false →
      ((addr.val % 8 ≠ 0 ∧ w = u) ∨ (addr.val % 8 = 0 ∧ regionOf addr.val = .unmapped ∧ w = unmapped u .bmc addr.val)) →
      exec (.i3cReadOp addr) s = .next (i3cResult w 1 0) ∧ exec (.i3cWriteOp addr v) s = .next (i3cResult w 1 0)) ∧
    (∀ (addr : Fin 281474976710656) (v : W64) (u s : State),
      s.module.result = none →
      s.module.read = none →
      u = incWrap s (i3cReg 0x080) 1 →
      i3cAsleep u = true →
      exec (.i3cReadOp addr) s = .next (i3cResult u 4 0) ∧ exec (.i3cWriteOp addr v) s = .next (i3cResult u 4 0)) ∧
    (∀ (s : State),
      s.module.result = none →
      s.module.read = none →
      exec .i3cWakeOp s = .next (i3cResult (wakeDevice (incWrap s (i3cReg 0x080) 1)) 0 0)) ∧
    (∀ (addr : Fin 281474976710656) (v : W64) (r : Nat × Nat) (u s : State),
      s.module.result = some r →
      u = { s with module := { s.module with result := some (5, r.2) } } →
      exec (.i3cReadOp addr) s = .next u ∧ exec (.i3cWriteOp addr v) s = .next u ∧ exec .i3cWakeOp s = .next u) ∧
    (∀ (r : Nat × Nat) (s : State),
      s.module.result = some r →
      s.module.read = none →
      exec .i3cResultRead s = .next (emit { s with module := { s.module with result := none } } (.i3cResult r.1 r.2)))

/-- A step with a command at the front of the queue is that command performed with the queue's rest; with nothing waiting it is the idle tick of log entry 5, a choice of the model: one nanosecond of Device Time passes, and what waits for memory, a snoop or an earlier request goes on. Every command answers a next state in every state: none faults and none is refused. -/
def Obligations.StepOfTheBlock : Prop :=
    (∀ (c : Instr) (cs : List Instr) (s : State),
      step { s with pending := c :: cs } = exec c { s with pending := cs }) ∧
    (∀ (s : State),
      s.pending = [] →
      step s = .next (gbResume (jscanTry (installTry (compatTick (tickTime s)))))) ∧
    (∀ (i : Instr) (s : State),
      ∃ t : State, exec i s = .next t)

/-- After reset nothing waits, no memory is written, Device Time stands at 0 and is held until module reset is released, memory, check bits and registers are in canonical form, and in every page the header reads LAYOUT 1 with the block type and instance, an error interrupt enabled and no error. -/
def Obligations.ResetState : Prop :=
    (State.reset.pending = [] ∧ State.reset.mem = [] ∧ now State.reset = 0 ∧ State.reset.time.held = true ∧ State.reset.Canonical) ∧
    (∀ (p : Nat) (k : PageKind) (i : Nat),
      decodePage p = some (k, i) →
      p < 0x50000 →
      rd State.reset (pageBase p) = BitVec.ofNat 64 ((1 <<< 32) + (typeCode k <<< 16) + instanceOf k i) ∧ rd State.reset (pageBase p + 0x10) = 1 ∧ rd State.reset (pageBase p + 0x20) = 0 ∧ rd State.reset (pageBase p + 0x28) = 0 ∧ rd State.reset (pageBase p + 0x38) = 0)

/-- A write of RES_CTX_r, of GB_SEND_CTX_m or of HB_SEND_CTX_m that names a context at or above the licensed count is ignored, which sets ERR_STAT.IGNORED of its page; the counts are 256 for variant F, 64 for S and 16 for E. -/
def Obligations.LicensedContexts : Prop :=
    (∀ (s : State),
      rdF s (hbReg 0x108) 10 2 = 1 →
      licensedContexts s = 256) ∧
    (∀ (s : State),
      rdF s (hbReg 0x108) 10 2 = 2 →
      licensedContexts s = 64) ∧
    (∀ (s : State),
      rdF s (hbReg 0x108) 10 2 = 3 →
      licensedContexts s = 16) ∧
    (∀ (a : Agent) (t : TileId) (r : Fin 8) (v : W64) (s : State),
      writeOk s a (spReg t (0x140 + 8 * r.val)) v = true →
      bitOf v 8 = true →
      licensedContexts s ≤ fieldOf v 0 8 →
      exec (.resCtxSet a t r v) s = .next (ignored s (spPage t))) ∧
    (∀ (a : Agent) (m : Fin 4) (i : Fin 64) (v : W64) (s : State),
      writeOk s a (gbReg (0x120 + 8 * m.val)) v = true →
      bitOf v i = true →
      licensedContexts s ≤ 64 * m.val + i.val →
      exec (.gbSendCtxWrite a m v) s = .next (ignored s gbPage)) ∧
    (∀ (a : Agent) (m : Fin 4) (i : Fin 64) (v : W64) (s : State),
      writeOk s a (hbReg (0x120 + 8 * m.val)) v = true →
      bitOf v i = true →
      licensedContexts s ≤ 64 * m.val + i.val →
      exec (.regWriteAny a (hbReg (0x120 + 8 * m.val)) v) s = .next (ignored s (devPage 7))) ∧
    (∀ (s : State) (p : Nat),
      p < 0x50000 →
      rdB (ignored s p) (pageBase p + 0x20) 3 = true)

/-- When the exit of a cluster from C2 or C3, or of the device from P1, P2 or P3, takes longer than the latency of its state, record 0x1002 is written and LATE_EXITS incremented; an exit within its latency changes neither. -/
def Obligations.LateExits : Prop :=
    (∀ (c : ClusterId) (d : Nat) (u v s : State),
      mapFind c.val s.power.waking = some d →
      clusterPower s c ≠ 3 →
      u = wrB (wrF { s with power := { s.power with waking := mapErase c s.power.waking, idle := mapErase c s.power.idle } } (clStat c) 0 2 0) (clStat c) 3 false →
      v = each (tilesOf c) drainLocal (restoreBanks u c) →
      exec (.clusterWakeComplete c) s = .next (if d + 3000 < now v then report (incSat v (pwReg 0x098)) (devPage 13) 0x1002 else v)) ∧
    (∀ (c : ClusterId) (d : Nat) (u v s : State),
      mapFind c.val s.power.waking = some d →
      clusterPower s c = 3 →
      s.boot.refill.isEmpty = true →
      (tilesOf c).all (fwReady s) = true →
      u = wrB (wrF { s with power := { s.power with waking := mapErase c s.power.waking, idle := mapErase c s.power.idle } } (clStat c) 0 2 0) (clStat c) 3 false →
      v = each (tilesOf c) drainLocal (setDestReset (powerBanks u c) (tilesOf c) false) →
      exec (.clusterWakeComplete c) s = .next (if d + 1040000 < now v then report (incSat v (pwReg 0x098)) (devPage 13) 0x1002 else v)) ∧
    (∀ (d limit : Nat) (u v s : State),
      s.power.devWake = some d →
      ((devState s = 1 ∧ limit = 1000) ∨ (devState s = 2 ∧ limit = 30000) ∨ (devState s = 3 ∧ limit = 20000000)) →
      u = fromSelfRefresh (loudLanes (wrB (wrF { s with power := { s.power with devWake := none } } (pwReg 0x108) 0 2 0) (pwReg 0x108) 2 false)) →
      v = (if devState s = 3 then each (List.range 288) wakeCluster u else u) →
      exec .deviceWakeComplete s = .next (if d + limit < now v then report (incSat v (pwReg 0x098)) (devPage 13) 0x1002 else v))

/-- A write to an address that no page covers is turned away as unmapped; one of a wrong alignment sets SIZE with record 0x0A02, one that the agent may not make is refused, one to a register that cannot be written or with a reserved bit set is ignored as a whole with record 0x0A04, a guarded value without its complement with record 0x0A03, one to a fenced block or while HALTED sets IGNORED; every other write changes its register by its access type, with the effect of its page; agents other than the companion are told of a failure. -/
def Obligations.RegisterWrites : Prop :=
    (∀ (a : Agent) (addr : Nat) (v : W64) (u s : State),
      pageHit addr = none →
      u = unmapped s a addr →
      exec (.regWriteAny a addr v) s = .next (if a = .companion then u else emit u (.regRead a RegStat.unmapped.code 0))) ∧
    (∀ (a : Agent) (addr : Nat) (v : W64) (x : PageKind × Nat) (u s : State),
      pageHit addr = some x →
      addr % 8 ≠ 0 →
      u = accessRec s (pageAt addr) 0x20 0x0A02 addr →
      exec (.regWriteAny a addr v) s = .next (if a = .companion then u else emit u (.regRead a RegStat.size.code 0))) ∧
    (∀ (a : Agent) (addr : Nat) (v : W64) (x : PageKind × Nat) (u s : State),
      pageHit addr = some x →
      addr % 8 = 0 →
      regDenied s a x.1 x.2 (offAt addr) true v = true →
      u = refuseAccess s a (pageAt addr) addr →
      exec (.regWriteAny a addr v) s = .next (if a = .companion then u else emit u (.regRead a RegStat.denied.code 0))) ∧
    (∀ (a : Agent) (addr : Nat) (v : W64) (x : PageKind × Nat) (u s : State),
      pageHit addr = some x →
      addr % 8 = 0 →
      regDenied s a x.1 x.2 (offAt addr) true v = false →
      u = writeWakes s (pageAt addr) →
      (findReg (pageRegs x.1 x.2) (offAt addr)).all (fun r => r.1.acc == .ro || r.1.acc == .rs || v.toNat &&& r.1.reserved != 0) = true →
      exec (.regWriteAny a addr v) s = .next (accessRec u (pageAt addr) 0x10 0x0A04 addr)) ∧
    (∀ (a : Agent) (addr : Nat) (v : W64) (x : PageKind × Nat) (r : RegDesc × Nat) (u s : State),
      pageHit addr = some x →
      addr % 8 = 0 →
      regDenied s a x.1 x.2 (offAt addr) true v = false →
      u = writeWakes s (pageAt addr) →
      findReg (pageRegs x.1 x.2) (offAt addr) = some r →
      r.1.acc = .rwg →
      v.toNat &&& r.1.reserved = 0 →
      guardOk v = false →
      exec (.regWriteAny a addr v) s = .next (accessRec u (pageAt addr) 0x04 0x0A03 addr)) ∧
    (∀ (a : Agent) (addr : Nat) (v : W64) (x : PageKind × Nat) (r : RegDesc × Nat) (u s : State),
      pageHit addr = some x →
      addr % 8 = 0 →
      regDenied s a x.1 x.2 (offAt addr) true v = false →
      u = writeWakes s (pageAt addr) →
      findReg (pageRegs x.1 x.2) (offAt addr) = some r →
      regTakes v r.1 = true →
      (fencedWrite u x.1 x.2 (offAt addr) = true ∨ haltedWrite u x.1 (offAt addr) v = true) →
      exec (.regWriteAny a addr v) s = .next (ignored u (pageAt addr))) ∧
    (∀ (a : Agent) (addr : Nat) (v : W64) (x : PageKind × Nat) (r : RegDesc × Nat) (s : State),
      writeOk s a addr v = true →
      pageHit addr = some x →
      findReg (pageRegs x.1 x.2) (offAt addr) = some r →
      0x80 ≤ offAt addr →
      r.1.acc = .rw →
      exec (.regWriteAny a addr v) s = .next (
      pageWrite s a x.1 x.2 (offAt addr) (regKey s x.1 addr (offAt addr)) (merged s (regKey s x.1 addr (offAt addr)) r.1.wmask v))) ∧
    (∀ (a : Agent) (addr : Nat) (v : W64) (x : PageKind × Nat) (r : RegDesc × Nat) (s : State),
      writeOk s a addr v = true →
      pageHit addr = some x →
      findReg (pageRegs x.1 x.2) (offAt addr) = some r →
      0x80 ≤ offAt addr →
      (r.1.acc = .wo ∨ r.1.acc = .rwg) →
      exec (.regWriteAny a addr v) s = .next (pageWrite s a x.1 x.2 (offAt addr) (regKey s x.1 addr (offAt addr)) v)) ∧
    (∀ (a : Agent) (addr : Nat) (v : W64) (x : PageKind × Nat) (r : RegDesc × Nat) (s : State),
      writeOk s a addr v = true →
      pageHit addr = some x →
      findReg (pageRegs x.1 x.2) (offAt addr) = some r →
      offAt addr < 0x80 →
      exec (.regWriteAny a addr v) s = .next (
      headerWrite s (pageAt addr) (regKey s x.1 addr (offAt addr)) (if r.1.acc = .w1c then rd s (regKey s x.1 addr (offAt addr)) &&& ~~~(v &&& BitVec.ofNat 64 r.1.wmask) else if r.1.acc = .rw then merged s (regKey s x.1 addr (offAt addr)) r.1.wmask v else v)))

/-- Bytes written from an address on are what a read of those addresses answers, every other address answers what it did, a number written as little-endian bytes is read back modulo its width, the value that an unlisted address reads as leaves no entry, and memory stays in canonical form; registers and check bits are untouched. -/
def Obligations.MemoryBytes : Prop :=
    (∀ (a : Nat) (l : List Byte) (s : State),
      readBytes (writeBytes s a l) a l.length = l ∧ (∀ c, (c < a ∨ a + l.length ≤ c) → readByte (writeBytes s a l) c = readByte s c) ∧ (Memory.wf s = true → Memory.wf (writeBytes s a l) = true) ∧ (writeBytes s a l).regs = s.regs ∧ (writeBytes s a l).chk = s.chk ∧ (writeBytes s a l).out = s.out) ∧
    (∀ (a n v : Nat) (s : State),
      readNat (writeNat s a n v) a n = v % 256 ^ n) ∧
    (∀ (a : Nat) (s : State),
      Memory.wf s = true →
      writeByte s a (readByte s a) = s)

/-- Every header whose fields fit the layout is what its six words are read as, each word fits 32 bits, and a message whose payload has its length is read back from the bytes of its slots. -/
def Obligations.HeaderWords : Prop :=
    (∀ (h : Header),
      h.wf = true →
      hdrOf (hdrWords h) = h ∧ (hdrWords h).length = 6 ∧ ∀ w ∈ hdrWords h, w < 2 ^ 32) ∧
    (∀ (m : Msg),
      m.wf = true →
      m.pay.length = m.hdr.payLen →
      m.hdr.len = lenOfPay m.hdr.payLen →
      (msgBytes m).length = (m.hdr.len + 1) * 64 ∧ msgOf (msgBytes m) = m)

/-- A record changes, of the registers, only ERR_STAT, ERR_FIRST and ERR_COUNT of its page and of the log's page and LOG_OVERFLOW; it clears no bit of ERR_STAT, enters its collector when that has room, and touches neither memory nor the state of any unit. An error bit alone changes no more. -/
def Obligations.ReportFrame : Prop :=
    (∀ (s : State) (p bits code : Nat) (i : RecInfo) (u : State),
      p < 0x50000 →
      (u = reportB s p bits code i ∨ u = setErr s p bits) →
      u.mem = s.mem ∧ u.chk = s.chk ∧ u.fills = s.fills ∧ u.net = s.net ∧ u.q = s.q ∧ u.flow = s.flow ∧ u.pad = s.pad ∧ u.fabric = s.fabric ∧ u.dram = s.dram ∧ u.gorbin = s.gorbin ∧ u.recov = s.recov ∧ u.boot = s.boot ∧ u.power = s.power ∧ u.sec = s.sec ∧ u.module = s.module ∧ u.time = s.time ∧ u.free = s.free ∧ u.pending = s.pending) ∧
    (∀ (s : State) (p bits code k : Nat) (i : RecInfo) (u : State),
      p < 0x50000 →
      (u = reportB s p bits code i ∨ u = setErr s p bits) →
      k ≠ devReg 1 0x88 →
      (∀ o ∈ [0x20, 0x30, 0x38], k ≠ pageBase p + o ∧ k ≠ devReg 1 o) →
      rd u k = rd s k) ∧
    (∀ (s : State) (p q bits code n : Nat) (i : RecInfo) (u : State),
      p < 0x50000 →
      q < 0x50000 →
      (u = reportB s p bits code i ∨ u = setErr s p bits) →
      rdB s (pageBase q + 0x20) n = true →
      rdB u (pageBase q + 0x20) n = true) ∧
    (∀ (s : State) (p bits code : Nat) (i : RecInfo),
      p < 0x50000 →
      (mapGet (fun _ => []) s.log.coll (collectorOf p)).length < 16 →
      ∃ r, r.code = code ∧ r ∈ mapGet (fun _ => []) (reportB s p bits code i).log.coll (collectorOf p))

/-- From every state whose memory, check bits and registers are in canonical form, a step that answers a next state answers one in canonical form. -/
def Obligations.StepKeepsCanonical : Prop :=
    (∀ (s t : State),
      s.Canonical →
      step s = .next t →
      t.Canonical)

/-- From every state in canonical form a step takes exactly the front command from the queue, withdraws nothing that was handed to the world, reuses no free value, and never lowers the life-cycle state or the least epoch in the fuses, nor mends a failed fuse. -/
def Obligations.StepNeverGoesBack : Prop :=
    (∀ (s t : State),
      s.Canonical →
      step s = .next t →
      t.pending = s.pending.tail ∧ s.out <+: t.out ∧ s.free ≤ t.free ∧ s.sec.fuses.lc ≤ t.sec.fuses.lc ∧ s.sec.fuses.minEpoch ≤ t.sec.fuses.minEpoch ∧ (s.sec.fuses.failed = true → t.sec.fuses.failed = true))
end

