-- ==== Sys2Proof/Laws/Map.lean ====
section
/-! SUPPORT. Finite maps: what a key reads as after a write, and the canonical form. -/

namespace Sys2Proof.Machine

theorem mapFind_insert_self {α : Type} (k : Nat) (v : α) (m : NMap α) (h : ∀ p ∈ m, p.1 ≠ k) : mapFind k (mapInsert k v m) = some v := by
  induction m with
  | nil => simp [mapInsert, mapFind]
  | cons p m ih =>
    obtain ⟨j, w⟩ := p
    rw [mapInsert]
    split
    · simp [mapFind]
    · have hj : j ≠ k := h (j, w) List.mem_cons_self
      simp [mapFind, hj, ih (fun p hp => h p (List.mem_cons_of_mem _ hp))]

theorem mapFind_insert_ne {α : Type} {k a : Nat} (v : α) (m : NMap α) (h : a ≠ k) : mapFind a (mapInsert k v m) = mapFind a m := by
  induction m with
  | nil => simp [mapInsert, mapFind, Ne.symm h]
  | cons p m ih =>
    obtain ⟨j, w⟩ := p
    rw [mapInsert]
    split
    · simp [mapFind, Ne.symm h]
    · simp only [mapFind, ih]

theorem mapFind_erase_self {α : Type} (k : Nat) (m : NMap α) : mapFind k (mapErase k m) = none := by
  induction m with
  | nil => rfl
  | cons p m ih =>
    obtain ⟨j, w⟩ := p
    by_cases h : j = k
    · simpa [mapErase, h] using ih
    · simpa [mapErase, mapFind, h] using ih

theorem mapFind_erase_ne {α : Type} {k a : Nat} (m : NMap α) (h : a ≠ k) : mapFind a (mapErase k m) = mapFind a m := by
  induction m with
  | nil => rfl
  | cons p m ih =>
    obtain ⟨j, w⟩ := p
    by_cases hj : j = k
    · have : j ≠ a := fun e => h (e ▸ hj)
      simpa [mapErase, mapFind, hj, this, Ne.symm h] using ih
    · by_cases ha : j = a
      · simp [mapErase, mapFind, ha, h]
      · simpa [mapErase, mapFind, hj, ha] using ih

theorem mem_mapErase_ne {α : Type} (k : Nat) (m : NMap α) : ∀ p ∈ mapErase k m, p.1 ≠ k := by
  intro p hp
  simpa using (List.mem_filter.1 hp).2

/-- A key reads as the value written to it. -/
@[simp] theorem mapGet_put_self {α : Type} [DecidableEq α] (d : Nat → α) (m : NMap α) (k : Nat) (v : α) :
    mapGet d (mapPut d m k v) k = v := by
  by_cases h : v = d k
  · simp [mapGet, mapPut, mapFind_erase_self, h]
  · simp [mapGet, mapPut, mapFind_insert_self k v _ (mem_mapErase_ne k m), h]

/-- A write leaves every other key as it was. -/
theorem mapGet_put_ne {α : Type} [DecidableEq α] (d : Nat → α) (m : NMap α) {k a : Nat} (v : α) (h : a ≠ k) :
    mapGet d (mapPut d m k v) a = mapGet d m a := by
  by_cases hv : v = d k
  · simp [mapGet, mapPut, mapFind_erase_ne m h, hv]
  · simp [mapGet, mapPut, mapFind_insert_ne v _ h, mapFind_erase_ne m h, hv]

theorem mapSorted_cons {α : Type} (j : Nat) (v : α) (m : NMap α) :
    mapSorted ((j, v) :: m) = true ↔ (∀ p ∈ m, j < p.1) ∧ mapSorted m = true := by
  induction m generalizing j v with
  | nil => simp [mapSorted]
  | cons p m ih =>
    obtain ⟨k, w⟩ := p
    simp only [mapSorted, Bool.and_eq_true, decide_eq_true_eq, List.mem_cons, forall_eq_or_imp]
    constructor
    · rintro ⟨h1, h2⟩
      exact ⟨⟨h1, fun q hq => Nat.lt_trans h1 (((ih k w).1 h2).1 q hq)⟩, h2⟩
    · rintro ⟨⟨h1, _⟩, h2⟩
      exact ⟨h1, h2⟩

theorem mapSorted_filter {α : Type} (f : Nat × α → Bool) (m : NMap α) (h : mapSorted m = true) : mapSorted (m.filter f) = true := by
  induction m with
  | nil => rfl
  | cons p m ih =>
    obtain ⟨j, v⟩ := p
    rw [mapSorted_cons] at h
    rw [List.filter_cons]
    split
    · rw [mapSorted_cons]
      exact ⟨fun q hq => h.1 q (List.mem_filter.1 hq).1, ih h.2⟩
    · exact ih h.2

theorem mem_mapInsert {α : Type} (k : Nat) (v : α) (m : NMap α) (q : Nat × α) (h : q ∈ mapInsert k v m) : q = (k, v) ∨ q ∈ m := by
  induction m with
  | nil => simpa [mapInsert] using h
  | cons p m ih =>
    obtain ⟨j, w⟩ := p
    rw [mapInsert] at h
    split at h
    · simpa using h
    · rcases List.mem_cons.1 h with h | h
      · exact .inr (h ▸ List.mem_cons_self)
      · rcases ih h with h | h
        · exact .inl h
        · exact .inr (List.mem_cons_of_mem _ h)

theorem mapSorted_insert {α : Type} (k : Nat) (v : α) (m : NMap α) (h : mapSorted m = true) (hk : ∀ p ∈ m, p.1 ≠ k) :
    mapSorted (mapInsert k v m) = true := by
  induction m with
  | nil => rfl
  | cons p m ih =>
    obtain ⟨j, w⟩ := p
    have hs := (mapSorted_cons j w m).1 h
    have hj : j ≠ k := hk (j, w) List.mem_cons_self
    rw [mapInsert]
    split
    · next hlt =>
      rw [mapSorted_cons]
      refine ⟨fun q hq => ?_, h⟩
      rcases List.mem_cons.1 hq with hq | hq
      · rw [hq]; exact hlt
      · exact Nat.lt_trans hlt (hs.1 q hq)
    · next hlt =>
      rw [mapSorted_cons]
      refine ⟨fun q hq => ?_, ih hs.2 (fun p hp => hk p (List.mem_cons_of_mem _ hp))⟩
      rcases mem_mapInsert k v m q hq with hq | hq
      · rw [hq]; exact Nat.lt_of_le_of_ne (Nat.le_of_not_lt hlt) hj
      · exact hs.1 q hq

theorem mapWf_filter {α : Type} [DecidableEq α] (d : Nat → α) (f : Nat × α → Bool) (m : NMap α) (h : mapWf d m = true) :
    mapWf d (m.filter f) = true := by
  simp only [mapWf, Bool.and_eq_true, List.all_eq_true] at h ⊢
  exact ⟨mapSorted_filter f m h.1, fun q hq => h.2 q (List.mem_filter.1 hq).1⟩

/-- A write keeps the canonical form. -/
theorem mapWf_put {α : Type} [DecidableEq α] (d : Nat → α) (m : NMap α) (k : Nat) (v : α) (h : mapWf d m = true) :
    mapWf d (mapPut d m k v) = true := by
  have he : mapWf d (mapErase k m) = true := mapWf_filter d _ m h
  rw [mapPut]
  split
  · exact he
  · next hv =>
    simp only [mapWf, Bool.and_eq_true, List.all_eq_true] at he ⊢
    refine ⟨mapSorted_insert k v _ he.1 ?_, fun q hq => ?_⟩
    · intro p hp
      have := (List.mem_filter.1 hp).2
      simpa using this
    · rcases mem_mapInsert k v _ q hq with hq | hq
      · rw [hq]; simpa using hv
      · exact he.2 q hq

end Sys2Proof.Machine
end

