-- ==== Sys2Proof/Laws/Follows.lean ====
section
/-! SUPPORT. What every command keeps: `Follows b s` says that a command which began in `b` may have come to `s`. The files
Laws/Follows*.lean hold one lemma for each operation, the meanings' own among them, for a proof about all commands to cite. -/

namespace Sys2Proof.Machine

/-- Fuses only blow: the life-cycle state and MIN_EPOCH never fall, and a failed fuse stays failed (R469, R473, R476). -/
def FusesLe (f g : Fuses) : Prop := f.lc ≤ g.lc ∧ f.minEpoch ≤ g.minEpoch ∧ (f.failed = true → g.failed = true)

/-- The queue is untouched, nothing handed to the world is taken back, no free value is drawn twice, fuses only blow, and
memory, check bits and registers are in canonical form. -/
def Follows (b s : State) : Prop :=
  s.pending = b.pending ∧ b.out <+: s.out ∧ b.free ≤ s.free ∧ FusesLe b.sec.fuses s.sec.fuses ∧ s.Canonical

theorem FusesLe.refl (f : Fuses) : FusesLe f f := ⟨Nat.le_refl _, Nat.le_refl _, id⟩

theorem FusesLe.trans {f g h : Fuses} (a : FusesLe f g) (b : FusesLe g h) : FusesLe f h :=
  ⟨Nat.le_trans a.1 b.1, Nat.le_trans a.2.1 b.2.1, fun e => b.2.2 (a.2.2 e)⟩

theorem follows_refl {s : State} (h : s.Canonical) : Follows s s := ⟨rfl, List.prefix_rfl, Nat.le_refl _, FusesLe.refl _, h⟩

theorem follows_mk_iff {b : State} {p fr rg m fi c l ti lo ir n q fl pd fb dr g cm rv u ck bo y pw se mo o} :
    Follows b (State.mk p fr rg m fi c l ti lo ir n q fl pd fb dr g cm rv u ck bo y pw se mo o) ↔
      (p = b.pending ∧ b.out <+: o) ∧ (b.free ≤ fr ∧ FusesLe b.sec.fuses se.fuses) ∧
        mapWf (unlisted fi) m = true ∧ mapWf (unlistedChk fi) c = true ∧ mapWf regReset rg = true :=
  ⟨fun h => ⟨⟨h.1, h.2.1⟩, ⟨h.2.2.1, h.2.2.2.1⟩, h.2.2.2.2⟩, fun h => ⟨h.1.1, h.1.2, h.2.1.1, h.2.1.2, h.2.2⟩⟩

/-- An update of the parts that `Follows` says nothing of. -/
theorem follows_upd {b u : State} {l ti lo ir n q fl pd fb dr g cm rv uf ck bo y pw mo} :
    Follows b (State.mk u.pending u.free u.regs u.mem u.fills u.chk l ti lo ir n q fl pd fb dr g cm rv uf ck bo y pw u.sec mo u.out) ↔
      Follows b u := Iff.rfl

/-- An update of the security part that blows fuses at most. -/
theorem follows_sec {b u : State} {l ti lo ir n q fl pd fb dr g cm rv uf ck bo y pw mo} {se : SecState}
    (hf : FusesLe b.sec.fuses se.fuses) (h : Follows b u) :
    Follows b (State.mk u.pending u.free u.regs u.mem u.fills u.chk l ti lo ir n q fl pd fb dr g cm rv uf ck bo y pw se mo u.out) :=
  ⟨h.1, h.2.1, h.2.2.1, hf, h.2.2.2.2⟩

/-- An update of the security part that leaves the fuses as they are. -/
theorem follows_secKeep {b u : State} {l ti lo ir n q fl pd fb dr g cm rv uf ck bo y pw mo} {a c d e f} :
    Follows b (State.mk u.pending u.free u.regs u.mem u.fills u.chk l ti lo ir n q fl pd fb dr g cm rv uf ck bo y pw
      (SecState.mk u.sec.fuses a c d e f) mo u.out) ↔ Follows b u := Iff.rfl

theorem follows_pending {b s : State} (h : Follows b s) : s.pending = b.pending := h.1
theorem follows_out {b s : State} (h : Follows b s) : b.out <+: s.out := h.2.1
theorem follows_out_add {b : State} {l m : List Out} (h : b.out <+: l) : b.out <+: l ++ m := h.trans (List.prefix_append l m)
theorem follows_free {b s : State} (h : Follows b s) : b.free ≤ s.free := h.2.2.1
theorem follows_free_add {b : State} {n m : Nat} (h : b.free ≤ n) : b.free ≤ n + m := Nat.le_trans h (Nat.le_add_right n m)
theorem follows_fuses {b s : State} (h : Follows b s) : FusesLe b.sec.fuses s.sec.fuses := h.2.2.2.1
theorem follows_mem {b s : State} (h : Follows b s) : mapWf (unlisted s.fills) s.mem = true := h.2.2.2.2.1
theorem follows_chk {b s : State} (h : Follows b s) : mapWf (unlistedChk s.fills) s.chk = true := h.2.2.2.2.2.1
theorem follows_regs {b s : State} (h : Follows b s) : mapWf regReset s.regs = true := h.2.2.2.2.2.2
theorem follows_put {α : Type} [DecidableEq α] {d : Nat → α} {m : NMap α} {k : Nat} {v : α} (h : mapWf d m = true) :
    mapWf d (mapPut d m k v) = true := mapWf_put d m k v h
theorem follows_filter {α : Type} [DecidableEq α] {d : Nat → α} {f : Nat × α → Bool} {m : NMap α} (h : mapWf d m = true) :
    mapWf d (m.filter f) = true := mapWf_filter d f m h
theorem follows_mapClear {α : Type} [DecidableEq α] {d : Nat → α} {m : NMap α} {lo hi : Nat} (h : mapWf d m = true) :
    mapWf d (mapClear m lo hi) = true := mapWf_filter d _ m h

theorem follows_foldl {b : State} {α : Type} {f : State → α → State} {l : List α} {s : State}
    (hf : ∀ u x, Follows b u → Follows b (f u x)) (h : Follows b s) : Follows b (l.foldl f s) := by
  induction l generalizing s with
  | nil => exact h
  | cons x l ih => exact ih (hf s x h)

theorem follows_each {b : State} {α : Type} {f : State → α → State} {l : List α} {s : State}
    (hf : ∀ u x, Follows b u → Follows b (f u x)) (h : Follows b s) : Follows b (each l f s) := follows_foldl hf h

theorem follows_foldl2 {b : State} {α β : Type} {f : β × State → α → β × State} {l : List α} {i : β × State}
    (hf : ∀ u x, Follows b u.2 → Follows b (f u x).2) (h : Follows b i.2) : Follows b (l.foldl f i).2 := by
  induction l generalizing i with
  | nil => exact h
  | cons x l ih => exact ih (hf i x h)

theorem follows_foldl1 {b : State} {α β : Type} {f : State × β → α → State × β} {l : List α} {i : State × β}
    (hf : ∀ u x, Follows b u.1 → Follows b (f u x).1) (h : Follows b i.1) : Follows b (l.foldl f i).1 := by
  induction l generalizing i with
  | nil => exact h
  | cons x l ih => exact ih (hf i x h)

theorem follows_getD {b : State} {o : Option State} {d : State} (ho : ∀ v, o = some v → Follows b v) (h : Follows b d) :
    Follows b (o.getD d) := by
  cases o with
  | none => exact h
  | some v => exact ho v rfl

theorem follows_ite {b x y : State} {c : Prop} [Decidable c] (hx : Follows b x) (hy : Follows b y) :
    Follows b (if c then x else y) := by
  split
  · exact hx
  · exact hy

theorem follows_ite2 {b : State} {α : Type} {x y : α × State} {c : Prop} [Decidable c] (hx : Follows b x.2) (hy : Follows b y.2) :
    Follows b (if c then x else y).2 := by
  split
  · exact hx
  · exact hy

theorem unlisted_cons_of_not {f : Fill} {fs : List Fill} {a : Nat} (h : f.covers a = false) : unlisted (f :: fs) a = unlisted fs a := by
  simp [unlisted, h]

theorem unlistedChk_cons_of_not {f : Fill} {fs : List Fill} {a : Nat} (h : f.covers a = false) :
    unlistedChk (f :: fs) a = unlistedChk fs a := by
  simp [unlistedChk, h]

/-! ### The primitives -/

theorem follows_wr {b s : State} {a : Nat} {v : W64} (h : Follows b s) : Follows b (wr s a v) :=
  follows_mk_iff.2 ⟨⟨h.1, h.2.1⟩, ⟨h.2.2.1, h.2.2.2.1⟩, follows_mem h, follows_chk h, follows_put (follows_regs h)⟩

theorem follows_clearRegs {b s : State} {lo hi : Nat} (h : Follows b s) : Follows b (clearRegs s lo hi) :=
  follows_mk_iff.2 ⟨⟨h.1, h.2.1⟩, ⟨h.2.2.1, h.2.2.2.1⟩, follows_mem h, follows_chk h, follows_mapClear (follows_regs h)⟩

theorem follows_writeByte {b s : State} {a : Nat} {v : Byte} (h : Follows b s) : Follows b (writeByte s a v) :=
  follows_mk_iff.2 ⟨⟨h.1, h.2.1⟩, ⟨h.2.2.1, h.2.2.2.1⟩, follows_put (follows_mem h), follows_chk h, follows_regs h⟩

theorem follows_setChk {b s : State} {a v : Nat} (h : Follows b s) : Follows b (setChk s a v) :=
  follows_mk_iff.2 ⟨⟨h.1, h.2.1⟩, ⟨h.2.2.1, h.2.2.2.1⟩, follows_mem h, follows_put (follows_chk h), follows_regs h⟩

theorem follows_applyFill {b s : State} {f : Fill} (h : Follows b s) : Follows b (applyFill s f) := by
  refine follows_mk_iff.2 ⟨⟨h.1, h.2.1⟩, ⟨follows_free_add h.2.2.1, h.2.2.2.1⟩, ?_, ?_, follows_regs h⟩
  · have := mapWf_filter (unlisted s.fills) (fun p => !f.covers p.1) s.mem (follows_mem h)
    simp only [mapWf, Bool.and_eq_true, List.all_eq_true] at this ⊢
    refine ⟨this.1, fun q hq => ?_⟩
    have hc := (List.mem_filter.1 hq).2
    rw [unlisted_cons_of_not (by simpa using hc)]
    exact this.2 q hq
  · have := mapWf_filter (unlistedChk s.fills) (fun p => !f.covers p.1) s.chk (follows_chk h)
    simp only [mapWf, Bool.and_eq_true, List.all_eq_true] at this ⊢
    refine ⟨this.1, fun q hq => ?_⟩
    have hc := (List.mem_filter.1 hq).2
    rw [unlistedChk_cons_of_not (by simpa using hc)]
    exact this.2 q hq

theorem follows_limitOnce {b s : State} {key win : Nat} (h : Follows b s) : Follows b (limitOnce s key win).2 := by
  unfold limitOnce
  split
  · exact h
  · exact follows_mk_iff.2 ⟨⟨h.1, h.2.1⟩, ⟨h.2.2.1, h.2.2.2.1⟩, h.2.2.2.2⟩

/-- Every next state that an outcome answers follows `b`. -/
def FollowsNext (b : State) (o : Host.Outcome State Fault Refusal) : Prop := ∀ t, o = .next t → Follows b t

theorem followsNext {b t : State} (h : Follows b t) : FollowsNext b (.next t) := by
  intro u e
  injection e with e
  exact e ▸ h

end Sys2Proof.Machine
end

