-- ==== Sys2Proof/Laws/FollowsOps.lean ====
section
/-! SUPPORT. `Follows` is kept by the operations of Machine/Ops.lean. -/

namespace Sys2Proof.Machine

theorem follows_wrF {s₀ : State} {s : State} {a lo n v : Nat} (h_s : Follows s₀ s) :
    Follows s₀ (wrF s a lo n v) := by
  unfold wrF
  try dsimp only
  with_reducible repeat' (first | assumption | apply follows_wr)

theorem follows_wrB {s₀ : State} {s : State} {a i : Nat} {b : Bool} (h_s : Follows s₀ s) :
    Follows s₀ (wrB s a i b) := by
  unfold wrB
  try dsimp only
  with_reducible repeat' (first | assumption | apply follows_wr)

theorem follows_wrG {s₀ : State} {s : State} {a v : Nat} (h_s : Follows s₀ s) :
    Follows s₀ (wrG s a v) := by
  unfold wrG
  try dsimp only
  with_reducible repeat' (first | assumption | apply follows_wr)

theorem follows_wrGF {s₀ : State} {s : State} {a lo n v : Nat} (h_s : Follows s₀ s) :
    Follows s₀ (wrGF s a lo n v) := by
  unfold wrGF
  try dsimp only
  with_reducible repeat' (first | assumption | apply follows_wrG)

theorem follows_drawn {s₀ s : State} (h_s : Follows s₀ s) : Follows s₀ (drawn s) :=
  follows_mk_iff.2 ⟨⟨h_s.1, h_s.2.1⟩, ⟨follows_free_add h_s.2.2.1, h_s.2.2.2.1⟩, h_s.2.2.2.2⟩

theorem follows_drawnMany {s₀ : State} {s : State} {n : Nat} (h_s : Follows s₀ s) :
    Follows s₀ (drawnMany s n) :=
  follows_mk_iff.2 ⟨⟨h_s.1, h_s.2.1⟩, ⟨follows_free_add h_s.2.2.1, h_s.2.2.2.1⟩, h_s.2.2.2.2⟩

theorem follows_raise {s₀ s : State} {src : Nat} (h_s : Follows s₀ s) : Follows s₀ (raise s src) := by
  unfold raise
  dsimp only
  split
  · exact follows_mk_iff.2 ⟨⟨h_s.1, follows_out_add h_s.2.1⟩, ⟨h_s.2.2.1, h_s.2.2.2.1⟩, h_s.2.2.2.2⟩
  · exact follows_upd.2 h_s

theorem follows_raiseIfNew {s₀ : State} {before after : State} {src : Nat} (h_before : Follows s₀ before) (h_after : Follows s₀ after) :
    Follows s₀ (raiseIfNew before after src) := by
  unfold raiseIfNew
  try dsimp only
  with_reducible repeat' (first | assumption | apply follows_raise | apply follows_ite)

theorem follows_errSet {s₀ : State} {s : State} {p bits code : Nat} (h_s : Follows s₀ s) :
    Follows s₀ (errSet s p bits code) := by
  unfold errSet
  try dsimp only
  with_reducible repeat' (
    first | assumption | apply follows_wr | apply follows_wrF | apply follows_raiseIfNew | simp only [follows_upd]
          | apply follows_ite | split)

theorem follows_logOverflow {s₀ : State} {s : State} (h_s : Follows s₀ s) :
    Follows s₀ (logOverflow s) := by
  unfold logOverflow
  try dsimp only
  with_reducible repeat' (first | assumption | apply follows_wrF | apply follows_raise)

theorem follows_enqueueRec {s₀ : State} {s : State} {p : Nat} {r : Record} (h_s : Follows s₀ s) :
    Follows s₀ (enqueueRec s p r).1 := by
  unfold enqueueRec
  try dsimp only
  with_reducible repeat' (first | assumption | intro _ | apply follows_logOverflow | simp only [follows_upd] | apply follows_ite | split)

theorem follows_nameCluster {s₀ : State} {s : State} {p code : Nat} {i : RecInfo} (h_s : Follows s₀ s) :
    Follows s₀ (nameCluster s p code i) := by
  unfold nameCluster
  try dsimp only
  with_reducible repeat' (first | assumption | intro _ | simp only [follows_upd] | apply follows_ite | split)

theorem follows_noteEvent {s₀ : State} {s : State} {code : Nat} (h_s : Follows s₀ s) :
    Follows s₀ (noteEvent s code) := by
  unfold noteEvent
  try dsimp only
  with_reducible repeat' (first | assumption | simp only [follows_upd] | apply follows_ite)

theorem follows_report0 {s₀ : State} {s0 : State} {p bits code : Nat} {i : RecInfo} (h_s0 : Follows s₀ s0) :
    Follows s₀ (report0 s0 p bits code i) := by
  unfold report0
  try dsimp only
  with_reducible repeat' (first | assumption | apply follows_errSet | apply follows_enqueueRec | apply follows_nameCluster | apply follows_noteEvent)

theorem follows_saturated {s₀ : State} {s : State} {a : Nat} (h_s : Follows s₀ s) :
    Follows s₀ (saturated s a) := by
  unfold saturated
  try dsimp only
  with_reducible repeat' (first | assumption | apply follows_report0)

theorem follows_satCheck {s₀ : State} {before after : State} {p : Nat} (h_before : Follows s₀ before) (h_after : Follows s₀ after) :
    Follows s₀ (satCheck before after p) := by
  unfold satCheck
  try dsimp only
  with_reducible repeat' (first | assumption | apply follows_saturated | apply follows_ite)

theorem follows_reportB {s₀ : State} {s : State} {p bits code : Nat} {i : RecInfo} (h_s : Follows s₀ s) :
    Follows s₀ (reportB s p bits code i) := by
  unfold reportB
  try dsimp only
  with_reducible repeat' (first | assumption | apply follows_report0 | apply follows_satCheck)

theorem follows_report {s₀ : State} {s : State} {p code : Nat} {i : RecInfo} (h_s : Follows s₀ s) :
    Follows s₀ (report s p code i) := by
  unfold report
  try dsimp only
  with_reducible repeat' (first | assumption | apply follows_reportB)

theorem follows_guardReport {s₀ : State} {s : State} {p code : Nat} {i : RecInfo} (h_s : Follows s₀ s) :
    Follows s₀ (guardReport s p code i) := by
  unfold guardReport
  try dsimp only
  with_reducible repeat' (first | assumption | apply follows_reportB)

theorem follows_setErr {s₀ : State} {s : State} {p bits : Nat} (h_s : Follows s₀ s) :
    Follows s₀ (setErr s p bits) := by
  unfold setErr
  try dsimp only
  with_reducible repeat' (first | assumption | apply follows_errSet | apply follows_satCheck)

theorem follows_ignored {s₀ : State} {s : State} {p : Nat} (h_s : Follows s₀ s) :
    Follows s₀ (ignored s p) := by
  unfold ignored
  try dsimp only
  with_reducible repeat' (first | assumption | apply follows_setErr)

theorem follows_incWrap {s₀ : State} {s : State} {a k : Nat} (h_s : Follows s₀ s) :
    Follows s₀ (incWrap s a k) := by
  unfold incWrap
  try dsimp only
  with_reducible repeat' (first | assumption | apply follows_wrF | apply follows_wrB | apply follows_ite)

theorem follows_incSatN {s₀ : State} {s : State} {a n k : Nat} (h_s : Follows s₀ s) :
    Follows s₀ (incSatN s a n k) := by
  unfold incSatN
  try dsimp only
  with_reducible repeat' (first | assumption | apply follows_wrF | apply follows_saturated | apply follows_satCheck | apply follows_ite)

theorem follows_incSat {s₀ : State} {s : State} {a k : Nat} (h_s : Follows s₀ s) :
    Follows s₀ (incSat s a k) := by
  unfold incSat
  try dsimp only
  with_reducible repeat' (first | assumption | apply follows_incSatN)

theorem follows_reportLimited {s₀ : State} {s : State} {p bits code key win : Nat} {i : RecInfo} (h_s : Follows s₀ s) :
    Follows s₀ (reportLimited s p bits code key win i) := by
  unfold reportLimited
  try dsimp only
  with_reducible repeat' (first | assumption | apply follows_reportB | apply follows_setErr | apply follows_limitOnce | apply follows_ite)

theorem follows_writeBytes {s₀ s : State} {a : Nat} {y0 : List Byte} (h_s : Follows s₀ s) : Follows s₀ (writeBytes s a y0) := by
  induction y0 generalizing s a with
  | nil => exact h_s
  | cons x xs ih => exact ih (follows_writeByte h_s)

theorem follows_writeNat {s₀ : State} {s : State} {a n v : Nat} (h_s : Follows s₀ s) :
    Follows s₀ (writeNat s a n v) := by
  unfold writeNat
  try dsimp only
  with_reducible repeat' (first | assumption | apply follows_writeBytes)

theorem follows_fillMem {s₀ : State} {s : State} {lo size : Nat} {undefinedContents : Bool} (h_s : Follows s₀ s) :
    Follows s₀ (fillMem s lo size undefinedContents) := by
  unfold fillMem
  try dsimp only
  with_reducible repeat' (first | assumption | apply follows_applyFill)

theorem follows_emit {s₀ s : State} {o : Out} (h_s : Follows s₀ s) : Follows s₀ (emit s o) :=
  follows_mk_iff.2 ⟨⟨h_s.1, follows_out_add h_s.2.1⟩, ⟨h_s.2.2.1, h_s.2.2.2.1⟩, h_s.2.2.2.2⟩

theorem follows_setSlotFlags {s₀ : State} {s : State} {t r v : Nat} (h_s : Follows s₀ s) :
    Follows s₀ (setSlotFlags s t r v) := by
  unfold setSlotFlags
  try dsimp only
  with_reducible repeat' (first | assumption | intro _ | simp only [follows_upd])

end Sys2Proof.Machine
end

