-- ==== Sys2Proof/Laws/FollowsContext.lean ====
section
/-! SUPPORT. `Follows` is kept by the operations of Machine/Context.lean. -/

namespace Sys2Proof.Machine

theorem follows_denied {s₀ : State} {s : State} {p : Nat} (h_s : Follows s₀ s) :
    Follows s₀ (denied s p) := by
  unfold denied
  try dsimp only
  with_reducible repeat' (first | assumption | apply follows_reportB)

theorem follows_setTdState {s₀ : State} {s : State} {c v : Nat} (h_s : Follows s₀ s) :
    Follows s₀ (setTdState s c v) := by
  unfold setTdState
  try dsimp only
  with_reducible repeat' (first | assumption | apply follows_wrF)

theorem follows_setCsState {s₀ : State} {s : State} {c v : Nat} (h_s : Follows s₀ s) :
    Follows s₀ (setCsState s c v) := by
  unfold setCsState
  try dsimp only
  with_reducible repeat' (first | assumption | apply follows_wrF)

theorem follows_setVoteHeld {s₀ : State} {s : State} {t c : Nat} {b : Bool} (h_s : Follows s₀ s) :
    Follows s₀ (setVoteHeld s t c b) := by
  unfold setVoteHeld
  try dsimp only
  with_reducible repeat' (first | assumption | intro _ | simp only [follows_upd])

theorem follows_progress {s₀ : State} {s : State} {t c : Nat} (h_s : Follows s₀ s) :
    Follows s₀ (progress s t c) := by
  induction t generalizing s with
  | zero => exact h_s
  | succ n ih =>
    unfold progress
    try dsimp only
    with_reducible repeat' (first | assumption | (apply ih) | intro _ | simp only [follows_upd])

theorem follows_requestDirty {s₀ : State} {s : State} {c : Nat} (h_s : Follows s₀ s) :
    Follows s₀ (requestDirty s c) := by
  unfold requestDirty
  try dsimp only
  with_reducible repeat' (first | assumption | simp only [follows_upd])

theorem follows_clearClean {s₀ : State} {s : State} {t c : Nat} (h_s : Follows s₀ s) :
    Follows s₀ (clearClean s t c) := by
  unfold clearClean
  try dsimp only
  with_reducible repeat' (first | assumption | apply follows_setSlotFlags | apply follows_requestDirty | simp only [follows_upd] | split)

theorem follows_clearNoFault {s₀ : State} {s : State} {t c : Nat} (h_s : Follows s₀ s) :
    Follows s₀ (clearNoFault s t c) := by
  unfold clearNoFault
  try dsimp only
  with_reducible repeat' (first | assumption | apply follows_setSlotFlags | simp only [follows_upd] | split)

theorem follows_requestTeardown {s₀ : State} {s : State} {c : Nat} (h_s : Follows s₀ s) :
    Follows s₀ (requestTeardown s c) := by
  unfold requestTeardown
  try dsimp only
  with_reducible repeat' (first | assumption | simp only [follows_upd] | apply follows_ite)

theorem follows_faultStop {s₀ : State} {s : State} {t c : Nat} (h_s : Follows s₀ s) :
    Follows s₀ (faultStop s t c) := by
  unfold faultStop
  try dsimp only
  with_reducible repeat' (
    first | assumption | apply follows_clearNoFault | apply follows_requestTeardown | simp only [follows_upd]
          | apply follows_ite)

theorem follows_programFault {s₀ : State} {s : State} {t k c code q : Nat} {detail : List Nat} (h_s : Follows s₀ s) :
    Follows s₀ (programFault s t k c code q detail) := by
  unfold programFault
  try dsimp only
  with_reducible repeat' (first | assumption | apply follows_report | apply follows_faultStop)

theorem follows_queueFence {s₀ : State} {s : State} {entry : Nat} (h_s : Follows s₀ s) :
    Follows s₀ (queueFence s entry) := by
  unfold queueFence
  try dsimp only
  with_reducible repeat' (first | assumption | simp only [follows_upd] | apply follows_ite)

theorem follows_stopTile {s₀ : State} {s : State} {t : Nat} (h_s : Follows s₀ s) :
    Follows s₀ (stopTile s t) := by
  unfold stopTile
  try dsimp only
  with_reducible repeat' (first | assumption | intro _ | apply follows_each | apply follows_clearClean | simp only [follows_upd])

theorem follows_fenceTile {s₀ : State} {s : State} {t cause : Nat} (h_s : Follows s₀ s) :
    Follows s₀ (fenceTile s t cause) := by
  unfold fenceTile
  try dsimp only
  with_reducible repeat' (first | assumption | apply follows_queueFence | apply follows_stopTile | apply follows_ite)

end Sys2Proof.Machine
end

