-- ==== Sys2Proof/Laws/FollowsOperands.lean ====
section
/-! SUPPORT. `Follows` is kept by the operations of Machine/Operands.lean. -/

namespace Sys2Proof.Machine

theorem follows_setFold {s₀ : State} {s : State} {t entry done : Nat} (h_s : Follows s₀ s) :
    Follows s₀ (setFold s t entry done) := by
  unfold setFold
  try dsimp only
  with_reducible repeat' (first | assumption | apply follows_wrF)

theorem follows_passTorn {s₀ : State} {s : State} {t : Nat} (h_s : Follows s₀ s) :
    Follows s₀ (passTorn s t) := by
  unfold passTorn
  try dsimp only
  with_reducible repeat' (first | assumption | intro _ | apply follows_setFold | simp only [follows_upd] | apply follows_ite)

theorem follows_passTornAll {s₀ : State} {s : State} (h_s : Follows s₀ s) :
    Follows s₀ (passTornAll s) := by
  unfold passTornAll
  try dsimp only
  with_reducible repeat' (
    first | assumption | intro _ | apply follows_each | apply follows_passTorn)

end Sys2Proof.Machine
end

