-- ==== Sys2Proof/Laws/FollowsFlags.lean ====
section
/-! SUPPORT. `Follows` is kept by the operations of Machine/Flags.lean. -/

namespace Sys2Proof.Machine

theorem follows_setArith {s₀ : State} {s : State} {t bit : Nat} (h_s : Follows s₀ s) :
    Follows s₀ (setArith s t bit) := by
  unfold setArith
  try dsimp only
  with_reducible repeat' (first | assumption | apply follows_wrB)

theorem follows_raiseArith {s₀ : State} {s : State} {t : Nat} {codes : List Nat} (h_s : Follows s₀ s) :
    Follows s₀ (raiseArith s t codes) := by
  unfold raiseArith
  try dsimp only
  with_reducible repeat' (
    first | assumption | intro _ | apply follows_each | apply follows_setArith | simp only [follows_upd]
          | apply follows_ite)

theorem follows_arithRecords {s₀ : State} {s : State} {t c : Nat} {codes : List Nat} (h_s : Follows s₀ s) :
    Follows s₀ (arithRecords s t c codes) := by
  unfold arithRecords
  try dsimp only
  with_reducible repeat' (
    first | assumption | intro _ | apply follows_each | apply follows_report)

theorem follows_arithEvents {s₀ : State} {s : State} {t c : Nat} {codes : List Nat} (h_s : Follows s₀ s) :
    Follows s₀ (arithEvents s t c codes) := by
  unfold arithEvents
  try dsimp only
  with_reducible repeat' (
    first | assumption | intro _ | apply follows_raiseArith | apply follows_arithRecords)

theorem follows_satSeen {s₀ : State} {s : State} {t : Nat} (h_s : Follows s₀ s) :
    Follows s₀ (satSeen s t) := by
  unfold satSeen
  try dsimp only
  with_reducible repeat' (
    first | assumption | intro _ | apply follows_setArith | apply follows_incWrap | apply follows_incSat
          | simp only [follows_upd] | apply follows_ite)

theorem follows_satResult {s₀ : State} {s : State} {t : Nat} {q : Nat × Bool} {codes : List Nat} (h_s : Follows s₀ s) :
    Follows s₀ (satResult s t q codes).2 := by
  unfold satResult
  try dsimp only
  with_reducible repeat' (first | assumption | intro _ | apply follows_satSeen | simp only [follows_upd] | apply follows_ite | split)

theorem follows_satEvents {s₀ : State} {s : State} {t c n : Nat} (h_s : Follows s₀ s) :
    Follows s₀ (satEvents s t c n) := by
  unfold satEvents
  try dsimp only
  with_reducible repeat' (
    first | assumption | intro _ | apply follows_each | apply follows_arithRecords | apply follows_satSeen)

theorem follows_scaleNanSeen {s₀ : State} {s : State} {t : Nat} (h_s : Follows s₀ s) :
    Follows s₀ (scaleNanSeen s t) := by
  unfold scaleNanSeen
  try dsimp only
  with_reducible repeat' (first | assumption | intro _ | apply follows_setArith | simp only [follows_upd] | apply follows_ite)

theorem follows_scaleNan {s₀ : State} {s : State} {t c : Nat} (h_s : Follows s₀ s) :
    Follows s₀ (scaleNan s t c) := by
  unfold scaleNan
  try dsimp only
  with_reducible repeat' (
    first | assumption | intro _ | apply follows_arithRecords | apply follows_scaleNanSeen)

end Sys2Proof.Machine
end

