-- ==== Sys2Proof/Laws/FollowsNet.lean ====
section
/-! SUPPORT. `Follows` is kept by the operations of Machine/Net.lean. -/

namespace Sys2Proof.Machine

theorem follows_inject {s₀ : State} {s : State} {t : Nat} {p : Pkt} (h_s : Follows s₀ s) :
    Follows s₀ (inject s t p) := by
  unfold inject
  try dsimp only
  with_reducible repeat' (first | assumption | simp only [follows_upd])

theorem follows_numbered {s₀ : State} {s : State} {n : Nat} (h_s : Follows s₀ s) :
    Follows s₀ (numbered s n) := by
  unfold numbered
  try dsimp only
  with_reducible repeat' (first | assumption | intro _ | simp only [follows_upd])

theorem follows_setFifo {s₀ : State} {s : State} {b : Nat} {l h : List (Nat × Flit)} (h_s : Follows s₀ s) :
    Follows s₀ (setFifo s b l h) := by
  unfold setFifo
  try dsimp only
  with_reducible repeat' (first | assumption | intro _ | simp only [follows_upd])

theorem follows_oweCredit {s₀ : State} {s : State} {p vc n : Nat} (h_s : Follows s₀ s) :
    Follows s₀ (oweCredit s p vc n) := by
  unfold oweCredit
  try dsimp only
  with_reducible repeat' (first | assumption | intro _ | simp only [follows_upd])

theorem follows_fifoFill {s₀ : State} {s : State} {b : Nat} (h_s : Follows s₀ s) :
    Follows s₀ (fifoFill s b) := by
  unfold fifoFill
  try dsimp only
  with_reducible repeat' (
    first | assumption | intro _ | apply follows_each | apply follows_setFifo | apply follows_oweCredit
          | simp only [follows_upd] | apply follows_ite)

theorem follows_submit {s₀ : State} {s : State} {b t : Nat} {p : Pkt} (h_s : Follows s₀ s) :
    Follows s₀ (submit s b t p) := by
  unfold submit
  try dsimp only
  with_reducible repeat' (
    first | assumption | intro _ | apply follows_numbered | apply follows_setFifo | apply follows_fifoFill)

theorem follows_hbInject {s₀ : State} {s : State} {p : Pkt} (h_s : Follows s₀ s) :
    Follows s₀ (hbInject s p) := by
  unfold hbInject
  try dsimp only
  with_reducible repeat' (first | assumption | intro _ | apply follows_submit)

theorem follows_eject {s₀ : State} {s : State} {t : Nat} {p : Pkt} (h_s : Follows s₀ s) :
    Follows s₀ (eject s t p) := by
  unfold eject
  try dsimp only
  with_reducible repeat' (first | assumption | simp only [follows_upd])

theorem follows_takeEjected {s₀ : State} {s : State} {t : Nat} {p : Pkt} {v : State} (e : takeEjected s t p = some v) (h_s : Follows s₀ s) :
    Follows s₀ v := by
  unfold takeEjected at e
  try dsimp only at e
  repeat' first | (cases e; done) | split at e
  all_goals (injection e with e; subst e)
  with_reducible repeat' (
    first | assumption | intro _ | simp only [follows_upd])

theorem follows_noteContrib {s₀ : State} {s : State} {t : Nat} {r : Red} (h_s : Follows s₀ s) :
    Follows s₀ (noteContrib s t r) := by
  unfold noteContrib
  try dsimp only
  with_reducible repeat' (first | assumption | intro _ | simp only [follows_upd] | apply follows_ite)

theorem follows_hold {s₀ : State} {s : State} {t port : Nat} {p : Pkt} (h_s : Follows s₀ s) :
    Follows s₀ (hold s t port p) := by
  unfold hold
  try dsimp only
  with_reducible repeat' (first | assumption | intro _ | simp only [follows_upd])

theorem follows_setRoute {s₀ : State} {s : State} {t d v : Nat} (h_s : Follows s₀ s) :
    Follows s₀ (setRoute s t d v) := by
  unfold setRoute
  try dsimp only
  with_reducible repeat' (first | assumption | intro _ | simp only [follows_upd])

theorem follows_setLinkQ {s₀ : State} {s : State} {t p : Nat} {l : List Flit} (h_s : Follows s₀ s) :
    Follows s₀ (setLinkQ s t p l) := by
  unfold setLinkQ
  try dsimp only
  with_reducible repeat' (first | assumption | intro _ | simp only [follows_upd])

theorem follows_pushFlits {s₀ : State} {s : State} {t p : Nat} {fs : List Flit} (h_s : Follows s₀ s) :
    Follows s₀ (pushFlits s t p fs) := by
  unfold pushFlits
  try dsimp only
  with_reducible repeat' (first | assumption | apply follows_setLinkQ)

theorem follows_dropFromFifo {s₀ : State} {ids : List Nat} {s : State} {b : Nat} (h_s : Follows s₀ s) :
    Follows s₀ (dropFromFifo ids s b) := by
  unfold dropFromFifo
  try dsimp only
  with_reducible repeat' (
    first | assumption | intro _ | apply follows_each | apply follows_setFifo | apply follows_oweCredit
          | apply follows_fifoFill | simp only [follows_upd] | apply follows_ite)

theorem follows_dropPackets {s₀ : State} {s : State} {ids0 : List Nat} (h_s : Follows s₀ s) :
    Follows s₀ (dropPackets s ids0) := by
  unfold dropPackets
  try dsimp only
  with_reducible repeat' (
    first | assumption | intro _ | apply follows_each | apply follows_dropFromFifo | simp only [follows_upd])

theorem follows_qCount {s₀ : State} {s : State} {t q k n : Nat} (h_s : Follows s₀ s) :
    Follows s₀ (qCount s t q k n) := by
  unfold qCount
  try dsimp only
  with_reducible repeat' (first | assumption | apply follows_incWrap)

theorem follows_ctlCount {s₀ : State} {s : State} {t k n : Nat} (h_s : Follows s₀ s) :
    Follows s₀ (ctlCount s t k n) := by
  unfold ctlCount
  try dsimp only
  with_reducible repeat' (first | assumption | apply follows_incWrap)

theorem follows_countDlv {s₀ : State} {s : State} {t : Nat} {m : Msg} (h_s : Follows s₀ s) :
    Follows s₀ (countDlv s t m) := by
  unfold countDlv
  try dsimp only
  with_reducible repeat' (first | assumption | apply follows_incWrap | apply follows_ite)

theorem follows_countInj {s₀ : State} {s : State} {t : Nat} {m : Msg} (h_s : Follows s₀ s) :
    Follows s₀ (countInj s t m) := by
  unfold countInj
  try dsimp only
  with_reducible repeat' (first | assumption | apply follows_incWrap | apply follows_ite)

theorem follows_refuse {s₀ : State} {s : State} {t cause : Nat} {m : Msg} (h_s : Follows s₀ s) :
    Follows s₀ (refuse s t cause m) := by
  unfold refuse
  try dsimp only
  with_reducible repeat' (first | assumption | apply follows_inject | apply follows_qCount | apply follows_ctlCount | apply follows_countDlv)

end Sys2Proof.Machine
end

