-- ==== Sys2Proof/Laws/FollowsLink.lean ====
section
/-! SUPPORT. `Follows` is kept by the operations of Machine/Link.lean. -/

namespace Sys2Proof.Machine

theorem follows_setLinkCredit {s₀ : State} {s : State} {p vc n : Nat} (h_s : Follows s₀ s) :
    Follows s₀ (setLinkCredit s p vc n) := by
  unfold setLinkCredit
  try dsimp only
  with_reducible repeat' (first | assumption | intro _ | simp only [follows_upd])

theorem follows_addCredits {s₀ : State} {s : State} {p : Nat} {l : List (Nat × Nat)} (h_s : Follows s₀ s) :
    Follows s₀ (addCredits s p l) := by
  unfold addCredits
  try dsimp only
  with_reducible repeat' (
    first | assumption | intro _ | apply follows_each | apply follows_setLinkCredit | simp only [follows_upd]
          | apply follows_ite)

theorem follows_markMoved {s₀ : State} {s : State} {p : Nat} (h_s : Follows s₀ s) :
    Follows s₀ (markMoved s p) := by
  unfold markMoved
  try dsimp only
  with_reducible repeat' (first | assumption | intro _ | simp only [follows_upd])

theorem follows_linkInit {s₀ : State} {s : State} {p : Nat} (h_s : Follows s₀ s) :
    Follows s₀ (linkInit s p) := by
  unfold linkInit
  try dsimp only
  with_reducible repeat' (first | assumption | intro _ | simp only [follows_upd])

theorem follows_linkQuiet {s₀ : State} {s : State} {p : Nat} {held : Nat → Nat} (h_s : Follows s₀ s) :
    Follows s₀ (linkQuiet s p held) := by
  unfold linkQuiet
  try dsimp only
  with_reducible repeat' (
    first | assumption | intro _ | apply follows_foldl | apply follows_foldl2 | apply follows_foldl1
          | simp only [follows_upd])

theorem follows_ackAndCredits {s₀ : State} {s : State} {p : Nat} (h_s : Follows s₀ s) :
    Follows s₀ (ackAndCredits s p) := by
  unfold ackAndCredits
  try dsimp only
  with_reducible repeat' (first | assumption | intro _ | apply follows_emit | simp only [follows_upd] | apply follows_ite)

theorem follows_endRun {s₀ : State} {s : State} {p : Nat} (h_s : Follows s₀ s) :
    Follows s₀ (endRun s p) := by
  unfold endRun
  try dsimp only
  with_reducible repeat' (first | assumption | intro _ | simp only [follows_upd])

theorem follows_linkAccept {s₀ : State} {s : State} {p : Nat} (h_s : Follows s₀ s) :
    Follows s₀ (linkAccept s p) := by
  unfold linkAccept
  try dsimp only
  with_reducible repeat' (first | assumption | intro _ | simp only [follows_upd])

theorem follows_seqAccept {s₀ : State} {s : State} {p seq : Nat} (h_s : Follows s₀ s) :
    Follows s₀ (seqAccept s p seq) := by
  unfold seqAccept
  try dsimp only
  with_reducible repeat' (first | assumption | intro _ | apply follows_linkAccept | simp only [follows_upd] | apply follows_ite)

theorem follows_nakSent {s₀ : State} {s : State} {p : Nat} (h_s : Follows s₀ s) :
    Follows s₀ (nakSent s p) := by
  unfold nakSent
  try dsimp only
  with_reducible repeat' (
    first | assumption | intro _ | apply follows_endRun | apply follows_emit | simp only [follows_upd])

theorem follows_runHeader {s₀ : State} {α : Type} {s : State} {p vc size : Nat} {e : Sent α} (h_s : Follows s₀ s) :
    Follows s₀ (runHeader s p vc size e) := by
  unfold runHeader
  try dsimp only
  with_reducible repeat' (first | assumption | intro _ | apply follows_emit | simp only [follows_upd] | apply follows_ite)

theorem follows_runGoes {s₀ : State} {α : Type} {s : State} {p size : Nat} {e : Sent α} (h_s : Follows s₀ s) :
    Follows s₀ (runGoes s p size e) := by
  unfold runGoes
  try dsimp only
  with_reducible repeat' (first | assumption | intro _ | simp only [follows_upd])

theorem follows_payFlit {s₀ : State} {α : Type} {s : State} {p vc : Nat} {e : Sent α} (h_s : Follows s₀ s) :
    Follows s₀ (payFlit s p vc e) := by
  unfold payFlit
  try dsimp only
  with_reducible repeat' (first | assumption | intro _ | apply follows_setLinkCredit | simp only [follows_upd] | apply follows_ite)

theorem follows_seqTaken {s₀ : State} {s : State} {p : Nat} (h_s : Follows s₀ s) :
    Follows s₀ (seqTaken s p) := by
  unfold seqTaken
  try dsimp only
  with_reducible repeat' (first | assumption | intro _ | simp only [follows_upd])

end Sys2Proof.Machine
end

