-- ==== Sys2Proof/Laws/FollowsGbLink.lean ====
section
/-! SUPPORT. `Follows` is kept by the operations of Machine/GbLink.lean. -/

namespace Sys2Proof.Machine

theorem follows_gbStart {s₀ : State} {s : State} {e : Sent GbPkt} (h_s : Follows s₀ s) :
    Follows s₀ (gbStart s e) := by
  unfold gbStart
  try dsimp only
  with_reducible repeat' (
    first | assumption | intro _ | apply follows_markMoved | apply follows_seqTaken | simp only [follows_upd]
          | apply follows_ite)

theorem follows_gbFlit {s₀ : State} {s : State} {c : Sent GbPkt × Bool} (h_s : Follows s₀ s) :
    Follows s₀ (gbFlit s c) := by
  unfold gbFlit
  try dsimp only
  with_reducible repeat' (
    first | assumption | intro _ | apply follows_gbStart | apply follows_runHeader | apply follows_runGoes
          | apply follows_payFlit | apply follows_emit | simp only [follows_upd] | apply follows_ite)

theorem follows_gbPumpN {s₀ : State} {y0 : Nat} {y1 : State} (h_y1 : Follows s₀ y1) :
    Follows s₀ (gbPumpN y0 y1) := by
  induction y0 generalizing y1 with
  | zero => exact h_y1
  | succ n ih =>
    unfold gbPumpN
    try dsimp only
    with_reducible repeat' (
      first | assumption | (apply ih) | intro _ | apply follows_gbFlit | simp only [follows_upd]
            | apply follows_ite | split)

theorem follows_gbPump {s₀ : State} {s : State} (h_s : Follows s₀ s) :
    Follows s₀ (gbPump s) := by
  unfold gbPump
  try dsimp only
  with_reducible repeat' (first | assumption | intro _ | apply follows_gbPumpN)

theorem follows_gbResend {s₀ : State} {s : State} (h_s : Follows s₀ s) :
    Follows s₀ (gbResend s) := by
  unfold gbResend
  try dsimp only
  with_reducible repeat' (first | assumption | intro _ | apply follows_gbPump | simp only [follows_upd])

theorem follows_gbSend {s₀ : State} {s : State} {opc tag addr status : Nat} {data : List Byte} (h_s : Follows s₀ s) :
    Follows s₀ (gbSend s opc tag addr status data) := by
  unfold gbSend
  try dsimp only
  with_reducible repeat' (first | assumption | intro _ | apply follows_gbPump | simp only [follows_upd] | apply follows_ite)

theorem follows_gbReply {s₀ : State} {s : State} {h : GbHdr} {status : Nat} {data : List Byte} (h_s : Follows s₀ s) :
    Follows s₀ (gbReply s h status data) := by
  unfold gbReply
  try dsimp only
  with_reducible repeat' (first | assumption | intro _ | apply follows_gbSend | simp only [follows_upd] | apply follows_ite)

theorem follows_gbRequest {s₀ : State} {s : State} {opc addr : Nat} (h_s : Follows s₀ s) :
    Follows s₀ (gbRequest s opc addr) := by
  unfold gbRequest
  try dsimp only
  with_reducible repeat' (first | assumption | intro _ | apply follows_gbSend | simp only [follows_upd] | apply follows_ite | split)

theorem follows_msiFlush {s₀ : State} {y0 : Nat} {y1 : State} (h_y1 : Follows s₀ y1) :
    Follows s₀ (msiFlush y0 y1) := by
  induction y0 generalizing y1 with
  | zero => exact h_y1
  | succ n ih =>
    unfold msiFlush
    try dsimp only
    with_reducible repeat' (
      first | assumption | (apply ih) | intro _ | apply follows_gbSend | apply follows_emit
            | simp only [follows_upd] | apply follows_ite | split)

theorem follows_msiSend {s₀ : State} {s : State} {t addr : Nat} {data : List Byte} (h_s : Follows s₀ s) :
    Follows s₀ (msiSend s t addr data) := by
  unfold msiSend
  try dsimp only
  with_reducible repeat' (first | assumption | intro _ | apply follows_msiFlush | simp only [follows_upd])

theorem follows_gwSettled {s₀ : State} {s : State} {w : Nat} (h_s : Follows s₀ s) :
    Follows s₀ (gwSettled s w) := by
  unfold gwSettled
  try dsimp only
  with_reducible repeat' (first | assumption | intro _ | apply follows_msiFlush | simp only [follows_upd])

theorem follows_gwWaits {s₀ : State} {s : State} {w : Nat} (h_s : Follows s₀ s) :
    Follows s₀ (gwWaits s w) := by
  unfold gwWaits
  try dsimp only
  with_reducible repeat' (first | assumption | intro _ | simp only [follows_upd])

theorem follows_gbDone {s₀ : State} {s : State} {tag : Nat} (h_s : Follows s₀ s) :
    Follows s₀ (gbDone s tag) := by
  unfold gbDone
  try dsimp only
  with_reducible repeat' (first | assumption | intro _ | simp only [follows_upd])

end Sys2Proof.Machine
end

