-- ==== Sys2Proof/Laws/FollowsScratch.lean ====
section
/-! SUPPORT. `Follows` is kept by the operations of Machine/Scratch.lean. -/

namespace Sys2Proof.Machine

theorem follows_storeUnit {s₀ : State} {s : State} {t w : Nat} {weight : Bool} {d : Nat} (h_s : Follows s₀ s) :
    Follows s₀ (storeUnit s t w weight d) := by
  unfold storeUnit
  try dsimp only
  with_reducible repeat' (first | assumption | apply follows_writeNat | apply follows_setChk | apply follows_ite)

theorem follows_flipWord {s₀ : State} {s0 : State} {t : Nat} {f : Nat × Nat} (h_s0 : Follows s₀ s0) :
    Follows s₀ (flipWord s0 t f) := by
  unfold flipWord
  try dsimp only
  with_reducible repeat' (first | assumption | apply follows_writeNat | apply follows_setChk | apply follows_storeUnit | apply follows_ite)

theorem follows_setErrAddr {s₀ : State} {s : State} {t w c code : Nat} (h_s : Follows s₀ s) :
    Follows s₀ (setErrAddr s t w c code) := by
  unfold setErrAddr
  try dsimp only
  with_reducible repeat' (first | assumption | apply follows_wr)

theorem follows_correctedAt {s₀ : State} {s : State} {t w : Nat} {weight : Bool} {ctx : Option Nat} {d : Nat} (h_s : Follows s₀ s) :
    Follows s₀ (correctedAt s t w weight ctx d) := by
  unfold correctedAt
  try dsimp only
  with_reducible repeat' (
    first | assumption | intro _ | apply follows_incSat | apply follows_reportLimited | simp only [follows_upd]
          | apply follows_ite)

theorem follows_failedAt {s₀ : State} {s : State} {t w : Nat} {weight addr : Bool} {ctx : Option Nat} (h_s : Follows s₀ s) :
    Follows s₀ (failedAt s t w weight addr ctx) := by
  unfold failedAt
  try dsimp only
  with_reducible repeat' (
    first | assumption | apply follows_wrB | apply follows_report | apply follows_incSat | apply follows_setErrAddr)

theorem follows_readUnit {s₀ : State} {s : State} {t w : Nat} {weight : Bool} {ctx : Option Nat} (h_s : Follows s₀ s) :
    Follows s₀ (readUnit s t w weight ctx).2 := by
  unfold readUnit
  try dsimp only
  with_reducible repeat' (first | assumption | apply follows_correctedAt | apply follows_failedAt | simp only [follows_upd] | split)

theorem follows_readWords {s₀ : State} {s : State} {t w n : Nat} {ctx : Option Nat} (h_s : Follows s₀ s) :
    Follows s₀ (readWords s t w n ctx).2 := by
  unfold readWords
  try dsimp only
  with_reducible repeat' (
    first | assumption | intro _ | apply follows_foldl | apply follows_foldl2 | apply follows_foldl1 | apply follows_readUnit)

theorem follows_readPadBytes {s₀ : State} {s : State} {t b len : Nat} {ctx : Option Nat} (h_s : Follows s₀ s) :
    Follows s₀ (readPadBytes s t b len ctx).2 := by
  unfold readPadBytes
  try dsimp only
  with_reducible repeat' (first | assumption | intro _ | apply follows_readWords)

theorem follows_dropWriteBack {s₀ : State} {s : State} {t w : Nat} (h_s : Follows s₀ s) :
    Follows s₀ (dropWriteBack s t w) := by
  unfold dropWriteBack
  try dsimp only
  with_reducible repeat' (first | assumption | intro _ | simp only [follows_upd])

theorem follows_discardWrite {s₀ : State} {s : State} {t : Nat} (h_s : Follows s₀ s) :
    Follows s₀ (discardWrite s t) := by
  unfold discardWrite
  try dsimp only
  with_reducible repeat' (first | assumption | apply follows_incSat)

theorem follows_writeUnit {s₀ : State} {s : State} {t : Nat} {u : Nat × Bool} {bs : List UnitByte} {ctx : Option Nat} (h_s : Follows s₀ s) :
    Follows s₀ (writeUnit s t u bs ctx) := by
  unfold writeUnit
  try dsimp only
  with_reducible repeat' (
    first | assumption | intro _ | apply follows_storeUnit | apply follows_readUnit
          | apply follows_dropWriteBack | apply follows_discardWrite | simp only [follows_upd]
          | apply follows_ite | split)

theorem follows_writePadBytes {s₀ : State} {s : State} {t b : Nat} {data : List (Option Byte)} {ctx : Option Nat} {keep : Nat × Nat} (h_s : Follows s₀ s) :
    Follows s₀ (writePadBytes s t b data ctx keep) := by
  unfold writePadBytes
  try dsimp only
  with_reducible repeat' (
    first | assumption | intro _ | apply follows_foldl | apply follows_foldl2 | apply follows_foldl1
          | apply follows_writeUnit)

theorem follows_setBankState {s₀ : State} {s : State} {t b v : Nat} (h_s : Follows s₀ s) :
    Follows s₀ (setBankState s t b v) := by
  unfold setBankState
  try dsimp only
  with_reducible repeat' (first | assumption | apply follows_wrF)

theorem follows_setWakeEnd {s₀ : State} {s : State} {t b v : Nat} (h_s : Follows s₀ s) :
    Follows s₀ (setWakeEnd s t b v) := by
  unfold setWakeEnd
  try dsimp only
  with_reducible repeat' (first | assumption | intro _ | simp only [follows_upd])

theorem follows_touchBanks {s₀ : State} {s : State} {t w n : Nat} (h_s : Follows s₀ s) :
    Follows s₀ (touchBanks s t w n) := by
  unfold touchBanks
  try dsimp only
  with_reducible repeat' (
    first | assumption | intro _ | apply follows_each | apply follows_setWakeEnd | simp only [follows_upd]
          | apply follows_ite)

theorem follows_wakeBanks {s₀ : State} {s : State} {t w n : Nat} (h_s : Follows s₀ s) :
    Follows s₀ (wakeBanks s t w n) := by
  unfold wakeBanks
  try dsimp only
  with_reducible repeat' (
    first | assumption | intro _ | apply follows_each | apply follows_incSat | apply follows_setBankState
          | simp only [follows_upd] | apply follows_ite)

theorem follows_accessFailed {s₀ : State} {s : State} {a : SpAcc} {code : Nat} (h_s : Follows s₀ s) :
    Follows s₀ (accessFailed s a code) := by
  unfold accessFailed
  try dsimp only
  with_reducible repeat' (
    first | assumption | apply follows_reportB | apply follows_incSat | apply follows_fenceTile | apply follows_setErrAddr
          | apply follows_discardWrite | apply follows_ite)

theorem follows_setTag {s₀ : State} {s : State} {t w : Nat} {full : Bool} (h_s : Follows s₀ s) :
    Follows s₀ (setTag s t w full) := by
  unfold setTag
  try dsimp only
  with_reducible repeat' (first | assumption | intro _ | simp only [follows_upd])

theorem follows_addWaiter {s₀ : State} {s : State} {a : SpAcc} (h_s : Follows s₀ s) :
    Follows s₀ (addWaiter s a) := by
  unfold addWaiter
  try dsimp only
  with_reducible repeat' (first | assumption | apply follows_wrF | simp only [follows_upd] | apply follows_ite)

theorem follows_tagGuard {s₀ : State} {s : State} {t w : Nat} {ctx : Option Nat} (h_s : Follows s₀ s) :
    Follows s₀ (tagGuard s t w ctx) := by
  unfold tagGuard
  try dsimp only
  with_reducible repeat' (first | assumption | apply follows_guardReport | apply follows_fenceTile)

theorem follows_moveData {s₀ : State} {s : State} {a : SpAcc} (h_s : Follows s₀ s) :
    Follows s₀ (moveData s a).2 := by
  unfold moveData
  try dsimp only
  with_reducible repeat' (
    first | assumption | intro _ | apply follows_readPadBytes | apply follows_discardWrite
          | apply follows_writePadBytes | simp only [follows_upd] | apply follows_ite | split)

theorem follows_withheldClean {s₀ : State} {s : State} {a : SpAcc} {bad : Bool} {r : AccRes} (h_s : Follows s₀ s) :
    Follows s₀ (withheldClean s a bad r) := by
  unfold withheldClean
  try dsimp only
  with_reducible repeat' (first | assumption | intro _ | apply follows_clearClean | simp only [follows_upd] | apply follows_ite | split)

theorem follows_tagEffect {s₀ : State} {s : State} {a : SpAcc} (h_s : Follows s₀ s) :
    Follows s₀ (tagEffect s a) := by
  unfold tagEffect
  try dsimp only
  with_reducible repeat' (first | assumption | apply follows_progress | apply follows_setTag | simp only [follows_upd] | split)

theorem follows_perform {s₀ : State} {s : State} {a : SpAcc} (h_s : Follows s₀ s) :
    Follows s₀ (perform s a).2 := by
  unfold perform
  try dsimp only
  with_reducible repeat' (
    first | assumption | intro _ | apply follows_touchBanks | apply follows_moveData
          | apply follows_withheldClean | apply follows_tagEffect | simp only [follows_upd]
          | apply follows_ite)

theorem follows_access {s₀ : State} {s : State} {a : SpAcc} (h_s : Follows s₀ s) :
    Follows s₀ (access s a).2 := by
  unfold access
  try dsimp only
  with_reducible repeat' (
    first | assumption | apply follows_accessFailed | apply follows_addWaiter | apply follows_tagGuard | apply follows_perform
          | simp only [follows_upd] | apply follows_ite | split)

theorem follows_ownWake {s₀ : State} {s : State} {t b len : Nat} (h_s : Follows s₀ s) :
    Follows s₀ (ownWake s t b len) := by
  unfold ownWake
  try dsimp only
  with_reducible repeat' (first | assumption | intro _ | apply follows_wakeBanks)

theorem follows_ownTouch {s₀ : State} {s : State} {t b len : Nat} (h_s : Follows s₀ s) :
    Follows s₀ (ownTouch s t b len) := by
  unfold ownTouch
  try dsimp only
  with_reducible repeat' (first | assumption | intro _ | apply follows_touchBanks)

theorem follows_ownRead {s₀ : State} {s : State} {t b len : Nat} {ctx : Option Nat} (h_s : Follows s₀ s) :
    Follows s₀ (ownRead s t b len ctx).2 := by
  unfold ownRead
  try dsimp only
  with_reducible repeat' (
    first | assumption | intro _ | apply follows_readPadBytes | apply follows_accessFailed
          | apply follows_ownTouch | simp only [follows_upd] | apply follows_ite | split)

theorem follows_ownWrite {s₀ : State} {s : State} {t b : Nat} {data : List (Option Byte)} {ctx : Option Nat} (h_s : Follows s₀ s) :
    Follows s₀ (ownWrite s t b data ctx) := by
  unfold ownWrite
  try dsimp only
  with_reducible repeat' (
    first | assumption | intro _ | apply follows_writePadBytes | apply follows_accessFailed
          | apply follows_ownTouch | simp only [follows_upd] | apply follows_ite | split)

end Sys2Proof.Machine
end

