-- ==== Sys2Proof/Laws/FollowsCoherence.lean ====
section
/-! SUPPORT. `Follows` is kept by the operations of Machine/Coherence.lean. -/

namespace Sys2Proof.Machine

theorem follows_setChState {s₀ : State} {s : State} {h v : Nat} (h_s : Follows s₀ s) :
    Follows s₀ (setChState s h v) := by
  unfold setChState
  try dsimp only
  with_reducible repeat' (first | assumption | intro _ | apply follows_wrF)

theorem follows_padReply {s₀ : State} {s : State} {h : GbHdr} {r : AccRes} (h_s : Follows s₀ s) :
    Follows s₀ (padReply s h r) := by
  unfold padReply
  try dsimp only
  with_reducible repeat' (first | assumption | intro _ | apply follows_gbReply | simp only [follows_upd] | apply follows_ite | split)

theorem follows_setDir {s₀ : State} {s : State} {line st : Nat} (h_s : Follows s₀ s) :
    Follows s₀ (setDir s line st) := by
  unfold setDir
  try dsimp only
  with_reducible repeat' (first | assumption | intro _ | apply follows_wrF | simp only [follows_upd])

theorem follows_snoop {s₀ : State} {s : State} {line : Nat} {inv : Bool} (h_s : Follows s₀ s) :
    Follows s₀ (snoop s line inv) := by
  unfold snoop
  try dsimp only
  with_reducible repeat' (first | assumption | apply follows_gbRequest | apply follows_ite)

theorem follows_settle {s₀ : State} {s : State} {a len : Nat} {write : Bool} (h_s : Follows s₀ s) :
    Follows s₀ (settle s a len write) := by
  unfold settle
  try dsimp only
  with_reducible repeat' (first | assumption | intro _ | apply follows_each | apply follows_snoop)

theorem follows_lostAccess {s₀ : State} {s : State} {a : Nat} {ctx : Option Nat} (h_s : Follows s₀ s) :
    Follows s₀ (lostAccess s a ctx) := by
  unfold lostAccess
  try dsimp only
  with_reducible repeat' (first | assumption | apply follows_report | apply follows_incSat)

theorem follows_putLate {s₀ : State} {s : State} {i : LateItem} (h_s : Follows s₀ s) :
    Follows s₀ (putLate s i) := by
  unfold putLate
  try dsimp only
  with_reducible repeat' (first | assumption | intro _ | simp only [follows_upd])

theorem follows_settleLate {s₀ : State} {s : State} {i : LateItem} {a len : Nat} {write : Bool} (h_s : Follows s₀ s) :
    Follows s₀ (settleLate s i a len write) := by
  unfold settleLate
  try dsimp only
  with_reducible repeat' (
    first | assumption | intro _ | apply follows_settle | apply follows_putLate)

theorem follows_notifyBushel {s₀ : State} {s : State} {i : Nat} (h_s : Follows s₀ s) :
    Follows s₀ (notifyBushel s i) := by
  unfold notifyBushel
  try dsimp only
  with_reducible repeat' (first | assumption | apply follows_wrB | apply follows_raise | apply follows_ite)

theorem follows_flagRefused {s₀ : State} {s : State} {a : Nat} (h_s : Follows s₀ s) :
    Follows s₀ (flagRefused s a) := by
  unfold flagRefused
  try dsimp only
  with_reducible repeat' (
    first | assumption | intro _ | apply follows_report | apply follows_incSat)

theorem follows_flagCheck {s₀ : State} {s : State} {a : Nat} {data : List (Option Byte)} {companion : Bool} (h_s : Follows s₀ s) :
    Follows s₀ (flagCheck s a data companion).2 := by
  unfold flagCheck
  try dsimp only
  with_reducible repeat' (
    first | assumption | intro _ | apply follows_flagRefused | apply follows_raise | apply follows_report
          | simp only [follows_upd] | apply follows_ite | split)

end Sys2Proof.Machine
end

