-- ==== Sys2Proof/Laws/FollowsDram.lean ====
section
/-! SUPPORT. `Follows` is kept by the operations of Machine/Dram.lean. -/

namespace Sys2Proof.Machine

theorem follows_unitFailed {s₀ : State} {s : State} {u : Nat} {ctx : Option Nat} {code cnt : Nat} (h_s : Follows s₀ s) :
    Follows s₀ (unitFailed s u ctx code cnt) := by
  unfold unitFailed
  try dsimp only
  with_reducible repeat' (first | assumption | apply follows_wr | apply follows_report | apply follows_incSat)

theorem follows_countUe {s₀ : State} {s : State} {u : Nat} (h_s : Follows s₀ s) :
    Follows s₀ (countUe s u) := by
  unfold countUe
  try dsimp only
  with_reducible repeat' (first | assumption | intro _ | simp only [follows_upd])

theorem follows_storeUnit32 {s₀ : State} {s : State} {u d : Nat} (h_s : Follows s₀ s) :
    Follows s₀ (storeUnit32 s u d) := by
  unfold storeUnit32
  try dsimp only
  with_reducible repeat' (first | assumption | intro _ | apply follows_writeNat | apply follows_setChk | simp only [follows_upd])

theorem follows_flipUnit {s₀ : State} {s : State} {f : Nat × Nat} (h_s : Follows s₀ s) :
    Follows s₀ (flipUnit s f) := by
  unfold flipUnit
  try dsimp only
  with_reducible repeat' (
    first | assumption | intro _ | apply follows_writeNat | apply follows_setChk)

theorem follows_ctlUnit {s₀ : State} {s : State} {u : Nat} {ctx : Option Nat} (h_s : Follows s₀ s) :
    Follows s₀ (ctlUnit s u ctx).2 := by
  unfold ctlUnit
  try dsimp only
  with_reducible repeat' (
    first | assumption | intro _ | apply follows_unitFailed | apply follows_countUe | apply follows_incWrap
          | apply follows_incSat | apply follows_reportLimited | simp only [follows_upd] | apply follows_ite
          | split)

theorem follows_dramUnit {s₀ : State} {s : State} {u : Nat} {ctx : Option Nat} (h_s : Follows s₀ s) :
    Follows s₀ (dramUnit s u ctx).2 := by
  unfold dramUnit
  try dsimp only
  with_reducible repeat' (
    first | assumption | intro _ | apply follows_lostAccess | apply follows_unitFailed | apply follows_ctlUnit
          | simp only [follows_upd] | apply follows_ite | split)

theorem follows_dramRead {s₀ : State} {s : State} {a len : Nat} {ctx : Option Nat} (h_s : Follows s₀ s) :
    Follows s₀ (dramRead s a len ctx).2 := by
  unfold dramRead
  try dsimp only
  with_reducible repeat' (
    first | assumption | intro _ | apply follows_foldl | apply follows_foldl2 | apply follows_foldl1 | apply follows_dramUnit)

theorem follows_discardDram {s₀ : State} {s : State} {a : Nat} (h_s : Follows s₀ s) :
    Follows s₀ (discardDram s a) := by
  unfold discardDram
  try dsimp only
  with_reducible repeat' (first | assumption | apply follows_incSat)

theorem follows_storeWhole {s₀ : State} {s : State} {u d : Nat} {ctx : Option Nat} (h_s : Follows s₀ s) :
    Follows s₀ (storeWhole s u d ctx).2 := by
  unfold storeWhole
  try dsimp only
  with_reducible repeat' (
    first | assumption | intro _ | apply follows_unitFailed | apply follows_storeUnit32
          | apply follows_incWrap | simp only [follows_upd] | apply follows_ite | split)

theorem follows_dramWriteUnit {s₀ : State} {s : State} {u : Nat} {bs : List UnitByte} {ctx : Option Nat} (h_s : Follows s₀ s) :
    Follows s₀ (dramWriteUnit s u bs ctx).2 := by
  unfold dramWriteUnit
  try dsimp only
  with_reducible repeat' (
    first | assumption | intro _ | apply follows_lostAccess | apply follows_settleLate
          | apply follows_unitFailed | apply follows_dramUnit | apply follows_discardDram
          | apply follows_storeWhole | simp only [follows_upd] | apply follows_ite | split)

theorem follows_mappedRead {s₀ : State} {s : State} {p a len : Nat} {ctx : Option Nat} (h_s : Follows s₀ s) :
    Follows s₀ (mappedRead s p a len ctx).2 := by
  unfold mappedRead
  try dsimp only
  with_reducible repeat' (
    first | assumption | intro _ | apply follows_dramRead | apply follows_report | simp only [follows_upd]
          | apply follows_ite | split)

theorem follows_dramStore {s₀ : State} {s : State} {a : Nat} {data : List (Option Byte)} {ctx : Option Nat} (h_s : Follows s₀ s) :
    Follows s₀ (dramStore s a data ctx).2 := by
  unfold dramStore
  try dsimp only
  with_reducible repeat' (
    first | assumption | intro _ | apply follows_foldl | apply follows_foldl2 | apply follows_foldl1
          | apply follows_discardDram | apply follows_dramWriteUnit | simp only [follows_upd]
          | apply follows_ite | split)

theorem follows_dramWrite {s₀ : State} {s : State} {a : Nat} {data : List (Option Byte)} {ctx : Option Nat} (h_s : Follows s₀ s) :
    Follows s₀ (dramWrite s a data ctx).2 := by
  unfold dramWrite
  try dsimp only
  with_reducible repeat' (
    first | assumption | intro _ | apply follows_settleLate | apply follows_notifyBushel
          | apply follows_flagCheck | apply follows_dramStore | simp only [follows_upd] | apply follows_ite
          | split)

theorem follows_mappedWrite {s₀ : State} {s : State} {p a : Nat} {data : List (Option Byte)} {ctx : Option Nat} (h_s : Follows s₀ s) :
    Follows s₀ (mappedWrite s p a data ctx).2 := by
  unfold mappedWrite
  try dsimp only
  with_reducible repeat' (
    first | assumption | intro _ | apply follows_dramWrite | apply follows_report | simp only [follows_upd]
          | apply follows_ite | split)

theorem follows_addSig {s₀ : State} {s : State} {c : Nat} {bytes : List Byte} (h_s : Follows s₀ s) :
    Follows s₀ (addSig s c bytes) := by
  unfold addSig
  try dsimp only
  with_reducible repeat' (first | assumption | apply follows_wr)

theorem follows_journalDone {s₀ : State} {s : State} {c a : Nat} {data : List Byte} {used : Nat} (h_s : Follows s₀ s) :
    Follows s₀ (journalDone s c a data used) := by
  unfold journalDone
  try dsimp only
  with_reducible repeat' (
    first | assumption | intro _ | apply follows_addSig | apply follows_wr | apply follows_incWrap)

theorem follows_journalRefuse {s₀ : State} {s : State} {c : Nat} {tile : Option Nat} {a : Nat} (h_s : Follows s₀ s) :
    Follows s₀ (journalRefuse s c tile a) := by
  unfold journalRefuse
  try dsimp only
  with_reducible repeat' (
    first | assumption | apply follows_report | apply follows_discardDram | apply follows_clearNoFault | split)

theorem follows_journalAppend {s₀ : State} {s : State} {c : Nat} {tile : Option Nat} {a : Nat} {data : List Byte} (h_s : Follows s₀ s) :
    Follows s₀ (journalAppend s c tile a data).2 :=
  follows_ite2 (follows_journalRefuse h_s) (follows_ite (follows_journalDone (follows_mappedWrite h_s)) (follows_mappedWrite h_s))

theorem follows_memWrite {s₀ : State} {s : State} {a : Nat} {data : List (Option Byte)} {ctx tile : Option Nat} (h_s : Follows s₀ s) :
    Follows s₀ (memWrite s a data ctx tile).2 := by
  unfold memWrite
  try dsimp only
  with_reducible repeat' (
    first | assumption | intro _ | apply follows_foldl | apply follows_foldl2 | apply follows_foldl1
          | apply follows_discardDram | apply follows_dramWrite | apply follows_journalAppend
          | simp only [follows_upd] | apply follows_ite | split)

end Sys2Proof.Machine
end

