-- ==== Sys2Proof/Laws/FollowsFabric.lean ====
section
/-! SUPPORT. `Follows` is kept by the operations of Machine/Fabric.lean. -/

namespace Sys2Proof.Machine

theorem follows_setPortState {s₀ : State} {s : State} {p v : Nat} (h_s : Follows s₀ s) :
    Follows s₀ (setPortState s p v) := by
  unfold setPortState
  try dsimp only
  with_reducible repeat' (first | assumption | intro _ | apply follows_wrF | simp only [follows_upd])

theorem follows_nackFrom {s₀ : State} {s : State} {t cause : Nat} {m : Msg} (h_s : Follows s₀ s) :
    Follows s₀ (nackFrom s t cause m) := by
  unfold nackFrom
  try dsimp only
  with_reducible repeat' (first | assumption | apply follows_inject)

theorem follows_nackOrDrop {s₀ : State} {s : State} {t : Nat} {y0 : Pkt} (h_s : Follows s₀ s) :
    Follows s₀ (nackOrDrop s t y0) := by
  unfold nackOrDrop
  try dsimp only
  with_reducible repeat' (first | assumption | apply follows_nackFrom | split)

theorem follows_exitRefuse {s₀ : State} {s : State} {t : Nat} {p : Pkt} (h_s : Follows s₀ s) :
    Follows s₀ (exitRefuse s t p) := by
  unfold exitRefuse
  try dsimp only
  with_reducible repeat' (first | assumption | apply follows_incWrap | apply follows_reportLimited | apply follows_nackOrDrop)

theorem follows_setEgress {s₀ : State} {s : State} {p : Nat} {l : List EgressPkt} (h_s : Follows s₀ s) :
    Follows s₀ (setEgress s p l) := by
  unfold setEgress
  try dsimp only
  with_reducible repeat' (first | assumption | intro _ | apply follows_wrB | simp only [follows_upd])

theorem follows_setSent {s₀ : State} {s : State} {p : Nat} {l : List SentPkt} (h_s : Follows s₀ s) :
    Follows s₀ (setSent s p l) := by
  unfold setSent
  try dsimp only
  with_reducible repeat' (first | assumption | intro _ | simp only [follows_upd])

theorem follows_signOut {s₀ : State} {s : State} {pkt : Pkt} (h_s : Follows s₀ s) :
    Follows s₀ (signOut s pkt) := by
  unfold signOut
  try dsimp only
  with_reducible repeat' (first | assumption | intro _ | apply follows_addSig | simp only [follows_upd] | apply follows_ite | split)

theorem follows_startPacket {s₀ : State} {s : State} {p : Nat} {e : SentPkt} {x : EgressPkt} (h_s : Follows s₀ s) :
    Follows s₀ (startPacket s p e x) := by
  unfold startPacket
  try dsimp only
  with_reducible repeat' (
    first | assumption | intro _ | apply follows_setEgress | apply follows_setSent | apply follows_signOut
          | apply follows_markMoved | apply follows_seqTaken | apply follows_incWrap | simp only [follows_upd]
          | apply follows_ite)

theorem follows_sendFlit {s₀ : State} {s : State} {p : Nat} {c : SentPkt × Option EgressPkt} (h_s : Follows s₀ s) :
    Follows s₀ (sendFlit s p c) := by
  unfold sendFlit
  try dsimp only
  with_reducible repeat' (
    first | assumption | intro _ | apply follows_setSent | apply follows_startPacket | apply follows_runHeader
          | apply follows_runGoes | apply follows_payFlit | apply follows_emit | simp only [follows_upd]
          | apply follows_ite | split)

theorem follows_pumpN {s₀ : State} {y0 : Nat} {y1 : State} {y2 : Nat} (h_y1 : Follows s₀ y1) :
    Follows s₀ (pumpN y0 y1 y2) := by
  induction y0 generalizing y1 y2 with
  | zero => exact h_y1
  | succ n ih =>
    unfold pumpN
    try dsimp only
    with_reducible repeat' (
      first | assumption | (apply ih) | intro _ | apply follows_sendFlit | simp only [follows_upd]
            | apply follows_ite | split)

theorem follows_pump {s₀ : State} {s : State} {p : Nat} (h_s : Follows s₀ s) :
    Follows s₀ (pump s p) := by
  unfold pump
  try dsimp only
  with_reducible repeat' (first | assumption | intro _ | apply follows_pumpN)

theorem follows_residenceDrop {s₀ : State} {s : State} {p : Nat} {pkt : Pkt} (h_s : Follows s₀ s) :
    Follows s₀ (residenceDrop s p pkt) := by
  unfold residenceDrop
  try dsimp only
  with_reducible repeat' (first | assumption | apply follows_report | apply follows_incSat | apply follows_nackOrDrop)

theorem follows_egressAdd {s₀ : State} {s : State} {p : Nat} {pkt : Pkt} (h_s : Follows s₀ s) :
    Follows s₀ (egressAdd s p pkt) := by
  unfold egressAdd
  try dsimp only
  with_reducible repeat' (
    first | assumption | intro _ | apply follows_exitRefuse | apply follows_setEgress | apply follows_pump
          | apply follows_residenceDrop | simp only [follows_upd] | apply follows_ite)

theorem follows_toPort {s₀ : State} {s : State} {p : Nat} {pkt : Pkt} (h_s : Follows s₀ s) :
    Follows s₀ (toPort s p pkt) := by
  unfold toPort
  try dsimp only
  with_reducible repeat' (first | assumption | apply follows_hold | apply follows_egressAdd | simp only [follows_upd] | apply follows_ite | split)

end Sys2Proof.Machine
end

