-- ==== Sys2Proof/Laws/FollowsQueues.lean ====
section
/-! SUPPORT. `Follows` is kept by the operations of Machine/Queues.lean. -/

namespace Sys2Proof.Machine

theorem follows_setHsWord {s₀ : State} {s : State} {t a v : Nat} (h_s : Follows s₀ s) :
    Follows s₀ (setHsWord s t a v) := by
  unfold setHsWord
  try dsimp only
  with_reducible repeat' (first | assumption | intro _ | simp only [follows_upd])

theorem follows_setThread {s₀ : State} {s : State} {t n : Nat} {h : Thread} (h_s : Follows s₀ s) :
    Follows s₀ (setThread s t n h) := by
  unfold setThread
  try dsimp only
  with_reducible repeat' (first | assumption | intro _ | simp only [follows_upd])

theorem follows_updBusy {s₀ : State} {s : State} {t : Nat} (h_s : Follows s₀ s) :
    Follows s₀ (updBusy s t) := by
  unfold updBusy
  try dsimp only
  with_reducible repeat' (first | assumption | intro _ | apply follows_wrF)

theorem follows_setQState {s₀ : State} {s : State} {t q v : Nat} (h_s : Follows s₀ s) :
    Follows s₀ (setQState s t q v) := by
  unfold setQState
  try dsimp only
  with_reducible repeat' (first | assumption | apply follows_wrGF)

theorem follows_ringAwait {s₀ : State} {s : State} {a len : Nat} {write : Bool} (h_s : Follows s₀ s) :
    Follows s₀ (ringAwait s a len write) := by
  unfold ringAwait
  try dsimp only
  with_reducible repeat' (
    first | assumption | intro _ | apply follows_settle | apply follows_ownWake | simp only [follows_upd]
          | apply follows_ite | split)

theorem follows_ringRead {s₀ : State} {s : State} {t a len : Nat} {c : Nat} (h_s : Follows s₀ s) :
    Follows s₀ (ringRead s t a len c).2 := by
  unfold ringRead
  try dsimp only
  with_reducible repeat' (
    first | assumption | intro _ | apply follows_clearClean | apply follows_dramRead | apply follows_ownRead
          | simp only [follows_upd] | apply follows_ite | split)

theorem follows_ringWrite {s₀ : State} {s : State} {t a : Nat} {bs : List Byte} {c : Nat} (h_s : Follows s₀ s) :
    Follows s₀ (ringWrite s t a bs c) := by
  unfold ringWrite
  try dsimp only
  with_reducible repeat' (
    first | assumption | intro _ | apply follows_clearClean | apply follows_dramWrite | apply follows_ownWrite
          | simp only [follows_upd] | apply follows_ite | split)

theorem follows_skipPad {s₀ : State} {s : State} {t q : Nat} (h_s : Follows s₀ s) :
    Follows s₀ (skipPad s t q) := by
  unfold skipPad
  try dsimp only
  with_reducible repeat' (
    first | assumption | intro _ | apply follows_wrG | apply follows_ringRead | simp only [follows_upd]
          | apply follows_ite)

theorem follows_snoopHead {s₀ : State} {s : State} {t q : Nat} (h_s : Follows s₀ s) :
    Follows s₀ (snoopHead s t q) := by
  unfold snoopHead
  try dsimp only
  with_reducible repeat' (
    first | assumption | intro _ | apply follows_ringAwait | apply follows_skipPad | simp only [follows_upd]
          | apply follows_ite)

theorem follows_headMsg {s₀ : State} {s : State} {t q : Nat} {v : Msg × State} (e : headMsg s t q = some v) (h_s : Follows s₀ s) :
    Follows s₀ v.2 := by
  unfold headMsg at e
  split at e
  · cases e
  · exact Option.some.inj e ▸ follows_ringRead h_s

theorem follows_setCredit {s₀ : State} {s : State} {k : Nat} {e : Credit} (h_s : Follows s₀ s) :
    Follows s₀ (setCredit s k e) := by
  unfold setCredit
  try dsimp only
  with_reducible repeat' (first | assumption | simp only [follows_upd])

theorem follows_dropCredit {s₀ : State} {s : State} {k : Nat} (h_s : Follows s₀ s) :
    Follows s₀ (dropCredit s k) := by
  unfold dropCredit
  try dsimp only
  with_reducible repeat' (first | assumption | simp only [follows_upd])

theorem follows_creditGuard {s₀ : State} {s : State} {u k c : Nat} (h_s : Follows s₀ s) :
    Follows s₀ (creditGuard s u k c) := by
  unfold creditGuard
  try dsimp only
  with_reducible repeat' (
    first | assumption | apply follows_guardReport | apply follows_fenceTile | apply follows_dropCredit | apply follows_ite)

theorem follows_returnCredit {s₀ : State} {s : State} {u dest c epoch n : Nat} (h_s : Follows s₀ s) :
    Follows s₀ (returnCredit s u dest c epoch n) := by
  unfold returnCredit
  try dsimp only
  with_reducible repeat' (
    first | assumption | intro _ | apply follows_ctlCount | apply follows_setCredit
          | apply follows_creditGuard | simp only [follows_upd] | apply follows_ite | split)

theorem follows_takeGrant {s₀ : State} {s : State} {u dest c epoch n : Nat} (h_s : Follows s₀ s) :
    Follows s₀ (takeGrant s u dest c epoch n).2 := by
  unfold takeGrant
  try dsimp only
  with_reducible repeat' (
    first | assumption | intro _ | apply follows_setCredit | apply follows_creditGuard
          | simp only [follows_upd] | apply follows_ite | split)

theorem follows_sendNow {s₀ : State} {s : State} {u q : Nat} {sender : Sender} {e : Nat × Credit} {m : Msg} (h_s : Follows s₀ s) :
    Follows s₀ (sendNow s u q sender e m) := by
  unfold sendNow
  try dsimp only
  with_reducible repeat' (
    first | assumption | intro _ | apply follows_inject | apply follows_submit | apply follows_qCount
          | apply follows_setCredit | simp only [follows_upd] | apply follows_ite | split)

theorem follows_sendFailed {s₀ : State} {s : State} {u q cause : Nat} {fromNack : Bool} {h : Header} (h_s : Follows s₀ s) :
    Follows s₀ (sendFailed s u q cause fromNack h) := by
  unfold sendFailed
  try dsimp only
  with_reducible repeat' (
    first | assumption | apply follows_report | apply follows_qCount | apply follows_ctlCount | simp only [follows_upd]
          | apply follows_ite)

theorem follows_waitSend {s₀ : State} {s : State} {u q : Nat} {sender : Sender} {m : Msg} (h_s : Follows s₀ s) :
    Follows s₀ (waitSend s u q sender m) := by
  unfold waitSend
  try dsimp only
  with_reducible repeat' (first | assumption | simp only [follows_upd])

theorem follows_trySend {s₀ : State} {s : State} {u q : Nat} {sender : Sender} {m : Msg} (h_s : Follows s₀ s) :
    Follows s₀ (trySend s u q sender m).2 := by
  unfold trySend
  try dsimp only
  with_reducible repeat' (
    first | assumption | intro _ | apply follows_creditGuard | apply follows_sendNow | apply follows_sendFailed
          | apply follows_waitSend | simp only [follows_upd] | apply follows_ite | split)

theorem follows_resumeSender {s₀ : State} {s : State} {w : SendWait} (h_s : Follows s₀ s) :
    Follows s₀ (resumeSender s w) := by
  unfold resumeSender
  try dsimp only
  with_reducible repeat' (first | assumption | apply follows_setThread | apply follows_updBusy | simp only [follows_upd] | apply follows_ite | split)

theorem follows_stallCount {s₀ : State} {s : State} {w : SendWait} (h_s : Follows s₀ s) :
    Follows s₀ (stallCount s w) := by
  unfold stallCount
  try dsimp only
  with_reducible repeat' (first | assumption | intro _ | apply follows_qCount | simp only [follows_upd] | apply follows_ite)

theorem follows_dropSends {s₀ : State} {s : State} {p : SendWait → Bool} (h_s : Follows s₀ s) :
    Follows s₀ (dropSends s p) := by
  unfold dropSends
  try dsimp only
  with_reducible repeat' (
    first | assumption | intro _ | apply follows_each | apply follows_stallCount | simp only [follows_upd])

theorem follows_retrySend {s₀ : State} {s : State} {w : SendWait} (h_s : Follows s₀ s) :
    Follows s₀ (retrySend s w) := by
  unfold retrySend
  try dsimp only
  with_reducible repeat' (
    first | assumption | intro _ | apply follows_creditGuard | apply follows_sendNow
          | apply follows_sendFailed | apply follows_resumeSender | apply follows_stallCount
          | simp only [follows_upd] | apply follows_ite | split)

theorem follows_grantRefused {s₀ : State} {s : State} {t q : Nat} {asked : Option Nat} (h_s : Follows s₀ s) :
    Follows s₀ (grantRefused s t q asked) := by
  unfold grantRefused
  try dsimp only
  with_reducible repeat' (first | assumption | apply follows_report)

theorem follows_grant {s₀ : State} {s : State} {t q dd dt n : Nat} {owner : Option Nat} (h_s : Follows s₀ s) :
    Follows s₀ (grant s t q dd dt n owner).2 := by
  unfold grant
  try dsimp only
  with_reducible repeat' (
    first | assumption | apply follows_wrGF | apply follows_inject | apply follows_grantRefused | simp only [follows_upd]
          | apply follows_ite | split)

theorem follows_sendRevokeTo {s₀ : State} {s : State} {t q c : Nat} (h_s : Follows s₀ s) :
    Follows s₀ (sendRevokeTo s t q c) := by
  unfold sendRevokeTo
  try dsimp only
  with_reducible repeat' (first | assumption | intro _ | apply follows_inject | simp only [follows_upd])

theorem follows_sendRevoke {s₀ : State} {s : State} {t q : Nat} (h_s : Follows s₀ s) :
    Follows s₀ (sendRevoke s t q) := by
  unfold sendRevoke
  try dsimp only
  with_reducible repeat' (first | assumption | intro _ | apply follows_sendRevokeTo)

theorem follows_setChan {s₀ : State} {s : State} {t ch : Nat} {c : Chan} (h_s : Follows s₀ s) :
    Follows s₀ (setChan s t ch c) := by
  unfold setChan
  try dsimp only
  with_reducible repeat' (first | assumption | intro _ | simp only [follows_upd])

theorem follows_discardHeld {s₀ : State} {s : State} {t q keep : Nat} (h_s : Follows s₀ s) :
    Follows s₀ (discardHeld s t q keep) := by
  unfold discardHeld
  try dsimp only
  with_reducible repeat' (
    first | assumption | apply follows_wrG | apply follows_qCount | apply follows_setChan | simp only [follows_upd]
          | apply follows_ite)

theorem follows_endRead {s₀ : State} {s : State} {t q : Nat} (h_s : Follows s₀ s) :
    Follows s₀ (endRead s t q) := by
  unfold endRead
  try dsimp only
  with_reducible repeat' (first | assumption | intro _ | apply follows_qCount | simp only [follows_upd] | apply follows_ite)

theorem follows_closeQueue {s₀ : State} {s : State} {t q : Nat} (h_s : Follows s₀ s) :
    Follows s₀ (closeQueue s t q) := by
  unfold closeQueue
  try dsimp only
  with_reducible repeat' (
    first | assumption | intro _ | apply follows_each | apply follows_setThread | apply follows_setQState
          | apply follows_sendRevoke | apply follows_discardHeld)

theorem follows_stopThread {s₀ : State} {s : State} {t n : Nat} (h_s : Follows s₀ s) :
    Follows s₀ (stopThread s t n) := by
  unfold stopThread
  try dsimp only
  with_reducible repeat' (first | assumption | apply follows_setThread | simp only [follows_upd] | split)

theorem follows_resetQueue {s₀ : State} {s : State} {t q : Nat} {revoke : Bool} (h_s : Follows s₀ s) :
    Follows s₀ (resetQueue s t q revoke) := by
  unfold resetQueue
  try dsimp only
  with_reducible repeat' (
    first | assumption | intro _ | apply follows_each | apply follows_updBusy | apply follows_setQState
          | apply follows_sendRevoke | apply follows_discardHeld | apply follows_endRead
          | apply follows_stopThread | simp only [follows_upd] | apply follows_ite)

theorem follows_drainDone {s₀ : State} {s : State} {t q : Nat} (h_s : Follows s₀ s) :
    Follows s₀ (drainDone s t q) := by
  unfold drainDone
  try dsimp only
  with_reducible repeat' (first | assumption | apply follows_setQState | apply follows_sendRevoke | apply follows_ite)

theorem follows_awaitHead {s₀ : State} {s : State} {t q : Nat} (h_s : Follows s₀ s) :
    Follows s₀ (awaitHead s t q) := by
  unfold awaitHead
  try dsimp only
  with_reducible repeat' (
    first | assumption | intro _ | apply follows_snoopHead | apply follows_drainDone | simp only [follows_upd]
          | apply follows_ite)

theorem follows_losePointers {s₀ : State} {s : State} {t q : Nat} (h_s : Follows s₀ s) :
    Follows s₀ (losePointers s t q) := by
  unfold losePointers
  try dsimp only
  with_reducible repeat' (
    first | assumption | intro _ | apply follows_qCount | apply follows_wrG | apply follows_drawnMany
          | simp only [follows_upd] | apply follows_ite)

theorem follows_resetUnknown {s₀ : State} {s : State} {t q : Nat} (h_s : Follows s₀ s) :
    Follows s₀ (resetUnknown s t q) := by
  unfold resetUnknown
  try dsimp only
  with_reducible repeat' (
    first | assumption | intro _ | apply follows_each | apply follows_wrG | apply follows_sendRevokeTo
          | apply follows_resetQueue)

theorem follows_queueGuard {s₀ : State} {s : State} {t q : Nat} (h_s : Follows s₀ s) :
    Follows s₀ (queueGuard s t q) := by
  unfold queueGuard
  try dsimp only
  with_reducible repeat' (
    first | assumption | intro _ | apply follows_fenceTile | apply follows_guardReport
          | apply follows_resetQueue | apply follows_losePointers | apply follows_resetUnknown
          | simp only [follows_upd] | apply follows_ite)

theorem follows_revive {s₀ : State} {s : State} {c : Nat} (h_s : Follows s₀ s) :
    Follows s₀ (revive s c) := by
  unfold revive
  try dsimp only
  with_reducible repeat' (
    first | assumption | intro _ | apply follows_setTdState | apply follows_passTornAll
          | simp only [follows_upd])

theorem follows_restart {s₀ : State} {s : State} {c : Nat} (h_s : Follows s₀ s) :
    Follows s₀ (restart s c) := by
  unfold restart
  try dsimp only
  with_reducible repeat' (first | assumption | apply follows_revive | apply follows_ite)

theorem follows_dropPlan {s₀ : State} {s : State} {t q : Nat} (h_s : Follows s₀ s) :
    Follows s₀ (dropPlan s t q) := by
  unfold dropPlan
  try dsimp only
  with_reducible repeat' (first | assumption | intro _ | simp only [follows_upd])

theorem follows_openQueue {s₀ : State} {s : State} {t q c : Nat} (h_s : Follows s₀ s) :
    Follows s₀ (openQueue s t q c) := by
  unfold openQueue
  try dsimp only
  with_reducible repeat' (first | assumption | intro _ | apply follows_wrG | simp only [follows_upd])

theorem follows_performOpen {s₀ : State} {s : State} {t q c : Nat} {hornbeam : Bool} (h_s : Follows s₀ s) :
    Follows s₀ (performOpen s t q c hornbeam) := by
  unfold performOpen
  try dsimp only
  with_reducible repeat' (
    first | assumption | intro _ | apply follows_report | apply follows_restart | apply follows_dropPlan
          | apply follows_openQueue | simp only [follows_upd] | apply follows_ite)

theorem follows_performReopen {s₀ : State} {s : State} {t q c : Nat} (h_s : Follows s₀ s) :
    Follows s₀ (performReopen s t q c) := by
  unfold performReopen
  try dsimp only
  with_reducible repeat' (first | assumption | apply follows_report | apply follows_openQueue | apply follows_ite)

theorem follows_repeatGrants {s₀ : State} {s : State} {c t q : Nat} (h_s : Follows s₀ s) :
    Follows s₀ (repeatGrants s c t q) := by
  unfold repeatGrants
  try dsimp only
  with_reducible repeat' (first | assumption | intro _ | apply follows_each | apply follows_grant | apply follows_ite)

theorem follows_reopenQueue {s₀ : State} {s : State} {c t q : Nat} (h_s : Follows s₀ s) :
    Follows s₀ (reopenQueue s c t q) := by
  unfold reopenQueue
  try dsimp only
  with_reducible repeat' (first | assumption | intro _ | apply follows_performReopen | simp only [follows_upd] | apply follows_ite)

theorem follows_reopenQueues {s₀ : State} {s : State} {c : Nat} (h_s : Follows s₀ s) :
    Follows s₀ (reopenQueues s c) := by
  unfold reopenQueues
  try dsimp only
  with_reducible repeat' (
    first | assumption | intro _ | apply follows_each | apply follows_repeatGrants | apply follows_reopenQueue
          | simp only [follows_upd])

theorem follows_notePlan {s₀ : State} {s : State} {t q dd dt n : Nat} (h_s : Follows s₀ s) :
    Follows s₀ (notePlan s t q dd dt n) := by
  unfold notePlan
  try dsimp only
  with_reducible repeat' (first | assumption | simp only [follows_upd] | apply follows_ite)

theorem follows_grantWrite {s₀ : State} {s : State} {t q dd dt n : Nat} (h_s : Follows s₀ s) :
    Follows s₀ (grantWrite s t q dd dt n) := by
  unfold grantWrite
  try dsimp only
  with_reducible repeat' (first | assumption | apply follows_grant | apply follows_notePlan | apply follows_ite)

theorem follows_badCmd {s₀ : State} {s : State} {p q : Nat} (h_s : Follows s₀ s) :
    Follows s₀ (badCmd s p q) := by
  unfold badCmd
  try dsimp only
  with_reducible repeat' (first | assumption | apply follows_reportB)

theorem follows_queueCmd {s₀ : State} {s : State} {t q cmd c : Nat} {hornbeam : Bool} (h_s : Follows s₀ s) :
    Follows s₀ (queueCmd s t q cmd c hornbeam) := by
  unfold queueCmd
  try dsimp only
  with_reducible repeat' (
    first | assumption | intro _ | apply follows_setQState | apply follows_closeQueue
          | apply follows_resetQueue | apply follows_drainDone | apply follows_queueGuard
          | apply follows_performOpen | apply follows_badCmd | simp only [follows_upd] | apply follows_ite
          | split)

theorem follows_revokeDone {s₀ : State} {s : State} {t q c : Nat} (h_s : Follows s₀ s) :
    Follows s₀ (revokeDone s t q c) := by
  unfold revokeDone
  try dsimp only
  with_reducible repeat' (
    first | assumption | intro _ | apply follows_each | apply follows_performOpen
          | apply follows_performReopen | apply follows_repeatGrants | apply follows_badCmd
          | simp only [follows_upd] | apply follows_ite)

theorem follows_ringRegionGone {s₀ : State} {s : State} {p lo hi c : Nat} (h_s : Follows s₀ s) :
    Follows s₀ (ringRegionGone s p lo hi c) := by
  unfold ringRegionGone
  try dsimp only
  with_reducible repeat' (
    first | assumption | intro _ | apply follows_each | apply follows_report | apply follows_resetQueue
          | simp only [follows_upd] | apply follows_ite)

theorem follows_beginRead {s₀ : State} {s : State} {t q : Nat} (h_s : Follows s₀ s) :
    Follows s₀ (beginRead s t q) := by
  unfold beginRead
  try dsimp only
  with_reducible repeat' (first | assumption | intro _ | simp only [follows_upd] | apply follows_ite)

theorem follows_ringPut {s₀ : State} {s : State} {t q : Nat} {m : Msg} (h_s : Follows s₀ s) :
    Follows s₀ (ringPut s t q m) := by
  unfold ringPut
  try dsimp only
  with_reducible repeat' (
    first | assumption | intro _ | apply follows_ctlCount | apply follows_wrG | apply follows_ringWrite
          | apply follows_skipPad | simp only [follows_upd] | apply follows_ite)

theorem follows_putRaw {s₀ : State} {s : State} {a : Nat} {us : List (List Byte × Nat)} (h_s : Follows s₀ s) :
    Follows s₀ (putRaw s a us) := by
  unfold putRaw
  try dsimp only
  with_reducible repeat' (
    first | assumption | intro _ | apply follows_each | apply follows_writeBytes | apply follows_setChk)

theorem follows_ringMove {s₀ : State} {s : State} {t q : Nat} {m : Msg} {us : List (List Byte × Nat)} (h_s : Follows s₀ s) :
    Follows s₀ (ringMove s t q m us) := by
  unfold ringMove
  try dsimp only
  with_reducible repeat' (
    first | assumption | intro _ | apply follows_ringPut | apply follows_putRaw)

theorem follows_received {s₀ : State} {s : State} {t q : Nat} {m : Msg} (h_s : Follows s₀ s) :
    Follows s₀ (received s t q m) := by
  unfold received
  try dsimp only
  with_reducible repeat' (
    first | assumption | intro _ | apply follows_progress | apply follows_qCount | apply follows_countDlv
          | apply follows_incWrap | simp only [follows_upd] | apply follows_ite)

theorem follows_enqueue {s₀ : State} {s : State} {t q : Nat} {m : Msg} (h_s : Follows s₀ s) :
    Follows s₀ (enqueue s t q m) := by
  unfold enqueue
  try dsimp only
  with_reducible repeat' (
    first | assumption | intro _ | apply follows_inject | apply follows_incWrap | apply follows_endRead
          | apply follows_ringPut | apply follows_received | simp only [follows_upd] | apply follows_ite)

theorem follows_arrivalSnoop {s₀ : State} {s : State} {t : Nat} {m : Msg} (h_s : Follows s₀ s) :
    Follows s₀ (arrivalSnoop s t m) := by
  unfold arrivalSnoop
  try dsimp only
  with_reducible repeat' (
    first | assumption | intro _ | apply follows_each | apply follows_ringAwait)

theorem follows_queueRec {s₀ : State} {s : State} {t q code c : Nat} (h_s : Follows s₀ s) :
    Follows s₀ (queueRec s t q code c) := by
  unfold queueRec
  try dsimp only
  with_reducible repeat' (first | assumption | apply follows_reportLimited)

theorem follows_gbKnown {s₀ : State} {s : State} {p : Header → Bool} (h_s : Follows s₀ s) :
    Follows s₀ (gbKnown s p) := by
  unfold gbKnown
  try dsimp only
  with_reducible repeat' (first | assumption | intro _ | simp only [follows_upd])

theorem follows_staleDiscard {s₀ : State} {s : State} {t q c : Nat} {m : Msg} (h_s : Follows s₀ s) :
    Follows s₀ (staleDiscard s t q c m) := by
  unfold staleDiscard
  try dsimp only
  with_reducible repeat' (
    first | assumption | intro _ | apply follows_qCount | apply follows_ctlCount | apply follows_countDlv
          | apply follows_reportLimited | apply follows_gbKnown)

theorem follows_arrive {s₀ : State} {s0 : State} {t : Nat} {m : Msg} (h_s0 : Follows s₀ s0) :
    Follows s₀ (arrive s0 t m) := by
  unfold arrive
  try dsimp only
  with_reducible repeat' (
    first | assumption | intro _ | apply follows_clearClean | apply follows_fenceTile | apply follows_refuse
          | apply follows_report | apply follows_queueGuard | apply follows_enqueue | apply follows_queueRec
          | apply follows_gbKnown | apply follows_staleDiscard | simp only [follows_upd] | apply follows_ite)

theorem follows_gbSendFailed {s₀ : State} {s : State} {cause : Nat} {h : Header} (h_s : Follows s₀ s) :
    Follows s₀ (gbSendFailed s cause h) := by
  unfold gbSendFailed
  try dsimp only
  with_reducible repeat' (
    first | assumption | intro _ | apply follows_wr | apply follows_raise | apply follows_report
          | apply follows_incSat | apply follows_gbKnown)

theorem follows_nackHeard {s₀ : State} {s : State} {u : Nat} {h : Header} (h_s : Follows s₀ s) :
    Follows s₀ (nackHeard s u h) := by
  unfold nackHeard
  try dsimp only
  with_reducible repeat' (first | assumption | intro _ | apply follows_setCredit | simp only [follows_upd] | apply follows_ite | split)

theorem follows_nackArrives {s₀ : State} {s : State} {u cause : Nat} {h : Header} (h_s : Follows s₀ s) :
    Follows s₀ (nackArrives s u cause h) := by
  unfold nackArrives
  try dsimp only
  with_reducible repeat' (
    first | assumption | intro _ | apply follows_returnCredit | apply follows_sendFailed
          | apply follows_gbSendFailed | apply follows_nackHeard | simp only [follows_upd] | apply follows_ite)

theorem follows_release {s₀ : State} {s : State} {t q : Nat} (h_s : Follows s₀ s) :
    Follows s₀ (release s t q) := by
  unfold release
  try dsimp only
  with_reducible repeat' (
    first | assumption | apply follows_wrG | apply follows_progress | apply follows_inject | apply follows_skipPad
          | apply follows_drainDone | apply follows_ite)

end Sys2Proof.Machine
end

