-- ==== Sys2Proof/Laws/FollowsQueueRows.lean ====
section
/-! SUPPORT. `Follows` is kept by the operations of Machine/QueueRows.lean. -/

namespace Sys2Proof.Machine

theorem follows_execMessageSend {s₀ : State} {u : Fin 4610} {q : QueueId} {c : CtxId} {dst handler vc : Nat} {pay : List Byte} {s : State} (h_s : Follows s₀ s) :
    FollowsNext s₀ (execMessageSend u q c dst handler vc pay s) := by
  unfold execMessageSend
  try dsimp only
  apply followsNext
  with_reducible repeat' (first | assumption | apply follows_trySend | apply follows_ite)

theorem follows_execCreditAvailable {s₀ : State} {i : Nat} {s : State} (h_s : Follows s₀ s) :
    FollowsNext s₀ (execCreditAvailable i s) := by
  unfold execCreditAvailable
  try dsimp only
  apply followsNext
  with_reducible repeat' (first | assumption | intro _ | apply follows_retrySend | simp only [follows_upd] | apply follows_ite | split)

theorem follows_execMessageArrival {s₀ : State} {t : TileId} {m : Msg} {s : State} (h_s : Follows s₀ s) :
    FollowsNext s₀ (execMessageArrival t m s) := by
  unfold execMessageArrival
  try dsimp only
  apply followsNext
  with_reducible repeat' (
    first | assumption | exact follows_takeEjected ‹_› ‹_› | refine follows_takeEjected ‹_› ?_ | apply follows_arrivalSnoop
          | apply follows_arrive | simp only [follows_upd] | apply follows_ite | split)

theorem follows_onCtrl {s₀ : State} {t type : Nat} {p : Ctrl} {s : State} {f : State → State} (h_s : Follows s₀ s) (h_f : ∀ (x0 : State), Follows s₀ x0 → Follows s₀ (f x0)) :
    Follows s₀ (onCtrl t type p s f) := by
  unfold onCtrl
  try dsimp only
  with_reducible repeat' (
    first | assumption | apply h_f | exact follows_takeEjected ‹_› ‹_› | refine follows_takeEjected ‹_› ?_
          | simp only [follows_upd] | apply follows_ite | split)

theorem follows_execNackArrival {s₀ : State} {t : TileId} {p : Ctrl} {s : State} (h_s : Follows s₀ s) :
    FollowsNext s₀ (execNackArrival t p s) := by
  unfold execNackArrival
  try dsimp only
  apply followsNext
  with_reducible repeat' (first | assumption | intro _ | apply follows_nackArrives | apply follows_onCtrl)

theorem follows_withdrawGrant {s₀ : State} {s : State} {t : Nat} {p : Ctrl} (h_s : Follows s₀ s) :
    Follows s₀ (withdrawGrant s t p) := by
  unfold withdrawGrant
  try dsimp only
  with_reducible repeat' (first | assumption | apply follows_wrGF | apply follows_grantRefused | apply follows_ite)

theorem follows_execGrantPacketArrival {s₀ : State} {t : TileId} {p : Ctrl} {s : State} (h_s : Follows s₀ s) :
    FollowsNext s₀ (execGrantPacketArrival t p s) := by
  unfold execGrantPacketArrival
  try dsimp only
  apply followsNext
  with_reducible repeat' (
    first | assumption | intro _ | apply follows_inject | apply follows_takeGrant | apply follows_onCtrl
          | apply follows_withdrawGrant | simp only [follows_upd] | apply follows_ite)

theorem follows_execGrantBounce {s₀ : State} {t : TileId} {p : Ctrl} {s : State} (h_s : Follows s₀ s) :
    FollowsNext s₀ (execGrantBounce t p s) := by
  unfold execGrantBounce
  try dsimp only
  apply followsNext
  with_reducible repeat' (first | assumption | intro _ | apply follows_onCtrl | apply follows_withdrawGrant | apply follows_ite)

theorem follows_execReturnArrival {s₀ : State} {t : TileId} {p : Ctrl} {s : State} (h_s : Follows s₀ s) :
    FollowsNext s₀ (execReturnArrival t p s) := by
  unfold execReturnArrival
  try dsimp only
  apply followsNext
  with_reducible repeat' (first | assumption | intro _ | apply follows_returnCredit | apply follows_onCtrl)

theorem follows_revokeEntries {s₀ : State} {s : State} {u ep : Nat} (h_s : Follows s₀ s) :
    Follows s₀ (revokeEntries s u ep) := by
  unfold revokeEntries
  try dsimp only
  with_reducible repeat' (first | assumption | intro _ | simp only [follows_upd])

theorem follows_upReply {s₀ : State} {s : State} {t : Nat} {p : Ctrl} {type : Nat} {words : List Nat} (h_s : Follows s₀ s) :
    Follows s₀ (upReply s t p type words) := by
  unfold upReply
  try dsimp only
  with_reducible repeat' (first | assumption | apply follows_inject)

theorem follows_execRevokeArrival {s₀ : State} {t : TileId} {p : Ctrl} {s : State} (h_s : Follows s₀ s) :
    FollowsNext s₀ (execRevokeArrival t p s) := by
  unfold execRevokeArrival
  try dsimp only
  apply followsNext
  with_reducible repeat' (first | assumption | intro _ | apply follows_onCtrl | apply follows_revokeEntries | apply follows_upReply)

theorem follows_execRevokeAckComplete {s₀ : State} {root : TileId} {p : Ctrl} {t : TileId} {q : QueueId} {s : State} (h_s : Follows s₀ s) :
    FollowsNext s₀ (execRevokeAckComplete root p t q s) := by
  unfold execRevokeAckComplete
  try dsimp only
  apply followsNext
  with_reducible repeat' (
    first | assumption | intro _ | apply follows_onCtrl | apply follows_revokeDone | simp only [follows_upd]
          | apply follows_ite)

end Sys2Proof.Machine
end

