-- ==== Sys2Proof/Laws/FollowsMesh.lean ====
section
/-! SUPPORT. `Follows` is kept by the operations of Machine/Mesh.lean. -/

namespace Sys2Proof.Machine

theorem follows_redDiscard {s₀ : State} {s : State} {t : Nat} (h_s : Follows s₀ s) :
    Follows s₀ (redDiscard s t) := by
  unfold redDiscard
  try dsimp only
  with_reducible repeat' (first | assumption | apply follows_incWrap)

theorem follows_redReset {s₀ : State} {s : State} {t c : Nat} (h_s : Follows s₀ s) :
    Follows s₀ (redReset s t c) := by
  unfold redReset
  try dsimp only
  with_reducible repeat' (
    first | assumption | intro _ | apply follows_requestDirty | apply follows_redDiscard
          | apply follows_reportLimited)

theorem follows_headRefused {s₀ : State} {s : State} {t id : Nat} {m : Msg} (h_s : Follows s₀ s) :
    Follows s₀ (headRefused s t id m) := by
  unfold headRefused
  try dsimp only
  with_reducible repeat' (
    first | assumption | intro _ | apply follows_refuse | apply follows_incWrap | simp only [follows_upd]
          | apply follows_ite)

theorem follows_fwDeliver {s₀ : State} {s : State} {t : Nat} {p : Pkt} (h_s : Follows s₀ s) :
    Follows s₀ (fwDeliver s t p) := by
  unfold fwDeliver
  try dsimp only
  with_reducible repeat' (first | assumption | apply follows_eject | apply follows_ctlCount | apply follows_ite)

theorem follows_deliverFlit {s₀ : State} {s : State} {t : Nat} {f : Flit} (h_s : Follows s₀ s) :
    Follows s₀ (deliverFlit s t f) := by
  unfold deliverFlit
  try dsimp only
  with_reducible repeat' (
    first | assumption | intro _ | apply follows_redDiscard | apply follows_headRefused
          | apply follows_fwDeliver | apply follows_eject | apply follows_pushFlits | simp only [follows_upd]
          | apply follows_ite | split)

theorem follows_copyFlit {s₀ : State} {t ip : Nat} {f : Flit} {s : State} {o : Nat × Nat} (h_s : Follows s₀ s) :
    Follows s₀ (copyFlit t ip f s o) := by
  unfold copyFlit
  try dsimp only
  with_reducible repeat' (
    first | assumption | intro _ | apply follows_toPort | apply follows_deliverFlit | apply follows_pushFlits
          | simp only [follows_upd] | apply follows_ite | split)

theorem follows_keepFlit {s₀ : State} {s : State} {n ip : Nat} {f : Flit} (h_s : Follows s₀ s) :
    Follows s₀ (keepFlit s n ip f) := by
  unfold keepFlit
  try dsimp only
  with_reducible repeat' (
    first | assumption | intro _ | apply follows_each | apply follows_copyFlit | simp only [follows_upd]
          | apply follows_ite | split)

theorem follows_advanceFlit {s₀ : State} {n ip : Nat} {s : State} {f : Flit} (h_s : Follows s₀ s) :
    Follows s₀ (advanceFlit n ip s f) := by
  unfold advanceFlit
  try dsimp only
  with_reducible repeat' (
    first | assumption | intro _ | apply follows_toPort | apply follows_deliverFlit | apply follows_keepFlit
          | apply follows_pushFlits | apply follows_report | simp only [follows_upd] | apply follows_ite)

theorem follows_setEntering {s₀ : State} {s : State} {n ip : Nat} {l : List Flit} (h_s : Follows s₀ s) :
    Follows s₀ (setEntering s n ip l) := by
  unfold setEntering
  try dsimp only
  with_reducible repeat' (first | assumption | intro _ | simp only [follows_upd])

theorem follows_enterPort {s₀ : State} {n ip : Nat} {y0 : Nat} {y1 : State} (h_y1 : Follows s₀ y1) :
    Follows s₀ (enterPort n ip y0 y1) := by
  induction y0 generalizing y1 with
  | zero => exact h_y1
  | succ n ih =>
    unfold enterPort
    try dsimp only
    with_reducible repeat' (
      first | assumption | (apply ih) | intro _ | apply follows_advanceFlit | apply follows_setEntering
            | simp only [follows_upd] | apply follows_ite | split)

theorem follows_enter {s₀ : State} {s : State} {n ip : Nat} {p : Pkt} (h_s : Follows s₀ s) :
    Follows s₀ (enter s n ip p) := by
  unfold enter
  try dsimp only
  with_reducible repeat' (
    first | assumption | intro _ | apply follows_setEntering | apply follows_enterPort
          | apply follows_numbered)

theorem follows_enterOn {s₀ : State} {s : State} {n ip : Nat} (h_s : Follows s₀ s) :
    Follows s₀ (enterOn s n ip) := by
  unfold enterOn
  try dsimp only
  with_reducible repeat' (first | assumption | intro _ | apply follows_enterPort)

theorem follows_drainLocal {s₀ : State} {s : State} {t : Nat} (h_s : Follows s₀ s) :
    Follows s₀ (drainLocal s t) := by
  unfold drainLocal
  try dsimp only
  with_reducible repeat' (
    first | assumption | intro _ | apply follows_each | apply follows_deliverFlit | apply follows_enterOn
          | apply follows_setLinkQ | simp only [follows_upd] | apply follows_ite)

theorem follows_destReserved {s₀ : State} {s : State} {t : Nat} {p : Pkt} (h_s : Follows s₀ s) :
    Follows s₀ (destReserved s t p) := by
  unfold destReserved
  try dsimp only
  with_reducible repeat' (
    first | assumption | apply follows_report | apply follows_faultStop | apply follows_nackFrom | apply follows_redDiscard
          | simp only [follows_upd] | split)

theorem follows_unreachable {s₀ : State} {s : State} {t : Nat} {p : Pkt} (h_s : Follows s₀ s) :
    Follows s₀ (unreachable s t p) := by
  unfold unreachable
  try dsimp only
  with_reducible repeat' (
    first | assumption | intro _ | apply follows_requestDirty | apply follows_nackFrom
          | apply follows_redDiscard | apply follows_report | simp only [follows_upd] | apply follows_ite
          | split)

theorem follows_sourceRefusal {s₀ : State} {s : State} {t : Nat} {p : Pkt} {v : State} (e : sourceRefusal s t p = some v) (h_s : Follows s₀ s) :
    Follows s₀ v := by
  unfold sourceRefusal at e
  try dsimp only at e
  repeat' first | (cases e; done) | split at e
  all_goals (injection e with e; subst e)
  with_reducible repeat' (
    first | assumption | intro _ | apply follows_exitRefuse | apply follows_destReserved | apply follows_unreachable)

theorem follows_sourceCheck {s₀ : State} {s : State} {t : Nat} {p : Pkt} (h_s : Follows s₀ s) :
    Follows s₀ (sourceCheck s t p) := by
  unfold sourceCheck
  try dsimp only
  with_reducible repeat' (
    first | assumption | intro _ | apply follows_enter | exact follows_sourceRefusal ‹_› ‹_›
          | refine follows_sourceRefusal ‹_› ?_ | apply follows_countInj | simp only [follows_upd]
          | apply follows_ite | split)

theorem follows_injectOne {s₀ : State} {s : State} {t : Nat} {vc : Nat} (h_s : Follows s₀ s) :
    Follows s₀ (injectOne s t vc) := by
  unfold injectOne
  try dsimp only
  with_reducible repeat' (
    first | assumption | intro _ | apply follows_sourceCheck | apply follows_inject | simp only [follows_upd]
          | apply follows_ite | split)

theorem follows_execPacketInject {s₀ : State} {t : TileId} {vc : Fin 4} {s : State} (h_s : Follows s₀ s) :
    FollowsNext s₀ (execPacketInject t vc s) := by
  unfold execPacketInject
  try dsimp only
  apply followsNext
  with_reducible repeat' (first | assumption | apply follows_injectOne)

theorem follows_execInjectionHoldRelease {s₀ : State} {t : TileId} {s : State} (h_s : Follows s₀ s) :
    FollowsNext s₀ (execInjectionHoldRelease t s) := by
  unfold execInjectionHoldRelease
  try dsimp only
  apply followsNext
  with_reducible repeat' (first | assumption | intro _ | apply follows_each | apply follows_injectOne | apply follows_ite)

theorem follows_dropRest {s₀ : State} {s : State} {b id : Nat} (h_s : Follows s₀ s) :
    Follows s₀ (dropRest s b id) := by
  unfold dropRest
  try dsimp only
  with_reducible repeat' (first | assumption | intro _ | apply follows_setFifo)

theorem follows_fifoTake {s₀ : State} {s : State} {b t : Nat} {f : Flit} {l : List (Nat × Flit)} {v : State} (e : fifoTake s b t f l = some v) (h_s : Follows s₀ s) :
    Follows s₀ v := by
  unfold fifoTake at e
  try dsimp only at e
  split at e
  · cases e
  · split at e
    · rename_i u h
      injection e with e
      subst e
      split at h
      · exact follows_dropRest (follows_sourceRefusal h (follows_setFifo h_s))
      · cases h
    · split at e
      · injection e with e
        subst e
        exact follows_advanceFlit (follows_setFifo h_s)
      · cases e

theorem follows_fifoRead {s₀ : State} {b : Nat} {y0 : Nat} {y1 : State} (h_y1 : Follows s₀ y1) :
    Follows s₀ (fifoRead b y0 y1) := by
  induction y0 generalizing y1 with
  | zero => exact h_y1
  | succ n ih =>
    unfold fifoRead
    try dsimp only
    with_reducible repeat' (
      first | assumption | (apply ih) | intro _ | exact follows_fifoTake ‹_› ‹_›
            | refine follows_fifoTake ‹_› ?_ | apply follows_fifoFill | simp only [follows_upd]
            | apply follows_ite | split)

theorem follows_noteWay {s₀ : State} {s : State} {t : Nat} {y0 : Pkt} (h_s : Follows s₀ s) :
    Follows s₀ (noteWay s t y0) := by
  unfold noteWay
  try dsimp only
  with_reducible repeat' (first | assumption | intro _ | apply follows_noteContrib | simp only [follows_upd] | apply follows_ite | split)

theorem follows_crossIn {s₀ : State} {s : State} {p t : Nat} {pkt : Pkt} (h_s : Follows s₀ s) :
    Follows s₀ (crossIn s p t pkt) := by
  unfold crossIn
  try dsimp only
  with_reducible repeat' (
    first | assumption | intro _ | apply follows_fifoRead | apply follows_noteWay | apply follows_submit)

theorem follows_countVc3 {s₀ : State} {s : State} {t p : Nat} {f : Flit} (h_s : Follows s₀ s) :
    Follows s₀ (countVc3 s t p f) := by
  unfold countVc3
  try dsimp only
  with_reducible repeat' (first | assumption | intro _ | simp only [follows_upd])

theorem follows_takeFlit {s₀ : State} {s : State} {t p : Nat} {f : Flit} (h_s : Follows s₀ s) :
    Follows s₀ (takeFlit s t p f) := by
  unfold takeFlit
  try dsimp only
  with_reducible repeat' (
    first | assumption | intro _ | apply follows_setLinkQ | apply follows_incWrap | simp only [follows_upd])

theorem follows_fenceLink {s₀ : State} {s : State} {t p : Nat} (h_s : Follows s₀ s) :
    Follows s₀ (fenceLink s t p) := by
  unfold fenceLink
  try dsimp only
  with_reducible repeat' (first | assumption | intro _ | apply follows_wrB)

theorem follows_linkFail {s₀ : State} {s : State} {t p n : Nat} {f : Flit} (h_s : Follows s₀ s) :
    Follows s₀ (linkFail s t p n f) := by
  unfold linkFail
  try dsimp only
  with_reducible repeat' (
    first | assumption | intro _ | apply follows_each | apply follows_requestDirty | apply follows_queueFence
          | apply follows_fenceLink | apply follows_dropPackets | apply follows_report
          | simp only [follows_upd])

theorem follows_dropFlit {s₀ : State} {s : State} {t p n : Nat} {f : Flit} (h_s : Follows s₀ s) :
    Follows s₀ (dropFlit s t p n f) := by
  unfold dropFlit
  try dsimp only
  with_reducible repeat' (first | assumption | intro _ | apply follows_linkFail | simp only [follows_upd] | apply follows_ite)

theorem follows_linkCe {s₀ : State} {s : State} {t p n : Nat} (h_s : Follows s₀ s) :
    Follows s₀ (linkCe s t p n) := by
  unfold linkCe
  try dsimp only
  with_reducible repeat' (
    first | assumption | intro _ | apply follows_incSat | apply follows_reportLimited)

theorem follows_crossLink {s₀ : State} {s : State} {t p n err : Nat} {f : Flit} (h_s : Follows s₀ s) :
    Follows s₀ (crossLink s t p n err f) := by
  unfold crossLink
  try dsimp only
  with_reducible repeat' (
    first | assumption | intro _ | apply follows_advanceFlit | apply follows_enterOn | apply follows_countVc3
          | apply follows_takeFlit | apply follows_dropFlit | apply follows_linkCe | simp only [follows_upd]
          | apply follows_ite)

theorem follows_execFlitReceive {s₀ : State} {t : TileId} {p : Fin 9} {err : Fin 3} {s : State} (h_s : Follows s₀ s) :
    FollowsNext s₀ (execFlitReceive t p err s) := by
  unfold execFlitReceive
  try dsimp only
  apply followsNext
  with_reducible repeat' (first | assumption | intro _ | apply follows_crossLink | simp only [follows_upd] | apply follows_ite | split)

theorem follows_execLinkReplay {s₀ : State} {t : TileId} {p : Fin 9} {s : State} (h_s : Follows s₀ s) :
    FollowsNext s₀ (execLinkReplay t p s) := by
  unfold execLinkReplay
  try dsimp only
  apply followsNext
  with_reducible repeat' (
    first | assumption | intro _ | apply follows_report | apply follows_incSat | simp only [follows_upd] | apply follows_ite)

theorem follows_takeHere {s₀ : State} {s : State} {t port : Nat} {p : Pkt} {v : State} (e : takeHere s t port p = some v) (h_s : Follows s₀ s) :
    Follows s₀ v := by
  unfold takeHere at e
  obtain ⟨_, _, rfl⟩ := Option.map_eq_some_iff.1 e
  exact h_s

theorem follows_acted {s₀ : State} {s : State} {t port : Nat} (h_s : Follows s₀ s) :
    Follows s₀ (acted s t port) := by
  unfold acted
  try dsimp only
  with_reducible repeat' (first | assumption | intro _ | apply follows_enterOn | simp only [follows_upd] | apply follows_ite)

theorem follows_standIn {s₀ : State} {s : State} {t : Nat} {c : Ctrl} (h_s : Follows s₀ s) :
    Follows s₀ (standIn s t c) := by
  unfold standIn
  try dsimp only
  with_reducible repeat' (first | assumption | apply follows_upReply | apply follows_ite)

theorem follows_deliverCopy {s₀ : State} {s : State} {t : Nat} {p : Pkt} (h_s : Follows s₀ s) :
    Follows s₀ (deliverCopy s t p) := by
  unfold deliverCopy
  try dsimp only
  with_reducible repeat' (
    first | assumption | apply follows_eject | apply follows_upReply | apply follows_fwDeliver | apply follows_standIn
          | simp only [follows_upd] | apply follows_ite | split)

theorem follows_sendBy {s₀ : State} {s : State} {t n id : Nat} {x : Here} (h_s : Follows s₀ s) :
    Follows s₀ (sendBy s t n id x) := by
  unfold sendBy
  try dsimp only
  with_reducible repeat' (
    first | assumption | intro _ | apply follows_toPort | apply follows_pushFlits | simp only [follows_upd]
          | apply follows_ite | split)

theorem follows_setUpSlots {s₀ : State} {s : State} {t : Nat} {l : List UpSlot} (h_s : Follows s₀ s) :
    Follows s₀ (setUpSlots s t l) := by
  unfold setUpSlots
  try dsimp only
  with_reducible repeat' (first | assumption | intro _ | simp only [follows_upd])

theorem follows_replyUp {s₀ : State} {s : State} {t port : Nat} {c : Ctrl} (h_s : Follows s₀ s) :
    Follows s₀ (replyUp s t port c) := by
  unfold replyUp
  try dsimp only
  with_reducible repeat' (
    first | assumption | intro _ | apply follows_toPort | apply follows_sendBy | apply follows_numbered
          | apply follows_eject | simp only [follows_upd] | apply follows_ite | split)

theorem follows_upEval {s₀ : State} {s : State} {t port : Nat} {x : UpSlot} (h_s : Follows s₀ s) :
    Follows s₀ (upEval s t port x) := by
  unfold upEval
  try dsimp only
  with_reducible repeat' (
    first | assumption | intro _ | apply follows_setUpSlots | apply follows_replyUp | simp only [follows_upd]
          | apply follows_ite)

theorem follows_hearReply {s₀ : State} {s : State} {t port : Nat} {c : Ctrl} {v : State} (e : hearReply s t port c = some v) (h_s : Follows s₀ s) :
    Follows s₀ v := by
  unfold hearReply at e
  try dsimp only at e
  repeat' first | (cases e; done) | split at e
  all_goals (injection e with e; subst e)
  with_reducible repeat' (
    first | assumption | intro _ | apply follows_upEval | apply follows_setUpSlots)

theorem follows_hearOrHold {s₀ : State} {s : State} {t port : Nat} {c : Ctrl} (h_s : Follows s₀ s) :
    Follows s₀ (hearOrHold s t port c) := by
  exact follows_getD (fun _ e => follows_hearReply e h_s) (follows_hold h_s)

theorem follows_replyHeard {s₀ : State} {s : State} {t n : Nat} {c : Ctrl} (h_s : Follows s₀ s) :
    Follows s₀ (replyHeard s t n c) := by
  unfold replyHeard
  try dsimp only
  with_reducible repeat' (first | assumption | intro _ | simp only [follows_upd] | apply follows_ite | split)

theorem follows_owesReply {s₀ : State} {s : State} {t n : Nat} {p : Pkt} (h_s : Follows s₀ s) :
    Follows s₀ (owesReply s t n p) := by
  unfold owesReply
  try dsimp only
  with_reducible repeat' (first | assumption | intro _ | apply follows_hearOrHold | simp only [follows_upd] | apply follows_ite | split)

theorem follows_copyOut {s₀ : State} {t d : Nat} {x : Here} {s : State} {o : Nat × Nat} (h_s : Follows s₀ s) :
    Follows s₀ (copyOut t d x s o) := by
  unfold copyOut
  try dsimp only
  with_reducible repeat' (
    first | assumption | intro _ | apply follows_each | apply follows_toPort | apply follows_deliverFlit
          | apply follows_deliverCopy | apply follows_sendBy | apply follows_owesReply
          | simp only [follows_upd] | apply follows_ite | split)

theorem follows_forwardGroup {s₀ : State} {s : State} {t : Nat} {x : Here} (h_s : Follows s₀ s) :
    Follows s₀ (forwardGroup s t x) := by
  unfold forwardGroup
  try dsimp only
  with_reducible repeat' (
    first | assumption | intro _ | apply follows_each | apply follows_copyOut | apply follows_numbered
          | simp only [follows_upd] | apply follows_ite)

theorem follows_execMulticastForward {s₀ : State} {t : TileId} {port : Fin 9} {p : Pkt} {s : State} (h_s : Follows s₀ s) :
    FollowsNext s₀ (execMulticastForward t port p s) := by
  unfold execMulticastForward
  try dsimp only
  apply followsNext
  with_reducible repeat' (
    first | assumption | intro _ | apply follows_acted | apply follows_forwardGroup | simp only [follows_upd]
          | apply follows_ite | split)

theorem follows_execUptreeReply {s₀ : State} {t : TileId} {port : Fin 9} {c : Ctrl} {s : State} (h_s : Follows s₀ s) :
    FollowsNext s₀ (execUptreeReply t port c s) := by
  unfold execUptreeReply
  apply followsNext
  apply follows_ite h_s
  split
  · obtain ⟨u, hu, hv⟩ := Option.bind_eq_some_iff.1 ‹_›
    exact follows_acted (follows_hearReply hv (follows_replyHeard (follows_takeHere hu h_s)))
  · exact h_s

theorem follows_execMeshProbe {s₀ : State} {g : Fin 4096} {root : TileId} {reply : Option Ctrl} {s : State} (h_s : Follows s₀ s) :
    FollowsNext s₀ (execMeshProbe g root reply s) := by
  unfold execMeshProbe
  try dsimp only
  apply followsNext
  with_reducible repeat' (
    first | assumption | intro _ | apply follows_hbInject | exact follows_takeEjected ‹_› ‹_›
          | refine follows_takeEjected ‹_› ?_ | simp only [follows_upd] | apply follows_ite | split)

theorem follows_redJoin {s₀ : State} {s : State} {p : Nat} {store : Option Nat} {a b : Red} (h_s : Follows s₀ s) :
    Follows s₀ (redJoin s p store a b).1 := by
  unfold redJoin
  try dsimp only
  with_reducible repeat' (
    first | assumption | intro _ | apply follows_raiseArith | apply follows_report | simp only [follows_upd]
          | apply follows_ite | split)

theorem follows_setComb {s₀ : State} {s : State} {l : Nat} {c : List Comb} (h_s : Follows s₀ s) :
    Follows s₀ (setComb s l c) := by
  unfold setComb
  try dsimp only
  with_reducible repeat' (first | assumption | intro _ | simp only [follows_upd])

theorem follows_redForward {s₀ : State} {s : State} {l port : Nat} {r : Red} (h_s : Follows s₀ s) :
    Follows s₀ (redForward s l port r) := by
  unfold redForward
  try dsimp only
  with_reducible repeat' (
    first | assumption | intro _ | apply follows_egressAdd | apply follows_toPort | apply follows_redReset
          | apply follows_crossIn | apply follows_numbered | apply follows_hold | apply follows_pushFlits
          | simp only [follows_upd] | apply follows_ite)

theorem follows_combine {s₀ : State} {s : State} {l port : Nat} {r : Red} (h_s : Follows s₀ s) :
    Follows s₀ (combine s l port r) := by
  unfold combine
  try dsimp only
  with_reducible repeat' (
    first | assumption | intro _ | apply follows_redJoin | apply follows_setComb | apply follows_redForward
          | apply follows_oweCredit | apply follows_incWrap | simp only [follows_upd] | apply follows_ite
          | split)

theorem follows_execReductionPacketArrival {s₀ : State} {l : Fin 4636} {port : Fin 9} {r : Red} {s : State} (h_s : Follows s₀ s) :
    FollowsNext s₀ (execReductionPacketArrival l port r s) := by
  unfold execReductionPacketArrival
  try dsimp only
  apply followsNext
  with_reducible repeat' (
    first | assumption | intro _ | exact follows_takeHere ‹_› ‹_› | refine follows_takeHere ‹_› ?_
          | apply follows_acted | apply follows_combine | simp only [follows_upd] | apply follows_ite | split)

theorem follows_execRedHoldExpiry {s₀ : State} {l : Fin 4636} {i : Fin 32} {s : State} (h_s : Follows s₀ s) :
    FollowsNext s₀ (execRedHoldExpiry l i s) := by
  unfold execRedHoldExpiry
  try dsimp only
  apply followsNext
  with_reducible repeat' (
    first | assumption | intro _ | apply follows_setComb | apply follows_redForward | simp only [follows_upd]
          | apply follows_ite | split)

theorem follows_setComp {s₀ : State} {s : State} {t : Nat} {l : List CompEntry} (h_s : Follows s₀ s) :
    Follows s₀ (setComp s t l) := by
  unfold setComp
  try dsimp only
  with_reducible repeat' (first | assumption | intro _ | simp only [follows_upd])

theorem follows_nameAlso {s₀ : State} {s : State} {c code : Nat} {ks : List Nat} (h_s : Follows s₀ s) :
    Follows s₀ (nameAlso s c code ks) := by
  unfold nameAlso
  try dsimp only
  with_reducible repeat' (first | assumption | intro _ | simp only [follows_upd] | apply follows_ite)

theorem follows_residueBad {s₀ : State} {s : State} {t : Nat} {r : Red} (h_s : Follows s₀ s) :
    Follows s₀ (residueBad s t r) := by
  unfold residueBad
  try dsimp only
  with_reducible repeat' (
    first | assumption | intro _ | apply follows_clearClean | apply follows_setArith | apply follows_nameAlso
          | apply follows_wr | apply follows_report | apply follows_incSat | simp only [follows_upd]
          | apply follows_ite)

theorem follows_fwsDone {s₀ : State} {s : State} {t : Nat} {e : CompEntry} (h_s : Follows s₀ s) :
    Follows s₀ (fwsDone s t e).1 := by
  unfold fwsDone
  try dsimp only
  with_reducible repeat' (
    first | assumption | intro _ | apply follows_arithEvents | apply follows_residueBad
          | apply follows_incWrap | simp only [follows_upd] | apply follows_ite | split)

theorem follows_compTake {s₀ : State} {s : State} {t : Nat} {r : Red} {v : State} (e : compTake s t r = some v) (h_s : Follows s₀ s) :
    Follows s₀ v := by
  unfold compTake at e
  try dsimp only at e
  repeat' first | (cases e; done) | split at e
  all_goals (injection e with e; subst e)
  with_reducible repeat' (
    first | assumption | intro _ | apply follows_redJoin | apply follows_setComp | apply follows_fwsDone | apply follows_report)

theorem follows_execCompletionStoreArrival {s₀ : State} {t : TileId} {port : Fin 16} {r : Red} {s : State} (h_s : Follows s₀ s) :
    FollowsNext s₀ (execCompletionStoreArrival t port r s) := by
  unfold execCompletionStoreArrival
  try dsimp only
  apply followsNext
  with_reducible repeat' (
    first | assumption | intro _ | apply follows_redReset | exact follows_takeHere ‹_› ‹_›
          | refine follows_takeHere ‹_› ?_ | apply follows_acted | exact follows_compTake ‹_› ‹_›
          | refine follows_compTake ‹_› ?_ | apply follows_ctlCount | simp only [follows_upd]
          | apply follows_ite | split)

theorem follows_execCompletionMessageSend {s₀ : State} {t : TileId} {i : Fin 128} {s : State} (h_s : Follows s₀ s) :
    FollowsNext s₀ (execCompletionMessageSend t i s) := by
  unfold execCompletionMessageSend
  try dsimp only
  apply followsNext
  with_reducible repeat' (
    first | assumption | intro _ | apply follows_setComp | apply follows_trySend | simp only [follows_upd]
          | apply follows_ite | split)

end Sys2Proof.Machine
end

