-- ==== Sys2Proof/Laws/FollowsGateway.lean ====
section
/-! SUPPORT. `Follows` is kept by the operations of Machine/Gateway.lean. -/

namespace Sys2Proof.Machine

theorem follows_setGw {s₀ : State} {s : State} {l : Nat} {e : Option GwLine} (h_s : Follows s₀ s) :
    Follows s₀ (setGw s l e) := by
  unfold setGw
  try dsimp only
  with_reducible repeat' (first | assumption | simp only [follows_upd])

theorem follows_giveUp {s₀ : State} {s : State} {l : Nat} (h_s : Follows s₀ s) :
    Follows s₀ (giveUp s l) := by
  unfold giveUp
  try dsimp only
  with_reducible repeat' (
    first | assumption | apply follows_incWrap | apply follows_gbSend | apply follows_setGw | simp only [follows_upd]
          | apply follows_ite | split)

theorem follows_gwInstall {s₀ : State} {s : State} {l st : Nat} {data : List Byte} (h_s : Follows s₀ s) :
    Follows s₀ (gwInstall s l st data) := by
  unfold gwInstall
  try dsimp only
  with_reducible repeat' (first | assumption | apply follows_drawn | apply follows_setGw | apply follows_giveUp | apply follows_ite)

theorem follows_gwFailed {s₀ : State} {s : State} {l status : Nat} (h_s : Follows s₀ s) :
    Follows s₀ (gwFailed s l status) := by
  unfold gwFailed
  try dsimp only
  with_reducible repeat' (first | assumption | intro _ | simp only [follows_upd])

theorem follows_gwMiss {s₀ : State} {s : State} {l opc : Nat} (h_s : Follows s₀ s) :
    Follows s₀ (gwMiss s l opc) := by
  unfold gwMiss
  try dsimp only
  with_reducible repeat' (
    first | assumption | intro _ | apply follows_gwFailed | apply follows_gbRequest | apply follows_incWrap
          | simp only [follows_upd] | apply follows_ite)

theorem follows_gwPut {s₀ : State} {s : State} {a : Nat} {b : Byte} (h_s : Follows s₀ s) :
    Follows s₀ (gwPut s a b) := by
  unfold gwPut
  try dsimp only
  with_reducible repeat' (first | assumption | apply follows_setGw | simp only [follows_upd] | split)

theorem follows_gwAccess {s₀ : State} {s : State} {a len : Nat} {data : Option (List (Option Byte))} (h_s : Follows s₀ s) :
    Follows s₀ (gwAccess s a len data).2 := by
  unfold gwAccess
  try dsimp only
  with_reducible repeat' (
    first | assumption | intro _ | apply follows_each | apply follows_gwMiss | apply follows_gwPut
          | simp only [follows_upd] | apply follows_ite | split)

end Sys2Proof.Machine
end

