-- ==== Sys2Proof/Laws/FollowsHandlers.lean ====
section
/-! SUPPORT. `Follows` is kept by the operations of Machine/Handlers.lean. -/

namespace Sys2Proof.Machine

theorem follows_handlerFault {s₀ : State} {s : State} {t n code : Nat} (h_s : Follows s₀ s) :
    Follows s₀ (handlerFault s t n code) := by
  unfold handlerFault
  try dsimp only
  with_reducible repeat' (first | assumption | apply follows_programFault | apply follows_setThread)

theorem follows_endThread {s₀ : State} {s : State} {t n : Nat} (h_s : Follows s₀ s) :
    Follows s₀ (endThread s t n) := by
  unfold endThread
  try dsimp only
  with_reducible repeat' (first | assumption | apply follows_setThread | apply follows_updBusy)

theorem follows_goTo {s₀ : State} {s : State} {t n : Nat} {h : Thread} {pc : Nat} (h_s : Follows s₀ s) :
    Follows s₀ (goTo s t n h pc) := by
  unfold goTo
  try dsimp only
  with_reducible repeat' (
    first | assumption | apply follows_progress | apply follows_setThread | apply follows_handlerFault | apply follows_endThread
          | simp only [follows_upd] | apply follows_ite)

theorem follows_next {s₀ : State} {s : State} {t n : Nat} {h : Thread} (h_s : Follows s₀ s) :
    Follows s₀ (next s t n h) := by
  unfold next
  try dsimp only
  with_reducible repeat' (first | assumption | apply follows_goTo)

theorem follows_onOp {s₀ : State} {s : State} {t n op : Nat} {f : State → Thread → Nat → State} (h_s : Follows s₀ s) (h_f : ∀ (x0 : State) (x1 : Thread) (x2 : Nat), Follows s₀ x0 → Follows s₀ (f x0 x1 x2)) :
    Follows s₀ (onOp s t n op f) := by
  unfold onOp
  try dsimp only
  with_reducible repeat' (first | assumption | apply h_f | simp only [follows_upd] | apply follows_ite | split)

theorem follows_startThread {s₀ : State} {s : State} {t n : Nat} {h : Thread} (h_s : Follows s₀ s) :
    Follows s₀ (startThread s t n h) := by
  unfold startThread
  try dsimp only
  with_reducible repeat' (first | assumption | apply follows_ctlCount | apply follows_setThread | apply follows_updBusy)

theorem follows_startNack {s₀ : State} {s : State} {n : Nat} {j : NackJob} (h_s : Follows s₀ s) :
    Follows s₀ (startNack s n j) := by
  unfold startNack
  try dsimp only
  with_reducible repeat' (first | assumption | apply follows_report | apply follows_startThread | simp only [follows_upd] | split)

theorem follows_dispatchEntry {s₀ : State} {s : State} {t n q c : Nat} {m : Msg} {e : Option (Nat × Nat × Nat)} (h_s : Follows s₀ s) :
    Follows s₀ (dispatchEntry s t n q c m e) := by
  unfold dispatchEntry
  try dsimp only
  with_reducible repeat' (
    first | assumption | apply follows_report | apply follows_qCount | apply follows_release | apply follows_startThread
          | simp only [follows_upd] | split)

theorem follows_dispatchHead {s₀ : State} {s : State} {t n q : Nat} {h : Option (Msg × State)} (h_s : Follows s₀ s) (h_h : ∀ v, h = some v → Follows s₀ v.2) :
    Follows s₀ (dispatchHead s t n q h) := by
  unfold dispatchHead
  split
  · exact follows_awaitHead h_s
  · exact follows_dispatchEntry (follows_wrF (h_h _ rfl))

theorem follows_dispatchQueue {s₀ : State} {s : State} {t n q : Nat} (h_s : Follows s₀ s) :
    Follows s₀ (dispatchQueue s t n q) :=
  follows_ite (follows_queueGuard h_s) (follows_dispatchHead h_s (fun _ e => follows_headMsg e h_s))

theorem follows_execHandlerDispatch {s₀ : State} {t : TileId} {s : State} (h_s : Follows s₀ s) :
    FollowsNext s₀ (execHandlerDispatch t s) := by
  unfold execHandlerDispatch
  try dsimp only
  apply followsNext
  with_reducible repeat' (first | assumption | intro _ | apply follows_startNack | apply follows_dispatchQueue | simp only [follows_upd] | split)

theorem follows_releaseP {s₀ : State} {s : State} {t : Nat} {h : Thread} (h_s : Follows s₀ s) :
    Follows s₀ (releaseP s t h) := by
  unfold releaseP
  try dsimp only
  with_reducible repeat' (first | assumption | apply follows_release | simp only [follows_upd] | apply follows_ite | split)

theorem follows_endOp {s₀ : State} {s : State} {t n : Nat} (h_s : Follows s₀ s) :
    Follows s₀ (endOp s t n) := by
  unfold endOp
  try dsimp only
  with_reducible repeat' (
    first | assumption | intro _ | apply follows_progress | apply follows_endThread | apply follows_onOp
          | apply follows_releaseP)

theorem follows_execEnd {s₀ : State} {t : TileId} {n : Fin 4} {s : State} (h_s : Follows s₀ s) :
    FollowsNext s₀ (execEnd t n s) := by
  unfold execEnd
  try dsimp only
  apply followsNext
  with_reducible repeat' (first | assumption | intro _ | apply follows_endOp)

theorem follows_aluOp {s₀ : State} {s : State} {t n op : Nat} {f : Thread → Nat → Nat} (h_s : Follows s₀ s) :
    Follows s₀ (aluOp s t n op f) := by
  unfold aluOp
  try dsimp only
  with_reducible repeat' (first | assumption | intro _ | apply follows_next | apply follows_onOp)

theorem follows_execLi {s₀ : State} {t : TileId} {n : Fin 4} {s : State} (h_s : Follows s₀ s) :
    FollowsNext s₀ (execLi t n s) := by
  unfold execLi
  try dsimp only
  apply followsNext
  with_reducible repeat' (first | assumption | intro _ | apply follows_aluOp)

theorem follows_execLui {s₀ : State} {t : TileId} {n : Fin 4} {s : State} (h_s : Follows s₀ s) :
    FollowsNext s₀ (execLui t n s) := by
  unfold execLui
  try dsimp only
  apply followsNext
  with_reducible repeat' (first | assumption | intro _ | apply follows_aluOp)

theorem follows_execAdd {s₀ : State} {t : TileId} {n : Fin 4} {s : State} (h_s : Follows s₀ s) :
    FollowsNext s₀ (execAdd t n s) := by
  unfold execAdd
  try dsimp only
  apply followsNext
  with_reducible repeat' (first | assumption | intro _ | apply follows_aluOp)

theorem follows_execSub {s₀ : State} {t : TileId} {n : Fin 4} {s : State} (h_s : Follows s₀ s) :
    FollowsNext s₀ (execSub t n s) := by
  unfold execSub
  try dsimp only
  apply followsNext
  with_reducible repeat' (first | assumption | intro _ | apply follows_aluOp)

theorem follows_execAnd {s₀ : State} {t : TileId} {n : Fin 4} {s : State} (h_s : Follows s₀ s) :
    FollowsNext s₀ (execAnd t n s) := by
  unfold execAnd
  try dsimp only
  apply followsNext
  with_reducible repeat' (first | assumption | intro _ | apply follows_aluOp)

theorem follows_execOr {s₀ : State} {t : TileId} {n : Fin 4} {s : State} (h_s : Follows s₀ s) :
    FollowsNext s₀ (execOr t n s) := by
  unfold execOr
  try dsimp only
  apply followsNext
  with_reducible repeat' (first | assumption | intro _ | apply follows_aluOp)

theorem follows_execXor {s₀ : State} {t : TileId} {n : Fin 4} {s : State} (h_s : Follows s₀ s) :
    FollowsNext s₀ (execXor t n s) := by
  unfold execXor
  try dsimp only
  apply followsNext
  with_reducible repeat' (first | assumption | intro _ | apply follows_aluOp)

theorem follows_execShli {s₀ : State} {t : TileId} {n : Fin 4} {s : State} (h_s : Follows s₀ s) :
    FollowsNext s₀ (execShli t n s) := by
  unfold execShli
  try dsimp only
  apply followsNext
  with_reducible repeat' (first | assumption | intro _ | apply follows_aluOp)

theorem follows_execShri {s₀ : State} {t : TileId} {n : Fin 4} {s : State} (h_s : Follows s₀ s) :
    FollowsNext s₀ (execShri t n s) := by
  unfold execShri
  try dsimp only
  apply followsNext
  with_reducible repeat' (first | assumption | intro _ | apply follows_aluOp)

theorem follows_execAddi {s₀ : State} {t : TileId} {n : Fin 4} {s : State} (h_s : Follows s₀ s) :
    FollowsNext s₀ (execAddi t n s) := by
  unfold execAddi
  try dsimp only
  apply followsNext
  with_reducible repeat' (first | assumption | intro _ | apply follows_aluOp)

theorem follows_execMul {s₀ : State} {t : TileId} {n : Fin 4} {s : State} (h_s : Follows s₀ s) :
    FollowsNext s₀ (execMul t n s) := by
  unfold execMul
  try dsimp only
  apply followsNext
  with_reducible repeat' (first | assumption | intro _ | apply follows_aluOp)

theorem follows_execStep {s₀ : State} {t : TileId} {n : Fin 4} {s : State} (h_s : Follows s₀ s) :
    FollowsNext s₀ (execStep t n s) := by
  unfold execStep
  try dsimp only
  apply followsNext
  with_reducible repeat' (first | assumption | intro _ | apply follows_aluOp)

theorem follows_execLdp {s₀ : State} {t : TileId} {n : Fin 4} {s : State} (h_s : Follows s₀ s) :
    FollowsNext s₀ (execLdp t n s) := by
  unfold execLdp
  try dsimp only
  apply followsNext
  with_reducible repeat' (
    first | assumption | intro _ | apply follows_handlerFault | apply follows_next | apply follows_onOp | apply follows_ite)

theorem follows_execSto {s₀ : State} {t : TileId} {n : Fin 4} {s : State} (h_s : Follows s₀ s) :
    FollowsNext s₀ (execSto t n s) := by
  unfold execSto
  try dsimp only
  apply followsNext
  with_reducible repeat' (
    first | assumption | intro _ | apply follows_handlerFault | apply follows_next | apply follows_onOp | apply follows_ite)

theorem follows_execMovpo {s₀ : State} {t : TileId} {n : Fin 4} {s : State} (h_s : Follows s₀ s) :
    FollowsNext s₀ (execMovpo t n s) := by
  unfold execMovpo
  try dsimp only
  apply followsNext
  with_reducible repeat' (
    first | assumption | intro _ | apply follows_handlerFault | apply follows_next | apply follows_onOp | apply follows_ite)

theorem follows_branchOp {s₀ : State} {s : State} {t n op : Nat} {taken : Nat → Nat → Bool} (h_s : Follows s₀ s) :
    Follows s₀ (branchOp s t n op taken) := by
  unfold branchOp
  try dsimp only
  with_reducible repeat' (
    first | assumption | intro _ | apply follows_handlerFault | apply follows_goTo | apply follows_next | apply follows_onOp
          | apply follows_ite)

theorem follows_execBeq {s₀ : State} {t : TileId} {n : Fin 4} {s : State} (h_s : Follows s₀ s) :
    FollowsNext s₀ (execBeq t n s) := by
  unfold execBeq
  try dsimp only
  apply followsNext
  with_reducible repeat' (first | assumption | intro _ | apply follows_branchOp)

theorem follows_execBne {s₀ : State} {t : TileId} {n : Fin 4} {s : State} (h_s : Follows s₀ s) :
    FollowsNext s₀ (execBne t n s) := by
  unfold execBne
  try dsimp only
  apply followsNext
  with_reducible repeat' (first | assumption | intro _ | apply follows_branchOp)

theorem follows_execBltu {s₀ : State} {t : TileId} {n : Fin 4} {s : State} (h_s : Follows s₀ s) :
    FollowsNext s₀ (execBltu t n s) := by
  unfold execBltu
  try dsimp only
  apply followsNext
  with_reducible repeat' (first | assumption | intro _ | apply follows_branchOp)

theorem follows_accessDone {s₀ : State} {s : State} {t n : Nat} {data : List (Option Byte)} (h_s : Follows s₀ s) :
    Follows s₀ (accessDone s t n data) := by
  unfold accessDone
  try dsimp only
  with_reducible repeat' (first | assumption | intro _ | apply follows_next | simp only [follows_upd] | apply follows_ite | split)

theorem follows_padOp {s₀ : State} {s : State} {t n op : Nat} (h_s : Follows s₀ s) :
    Follows s₀ (padOp s t n op) := by
  unfold padOp
  try dsimp only
  with_reducible repeat' (
    first | assumption | intro _ | apply follows_handlerFault | apply follows_onOp | apply follows_accessDone
          | apply follows_setThread | apply follows_accessFailed | apply follows_access
          | simp only [follows_upd] | apply follows_ite | split)

theorem follows_execLd {s₀ : State} {t : TileId} {n : Fin 4} {s : State} (h_s : Follows s₀ s) :
    FollowsNext s₀ (execLd t n s) := by
  unfold execLd
  try dsimp only
  apply followsNext
  with_reducible repeat' (first | assumption | apply follows_padOp)

theorem follows_execSt {s₀ : State} {t : TileId} {n : Fin 4} {s : State} (h_s : Follows s₀ s) :
    FollowsNext s₀ (execSt t n s) := by
  unfold execSt
  try dsimp only
  apply followsNext
  with_reducible repeat' (first | assumption | apply follows_padOp)

theorem follows_execAadd {s₀ : State} {t : TileId} {n : Fin 4} {s : State} (h_s : Follows s₀ s) :
    FollowsNext s₀ (execAadd t n s) := by
  unfold execAadd
  try dsimp only
  apply followsNext
  with_reducible repeat' (first | assumption | apply follows_padOp)

theorem follows_execCas {s₀ : State} {t : TileId} {n : Fin 4} {s : State} (h_s : Follows s₀ s) :
    FollowsNext s₀ (execCas t n s) := by
  unfold execCas
  try dsimp only
  apply followsNext
  with_reducible repeat' (first | assumption | apply follows_padOp)

theorem follows_execFill {s₀ : State} {t : TileId} {n : Fin 4} {s : State} (h_s : Follows s₀ s) :
    FollowsNext s₀ (execFill t n s) := by
  unfold execFill
  try dsimp only
  apply followsNext
  with_reducible repeat' (first | assumption | apply follows_padOp)

theorem follows_execTake {s₀ : State} {t : TileId} {n : Fin 4} {s : State} (h_s : Follows s₀ s) :
    FollowsNext s₀ (execTake t n s) := by
  unfold execTake
  try dsimp only
  apply followsNext
  with_reducible repeat' (first | assumption | apply follows_padOp)

theorem follows_execPeek {s₀ : State} {t : TileId} {n : Fin 4} {s : State} (h_s : Follows s₀ s) :
    FollowsNext s₀ (execPeek t n s) := by
  unfold execPeek
  try dsimp only
  apply followsNext
  with_reducible repeat' (first | assumption | apply follows_padOp)

theorem follows_execClrt {s₀ : State} {t : TileId} {n : Fin 4} {s : State} (h_s : Follows s₀ s) :
    FollowsNext s₀ (execClrt t n s) := by
  unfold execClrt
  try dsimp only
  apply followsNext
  with_reducible repeat' (first | assumption | apply follows_padOp)

theorem follows_handlerSend {s₀ : State} {s : State} {t n : Nat} {h : Thread} {dst handler vc len : Nat} (h_s : Follows s₀ s) :
    Follows s₀ (handlerSend s t n h dst handler vc len) := by
  unfold handlerSend
  try dsimp only
  with_reducible repeat' (
    first | assumption | apply follows_trySend | apply follows_handlerFault | apply follows_next | simp only [follows_upd]
          | apply follows_ite | split)

theorem follows_execSend {s₀ : State} {t : TileId} {n : Fin 4} {s : State} (h_s : Follows s₀ s) :
    FollowsNext s₀ (execSend t n s) := by
  unfold execSend
  try dsimp only
  apply followsNext
  with_reducible repeat' (
    first | assumption | intro _ | apply follows_handlerFault | apply follows_onOp | apply follows_handlerSend
          | apply follows_ite)

theorem follows_execReply {s₀ : State} {t : TileId} {n : Fin 4} {s : State} (h_s : Follows s₀ s) :
    FollowsNext s₀ (execReply t n s) := by
  unfold execReply
  try dsimp only
  apply followsNext
  with_reducible repeat' (first | assumption | intro _ | apply follows_onOp | apply follows_handlerSend)

theorem follows_execGrant {s₀ : State} {t : TileId} {n : Fin 4} {s : State} (h_s : Follows s₀ s) :
    FollowsNext s₀ (execGrant t n s) := by
  unfold execGrant
  try dsimp only
  apply followsNext
  with_reducible repeat' (first | assumption | intro _ | apply follows_grant | apply follows_next | apply follows_onOp)

theorem follows_takeMessage {s₀ : State} {s : State} {t n q : Nat} (h_s : Follows s₀ s) :
    Follows s₀ (takeMessage s t n q) := by
  unfold takeMessage
  try dsimp only
  with_reducible repeat' (
    first | assumption | intro _ | apply follows_next | exact follows_headMsg ‹_› ‹_›
          | refine follows_headMsg ‹_› ?_ | apply follows_endRead | apply follows_awaitHead
          | apply follows_beginRead | simp only [follows_upd] | apply follows_ite | split)

theorem follows_getOp {s₀ : State} {s : State} {t n : Nat} (h_s : Follows s₀ s) :
    Follows s₀ (getOp s t n) := by
  unfold getOp
  try dsimp only
  with_reducible repeat' (
    first | assumption | intro _ | apply follows_handlerFault | apply follows_onOp | apply follows_releaseP
          | apply follows_takeMessage | apply follows_setThread | simp only [follows_upd] | apply follows_ite)

theorem follows_execGet {s₀ : State} {t : TileId} {n : Fin 4} {s : State} (h_s : Follows s₀ s) :
    FollowsNext s₀ (execGet t n s) := by
  unfold execGet
  try dsimp only
  apply followsNext
  with_reducible repeat' (first | assumption | intro _ | apply follows_getOp)

theorem follows_execMessageAvailable {s₀ : State} {t : TileId} {q : QueueId} {s : State} (h_s : Follows s₀ s) :
    FollowsNext s₀ (execMessageAvailable t q s) := by
  unfold execMessageAvailable
  try dsimp only
  apply followsNext
  with_reducible repeat' (
    first | assumption | intro _ | apply follows_endRead | apply follows_takeMessage | simp only [follows_upd]
          | apply follows_ite | split)

theorem follows_execFence {s₀ : State} {t : TileId} {n : Fin 4} {s : State} (h_s : Follows s₀ s) :
    FollowsNext s₀ (execFence t n s) := by
  unfold execFence
  try dsimp only
  apply followsNext
  with_reducible repeat' (first | assumption | intro _ | apply follows_next | apply follows_onOp | apply follows_ite)

end Sys2Proof.Machine
end

