-- ==== Sys2Proof/Laws/FollowsEngine.lean ====
section
/-! SUPPORT. `Follows` is kept by the operations of Machine/Engine.lean. -/

namespace Sys2Proof.Machine

theorem follows_setAct {s₀ : State} {s : State} {t : Nat} {a : Act} (h_s : Follows s₀ s) :
    Follows s₀ (setAct s t a) := by
  unfold setAct
  try dsimp only
  with_reducible repeat' (first | assumption | intro _ | simp only [follows_upd])

theorem follows_countSteps {s₀ : State} {s : State} {t off n : Nat} (h_s : Follows s₀ s) :
    Follows s₀ (countSteps s t off n) := by
  unfold countSteps
  try dsimp only
  with_reducible repeat' (first | assumption | apply follows_incWrap)

theorem follows_busySteps {s₀ : State} {s : State} {t n : Nat} (h_s : Follows s₀ s) :
    Follows s₀ (busySteps s t n) := by
  unfold busySteps
  try dsimp only
  with_reducible repeat' (first | assumption | apply follows_countSteps)

theorem follows_engReads {s₀ : State} {t : Nat} {y0 : List SpAcc} {y1 : State} (h_y1 : Follows s₀ y1) :
    Follows s₀ (engReads t y0 y1).2 := by
  induction y0 generalizing y1 with
  | nil => exact h_y1
  | cons x l ih =>
    unfold engReads
    try dsimp only
    with_reducible repeat' (
      first | assumption | (apply ih) | intro _ | apply follows_setAct | apply follows_access
            | simp only [follows_upd] | apply follows_ite | split)

theorem follows_setAccEntry {s₀ : State} {s : State} {t i : Nat} {e : AccEntry} (h_s : Follows s₀ s) :
    Follows s₀ (setAccEntry s t i e) := by
  unfold setAccEntry
  try dsimp only
  with_reducible repeat' (first | assumption | intro _ | simp only [follows_upd])

theorem follows_raisedRecords {s₀ : State} {s : State} {t : Nat} {a : Act} (h_s : Follows s₀ s) :
    Follows s₀ (raisedRecords s t a) := by
  unfold raisedRecords
  try dsimp only
  with_reducible repeat' (
    first | assumption | intro _ | apply follows_each | apply follows_arithRecords)

theorem follows_abandonAct {s₀ : State} {s : State} {t : Nat} (h_s : Follows s₀ s) :
    Follows s₀ (abandonAct s t) := by
  unfold abandonAct
  try dsimp only
  with_reducible repeat' (
    first | assumption | intro _ | apply follows_each | apply follows_setAct | apply follows_setAccEntry
          | apply follows_raisedRecords | apply follows_wrF | simp only [follows_upd])

theorem follows_engFault {s₀ : State} {s : State} {t : Nat} (h_s : Follows s₀ s) :
    Follows s₀ (engFault s t) := by
  unfold engFault
  try dsimp only
  with_reducible repeat' (
    first | assumption | intro _ | apply follows_faultStop | apply follows_abandonAct)

theorem follows_engSteps {s₀ : State} {t : Nat} {ranges : Nat → List (Nat × Nat)} {effect : State → Act → State} {y0 : Nat} {y1 : State} (h_effect : ∀ (x0 : State) (x1 : Act), Follows s₀ x0 → Follows s₀ (effect x0 x1)) (h_y1 : Follows s₀ y1) :
    Follows s₀ (engSteps t ranges effect y0 y1).2 := by
  induction y0 generalizing y1 with
  | zero => exact h_y1
  | succ n ih =>
    unfold engSteps
    try dsimp only
    with_reducible repeat' (
      first | assumption | (apply ih) | apply h_effect | intro _ | apply follows_setAct
            | apply follows_engReads | apply follows_engFault | simp only [follows_upd]
            | apply follows_ite | split)

theorem follows_runSteps {s₀ : State} {s : State} {t n : Nat} {ranges : Nat → List (Nat × Nat)} {effect : State → Act → State} {finish : State → State} (h_s : Follows s₀ s) (h_effect : ∀ (x0 : State) (x1 : Act), Follows s₀ x0 → Follows s₀ (effect x0 x1)) (h_finish : ∀ (x0 : State), Follows s₀ x0 → Follows s₀ (finish x0)) :
    Follows s₀ (runSteps s t n ranges effect finish) := by
  unfold runSteps
  try dsimp only
  with_reducible repeat' (
    first | assumption | apply h_effect | apply h_finish | intro _ | apply follows_engSteps
          | simp only [follows_upd] | apply follows_ite)

theorem follows_actDeliver {s₀ : State} {s : State} {x : SpAcc} {t : Nat} {data : List (Option Byte)} (h_s : Follows s₀ s) :
    Follows s₀ (actDeliver s x t data) := by
  unfold actDeliver
  try dsimp only
  with_reducible repeat' (first | assumption | intro _ | apply follows_setAct | simp only [follows_upd] | apply follows_ite)

theorem follows_owe {s₀ : State} {s : State} {t c : Nat} {l : List Chk} (h_s : Follows s₀ s) :
    Follows s₀ (owe s t c l) := by
  unfold owe
  try dsimp only
  with_reducible repeat' (first | assumption | intro _ | apply follows_inject | simp only [follows_upd] | apply follows_ite)

theorem follows_mismatch {s₀ : State} {s : State} {t c index : Nat} {m : Miss} (h_s : Follows s₀ s) :
    Follows s₀ (mismatch s t c index m) := by
  unfold mismatch
  try dsimp only
  with_reducible repeat' (
    first | assumption | intro _ | apply follows_clearClean | apply follows_setArith | apply follows_wr
          | apply follows_report | apply follows_incSat | simp only [follows_upd] | apply follows_ite)

theorem follows_checkOne {s₀ : State} {s : State} {t c first : Nat} {inj : Bool} {flaws : List Flaw} {x : Chk × Nat} (h_s : Follows s₀ s) :
    Follows s₀ (checkOne s t c first inj flaws x) := by
  unfold checkOne
  try dsimp only
  with_reducible repeat' (
    first | assumption | intro _ | apply follows_each | apply follows_mismatch | apply follows_arithRecords)

theorem follows_scrupleCheck {s₀ : State} {s : State} {t : Nat} {flaws : List Flaw} (h_s : Follows s₀ s) :
    Follows s₀ (scrupleCheck s t flaws) := by
  unfold scrupleCheck
  try dsimp only
  with_reducible repeat' (
    first | assumption | intro _ | apply follows_each | apply follows_checkOne | apply follows_wrB
          | apply follows_incWrap | simp only [follows_upd] | apply follows_ite | split)

theorem follows_sendRow {s₀ : State} {s : State} {t : Nat} {a : Act} {ep outCfg : Nat} {row : List Byte} (h_s : Follows s₀ s) :
    Follows s₀ (sendRow s t a ep outCfg row) := by
  unfold sendRow
  try dsimp only
  with_reducible repeat' (first | assumption | intro _ | apply follows_each | apply follows_trySend)

theorem follows_sendPartial {s₀ : State} {s : State} {t : Nat} {r : Red} (h_s : Follows s₀ s) :
    Follows s₀ (sendPartial s t r) := by
  unfold sendPartial
  try dsimp only
  with_reducible repeat' (
    first | assumption | intro _ | apply follows_inject | apply follows_noteContrib)

end Sys2Proof.Machine
end

