-- ==== Sys2Proof/Laws/FollowsVector.lean ====
section
/-! SUPPORT. `Follows` is kept by the operations of Machine/Vector.lean. -/

namespace Sys2Proof.Machine

theorem follows_checkedRow {s₀ s : State} {bs : List Byte} (h_s : Follows s₀ s) : Follows s₀ (checkedRow s bs).2 :=
  follows_drawn h_s

theorem follows_endRows {s₀ : State} {s : State} {t c : Nat} {chks : List Chk} (h_s : Follows s₀ s) :
    Follows s₀ (endRows s t c chks) := by
  unfold endRows
  try dsimp only
  with_reducible repeat' (
    first | assumption | intro _ | apply follows_progress | apply follows_setAct | apply follows_owe)

theorem follows_runRows {s₀ : State} {s : State} {t : Nat} {a : Act} {r : VRec} {steps : Nat} {f : State → Nat → List Byte → List Byte → RowRes} (h_s : Follows s₀ s) (h_f : ∀ (x0 : State) (x1 : Nat) (x2 : List Byte) (x3 : List Byte), Follows s₀ x0 → Follows s₀ (f x0 x1 x2 x3).2) :
    Follows s₀ (runRows s t a r steps f) := by
  unfold runRows
  extract_lets outCfg q
  have hq : Follows s₀ q.2 :=
    follows_foldl2 (fun _ _ h => follows_sendRow (h_f _ _ _ _ h)) (follows_busySteps h_s)
  exact follows_endRows hq

theorem follows_vOp {s₀ : State} {t op : Nat} {s : State} {f : State → Act → VRec → State} (h_s : Follows s₀ s) (h_f : ∀ (x0 : State) (x1 : Act) (x2 : VRec), Follows s₀ x0 → Follows s₀ (f x0 x1 x2)) :
    Follows s₀ (vOp t op s f) := by
  unfold vOp
  try dsimp only
  with_reducible repeat' (first | assumption | apply h_f | simp only [follows_upd] | split)

theorem follows_elementRow {s₀ : State} {op : Nat} {r : VRec} {f : RMode → Fl → Fl → Fl} {s : State} {ra rb : List Byte} (h_s : Follows s₀ s) :
    Follows s₀ (elementRow op r f s ra rb).2 := by
  unfold elementRow
  extract_lets va vb bs
  split
  · exact follows_checkedRow h_s
  · exact h_s

theorem follows_elementwise {s₀ : State} {t op : Nat} {s : State} {f : RMode → Fl → Fl → Fl} (h_s : Follows s₀ s) :
    Follows s₀ (elementwise t op s f) := by
  unfold elementwise
  try dsimp only
  with_reducible repeat' (
    first | assumption | intro _ | apply follows_runRows | apply follows_elementRow | apply follows_rsumRow | apply follows_checkedRow | apply follows_topkNan | apply follows_vOp)

theorem follows_execVNop {s₀ : State} {t : TileId} {s : State} (h_s : Follows s₀ s) :
    FollowsNext s₀ (execVNop t s) := by
  unfold execVNop
  try dsimp only
  apply followsNext
  with_reducible repeat' (
    first | assumption | intro _ | apply follows_progress | apply follows_setAct | apply follows_vOp)

theorem follows_execVAdd {s₀ : State} {t : TileId} {s : State} (h_s : Follows s₀ s) :
    FollowsNext s₀ (execVAdd t s) := by
  unfold execVAdd
  try dsimp only
  apply followsNext
  with_reducible repeat' (first | assumption | intro _ | apply follows_elementwise)

theorem follows_execVSub {s₀ : State} {t : TileId} {s : State} (h_s : Follows s₀ s) :
    FollowsNext s₀ (execVSub t s) := by
  unfold execVSub
  try dsimp only
  apply followsNext
  with_reducible repeat' (first | assumption | intro _ | apply follows_elementwise)

theorem follows_execVMul {s₀ : State} {t : TileId} {s : State} (h_s : Follows s₀ s) :
    FollowsNext s₀ (execVMul t s) := by
  unfold execVMul
  try dsimp only
  apply followsNext
  with_reducible repeat' (first | assumption | intro _ | apply follows_elementwise)

theorem follows_execVMax {s₀ : State} {t : TileId} {s : State} (h_s : Follows s₀ s) :
    FollowsNext s₀ (execVMax t s) := by
  unfold execVMax
  try dsimp only
  apply followsNext
  with_reducible repeat' (first | assumption | intro _ | apply follows_elementwise)

theorem follows_execVMin {s₀ : State} {t : TileId} {s : State} (h_s : Follows s₀ s) :
    FollowsNext s₀ (execVMin t s) := by
  unfold execVMin
  try dsimp only
  apply followsNext
  with_reducible repeat' (first | assumption | intro _ | apply follows_elementwise)

theorem follows_execVAbs {s₀ : State} {t : TileId} {s : State} (h_s : Follows s₀ s) :
    FollowsNext s₀ (execVAbs t s) := by
  unfold execVAbs
  try dsimp only
  apply followsNext
  with_reducible repeat' (first | assumption | intro _ | apply follows_elementwise)

theorem follows_execVNeg {s₀ : State} {t : TileId} {s : State} (h_s : Follows s₀ s) :
    FollowsNext s₀ (execVNeg t s) := by
  unfold execVNeg
  try dsimp only
  apply followsNext
  with_reducible repeat' (first | assumption | intro _ | apply follows_elementwise)

theorem follows_nanBlocks {s₀ : State} {s : State} {t c n : Nat} (h_s : Follows s₀ s) :
    Follows s₀ (nanBlocks s t c n) := by
  unfold nanBlocks
  try dsimp only
  with_reducible repeat' (first | assumption | intro _ | apply follows_each | apply follows_scaleNan)

theorem follows_cvtOne {s₀ : State} {s : State} {t c : Nat} {r : VRec} {v : Fl} (h_s : Follows s₀ s) :
    Follows s₀ (cvtOne s t c r v).2 := by
  unfold cvtOne
  try dsimp only
  with_reducible repeat' (
    first | assumption | intro _ | apply follows_arithRecords | apply follows_arithEvents
          | apply follows_satResult | simp only [follows_upd] | apply follows_ite | split)

theorem follows_cvtFws {s₀ : State} {s : State} {t c : Nat} {r : VRec} {f : Fws} (h_s : Follows s₀ s) :
    Follows s₀ (cvtFws s t c r f).2 := by
  unfold cvtFws
  try dsimp only
  with_reducible repeat' (
    first | assumption | intro _ | apply follows_arithRecords | apply follows_arithEvents
          | apply follows_satResult | simp only [follows_upd] | apply follows_ite | split)

theorem follows_cvtAll {s₀ : State} {α : Type} {f : State → α → Nat × State} {s : State} {l : List α} (h_f : ∀ (x0 : State) (x1 : α), Follows s₀ x0 → Follows s₀ (f x0 x1).2) (h_s : Follows s₀ s) :
    Follows s₀ (cvtAll f s l).2 := by
  unfold cvtAll
  try dsimp only
  with_reducible repeat' (
    first | assumption | intro _ | apply h_f | apply follows_foldl | apply follows_foldl2)

theorem follows_execCvt {s₀ : State} {t : TileId} {s : State} (h_s : Follows s₀ s) :
    FollowsNext s₀ (execCvt t s) := by
  unfold execCvt
  try dsimp only
  apply followsNext
  with_reducible repeat' (
    first | assumption | intro _ | apply follows_runRows | apply follows_elementRow | apply follows_rsumRow | apply follows_checkedRow | apply follows_topkNan | apply follows_vOp | apply follows_nanBlocks
          | apply follows_cvtOne | apply follows_cvtFws | apply follows_cvtAll | simp only [follows_upd]
          | apply follows_ite | split)

theorem follows_execQuant {s₀ : State} {t : TileId} {s : State} (h_s : Follows s₀ s) :
    FollowsNext s₀ (execQuant t s) := by
  unfold execQuant
  try dsimp only
  apply followsNext
  with_reducible repeat' (
    first | assumption | intro _ | apply follows_foldl | apply follows_foldl2 | apply follows_foldl1
          | apply follows_satEvents | apply follows_runRows | apply follows_elementRow | apply follows_rsumRow | apply follows_checkedRow | apply follows_topkNan | apply follows_vOp)

theorem follows_special {s₀ : State} {t op : Nat} {s : State} {f : Fl → Nat} (h_s : Follows s₀ s) :
    Follows s₀ (special t op s f) := by
  unfold special
  try dsimp only
  with_reducible repeat' (
    first | assumption | intro _ | apply follows_countSteps | apply follows_runRows | apply follows_elementRow | apply follows_rsumRow | apply follows_checkedRow | apply follows_topkNan | apply follows_vOp)

theorem follows_execExp2 {s₀ : State} {t : TileId} {s : State} (h_s : Follows s₀ s) :
    FollowsNext s₀ (execExp2 t s) := by
  unfold execExp2
  try dsimp only
  apply followsNext
  with_reducible repeat' (first | assumption | apply follows_special)

theorem follows_execLog2 {s₀ : State} {t : TileId} {s : State} (h_s : Follows s₀ s) :
    FollowsNext s₀ (execLog2 t s) := by
  unfold execLog2
  try dsimp only
  apply followsNext
  with_reducible repeat' (first | assumption | apply follows_special)

theorem follows_execRcp {s₀ : State} {t : TileId} {s : State} (h_s : Follows s₀ s) :
    FollowsNext s₀ (execRcp t s) := by
  unfold execRcp
  try dsimp only
  apply followsNext
  with_reducible repeat' (first | assumption | apply follows_special)

theorem follows_execRsqrt {s₀ : State} {t : TileId} {s : State} (h_s : Follows s₀ s) :
    FollowsNext s₀ (execRsqrt t s) := by
  unfold execRsqrt
  try dsimp only
  apply followsNext
  with_reducible repeat' (first | assumption | apply follows_special)

theorem follows_execTanh {s₀ : State} {t : TileId} {s : State} (h_s : Follows s₀ s) :
    FollowsNext s₀ (execTanh t s) := by
  unfold execTanh
  try dsimp only
  apply followsNext
  with_reducible repeat' (first | assumption | apply follows_special)

theorem follows_execLogistic {s₀ : State} {t : TileId} {s : State} (h_s : Follows s₀ s) :
    FollowsNext s₀ (execLogistic t s) := by
  unfold execLogistic
  try dsimp only
  apply followsNext
  with_reducible repeat' (first | assumption | apply follows_special)

theorem follows_rsumRow {s₀ : State} {s : State} {t : Nat} {r : VRec} {vs : List Fl} (h_s : Follows s₀ s) :
    Follows s₀ (rsumRow s t r vs).2 := by
  unfold rsumRow
  split
  · exact follows_checkedRow h_s
  · exact follows_satResult (follows_raiseArith h_s)

theorem follows_rsumPartial {s₀ : State} {s : State} {t : Nat} {a : Act} {r : VRec} (h_s : Follows s₀ s) :
    Follows s₀ (rsumPartial s t a r) := by
  unfold rsumPartial
  try dsimp only
  with_reducible repeat' (
    first | assumption | intro _ | apply follows_each | apply follows_sendPartial | apply follows_raiseArith
          | apply follows_drawnMany | apply follows_endRows | simp only [follows_upd] | apply follows_ite)

theorem follows_execRsum {s₀ : State} {t : TileId} {s : State} (h_s : Follows s₀ s) :
    FollowsNext s₀ (execRsum t s) := by
  unfold execRsum
  try dsimp only
  apply followsNext
  with_reducible repeat' (
    first | assumption | intro _ | apply follows_busySteps | apply follows_runRows | apply follows_elementRow | apply follows_rsumRow | apply follows_checkedRow | apply follows_topkNan | apply follows_vOp
          | apply follows_rsumPartial | simp only [follows_upd] | apply follows_ite)

theorem follows_reduceRow {s₀ : State} {t op : Nat} {s : State} {f : Fl → Fl → Fl} (h_s : Follows s₀ s) :
    Follows s₀ (reduceRow t op s f) := by
  unfold reduceRow
  try dsimp only
  with_reducible repeat' (
    first | assumption | intro _ | apply follows_foldl | apply follows_foldl2 | apply follows_foldl1
          | apply follows_runRows | apply follows_elementRow | apply follows_rsumRow | apply follows_checkedRow | apply follows_topkNan | apply follows_vOp | simp only [follows_upd] | apply follows_ite | split)

theorem follows_execRmax {s₀ : State} {t : TileId} {s : State} (h_s : Follows s₀ s) :
    FollowsNext s₀ (execRmax t s) := by
  unfold execRmax
  try dsimp only
  apply followsNext
  with_reducible repeat' (first | assumption | apply follows_reduceRow)

theorem follows_execRmin {s₀ : State} {t : TileId} {s : State} (h_s : Follows s₀ s) :
    FollowsNext s₀ (execRmin t s) := by
  unfold execRmin
  try dsimp only
  apply followsNext
  with_reducible repeat' (first | assumption | apply follows_reduceRow)

theorem follows_execRargmax {s₀ : State} {t : TileId} {s : State} (h_s : Follows s₀ s) :
    FollowsNext s₀ (execRargmax t s) := by
  unfold execRargmax
  try dsimp only
  apply followsNext
  with_reducible repeat' (
    first | assumption | intro _ | apply follows_runRows | apply follows_elementRow | apply follows_rsumRow | apply follows_checkedRow | apply follows_topkNan | apply follows_vOp)

theorem follows_topkNan {s₀ : State} {s : State} {t c n : Nat} (h_s : Follows s₀ s) :
    Follows s₀ (topkNan s t c n) := by
  unfold topkNan
  try dsimp only
  with_reducible repeat' (first | assumption | apply follows_report | apply follows_countSteps | apply follows_ite)

theorem follows_execTopk {s₀ : State} {t : TileId} {s : State} (h_s : Follows s₀ s) :
    FollowsNext s₀ (execTopk t s) := by
  unfold execTopk
  try dsimp only
  apply followsNext
  with_reducible repeat' (
    first | assumption | intro _ | apply follows_drawn | apply follows_runRows | apply follows_elementRow | apply follows_rsumRow | apply follows_checkedRow | apply follows_topkNan | apply follows_vOp)

theorem follows_fallback {s₀ : State} {s : State} {t c code : Nat} (h_s : Follows s₀ s) :
    Follows s₀ (fallback s t c code) := by
  unfold fallback
  try dsimp only
  with_reducible repeat' (first | assumption | apply follows_report)

theorem follows_sampleRow {s₀ : State} {s : State} {t : Nat} {a : Act} {r : VRec} {n : Nat} {par : List Byte} (h_s : Follows s₀ s) :
    Follows s₀ (sampleRow s t a r n par).2 := by
  unfold sampleRow
  try dsimp only
  with_reducible repeat' (
    first | assumption | intro _ | apply follows_countSteps | apply follows_raiseArith | apply follows_drawn
          | apply follows_checkedRow | apply follows_fallback | simp only [follows_upd] | apply follows_ite
          | split)

theorem follows_sampleStep {s₀ : State} {t : Nat} {r : VRec} {s : State} {a : Act} (h_s : Follows s₀ s) :
    Follows s₀ (sampleStep t r s a) := by
  unfold sampleStep
  try dsimp only
  with_reducible repeat' (
    first | assumption | intro _ | apply follows_busySteps | apply follows_owe | apply follows_sendRow
          | apply follows_sampleRow)

theorem follows_execSample {s₀ : State} {t : TileId} {s : State} (h_s : Follows s₀ s) :
    FollowsNext s₀ (execSample t s) := by
  unfold execSample
  try dsimp only
  apply followsNext
  with_reducible repeat' (
    first | assumption | intro _ | apply follows_runSteps | apply follows_endRows | apply follows_vOp
          | apply follows_sampleStep)

end Sys2Proof.Machine
end

