-- ==== Sys2Proof/Laws/FollowsDma.lean ====
section
/-! SUPPORT. `Follows` is kept by the operations of Machine/Dma.lean. -/

namespace Sys2Proof.Machine

theorem follows_dmaCount {s₀ : State} {s : State} {t k n : Nat} (h_s : Follows s₀ s) :
    Follows s₀ (dmaCount s t k n) := by
  unfold dmaCount
  try dsimp only
  with_reducible repeat' (first | assumption | apply follows_incWrap)

theorem follows_dmaCounted {s₀ : State} {s : State} {t : Nat} {x : SpAcc} (h_s : Follows s₀ s) :
    Follows s₀ (dmaCounted s t x) := by
  unfold dmaCounted
  try dsimp only
  with_reducible repeat' (first | assumption | intro _ | apply follows_dmaCount | simp only [follows_upd] | apply follows_ite | split)

theorem follows_dmaPad {s₀ : State} {s : State} {t ch c addr len : Nat} {op : SpOp} {data : List (Option Byte)} {keep : Nat × Nat} (h_s : Follows s₀ s) :
    Follows s₀ (dmaPad s t ch c addr len op data keep).2 := by
  unfold dmaPad
  try dsimp only
  with_reducible repeat' (
    first | assumption | intro _ | apply follows_dmaCounted | apply follows_setChan | apply follows_access
          | simp only [follows_upd] | apply follows_ite | split)

theorem follows_dmaGwDone {s₀ : State} {t c len : Nat} {keep : Nat × Nat} {write : Bool} {r : GwRes × State} (h_r : Follows s₀ r.2) :
    Follows s₀ (dmaGwDone t c len keep write r).2 := by
  unfold dmaGwDone
  try dsimp only
  with_reducible repeat' (
    first | assumption | intro _ | apply follows_clearClean | apply follows_dmaCount | simp only [follows_upd]
          | apply follows_ite | split)

theorem follows_gwWrite {s₀ : State} {s : State} {w a : Nat} {data : List (Option Byte)} (h_s : Follows s₀ s) :
    Follows s₀ (gwWrite s w a data).2 := by
  unfold gwWrite
  try dsimp only
  with_reducible repeat' (
    first | assumption | intro _ | apply follows_gwAccess | apply follows_gwSettled | apply follows_gwWaits
          | simp only [follows_upd] | apply follows_ite)

theorem follows_dmaLineDone {s₀ : State} {t c : Nat} {r : List (Option Byte) × State} (h_r : Follows s₀ r.2) :
    Follows s₀ (dmaLineDone t c r).2 := by
  unfold dmaLineDone
  try dsimp only
  with_reducible repeat' (first | assumption | intro _ | apply follows_clearClean | apply follows_ite)

theorem follows_dmaReadIn {s₀ : State} {s : State} {t ch c addr len o : Nat} {g : Region} (h_s : Follows s₀ s) :
    Follows s₀ (dmaReadIn s t ch c addr len o g).2 := by
  unfold dmaReadIn
  try dsimp only
  with_reducible repeat' (
    first | assumption | intro _ | apply follows_settle | apply follows_dmaCount | apply follows_dmaPad
          | apply follows_dmaGwDone | apply follows_dmaLineDone | apply follows_dramRead
          | apply follows_gwAccess | simp only [follows_upd] | apply follows_ite | split)

theorem follows_dmaRead {s₀ : State} {s : State} {t ch c addr len : Nat} {o : Nat} (h_s : Follows s₀ s) :
    Follows s₀ (dmaRead s t ch c addr len o).2 := by
  unfold dmaRead
  try dsimp only
  with_reducible repeat' (first | assumption | intro _ | apply follows_dmaReadIn)

theorem follows_dmaLineWrite {s₀ : State} {s : State} {t ch c addr : Nat} {data : List (Option Byte)} {keep : Nat × Nat} (h_s : Follows s₀ s) :
    Follows s₀ (dmaLineWrite s t ch c addr data keep).2 := by
  unfold dmaLineWrite
  try dsimp only
  with_reducible repeat' (
    first | assumption | intro _ | apply follows_clearClean | apply follows_dmaCount | apply follows_dramRead
          | apply follows_discardDram | apply follows_memWrite | apply follows_setChan
          | simp only [follows_upd] | apply follows_ite | split)

theorem follows_dmaWriteIn {s₀ : State} {s : State} {t ch c addr : Nat} {data : List (Option Byte)} {keep : Nat × Nat} {g : Region} (h_s : Follows s₀ s) :
    Follows s₀ (dmaWriteIn s t ch c addr data keep g).2 := by
  unfold dmaWriteIn
  try dsimp only
  with_reducible repeat' (
    first | assumption | intro _ | apply follows_settle | apply follows_dmaPad | apply follows_dmaGwDone
          | apply follows_gwWrite | apply follows_dmaLineWrite | simp only [follows_upd] | apply follows_ite
          | split)

theorem follows_dmaWrite {s₀ : State} {s : State} {t ch c addr : Nat} {data : List (Option Byte)} {keep : Nat × Nat} (h_s : Follows s₀ s) :
    Follows s₀ (dmaWrite s t ch c addr data keep).2 := by
  unfold dmaWrite
  try dsimp only
  with_reducible repeat' (first | assumption | intro _ | apply follows_dmaWriteIn)

theorem follows_dmaThen {s₀ : State} {s : State} {t ch k : Nat} {op : State → DmaRes × State} {rest : State → List (Option Byte) → DmaRes × State} (h_s : Follows s₀ s) (h_op : ∀ (x0 : State), Follows s₀ x0 → Follows s₀ (op x0).2) (h_rest : ∀ (x0 : State) (x1 : List (Option Byte)), Follows s₀ x0 → Follows s₀ (rest x0 x1).2) :
    Follows s₀ (dmaThen s t ch k op rest).2 := by
  unfold dmaThen
  try dsimp only
  with_reducible repeat' (first | assumption | apply h_op | apply h_rest | apply follows_setChan | simp only [follows_upd] | split)

theorem follows_dmaConvert {s₀ : State} {s : State} {t c : Nat} {d : DRec} {v scale : Nat} (h_s : Follows s₀ s) :
    Follows s₀ (dmaConvert s t c d v scale).2 := by
  unfold dmaConvert
  try dsimp only
  with_reducible repeat' (
    first | assumption | intro _ | apply follows_cvtOne | apply follows_cvtFws | simp only [follows_upd]
          | apply follows_ite | split)

theorem follows_storeBits {s₀ : State} {s : State} {t ch c k : Nat} {p : Nat × Nat} {bits v : Nat} (h_s : Follows s₀ s) :
    Follows s₀ (storeBits s t ch c k p bits v).2 := by
  unfold storeBits
  try dsimp only
  with_reducible repeat' (
    first | assumption | intro _ | apply follows_dmaWrite | apply follows_dmaThen)

theorem follows_withScale {s₀ : State} {s : State} {t ch c k : Nat} {d : DRec} {e : Nat} {rest : State → Option Nat → DmaRes × State} (h_s : Follows s₀ s) (h_rest : ∀ (x0 : State) (x1 : Option Nat), Follows s₀ x0 → Follows s₀ (rest x0 x1).2) :
    Follows s₀ (withScale s t ch c k d e rest).2 := by
  unfold withScale
  try dsimp only
  with_reducible repeat' (
    first | assumption | apply h_rest | intro _ | apply follows_dmaRead | apply follows_dmaThen
          | apply follows_setChan | simp only [follows_upd] | apply follows_ite | split)

theorem follows_copyOne {s₀ : State} {s : State} {t ch c : Nat} {d : DRec} {e : Nat} (h_s : Follows s₀ s) :
    Follows s₀ (copyOne s t ch c d e).2 := by
  unfold copyOne
  try dsimp only
  with_reducible repeat' (
    first | assumption | intro _ | apply follows_dmaRead | apply follows_dmaWrite | apply follows_dmaThen
          | apply follows_dmaConvert | apply follows_storeBits | apply follows_withScale
          | simp only [follows_upd] | apply follows_ite | split)

theorem follows_withBlock {s₀ : State} {s : State} {t ch c : Nat} {d : DRec} {e : Nat} {rest : State → Option (Nat × List (Nat × Bool)) → DmaRes × State} (h_s : Follows s₀ s) (h_rest : ∀ (x0 : State) (x1 : Option (Nat × List (Nat × Bool))), Follows s₀ x0 → Follows s₀ (rest x0 x1).2) :
    Follows s₀ (withBlock s t ch c d e rest).2 := by
  unfold withBlock
  try dsimp only
  with_reducible repeat' (
    first | assumption | apply h_rest | intro _ | apply follows_dmaRead | apply follows_dmaThen
          | apply follows_setChan | simp only [follows_upd] | apply follows_ite | split)

theorem follows_copyMx {s₀ : State} {s : State} {t ch c : Nat} {d : DRec} {e : Nat} (h_s : Follows s₀ s) :
    Follows s₀ (copyMx s t ch c d e).2 := by
  unfold copyMx
  try dsimp only
  with_reducible repeat' (
    first | assumption | intro _ | apply follows_dmaWrite | apply follows_dmaThen | apply follows_storeBits
          | apply follows_withBlock | apply follows_satEvents | simp only [follows_upd] | apply follows_ite
          | split)

theorem follows_copyElem {s₀ : State} {s : State} {t ch c : Nat} {d : DRec} {e : Nat} (h_s : Follows s₀ s) :
    Follows s₀ (copyElem s t ch c d e).2 := by
  unfold copyElem
  try dsimp only
  with_reducible repeat' (
    first | assumption | intro _ | apply follows_copyOne | apply follows_copyMx | simp only [follows_upd]
          | apply follows_ite | split)

theorem follows_withIndex {s₀ : State} {s : State} {t ch c : Nat} {d : DRec} {e : Nat} {f : State → Nat → DmaRes × State} (h_s : Follows s₀ s) (h_f : ∀ (x0 : State) (x1 : Nat), Follows s₀ x0 → Follows s₀ (f x0 x1).2) :
    Follows s₀ (withIndex s t ch c d e f).2 := by
  unfold withIndex
  try dsimp only
  with_reducible repeat' (
    first | assumption | apply h_f | intro _ | apply follows_dmaRead | apply follows_dmaThen
          | simp only [follows_upd] | apply follows_ite | split)

theorem follows_moveIndexed {s₀ : State} {s : State} {t ch c : Nat} {d : DRec} {e : Nat} (h_s : Follows s₀ s) :
    Follows s₀ (moveIndexed s t ch c d e).2 := by
  unfold moveIndexed
  try dsimp only
  with_reducible repeat' (
    first | assumption | intro _ | apply follows_dmaRead | apply follows_dmaWrite | apply follows_dmaThen
          | apply follows_withIndex)

theorem follows_addIndexed {s₀ : State} {s : State} {t ch c : Nat} {d : DRec} {e : Nat} (h_s : Follows s₀ s) :
    Follows s₀ (addIndexed s t ch c d e).2 := by
  unfold addIndexed
  try dsimp only
  with_reducible repeat' (
    first | assumption | intro _ | apply follows_dmaCount | apply follows_dmaPad | apply follows_dmaRead
          | apply follows_dmaThen | apply follows_withIndex | apply follows_report | simp only [follows_upd]
          | apply follows_ite | split)

theorem follows_dmaElement {s₀ : State} {s : State} {t ch c : Nat} {d : DRec} {e : Nat} (h_s : Follows s₀ s) :
    Follows s₀ (dmaElement s t ch c d e).2 := by
  unfold dmaElement
  try dsimp only
  with_reducible repeat' (
    first | assumption | intro _ | apply follows_dmaWrite | apply follows_dmaThen | apply follows_copyElem
          | apply follows_moveIndexed | apply follows_addIndexed | simp only [follows_upd] | apply follows_ite
          | split)

theorem follows_dmaStat {s₀ : State} {s : State} {t ch c : Nat} {run : Bool} (h_s : Follows s₀ s) :
    Follows s₀ (dmaStat s t ch c run) := by
  unfold dmaStat
  try dsimp only
  with_reducible repeat' (first | assumption | intro _ | apply follows_wrF)

theorem follows_dmaFinish {s₀ : State} {s : State} {t ch : Nat} {x : Desc} {status done failing : Nat} (h_s : Follows s₀ s) :
    Follows s₀ (dmaFinish s t ch x status done failing) := by
  unfold dmaFinish
  try dsimp only
  with_reducible repeat' (
    first | assumption | intro _ | apply follows_progress | apply follows_dmaStat | apply follows_wr
          | apply follows_report | apply follows_incWrap | apply follows_trySend | apply follows_setChan
          | simp only [follows_upd] | apply follows_ite)

theorem follows_dmaStart {s₀ : State} {s : State} {t ch : Nat} {x : Desc} {rest : List Desc} (h_s : Follows s₀ s) :
    Follows s₀ (dmaStart s t ch x rest) := by
  unfold dmaStart
  try dsimp only
  with_reducible repeat' (
    first | assumption | intro _ | apply follows_dmaStat | apply follows_setChan | apply follows_release
          | simp only [follows_upd] | apply follows_ite)

theorem follows_dmaRun {s₀ : State} {t ch : Nat} {y0 : Nat} {y1 : State} (h_y1 : Follows s₀ y1) :
    Follows s₀ (dmaRun t ch y0 y1) := by
  induction y0 generalizing y1 with
  | zero => exact h_y1
  | succ n ih =>
    unfold dmaRun
    try dsimp only
    with_reducible repeat' (
      first | assumption | (apply ih) | intro _ | apply follows_progress | apply follows_dmaElement
            | apply follows_dmaFinish | apply follows_setChan | simp only [follows_upd] | apply follows_ite
            | split)

theorem follows_dmaSkip {s₀ : State} {t ch y0 : Nat} {y1 : State} (h_y1 : Follows s₀ y1) :
    Follows s₀ (dmaSkip t ch y0 y1) := by
  induction y0 generalizing y1 with
  | zero => exact h_y1
  | succ n ih =>
    unfold dmaSkip
    try dsimp only
    with_reducible repeat' (first | assumption | (apply ih) | apply follows_dmaStart | apply follows_dmaRun | simp only [follows_upd] | apply follows_ite | split)

theorem follows_dmaOp {s₀ : State} {s : State} {t ch op n : Nat} (h_s : Follows s₀ s) :
    Follows s₀ (dmaOp s t ch op n) := by
  unfold dmaOp
  try dsimp only
  with_reducible repeat' (
    first | assumption | apply follows_dmaStart | apply follows_dmaRun | apply follows_dmaSkip | simp only [follows_upd]
          | apply follows_ite | split)

theorem follows_execDescriptorMessage {s₀ : State} {t : TileId} {ch : Fin 4} {s : State} (h_s : Follows s₀ s) :
    FollowsNext s₀ (execDescriptorMessage t ch s) := by
  unfold execDescriptorMessage
  try dsimp only
  apply followsNext
  with_reducible repeat' (
    first | assumption | intro _ | apply follows_dmaSkip | apply follows_report | apply follows_incWrap
          | exact follows_headMsg ‹_› ‹_› | refine follows_headMsg ‹_› ?_ | apply follows_setChan
          | apply follows_endRead | apply follows_awaitHead | apply follows_queueGuard
          | apply follows_beginRead | apply follows_release | simp only [follows_upd] | apply follows_ite
          | split)

theorem follows_execDmaNop {s₀ : State} {t : TileId} {ch : Fin 4} {s : State} (h_s : Follows s₀ s) :
    FollowsNext s₀ (execDmaNop t ch s) := by
  unfold execDmaNop
  try dsimp only
  apply followsNext
  with_reducible repeat' (first | assumption | apply follows_dmaOp)

theorem follows_execCopy {s₀ : State} {t : TileId} {ch : Fin 4} {n : Nat} {s : State} (h_s : Follows s₀ s) :
    FollowsNext s₀ (execCopy t ch n s) := by
  unfold execCopy
  try dsimp only
  apply followsNext
  with_reducible repeat' (first | assumption | apply follows_dmaOp)

theorem follows_execGather {s₀ : State} {t : TileId} {ch : Fin 4} {n : Nat} {s : State} (h_s : Follows s₀ s) :
    FollowsNext s₀ (execGather t ch n s) := by
  unfold execGather
  try dsimp only
  apply followsNext
  with_reducible repeat' (first | assumption | apply follows_dmaOp)

theorem follows_execScatter {s₀ : State} {t : TileId} {ch : Fin 4} {n : Nat} {s : State} (h_s : Follows s₀ s) :
    FollowsNext s₀ (execScatter t ch n s) := by
  unfold execScatter
  try dsimp only
  apply followsNext
  with_reducible repeat' (first | assumption | apply follows_dmaOp)

theorem follows_execScatterAddI32 {s₀ : State} {t : TileId} {ch : Fin 4} {n : Nat} {s : State} (h_s : Follows s₀ s) :
    FollowsNext s₀ (execScatterAddI32 t ch n s) := by
  unfold execScatterAddI32
  try dsimp only
  apply followsNext
  with_reducible repeat' (first | assumption | apply follows_dmaOp)

theorem follows_execDmaFill {s₀ : State} {t : TileId} {ch : Fin 4} {n : Nat} {s : State} (h_s : Follows s₀ s) :
    FollowsNext s₀ (execDmaFill t ch n s) := by
  unfold execDmaFill
  try dsimp only
  apply followsNext
  with_reducible repeat' (first | assumption | apply follows_dmaOp)

theorem follows_dmaCtrl {s₀ : State} {s : State} {t ch : Nat} {v : W64} (h_s : Follows s₀ s) :
    Follows s₀ (dmaCtrl s t ch v) := by
  unfold dmaCtrl
  try dsimp only
  with_reducible repeat' (
    first | assumption | apply follows_wr | apply follows_dmaStat | apply follows_dmaRun | apply follows_dmaSkip
          | simp only [follows_upd] | apply follows_ite | split)

theorem follows_dmaDeliver {s₀ : State} {s : State} {x : SpAcc} {t ch : Nat} {data : List (Option Byte)} (h_s : Follows s₀ s) :
    Follows s₀ (dmaDeliver s x t ch data) := by
  unfold dmaDeliver
  try dsimp only
  with_reducible repeat' (
    first | assumption | intro _ | apply follows_dmaCounted | apply follows_setChan)

theorem follows_dmaFailed {s₀ : State} {s : State} {t ch : Nat} (h_s : Follows s₀ s) :
    Follows s₀ (dmaFailed s t ch) := by
  unfold dmaFailed
  try dsimp only
  with_reducible repeat' (first | assumption | apply follows_dmaFinish | simp only [follows_upd] | split)

end Sys2Proof.Machine
end

