-- ==== Sys2Proof/Laws/FollowsPads.lean ====
section
/-! SUPPORT. `Follows` is kept by the operations of Machine/Pads.lean. -/

namespace Sys2Proof.Machine

theorem follows_deliver {s₀ : State} {s : State} {a : SpAcc} {data : List (Option Byte)} (h_s : Follows s₀ s) :
    Follows s₀ (deliver s a data) := by
  unfold deliver
  try dsimp only
  with_reducible repeat' (
    first | assumption | intro _ | apply follows_padReply | apply follows_dmaDeliver
          | apply follows_actDeliver | apply follows_accessDone | apply follows_emit | simp only [follows_upd]
          | apply follows_ite | split)

theorem follows_deliverFail {s₀ : State} {s : State} {a : SpAcc} {code : Nat} (h_s : Follows s₀ s) :
    Follows s₀ (deliverFail s a code) := by
  unfold deliverFail
  try dsimp only
  with_reducible repeat' (
    first | assumption | intro _ | apply follows_padReply | apply follows_dmaFailed | apply follows_engFault
          | apply follows_handlerFault | apply follows_emit | simp only [follows_upd] | apply follows_ite
          | split)

theorem follows_retryAccess {s₀ : State} {s : State} {a : SpAcc} (h_s : Follows s₀ s) :
    Follows s₀ (retryAccess s a) := by
  unfold retryAccess
  try dsimp only
  with_reducible repeat' (
    first | assumption | apply follows_access | apply follows_deliver | apply follows_deliverFail | simp only [follows_upd]
          | split)

theorem follows_openAccess {s₀ : State} {s : State} {a : SpAcc} (h_s : Follows s₀ s) :
    Follows s₀ (openAccess s a) := by
  unfold openAccess
  try dsimp only
  with_reducible repeat' (
    first | assumption | apply follows_emit | apply follows_denied | apply follows_access | simp only [follows_upd]
          | apply follows_ite | split)

theorem follows_retryHeld {s₀ : State} {s : State} {t : Nat} (h_s : Follows s₀ s) :
    Follows s₀ (retryHeld s t) := by
  unfold retryHeld
  try dsimp only
  with_reducible repeat' (first | assumption | intro _ | apply follows_each | apply follows_retryAccess | simp only [follows_upd])

theorem follows_circMove {s₀ : State} {s : State} {a : SpAcc} {n : Nat} {b : Nat × Nat} (h_s : Follows s₀ s) :
    Follows s₀ (circMove s a n b).2 := by
  unfold circMove
  try dsimp only
  with_reducible repeat' (
    first | assumption | intro _ | apply follows_foldl | apply follows_foldl2 | apply follows_foldl1 | apply follows_wr
          | apply follows_readPadBytes | apply follows_writePadBytes | apply follows_touchBanks | apply follows_ite | split)

theorem follows_circGuard {s₀ : State} {s : State} {t code : Nat} (h_s : Follows s₀ s) :
    Follows s₀ (circGuard s t code) := by
  unfold circGuard
  try dsimp only
  with_reducible repeat' (first | assumption | apply follows_guardReport | apply follows_fenceTile)

theorem follows_circTry {s₀ : State} {s : State} {a : SpAcc} {n : Nat} {b : Nat × Nat} {v : State} (e : circTry s a n b = some v) (h_s : Follows s₀ s) :
    Follows s₀ v := by
  unfold circTry at e
  try dsimp only at e
  repeat' first | (cases e; done) | split at e
  all_goals (injection e with e; subst e)
  with_reducible repeat' (
    first | assumption | intro _ | apply follows_emit | apply follows_accessFailed | apply follows_circMove)

theorem follows_circAccess {s₀ : State} {s : State} {a : SpAcc} {n : Nat} (h_s : Follows s₀ s) :
    Follows s₀ (circAccess s a n) := by
  unfold circAccess
  try dsimp only
  with_reducible repeat' (
    first | assumption | intro _ | apply follows_emit | apply follows_circGuard
          | exact follows_circTry ‹_› ‹_› | refine follows_circTry ‹_› ?_ | apply follows_accessFailed
          | apply follows_getD | simp only [follows_upd] | apply follows_ite | split)

theorem follows_circServe {s₀ : State} {t n : Nat} {y0 : Nat} {y1 : State} (h_y1 : Follows s₀ y1) :
    Follows s₀ (circServe t n y0 y1) := by
  induction y0 generalizing y1 with
  | zero => exact h_y1
  | succ n ih =>
    unfold circServe
    try dsimp only
    with_reducible repeat' (
      first | assumption | (apply ih) | intro _ | exact follows_circTry ‹_› ‹_›
            | refine follows_circTry ‹_› ?_ | apply follows_getD | simp only [follows_upd] | apply follows_ite
            | split)

theorem follows_circOp {s₀ : State} {s : State} {a : Agent} {t n words : Nat} {op : SpOp} {data : List Byte} (h_s : Follows s₀ s) :
    Follows s₀ (circOp s a t n words op data) := by
  unfold circOp
  try dsimp only
  with_reducible repeat' (
    first | assumption | apply follows_emit | apply follows_denied | apply follows_circAccess | apply follows_circServe
          | apply follows_ite)

theorem follows_execCircWrite {s₀ : State} {a : Agent} {t : TileId} {n : Fin 4} {data : List W32} {s : State} (h_s : Follows s₀ s) :
    FollowsNext s₀ (execCircWrite a t n data s) := by
  unfold execCircWrite
  try dsimp only
  apply followsNext
  with_reducible repeat' (first | assumption | intro _ | apply follows_circOp)

theorem follows_execCircRead {s₀ : State} {a : Agent} {t : TileId} {n : Fin 4} {words : Nat} {s : State} (h_s : Follows s₀ s) :
    FollowsNext s₀ (execCircRead a t n words s) := by
  unfold execCircRead
  try dsimp only
  apply followsNext
  with_reducible repeat' (first | assumption | apply follows_circOp)

theorem follows_upset {s₀ : State} {s : State} {t : Nat} {flips : List (Nat × Nat)} (h_s : Follows s₀ s) :
    Follows s₀ (upset s t flips) := by
  unfold upset
  try dsimp only
  with_reducible repeat' (first | assumption | intro _ | apply follows_each | apply follows_flipWord | apply follows_ite)

theorem follows_codedAccess {s₀ : State} {s : State} {code : Nat} {dflt : SpOp} {a : SpOp → SpAcc} (h_s : Follows s₀ s) :
    Follows s₀ (codedAccess s code dflt a) := by
  unfold codedAccess
  try dsimp only
  with_reducible repeat' (
    first | assumption | intro _ | apply follows_emit | apply follows_openAccess | apply follows_accessFailed
          | simp only [follows_upd] | apply follows_ite | split)

theorem follows_execScratchpadRead {s₀ : State} {a : Agent} {c : Option CtxId} {t : TileId} {b len : Nat} {code : Fin 8} {flips : List (Nat × Nat)} {s : State} (h_s : Follows s₀ s) :
    FollowsNext s₀ (execScratchpadRead a c t b len code flips s) := by
  unfold execScratchpadRead
  try dsimp only
  apply followsNext
  with_reducible repeat' (
    first | assumption | intro _ | apply follows_upset | apply follows_codedAccess | simp only [follows_upd]
          | apply follows_ite)

theorem follows_execScratchpadWrite {s₀ : State} {a : Agent} {c : Option CtxId} {t : TileId} {b : Nat} {data : List Byte} {code : Fin 8} {flips : List (Nat × Nat)} {s : State} (h_s : Follows s₀ s) :
    FollowsNext s₀ (execScratchpadWrite a c t b data code flips s) := by
  unfold execScratchpadWrite
  try dsimp only
  apply followsNext
  with_reducible repeat' (
    first | assumption | intro _ | apply follows_upset | apply follows_codedAccess | simp only [follows_upd]
          | apply follows_ite)

theorem follows_execRd {s₀ : State} {a : Agent} {c : Option CtxId} {t : TileId} {w n : Nat} {circ : Option (Fin 4)} {s : State} (h_s : Follows s₀ s) :
    FollowsNext s₀ (execRd a c t w n circ s) := by
  unfold execRd
  try dsimp only
  apply followsNext
  with_reducible repeat' (first | assumption | apply follows_openAccess | apply follows_circOp | simp only [follows_upd] | split)

theorem follows_execWr {s₀ : State} {a : Agent} {c : Option CtxId} {t : TileId} {w : Nat} {data : List W32} {circ : Option (Fin 4)} {s : State} (h_s : Follows s₀ s) :
    FollowsNext s₀ (execWr a c t w data circ s) := by
  unfold execWr
  try dsimp only
  apply followsNext
  with_reducible repeat' (first | assumption | intro _ | apply follows_openAccess | apply follows_circOp | simp only [follows_upd] | split)

theorem follows_execRdFull {s₀ : State} {a : Agent} {c : Option CtxId} {t : TileId} {w n : Nat} {s : State} (h_s : Follows s₀ s) :
    FollowsNext s₀ (execRdFull a c t w n s) := by
  unfold execRdFull
  try dsimp only
  apply followsNext
  with_reducible repeat' (first | assumption | apply follows_openAccess)

theorem follows_execRdTake {s₀ : State} {a : Agent} {c : Option CtxId} {t : TileId} {w n : Nat} {s : State} (h_s : Follows s₀ s) :
    FollowsNext s₀ (execRdTake a c t w n s) := by
  unfold execRdTake
  try dsimp only
  apply followsNext
  with_reducible repeat' (first | assumption | apply follows_openAccess)

theorem follows_execWrFill {s₀ : State} {a : Agent} {c : Option CtxId} {t : TileId} {w : Nat} {data : List W32} {s : State} (h_s : Follows s₀ s) :
    FollowsNext s₀ (execWrFill a c t w data s) := by
  unfold execWrFill
  try dsimp only
  apply followsNext
  with_reducible repeat' (first | assumption | intro _ | apply follows_openAccess)

theorem follows_execClrTag {s₀ : State} {a : Agent} {c : Option CtxId} {t : TileId} {w n : Nat} {s : State} (h_s : Follows s₀ s) :
    FollowsNext s₀ (execClrTag a c t w n s) := by
  unfold execClrTag
  try dsimp only
  apply followsNext
  with_reducible repeat' (first | assumption | apply follows_openAccess)

theorem follows_waitSteps {s₀ : State} {s : State} {t off since : Nat} (h_s : Follows s₀ s) :
    Follows s₀ (waitSteps s t off since) := by
  unfold waitSteps
  try dsimp only
  with_reducible repeat' (first | assumption | apply follows_drawn | apply follows_incWrap | apply follows_ite)

theorem follows_serveWaiter {s₀ : State} {s : State} {x : Waiter} (h_s : Follows s₀ s) :
    Follows s₀ (serveWaiter s x) := by
  unfold serveWaiter
  try dsimp only
  with_reducible repeat' (
    first | assumption | apply follows_perform | apply follows_deliver | apply follows_waitSteps | simp only [follows_upd]
          | apply follows_ite | split)

theorem follows_serveSlot {s₀ : State} {t b y0 : Nat} {y1 : State} (h_y1 : Follows s₀ y1) :
    Follows s₀ (serveSlot t b y0 y1) := by
  induction y0 generalizing y1 with
  | zero => exact h_y1
  | succ n ih =>
    unfold serveSlot
    try dsimp only
    with_reducible repeat' (first | assumption | (apply ih) | apply follows_serveWaiter | simp only [follows_upd] | apply follows_ite | split)

theorem follows_execWaiterServed {s₀ : State} {t : TileId} {w : Nat} {s : State} (h_s : Follows s₀ s) :
    FollowsNext s₀ (execWaiterServed t w s) := by
  unfold execWaiterServed
  try dsimp only
  apply followsNext
  with_reducible repeat' (first | assumption | apply follows_serveSlot)

theorem follows_execWaiterTableRoom {s₀ : State} {t : TileId} {b : Fin 32} {s : State} (h_s : Follows s₀ s) :
    FollowsNext s₀ (execWaiterTableRoom t b s) := by
  unfold execWaiterTableRoom
  try dsimp only
  apply followsNext
  with_reducible repeat' (
    first | assumption | intro _ | apply follows_retryAccess | apply follows_waitSteps | simp only [follows_upd]
          | apply follows_ite | split)

theorem follows_removeAccess {s₀ : State} {s : State} {a : SpAcc} (h_s : Follows s₀ s) :
    Follows s₀ (removeAccess s a) := by
  unfold removeAccess
  try dsimp only
  with_reducible repeat' (first | assumption | apply follows_discardWrite | apply follows_deliverFail | apply follows_ite)

theorem follows_regionGone {s₀ : State} {s : State} {t lo hi c : Nat} (h_s : Follows s₀ s) :
    Follows s₀ (regionGone s t lo hi c) := by
  unfold regionGone
  try dsimp only
  with_reducible repeat' (
    first | assumption | intro _ | apply follows_each | apply follows_ringRegionGone | apply follows_removeAccess
          | simp only [follows_upd])

theorem follows_dropRegion {s₀ : State} {s : State} {t r j c : Nat} (h_s : Follows s₀ s) :
    Follows s₀ (dropRegion s t r j c) := by
  unfold dropRegion
  try dsimp only
  with_reducible repeat' (
    first | assumption | intro _ | apply follows_wrB | apply follows_wrGF | apply follows_retryHeld
          | apply follows_regionGone | simp only [follows_upd] | apply follows_ite | split)

theorem follows_dropSlot {s₀ : State} {s : State} {t r : Nat} (h_s : Follows s₀ s) :
    Follows s₀ (dropSlot s t r) := by
  unfold dropSlot
  try dsimp only
  with_reducible repeat' (first | assumption | intro _ | apply follows_each | apply follows_dropRegion)

theorem follows_dropCirc {s₀ : State} {s : State} {t : Nat} (h_s : Follows s₀ s) :
    Follows s₀ (dropCirc s t) := by
  unfold dropCirc
  try dsimp only
  with_reducible repeat' (
    first | assumption | intro _ | apply follows_wrGF | apply follows_each | apply follows_removeAccess
          | simp only [follows_upd] | apply follows_ite)

theorem follows_rgnRefused {s₀ : State} {s : State} {t : Nat} {detail : List Nat} (h_s : Follows s₀ s) :
    Follows s₀ (rgnRefused s t detail) := by
  unfold rgnRefused
  try dsimp only
  with_reducible repeat' (first | assumption | apply follows_reportB)

theorem follows_modeWrite {s₀ : State} {s : State} {t : Nat} {v : W64} (h_s : Follows s₀ s) :
    Follows s₀ (modeWrite s t v) := by
  unfold modeWrite
  try dsimp only
  with_reducible repeat' (
    first | assumption | intro _ | apply follows_wr | apply follows_ignored | apply follows_each | apply follows_dropSlot
          | apply follows_dropCirc | apply follows_ite)

theorem follows_resCtxWrite {s₀ : State} {s : State} {t r : Nat} {v : W64} {contexts : Nat} (h_s : Follows s₀ s) :
    Follows s₀ (resCtxWrite s t r v contexts) := by
  unfold resCtxWrite
  try dsimp only
  with_reducible repeat' (
    first | assumption | intro _ | apply follows_wr | apply follows_ignored | apply follows_dropSlot
          | simp only [follows_upd] | apply follows_ite)

theorem follows_rgnWrite {s₀ : State} {s : State} {t r j k : Nat} {v : W64} (h_s : Follows s₀ s) :
    Follows s₀ (rgnWrite s t r j k v) := by
  unfold rgnWrite
  try dsimp only
  with_reducible repeat' (
    first | assumption | apply follows_wr | apply follows_wrB | apply follows_dropRegion | apply follows_rgnRefused
          | simp only [follows_upd] | apply follows_ite)

theorem follows_circCfgWrite {s₀ : State} {s : State} {t n : Nat} {v : W64} (h_s : Follows s₀ s) :
    Follows s₀ (circCfgWrite s t n v) := by
  unfold circCfgWrite
  try dsimp only
  with_reducible repeat' (
    first | assumption | intro _ | apply follows_wr | apply follows_each | apply follows_removeAccess | apply follows_rgnRefused
          | simp only [follows_upd] | apply follows_ite)

theorem follows_bankPwrWrite {s₀ : State} {s : State} {t : Nat} {v : W64} (h_s : Follows s₀ s) :
    Follows s₀ (bankPwrWrite s t v) := by
  unfold bankPwrWrite
  try dsimp only
  with_reducible repeat' (
    first | assumption | intro _ | apply follows_each | apply follows_wrF | apply follows_ignored
          | apply follows_rgnRefused | apply follows_setBankState | apply follows_setWakeEnd
          | simp only [follows_upd] | apply follows_ite)

theorem follows_execTagInitComplete {s₀ : State} {t : TileId} {r : Fin 8} {j : Fin 16} {s : State} (h_s : Follows s₀ s) :
    FollowsNext s₀ (execTagInitComplete t r j s) := by
  unfold execTagInitComplete
  try dsimp only
  apply followsNext
  with_reducible repeat' (
    first | assumption | intro _ | apply follows_wrB | apply follows_each | apply follows_setTag | apply follows_retryHeld
          | simp only [follows_upd] | apply follows_ite | split)

theorem follows_loseBank {s₀ : State} {s : State} {t b : Nat} (h_s : Follows s₀ s) :
    Follows s₀ (loseBank s t b) := by
  unfold loseBank
  try dsimp only
  with_reducible repeat' (first | assumption | intro _ | apply follows_applyFill | simp only [follows_upd])

theorem follows_bankOn {s₀ : State} {s : State} {t b : Nat} (h_s : Follows s₀ s) :
    Follows s₀ (bankOn s t b) := by
  unfold bankOn
  try dsimp only
  with_reducible repeat' (
    first | assumption | intro _ | apply follows_each | apply follows_retryHeld | apply follows_circServe
          | apply follows_setBankState | apply follows_setWakeEnd | simp only [follows_upd]
          | apply follows_ite)

theorem follows_execBankStateReached {s₀ : State} {t : TileId} {b : Fin 32} {s : State} (h_s : Follows s₀ s) :
    FollowsNext s₀ (execBankStateReached t b s) := by
  unfold execBankStateReached
  try dsimp only
  apply followsNext
  with_reducible repeat' (
    first | assumption | intro _ | apply follows_loseBank | apply follows_bankOn | apply follows_setBankState
          | simp only [follows_upd] | apply follows_ite)

theorem follows_execBankWake {s₀ : State} {t : TileId} {b : Fin 32} {s : State} (h_s : Follows s₀ s) :
    FollowsNext s₀ (execBankWake t b s) := by
  unfold execBankWake
  try dsimp only
  apply followsNext
  with_reducible repeat' (first | assumption | apply follows_incSat | apply follows_setBankState | apply follows_ite)

theorem follows_execBankIdleReturn {s₀ : State} {t : TileId} {b : Fin 32} {s : State} (h_s : Follows s₀ s) :
    FollowsNext s₀ (execBankIdleReturn t b s) := by
  unfold execBankIdleReturn
  try dsimp only
  apply followsNext
  with_reducible repeat' (
    first | assumption | intro _ | apply follows_setBankState | apply follows_setWakeEnd
          | simp only [follows_upd] | apply follows_ite)

theorem follows_execWriteBack {s₀ : State} {t : TileId} {w : Nat} {s : State} (h_s : Follows s₀ s) :
    FollowsNext s₀ (execWriteBack t w s) := by
  unfold execWriteBack
  try dsimp only
  apply followsNext
  with_reducible repeat' (first | assumption | intro _ | apply follows_storeUnit | simp only [follows_upd] | apply follows_ite | split)

theorem follows_beginPass {s₀ : State} {s : State} {t : Nat} (h_s : Follows s₀ s) :
    Follows s₀ (beginPass s t) := by
  unfold beginPass
  try dsimp only
  with_reducible repeat' (first | assumption | intro _ | apply follows_wr | simp only [follows_upd])

theorem follows_endPass {s₀ : State} {s : State} {t : Nat} (h_s : Follows s₀ s) :
    Follows s₀ (endPass s t) := by
  unfold endPass
  try dsimp only
  with_reducible repeat' (
    first | assumption | intro _ | apply follows_wr | apply follows_incWrap | apply follows_beginPass | simp only [follows_upd]
          | apply follows_ite)

theorem follows_scrubRow {s₀ : State} {s : State} {t w : Nat} (h_s : Follows s₀ s) :
    Follows s₀ (scrubRow s t w) := by
  unfold scrubRow
  try dsimp only
  with_reducible repeat' (
    first | assumption | intro _ | apply follows_each | apply follows_incSat | apply follows_storeUnit
          | apply follows_readWords | apply follows_touchBanks | apply follows_tagGuard
          | simp only [follows_upd] | apply follows_ite)

theorem follows_scrubWake {s₀ : State} {s : State} {t b : Nat} (h_s : Follows s₀ s) :
    Follows s₀ (scrubWake s t b) := by
  unfold scrubWake
  try dsimp only
  with_reducible repeat' (
    first | assumption | intro _ | apply follows_incSat | apply follows_setBankState | simp only [follows_upd]
          | apply follows_ite)

theorem follows_execScrubRow {s₀ : State} {t : TileId} {flips : List (Nat × Nat)} {s : State} (h_s : Follows s₀ s) :
    FollowsNext s₀ (execScrubRow t flips s) := by
  unfold execScrubRow
  try dsimp only
  apply followsNext
  with_reducible repeat' (
    first | assumption | intro _ | apply follows_wrF | apply follows_upset | apply follows_endPass
          | apply follows_scrubRow | apply follows_scrubWake | simp only [follows_upd] | apply follows_ite)

theorem follows_execScrubPassStart {s₀ : State} {t : TileId} {s : State} (h_s : Follows s₀ s) :
    FollowsNext s₀ (execScrubPassStart t s) := by
  unfold execScrubPassStart
  try dsimp only
  apply followsNext
  with_reducible repeat' (first | assumption | intro _ | apply follows_beginPass | simp only [follows_upd] | apply follows_ite)

theorem follows_execScrubLate {s₀ : State} {t : TileId} {s : State} (h_s : Follows s₀ s) :
    FollowsNext s₀ (execScrubLate t s) := by
  unfold execScrubLate
  try dsimp only
  apply followsNext
  with_reducible repeat' (
    first | assumption | intro _ | apply follows_wrB | apply follows_report | simp only [follows_upd]
          | apply follows_ite)

end Sys2Proof.Machine
end

