-- ==== Sys2Proof/Laws/FollowsUfs.lean ====
section
/-! SUPPORT. `Follows` is kept by the operations of Machine/Ufs.lean. -/

namespace Sys2Proof.Machine

theorem follows_setUfs {s₀ : State} {s : State} {l : List UfsCmd} (h_s : Follows s₀ s) :
    Follows s₀ (setUfs s l) := by
  unfold setUfs
  try dsimp only
  with_reducible repeat' (first | assumption | simp only [follows_upd])

theorem follows_ufsQueue {s₀ : State} {s : State} {x : UfsCmd} (h_s : Follows s₀ s) :
    Follows s₀ (ufsQueue s x) := by
  unfold ufsQueue
  try dsimp only
  with_reducible repeat' (first | assumption | intro _ | apply follows_setUfs)

theorem follows_ufsRead {s₀ : State} {s : State} {lun block count : Nat} {user : UfsUser} (h_s : Follows s₀ s) :
    Follows s₀ (ufsRead s lun block count user) := by
  unfold ufsRead
  try dsimp only
  with_reducible repeat' (first | assumption | apply follows_ufsQueue)

theorem follows_ufsWrite {s₀ : State} {s : State} {lun block : Nat} {data : List Byte} {user : UfsUser} (h_s : Follows s₀ s) :
    Follows s₀ (ufsWrite s lun block data user) := by
  unfold ufsWrite
  try dsimp only
  with_reducible repeat' (first | assumption | apply follows_ufsQueue)

theorem follows_ufsIssue {s₀ : State} {s : State} {x : UfsCmd} (h_s : Follows s₀ s) :
    Follows s₀ (ufsIssue s x) := by
  unfold ufsIssue
  try dsimp only
  with_reducible repeat' (first | assumption | apply follows_wr | apply follows_emit)

theorem follows_execUfsCommand {s₀ : State} {aux : Fin 6} {s : State} (h_s : Follows s₀ s) :
    FollowsNext s₀ (execUfsCommand aux s) := by
  unfold execUfsCommand
  try dsimp only
  apply followsNext
  with_reducible repeat' (
    first | assumption | intro _ | apply follows_incWrap | apply follows_setUfs | apply follows_ufsIssue
          | simp only [follows_upd] | apply follows_ite | split)

theorem follows_execHibern8Entry {s₀ : State} {s : State} (h_s : Follows s₀ s) :
    FollowsNext s₀ (execHibern8Entry s) := by
  unfold execHibern8Entry
  try dsimp only
  apply followsNext
  with_reducible repeat' (first | assumption | intro _ | apply follows_wrF | apply follows_ite)

end Sys2Proof.Machine
end

