-- ==== Sys2Proof/Laws/FollowsFirmware.lean ====
section
/-! SUPPORT. `Follows` is kept by the operations of Machine/Firmware.lean. -/

namespace Sys2Proof.Machine

theorem follows_dropFw {s₀ : State} {s : State} {t : Nat} (h_s : Follows s₀ s) :
    Follows s₀ (dropFw s t) := by
  unfold dropFw
  try dsimp only
  with_reducible repeat' (first | assumption | simp only [follows_upd])

theorem follows_chooseCopy {s₀ : State} {s : State} {c : Nat} (h_s : Follows s₀ s) :
    Follows s₀ (chooseCopy s c) := by
  unfold chooseCopy
  try dsimp only
  with_reducible repeat' (
    first | assumption | intro _ | apply follows_dropFw | apply follows_report | simp only [follows_upd]
          | apply follows_ite | split)

theorem follows_setFw {s₀ : State} {s : State} {t k : Nat} {c : FwChunk} (h_s : Follows s₀ s) :
    Follows s₀ (setFw s t k c) := by
  unfold setFw
  try dsimp only
  with_reducible repeat' (first | assumption | intro _ | simp only [follows_upd])

theorem follows_sendPieces {s₀ : State} {s : State} {src dst k hash : Nat} {data : List Byte} (h_s : Follows s₀ s) :
    Follows s₀ (sendPieces s src dst k hash data) := by
  unfold sendPieces
  try dsimp only
  with_reducible repeat' (
    first | assumption | intro _ | apply follows_each | apply follows_inject)

theorem follows_hbPieces {s₀ : State} {s : State} {dst : Nat} {group : Option Nat} {k hash : Nat} {data : List Byte} (h_s : Follows s₀ s) :
    Follows s₀ (hbPieces s dst group k hash data) := by
  unfold hbPieces
  try dsimp only
  with_reducible repeat' (
    first | assumption | intro _ | apply follows_each | apply follows_hbInject)

theorem follows_keepCopy {s₀ : State} {s : State} {t k : Nat} {data : List Byte} (h_s : Follows s₀ s) :
    Follows s₀ (keepCopy s t k data) := by
  unfold keepCopy
  try dsimp only
  with_reducible repeat' (first | assumption | intro _ | apply follows_ownWrite)

theorem follows_fwPiece {s₀ : State} {s : State} {t : Nat} {p : FwPkt} (h_s : Follows s₀ s) :
    Follows s₀ (fwPiece s t p) := by
  unfold fwPiece
  try dsimp only
  with_reducible repeat' (
    first | assumption | intro _ | apply follows_setFw | apply follows_keepCopy | apply follows_ctlCount
          | simp only [follows_upd] | apply follows_ite)

theorem follows_answerPull {s₀ : State} {s : State} {t : Nat} {p : FwPkt} (h_s : Follows s₀ s) :
    Follows s₀ (answerPull s t p) := by
  unfold answerPull
  try dsimp only
  with_reducible repeat' (
    first | assumption | intro _ | apply follows_sendPieces | apply follows_incWrap | apply follows_ownRead)

theorem follows_execFwPacket {s₀ : State} {t : TileId} {p : FwPkt} {s : State} (h_s : Follows s₀ s) :
    FollowsNext s₀ (execFwPacket t p s) := by
  unfold execFwPacket
  try dsimp only
  apply followsNext
  with_reducible repeat' (
    first | assumption | intro _ | apply follows_each | apply follows_fwPiece | apply follows_answerPull
          | exact follows_takeEjected ‹_› ‹_› | refine follows_takeEjected ‹_› ?_ | apply follows_ctlCount
          | apply follows_ownWake | simp only [follows_upd] | apply follows_ite | split)

theorem follows_beginRound {s₀ : State} {s : State} {n : Nat} (h_s : Follows s₀ s) :
    Follows s₀ (beginRound s n) := by
  unfold beginRound
  try dsimp only
  with_reducible repeat' (
    first | assumption | intro _ | apply follows_each | apply follows_hbPieces | apply follows_inject
          | simp only [follows_upd] | apply follows_ite | split)

theorem follows_endRounds {s₀ : State} {s : State} (h_s : Follows s₀ s) :
    Follows s₀ (endRounds s) := by
  unfold endRounds
  try dsimp only
  with_reducible repeat' (
    first | assumption | intro _ | apply follows_each | apply follows_fenceTile | apply follows_chooseCopy
          | apply follows_wrF | apply follows_report | apply follows_step | simp only [follows_upd]
          | apply follows_ite)

theorem follows_execFwRoundEnd {s₀ : State} {s : State} (h_s : Follows s₀ s) :
    FollowsNext s₀ (execFwRoundEnd s) := by
  unfold execFwRoundEnd
  try dsimp only
  apply followsNext
  with_reducible repeat' (
    first | assumption | apply follows_beginRound | apply follows_endRounds | simp only [follows_upd] | apply follows_ite
          | split)

theorem follows_reload {s₀ : State} {s : State} {tiles : List Nat} (h_s : Follows s₀ s) :
    Follows s₀ (reload s tiles) := by
  unfold reload
  try dsimp only
  with_reducible repeat' (
    first | assumption | intro _ | apply follows_beginRound | apply follows_ufsRead | simp only [follows_upd]
          | apply follows_ite | split)

theorem follows_refillDone {s₀ : State} {s : State} {ok : Bool} {data : List Byte} (h_s : Follows s₀ s) :
    Follows s₀ (refillDone s ok data) := by
  unfold refillDone
  try dsimp only
  with_reducible repeat' (first | assumption | apply follows_beginRound | simp only [follows_upd] | apply follows_ite)

end Sys2Proof.Machine
end

