-- ==== Sys2Proof/Laws/FollowsMeasure.lean ====
section
/-! SUPPORT. `Follows` is kept by the operations of Machine/Measure.lean. -/

namespace Sys2Proof.Machine

theorem follows_showFuses {s₀ : State} {s : State} (h_s : Follows s₀ s) :
    Follows s₀ (showFuses s) := by
  unfold showFuses
  try dsimp only
  with_reducible repeat' (first | assumption | intro _ | apply follows_wr | apply follows_wrF | apply follows_wrB | apply follows_each)

theorem follows_wrBytes {s₀ : State} {s : State} {a v : Nat} (h_s : Follows s₀ s) :
    Follows s₀ (wrBytes s a v) := by
  unfold wrBytes
  try dsimp only
  with_reducible repeat' (first | assumption | intro _ | apply follows_wr | apply follows_each)

theorem follows_extendMr {s₀ : State} {s : State} {j : Nat} {d : List Byte} (h_s : Follows s₀ s) :
    Follows s₀ (extendMr s j d) := by
  unfold extendMr
  try dsimp only
  with_reducible repeat' (first | assumption | apply follows_wrBytes)

theorem follows_leaveRaw {s₀ : State} {s : State} (h_s : Follows s₀ s) :
    Follows s₀ (leaveRaw s) := by
  unfold leaveRaw
  try dsimp only
  with_reducible repeat' (first | assumption | apply follows_wrF | simp only [follows_upd] | apply follows_ite)

theorem follows_endSession {s₀ : State} {s : State} {cause : Nat} (h_s : Follows s₀ s) :
    Follows s₀ (endSession s cause) := by
  unfold endSession
  split
  · exact h_s
  · have h := (follows_secKeep (u := s) (pw := { s.power with zeroBanks := [] }) (cm := s.commit) (rv := { s.recov with dbgHold := none })
      (a := s.sec.chal) (c := none) (d := s.sec.running) (e := s.sec.trngOk) (f := s.sec.trngDt) (l := s.limits) (ti := s.time)
      (lo := s.log) (ir := s.irq) (n := s.net) (q := s.q) (fl := s.flow) (pd := s.pad) (fb := s.fabric) (dr := s.dram) (g := s.gorbin)
      (uf := s.ufs) (ck := s.ckpt) (bo := s.boot) (y := s.yew) (mo := s.module)).2 h_s
    exact follows_raise (follows_report (follows_extendMr (follows_wr (follows_wrF (follows_leaveRaw h)))))

theorem follows_enterRomSec {s₀ : State} {s : State} (h_s : Follows s₀ s) :
    Follows s₀ (enterRomSec s) := by
  unfold enterRomSec
  try dsimp only
  with_reducible repeat' (first | assumption | apply follows_clearRegs | apply follows_showFuses)

end Sys2Proof.Machine
end

