-- ==== Sys2Proof/Laws/FollowsCkpt.lean ====
section
/-! SUPPORT. `Follows` is kept by the operations of Machine/Ckpt.lean. -/

namespace Sys2Proof.Machine

theorem follows_setStream {s₀ : State} {s : State} {n : Nat} {x : CkStream} (h_s : Follows s₀ s) :
    Follows s₀ (setStream s n x) := by
  unfold setStream
  try dsimp only
  with_reducible repeat' (first | assumption | intro _ | simp only [follows_upd])

theorem follows_setTau {s₀ : State} {s : State} {n : Nat} (h_s : Follows s₀ s) :
    Follows s₀ (setTau s n) := by
  unfold setTau
  try dsimp only
  with_reducible repeat' (first | assumption | apply follows_wrF)

theorem follows_lambdaWrite {s₀ : State} {s : State} {v : Nat} (h_s : Follows s₀ s) :
    Follows s₀ (lambdaWrite s v) := by
  unfold lambdaWrite
  try dsimp only
  with_reducible repeat' (first | assumption | intro _ | apply follows_wrF | apply follows_each | apply follows_setTau)

theorem follows_engineRead {s₀ : State} {s : State} {a len : Nat} (h_s : Follows s₀ s) :
    Follows s₀ (engineRead s a len).2 := by
  unfold engineRead
  try dsimp only
  with_reducible repeat' (first | assumption | intro _ | apply follows_mappedRead)

theorem follows_engineTouch {s₀ : State} {s : State} {a len : Nat} (h_s : Follows s₀ s) :
    Follows s₀ (engineTouch s a len) := by
  unfold engineTouch
  try dsimp only
  with_reducible repeat' (first | assumption | intro _ | apply follows_mappedRead)

theorem follows_engineWrite {s₀ : State} {s : State} {a : Nat} {bs : List Byte} (h_s : Follows s₀ s) :
    Follows s₀ (engineWrite s a bs) := by
  unfold engineWrite
  try dsimp only
  with_reducible repeat' (first | assumption | intro _ | apply follows_mappedWrite)

theorem follows_takeBegins {s₀ : State} {s : State} {n step : Nat} (h_s : Follows s₀ s) :
    Follows s₀ (takeBegins s n step) := by
  unfold takeBegins
  try dsimp only
  with_reducible repeat' (
    first | assumption | intro _ | apply follows_setStream | apply follows_engineWrite | apply follows_next
          | apply follows_step | simp only [follows_upd] | apply follows_ite)

theorem follows_takeReads {s₀ : State} {s : State} {n : Nat} (h_s : Follows s₀ s) :
    Follows s₀ (takeReads s n) := by
  unfold takeReads
  try dsimp only
  with_reducible repeat' (first | assumption | intro _ | apply follows_engineTouch | simp only [follows_upd] | apply follows_ite)

theorem follows_startTake {s₀ : State} {s : State} {n step : Nat} (h_s : Follows s₀ s) :
    Follows s₀ (startTake s n step) := by
  unfold startTake
  try dsimp only
  with_reducible repeat' (
    first | assumption | intro _ | apply follows_takeBegins | apply follows_takeReads | apply follows_report
          | apply follows_step | simp only [follows_upd] | apply follows_ite)

theorem follows_ckTake {s₀ : State} {s : State} {n step : Nat} (h_s : Follows s₀ s) :
    Follows s₀ (ckTake s n step) := by
  unfold ckTake
  try dsimp only
  with_reducible repeat' (
    first | assumption | intro _ | apply follows_setStream | apply follows_startTake | apply follows_ignored
          | apply follows_step | simp only [follows_upd] | apply follows_ite)

theorem follows_resumeTake {s₀ : State} {s : State} {n : Nat} (h_s : Follows s₀ s) :
    Follows s₀ (resumeTake s n) := by
  unfold resumeTake
  try dsimp only
  with_reducible repeat' (
    first | assumption | intro _ | apply follows_setStream | apply follows_startTake | simp only [follows_upd]
          | apply follows_ite | split)

theorem follows_ckEndOwn {s₀ : State} {s : State} {n code : Nat} (h_s : Follows s₀ s) :
    Follows s₀ (ckEndOwn s n code) := by
  unfold ckEndOwn
  try dsimp only
  with_reducible repeat' (
    first | assumption | intro _ | apply follows_setStream | apply follows_report | simp only [follows_upd]
          | apply follows_ite)

theorem follows_ckEndHold {s₀ : State} {s : State} {n code : Nat} (h_s : Follows s₀ s) :
    Follows s₀ (ckEndHold s n code) := by
  unfold ckEndHold
  try dsimp only
  with_reducible repeat' (
    first | assumption | intro _ | apply follows_setStream | apply follows_report | simp only [follows_upd]
          | apply follows_ite)

theorem follows_ckCancel {s₀ : State} {s : State} {n : Nat} (h_s : Follows s₀ s) :
    Follows s₀ (ckCancel s n) := by
  unfold ckCancel
  try dsimp only
  with_reducible repeat' (
    first | assumption | intro _ | apply follows_setStream | apply follows_ckEndOwn | apply follows_ckEndHold
          | apply follows_report | simp only [follows_upd] | apply follows_ite)

theorem follows_ckFaulted {s₀ : State} {s : State} {c : Nat} (h_s : Follows s₀ s) :
    Follows s₀ (ckFaulted s c) := by
  unfold ckFaulted
  try dsimp only
  with_reducible repeat' (
    first | assumption | intro _ | apply follows_each | apply follows_ckEndOwn | apply follows_ckEndHold
          | simp only [follows_upd] | apply follows_ite)

theorem follows_ckLinkLost {s₀ : State} {s : State} {p : Nat} (h_s : Follows s₀ s) :
    Follows s₀ (ckLinkLost s p) := by
  unfold ckLinkLost
  try dsimp only
  with_reducible repeat' (
    first | assumption | intro _ | apply follows_each | apply follows_ckEndOwn | apply follows_ckEndHold
          | simp only [follows_upd] | apply follows_ite)

theorem follows_ckSendAll {s₀ : State} {s : State} {c dev off : Nat} {bs : List Byte} (h_s : Follows s₀ s) :
    Follows s₀ (ckSendAll s c dev off bs) := by
  unfold ckSendAll
  try dsimp only
  with_reducible repeat' (first | assumption | intro _ | apply follows_each | apply follows_trySend)

theorem follows_addCrc {s₀ : State} {l : List Byte} {r : List Byte × State} (h_r : Follows s₀ r.2) :
    Follows s₀ (addCrc l r).2 := by
  unfold addCrc
  try dsimp only
  with_reducible repeat' (first | assumption)

theorem follows_manifest {s₀ : State} {s : State} {l : List (Nat × Nat × Nat)} (h_s : Follows s₀ s) :
    Follows s₀ (manifest s l).2 :=
  follows_foldl2 (fun _ _ h => follows_foldl2 (fun _ _ g => follows_addCrc (follows_engineRead g)) h) h_s

theorem follows_snapCopy {s₀ : State} {s : State} {n at' addr len : Nat} (h_s : Follows s₀ s) :
    Follows s₀ (snapCopy s n at' addr len) := by
  unfold snapCopy
  try dsimp only
  with_reducible repeat' (
    first | assumption | intro _ | apply follows_engineRead | apply follows_engineWrite)

theorem follows_snapTake {s₀ : State} {s : State} {n : Nat} {l : List (Nat × Nat × Nat × Nat)} (h_s : Follows s₀ s) :
    Follows s₀ (snapTake s n l) := by
  unfold snapTake
  try dsimp only
  with_reducible repeat' (
    first | assumption | intro _ | apply follows_foldl | apply follows_foldl2 | apply follows_foldl1
          | apply follows_snapCopy)

theorem follows_ckCapture {s₀ : State} {s : State} {n : Nat} (h_s : Follows s₀ s) :
    Follows s₀ (ckCapture s n) := by
  unfold ckCapture
  try dsimp only
  with_reducible repeat' (
    first | assumption | intro _ | apply follows_setStream | apply follows_ckSendAll | apply follows_manifest
          | apply follows_snapTake | apply follows_next | apply follows_hold | apply follows_wr
          | apply follows_drawn)

theorem follows_trickle {s₀ : State} {s : State} {n : Nat} (h_s : Follows s₀ s) :
    Follows s₀ (trickle s n) := by
  unfold trickle
  try dsimp only
  with_reducible repeat' (
    first | assumption | intro _ | apply follows_setStream | apply follows_engineRead | apply follows_settle
          | apply follows_next | apply follows_wrF | apply follows_incWrap | apply follows_trySend
          | simp only [follows_upd] | apply follows_ite | split)

theorem follows_exportBlock {s₀ : State} {s : State} {n h k : Nat} (h_s : Follows s₀ s) :
    Follows s₀ (exportBlock s n h k) := by
  unfold exportBlock
  try dsimp only
  with_reducible repeat' (
    first | assumption | intro _ | apply follows_setStream | apply follows_engineRead
          | apply follows_engineTouch | apply follows_engineWrite | apply follows_resumeTake
          | apply follows_settle | simp only [follows_upd] | apply follows_ite | split)

theorem follows_restoreMsg {s₀ : State} {r : List Byte × State} {n target h : Nat} {flash : Bool} {next : Nat} (h_r : Follows s₀ r.2) :
    Follows s₀ (restoreMsg r n target h flash next) := by
  unfold restoreMsg
  try dsimp only
  with_reducible repeat' (
    first | assumption | intro _ | apply follows_setStream | apply follows_next | apply follows_trySend
          | simp only [follows_upd] | apply follows_ite)

theorem follows_restoreSend {s₀ : State} {s : State} {n target h : Nat} {flash : Bool} {next : Nat} (h_s : Follows s₀ s) :
    Follows s₀ (restoreSend s n target h flash next) := by
  unfold restoreSend
  try dsimp only
  with_reducible repeat' (
    first | assumption | intro _ | apply follows_setStream | apply follows_engineRead
          | apply follows_resumeTake | apply follows_restoreMsg | apply follows_settle | apply follows_next
          | apply follows_incWrap | apply follows_ufsRead | simp only [follows_upd] | apply follows_ite
          | split)

theorem follows_execTrickleSend {s₀ : State} {n : Fin 4} {s : State} (h_s : Follows s₀ s) :
    FollowsNext s₀ (execTrickleSend n s) := by
  unfold execTrickleSend
  try dsimp only
  apply followsNext
  with_reducible repeat' (
    first | assumption | intro _ | apply follows_trickle | apply follows_exportBlock
          | apply follows_restoreSend | simp only [follows_upd] | apply follows_ite | split)

theorem follows_restorePiece {s₀ : State} {s : State} {n off : Nat} {data : List Byte} (h_s : Follows s₀ s) :
    Follows s₀ (restorePiece s n off data) := by
  unfold restorePiece
  try dsimp only
  with_reducible repeat' (
    first | assumption | intro _ | apply follows_each | apply follows_setStream | apply follows_engineTouch
          | apply follows_engineWrite | apply follows_report | simp only [follows_upd] | apply follows_ite
          | split)

theorem follows_pieceHeld {s₀ : State} {s : State} {n off : Nat} {data : List Byte} (h_s : Follows s₀ s) :
    Follows s₀ (pieceHeld s n off data) := by
  unfold pieceHeld
  try dsimp only
  with_reducible repeat' (
    first | assumption | intro _ | apply follows_setStream | apply follows_engineWrite)

theorem follows_execCheckpointDataArrival {s₀ : State} {m : Msg} {s : State} (h_s : Follows s₀ s) :
    FollowsNext s₀ (execCheckpointDataArrival m s) := by
  unfold execCheckpointDataArrival
  try dsimp only
  apply followsNext
  with_reducible repeat' (
    first | assumption | intro _ | apply follows_restorePiece | apply follows_pieceHeld | apply follows_inject
          | exact follows_takeEjected ‹_› ‹_› | refine follows_takeEjected ‹_› ?_ | simp only [follows_upd]
          | apply follows_ite | split)

theorem follows_sealBlock {s₀ : State} {ok : Bool} {m : Nat} {r : List Byte × State} (h_r : Follows s₀ r.2) :
    Follows s₀ (sealBlock ok m r).2 := by
  unfold sealBlock
  try dsimp only
  with_reducible repeat' (first | assumption)

theorem follows_sealCheck {s₀ : State} {a blocks : Nat} {acc : Bool × State} {k : Nat} (h_acc : Follows s₀ acc.2) :
    Follows s₀ (sealCheck a blocks acc k).2 := by
  unfold sealCheck
  try dsimp only
  with_reducible repeat' (
    first | assumption | intro _ | apply follows_engineRead | apply follows_sealBlock)

theorem follows_sealGood {s₀ : State} {s : State} {n step blocks : Nat} {a : Nat} (h_s : Follows s₀ s) :
    Follows s₀ (sealGood s n step blocks a) := by
  unfold sealGood
  try dsimp only
  with_reducible repeat' (
    first | assumption | intro _ | apply follows_setStream | apply follows_engineWrite
          | apply follows_resumeTake | apply follows_wrF | apply follows_incWrap | apply follows_emit)

theorem follows_sealDone {s₀ : State} {n step blocks : Nat} {a : Nat} {r : Bool × State} (h_r : Follows s₀ r.2) :
    Follows s₀ (sealDone n step blocks a r) := by
  unfold sealDone
  try dsimp only
  with_reducible repeat' (
    first | assumption | intro _ | apply follows_resumeTake | apply follows_ckEndHold | apply follows_sealGood
          | apply follows_incSat | apply follows_step | simp only [follows_upd] | apply follows_ite)

theorem follows_execSeal {s₀ : State} {n : Fin 4} {blocks : Nat} {s : State} (h_s : Follows s₀ s) :
    FollowsNext s₀ (execSeal n blocks s) := by
  unfold execSeal
  try dsimp only
  apply followsNext
  with_reducible repeat' (
    first | assumption | intro _ | apply follows_foldl | apply follows_foldl2 | apply follows_foldl1
          | apply follows_sealCheck | apply follows_sealDone | apply follows_settle | apply follows_step
          | simp only [follows_upd] | apply follows_ite | split)

theorem follows_execSealedReceived {s₀ : State} {n : Fin 4} {step : Fin 281474976710656} {dt : Nat} {s : State} (h_s : Follows s₀ s) :
    FollowsNext s₀ (execSealedReceived n step dt s) := by
  unfold execSealedReceived
  try dsimp only
  apply followsNext
  with_reducible repeat' (
    first | assumption | intro _ | apply follows_setStream | apply follows_setTau | apply follows_resumeTake
          | apply follows_wrF | apply follows_raise | apply follows_step | simp only [follows_upd]
          | apply follows_ite)

theorem follows_execCkDue {s₀ : State} {n : Fin 4} {s : State} (h_s : Follows s₀ s) :
    FollowsNext s₀ (execCkDue n s) := by
  unfold execCkDue
  try dsimp only
  apply followsNext
  with_reducible repeat' (
    first | assumption | intro _ | apply follows_setStream | apply follows_resumeTake | apply follows_raise
          | apply follows_report | simp only [follows_upd] | apply follows_ite | split)

theorem follows_flashStep {s₀ : State} {s : State} {n h k : Nat} (h_s : Follows s₀ s) :
    Follows s₀ (flashStep s n h k) := by
  unfold flashStep
  try dsimp only
  with_reducible repeat' (
    first | assumption | intro _ | apply follows_setStream | apply follows_engineRead | apply follows_settle
          | apply follows_ufsWrite | simp only [follows_upd] | apply follows_ite)

theorem follows_execFlashCopy {s₀ : State} {n : Fin 4} {s : State} (h_s : Follows s₀ s) :
    FollowsNext s₀ (execFlashCopy n s) := by
  unfold execFlashCopy
  try dsimp only
  apply followsNext
  with_reducible repeat' (
    first | assumption | intro _ | apply follows_setStream | apply follows_flashStep | simp only [follows_upd]
          | apply follows_ite | split)

theorem follows_flashDone {s₀ : State} {s : State} {n : Nat} {ok : Bool} (h_s : Follows s₀ s) :
    Follows s₀ (flashDone s n ok) := by
  unfold flashDone
  try dsimp only
  with_reducible repeat' (
    first | assumption | intro _ | apply follows_setStream | apply follows_resumeTake
          | apply follows_flashStep | apply follows_report | simp only [follows_upd] | apply follows_ite
          | split)

theorem follows_restorePart {s₀ : State} {s : State} {n k : Nat} {ok : Bool} {data : List Byte} (h_s : Follows s₀ s) :
    Follows s₀ (restorePart s n k ok data) := by
  unfold restorePart
  try dsimp only
  with_reducible repeat' (
    first | assumption | intro _ | apply follows_setStream | apply follows_resumeTake | apply follows_report
          | simp only [follows_upd] | apply follows_ite | split)

theorem follows_startRestore {s₀ : State} {s : State} {n target h : Nat} {flash : Bool} (h_s : Follows s₀ s) :
    Follows s₀ (startRestore s n target h flash) := by
  unfold startRestore
  try dsimp only
  with_reducible repeat' (
    first | assumption | intro _ | apply follows_setStream | apply follows_engineTouch | apply follows_report
          | apply follows_ignored | apply follows_ufsRead | simp only [follows_upd] | apply follows_ite)

theorem follows_ckCmd {s₀ : State} {s : State} {n v : Nat} (h_s : Follows s₀ s) :
    Follows s₀ (ckCmd s n v) := by
  unfold ckCmd
  try dsimp only
  with_reducible repeat' (
    first | assumption | intro _ | apply follows_setStream | apply follows_ckTake | apply follows_ckCancel
          | apply follows_startRestore | apply follows_ignored | simp only [follows_upd] | apply follows_ite
          | split)

end Sys2Proof.Machine
end

