-- ==== Sys2Proof/Laws/FollowsDataflow.lean ====
section
/-! SUPPORT. `Follows` is kept by the operations of Machine/Dataflow.lean. -/

namespace Sys2Proof.Machine

theorem follows_addCompat {s₀ : State} {s : State} {t k ns : Nat} (h_s : Follows s₀ s) :
    Follows s₀ (addCompat s t k ns) := by
  unfold addCompat
  try dsimp only
  with_reducible repeat' (first | assumption | intro _ | simp only [follows_upd])

theorem follows_foldAdvance {s₀ : State} {s : State} {t : Nat} (h_s : Follows s₀ s) :
    Follows s₀ (foldAdvance s t) := by
  unfold foldAdvance
  try dsimp only
  with_reducible repeat' (
    first | assumption | intro _ | apply follows_addCompat | apply follows_setFold | apply follows_drawn
          | apply follows_incWrap | simp only [follows_upd] | apply follows_ite)

theorem follows_readHead {s₀ : State} {s : State} {t q : Nat} (h_s : Follows s₀ s) :
    Follows s₀ (readHead s t q) := by
  unfold readHead
  refine follows_getD (fun v e => ?_) h_s
  obtain ⟨m, hm, rfl⟩ := Option.map_eq_some_iff.1 e
  exact follows_headMsg hm h_s

theorem follows_dropStale {s₀ : State} {s : State} {t q : Nat} (h_s : Follows s₀ s) :
    Follows s₀ (dropStale s t q) := by
  unfold dropStale
  try dsimp only
  with_reducible repeat' (
    first | assumption | intro _ | apply follows_readHead | apply follows_incWrap
          | apply follows_reportLimited | apply follows_release)

theorem follows_flowFault {s₀ : State} {s : State} {t q c code : Nat} (h_s : Follows s₀ s) :
    Follows s₀ (flowFault s t q c code) := by
  unfold flowFault
  try dsimp only
  with_reducible repeat' (
    first | assumption | intro _ | apply follows_programFault | apply follows_readHead
          | simp only [follows_upd] | apply follows_ite)

theorem follows_endRow {s₀ : State} {s : State} {t slot c size : Nat} {checked : Bool} {bs : List Byte} (h_s : Follows s₀ s) :
    Follows s₀ (endRow s t slot c size checked bs).2 := by
  unfold endRow
  try dsimp only
  with_reducible repeat' (first | assumption | apply follows_reportLimited | apply follows_ite | split)

theorem follows_gather {s₀ : State} {s : State} {t q : Nat} {m : Msg} (h_s : Follows s₀ s) :
    Follows s₀ (gather s t q m) := by
  unfold gather
  try dsimp only
  with_reducible repeat' (first | assumption | apply follows_setAct | apply follows_endRow | simp only [follows_upd] | apply follows_ite)

theorem follows_awaitToken {s₀ : State} {s : State} {t q : Nat} (h_s : Follows s₀ s) :
    Follows s₀ (awaitToken s t q) := by
  unfold awaitToken
  try dsimp only
  with_reducible repeat' (
    first | assumption | intro _ | apply follows_awaitHead | apply follows_beginRead | simp only [follows_upd]
          | apply follows_ite)

theorem follows_consume {s₀ : State} {s : State} {t q : Nat} (h_s : Follows s₀ s) :
    Follows s₀ (consume s t q) := by
  unfold consume
  try dsimp only
  with_reducible repeat' (
    first | assumption | exact follows_headMsg ‹_› ‹_› | refine follows_headMsg ‹_› ?_ | apply follows_release
          | apply follows_endRead | simp only [follows_upd] | split)

theorem follows_execTokenAtHead {s₀ : State} {t : TileId} {q : QueueId} {s : State} (h_s : Follows s₀ s) :
    FollowsNext s₀ (execTokenAtHead t q s) := by
  unfold execTokenAtHead
  try dsimp only
  apply followsNext
  with_reducible repeat' (
    first | assumption | intro _ | apply follows_readHead | apply follows_dropStale | apply follows_flowFault
          | apply follows_gather | apply follows_awaitToken | apply follows_consume | apply follows_incWrap
          | apply follows_awaitHead | apply follows_release | simp only [follows_upd] | apply follows_ite
          | split)

theorem follows_land {s₀ : State} {s : State} {t : Nat} {l : List SpAcc} (h_s : Follows s₀ s) :
    Follows s₀ (land s t l) := by
  unfold land
  try dsimp only
  with_reducible repeat' (
    first | assumption | intro _ | apply follows_each | apply follows_setAct | apply follows_access
          | simp only [follows_upd] | apply follows_ite)

theorem follows_startAct {s₀ : State} {s : State} {t n q : Nat} {m : Msg} (h_s : Follows s₀ s) :
    Follows s₀ (startAct s t n q m) := by
  unfold startAct
  try dsimp only
  with_reducible repeat' (
    first | assumption | intro _ | apply follows_progress | apply follows_gather | apply follows_consume
          | apply follows_land | apply follows_setAct | apply follows_wr | simp only [follows_upd]
          | apply follows_ite)

theorem follows_execActivationStart {s₀ : State} {t : TileId} {s : State} (h_s : Follows s₀ s) :
    FollowsNext s₀ (execActivationStart t s) := by
  unfold execActivationStart
  try dsimp only
  apply followsNext
  with_reducible repeat' (
    first | assumption | intro _ | apply follows_flowFault | apply follows_awaitToken | apply follows_startAct
          | simp only [follows_upd] | apply follows_ite | split)

theorem follows_execActivationComplete {s₀ : State} {t : TileId} {s : State} (h_s : Follows s₀ s) :
    FollowsNext s₀ (execActivationComplete t s) := by
  unfold execActivationComplete
  try dsimp only
  apply followsNext
  with_reducible repeat' (
    first | assumption | intro _ | apply follows_wrF | apply follows_incWrap | apply follows_progress | apply follows_setAct
          | apply follows_foldAdvance | apply follows_ite)

theorem follows_sendOut {s₀ : State} {s : State} {t u q : Nat} {m : Msg} {o : Bool × Nat × Nat} (h_s : Follows s₀ s) :
    Follows s₀ (sendOut s t u q m o) := by
  unfold sendOut
  try dsimp only
  with_reducible repeat' (first | assumption | apply follows_trySend)

theorem follows_bumpSteer {s₀ : State} {s : State} {t u : Nat} {e : Steer} (h_s : Follows s₀ s) :
    Follows s₀ (bumpSteer s t u e) := by
  unfold bumpSteer
  try dsimp only
  with_reducible repeat' (first | assumption | intro _ | simp only [follows_upd] | apply follows_ite)

theorem follows_setSteerSince {s₀ : State} {s : State} {t u v : Nat} (h_s : Follows s₀ s) :
    Follows s₀ (setSteerSince s t u v) := by
  unfold setSteerSince
  try dsimp only
  with_reducible repeat' (first | assumption | intro _ | simp only [follows_upd])

theorem follows_stallSteer {s₀ : State} {s : State} {t u : Nat} (h_s : Follows s₀ s) :
    Follows s₀ (stallSteer s t u) := by
  unfold stallSteer
  try dsimp only
  with_reducible repeat' (first | assumption | intro _ | apply follows_setSteerSince | simp only [follows_upd] | apply follows_ite)

theorem follows_endStall {s₀ : State} {s : State} {t u q : Nat} (h_s : Follows s₀ s) :
    Follows s₀ (endStall s t u q) := by
  unfold endStall
  try dsimp only
  with_reducible repeat' (
    first | assumption | intro _ | apply follows_setSteerSince | apply follows_qCount
          | simp only [follows_upd] | apply follows_ite)

theorem follows_fire {s₀ : State} {s : State} {t u : Nat} {e : Steer} {q : Nat} {m : Msg} {outs : List (Bool × Nat × Nat)} {ins : List Nat} (h_s : Follows s₀ s) :
    Follows s₀ (fire s t u e q m outs ins) := by
  unfold fire
  try dsimp only
  with_reducible repeat' (
    first | assumption | intro _ | apply follows_each | apply follows_progress | apply follows_consume
          | apply follows_sendOut | apply follows_bumpSteer | apply follows_endStall | apply follows_incWrap
          | simp only [follows_upd] | apply follows_ite)

theorem follows_outGuard {s₀ : State} {t : Nat} {c : Nat} {s : State} {o : Bool × Nat × Nat} (h_s : Follows s₀ s) :
    Follows s₀ (outGuard t c s o) := by
  unfold outGuard
  try dsimp only
  with_reducible repeat' (first | assumption | intro _ | apply follows_creditGuard | simp only [follows_upd] | apply follows_ite | split)

theorem follows_steerIdle {s₀ : State} {s : State} {t u : Nat} {e : Steer} (h_s : Follows s₀ s) :
    Follows s₀ (steerIdle s t u e) := by
  unfold steerIdle
  try dsimp only
  with_reducible repeat' (
    first | assumption | intro _ | apply follows_each | apply follows_awaitToken | apply follows_stallSteer
          | apply follows_outGuard | simp only [follows_upd] | apply follows_ite)

theorem follows_endStalls {s₀ : State} {s : State} {t : Nat} {c : Option Nat} (h_s : Follows s₀ s) :
    Follows s₀ (endStalls s t c) := by
  unfold endStalls
  try dsimp only
  with_reducible repeat' (
    first | assumption | intro _ | apply follows_each | apply follows_endStall | simp only [follows_upd]
          | apply follows_ite)

theorem follows_execSwitch {s₀ : State} {t : TileId} {u : Fin 8} {s : State} (h_s : Follows s₀ s) :
    FollowsNext s₀ (execSwitch t u s) := by
  unfold execSwitch
  try dsimp only
  apply followsNext
  with_reducible repeat' (
    first | assumption | intro _ | apply follows_flowFault | apply follows_fire | apply follows_steerIdle
          | simp only [follows_upd] | apply follows_ite | split)

theorem follows_execMerge {s₀ : State} {t : TileId} {u : Fin 8} {s : State} (h_s : Follows s₀ s) :
    FollowsNext s₀ (execMerge t u s) := by
  unfold execMerge
  try dsimp only
  apply followsNext
  with_reducible repeat' (
    first | assumption | intro _ | apply follows_flowFault | apply follows_fire | apply follows_steerIdle
          | simp only [follows_upd] | apply follows_ite | split)

theorem follows_execGate {s₀ : State} {t : TileId} {u : Fin 8} {s : State} (h_s : Follows s₀ s) :
    FollowsNext s₀ (execGate t u s) := by
  unfold execGate
  try dsimp only
  apply followsNext
  with_reducible repeat' (
    first | assumption | intro _ | apply follows_fire | apply follows_steerIdle | apply follows_incWrap
          | simp only [follows_upd] | apply follows_ite | split)

theorem follows_execJoin {s₀ : State} {t : TileId} {u : Fin 8} {s : State} (h_s : Follows s₀ s) :
    FollowsNext s₀ (execJoin t u s) := by
  unfold execJoin
  try dsimp only
  apply followsNext
  with_reducible repeat' (
    first | assumption | intro _ | apply follows_fire | apply follows_steerIdle | simp only [follows_upd]
          | apply follows_ite | split)

theorem follows_execReplicate {s₀ : State} {t : TileId} {u : Fin 8} {s : State} (h_s : Follows s₀ s) :
    FollowsNext s₀ (execReplicate t u s) := by
  unfold execReplicate
  try dsimp only
  apply followsNext
  with_reducible repeat' (
    first | assumption | intro _ | apply follows_fire | apply follows_steerIdle | simp only [follows_upd]
          | apply follows_ite | split)

end Sys2Proof.Machine
end

