-- ==== Sys2Proof/Laws/FollowsFlowRows.lean ====
section
/-! SUPPORT. `Follows` is kept by the operations of Machine/FlowRows.lean. -/

namespace Sys2Proof.Machine

theorem follows_setShadowBad {s₀ : State} {s : State} {t : Nat} {b : Bool} (h_s : Follows s₀ s) :
    Follows s₀ (setShadowBad s t b) := by
  unfold setShadowBad
  try dsimp only
  with_reducible repeat' (first | assumption | apply follows_wrB)

theorem follows_setDfState {s₀ : State} {s : State} {t v : Nat} (h_s : Follows s₀ s) :
    Follows s₀ (setDfState s t v) := by
  unfold setDfState
  try dsimp only
  with_reducible repeat' (first | assumption | apply follows_wrF)

theorem follows_recRefused {s₀ : State} {s : State} {t slot code : Nat} (h_s : Follows s₀ s) :
    Follows s₀ (recRefused s t slot code) := by
  unfold recRefused
  try dsimp only
  with_reducible repeat' (first | assumption | apply follows_report | apply follows_setShadowBad)

theorem follows_storeRec {s₀ : State} {s : State} {t slot : Nat} {w : List Nat} (h_s : Follows s₀ s) :
    Follows s₀ (storeRec s t slot w) := by
  unfold storeRec
  try dsimp only
  with_reducible repeat' (
    first | assumption | intro _ | apply follows_wr | apply follows_each | apply follows_recRefused | simp only [follows_upd]
          | split)

theorem follows_stopChecks {s₀ : State} {s : State} {t : Nat} (h_s : Follows s₀ s) :
    Follows s₀ (stopChecks s t) := by
  unfold stopChecks
  try dsimp only
  with_reducible repeat' (first | assumption | apply follows_report | apply follows_setShadowBad | apply follows_ite)

theorem follows_ringWalk {s₀ : State} {t q : Nat} {y0 : Nat} {y1 : Nat} {y2 : State} (h_y2 : Follows s₀ y2) :
    Follows s₀ (ringWalk t q y0 y1 y2).2 := by
  induction y0 generalizing y1 y2 with
  | zero => exact h_y2
  | succ n ih =>
    unfold ringWalk
    try dsimp only
    with_reducible repeat' (
      first | assumption | (apply ih) | intro _ | apply follows_next | apply follows_ringRead
            | simp only [follows_upd] | apply follows_ite | split)

theorem follows_msgsAt {s₀ : State} {s : State} {t q : Nat} (h_s : Follows s₀ s) :
    Follows s₀ (msgsAt s t q).2 := by
  unfold msgsAt
  try dsimp only
  with_reducible repeat' (first | assumption | intro _ | apply follows_ringWalk)

theorem follows_flushed {s₀ : State} {s : State} {t q : Nat} {m : Msg} (h_s : Follows s₀ s) :
    Follows s₀ (flushed s t q m) := by
  unfold flushed
  try dsimp only
  with_reducible repeat' (
    first | assumption | intro _ | apply follows_inject | apply follows_incWrap)

theorem follows_flushQueue {s₀ : State} {s : State} {t q : Nat} (h_s : Follows s₀ s) :
    Follows s₀ (flushQueue s t q) := by
  unfold flushQueue
  try dsimp only
  with_reducible repeat' (
    first | assumption | intro _ | apply follows_each | apply follows_progress | apply follows_msgsAt
          | apply follows_flushed | apply follows_wrG | apply follows_drainDone | apply follows_ringMove
          | simp only [follows_upd] | apply follows_ite)

theorem follows_enterFlush {s₀ : State} {s : State} {t : Nat} (h_s : Follows s₀ s) :
    Follows s₀ (enterFlush s t) := by
  unfold enterFlush
  try dsimp only
  with_reducible repeat' (
    first | assumption | intro _ | apply follows_each | apply follows_endStalls | apply follows_abandonAct
          | apply follows_setDfState | apply follows_flushQueue | apply follows_dropSends
          | apply follows_endRead | simp only [follows_upd] | apply follows_ite)

theorem follows_setStop {s₀ : State} {s : State} {t : Nat} {x : StopState} (h_s : Follows s₀ s) :
    Follows s₀ (setStop s t x) := by
  unfold setStop
  try dsimp only
  with_reducible repeat' (first | assumption | intro _ | simp only [follows_upd])

theorem follows_stopAt {s₀ : State} {s : State} {t : Nat} {p : Ctrl} (h_s : Follows s₀ s) :
    Follows s₀ (stopAt s t p) := by
  unfold stopAt
  try dsimp only
  with_reducible repeat' (
    first | assumption | apply follows_setDfState | apply follows_stopChecks | apply follows_enterFlush | apply follows_setStop
          | simp only [follows_upd] | apply follows_ite)

theorem follows_execStop {s₀ : State} {t : TileId} {p : Ctrl} {s : State} (h_s : Follows s₀ s) :
    FollowsNext s₀ (execStop t p s) := by
  unfold execStop
  try dsimp only
  apply followsNext
  with_reducible repeat' (
    first | assumption | exact follows_takeEjected ‹_› ‹_› | refine follows_takeEjected ‹_› ?_ | apply follows_stopAt
          | simp only [follows_upd] | apply follows_ite | split)

theorem follows_flowReply {s₀ : State} {s : State} {t : Nat} {p : Ctrl} {type : Nat} {words : List Nat} (h_s : Follows s₀ s) :
    Follows s₀ (flowReply s t p type words) := by
  unfold flowReply
  try dsimp only
  with_reducible repeat' (first | assumption | apply follows_inject)

theorem follows_execProbe {s₀ : State} {t : TileId} {p : Ctrl} {s : State} (h_s : Follows s₀ s) :
    FollowsNext s₀ (execProbe t p s) := by
  unfold execProbe
  try dsimp only
  apply followsNext
  with_reducible repeat' (
    first | assumption | exact follows_takeEjected ‹_› ‹_› | refine follows_takeEjected ‹_› ?_ | apply follows_flowReply
          | simp only [follows_upd] | apply follows_ite | split)

theorem follows_copyRegs {s₀ : State} {s : State} {t src dst n : Nat} (h_s : Follows s₀ s) :
    Follows s₀ (copyRegs s t src dst n) := by
  unfold copyRegs
  try dsimp only
  with_reducible repeat' (first | assumption | intro _ | apply follows_wr | apply follows_each)

theorem follows_zeroRegs {s₀ : State} {s : State} {t dst n : Nat} (h_s : Follows s₀ s) :
    Follows s₀ (zeroRegs s t dst n) := by
  unfold zeroRegs
  try dsimp only
  with_reducible repeat' (first | assumption | intro _ | apply follows_wr | apply follows_each)

theorem follows_restartSteer {s₀ : State} {s : State} {t : Nat} (h_s : Follows s₀ s) :
    Follows s₀ (restartSteer s t) := by
  unfold restartSteer
  try dsimp only
  with_reducible repeat' (first | assumption | simp only [follows_upd])

theorem follows_commitAt {s₀ : State} {s : State} {t : Nat} {p : Ctrl} (h_s : Follows s₀ s) :
    Follows s₀ (commitAt s t p) := by
  unfold commitAt
  try dsimp only
  with_reducible repeat' (
    first | assumption | intro _ | apply follows_setShadowBad | apply follows_setDfState
          | apply follows_setStop | apply follows_copyRegs | apply follows_restartSteer
          | apply follows_setFold | apply follows_passTorn | apply follows_wr | apply follows_wrF
          | apply follows_incWrap | simp only [follows_upd] | apply follows_ite)

theorem follows_cancelAt {s₀ : State} {s : State} {t : Nat} (h_s : Follows s₀ s) :
    Follows s₀ (cancelAt s t) := by
  unfold cancelAt
  try dsimp only
  with_reducible repeat' (
    first | assumption | apply follows_setShadowBad | apply follows_setDfState | apply follows_setStop)

theorem follows_releaseAt {s₀ : State} {s : State} {t : Nat} (h_s : Follows s₀ s) :
    Follows s₀ (releaseAt s t) := by
  unfold releaseAt
  try dsimp only
  with_reducible repeat' (
    first | assumption | apply follows_wrF | apply follows_setDfState | apply follows_setStop | apply follows_zeroRegs
          | apply follows_ite)

theorem follows_onDraining {s₀ : State} {s : State} {t type : Nat} {p : Ctrl} {f : State → State} (h_s : Follows s₀ s) (h_f : ∀ (x0 : State), Follows s₀ x0 → Follows s₀ (f x0)) :
    Follows s₀ (onDraining s t type p f) := by
  unfold onDraining
  try dsimp only
  with_reducible repeat' (
    first | assumption | apply h_f | exact follows_takeEjected ‹_› ‹_› | refine follows_takeEjected ‹_› ?_
          | simp only [follows_upd] | apply follows_ite | split)

theorem follows_execCommit {s₀ : State} {t : TileId} {p : Ctrl} {s : State} (h_s : Follows s₀ s) :
    FollowsNext s₀ (execCommit t p s) := by
  unfold execCommit
  try dsimp only
  apply followsNext
  with_reducible repeat' (first | assumption | intro _ | apply follows_commitAt | apply follows_onDraining)

theorem follows_execCancel {s₀ : State} {t : TileId} {p : Ctrl} {s : State} (h_s : Follows s₀ s) :
    FollowsNext s₀ (execCancel t p s) := by
  unfold execCancel
  try dsimp only
  apply followsNext
  with_reducible repeat' (first | assumption | intro _ | apply follows_cancelAt | apply follows_onDraining)

theorem follows_execRelease {s₀ : State} {t : TileId} {p : Ctrl} {s : State} (h_s : Follows s₀ s) :
    FollowsNext s₀ (execRelease t p s) := by
  unfold execRelease
  try dsimp only
  apply followsNext
  with_reducible repeat' (first | assumption | intro _ | apply follows_releaseAt | apply follows_onDraining)

theorem follows_flowCmd {s₀ : State} {s : State} {type group set epoch round : Nat} {flush : Bool} (h_s : Follows s₀ s) :
    Follows s₀ (flowCmd s type group set epoch round flush) := by
  unfold flowCmd
  try dsimp only
  with_reducible repeat' (first | assumption | intro _ | apply follows_hbInject)

theorem follows_setDrain {s₀ : State} {s : State} {set : Nat} {d : Option Drain} (h_s : Follows s₀ s) :
    Follows s₀ (setDrain s set d) := by
  unfold setDrain
  try dsimp only
  with_reducible repeat' (first | assumption | intro _ | simp only [follows_upd])

theorem follows_setPlaced {s₀ : State} {s : State} {set : Nat} {p : Placed} (h_s : Follows s₀ s) :
    Follows s₀ (setPlaced s set p) := by
  unfold setPlaced
  try dsimp only
  with_reducible repeat' (first | assumption | intro _ | simp only [follows_upd])

theorem follows_releaseTile {s₀ : State} {s : State} {set epoch t : Nat} (h_s : Follows s₀ s) :
    Follows s₀ (releaseTile s set epoch t) := by
  unfold releaseTile
  try dsimp only
  with_reducible repeat' (first | assumption | intro _ | apply follows_hbInject)

theorem follows_commitSet {s₀ : State} {s : State} {d : Drain} (h_s : Follows s₀ s) :
    Follows s₀ (commitSet s d) := by
  unfold commitSet
  try dsimp only
  with_reducible repeat' (
    first | assumption | intro _ | apply follows_each | apply follows_requestTeardown | apply follows_flowCmd
          | apply follows_setDrain | apply follows_setPlaced | apply follows_releaseTile)

theorem follows_probeResult {s₀ : State} {s : State} {d : Drain} {p : Ctrl} (h_s : Follows s₀ s) :
    Follows s₀ (probeResult s d p) := by
  unfold probeResult
  try dsimp only
  with_reducible repeat' (
    first | assumption | intro _ | apply follows_flowCmd | apply follows_setDrain | apply follows_commitSet
          | apply follows_report | simp only [follows_upd] | apply follows_ite)

theorem follows_sendProbe {s₀ : State} {s : State} {d : Drain} (h_s : Follows s₀ s) :
    Follows s₀ (sendProbe s d) := by
  unfold sendProbe
  try dsimp only
  with_reducible repeat' (
    first | assumption | intro _ | apply follows_flowCmd | apply follows_setDrain | simp only [follows_upd]
          | apply follows_ite)

theorem follows_execProbeRound {s₀ : State} {set : Fin 256} {root : TileId} {reply : Option Ctrl} {s : State} (h_s : Follows s₀ s) :
    FollowsNext s₀ (execProbeRound set root reply s) := by
  unfold execProbeRound
  try dsimp only
  apply followsNext
  with_reducible repeat' (
    first | assumption | intro _ | apply follows_probeResult | apply follows_sendProbe
          | exact follows_takeEjected ‹_› ‹_› | refine follows_takeEjected ‹_› ?_ | simp only [follows_upd]
          | apply follows_ite | split)

theorem follows_execFlushTimeout {s₀ : State} {set : Fin 256} {s : State} (h_s : Follows s₀ s) :
    FollowsNext s₀ (execFlushTimeout set s) := by
  unfold execFlushTimeout
  try dsimp only
  apply followsNext
  with_reducible repeat' (
    first | assumption | intro _ | apply follows_each | apply follows_fenceTile | apply follows_flowCmd
          | apply follows_setDrain | apply follows_report | simp only [follows_upd] | apply follows_ite
          | split)

theorem follows_placeFold {s₀ : State} {s : State} {t : Nat} {slots : List Nat} (h_s : Follows s₀ s) :
    Follows s₀ (placeFold s t slots) := by
  unfold placeFold
  try dsimp only
  with_reducible repeat' (first | assumption | intro _ | apply follows_wr | apply follows_wrF | apply follows_each | apply follows_zeroRegs)

theorem follows_placeTile {s₀ : State} {s : State} {a : Nat} {im : Image} {p : Placement} {t : Nat} (h_s : Follows s₀ s) :
    Follows s₀ (placeTile s a im p t) := by
  unfold placeTile
  try dsimp only
  with_reducible repeat' (
    first | assumption | intro _ | apply follows_wr | apply follows_each | apply follows_storeRec | apply follows_zeroRegs
          | apply follows_placeFold | apply follows_ite)

theorem follows_beginDrain {s₀ : State} {s : State} {set epoch : Nat} {flush : Bool} {tiles : List Nat} {next : Placed} (h_s : Follows s₀ s) :
    Follows s₀ (beginDrain s set epoch flush tiles next) := by
  unfold beginDrain
  try dsimp only
  with_reducible repeat' (
    first | assumption | intro _ | apply follows_flowCmd | apply follows_setDrain)

theorem follows_noPlacement {s₀ : State} {s : State} {a : Nat} {im : Image} (h_s : Follows s₀ s) :
    Follows s₀ (noPlacement s a im) := by
  unfold noPlacement
  try dsimp only
  with_reducible repeat' (first | assumption | intro _ | apply follows_each | apply follows_requestTeardown | simp only [follows_upd])

theorem follows_execSetLoad {s₀ : State} {image : Nat} {group : Fin 4096} {cfgs steers renum : List (Nat × Nat)} {s : State} (h_s : Follows s₀ s) :
    FollowsNext s₀ (execSetLoad image group cfgs steers renum s) := by
  unfold execSetLoad
  try dsimp only
  apply followsNext
  with_reducible repeat' (
    first | assumption | intro _ | apply follows_each | apply follows_placeTile | apply follows_beginDrain
          | apply follows_noPlacement | simp only [follows_upd] | apply follows_ite)

theorem follows_execTsSampleWindow {s₀ : State} {s0 : State} (h_s0 : Follows s₀ s0) :
    FollowsNext s₀ (execTsSampleWindow s0) := by
  unfold execTsSampleWindow
  try dsimp only
  apply followsNext
  with_reducible repeat' (
    first | assumption | intro _ | apply follows_each | apply follows_mappedWrite | apply follows_wrF
          | apply follows_incSat | apply follows_limitOnce | apply follows_reportLimited
          | simp only [follows_upd] | apply follows_ite)

theorem follows_compatTick {s₀ : State} {s : State} (h_s : Follows s₀ s) :
    Follows s₀ (compatTick s) := by
  unfold compatTick
  try dsimp only
  with_reducible repeat' (first | assumption | intro _ | apply follows_each | apply follows_addCompat)

theorem follows_noteCompat {s₀ : State} {s : State} {t n dt : Nat} (h_s : Follows s₀ s) :
    Follows s₀ (noteCompat s t n dt) := by
  unfold noteCompat
  try dsimp only
  with_reducible repeat' (first | assumption | intro _ | simp only [follows_upd])

theorem follows_execCompatUnsampled {s₀ : State} {t : TileId} {n : Fin 16} {s : State} (h_s : Follows s₀ s) :
    FollowsNext s₀ (execCompatUnsampled t n s) := by
  unfold execCompatUnsampled
  try dsimp only
  apply followsNext
  with_reducible repeat' (first | assumption | intro _ | apply follows_report | apply follows_noteCompat | apply follows_ite)

theorem follows_execMessageRelease {s₀ : State} {t : TileId} {q : QueueId} {s : State} (h_s : Follows s₀ s) :
    FollowsNext s₀ (execMessageRelease t q s) := by
  unfold execMessageRelease
  try dsimp only
  apply followsNext
  with_reducible repeat' (
    first | assumption | intro _ | apply follows_dropStale | apply follows_endOp | apply follows_getOp
          | apply follows_queueGuard | simp only [follows_upd] | apply follows_ite | split)

end Sys2Proof.Machine
end

