-- ==== Sys2Proof/Laws/FollowsTeardown.lean ====
section
/-! SUPPORT. `Follows` is kept by the operations of Machine/Teardown.lean. -/

namespace Sys2Proof.Machine

theorem follows_setAtt {s₀ : State} {s : State} {c : Nat} {a : Attempt} (h_s : Follows s₀ s) :
    Follows s₀ (setAtt s c a) := by
  unfold setAtt
  try dsimp only
  with_reducible repeat' (first | assumption | intro _ | simp only [follows_upd])

theorem follows_voteForPort {s₀ : State} {s : State} {c p : Nat} (h_s : Follows s₀ s) :
    Follows s₀ (voteForPort s c p) := by
  unfold voteForPort
  try dsimp only
  with_reducible repeat' (
    first | assumption | intro _ | apply follows_hearOrHold | apply follows_replyHeard
          | simp only [follows_upd] | apply follows_ite)

theorem follows_votesOfLost {s₀ : State} {s : State} {c : Nat} (h_s : Follows s₀ s) :
    Follows s₀ (votesOfLost s c) := by
  unfold votesOfLost
  try dsimp only
  with_reducible repeat' (
    first | assumption | intro _ | apply follows_each | apply follows_voteForPort)

theorem follows_sendVote {s₀ : State} {s : State} {t c : Nat} {words : List Nat} (h_s : Follows s₀ s) :
    Follows s₀ (sendVote s t c words) := by
  unfold sendVote
  try dsimp only
  with_reducible repeat' (first | assumption | apply follows_inject)

theorem follows_notice {s₀ : State} {s : State} {t c : Nat} (h_s : Follows s₀ s) :
    Follows s₀ (notice s t c) := by
  unfold notice
  try dsimp only
  with_reducible repeat' (first | assumption | apply follows_setAtt | simp only [follows_upd] | apply follows_ite)

theorem follows_tileVote {s₀ : State} {s : State} {t c : Nat} {clean nofault : Bool} (h_s : Follows s₀ s) :
    Follows s₀ (tileVote s t c clean nofault) := by
  unfold tileVote
  try dsimp only
  with_reducible repeat' (first | assumption | apply follows_setVoteHeld | apply follows_sendVote | apply follows_notice)

theorem follows_standInVote {s₀ : State} {s : State} {t c : Nat} {guilty : Bool} (h_s : Follows s₀ s) :
    Follows s₀ (standInVote s t c guilty) := by
  unfold standInVote
  try dsimp only
  with_reducible repeat' (first | assumption | apply follows_sendVote | apply follows_notice)

theorem follows_standIns {s₀ : State} {s : State} {c : Nat} {tiles : List Nat} (h_s : Follows s₀ s) :
    Follows s₀ (standIns s c tiles) := by
  unfold standIns
  try dsimp only
  with_reducible repeat' (
    first | assumption | intro _ | apply follows_each | apply follows_standInVote)

theorem follows_originate {s₀ : State} {s : State} {c cause : Nat} {fault : Bool} (h_s : Follows s₀ s) :
    Follows s₀ (originate s c cause fault) := by
  unfold originate
  try dsimp only
  with_reducible repeat' (first | assumption | apply follows_incWrap | apply follows_inject)

theorem follows_stopUnits {s₀ : State} {c : Nat} {s : State} {t : Nat} (h_s : Follows s₀ s) :
    Follows s₀ (stopUnits c s t) := by
  unfold stopUnits
  try dsimp only
  with_reducible repeat' (
    first | assumption | intro _ | apply follows_each | apply follows_endStalls | apply follows_dmaStat
          | apply follows_abandonAct | apply follows_gwSettled | apply follows_setThread
          | apply follows_updBusy | apply follows_setChan | simp only [follows_upd] | apply follows_ite)

theorem follows_tearStop {s₀ : State} {s : State} {c : Nat} (h_s : Follows s₀ s) :
    Follows s₀ (tearStop s c) := by
  unfold tearStop
  try dsimp only
  with_reducible repeat' (
    first | assumption | intro _ | apply follows_each | apply follows_dropSends | apply follows_stopUnits)

theorem follows_gbEpochs {s₀ : State} {s : State} {c e : Nat} (h_s : Follows s₀ s) :
    Follows s₀ (gbEpochs s c e) := by
  unfold gbEpochs
  try dsimp only
  with_reducible repeat' (
    first | assumption | intro _ | apply follows_each | apply follows_wrF | simp only [follows_upd]
          | apply follows_ite)

theorem follows_tearEpoch {s₀ : State} {s : State} {c : Nat} (h_s : Follows s₀ s) :
    Follows s₀ (tearEpoch s c) := by
  unfold tearEpoch
  try dsimp only
  with_reducible repeat' (
    first | assumption | intro _ | apply follows_each | apply follows_wrF | apply follows_wrG
          | apply follows_gbEpochs)

theorem follows_tearQueues {s₀ : State} {s : State} {c : Nat} (h_s : Follows s₀ s) :
    Follows s₀ (tearQueues s c) := by
  unfold tearQueues
  try dsimp only
  with_reducible repeat' (first | assumption | intro _ | apply follows_each | apply follows_resetQueue | simp only [follows_upd])

theorem follows_tearCredits {s₀ : State} {s : State} {c : Nat} (h_s : Follows s₀ s) :
    Follows s₀ (tearCredits s c) := by
  unfold tearCredits
  try dsimp only
  with_reducible repeat' (first | assumption | intro _ | simp only [follows_upd])

theorem follows_tearTags {s₀ : State} {s : State} {c : Nat} (h_s : Follows s₀ s) :
    Follows s₀ (tearTags s c) := by
  unfold tearTags
  try dsimp only
  with_reducible repeat' (
    first | assumption | intro _ | apply follows_each | apply follows_removeAccess
          | apply follows_discardWrite | simp only [follows_upd] | apply follows_ite)

theorem follows_tearComp {s₀ : State} {s : State} {c : Nat} (h_s : Follows s₀ s) :
    Follows s₀ (tearComp s c) := by
  unfold tearComp
  try dsimp only
  with_reducible repeat' (first | assumption | intro _ | simp only [follows_upd])

theorem follows_tearDown {s₀ : State} {s : State} {c : Nat} {guilty : Bool} (h_s : Follows s₀ s) :
    Follows s₀ (tearDown s c guilty) := by
  unfold tearDown
  try dsimp only
  with_reducible repeat' (
    first | assumption | intro _ | apply follows_each | apply follows_setTdState | apply follows_passTornAll
          | apply follows_incWrap | apply follows_setAtt | apply follows_standInVote | apply follows_tearStop
          | apply follows_tearEpoch | apply follows_tearQueues | apply follows_tearCredits
          | apply follows_tearTags | apply follows_tearComp | simp only [follows_upd] | apply follows_ite)

theorem follows_tearOnce {s₀ : State} {s : State} {c : Nat} {guilty : Bool} (h_s : Follows s₀ s) :
    Follows s₀ (tearOnce s c guilty) := by
  unfold tearOnce
  try dsimp only
  with_reducible repeat' (first | assumption | apply follows_tearDown | apply follows_ite)

theorem follows_unbind {s₀ : State} {s : State} {c : Nat} (h_s : Follows s₀ s) :
    Follows s₀ (unbind s c) := by
  unfold unbind
  try dsimp only
  with_reducible repeat' (
    first | assumption | intro _ | apply follows_wr | apply follows_wrG | apply follows_each | apply follows_dropSlot
          | apply follows_ite)

end Sys2Proof.Machine
end

