-- ==== Sys2Proof/Laws/FollowsTfs.lean ====
section
/-! SUPPORT. `Follows` is kept by the operations of Machine/Tfs.lean. -/

namespace Sys2Proof.Machine

theorem follows_writeTfs {s₀ : State} {s : State} {x : Tfs} (h_s : Follows s₀ s) :
    Follows s₀ (writeTfs s x) := by
  unfold writeTfs
  try dsimp only
  with_reducible repeat' (
    first | assumption | intro _ | apply follows_mappedWrite | apply follows_wrF | apply follows_raise
          | apply follows_report | apply follows_incSat | simp only [follows_upd] | apply follows_ite)

end Sys2Proof.Machine
end

