-- ==== Sys2Proof/Laws/FollowsCommit.lean ====
section
/-! SUPPORT. `Follows` is kept by the operations of Machine/Commit.lean. -/

namespace Sys2Proof.Machine

theorem follows_setEndHeld {s₀ : State} {s : State} {t c : Nat} {b : Bool} (h_s : Follows s₀ s) :
    Follows s₀ (setEndHeld s t c b) := by
  unfold setEndHeld
  try dsimp only
  with_reducible repeat' (first | assumption | intro _ | simp only [follows_upd])

theorem follows_execStepEndToken {s₀ : State} {t : TileId} {c : CtxId} {s : State} (h_s : Follows s₀ s) :
    FollowsNext s₀ (execStepEndToken t c s) := by
  unfold execStepEndToken
  try dsimp only
  apply followsNext
  with_reducible repeat' (
    first | assumption | intro _ | apply follows_setEndHeld | apply follows_programFault
          | exact follows_headMsg ‹_› ‹_› | refine follows_headMsg ‹_› ?_ | apply follows_awaitHead
          | simp only [follows_upd] | apply follows_ite | split)

theorem follows_execTileVote {s₀ : State} {t : TileId} {c : CtxId} {s : State} (h_s : Follows s₀ s) :
    FollowsNext s₀ (execTileVote t c s) := by
  unfold execTileVote
  try dsimp only
  apply followsNext
  with_reducible repeat' (
    first | assumption | apply follows_release | apply follows_tileVote | apply follows_setEndHeld | simp only [follows_upd]
          | apply follows_ite)

theorem follows_execDirtySet {s₀ : State} {c : CtxId} {s : State} (h_s : Follows s₀ s) :
    FollowsNext s₀ (execDirtySet c s) := by
  unfold execDirtySet
  try dsimp only
  apply followsNext
  with_reducible repeat' (first | assumption | apply follows_wrB | apply follows_setAtt | simp only [follows_upd] | apply follows_ite)

theorem follows_nondeterministic {s₀ : State} {s : State} {c : Nat} (h_s : Follows s₀ s) :
    Follows s₀ (nondeterministic s c) := by
  unfold nondeterministic
  try dsimp only
  with_reducible repeat' (first | assumption | apply follows_report | apply follows_writeTfs)

theorem follows_blockVote {s₀ : State} {s : State} {c : Nat} {clean nofault : Bool} (h_s : Follows s₀ s) :
    Follows s₀ (blockVote s c clean nofault) := by
  unfold blockVote
  try dsimp only
  with_reducible repeat' (
    first | assumption | intro _ | apply follows_setCsState | apply follows_setAtt | apply follows_sendVote
          | simp only [follows_upd])

theorem follows_execBlockVote {s₀ : State} {c : CtxId} {s : State} (h_s : Follows s₀ s) :
    FollowsNext s₀ (execBlockVote c s) := by
  unfold execBlockVote
  try dsimp only
  apply followsNext
  with_reducible repeat' (first | assumption | apply follows_blockVote | apply follows_ite)

theorem follows_sendDecide {s₀ : State} {s : State} {c d : Nat} (h_s : Follows s₀ s) :
    Follows s₀ (sendDecide s c d) := by
  unfold sendDecide
  try dsimp only
  with_reducible repeat' (first | assumption | apply follows_inject)

theorem follows_setCleanCount {s₀ : State} {s : State} {c n : Nat} (h_s : Follows s₀ s) :
    Follows s₀ (setCleanCount s c n) := by
  unfold setCleanCount
  try dsimp only
  with_reducible repeat' (first | assumption | apply follows_wrF | apply follows_setAtt)

theorem follows_decide343 {s₀ : State} {s : State} {c : Nat} {w : List Nat} (h_s : Follows s₀ s) :
    Follows s₀ (decide343 s c w) := by
  unfold decide343
  try dsimp only
  with_reducible repeat' (
    first | assumption | apply follows_report | apply follows_setAtt | apply follows_nondeterministic | apply follows_sendDecide
          | apply follows_setCleanCount | simp only [follows_upd] | apply follows_ite)

theorem follows_execVoteComplete {s₀ : State} {root : TileId} {p : Ctrl} {s : State} (h_s : Follows s₀ s) :
    FollowsNext s₀ (execVoteComplete root p s) := by
  unfold execVoteComplete
  try dsimp only
  apply followsNext
  with_reducible repeat' (
    first | assumption | exact follows_takeEjected ‹_› ‹_› | refine follows_takeEjected ‹_› ?_ | apply follows_ctlCount
          | apply follows_decide343 | simp only [follows_upd] | apply follows_ite | split)

theorem follows_setDecision {s₀ : State} {s : State} {c d : Nat} (h_s : Follows s₀ s) :
    Follows s₀ (setDecision s c d) := by
  unfold setDecision
  try dsimp only
  with_reducible repeat' (first | assumption | apply follows_wrF)

theorem follows_noteDecide {s₀ : State} {s : State} {c d : Nat} (h_s : Follows s₀ s) :
    Follows s₀ (noteDecide s c d) := by
  unfold noteDecide
  try dsimp only
  with_reducible repeat' (first | assumption | apply follows_wrF | apply follows_incWrap | apply follows_setDecision)

theorem follows_onDecide {s₀ : State} {s : State} {p : Ctrl} {d : Nat} {f : State → Nat → State} (h_s : Follows s₀ s) (h_f : ∀ (x0 : State) (x1 : Nat), Follows s₀ x0 → Follows s₀ (f x0 x1)) :
    Follows s₀ (onDecide s p d f) := by
  unfold onDecide
  try dsimp only
  with_reducible repeat' (
    first | assumption | apply h_f | apply follows_getD | exact follows_takeEjected ‹_› ‹_› | refine follows_takeEjected ‹_› ?_
          | apply follows_ctlCount | apply follows_noteDecide | simp only [follows_upd] | apply follows_ite | split)

theorem follows_dropJournal {s₀ : State} {s : State} {c : Nat} (h_s : Follows s₀ s) :
    Follows s₀ (dropJournal s c) := by
  unfold dropJournal
  try dsimp only
  with_reducible repeat' (first | assumption | apply follows_wr)

theorem follows_journalSettle {s₀ : State} {s : State} {p stop : Nat} (h_s : Follows s₀ s) :
    Follows s₀ (journalSettle s p stop) := by
  unfold journalSettle
  try dsimp only
  with_reducible repeat' (first | assumption | intro _ | apply follows_each | apply follows_settle | apply follows_ite)

theorem follows_applyData {s₀ : State} {ctx : Option Nat} {write : Bool} {dest : Nat} {d : List (Option Byte) × State} (h_d : Follows s₀ d.2) :
    Follows s₀ (applyData ctx write dest d) := by
  unfold applyData
  exact follows_ite (follows_mappedWrite h_d) h_d

theorem follows_applyHeader {s₀ : State} {ctx : Option Nat} {p : Nat} {h : List (Option Byte) × State} (h_h : Follows s₀ h.2) :
    Follows s₀ (applyHeader ctx p h).2 := by
  unfold applyHeader
  split
  · exact h_h
  · exact follows_applyData (follows_mappedRead h_h)

theorem follows_applyOne {s₀ : State} {ctx : Option Nat} {p : Nat} {s : State} (h_s : Follows s₀ s) :
    Follows s₀ (applyOne ctx p s).2 := follows_applyHeader (follows_mappedRead h_s)

theorem follows_applyEntries {s₀ : State} {ctx : Option Nat} {stop : Nat} {y0 : Nat} {y1 : Nat} {y2 : State} (h_y2 : Follows s₀ y2) :
    Follows s₀ (applyEntries ctx stop y0 y1 y2).2 := by
  induction y0 generalizing y1 y2 with
  | zero => exact h_y2
  | succ n ih =>
    unfold applyEntries
    extract_lets e r
    have he : Follows s₀ e.2 := follows_applyOne h_y2
    clear_value e
    with_reducible repeat' (first | assumption | (apply ih) | split)

theorem follows_applyJournal {s₀ : State} {s : State} {c : Nat} (h_s : Follows s₀ s) :
    Follows s₀ (applyJournal s c) := by
  unfold applyJournal
  try dsimp only
  with_reducible repeat' (
    first | assumption | apply follows_setAtt | apply follows_journalSettle | apply follows_applyEntries
          | simp only [follows_upd] | apply follows_ite)

theorem follows_startApply {s₀ : State} {s : State} {c : Nat} (h_s : Follows s₀ s) :
    Follows s₀ (startApply s c) := by
  unfold startApply
  try dsimp only
  with_reducible repeat' (
    first | assumption | intro _ | apply follows_applyJournal | apply follows_setCsState
          | apply follows_mappedWrite)

theorem follows_execDecideCommit {s₀ : State} {p : Ctrl} {s : State} (h_s : Follows s₀ s) :
    FollowsNext s₀ (execDecideCommit p s) := by
  unfold execDecideCommit
  try dsimp only
  apply followsNext
  with_reducible repeat' (first | assumption | apply follows_onDecide | apply follows_startApply)

theorem follows_openStep {s₀ : State} {s : State} {c kind attempt : Nat} (h_s : Follows s₀ s) :
    Follows s₀ (openStep s c kind attempt) := by
  unfold openStep
  try dsimp only
  with_reducible repeat' (
    first | assumption | intro _ | apply follows_each | apply follows_setCsState | apply follows_wr
          | apply follows_wrF | apply follows_wrB | apply follows_setSlotFlags | apply follows_setAtt
          | apply follows_votesOfLost | apply follows_standIns | simp only [follows_upd])

theorem follows_quarantine {s₀ : State} {s : State} {l : List Suspect} (h_s : Follows s₀ s) :
    Follows s₀ (quarantine s l) := by
  unfold quarantine
  try dsimp only
  with_reducible repeat' (first | assumption | simp only [follows_upd])

theorem follows_auditSuspects {s₀ : State} {s : State} {c : Nat} (h_s : Follows s₀ s) :
    Follows s₀ (auditSuspects s c) := by
  unfold auditSuspects
  try dsimp only
  with_reducible repeat' (first | assumption | apply follows_quarantine | apply follows_ite)

theorem follows_setStep {s₀ : State} {s : State} {c n : Nat} (h_s : Follows s₀ s) :
    Follows s₀ (setStep s c n) := by
  unfold setStep
  try dsimp only
  with_reducible repeat' (first | assumption | apply follows_wrG)

theorem follows_awaitPlace {s₀ : State} {s : State} {c : Nat} (h_s : Follows s₀ s) :
    Follows s₀ (awaitPlace s c) := by
  unfold awaitPlace
  try dsimp only
  with_reducible repeat' (
    first | assumption | intro _ | apply follows_setCsState | apply follows_wrF | apply follows_setAtt
          | simp only [follows_upd] | apply follows_ite)

theorem follows_finishApply {s₀ : State} {s : State} {c : Nat} (h_s : Follows s₀ s) :
    Follows s₀ (finishApply s c) := by
  unfold finishApply
  try dsimp only
  with_reducible repeat' (
    first | assumption | intro _ | apply follows_each | apply follows_ckCapture | apply follows_dropJournal
          | apply follows_openStep | apply follows_auditSuspects | apply follows_setStep
          | apply follows_awaitPlace | apply follows_mappedWrite | apply follows_incWrap
          | simp only [follows_upd] | apply follows_ite)

theorem follows_execJournalApplied {s₀ : State} {c : CtxId} {s : State} (h_s : Follows s₀ s) :
    FollowsNext s₀ (execJournalApplied c s) := by
  unfold execJournalApplied
  try dsimp only
  apply followsNext
  with_reducible repeat' (
    first | assumption | intro _ | apply follows_each | apply follows_settle | apply follows_applyJournal
          | apply follows_finishApply | apply follows_ite)

theorem follows_keepSig {s₀ : State} {s : State} {c : Nat} {complete : Bool} (h_s : Follows s₀ s) :
    Follows s₀ (keepSig s c complete) := by
  unfold keepSig
  try dsimp only
  with_reducible repeat' (first | assumption | apply follows_wr | apply follows_wrB)

theorem follows_abortNote {s₀ : State} {s : State} {c code : Nat} (h_s : Follows s₀ s) :
    Follows s₀ (abortNote s c code) := by
  unfold abortNote
  try dsimp only
  with_reducible repeat' (first | assumption | apply follows_raise | apply follows_report | apply follows_incWrap)

theorem follows_abortReplay {s₀ : State} {s : State} {c : Nat} (h_s : Follows s₀ s) :
    Follows s₀ (abortReplay s c) := by
  unfold abortReplay
  try dsimp only
  with_reducible repeat' (
    first | assumption | intro _ | apply follows_dropJournal | apply follows_quarantine
          | apply follows_keepSig | apply follows_abortNote | apply follows_setCsState | apply follows_setAtt
          | apply follows_tearOnce)

theorem follows_execAbortReplay {s₀ : State} {p : Ctrl} {contributors : List ClusterId} {s : State} (h_s : Follows s₀ s) :
    FollowsNext s₀ (execAbortReplay p contributors s) := by
  unfold execAbortReplay
  try dsimp only
  apply followsNext
  with_reducible repeat' (
    first | assumption | intro _ | apply follows_onDecide | apply follows_abortReplay
          | apply follows_nameAlso)

theorem follows_execDecideAudit {s₀ : State} {p : Ctrl} {s : State} (h_s : Follows s₀ s) :
    FollowsNext s₀ (execDecideAudit p s) := by
  unfold execDecideAudit
  try dsimp only
  apply followsNext
  with_reducible repeat' (
    first | assumption | intro _ | apply follows_incWrap | apply follows_setCsState | apply follows_setAtt
          | apply follows_tearOnce | apply follows_onDecide | apply follows_dropJournal | apply follows_keepSig)

theorem follows_abortFault {s₀ : State} {s : State} {c : Nat} (h_s : Follows s₀ s) :
    Follows s₀ (abortFault s c) := by
  unfold abortFault
  try dsimp only
  with_reducible repeat' (
    first | assumption | apply follows_setCsState | apply follows_ckFaulted | apply follows_tearOnce | apply follows_dropJournal
          | apply follows_abortNote)

theorem follows_execAbortFault {s₀ : State} {p : Ctrl} {s : State} (h_s : Follows s₀ s) :
    FollowsNext s₀ (execAbortFault p s) := by
  unfold execAbortFault
  try dsimp only
  apply followsNext
  with_reducible repeat' (first | assumption | apply follows_onDecide | apply follows_abortFault)

theorem follows_execInDoubt {s₀ : State} {c : CtxId} {named : Bool} {s : State} (h_s : Follows s₀ s) :
    FollowsNext s₀ (execInDoubt c named s) := by
  unfold execInDoubt
  try dsimp only
  apply followsNext
  with_reducible repeat' (first | assumption | apply follows_raise | apply follows_report | apply follows_setCsState | apply follows_ite)

theorem follows_execRootPathLost {s₀ : State} {c : CtxId} {named : Bool} {s : State} (h_s : Follows s₀ s) :
    FollowsNext s₀ (execRootPathLost c named s) := by
  unfold execRootPathLost
  try dsimp only
  apply followsNext
  with_reducible repeat' (first | assumption | intro _ | apply follows_abortReplay | simp only [follows_upd] | apply follows_ite)

theorem follows_noteUnplaced {s₀ : State} {s : State} {c : Nat} (h_s : Follows s₀ s) :
    Follows s₀ (noteUnplaced s c) := by
  unfold noteUnplaced
  try dsimp only
  with_reducible repeat' (first | assumption | intro _ | apply follows_report | simp only [follows_upd] | apply follows_ite)

theorem follows_dropDown {s₀ : State} {s : State} {t g port : Nat} (h_s : Follows s₀ s) :
    Follows s₀ (dropDown s t g port) := by
  unfold dropDown
  try dsimp only
  with_reducible repeat' (first | assumption | intro _ | apply follows_wrF)

theorem follows_pruneTree {s₀ : State} {g : Nat} {y0 : Nat} {y1 : Nat} {y2 : State} (h_y2 : Follows s₀ y2) :
    Follows s₀ (pruneTree g y0 y1 y2) := by
  induction y0 generalizing y1 y2 with
  | zero => exact h_y2
  | succ n ih =>
    unfold pruneTree
    try dsimp only
    with_reducible repeat' (
      first | assumption | (apply ih) | intro _ | apply follows_dropDown | apply follows_wrB
            | simp only [follows_upd] | apply follows_ite | split)

theorem follows_rebuildTree {s₀ : State} {s : State} {g : Nat} (h_s : Follows s₀ s) :
    Follows s₀ (rebuildTree s g) := by
  unfold rebuildTree
  try dsimp only
  with_reducible repeat' (
    first | assumption | intro _ | apply follows_each | apply follows_dropDown | apply follows_pruneTree)

theorem follows_replaced {s₀ : State} {s : State} {c : Nat} (h_s : Follows s₀ s) :
    Follows s₀ (replaced s c) := by
  unfold replaced
  try dsimp only
  with_reducible repeat' (
    first | assumption | intro _ | apply follows_rebuildTree | apply follows_wrF | apply follows_report
          | simp only [follows_upd] | apply follows_ite | split)

theorem follows_csOpen {s₀ : State} {s : State} {c : Nat} {hornbeam : Bool} {v : State} (e : csOpen s c hornbeam = some v) (h_s : Follows s₀ s) :
    Follows s₀ v := by
  unfold csOpen at e
  try dsimp only at e
  repeat' first | (cases e; done) | split at e
  all_goals (injection e with e; subst e)
  with_reducible repeat' (
    first | assumption | apply follows_revive | apply follows_reopenQueues | apply follows_openStep | apply follows_noteUnplaced
          | apply follows_replaced)

theorem follows_csCmd {s₀ : State} {s : State} {c cmd : Nat} {hornbeam : Bool} (h_s : Follows s₀ s) :
    Follows s₀ (csCmd s c cmd hornbeam) := by
  unfold csCmd
  split
  · exact h_s
  · exact follows_getD (fun _ e => follows_csOpen e h_s) (follows_ignored h_s)
  all_goals
    with_reducible repeat' (first
      | assumption | apply follows_ite | apply follows_startApply | apply follows_setDecision
      | apply follows_ignored | apply follows_abortReplay | apply follows_setCsState)

theorem follows_execDurableWrite {s₀ : State} {t : TileId} {c : CtxId} {a : Nat} {data : List Byte} {s : State} (h_s : Follows s₀ s) :
    FollowsNext s₀ (execDurableWrite t c a data s) := by
  unfold execDurableWrite
  try dsimp only
  apply followsNext
  with_reducible repeat' (
    first | assumption | intro _ | apply follows_clearClean | apply follows_memWrite | apply follows_report
          | simp only [follows_upd] | apply follows_ite)

end Sys2Proof.Machine
end

