-- ==== Sys2Proof/Laws/FollowsDirectory.lean ====
section
/-! SUPPORT. `Follows` is kept by the operations of Machine/Directory.lean. -/

namespace Sys2Proof.Machine

theorem follows_unmapped {s₀ : State} {s : State} {a : Agent} {addr : Nat} (h_s : Follows s₀ s) :
    Follows s₀ (unmapped s a addr) := by
  unfold unmapped
  try dsimp only
  with_reducible repeat' (first | assumption | intro _ | apply follows_report)

theorem follows_withheldDirty {s₀ : State} {s : State} {c : Option Nat} {data : List (Option Byte)} (h_s : Follows s₀ s) :
    Follows s₀ (withheldDirty s c data) := by
  unfold withheldDirty
  try dsimp only
  with_reducible repeat' (first | assumption | intro _ | apply follows_requestDirty | simp only [follows_upd] | apply follows_ite | split)

theorem follows_failDirty {s₀ : State} {r : Bool × State} {c : Option Nat} (h_r : Follows s₀ r.2) :
    Follows s₀ (failDirty r c) := by
  unfold failDirty
  try dsimp only
  with_reducible repeat' (first | assumption | intro _ | apply follows_requestDirty | simp only [follows_upd] | apply follows_ite | split)

theorem follows_gbBad {s₀ : State} {s : State} {h : GbHdr} {posted : Bool} (h_s : Follows s₀ s) :
    Follows s₀ (gbBad s h posted) := by
  unfold gbBad
  try dsimp only
  with_reducible repeat' (
    first | assumption | intro _ | apply follows_gbReply | apply follows_report | simp only [follows_upd]
          | apply follows_ite)

theorem follows_gbAccess {s₀ : State} {s : State} {h : GbHdr} {posted : Bool} (h_s : Follows s₀ s) :
    Follows s₀ (gbAccess s h posted) := by
  unfold gbAccess
  try dsimp only
  with_reducible repeat' (
    first | assumption | intro _ | apply follows_gbReply | apply follows_report | simp only [follows_upd]
          | apply follows_ite)

theorem follows_grantLine {s₀ : State} {s : State} {h : GbHdr} {line st : Nat} (h_s : Follows s₀ s) :
    Follows s₀ (grantLine s h line st) := by
  unfold grantLine
  try dsimp only
  with_reducible repeat' (
    first | assumption | intro _ | apply follows_gbReply | apply follows_setDir | apply follows_dramRead | apply follows_ite)

theorem follows_compLate {s₀ : State} {s : State} {h : GbHdr} {data : List Byte} (h_s : Follows s₀ s) :
    Follows s₀ (compLate s h data) := by
  unfold compLate
  try dsimp only
  with_reducible repeat' (first | assumption | intro _ | apply follows_putLate)

theorem follows_lineRead {s₀ : State} {s : State} {h : GbHdr} {st : Nat} (h_s : Follows s₀ s) :
    Follows s₀ (lineRead s h st) := by
  unfold lineRead
  try dsimp only
  with_reducible repeat' (
    first | assumption | intro _ | apply follows_snoop | apply follows_lostAccess | apply follows_unmapped
          | apply follows_gbAccess | apply follows_grantLine | apply follows_compLate | apply follows_gbReply
          | apply follows_incWrap | simp only [follows_upd] | apply follows_ite | split)

theorem follows_lineUpg {s₀ : State} {s : State} {h : GbHdr} (h_s : Follows s₀ s) :
    Follows s₀ (lineUpg s h) := by
  unfold lineUpg
  try dsimp only
  with_reducible repeat' (
    first | assumption | intro _ | apply follows_setDir | apply follows_lostAccess | apply follows_unmapped
          | apply follows_gbAccess | apply follows_compLate | apply follows_gbReply | apply follows_drawn
          | simp only [follows_upd] | apply follows_ite)

theorem follows_gbPadDenied {s₀ : State} {s : State} {h : GbHdr} (h_s : Follows s₀ s) :
    Follows s₀ (gbPadDenied s h) := by
  unfold gbPadDenied
  try dsimp only
  with_reducible repeat' (first | assumption | apply follows_setErr | simp only [follows_upd] | split)

theorem follows_ucRead {s₀ : State} {s : State} {h : GbHdr} (h_s : Follows s₀ s) :
    Follows s₀ (ucRead s h) := by
  unfold ucRead
  try dsimp only
  with_reducible repeat' (
    first | assumption | intro _ | apply follows_padReply | apply follows_settle | apply follows_unmapped
          | apply follows_gbAccess | apply follows_compLate | apply follows_gbPadDenied
          | apply follows_dramRead | apply follows_gbReply | apply follows_access | simp only [follows_upd]
          | apply follows_ite | split)

theorem follows_clearLost {s₀ : State} {s : State} {a len : Nat} (h_s : Follows s₀ s) :
    Follows s₀ (clearLost s a len) := by
  unfold clearLost
  try dsimp only
  with_reducible repeat' (first | assumption | intro _ | apply follows_each | apply follows_setDir)

theorem follows_ucWrite {s₀ : State} {s : State} {h : GbHdr} {data : List Byte} (h_s : Follows s₀ s) :
    Follows s₀ (ucWrite s h data) := by
  unfold ucWrite
  try dsimp only
  with_reducible repeat' (
    first | assumption | intro _ | apply follows_settle | apply follows_flagCheck | apply follows_unmapped
          | apply follows_gbAccess | apply follows_compLate | apply follows_gbPadDenied
          | apply follows_clearLost | apply follows_dramStore | apply follows_access | simp only [follows_upd]
          | apply follows_ite | split)

theorem follows_takeLine {s₀ : State} {s : State} {line : Nat} {data : List Byte} (h_s : Follows s₀ s) :
    Follows s₀ (takeLine s line data) := by
  unfold takeLine
  try dsimp only
  with_reducible repeat' (
    first | assumption | intro _ | apply follows_discardDram | apply follows_storeWhole
          | simp only [follows_upd] | apply follows_ite)

theorem follows_gbLeaves {s₀ : State} {s u : State} {n : Nat} (h_s : Follows s₀ s) (h_u : Follows s₀ u) :
    Follows s₀ (gbLeaves s u n) := by
  unfold gbLeaves
  try dsimp only
  with_reducible repeat' (first | assumption | intro _ | apply follows_oweCredit | simp only [follows_upd] | apply follows_ite)

theorem follows_agentRead {s₀ : State} {s : State} {a : Agent} {ctx : Option Nat} {addr len : Nat} (h_s : Follows s₀ s) :
    Follows s₀ (agentRead s a ctx addr len) := by
  unfold agentRead
  try dsimp only
  with_reducible repeat' (
    first | assumption | intro _ | apply follows_settleLate | apply follows_withheldDirty
          | apply follows_dramRead | apply follows_emit | simp only [follows_upd] | apply follows_ite)

theorem follows_compServe {s₀ : State} {s : State} {h : GbHdr} {data : List Byte} (h_s : Follows s₀ s) :
    Follows s₀ (compServe s h data) := by
  unfold compServe
  try dsimp only
  with_reducible repeat' (
    first | assumption | intro _ | apply follows_lineRead | apply follows_lineUpg | apply follows_ucRead
          | apply follows_ucWrite | simp only [follows_upd] | apply follows_ite | split)

theorem follows_lateServe {s₀ : State} {s : State} {y0 : LateItem} (h_s : Follows s₀ s) :
    Follows s₀ (lateServe s y0) := by
  unfold lateServe
  try dsimp only
  with_reducible repeat' (
    first | assumption | intro _ | apply follows_putLate | apply follows_failDirty | apply follows_takeLine
          | apply follows_gbLeaves | apply follows_agentRead | apply follows_compServe
          | apply follows_dramWrite | simp only [follows_upd] | apply follows_ite | split)

theorem follows_lateRun {s₀ : State} {s : State} (h_s : Follows s₀ s) :
    Follows s₀ (lateRun s) := by
  unfold lateRun
  try dsimp only
  with_reducible repeat' (
    first | assumption | intro _ | apply follows_each | apply follows_lateServe | simp only [follows_upd])

end Sys2Proof.Machine
end

