-- ==== Sys2Proof/Laws/FollowsLpddr.lean ====
section
/-! SUPPORT. `Follows` is kept by the operations of Machine/Lpddr.lean. -/

namespace Sys2Proof.Machine

theorem follows_upsetUnits {s₀ : State} {s : State} {flips : List (Nat × Nat)} (h_s : Follows s₀ s) :
    Follows s₀ (upsetUnits s flips) := by
  unfold upsetUnits
  try dsimp only
  with_reducible repeat' (first | assumption | intro _ | apply follows_each | apply follows_flipUnit | apply follows_ite)

theorem follows_execMemRead {s₀ : State} {a : Agent} {c : Option CtxId} {addr len : Nat} {flips : List (Nat × Nat)} {s : State} (h_s : Follows s₀ s) :
    FollowsNext s₀ (execMemRead a c addr len flips s) := by
  unfold execMemRead
  try dsimp only
  apply followsNext
  with_reducible repeat' (
    first | assumption | intro _ | apply follows_denied | apply follows_unmapped | apply follows_agentRead
          | apply follows_upsetUnits | apply follows_emit | simp only [follows_upd] | apply follows_ite)

theorem follows_execMemWrite {s₀ : State} {a : Agent} {c : Option CtxId} {addr : Nat} {data : List Byte} {flips : List (Nat × Nat)} {s : State} (h_s : Follows s₀ s) :
    FollowsNext s₀ (execMemWrite a c addr data flips s) := by
  unfold execMemWrite
  try dsimp only
  apply followsNext
  with_reducible repeat' (
    first | assumption | intro _ | apply follows_denied | apply follows_unmapped | apply follows_failDirty
          | apply follows_memWrite | apply follows_upsetUnits | simp only [follows_upd] | apply follows_ite)

theorem follows_execMemWriteBack {s₀ : State} {unit : Nat} {s : State} (h_s : Follows s₀ s) :
    FollowsNext s₀ (execMemWriteBack unit s) := by
  unfold execMemWriteBack
  try dsimp only
  apply followsNext
  with_reducible repeat' (first | assumption | intro _ | apply follows_storeUnit32 | simp only [follows_upd] | apply follows_ite | split)

theorem follows_execRefresh {s₀ : State} {ctl : CtlId} {atLimit : Bool} {s : State} (h_s : Follows s₀ s) :
    FollowsNext s₀ (execRefresh ctl atLimit s) := by
  unfold execRefresh
  try dsimp only
  apply followsNext
  with_reducible repeat' (first | assumption | apply follows_incWrap | apply follows_ite)

theorem follows_execRefreshManagement {s₀ : State} {ctl : CtlId} {s : State} (h_s : Follows s₀ s) :
    FollowsNext s₀ (execRefreshManagement ctl s) := by
  unfold execRefreshManagement
  try dsimp only
  apply followsNext
  with_reducible repeat' (first | assumption | apply follows_incWrap)

theorem follows_startRetrain {s₀ : State} {s : State} {h : Nat} (h_s : Follows s₀ s) :
    Follows s₀ (startRetrain s h) := by
  unfold startRetrain
  try dsimp only
  with_reducible repeat' (
    first | assumption | intro _ | apply follows_setChState | apply follows_wrB | simp only [follows_upd]
          | apply follows_ite)

theorem follows_chReady {s₀ : State} {s : State} {h : Nat} (h_s : Follows s₀ s) :
    Follows s₀ (chReady s h) := by
  unfold chReady
  try dsimp only
  with_reducible repeat' (
    first | assumption | intro _ | apply follows_setChState | apply follows_lateRun
          | apply follows_startRetrain | simp only [follows_upd] | apply follows_ite)

theorem follows_readTemp {s₀ : State} {s : State} {h temp : Nat} (h_s : Follows s₀ s) :
    Follows s₀ (readTemp s h temp) := by
  unfold readTemp
  try dsimp only
  with_reducible repeat' (first | assumption | intro _ | apply follows_wrF | simp only [follows_upd] | apply follows_ite)

theorem follows_noteTrained {s₀ : State} {s : State} {h : Nat} (h_s : Follows s₀ s) :
    Follows s₀ (noteTrained s h) := by
  unfold noteTrained
  try dsimp only
  with_reducible repeat' (first | assumption | intro _ | simp only [follows_upd])

theorem follows_execRetrainDue {s₀ : State} {h : ChanId} {temp : Fin 256} {idle : Bool} {s : State} (h_s : Follows s₀ s) :
    FollowsNext s₀ (execRetrainDue h temp idle s) := by
  unfold execRetrainDue
  try dsimp only
  apply followsNext
  with_reducible repeat' (
    first | assumption | intro _ | apply follows_startRetrain | apply follows_readTemp
          | simp only [follows_upd] | apply follows_ite | split)

theorem follows_execRetrainForced {s₀ : State} {h : ChanId} {s : State} (h_s : Follows s₀ s) :
    FollowsNext s₀ (execRetrainForced h s) := by
  unfold execRetrainForced
  try dsimp only
  apply followsNext
  with_reducible repeat' (
    first | assumption | intro _ | apply follows_startRetrain | apply follows_report | apply follows_incSat
          | simp only [follows_upd] | apply follows_ite)

theorem follows_markFenced {s₀ : State} {s : State} {h : Nat} (h_s : Follows s₀ s) :
    Follows s₀ (markFenced s h) := by
  unfold markFenced
  try dsimp only
  with_reducible repeat' (
    first | assumption | intro _ | apply follows_wrB | apply follows_wrG)

theorem follows_fenceChannel {s₀ : State} {s : State} {h cause : Nat} (h_s : Follows s₀ s) :
    Follows s₀ (fenceChannel s h cause) := by
  unfold fenceChannel
  try dsimp only
  with_reducible repeat' (
    first | assumption | intro _ | apply follows_setChState | apply follows_queueFence | apply follows_lateRun
          | apply follows_markFenced | simp only [follows_upd] | apply follows_ite)

theorem follows_execRetrainComplete {s₀ : State} {h : ChanId} {ok : Bool} {odecc : Nat} {s : State} (h_s : Follows s₀ s) :
    FollowsNext s₀ (execRetrainComplete h ok odecc s) := by
  unfold execRetrainComplete
  try dsimp only
  apply followsNext
  with_reducible repeat' (
    first | assumption | intro _ | apply follows_chReady | apply follows_noteTrained
          | apply follows_fenceChannel | apply follows_report | apply follows_incSat | simp only [follows_upd]
          | apply follows_ite)

theorem follows_restChannel {s₀ : State} {s : State} {h : Nat} (h_s : Follows s₀ s) :
    Follows s₀ (restChannel s h) := by
  unfold restChannel
  try dsimp only
  with_reducible repeat' (first | assumption | intro _ | apply follows_setChState | simp only [follows_upd] | apply follows_ite)

theorem follows_toSelfRefresh {s₀ : State} {s : State} (h_s : Follows s₀ s) :
    Follows s₀ (toSelfRefresh s) := by
  unfold toSelfRefresh
  try dsimp only
  with_reducible repeat' (
    first | assumption | intro _ | apply follows_each | apply follows_restChannel)

theorem follows_leaveSelfRefresh {s₀ : State} {s : State} {h : Nat} (h_s : Follows s₀ s) :
    Follows s₀ (leaveSelfRefresh s h) := by
  unfold leaveSelfRefresh
  try dsimp only
  with_reducible repeat' (
    first | assumption | intro _ | apply follows_setChState | apply follows_startRetrain
          | apply follows_chReady | simp only [follows_upd] | apply follows_ite)

theorem follows_fromSelfRefresh {s₀ : State} {s : State} (h_s : Follows s₀ s) :
    Follows s₀ (fromSelfRefresh s) := by
  unfold fromSelfRefresh
  try dsimp only
  with_reducible repeat' (
    first | assumption | intro _ | apply follows_each | apply follows_leaveSelfRefresh
          | simp only [follows_upd] | apply follows_ite)

theorem follows_execUeLimitWindow {s₀ : State} {h : ChanId} {s : State} (h_s : Follows s₀ s) :
    FollowsNext s₀ (execUeLimitWindow h s) := by
  unfold execUeLimitWindow
  try dsimp only
  apply followsNext
  with_reducible repeat' (first | assumption | intro _ | apply follows_report | apply follows_fenceChannel | apply follows_ite)

theorem follows_execChannelFence {s₀ : State} {h : ChanId} {cause : Fin 65536} {s : State} (h_s : Follows s₀ s) :
    FollowsNext s₀ (execChannelFence h cause s) := by
  unfold execChannelFence
  try dsimp only
  apply followsNext
  with_reducible repeat' (first | assumption | apply follows_fenceChannel)

theorem follows_endPatrol {s₀ : State} {s : State} (h_s : Follows s₀ s) :
    Follows s₀ (endPatrol s) := by
  unfold endPatrol
  try dsimp only
  with_reducible repeat' (
    first | assumption | apply follows_wr | apply follows_wrB | apply follows_incWrap | simp only [follows_upd])

theorem follows_scrubUnit {s₀ : State} {s : State} {u : Nat} (h_s : Follows s₀ s) :
    Follows s₀ (scrubUnit s u) := by
  unfold scrubUnit
  try dsimp only
  with_reducible repeat' (
    first | assumption | intro _ | apply follows_unitFailed | apply follows_ctlUnit | simp only [follows_upd]
          | apply follows_ite)

theorem follows_execPatrolScrub {s₀ : State} {flips : List (Nat × Nat)} {s : State} (h_s : Follows s₀ s) :
    FollowsNext s₀ (execPatrolScrub flips s) := by
  unfold execPatrolScrub
  try dsimp only
  apply followsNext
  with_reducible repeat' (
    first | assumption | intro _ | apply follows_upsetUnits | apply follows_endPatrol
          | apply follows_scrubUnit | apply follows_wr | simp only [follows_upd] | apply follows_ite)

theorem follows_execPatrolScrubLate {s₀ : State} {s : State} (h_s : Follows s₀ s) :
    FollowsNext s₀ (execPatrolScrubLate s) := by
  unfold execPatrolScrubLate
  try dsimp only
  apply followsNext
  with_reducible repeat' (first | assumption | apply follows_wrB | apply follows_report | apply follows_ite)

theorem follows_remap {s₀ : State} {s : State} (h_s : Follows s₀ s) :
    Follows s₀ (remap s) := by
  unfold remap
  try dsimp only
  with_reducible repeat' (
    first | assumption | intro _ | apply follows_wrF | apply follows_wrB | apply follows_wrGF | apply follows_fillMem
          | apply follows_each | simp only [follows_upd] | apply follows_ite | split)

theorem follows_mmCtrlWrite {s₀ : State} {s : State} {v : W64} (h_s : Follows s₀ s) :
    Follows s₀ (mmCtrlWrite s v) := by
  unfold mmCtrlWrite
  try dsimp only
  with_reducible repeat' (first | assumption | apply follows_wr | apply follows_reportB | apply follows_remap | apply follows_ite)

theorem follows_dregWrite {s₀ : State} {s : State} {n k : Nat} {v : W64} (h_s : Follows s₀ s) :
    Follows s₀ (dregWrite s n k v) := by
  unfold dregWrite
  try dsimp only
  with_reducible repeat' (
    first | assumption | intro _ | apply follows_wr | apply follows_reportB | simp only [follows_upd] | apply follows_ite)

theorem follows_mmFenceWrite {s₀ : State} {s : State} {m : Nat} {v : W64} (h_s : Follows s₀ s) :
    Follows s₀ (mmFenceWrite s m v) := by
  unfold mmFenceWrite
  try dsimp only
  with_reducible repeat' (
    first | assumption | intro _ | apply follows_each | apply follows_fenceChannel | apply follows_wrG
          | apply follows_ignored | simp only [follows_upd] | apply follows_ite)

theorem follows_mcCtrlWrite {s₀ : State} {s : State} {c : Nat} {v : W64} (h_s : Follows s₀ s) :
    Follows s₀ (mcCtrlWrite s c v) := by
  unfold mcCtrlWrite
  try dsimp only
  with_reducible repeat' (
    first | assumption | intro _ | apply follows_each | apply follows_startRetrain | apply follows_wr)

end Sys2Proof.Machine
end

