-- ==== Sys2Proof/Laws/FollowsGorbin.lean ====
section
/-! SUPPORT. `Follows` is kept by the operations of Machine/Gorbin.lean. -/

namespace Sys2Proof.Machine

theorem follows_lineWb {s₀ : State} {s : State} {h : GbHdr} {data : List Byte} (h_s : Follows s₀ s) :
    Follows s₀ (lineWb s h data) := by
  unfold lineWb
  try dsimp only
  with_reducible repeat' (
    first | assumption | intro _ | apply follows_setDir | apply follows_gbAccess | apply follows_takeLine
          | apply follows_unmapped | simp only [follows_upd] | apply follows_ite)

theorem follows_lineEvict {s₀ : State} {s : State} {h : GbHdr} (h_s : Follows s₀ s) :
    Follows s₀ (lineEvict s h) := by
  unfold lineEvict
  try dsimp only
  with_reducible repeat' (
    first | assumption | intro _ | apply follows_setDir | apply follows_gbAccess | apply follows_unmapped
          | simp only [follows_upd] | apply follows_ite)

theorem follows_renewDir {s₀ : State} {s : State} {line : Nat} (h_s : Follows s₀ s) :
    Follows s₀ (renewDir s line) := by
  unfold renewDir
  try dsimp only
  with_reducible repeat' (first | assumption | intro _ | simp only [follows_upd])

theorem follows_afterSnoop {s₀ : State} {s : State} {line : Nat} {inv : Bool} {data : Option (List Byte)} (h_s : Follows s₀ s) :
    Follows s₀ (afterSnoop s line inv data) := by
  unfold afterSnoop
  try dsimp only
  with_reducible repeat' (
    first | assumption | intro _ | apply follows_setDir | apply follows_renewDir | simp only [follows_upd]
          | apply follows_ite)

theorem follows_takeCrossing {s₀ : State} {s : State} {line : Nat} (h_s : Follows s₀ s) :
    Follows s₀ (takeCrossing s line) := by
  unfold takeCrossing
  try dsimp only
  with_reducible repeat' (
    first | assumption | intro _ | apply follows_each | apply follows_lineWb | apply follows_lineEvict
          | apply follows_oweCredit | simp only [follows_upd] | apply follows_ite)

theorem follows_snoopResponse {s₀ : State} {s : State} {tag : Nat} {data : Option (List Byte)} (h_s : Follows s₀ s) :
    Follows s₀ (snoopResponse s tag data) := by
  unfold snoopResponse
  try dsimp only
  with_reducible repeat' (
    first | assumption | intro _ | apply follows_takeLine | apply follows_lateRun | apply follows_gbDone
          | apply follows_afterSnoop | apply follows_takeCrossing | simp only [follows_upd]
          | apply follows_ite | split)

theorem follows_snoopLate {s₀ : State} {s : State} {tag : Nat} (h_s : Follows s₀ s) :
    Follows s₀ (snoopLate s tag) := by
  unfold snoopLate
  try dsimp only
  with_reducible repeat' (
    first | assumption | intro _ | apply follows_setDir | apply follows_lateRun | apply follows_gbDone
          | apply follows_takeCrossing | apply follows_report | simp only [follows_upd] | apply follows_ite
          | split)

theorem follows_gwSnoop {s₀ : State} {s : State} {h : GbHdr} {inv : Bool} (h_s : Follows s₀ s) :
    Follows s₀ (gwSnoop s h inv) := by
  unfold gwSnoop
  try dsimp only
  with_reducible repeat' (first | assumption | apply follows_gbSend | apply follows_setGw | simp only [follows_upd] | apply follows_ite | split)

theorem follows_setBoot {s₀ : State} {s : State} {v : Nat} (h_s : Follows s₀ s) :
    Follows s₀ (setBoot s v) := by
  unfold setBoot
  try dsimp only
  with_reducible repeat' (first | assumption | apply follows_wrF)

theorem follows_bootStep {s₀ : State} {s : State} (h_s : Follows s₀ s) :
    Follows s₀ (bootStep s) := by
  unfold bootStep
  try dsimp only
  with_reducible repeat' (first | assumption | apply follows_gbRequest | apply follows_ite)

theorem follows_bootRejected {s₀ : State} {s : State} (h_s : Follows s₀ s) :
    Follows s₀ (bootRejected s) := by
  unfold bootRejected
  try dsimp only
  with_reducible repeat' (first | assumption | apply follows_report | apply follows_setBoot)

theorem follows_bootCtrlWrite {s₀ : State} {s : State} {v : W64} (h_s : Follows s₀ s) :
    Follows s₀ (bootCtrlWrite s v) := by
  unfold bootCtrlWrite
  try dsimp only
  with_reducible repeat' (
    first | assumption | apply follows_wr | apply follows_wrB | apply follows_setBoot | apply follows_bootStep
          | simp only [follows_upd] | apply follows_ite)

theorem follows_complete {s₀ : State} {s : State} {tag status : Nat} {data : List Byte} (h_s : Follows s₀ s) :
    Follows s₀ (complete s tag status data) := by
  unfold complete
  try dsimp only
  with_reducible repeat' (
    first | assumption | intro _ | apply follows_setGw | apply follows_gwInstall | apply follows_gwFailed
          | apply follows_gbDone | apply follows_bootStep | apply follows_bootRejected
          | simp only [follows_upd] | apply follows_ite | split)

theorem follows_execHostTimeout {s₀ : State} {tag : Fin 4096} {s : State} (h_s : Follows s₀ s) :
    FollowsNext s₀ (execHostTimeout tag s) := by
  unfold execHostTimeout
  try dsimp only
  apply followsNext
  with_reducible repeat' (
    first | assumption | intro _ | apply follows_complete | apply follows_report | simp only [follows_upd]
          | apply follows_ite | split)

theorem follows_gwAnswered {s₀ : State} {a : Agent} {r : GwRes × State} (h_r : Follows s₀ r.2) :
    Follows s₀ (gwAnswered a r) := by
  unfold gwAnswered
  try dsimp only
  with_reducible repeat' (first | assumption | intro _ | apply follows_emit | simp only [follows_upd] | apply follows_ite | split)

theorem follows_gwAsked {s₀ : State} {s : State} {a : Agent} {addr n : Nat} {data : Option (List (Option Byte))} (h_s : Follows s₀ s) :
    Follows s₀ (gwAsked s a addr n data) := by
  unfold gwAsked
  try dsimp only
  with_reducible repeat' (
    first | assumption | apply follows_emit | apply follows_denied | apply follows_gwAccess | apply follows_unmapped
          | apply follows_gwAnswered | apply follows_ite)

theorem follows_execGatewayAccess {s₀ : State} {a : Agent} {addr len : Nat} {data : Option (List Byte)} {s : State} (h_s : Follows s₀ s) :
    FollowsNext s₀ (execGatewayAccess a addr len data s) := by
  unfold execGatewayAccess
  try dsimp only
  apply followsNext
  with_reducible repeat' (first | assumption | apply follows_gwAsked | simp only [follows_upd] | split)

theorem follows_setDb {s₀ : State} {s : State} {n : Nat} {v : W64} (h_s : Follows s₀ s) :
    Follows s₀ (setDb s n v) := by
  unfold setDb
  try dsimp only
  with_reducible repeat' (first | assumption | intro _ | simp only [follows_upd])

theorem follows_doorbellSend {s₀ : State} {s : State} {n : Nat} (h_s : Follows s₀ s) :
    Follows s₀ (doorbellSend s n) := by
  unfold doorbellSend
  try dsimp only
  with_reducible repeat' (
    first | assumption | apply follows_incWrap | apply follows_trySend | apply follows_setDb | simp only [follows_upd]
          | apply follows_ite)

theorem follows_ringBell {s₀ : State} {s : State} {h : GbHdr} {value : W64} (h_s : Follows s₀ s) :
    Follows s₀ (ringBell s h value) := by
  unfold ringBell
  try dsimp only
  with_reducible repeat' (
    first | assumption | intro _ | apply follows_gbBad | apply follows_setDb | apply follows_incWrap
          | simp only [follows_upd] | apply follows_ite)

theorem follows_execDoorbellSend {s₀ : State} {n : Fin 1024} {s : State} (h_s : Follows s₀ s) :
    FollowsNext s₀ (execDoorbellSend n s) := by
  unfold execDoorbellSend
  try dsimp only
  apply followsNext
  with_reducible repeat' (first | assumption | apply follows_doorbellSend)

theorem follows_sendMsg {s₀ : State} {s : State} {h : GbHdr} {data : List Byte} (h_s : Follows s₀ s) :
    Follows s₀ (sendMsg s h data) := by
  unfold sendMsg
  try dsimp only
  with_reducible repeat' (
    first | assumption | intro _ | apply follows_gbReply | apply follows_incWrap | apply follows_trySend
          | simp only [follows_upd] | apply follows_ite)

theorem follows_setGbState {s₀ : State} {s : State} {st lanes : Nat} (h_s : Follows s₀ s) :
    Follows s₀ (setGbState s st lanes) := by
  unfold setGbState
  try dsimp only
  with_reducible repeat' (first | assumption | intro _ | apply follows_wrF | simp only [follows_upd])

theorem follows_gbTrain {s₀ : State} {s : State} (h_s : Follows s₀ s) :
    Follows s₀ (gbTrain s) := by
  unfold gbTrain
  try dsimp only
  with_reducible repeat' (
    first | assumption | intro _ | apply follows_setGbState | apply follows_wrB)

theorem follows_gbQuiet {s₀ : State} {s : State} (h_s : Follows s₀ s) :
    Follows s₀ (gbQuiet s) := by
  unfold gbQuiet
  try dsimp only
  with_reducible repeat' (first | assumption | intro _ | apply follows_linkQuiet | simp only [follows_upd])

theorem follows_gbLost {s₀ : State} {s : State} {st : Nat} (h_s : Follows s₀ s) :
    Follows s₀ (gbLost s st) := by
  unfold gbLost
  try dsimp only
  with_reducible repeat' (
    first | assumption | intro _ | apply follows_each | apply follows_lateRun | apply follows_gwFailed
          | apply follows_bootRejected | apply follows_setGbState | apply follows_gbQuiet | apply follows_wrF
          | apply follows_raise | apply follows_report | simp only [follows_upd] | apply follows_ite)

theorem follows_execGbLinkDown {s₀ : State} {s : State} (h_s : Follows s₀ s) :
    FollowsNext s₀ (execGbLinkDown s) := by
  unfold execGbLinkDown
  try dsimp only
  apply followsNext
  with_reducible repeat' (first | assumption | apply follows_gbLost | apply follows_ite)

theorem follows_gwAfterUp {s₀ : State} {s : State} {another : Bool} (h_s : Follows s₀ s) :
    Follows s₀ (gwAfterUp s another) := by
  unfold gwAfterUp
  try dsimp only
  with_reducible repeat' (
    first | assumption | intro _ | apply follows_each | apply follows_giveUp | apply follows_report
          | apply follows_incSat | simp only [follows_upd] | apply follows_ite)

theorem follows_gbCameUp {s₀ : State} {s : State} {mask : Nat} (h_s : Follows s₀ s) :
    Follows s₀ (gbCameUp s mask) := by
  unfold gbCameUp
  try dsimp only
  with_reducible repeat' (
    first | assumption | intro _ | apply follows_setGbState | apply follows_raise | apply follows_report)

theorem follows_gbIdent {s₀ : State} {s : State} (h_s : Follows s₀ s) :
    Follows s₀ (gbIdent s) := by
  unfold gbIdent
  try dsimp only
  with_reducible repeat' (first | assumption | intro _ | apply follows_emit)

theorem follows_execGbLinkUp {s₀ : State} {lanes : Fin 256} {serial : Fin 16777216} {s : State} (h_s : Follows s₀ s) :
    FollowsNext s₀ (execGbLinkUp lanes serial s) := by
  unfold execGbLinkUp
  try dsimp only
  apply followsNext
  with_reducible repeat' (
    first | assumption | intro _ | apply follows_gwAfterUp | apply follows_gbCameUp | apply follows_gbIdent
          | apply follows_linkInit | apply follows_wr | simp only [follows_upd] | apply follows_ite)

theorem follows_gbDropLanes {s₀ : State} {s : State} {mask : Nat} (h_s : Follows s₀ s) :
    Follows s₀ (gbDropLanes s mask) := by
  unfold gbDropLanes
  try dsimp only
  with_reducible repeat' (
    first | assumption | intro _ | apply follows_gbResend | apply follows_setGbState | apply follows_gbLost
          | apply follows_report | apply follows_emit | simp only [follows_upd] | apply follows_ite)

theorem follows_gbCtrlWrite {s₀ : State} {s : State} {v : W64} (h_s : Follows s₀ s) :
    Follows s₀ (gbCtrlWrite s v) := by
  unfold gbCtrlWrite
  try dsimp only
  with_reducible repeat' (
    first | assumption | intro _ | apply follows_setGbState | apply follows_gbTrain | apply follows_gbLost
          | apply follows_gbDropLanes | apply follows_wr | apply follows_wrB | simp only [follows_upd]
          | apply follows_ite)

theorem follows_gbTrainFail {s₀ : State} {s : State} (h_s : Follows s₀ s) :
    Follows s₀ (gbTrainFail s) := by
  unfold gbTrainFail
  try dsimp only
  with_reducible repeat' (
    first | assumption | intro _ | apply follows_setGbState | apply follows_report | simp only [follows_upd]
          | apply follows_ite)

theorem follows_gbRetry {s₀ : State} {s : State} (h_s : Follows s₀ s) :
    Follows s₀ (gbRetry s) := by
  unfold gbRetry
  try dsimp only
  with_reducible repeat' (first | assumption | intro _ | apply follows_gbTrain | simp only [follows_upd] | apply follows_ite)

theorem follows_gbNoProgress {s₀ : State} {s : State} (h_s : Follows s₀ s) :
    Follows s₀ (gbNoProgress s) := by
  unfold gbNoProgress
  try dsimp only
  with_reducible repeat' (
    first | assumption | intro _ | apply follows_gbLost | apply follows_report | simp only [follows_upd]
          | apply follows_ite)

theorem follows_setGbSent {s₀ : State} {s : State} {l : List (Sent GbPkt)} (h_s : Follows s₀ s) :
    Follows s₀ (setGbSent s l) := by
  unfold setGbSent
  try dsimp only
  with_reducible repeat' (first | assumption | intro _ | simp only [follows_upd])

theorem follows_gbAcked {s₀ : State} {s : State} {seq : Nat} (h_s : Follows s₀ s) :
    Follows s₀ (gbAcked s seq) := by
  unfold gbAcked
  try dsimp only
  with_reducible repeat' (
    first | assumption | intro _ | apply follows_gbPump | apply follows_setGbSent | apply follows_markMoved
          | simp only [follows_upd] | apply follows_ite)

theorem follows_gbNacked {s₀ : State} {s : State} {seq : Nat} (h_s : Follows s₀ s) :
    Follows s₀ (gbNacked s seq) := by
  unfold gbNacked
  try dsimp only
  with_reducible repeat' (
    first | assumption | intro _ | apply follows_gbResend | apply follows_setGbSent | apply follows_markMoved
          | simp only [follows_upd] | apply follows_ite)

theorem follows_gbCredits {s₀ : State} {s : State} {l : List (Nat × Nat)} (h_s : Follows s₀ s) :
    Follows s₀ (gbCredits s l) := by
  unfold gbCredits
  try dsimp only
  with_reducible repeat' (
    first | assumption | intro _ | apply follows_gbPump | apply follows_addCredits | simp only [follows_upd]
          | apply follows_ite)

theorem follows_gbTaken {s₀ : State} {s : State} {ch len : Nat} (h_s : Follows s₀ s) :
    Follows s₀ (gbTaken s ch len) := by
  unfold gbTaken
  try dsimp only
  with_reducible repeat' (
    first | assumption | intro _ | apply follows_linkAccept | apply follows_oweCredit)

theorem follows_gbReceive {s₀ : State} {s : State} {seq vc flaw lane : Nat} {replay : Bool} (h_s : Follows s₀ s) :
    Follows s₀ (gbReceive s seq vc flaw lane replay) := by
  unfold gbReceive
  try dsimp only
  with_reducible repeat' (
    first | assumption | intro _ | apply follows_nakSent | apply follows_report | apply follows_incSat
          | apply follows_reportLimited | simp only [follows_upd] | apply follows_ite)

theorem follows_gbFec {s₀ : State} {s : State} {lane words corrected symbols : Nat} (h_s : Follows s₀ s) :
    Follows s₀ (gbFec s lane words corrected symbols) := by
  unfold gbFec
  try dsimp only
  with_reducible repeat' (
    first | assumption | intro _ | apply follows_incWrap | apply follows_incSatN)

theorem follows_sendCtxWrite {s₀ : State} {s : State} {page a t m : Nat} {v : W64} (h_s : Follows s₀ s) :
    Follows s₀ (sendCtxWrite s page a t m v) := by
  unfold sendCtxWrite
  try dsimp only
  with_reducible repeat' (first | assumption | intro _ | apply follows_wr | apply follows_ignored | apply follows_ite)

theorem follows_gbWinWrite {s₀ : State} {s : State} {a : Nat} {v : W64} (h_s : Follows s₀ s) :
    Follows s₀ (gbWinWrite s a v) := by
  unfold gbWinWrite
  try dsimp only
  with_reducible repeat' (first | assumption | intro _ | apply follows_wr | apply follows_ignored | apply follows_ite)

theorem follows_notifyWrite {s₀ : State} {s : State} {a : Nat} {v : W64} (h_s : Follows s₀ s) :
    Follows s₀ (notifyWrite s a v) := by
  unfold notifyWrite
  try dsimp only
  with_reducible repeat' (first | assumption | apply follows_wr)

end Sys2Proof.Machine
end

