-- ==== Sys2Proof/Laws/FollowsParith.lean ====
section
/-! SUPPORT. `Follows` is kept by the operations of Machine/Parith.lean. -/

namespace Sys2Proof.Machine

theorem follows_resend {s₀ : State} {s : State} {p : Nat} (h_s : Follows s₀ s) :
    Follows s₀ (resend s p) := by
  unfold resend
  try dsimp only
  with_reducible repeat' (
    first | assumption | intro _ | apply follows_setSent | apply follows_endRun | apply follows_incWrap
          | simp only [follows_upd] | apply follows_ite)

theorem follows_lostContexts {s₀ : State} {s : State} {l : List Pkt} (h_s : Follows s₀ s) :
    Follows s₀ (lostContexts s l) := by
  unfold lostContexts
  try dsimp only
  with_reducible repeat' (first | assumption | intro _ | apply follows_each | apply follows_requestDirty)

theorem follows_timeLost {s₀ : State} {s : State} {p : Nat} (h_s : Follows s₀ s) :
    Follows s₀ (timeLost s p) := by
  unfold timeLost
  try dsimp only
  with_reducible repeat' (
    first | assumption | apply follows_wrF | apply follows_wrB | apply follows_report | simp only [follows_upd]
          | apply follows_ite)

theorem follows_peerAborts {s₀ : State} {s : State} {p : Nat} (h_s : Follows s₀ s) :
    Follows s₀ (peerAborts s p) := by
  unfold peerAborts
  try dsimp only
  with_reducible repeat' (first | assumption | intro _ | apply follows_incWrap | apply follows_each | apply follows_inject)

theorem follows_answerLost {s₀ : State} {s : State} {p : Nat} (h_s : Follows s₀ s) :
    Follows s₀ (answerLost s p) := by
  unfold answerLost
  try dsimp only
  with_reducible repeat' (
    first | assumption | intro _ | apply follows_each | apply follows_upEval | apply follows_hearOrHold
          | apply follows_replyHeard | apply follows_voteForPort | simp only [follows_upd] | apply follows_ite)

theorem follows_enterDown {s₀ : State} {s : State} {p : Nat} (h_s : Follows s₀ s) :
    Follows s₀ (enterDown s p) := by
  unfold enterDown
  try dsimp only
  with_reducible repeat' (first | assumption | intro _ | apply follows_setPortState | simp only [follows_upd])

theorem follows_enterState {s₀ : State} {s : State} {p st : Nat} (h_s : Follows s₀ s) :
    Follows s₀ (enterState s p st) := by
  unfold enterState
  try dsimp only
  with_reducible repeat' (
    first | assumption | intro _ | apply follows_setPortState | apply follows_enterDown
          | simp only [follows_upd] | apply follows_ite)

theorem follows_linkLost {s₀ : State} {s : State} {p st : Nat} (h_s : Follows s₀ s) :
    Follows s₀ (linkLost s p st) := by
  unfold linkLost
  try dsimp only
  with_reducible repeat' (
    first | assumption | intro _ | apply follows_each | apply follows_ckLinkLost | apply follows_requestDirty
          | apply follows_setEgress | apply follows_setSent | apply follows_linkQuiet | apply follows_setComb
          | apply follows_wrF | apply follows_drawnMany | apply follows_report | apply follows_incSat
          | apply follows_lostContexts | apply follows_timeLost | apply follows_peerAborts
          | apply follows_answerLost | apply follows_enterState | simp only [follows_upd])

theorem follows_portDown {s₀ : State} {s : State} {p st : Nat} (h_s : Follows s₀ s) :
    Follows s₀ (portDown s p st) := by
  unfold portDown
  try dsimp only
  with_reducible repeat' (
    first | assumption | intro _ | apply follows_enterState | apply follows_linkLost | simp only [follows_upd]
          | apply follows_ite)

theorem follows_execLinkDown {s₀ : State} {p : PortId} {s : State} (h_s : Follows s₀ s) :
    FollowsNext s₀ (execLinkDown p s) := by
  unfold execLinkDown
  try dsimp only
  apply followsNext
  with_reducible repeat' (first | assumption | apply follows_linkLost | apply follows_ite)

theorem follows_execNoProgress {s₀ : State} {link : LinkId} {s : State} (h_s : Follows s₀ s) :
    FollowsNext s₀ (execNoProgress link s) := by
  unfold execNoProgress
  try dsimp only
  apply followsNext
  with_reducible repeat' (
    first | assumption | intro _ | apply follows_gbNoProgress | apply follows_report | apply follows_linkLost
          | simp only [follows_upd] | apply follows_ite | split)

theorem follows_startTraining {s₀ : State} {s : State} {p : Nat} (h_s : Follows s₀ s) :
    Follows s₀ (startTraining s p) := by
  unfold startTraining
  try dsimp only
  with_reducible repeat' (first | assumption | apply follows_wrB | apply follows_setPortState)

theorem follows_dropLanes {s₀ : State} {s : State} {p mask : Nat} (h_s : Follows s₀ s) :
    Follows s₀ (dropLanes s p mask) := by
  unfold dropLanes
  try dsimp only
  with_reducible repeat' (
    first | assumption | intro _ | apply follows_foldl | apply follows_foldl2 | apply follows_foldl1
          | apply follows_setPortState | apply follows_pump | apply follows_wrF | apply follows_report
          | apply follows_incSat | apply follows_emit | apply follows_resend | apply follows_linkLost
          | simp only [follows_upd] | apply follows_ite)

theorem follows_execLaneDrop {s₀ : State} {link : LinkId} {lane : Fin 8} {s : State} (h_s : Follows s₀ s) :
    FollowsNext s₀ (execLaneDrop link lane s) := by
  unfold execLaneDrop
  try dsimp only
  apply followsNext
  with_reducible repeat' (
    first | assumption | intro _ | apply follows_gbDropLanes | apply follows_dropLanes
          | simp only [follows_upd] | apply follows_ite | split)

theorem follows_pxCtrlWrite {s₀ : State} {s : State} {p : Nat} {v : W64} (h_s : Follows s₀ s) :
    Follows s₀ (pxCtrlWrite s p v) := by
  unfold pxCtrlWrite
  try dsimp only
  with_reducible repeat' (
    first | assumption | intro _ | apply follows_wr | apply follows_wrB | apply follows_reportB
          | apply follows_enterDown | apply follows_portDown | apply follows_startTraining
          | apply follows_dropLanes | simp only [follows_upd] | apply follows_ite)

theorem follows_execTrainingComplete {s₀ : State} {p : PortId} {lanes : Fin 16} {dev : Fin 32768} {port : Fin 16} {serial : Fin 16777216} {s : State} (h_s : Follows s₀ s) :
    FollowsNext s₀ (execTrainingComplete p lanes dev port serial s) := by
  unfold execTrainingComplete
  try dsimp only
  apply followsNext
  with_reducible repeat' (
    first | assumption | intro _ | apply follows_setPortState | apply follows_linkInit | apply follows_wr
          | apply follows_wrF | apply follows_report | apply follows_emit | simp only [follows_upd]
          | apply follows_ite)

theorem follows_execTrainFail {s₀ : State} {link : LinkId} {s : State} (h_s : Follows s₀ s) :
    FollowsNext s₀ (execTrainFail link s) := by
  unfold execTrainFail
  try dsimp only
  apply followsNext
  with_reducible repeat' (
    first | assumption | intro _ | apply follows_gbTrainFail | apply follows_report | apply follows_enterDown
          | simp only [follows_upd] | apply follows_ite | split)

theorem follows_execRetryTimer {s₀ : State} {link : LinkId} {s : State} (h_s : Follows s₀ s) :
    FollowsNext s₀ (execRetryTimer link s) := by
  unfold execRetryTimer
  try dsimp only
  apply followsNext
  with_reducible repeat' (
    first | assumption | intro _ | apply follows_gbRetry | apply follows_startTraining
          | simp only [follows_upd] | apply follows_ite | split)

theorem follows_execAckReceived {s₀ : State} {link : LinkId} {seq : Fin 4096} {s : State} (h_s : Follows s₀ s) :
    FollowsNext s₀ (execAckReceived link seq s) := by
  unfold execAckReceived
  try dsimp only
  apply followsNext
  with_reducible repeat' (
    first | assumption | intro _ | apply follows_setSent | apply follows_pump | apply follows_gbAcked
          | apply follows_markMoved | simp only [follows_upd] | apply follows_ite | split)

theorem follows_execNakReceived {s₀ : State} {link : LinkId} {seq : Fin 4096} {s : State} (h_s : Follows s₀ s) :
    FollowsNext s₀ (execNakReceived link seq s) := by
  unfold execNakReceived
  try dsimp only
  apply followsNext
  with_reducible repeat' (
    first | assumption | intro _ | apply follows_setSent | apply follows_pump | apply follows_gbNacked
          | apply follows_markMoved | apply follows_resend | simp only [follows_upd] | apply follows_ite
          | split)

theorem follows_execCreditBlock {s₀ : State} {link : LinkId} {c0 c1 c2 c3 : Fin 16384} {s : State} (h_s : Follows s₀ s) :
    FollowsNext s₀ (execCreditBlock link c0 c1 c2 c3 s) := by
  unfold execCreditBlock
  try dsimp only
  apply followsNext
  with_reducible repeat' (
    first | assumption | intro _ | apply follows_pump | apply follows_gbCredits | apply follows_addCredits
          | simp only [follows_upd] | apply follows_ite | split)

theorem follows_execAckTimer {s₀ : State} {link : LinkId} {s : State} (h_s : Follows s₀ s) :
    FollowsNext s₀ (execAckTimer link s) := by
  unfold execAckTimer
  try dsimp only
  apply followsNext
  with_reducible repeat' (first | assumption | intro _ | apply follows_ackAndCredits | simp only [follows_upd] | apply follows_ite | split)

theorem follows_sendNak {s₀ : State} {s : State} {p : Nat} (h_s : Follows s₀ s) :
    Follows s₀ (sendNak s p) := by
  unfold sendNak
  try dsimp only
  with_reducible repeat' (
    first | assumption | intro _ | apply follows_nakSent | apply follows_incSat)

theorem follows_execBoundaryFifoSlotFree {s₀ : State} {b : BoundaryId} {s : State} (h_s : Follows s₀ s) :
    FollowsNext s₀ (execBoundaryFifoSlotFree b s) := by
  unfold execBoundaryFifoSlotFree
  try dsimp only
  apply followsNext
  with_reducible repeat' (first | assumption | intro _ | apply follows_fifoRead)

theorem follows_oweAll {s₀ : State} {s : State} {p : Nat} {pkt : Pkt} (h_s : Follows s₀ s) :
    Follows s₀ (oweAll s p pkt) := by
  unfold oweAll
  try dsimp only
  with_reducible repeat' (first | assumption | intro _ | apply follows_oweCredit)

theorem follows_ingressLocal {s₀ : State} {s : State} {p : Nat} {pkt : Pkt} (h_s : Follows s₀ s) :
    Follows s₀ (ingressLocal s p pkt) := by
  unfold ingressLocal
  try dsimp only
  with_reducible repeat' (
    first | assumption | intro _ | apply follows_nackFrom | apply follows_redDiscard
          | apply follows_unreachable | apply follows_crossIn | apply follows_report | apply follows_oweAll
          | simp only [follows_upd] | apply follows_ite | split)

theorem follows_ingressTransit {s₀ : State} {s : State} {p hop : Nat} {pkt : Pkt} (h_s : Follows s₀ s) :
    Follows s₀ (ingressTransit s p hop pkt) := by
  unfold ingressTransit
  try dsimp only
  with_reducible repeat' (
    first | assumption | intro _ | apply follows_nackOrDrop | apply follows_exitRefuse | apply follows_crossIn
          | apply follows_hold | apply follows_report | apply follows_incSat | apply follows_oweAll
          | simp only [follows_upd] | apply follows_ite | split)

theorem follows_ingress {s₀ : State} {s : State} {p seq hop : Nat} {pkt : Pkt} (h_s : Follows s₀ s) :
    Follows s₀ (ingress s p seq hop pkt) := by
  unfold ingress
  try dsimp only
  with_reducible repeat' (
    first | assumption | apply follows_ingressLocal | apply follows_ingressTransit | simp only [follows_upd] | apply follows_ite)

theorem follows_portReceive {s₀ : State} {s : State} {p seq hop : Nat} {replay : Bool} {flaw lane : Nat} {pkt : Pkt} (h_s : Follows s₀ s) :
    Follows s₀ (portReceive s p seq hop replay flaw lane pkt) := by
  unfold portReceive
  try dsimp only
  with_reducible repeat' (
    first | assumption | intro _ | apply follows_seqAccept | apply follows_report | apply follows_incWrap
          | apply follows_incSat | apply follows_reportLimited | apply follows_sendNak | apply follows_ingress
          | simp only [follows_upd] | apply follows_ite)

theorem follows_execLinkPacketReceive {s₀ : State} {link : LinkId} {seq : Fin 4096} {hop : Fin 256} {replay : Bool} {flaw : Fin 3} {lane : Fin 8} {pkt : Pkt} {s : State} (h_s : Follows s₀ s) :
    FollowsNext s₀ (execLinkPacketReceive link seq hop replay flaw lane pkt s) := by
  unfold execLinkPacketReceive
  try dsimp only
  apply followsNext
  with_reducible repeat' (
    first | assumption | intro _ | apply follows_gbReceive | apply follows_portReceive
          | simp only [follows_upd] | apply follows_ite | split)

theorem follows_portFec {s₀ : State} {s : State} {p lane words corrected symbols : Nat} (h_s : Follows s₀ s) :
    Follows s₀ (portFec s p lane words corrected symbols) := by
  unfold portFec
  try dsimp only
  with_reducible repeat' (
    first | assumption | intro _ | apply follows_incWrap | apply follows_incSatN | apply follows_reportLimited
          | simp only [follows_upd] | apply follows_ite)

theorem follows_execFecAlarm {s₀ : State} {link : LinkId} {lane : Fin 8} {words corrected symbols : Nat} {s : State} (h_s : Follows s₀ s) :
    FollowsNext s₀ (execFecAlarm link lane words corrected symbols s) := by
  unfold execFecAlarm
  try dsimp only
  apply followsNext
  with_reducible repeat' (
    first | assumption | intro _ | apply follows_gbFec | apply follows_portFec | simp only [follows_upd]
          | apply follows_ite | split)

theorem follows_execResidence {s₀ : State} {p : PortId} {s : State} (h_s : Follows s₀ s) :
    FollowsNext s₀ (execResidence p s) := by
  unfold execResidence
  try dsimp only
  apply followsNext
  with_reducible repeat' (first | assumption | intro _ | apply follows_setEgress | apply follows_residenceDrop | simp only [follows_upd] | split)

theorem follows_fxDataWrite {s₀ : State} {s : State} {v : W64} (h_s : Follows s₀ s) :
    Follows s₀ (fxDataWrite s v) := by
  unfold fxDataWrite
  try dsimp only
  with_reducible repeat' (
    first | assumption | intro _ | apply follows_foldl | apply follows_foldl2 | apply follows_foldl1 | apply follows_wr
          | apply follows_wrF | apply follows_reportB | apply follows_ite)

theorem follows_execTimeExchange {s₀ : State} {s : State} (h_s : Follows s₀ s) :
    FollowsNext s₀ (execTimeExchange s) := by
  unfold execTimeExchange
  try dsimp only
  apply followsNext
  with_reducible repeat' (
    first | assumption | apply follows_wrF | apply follows_wrB | apply follows_incWrap | apply follows_emit
          | simp only [follows_upd] | apply follows_ite | split)

theorem follows_execTimeReqReceive {s₀ : State} {p : PortId} {num : Fin 64} {s : State} (h_s : Follows s₀ s) :
    FollowsNext s₀ (execTimeReqReceive p num s) := by
  unfold execTimeReqReceive
  try dsimp only
  apply followsNext
  with_reducible repeat' (first | assumption | apply follows_emit | apply follows_ite)

theorem follows_lockStep {s₀ : State} {s : State} {offset : Int} (h_s : Follows s₀ s) :
    Follows s₀ (lockStep s offset) := by
  unfold lockStep
  try dsimp only
  with_reducible repeat' (first | assumption | apply follows_wrB | apply follows_report | simp only [follows_upd] | apply follows_ite)

theorem follows_steerTime {s₀ : State} {s : State} {offset : Int} (h_s : Follows s₀ s) :
    Follows s₀ (steerTime s offset) := by
  unfold steerTime
  try dsimp only
  with_reducible repeat' (
    first | assumption | intro _ | apply follows_wrF | apply follows_drawn | simp only [follows_upd])

theorem follows_noteClock {s₀ : State} {s : State} (h_s : Follows s₀ s) :
    Follows s₀ (noteClock s) := by
  unfold noteClock
  try dsimp only
  with_reducible repeat' (first | assumption | intro _ | simp only [follows_upd] | apply follows_ite | split)

theorem follows_execTimeRespReceive {s₀ : State} {p : PortId} {num : Fin 64} {t2 t3 : Fin 281474976710656} {s : State} (h_s : Follows s₀ s) :
    FollowsNext s₀ (execTimeRespReceive p num t2 t3 s) := by
  unfold execTimeRespReceive
  try dsimp only
  apply followsNext
  with_reducible repeat' (
    first | assumption | intro _ | apply follows_wrF | apply follows_lockStep | apply follows_steerTime
          | apply follows_noteClock | simp only [follows_upd] | apply follows_ite | split)

end Sys2Proof.Machine
end

