-- ==== Sys2Proof/Laws/FollowsFence.lean ====
section
/-! SUPPORT. `Follows` is kept by the operations of Machine/Fence.lean. -/

namespace Sys2Proof.Machine

theorem follows_logFence {s₀ : State} {s : State} {e : Nat} (h_s : Follows s₀ s) :
    Follows s₀ (logFence s e) := by
  unfold logFence
  try dsimp only
  with_reducible repeat' (
    first | assumption | intro _ | apply follows_report | apply follows_ufsWrite | simp only [follows_upd]
          | apply follows_ite | split)

theorem follows_setFloor {s₀ : State} {s : State} (h_s : Follows s₀ s) :
    Follows s₀ (setFloor s) := by
  unfold setFloor
  try dsimp only
  with_reducible repeat' (first | assumption | intro _ | apply follows_wr)

theorem follows_fenceUnit {s₀ : State} {s : State} {e : Nat} (h_s : Follows s₀ s) :
    Follows s₀ (fenceUnit s e) := by
  unfold fenceUnit
  try dsimp only
  with_reducible repeat' (
    first | assumption | intro _ | apply follows_each | apply follows_setChState | apply follows_stopTile
          | apply follows_gbCtrlWrite | apply follows_markFenced | apply follows_fenceLink | apply follows_wrB
          | apply follows_dropLanes | simp only [follows_upd] | apply follows_ite | split)

theorem follows_followFence {s₀ : State} {s : State} {cs : List Nat} {e : Nat} (h_s : Follows s₀ s) :
    Follows s₀ (followFence s cs e) := by
  unfold followFence
  try dsimp only
  with_reducible repeat' (
    first | assumption | intro _ | apply follows_each | apply follows_requestDirty | apply follows_standIns
          | apply follows_originate | simp only [follows_upd] | apply follows_ite)

theorem follows_noteFence {s₀ : State} {s : State} {e : Nat} (h_s : Follows s₀ s) :
    Follows s₀ (noteFence s e) := by
  unfold noteFence
  try dsimp only
  with_reducible repeat' (first | assumption | apply follows_report | apply follows_writeTfs)

theorem follows_moveCopies {s₀ : State} {s : State} {ts : List Nat} (h_s : Follows s₀ s) :
    Follows s₀ (moveCopies s ts) := by
  unfold moveCopies
  try dsimp only
  with_reducible repeat' (
    first | assumption | intro _ | apply follows_each | apply follows_chooseCopy)

theorem follows_applyFence {s₀ : State} {s : State} {e : Nat} (h_s : Follows s₀ s) :
    Follows s₀ (applyFence s e) := by
  unfold applyFence
  try dsimp only
  with_reducible repeat' (
    first | assumption | intro _ | apply follows_logFence | apply follows_fenceUnit
          | apply follows_followFence | apply follows_noteFence | apply follows_moveCopies
          | simp only [follows_upd] | apply follows_ite)

theorem follows_execUnitFence {s₀ : State} {e : Fin 18446744073709551616} {s : State} (h_s : Follows s₀ s) :
    FollowsNext s₀ (execUnitFence e s) := by
  unfold execUnitFence
  try dsimp only
  apply followsNext
  with_reducible repeat' (
    first | assumption | apply follows_setFloor | apply follows_applyFence | simp only [follows_upd] | apply follows_ite)

theorem follows_execCondFence {s₀ : State} {e : Fin 18446744073709551616} {s : State} (h_s : Follows s₀ s) :
    FollowsNext s₀ (execCondFence e s) := by
  unfold execCondFence
  try dsimp only
  apply followsNext
  with_reducible repeat' (
    first | assumption | intro _ | apply follows_report | apply follows_each | apply follows_originate | simp only [follows_upd]
          | apply follows_ite | split)

theorem follows_strike {s₀ : State} {s : State} {k : Nat} (h_s : Follows s₀ s) :
    Follows s₀ (strike s k).2 := by
  unfold strike
  try dsimp only
  with_reducible repeat' (first | assumption | intro _ | simp only [follows_upd])

theorem follows_execClassified {s₀ : State} {k : ClusterId} {s : State} (h_s : Follows s₀ s) :
    FollowsNext s₀ (execClassified k s) := by
  unfold execClassified
  try dsimp only
  apply followsNext
  with_reducible repeat' (
    first | assumption | intro _ | apply follows_report | apply follows_each | apply follows_queueFence | apply follows_stopTile
          | apply follows_writeTfs | apply follows_strike | simp only [follows_upd] | apply follows_ite | split)

theorem follows_stepGuard {s₀ : State} {s : State} {c : Nat} (h_s : Follows s₀ s) :
    Follows s₀ (stepGuard s c) := by
  unfold stepGuard
  try dsimp only
  with_reducible repeat' (
    first | assumption | intro _ | apply follows_ckFaulted | apply follows_setCsState
          | apply follows_guardReport)

theorem follows_guardBrokenIn {s₀ : State} {s : State} {p off k : Nat} {x : Option (PageKind × Nat)} (h_s : Follows s₀ s) :
    Follows s₀ (guardBrokenIn s p off k x) := by
  unfold guardBrokenIn
  try dsimp only
  with_reducible repeat' (
    first | assumption | intro _ | apply follows_each | apply follows_fenceTile | apply follows_stepGuard
          | apply follows_guardReport | apply follows_portDown | apply follows_queueGuard
          | simp only [follows_upd] | apply follows_ite | split)

theorem follows_guardBroken {s₀ : State} {s : State} {a k : Nat} (h_s : Follows s₀ s) :
    Follows s₀ (guardBroken s a k) := by
  unfold guardBroken
  try dsimp only
  with_reducible repeat' (first | assumption | apply follows_guardBrokenIn)

theorem follows_dropLost {s₀ : State} {s s1 u : State} {o : Option (PageKind × Nat)} (h_u : Follows s₀ u) :
    Follows s₀ (dropLost s s1 u o) := by
  unfold dropLost
  split
  · exact follows_each (fun _ _ h => follows_regionGone h) h_u
  · exact h_u

theorem follows_creditBroken {s₀ : State} {s : State} {x : Nat × Nat × Credit} {flip : BitVec 64} (h_s : Follows s₀ s) :
    Follows s₀ (creditBroken s x flip) := by
  unfold creditBroken
  try dsimp only
  with_reducible repeat' (
    first | assumption | intro _ | apply follows_setCredit | apply follows_creditGuard
          | simp only [follows_upd] | apply follows_ite)

theorem follows_execGuardFault {s₀ : State} {a : Fin 4294967296} {k : Fin 257} {flip : BitVec 64} {s : State} (h_s : Follows s₀ s) :
    FollowsNext s₀ (execGuardFault a k flip s) := by
  unfold execGuardFault
  try dsimp only
  apply followsNext
  with_reducible repeat' (
    first | assumption | intro _ | apply follows_guardBroken | apply follows_dropLost
          | apply follows_creditBroken | apply follows_wr | simp only [follows_upd] | apply follows_ite
          | split)

end Sys2Proof.Machine
end

