-- ==== Sys2Proof/Laws/FollowsRecovery.lean ====
section
/-! SUPPORT. `Follows` is kept by the operations of Machine/Recovery.lean. -/

namespace Sys2Proof.Machine

theorem follows_setPhase {s₀ : State} {s : State} {p : Nat} (h_s : Follows s₀ s) :
    Follows s₀ (setPhase s p) := by
  unfold setPhase
  try dsimp only
  with_reducible repeat' (first | assumption | apply follows_wrF | simp only [follows_upd])

theorem follows_setSuspects {s₀ : State} {s : State} {l : List Nat} (h_s : Follows s₀ s) :
    Follows s₀ (setSuspects s l) := by
  unfold setSuspects
  try dsimp only
  with_reducible repeat' (first | assumption | intro _ | apply follows_wrB | apply follows_clearRegs | apply follows_each)

theorem follows_setAdmitted {s₀ : State} {s : State} {c : Option Nat} (h_s : Follows s₀ s) :
    Follows s₀ (setAdmitted s c) := by
  unfold setAdmitted
  try dsimp only
  with_reducible repeat' (first | assumption | apply follows_wrF | apply follows_wrB | simp only [follows_upd])

theorem follows_beginRecovery {s₀ : State} {s : State} {h : Hang} {l : List Nat} (h_s : Follows s₀ s) :
    Follows s₀ (beginRecovery s h l) := by
  unfold beginRecovery
  try dsimp only
  with_reducible repeat' (first | assumption | apply follows_setPhase | apply follows_setSuspects | simp only [follows_upd])

theorem follows_raiseHang {s₀ : State} {s : State} {h : Hang} {nsus : Nat} (h_s : Follows s₀ s) :
    Follows s₀ (raiseHang s h nsus) := by
  unfold raiseHang
  try dsimp only
  with_reducible repeat' (
    first | assumption | intro _ | apply follows_foldl | apply follows_foldl2 | apply follows_foldl1 | apply follows_wr
          | apply follows_raise | apply follows_report | apply follows_incWrap)

theorem follows_foundHang {s₀ : State} {s : State} {ws : List (Nat × UnitWait)} {h : Hang} (h_s : Follows s₀ s) :
    Follows s₀ (foundHang s ws h) := by
  unfold foundHang
  try dsimp only
  with_reducible repeat' (
    first | assumption | intro _ | apply follows_beginRecovery | apply follows_raiseHang
          | simp only [follows_upd] | apply follows_ite)

theorem follows_execBrambleWindow {s₀ : State} {s : State} (h_s : Follows s₀ s) :
    FollowsNext s₀ (execBrambleWindow s) := by
  unfold execBrambleWindow
  try dsimp only
  apply followsNext
  with_reducible repeat' (first | assumption | intro _ | apply follows_foundHang | simp only [follows_upd] | apply follows_ite)

theorem follows_execDrainTimeout {s₀ : State} {set : Fin 256} {s : State} (h_s : Follows s₀ s) :
    FollowsNext s₀ (execDrainTimeout set s) := by
  unfold execDrainTimeout
  try dsimp only
  apply followsNext
  with_reducible repeat' (
    first | assumption | intro _ | apply follows_setDrain | apply follows_report | apply follows_limitOnce
          | apply follows_foundHang | simp only [follows_upd] | apply follows_ite | split)

theorem follows_execRecoveryHold {s₀ : State} {s : State} (h_s : Follows s₀ s) :
    FollowsNext s₀ (execRecoveryHold s) := by
  unfold execRecoveryHold
  try dsimp only
  apply followsNext
  with_reducible repeat' (
    first | assumption | intro _ | apply follows_each | apply follows_setTdState | apply follows_originate
          | apply follows_setPhase | apply follows_ite)

theorem follows_sampleRegions {s₀ : State} {c : Nat} {acc : List Byte × State} {x : Nat × Nat} (h_acc : Follows s₀ acc.2) :
    Follows s₀ (sampleRegions c acc x).2 := by
  unfold sampleRegions
  try dsimp only
  with_reducible repeat' (
    first | assumption | intro _ | apply follows_foldl | apply follows_foldl2 | apply follows_foldl1
          | apply follows_ownRead | simp only [follows_upd] | apply follows_ite | split)

theorem follows_sampleEntries {s₀ : State} {s : State} (h_s : Follows s₀ s) :
    Follows s₀ (sampleEntries s).2 := by
  unfold sampleEntries
  try dsimp only
  with_reducible repeat' (
    first | assumption | intro _ | apply follows_foldl | apply follows_foldl2 | apply follows_foldl1
          | apply follows_sampleRegions)

theorem follows_takeSample {s₀ : State} {s : State} {h : Hang} (h_s : Follows s₀ s) :
    Follows s₀ (takeSample s h) := by
  unfold takeSample
  try dsimp only
  with_reducible repeat' (
    first | assumption | intro _ | apply follows_mappedWrite | apply follows_wrB | apply follows_drawn
          | apply follows_report | apply follows_sampleEntries | simp only [follows_upd] | apply follows_ite)

theorem follows_releaseCtx {s₀ : State} {s : State} {c : Nat} (h_s : Follows s₀ s) :
    Follows s₀ (releaseCtx s c) := by
  unfold releaseCtx
  try dsimp only
  with_reducible repeat' (first | assumption | intro _ | apply follows_revive | apply follows_unbind | simp only [follows_upd])

theorem follows_toUnplaceable {s₀ : State} {s : State} {c : Nat} (h_s : Follows s₀ s) :
    Follows s₀ (toUnplaceable s c) := by
  unfold toUnplaceable
  try dsimp only
  with_reducible repeat' (
    first | assumption | apply follows_raise | apply follows_report | apply follows_setTdState | apply follows_unbind
          | simp only [follows_upd] | apply follows_ite)

theorem follows_afterTorn {s₀ : State} {s : State} {c : Nat} (h_s : Follows s₀ s) :
    Follows s₀ (afterTorn s c) := by
  unfold afterTorn
  try dsimp only
  with_reducible repeat' (first | assumption | apply follows_releaseCtx | apply follows_toUnplaceable | apply follows_ite)

theorem follows_nextHang {s₀ : State} {s : State} (h_s : Follows s₀ s) :
    Follows s₀ (nextHang s) := by
  unfold nextHang
  try dsimp only
  with_reducible repeat' (first | assumption | apply follows_beginRecovery | simp only [follows_upd] | split)

theorem follows_flushHung {s₀ : State} {s : State} (h_s : Follows s₀ s) :
    Follows s₀ (flushHung s) := by
  unfold flushHung
  try dsimp only
  with_reducible repeat' (
    first | assumption | intro _ | apply follows_each | apply follows_beginDrain)

theorem follows_endRecovery {s₀ : State} {s : State} (h_s : Follows s₀ s) :
    Follows s₀ (endRecovery s) := by
  unfold endRecovery
  try dsimp only
  with_reducible repeat' (
    first | assumption | intro _ | apply follows_report | apply follows_setPhase | apply follows_setSuspects
          | apply follows_setAdmitted | apply follows_nextHang | apply follows_flushHung
          | simp only [follows_upd] | apply follows_ite)

theorem follows_afterRound {s₀ : State} {s : State} (h_s : Follows s₀ s) :
    Follows s₀ (afterRound s) := by
  unfold afterRound
  try dsimp only
  with_reducible repeat' (
    first | assumption | intro _ | apply follows_setPhase | apply follows_endRecovery | simp only [follows_upd]
          | apply follows_ite)

theorem follows_execSampleComplete {s₀ : State} {s : State} (h_s : Follows s₀ s) :
    FollowsNext s₀ (execSampleComplete s) := by
  unfold execSampleComplete
  try dsimp only
  apply followsNext
  with_reducible repeat' (
    first | assumption | intro _ | apply follows_each | apply follows_requestTeardown | apply follows_report
          | apply follows_setPhase | apply follows_takeSample | apply follows_afterRound
          | apply follows_ownWake | simp only [follows_upd] | apply follows_ite | split)

theorem follows_execTeardown {s₀ : State} {c : CtxId} {s : State} (h_s : Follows s₀ s) :
    FollowsNext s₀ (execTeardown c s) := by
  unfold execTeardown
  try dsimp only
  apply followsNext
  with_reducible repeat' (
    first | assumption | apply follows_tearDown | apply follows_afterTorn | apply follows_afterRound | simp only [follows_upd]
          | apply follows_ite)

theorem follows_execTeardownDrain {s₀ : State} {c : CtxId} {s : State} (h_s : Follows s₀ s) :
    FollowsNext s₀ (execTeardownDrain c s) := by
  unfold execTeardownDrain
  try dsimp only
  apply followsNext
  with_reducible repeat' (
    first | assumption | apply follows_report | apply follows_incSat | apply follows_setTdState | apply follows_afterTorn
          | apply follows_afterRound | simp only [follows_upd] | apply follows_ite | split)

theorem follows_tdCmd {s₀ : State} {s : State} {c cmd : Nat} (h_s : Follows s₀ s) :
    Follows s₀ (tdCmd s c cmd) := by
  unfold tdCmd
  try dsimp only
  with_reducible repeat' (
    first | assumption | apply follows_ignored | apply follows_requestTeardown | apply follows_originate
          | apply follows_afterTorn | simp only [follows_upd] | apply follows_ite)

theorem follows_execAdmission {s₀ : State} {c : CtxId} {s : State} (h_s : Follows s₀ s) :
    FollowsNext s₀ (execAdmission c s) := by
  unfold execAdmission
  try dsimp only
  apply followsNext
  with_reducible repeat' (
    first | assumption | exact follows_csOpen ‹_› ‹_› | refine follows_csOpen ‹_› ?_ | apply follows_setAdmitted
          | apply follows_endRecovery | simp only [follows_upd] | apply follows_ite | split)

theorem follows_findGuilty {s₀ : State} {s : State} {c : Nat} {h : Hang} (h_s : Follows s₀ s) :
    Follows s₀ (findGuilty s c h) := by
  unfold findGuilty
  try dsimp only
  with_reducible repeat' (
    first | assumption | apply follows_report | apply follows_originate | apply follows_setPhase | apply follows_setSuspects
          | apply follows_setAdmitted | simp only [follows_upd])

theorem follows_execAdmissionEnd {s₀ : State} {s : State} (h_s : Follows s₀ s) :
    FollowsNext s₀ (execAdmissionEnd s) := by
  unfold execAdmissionEnd
  try dsimp only
  apply followsNext
  with_reducible repeat' (
    first | assumption | apply follows_setAdmitted | apply follows_endRecovery | apply follows_findGuilty
          | simp only [follows_upd] | apply follows_ite | split)

theorem follows_abortCtx {s₀ : State} {p : Ctrl} {t : Nat} {s : State} {c : Nat} (h_s : Follows s₀ s) :
    Follows s₀ (abortCtx p t s c) := by
  unfold abortCtx
  try dsimp only
  with_reducible repeat' (
    first | assumption | apply follows_incWrap | apply follows_setVoteHeld | apply follows_setAtt | apply follows_tileVote
          | apply follows_stopUnits | apply follows_setEndHeld | apply follows_blockVote | apply follows_abortFault
          | simp only [follows_upd] | apply follows_ite)

theorem follows_abortIgnored {s₀ : State} {s : State} {p : Ctrl} (h_s : Follows s₀ s) :
    Follows s₀ (abortIgnored s p) := by
  unfold abortIgnored
  try dsimp only
  with_reducible repeat' (
    first | assumption | apply follows_incSat | apply follows_limitOnce | apply follows_reportLimited | apply follows_ite)

theorem follows_execAbortArrival {s₀ : State} {t : TileId} {p : Ctrl} {s : State} (h_s : Follows s₀ s) :
    FollowsNext s₀ (execAbortArrival t p s) := by
  unfold execAbortArrival
  try dsimp only
  apply followsNext
  with_reducible repeat' (
    first | assumption | intro _ | apply follows_each | exact follows_takeEjected ‹_› ‹_› | refine follows_takeEjected ‹_› ?_
          | apply follows_abortCtx | apply follows_abortIgnored | simp only [follows_upd] | apply follows_ite | split)

end Sys2Proof.Machine
end

