-- ==== Sys2Proof/Laws/FollowsReset.lean ====
section
/-! SUPPORT. `Follows` is kept by the operations of Machine/Reset.lean. -/

namespace Sys2Proof.Machine

theorem follows_clearTiles {s₀ : State} {s : State} {p : Nat → Bool} (h_s : Follows s₀ s) :
    Follows s₀ (clearTiles s p) :=
  follows_mk_iff.2 ⟨⟨h_s.1, h_s.2.1⟩, ⟨h_s.2.2.1, h_s.2.2.2.1⟩, follows_mem h_s, follows_chk h_s, follows_filter (follows_regs h_s)⟩

theorem follows_tearResidents {s₀ : State} {s : State} {tiles : List Nat} (h_s : Follows s₀ s) :
    Follows s₀ (tearResidents s tiles) := by
  unfold tearResidents
  try dsimp only
  with_reducible repeat' (
    first | assumption | intro _ | apply follows_each | apply follows_originate | apply follows_tearOnce | apply follows_ite)

theorem follows_setDestReset {s₀ : State} {s : State} {tiles : List Nat} {b : Bool} (h_s : Follows s₀ s) :
    Follows s₀ (setDestReset s tiles b) := by
  unfold setDestReset
  try dsimp only
  with_reducible repeat' (first | assumption | intro _ | apply follows_wrB | apply follows_each)

theorem follows_wakeNow {s₀ : State} {s : State} {ks : List Nat} (h_s : Follows s₀ s) :
    Follows s₀ (wakeNow s ks) := by
  unfold wakeNow
  try dsimp only
  with_reducible repeat' (first | assumption | intro _ | apply follows_wrF | apply follows_wrB | apply follows_each | simp only [follows_upd])

theorem follows_noteReset {s₀ : State} {s : State} {ks : List Nat} (h_s : Follows s₀ s) :
    Follows s₀ (noteReset s ks) := by
  unfold noteReset
  try dsimp only
  with_reducible repeat' (first | assumption | intro _ | simp only [follows_upd])

theorem follows_resetClusters {s₀ : State} {s : State} {ks : List Nat} (h_s : Follows s₀ s) :
    Follows s₀ (resetClusters s ks) := by
  unfold resetClusters
  try dsimp only
  with_reducible repeat' (
    first | assumption | intro _ | apply follows_each | apply follows_drainLocal | apply follows_clearTiles
          | apply follows_tearResidents | apply follows_setDestReset | apply follows_wakeNow
          | apply follows_noteReset)

theorem follows_resetAndReload {s₀ : State} {s : State} {ks : List Nat} (h_s : Follows s₀ s) :
    Follows s₀ (resetAndReload s ks) := by
  unfold resetAndReload
  try dsimp only
  with_reducible repeat' (first | assumption | intro _ | apply follows_reload | apply follows_resetClusters | simp only [follows_upd])

theorem follows_gbFirst {s₀ : State} {s : State} (h_s : Follows s₀ s) :
    Follows s₀ (gbFirst s) := by
  unfold gbFirst
  try dsimp only
  with_reducible repeat' (first | assumption | intro _ | apply follows_gbTrain | simp only [follows_upd] | apply follows_ite)

theorem follows_enterRom {s₀ : State} {s : State} (h_s : Follows s₀ s) :
    Follows s₀ (enterRom s) := by
  unfold enterRom
  try dsimp only
  with_reducible repeat' (
    first | assumption | intro _ | apply follows_enterRomSec | apply follows_wrF | apply follows_incWrap
          | apply follows_gbFirst)

theorem follows_warmReset {s₀ : State} {s : State} (h_s : Follows s₀ s) :
    Follows s₀ (warmReset s) := by
  unfold warmReset
  extract_lets s0 s1 s2 s3 s4 s5 r _ _ _ s6 s7
  have h0 : Follows s₀ s0 := follows_tearResidents h_s
  have h1 : Follows s₀ s1 := follows_ite (follows_each (fun _ _ h => follows_giveUp h) h0) h0
  have h2 : Follows s₀ s2 := follows_endSession (follows_ite (follows_report h1) h1)
  have h3 : Follows s₀ s3 := follows_each (fun _ _ h => follows_ite (follows_linkLost h) h) h2
  have h4 : Follows s₀ s4 := follows_ite (follows_gbLost h3) h3
  have h5 : Follows s₀ s5 := follows_toSelfRefresh (follows_each (fun _ _ h => follows_setChState h) (follows_clearTiles h4))
  clear_value s5
  have h6 : Follows s₀ s6 :=
    follows_mk_iff.2 ⟨⟨h5.1, h5.2.1⟩, ⟨h5.2.2.1, h5.2.2.2.1⟩, follows_mem h5, follows_chk h5, follows_filter (follows_regs h5)⟩
  exact follows_enterRom (follows_wr (follows_each (fun _ _ h => follows_setChState h) h6))

theorem follows_coldReset {s₀ : State} {s : State} (h_s : Follows s₀ s) :
    Follows s₀ (coldReset s) := by
  unfold coldReset
  extract_lets r _ _ s1
  have h1 : Follows s₀ s1 :=
    follows_mk_iff.2 ⟨⟨h_s.1, h_s.2.1⟩, ⟨h_s.2.2.1, h_s.2.2.2.1⟩, rfl, rfl, follows_filter (follows_regs h_s)⟩
  exact follows_emit (follows_fillMem (follows_fillMem (follows_wrF h1)))

theorem follows_releaseReset {s₀ : State} {s : State} (h_s : Follows s₀ s) :
    Follows s₀ (releaseReset s) := by
  unfold releaseReset
  try dsimp only
  with_reducible repeat' (
    first | assumption | intro _ | apply follows_emit | apply follows_enterRom | simp only [follows_upd]
          | apply follows_ite)

theorem follows_execModuleResetRelease {s₀ : State} {s : State} (h_s : Follows s₀ s) :
    FollowsNext s₀ (execModuleResetRelease s) := by
  unfold execModuleResetRelease
  try dsimp only
  apply followsNext
  with_reducible repeat' (first | assumption | apply follows_releaseReset | apply follows_ite)

theorem follows_startReset {s₀ : State} {s : State} {cmd : Nat} {ks : List Nat} (h_s : Follows s₀ s) :
    Follows s₀ (startReset s cmd ks) := by
  unfold startReset
  try dsimp only
  with_reducible repeat' (first | assumption | apply follows_wr | apply follows_resetAndReload | simp only [follows_upd])

theorem follows_rstRefused {s₀ : State} {s : State} (h_s : Follows s₀ s) :
    Follows s₀ (rstRefused s) := by
  unfold rstRefused
  try dsimp only
  with_reducible repeat' (first | assumption | apply follows_reportB)

theorem follows_rstCmd {s₀ : State} {s : State} {cmd cluster : Nat} (h_s : Follows s₀ s) :
    Follows s₀ (rstCmd s cmd cluster) := by
  unfold rstCmd
  try dsimp only
  with_reducible repeat' (
    first | assumption | intro _ | apply follows_warmReset | apply follows_coldReset | apply follows_startReset
          | apply follows_rstRefused | simp only [follows_upd] | apply follows_ite | split)

theorem follows_execResetDone {s₀ : State} {s : State} (h_s : Follows s₀ s) :
    FollowsNext s₀ (execResetDone s) := by
  unfold execResetDone
  try dsimp only
  apply followsNext
  with_reducible repeat' (
    first | assumption | intro _ | apply follows_wrB | apply follows_raise | apply follows_report
          | apply follows_setDestReset | simp only [follows_upd] | apply follows_ite)

end Sys2Proof.Machine
end

