-- ==== Sys2Proof/Laws/FollowsPrivet.lean ====
section
/-! SUPPORT. `Follows` is kept by the operations of Machine/Privet.lean. -/

namespace Sys2Proof.Machine

theorem follows_setUnread {s₀ : State} {s : State} {n : Nat} (h_s : Follows s₀ s) :
    Follows s₀ (setUnread s n) := by
  unfold setUnread
  try dsimp only
  with_reducible repeat' (first | assumption | apply follows_wrF | apply follows_raise | apply follows_ite)

theorem follows_logStore {s₀ : State} {s : State} {r : Record} (h_s : Follows s₀ s) :
    Follows s₀ (logStore s r) := by
  unfold logStore
  try dsimp only
  with_reducible repeat' (first | assumption | apply follows_wrF | apply follows_incWrap | simp only [follows_upd])

theorem follows_logTake {s₀ : State} {s : State} {r : Record} (h_s : Follows s₀ s) :
    Follows s₀ (logTake s r) := by
  unfold logTake
  try dsimp only
  with_reducible repeat' (
    first | assumption | apply follows_wrF | apply follows_logOverflow | apply follows_setUnread | apply follows_logStore
          | apply follows_ite)

theorem follows_execRecordLogEntry {s₀ : State} {k : Fin 289} {s : State} (h_s : Follows s₀ s) :
    FollowsNext s₀ (execRecordLogEntry k s) := by
  unfold execRecordLogEntry
  try dsimp only
  apply followsNext
  with_reducible repeat' (first | assumption | intro _ | apply follows_logTake | simp only [follows_upd] | apply follows_ite | split)

theorem follows_logReadWrite {s₀ : State} {s : State} {v : Nat} (h_s : Follows s₀ s) :
    Follows s₀ (logReadWrite s v) := by
  unfold logReadWrite
  try dsimp only
  with_reducible repeat' (first | assumption | apply follows_wrF | apply follows_ignored | apply follows_setUnread | apply follows_ite)

theorem follows_logSnap {s₀ : State} {s : State} (h_s : Follows s₀ s) :
    Follows s₀ (logSnap s) := by
  unfold logSnap
  try dsimp only
  with_reducible repeat' (first | assumption | simp only [follows_upd])

theorem follows_tbSet {s₀ : State} {s : State} {v : W64} (h_s : Follows s₀ s) :
    Follows s₀ (tbSet s v) := by
  unfold tbSet
  try dsimp only
  with_reducible repeat' (first | assumption | apply follows_wrB | apply follows_reportB | simp only [follows_upd] | apply follows_ite)

theorem follows_tbAdj {s₀ : State} {s : State} {v : W64} (h_s : Follows s₀ s) :
    Follows s₀ (tbAdj s v) := by
  unfold tbAdj
  try dsimp only
  with_reducible repeat' (first | assumption | simp only [follows_upd])

theorem follows_tbAdjWrite {s₀ : State} {s : State} {v : W64} (h_s : Follows s₀ s) :
    Follows s₀ (tbAdjWrite s v) := by
  unfold tbAdjWrite
  try dsimp only
  with_reducible repeat' (first | assumption | apply follows_wrB | apply follows_tbAdj)

theorem follows_execSlewComplete {s₀ : State} {s : State} (h_s : Follows s₀ s) :
    FollowsNext s₀ (execSlewComplete s) := by
  unfold execSlewComplete
  try dsimp only
  apply followsNext
  with_reducible repeat' (first | assumption | apply follows_wrB | apply follows_ite)

theorem follows_tickTime {s₀ : State} {s : State} (h_s : Follows s₀ s) :
    Follows s₀ (tickTime s) := by
  unfold tickTime
  try dsimp only
  with_reducible repeat' (first | assumption | intro _ | simp only [follows_upd] | apply follows_ite)

theorem follows_icRise {s₀ : State} {s : State} {t : Nat} (h_s : Follows s₀ s) :
    Follows s₀ (icRise s t) := by
  unfold icRise
  try dsimp only
  with_reducible repeat' (
    first | assumption | intro _ | apply follows_msiSend | apply follows_incWrap | simp only [follows_upd]
          | apply follows_ite)

theorem follows_icEval {s₀ : State} {s : State} (h_s : Follows s₀ s) :
    Follows s₀ (icEval s) := by
  unfold icEval
  try dsimp only
  with_reducible repeat' (
    first | assumption | intro _ | apply follows_each | apply follows_icRise | simp only [follows_upd] | apply follows_ite)

theorem follows_icHold {s₀ : State} {s : State} {g t : Nat} (h_s : Follows s₀ s) :
    Follows s₀ (icHold s g t) := by
  unfold icHold
  try dsimp only
  with_reducible repeat' (first | assumption | intro _ | apply follows_wrB | simp only [follows_upd] | apply follows_ite)

theorem follows_holdEnds {s₀ : State} {s : State} {g : Nat} (h_s : Follows s₀ s) :
    Follows s₀ (holdEnds s g) := by
  unfold holdEnds
  try dsimp only
  with_reducible repeat' (
    first | assumption | intro _ | apply follows_foldl | apply follows_foldl2 | apply follows_foldl1
          | apply follows_wrB | apply follows_icHold | simp only [follows_upd] | apply follows_ite)

theorem follows_icPend {s₀ : State} {s0 : State} {n : Nat} (h_s0 : Follows s₀ s0) :
    Follows s₀ (icPend s0 n) := by
  unfold icPend
  try dsimp only
  with_reducible repeat' (
    first | assumption | intro _ | apply follows_icHold | apply follows_holdEnds | simp only [follows_upd]
          | apply follows_ite)

theorem follows_icClear {s₀ : State} {s : State} {n : Nat} (h_s : Follows s₀ s) :
    Follows s₀ (icClear s n) := by
  unfold icClear
  try dsimp only
  with_reducible repeat' (first | assumption | simp only [follows_upd])

theorem follows_execInterruptEvent {s₀ : State} {n : SourceId} {s : State} (h_s : Follows s₀ s) :
    FollowsNext s₀ (execInterruptEvent n s) := by
  unfold execInterruptEvent
  try dsimp only
  apply followsNext
  with_reducible repeat' (first | assumption | apply follows_icEval | apply follows_icPend | simp only [follows_upd] | apply follows_ite)

theorem follows_icDone {s₀ : State} {s : State} {t g mask : Nat} (h_s : Follows s₀ s) :
    Follows s₀ (icDone s t g mask) := by
  unfold icDone
  try dsimp only
  with_reducible repeat' (
    first | assumption | intro _ | apply follows_each | apply follows_icEval | apply follows_icPend | apply follows_icClear
          | simp only [follows_upd] | apply follows_ite)

theorem follows_icSw {s₀ : State} {s : State} {m : Nat} {v : W64} (h_s : Follows s₀ s) :
    Follows s₀ (icSw s m v) := by
  unfold icSw
  try dsimp only
  with_reducible repeat' (first | assumption | intro _ | apply follows_raise | apply follows_each)

theorem follows_execHoldoffEnd {s₀ : State} {g : Fin 32} {s : State} (h_s : Follows s₀ s) :
    FollowsNext s₀ (execHoldoffEnd g s) := by
  unfold execHoldoffEnd
  try dsimp only
  apply followsNext
  with_reducible repeat' (
    first | assumption | intro _ | apply follows_icEval | apply follows_holdEnds)

theorem follows_setHour {s₀ : State} {s : State} {k c : Nat} {h : HourStat} (h_s : Follows s₀ s) :
    Follows s₀ (setHour s k c h) := by
  unfold setHour
  try dsimp only
  with_reducible repeat' (first | assumption | intro _ | simp only [follows_upd])

theorem follows_noteHour {s₀ : State} {s : State} {c : Nat} {f : HourStat → HourStat} (h_s : Follows s₀ s) :
    Follows s₀ (noteHour s c f) := by
  unfold noteHour
  try dsimp only
  with_reducible repeat' (first | assumption | intro _ | apply follows_setHour)

theorem follows_paceLow {s₀ : State} {s : State} {c pace floor which : Nat} (h_s : Follows s₀ s) :
    Follows s₀ (paceLow s c pace floor which) := by
  unfold paceLow
  try dsimp only
  with_reducible repeat' (first | assumption | apply follows_report | apply follows_ite)

theorem follows_publishPace {s₀ : State} {s : State} {c k tile router : Nat} (h_s : Follows s₀ s) :
    Follows s₀ (publishPace s c k tile router) := by
  unfold publishPace
  try dsimp only
  with_reducible repeat' (
    first | assumption | intro _ | apply follows_wr | apply follows_wrF | apply follows_setHour
          | apply follows_paceLow)

theorem follows_execPaceWindowEnd {s₀ : State} {c : ClusterId} {tile router : Fin 1048576} {s : State} (h_s : Follows s₀ s) :
    FollowsNext s₀ (execPaceWindowEnd c tile router s) := by
  unfold execPaceWindowEnd
  try dsimp only
  apply followsNext
  with_reducible repeat' (first | assumption | intro _ | apply follows_publishPace | simp only [follows_upd] | apply follows_ite)

end Sys2Proof.Machine
end

