-- ==== Sys2Proof/Laws/FollowsBoot.lean ====
section
/-! SUPPORT. `Follows` is kept by the operations of Machine/Boot.lean. -/

namespace Sys2Proof.Machine

theorem follows_toPhase {s₀ : State} {s : State} {p : Nat} (h_s : Follows s₀ s) :
    Follows s₀ (toPhase s p) := by
  unfold toPhase
  try dsimp only
  with_reducible repeat' (first | assumption | apply follows_wrF | simp only [follows_upd])

theorem follows_atStep {s₀ : State} {s : State} {n : Nat} (h_s : Follows s₀ s) :
    Follows s₀ (atStep s n) := by
  unfold atStep
  try dsimp only
  with_reducible repeat' (first | assumption | simp only [follows_upd])

theorem follows_noteWait {s₀ : State} {before after : State} (h_before : Follows s₀ before) (h_after : Follows s₀ after) :
    Follows s₀ (noteWait before after) := by
  unfold noteWait
  try dsimp only
  with_reducible repeat' (first | assumption | apply follows_raise | apply follows_ite)

theorem follows_halt {s₀ : State} {s : State} (h_s : Follows s₀ s) :
    Follows s₀ (halt s) := by
  unfold halt
  try dsimp only
  with_reducible repeat' (first | assumption | apply follows_toPhase)

theorem follows_romWait {s₀ : State} {s : State} (h_s : Follows s₀ s) :
    Follows s₀ (romWait s) := by
  unfold romWait
  try dsimp only
  with_reducible repeat' (first | assumption | apply follows_setBoot | apply follows_toPhase)

theorem follows_imageBad {s₀ : State} {s : State} {detail : List Nat} (h_s : Follows s₀ s) :
    Follows s₀ (imageBad s detail) := by
  unfold imageBad
  try dsimp only
  with_reducible repeat' (first | assumption | apply follows_report | apply follows_romWait)

theorem follows_dirDone {s₀ : State} {s : State} {ok : Bool} {b : List Byte} (h_s : Follows s₀ s) :
    Follows s₀ (dirDone s ok b) := by
  unfold dirDone
  try dsimp only
  with_reducible repeat' (
    first | assumption | apply follows_wrB | apply follows_report | apply follows_atStep | simp only [follows_upd]
          | apply follows_ite)

theorem follows_imageDone {s₀ : State} {s : State} {ok : Bool} {data : List Byte} (h_s : Follows s₀ s) :
    Follows s₀ (imageDone s ok data) := by
  unfold imageDone
  try dsimp only
  with_reducible repeat' (first | assumption | apply follows_atStep | apply follows_imageBad | simp only [follows_upd] | apply follows_ite)

theorem follows_imageTaken {s₀ : State} {s : State} (h_s : Follows s₀ s) :
    Follows s₀ (imageTaken s) := by
  unfold imageTaken
  try dsimp only
  with_reducible repeat' (first | assumption | apply follows_wrF | apply follows_setBoot | apply follows_extendMr | apply follows_atStep)

theorem follows_measureRom {s₀ : State} {s : State} (h_s : Follows s₀ s) :
    Follows s₀ (measureRom s) := by
  unfold measureRom
  try dsimp only
  with_reducible repeat' (first | assumption | apply follows_extendMr)

theorem follows_readLog {s₀ : State} {s : State} (h_s : Follows s₀ s) :
    Follows s₀ (readLog s) := by
  unfold readLog
  try dsimp only
  with_reducible repeat' (first | assumption | intro _ | apply follows_each | apply follows_ufsRead | simp only [follows_upd] | split)

theorem follows_logDone {s₀ : State} {s : State} {i : Nat} {ok : Bool} {b : List Byte} (h_s : Follows s₀ s) :
    Follows s₀ (logDone s i ok b) := by
  unfold logDone
  try dsimp only
  with_reducible repeat' (first | assumption | intro _ | apply follows_report | simp only [follows_upd] | apply follows_ite)

theorem follows_wipe {s₀ : State} {s : State} (h_s : Follows s₀ s) :
    Follows s₀ (wipe s) := by
  unfold wipe
  try dsimp only
  with_reducible repeat' (
    first | assumption | intro _ | apply follows_foldl | apply follows_foldl2 | apply follows_foldl1 | apply follows_wrF
          | apply follows_wrB | apply follows_report | apply follows_fillMem | apply follows_clearTiles
          | simp only [follows_upd] | apply follows_ite)

theorem follows_romEnd {s₀ : State} {s : State} (h_s : Follows s₀ s) :
    Follows s₀ (romEnd s) := by
  unfold romEnd
  try dsimp only
  with_reducible repeat' (
    first | assumption | apply follows_wrB | apply follows_toPhase | apply follows_atStep | apply follows_halt
          | apply follows_readLog | apply follows_wipe | apply follows_ite)

theorem follows_romStep {s₀ : State} {s : State} (h_s : Follows s₀ s) :
    Follows s₀ (romStep s) := by
  unfold romStep
  try dsimp only
  with_reducible repeat' (
    first | assumption | apply follows_ufsRead | apply follows_bootRejected | apply follows_atStep | apply follows_romWait
          | apply follows_imageBad | apply follows_imageTaken | apply follows_measureRom | apply follows_romEnd
          | simp only [follows_upd] | apply follows_ite | split)

theorem follows_execRomPhase {s₀ : State} {s : State} (h_s : Follows s₀ s) :
    FollowsNext s₀ (execRomPhase s) := by
  unfold execRomPhase
  try dsimp only
  apply followsNext
  with_reducible repeat' (first | assumption | apply follows_noteWait | apply follows_romStep | apply follows_ite)

theorem follows_stmtApply {s₀ : State} {s : State} {b : List Byte} (h_s : Follows s₀ s) :
    Follows s₀ (stmtApply s b) := by
  unfold stmtApply
  try dsimp only
  with_reducible repeat' (first | assumption | apply follows_wr | apply follows_wrG | simp only [follows_upd])

theorem follows_setVariant {s₀ : State} {s : State} {v : Nat} (h_s : Follows s₀ s) :
    Follows s₀ (setVariant s v) := by
  unfold setVariant
  try dsimp only
  with_reducible repeat' (first | assumption | intro _ | apply follows_wrF | apply follows_wrB | apply follows_each)

theorem follows_licenceDone {s₀ : State} {s : State} {ok : Bool} {b : List Byte} (h_s : Follows s₀ s) :
    Follows s₀ (licenceDone s ok b) := by
  unfold licenceDone
  try dsimp only
  with_reducible repeat' (first | assumption | simp only [follows_upd])

theorem follows_takeLicence {s₀ : State} {s : State} {b : List Byte} (h_s : Follows s₀ s) :
    Follows s₀ (takeLicence s b) := by
  unfold takeLicence
  try dsimp only
  with_reducible repeat' (
    first | assumption | apply follows_wr | apply follows_wrB | apply follows_extendMr | apply follows_setVariant
          | simp only [follows_upd] | apply follows_ite)

theorem follows_stmtBad {s₀ : State} {s : State} (h_s : Follows s₀ s) :
    Follows s₀ (stmtBad s) := by
  unfold stmtBad
  try dsimp only
  with_reducible repeat' (first | assumption | apply follows_report | apply follows_halt)

theorem follows_stmtRead {s₀ : State} {r : GwRes × State} (h_r : Follows s₀ r.2) :
    Follows s₀ (stmtRead r) := by
  unfold stmtRead
  try dsimp only
  with_reducible repeat' (
    first | assumption | intro _ | apply follows_atStep | apply follows_stmtApply | apply follows_stmtBad
          | apply follows_extendMr | simp only [follows_upd] | apply follows_ite | split)

theorem follows_readStmt {s₀ : State} {s : State} {arg : Nat} (h_s : Follows s₀ s) :
    Follows s₀ (readStmt s arg) := by
  unfold readStmt
  try dsimp only
  with_reducible repeat' (first | assumption | apply follows_gwAccess | apply follows_stmtBad | apply follows_stmtRead | apply follows_ite)

theorem follows_startStep {s₀ : State} {s : State} (h_s : Follows s₀ s) :
    Follows s₀ (startStep s) := by
  unfold startStep
  try dsimp only
  with_reducible repeat' (
    first | assumption | apply follows_ufsRead | apply follows_toPhase | apply follows_atStep | apply follows_takeLicence
          | apply follows_readStmt | simp only [follows_upd] | split)

theorem follows_execStartPhase {s₀ : State} {s : State} (h_s : Follows s₀ s) :
    FollowsNext s₀ (execStartPhase s) := by
  unfold execStartPhase
  try dsimp only
  apply followsNext
  with_reducible repeat' (first | assumption | apply follows_noteWait | apply follows_startStep | apply follows_ite)

theorem follows_readAges {s₀ : State} {s : State} (h_s : Follows s₀ s) :
    Follows s₀ (readAges s) := by
  unfold readAges
  try dsimp only
  with_reducible repeat' (first | assumption | intro _ | apply follows_each | apply follows_ufsRead | simp only [follows_upd] | split)

theorem follows_ageDone {s₀ : State} {s : State} {ok : Bool} {b : List Byte} (h_s : Follows s₀ s) :
    Follows s₀ (ageDone s ok b) := by
  unfold ageDone
  try dsimp only
  with_reducible repeat' (first | assumption | simp only [follows_upd] | apply follows_ite | split)

theorem follows_restoreMargin {s₀ : State} {s : State} (h_s : Follows s₀ s) :
    Follows s₀ (restoreMargin s) := by
  unfold restoreMargin
  try dsimp only
  with_reducible repeat' (first | assumption | intro _ | apply follows_wrF | apply follows_each | simp only [follows_upd] | split)

theorem follows_applyEntry {s₀ : State} {s : State} {e : Nat} (h_s : Follows s₀ s) :
    Follows s₀ (applyEntry s e) := by
  unfold applyEntry
  try dsimp only
  with_reducible repeat' (first | assumption | apply follows_fenceUnit | simp only [follows_upd] | apply follows_ite)

theorem follows_buildHash {s₀ : State} {s : State} {out : List Nat} (h_s : Follows s₀ s) :
    Follows s₀ (buildHash s out) := by
  unfold buildHash
  try dsimp only
  with_reducible repeat' (first | assumption | intro _ | apply follows_wrF | apply follows_wrB | simp only [follows_upd])

theorem follows_buildTrees {s₀ : State} {s : State} (h_s : Follows s₀ s) :
    Follows s₀ (buildTrees s) := by
  unfold buildTrees
  try dsimp only
  with_reducible repeat' (first | assumption | intro _ | apply follows_wr | apply follows_each)

theorem follows_adoptLog {s₀ : State} {s : State} (h_s : Follows s₀ s) :
    Follows s₀ (adoptLog s) := by
  unfold adoptLog
  try dsimp only
  with_reducible repeat' (
    first | assumption | intro _ | apply follows_foldl | apply follows_foldl2 | apply follows_foldl1
          | simp only [follows_upd] | apply follows_ite | split)

theorem follows_repair {s₀ : State} {s : State} (h_s : Follows s₀ s) :
    Follows s₀ (repair s) := by
  unfold repair
  try dsimp only
  with_reducible repeat' (
    first | assumption | intro _ | apply follows_each | apply follows_setFloor | apply follows_chooseCopy
          | apply follows_extendMr | apply follows_toPhase | apply follows_restoreMargin | apply follows_applyEntry
          | apply follows_buildHash | apply follows_buildTrees | apply follows_adoptLog | simp only [follows_upd])

theorem follows_execRepairPhase {s₀ : State} {s : State} (h_s : Follows s₀ s) :
    FollowsNext s₀ (execRepairPhase s) := by
  unfold execRepairPhase
  try dsimp only
  apply followsNext
  with_reducible repeat' (
    first | assumption | apply follows_atStep | apply follows_readLog | apply follows_readAges | apply follows_repair
          | apply follows_ite)

theorem follows_execFirmwarePhase {s₀ : State} {s : State} (h_s : Follows s₀ s) :
    FollowsNext s₀ (execFirmwarePhase s) := by
  unfold execFirmwarePhase
  try dsimp only
  apply followsNext
  with_reducible repeat' (
    first | assumption | intro _ | apply follows_each | apply follows_atStep | apply follows_hbPieces
          | simp only [follows_upd] | apply follows_ite)

end Sys2Proof.Machine
end

