-- ==== Sys2Proof/Laws/FollowsBringUp.lean ====
section
/-! SUPPORT. `Follows` is kept by the operations of Machine/BringUp.lean. -/

namespace Sys2Proof.Machine

theorem follows_sdDone {s₀ : State} {s : State} {ok : Bool} {b : List Byte} (h_s : Follows s₀ s) :
    Follows s₀ (sdDone s ok b) := by
  unfold sdDone
  try dsimp only
  with_reducible repeat' (first | assumption | simp only [follows_upd])

theorem follows_sdConsume {s₀ : State} {s : State} {b : List Byte} (h_s : Follows s₀ s) :
    Follows s₀ (sdConsume s b) := by
  unfold sdConsume
  try dsimp only
  with_reducible repeat' (first | assumption | apply follows_ufsWrite | simp only [follows_upd] | apply follows_ite | split)

theorem follows_memFail {s₀ : State} {s : State} {h : Nat} (h_s : Follows s₀ s) :
    Follows s₀ (memFail s h) := by
  unfold memFail
  try dsimp only
  with_reducible repeat' (
    first | assumption | apply follows_report | apply follows_logFence | apply follows_fenceUnit | apply follows_noteFence
          | apply follows_ite)

theorem follows_trainChannels {s₀ : State} {s : State} (h_s : Follows s₀ s) :
    Follows s₀ (trainChannels s) := by
  unfold trainChannels
  try dsimp only
  with_reducible repeat' (
    first | assumption | intro _ | apply follows_each | apply follows_setChState | simp only [follows_upd]
          | apply follows_ite)

theorem follows_channelsUp {s₀ : State} {s : State} (h_s : Follows s₀ s) :
    Follows s₀ (channelsUp s) := by
  unfold channelsUp
  try dsimp only
  with_reducible repeat' (
    first | assumption | intro _ | apply follows_each | apply follows_chReady | apply follows_noteTrained
          | simp only [follows_upd] | apply follows_ite)

theorem follows_channelsKept {s₀ : State} {s : State} (h_s : Follows s₀ s) :
    Follows s₀ (channelsKept s) := by
  unfold channelsKept
  try dsimp only
  with_reducible repeat' (
    first | assumption | intro _ | apply follows_each | apply follows_leaveSelfRefresh
          | simp only [follows_upd] | apply follows_ite)

theorem follows_memInit {s₀ : State} {s : State} (h_s : Follows s₀ s) :
    Follows s₀ (memInit s) := by
  unfold memInit
  try dsimp only
  with_reducible repeat' (
    first | assumption | apply follows_fillMem | apply follows_buildHash | apply follows_channelsUp | simp only [follows_upd])

theorem follows_memoryPath {s₀ : State} {s : State} {b : List Byte} {fail weak : List Nat} (h_s : Follows s₀ s) :
    Follows s₀ (memoryPath s b fail weak) := by
  unfold memoryPath
  try dsimp only
  with_reducible repeat' (
    first | assumption | intro _ | apply follows_each | apply follows_toPhase | apply follows_sdConsume
          | apply follows_memFail | apply follows_channelsKept | apply follows_memInit | apply follows_wrB
          | apply follows_report | apply follows_incWrap | simp only [follows_upd] | apply follows_ite)

theorem follows_execMemoryPhase {s₀ : State} {fail weak : List ChanId} {s : State} (h_s : Follows s₀ s) :
    FollowsNext s₀ (execMemoryPhase fail weak s) := by
  unfold execMemoryPhase
  try dsimp only
  apply followsNext
  with_reducible repeat' (
    first | assumption | intro _ | apply follows_atStep | apply follows_trainChannels
          | apply follows_memoryPath | apply follows_ufsRead | simp only [follows_upd] | apply follows_ite
          | split)

theorem follows_trainPorts {s₀ : State} {s : State} (h_s : Follows s₀ s) :
    Follows s₀ (trainPorts s) := by
  unfold trainPorts
  try dsimp only
  with_reducible repeat' (
    first | assumption | intro _ | apply follows_wrB | apply follows_each | apply follows_startTraining | apply follows_ite)

theorem follows_markTopo {s₀ : State} {s : State} (h_s : Follows s₀ s) :
    Follows s₀ (markTopo s) := by
  unfold markTopo
  try dsimp only
  with_reducible repeat' (first | assumption | simp only [follows_upd])

theorem follows_execLinksPhase {s₀ : State} {s : State} (h_s : Follows s₀ s) :
    FollowsNext s₀ (execLinksPhase s) := by
  unfold execLinksPhase
  try dsimp only
  apply followsNext
  with_reducible repeat' (
    first | assumption | apply follows_toPhase | apply follows_atStep | apply follows_noteWait | apply follows_trainPorts
          | apply follows_markTopo | apply follows_ite)

theorem follows_compareTopo {s₀ : State} {s : State} (h_s : Follows s₀ s) :
    Follows s₀ (compareTopo s) := by
  unfold compareTopo
  try dsimp only
  with_reducible repeat' (
    first | assumption | intro _ | apply follows_foldl | apply follows_foldl2 | apply follows_foldl1 | apply follows_wr
          | apply follows_report | apply follows_each | apply follows_pxCtrlWrite | apply follows_atStep
          | apply follows_markTopo | apply follows_ite)

theorem follows_execTopologyPhase {s₀ : State} {s : State} (h_s : Follows s₀ s) :
    FollowsNext s₀ (execTopologyPhase s) := by
  unfold execTopologyPhase
  try dsimp only
  apply followsNext
  with_reducible repeat' (first | assumption | apply follows_toPhase | apply follows_compareTopo | apply follows_ite)

theorem follows_execTimeNoLock {s₀ : State} {s : State} (h_s : Follows s₀ s) :
    FollowsNext s₀ (execTimeNoLock s) := by
  unfold execTimeNoLock
  try dsimp only
  apply followsNext
  with_reducible repeat' (first | assumption | apply follows_report | apply follows_atStep | apply follows_ite)

theorem follows_declareReady {s₀ : State} {s : State} (h_s : Follows s₀ s) :
    Follows s₀ (declareReady s) := by
  unfold declareReady
  try dsimp only
  with_reducible repeat' (first | assumption | apply follows_wrB | apply follows_raise | apply follows_report | apply follows_toPhase)

theorem follows_execLicencePhase {s₀ : State} {s : State} (h_s : Follows s₀ s) :
    FollowsNext s₀ (execLicencePhase s) := by
  unfold execLicencePhase
  try dsimp only
  apply followsNext
  with_reducible repeat' (
    first | assumption | apply follows_report | apply follows_noteWait | apply follows_halt | apply follows_declareReady
          | simp only [follows_upd] | apply follows_ite | split)

theorem follows_execLicExpired {s₀ : State} {s : State} (h_s : Follows s₀ s) :
    FollowsNext s₀ (execLicExpired s) := by
  unfold execLicExpired
  try dsimp only
  apply followsNext
  with_reducible repeat' (first | assumption | apply follows_raise | apply follows_report | simp only [follows_upd] | apply follows_ite | split)

theorem follows_installOver {s₀ : State} {s : State} (h_s : Follows s₀ s) :
    Follows s₀ (installOver s) := by
  unfold installOver
  try dsimp only
  with_reducible repeat' (first | assumption | simp only [follows_upd])

theorem follows_installBad {s₀ : State} {s : State} (h_s : Follows s₀ s) :
    Follows s₀ (installBad s) := by
  unfold installBad
  try dsimp only
  with_reducible repeat' (first | assumption | apply follows_report | apply follows_installOver)

theorem follows_installRead {s₀ : State} {r : GwRes × State} (h_r : Follows s₀ r.2) :
    Follows s₀ (installRead r) := by
  unfold installRead
  try dsimp only
  with_reducible repeat' (
    first | assumption | intro _ | apply follows_installOver | apply follows_installBad
          | apply follows_ufsWrite | simp only [follows_upd] | apply follows_ite | split)

theorem follows_installTry {s₀ : State} {s : State} (h_s : Follows s₀ s) :
    Follows s₀ (installTry s) := by
  unfold installTry
  try dsimp only
  with_reducible repeat' (
    first | assumption | apply follows_gwAccess | apply follows_installBad | apply follows_installRead | simp only [follows_upd]
          | apply follows_ite | split)

theorem follows_setJscan {s₀ : State} {s : State} {result n : Nat} (h_s : Follows s₀ s) :
    Follows s₀ (setJscan s result n) := by
  unfold setJscan
  try dsimp only
  with_reducible repeat' (first | assumption | apply follows_wr)

theorem follows_jscanTry {s₀ : State} {s : State} (h_s : Follows s₀ s) :
    Follows s₀ (jscanTry s) := by
  unfold jscanTry
  try dsimp only
  with_reducible repeat' (
    first | assumption | intro _ | apply follows_setJscan | apply follows_settle | apply follows_journalSettle
          | apply follows_applyEntries | apply follows_dramRead | apply follows_dramWrite
          | apply follows_report | simp only [follows_upd] | apply follows_ite | split)

theorem follows_recheck {s₀ : State} {s : State} (h_s : Follows s₀ s) :
    Follows s₀ (recheck s) := by
  unfold recheck
  try dsimp only
  with_reducible repeat' (first | assumption | intro _ | apply follows_each | apply follows_pxCtrlWrite | apply follows_toPhase)

theorem follows_share {s₀ : State} {s : State} {g : Nat} (h_s : Follows s₀ s) :
    Follows s₀ (share s g) := by
  unfold share
  try dsimp only
  with_reducible repeat' (
    first | assumption | intro _ | apply follows_each | apply follows_hbPieces)

theorem follows_hbCmd {s₀ : State} {s : State} {cmd group : Nat} (h_s : Follows s₀ s) :
    Follows s₀ (hbCmd s cmd group) := by
  unfold hbCmd
  try dsimp only
  with_reducible repeat' (
    first | assumption | intro _ | apply follows_installTry | apply follows_setJscan | apply follows_jscanTry
          | apply follows_recheck | apply follows_share | apply follows_report | apply follows_ignored
          | simp only [follows_upd] | apply follows_ite | split)

end Sys2Proof.Machine
end

