-- ==== Sys2Proof/Laws/FollowsPower.lean ====
section
/-! SUPPORT. `Follows` is kept by the operations of Machine/Power.lean. -/

namespace Sys2Proof.Machine

theorem follows_sayLanesOf {s₀ : State} {s : State} {p m : Nat} (h_s : Follows s₀ s) :
    Follows s₀ (sayLanesOf s p m) := by
  unfold sayLanesOf
  try dsimp only
  with_reducible repeat' (
    first | assumption | intro _ | apply follows_endRun | apply follows_emit)

theorem follows_sayLanes {s₀ : State} {s : State} {low : Bool} (h_s : Follows s₀ s) :
    Follows s₀ (sayLanes s low) := by
  unfold sayLanes
  try dsimp only
  with_reducible repeat' (
    first | assumption | intro _ | apply follows_each | apply follows_sayLanesOf | simp only [follows_upd]
          | apply follows_ite)

theorem follows_loudLanes {s₀ : State} {s : State} (h_s : Follows s₀ s) :
    Follows s₀ (loudLanes s) := by
  unfold loudLanes
  try dsimp only
  with_reducible repeat' (first | assumption | apply follows_sayLanes | simp only [follows_upd] | apply follows_ite)

theorem follows_wakeDevice {s₀ : State} {s : State} (h_s : Follows s₀ s) :
    Follows s₀ (wakeDevice s) := by
  unfold wakeDevice
  try dsimp only
  with_reducible repeat' (first | assumption | apply follows_wrB | apply follows_incWrap | simp only [follows_upd] | apply follows_ite)

theorem follows_wakeCluster {s₀ : State} {s : State} {c : Nat} (h_s : Follows s₀ s) :
    Follows s₀ (wakeCluster s c) := by
  unfold wakeCluster
  try dsimp only
  with_reducible repeat' (
    first | assumption | intro _ | apply follows_each | apply follows_reload | apply follows_drainLocal
          | apply follows_wrB | apply follows_incWrap | apply follows_wakeDevice | simp only [follows_upd]
          | apply follows_ite)

theorem follows_execClusterWake {s₀ : State} {c : ClusterId} {s : State} (h_s : Follows s₀ s) :
    FollowsNext s₀ (execClusterWake c s) := by
  unfold execClusterWake
  try dsimp only
  apply followsNext
  with_reducible repeat' (first | assumption | apply follows_wakeCluster)

theorem follows_retainBanks {s₀ : State} {s : State} {c : Nat} (h_s : Follows s₀ s) :
    Follows s₀ (retainBanks s c) := by
  unfold retainBanks
  try dsimp only
  with_reducible repeat' (first | assumption | intro _ | apply follows_each | apply follows_setBankState | apply follows_ite)

theorem follows_restoreBanks {s₀ : State} {s : State} {c : Nat} (h_s : Follows s₀ s) :
    Follows s₀ (restoreBanks s c) := by
  unfold restoreBanks
  try dsimp only
  with_reducible repeat' (
    first | assumption | intro _ | apply follows_each | apply follows_setBankState | apply follows_retryHeld
          | apply follows_circServe | apply follows_ite)

theorem follows_powerBanks {s₀ : State} {s : State} {c : Nat} (h_s : Follows s₀ s) :
    Follows s₀ (powerBanks s c) := by
  unfold powerBanks
  try dsimp only
  with_reducible repeat' (first | assumption | intro _ | apply follows_each | apply follows_setBankState)

theorem follows_lateExit {s₀ : State} {s : State} {start limit : Nat} (h_s : Follows s₀ s) :
    Follows s₀ (lateExit s start limit) := by
  unfold lateExit
  try dsimp only
  with_reducible repeat' (first | assumption | apply follows_report | apply follows_incSat | apply follows_ite)

theorem follows_execClusterWakeComplete {s₀ : State} {c : ClusterId} {s : State} (h_s : Follows s₀ s) :
    FollowsNext s₀ (execClusterWakeComplete c s) := by
  unfold execClusterWakeComplete
  try dsimp only
  apply followsNext
  with_reducible repeat' (
    first | assumption | intro _ | apply follows_each | apply follows_drainLocal | apply follows_wrF
          | apply follows_wrB | apply follows_restoreBanks | apply follows_powerBanks | apply follows_lateExit
          | apply follows_setDestReset | simp only [follows_upd] | apply follows_ite | split)

theorem follows_execDeviceWake {s₀ : State} {s : State} (h_s : Follows s₀ s) :
    FollowsNext s₀ (execDeviceWake s) := by
  unfold execDeviceWake
  try dsimp only
  apply followsNext
  with_reducible repeat' (first | assumption | apply follows_wakeDevice)

theorem follows_execDeviceWakeComplete {s₀ : State} {s : State} (h_s : Follows s₀ s) :
    FollowsNext s₀ (execDeviceWakeComplete s) := by
  unfold execDeviceWakeComplete
  try dsimp only
  apply followsNext
  with_reducible repeat' (
    first | assumption | intro _ | apply follows_each | apply follows_fromSelfRefresh | apply follows_wrF
          | apply follows_wrB | apply follows_loudLanes | apply follows_wakeCluster | apply follows_lateExit
          | simp only [follows_upd] | apply follows_ite | split)

theorem follows_turnOff {s₀ : State} {s : State} {c : Nat} (h_s : Follows s₀ s) :
    Follows s₀ (turnOff s c) := by
  unfold turnOff
  try dsimp only
  with_reducible repeat' (
    first | assumption | intro _ | apply follows_each | apply follows_drainLocal | apply follows_fillMem
          | apply follows_clearTiles | apply follows_setDestReset | apply follows_setBankState
          | simp only [follows_upd] | apply follows_ite)

theorem follows_execClusterEntryComplete {s₀ : State} {c : ClusterId} {s : State} (h_s : Follows s₀ s) :
    FollowsNext s₀ (execClusterEntryComplete c s) := by
  unfold execClusterEntryComplete
  try dsimp only
  apply followsNext
  with_reducible repeat' (
    first | assumption | apply follows_wrF | apply follows_incWrap | apply follows_retainBanks | apply follows_turnOff
          | simp only [follows_upd] | apply follows_ite | split)

theorem follows_execDeviceEntryComplete {s₀ : State} {s : State} (h_s : Follows s₀ s) :
    FollowsNext s₀ (execDeviceEntryComplete s) := by
  unfold execDeviceEntryComplete
  try dsimp only
  apply followsNext
  with_reducible repeat' (
    first | assumption | intro _ | apply follows_each | apply follows_gbLost | apply follows_toSelfRefresh
          | apply follows_endSession | apply follows_wrF | apply follows_incWrap | apply follows_linkLost
          | apply follows_sayLanes | simp only [follows_upd] | apply follows_ite | split)

theorem follows_noteIdle {s₀ : State} {s : State} {c : Nat} (h_s : Follows s₀ s) :
    Follows s₀ (noteIdle s c) := by
  unfold noteIdle
  try dsimp only
  with_reducible repeat' (first | assumption | simp only [follows_upd] | apply follows_ite)

theorem follows_evalCluster {s₀ : State} {s : State} {c : Nat} (h_s : Follows s₀ s) :
    Follows s₀ (evalCluster s c) := by
  unfold evalCluster
  try dsimp only
  with_reducible repeat' (first | assumption | apply follows_wakeCluster | simp only [follows_upd] | apply follows_ite)

theorem follows_evalDevice {s₀ : State} {s : State} (h_s : Follows s₀ s) :
    Follows s₀ (evalDevice s) := by
  unfold evalDevice
  try dsimp only
  with_reducible repeat' (first | assumption | intro _ | apply follows_wakeDevice | simp only [follows_upd] | apply follows_ite)

theorem follows_execPowerEval {s₀ : State} {s : State} (h_s : Follows s₀ s) :
    FollowsNext s₀ (execPowerEval s) := by
  unfold execPowerEval
  try dsimp only
  apply followsNext
  with_reducible repeat' (
    first | assumption | intro _ | apply follows_each | apply follows_wakeDevice | apply follows_noteIdle
          | apply follows_evalCluster | apply follows_evalDevice | apply follows_ite)

theorem follows_fitTolerance {s₀ : State} {s : State} (h_s : Follows s₀ s) :
    Follows s₀ (fitTolerance s) := by
  unfold fitTolerance
  try dsimp only
  with_reducible repeat' (
    first | assumption | intro _ | apply follows_each | apply follows_wakeDevice | apply follows_wakeCluster | apply follows_ite)

theorem follows_execSegmentStep {s₀ : State} {g : Fin 8} {supplied : Fin 65536} {s : State} (h_s : Follows s₀ s) :
    FollowsNext s₀ (execSegmentStep g supplied s) := by
  unfold execSegmentStep
  try dsimp only
  apply followsNext
  with_reducible repeat' (
    first | assumption | intro _ | apply follows_wr | apply follows_wrB | apply follows_emit | apply follows_each
          | simp only [follows_upd] | apply follows_ite)

theorem follows_execHeadroomLow {s₀ : State} {c : ClusterId} {s : State} (h_s : Follows s₀ s) :
    FollowsNext s₀ (execHeadroomLow c s) := by
  unfold execHeadroomLow
  try dsimp only
  apply followsNext
  with_reducible repeat' (first | assumption | intro _ | apply follows_wrB | apply follows_reportLimited | apply follows_ite)

theorem follows_noteReading {s₀ : State} {s : State} {c mv : Nat} (h_s : Follows s₀ s) :
    Follows s₀ (noteReading s c mv) := by
  unfold noteReading
  try dsimp only
  with_reducible repeat' (first | assumption | intro _ | simp only [follows_upd] | apply follows_ite | split)

theorem follows_execTempPublish {s₀ : State} {c : ClusterId} {temp : Fin 65536} {mv : Fin 16384} {s : State} (h_s : Follows s₀ s) :
    FollowsNext s₀ (execTempPublish c temp mv s) := by
  unfold execTempPublish
  try dsimp only
  apply followsNext
  with_reducible repeat' (
    first | assumption | intro _ | apply follows_wr | apply follows_wrF | apply follows_wrB
          | apply follows_noteReading | apply follows_noteHour | simp only [follows_upd] | apply follows_ite)

theorem follows_throttleCluster {s₀ : State} {s : State} {c : Nat} (h_s : Follows s₀ s) :
    Follows s₀ (throttleCluster s c) := by
  unfold throttleCluster
  try dsimp only
  with_reducible repeat' (first | assumption | apply follows_wrF | apply follows_report | apply follows_incWrap | apply follows_ite)

theorem follows_throttlePower {s₀ : State} {s : State} (h_s : Follows s₀ s) :
    Follows s₀ (throttlePower s) := by
  unfold throttlePower
  try dsimp only
  with_reducible repeat' (first | assumption | intro _ | apply follows_wrF | apply follows_report | apply follows_incWrap | apply follows_ite)

theorem follows_execThrottleEval {s₀ : State} {watts : Fin 65536} {s : State} (h_s : Follows s₀ s) :
    FollowsNext s₀ (execThrottleEval watts s) := by
  unfold execThrottleEval
  try dsimp only
  apply followsNext
  with_reducible repeat' (
    first | assumption | intro _ | apply follows_wr | apply follows_raise | apply follows_each | apply follows_throttleCluster
          | apply follows_throttlePower | apply follows_ite)

theorem follows_execThermTrip {s₀ : State} {c : ClusterId} {s : State} (h_s : Follows s₀ s) :
    FollowsNext s₀ (execThermTrip c s) := by
  unfold execThermTrip
  try dsimp only
  apply followsNext
  with_reducible repeat' (first | assumption | apply follows_wrB | apply follows_raise | apply follows_report | apply follows_ite)

end Sys2Proof.Machine
end

