-- ==== Sys2Proof/Laws/FollowsYew.lean ====
section
/-! SUPPORT. `Follows` is kept by the operations of Machine/Yew.lean. -/

namespace Sys2Proof.Machine

theorem follows_yewDenied {s₀ : State} {s : State} (h_s : Follows s₀ s) :
    Follows s₀ (yewDenied s) := by
  unfold yewDenied
  try dsimp only
  with_reducible repeat' (first | assumption | intro _ | apply follows_denied)

theorem follows_setQueue {s₀ : State} {s : State} {l : List YewTest} (h_s : Follows s₀ s) :
    Follows s₀ (setQueue s l) := by
  unfold setQueue
  try dsimp only
  with_reducible repeat' (first | assumption | apply follows_wrF | simp only [follows_upd])

theorem follows_queueTest {s₀ : State} {s : State} {t : YewTest} {v : State} (e : queueTest s t = some v) (h_s : Follows s₀ s) :
    Follows s₀ v := by
  unfold queueTest at e
  repeat' first | (cases e; done) | split at e
  all_goals first | (injection e with e; subst e) | (obtain ⟨_, _, rfl⟩ := Option.map_eq_some_iff.1 e)
  all_goals with_reducible repeat' (first | assumption | apply follows_setQueue)

theorem follows_enqueueTest {s₀ : State} {s : State} {t : YewTest} (h_s : Follows s₀ s) :
    Follows s₀ (enqueueTest s t) := by
  unfold enqueueTest
  try dsimp only
  with_reducible repeat' (
    first | assumption | intro _ | exact follows_queueTest ‹_› ‹_› | refine follows_queueTest ‹_› ?_
          | apply follows_getD)

theorem follows_makeDue {s₀ : State} {s : State} {c dt : Nat} (h_s : Follows s₀ s) :
    Follows s₀ (makeDue s c dt) := by
  unfold makeDue
  try dsimp only
  with_reducible repeat' (first | assumption | simp only [follows_upd])

theorem follows_execInfieldDue {s₀ : State} {s : State} (h_s : Follows s₀ s) :
    FollowsNext s₀ (execInfieldDue s) := by
  unfold execInfieldDue
  try dsimp only
  apply followsNext
  with_reducible repeat' (
    first | assumption | intro _ | apply follows_yewDenied | apply follows_makeDue | simp only [follows_upd]
          | apply follows_ite | split)

theorem follows_execYieldRequest {s₀ : State} {c : ClusterId} {s : State} (h_s : Follows s₀ s) :
    FollowsNext s₀ (execYieldRequest c s) := by
  unfold execYieldRequest
  try dsimp only
  apply followsNext
  with_reducible repeat' (
    first | assumption | apply follows_wr | apply follows_raise | apply follows_report | simp only [follows_upd]
          | apply follows_ite | split)

theorem follows_yieldGrant {s₀ : State} {s : State} (h_s : Follows s₀ s) :
    Follows s₀ (yieldGrant s) := by
  unfold yieldGrant
  try dsimp only
  with_reducible repeat' (first | assumption | simp only [follows_upd] | apply follows_ite)

theorem follows_beginTest {s₀ : State} {s : State} {t : YewTest} (h_s : Follows s₀ s) :
    Follows s₀ (beginTest s t) := by
  unfold beginTest
  try dsimp only
  with_reducible repeat' (
    first | assumption | intro _ | apply follows_wrF | apply follows_resetClusters | apply follows_setQueue
          | simp only [follows_upd])

theorem follows_noteDrift {s₀ : State} {s : State} {c pace : Nat} (h_s : Follows s₀ s) :
    Follows s₀ (noteDrift s c pace) := by
  unfold noteDrift
  try dsimp only
  with_reducible repeat' (first | assumption | apply follows_wrF | apply follows_raise | apply follows_report | apply follows_ite)

theorem follows_execInfieldTest {s₀ : State} {c : ClusterId} {pace : Nat} {s : State} (h_s : Follows s₀ s) :
    FollowsNext s₀ (execInfieldTest c pace s) := by
  unfold execInfieldTest
  try dsimp only
  apply followsNext
  with_reducible repeat' (
    first | assumption | intro _ | apply follows_yewDenied | apply follows_enqueueTest
          | apply follows_beginTest | apply follows_noteDrift | simp only [follows_upd] | apply follows_ite)

theorem follows_execConfirmTest {s₀ : State} {c : ClusterId} {s : State} (h_s : Follows s₀ s) :
    FollowsNext s₀ (execConfirmTest c s) := by
  unfold execConfirmTest
  try dsimp only
  apply followsNext
  with_reducible repeat' (
    first | assumption | intro _ | apply follows_yewDenied | apply follows_enqueueTest
          | apply follows_beginTest | simp only [follows_upd] | apply follows_ite)

theorem follows_setResult {s₀ : State} {s : State} {c result : Nat} {classes : List Nat} (h_s : Follows s₀ s) :
    Follows s₀ (setResult s c result classes) := by
  unfold setResult
  try dsimp only
  with_reducible repeat' (first | assumption | intro _ | apply follows_foldl | apply follows_foldl2 | apply follows_foldl1 | apply follows_wr)

theorem follows_marched {s₀ : State} {s : State} {ks : List Nat} (h_s : Follows s₀ s) :
    Follows s₀ (marched s ks) := by
  unfold marched
  try dsimp only
  with_reducible repeat' (
    first | assumption | intro _ | apply follows_each | apply follows_fillMem)

theorem follows_releaseClusters {s₀ : State} {s : State} {ks : List Nat} (h_s : Follows s₀ s) :
    Follows s₀ (releaseClusters s ks) := by
  unfold releaseClusters
  try dsimp only
  with_reducible repeat' (first | assumption | intro _ | apply follows_resetAndReload | simp only [follows_upd])

theorem follows_yewIdle {s₀ : State} {s : State} (h_s : Follows s₀ s) :
    Follows s₀ (yewIdle s) := by
  unfold yewIdle
  try dsimp only
  with_reducible repeat' (first | assumption | apply follows_wrF | simp only [follows_upd])

theorem follows_testRan {s₀ : State} {s : State} {c : Nat} (h_s : Follows s₀ s) :
    Follows s₀ (testRan s c) := by
  unfold testRan
  try dsimp only
  with_reducible repeat' (first | assumption | apply follows_wr | simp only [follows_upd] | apply follows_ite)

theorem follows_invalidTest {s₀ : State} {s : State} {t : YewTest} (h_s : Follows s₀ s) :
    Follows s₀ (invalidTest s t) := by
  unfold invalidTest
  try dsimp only
  with_reducible repeat' (
    first | assumption | intro _ | apply follows_each | apply follows_report | apply follows_incSat
          | apply follows_setResult | apply follows_marched | apply follows_releaseClusters
          | apply follows_yewIdle | simp only [follows_upd])

theorem follows_lengthen {s₀ : State} {s : State} {c off : Nat} {v : State} (e : lengthen s c off = some v) (h_s : Follows s₀ s) :
    Follows s₀ v := by
  unfold lengthen at e
  try dsimp only at e
  repeat' first | (cases e; done) | split at e
  all_goals (injection e with e; subst e)
  with_reducible repeat' (first | assumption | apply follows_wrF | apply follows_report | apply follows_incSat)

theorem follows_voltStep {s₀ : State} {s : State} {c : Nat} {v : State} (e : voltStep s c = some v) (h_s : Follows s₀ s) :
    Follows s₀ v := by
  unfold voltStep at e
  try dsimp only at e
  repeat' first | (cases e; done) | split at e
  all_goals (injection e with e; subst e)
  with_reducible repeat' (first | assumption | apply follows_wrF | apply follows_report | apply follows_incSat)

theorem follows_exhausted {s₀ : State} {s : State} {k : Nat} (h_s : Follows s₀ s) :
    Follows s₀ (exhausted s k) := by
  unfold exhausted
  try dsimp only
  with_reducible repeat' (first | assumption | apply follows_report | simp only [follows_upd])

theorem follows_yewFence {s₀ : State} {s : State} {e : Nat} (h_s : Follows s₀ s) :
    Follows s₀ (yewFence s e) := by
  unfold yewFence
  try dsimp only
  with_reducible repeat' (
    first | assumption | apply follows_setFloor | apply follows_applyFence | simp only [follows_upd] | apply follows_ite)

theorem follows_tileAction {s₀ : State} {s : State} {c : Nat} (h_s : Follows s₀ s) :
    Follows s₀ (tileAction s c) := by
  have hor : ∀ {x : Option State} {y : Unit → Option State}, (∀ v, x = some v → Follows s₀ v) → (∀ v, y () = some v → Follows s₀ v) →
      ∀ v, x.orElse y = some v → Follows s₀ v := by
    intro x y hx hy v e
    cases x with
    | none => exact hy v e
    | some w => exact hx v e
  have hv := fun v (e : voltStep s c = some v) => follows_voltStep e h_s
  have hl := fun v (e : lengthen s c 8 = some v) => follows_lengthen e h_s
  unfold tileAction
  extract_lets a
  have ha : ∀ v, a = some v → Follows s₀ v := by
    intro v e
    simp only [a] at e
    split at e
    · exact hor hv hl v e
    · exact hor hl hv v e
  clear_value a
  split
  · exact ha _ rfl
  · exact follows_yewFence (follows_exhausted h_s)

theorem follows_routerAction {s₀ : State} {s : State} {c : Nat} {tiles : List Nat} (h_s : Follows s₀ s) :
    Follows s₀ (routerAction s c tiles) := by
  unfold routerAction
  try dsimp only
  with_reducible repeat' (
    first | assumption | intro _ | apply follows_each | exact follows_lengthen ‹_› ‹_› | refine follows_lengthen ‹_› ?_
          | apply follows_exhausted | apply follows_yewFence | simp only [follows_upd] | split)

theorem follows_execCanaryTrip {s₀ : State} {t : TileId} {router : Bool} {s : State} (h_s : Follows s₀ s) :
    FollowsNext s₀ (execCanaryTrip t router s) := by
  unfold execCanaryTrip
  try dsimp only
  apply followsNext
  with_reducible repeat' (
    first | assumption | intro _ | apply follows_hold | apply follows_incWrap | apply follows_noteHour
          | apply follows_tileAction | apply follows_routerAction | simp only [follows_upd]
          | apply follows_ite)

theorem follows_takeResult {s₀ : State} {s : State} {c : Nat} {fails weak : List (Nat × Nat)} (h_s : Follows s₀ s) :
    Follows s₀ (takeResult s c fails weak) := by
  unfold takeResult
  try dsimp only
  with_reducible repeat' (
    first | assumption | intro _ | apply follows_report | apply follows_incWrap | apply follows_incSat
          | apply follows_noteHour | apply follows_setResult | apply follows_tileAction
          | simp only [follows_upd] | apply follows_ite)

theorem follows_confirmResult {s₀ : State} {s : State} {c : Nat} {pass : Bool} (h_s : Follows s₀ s) :
    Follows s₀ (confirmResult s c pass) := by
  unfold confirmResult
  try dsimp only
  with_reducible repeat' (first | assumption | intro _ | simp only [follows_upd] | apply follows_ite)

theorem follows_writeSdRecord {s₀ : State} {s : State} (h_s : Follows s₀ s) :
    Follows s₀ (writeSdRecord s) := by
  unfold writeSdRecord
  try dsimp only
  with_reducible repeat' (
    first | assumption | apply follows_report | apply follows_ufsWrite | apply follows_yewIdle | simp only [follows_upd]
          | split)

theorem follows_nextWave {s₀ : State} {s : State} {g : Nat} {v : State} (e : nextWave s g = some v) (h_s : Follows s₀ s) :
    Follows s₀ v := by
  unfold nextWave at e
  obtain ⟨_, _, rfl⟩ := Option.map_eq_some_iff.1 e
  exact follows_wrF (follows_resetClusters h_s)

theorem follows_sdFinish {s₀ : State} {s : State} (h_s : Follows s₀ s) :
    Follows s₀ (sdFinish s) := by
  unfold sdFinish
  try dsimp only
  with_reducible repeat' (
    first | assumption | intro _ | apply follows_releaseClusters | apply follows_writeSdRecord
          | simp only [follows_upd] | apply follows_ite)

theorem follows_sdChannels {s₀ : State} {s : State} {chans weak : List Nat} (h_s : Follows s₀ s) :
    Follows s₀ (sdChannels s chans weak) := by
  unfold sdChannels
  try dsimp only
  with_reducible repeat' (
    first | assumption | intro _ | apply follows_each | apply follows_memFail | apply follows_report
          | simp only [follows_upd] | apply follows_ite)

theorem follows_waveDone {s₀ : State} {s : State} {g : Nat} {service stress : List (TileId × Fin 10)} (h_s : Follows s₀ s) :
    Follows s₀ (waveDone s g service stress) := by
  unfold waveDone
  try dsimp only
  with_reducible repeat' (
    first | assumption | intro _ | apply follows_each | apply follows_marched | apply follows_releaseClusters
          | apply follows_takeResult | simp only [follows_upd] | apply follows_ite)

theorem follows_testDone {s₀ : State} {s : State} {t : YewTest} {service stress : List (TileId × Fin 10)} (h_s : Follows s₀ s) :
    Follows s₀ (testDone s t service stress) := by
  unfold testDone
  extract_lets c f s1 s2 sweep
  have h1 : Follows s₀ s1 := follows_takeResult h_s
  have h2 : Follows s₀ s2 := follows_marched (follows_ite (follows_confirmResult h1) (follows_testRan h1))
  split
  · exact follows_releaseClusters (follows_yewIdle h2)
  · split
    · rename_i e
      split at e
      · exact follows_yewIdle (follows_queueTest e h2)
      · cases e
    · exact follows_wrF (follows_upd.2 h2)

theorem follows_execTestComplete {s₀ : State} {service stress : List (TileId × Fin 10)} {chans weak : List ChanId} {s : State} (h_s : Follows s₀ s) :
    FollowsNext s₀ (execTestComplete service stress chans weak s) := by
  unfold execTestComplete
  try dsimp only
  apply followsNext
  with_reducible repeat' (
    first | assumption | intro _ | apply follows_invalidTest | exact follows_nextWave ‹_› ‹_›
          | refine follows_nextWave ‹_› ?_ | apply follows_sdFinish | apply follows_sdChannels
          | apply follows_waveDone | apply follows_testDone | simp only [follows_upd] | apply follows_ite
          | split)

theorem follows_sweepDone {s₀ : State} {s : State} {t : YewTest} {grid : List GridPoint} (h_s : Follows s₀ s) :
    Follows s₀ (sweepDone s t grid) := by
  unfold sweepDone
  try dsimp only
  with_reducible repeat' (
    first | assumption | intro _ | apply follows_each | apply follows_marched | apply follows_releaseClusters
          | apply follows_yewIdle | apply follows_yewFence)

theorem follows_beginSweep {s₀ : State} {s : State} (h_s : Follows s₀ s) :
    Follows s₀ (beginSweep s) := by
  unfold beginSweep
  try dsimp only
  with_reducible repeat' (
    first | assumption | intro _ | apply follows_wrF | apply follows_setQueue | apply follows_beginTest
          | simp only [follows_upd] | apply follows_ite | split)

theorem follows_execSweep {s₀ : State} {grid : List (TileId × Fin 10 × Fin 801 × Int)} {s : State} (h_s : Follows s₀ s) :
    FollowsNext s₀ (execSweep grid s) := by
  unfold execSweep
  try dsimp only
  apply followsNext
  with_reducible repeat' (
    first | assumption | intro _ | apply follows_each | apply follows_marched | apply follows_releaseClusters
          | apply follows_invalidTest | apply follows_yewFence | apply follows_sdFinish
          | apply follows_sweepDone | apply follows_beginSweep | simp only [follows_upd] | apply follows_ite
          | split)

theorem follows_shutdownTest {s₀ : State} {s : State} (h_s : Follows s₀ s) :
    Follows s₀ (shutdownTest s) := by
  unfold shutdownTest
  extract_lets s1 _ _ s2 s3
  have h1 : Follows s₀ s1 := by
    simp only [s1]
    split
    · exact follows_invalidTest h_s
    · exact h_s
  have h3 : Follows s₀ s3 := follows_wrF (follows_fillMem (follows_upd.2 h1))
  with_reducible repeat' (
    first | assumption | apply follows_yewDenied | apply follows_reportB | apply follows_ignored | apply follows_ite | split)
  exact follows_getD (fun _ e => follows_nextWave e h3) (follows_sdFinish h3)

theorem follows_execRequeueTimer {s₀ : State} {s : State} (h_s : Follows s₀ s) :
    FollowsNext s₀ (execRequeueTimer s) := by
  unfold execRequeueTimer
  try dsimp only
  apply followsNext
  with_reducible repeat' (
    first | assumption | intro _ | apply follows_each | exact follows_queueTest ‹_› ‹_›
          | refine follows_queueTest ‹_› ?_ | apply follows_shutdownTest | simp only [follows_upd]
          | apply follows_ite | split)

theorem follows_sdWritten {s₀ : State} {s : State} {ok : Bool} (h_s : Follows s₀ s) :
    Follows s₀ (sdWritten s ok) := by
  unfold sdWritten
  try dsimp only
  with_reducible repeat' (first | assumption | apply follows_wrB | apply follows_report | apply follows_yewIdle | apply follows_ite)

theorem follows_rawEnter {s₀ : State} {s : State} (h_s : Follows s₀ s) :
    Follows s₀ (rawEnter s) := by
  unfold rawEnter
  try dsimp only
  with_reducible repeat' (
    first | assumption | apply follows_wrF | apply follows_ignored | apply follows_yewDenied | simp only [follows_upd]
          | apply follows_ite)

theorem follows_ywCmd {s₀ : State} {s : State} {cmd c : Nat} (h_s : Follows s₀ s) :
    Follows s₀ (ywCmd s cmd c) := by
  unfold ywCmd
  try dsimp only
  with_reducible repeat' (
    first | assumption | apply follows_ignored | apply follows_leaveRaw | apply follows_yewDenied | apply follows_makeDue
          | apply follows_yieldGrant | apply follows_shutdownTest | apply follows_rawEnter | simp only [follows_upd]
          | apply follows_ite | split)

theorem follows_dropHours {s₀ : State} {s : State} {w : Nat} (h_s : Follows s₀ s) :
    Follows s₀ (dropHours s w) := by
  unfold dropHours
  try dsimp only
  with_reducible repeat' (first | assumption | intro _ | simp only [follows_upd])

theorem follows_execAgeingRecord {s₀ : State} {s : State} (h_s : Follows s₀ s) :
    FollowsNext s₀ (execAgeingRecord s) := by
  unfold execAgeingRecord
  try dsimp only
  apply followsNext
  with_reducible repeat' (
    first | assumption | intro _ | apply follows_report | apply follows_ufsWrite | apply follows_dropHours
          | simp only [follows_upd] | apply follows_ite | split)

end Sys2Proof.Machine
end

