-- ==== Sys2Proof/Laws/FollowsSecurity.lean ====
section
/-! SUPPORT. `Follows` is kept by the operations of Machine/Security.lean. -/

namespace Sys2Proof.Machine

theorem follows_setBusy {s₀ : State} {s : State} {b : Bool} (h_s : Follows s₀ s) :
    Follows s₀ (setBusy s b) := by
  unfold setBusy
  try dsimp only
  with_reducible repeat' (first | assumption | apply follows_wrB)

theorem follows_drawChallenge {s₀ : State} {s : State} (h_s : Follows s₀ s) :
    Follows s₀ (drawChallenge s) := by
  unfold drawChallenge
  try dsimp only
  with_reducible repeat' (
    first | assumption | apply follows_drawn | apply follows_wrBytes | simp only [follows_upd] | simp only [follows_secKeep]
          | apply follows_ite)

theorem follows_execTrngFail {s₀ : State} {s : State} (h_s : Follows s₀ s) :
    FollowsNext s₀ (execTrngFail s) := by
  unfold execTrngFail
  try dsimp only
  apply followsNext
  with_reducible repeat' (first | assumption | apply follows_report | simp only [follows_upd] | simp only [follows_secKeep])

theorem follows_execTrngRetest {s₀ : State} {ok : Bool} {s : State} (h_s : Follows s₀ s) :
    FollowsNext s₀ (execTrngRetest ok s) := by
  unfold execTrngRetest
  try dsimp only
  apply followsNext
  with_reducible repeat' (
    first | assumption | apply follows_report | simp only [follows_upd] | simp only [follows_secKeep] | apply follows_ite)

theorem follows_tokenLines {s₀ : State} {r : List (Option Byte) × State} (h_r : Follows s₀ r.2) :
    Follows s₀ (tokenLines r).2 := by
  unfold tokenLines
  try dsimp only
  with_reducible repeat' (first | assumption | intro _ | apply follows_ite | split)

theorem follows_tokenGw {s₀ : State} {r : GwRes × State} (h_r : Follows s₀ r.2) :
    Follows s₀ (tokenGw r).2 := by
  unfold tokenGw
  try dsimp only
  with_reducible repeat' (first | assumption | intro _ | simp only [follows_upd] | apply follows_ite | split)

theorem follows_readTokenIn {s₀ : State} {s : State} {a n : Nat} {g : Region} (h_s : Follows s₀ s) :
    Follows s₀ (readTokenIn s a n g).2 := by
  unfold readTokenIn
  try dsimp only
  with_reducible repeat' (
    first | assumption | apply follows_settle | apply follows_dramRead | apply follows_gwAccess | apply follows_tokenLines
          | apply follows_tokenGw | simp only [follows_upd] | apply follows_ite | split)

theorem follows_readToken {s₀ : State} {s : State} {a n : Nat} (h_s : Follows s₀ s) :
    Follows s₀ (readToken s a n).2 := by
  unfold readToken
  try dsimp only
  with_reducible repeat' (first | assumption | apply follows_readTokenIn)

theorem follows_tokenRefused {s₀ : State} {s : State} {code : Nat} (h_s : Follows s₀ s) :
    Follows s₀ (tokenRefused s code) := by
  unfold tokenRefused
  try dsimp only
  with_reducible repeat' (first | assumption | apply follows_report | apply follows_incSat | apply follows_ite)

theorem follows_consumeChallenge {s₀ : State} {s : State} {chal : Option Nat} (h_s : Follows s₀ s) :
    Follows s₀ (consumeChallenge s chal) := by
  unfold consumeChallenge
  try dsimp only
  with_reducible repeat' (first | assumption | simp only [follows_upd] | simp only [follows_secKeep] | apply follows_ite)

theorem follows_openSession {s₀ : State} {s : State} {b : List Byte} (h_s : Follows s₀ s) :
    Follows s₀ (openSession s b) := by
  unfold openSession
  try dsimp only
  with_reducible repeat' (
    first | assumption | apply follows_wr | apply follows_wrF | apply follows_report | apply follows_incWrap
          | apply follows_extendMr | simp only [follows_upd] | simp only [follows_secKeep])

theorem follows_debugOpen {s₀ : State} {s : State} {b : List Byte} {chal : Option Nat} (h_s : Follows s₀ s) :
    Follows s₀ (debugOpen s b chal) := by
  unfold debugOpen
  try dsimp only
  with_reducible repeat' (
    first | assumption | apply follows_tokenRefused | apply follows_consumeChallenge | apply follows_openSession
          | simp only [follows_upd] | apply follows_ite | split)

theorem follows_execSessionExpired {s₀ : State} {s : State} (h_s : Follows s₀ s) :
    FollowsNext s₀ (execSessionExpired s) := by
  unfold execSessionExpired
  try dsimp only
  apply followsNext
  with_reducible repeat' (first | assumption | apply follows_endSession | simp only [follows_upd] | apply follows_ite | split)

theorem follows_dbgHold {s₀ : State} {s : State} (h_s : Follows s₀ s) :
    Follows s₀ (dbgHold s) := by
  unfold dbgHold
  try dsimp only
  with_reducible repeat' (first | assumption | apply follows_wrB | simp only [follows_upd] | split)

theorem follows_dbgRelease {s₀ : State} {s : State} (h_s : Follows s₀ s) :
    Follows s₀ (dbgRelease s) := by
  unfold dbgRelease
  try dsimp only
  with_reducible repeat' (first | assumption | apply follows_wrB | apply follows_dbgHold | simp only [follows_upd])

theorem follows_blowFuses {s₀ : State} {s : State} {target : Nat} {owner : List Byte} (hlt : lifeCycle s ≤ target) (h_s : Follows s₀ s) :
    Follows s₀ (blowFuses s target owner) := by
  have h5 : ∀ {f g : Fuses}, FusesLe f g → ∀ l, g.lc ≤ l → ∀ o d, FusesLe f { g with lc := l, ownerKey := o, dus := d } :=
    fun h l hl o d => ⟨Nat.le_trans h.1 hl, h.2.1, h.2.2⟩
  have hf := follows_fuses h_s
  unfold blowFuses
  extract_lets f ok f1 s1
  have h1 : Follows s₀ s1 := follows_endSession (follows_drawn h_s)
  have hf1 : FusesLe s₀.sec.fuses f1 := by
    simp only [f1]
    split
    · exact h5 hf 2 (by have := hlt; unfold lifeCycle at this; omega) _ _
    · split
      · rename_i h
        simp only [Bool.and_eq_true, beq_iff_eq, decide_eq_true_eq] at h
        exact h5 hf 5 (by have := hlt; unfold lifeCycle at this; omega) _ _
      · exact h5 hf target hlt _ _
  clear_value s1 f1
  split
  · exact follows_coldReset (follows_report (follows_sec hf1 h1))
  · exact follows_report (follows_sec ⟨hf.1, hf.2.1, fun _ => rfl⟩ h1)

theorem follows_advanceBlank {s₀ : State} {s : State} (hb : lifeCycle s = 0) (h_s : Follows s₀ s) :
    Follows s₀ (advanceBlank s) := by
  unfold advanceBlank
  exact follows_ite (follows_blowFuses (hb ▸ Nat.zero_le _) h_s) (follows_report h_s)

theorem follows_advanceToken {s₀ : State} {s : State} {b : List Byte} {chal : Option Nat} (h_s : Follows s₀ s) :
    Follows s₀ (advanceToken s b chal) := by
  have up : ∀ {l t : Nat}, (transitionKeys l t).isEmpty = false → l ≤ t := by
    intro l t h
    unfold transitionKeys at h
    split at h
    all_goals first | decide | cases h
  unfold advanceToken
  extract_lets target key keys s1
  have h1 : Follows s₀ s1 := follows_ite (follows_consumeChallenge h_s) h_s
  have hl : lifeCycle s1 = lifeCycle s := by
    simp only [s1]
    split
    · unfold consumeChallenge
      split <;> rfl
    · rfl
  clear_value s1
  split
  · exact follows_tokenRefused h1
  · split
    · exact follows_tokenRefused h1
    · split
      · exact follows_tokenRefused h1
      · rename_i h
        refine follows_blowFuses (hl ▸ up ?_) h1
        simp only [Bool.or_eq_true, not_or, Bool.not_eq_true] at h
        exact h.1

theorem follows_attest {s₀ : State} {s : State} {a : Nat} (h_s : Follows s₀ s) :
    Follows s₀ (attest s a) := by
  unfold attest
  try dsimp only
  with_reducible repeat' (
    first | assumption | intro _ | apply follows_mappedWrite | apply follows_wr | apply follows_report
          | apply follows_incWrap | simp only [follows_upd] | apply follows_ite)

theorem follows_epochCommit {s₀ : State} {s : State} (h_s : Follows s₀ s) :
    Follows s₀ (epochCommit s) := by
  have hf := follows_fuses h_s
  unfold epochCommit
  extract_lets n
  clear_value n
  split
  · rename_i h
    simp only [Bool.and_eq_true, decide_eq_true_eq] at h
    exact follows_showFuses (follows_sec ⟨hf.1, Nat.le_trans hf.2.1 (Nat.le_of_lt h.2), hf.2.2⟩ h_s)
  · exact follows_report h_s

theorem follows_fenceLogClear {s₀ : State} {s : State} (h_s : Follows s₀ s) :
    Follows s₀ (fenceLogClear s) := by
  unfold fenceLogClear
  try dsimp only
  with_reducible repeat' (first | assumption | intro _ | apply follows_each | apply follows_ufsWrite | simp only [follows_upd] | split)

theorem follows_hwBegin {s₀ : State} {s : State} {cmd : Nat} (h_s : Follows s₀ s) :
    Follows s₀ (hwBegin s cmd) := by
  unfold hwBegin
  try dsimp only
  with_reducible repeat' (first | assumption | apply follows_setBusy | simp only [follows_upd] | simp only [follows_secKeep])

theorem follows_hwCmd {s₀ : State} {s : State} {cmd mr : Nat} (h_s : Follows s₀ s) :
    Follows s₀ (hwCmd s cmd mr) := by
  unfold hwCmd
  try dsimp only
  with_reducible repeat' (
    first | assumption | apply follows_wr | apply follows_report | apply follows_setErr | apply follows_ignored
          | apply follows_extendMr | apply follows_endSession | apply follows_dbgHold | apply follows_dbgRelease
          | apply follows_epochCommit | apply follows_fenceLogClear | apply follows_hwBegin | simp only [follows_upd]
          | apply follows_ite | split)

theorem follows_withToken {s₀ : State} {s : State} {a n : Nat} {f : State → List Byte → State} (h_s : Follows s₀ s) (h_f : ∀ (x0 : State) (x1 : List Byte), Follows s₀ x0 → Follows s₀ (f x0 x1)) :
    Follows s₀ (withToken s a n f).2 := by
  unfold withToken
  try dsimp only
  with_reducible repeat' (first | assumption | apply h_f | apply follows_readToken | apply follows_tokenRefused | simp only [follows_upd] | split)

theorem follows_hwPerform {s₀ : State} {s : State} {cmd a : Nat} {chal : Option Nat} (h_s : Follows s₀ s) :
    Follows s₀ (hwPerform s cmd a chal).2 := by
  unfold hwPerform
  split
  · split
    · exact follows_settle h_s
    · exact follows_attest h_s
  · exact follows_withToken h_s (fun _ _ h => follows_debugOpen h)
  · split
    · exact follows_advanceBlank ‹_› h_s
    · exact follows_withToken h_s (fun _ _ h => follows_advanceToken h)
  · exact h_s

theorem follows_execHwCommandDone {s₀ : State} {s : State} (h_s : Follows s₀ s) :
    FollowsNext s₀ (execHwCommandDone s) := by
  unfold execHwCommandDone
  try dsimp only
  apply followsNext
  with_reducible repeat' (
    first | assumption | apply follows_raise | apply follows_setBusy | apply follows_hwPerform | simp only [follows_upd]
          | simp only [follows_secKeep] | apply follows_ite | split)

end Sys2Proof.Machine
end

