-- ==== Sys2Proof/Laws/FollowsRegAccess.lean ====
section
/-! SUPPORT. `Follows` is kept by the operations of Machine/RegAccess.lean. -/

namespace Sys2Proof.Machine

theorem follows_advance {s₀ : State} {s : State} {a n size : Nat} (h_s : Follows s₀ s) :
    Follows s₀ (advance s a n size) := by
  unfold advance
  try dsimp only
  with_reducible repeat' (first | assumption | apply follows_wrF)

theorem follows_arithCtrl {s₀ : State} {s : State} {t : Nat} {v : W64} (h_s : Follows s₀ s) :
    Follows s₀ (arithCtrl s t v) := by
  unfold arithCtrl
  try dsimp only
  with_reducible repeat' (first | assumption | apply follows_wr)

theorem follows_shadowRec {s₀ : State} {s : State} {t slot j : Nat} {v : W64} (h_s : Follows s₀ s) :
    Follows s₀ (shadowRec s t slot j v) := by
  unfold shadowRec
  try dsimp only
  with_reducible repeat' (first | assumption | apply follows_storeRec)

theorem follows_dfWrite {s₀ : State} {s : State} {t off : Nat} {v : W64} (h_s : Follows s₀ s) :
    Follows s₀ (dfWrite s t off v) := by
  unfold dfWrite
  try dsimp only
  with_reducible repeat' (first | assumption | apply follows_wr | apply follows_ignored | apply follows_shadowRec | apply follows_ite)

theorem follows_noteDebugRegion {s₀ : State} {s : State} {t r : Nat} (h_s : Follows s₀ s) :
    Follows s₀ (noteDebugRegion s t r) := by
  unfold noteDebugRegion
  try dsimp only
  with_reducible repeat' (first | assumption | simp only [follows_upd] | apply follows_ite)

theorem follows_noteBound {s₀ : State} {s : State} (h_s : Follows s₀ s) :
    Follows s₀ (noteBound s) := by
  unfold noteBound
  try dsimp only
  with_reducible repeat' (first | assumption | simp only [follows_upd])

theorem follows_bindWrite {s₀ : State} {s : State} {t r : Nat} {v : W64} {hornbeam : Bool} (h_s : Follows s₀ s) :
    Follows s₀ (bindWrite s t r v hornbeam) := by
  unfold bindWrite
  try dsimp only
  with_reducible repeat' (
    first | assumption | intro _ | apply follows_resCtxWrite | apply follows_noteBound
          | apply follows_gbEpochs | simp only [follows_upd] | apply follows_ite)

theorem follows_padWrite {s₀ : State} {s : State} {t off : Nat} {v : W64} {hornbeam : Bool} (h_s : Follows s₀ s) :
    Follows s₀ (padWrite s t off v hornbeam) := by
  unfold padWrite
  try dsimp only
  with_reducible repeat' (
    first | assumption | intro _ | apply follows_wr | apply follows_ignored | apply follows_modeWrite
          | apply follows_rgnWrite | apply follows_circCfgWrite | apply follows_bankPwrWrite
          | apply follows_noteDebugRegion | apply follows_bindWrite | simp only [follows_upd]
          | apply follows_ite)

theorem follows_hsDataWrite {s₀ : State} {s : State} {t : Nat} {v : W64} (h_s : Follows s₀ s) :
    Follows s₀ (hsDataWrite s t v) := by
  unfold hsDataWrite
  try dsimp only
  with_reducible repeat' (first | assumption | apply follows_ignored | apply follows_setHsWord | apply follows_advance | apply follows_ite)

theorem follows_hsBoundWrite {s₀ : State} {s : State} {t r : Nat} {table : Bool} {v : W64} (h_s : Follows s₀ s) :
    Follows s₀ (hsBoundWrite s t r table v) := by
  unfold hsBoundWrite
  try dsimp only
  with_reducible repeat' (first | assumption | apply follows_wr | apply follows_ignored | apply follows_ite)

theorem follows_qctlWrite {s₀ : State} {s : State} {t off : Nat} {v : W64} {hornbeam : Bool} (h_s : Follows s₀ s) :
    Follows s₀ (qctlWrite s t off v hornbeam) := by
  unfold qctlWrite
  try dsimp only
  with_reducible repeat' (
    first | assumption | apply follows_wr | apply follows_grantWrite | apply follows_queueCmd | apply follows_hsDataWrite
          | apply follows_hsBoundWrite | apply follows_ite)

theorem follows_ringCfgWrite {s₀ : State} {s : State} {t q : Nat} {v : W64} (h_s : Follows s₀ s) :
    Follows s₀ (ringCfgWrite s t q v) := by
  unfold ringCfgWrite
  try dsimp only
  with_reducible repeat' (first | assumption | apply follows_wr | apply follows_badCmd | apply follows_ite)

theorem follows_routeLong {s₀ : State} {s : State} {t : Nat} (h_s : Follows s₀ s) :
    Follows s₀ (routeLong s t) := by
  unfold routeLong
  try dsimp only
  with_reducible repeat' (
    first | assumption | intro _ | apply follows_report | apply follows_each | simp only [follows_upd] | apply follows_ite
          | split)

theorem follows_rtCtrlWrite {s₀ : State} {s : State} {t : Nat} {v : W64} (h_s : Follows s₀ s) :
    Follows s₀ (rtCtrlWrite s t v) := by
  unfold rtCtrlWrite
  try dsimp only
  with_reducible repeat' (
    first | assumption | intro _ | apply follows_wr | apply follows_routeLong | simp only [follows_upd]
          | apply follows_ite)

theorem follows_routerWrite {s₀ : State} {s : State} {t off key : Nat} {v : W64} (h_s : Follows s₀ s) :
    Follows s₀ (routerWrite s t off key v) := by
  unfold routerWrite
  try dsimp only
  with_reducible repeat' (
    first | assumption | intro _ | apply follows_wr | apply follows_each | apply follows_setRoute | apply follows_advance
          | apply follows_rtCtrlWrite | apply follows_ite)

theorem follows_icWrite {s₀ : State} {s : State} {off : Nat} {v : W64} (h_s : Follows s₀ s) :
    Follows s₀ (icWrite s off v) := by
  unfold icWrite
  try dsimp only
  with_reducible repeat' (
    first | assumption | apply follows_wr | apply follows_icEval | apply follows_icDone | apply follows_icSw | apply follows_ite)

theorem follows_logWrite {s₀ : State} {s : State} {off : Nat} {v : W64} (h_s : Follows s₀ s) :
    Follows s₀ (logWrite s off v) := by
  unfold logWrite
  try dsimp only
  with_reducible repeat' (first | assumption | apply follows_wr | apply follows_raise | apply follows_logReadWrite | apply follows_ite)

theorem follows_timeWrite {s₀ : State} {s : State} {off : Nat} {v : W64} (h_s : Follows s₀ s) :
    Follows s₀ (timeWrite s off v) := by
  unfold timeWrite
  try dsimp only
  with_reducible repeat' (first | assumption | apply follows_wr | apply follows_tbSet | apply follows_tbAdjWrite | apply follows_ite)

theorem follows_fabricWrite {s₀ : State} {s : State} {off key : Nat} {v : W64} (h_s : Follows s₀ s) :
    Follows s₀ (fabricWrite s off key v) := by
  unfold fabricWrite
  try dsimp only
  with_reducible repeat' (first | assumption | apply follows_wr | apply follows_fxDataWrite | apply follows_advance | apply follows_ite)

theorem follows_memmapWrite {s₀ : State} {s : State} {off : Nat} {v : W64} (h_s : Follows s₀ s) :
    Follows s₀ (memmapWrite s off v) := by
  unfold memmapWrite
  try dsimp only
  with_reducible repeat' (
    first | assumption | apply follows_wr | apply follows_mmCtrlWrite | apply follows_dregWrite | apply follows_mmFenceWrite
          | apply follows_ite)

theorem follows_ctxSetWrite {s₀ : State} {s : State} {page a t m : Nat} {v : W64} (h_s : Follows s₀ s) :
    Follows s₀ (ctxSetWrite s page a t m v) := by
  unfold ctxSetWrite
  try dsimp only
  with_reducible repeat' (
    first | assumption | intro _ | apply follows_sendCtxWrite | apply follows_ignored
          | simp only [follows_upd] | apply follows_ite)

theorem follows_gorbinWrite {s₀ : State} {s : State} {off key : Nat} {v : W64} (h_s : Follows s₀ s) :
    Follows s₀ (gorbinWrite s off key v) := by
  unfold gorbinWrite
  try dsimp only
  with_reducible repeat' (
    first | assumption | apply follows_wr | apply follows_bootCtrlWrite | apply follows_gbCtrlWrite | apply follows_gbWinWrite
          | apply follows_notifyWrite | apply follows_advance | apply follows_ctxSetWrite | apply follows_ite)

theorem follows_hornbeamWrite {s₀ : State} {s : State} {off : Nat} {v : W64} (h_s : Follows s₀ s) :
    Follows s₀ (hornbeamWrite s off v) := by
  unfold hornbeamWrite
  try dsimp only
  with_reducible repeat' (first | assumption | apply follows_wr | apply follows_hbCmd | apply follows_ctxSetWrite | apply follows_ite)

theorem follows_yewWrite {s₀ : State} {s : State} {off key : Nat} {v : W64} (h_s : Follows s₀ s) :
    Follows s₀ (yewWrite s off key v) := by
  unfold yewWrite
  try dsimp only
  with_reducible repeat' (
    first | assumption | apply follows_wr | apply follows_ignored | apply follows_writeNat | apply follows_setChk
          | apply follows_ywCmd | simp only [follows_upd] | apply follows_ite | split)

theorem follows_brambleWrite {s₀ : State} {s : State} {off key : Nat} {v : W64} (h_s : Follows s₀ s) :
    Follows s₀ (brambleWrite s off key v) := by
  unfold brambleWrite
  try dsimp only
  with_reducible repeat' (
    first | assumption | apply follows_wr | apply follows_ignored | apply follows_tdCmd | apply follows_rstCmd
          | apply follows_ite)

theorem follows_csCfgWrite {s₀ : State} {s : State} {c key : Nat} {v : W64} (h_s : Follows s₀ s) :
    Follows s₀ (csCfgWrite s c key v) := by
  unfold csCfgWrite
  try dsimp only
  with_reducible repeat' (first | assumption | apply follows_wr | apply follows_reportB | apply follows_ignored | apply follows_ite)

theorem follows_commitWrite {s₀ : State} {s : State} {off key : Nat} {v : W64} {hornbeam : Bool} (h_s : Follows s₀ s) :
    Follows s₀ (commitWrite s off key v hornbeam) := by
  unfold commitWrite
  try dsimp only
  with_reducible repeat' (
    first | assumption | apply follows_wr | apply follows_raise | apply follows_ignored | apply follows_csCmd
          | apply follows_csCfgWrite | apply follows_ite)

theorem follows_ckptWrite {s₀ : State} {s : State} {off key : Nat} {v : W64} (h_s : Follows s₀ s) :
    Follows s₀ (ckptWrite s off key v) := by
  unfold ckptWrite
  try dsimp only
  with_reducible repeat' (
    first | assumption | apply follows_wr | apply follows_ignored | apply follows_lambdaWrite | apply follows_ckCmd
          | apply follows_ite)

theorem follows_powerWrite {s₀ : State} {s : State} {off key : Nat} {v : W64} (h_s : Follows s₀ s) :
    Follows s₀ (powerWrite s off key v) := by
  unfold powerWrite
  try dsimp only
  with_reducible repeat' (first | assumption | apply follows_wr | apply follows_ignored | apply follows_fitTolerance | apply follows_ite)

theorem follows_pageWrite {s₀ : State} {s : State} {a : Agent} {k : PageKind} {i off key : Nat} {v : W64} (h_s : Follows s₀ s) :
    Follows s₀ (pageWrite s a k i off key v) := by
  unfold pageWrite
  try dsimp only
  with_reducible repeat' (
    first | assumption | intro _ | apply follows_dmaCtrl | apply follows_mcCtrlWrite | apply follows_wr
          | apply follows_pxCtrlWrite | apply follows_arithCtrl | apply follows_dfWrite
          | apply follows_padWrite | apply follows_qctlWrite | apply follows_ringCfgWrite
          | apply follows_routerWrite | apply follows_icWrite | apply follows_logWrite
          | apply follows_timeWrite | apply follows_fabricWrite | apply follows_memmapWrite
          | apply follows_gorbinWrite | apply follows_hornbeamWrite | apply follows_yewWrite
          | apply follows_brambleWrite | apply follows_commitWrite | apply follows_ckptWrite
          | apply follows_powerWrite | apply follows_hwCmd | simp only [follows_upd] | apply follows_ite
          | split)

theorem follows_accessRec {s₀ : State} {s : State} {p bits code addr : Nat} (h_s : Follows s₀ s) :
    Follows s₀ (accessRec s p bits code addr) := by
  unfold accessRec
  try dsimp only
  with_reducible repeat' (first | assumption | apply follows_reportLimited)

theorem follows_writeWakes {s₀ : State} {s : State} {p : Nat} (h_s : Follows s₀ s) :
    Follows s₀ (writeWakes s p) := by
  unfold writeWakes
  try dsimp only
  with_reducible repeat' (first | assumption | apply follows_wakeCluster | apply follows_ite)

theorem follows_headerWrite {s₀ : State} {s : State} {p key : Nat} {v : W64} (h_s : Follows s₀ s) :
    Follows s₀ (headerWrite s p key v) := by
  unfold headerWrite
  try dsimp only
  with_reducible repeat' (first | assumption | apply follows_wr | apply follows_raiseIfNew | simp only [follows_upd] | split)

theorem follows_typedWrite {s₀ : State} {s : State} {a : Agent} {k : PageKind} {i p off key : Nat} {r : RegDesc} {v : W64} (h_s : Follows s₀ s) :
    Follows s₀ (typedWrite s a k i p off key r v) := by
  unfold typedWrite
  try dsimp only
  with_reducible repeat' (
    first | assumption | apply follows_wr | apply follows_denied | apply follows_unmapped | apply follows_pageWrite
          | apply follows_headerWrite | simp only [follows_upd] | apply follows_ite)

theorem follows_refuseAccess {s₀ : State} {s : State} {a : Agent} {p addr : Nat} (h_s : Follows s₀ s) :
    Follows s₀ (refuseAccess s a p addr) := by
  unfold refuseAccess
  try dsimp only
  with_reducible repeat' (first | assumption | apply follows_report | apply follows_setErr | apply follows_denied | simp only [follows_upd] | split)

theorem follows_regWriteReg {s₀ : State} {s : State} {a : Agent} {k : PageKind} {i p off addr : Nat} {v : W64} {x : Option (RegDesc × Nat)} (h_s : Follows s₀ s) :
    Follows s₀ (regWriteReg s a k i p off addr v x) := by
  unfold regWriteReg
  try dsimp only
  with_reducible repeat' (
    first | assumption | apply follows_ignored | apply follows_accessRec | apply follows_typedWrite | simp only [follows_upd]
          | apply follows_ite | split)

theorem follows_regWriteIn {s₀ : State} {s : State} {a : Agent} {k : PageKind} {i p off addr : Nat} {v : W64} (h_s : Follows s₀ s) :
    Follows s₀ (regWriteIn s a k i p off addr v).2 := by
  unfold regWriteIn
  try dsimp only
  with_reducible repeat' (
    first | assumption | apply follows_accessRec | apply follows_writeWakes | apply follows_refuseAccess
          | apply follows_regWriteReg | apply follows_ite | split)

theorem follows_regWriteAt {s₀ : State} {s : State} {a : Agent} {p off addr : Nat} {v : W64} {x : Option (PageKind × Nat)} (h_s : Follows s₀ s) :
    Follows s₀ (regWriteAt s a p off addr v x).2 := by
  unfold regWriteAt
  try dsimp only
  with_reducible repeat' (first | assumption | apply follows_unmapped | apply follows_regWriteIn | simp only [follows_upd] | split)

theorem follows_regWrite {s₀ : State} {s : State} {a : Agent} {addr : Nat} {v : W64} (h_s : Follows s₀ s) :
    Follows s₀ (regWrite s a addr v).2 := by
  unfold regWrite
  try dsimp only
  with_reducible repeat' (first | assumption | apply follows_regWriteAt)

theorem follows_readEffect {s₀ : State} {s : State} {k : PageKind} {i off : Nat} (h_s : Follows s₀ s) :
    Follows s₀ (readEffect s k i off) := by
  unfold readEffect
  try dsimp only
  with_reducible repeat' (
    first | assumption | apply follows_wr | apply follows_wrF | apply follows_wrB | apply follows_noteCompat
          | apply follows_advance | simp only [follows_upd] | apply follows_ite | split)

theorem follows_readFirst {s₀ : State} {s : State} {k : PageKind} {off : Nat} (h_s : Follows s₀ s) :
    Follows s₀ (readFirst s k off) := by
  unfold readFirst
  try dsimp only
  with_reducible repeat' (
    first | assumption | apply follows_logSnap | apply follows_drawChallenge | simp only [follows_upd] | apply follows_ite
          | split)

theorem follows_regReadReg {s₀ : State} {s : State} {k : PageKind} {i off addr : Nat} {x : Option (RegDesc × Nat)} (h_s : Follows s₀ s) :
    Follows s₀ (regReadReg s k i off addr x).2 := by
  unfold regReadReg
  try dsimp only
  with_reducible repeat' (
    first | assumption | apply follows_readEffect | apply follows_readFirst | simp only [follows_upd] | apply follows_ite
          | split)

theorem follows_regReadIn {s₀ : State} {s : State} {a : Agent} {k : PageKind} {i p off addr : Nat} (h_s : Follows s₀ s) :
    Follows s₀ (regReadIn s a k i p off addr).2.2 := by
  unfold regReadIn
  try dsimp only
  with_reducible repeat' (
    first | assumption | apply follows_accessRec | apply follows_refuseAccess | apply follows_regReadReg | apply follows_ite
          | split)

theorem follows_regReadAt {s₀ : State} {s : State} {a : Agent} {p off addr : Nat} {x : Option (PageKind × Nat)} (h_s : Follows s₀ s) :
    Follows s₀ (regReadAt s a p off addr x).2.2 := by
  unfold regReadAt
  try dsimp only
  with_reducible repeat' (first | assumption | apply follows_unmapped | apply follows_regReadIn | simp only [follows_upd] | split)

theorem follows_regRead {s₀ : State} {s : State} {a : Agent} {addr : Nat} (h_s : Follows s₀ s) :
    Follows s₀ (regRead s a addr).2.2 := by
  unfold regRead
  try dsimp only
  with_reducible repeat' (first | assumption | apply follows_regReadAt)

end Sys2Proof.Machine
end

