-- ==== Sys2Proof/Laws/FollowsGorbinRows.lean ====
section
/-! SUPPORT. `Follows` is kept by the operations of Machine/GorbinRows.lean. -/

namespace Sys2Proof.Machine

theorem follows_gbPark {s₀ : State} {s : State} {h : GbHdr} {data : List Byte} (h_s : Follows s₀ s) :
    Follows s₀ (gbPark s h data) := by
  unfold gbPark
  try dsimp only
  with_reducible repeat' (first | assumption | intro _ | simp only [follows_upd])

theorem follows_gbServe {s₀ : State} {s : State} {h : GbHdr} {data : List Byte} (h_s : Follows s₀ s) :
    Follows s₀ (gbServe s h data) := by
  unfold gbServe
  try dsimp only
  with_reducible repeat' (
    first | assumption | intro _ | apply follows_gbAccess | apply follows_lineRead | apply follows_lineUpg
          | apply follows_ucRead | apply follows_ucWrite | apply follows_gbReply | apply follows_lineWb
          | apply follows_lineEvict | apply follows_ringBell | apply follows_sendMsg | apply follows_regWrite
          | apply follows_regRead | simp only [follows_upd] | apply follows_ite | split)

theorem follows_gbTake {s₀ : State} {s : State} {h : GbHdr} {data : List Byte} (h_s : Follows s₀ s) :
    Follows s₀ (gbTake s h data) := by
  unfold gbTake
  try dsimp only
  with_reducible repeat' (
    first | assumption | intro _ | apply follows_gbLeaves | apply follows_gbPark | apply follows_gbServe
          | simp only [follows_upd] | apply follows_ite)

theorem follows_gbResume {s₀ : State} {s : State} (h_s : Follows s₀ s) :
    Follows s₀ (gbResume s) := by
  unfold gbResume
  try dsimp only
  with_reducible repeat' (
    first | assumption | intro _ | apply follows_each | apply follows_gbTake | simp only [follows_upd])

theorem follows_gbArrive {s₀ : State} {h : GbHdr} {data : List Byte} {posted well : Bool} {s : State} (h_s : Follows s₀ s) :
    Follows s₀ (gbArrive h data posted well s) := by
  unfold gbArrive
  try dsimp only
  with_reducible repeat' (
    first | assumption | intro _ | apply follows_gbBad | apply follows_gbTake | apply follows_gbResume
          | apply follows_linkAccept | apply follows_oweCredit | simp only [follows_upd] | apply follows_ite)

theorem follows_execRegRd {s₀ : State} {h : GbHdr} {s : State} (h_s : Follows s₀ s) :
    FollowsNext s₀ (execRegRd h s) := by
  unfold execRegRd
  try dsimp only
  apply followsNext
  with_reducible repeat' (first | assumption | intro _ | apply follows_gbArrive)

theorem follows_execRegWr {s₀ : State} {h : GbHdr} {v : W64} {s : State} (h_s : Follows s₀ s) :
    FollowsNext s₀ (execRegWr h v s) := by
  unfold execRegWr
  try dsimp only
  apply followsNext
  with_reducible repeat' (first | assumption | intro _ | apply follows_gbArrive)

theorem follows_execMemRdUc {s₀ : State} {h : GbHdr} {s : State} (h_s : Follows s₀ s) :
    FollowsNext s₀ (execMemRdUc h s) := by
  unfold execMemRdUc
  try dsimp only
  apply followsNext
  with_reducible repeat' (first | assumption | intro _ | apply follows_gbArrive)

theorem follows_execMemWrUc {s₀ : State} {h : GbHdr} {data : List Byte} {s : State} (h_s : Follows s₀ s) :
    FollowsNext s₀ (execMemWrUc h data s) := by
  unfold execMemWrUc
  try dsimp only
  apply followsNext
  with_reducible repeat' (first | assumption | intro _ | apply follows_gbArrive)

theorem follows_execLineRdS {s₀ : State} {h : GbHdr} {s : State} (h_s : Follows s₀ s) :
    FollowsNext s₀ (execLineRdS h s) := by
  unfold execLineRdS
  try dsimp only
  apply followsNext
  with_reducible repeat' (first | assumption | intro _ | apply follows_gbArrive)

theorem follows_execLineRdX {s₀ : State} {h : GbHdr} {s : State} (h_s : Follows s₀ s) :
    FollowsNext s₀ (execLineRdX h s) := by
  unfold execLineRdX
  try dsimp only
  apply followsNext
  with_reducible repeat' (first | assumption | intro _ | apply follows_gbArrive)

theorem follows_execLineUpg {s₀ : State} {h : GbHdr} {s : State} (h_s : Follows s₀ s) :
    FollowsNext s₀ (execLineUpg h s) := by
  unfold execLineUpg
  try dsimp only
  apply followsNext
  with_reducible repeat' (first | assumption | intro _ | apply follows_gbArrive)

theorem follows_execLineWb {s₀ : State} {h : GbHdr} {data : List Byte} {s : State} (h_s : Follows s₀ s) :
    FollowsNext s₀ (execLineWb h data s) := by
  unfold execLineWb
  try dsimp only
  apply followsNext
  with_reducible repeat' (first | assumption | intro _ | apply follows_gbArrive)

theorem follows_execLineEvict {s₀ : State} {h : GbHdr} {s : State} (h_s : Follows s₀ s) :
    FollowsNext s₀ (execLineEvict h s) := by
  unfold execLineEvict
  try dsimp only
  apply followsNext
  with_reducible repeat' (first | assumption | intro _ | apply follows_gbArrive)

theorem follows_execDoorbell {s₀ : State} {h : GbHdr} {value : W64} {s : State} (h_s : Follows s₀ s) :
    FollowsNext s₀ (execDoorbell h value s) := by
  unfold execDoorbell
  try dsimp only
  apply followsNext
  with_reducible repeat' (first | assumption | intro _ | apply follows_gbArrive)

theorem follows_execMsg {s₀ : State} {h : GbHdr} {data : List Byte} {s : State} (h_s : Follows s₀ s) :
    FollowsNext s₀ (execMsg h data s) := by
  unfold execMsg
  try dsimp only
  apply followsNext
  with_reducible repeat' (first | assumption | intro _ | apply follows_gbArrive)

theorem follows_execSnpInv {s₀ : State} {h : GbHdr} {s : State} (h_s : Follows s₀ s) :
    FollowsNext s₀ (execSnpInv h s) := by
  unfold execSnpInv
  try dsimp only
  apply followsNext
  with_reducible repeat' (
    first | assumption | intro _ | apply follows_gbBad | apply follows_gwSnoop | apply follows_gbTaken
          | simp only [follows_upd] | apply follows_ite)

theorem follows_execSnpShr {s₀ : State} {h : GbHdr} {s : State} (h_s : Follows s₀ s) :
    FollowsNext s₀ (execSnpShr h s) := by
  unfold execSnpShr
  try dsimp only
  apply followsNext
  with_reducible repeat' (
    first | assumption | intro _ | apply follows_gbBad | apply follows_gwSnoop | apply follows_gbTaken
          | simp only [follows_upd] | apply follows_ite)

theorem follows_execSnpRsp {s₀ : State} {tag : Fin 4096} {s : State} (h_s : Follows s₀ s) :
    FollowsNext s₀ (execSnpRsp tag s) := by
  unfold execSnpRsp
  try dsimp only
  apply followsNext
  with_reducible repeat' (
    first | assumption | intro _ | apply follows_snoopResponse | apply follows_gbTaken
          | apply follows_gbResume | simp only [follows_upd] | apply follows_ite)

theorem follows_execSnpRspD {s₀ : State} {tag : Fin 4096} {data : List Byte} {s : State} (h_s : Follows s₀ s) :
    FollowsNext s₀ (execSnpRspD tag data s) := by
  unfold execSnpRspD
  try dsimp only
  apply followsNext
  with_reducible repeat' (
    first | assumption | intro _ | apply follows_snoopResponse | apply follows_gbTaken
          | apply follows_gbResume | simp only [follows_upd] | apply follows_ite)

theorem follows_execGbSnoopTimeout {s₀ : State} {tag : Fin 4096} {s : State} (h_s : Follows s₀ s) :
    FollowsNext s₀ (execGbSnoopTimeout tag s) := by
  unfold execGbSnoopTimeout
  try dsimp only
  apply followsNext
  with_reducible repeat' (
    first | assumption | intro _ | apply follows_snoopLate | apply follows_gbResume)

theorem follows_execCmp {s₀ : State} {tag : Fin 4096} {status : Fin 256} {s : State} (h_s : Follows s₀ s) :
    FollowsNext s₀ (execCmp tag status s) := by
  unfold execCmp
  try dsimp only
  apply followsNext
  with_reducible repeat' (
    first | assumption | intro _ | apply follows_complete | apply follows_gbTaken | simp only [follows_upd]
          | apply follows_ite)

theorem follows_execCmpD {s₀ : State} {tag : Fin 4096} {status : Fin 256} {data : List Byte} {s : State} (h_s : Follows s₀ s) :
    FollowsNext s₀ (execCmpD tag status data s) := by
  unfold execCmpD
  try dsimp only
  apply followsNext
  with_reducible repeat' (
    first | assumption | intro _ | apply follows_complete | apply follows_gbTaken | simp only [follows_upd]
          | apply follows_ite)

end Sys2Proof.Machine
end

