-- ==== Sys2Proof/Laws/FollowsModuleRows.lean ====
section
/-! SUPPORT. `Follows` is kept by the operations of Machine/ModuleRows.lean. -/

namespace Sys2Proof.Machine

theorem follows_sampleStraps {s₀ : State} {s : State} {boot : Bool} {slot : Nat} (h_s : Follows s₀ s) :
    Follows s₀ (sampleStraps s boot slot) := by
  unfold sampleStraps
  try dsimp only
  with_reducible repeat' (first | assumption | apply follows_wrF | apply follows_wrB)

theorem follows_execModRstNAssert {s₀ : State} {s : State} (h_s : Follows s₀ s) :
    FollowsNext s₀ (execModRstNAssert s) := by
  unfold execModRstNAssert
  try dsimp only
  apply followsNext
  with_reducible repeat' (first | assumption | apply follows_coldReset | simp only [follows_upd])

theorem follows_execModRstNRelease {s₀ : State} {boot : Bool} {slot : Fin 8} {s : State} (h_s : Follows s₀ s) :
    FollowsNext s₀ (execModRstNRelease boot slot s) := by
  unfold execModRstNRelease
  try dsimp only
  apply followsNext
  with_reducible repeat' (
    first | assumption | apply follows_releaseReset | apply follows_sampleStraps | simp only [follows_upd] | apply follows_ite)

theorem follows_execSupplyFault {s₀ : State} {s : State} (h_s : Follows s₀ s) :
    FollowsNext s₀ (execSupplyFault s) := by
  unfold execSupplyFault
  try dsimp only
  apply followsNext
  with_reducible repeat' (first | assumption | apply follows_coldReset | simp only [follows_upd])

theorem follows_execOvertempReset {s₀ : State} {s : State} (h_s : Follows s₀ s) :
    FollowsNext s₀ (execOvertempReset s) := by
  unfold execOvertempReset
  try dsimp only
  apply followsNext
  with_reducible repeat' (first | assumption | apply follows_coldReset | simp only [follows_upd])

theorem follows_execSelfResetRelease {s₀ : State} {boot : Bool} {slot : Fin 8} {s : State} (h_s : Follows s₀ s) :
    FollowsNext s₀ (execSelfResetRelease boot slot s) := by
  unfold execSelfResetRelease
  try dsimp only
  apply followsNext
  with_reducible repeat' (
    first | assumption | apply follows_releaseReset | apply follows_sampleStraps | simp only [follows_upd] | apply follows_ite)

theorem follows_i3cResult {s₀ : State} {s : State} {status data : Nat} (h_s : Follows s₀ s) :
    Follows s₀ (i3cResult s status data) := by
  unfold i3cResult
  try dsimp only
  with_reducible repeat' (first | assumption | apply follows_incSat | simp only [follows_upd] | apply follows_ite)

theorem follows_i3cOp {s₀ : State} {s : State} {f : State → State} (h_s : Follows s₀ s) (h_f : ∀ (x0 : State), Follows s₀ x0 → Follows s₀ (f x0)) :
    Follows s₀ (i3cOp s f) := by
  unfold i3cOp
  try dsimp only
  with_reducible repeat' (first | assumption | apply h_f | apply follows_incWrap | simp only [follows_upd] | apply follows_ite | split)

theorem follows_i3cMemRead {s₀ : State} {s : State} {a : Nat} (h_s : Follows s₀ s) :
    Follows s₀ (i3cMemRead s a) := by
  unfold i3cMemRead
  try dsimp only
  with_reducible repeat' (
    first | assumption | intro _ | apply follows_settle | apply follows_dramRead | apply follows_i3cResult
          | simp only [follows_upd] | apply follows_ite)

theorem follows_execI3cRead {s₀ : State} {addr : Fin 281474976710656} {s : State} (h_s : Follows s₀ s) :
    FollowsNext s₀ (execI3cRead addr s) := by
  unfold execI3cRead
  try dsimp only
  apply followsNext
  with_reducible repeat' (
    first | assumption | intro _ | apply follows_unmapped | apply follows_i3cResult | apply follows_i3cOp
          | apply follows_i3cMemRead | apply follows_regRead | simp only [follows_upd] | apply follows_ite
          | split)

theorem follows_execI3cWrite {s₀ : State} {addr : Fin 281474976710656} {v : W64} {s : State} (h_s : Follows s₀ s) :
    FollowsNext s₀ (execI3cWrite addr v s) := by
  unfold execI3cWrite
  try dsimp only
  apply followsNext
  with_reducible repeat' (
    first | assumption | intro _ | apply follows_unmapped | apply follows_i3cResult | apply follows_i3cOp
          | apply follows_regWrite | simp only [follows_upd] | apply follows_ite | split)

theorem follows_execI3cWake {s₀ : State} {s : State} (h_s : Follows s₀ s) :
    FollowsNext s₀ (execI3cWake s) := by
  unfold execI3cWake
  try dsimp only
  apply followsNext
  with_reducible repeat' (first | assumption | intro _ | apply follows_wakeDevice | apply follows_i3cResult | apply follows_i3cOp)

theorem follows_execI3cResultRead {s₀ : State} {s : State} (h_s : Follows s₀ s) :
    FollowsNext s₀ (execI3cResultRead s) := by
  unfold execI3cResultRead
  try dsimp only
  apply followsNext
  with_reducible repeat' (first | assumption | apply follows_emit | apply follows_i3cMemRead | simp only [follows_upd] | split)

theorem follows_execDynamicAddressAssign {s₀ : State} {addr : Fin 128} {s : State} (h_s : Follows s₀ s) :
    FollowsNext s₀ (execDynamicAddressAssign addr s) := by
  unfold execDynamicAddressAssign
  try dsimp only
  apply followsNext
  with_reducible repeat' (first | assumption | apply follows_wrF | apply follows_wrB)

theorem follows_execBoundaryScanInstruction {s₀ : State} {op : Fin 5} {s : State} (h_s : Follows s₀ s) :
    FollowsNext s₀ (execBoundaryScanInstruction op s) := by
  unfold execBoundaryScanInstruction
  try dsimp only
  apply followsNext
  with_reducible repeat' (first | assumption | apply follows_emit | simp only [follows_upd])

end Sys2Proof.Machine
end

