-- ==== Sys2Proof/Laws/FollowsRegRows.lean ====
section
/-! SUPPORT. `Follows` is kept by the operations of Machine/RegRows.lean. -/

namespace Sys2Proof.Machine

theorem follows_writeBy {s₀ : State} {s : State} {a : Agent} {addr : Nat} {v : W64} (h_s : Follows s₀ s) :
    Follows s₀ (writeBy s a addr v) := by
  unfold writeBy
  try dsimp only
  with_reducible repeat' (first | assumption | apply follows_emit | apply follows_regWrite | apply follows_ite)

theorem follows_writeField {s₀ : State} {s : State} {a : Agent} {addr lo n v : Nat} (h_s : Follows s₀ s) :
    Follows s₀ (writeField s a addr lo n v) := by
  unfold writeField
  try dsimp only
  with_reducible repeat' (first | assumption | apply follows_writeBy)

theorem follows_writeNum {s₀ : State} {s : State} {a : Agent} {addr v : Nat} (h_s : Follows s₀ s) :
    Follows s₀ (writeNum s a addr v) := by
  unfold writeNum
  try dsimp only
  with_reducible repeat' (first | assumption | apply follows_writeBy)

theorem follows_readBy {s₀ : State} {s : State} {a : Agent} {addr : Nat} (h_s : Follows s₀ s) :
    Follows s₀ (readBy s a addr) := by
  unfold readBy
  try dsimp only
  with_reducible repeat' (first | assumption | apply follows_emit | apply follows_regRead)

theorem follows_accessBy {s₀ : State} {s : State} {a : Agent} {addr : Nat} {data : Option W64} (h_s : Follows s₀ s) :
    Follows s₀ (accessBy s a addr data) := by
  unfold accessBy
  try dsimp only
  with_reducible repeat' (first | assumption | apply follows_writeBy | apply follows_readBy | simp only [follows_upd] | split)

theorem follows_execRegWrite {s₀ : State} {a : Agent} {addr : Nat} {v : W64} {s : State} (h_s : Follows s₀ s) :
    FollowsNext s₀ (execRegWrite a addr v s) := by
  unfold execRegWrite
  try dsimp only
  apply followsNext
  with_reducible repeat' (first | assumption | apply follows_writeBy)

theorem follows_execScrInjectWrite {s₀ : State} {a : Agent} {t : TileId} {v : W64} {s : State} (h_s : Follows s₀ s) :
    FollowsNext s₀ (execScrInjectWrite a t v s) := by
  unfold execScrInjectWrite
  try dsimp only
  apply followsNext
  with_reducible repeat' (first | assumption | apply follows_writeBy)

theorem follows_execDmaHalt {s₀ : State} {a : Agent} {t : TileId} {ch : Fin 4} {enable : Bool} {s : State} (h_s : Follows s₀ s) :
    FollowsNext s₀ (execDmaHalt a t ch enable s) := by
  unfold execDmaHalt
  try dsimp only
  apply followsNext
  with_reducible repeat' (first | assumption | apply follows_writeNum)

theorem follows_execDmaEnable {s₀ : State} {a : Agent} {t : TileId} {ch : Fin 4} {enable : Bool} {s : State} (h_s : Follows s₀ s) :
    FollowsNext s₀ (execDmaEnable a t ch enable s) := by
  unfold execDmaEnable
  try dsimp only
  apply followsNext
  with_reducible repeat' (first | assumption | apply follows_writeNum)

theorem follows_execShadowWrite {s₀ : State} {a : Agent} {t : TileId} {off : Fin 4096} {v : W64} {s : State} (h_s : Follows s₀ s) :
    FollowsNext s₀ (execShadowWrite a t off v s) := by
  unfold execShadowWrite
  try dsimp only
  apply followsNext
  with_reducible repeat' (first | assumption | apply follows_writeBy)

theorem follows_execCfgRecordWrite {s₀ : State} {a : Agent} {t : TileId} {slot : Fin 8} {w : List W32} {s : State} (h_s : Follows s₀ s) :
    FollowsNext s₀ (execCfgRecordWrite a t slot w s) := by
  unfold execCfgRecordWrite
  try dsimp only
  apply followsNext
  with_reducible repeat' (
    first | assumption | intro _ | apply follows_ignored | apply follows_unmapped | apply follows_storeRec
          | apply follows_accessRec | apply follows_writeWakes | apply follows_refuseAccess | simp only [follows_upd]
          | apply follows_ite | split)

theorem follows_execModeChange {s₀ : State} {a : Agent} {t : TileId} {mode : Fin 4} {s : State} (h_s : Follows s₀ s) :
    FollowsNext s₀ (execModeChange a t mode s) := by
  unfold execModeChange
  try dsimp only
  apply followsNext
  with_reducible repeat' (first | assumption | apply follows_writeNum)

theorem follows_execResCtxWrite {s₀ : State} {a : Agent} {t : TileId} {r : Fin 8} {v : W64} {s : State} (h_s : Follows s₀ s) :
    FollowsNext s₀ (execResCtxWrite a t r v s) := by
  unfold execResCtxWrite
  try dsimp only
  apply followsNext
  with_reducible repeat' (first | assumption | apply follows_writeBy)

theorem follows_execRgnWrite {s₀ : State} {a : Agent} {t : TileId} {r : Fin 8} {j : Fin 16} {k : Fin 3} {v : W64} {s : State} (h_s : Follows s₀ s) :
    FollowsNext s₀ (execRgnWrite a t r j k v s) := by
  unfold execRgnWrite
  try dsimp only
  apply followsNext
  with_reducible repeat' (first | assumption | apply follows_writeBy)

theorem follows_execCircCfgWrite {s₀ : State} {a : Agent} {t : TileId} {n : Fin 4} {v : W64} {s : State} (h_s : Follows s₀ s) :
    FollowsNext s₀ (execCircCfgWrite a t n v s) := by
  unfold execCircCfgWrite
  try dsimp only
  apply followsNext
  with_reducible repeat' (first | assumption | apply follows_writeBy)

theorem follows_execBankPwrWrite {s₀ : State} {a : Agent} {t : TileId} {v : W64} {s : State} (h_s : Follows s₀ s) :
    FollowsNext s₀ (execBankPwrWrite a t v s) := by
  unfold execBankPwrWrite
  try dsimp only
  apply followsNext
  with_reducible repeat' (first | assumption | apply follows_writeBy)

theorem follows_execOpen {s₀ : State} {a : Agent} {t : TileId} {q : QueueId} {c : CtxId} {s : State} (h_s : Follows s₀ s) :
    FollowsNext s₀ (execOpen a t q c s) := by
  unfold execOpen
  try dsimp only
  apply followsNext
  with_reducible repeat' (first | assumption | apply follows_writeNum)

theorem follows_execDrain {s₀ : State} {a : Agent} {t : TileId} {q : QueueId} {s : State} (h_s : Follows s₀ s) :
    FollowsNext s₀ (execDrain a t q s) := by
  unfold execDrain
  try dsimp only
  apply followsNext
  with_reducible repeat' (first | assumption | apply follows_writeNum)

theorem follows_execClose {s₀ : State} {a : Agent} {t : TileId} {q : QueueId} {s : State} (h_s : Follows s₀ s) :
    FollowsNext s₀ (execClose a t q s) := by
  unfold execClose
  try dsimp only
  apply followsNext
  with_reducible repeat' (first | assumption | apply follows_writeNum)

theorem follows_execQReset {s₀ : State} {a : Agent} {t : TileId} {q : QueueId} {s : State} (h_s : Follows s₀ s) :
    FollowsNext s₀ (execQReset a t q s) := by
  unfold execQReset
  try dsimp only
  apply followsNext
  with_reducible repeat' (first | assumption | apply follows_writeNum)

theorem follows_execQGrant {s₀ : State} {a : Agent} {t : TileId} {q : QueueId} {dev : Fin 32768} {tile : Fin 8192} {n : Fin 131072} {s : State} (h_s : Follows s₀ s) :
    FollowsNext s₀ (execQGrant a t q dev tile n s) := by
  unfold execQGrant
  try dsimp only
  apply followsNext
  with_reducible repeat' (first | assumption | apply follows_writeNum)

theorem follows_execQdRingWrite {s₀ : State} {a : Agent} {t : TileId} {q : QueueId} {v : W64} {s : State} (h_s : Follows s₀ s) :
    FollowsNext s₀ (execQdRingWrite a t q v s) := by
  unfold execQdRingWrite
  try dsimp only
  apply followsNext
  with_reducible repeat' (first | assumption | apply follows_writeBy)

theorem follows_execHsDataAccess {s₀ : State} {a : Agent} {t : TileId} {data : Option W64} {s : State} (h_s : Follows s₀ s) :
    FollowsNext s₀ (execHsDataAccess a t data s) := by
  unfold execHsDataAccess
  try dsimp only
  apply followsNext
  with_reducible repeat' (first | assumption | apply follows_accessBy)

theorem follows_execHsBoundWrite {s₀ : State} {a : Agent} {t : TileId} {r : Fin 8} {table : Bool} {v : W64} {s : State} (h_s : Follows s₀ s) :
    FollowsNext s₀ (execHsBoundWrite a t r table v s) := by
  unfold execHsBoundWrite
  try dsimp only
  apply followsNext
  with_reducible repeat' (first | assumption | apply follows_writeBy)

theorem follows_execInjHold {s₀ : State} {a : Agent} {t : TileId} {on : Bool} {s : State} (h_s : Follows s₀ s) :
    FollowsNext s₀ (execInjHold a t on s) := by
  unfold execInjHold
  try dsimp only
  apply followsNext
  with_reducible repeat' (first | assumption | apply follows_writeField)

theorem follows_execDestReset {s₀ : State} {a : Agent} {t : TileId} {on : Bool} {s : State} (h_s : Follows s₀ s) :
    FollowsNext s₀ (execDestReset a t on s) := by
  unfold execDestReset
  try dsimp only
  apply followsNext
  with_reducible repeat' (first | assumption | apply follows_writeField)

theorem follows_execRtDataAccess {s₀ : State} {a : Agent} {t : TileId} {data : Option W64} {s : State} (h_s : Follows s₀ s) :
    FollowsNext s₀ (execRtDataAccess a t data s) := by
  unfold execRtDataAccess
  try dsimp only
  apply followsNext
  with_reducible repeat' (first | assumption | apply follows_accessBy)

theorem follows_execMcDataAccess {s₀ : State} {a : Agent} {t : TileId} {data : Option W64} {s : State} (h_s : Follows s₀ s) :
    FollowsNext s₀ (execMcDataAccess a t data s) := by
  unfold execMcDataAccess
  try dsimp only
  apply followsNext
  with_reducible repeat' (first | assumption | apply follows_accessBy)

theorem follows_execPortEnable {s₀ : State} {a : Agent} {p : PortId} {on : Bool} {s : State} (h_s : Follows s₀ s) :
    FollowsNext s₀ (execPortEnable a p on s) := by
  unfold execPortEnable
  try dsimp only
  apply followsNext
  with_reducible repeat' (first | assumption | apply follows_writeField)

theorem follows_execPortFence {s₀ : State} {a : Agent} {p : PortId} {on : Bool} {s : State} (h_s : Follows s₀ s) :
    FollowsNext s₀ (execPortFence a p on s) := by
  unfold execPortFence
  try dsimp only
  apply followsNext
  with_reducible repeat' (first | assumption | apply follows_writeField)

theorem follows_execPortRetrain {s₀ : State} {a : Agent} {p : PortId} {s : State} (h_s : Follows s₀ s) :
    FollowsNext s₀ (execPortRetrain a p s) := by
  unfold execPortRetrain
  try dsimp only
  apply followsNext
  with_reducible repeat' (first | assumption | apply follows_writeField)

theorem follows_execLaneMaskWrite {s₀ : State} {a : Agent} {p : PortId} {mask : Fin 16} {s : State} (h_s : Follows s₀ s) :
    FollowsNext s₀ (execLaneMaskWrite a p mask s) := by
  unfold execLaneMaskWrite
  try dsimp only
  apply followsNext
  with_reducible repeat' (first | assumption | apply follows_writeField)

theorem follows_execFxDataAccess {s₀ : State} {a : Agent} {data : Option W64} {s : State} (h_s : Follows s₀ s) :
    FollowsNext s₀ (execFxDataAccess a data s) := by
  unfold execFxDataAccess
  try dsimp only
  apply followsNext
  with_reducible repeat' (first | assumption | apply follows_accessBy)

theorem follows_execFmDataAccess {s₀ : State} {a : Agent} {data : Option W64} {s : State} (h_s : Follows s₀ s) :
    FollowsNext s₀ (execFmDataAccess a data s) := by
  unfold execFmDataAccess
  try dsimp only
  apply followsNext
  with_reducible repeat' (first | assumption | apply follows_accessBy)

theorem follows_execMcRetrain {s₀ : State} {a : Agent} {ctl : CtlId} {mask : Fin 16} {s : State} (h_s : Follows s₀ s) :
    FollowsNext s₀ (execMcRetrain a ctl mask s) := by
  unfold execMcRetrain
  try dsimp only
  apply followsNext
  with_reducible repeat' (first | assumption | apply follows_writeField)

theorem follows_execRemap {s₀ : State} {a : Agent} {s : State} (h_s : Follows s₀ s) :
    FollowsNext s₀ (execRemap a s) := by
  unfold execRemap
  try dsimp only
  apply followsNext
  with_reducible repeat' (first | assumption | apply follows_writeField)

theorem follows_execDregWrite {s₀ : State} {a : Agent} {n : Fin 64} {limit : Bool} {v : W64} {s : State} (h_s : Follows s₀ s) :
    FollowsNext s₀ (execDregWrite a n limit v s) := by
  unfold execDregWrite
  try dsimp only
  apply followsNext
  with_reducible repeat' (first | assumption | apply follows_writeBy)

theorem follows_execMmFenceWrite {s₀ : State} {a : Agent} {m : Fin 3} {v : W64} {s : State} (h_s : Follows s₀ s) :
    FollowsNext s₀ (execMmFenceWrite a m v s) := by
  unfold execMmFenceWrite
  try dsimp only
  apply followsNext
  with_reducible repeat' (first | assumption | apply follows_writeBy)

theorem follows_execGbSendCtxWrite {s₀ : State} {a : Agent} {m : Fin 4} {v : W64} {s : State} (h_s : Follows s₀ s) :
    FollowsNext s₀ (execGbSendCtxWrite a m v s) := by
  unfold execGbSendCtxWrite
  try dsimp only
  apply followsNext
  with_reducible repeat' (first | assumption | apply follows_writeBy)

theorem follows_execGbDbBindAccess {s₀ : State} {a : Agent} {data : Option W64} {s : State} (h_s : Follows s₀ s) :
    FollowsNext s₀ (execGbDbBindAccess a data s) := by
  unfold execGbDbBindAccess
  try dsimp only
  apply followsNext
  with_reducible repeat' (first | assumption | apply follows_accessBy)

theorem follows_execGbMsgFailRead {s₀ : State} {a : Agent} {s : State} (h_s : Follows s₀ s) :
    FollowsNext s₀ (execGbMsgFailRead a s) := by
  unfold execGbMsgFailRead
  try dsimp only
  apply followsNext
  with_reducible repeat' (first | assumption | apply follows_readBy)

theorem follows_execBootGo {s₀ : State} {a : Agent} {len : W32} {s : State} (h_s : Follows s₀ s) :
    FollowsNext s₀ (execBootGo a len s) := by
  unfold execBootGo
  try dsimp only
  apply followsNext
  with_reducible repeat' (first | assumption | apply follows_writeNum)

theorem follows_execLogRecRead {s₀ : State} {a : Agent} {s : State} (h_s : Follows s₀ s) :
    FollowsNext s₀ (execLogRecRead a s) := by
  unfold execLogRecRead
  try dsimp only
  apply followsNext
  with_reducible repeat' (first | assumption | apply follows_readBy)

theorem follows_execLogReadWrite {s₀ : State} {a : Agent} {index : Fin 4096} {s : State} (h_s : Follows s₀ s) :
    FollowsNext s₀ (execLogReadWrite a index s) := by
  unfold execLogReadWrite
  try dsimp only
  apply followsNext
  with_reducible repeat' (first | assumption | apply follows_writeNum)

theorem follows_execTbSet {s₀ : State} {a : Agent} {v : W64} {s : State} (h_s : Follows s₀ s) :
    FollowsNext s₀ (execTbSet a v s) := by
  unfold execTbSet
  try dsimp only
  apply followsNext
  with_reducible repeat' (first | assumption | apply follows_writeBy)

theorem follows_execTbAdj {s₀ : State} {a : Agent} {v : W64} {s : State} (h_s : Follows s₀ s) :
    FollowsNext s₀ (execTbAdj a v s) := by
  unfold execTbAdj
  try dsimp only
  apply followsNext
  with_reducible repeat' (first | assumption | apply follows_writeBy)

theorem follows_execIcDone {s₀ : State} {a : Agent} {t : Fin 4} {g : Fin 32} {mask : Fin 65536} {s : State} (h_s : Follows s₀ s) :
    FollowsNext s₀ (execIcDone a t g mask s) := by
  unfold execIcDone
  try dsimp only
  apply followsNext
  with_reducible repeat' (first | assumption | apply follows_writeNum)

theorem follows_execIcSw {s₀ : State} {a : Agent} {hi : Bool} {v : W64} {s : State} (h_s : Follows s₀ s) :
    FollowsNext s₀ (execIcSw a hi v s) := by
  unfold execIcSw
  try dsimp only
  apply followsNext
  with_reducible repeat' (first | assumption | apply follows_writeBy)

theorem follows_execCsOpen {s₀ : State} {a : Agent} {c : CtxId} {s : State} (h_s : Follows s₀ s) :
    FollowsNext s₀ (execCsOpen a c s) := by
  unfold execCsOpen
  try dsimp only
  apply followsNext
  with_reducible repeat' (first | assumption | apply follows_writeNum)

theorem follows_execResolveCommit {s₀ : State} {a : Agent} {c : CtxId} {s : State} (h_s : Follows s₀ s) :
    FollowsNext s₀ (execResolveCommit a c s) := by
  unfold execResolveCommit
  try dsimp only
  apply followsNext
  with_reducible repeat' (first | assumption | apply follows_writeNum)

theorem follows_execResolveAbort {s₀ : State} {a : Agent} {c : CtxId} {s : State} (h_s : Follows s₀ s) :
    FollowsNext s₀ (execResolveAbort a c s) := by
  unfold execResolveAbort
  try dsimp only
  apply followsNext
  with_reducible repeat' (first | assumption | apply follows_writeNum)

theorem follows_execClearFault {s₀ : State} {a : Agent} {c : CtxId} {s : State} (h_s : Follows s₀ s) :
    FollowsNext s₀ (execClearFault a c s) := by
  unfold execClearFault
  try dsimp only
  apply followsNext
  with_reducible repeat' (first | assumption | apply follows_writeNum)

theorem follows_execCsStepWrite {s₀ : State} {a : Agent} {c : CtxId} {hi : Bool} {v : W64} {s : State} (h_s : Follows s₀ s) :
    FollowsNext s₀ (execCsStepWrite a c hi v s) := by
  unfold execCsStepWrite
  try dsimp only
  apply followsNext
  with_reducible repeat' (first | assumption | apply follows_writeBy | apply follows_writeNum)

theorem follows_execCsCfgWrite {s₀ : State} {a : Agent} {c : CtxId} {journal : Bool} {v : W64} {s : State} (h_s : Follows s₀ s) :
    FollowsNext s₀ (execCsCfgWrite a c journal v s) := by
  unfold execCsCfgWrite
  try dsimp only
  apply followsNext
  with_reducible repeat' (first | assumption | apply follows_writeBy | apply follows_writeNum)

theorem follows_execCsTfsReadWrite {s₀ : State} {a : Agent} {index : Fin 65536} {s : State} (h_s : Follows s₀ s) :
    FollowsNext s₀ (execCsTfsReadWrite a index s) := by
  unfold execCsTfsReadWrite
  try dsimp only
  apply followsNext
  with_reducible repeat' (first | assumption | apply follows_writeNum)

theorem follows_execTdTeardown {s₀ : State} {a : Agent} {c : CtxId} {s : State} (h_s : Follows s₀ s) :
    FollowsNext s₀ (execTdTeardown a c s) := by
  unfold execTdTeardown
  try dsimp only
  apply followsNext
  with_reducible repeat' (first | assumption | apply follows_writeNum)

theorem follows_execTdRelease {s₀ : State} {a : Agent} {c : CtxId} {s : State} (h_s : Follows s₀ s) :
    FollowsNext s₀ (execTdRelease a c s) := by
  unfold execTdRelease
  try dsimp only
  apply followsNext
  with_reducible repeat' (first | assumption | apply follows_writeNum)

theorem follows_execRstCluster {s₀ : State} {a : Agent} {c : Fin 512} {s : State} (h_s : Follows s₀ s) :
    FollowsNext s₀ (execRstCluster a c s) := by
  unfold execRstCluster
  try dsimp only
  apply followsNext
  with_reducible repeat' (first | assumption | apply follows_writeNum)

theorem follows_execRstPartition {s₀ : State} {a : Agent} {s : State} (h_s : Follows s₀ s) :
    FollowsNext s₀ (execRstPartition a s) := by
  unfold execRstPartition
  try dsimp only
  apply followsNext
  with_reducible repeat' (first | assumption | apply follows_writeNum)

theorem follows_execRstWarm {s₀ : State} {a : Agent} {s : State} (h_s : Follows s₀ s) :
    FollowsNext s₀ (execRstWarm a s) := by
  unfold execRstWarm
  try dsimp only
  apply followsNext
  with_reducible repeat' (first | assumption | apply follows_writeNum)

theorem follows_execRstCold {s₀ : State} {a : Agent} {s : State} (h_s : Follows s₀ s) :
    FollowsNext s₀ (execRstCold a s) := by
  unfold execRstCold
  try dsimp only
  apply followsNext
  with_reducible repeat' (first | assumption | apply follows_writeNum)

theorem follows_execCkTake {s₀ : State} {a : Agent} {n : Fin 4} {step : Fin 281474976710656} {s : State} (h_s : Follows s₀ s) :
    FollowsNext s₀ (execCkTake a n step s) := by
  unfold execCkTake
  try dsimp only
  apply followsNext
  with_reducible repeat' (first | assumption | apply follows_writeNum)

theorem follows_execCkCancel {s₀ : State} {a : Agent} {n : Fin 4} {s : State} (h_s : Follows s₀ s) :
    FollowsNext s₀ (execCkCancel a n s) := by
  unfold execCkCancel
  try dsimp only
  apply followsNext
  with_reducible repeat' (first | assumption | apply follows_writeNum)

theorem follows_execExport {s₀ : State} {a : Agent} {n : Fin 4} {half : Fin 2} {s : State} (h_s : Follows s₀ s) :
    FollowsNext s₀ (execExport a n half s) := by
  unfold execExport
  try dsimp only
  apply followsNext
  with_reducible repeat' (first | assumption | apply follows_writeNum)

theorem follows_execRestorePartner {s₀ : State} {a : Agent} {n : Fin 4} {half : Fin 2} {dev : Fin 32768} {s : State} (h_s : Follows s₀ s) :
    FollowsNext s₀ (execRestorePartner a n half dev s) := by
  unfold execRestorePartner
  try dsimp only
  apply followsNext
  with_reducible repeat' (first | assumption | apply follows_writeNum)

theorem follows_execRestoreFlash {s₀ : State} {a : Agent} {n : Fin 4} {half : Fin 2} {dev : Fin 32768} {s : State} (h_s : Follows s₀ s) :
    FollowsNext s₀ (execRestoreFlash a n half dev s) := by
  unfold execRestoreFlash
  try dsimp only
  apply followsNext
  with_reducible repeat' (first | assumption | apply follows_writeNum)

theorem follows_execCkLambdaHostWrite {s₀ : State} {a : Agent} {fit : W32} {s : State} (h_s : Follows s₀ s) :
    FollowsNext s₀ (execCkLambdaHostWrite a fit s) := by
  unfold execCkLambdaHostWrite
  try dsimp only
  apply followsNext
  with_reducible repeat' (first | assumption | apply follows_writeNum)

theorem follows_execBoot {s₀ : State} {a : Agent} {arg : W64} {s : State} (h_s : Follows s₀ s) :
    FollowsNext s₀ (execBoot a arg s) := by
  unfold execBoot
  try dsimp only
  apply followsNext
  with_reducible repeat' (first | assumption | apply follows_writeBy | apply follows_writeNum)

theorem follows_execRecheck {s₀ : State} {a : Agent} {s : State} (h_s : Follows s₀ s) :
    FollowsNext s₀ (execRecheck a s) := by
  unfold execRecheck
  try dsimp only
  apply followsNext
  with_reducible repeat' (first | assumption | apply follows_writeNum)

theorem follows_execInstallLicence {s₀ : State} {a : Agent} {arg : W64} {s : State} (h_s : Follows s₀ s) :
    FollowsNext s₀ (execInstallLicence a arg s) := by
  unfold execInstallLicence
  try dsimp only
  apply followsNext
  with_reducible repeat' (first | assumption | apply follows_writeBy | apply follows_writeNum)

theorem follows_execJscan {s₀ : State} {a : Agent} {arg : W64} {s : State} (h_s : Follows s₀ s) :
    FollowsNext s₀ (execJscan a arg s) := by
  unfold execJscan
  try dsimp only
  apply followsNext
  with_reducible repeat' (first | assumption | apply follows_writeBy | apply follows_writeNum)

theorem follows_execShare {s₀ : State} {a : Agent} {g : Fin 4096} {s : State} (h_s : Follows s₀ s) :
    FollowsNext s₀ (execShare a g s) := by
  unfold execShare
  try dsimp only
  apply followsNext
  with_reducible repeat' (first | assumption | apply follows_writeNum)

theorem follows_execShutdownTest {s₀ : State} {a : Agent} {s : State} (h_s : Follows s₀ s) :
    FollowsNext s₀ (execShutdownTest a s) := by
  unfold execShutdownTest
  try dsimp only
  apply followsNext
  with_reducible repeat' (first | assumption | apply follows_writeNum)

theorem follows_execYieldGrant {s₀ : State} {a : Agent} {s : State} (h_s : Follows s₀ s) :
    FollowsNext s₀ (execYieldGrant a s) := by
  unfold execYieldGrant
  try dsimp only
  apply followsNext
  with_reducible repeat' (first | assumption | apply follows_writeNum)

theorem follows_execTestNow {s₀ : State} {a : Agent} {c : Fin 512} {s : State} (h_s : Follows s₀ s) :
    FollowsNext s₀ (execTestNow a c s) := by
  unfold execTestNow
  try dsimp only
  apply followsNext
  with_reducible repeat' (first | assumption | apply follows_writeNum)

theorem follows_execRawEnter {s₀ : State} {a : Agent} {s : State} (h_s : Follows s₀ s) :
    FollowsNext s₀ (execRawEnter a s) := by
  unfold execRawEnter
  try dsimp only
  apply followsNext
  with_reducible repeat' (first | assumption | apply follows_writeNum)

theorem follows_execRawExit {s₀ : State} {a : Agent} {s : State} (h_s : Follows s₀ s) :
    FollowsNext s₀ (execRawExit a s) := by
  unfold execRawExit
  try dsimp only
  apply followsNext
  with_reducible repeat' (first | assumption | apply follows_writeNum)

theorem follows_execYwRawAccess {s₀ : State} {a : Agent} {trim : Bool} {data : Option W64} {s : State} (h_s : Follows s₀ s) :
    FollowsNext s₀ (execYwRawAccess a trim data s) := by
  unfold execYwRawAccess
  try dsimp only
  apply followsNext
  with_reducible repeat' (first | assumption | apply follows_accessBy)

theorem follows_execClPaceExtRead {s₀ : State} {a : Agent} {c : ClusterId} {s : State} (h_s : Follows s₀ s) :
    FollowsNext s₀ (execClPaceExtRead a c s) := by
  unfold execClPaceExtRead
  try dsimp only
  apply followsNext
  with_reducible repeat' (first | assumption | apply follows_readBy)

theorem follows_execToleranceWrite {s₀ : State} {a : Agent} {c : Option CtxId} {us : W32} {s : State} (h_s : Follows s₀ s) :
    FollowsNext s₀ (execToleranceWrite a c us s) := by
  unfold execToleranceWrite
  try dsimp only
  apply followsNext
  with_reducible repeat' (first | assumption | apply follows_writeNum | simp only [follows_upd] | split)

theorem follows_execAttest {s₀ : State} {a : Agent} {arg : Fin 281474976710656} {s : State} (h_s : Follows s₀ s) :
    FollowsNext s₀ (execAttest a arg s) := by
  unfold execAttest
  try dsimp only
  apply followsNext
  with_reducible repeat' (first | assumption | apply follows_writeNum)

theorem follows_execDebugOpen {s₀ : State} {a : Agent} {arg : Fin 281474976710656} {s : State} (h_s : Follows s₀ s) :
    FollowsNext s₀ (execDebugOpen a arg s) := by
  unfold execDebugOpen
  try dsimp only
  apply followsNext
  with_reducible repeat' (first | assumption | apply follows_writeNum)

theorem follows_execDebugClose {s₀ : State} {a : Agent} {s : State} (h_s : Follows s₀ s) :
    FollowsNext s₀ (execDebugClose a s) := by
  unfold execDebugClose
  try dsimp only
  apply followsNext
  with_reducible repeat' (first | assumption | apply follows_writeNum)

theorem follows_execLcAdvance {s₀ : State} {a : Agent} {arg : Fin 281474976710656} {s : State} (h_s : Follows s₀ s) :
    FollowsNext s₀ (execLcAdvance a arg s) := by
  unfold execLcAdvance
  try dsimp only
  apply followsNext
  with_reducible repeat' (first | assumption | apply follows_writeNum)

theorem follows_execExtend {s₀ : State} {a : Agent} {mr : Fin 16} {s : State} (h_s : Follows s₀ s) :
    FollowsNext s₀ (execExtend a mr s) := by
  unfold execExtend
  try dsimp only
  apply followsNext
  with_reducible repeat' (first | assumption | apply follows_writeNum)

theorem follows_execEpochCommit {s₀ : State} {a : Agent} {s : State} (h_s : Follows s₀ s) :
    FollowsNext s₀ (execEpochCommit a s) := by
  unfold execEpochCommit
  try dsimp only
  apply followsNext
  with_reducible repeat' (first | assumption | apply follows_writeNum)

theorem follows_execDbgHold {s₀ : State} {a : Agent} {s : State} (h_s : Follows s₀ s) :
    FollowsNext s₀ (execDbgHold a s) := by
  unfold execDbgHold
  try dsimp only
  apply followsNext
  with_reducible repeat' (first | assumption | apply follows_writeNum)

theorem follows_execDbgRelease {s₀ : State} {a : Agent} {s : State} (h_s : Follows s₀ s) :
    FollowsNext s₀ (execDbgRelease a s) := by
  unfold execDbgRelease
  try dsimp only
  apply followsNext
  with_reducible repeat' (first | assumption | apply follows_writeNum)

theorem follows_execFenceLogClear {s₀ : State} {a : Agent} {s : State} (h_s : Follows s₀ s) :
    FollowsNext s₀ (execFenceLogClear a s) := by
  unfold execFenceLogClear
  try dsimp only
  apply followsNext
  with_reducible repeat' (first | assumption | apply follows_writeNum)

theorem follows_execHwChalRead {s₀ : State} {a : Agent} {s : State} (h_s : Follows s₀ s) :
    FollowsNext s₀ (execHwChalRead a s) := by
  unfold execHwChalRead
  try dsimp only
  apply followsNext
  with_reducible repeat' (first | assumption | apply follows_readBy)

end Sys2Proof.Machine
end

