-- ==== Sys2Proof/Laws/FollowsTensor.lean ====
section
/-! SUPPORT. `Follows` is kept by the operations of Machine/Tensor.lean. -/

namespace Sys2Proof.Machine

theorem follows_emitOne {s₀ : State} {s : State} {t : Nat} {r : TRec} {i : Nat} (h_s : Follows s₀ s) :
    Follows s₀ (emitOne s t r i).2 := by
  unfold emitOne
  try dsimp only
  with_reducible repeat' (
    first | assumption | intro _ | apply follows_setAccEntry | apply follows_raiseArith
          | apply follows_satResult | simp only [follows_upd] | apply follows_ite | split)

theorem follows_emitCodes {s₀ : State} {s : State} {t : Nat} {r : TRec} (h_s : Follows s₀ s) :
    Follows s₀ (emitCodes s t r).2 := by
  unfold emitCodes
  try dsimp only
  with_reducible repeat' (
    first | assumption | intro _ | apply follows_foldl | apply follows_foldl2 | apply follows_foldl1
          | apply follows_emitOne)

theorem follows_emitRange {s₀ : State} {s : State} {t : Nat} {a : Act} {r : TRec} (h_s : Follows s₀ s) :
    Follows s₀ (emitRange s t a r).2 := by
  unfold emitRange
  try dsimp only
  with_reducible repeat' (
    first | assumption | intro _ | apply follows_each | apply follows_sendRow | apply follows_sendPartial
          | apply follows_emitCodes | simp only [follows_upd] | apply follows_ite | split)

theorem follows_executed {s₀ : State} {s : State} {t : Nat} (h_s : Follows s₀ s) :
    Follows s₀ (executed s t) := by
  unfold executed
  try dsimp only
  with_reducible repeat' (first | assumption | apply follows_setAct)

theorem follows_noteRaised {s₀ : State} {s : State} {t i : Nat} {codes : List Nat} (h_s : Follows s₀ s) :
    Follows s₀ (noteRaised s t i codes) := by
  unfold noteRaised
  try dsimp only
  with_reducible repeat' (
    first | assumption | intro _ | apply follows_setAct | apply follows_raiseArith | simp only [follows_upd]
          | apply follows_ite)

theorem follows_mmaInit {s₀ : State} {s : State} {t : Nat} {r : TRec} {i : Nat} (h_s : Follows s₀ s) :
    Follows s₀ (mmaInit s t r i) := by
  unfold mmaInit
  try dsimp only
  with_reducible repeat' (
    first | assumption | intro _ | apply follows_setAccEntry | apply follows_noteRaised
          | simp only [follows_upd] | apply follows_ite)

theorem follows_mmaAdd {s₀ : State} {s : State} {t : Nat} {r : TRec} {i : Nat} {terms : List Fl} (h_s : Follows s₀ s) :
    Follows s₀ (mmaAdd s t r i terms) := by
  unfold mmaAdd
  try dsimp only
  with_reducible repeat' (
    first | assumption | intro _ | apply follows_foldl | apply follows_foldl2 | apply follows_foldl1
          | apply follows_setAccEntry | apply follows_noteRaised | simp only [follows_upd] | apply follows_ite)

theorem follows_mmaCell {s₀ : State} {s : State} {t : Nat} {r : TRec} {p : Nat × Nat × Nat} {sr sc : Nat} {a b : List (List Fl × Nat)} {q : Nat} (h_s : Follows s₀ s) :
    Follows s₀ (mmaCell s t r p sr sc a b q) := by
  unfold mmaCell
  try dsimp only
  with_reducible repeat' (first | assumption | intro _ | apply follows_mmaAdd)

theorem follows_mmaNan {s₀ : State} {s : State} {t i : Nat} (h_s : Follows s₀ s) :
    Follows s₀ (mmaNan s t i) := by
  unfold mmaNan
  try dsimp only
  with_reducible repeat' (
    first | assumption | intro _ | apply follows_scaleNanSeen | apply follows_noteRaised)

theorem follows_mmaStep {s₀ : State} {t : Nat} {r : TRec} {sr sc ch : Nat} {s : State} {a : Act} (h_s : Follows s₀ s) :
    Follows s₀ (mmaStep t r sr sc ch s a) := by
  unfold mmaStep
  try dsimp only
  with_reducible repeat' (
    first | assumption | intro _ | apply follows_each | apply follows_countSteps | apply follows_busySteps
          | apply follows_mmaCell | apply follows_mmaNan | simp only [follows_upd] | apply follows_ite)

theorem follows_mmaEnd {s₀ : State} {s : State} {t : Nat} {r : TRec} (h_s : Follows s₀ s) :
    Follows s₀ (mmaEnd s t r) := by
  unfold mmaEnd
  try dsimp only
  with_reducible repeat' (
    first | assumption | intro _ | apply follows_progress | apply follows_busySteps | apply follows_owe
          | apply follows_drawnMany | apply follows_emitRange | apply follows_executed
          | simp only [follows_upd] | apply follows_ite | split)

theorem follows_runMma {s₀ : State} {s : State} {t : Nat} {r : TRec} {sr sc ch : Nat} (h_s : Follows s₀ s) :
    Follows s₀ (runMma s t r sr sc ch) := by
  unfold runMma
  try dsimp only
  with_reducible repeat' (
    first | assumption | intro _ | apply follows_each | apply follows_runSteps | apply follows_mmaInit
          | apply follows_mmaStep | apply follows_mmaEnd | simp only [follows_upd] | apply follows_ite)

theorem follows_execMma {s₀ : State} {t : TileId} {s : State} (h_s : Follows s₀ s) :
    FollowsNext s₀ (execMma t s) := by
  unfold execMma
  try dsimp only
  apply followsNext
  with_reducible repeat' (first | assumption | intro _ | apply follows_runMma | simp only [follows_upd] | apply follows_ite | split)

theorem follows_execTNop {s₀ : State} {t : TileId} {s : State} (h_s : Follows s₀ s) :
    FollowsNext s₀ (execTNop t s) := by
  unfold execTNop
  try dsimp only
  apply followsNext
  with_reducible repeat' (
    first | assumption | intro _ | apply follows_progress | apply follows_busySteps | apply follows_executed
          | simp only [follows_upd] | apply follows_ite | split)

theorem follows_execEmit {s₀ : State} {t : TileId} {s : State} (h_s : Follows s₀ s) :
    FollowsNext s₀ (execEmit t s) := by
  unfold execEmit
  try dsimp only
  apply followsNext
  with_reducible repeat' (
    first | assumption | intro _ | apply follows_each | apply follows_progress | apply follows_busySteps
          | apply follows_arithRecords | apply follows_emitRange | apply follows_executed
          | simp only [follows_upd] | apply follows_ite | split)

theorem follows_clearRange {s₀ : State} {s : State} {t : Nat} {r : TRec} (h_s : Follows s₀ s) :
    Follows s₀ (clearRange s t r) := by
  unfold clearRange
  try dsimp only
  with_reducible repeat' (first | assumption | intro _ | apply follows_each | apply follows_setAccEntry | apply follows_ite)

theorem follows_execClear {s₀ : State} {t : TileId} {s : State} (h_s : Follows s₀ s) :
    FollowsNext s₀ (execClear t s) := by
  unfold execClear
  try dsimp only
  apply followsNext
  with_reducible repeat' (
    first | assumption | intro _ | apply follows_progress | apply follows_busySteps | apply follows_executed
          | apply follows_clearRange | simp only [follows_upd] | apply follows_ite | split)

theorem follows_loadOne {s₀ : State} {s : State} {t c : Nat} {r : TRec} {i v : Nat} (h_s : Follows s₀ s) :
    Follows s₀ (loadOne s t c r i v) := by
  unfold loadOne
  try dsimp only
  with_reducible repeat' (
    first | assumption | intro _ | apply follows_setAccEntry | apply follows_arithEvents
          | simp only [follows_upd] | apply follows_ite)

theorem follows_loadStep {s₀ : State} {t : Nat} {r : TRec} {s : State} {a : Act} (h_s : Follows s₀ s) :
    Follows s₀ (loadStep t r s a) := by
  unfold loadStep
  try dsimp only
  with_reducible repeat' (
    first | assumption | intro _ | apply follows_each | apply follows_busySteps | apply follows_loadOne)

theorem follows_execLoadAcc {s₀ : State} {t : TileId} {s : State} (h_s : Follows s₀ s) :
    FollowsNext s₀ (execLoadAcc t s) := by
  unfold execLoadAcc
  try dsimp only
  apply followsNext
  with_reducible repeat' (
    first | assumption | intro _ | apply follows_progress | apply follows_runSteps | apply follows_executed
          | apply follows_loadStep | simp only [follows_upd] | apply follows_ite | split)

theorem follows_execOperandArrival {s₀ : State} {t : TileId} {s : State} (h_s : Follows s₀ s) :
    FollowsNext s₀ (execOperandArrival t s) := by
  unfold execOperandArrival
  try dsimp only
  apply followsNext
  with_reducible repeat' (
    first | assumption | intro _ | apply follows_setAct | apply follows_countSteps | apply follows_drawn
          | simp only [follows_upd] | apply follows_ite)

theorem follows_execBufferWritePort {s₀ : State} {t : TileId} {s : State} (h_s : Follows s₀ s) :
    FollowsNext s₀ (execBufferWritePort t s) := by
  unfold execBufferWritePort
  try dsimp only
  apply followsNext
  with_reducible repeat' (
    first | assumption | intro _ | apply follows_engFault | apply follows_access | simp only [follows_upd]
          | apply follows_ite | split)

theorem follows_execScrupleCheck {s₀ : State} {t : TileId} {flaws : List (Nat × Nat × Nat)} {s : State} (h_s : Follows s₀ s) :
    FollowsNext s₀ (execScrupleCheck t flaws s) := by
  unfold execScrupleCheck
  try dsimp only
  apply followsNext
  with_reducible repeat' (first | assumption | intro _ | apply follows_scrupleCheck)

end Sys2Proof.Machine
end

