-- ==== Sys2Proof/Laws/FollowsTick.lean ====
section
/-! SUPPORT. `Follows` is kept by the operations of Machine/Tick.lean. -/

namespace Sys2Proof.Machine

theorem follows_idleTick {s₀ : State} {s : State} (h_s : Follows s₀ s) :
    Follows s₀ (idleTick s) := by
  unfold idleTick
  try dsimp only
  with_reducible repeat' (
    first | assumption | intro _ | apply follows_installTry | apply follows_jscanTry
          | apply follows_compatTick | apply follows_gbResume | apply follows_tickTime)

end Sys2Proof.Machine
end

