-- ==== Sys2Proof/Laws/FollowsUfsDone.lean ====
section
/-! SUPPORT. `Follows` is kept by the operations of Machine/UfsDone.lean. -/

namespace Sys2Proof.Machine

theorem follows_ufsUser {s₀ : State} {s : State} {u : UfsUser} {ok : Bool} {data : List Byte} (h_s : Follows s₀ s) :
    Follows s₀ (ufsUser s u ok data) := by
  unfold ufsUser
  try dsimp only
  with_reducible repeat' (
    first | assumption | intro _ | apply follows_dirDone | apply follows_imageDone | apply follows_logDone
          | apply follows_licenceDone | apply follows_ageDone | apply follows_sdDone | apply follows_flashDone
          | apply follows_restorePart | apply follows_refillDone | apply follows_report
          | apply follows_sdWritten | simp only [follows_upd] | apply follows_ite | split)

theorem follows_execUfsCommandCompletion {s₀ : State} {k : Fin 32} {ok : Bool} {data : List Byte} {s : State} (h_s : Follows s₀ s) :
    FollowsNext s₀ (execUfsCommandCompletion k ok data s) := by
  unfold execUfsCommandCompletion
  try dsimp only
  apply followsNext
  with_reducible repeat' (
    first | assumption | apply follows_report | apply follows_incWrap | apply follows_incSat | apply follows_setUfs
          | apply follows_ufsIssue | apply follows_ufsUser | simp only [follows_upd] | apply follows_ite | split)

end Sys2Proof.Machine
end

