-- ==== Sys2Proof/Laws/RegWrite.lean ====
section
/-! SUPPORT. The pages that register addresses lie in, and what an access that passes its checks comes to. -/

namespace Sys2Proof.Machine

theorem tileReg_base (t k off : Nat) : regBase ≤ tileReg t k off := by unfold tileReg; omega
theorem devReg_base (d off : Nat) : regBase ≤ devReg d off := by unfold devReg; omega
theorem clusterReg_base (c off : Nat) : regBase ≤ clusterReg c off := by unfold clusterReg; omega

theorem pageAt_tileReg {t k off : Nat} (ho : off < 0x1000) : pageAt (tileReg t k off) = t * 32 + k := by
  unfold pageAt tileReg; omega

theorem offAt_tileReg {t k off : Nat} (ho : off < 0x1000) : offAt (tileReg t k off) = off := by
  unfold offAt tileReg; omega

theorem pageAt_devReg {d off : Nat} (ho : off < 0x1000) : pageAt (devReg d off) = 0x40000 + d := by
  unfold pageAt devReg; omega

theorem offAt_devReg {d off : Nat} (ho : off < 0x1000) : offAt (devReg d off) = off := by
  unfold offAt devReg; omega

theorem pageAt_clusterReg {c off : Nat} (ho : off < 0x1000) : pageAt (clusterReg c off) = 0x30000 + c := by
  unfold pageAt clusterReg; omega

theorem offAt_clusterReg {c off : Nat} (ho : off < 0x1000) : offAt (clusterReg c off) = off := by
  unfold offAt clusterReg; omega

theorem decodePage_tile {t k : Nat} (ht : t < 4608) (hk : k < 32) :
    decodePage (t * 32 + k) = (slotKind t k).map (fun x => (x, t)) := by
  have h1 : t * 32 + k < 4608 * 32 := by omega
  have h2 : (t * 32 + k) / 32 = t := by omega
  have h3 : (t * 32 + k) % 32 = k := by omega
  simp only [decodePage, h1, h2, h3, if_true]

theorem decodePage_cluster {c : Nat} (hc : c < 288) : decodePage (0x30000 + c) = some (.cluster, c) := by
  have h1 : ¬(0x30000 + c < 4608 * 32) := by omega
  have h2 : (0x30000 ≤ 0x30000 + c ∧ 0x30000 + c < 0x30000 + 288) := by omega
  simp only [decodePage, h1, if_false, Bool.and_eq_true, decide_eq_true_eq, h2, if_true, and_self, Nat.add_sub_cancel_left]

theorem decodePage_port {p : Nat} (hp : p < 14) : decodePage (0x40000 + (0x10 + p)) = some (.port, p) := by
  have h : ∀ q : Fin 14, decodePage (0x40000 + (0x10 + q.val)) = some (.port, q.val) := by decide
  exact h ⟨p, hp⟩

theorem decodePage_memctl {c : Nat} (hc : c < 24) : decodePage (0x40000 + (0x20 + c)) = some (.memctl, c) := by
  have h : ∀ q : Fin 24, decodePage (0x40000 + (0x20 + q.val)) = some (.memctl, q.val) := by decide
  exact h ⟨c, hc⟩

theorem pageHit_of {addr : Nat} {x : PageKind × Nat} (hb : regBase ≤ addr) (hp : decodePage (pageAt addr) = some x) :
    pageHit addr = some x := (if_pos hb).trans hp

theorem writeWakes_awake {s : State} {p : Nat} (h : pageAwake s p = true) : writeWakes s p = s :=
  if_neg (fun g => by unfold pageAwake at h; rw [g] at h; exact absurd h (by decide))

/-- A write that passes its checks has the effect of its register. -/
theorem regWrite_ok {s : State} {a : Agent} {addr : Nat} {v : W64} {k : PageKind} {i j : Nat} {r : RegDesc}
    (h : writeOk s a addr v = true) (hp : pageHit addr = some (k, i))
    (hr : findReg (pageRegs k i) (offAt addr) = some (r, j)) :
    regWrite s a addr v = (.ok, typedWrite s a k i (pageAt addr) (offAt addr) (regKey s k addr (offAt addr)) r v) := by
  unfold writeOk at h
  rw [hp, Option.any_some] at h
  unfold writeOkIn regTakes at h
  rw [hr, Option.any_some] at h
  simp only [Bool.and_eq_true, Bool.not_eq_true', beq_iff_eq, bne_iff_ne, ne_eq] at h
  obtain ⟨⟨h8, hw⟩, ⟨⟨hd, hf⟩, hh⟩, ⟨⟨h1, h2⟩, h3⟩, h4⟩ := h
  have hg : (r.acc == Acc.rwg && !guardOk v) = false := by
    cases ha : r.acc <;> simp_all
  have hro : (r.acc == Acc.ro || r.acc == Acc.rs || v.toNat &&& r.reserved != 0) = false := by simp [h1, h2, h3]
  unfold regWrite
  rw [hp]
  unfold regWriteAt
  dsimp only
  unfold regWriteIn
  rw [h8, hd, hr, writeWakes_awake hw]
  unfold regWriteReg
  dsimp only
  simp only [hro, hg, hf, hh, bne_self_eq_false, Bool.or_self, Bool.false_eq_true, if_false]

/-- The same of the write in a command. -/
theorem writeBy_ok {s : State} {a : Agent} {addr : Nat} {v : W64} {k : PageKind} {i j : Nat} {r : RegDesc}
    (h : writeOk s a addr v = true) (hp : pageHit addr = some (k, i))
    (hr : findReg (pageRegs k i) (offAt addr) = some (r, j)) :
    writeBy s a addr v = typedWrite s a k i (pageAt addr) (offAt addr) (regKey s k addr (offAt addr)) r v := by
  unfold writeBy
  simp only [regWrite_ok h hp hr, BEq.rfl, Bool.true_or, if_true]

/-- A read that passes its checks answers the register's view, and has the effects of a read. -/
theorem regRead_ok {s : State} {a : Agent} {addr : Nat} {k : PageKind} {i j : Nat} {r : RegDesc}
    (h : readOk s a addr = true) (hp : pageHit addr = some (k, i))
    (hr : findReg (pageRegs k i) (offAt addr) = some (r, j)) :
    regRead s a addr = (.ok, regView (readFirst s k (offAt addr)) k i (offAt addr) (regKey (readFirst s k (offAt addr)) k addr (offAt addr)),
      readEffect (readFirst s k (offAt addr)) k i (offAt addr)) := by
  unfold readOk at h
  rw [hp, Option.any_some] at h
  unfold readOkIn at h
  rw [hr, Option.any_some] at h
  simp only [Bool.and_eq_true, Bool.not_eq_true', beq_iff_eq, bne_iff_ne, ne_eq] at h
  obtain ⟨⟨h8, ho⟩, hd, h1⟩ := h
  have hwo : (r.acc == Acc.wo) = false := by simp [h1]
  unfold regRead
  rw [hp]
  unfold regReadAt
  dsimp only
  unfold regReadIn
  rw [h8, hd, hr]
  unfold regReadReg
  dsimp only
  rw [hwo, if_neg (show ¬((0 != 0) = true) by decide), if_neg (show ¬(false = true) by decide), if_neg (show ¬(false = true) by decide),
    if_neg ho]

end Sys2Proof.Machine
end

