-- ==== Sys2Proof/Laws/State.lean ====
section
/-! SUPPORT. One lemma for each field of State after each of the primitive updates, true by definition: no later proof unfolds
a record update. Then what the registers, memory and the maps of the units read after an update. -/

namespace Sys2Proof.Machine

/-- A state's registers alone decide what a register reads. -/
theorem rd_congr {s t : State} (h : s.regs = t.regs) (a : Nat) : rd s a = rd t a := by unfold rd; rw [h]
/-- A state's bytes and fills alone decide what a byte reads. -/
theorem readByte_congr {s t : State} (h : s.mem = t.mem) (hf : s.fills = t.fills) (a : Nat) : readByte s a = readByte t a := by
  unfold readByte; rw [h, hf]

/-! ### `wr` changes `regs` alone -/

@[simp] theorem wr_pending (s : State) (a : Nat) (v : W64) : (wr s a v).pending = s.pending := by rw [wr]
@[simp] theorem wr_free (s : State) (a : Nat) (v : W64) : (wr s a v).free = s.free := by rw [wr]
@[simp] theorem wr_mem (s : State) (a : Nat) (v : W64) : (wr s a v).mem = s.mem := by rw [wr]
@[simp] theorem wr_fills (s : State) (a : Nat) (v : W64) : (wr s a v).fills = s.fills := by rw [wr]
@[simp] theorem wr_chk (s : State) (a : Nat) (v : W64) : (wr s a v).chk = s.chk := by rw [wr]
@[simp] theorem wr_limits (s : State) (a : Nat) (v : W64) : (wr s a v).limits = s.limits := by rw [wr]
@[simp] theorem wr_time (s : State) (a : Nat) (v : W64) : (wr s a v).time = s.time := by rw [wr]
@[simp] theorem wr_log (s : State) (a : Nat) (v : W64) : (wr s a v).log = s.log := by rw [wr]
@[simp] theorem wr_irq (s : State) (a : Nat) (v : W64) : (wr s a v).irq = s.irq := by rw [wr]
@[simp] theorem wr_net (s : State) (a : Nat) (v : W64) : (wr s a v).net = s.net := by rw [wr]
@[simp] theorem wr_q (s : State) (a : Nat) (v : W64) : (wr s a v).q = s.q := by rw [wr]
@[simp] theorem wr_flow (s : State) (a : Nat) (v : W64) : (wr s a v).flow = s.flow := by rw [wr]
@[simp] theorem wr_pad (s : State) (a : Nat) (v : W64) : (wr s a v).pad = s.pad := by rw [wr]
@[simp] theorem wr_fabric (s : State) (a : Nat) (v : W64) : (wr s a v).fabric = s.fabric := by rw [wr]
@[simp] theorem wr_dram (s : State) (a : Nat) (v : W64) : (wr s a v).dram = s.dram := by rw [wr]
@[simp] theorem wr_gorbin (s : State) (a : Nat) (v : W64) : (wr s a v).gorbin = s.gorbin := by rw [wr]
@[simp] theorem wr_commit (s : State) (a : Nat) (v : W64) : (wr s a v).commit = s.commit := by rw [wr]
@[simp] theorem wr_recov (s : State) (a : Nat) (v : W64) : (wr s a v).recov = s.recov := by rw [wr]
@[simp] theorem wr_ufs (s : State) (a : Nat) (v : W64) : (wr s a v).ufs = s.ufs := by rw [wr]
@[simp] theorem wr_ckpt (s : State) (a : Nat) (v : W64) : (wr s a v).ckpt = s.ckpt := by rw [wr]
@[simp] theorem wr_boot (s : State) (a : Nat) (v : W64) : (wr s a v).boot = s.boot := by rw [wr]
@[simp] theorem wr_yew (s : State) (a : Nat) (v : W64) : (wr s a v).yew = s.yew := by rw [wr]
@[simp] theorem wr_power (s : State) (a : Nat) (v : W64) : (wr s a v).power = s.power := by rw [wr]
@[simp] theorem wr_sec (s : State) (a : Nat) (v : W64) : (wr s a v).sec = s.sec := by rw [wr]
@[simp] theorem wr_module (s : State) (a : Nat) (v : W64) : (wr s a v).module = s.module := by rw [wr]
@[simp] theorem wr_out (s : State) (a : Nat) (v : W64) : (wr s a v).out = s.out := by rw [wr]
@[simp] theorem readByte_wr (s : State) (a : Nat) (v : W64) (c : Nat) : readByte (wr s a v) c = readByte s c := readByte_congr (wr_mem s a v) (wr_fills s a v) c

/-! ### `clearRegs` changes `regs` alone -/

@[simp] theorem clearRegs_pending (s : State) (lo hi : Nat) : (clearRegs s lo hi).pending = s.pending := by rw [clearRegs]
@[simp] theorem clearRegs_free (s : State) (lo hi : Nat) : (clearRegs s lo hi).free = s.free := by rw [clearRegs]
@[simp] theorem clearRegs_mem (s : State) (lo hi : Nat) : (clearRegs s lo hi).mem = s.mem := by rw [clearRegs]
@[simp] theorem clearRegs_fills (s : State) (lo hi : Nat) : (clearRegs s lo hi).fills = s.fills := by rw [clearRegs]
@[simp] theorem clearRegs_chk (s : State) (lo hi : Nat) : (clearRegs s lo hi).chk = s.chk := by rw [clearRegs]
@[simp] theorem clearRegs_limits (s : State) (lo hi : Nat) : (clearRegs s lo hi).limits = s.limits := by rw [clearRegs]
@[simp] theorem clearRegs_time (s : State) (lo hi : Nat) : (clearRegs s lo hi).time = s.time := by rw [clearRegs]
@[simp] theorem clearRegs_log (s : State) (lo hi : Nat) : (clearRegs s lo hi).log = s.log := by rw [clearRegs]
@[simp] theorem clearRegs_irq (s : State) (lo hi : Nat) : (clearRegs s lo hi).irq = s.irq := by rw [clearRegs]
@[simp] theorem clearRegs_net (s : State) (lo hi : Nat) : (clearRegs s lo hi).net = s.net := by rw [clearRegs]
@[simp] theorem clearRegs_q (s : State) (lo hi : Nat) : (clearRegs s lo hi).q = s.q := by rw [clearRegs]
@[simp] theorem clearRegs_flow (s : State) (lo hi : Nat) : (clearRegs s lo hi).flow = s.flow := by rw [clearRegs]
@[simp] theorem clearRegs_pad (s : State) (lo hi : Nat) : (clearRegs s lo hi).pad = s.pad := by rw [clearRegs]
@[simp] theorem clearRegs_fabric (s : State) (lo hi : Nat) : (clearRegs s lo hi).fabric = s.fabric := by rw [clearRegs]
@[simp] theorem clearRegs_dram (s : State) (lo hi : Nat) : (clearRegs s lo hi).dram = s.dram := by rw [clearRegs]
@[simp] theorem clearRegs_gorbin (s : State) (lo hi : Nat) : (clearRegs s lo hi).gorbin = s.gorbin := by rw [clearRegs]
@[simp] theorem clearRegs_commit (s : State) (lo hi : Nat) : (clearRegs s lo hi).commit = s.commit := by rw [clearRegs]
@[simp] theorem clearRegs_recov (s : State) (lo hi : Nat) : (clearRegs s lo hi).recov = s.recov := by rw [clearRegs]
@[simp] theorem clearRegs_ufs (s : State) (lo hi : Nat) : (clearRegs s lo hi).ufs = s.ufs := by rw [clearRegs]
@[simp] theorem clearRegs_ckpt (s : State) (lo hi : Nat) : (clearRegs s lo hi).ckpt = s.ckpt := by rw [clearRegs]
@[simp] theorem clearRegs_boot (s : State) (lo hi : Nat) : (clearRegs s lo hi).boot = s.boot := by rw [clearRegs]
@[simp] theorem clearRegs_yew (s : State) (lo hi : Nat) : (clearRegs s lo hi).yew = s.yew := by rw [clearRegs]
@[simp] theorem clearRegs_power (s : State) (lo hi : Nat) : (clearRegs s lo hi).power = s.power := by rw [clearRegs]
@[simp] theorem clearRegs_sec (s : State) (lo hi : Nat) : (clearRegs s lo hi).sec = s.sec := by rw [clearRegs]
@[simp] theorem clearRegs_module (s : State) (lo hi : Nat) : (clearRegs s lo hi).module = s.module := by rw [clearRegs]
@[simp] theorem clearRegs_out (s : State) (lo hi : Nat) : (clearRegs s lo hi).out = s.out := by rw [clearRegs]
@[simp] theorem readByte_clearRegs (s : State) (lo hi : Nat) (c : Nat) : readByte (clearRegs s lo hi) c = readByte s c := readByte_congr (clearRegs_mem s lo hi) (clearRegs_fills s lo hi) c

/-! ### `drawn` changes `free` alone -/

@[simp] theorem drawn_pending (s : State) : (drawn s).pending = s.pending := by rw [drawn]
@[simp] theorem drawn_regs (s : State) : (drawn s).regs = s.regs := by rw [drawn]
@[simp] theorem drawn_mem (s : State) : (drawn s).mem = s.mem := by rw [drawn]
@[simp] theorem drawn_fills (s : State) : (drawn s).fills = s.fills := by rw [drawn]
@[simp] theorem drawn_chk (s : State) : (drawn s).chk = s.chk := by rw [drawn]
@[simp] theorem drawn_limits (s : State) : (drawn s).limits = s.limits := by rw [drawn]
@[simp] theorem drawn_time (s : State) : (drawn s).time = s.time := by rw [drawn]
@[simp] theorem drawn_log (s : State) : (drawn s).log = s.log := by rw [drawn]
@[simp] theorem drawn_irq (s : State) : (drawn s).irq = s.irq := by rw [drawn]
@[simp] theorem drawn_net (s : State) : (drawn s).net = s.net := by rw [drawn]
@[simp] theorem drawn_q (s : State) : (drawn s).q = s.q := by rw [drawn]
@[simp] theorem drawn_flow (s : State) : (drawn s).flow = s.flow := by rw [drawn]
@[simp] theorem drawn_pad (s : State) : (drawn s).pad = s.pad := by rw [drawn]
@[simp] theorem drawn_fabric (s : State) : (drawn s).fabric = s.fabric := by rw [drawn]
@[simp] theorem drawn_dram (s : State) : (drawn s).dram = s.dram := by rw [drawn]
@[simp] theorem drawn_gorbin (s : State) : (drawn s).gorbin = s.gorbin := by rw [drawn]
@[simp] theorem drawn_commit (s : State) : (drawn s).commit = s.commit := by rw [drawn]
@[simp] theorem drawn_recov (s : State) : (drawn s).recov = s.recov := by rw [drawn]
@[simp] theorem drawn_ufs (s : State) : (drawn s).ufs = s.ufs := by rw [drawn]
@[simp] theorem drawn_ckpt (s : State) : (drawn s).ckpt = s.ckpt := by rw [drawn]
@[simp] theorem drawn_boot (s : State) : (drawn s).boot = s.boot := by rw [drawn]
@[simp] theorem drawn_yew (s : State) : (drawn s).yew = s.yew := by rw [drawn]
@[simp] theorem drawn_power (s : State) : (drawn s).power = s.power := by rw [drawn]
@[simp] theorem drawn_sec (s : State) : (drawn s).sec = s.sec := by rw [drawn]
@[simp] theorem drawn_module (s : State) : (drawn s).module = s.module := by rw [drawn]
@[simp] theorem drawn_out (s : State) : (drawn s).out = s.out := by rw [drawn]
@[simp] theorem rd_drawn (s : State) (k : Nat) : rd (drawn s) k = rd s k := rd_congr (drawn_regs s) k
@[simp] theorem readByte_drawn (s : State) (c : Nat) : readByte (drawn s) c = readByte s c := readByte_congr (drawn_mem s) (drawn_fills s) c

/-! ### `writeByte` changes `mem` alone -/

@[simp] theorem writeByte_pending (s : State) (a : Nat) (b : Byte) : (writeByte s a b).pending = s.pending := by rw [writeByte]
@[simp] theorem writeByte_free (s : State) (a : Nat) (b : Byte) : (writeByte s a b).free = s.free := by rw [writeByte]
@[simp] theorem writeByte_regs (s : State) (a : Nat) (b : Byte) : (writeByte s a b).regs = s.regs := by rw [writeByte]
@[simp] theorem writeByte_fills (s : State) (a : Nat) (b : Byte) : (writeByte s a b).fills = s.fills := by rw [writeByte]
@[simp] theorem writeByte_chk (s : State) (a : Nat) (b : Byte) : (writeByte s a b).chk = s.chk := by rw [writeByte]
@[simp] theorem writeByte_limits (s : State) (a : Nat) (b : Byte) : (writeByte s a b).limits = s.limits := by rw [writeByte]
@[simp] theorem writeByte_time (s : State) (a : Nat) (b : Byte) : (writeByte s a b).time = s.time := by rw [writeByte]
@[simp] theorem writeByte_log (s : State) (a : Nat) (b : Byte) : (writeByte s a b).log = s.log := by rw [writeByte]
@[simp] theorem writeByte_irq (s : State) (a : Nat) (b : Byte) : (writeByte s a b).irq = s.irq := by rw [writeByte]
@[simp] theorem writeByte_net (s : State) (a : Nat) (b : Byte) : (writeByte s a b).net = s.net := by rw [writeByte]
@[simp] theorem writeByte_q (s : State) (a : Nat) (b : Byte) : (writeByte s a b).q = s.q := by rw [writeByte]
@[simp] theorem writeByte_flow (s : State) (a : Nat) (b : Byte) : (writeByte s a b).flow = s.flow := by rw [writeByte]
@[simp] theorem writeByte_pad (s : State) (a : Nat) (b : Byte) : (writeByte s a b).pad = s.pad := by rw [writeByte]
@[simp] theorem writeByte_fabric (s : State) (a : Nat) (b : Byte) : (writeByte s a b).fabric = s.fabric := by rw [writeByte]
@[simp] theorem writeByte_dram (s : State) (a : Nat) (b : Byte) : (writeByte s a b).dram = s.dram := by rw [writeByte]
@[simp] theorem writeByte_gorbin (s : State) (a : Nat) (b : Byte) : (writeByte s a b).gorbin = s.gorbin := by rw [writeByte]
@[simp] theorem writeByte_commit (s : State) (a : Nat) (b : Byte) : (writeByte s a b).commit = s.commit := by rw [writeByte]
@[simp] theorem writeByte_recov (s : State) (a : Nat) (b : Byte) : (writeByte s a b).recov = s.recov := by rw [writeByte]
@[simp] theorem writeByte_ufs (s : State) (a : Nat) (b : Byte) : (writeByte s a b).ufs = s.ufs := by rw [writeByte]
@[simp] theorem writeByte_ckpt (s : State) (a : Nat) (b : Byte) : (writeByte s a b).ckpt = s.ckpt := by rw [writeByte]
@[simp] theorem writeByte_boot (s : State) (a : Nat) (b : Byte) : (writeByte s a b).boot = s.boot := by rw [writeByte]
@[simp] theorem writeByte_yew (s : State) (a : Nat) (b : Byte) : (writeByte s a b).yew = s.yew := by rw [writeByte]
@[simp] theorem writeByte_power (s : State) (a : Nat) (b : Byte) : (writeByte s a b).power = s.power := by rw [writeByte]
@[simp] theorem writeByte_sec (s : State) (a : Nat) (b : Byte) : (writeByte s a b).sec = s.sec := by rw [writeByte]
@[simp] theorem writeByte_module (s : State) (a : Nat) (b : Byte) : (writeByte s a b).module = s.module := by rw [writeByte]
@[simp] theorem writeByte_out (s : State) (a : Nat) (b : Byte) : (writeByte s a b).out = s.out := by rw [writeByte]
@[simp] theorem rd_writeByte (s : State) (a : Nat) (b : Byte) (k : Nat) : rd (writeByte s a b) k = rd s k := rd_congr (writeByte_regs s a b) k

/-! ### `setChk` changes `chk` alone -/

@[simp] theorem setChk_pending (s : State) (a v : Nat) : (setChk s a v).pending = s.pending := by rw [setChk]
@[simp] theorem setChk_free (s : State) (a v : Nat) : (setChk s a v).free = s.free := by rw [setChk]
@[simp] theorem setChk_regs (s : State) (a v : Nat) : (setChk s a v).regs = s.regs := by rw [setChk]
@[simp] theorem setChk_mem (s : State) (a v : Nat) : (setChk s a v).mem = s.mem := by rw [setChk]
@[simp] theorem setChk_fills (s : State) (a v : Nat) : (setChk s a v).fills = s.fills := by rw [setChk]
@[simp] theorem setChk_limits (s : State) (a v : Nat) : (setChk s a v).limits = s.limits := by rw [setChk]
@[simp] theorem setChk_time (s : State) (a v : Nat) : (setChk s a v).time = s.time := by rw [setChk]
@[simp] theorem setChk_log (s : State) (a v : Nat) : (setChk s a v).log = s.log := by rw [setChk]
@[simp] theorem setChk_irq (s : State) (a v : Nat) : (setChk s a v).irq = s.irq := by rw [setChk]
@[simp] theorem setChk_net (s : State) (a v : Nat) : (setChk s a v).net = s.net := by rw [setChk]
@[simp] theorem setChk_q (s : State) (a v : Nat) : (setChk s a v).q = s.q := by rw [setChk]
@[simp] theorem setChk_flow (s : State) (a v : Nat) : (setChk s a v).flow = s.flow := by rw [setChk]
@[simp] theorem setChk_pad (s : State) (a v : Nat) : (setChk s a v).pad = s.pad := by rw [setChk]
@[simp] theorem setChk_fabric (s : State) (a v : Nat) : (setChk s a v).fabric = s.fabric := by rw [setChk]
@[simp] theorem setChk_dram (s : State) (a v : Nat) : (setChk s a v).dram = s.dram := by rw [setChk]
@[simp] theorem setChk_gorbin (s : State) (a v : Nat) : (setChk s a v).gorbin = s.gorbin := by rw [setChk]
@[simp] theorem setChk_commit (s : State) (a v : Nat) : (setChk s a v).commit = s.commit := by rw [setChk]
@[simp] theorem setChk_recov (s : State) (a v : Nat) : (setChk s a v).recov = s.recov := by rw [setChk]
@[simp] theorem setChk_ufs (s : State) (a v : Nat) : (setChk s a v).ufs = s.ufs := by rw [setChk]
@[simp] theorem setChk_ckpt (s : State) (a v : Nat) : (setChk s a v).ckpt = s.ckpt := by rw [setChk]
@[simp] theorem setChk_boot (s : State) (a v : Nat) : (setChk s a v).boot = s.boot := by rw [setChk]
@[simp] theorem setChk_yew (s : State) (a v : Nat) : (setChk s a v).yew = s.yew := by rw [setChk]
@[simp] theorem setChk_power (s : State) (a v : Nat) : (setChk s a v).power = s.power := by rw [setChk]
@[simp] theorem setChk_sec (s : State) (a v : Nat) : (setChk s a v).sec = s.sec := by rw [setChk]
@[simp] theorem setChk_module (s : State) (a v : Nat) : (setChk s a v).module = s.module := by rw [setChk]
@[simp] theorem setChk_out (s : State) (a v : Nat) : (setChk s a v).out = s.out := by rw [setChk]
@[simp] theorem rd_setChk (s : State) (a v : Nat) (k : Nat) : rd (setChk s a v) k = rd s k := rd_congr (setChk_regs s a v) k
@[simp] theorem readByte_setChk (s : State) (a v : Nat) (c : Nat) : readByte (setChk s a v) c = readByte s c := readByte_congr (setChk_mem s a v) (setChk_fills s a v) c

/-! ### `emit` changes `out` alone -/

@[simp] theorem emit_pending (s : State) (o : Out) : (emit s o).pending = s.pending := by rw [emit]
@[simp] theorem emit_free (s : State) (o : Out) : (emit s o).free = s.free := by rw [emit]
@[simp] theorem emit_regs (s : State) (o : Out) : (emit s o).regs = s.regs := by rw [emit]
@[simp] theorem emit_mem (s : State) (o : Out) : (emit s o).mem = s.mem := by rw [emit]
@[simp] theorem emit_fills (s : State) (o : Out) : (emit s o).fills = s.fills := by rw [emit]
@[simp] theorem emit_chk (s : State) (o : Out) : (emit s o).chk = s.chk := by rw [emit]
@[simp] theorem emit_limits (s : State) (o : Out) : (emit s o).limits = s.limits := by rw [emit]
@[simp] theorem emit_time (s : State) (o : Out) : (emit s o).time = s.time := by rw [emit]
@[simp] theorem emit_log (s : State) (o : Out) : (emit s o).log = s.log := by rw [emit]
@[simp] theorem emit_irq (s : State) (o : Out) : (emit s o).irq = s.irq := by rw [emit]
@[simp] theorem emit_net (s : State) (o : Out) : (emit s o).net = s.net := by rw [emit]
@[simp] theorem emit_q (s : State) (o : Out) : (emit s o).q = s.q := by rw [emit]
@[simp] theorem emit_flow (s : State) (o : Out) : (emit s o).flow = s.flow := by rw [emit]
@[simp] theorem emit_pad (s : State) (o : Out) : (emit s o).pad = s.pad := by rw [emit]
@[simp] theorem emit_fabric (s : State) (o : Out) : (emit s o).fabric = s.fabric := by rw [emit]
@[simp] theorem emit_dram (s : State) (o : Out) : (emit s o).dram = s.dram := by rw [emit]
@[simp] theorem emit_gorbin (s : State) (o : Out) : (emit s o).gorbin = s.gorbin := by rw [emit]
@[simp] theorem emit_commit (s : State) (o : Out) : (emit s o).commit = s.commit := by rw [emit]
@[simp] theorem emit_recov (s : State) (o : Out) : (emit s o).recov = s.recov := by rw [emit]
@[simp] theorem emit_ufs (s : State) (o : Out) : (emit s o).ufs = s.ufs := by rw [emit]
@[simp] theorem emit_ckpt (s : State) (o : Out) : (emit s o).ckpt = s.ckpt := by rw [emit]
@[simp] theorem emit_boot (s : State) (o : Out) : (emit s o).boot = s.boot := by rw [emit]
@[simp] theorem emit_yew (s : State) (o : Out) : (emit s o).yew = s.yew := by rw [emit]
@[simp] theorem emit_power (s : State) (o : Out) : (emit s o).power = s.power := by rw [emit]
@[simp] theorem emit_sec (s : State) (o : Out) : (emit s o).sec = s.sec := by rw [emit]
@[simp] theorem emit_module (s : State) (o : Out) : (emit s o).module = s.module := by rw [emit]
@[simp] theorem rd_emit (s : State) (o : Out) (k : Nat) : rd (emit s o) k = rd s k := rd_congr (emit_regs s o) k
@[simp] theorem readByte_emit (s : State) (o : Out) (c : Nat) : readByte (emit s o) c = readByte s c := readByte_congr (emit_mem s o) (emit_fills s o) c

/-! ### `setSlotFlags` changes `pad` alone -/

@[simp] theorem setSlotFlags_pending (s : State) (t r v : Nat) : (setSlotFlags s t r v).pending = s.pending := by rw [setSlotFlags]
@[simp] theorem setSlotFlags_free (s : State) (t r v : Nat) : (setSlotFlags s t r v).free = s.free := by rw [setSlotFlags]
@[simp] theorem setSlotFlags_regs (s : State) (t r v : Nat) : (setSlotFlags s t r v).regs = s.regs := by rw [setSlotFlags]
@[simp] theorem setSlotFlags_mem (s : State) (t r v : Nat) : (setSlotFlags s t r v).mem = s.mem := by rw [setSlotFlags]
@[simp] theorem setSlotFlags_fills (s : State) (t r v : Nat) : (setSlotFlags s t r v).fills = s.fills := by rw [setSlotFlags]
@[simp] theorem setSlotFlags_chk (s : State) (t r v : Nat) : (setSlotFlags s t r v).chk = s.chk := by rw [setSlotFlags]
@[simp] theorem setSlotFlags_limits (s : State) (t r v : Nat) : (setSlotFlags s t r v).limits = s.limits := by rw [setSlotFlags]
@[simp] theorem setSlotFlags_time (s : State) (t r v : Nat) : (setSlotFlags s t r v).time = s.time := by rw [setSlotFlags]
@[simp] theorem setSlotFlags_log (s : State) (t r v : Nat) : (setSlotFlags s t r v).log = s.log := by rw [setSlotFlags]
@[simp] theorem setSlotFlags_irq (s : State) (t r v : Nat) : (setSlotFlags s t r v).irq = s.irq := by rw [setSlotFlags]
@[simp] theorem setSlotFlags_net (s : State) (t r v : Nat) : (setSlotFlags s t r v).net = s.net := by rw [setSlotFlags]
@[simp] theorem setSlotFlags_q (s : State) (t r v : Nat) : (setSlotFlags s t r v).q = s.q := by rw [setSlotFlags]
@[simp] theorem setSlotFlags_flow (s : State) (t r v : Nat) : (setSlotFlags s t r v).flow = s.flow := by rw [setSlotFlags]
@[simp] theorem setSlotFlags_fabric (s : State) (t r v : Nat) : (setSlotFlags s t r v).fabric = s.fabric := by rw [setSlotFlags]
@[simp] theorem setSlotFlags_dram (s : State) (t r v : Nat) : (setSlotFlags s t r v).dram = s.dram := by rw [setSlotFlags]
@[simp] theorem setSlotFlags_gorbin (s : State) (t r v : Nat) : (setSlotFlags s t r v).gorbin = s.gorbin := by rw [setSlotFlags]
@[simp] theorem setSlotFlags_commit (s : State) (t r v : Nat) : (setSlotFlags s t r v).commit = s.commit := by rw [setSlotFlags]
@[simp] theorem setSlotFlags_recov (s : State) (t r v : Nat) : (setSlotFlags s t r v).recov = s.recov := by rw [setSlotFlags]
@[simp] theorem setSlotFlags_ufs (s : State) (t r v : Nat) : (setSlotFlags s t r v).ufs = s.ufs := by rw [setSlotFlags]
@[simp] theorem setSlotFlags_ckpt (s : State) (t r v : Nat) : (setSlotFlags s t r v).ckpt = s.ckpt := by rw [setSlotFlags]
@[simp] theorem setSlotFlags_boot (s : State) (t r v : Nat) : (setSlotFlags s t r v).boot = s.boot := by rw [setSlotFlags]
@[simp] theorem setSlotFlags_yew (s : State) (t r v : Nat) : (setSlotFlags s t r v).yew = s.yew := by rw [setSlotFlags]
@[simp] theorem setSlotFlags_power (s : State) (t r v : Nat) : (setSlotFlags s t r v).power = s.power := by rw [setSlotFlags]
@[simp] theorem setSlotFlags_sec (s : State) (t r v : Nat) : (setSlotFlags s t r v).sec = s.sec := by rw [setSlotFlags]
@[simp] theorem setSlotFlags_module (s : State) (t r v : Nat) : (setSlotFlags s t r v).module = s.module := by rw [setSlotFlags]
@[simp] theorem setSlotFlags_out (s : State) (t r v : Nat) : (setSlotFlags s t r v).out = s.out := by rw [setSlotFlags]
@[simp] theorem rd_setSlotFlags (s : State) (t r v : Nat) (k : Nat) : rd (setSlotFlags s t r v) k = rd s k := rd_congr (setSlotFlags_regs s t r v) k
@[simp] theorem readByte_setSlotFlags (s : State) (t r v : Nat) (c : Nat) : readByte (setSlotFlags s t r v) c = readByte s c := readByte_congr (setSlotFlags_mem s t r v) (setSlotFlags_fills s t r v) c

/-! ### `setAct` changes `flow` alone -/

@[simp] theorem setAct_pending (s : State) (t : Nat) (a : Act) : (setAct s t a).pending = s.pending := by rw [setAct]
@[simp] theorem setAct_free (s : State) (t : Nat) (a : Act) : (setAct s t a).free = s.free := by rw [setAct]
@[simp] theorem setAct_regs (s : State) (t : Nat) (a : Act) : (setAct s t a).regs = s.regs := by rw [setAct]
@[simp] theorem setAct_mem (s : State) (t : Nat) (a : Act) : (setAct s t a).mem = s.mem := by rw [setAct]
@[simp] theorem setAct_fills (s : State) (t : Nat) (a : Act) : (setAct s t a).fills = s.fills := by rw [setAct]
@[simp] theorem setAct_chk (s : State) (t : Nat) (a : Act) : (setAct s t a).chk = s.chk := by rw [setAct]
@[simp] theorem setAct_limits (s : State) (t : Nat) (a : Act) : (setAct s t a).limits = s.limits := by rw [setAct]
@[simp] theorem setAct_time (s : State) (t : Nat) (a : Act) : (setAct s t a).time = s.time := by rw [setAct]
@[simp] theorem setAct_log (s : State) (t : Nat) (a : Act) : (setAct s t a).log = s.log := by rw [setAct]
@[simp] theorem setAct_irq (s : State) (t : Nat) (a : Act) : (setAct s t a).irq = s.irq := by rw [setAct]
@[simp] theorem setAct_net (s : State) (t : Nat) (a : Act) : (setAct s t a).net = s.net := by rw [setAct]
@[simp] theorem setAct_q (s : State) (t : Nat) (a : Act) : (setAct s t a).q = s.q := by rw [setAct]
@[simp] theorem setAct_pad (s : State) (t : Nat) (a : Act) : (setAct s t a).pad = s.pad := by rw [setAct]
@[simp] theorem setAct_fabric (s : State) (t : Nat) (a : Act) : (setAct s t a).fabric = s.fabric := by rw [setAct]
@[simp] theorem setAct_dram (s : State) (t : Nat) (a : Act) : (setAct s t a).dram = s.dram := by rw [setAct]
@[simp] theorem setAct_gorbin (s : State) (t : Nat) (a : Act) : (setAct s t a).gorbin = s.gorbin := by rw [setAct]
@[simp] theorem setAct_commit (s : State) (t : Nat) (a : Act) : (setAct s t a).commit = s.commit := by rw [setAct]
@[simp] theorem setAct_recov (s : State) (t : Nat) (a : Act) : (setAct s t a).recov = s.recov := by rw [setAct]
@[simp] theorem setAct_ufs (s : State) (t : Nat) (a : Act) : (setAct s t a).ufs = s.ufs := by rw [setAct]
@[simp] theorem setAct_ckpt (s : State) (t : Nat) (a : Act) : (setAct s t a).ckpt = s.ckpt := by rw [setAct]
@[simp] theorem setAct_boot (s : State) (t : Nat) (a : Act) : (setAct s t a).boot = s.boot := by rw [setAct]
@[simp] theorem setAct_yew (s : State) (t : Nat) (a : Act) : (setAct s t a).yew = s.yew := by rw [setAct]
@[simp] theorem setAct_power (s : State) (t : Nat) (a : Act) : (setAct s t a).power = s.power := by rw [setAct]
@[simp] theorem setAct_sec (s : State) (t : Nat) (a : Act) : (setAct s t a).sec = s.sec := by rw [setAct]
@[simp] theorem setAct_module (s : State) (t : Nat) (a : Act) : (setAct s t a).module = s.module := by rw [setAct]
@[simp] theorem setAct_out (s : State) (t : Nat) (a : Act) : (setAct s t a).out = s.out := by rw [setAct]
@[simp] theorem rd_setAct (s : State) (t : Nat) (a : Act) (k : Nat) : rd (setAct s t a) k = rd s k := rd_congr (setAct_regs s t a) k
@[simp] theorem readByte_setAct (s : State) (t : Nat) (a : Act) (c : Nat) : readByte (setAct s t a) c = readByte s c := readByte_congr (setAct_mem s t a) (setAct_fills s t a) c

/-! ### `setAccEntry` changes `flow` alone -/

@[simp] theorem setAccEntry_pending (s : State) (t i : Nat) (e : AccEntry) : (setAccEntry s t i e).pending = s.pending := by rw [setAccEntry]
@[simp] theorem setAccEntry_free (s : State) (t i : Nat) (e : AccEntry) : (setAccEntry s t i e).free = s.free := by rw [setAccEntry]
@[simp] theorem setAccEntry_regs (s : State) (t i : Nat) (e : AccEntry) : (setAccEntry s t i e).regs = s.regs := by rw [setAccEntry]
@[simp] theorem setAccEntry_mem (s : State) (t i : Nat) (e : AccEntry) : (setAccEntry s t i e).mem = s.mem := by rw [setAccEntry]
@[simp] theorem setAccEntry_fills (s : State) (t i : Nat) (e : AccEntry) : (setAccEntry s t i e).fills = s.fills := by rw [setAccEntry]
@[simp] theorem setAccEntry_chk (s : State) (t i : Nat) (e : AccEntry) : (setAccEntry s t i e).chk = s.chk := by rw [setAccEntry]
@[simp] theorem setAccEntry_limits (s : State) (t i : Nat) (e : AccEntry) : (setAccEntry s t i e).limits = s.limits := by rw [setAccEntry]
@[simp] theorem setAccEntry_time (s : State) (t i : Nat) (e : AccEntry) : (setAccEntry s t i e).time = s.time := by rw [setAccEntry]
@[simp] theorem setAccEntry_log (s : State) (t i : Nat) (e : AccEntry) : (setAccEntry s t i e).log = s.log := by rw [setAccEntry]
@[simp] theorem setAccEntry_irq (s : State) (t i : Nat) (e : AccEntry) : (setAccEntry s t i e).irq = s.irq := by rw [setAccEntry]
@[simp] theorem setAccEntry_net (s : State) (t i : Nat) (e : AccEntry) : (setAccEntry s t i e).net = s.net := by rw [setAccEntry]
@[simp] theorem setAccEntry_q (s : State) (t i : Nat) (e : AccEntry) : (setAccEntry s t i e).q = s.q := by rw [setAccEntry]
@[simp] theorem setAccEntry_pad (s : State) (t i : Nat) (e : AccEntry) : (setAccEntry s t i e).pad = s.pad := by rw [setAccEntry]
@[simp] theorem setAccEntry_fabric (s : State) (t i : Nat) (e : AccEntry) : (setAccEntry s t i e).fabric = s.fabric := by rw [setAccEntry]
@[simp] theorem setAccEntry_dram (s : State) (t i : Nat) (e : AccEntry) : (setAccEntry s t i e).dram = s.dram := by rw [setAccEntry]
@[simp] theorem setAccEntry_gorbin (s : State) (t i : Nat) (e : AccEntry) : (setAccEntry s t i e).gorbin = s.gorbin := by rw [setAccEntry]
@[simp] theorem setAccEntry_commit (s : State) (t i : Nat) (e : AccEntry) : (setAccEntry s t i e).commit = s.commit := by rw [setAccEntry]
@[simp] theorem setAccEntry_recov (s : State) (t i : Nat) (e : AccEntry) : (setAccEntry s t i e).recov = s.recov := by rw [setAccEntry]
@[simp] theorem setAccEntry_ufs (s : State) (t i : Nat) (e : AccEntry) : (setAccEntry s t i e).ufs = s.ufs := by rw [setAccEntry]
@[simp] theorem setAccEntry_ckpt (s : State) (t i : Nat) (e : AccEntry) : (setAccEntry s t i e).ckpt = s.ckpt := by rw [setAccEntry]
@[simp] theorem setAccEntry_boot (s : State) (t i : Nat) (e : AccEntry) : (setAccEntry s t i e).boot = s.boot := by rw [setAccEntry]
@[simp] theorem setAccEntry_yew (s : State) (t i : Nat) (e : AccEntry) : (setAccEntry s t i e).yew = s.yew := by rw [setAccEntry]
@[simp] theorem setAccEntry_power (s : State) (t i : Nat) (e : AccEntry) : (setAccEntry s t i e).power = s.power := by rw [setAccEntry]
@[simp] theorem setAccEntry_sec (s : State) (t i : Nat) (e : AccEntry) : (setAccEntry s t i e).sec = s.sec := by rw [setAccEntry]
@[simp] theorem setAccEntry_module (s : State) (t i : Nat) (e : AccEntry) : (setAccEntry s t i e).module = s.module := by rw [setAccEntry]
@[simp] theorem setAccEntry_out (s : State) (t i : Nat) (e : AccEntry) : (setAccEntry s t i e).out = s.out := by rw [setAccEntry]
@[simp] theorem rd_setAccEntry (s : State) (t i : Nat) (e : AccEntry) (k : Nat) : rd (setAccEntry s t i e) k = rd s k := rd_congr (setAccEntry_regs s t i e) k
@[simp] theorem readByte_setAccEntry (s : State) (t i : Nat) (e : AccEntry) (c : Nat) : readByte (setAccEntry s t i e) c = readByte s c := readByte_congr (setAccEntry_mem s t i e) (setAccEntry_fills s t i e) c

/-! ### `setStop` changes `flow` alone -/

@[simp] theorem setStop_pending (s : State) (t : Nat) (x : StopState) : (setStop s t x).pending = s.pending := by rw [setStop]
@[simp] theorem setStop_free (s : State) (t : Nat) (x : StopState) : (setStop s t x).free = s.free := by rw [setStop]
@[simp] theorem setStop_regs (s : State) (t : Nat) (x : StopState) : (setStop s t x).regs = s.regs := by rw [setStop]
@[simp] theorem setStop_mem (s : State) (t : Nat) (x : StopState) : (setStop s t x).mem = s.mem := by rw [setStop]
@[simp] theorem setStop_fills (s : State) (t : Nat) (x : StopState) : (setStop s t x).fills = s.fills := by rw [setStop]
@[simp] theorem setStop_chk (s : State) (t : Nat) (x : StopState) : (setStop s t x).chk = s.chk := by rw [setStop]
@[simp] theorem setStop_limits (s : State) (t : Nat) (x : StopState) : (setStop s t x).limits = s.limits := by rw [setStop]
@[simp] theorem setStop_time (s : State) (t : Nat) (x : StopState) : (setStop s t x).time = s.time := by rw [setStop]
@[simp] theorem setStop_log (s : State) (t : Nat) (x : StopState) : (setStop s t x).log = s.log := by rw [setStop]
@[simp] theorem setStop_irq (s : State) (t : Nat) (x : StopState) : (setStop s t x).irq = s.irq := by rw [setStop]
@[simp] theorem setStop_net (s : State) (t : Nat) (x : StopState) : (setStop s t x).net = s.net := by rw [setStop]
@[simp] theorem setStop_q (s : State) (t : Nat) (x : StopState) : (setStop s t x).q = s.q := by rw [setStop]
@[simp] theorem setStop_pad (s : State) (t : Nat) (x : StopState) : (setStop s t x).pad = s.pad := by rw [setStop]
@[simp] theorem setStop_fabric (s : State) (t : Nat) (x : StopState) : (setStop s t x).fabric = s.fabric := by rw [setStop]
@[simp] theorem setStop_dram (s : State) (t : Nat) (x : StopState) : (setStop s t x).dram = s.dram := by rw [setStop]
@[simp] theorem setStop_gorbin (s : State) (t : Nat) (x : StopState) : (setStop s t x).gorbin = s.gorbin := by rw [setStop]
@[simp] theorem setStop_commit (s : State) (t : Nat) (x : StopState) : (setStop s t x).commit = s.commit := by rw [setStop]
@[simp] theorem setStop_recov (s : State) (t : Nat) (x : StopState) : (setStop s t x).recov = s.recov := by rw [setStop]
@[simp] theorem setStop_ufs (s : State) (t : Nat) (x : StopState) : (setStop s t x).ufs = s.ufs := by rw [setStop]
@[simp] theorem setStop_ckpt (s : State) (t : Nat) (x : StopState) : (setStop s t x).ckpt = s.ckpt := by rw [setStop]
@[simp] theorem setStop_boot (s : State) (t : Nat) (x : StopState) : (setStop s t x).boot = s.boot := by rw [setStop]
@[simp] theorem setStop_yew (s : State) (t : Nat) (x : StopState) : (setStop s t x).yew = s.yew := by rw [setStop]
@[simp] theorem setStop_power (s : State) (t : Nat) (x : StopState) : (setStop s t x).power = s.power := by rw [setStop]
@[simp] theorem setStop_sec (s : State) (t : Nat) (x : StopState) : (setStop s t x).sec = s.sec := by rw [setStop]
@[simp] theorem setStop_module (s : State) (t : Nat) (x : StopState) : (setStop s t x).module = s.module := by rw [setStop]
@[simp] theorem setStop_out (s : State) (t : Nat) (x : StopState) : (setStop s t x).out = s.out := by rw [setStop]
@[simp] theorem rd_setStop (s : State) (t : Nat) (x : StopState) (k : Nat) : rd (setStop s t x) k = rd s k := rd_congr (setStop_regs s t x) k
@[simp] theorem readByte_setStop (s : State) (t : Nat) (x : StopState) (c : Nat) : readByte (setStop s t x) c = readByte s c := readByte_congr (setStop_mem s t x) (setStop_fills s t x) c

/-! ### `setPlaced` changes `flow` alone -/

@[simp] theorem setPlaced_pending (s : State) (set : Nat) (p : Placed) : (setPlaced s set p).pending = s.pending := by rw [setPlaced]
@[simp] theorem setPlaced_free (s : State) (set : Nat) (p : Placed) : (setPlaced s set p).free = s.free := by rw [setPlaced]
@[simp] theorem setPlaced_regs (s : State) (set : Nat) (p : Placed) : (setPlaced s set p).regs = s.regs := by rw [setPlaced]
@[simp] theorem setPlaced_mem (s : State) (set : Nat) (p : Placed) : (setPlaced s set p).mem = s.mem := by rw [setPlaced]
@[simp] theorem setPlaced_fills (s : State) (set : Nat) (p : Placed) : (setPlaced s set p).fills = s.fills := by rw [setPlaced]
@[simp] theorem setPlaced_chk (s : State) (set : Nat) (p : Placed) : (setPlaced s set p).chk = s.chk := by rw [setPlaced]
@[simp] theorem setPlaced_limits (s : State) (set : Nat) (p : Placed) : (setPlaced s set p).limits = s.limits := by rw [setPlaced]
@[simp] theorem setPlaced_time (s : State) (set : Nat) (p : Placed) : (setPlaced s set p).time = s.time := by rw [setPlaced]
@[simp] theorem setPlaced_log (s : State) (set : Nat) (p : Placed) : (setPlaced s set p).log = s.log := by rw [setPlaced]
@[simp] theorem setPlaced_irq (s : State) (set : Nat) (p : Placed) : (setPlaced s set p).irq = s.irq := by rw [setPlaced]
@[simp] theorem setPlaced_net (s : State) (set : Nat) (p : Placed) : (setPlaced s set p).net = s.net := by rw [setPlaced]
@[simp] theorem setPlaced_q (s : State) (set : Nat) (p : Placed) : (setPlaced s set p).q = s.q := by rw [setPlaced]
@[simp] theorem setPlaced_pad (s : State) (set : Nat) (p : Placed) : (setPlaced s set p).pad = s.pad := by rw [setPlaced]
@[simp] theorem setPlaced_fabric (s : State) (set : Nat) (p : Placed) : (setPlaced s set p).fabric = s.fabric := by rw [setPlaced]
@[simp] theorem setPlaced_dram (s : State) (set : Nat) (p : Placed) : (setPlaced s set p).dram = s.dram := by rw [setPlaced]
@[simp] theorem setPlaced_gorbin (s : State) (set : Nat) (p : Placed) : (setPlaced s set p).gorbin = s.gorbin := by rw [setPlaced]
@[simp] theorem setPlaced_commit (s : State) (set : Nat) (p : Placed) : (setPlaced s set p).commit = s.commit := by rw [setPlaced]
@[simp] theorem setPlaced_recov (s : State) (set : Nat) (p : Placed) : (setPlaced s set p).recov = s.recov := by rw [setPlaced]
@[simp] theorem setPlaced_ufs (s : State) (set : Nat) (p : Placed) : (setPlaced s set p).ufs = s.ufs := by rw [setPlaced]
@[simp] theorem setPlaced_ckpt (s : State) (set : Nat) (p : Placed) : (setPlaced s set p).ckpt = s.ckpt := by rw [setPlaced]
@[simp] theorem setPlaced_boot (s : State) (set : Nat) (p : Placed) : (setPlaced s set p).boot = s.boot := by rw [setPlaced]
@[simp] theorem setPlaced_yew (s : State) (set : Nat) (p : Placed) : (setPlaced s set p).yew = s.yew := by rw [setPlaced]
@[simp] theorem setPlaced_power (s : State) (set : Nat) (p : Placed) : (setPlaced s set p).power = s.power := by rw [setPlaced]
@[simp] theorem setPlaced_sec (s : State) (set : Nat) (p : Placed) : (setPlaced s set p).sec = s.sec := by rw [setPlaced]
@[simp] theorem setPlaced_module (s : State) (set : Nat) (p : Placed) : (setPlaced s set p).module = s.module := by rw [setPlaced]
@[simp] theorem setPlaced_out (s : State) (set : Nat) (p : Placed) : (setPlaced s set p).out = s.out := by rw [setPlaced]
@[simp] theorem rd_setPlaced (s : State) (set : Nat) (p : Placed) (k : Nat) : rd (setPlaced s set p) k = rd s k := rd_congr (setPlaced_regs s set p) k
@[simp] theorem readByte_setPlaced (s : State) (set : Nat) (p : Placed) (c : Nat) : readByte (setPlaced s set p) c = readByte s c := readByte_congr (setPlaced_mem s set p) (setPlaced_fills s set p) c

/-! ### `setThread` changes `q` alone -/

@[simp] theorem setThread_pending (s : State) (t n : Nat) (h : Thread) : (setThread s t n h).pending = s.pending := by rw [setThread]
@[simp] theorem setThread_free (s : State) (t n : Nat) (h : Thread) : (setThread s t n h).free = s.free := by rw [setThread]
@[simp] theorem setThread_regs (s : State) (t n : Nat) (h : Thread) : (setThread s t n h).regs = s.regs := by rw [setThread]
@[simp] theorem setThread_mem (s : State) (t n : Nat) (h : Thread) : (setThread s t n h).mem = s.mem := by rw [setThread]
@[simp] theorem setThread_fills (s : State) (t n : Nat) (h : Thread) : (setThread s t n h).fills = s.fills := by rw [setThread]
@[simp] theorem setThread_chk (s : State) (t n : Nat) (h : Thread) : (setThread s t n h).chk = s.chk := by rw [setThread]
@[simp] theorem setThread_limits (s : State) (t n : Nat) (h : Thread) : (setThread s t n h).limits = s.limits := by rw [setThread]
@[simp] theorem setThread_time (s : State) (t n : Nat) (h : Thread) : (setThread s t n h).time = s.time := by rw [setThread]
@[simp] theorem setThread_log (s : State) (t n : Nat) (h : Thread) : (setThread s t n h).log = s.log := by rw [setThread]
@[simp] theorem setThread_irq (s : State) (t n : Nat) (h : Thread) : (setThread s t n h).irq = s.irq := by rw [setThread]
@[simp] theorem setThread_net (s : State) (t n : Nat) (h : Thread) : (setThread s t n h).net = s.net := by rw [setThread]
@[simp] theorem setThread_flow (s : State) (t n : Nat) (h : Thread) : (setThread s t n h).flow = s.flow := by rw [setThread]
@[simp] theorem setThread_pad (s : State) (t n : Nat) (h : Thread) : (setThread s t n h).pad = s.pad := by rw [setThread]
@[simp] theorem setThread_fabric (s : State) (t n : Nat) (h : Thread) : (setThread s t n h).fabric = s.fabric := by rw [setThread]
@[simp] theorem setThread_dram (s : State) (t n : Nat) (h : Thread) : (setThread s t n h).dram = s.dram := by rw [setThread]
@[simp] theorem setThread_gorbin (s : State) (t n : Nat) (h : Thread) : (setThread s t n h).gorbin = s.gorbin := by rw [setThread]
@[simp] theorem setThread_commit (s : State) (t n : Nat) (h : Thread) : (setThread s t n h).commit = s.commit := by rw [setThread]
@[simp] theorem setThread_recov (s : State) (t n : Nat) (h : Thread) : (setThread s t n h).recov = s.recov := by rw [setThread]
@[simp] theorem setThread_ufs (s : State) (t n : Nat) (h : Thread) : (setThread s t n h).ufs = s.ufs := by rw [setThread]
@[simp] theorem setThread_ckpt (s : State) (t n : Nat) (h : Thread) : (setThread s t n h).ckpt = s.ckpt := by rw [setThread]
@[simp] theorem setThread_boot (s : State) (t n : Nat) (h : Thread) : (setThread s t n h).boot = s.boot := by rw [setThread]
@[simp] theorem setThread_yew (s : State) (t n : Nat) (h : Thread) : (setThread s t n h).yew = s.yew := by rw [setThread]
@[simp] theorem setThread_power (s : State) (t n : Nat) (h : Thread) : (setThread s t n h).power = s.power := by rw [setThread]
@[simp] theorem setThread_sec (s : State) (t n : Nat) (h : Thread) : (setThread s t n h).sec = s.sec := by rw [setThread]
@[simp] theorem setThread_module (s : State) (t n : Nat) (h : Thread) : (setThread s t n h).module = s.module := by rw [setThread]
@[simp] theorem setThread_out (s : State) (t n : Nat) (h : Thread) : (setThread s t n h).out = s.out := by rw [setThread]
@[simp] theorem rd_setThread (s : State) (t n : Nat) (h : Thread) (k : Nat) : rd (setThread s t n h) k = rd s k := rd_congr (setThread_regs s t n h) k
@[simp] theorem readByte_setThread (s : State) (t n : Nat) (h : Thread) (c : Nat) : readByte (setThread s t n h) c = readByte s c := readByte_congr (setThread_mem s t n h) (setThread_fills s t n h) c

/-! ### `setCredit` changes `q` alone -/

@[simp] theorem setCredit_pending (s : State) (k : Nat) (e : Credit) : (setCredit s k e).pending = s.pending := by rw [setCredit]
@[simp] theorem setCredit_free (s : State) (k : Nat) (e : Credit) : (setCredit s k e).free = s.free := by rw [setCredit]
@[simp] theorem setCredit_regs (s : State) (k : Nat) (e : Credit) : (setCredit s k e).regs = s.regs := by rw [setCredit]
@[simp] theorem setCredit_mem (s : State) (k : Nat) (e : Credit) : (setCredit s k e).mem = s.mem := by rw [setCredit]
@[simp] theorem setCredit_fills (s : State) (k : Nat) (e : Credit) : (setCredit s k e).fills = s.fills := by rw [setCredit]
@[simp] theorem setCredit_chk (s : State) (k : Nat) (e : Credit) : (setCredit s k e).chk = s.chk := by rw [setCredit]
@[simp] theorem setCredit_limits (s : State) (k : Nat) (e : Credit) : (setCredit s k e).limits = s.limits := by rw [setCredit]
@[simp] theorem setCredit_time (s : State) (k : Nat) (e : Credit) : (setCredit s k e).time = s.time := by rw [setCredit]
@[simp] theorem setCredit_log (s : State) (k : Nat) (e : Credit) : (setCredit s k e).log = s.log := by rw [setCredit]
@[simp] theorem setCredit_irq (s : State) (k : Nat) (e : Credit) : (setCredit s k e).irq = s.irq := by rw [setCredit]
@[simp] theorem setCredit_net (s : State) (k : Nat) (e : Credit) : (setCredit s k e).net = s.net := by rw [setCredit]
@[simp] theorem setCredit_flow (s : State) (k : Nat) (e : Credit) : (setCredit s k e).flow = s.flow := by rw [setCredit]
@[simp] theorem setCredit_pad (s : State) (k : Nat) (e : Credit) : (setCredit s k e).pad = s.pad := by rw [setCredit]
@[simp] theorem setCredit_fabric (s : State) (k : Nat) (e : Credit) : (setCredit s k e).fabric = s.fabric := by rw [setCredit]
@[simp] theorem setCredit_dram (s : State) (k : Nat) (e : Credit) : (setCredit s k e).dram = s.dram := by rw [setCredit]
@[simp] theorem setCredit_gorbin (s : State) (k : Nat) (e : Credit) : (setCredit s k e).gorbin = s.gorbin := by rw [setCredit]
@[simp] theorem setCredit_commit (s : State) (k : Nat) (e : Credit) : (setCredit s k e).commit = s.commit := by rw [setCredit]
@[simp] theorem setCredit_recov (s : State) (k : Nat) (e : Credit) : (setCredit s k e).recov = s.recov := by rw [setCredit]
@[simp] theorem setCredit_ufs (s : State) (k : Nat) (e : Credit) : (setCredit s k e).ufs = s.ufs := by rw [setCredit]
@[simp] theorem setCredit_ckpt (s : State) (k : Nat) (e : Credit) : (setCredit s k e).ckpt = s.ckpt := by rw [setCredit]
@[simp] theorem setCredit_boot (s : State) (k : Nat) (e : Credit) : (setCredit s k e).boot = s.boot := by rw [setCredit]
@[simp] theorem setCredit_yew (s : State) (k : Nat) (e : Credit) : (setCredit s k e).yew = s.yew := by rw [setCredit]
@[simp] theorem setCredit_power (s : State) (k : Nat) (e : Credit) : (setCredit s k e).power = s.power := by rw [setCredit]
@[simp] theorem setCredit_sec (s : State) (k : Nat) (e : Credit) : (setCredit s k e).sec = s.sec := by rw [setCredit]
@[simp] theorem setCredit_module (s : State) (k : Nat) (e : Credit) : (setCredit s k e).module = s.module := by rw [setCredit]
@[simp] theorem setCredit_out (s : State) (k : Nat) (e : Credit) : (setCredit s k e).out = s.out := by rw [setCredit]
@[simp] theorem rd_setCredit (s : State) (k : Nat) (e : Credit) (key : Nat) : rd (setCredit s k e) key = rd s key := rd_congr (setCredit_regs s k e) key
@[simp] theorem readByte_setCredit (s : State) (k : Nat) (e : Credit) (c : Nat) : readByte (setCredit s k e) c = readByte s c := readByte_congr (setCredit_mem s k e) (setCredit_fills s k e) c

/-! ### `setChan` changes `flow` alone -/

@[simp] theorem setChan_pending (s : State) (t ch : Nat) (c : Chan) : (setChan s t ch c).pending = s.pending := by rw [setChan]
@[simp] theorem setChan_free (s : State) (t ch : Nat) (c : Chan) : (setChan s t ch c).free = s.free := by rw [setChan]
@[simp] theorem setChan_regs (s : State) (t ch : Nat) (c : Chan) : (setChan s t ch c).regs = s.regs := by rw [setChan]
@[simp] theorem setChan_mem (s : State) (t ch : Nat) (c : Chan) : (setChan s t ch c).mem = s.mem := by rw [setChan]
@[simp] theorem setChan_fills (s : State) (t ch : Nat) (c : Chan) : (setChan s t ch c).fills = s.fills := by rw [setChan]
@[simp] theorem setChan_chk (s : State) (t ch : Nat) (c : Chan) : (setChan s t ch c).chk = s.chk := by rw [setChan]
@[simp] theorem setChan_limits (s : State) (t ch : Nat) (c : Chan) : (setChan s t ch c).limits = s.limits := by rw [setChan]
@[simp] theorem setChan_time (s : State) (t ch : Nat) (c : Chan) : (setChan s t ch c).time = s.time := by rw [setChan]
@[simp] theorem setChan_log (s : State) (t ch : Nat) (c : Chan) : (setChan s t ch c).log = s.log := by rw [setChan]
@[simp] theorem setChan_irq (s : State) (t ch : Nat) (c : Chan) : (setChan s t ch c).irq = s.irq := by rw [setChan]
@[simp] theorem setChan_net (s : State) (t ch : Nat) (c : Chan) : (setChan s t ch c).net = s.net := by rw [setChan]
@[simp] theorem setChan_q (s : State) (t ch : Nat) (c : Chan) : (setChan s t ch c).q = s.q := by rw [setChan]
@[simp] theorem setChan_pad (s : State) (t ch : Nat) (c : Chan) : (setChan s t ch c).pad = s.pad := by rw [setChan]
@[simp] theorem setChan_fabric (s : State) (t ch : Nat) (c : Chan) : (setChan s t ch c).fabric = s.fabric := by rw [setChan]
@[simp] theorem setChan_dram (s : State) (t ch : Nat) (c : Chan) : (setChan s t ch c).dram = s.dram := by rw [setChan]
@[simp] theorem setChan_gorbin (s : State) (t ch : Nat) (c : Chan) : (setChan s t ch c).gorbin = s.gorbin := by rw [setChan]
@[simp] theorem setChan_commit (s : State) (t ch : Nat) (c : Chan) : (setChan s t ch c).commit = s.commit := by rw [setChan]
@[simp] theorem setChan_recov (s : State) (t ch : Nat) (c : Chan) : (setChan s t ch c).recov = s.recov := by rw [setChan]
@[simp] theorem setChan_ufs (s : State) (t ch : Nat) (c : Chan) : (setChan s t ch c).ufs = s.ufs := by rw [setChan]
@[simp] theorem setChan_ckpt (s : State) (t ch : Nat) (c : Chan) : (setChan s t ch c).ckpt = s.ckpt := by rw [setChan]
@[simp] theorem setChan_boot (s : State) (t ch : Nat) (c : Chan) : (setChan s t ch c).boot = s.boot := by rw [setChan]
@[simp] theorem setChan_yew (s : State) (t ch : Nat) (c : Chan) : (setChan s t ch c).yew = s.yew := by rw [setChan]
@[simp] theorem setChan_power (s : State) (t ch : Nat) (c : Chan) : (setChan s t ch c).power = s.power := by rw [setChan]
@[simp] theorem setChan_sec (s : State) (t ch : Nat) (c : Chan) : (setChan s t ch c).sec = s.sec := by rw [setChan]
@[simp] theorem setChan_module (s : State) (t ch : Nat) (c : Chan) : (setChan s t ch c).module = s.module := by rw [setChan]
@[simp] theorem setChan_out (s : State) (t ch : Nat) (c : Chan) : (setChan s t ch c).out = s.out := by rw [setChan]
@[simp] theorem rd_setChan (s : State) (t ch : Nat) (c : Chan) (k : Nat) : rd (setChan s t ch c) k = rd s k := rd_congr (setChan_regs s t ch c) k
@[simp] theorem readByte_setChan (s : State) (t ch : Nat) (c : Chan) (adr : Nat) : readByte (setChan s t ch c) adr = readByte s adr := readByte_congr (setChan_mem s t ch c) (setChan_fills s t ch c) adr

/-! ### `inject` changes `net` alone -/

@[simp] theorem inject_pending (s : State) (t : Nat) (p : Pkt) : (inject s t p).pending = s.pending := by rw [inject]
@[simp] theorem inject_free (s : State) (t : Nat) (p : Pkt) : (inject s t p).free = s.free := by rw [inject]
@[simp] theorem inject_regs (s : State) (t : Nat) (p : Pkt) : (inject s t p).regs = s.regs := by rw [inject]
@[simp] theorem inject_mem (s : State) (t : Nat) (p : Pkt) : (inject s t p).mem = s.mem := by rw [inject]
@[simp] theorem inject_fills (s : State) (t : Nat) (p : Pkt) : (inject s t p).fills = s.fills := by rw [inject]
@[simp] theorem inject_chk (s : State) (t : Nat) (p : Pkt) : (inject s t p).chk = s.chk := by rw [inject]
@[simp] theorem inject_limits (s : State) (t : Nat) (p : Pkt) : (inject s t p).limits = s.limits := by rw [inject]
@[simp] theorem inject_time (s : State) (t : Nat) (p : Pkt) : (inject s t p).time = s.time := by rw [inject]
@[simp] theorem inject_log (s : State) (t : Nat) (p : Pkt) : (inject s t p).log = s.log := by rw [inject]
@[simp] theorem inject_irq (s : State) (t : Nat) (p : Pkt) : (inject s t p).irq = s.irq := by rw [inject]
@[simp] theorem inject_q (s : State) (t : Nat) (p : Pkt) : (inject s t p).q = s.q := by rw [inject]
@[simp] theorem inject_flow (s : State) (t : Nat) (p : Pkt) : (inject s t p).flow = s.flow := by rw [inject]
@[simp] theorem inject_pad (s : State) (t : Nat) (p : Pkt) : (inject s t p).pad = s.pad := by rw [inject]
@[simp] theorem inject_fabric (s : State) (t : Nat) (p : Pkt) : (inject s t p).fabric = s.fabric := by rw [inject]
@[simp] theorem inject_dram (s : State) (t : Nat) (p : Pkt) : (inject s t p).dram = s.dram := by rw [inject]
@[simp] theorem inject_gorbin (s : State) (t : Nat) (p : Pkt) : (inject s t p).gorbin = s.gorbin := by rw [inject]
@[simp] theorem inject_commit (s : State) (t : Nat) (p : Pkt) : (inject s t p).commit = s.commit := by rw [inject]
@[simp] theorem inject_recov (s : State) (t : Nat) (p : Pkt) : (inject s t p).recov = s.recov := by rw [inject]
@[simp] theorem inject_ufs (s : State) (t : Nat) (p : Pkt) : (inject s t p).ufs = s.ufs := by rw [inject]
@[simp] theorem inject_ckpt (s : State) (t : Nat) (p : Pkt) : (inject s t p).ckpt = s.ckpt := by rw [inject]
@[simp] theorem inject_boot (s : State) (t : Nat) (p : Pkt) : (inject s t p).boot = s.boot := by rw [inject]
@[simp] theorem inject_yew (s : State) (t : Nat) (p : Pkt) : (inject s t p).yew = s.yew := by rw [inject]
@[simp] theorem inject_power (s : State) (t : Nat) (p : Pkt) : (inject s t p).power = s.power := by rw [inject]
@[simp] theorem inject_sec (s : State) (t : Nat) (p : Pkt) : (inject s t p).sec = s.sec := by rw [inject]
@[simp] theorem inject_module (s : State) (t : Nat) (p : Pkt) : (inject s t p).module = s.module := by rw [inject]
@[simp] theorem inject_out (s : State) (t : Nat) (p : Pkt) : (inject s t p).out = s.out := by rw [inject]
@[simp] theorem rd_inject (s : State) (t : Nat) (p : Pkt) (k : Nat) : rd (inject s t p) k = rd s k := rd_congr (inject_regs s t p) k
@[simp] theorem readByte_inject (s : State) (t : Nat) (p : Pkt) (c : Nat) : readByte (inject s t p) c = readByte s c := readByte_congr (inject_mem s t p) (inject_fills s t p) c

/-! ### `eject` changes `net` alone -/

@[simp] theorem eject_pending (s : State) (t : Nat) (p : Pkt) : (eject s t p).pending = s.pending := by rw [eject]
@[simp] theorem eject_free (s : State) (t : Nat) (p : Pkt) : (eject s t p).free = s.free := by rw [eject]
@[simp] theorem eject_regs (s : State) (t : Nat) (p : Pkt) : (eject s t p).regs = s.regs := by rw [eject]
@[simp] theorem eject_mem (s : State) (t : Nat) (p : Pkt) : (eject s t p).mem = s.mem := by rw [eject]
@[simp] theorem eject_fills (s : State) (t : Nat) (p : Pkt) : (eject s t p).fills = s.fills := by rw [eject]
@[simp] theorem eject_chk (s : State) (t : Nat) (p : Pkt) : (eject s t p).chk = s.chk := by rw [eject]
@[simp] theorem eject_limits (s : State) (t : Nat) (p : Pkt) : (eject s t p).limits = s.limits := by rw [eject]
@[simp] theorem eject_time (s : State) (t : Nat) (p : Pkt) : (eject s t p).time = s.time := by rw [eject]
@[simp] theorem eject_log (s : State) (t : Nat) (p : Pkt) : (eject s t p).log = s.log := by rw [eject]
@[simp] theorem eject_irq (s : State) (t : Nat) (p : Pkt) : (eject s t p).irq = s.irq := by rw [eject]
@[simp] theorem eject_q (s : State) (t : Nat) (p : Pkt) : (eject s t p).q = s.q := by rw [eject]
@[simp] theorem eject_flow (s : State) (t : Nat) (p : Pkt) : (eject s t p).flow = s.flow := by rw [eject]
@[simp] theorem eject_pad (s : State) (t : Nat) (p : Pkt) : (eject s t p).pad = s.pad := by rw [eject]
@[simp] theorem eject_fabric (s : State) (t : Nat) (p : Pkt) : (eject s t p).fabric = s.fabric := by rw [eject]
@[simp] theorem eject_dram (s : State) (t : Nat) (p : Pkt) : (eject s t p).dram = s.dram := by rw [eject]
@[simp] theorem eject_gorbin (s : State) (t : Nat) (p : Pkt) : (eject s t p).gorbin = s.gorbin := by rw [eject]
@[simp] theorem eject_commit (s : State) (t : Nat) (p : Pkt) : (eject s t p).commit = s.commit := by rw [eject]
@[simp] theorem eject_recov (s : State) (t : Nat) (p : Pkt) : (eject s t p).recov = s.recov := by rw [eject]
@[simp] theorem eject_ufs (s : State) (t : Nat) (p : Pkt) : (eject s t p).ufs = s.ufs := by rw [eject]
@[simp] theorem eject_ckpt (s : State) (t : Nat) (p : Pkt) : (eject s t p).ckpt = s.ckpt := by rw [eject]
@[simp] theorem eject_boot (s : State) (t : Nat) (p : Pkt) : (eject s t p).boot = s.boot := by rw [eject]
@[simp] theorem eject_yew (s : State) (t : Nat) (p : Pkt) : (eject s t p).yew = s.yew := by rw [eject]
@[simp] theorem eject_power (s : State) (t : Nat) (p : Pkt) : (eject s t p).power = s.power := by rw [eject]
@[simp] theorem eject_sec (s : State) (t : Nat) (p : Pkt) : (eject s t p).sec = s.sec := by rw [eject]
@[simp] theorem eject_module (s : State) (t : Nat) (p : Pkt) : (eject s t p).module = s.module := by rw [eject]
@[simp] theorem eject_out (s : State) (t : Nat) (p : Pkt) : (eject s t p).out = s.out := by rw [eject]
@[simp] theorem rd_eject (s : State) (t : Nat) (p : Pkt) (k : Nat) : rd (eject s t p) k = rd s k := rd_congr (eject_regs s t p) k
@[simp] theorem readByte_eject (s : State) (t : Nat) (p : Pkt) (c : Nat) : readByte (eject s t p) c = readByte s c := readByte_congr (eject_mem s t p) (eject_fills s t p) c

/-! ### `hold` changes `net` alone -/

@[simp] theorem hold_pending (s : State) (t port : Nat) (p : Pkt) : (hold s t port p).pending = s.pending := by rw [hold]
@[simp] theorem hold_free (s : State) (t port : Nat) (p : Pkt) : (hold s t port p).free = s.free := by rw [hold]
@[simp] theorem hold_regs (s : State) (t port : Nat) (p : Pkt) : (hold s t port p).regs = s.regs := by rw [hold]
@[simp] theorem hold_mem (s : State) (t port : Nat) (p : Pkt) : (hold s t port p).mem = s.mem := by rw [hold]
@[simp] theorem hold_fills (s : State) (t port : Nat) (p : Pkt) : (hold s t port p).fills = s.fills := by rw [hold]
@[simp] theorem hold_chk (s : State) (t port : Nat) (p : Pkt) : (hold s t port p).chk = s.chk := by rw [hold]
@[simp] theorem hold_limits (s : State) (t port : Nat) (p : Pkt) : (hold s t port p).limits = s.limits := by rw [hold]
@[simp] theorem hold_time (s : State) (t port : Nat) (p : Pkt) : (hold s t port p).time = s.time := by rw [hold]
@[simp] theorem hold_log (s : State) (t port : Nat) (p : Pkt) : (hold s t port p).log = s.log := by rw [hold]
@[simp] theorem hold_irq (s : State) (t port : Nat) (p : Pkt) : (hold s t port p).irq = s.irq := by rw [hold]
@[simp] theorem hold_q (s : State) (t port : Nat) (p : Pkt) : (hold s t port p).q = s.q := by rw [hold]
@[simp] theorem hold_flow (s : State) (t port : Nat) (p : Pkt) : (hold s t port p).flow = s.flow := by rw [hold]
@[simp] theorem hold_pad (s : State) (t port : Nat) (p : Pkt) : (hold s t port p).pad = s.pad := by rw [hold]
@[simp] theorem hold_fabric (s : State) (t port : Nat) (p : Pkt) : (hold s t port p).fabric = s.fabric := by rw [hold]
@[simp] theorem hold_dram (s : State) (t port : Nat) (p : Pkt) : (hold s t port p).dram = s.dram := by rw [hold]
@[simp] theorem hold_gorbin (s : State) (t port : Nat) (p : Pkt) : (hold s t port p).gorbin = s.gorbin := by rw [hold]
@[simp] theorem hold_commit (s : State) (t port : Nat) (p : Pkt) : (hold s t port p).commit = s.commit := by rw [hold]
@[simp] theorem hold_recov (s : State) (t port : Nat) (p : Pkt) : (hold s t port p).recov = s.recov := by rw [hold]
@[simp] theorem hold_ufs (s : State) (t port : Nat) (p : Pkt) : (hold s t port p).ufs = s.ufs := by rw [hold]
@[simp] theorem hold_ckpt (s : State) (t port : Nat) (p : Pkt) : (hold s t port p).ckpt = s.ckpt := by rw [hold]
@[simp] theorem hold_boot (s : State) (t port : Nat) (p : Pkt) : (hold s t port p).boot = s.boot := by rw [hold]
@[simp] theorem hold_yew (s : State) (t port : Nat) (p : Pkt) : (hold s t port p).yew = s.yew := by rw [hold]
@[simp] theorem hold_power (s : State) (t port : Nat) (p : Pkt) : (hold s t port p).power = s.power := by rw [hold]
@[simp] theorem hold_sec (s : State) (t port : Nat) (p : Pkt) : (hold s t port p).sec = s.sec := by rw [hold]
@[simp] theorem hold_module (s : State) (t port : Nat) (p : Pkt) : (hold s t port p).module = s.module := by rw [hold]
@[simp] theorem hold_out (s : State) (t port : Nat) (p : Pkt) : (hold s t port p).out = s.out := by rw [hold]
@[simp] theorem rd_hold (s : State) (t port : Nat) (p : Pkt) (k : Nat) : rd (hold s t port p) k = rd s k := rd_congr (hold_regs s t port p) k
@[simp] theorem readByte_hold (s : State) (t port : Nat) (p : Pkt) (c : Nat) : readByte (hold s t port p) c = readByte s c := readByte_congr (hold_mem s t port p) (hold_fills s t port p) c

/-! ### `setComb` changes `net` alone -/

@[simp] theorem setComb_pending (s : State) (l : Nat) (c : List Comb) : (setComb s l c).pending = s.pending := by rw [setComb]
@[simp] theorem setComb_free (s : State) (l : Nat) (c : List Comb) : (setComb s l c).free = s.free := by rw [setComb]
@[simp] theorem setComb_regs (s : State) (l : Nat) (c : List Comb) : (setComb s l c).regs = s.regs := by rw [setComb]
@[simp] theorem setComb_mem (s : State) (l : Nat) (c : List Comb) : (setComb s l c).mem = s.mem := by rw [setComb]
@[simp] theorem setComb_fills (s : State) (l : Nat) (c : List Comb) : (setComb s l c).fills = s.fills := by rw [setComb]
@[simp] theorem setComb_chk (s : State) (l : Nat) (c : List Comb) : (setComb s l c).chk = s.chk := by rw [setComb]
@[simp] theorem setComb_limits (s : State) (l : Nat) (c : List Comb) : (setComb s l c).limits = s.limits := by rw [setComb]
@[simp] theorem setComb_time (s : State) (l : Nat) (c : List Comb) : (setComb s l c).time = s.time := by rw [setComb]
@[simp] theorem setComb_log (s : State) (l : Nat) (c : List Comb) : (setComb s l c).log = s.log := by rw [setComb]
@[simp] theorem setComb_irq (s : State) (l : Nat) (c : List Comb) : (setComb s l c).irq = s.irq := by rw [setComb]
@[simp] theorem setComb_q (s : State) (l : Nat) (c : List Comb) : (setComb s l c).q = s.q := by rw [setComb]
@[simp] theorem setComb_flow (s : State) (l : Nat) (c : List Comb) : (setComb s l c).flow = s.flow := by rw [setComb]
@[simp] theorem setComb_pad (s : State) (l : Nat) (c : List Comb) : (setComb s l c).pad = s.pad := by rw [setComb]
@[simp] theorem setComb_fabric (s : State) (l : Nat) (c : List Comb) : (setComb s l c).fabric = s.fabric := by rw [setComb]
@[simp] theorem setComb_dram (s : State) (l : Nat) (c : List Comb) : (setComb s l c).dram = s.dram := by rw [setComb]
@[simp] theorem setComb_gorbin (s : State) (l : Nat) (c : List Comb) : (setComb s l c).gorbin = s.gorbin := by rw [setComb]
@[simp] theorem setComb_commit (s : State) (l : Nat) (c : List Comb) : (setComb s l c).commit = s.commit := by rw [setComb]
@[simp] theorem setComb_recov (s : State) (l : Nat) (c : List Comb) : (setComb s l c).recov = s.recov := by rw [setComb]
@[simp] theorem setComb_ufs (s : State) (l : Nat) (c : List Comb) : (setComb s l c).ufs = s.ufs := by rw [setComb]
@[simp] theorem setComb_ckpt (s : State) (l : Nat) (c : List Comb) : (setComb s l c).ckpt = s.ckpt := by rw [setComb]
@[simp] theorem setComb_boot (s : State) (l : Nat) (c : List Comb) : (setComb s l c).boot = s.boot := by rw [setComb]
@[simp] theorem setComb_yew (s : State) (l : Nat) (c : List Comb) : (setComb s l c).yew = s.yew := by rw [setComb]
@[simp] theorem setComb_power (s : State) (l : Nat) (c : List Comb) : (setComb s l c).power = s.power := by rw [setComb]
@[simp] theorem setComb_sec (s : State) (l : Nat) (c : List Comb) : (setComb s l c).sec = s.sec := by rw [setComb]
@[simp] theorem setComb_module (s : State) (l : Nat) (c : List Comb) : (setComb s l c).module = s.module := by rw [setComb]
@[simp] theorem setComb_out (s : State) (l : Nat) (c : List Comb) : (setComb s l c).out = s.out := by rw [setComb]
@[simp] theorem rd_setComb (s : State) (l : Nat) (c : List Comb) (k : Nat) : rd (setComb s l c) k = rd s k := rd_congr (setComb_regs s l c) k
@[simp] theorem readByte_setComb (s : State) (l : Nat) (c : List Comb) (adr : Nat) : readByte (setComb s l c) adr = readByte s adr := readByte_congr (setComb_mem s l c) (setComb_fills s l c) adr

/-! ### `setComp` changes `net` alone -/

@[simp] theorem setComp_pending (s : State) (t : Nat) (l : List CompEntry) : (setComp s t l).pending = s.pending := by rw [setComp]
@[simp] theorem setComp_free (s : State) (t : Nat) (l : List CompEntry) : (setComp s t l).free = s.free := by rw [setComp]
@[simp] theorem setComp_regs (s : State) (t : Nat) (l : List CompEntry) : (setComp s t l).regs = s.regs := by rw [setComp]
@[simp] theorem setComp_mem (s : State) (t : Nat) (l : List CompEntry) : (setComp s t l).mem = s.mem := by rw [setComp]
@[simp] theorem setComp_fills (s : State) (t : Nat) (l : List CompEntry) : (setComp s t l).fills = s.fills := by rw [setComp]
@[simp] theorem setComp_chk (s : State) (t : Nat) (l : List CompEntry) : (setComp s t l).chk = s.chk := by rw [setComp]
@[simp] theorem setComp_limits (s : State) (t : Nat) (l : List CompEntry) : (setComp s t l).limits = s.limits := by rw [setComp]
@[simp] theorem setComp_time (s : State) (t : Nat) (l : List CompEntry) : (setComp s t l).time = s.time := by rw [setComp]
@[simp] theorem setComp_log (s : State) (t : Nat) (l : List CompEntry) : (setComp s t l).log = s.log := by rw [setComp]
@[simp] theorem setComp_irq (s : State) (t : Nat) (l : List CompEntry) : (setComp s t l).irq = s.irq := by rw [setComp]
@[simp] theorem setComp_q (s : State) (t : Nat) (l : List CompEntry) : (setComp s t l).q = s.q := by rw [setComp]
@[simp] theorem setComp_flow (s : State) (t : Nat) (l : List CompEntry) : (setComp s t l).flow = s.flow := by rw [setComp]
@[simp] theorem setComp_pad (s : State) (t : Nat) (l : List CompEntry) : (setComp s t l).pad = s.pad := by rw [setComp]
@[simp] theorem setComp_fabric (s : State) (t : Nat) (l : List CompEntry) : (setComp s t l).fabric = s.fabric := by rw [setComp]
@[simp] theorem setComp_dram (s : State) (t : Nat) (l : List CompEntry) : (setComp s t l).dram = s.dram := by rw [setComp]
@[simp] theorem setComp_gorbin (s : State) (t : Nat) (l : List CompEntry) : (setComp s t l).gorbin = s.gorbin := by rw [setComp]
@[simp] theorem setComp_commit (s : State) (t : Nat) (l : List CompEntry) : (setComp s t l).commit = s.commit := by rw [setComp]
@[simp] theorem setComp_recov (s : State) (t : Nat) (l : List CompEntry) : (setComp s t l).recov = s.recov := by rw [setComp]
@[simp] theorem setComp_ufs (s : State) (t : Nat) (l : List CompEntry) : (setComp s t l).ufs = s.ufs := by rw [setComp]
@[simp] theorem setComp_ckpt (s : State) (t : Nat) (l : List CompEntry) : (setComp s t l).ckpt = s.ckpt := by rw [setComp]
@[simp] theorem setComp_boot (s : State) (t : Nat) (l : List CompEntry) : (setComp s t l).boot = s.boot := by rw [setComp]
@[simp] theorem setComp_yew (s : State) (t : Nat) (l : List CompEntry) : (setComp s t l).yew = s.yew := by rw [setComp]
@[simp] theorem setComp_power (s : State) (t : Nat) (l : List CompEntry) : (setComp s t l).power = s.power := by rw [setComp]
@[simp] theorem setComp_sec (s : State) (t : Nat) (l : List CompEntry) : (setComp s t l).sec = s.sec := by rw [setComp]
@[simp] theorem setComp_module (s : State) (t : Nat) (l : List CompEntry) : (setComp s t l).module = s.module := by rw [setComp]
@[simp] theorem setComp_out (s : State) (t : Nat) (l : List CompEntry) : (setComp s t l).out = s.out := by rw [setComp]
@[simp] theorem rd_setComp (s : State) (t : Nat) (l : List CompEntry) (k : Nat) : rd (setComp s t l) k = rd s k := rd_congr (setComp_regs s t l) k
@[simp] theorem readByte_setComp (s : State) (t : Nat) (l : List CompEntry) (c : Nat) : readByte (setComp s t l) c = readByte s c := readByte_congr (setComp_mem s t l) (setComp_fills s t l) c

/-! ### `setUpSlots` changes `net` alone -/

@[simp] theorem setUpSlots_pending (s : State) (t : Nat) (l : List UpSlot) : (setUpSlots s t l).pending = s.pending := by rw [setUpSlots]
@[simp] theorem setUpSlots_free (s : State) (t : Nat) (l : List UpSlot) : (setUpSlots s t l).free = s.free := by rw [setUpSlots]
@[simp] theorem setUpSlots_regs (s : State) (t : Nat) (l : List UpSlot) : (setUpSlots s t l).regs = s.regs := by rw [setUpSlots]
@[simp] theorem setUpSlots_mem (s : State) (t : Nat) (l : List UpSlot) : (setUpSlots s t l).mem = s.mem := by rw [setUpSlots]
@[simp] theorem setUpSlots_fills (s : State) (t : Nat) (l : List UpSlot) : (setUpSlots s t l).fills = s.fills := by rw [setUpSlots]
@[simp] theorem setUpSlots_chk (s : State) (t : Nat) (l : List UpSlot) : (setUpSlots s t l).chk = s.chk := by rw [setUpSlots]
@[simp] theorem setUpSlots_limits (s : State) (t : Nat) (l : List UpSlot) : (setUpSlots s t l).limits = s.limits := by rw [setUpSlots]
@[simp] theorem setUpSlots_time (s : State) (t : Nat) (l : List UpSlot) : (setUpSlots s t l).time = s.time := by rw [setUpSlots]
@[simp] theorem setUpSlots_log (s : State) (t : Nat) (l : List UpSlot) : (setUpSlots s t l).log = s.log := by rw [setUpSlots]
@[simp] theorem setUpSlots_irq (s : State) (t : Nat) (l : List UpSlot) : (setUpSlots s t l).irq = s.irq := by rw [setUpSlots]
@[simp] theorem setUpSlots_q (s : State) (t : Nat) (l : List UpSlot) : (setUpSlots s t l).q = s.q := by rw [setUpSlots]
@[simp] theorem setUpSlots_flow (s : State) (t : Nat) (l : List UpSlot) : (setUpSlots s t l).flow = s.flow := by rw [setUpSlots]
@[simp] theorem setUpSlots_pad (s : State) (t : Nat) (l : List UpSlot) : (setUpSlots s t l).pad = s.pad := by rw [setUpSlots]
@[simp] theorem setUpSlots_fabric (s : State) (t : Nat) (l : List UpSlot) : (setUpSlots s t l).fabric = s.fabric := by rw [setUpSlots]
@[simp] theorem setUpSlots_dram (s : State) (t : Nat) (l : List UpSlot) : (setUpSlots s t l).dram = s.dram := by rw [setUpSlots]
@[simp] theorem setUpSlots_gorbin (s : State) (t : Nat) (l : List UpSlot) : (setUpSlots s t l).gorbin = s.gorbin := by rw [setUpSlots]
@[simp] theorem setUpSlots_commit (s : State) (t : Nat) (l : List UpSlot) : (setUpSlots s t l).commit = s.commit := by rw [setUpSlots]
@[simp] theorem setUpSlots_recov (s : State) (t : Nat) (l : List UpSlot) : (setUpSlots s t l).recov = s.recov := by rw [setUpSlots]
@[simp] theorem setUpSlots_ufs (s : State) (t : Nat) (l : List UpSlot) : (setUpSlots s t l).ufs = s.ufs := by rw [setUpSlots]
@[simp] theorem setUpSlots_ckpt (s : State) (t : Nat) (l : List UpSlot) : (setUpSlots s t l).ckpt = s.ckpt := by rw [setUpSlots]
@[simp] theorem setUpSlots_boot (s : State) (t : Nat) (l : List UpSlot) : (setUpSlots s t l).boot = s.boot := by rw [setUpSlots]
@[simp] theorem setUpSlots_yew (s : State) (t : Nat) (l : List UpSlot) : (setUpSlots s t l).yew = s.yew := by rw [setUpSlots]
@[simp] theorem setUpSlots_power (s : State) (t : Nat) (l : List UpSlot) : (setUpSlots s t l).power = s.power := by rw [setUpSlots]
@[simp] theorem setUpSlots_sec (s : State) (t : Nat) (l : List UpSlot) : (setUpSlots s t l).sec = s.sec := by rw [setUpSlots]
@[simp] theorem setUpSlots_module (s : State) (t : Nat) (l : List UpSlot) : (setUpSlots s t l).module = s.module := by rw [setUpSlots]
@[simp] theorem setUpSlots_out (s : State) (t : Nat) (l : List UpSlot) : (setUpSlots s t l).out = s.out := by rw [setUpSlots]
@[simp] theorem rd_setUpSlots (s : State) (t : Nat) (l : List UpSlot) (k : Nat) : rd (setUpSlots s t l) k = rd s k := rd_congr (setUpSlots_regs s t l) k
@[simp] theorem readByte_setUpSlots (s : State) (t : Nat) (l : List UpSlot) (c : Nat) : readByte (setUpSlots s t l) c = readByte s c := readByte_congr (setUpSlots_mem s t l) (setUpSlots_fills s t l) c

/-! ### `setTag` changes `pad` alone -/

@[simp] theorem setTag_pending (s : State) (t w : Nat) (full : Bool) : (setTag s t w full).pending = s.pending := by rw [setTag]
@[simp] theorem setTag_free (s : State) (t w : Nat) (full : Bool) : (setTag s t w full).free = s.free := by rw [setTag]
@[simp] theorem setTag_regs (s : State) (t w : Nat) (full : Bool) : (setTag s t w full).regs = s.regs := by rw [setTag]
@[simp] theorem setTag_mem (s : State) (t w : Nat) (full : Bool) : (setTag s t w full).mem = s.mem := by rw [setTag]
@[simp] theorem setTag_fills (s : State) (t w : Nat) (full : Bool) : (setTag s t w full).fills = s.fills := by rw [setTag]
@[simp] theorem setTag_chk (s : State) (t w : Nat) (full : Bool) : (setTag s t w full).chk = s.chk := by rw [setTag]
@[simp] theorem setTag_limits (s : State) (t w : Nat) (full : Bool) : (setTag s t w full).limits = s.limits := by rw [setTag]
@[simp] theorem setTag_time (s : State) (t w : Nat) (full : Bool) : (setTag s t w full).time = s.time := by rw [setTag]
@[simp] theorem setTag_log (s : State) (t w : Nat) (full : Bool) : (setTag s t w full).log = s.log := by rw [setTag]
@[simp] theorem setTag_irq (s : State) (t w : Nat) (full : Bool) : (setTag s t w full).irq = s.irq := by rw [setTag]
@[simp] theorem setTag_net (s : State) (t w : Nat) (full : Bool) : (setTag s t w full).net = s.net := by rw [setTag]
@[simp] theorem setTag_q (s : State) (t w : Nat) (full : Bool) : (setTag s t w full).q = s.q := by rw [setTag]
@[simp] theorem setTag_flow (s : State) (t w : Nat) (full : Bool) : (setTag s t w full).flow = s.flow := by rw [setTag]
@[simp] theorem setTag_fabric (s : State) (t w : Nat) (full : Bool) : (setTag s t w full).fabric = s.fabric := by rw [setTag]
@[simp] theorem setTag_dram (s : State) (t w : Nat) (full : Bool) : (setTag s t w full).dram = s.dram := by rw [setTag]
@[simp] theorem setTag_gorbin (s : State) (t w : Nat) (full : Bool) : (setTag s t w full).gorbin = s.gorbin := by rw [setTag]
@[simp] theorem setTag_commit (s : State) (t w : Nat) (full : Bool) : (setTag s t w full).commit = s.commit := by rw [setTag]
@[simp] theorem setTag_recov (s : State) (t w : Nat) (full : Bool) : (setTag s t w full).recov = s.recov := by rw [setTag]
@[simp] theorem setTag_ufs (s : State) (t w : Nat) (full : Bool) : (setTag s t w full).ufs = s.ufs := by rw [setTag]
@[simp] theorem setTag_ckpt (s : State) (t w : Nat) (full : Bool) : (setTag s t w full).ckpt = s.ckpt := by rw [setTag]
@[simp] theorem setTag_boot (s : State) (t w : Nat) (full : Bool) : (setTag s t w full).boot = s.boot := by rw [setTag]
@[simp] theorem setTag_yew (s : State) (t w : Nat) (full : Bool) : (setTag s t w full).yew = s.yew := by rw [setTag]
@[simp] theorem setTag_power (s : State) (t w : Nat) (full : Bool) : (setTag s t w full).power = s.power := by rw [setTag]
@[simp] theorem setTag_sec (s : State) (t w : Nat) (full : Bool) : (setTag s t w full).sec = s.sec := by rw [setTag]
@[simp] theorem setTag_module (s : State) (t w : Nat) (full : Bool) : (setTag s t w full).module = s.module := by rw [setTag]
@[simp] theorem setTag_out (s : State) (t w : Nat) (full : Bool) : (setTag s t w full).out = s.out := by rw [setTag]
@[simp] theorem rd_setTag (s : State) (t w : Nat) (full : Bool) (k : Nat) : rd (setTag s t w full) k = rd s k := rd_congr (setTag_regs s t w full) k
@[simp] theorem readByte_setTag (s : State) (t w : Nat) (full : Bool) (c : Nat) : readByte (setTag s t w full) c = readByte s c := readByte_congr (setTag_mem s t w full) (setTag_fills s t w full) c

/-! ### `setAtt` changes `commit` alone -/

@[simp] theorem setAtt_pending (s : State) (c : Nat) (a : Attempt) : (setAtt s c a).pending = s.pending := by rw [setAtt]
@[simp] theorem setAtt_free (s : State) (c : Nat) (a : Attempt) : (setAtt s c a).free = s.free := by rw [setAtt]
@[simp] theorem setAtt_regs (s : State) (c : Nat) (a : Attempt) : (setAtt s c a).regs = s.regs := by rw [setAtt]
@[simp] theorem setAtt_mem (s : State) (c : Nat) (a : Attempt) : (setAtt s c a).mem = s.mem := by rw [setAtt]
@[simp] theorem setAtt_fills (s : State) (c : Nat) (a : Attempt) : (setAtt s c a).fills = s.fills := by rw [setAtt]
@[simp] theorem setAtt_chk (s : State) (c : Nat) (a : Attempt) : (setAtt s c a).chk = s.chk := by rw [setAtt]
@[simp] theorem setAtt_limits (s : State) (c : Nat) (a : Attempt) : (setAtt s c a).limits = s.limits := by rw [setAtt]
@[simp] theorem setAtt_time (s : State) (c : Nat) (a : Attempt) : (setAtt s c a).time = s.time := by rw [setAtt]
@[simp] theorem setAtt_log (s : State) (c : Nat) (a : Attempt) : (setAtt s c a).log = s.log := by rw [setAtt]
@[simp] theorem setAtt_irq (s : State) (c : Nat) (a : Attempt) : (setAtt s c a).irq = s.irq := by rw [setAtt]
@[simp] theorem setAtt_net (s : State) (c : Nat) (a : Attempt) : (setAtt s c a).net = s.net := by rw [setAtt]
@[simp] theorem setAtt_q (s : State) (c : Nat) (a : Attempt) : (setAtt s c a).q = s.q := by rw [setAtt]
@[simp] theorem setAtt_flow (s : State) (c : Nat) (a : Attempt) : (setAtt s c a).flow = s.flow := by rw [setAtt]
@[simp] theorem setAtt_pad (s : State) (c : Nat) (a : Attempt) : (setAtt s c a).pad = s.pad := by rw [setAtt]
@[simp] theorem setAtt_fabric (s : State) (c : Nat) (a : Attempt) : (setAtt s c a).fabric = s.fabric := by rw [setAtt]
@[simp] theorem setAtt_dram (s : State) (c : Nat) (a : Attempt) : (setAtt s c a).dram = s.dram := by rw [setAtt]
@[simp] theorem setAtt_gorbin (s : State) (c : Nat) (a : Attempt) : (setAtt s c a).gorbin = s.gorbin := by rw [setAtt]
@[simp] theorem setAtt_recov (s : State) (c : Nat) (a : Attempt) : (setAtt s c a).recov = s.recov := by rw [setAtt]
@[simp] theorem setAtt_ufs (s : State) (c : Nat) (a : Attempt) : (setAtt s c a).ufs = s.ufs := by rw [setAtt]
@[simp] theorem setAtt_ckpt (s : State) (c : Nat) (a : Attempt) : (setAtt s c a).ckpt = s.ckpt := by rw [setAtt]
@[simp] theorem setAtt_boot (s : State) (c : Nat) (a : Attempt) : (setAtt s c a).boot = s.boot := by rw [setAtt]
@[simp] theorem setAtt_yew (s : State) (c : Nat) (a : Attempt) : (setAtt s c a).yew = s.yew := by rw [setAtt]
@[simp] theorem setAtt_power (s : State) (c : Nat) (a : Attempt) : (setAtt s c a).power = s.power := by rw [setAtt]
@[simp] theorem setAtt_sec (s : State) (c : Nat) (a : Attempt) : (setAtt s c a).sec = s.sec := by rw [setAtt]
@[simp] theorem setAtt_module (s : State) (c : Nat) (a : Attempt) : (setAtt s c a).module = s.module := by rw [setAtt]
@[simp] theorem setAtt_out (s : State) (c : Nat) (a : Attempt) : (setAtt s c a).out = s.out := by rw [setAtt]
@[simp] theorem rd_setAtt (s : State) (c : Nat) (a : Attempt) (k : Nat) : rd (setAtt s c a) k = rd s k := rd_congr (setAtt_regs s c a) k
@[simp] theorem readByte_setAtt (s : State) (c : Nat) (a : Attempt) (adr : Nat) : readByte (setAtt s c a) adr = readByte s adr := readByte_congr (setAtt_mem s c a) (setAtt_fills s c a) adr

/-! ### `setStream` changes `ckpt` alone -/

@[simp] theorem setStream_pending (s : State) (n : Nat) (x : CkStream) : (setStream s n x).pending = s.pending := by rw [setStream]
@[simp] theorem setStream_free (s : State) (n : Nat) (x : CkStream) : (setStream s n x).free = s.free := by rw [setStream]
@[simp] theorem setStream_regs (s : State) (n : Nat) (x : CkStream) : (setStream s n x).regs = s.regs := by rw [setStream]
@[simp] theorem setStream_mem (s : State) (n : Nat) (x : CkStream) : (setStream s n x).mem = s.mem := by rw [setStream]
@[simp] theorem setStream_fills (s : State) (n : Nat) (x : CkStream) : (setStream s n x).fills = s.fills := by rw [setStream]
@[simp] theorem setStream_chk (s : State) (n : Nat) (x : CkStream) : (setStream s n x).chk = s.chk := by rw [setStream]
@[simp] theorem setStream_limits (s : State) (n : Nat) (x : CkStream) : (setStream s n x).limits = s.limits := by rw [setStream]
@[simp] theorem setStream_time (s : State) (n : Nat) (x : CkStream) : (setStream s n x).time = s.time := by rw [setStream]
@[simp] theorem setStream_log (s : State) (n : Nat) (x : CkStream) : (setStream s n x).log = s.log := by rw [setStream]
@[simp] theorem setStream_irq (s : State) (n : Nat) (x : CkStream) : (setStream s n x).irq = s.irq := by rw [setStream]
@[simp] theorem setStream_net (s : State) (n : Nat) (x : CkStream) : (setStream s n x).net = s.net := by rw [setStream]
@[simp] theorem setStream_q (s : State) (n : Nat) (x : CkStream) : (setStream s n x).q = s.q := by rw [setStream]
@[simp] theorem setStream_flow (s : State) (n : Nat) (x : CkStream) : (setStream s n x).flow = s.flow := by rw [setStream]
@[simp] theorem setStream_pad (s : State) (n : Nat) (x : CkStream) : (setStream s n x).pad = s.pad := by rw [setStream]
@[simp] theorem setStream_fabric (s : State) (n : Nat) (x : CkStream) : (setStream s n x).fabric = s.fabric := by rw [setStream]
@[simp] theorem setStream_dram (s : State) (n : Nat) (x : CkStream) : (setStream s n x).dram = s.dram := by rw [setStream]
@[simp] theorem setStream_gorbin (s : State) (n : Nat) (x : CkStream) : (setStream s n x).gorbin = s.gorbin := by rw [setStream]
@[simp] theorem setStream_commit (s : State) (n : Nat) (x : CkStream) : (setStream s n x).commit = s.commit := by rw [setStream]
@[simp] theorem setStream_recov (s : State) (n : Nat) (x : CkStream) : (setStream s n x).recov = s.recov := by rw [setStream]
@[simp] theorem setStream_ufs (s : State) (n : Nat) (x : CkStream) : (setStream s n x).ufs = s.ufs := by rw [setStream]
@[simp] theorem setStream_boot (s : State) (n : Nat) (x : CkStream) : (setStream s n x).boot = s.boot := by rw [setStream]
@[simp] theorem setStream_yew (s : State) (n : Nat) (x : CkStream) : (setStream s n x).yew = s.yew := by rw [setStream]
@[simp] theorem setStream_power (s : State) (n : Nat) (x : CkStream) : (setStream s n x).power = s.power := by rw [setStream]
@[simp] theorem setStream_sec (s : State) (n : Nat) (x : CkStream) : (setStream s n x).sec = s.sec := by rw [setStream]
@[simp] theorem setStream_module (s : State) (n : Nat) (x : CkStream) : (setStream s n x).module = s.module := by rw [setStream]
@[simp] theorem setStream_out (s : State) (n : Nat) (x : CkStream) : (setStream s n x).out = s.out := by rw [setStream]
@[simp] theorem rd_setStream (s : State) (n : Nat) (x : CkStream) (k : Nat) : rd (setStream s n x) k = rd s k := rd_congr (setStream_regs s n x) k
@[simp] theorem readByte_setStream (s : State) (n : Nat) (x : CkStream) (c : Nat) : readByte (setStream s n x) c = readByte s c := readByte_congr (setStream_mem s n x) (setStream_fills s n x) c

/-! ### `setUfs` changes `ufs` alone -/

@[simp] theorem setUfs_pending (s : State) (l : List UfsCmd) : (setUfs s l).pending = s.pending := by rw [setUfs]
@[simp] theorem setUfs_free (s : State) (l : List UfsCmd) : (setUfs s l).free = s.free := by rw [setUfs]
@[simp] theorem setUfs_regs (s : State) (l : List UfsCmd) : (setUfs s l).regs = s.regs := by rw [setUfs]
@[simp] theorem setUfs_mem (s : State) (l : List UfsCmd) : (setUfs s l).mem = s.mem := by rw [setUfs]
@[simp] theorem setUfs_fills (s : State) (l : List UfsCmd) : (setUfs s l).fills = s.fills := by rw [setUfs]
@[simp] theorem setUfs_chk (s : State) (l : List UfsCmd) : (setUfs s l).chk = s.chk := by rw [setUfs]
@[simp] theorem setUfs_limits (s : State) (l : List UfsCmd) : (setUfs s l).limits = s.limits := by rw [setUfs]
@[simp] theorem setUfs_time (s : State) (l : List UfsCmd) : (setUfs s l).time = s.time := by rw [setUfs]
@[simp] theorem setUfs_log (s : State) (l : List UfsCmd) : (setUfs s l).log = s.log := by rw [setUfs]
@[simp] theorem setUfs_irq (s : State) (l : List UfsCmd) : (setUfs s l).irq = s.irq := by rw [setUfs]
@[simp] theorem setUfs_net (s : State) (l : List UfsCmd) : (setUfs s l).net = s.net := by rw [setUfs]
@[simp] theorem setUfs_q (s : State) (l : List UfsCmd) : (setUfs s l).q = s.q := by rw [setUfs]
@[simp] theorem setUfs_flow (s : State) (l : List UfsCmd) : (setUfs s l).flow = s.flow := by rw [setUfs]
@[simp] theorem setUfs_pad (s : State) (l : List UfsCmd) : (setUfs s l).pad = s.pad := by rw [setUfs]
@[simp] theorem setUfs_fabric (s : State) (l : List UfsCmd) : (setUfs s l).fabric = s.fabric := by rw [setUfs]
@[simp] theorem setUfs_dram (s : State) (l : List UfsCmd) : (setUfs s l).dram = s.dram := by rw [setUfs]
@[simp] theorem setUfs_gorbin (s : State) (l : List UfsCmd) : (setUfs s l).gorbin = s.gorbin := by rw [setUfs]
@[simp] theorem setUfs_commit (s : State) (l : List UfsCmd) : (setUfs s l).commit = s.commit := by rw [setUfs]
@[simp] theorem setUfs_recov (s : State) (l : List UfsCmd) : (setUfs s l).recov = s.recov := by rw [setUfs]
@[simp] theorem setUfs_ckpt (s : State) (l : List UfsCmd) : (setUfs s l).ckpt = s.ckpt := by rw [setUfs]
@[simp] theorem setUfs_boot (s : State) (l : List UfsCmd) : (setUfs s l).boot = s.boot := by rw [setUfs]
@[simp] theorem setUfs_yew (s : State) (l : List UfsCmd) : (setUfs s l).yew = s.yew := by rw [setUfs]
@[simp] theorem setUfs_power (s : State) (l : List UfsCmd) : (setUfs s l).power = s.power := by rw [setUfs]
@[simp] theorem setUfs_sec (s : State) (l : List UfsCmd) : (setUfs s l).sec = s.sec := by rw [setUfs]
@[simp] theorem setUfs_module (s : State) (l : List UfsCmd) : (setUfs s l).module = s.module := by rw [setUfs]
@[simp] theorem setUfs_out (s : State) (l : List UfsCmd) : (setUfs s l).out = s.out := by rw [setUfs]
@[simp] theorem rd_setUfs (s : State) (l : List UfsCmd) (k : Nat) : rd (setUfs s l) k = rd s k := rd_congr (setUfs_regs s l) k
@[simp] theorem readByte_setUfs (s : State) (l : List UfsCmd) (c : Nat) : readByte (setUfs s l) c = readByte s c := readByte_congr (setUfs_mem s l) (setUfs_fills s l) c

/-! ### `setFw` changes `boot` alone -/

@[simp] theorem setFw_pending (s : State) (t k : Nat) (c : FwChunk) : (setFw s t k c).pending = s.pending := by rw [setFw]
@[simp] theorem setFw_free (s : State) (t k : Nat) (c : FwChunk) : (setFw s t k c).free = s.free := by rw [setFw]
@[simp] theorem setFw_regs (s : State) (t k : Nat) (c : FwChunk) : (setFw s t k c).regs = s.regs := by rw [setFw]
@[simp] theorem setFw_mem (s : State) (t k : Nat) (c : FwChunk) : (setFw s t k c).mem = s.mem := by rw [setFw]
@[simp] theorem setFw_fills (s : State) (t k : Nat) (c : FwChunk) : (setFw s t k c).fills = s.fills := by rw [setFw]
@[simp] theorem setFw_chk (s : State) (t k : Nat) (c : FwChunk) : (setFw s t k c).chk = s.chk := by rw [setFw]
@[simp] theorem setFw_limits (s : State) (t k : Nat) (c : FwChunk) : (setFw s t k c).limits = s.limits := by rw [setFw]
@[simp] theorem setFw_time (s : State) (t k : Nat) (c : FwChunk) : (setFw s t k c).time = s.time := by rw [setFw]
@[simp] theorem setFw_log (s : State) (t k : Nat) (c : FwChunk) : (setFw s t k c).log = s.log := by rw [setFw]
@[simp] theorem setFw_irq (s : State) (t k : Nat) (c : FwChunk) : (setFw s t k c).irq = s.irq := by rw [setFw]
@[simp] theorem setFw_net (s : State) (t k : Nat) (c : FwChunk) : (setFw s t k c).net = s.net := by rw [setFw]
@[simp] theorem setFw_q (s : State) (t k : Nat) (c : FwChunk) : (setFw s t k c).q = s.q := by rw [setFw]
@[simp] theorem setFw_flow (s : State) (t k : Nat) (c : FwChunk) : (setFw s t k c).flow = s.flow := by rw [setFw]
@[simp] theorem setFw_pad (s : State) (t k : Nat) (c : FwChunk) : (setFw s t k c).pad = s.pad := by rw [setFw]
@[simp] theorem setFw_fabric (s : State) (t k : Nat) (c : FwChunk) : (setFw s t k c).fabric = s.fabric := by rw [setFw]
@[simp] theorem setFw_dram (s : State) (t k : Nat) (c : FwChunk) : (setFw s t k c).dram = s.dram := by rw [setFw]
@[simp] theorem setFw_gorbin (s : State) (t k : Nat) (c : FwChunk) : (setFw s t k c).gorbin = s.gorbin := by rw [setFw]
@[simp] theorem setFw_commit (s : State) (t k : Nat) (c : FwChunk) : (setFw s t k c).commit = s.commit := by rw [setFw]
@[simp] theorem setFw_recov (s : State) (t k : Nat) (c : FwChunk) : (setFw s t k c).recov = s.recov := by rw [setFw]
@[simp] theorem setFw_ufs (s : State) (t k : Nat) (c : FwChunk) : (setFw s t k c).ufs = s.ufs := by rw [setFw]
@[simp] theorem setFw_ckpt (s : State) (t k : Nat) (c : FwChunk) : (setFw s t k c).ckpt = s.ckpt := by rw [setFw]
@[simp] theorem setFw_yew (s : State) (t k : Nat) (c : FwChunk) : (setFw s t k c).yew = s.yew := by rw [setFw]
@[simp] theorem setFw_power (s : State) (t k : Nat) (c : FwChunk) : (setFw s t k c).power = s.power := by rw [setFw]
@[simp] theorem setFw_sec (s : State) (t k : Nat) (c : FwChunk) : (setFw s t k c).sec = s.sec := by rw [setFw]
@[simp] theorem setFw_module (s : State) (t k : Nat) (c : FwChunk) : (setFw s t k c).module = s.module := by rw [setFw]
@[simp] theorem setFw_out (s : State) (t k : Nat) (c : FwChunk) : (setFw s t k c).out = s.out := by rw [setFw]
@[simp] theorem rd_setFw (s : State) (t k : Nat) (c : FwChunk) (key : Nat) : rd (setFw s t k c) key = rd s key := rd_congr (setFw_regs s t k c) key
@[simp] theorem readByte_setFw (s : State) (t k : Nat) (c : FwChunk) (adr : Nat) : readByte (setFw s t k c) adr = readByte s adr := readByte_congr (setFw_mem s t k c) (setFw_fills s t k c) adr

/-! ### `setHour` changes `yew` alone -/

@[simp] theorem setHour_pending (s : State) (k c : Nat) (h : HourStat) : (setHour s k c h).pending = s.pending := by rw [setHour]
@[simp] theorem setHour_free (s : State) (k c : Nat) (h : HourStat) : (setHour s k c h).free = s.free := by rw [setHour]
@[simp] theorem setHour_regs (s : State) (k c : Nat) (h : HourStat) : (setHour s k c h).regs = s.regs := by rw [setHour]
@[simp] theorem setHour_mem (s : State) (k c : Nat) (h : HourStat) : (setHour s k c h).mem = s.mem := by rw [setHour]
@[simp] theorem setHour_fills (s : State) (k c : Nat) (h : HourStat) : (setHour s k c h).fills = s.fills := by rw [setHour]
@[simp] theorem setHour_chk (s : State) (k c : Nat) (h : HourStat) : (setHour s k c h).chk = s.chk := by rw [setHour]
@[simp] theorem setHour_limits (s : State) (k c : Nat) (h : HourStat) : (setHour s k c h).limits = s.limits := by rw [setHour]
@[simp] theorem setHour_time (s : State) (k c : Nat) (h : HourStat) : (setHour s k c h).time = s.time := by rw [setHour]
@[simp] theorem setHour_log (s : State) (k c : Nat) (h : HourStat) : (setHour s k c h).log = s.log := by rw [setHour]
@[simp] theorem setHour_irq (s : State) (k c : Nat) (h : HourStat) : (setHour s k c h).irq = s.irq := by rw [setHour]
@[simp] theorem setHour_net (s : State) (k c : Nat) (h : HourStat) : (setHour s k c h).net = s.net := by rw [setHour]
@[simp] theorem setHour_q (s : State) (k c : Nat) (h : HourStat) : (setHour s k c h).q = s.q := by rw [setHour]
@[simp] theorem setHour_flow (s : State) (k c : Nat) (h : HourStat) : (setHour s k c h).flow = s.flow := by rw [setHour]
@[simp] theorem setHour_pad (s : State) (k c : Nat) (h : HourStat) : (setHour s k c h).pad = s.pad := by rw [setHour]
@[simp] theorem setHour_fabric (s : State) (k c : Nat) (h : HourStat) : (setHour s k c h).fabric = s.fabric := by rw [setHour]
@[simp] theorem setHour_dram (s : State) (k c : Nat) (h : HourStat) : (setHour s k c h).dram = s.dram := by rw [setHour]
@[simp] theorem setHour_gorbin (s : State) (k c : Nat) (h : HourStat) : (setHour s k c h).gorbin = s.gorbin := by rw [setHour]
@[simp] theorem setHour_commit (s : State) (k c : Nat) (h : HourStat) : (setHour s k c h).commit = s.commit := by rw [setHour]
@[simp] theorem setHour_recov (s : State) (k c : Nat) (h : HourStat) : (setHour s k c h).recov = s.recov := by rw [setHour]
@[simp] theorem setHour_ufs (s : State) (k c : Nat) (h : HourStat) : (setHour s k c h).ufs = s.ufs := by rw [setHour]
@[simp] theorem setHour_ckpt (s : State) (k c : Nat) (h : HourStat) : (setHour s k c h).ckpt = s.ckpt := by rw [setHour]
@[simp] theorem setHour_boot (s : State) (k c : Nat) (h : HourStat) : (setHour s k c h).boot = s.boot := by rw [setHour]
@[simp] theorem setHour_power (s : State) (k c : Nat) (h : HourStat) : (setHour s k c h).power = s.power := by rw [setHour]
@[simp] theorem setHour_sec (s : State) (k c : Nat) (h : HourStat) : (setHour s k c h).sec = s.sec := by rw [setHour]
@[simp] theorem setHour_module (s : State) (k c : Nat) (h : HourStat) : (setHour s k c h).module = s.module := by rw [setHour]
@[simp] theorem setHour_out (s : State) (k c : Nat) (h : HourStat) : (setHour s k c h).out = s.out := by rw [setHour]
@[simp] theorem rd_setHour (s : State) (k c : Nat) (h : HourStat) (key : Nat) : rd (setHour s k c h) key = rd s key := rd_congr (setHour_regs s k c h) key
@[simp] theorem readByte_setHour (s : State) (k c : Nat) (h : HourStat) (adr : Nat) : readByte (setHour s k c h) adr = readByte s adr := readByte_congr (setHour_mem s k c h) (setHour_fills s k c h) adr

/-! ### `drawnMany` changes `free` alone -/

@[simp] theorem drawnMany_pending (s : State) (n : Nat) : (drawnMany s n).pending = s.pending := by rw [drawnMany]
@[simp] theorem drawnMany_regs (s : State) (n : Nat) : (drawnMany s n).regs = s.regs := by rw [drawnMany]
@[simp] theorem drawnMany_mem (s : State) (n : Nat) : (drawnMany s n).mem = s.mem := by rw [drawnMany]
@[simp] theorem drawnMany_fills (s : State) (n : Nat) : (drawnMany s n).fills = s.fills := by rw [drawnMany]
@[simp] theorem drawnMany_chk (s : State) (n : Nat) : (drawnMany s n).chk = s.chk := by rw [drawnMany]
@[simp] theorem drawnMany_limits (s : State) (n : Nat) : (drawnMany s n).limits = s.limits := by rw [drawnMany]
@[simp] theorem drawnMany_time (s : State) (n : Nat) : (drawnMany s n).time = s.time := by rw [drawnMany]
@[simp] theorem drawnMany_log (s : State) (n : Nat) : (drawnMany s n).log = s.log := by rw [drawnMany]
@[simp] theorem drawnMany_irq (s : State) (n : Nat) : (drawnMany s n).irq = s.irq := by rw [drawnMany]
@[simp] theorem drawnMany_net (s : State) (n : Nat) : (drawnMany s n).net = s.net := by rw [drawnMany]
@[simp] theorem drawnMany_q (s : State) (n : Nat) : (drawnMany s n).q = s.q := by rw [drawnMany]
@[simp] theorem drawnMany_flow (s : State) (n : Nat) : (drawnMany s n).flow = s.flow := by rw [drawnMany]
@[simp] theorem drawnMany_pad (s : State) (n : Nat) : (drawnMany s n).pad = s.pad := by rw [drawnMany]
@[simp] theorem drawnMany_fabric (s : State) (n : Nat) : (drawnMany s n).fabric = s.fabric := by rw [drawnMany]
@[simp] theorem drawnMany_dram (s : State) (n : Nat) : (drawnMany s n).dram = s.dram := by rw [drawnMany]
@[simp] theorem drawnMany_gorbin (s : State) (n : Nat) : (drawnMany s n).gorbin = s.gorbin := by rw [drawnMany]
@[simp] theorem drawnMany_commit (s : State) (n : Nat) : (drawnMany s n).commit = s.commit := by rw [drawnMany]
@[simp] theorem drawnMany_recov (s : State) (n : Nat) : (drawnMany s n).recov = s.recov := by rw [drawnMany]
@[simp] theorem drawnMany_ufs (s : State) (n : Nat) : (drawnMany s n).ufs = s.ufs := by rw [drawnMany]
@[simp] theorem drawnMany_ckpt (s : State) (n : Nat) : (drawnMany s n).ckpt = s.ckpt := by rw [drawnMany]
@[simp] theorem drawnMany_boot (s : State) (n : Nat) : (drawnMany s n).boot = s.boot := by rw [drawnMany]
@[simp] theorem drawnMany_yew (s : State) (n : Nat) : (drawnMany s n).yew = s.yew := by rw [drawnMany]
@[simp] theorem drawnMany_power (s : State) (n : Nat) : (drawnMany s n).power = s.power := by rw [drawnMany]
@[simp] theorem drawnMany_sec (s : State) (n : Nat) : (drawnMany s n).sec = s.sec := by rw [drawnMany]
@[simp] theorem drawnMany_module (s : State) (n : Nat) : (drawnMany s n).module = s.module := by rw [drawnMany]
@[simp] theorem drawnMany_out (s : State) (n : Nat) : (drawnMany s n).out = s.out := by rw [drawnMany]
@[simp] theorem rd_drawnMany (s : State) (n : Nat) (key : Nat) : rd (drawnMany s n) key = rd s key := rd_congr (drawnMany_regs s n) key
@[simp] theorem readByte_drawnMany (s : State) (n : Nat) (adr : Nat) : readByte (drawnMany s n) adr = readByte s adr := readByte_congr (drawnMany_mem s n) (drawnMany_fills s n) adr

/-! ### `setEndHeld` changes `commit` alone -/

@[simp] theorem setEndHeld_pending (s : State) (t c : Nat) (b : Bool) : (setEndHeld s t c b).pending = s.pending := by rw [setEndHeld]
@[simp] theorem setEndHeld_free (s : State) (t c : Nat) (b : Bool) : (setEndHeld s t c b).free = s.free := by rw [setEndHeld]
@[simp] theorem setEndHeld_regs (s : State) (t c : Nat) (b : Bool) : (setEndHeld s t c b).regs = s.regs := by rw [setEndHeld]
@[simp] theorem setEndHeld_mem (s : State) (t c : Nat) (b : Bool) : (setEndHeld s t c b).mem = s.mem := by rw [setEndHeld]
@[simp] theorem setEndHeld_fills (s : State) (t c : Nat) (b : Bool) : (setEndHeld s t c b).fills = s.fills := by rw [setEndHeld]
@[simp] theorem setEndHeld_chk (s : State) (t c : Nat) (b : Bool) : (setEndHeld s t c b).chk = s.chk := by rw [setEndHeld]
@[simp] theorem setEndHeld_limits (s : State) (t c : Nat) (b : Bool) : (setEndHeld s t c b).limits = s.limits := by rw [setEndHeld]
@[simp] theorem setEndHeld_time (s : State) (t c : Nat) (b : Bool) : (setEndHeld s t c b).time = s.time := by rw [setEndHeld]
@[simp] theorem setEndHeld_log (s : State) (t c : Nat) (b : Bool) : (setEndHeld s t c b).log = s.log := by rw [setEndHeld]
@[simp] theorem setEndHeld_irq (s : State) (t c : Nat) (b : Bool) : (setEndHeld s t c b).irq = s.irq := by rw [setEndHeld]
@[simp] theorem setEndHeld_net (s : State) (t c : Nat) (b : Bool) : (setEndHeld s t c b).net = s.net := by rw [setEndHeld]
@[simp] theorem setEndHeld_q (s : State) (t c : Nat) (b : Bool) : (setEndHeld s t c b).q = s.q := by rw [setEndHeld]
@[simp] theorem setEndHeld_flow (s : State) (t c : Nat) (b : Bool) : (setEndHeld s t c b).flow = s.flow := by rw [setEndHeld]
@[simp] theorem setEndHeld_pad (s : State) (t c : Nat) (b : Bool) : (setEndHeld s t c b).pad = s.pad := by rw [setEndHeld]
@[simp] theorem setEndHeld_fabric (s : State) (t c : Nat) (b : Bool) : (setEndHeld s t c b).fabric = s.fabric := by rw [setEndHeld]
@[simp] theorem setEndHeld_dram (s : State) (t c : Nat) (b : Bool) : (setEndHeld s t c b).dram = s.dram := by rw [setEndHeld]
@[simp] theorem setEndHeld_gorbin (s : State) (t c : Nat) (b : Bool) : (setEndHeld s t c b).gorbin = s.gorbin := by rw [setEndHeld]
@[simp] theorem setEndHeld_recov (s : State) (t c : Nat) (b : Bool) : (setEndHeld s t c b).recov = s.recov := by rw [setEndHeld]
@[simp] theorem setEndHeld_ufs (s : State) (t c : Nat) (b : Bool) : (setEndHeld s t c b).ufs = s.ufs := by rw [setEndHeld]
@[simp] theorem setEndHeld_ckpt (s : State) (t c : Nat) (b : Bool) : (setEndHeld s t c b).ckpt = s.ckpt := by rw [setEndHeld]
@[simp] theorem setEndHeld_boot (s : State) (t c : Nat) (b : Bool) : (setEndHeld s t c b).boot = s.boot := by rw [setEndHeld]
@[simp] theorem setEndHeld_yew (s : State) (t c : Nat) (b : Bool) : (setEndHeld s t c b).yew = s.yew := by rw [setEndHeld]
@[simp] theorem setEndHeld_power (s : State) (t c : Nat) (b : Bool) : (setEndHeld s t c b).power = s.power := by rw [setEndHeld]
@[simp] theorem setEndHeld_sec (s : State) (t c : Nat) (b : Bool) : (setEndHeld s t c b).sec = s.sec := by rw [setEndHeld]
@[simp] theorem setEndHeld_module (s : State) (t c : Nat) (b : Bool) : (setEndHeld s t c b).module = s.module := by rw [setEndHeld]
@[simp] theorem setEndHeld_out (s : State) (t c : Nat) (b : Bool) : (setEndHeld s t c b).out = s.out := by rw [setEndHeld]
@[simp] theorem rd_setEndHeld (s : State) (t c : Nat) (b : Bool) (key : Nat) : rd (setEndHeld s t c b) key = rd s key := rd_congr (setEndHeld_regs s t c b) key
@[simp] theorem readByte_setEndHeld (s : State) (t c : Nat) (b : Bool) (adr : Nat) : readByte (setEndHeld s t c b) adr = readByte s adr := readByte_congr (setEndHeld_mem s t c b) (setEndHeld_fills s t c b) adr

/-! ### `setVoteHeld` changes `commit` alone -/

@[simp] theorem setVoteHeld_pending (s : State) (t c : Nat) (b : Bool) : (setVoteHeld s t c b).pending = s.pending := by rw [setVoteHeld]
@[simp] theorem setVoteHeld_free (s : State) (t c : Nat) (b : Bool) : (setVoteHeld s t c b).free = s.free := by rw [setVoteHeld]
@[simp] theorem setVoteHeld_regs (s : State) (t c : Nat) (b : Bool) : (setVoteHeld s t c b).regs = s.regs := by rw [setVoteHeld]
@[simp] theorem setVoteHeld_mem (s : State) (t c : Nat) (b : Bool) : (setVoteHeld s t c b).mem = s.mem := by rw [setVoteHeld]
@[simp] theorem setVoteHeld_fills (s : State) (t c : Nat) (b : Bool) : (setVoteHeld s t c b).fills = s.fills := by rw [setVoteHeld]
@[simp] theorem setVoteHeld_chk (s : State) (t c : Nat) (b : Bool) : (setVoteHeld s t c b).chk = s.chk := by rw [setVoteHeld]
@[simp] theorem setVoteHeld_limits (s : State) (t c : Nat) (b : Bool) : (setVoteHeld s t c b).limits = s.limits := by rw [setVoteHeld]
@[simp] theorem setVoteHeld_time (s : State) (t c : Nat) (b : Bool) : (setVoteHeld s t c b).time = s.time := by rw [setVoteHeld]
@[simp] theorem setVoteHeld_log (s : State) (t c : Nat) (b : Bool) : (setVoteHeld s t c b).log = s.log := by rw [setVoteHeld]
@[simp] theorem setVoteHeld_irq (s : State) (t c : Nat) (b : Bool) : (setVoteHeld s t c b).irq = s.irq := by rw [setVoteHeld]
@[simp] theorem setVoteHeld_net (s : State) (t c : Nat) (b : Bool) : (setVoteHeld s t c b).net = s.net := by rw [setVoteHeld]
@[simp] theorem setVoteHeld_q (s : State) (t c : Nat) (b : Bool) : (setVoteHeld s t c b).q = s.q := by rw [setVoteHeld]
@[simp] theorem setVoteHeld_flow (s : State) (t c : Nat) (b : Bool) : (setVoteHeld s t c b).flow = s.flow := by rw [setVoteHeld]
@[simp] theorem setVoteHeld_pad (s : State) (t c : Nat) (b : Bool) : (setVoteHeld s t c b).pad = s.pad := by rw [setVoteHeld]
@[simp] theorem setVoteHeld_fabric (s : State) (t c : Nat) (b : Bool) : (setVoteHeld s t c b).fabric = s.fabric := by rw [setVoteHeld]
@[simp] theorem setVoteHeld_dram (s : State) (t c : Nat) (b : Bool) : (setVoteHeld s t c b).dram = s.dram := by rw [setVoteHeld]
@[simp] theorem setVoteHeld_gorbin (s : State) (t c : Nat) (b : Bool) : (setVoteHeld s t c b).gorbin = s.gorbin := by rw [setVoteHeld]
@[simp] theorem setVoteHeld_recov (s : State) (t c : Nat) (b : Bool) : (setVoteHeld s t c b).recov = s.recov := by rw [setVoteHeld]
@[simp] theorem setVoteHeld_ufs (s : State) (t c : Nat) (b : Bool) : (setVoteHeld s t c b).ufs = s.ufs := by rw [setVoteHeld]
@[simp] theorem setVoteHeld_ckpt (s : State) (t c : Nat) (b : Bool) : (setVoteHeld s t c b).ckpt = s.ckpt := by rw [setVoteHeld]
@[simp] theorem setVoteHeld_boot (s : State) (t c : Nat) (b : Bool) : (setVoteHeld s t c b).boot = s.boot := by rw [setVoteHeld]
@[simp] theorem setVoteHeld_yew (s : State) (t c : Nat) (b : Bool) : (setVoteHeld s t c b).yew = s.yew := by rw [setVoteHeld]
@[simp] theorem setVoteHeld_power (s : State) (t c : Nat) (b : Bool) : (setVoteHeld s t c b).power = s.power := by rw [setVoteHeld]
@[simp] theorem setVoteHeld_sec (s : State) (t c : Nat) (b : Bool) : (setVoteHeld s t c b).sec = s.sec := by rw [setVoteHeld]
@[simp] theorem setVoteHeld_module (s : State) (t c : Nat) (b : Bool) : (setVoteHeld s t c b).module = s.module := by rw [setVoteHeld]
@[simp] theorem setVoteHeld_out (s : State) (t c : Nat) (b : Bool) : (setVoteHeld s t c b).out = s.out := by rw [setVoteHeld]
@[simp] theorem rd_setVoteHeld (s : State) (t c : Nat) (b : Bool) (key : Nat) : rd (setVoteHeld s t c b) key = rd s key := rd_congr (setVoteHeld_regs s t c b) key
@[simp] theorem readByte_setVoteHeld (s : State) (t c : Nat) (b : Bool) (adr : Nat) : readByte (setVoteHeld s t c b) adr = readByte s adr := readByte_congr (setVoteHeld_mem s t c b) (setVoteHeld_fills s t c b) adr

/-! ### `setSteerSince` changes `flow` alone -/

@[simp] theorem setSteerSince_pending (s : State) (t u v : Nat) : (setSteerSince s t u v).pending = s.pending := by rw [setSteerSince]
@[simp] theorem setSteerSince_free (s : State) (t u v : Nat) : (setSteerSince s t u v).free = s.free := by rw [setSteerSince]
@[simp] theorem setSteerSince_regs (s : State) (t u v : Nat) : (setSteerSince s t u v).regs = s.regs := by rw [setSteerSince]
@[simp] theorem setSteerSince_mem (s : State) (t u v : Nat) : (setSteerSince s t u v).mem = s.mem := by rw [setSteerSince]
@[simp] theorem setSteerSince_fills (s : State) (t u v : Nat) : (setSteerSince s t u v).fills = s.fills := by rw [setSteerSince]
@[simp] theorem setSteerSince_chk (s : State) (t u v : Nat) : (setSteerSince s t u v).chk = s.chk := by rw [setSteerSince]
@[simp] theorem setSteerSince_limits (s : State) (t u v : Nat) : (setSteerSince s t u v).limits = s.limits := by rw [setSteerSince]
@[simp] theorem setSteerSince_time (s : State) (t u v : Nat) : (setSteerSince s t u v).time = s.time := by rw [setSteerSince]
@[simp] theorem setSteerSince_log (s : State) (t u v : Nat) : (setSteerSince s t u v).log = s.log := by rw [setSteerSince]
@[simp] theorem setSteerSince_irq (s : State) (t u v : Nat) : (setSteerSince s t u v).irq = s.irq := by rw [setSteerSince]
@[simp] theorem setSteerSince_net (s : State) (t u v : Nat) : (setSteerSince s t u v).net = s.net := by rw [setSteerSince]
@[simp] theorem setSteerSince_q (s : State) (t u v : Nat) : (setSteerSince s t u v).q = s.q := by rw [setSteerSince]
@[simp] theorem setSteerSince_pad (s : State) (t u v : Nat) : (setSteerSince s t u v).pad = s.pad := by rw [setSteerSince]
@[simp] theorem setSteerSince_fabric (s : State) (t u v : Nat) : (setSteerSince s t u v).fabric = s.fabric := by rw [setSteerSince]
@[simp] theorem setSteerSince_dram (s : State) (t u v : Nat) : (setSteerSince s t u v).dram = s.dram := by rw [setSteerSince]
@[simp] theorem setSteerSince_gorbin (s : State) (t u v : Nat) : (setSteerSince s t u v).gorbin = s.gorbin := by rw [setSteerSince]
@[simp] theorem setSteerSince_commit (s : State) (t u v : Nat) : (setSteerSince s t u v).commit = s.commit := by rw [setSteerSince]
@[simp] theorem setSteerSince_recov (s : State) (t u v : Nat) : (setSteerSince s t u v).recov = s.recov := by rw [setSteerSince]
@[simp] theorem setSteerSince_ufs (s : State) (t u v : Nat) : (setSteerSince s t u v).ufs = s.ufs := by rw [setSteerSince]
@[simp] theorem setSteerSince_ckpt (s : State) (t u v : Nat) : (setSteerSince s t u v).ckpt = s.ckpt := by rw [setSteerSince]
@[simp] theorem setSteerSince_boot (s : State) (t u v : Nat) : (setSteerSince s t u v).boot = s.boot := by rw [setSteerSince]
@[simp] theorem setSteerSince_yew (s : State) (t u v : Nat) : (setSteerSince s t u v).yew = s.yew := by rw [setSteerSince]
@[simp] theorem setSteerSince_power (s : State) (t u v : Nat) : (setSteerSince s t u v).power = s.power := by rw [setSteerSince]
@[simp] theorem setSteerSince_sec (s : State) (t u v : Nat) : (setSteerSince s t u v).sec = s.sec := by rw [setSteerSince]
@[simp] theorem setSteerSince_module (s : State) (t u v : Nat) : (setSteerSince s t u v).module = s.module := by rw [setSteerSince]
@[simp] theorem setSteerSince_out (s : State) (t u v : Nat) : (setSteerSince s t u v).out = s.out := by rw [setSteerSince]
@[simp] theorem rd_setSteerSince (s : State) (t u v : Nat) (key : Nat) : rd (setSteerSince s t u v) key = rd s key := rd_congr (setSteerSince_regs s t u v) key
@[simp] theorem readByte_setSteerSince (s : State) (t u v : Nat) (adr : Nat) : readByte (setSteerSince s t u v) adr = readByte s adr := readByte_congr (setSteerSince_mem s t u v) (setSteerSince_fills s t u v) adr

/-! ### `setSent` changes `fabric` alone -/

@[simp] theorem setSent_pending (s : State) (p : Nat) (l : List SentPkt) : (setSent s p l).pending = s.pending := by rw [setSent]
@[simp] theorem setSent_free (s : State) (p : Nat) (l : List SentPkt) : (setSent s p l).free = s.free := by rw [setSent]
@[simp] theorem setSent_regs (s : State) (p : Nat) (l : List SentPkt) : (setSent s p l).regs = s.regs := by rw [setSent]
@[simp] theorem setSent_mem (s : State) (p : Nat) (l : List SentPkt) : (setSent s p l).mem = s.mem := by rw [setSent]
@[simp] theorem setSent_fills (s : State) (p : Nat) (l : List SentPkt) : (setSent s p l).fills = s.fills := by rw [setSent]
@[simp] theorem setSent_chk (s : State) (p : Nat) (l : List SentPkt) : (setSent s p l).chk = s.chk := by rw [setSent]
@[simp] theorem setSent_limits (s : State) (p : Nat) (l : List SentPkt) : (setSent s p l).limits = s.limits := by rw [setSent]
@[simp] theorem setSent_time (s : State) (p : Nat) (l : List SentPkt) : (setSent s p l).time = s.time := by rw [setSent]
@[simp] theorem setSent_log (s : State) (p : Nat) (l : List SentPkt) : (setSent s p l).log = s.log := by rw [setSent]
@[simp] theorem setSent_irq (s : State) (p : Nat) (l : List SentPkt) : (setSent s p l).irq = s.irq := by rw [setSent]
@[simp] theorem setSent_net (s : State) (p : Nat) (l : List SentPkt) : (setSent s p l).net = s.net := by rw [setSent]
@[simp] theorem setSent_q (s : State) (p : Nat) (l : List SentPkt) : (setSent s p l).q = s.q := by rw [setSent]
@[simp] theorem setSent_flow (s : State) (p : Nat) (l : List SentPkt) : (setSent s p l).flow = s.flow := by rw [setSent]
@[simp] theorem setSent_pad (s : State) (p : Nat) (l : List SentPkt) : (setSent s p l).pad = s.pad := by rw [setSent]
@[simp] theorem setSent_dram (s : State) (p : Nat) (l : List SentPkt) : (setSent s p l).dram = s.dram := by rw [setSent]
@[simp] theorem setSent_gorbin (s : State) (p : Nat) (l : List SentPkt) : (setSent s p l).gorbin = s.gorbin := by rw [setSent]
@[simp] theorem setSent_commit (s : State) (p : Nat) (l : List SentPkt) : (setSent s p l).commit = s.commit := by rw [setSent]
@[simp] theorem setSent_recov (s : State) (p : Nat) (l : List SentPkt) : (setSent s p l).recov = s.recov := by rw [setSent]
@[simp] theorem setSent_ufs (s : State) (p : Nat) (l : List SentPkt) : (setSent s p l).ufs = s.ufs := by rw [setSent]
@[simp] theorem setSent_ckpt (s : State) (p : Nat) (l : List SentPkt) : (setSent s p l).ckpt = s.ckpt := by rw [setSent]
@[simp] theorem setSent_boot (s : State) (p : Nat) (l : List SentPkt) : (setSent s p l).boot = s.boot := by rw [setSent]
@[simp] theorem setSent_yew (s : State) (p : Nat) (l : List SentPkt) : (setSent s p l).yew = s.yew := by rw [setSent]
@[simp] theorem setSent_power (s : State) (p : Nat) (l : List SentPkt) : (setSent s p l).power = s.power := by rw [setSent]
@[simp] theorem setSent_sec (s : State) (p : Nat) (l : List SentPkt) : (setSent s p l).sec = s.sec := by rw [setSent]
@[simp] theorem setSent_module (s : State) (p : Nat) (l : List SentPkt) : (setSent s p l).module = s.module := by rw [setSent]
@[simp] theorem setSent_out (s : State) (p : Nat) (l : List SentPkt) : (setSent s p l).out = s.out := by rw [setSent]
@[simp] theorem rd_setSent (s : State) (p : Nat) (l : List SentPkt) (key : Nat) : rd (setSent s p l) key = rd s key := rd_congr (setSent_regs s p l) key
@[simp] theorem readByte_setSent (s : State) (p : Nat) (l : List SentPkt) (adr : Nat) : readByte (setSent s p l) adr = readByte s adr := readByte_congr (setSent_mem s p l) (setSent_fills s p l) adr

/-! ### `setEntering` changes `net` alone -/

@[simp] theorem setEntering_pending (s : State) (n ip : Nat) (l : List Flit) : (setEntering s n ip l).pending = s.pending := by rw [setEntering]
@[simp] theorem setEntering_free (s : State) (n ip : Nat) (l : List Flit) : (setEntering s n ip l).free = s.free := by rw [setEntering]
@[simp] theorem setEntering_regs (s : State) (n ip : Nat) (l : List Flit) : (setEntering s n ip l).regs = s.regs := by rw [setEntering]
@[simp] theorem setEntering_mem (s : State) (n ip : Nat) (l : List Flit) : (setEntering s n ip l).mem = s.mem := by rw [setEntering]
@[simp] theorem setEntering_fills (s : State) (n ip : Nat) (l : List Flit) : (setEntering s n ip l).fills = s.fills := by rw [setEntering]
@[simp] theorem setEntering_chk (s : State) (n ip : Nat) (l : List Flit) : (setEntering s n ip l).chk = s.chk := by rw [setEntering]
@[simp] theorem setEntering_limits (s : State) (n ip : Nat) (l : List Flit) : (setEntering s n ip l).limits = s.limits := by rw [setEntering]
@[simp] theorem setEntering_time (s : State) (n ip : Nat) (l : List Flit) : (setEntering s n ip l).time = s.time := by rw [setEntering]
@[simp] theorem setEntering_log (s : State) (n ip : Nat) (l : List Flit) : (setEntering s n ip l).log = s.log := by rw [setEntering]
@[simp] theorem setEntering_irq (s : State) (n ip : Nat) (l : List Flit) : (setEntering s n ip l).irq = s.irq := by rw [setEntering]
@[simp] theorem setEntering_q (s : State) (n ip : Nat) (l : List Flit) : (setEntering s n ip l).q = s.q := by rw [setEntering]
@[simp] theorem setEntering_flow (s : State) (n ip : Nat) (l : List Flit) : (setEntering s n ip l).flow = s.flow := by rw [setEntering]
@[simp] theorem setEntering_pad (s : State) (n ip : Nat) (l : List Flit) : (setEntering s n ip l).pad = s.pad := by rw [setEntering]
@[simp] theorem setEntering_fabric (s : State) (n ip : Nat) (l : List Flit) : (setEntering s n ip l).fabric = s.fabric := by rw [setEntering]
@[simp] theorem setEntering_dram (s : State) (n ip : Nat) (l : List Flit) : (setEntering s n ip l).dram = s.dram := by rw [setEntering]
@[simp] theorem setEntering_gorbin (s : State) (n ip : Nat) (l : List Flit) : (setEntering s n ip l).gorbin = s.gorbin := by rw [setEntering]
@[simp] theorem setEntering_commit (s : State) (n ip : Nat) (l : List Flit) : (setEntering s n ip l).commit = s.commit := by rw [setEntering]
@[simp] theorem setEntering_recov (s : State) (n ip : Nat) (l : List Flit) : (setEntering s n ip l).recov = s.recov := by rw [setEntering]
@[simp] theorem setEntering_ufs (s : State) (n ip : Nat) (l : List Flit) : (setEntering s n ip l).ufs = s.ufs := by rw [setEntering]
@[simp] theorem setEntering_ckpt (s : State) (n ip : Nat) (l : List Flit) : (setEntering s n ip l).ckpt = s.ckpt := by rw [setEntering]
@[simp] theorem setEntering_boot (s : State) (n ip : Nat) (l : List Flit) : (setEntering s n ip l).boot = s.boot := by rw [setEntering]
@[simp] theorem setEntering_yew (s : State) (n ip : Nat) (l : List Flit) : (setEntering s n ip l).yew = s.yew := by rw [setEntering]
@[simp] theorem setEntering_power (s : State) (n ip : Nat) (l : List Flit) : (setEntering s n ip l).power = s.power := by rw [setEntering]
@[simp] theorem setEntering_sec (s : State) (n ip : Nat) (l : List Flit) : (setEntering s n ip l).sec = s.sec := by rw [setEntering]
@[simp] theorem setEntering_module (s : State) (n ip : Nat) (l : List Flit) : (setEntering s n ip l).module = s.module := by rw [setEntering]
@[simp] theorem setEntering_out (s : State) (n ip : Nat) (l : List Flit) : (setEntering s n ip l).out = s.out := by rw [setEntering]
@[simp] theorem rd_setEntering (s : State) (n ip : Nat) (l : List Flit) (key : Nat) : rd (setEntering s n ip l) key = rd s key := rd_congr (setEntering_regs s n ip l) key
@[simp] theorem readByte_setEntering (s : State) (n ip : Nat) (l : List Flit) (adr : Nat) : readByte (setEntering s n ip l) adr = readByte s adr := readByte_congr (setEntering_mem s n ip l) (setEntering_fills s n ip l) adr

/-! ### `setLinkQ` changes `net` alone -/

@[simp] theorem setLinkQ_pending (s : State) (t p : Nat) (l : List Flit) : (setLinkQ s t p l).pending = s.pending := by rw [setLinkQ]
@[simp] theorem setLinkQ_free (s : State) (t p : Nat) (l : List Flit) : (setLinkQ s t p l).free = s.free := by rw [setLinkQ]
@[simp] theorem setLinkQ_regs (s : State) (t p : Nat) (l : List Flit) : (setLinkQ s t p l).regs = s.regs := by rw [setLinkQ]
@[simp] theorem setLinkQ_mem (s : State) (t p : Nat) (l : List Flit) : (setLinkQ s t p l).mem = s.mem := by rw [setLinkQ]
@[simp] theorem setLinkQ_fills (s : State) (t p : Nat) (l : List Flit) : (setLinkQ s t p l).fills = s.fills := by rw [setLinkQ]
@[simp] theorem setLinkQ_chk (s : State) (t p : Nat) (l : List Flit) : (setLinkQ s t p l).chk = s.chk := by rw [setLinkQ]
@[simp] theorem setLinkQ_limits (s : State) (t p : Nat) (l : List Flit) : (setLinkQ s t p l).limits = s.limits := by rw [setLinkQ]
@[simp] theorem setLinkQ_time (s : State) (t p : Nat) (l : List Flit) : (setLinkQ s t p l).time = s.time := by rw [setLinkQ]
@[simp] theorem setLinkQ_log (s : State) (t p : Nat) (l : List Flit) : (setLinkQ s t p l).log = s.log := by rw [setLinkQ]
@[simp] theorem setLinkQ_irq (s : State) (t p : Nat) (l : List Flit) : (setLinkQ s t p l).irq = s.irq := by rw [setLinkQ]
@[simp] theorem setLinkQ_q (s : State) (t p : Nat) (l : List Flit) : (setLinkQ s t p l).q = s.q := by rw [setLinkQ]
@[simp] theorem setLinkQ_flow (s : State) (t p : Nat) (l : List Flit) : (setLinkQ s t p l).flow = s.flow := by rw [setLinkQ]
@[simp] theorem setLinkQ_pad (s : State) (t p : Nat) (l : List Flit) : (setLinkQ s t p l).pad = s.pad := by rw [setLinkQ]
@[simp] theorem setLinkQ_fabric (s : State) (t p : Nat) (l : List Flit) : (setLinkQ s t p l).fabric = s.fabric := by rw [setLinkQ]
@[simp] theorem setLinkQ_dram (s : State) (t p : Nat) (l : List Flit) : (setLinkQ s t p l).dram = s.dram := by rw [setLinkQ]
@[simp] theorem setLinkQ_gorbin (s : State) (t p : Nat) (l : List Flit) : (setLinkQ s t p l).gorbin = s.gorbin := by rw [setLinkQ]
@[simp] theorem setLinkQ_commit (s : State) (t p : Nat) (l : List Flit) : (setLinkQ s t p l).commit = s.commit := by rw [setLinkQ]
@[simp] theorem setLinkQ_recov (s : State) (t p : Nat) (l : List Flit) : (setLinkQ s t p l).recov = s.recov := by rw [setLinkQ]
@[simp] theorem setLinkQ_ufs (s : State) (t p : Nat) (l : List Flit) : (setLinkQ s t p l).ufs = s.ufs := by rw [setLinkQ]
@[simp] theorem setLinkQ_ckpt (s : State) (t p : Nat) (l : List Flit) : (setLinkQ s t p l).ckpt = s.ckpt := by rw [setLinkQ]
@[simp] theorem setLinkQ_boot (s : State) (t p : Nat) (l : List Flit) : (setLinkQ s t p l).boot = s.boot := by rw [setLinkQ]
@[simp] theorem setLinkQ_yew (s : State) (t p : Nat) (l : List Flit) : (setLinkQ s t p l).yew = s.yew := by rw [setLinkQ]
@[simp] theorem setLinkQ_power (s : State) (t p : Nat) (l : List Flit) : (setLinkQ s t p l).power = s.power := by rw [setLinkQ]
@[simp] theorem setLinkQ_sec (s : State) (t p : Nat) (l : List Flit) : (setLinkQ s t p l).sec = s.sec := by rw [setLinkQ]
@[simp] theorem setLinkQ_module (s : State) (t p : Nat) (l : List Flit) : (setLinkQ s t p l).module = s.module := by rw [setLinkQ]
@[simp] theorem setLinkQ_out (s : State) (t p : Nat) (l : List Flit) : (setLinkQ s t p l).out = s.out := by rw [setLinkQ]
@[simp] theorem rd_setLinkQ (s : State) (t p : Nat) (l : List Flit) (key : Nat) : rd (setLinkQ s t p l) key = rd s key := rd_congr (setLinkQ_regs s t p l) key
@[simp] theorem readByte_setLinkQ (s : State) (t p : Nat) (l : List Flit) (adr : Nat) : readByte (setLinkQ s t p l) adr = readByte s adr := readByte_congr (setLinkQ_mem s t p l) (setLinkQ_fills s t p l) adr

/-! ### `setRoute` changes `net` alone -/

@[simp] theorem setRoute_pending (s : State) (t d v : Nat) : (setRoute s t d v).pending = s.pending := by rw [setRoute]
@[simp] theorem setRoute_free (s : State) (t d v : Nat) : (setRoute s t d v).free = s.free := by rw [setRoute]
@[simp] theorem setRoute_regs (s : State) (t d v : Nat) : (setRoute s t d v).regs = s.regs := by rw [setRoute]
@[simp] theorem setRoute_mem (s : State) (t d v : Nat) : (setRoute s t d v).mem = s.mem := by rw [setRoute]
@[simp] theorem setRoute_fills (s : State) (t d v : Nat) : (setRoute s t d v).fills = s.fills := by rw [setRoute]
@[simp] theorem setRoute_chk (s : State) (t d v : Nat) : (setRoute s t d v).chk = s.chk := by rw [setRoute]
@[simp] theorem setRoute_limits (s : State) (t d v : Nat) : (setRoute s t d v).limits = s.limits := by rw [setRoute]
@[simp] theorem setRoute_time (s : State) (t d v : Nat) : (setRoute s t d v).time = s.time := by rw [setRoute]
@[simp] theorem setRoute_log (s : State) (t d v : Nat) : (setRoute s t d v).log = s.log := by rw [setRoute]
@[simp] theorem setRoute_irq (s : State) (t d v : Nat) : (setRoute s t d v).irq = s.irq := by rw [setRoute]
@[simp] theorem setRoute_q (s : State) (t d v : Nat) : (setRoute s t d v).q = s.q := by rw [setRoute]
@[simp] theorem setRoute_flow (s : State) (t d v : Nat) : (setRoute s t d v).flow = s.flow := by rw [setRoute]
@[simp] theorem setRoute_pad (s : State) (t d v : Nat) : (setRoute s t d v).pad = s.pad := by rw [setRoute]
@[simp] theorem setRoute_fabric (s : State) (t d v : Nat) : (setRoute s t d v).fabric = s.fabric := by rw [setRoute]
@[simp] theorem setRoute_dram (s : State) (t d v : Nat) : (setRoute s t d v).dram = s.dram := by rw [setRoute]
@[simp] theorem setRoute_gorbin (s : State) (t d v : Nat) : (setRoute s t d v).gorbin = s.gorbin := by rw [setRoute]
@[simp] theorem setRoute_commit (s : State) (t d v : Nat) : (setRoute s t d v).commit = s.commit := by rw [setRoute]
@[simp] theorem setRoute_recov (s : State) (t d v : Nat) : (setRoute s t d v).recov = s.recov := by rw [setRoute]
@[simp] theorem setRoute_ufs (s : State) (t d v : Nat) : (setRoute s t d v).ufs = s.ufs := by rw [setRoute]
@[simp] theorem setRoute_ckpt (s : State) (t d v : Nat) : (setRoute s t d v).ckpt = s.ckpt := by rw [setRoute]
@[simp] theorem setRoute_boot (s : State) (t d v : Nat) : (setRoute s t d v).boot = s.boot := by rw [setRoute]
@[simp] theorem setRoute_yew (s : State) (t d v : Nat) : (setRoute s t d v).yew = s.yew := by rw [setRoute]
@[simp] theorem setRoute_power (s : State) (t d v : Nat) : (setRoute s t d v).power = s.power := by rw [setRoute]
@[simp] theorem setRoute_sec (s : State) (t d v : Nat) : (setRoute s t d v).sec = s.sec := by rw [setRoute]
@[simp] theorem setRoute_module (s : State) (t d v : Nat) : (setRoute s t d v).module = s.module := by rw [setRoute]
@[simp] theorem setRoute_out (s : State) (t d v : Nat) : (setRoute s t d v).out = s.out := by rw [setRoute]
@[simp] theorem rd_setRoute (s : State) (t d v : Nat) (key : Nat) : rd (setRoute s t d v) key = rd s key := rd_congr (setRoute_regs s t d v) key
@[simp] theorem readByte_setRoute (s : State) (t d v : Nat) (adr : Nat) : readByte (setRoute s t d v) adr = readByte s adr := readByte_congr (setRoute_mem s t d v) (setRoute_fills s t d v) adr

/-! ### `setDb` changes `gorbin` alone -/

@[simp] theorem setDb_pending (s : State) (n : Nat) (v : W64) : (setDb s n v).pending = s.pending := by rw [setDb]
@[simp] theorem setDb_free (s : State) (n : Nat) (v : W64) : (setDb s n v).free = s.free := by rw [setDb]
@[simp] theorem setDb_regs (s : State) (n : Nat) (v : W64) : (setDb s n v).regs = s.regs := by rw [setDb]
@[simp] theorem setDb_mem (s : State) (n : Nat) (v : W64) : (setDb s n v).mem = s.mem := by rw [setDb]
@[simp] theorem setDb_fills (s : State) (n : Nat) (v : W64) : (setDb s n v).fills = s.fills := by rw [setDb]
@[simp] theorem setDb_chk (s : State) (n : Nat) (v : W64) : (setDb s n v).chk = s.chk := by rw [setDb]
@[simp] theorem setDb_limits (s : State) (n : Nat) (v : W64) : (setDb s n v).limits = s.limits := by rw [setDb]
@[simp] theorem setDb_time (s : State) (n : Nat) (v : W64) : (setDb s n v).time = s.time := by rw [setDb]
@[simp] theorem setDb_log (s : State) (n : Nat) (v : W64) : (setDb s n v).log = s.log := by rw [setDb]
@[simp] theorem setDb_irq (s : State) (n : Nat) (v : W64) : (setDb s n v).irq = s.irq := by rw [setDb]
@[simp] theorem setDb_net (s : State) (n : Nat) (v : W64) : (setDb s n v).net = s.net := by rw [setDb]
@[simp] theorem setDb_q (s : State) (n : Nat) (v : W64) : (setDb s n v).q = s.q := by rw [setDb]
@[simp] theorem setDb_flow (s : State) (n : Nat) (v : W64) : (setDb s n v).flow = s.flow := by rw [setDb]
@[simp] theorem setDb_pad (s : State) (n : Nat) (v : W64) : (setDb s n v).pad = s.pad := by rw [setDb]
@[simp] theorem setDb_fabric (s : State) (n : Nat) (v : W64) : (setDb s n v).fabric = s.fabric := by rw [setDb]
@[simp] theorem setDb_dram (s : State) (n : Nat) (v : W64) : (setDb s n v).dram = s.dram := by rw [setDb]
@[simp] theorem setDb_commit (s : State) (n : Nat) (v : W64) : (setDb s n v).commit = s.commit := by rw [setDb]
@[simp] theorem setDb_recov (s : State) (n : Nat) (v : W64) : (setDb s n v).recov = s.recov := by rw [setDb]
@[simp] theorem setDb_ufs (s : State) (n : Nat) (v : W64) : (setDb s n v).ufs = s.ufs := by rw [setDb]
@[simp] theorem setDb_ckpt (s : State) (n : Nat) (v : W64) : (setDb s n v).ckpt = s.ckpt := by rw [setDb]
@[simp] theorem setDb_boot (s : State) (n : Nat) (v : W64) : (setDb s n v).boot = s.boot := by rw [setDb]
@[simp] theorem setDb_yew (s : State) (n : Nat) (v : W64) : (setDb s n v).yew = s.yew := by rw [setDb]
@[simp] theorem setDb_power (s : State) (n : Nat) (v : W64) : (setDb s n v).power = s.power := by rw [setDb]
@[simp] theorem setDb_sec (s : State) (n : Nat) (v : W64) : (setDb s n v).sec = s.sec := by rw [setDb]
@[simp] theorem setDb_module (s : State) (n : Nat) (v : W64) : (setDb s n v).module = s.module := by rw [setDb]
@[simp] theorem setDb_out (s : State) (n : Nat) (v : W64) : (setDb s n v).out = s.out := by rw [setDb]
@[simp] theorem rd_setDb (s : State) (n : Nat) (v : W64) (key : Nat) : rd (setDb s n v) key = rd s key := rd_congr (setDb_regs s n v) key
@[simp] theorem readByte_setDb (s : State) (n : Nat) (v : W64) (adr : Nat) : readByte (setDb s n v) adr = readByte s adr := readByte_congr (setDb_mem s n v) (setDb_fills s n v) adr

/-! ### `setGbSent` changes `gorbin` alone -/

@[simp] theorem setGbSent_pending (s : State) (l : List (Sent GbPkt)) : (setGbSent s l).pending = s.pending := by rw [setGbSent]
@[simp] theorem setGbSent_free (s : State) (l : List (Sent GbPkt)) : (setGbSent s l).free = s.free := by rw [setGbSent]
@[simp] theorem setGbSent_regs (s : State) (l : List (Sent GbPkt)) : (setGbSent s l).regs = s.regs := by rw [setGbSent]
@[simp] theorem setGbSent_mem (s : State) (l : List (Sent GbPkt)) : (setGbSent s l).mem = s.mem := by rw [setGbSent]
@[simp] theorem setGbSent_fills (s : State) (l : List (Sent GbPkt)) : (setGbSent s l).fills = s.fills := by rw [setGbSent]
@[simp] theorem setGbSent_chk (s : State) (l : List (Sent GbPkt)) : (setGbSent s l).chk = s.chk := by rw [setGbSent]
@[simp] theorem setGbSent_limits (s : State) (l : List (Sent GbPkt)) : (setGbSent s l).limits = s.limits := by rw [setGbSent]
@[simp] theorem setGbSent_time (s : State) (l : List (Sent GbPkt)) : (setGbSent s l).time = s.time := by rw [setGbSent]
@[simp] theorem setGbSent_log (s : State) (l : List (Sent GbPkt)) : (setGbSent s l).log = s.log := by rw [setGbSent]
@[simp] theorem setGbSent_irq (s : State) (l : List (Sent GbPkt)) : (setGbSent s l).irq = s.irq := by rw [setGbSent]
@[simp] theorem setGbSent_net (s : State) (l : List (Sent GbPkt)) : (setGbSent s l).net = s.net := by rw [setGbSent]
@[simp] theorem setGbSent_q (s : State) (l : List (Sent GbPkt)) : (setGbSent s l).q = s.q := by rw [setGbSent]
@[simp] theorem setGbSent_flow (s : State) (l : List (Sent GbPkt)) : (setGbSent s l).flow = s.flow := by rw [setGbSent]
@[simp] theorem setGbSent_pad (s : State) (l : List (Sent GbPkt)) : (setGbSent s l).pad = s.pad := by rw [setGbSent]
@[simp] theorem setGbSent_fabric (s : State) (l : List (Sent GbPkt)) : (setGbSent s l).fabric = s.fabric := by rw [setGbSent]
@[simp] theorem setGbSent_dram (s : State) (l : List (Sent GbPkt)) : (setGbSent s l).dram = s.dram := by rw [setGbSent]
@[simp] theorem setGbSent_commit (s : State) (l : List (Sent GbPkt)) : (setGbSent s l).commit = s.commit := by rw [setGbSent]
@[simp] theorem setGbSent_recov (s : State) (l : List (Sent GbPkt)) : (setGbSent s l).recov = s.recov := by rw [setGbSent]
@[simp] theorem setGbSent_ufs (s : State) (l : List (Sent GbPkt)) : (setGbSent s l).ufs = s.ufs := by rw [setGbSent]
@[simp] theorem setGbSent_ckpt (s : State) (l : List (Sent GbPkt)) : (setGbSent s l).ckpt = s.ckpt := by rw [setGbSent]
@[simp] theorem setGbSent_boot (s : State) (l : List (Sent GbPkt)) : (setGbSent s l).boot = s.boot := by rw [setGbSent]
@[simp] theorem setGbSent_yew (s : State) (l : List (Sent GbPkt)) : (setGbSent s l).yew = s.yew := by rw [setGbSent]
@[simp] theorem setGbSent_power (s : State) (l : List (Sent GbPkt)) : (setGbSent s l).power = s.power := by rw [setGbSent]
@[simp] theorem setGbSent_sec (s : State) (l : List (Sent GbPkt)) : (setGbSent s l).sec = s.sec := by rw [setGbSent]
@[simp] theorem setGbSent_module (s : State) (l : List (Sent GbPkt)) : (setGbSent s l).module = s.module := by rw [setGbSent]
@[simp] theorem setGbSent_out (s : State) (l : List (Sent GbPkt)) : (setGbSent s l).out = s.out := by rw [setGbSent]
@[simp] theorem rd_setGbSent (s : State) (l : List (Sent GbPkt)) (key : Nat) : rd (setGbSent s l) key = rd s key := rd_congr (setGbSent_regs s l) key
@[simp] theorem readByte_setGbSent (s : State) (l : List (Sent GbPkt)) (adr : Nat) : readByte (setGbSent s l) adr = readByte s adr := readByte_congr (setGbSent_mem s l) (setGbSent_fills s l) adr

/-! ### `noteCompat` changes `flow` alone -/

@[simp] theorem noteCompat_pending (s : State) (t n dt : Nat) : (noteCompat s t n dt).pending = s.pending := by rw [noteCompat]
@[simp] theorem noteCompat_free (s : State) (t n dt : Nat) : (noteCompat s t n dt).free = s.free := by rw [noteCompat]
@[simp] theorem noteCompat_regs (s : State) (t n dt : Nat) : (noteCompat s t n dt).regs = s.regs := by rw [noteCompat]
@[simp] theorem noteCompat_mem (s : State) (t n dt : Nat) : (noteCompat s t n dt).mem = s.mem := by rw [noteCompat]
@[simp] theorem noteCompat_fills (s : State) (t n dt : Nat) : (noteCompat s t n dt).fills = s.fills := by rw [noteCompat]
@[simp] theorem noteCompat_chk (s : State) (t n dt : Nat) : (noteCompat s t n dt).chk = s.chk := by rw [noteCompat]
@[simp] theorem noteCompat_limits (s : State) (t n dt : Nat) : (noteCompat s t n dt).limits = s.limits := by rw [noteCompat]
@[simp] theorem noteCompat_time (s : State) (t n dt : Nat) : (noteCompat s t n dt).time = s.time := by rw [noteCompat]
@[simp] theorem noteCompat_log (s : State) (t n dt : Nat) : (noteCompat s t n dt).log = s.log := by rw [noteCompat]
@[simp] theorem noteCompat_irq (s : State) (t n dt : Nat) : (noteCompat s t n dt).irq = s.irq := by rw [noteCompat]
@[simp] theorem noteCompat_net (s : State) (t n dt : Nat) : (noteCompat s t n dt).net = s.net := by rw [noteCompat]
@[simp] theorem noteCompat_q (s : State) (t n dt : Nat) : (noteCompat s t n dt).q = s.q := by rw [noteCompat]
@[simp] theorem noteCompat_pad (s : State) (t n dt : Nat) : (noteCompat s t n dt).pad = s.pad := by rw [noteCompat]
@[simp] theorem noteCompat_fabric (s : State) (t n dt : Nat) : (noteCompat s t n dt).fabric = s.fabric := by rw [noteCompat]
@[simp] theorem noteCompat_dram (s : State) (t n dt : Nat) : (noteCompat s t n dt).dram = s.dram := by rw [noteCompat]
@[simp] theorem noteCompat_gorbin (s : State) (t n dt : Nat) : (noteCompat s t n dt).gorbin = s.gorbin := by rw [noteCompat]
@[simp] theorem noteCompat_commit (s : State) (t n dt : Nat) : (noteCompat s t n dt).commit = s.commit := by rw [noteCompat]
@[simp] theorem noteCompat_recov (s : State) (t n dt : Nat) : (noteCompat s t n dt).recov = s.recov := by rw [noteCompat]
@[simp] theorem noteCompat_ufs (s : State) (t n dt : Nat) : (noteCompat s t n dt).ufs = s.ufs := by rw [noteCompat]
@[simp] theorem noteCompat_ckpt (s : State) (t n dt : Nat) : (noteCompat s t n dt).ckpt = s.ckpt := by rw [noteCompat]
@[simp] theorem noteCompat_boot (s : State) (t n dt : Nat) : (noteCompat s t n dt).boot = s.boot := by rw [noteCompat]
@[simp] theorem noteCompat_yew (s : State) (t n dt : Nat) : (noteCompat s t n dt).yew = s.yew := by rw [noteCompat]
@[simp] theorem noteCompat_power (s : State) (t n dt : Nat) : (noteCompat s t n dt).power = s.power := by rw [noteCompat]
@[simp] theorem noteCompat_sec (s : State) (t n dt : Nat) : (noteCompat s t n dt).sec = s.sec := by rw [noteCompat]
@[simp] theorem noteCompat_module (s : State) (t n dt : Nat) : (noteCompat s t n dt).module = s.module := by rw [noteCompat]
@[simp] theorem noteCompat_out (s : State) (t n dt : Nat) : (noteCompat s t n dt).out = s.out := by rw [noteCompat]
@[simp] theorem rd_noteCompat (s : State) (t n dt : Nat) (key : Nat) : rd (noteCompat s t n dt) key = rd s key := rd_congr (noteCompat_regs s t n dt) key
@[simp] theorem readByte_noteCompat (s : State) (t n dt : Nat) (adr : Nat) : readByte (noteCompat s t n dt) adr = readByte s adr := readByte_congr (noteCompat_mem s t n dt) (noteCompat_fills s t n dt) adr

/-! ### `noteTrained` changes `dram` alone -/

@[simp] theorem noteTrained_pending (s : State) (h : Nat) : (noteTrained s h).pending = s.pending := by rw [noteTrained]
@[simp] theorem noteTrained_free (s : State) (h : Nat) : (noteTrained s h).free = s.free := by rw [noteTrained]
@[simp] theorem noteTrained_regs (s : State) (h : Nat) : (noteTrained s h).regs = s.regs := by rw [noteTrained]
@[simp] theorem noteTrained_mem (s : State) (h : Nat) : (noteTrained s h).mem = s.mem := by rw [noteTrained]
@[simp] theorem noteTrained_fills (s : State) (h : Nat) : (noteTrained s h).fills = s.fills := by rw [noteTrained]
@[simp] theorem noteTrained_chk (s : State) (h : Nat) : (noteTrained s h).chk = s.chk := by rw [noteTrained]
@[simp] theorem noteTrained_limits (s : State) (h : Nat) : (noteTrained s h).limits = s.limits := by rw [noteTrained]
@[simp] theorem noteTrained_time (s : State) (h : Nat) : (noteTrained s h).time = s.time := by rw [noteTrained]
@[simp] theorem noteTrained_log (s : State) (h : Nat) : (noteTrained s h).log = s.log := by rw [noteTrained]
@[simp] theorem noteTrained_irq (s : State) (h : Nat) : (noteTrained s h).irq = s.irq := by rw [noteTrained]
@[simp] theorem noteTrained_net (s : State) (h : Nat) : (noteTrained s h).net = s.net := by rw [noteTrained]
@[simp] theorem noteTrained_q (s : State) (h : Nat) : (noteTrained s h).q = s.q := by rw [noteTrained]
@[simp] theorem noteTrained_flow (s : State) (h : Nat) : (noteTrained s h).flow = s.flow := by rw [noteTrained]
@[simp] theorem noteTrained_pad (s : State) (h : Nat) : (noteTrained s h).pad = s.pad := by rw [noteTrained]
@[simp] theorem noteTrained_fabric (s : State) (h : Nat) : (noteTrained s h).fabric = s.fabric := by rw [noteTrained]
@[simp] theorem noteTrained_gorbin (s : State) (h : Nat) : (noteTrained s h).gorbin = s.gorbin := by rw [noteTrained]
@[simp] theorem noteTrained_commit (s : State) (h : Nat) : (noteTrained s h).commit = s.commit := by rw [noteTrained]
@[simp] theorem noteTrained_recov (s : State) (h : Nat) : (noteTrained s h).recov = s.recov := by rw [noteTrained]
@[simp] theorem noteTrained_ufs (s : State) (h : Nat) : (noteTrained s h).ufs = s.ufs := by rw [noteTrained]
@[simp] theorem noteTrained_ckpt (s : State) (h : Nat) : (noteTrained s h).ckpt = s.ckpt := by rw [noteTrained]
@[simp] theorem noteTrained_boot (s : State) (h : Nat) : (noteTrained s h).boot = s.boot := by rw [noteTrained]
@[simp] theorem noteTrained_yew (s : State) (h : Nat) : (noteTrained s h).yew = s.yew := by rw [noteTrained]
@[simp] theorem noteTrained_power (s : State) (h : Nat) : (noteTrained s h).power = s.power := by rw [noteTrained]
@[simp] theorem noteTrained_sec (s : State) (h : Nat) : (noteTrained s h).sec = s.sec := by rw [noteTrained]
@[simp] theorem noteTrained_module (s : State) (h : Nat) : (noteTrained s h).module = s.module := by rw [noteTrained]
@[simp] theorem noteTrained_out (s : State) (h : Nat) : (noteTrained s h).out = s.out := by rw [noteTrained]
@[simp] theorem rd_noteTrained (s : State) (h : Nat) (key : Nat) : rd (noteTrained s h) key = rd s key := rd_congr (noteTrained_regs s h) key
@[simp] theorem readByte_noteTrained (s : State) (h : Nat) (adr : Nat) : readByte (noteTrained s h) adr = readByte s adr := readByte_congr (noteTrained_mem s h) (noteTrained_fills s h) adr

/-! ### `setFifo` changes `fabric` alone -/

@[simp] theorem setFifo_pending (s : State) (b : Nat) (l h : List (Nat × Flit)) : (setFifo s b l h).pending = s.pending := by rw [setFifo]
@[simp] theorem setFifo_free (s : State) (b : Nat) (l h : List (Nat × Flit)) : (setFifo s b l h).free = s.free := by rw [setFifo]
@[simp] theorem setFifo_regs (s : State) (b : Nat) (l h : List (Nat × Flit)) : (setFifo s b l h).regs = s.regs := by rw [setFifo]
@[simp] theorem setFifo_mem (s : State) (b : Nat) (l h : List (Nat × Flit)) : (setFifo s b l h).mem = s.mem := by rw [setFifo]
@[simp] theorem setFifo_fills (s : State) (b : Nat) (l h : List (Nat × Flit)) : (setFifo s b l h).fills = s.fills := by rw [setFifo]
@[simp] theorem setFifo_chk (s : State) (b : Nat) (l h : List (Nat × Flit)) : (setFifo s b l h).chk = s.chk := by rw [setFifo]
@[simp] theorem setFifo_limits (s : State) (b : Nat) (l h : List (Nat × Flit)) : (setFifo s b l h).limits = s.limits := by rw [setFifo]
@[simp] theorem setFifo_time (s : State) (b : Nat) (l h : List (Nat × Flit)) : (setFifo s b l h).time = s.time := by rw [setFifo]
@[simp] theorem setFifo_log (s : State) (b : Nat) (l h : List (Nat × Flit)) : (setFifo s b l h).log = s.log := by rw [setFifo]
@[simp] theorem setFifo_irq (s : State) (b : Nat) (l h : List (Nat × Flit)) : (setFifo s b l h).irq = s.irq := by rw [setFifo]
@[simp] theorem setFifo_net (s : State) (b : Nat) (l h : List (Nat × Flit)) : (setFifo s b l h).net = s.net := by rw [setFifo]
@[simp] theorem setFifo_q (s : State) (b : Nat) (l h : List (Nat × Flit)) : (setFifo s b l h).q = s.q := by rw [setFifo]
@[simp] theorem setFifo_flow (s : State) (b : Nat) (l h : List (Nat × Flit)) : (setFifo s b l h).flow = s.flow := by rw [setFifo]
@[simp] theorem setFifo_pad (s : State) (b : Nat) (l h : List (Nat × Flit)) : (setFifo s b l h).pad = s.pad := by rw [setFifo]
@[simp] theorem setFifo_dram (s : State) (b : Nat) (l h : List (Nat × Flit)) : (setFifo s b l h).dram = s.dram := by rw [setFifo]
@[simp] theorem setFifo_gorbin (s : State) (b : Nat) (l h : List (Nat × Flit)) : (setFifo s b l h).gorbin = s.gorbin := by rw [setFifo]
@[simp] theorem setFifo_commit (s : State) (b : Nat) (l h : List (Nat × Flit)) : (setFifo s b l h).commit = s.commit := by rw [setFifo]
@[simp] theorem setFifo_recov (s : State) (b : Nat) (l h : List (Nat × Flit)) : (setFifo s b l h).recov = s.recov := by rw [setFifo]
@[simp] theorem setFifo_ufs (s : State) (b : Nat) (l h : List (Nat × Flit)) : (setFifo s b l h).ufs = s.ufs := by rw [setFifo]
@[simp] theorem setFifo_ckpt (s : State) (b : Nat) (l h : List (Nat × Flit)) : (setFifo s b l h).ckpt = s.ckpt := by rw [setFifo]
@[simp] theorem setFifo_boot (s : State) (b : Nat) (l h : List (Nat × Flit)) : (setFifo s b l h).boot = s.boot := by rw [setFifo]
@[simp] theorem setFifo_yew (s : State) (b : Nat) (l h : List (Nat × Flit)) : (setFifo s b l h).yew = s.yew := by rw [setFifo]
@[simp] theorem setFifo_power (s : State) (b : Nat) (l h : List (Nat × Flit)) : (setFifo s b l h).power = s.power := by rw [setFifo]
@[simp] theorem setFifo_sec (s : State) (b : Nat) (l h : List (Nat × Flit)) : (setFifo s b l h).sec = s.sec := by rw [setFifo]
@[simp] theorem setFifo_module (s : State) (b : Nat) (l h : List (Nat × Flit)) : (setFifo s b l h).module = s.module := by rw [setFifo]
@[simp] theorem setFifo_out (s : State) (b : Nat) (l h : List (Nat × Flit)) : (setFifo s b l h).out = s.out := by rw [setFifo]
@[simp] theorem rd_setFifo (s : State) (b : Nat) (l h : List (Nat × Flit)) (key : Nat) : rd (setFifo s b l h) key = rd s key := rd_congr (setFifo_regs s b l h) key
@[simp] theorem readByte_setFifo (s : State) (b : Nat) (l h : List (Nat × Flit)) (adr : Nat) : readByte (setFifo s b l h) adr = readByte s adr := readByte_congr (setFifo_mem s b l h) (setFifo_fills s b l h) adr

/-! ### `setHsWord` changes `q` alone -/

@[simp] theorem setHsWord_pending (s : State) (t a v : Nat) : (setHsWord s t a v).pending = s.pending := by rw [setHsWord]
@[simp] theorem setHsWord_free (s : State) (t a v : Nat) : (setHsWord s t a v).free = s.free := by rw [setHsWord]
@[simp] theorem setHsWord_regs (s : State) (t a v : Nat) : (setHsWord s t a v).regs = s.regs := by rw [setHsWord]
@[simp] theorem setHsWord_mem (s : State) (t a v : Nat) : (setHsWord s t a v).mem = s.mem := by rw [setHsWord]
@[simp] theorem setHsWord_fills (s : State) (t a v : Nat) : (setHsWord s t a v).fills = s.fills := by rw [setHsWord]
@[simp] theorem setHsWord_chk (s : State) (t a v : Nat) : (setHsWord s t a v).chk = s.chk := by rw [setHsWord]
@[simp] theorem setHsWord_limits (s : State) (t a v : Nat) : (setHsWord s t a v).limits = s.limits := by rw [setHsWord]
@[simp] theorem setHsWord_time (s : State) (t a v : Nat) : (setHsWord s t a v).time = s.time := by rw [setHsWord]
@[simp] theorem setHsWord_log (s : State) (t a v : Nat) : (setHsWord s t a v).log = s.log := by rw [setHsWord]
@[simp] theorem setHsWord_irq (s : State) (t a v : Nat) : (setHsWord s t a v).irq = s.irq := by rw [setHsWord]
@[simp] theorem setHsWord_net (s : State) (t a v : Nat) : (setHsWord s t a v).net = s.net := by rw [setHsWord]
@[simp] theorem setHsWord_flow (s : State) (t a v : Nat) : (setHsWord s t a v).flow = s.flow := by rw [setHsWord]
@[simp] theorem setHsWord_pad (s : State) (t a v : Nat) : (setHsWord s t a v).pad = s.pad := by rw [setHsWord]
@[simp] theorem setHsWord_fabric (s : State) (t a v : Nat) : (setHsWord s t a v).fabric = s.fabric := by rw [setHsWord]
@[simp] theorem setHsWord_dram (s : State) (t a v : Nat) : (setHsWord s t a v).dram = s.dram := by rw [setHsWord]
@[simp] theorem setHsWord_gorbin (s : State) (t a v : Nat) : (setHsWord s t a v).gorbin = s.gorbin := by rw [setHsWord]
@[simp] theorem setHsWord_commit (s : State) (t a v : Nat) : (setHsWord s t a v).commit = s.commit := by rw [setHsWord]
@[simp] theorem setHsWord_recov (s : State) (t a v : Nat) : (setHsWord s t a v).recov = s.recov := by rw [setHsWord]
@[simp] theorem setHsWord_ufs (s : State) (t a v : Nat) : (setHsWord s t a v).ufs = s.ufs := by rw [setHsWord]
@[simp] theorem setHsWord_ckpt (s : State) (t a v : Nat) : (setHsWord s t a v).ckpt = s.ckpt := by rw [setHsWord]
@[simp] theorem setHsWord_boot (s : State) (t a v : Nat) : (setHsWord s t a v).boot = s.boot := by rw [setHsWord]
@[simp] theorem setHsWord_yew (s : State) (t a v : Nat) : (setHsWord s t a v).yew = s.yew := by rw [setHsWord]
@[simp] theorem setHsWord_power (s : State) (t a v : Nat) : (setHsWord s t a v).power = s.power := by rw [setHsWord]
@[simp] theorem setHsWord_sec (s : State) (t a v : Nat) : (setHsWord s t a v).sec = s.sec := by rw [setHsWord]
@[simp] theorem setHsWord_module (s : State) (t a v : Nat) : (setHsWord s t a v).module = s.module := by rw [setHsWord]
@[simp] theorem setHsWord_out (s : State) (t a v : Nat) : (setHsWord s t a v).out = s.out := by rw [setHsWord]
@[simp] theorem rd_setHsWord (s : State) (t a v : Nat) (key : Nat) : rd (setHsWord s t a v) key = rd s key := rd_congr (setHsWord_regs s t a v) key
@[simp] theorem readByte_setHsWord (s : State) (t a v : Nat) (adr : Nat) : readByte (setHsWord s t a v) adr = readByte s adr := readByte_congr (setHsWord_mem s t a v) (setHsWord_fills s t a v) adr

/-! ### `endRun` changes `fabric` alone -/

@[simp] theorem endRun_pending (s : State) (p : Nat) : (endRun s p).pending = s.pending := by rw [endRun]
@[simp] theorem endRun_free (s : State) (p : Nat) : (endRun s p).free = s.free := by rw [endRun]
@[simp] theorem endRun_regs (s : State) (p : Nat) : (endRun s p).regs = s.regs := by rw [endRun]
@[simp] theorem endRun_mem (s : State) (p : Nat) : (endRun s p).mem = s.mem := by rw [endRun]
@[simp] theorem endRun_fills (s : State) (p : Nat) : (endRun s p).fills = s.fills := by rw [endRun]
@[simp] theorem endRun_chk (s : State) (p : Nat) : (endRun s p).chk = s.chk := by rw [endRun]
@[simp] theorem endRun_limits (s : State) (p : Nat) : (endRun s p).limits = s.limits := by rw [endRun]
@[simp] theorem endRun_time (s : State) (p : Nat) : (endRun s p).time = s.time := by rw [endRun]
@[simp] theorem endRun_log (s : State) (p : Nat) : (endRun s p).log = s.log := by rw [endRun]
@[simp] theorem endRun_irq (s : State) (p : Nat) : (endRun s p).irq = s.irq := by rw [endRun]
@[simp] theorem endRun_net (s : State) (p : Nat) : (endRun s p).net = s.net := by rw [endRun]
@[simp] theorem endRun_q (s : State) (p : Nat) : (endRun s p).q = s.q := by rw [endRun]
@[simp] theorem endRun_flow (s : State) (p : Nat) : (endRun s p).flow = s.flow := by rw [endRun]
@[simp] theorem endRun_pad (s : State) (p : Nat) : (endRun s p).pad = s.pad := by rw [endRun]
@[simp] theorem endRun_dram (s : State) (p : Nat) : (endRun s p).dram = s.dram := by rw [endRun]
@[simp] theorem endRun_gorbin (s : State) (p : Nat) : (endRun s p).gorbin = s.gorbin := by rw [endRun]
@[simp] theorem endRun_commit (s : State) (p : Nat) : (endRun s p).commit = s.commit := by rw [endRun]
@[simp] theorem endRun_recov (s : State) (p : Nat) : (endRun s p).recov = s.recov := by rw [endRun]
@[simp] theorem endRun_ufs (s : State) (p : Nat) : (endRun s p).ufs = s.ufs := by rw [endRun]
@[simp] theorem endRun_ckpt (s : State) (p : Nat) : (endRun s p).ckpt = s.ckpt := by rw [endRun]
@[simp] theorem endRun_boot (s : State) (p : Nat) : (endRun s p).boot = s.boot := by rw [endRun]
@[simp] theorem endRun_yew (s : State) (p : Nat) : (endRun s p).yew = s.yew := by rw [endRun]
@[simp] theorem endRun_power (s : State) (p : Nat) : (endRun s p).power = s.power := by rw [endRun]
@[simp] theorem endRun_sec (s : State) (p : Nat) : (endRun s p).sec = s.sec := by rw [endRun]
@[simp] theorem endRun_module (s : State) (p : Nat) : (endRun s p).module = s.module := by rw [endRun]
@[simp] theorem endRun_out (s : State) (p : Nat) : (endRun s p).out = s.out := by rw [endRun]
@[simp] theorem rd_endRun (s : State) (p : Nat) (key : Nat) : rd (endRun s p) key = rd s key := rd_congr (endRun_regs s p) key
@[simp] theorem readByte_endRun (s : State) (p : Nat) (adr : Nat) : readByte (endRun s p) adr = readByte s adr := readByte_congr (endRun_mem s p) (endRun_fills s p) adr

/-! ### `numbered` changes `net` alone -/

@[simp] theorem numbered_pending (s : State) (n : Nat) : (numbered s n).pending = s.pending := by rw [numbered]
@[simp] theorem numbered_free (s : State) (n : Nat) : (numbered s n).free = s.free := by rw [numbered]
@[simp] theorem numbered_regs (s : State) (n : Nat) : (numbered s n).regs = s.regs := by rw [numbered]
@[simp] theorem numbered_mem (s : State) (n : Nat) : (numbered s n).mem = s.mem := by rw [numbered]
@[simp] theorem numbered_fills (s : State) (n : Nat) : (numbered s n).fills = s.fills := by rw [numbered]
@[simp] theorem numbered_chk (s : State) (n : Nat) : (numbered s n).chk = s.chk := by rw [numbered]
@[simp] theorem numbered_limits (s : State) (n : Nat) : (numbered s n).limits = s.limits := by rw [numbered]
@[simp] theorem numbered_time (s : State) (n : Nat) : (numbered s n).time = s.time := by rw [numbered]
@[simp] theorem numbered_log (s : State) (n : Nat) : (numbered s n).log = s.log := by rw [numbered]
@[simp] theorem numbered_irq (s : State) (n : Nat) : (numbered s n).irq = s.irq := by rw [numbered]
@[simp] theorem numbered_q (s : State) (n : Nat) : (numbered s n).q = s.q := by rw [numbered]
@[simp] theorem numbered_flow (s : State) (n : Nat) : (numbered s n).flow = s.flow := by rw [numbered]
@[simp] theorem numbered_pad (s : State) (n : Nat) : (numbered s n).pad = s.pad := by rw [numbered]
@[simp] theorem numbered_fabric (s : State) (n : Nat) : (numbered s n).fabric = s.fabric := by rw [numbered]
@[simp] theorem numbered_dram (s : State) (n : Nat) : (numbered s n).dram = s.dram := by rw [numbered]
@[simp] theorem numbered_gorbin (s : State) (n : Nat) : (numbered s n).gorbin = s.gorbin := by rw [numbered]
@[simp] theorem numbered_commit (s : State) (n : Nat) : (numbered s n).commit = s.commit := by rw [numbered]
@[simp] theorem numbered_recov (s : State) (n : Nat) : (numbered s n).recov = s.recov := by rw [numbered]
@[simp] theorem numbered_ufs (s : State) (n : Nat) : (numbered s n).ufs = s.ufs := by rw [numbered]
@[simp] theorem numbered_ckpt (s : State) (n : Nat) : (numbered s n).ckpt = s.ckpt := by rw [numbered]
@[simp] theorem numbered_boot (s : State) (n : Nat) : (numbered s n).boot = s.boot := by rw [numbered]
@[simp] theorem numbered_yew (s : State) (n : Nat) : (numbered s n).yew = s.yew := by rw [numbered]
@[simp] theorem numbered_power (s : State) (n : Nat) : (numbered s n).power = s.power := by rw [numbered]
@[simp] theorem numbered_sec (s : State) (n : Nat) : (numbered s n).sec = s.sec := by rw [numbered]
@[simp] theorem numbered_module (s : State) (n : Nat) : (numbered s n).module = s.module := by rw [numbered]
@[simp] theorem numbered_out (s : State) (n : Nat) : (numbered s n).out = s.out := by rw [numbered]
@[simp] theorem rd_numbered (s : State) (n : Nat) (key : Nat) : rd (numbered s n) key = rd s key := rd_congr (numbered_regs s n) key
@[simp] theorem readByte_numbered (s : State) (n : Nat) (adr : Nat) : readByte (numbered s n) adr = readByte s adr := readByte_congr (numbered_mem s n) (numbered_fills s n) adr

/-! ### `gwWaits` changes `gorbin` alone -/

@[simp] theorem gwWaits_pending (s : State) (w : Nat) : (gwWaits s w).pending = s.pending := by rw [gwWaits]
@[simp] theorem gwWaits_free (s : State) (w : Nat) : (gwWaits s w).free = s.free := by rw [gwWaits]
@[simp] theorem gwWaits_regs (s : State) (w : Nat) : (gwWaits s w).regs = s.regs := by rw [gwWaits]
@[simp] theorem gwWaits_mem (s : State) (w : Nat) : (gwWaits s w).mem = s.mem := by rw [gwWaits]
@[simp] theorem gwWaits_fills (s : State) (w : Nat) : (gwWaits s w).fills = s.fills := by rw [gwWaits]
@[simp] theorem gwWaits_chk (s : State) (w : Nat) : (gwWaits s w).chk = s.chk := by rw [gwWaits]
@[simp] theorem gwWaits_limits (s : State) (w : Nat) : (gwWaits s w).limits = s.limits := by rw [gwWaits]
@[simp] theorem gwWaits_time (s : State) (w : Nat) : (gwWaits s w).time = s.time := by rw [gwWaits]
@[simp] theorem gwWaits_log (s : State) (w : Nat) : (gwWaits s w).log = s.log := by rw [gwWaits]
@[simp] theorem gwWaits_irq (s : State) (w : Nat) : (gwWaits s w).irq = s.irq := by rw [gwWaits]
@[simp] theorem gwWaits_net (s : State) (w : Nat) : (gwWaits s w).net = s.net := by rw [gwWaits]
@[simp] theorem gwWaits_q (s : State) (w : Nat) : (gwWaits s w).q = s.q := by rw [gwWaits]
@[simp] theorem gwWaits_flow (s : State) (w : Nat) : (gwWaits s w).flow = s.flow := by rw [gwWaits]
@[simp] theorem gwWaits_pad (s : State) (w : Nat) : (gwWaits s w).pad = s.pad := by rw [gwWaits]
@[simp] theorem gwWaits_fabric (s : State) (w : Nat) : (gwWaits s w).fabric = s.fabric := by rw [gwWaits]
@[simp] theorem gwWaits_dram (s : State) (w : Nat) : (gwWaits s w).dram = s.dram := by rw [gwWaits]
@[simp] theorem gwWaits_commit (s : State) (w : Nat) : (gwWaits s w).commit = s.commit := by rw [gwWaits]
@[simp] theorem gwWaits_recov (s : State) (w : Nat) : (gwWaits s w).recov = s.recov := by rw [gwWaits]
@[simp] theorem gwWaits_ufs (s : State) (w : Nat) : (gwWaits s w).ufs = s.ufs := by rw [gwWaits]
@[simp] theorem gwWaits_ckpt (s : State) (w : Nat) : (gwWaits s w).ckpt = s.ckpt := by rw [gwWaits]
@[simp] theorem gwWaits_boot (s : State) (w : Nat) : (gwWaits s w).boot = s.boot := by rw [gwWaits]
@[simp] theorem gwWaits_yew (s : State) (w : Nat) : (gwWaits s w).yew = s.yew := by rw [gwWaits]
@[simp] theorem gwWaits_power (s : State) (w : Nat) : (gwWaits s w).power = s.power := by rw [gwWaits]
@[simp] theorem gwWaits_sec (s : State) (w : Nat) : (gwWaits s w).sec = s.sec := by rw [gwWaits]
@[simp] theorem gwWaits_module (s : State) (w : Nat) : (gwWaits s w).module = s.module := by rw [gwWaits]
@[simp] theorem gwWaits_out (s : State) (w : Nat) : (gwWaits s w).out = s.out := by rw [gwWaits]
@[simp] theorem rd_gwWaits (s : State) (w : Nat) (key : Nat) : rd (gwWaits s w) key = rd s key := rd_congr (gwWaits_regs s w) key
@[simp] theorem readByte_gwWaits (s : State) (w : Nat) (adr : Nat) : readByte (gwWaits s w) adr = readByte s adr := readByte_congr (gwWaits_mem s w) (gwWaits_fills s w) adr

/-! ### `gbKnown` changes `q` alone -/

@[simp] theorem gbKnown_pending (s : State) (p : Header → Bool) : (gbKnown s p).pending = s.pending := by rw [gbKnown]
@[simp] theorem gbKnown_free (s : State) (p : Header → Bool) : (gbKnown s p).free = s.free := by rw [gbKnown]
@[simp] theorem gbKnown_regs (s : State) (p : Header → Bool) : (gbKnown s p).regs = s.regs := by rw [gbKnown]
@[simp] theorem gbKnown_mem (s : State) (p : Header → Bool) : (gbKnown s p).mem = s.mem := by rw [gbKnown]
@[simp] theorem gbKnown_fills (s : State) (p : Header → Bool) : (gbKnown s p).fills = s.fills := by rw [gbKnown]
@[simp] theorem gbKnown_chk (s : State) (p : Header → Bool) : (gbKnown s p).chk = s.chk := by rw [gbKnown]
@[simp] theorem gbKnown_limits (s : State) (p : Header → Bool) : (gbKnown s p).limits = s.limits := by rw [gbKnown]
@[simp] theorem gbKnown_time (s : State) (p : Header → Bool) : (gbKnown s p).time = s.time := by rw [gbKnown]
@[simp] theorem gbKnown_log (s : State) (p : Header → Bool) : (gbKnown s p).log = s.log := by rw [gbKnown]
@[simp] theorem gbKnown_irq (s : State) (p : Header → Bool) : (gbKnown s p).irq = s.irq := by rw [gbKnown]
@[simp] theorem gbKnown_net (s : State) (p : Header → Bool) : (gbKnown s p).net = s.net := by rw [gbKnown]
@[simp] theorem gbKnown_flow (s : State) (p : Header → Bool) : (gbKnown s p).flow = s.flow := by rw [gbKnown]
@[simp] theorem gbKnown_pad (s : State) (p : Header → Bool) : (gbKnown s p).pad = s.pad := by rw [gbKnown]
@[simp] theorem gbKnown_fabric (s : State) (p : Header → Bool) : (gbKnown s p).fabric = s.fabric := by rw [gbKnown]
@[simp] theorem gbKnown_dram (s : State) (p : Header → Bool) : (gbKnown s p).dram = s.dram := by rw [gbKnown]
@[simp] theorem gbKnown_gorbin (s : State) (p : Header → Bool) : (gbKnown s p).gorbin = s.gorbin := by rw [gbKnown]
@[simp] theorem gbKnown_commit (s : State) (p : Header → Bool) : (gbKnown s p).commit = s.commit := by rw [gbKnown]
@[simp] theorem gbKnown_recov (s : State) (p : Header → Bool) : (gbKnown s p).recov = s.recov := by rw [gbKnown]
@[simp] theorem gbKnown_ufs (s : State) (p : Header → Bool) : (gbKnown s p).ufs = s.ufs := by rw [gbKnown]
@[simp] theorem gbKnown_ckpt (s : State) (p : Header → Bool) : (gbKnown s p).ckpt = s.ckpt := by rw [gbKnown]
@[simp] theorem gbKnown_boot (s : State) (p : Header → Bool) : (gbKnown s p).boot = s.boot := by rw [gbKnown]
@[simp] theorem gbKnown_yew (s : State) (p : Header → Bool) : (gbKnown s p).yew = s.yew := by rw [gbKnown]
@[simp] theorem gbKnown_power (s : State) (p : Header → Bool) : (gbKnown s p).power = s.power := by rw [gbKnown]
@[simp] theorem gbKnown_sec (s : State) (p : Header → Bool) : (gbKnown s p).sec = s.sec := by rw [gbKnown]
@[simp] theorem gbKnown_module (s : State) (p : Header → Bool) : (gbKnown s p).module = s.module := by rw [gbKnown]
@[simp] theorem gbKnown_out (s : State) (p : Header → Bool) : (gbKnown s p).out = s.out := by rw [gbKnown]
@[simp] theorem rd_gbKnown (s : State) (p : Header → Bool) (key : Nat) : rd (gbKnown s p) key = rd s key := rd_congr (gbKnown_regs s p) key
@[simp] theorem readByte_gbKnown (s : State) (p : Header → Bool) (adr : Nat) : readByte (gbKnown s p) adr = readByte s adr := readByte_congr (gbKnown_mem s p) (gbKnown_fills s p) adr

/-! ### `putLate` changes `gorbin` alone -/

@[simp] theorem putLate_pending (s : State) (i : LateItem) : (putLate s i).pending = s.pending := by rw [putLate]
@[simp] theorem putLate_free (s : State) (i : LateItem) : (putLate s i).free = s.free := by rw [putLate]
@[simp] theorem putLate_regs (s : State) (i : LateItem) : (putLate s i).regs = s.regs := by rw [putLate]
@[simp] theorem putLate_mem (s : State) (i : LateItem) : (putLate s i).mem = s.mem := by rw [putLate]
@[simp] theorem putLate_fills (s : State) (i : LateItem) : (putLate s i).fills = s.fills := by rw [putLate]
@[simp] theorem putLate_chk (s : State) (i : LateItem) : (putLate s i).chk = s.chk := by rw [putLate]
@[simp] theorem putLate_limits (s : State) (i : LateItem) : (putLate s i).limits = s.limits := by rw [putLate]
@[simp] theorem putLate_time (s : State) (i : LateItem) : (putLate s i).time = s.time := by rw [putLate]
@[simp] theorem putLate_log (s : State) (i : LateItem) : (putLate s i).log = s.log := by rw [putLate]
@[simp] theorem putLate_irq (s : State) (i : LateItem) : (putLate s i).irq = s.irq := by rw [putLate]
@[simp] theorem putLate_net (s : State) (i : LateItem) : (putLate s i).net = s.net := by rw [putLate]
@[simp] theorem putLate_q (s : State) (i : LateItem) : (putLate s i).q = s.q := by rw [putLate]
@[simp] theorem putLate_flow (s : State) (i : LateItem) : (putLate s i).flow = s.flow := by rw [putLate]
@[simp] theorem putLate_pad (s : State) (i : LateItem) : (putLate s i).pad = s.pad := by rw [putLate]
@[simp] theorem putLate_fabric (s : State) (i : LateItem) : (putLate s i).fabric = s.fabric := by rw [putLate]
@[simp] theorem putLate_dram (s : State) (i : LateItem) : (putLate s i).dram = s.dram := by rw [putLate]
@[simp] theorem putLate_commit (s : State) (i : LateItem) : (putLate s i).commit = s.commit := by rw [putLate]
@[simp] theorem putLate_recov (s : State) (i : LateItem) : (putLate s i).recov = s.recov := by rw [putLate]
@[simp] theorem putLate_ufs (s : State) (i : LateItem) : (putLate s i).ufs = s.ufs := by rw [putLate]
@[simp] theorem putLate_ckpt (s : State) (i : LateItem) : (putLate s i).ckpt = s.ckpt := by rw [putLate]
@[simp] theorem putLate_boot (s : State) (i : LateItem) : (putLate s i).boot = s.boot := by rw [putLate]
@[simp] theorem putLate_yew (s : State) (i : LateItem) : (putLate s i).yew = s.yew := by rw [putLate]
@[simp] theorem putLate_power (s : State) (i : LateItem) : (putLate s i).power = s.power := by rw [putLate]
@[simp] theorem putLate_sec (s : State) (i : LateItem) : (putLate s i).sec = s.sec := by rw [putLate]
@[simp] theorem putLate_module (s : State) (i : LateItem) : (putLate s i).module = s.module := by rw [putLate]
@[simp] theorem putLate_out (s : State) (i : LateItem) : (putLate s i).out = s.out := by rw [putLate]
@[simp] theorem rd_putLate (s : State) (i : LateItem) (key : Nat) : rd (putLate s i) key = rd s key := rd_congr (putLate_regs s i) key
@[simp] theorem readByte_putLate (s : State) (i : LateItem) (adr : Nat) : readByte (putLate s i) adr = readByte s adr := readByte_congr (putLate_mem s i) (putLate_fills s i) adr

/-! ### What a map reads after an update -/

theorem mapGet_put {α : Type} [DecidableEq α] (d : Nat → α) (m : NMap α) (k a : Nat) (v : α) :
    mapGet d (mapPut d m k v) a = if a = k then v else mapGet d m a := by
  split
  · next h => rw [h, mapGet_put_self]
  · next h => exact mapGet_put_ne d m v h

/-! ### Registers -/

@[simp] theorem rd_wr_self (s : State) (a : Nat) (v : W64) : rd (wr s a v) a = v := mapGet_put_self regReset s.regs a v
theorem rd_wr_ne (s : State) {a b : Nat} (v : W64) (h : b ≠ a) : rd (wr s a v) b = rd s b := mapGet_put_ne regReset s.regs v h
@[simp] theorem rd_wrF_self (s : State) (a lo n v : Nat) : rd (wrF s a lo n v) a = setField (rd s a) lo n v := rd_wr_self s a _
theorem rd_wrF_ne (s : State) {a b : Nat} (lo n v : Nat) (h : b ≠ a) : rd (wrF s a lo n v) b = rd s b := rd_wr_ne s _ h
@[simp] theorem rd_wrB_self (s : State) (a i : Nat) (b : Bool) : rd (wrB s a i b) a = setBit (rd s a) i b := rd_wr_self s a _
theorem rd_wrB_ne (s : State) {a c : Nat} (i : Nat) (b : Bool) (h : c ≠ a) : rd (wrB s a i b) c = rd s c := rd_wr_ne s _ h
@[simp] theorem rd_wrG_self (s : State) (a v : Nat) : rd (wrG s a v) a = guardOf v := rd_wr_self s a _
theorem rd_wrG_ne (s : State) {a b : Nat} (v : Nat) (h : b ≠ a) : rd (wrG s a v) b = rd s b := rd_wr_ne s _ h

/-! ### Memory and check bits -/

@[simp] theorem readByte_writeByte_self (s : State) (a : Nat) (b : Byte) : readByte (writeByte s a b) a = b :=
  mapGet_put_self (unlisted s.fills) s.mem a b
theorem readByte_writeByte_ne (s : State) {a c : Nat} (b : Byte) (h : c ≠ a) : readByte (writeByte s a b) c = readByte s c :=
  mapGet_put_ne (unlisted s.fills) s.mem b h
@[simp] theorem chkAt_setChk_self (s : State) (a v : Nat) : chkAt (setChk s a v) a = v :=
  mapGet_put_self (unlistedChk s.fills) s.chk a v
theorem chkAt_setChk_ne (s : State) {a c : Nat} (v : Nat) (h : c ≠ a) : chkAt (setChk s a v) c = chkAt s c :=
  mapGet_put_ne (unlistedChk s.fills) s.chk v h

/-- Every memory operation keeps the canonical form of memory: one byte, a run of bytes, a number, check bits, a fill. -/
theorem writeByte_wf (s : State) (a : Nat) (b : Byte) (h : Memory.wf s = true) : Memory.wf (writeByte s a b) = true :=
  mapWf_put _ _ _ _ h
theorem setChk_wf (s : State) (a v : Nat) (h : Memory.wf s = true) : Memory.wf (setChk s a v) = true := h
theorem applyFill_wf (s : State) (f : Fill) (h : Memory.wf s = true) : Memory.wf (applyFill s f) = true := by
  have hf := mapWf_filter (unlisted s.fills) (fun p => !f.covers p.1) s.mem h
  simp only [Memory.wf, applyFill, mapWf, Bool.and_eq_true, List.all_eq_true] at hf ⊢
  refine ⟨hf.1, fun q hq => ?_⟩
  have hc := (List.mem_filter.1 hq).2
  rw [unlisted_cons_of_not (by simpa using hc)]
  exact hf.2 q hq
theorem fillMem_wf (s : State) (lo size : Nat) (u : Bool) (h : Memory.wf s = true) : Memory.wf (fillMem s lo size u) = true :=
  applyFill_wf s _ h

/-- A run of bytes is written one at a time: what each single write keeps, the run keeps. -/
theorem writeBytes_keeps (P : State → Prop) (hP : ∀ s a b, P s → P (writeByte s a b)) (l : List Byte) :
    ∀ (s : State) (a : Nat), P s → P (writeBytes s a l) := by
  induction l with
  | nil => exact fun _ _ h => h
  | cons b bs ih => exact fun s a h => ih _ _ (hP s a b h)

@[simp] theorem writeBytes_nil (s : State) (a : Nat) : writeBytes s a [] = s := rfl
@[simp] theorem writeBytes_cons (s : State) (a : Nat) (b : Byte) (l : List Byte) :
    writeBytes s a (b :: l) = writeBytes (writeByte s a b) (a + 1) l := rfl

/-! ### Units read back what was set -/

@[simp] theorem actOf_setAct_self (s : State) (t : Nat) (a : Act) : actOf (setAct s t a) t = a := mapGet_put_self _ _ t a
theorem actOf_setAct_ne (s : State) {t u : Nat} (a : Act) (h : u ≠ t) : actOf (setAct s t a) u = actOf s u := mapGet_put_ne _ _ a h
@[simp] theorem stopOf_setStop_self (s : State) (t : Nat) (x : StopState) : stopOf (setStop s t x) t = x := mapGet_put_self _ _ t x
@[simp] theorem placedOf_setPlaced_self (s : State) (n : Nat) (p : Placed) : placedOf (setPlaced s n p) n = p := mapGet_put_self _ _ n p
@[simp] theorem threadOf_setThread_self (s : State) (t n : Nat) (h : Thread) : threadOf (setThread s t n h) t n = h :=
  mapGet_put_self _ _ _ h
theorem threadOf_setThread_ne (s : State) {t u n m : Nat} (x : Thread) (h : u * 4 + m ≠ t * 4 + n) :
    threadOf (setThread s t n x) u m = threadOf s u m := mapGet_put_ne _ _ x h
@[simp] theorem chanOf_setChan_self (s : State) (t n : Nat) (c : Chan) : chanOf (setChan s t n c) t n = c := mapGet_put_self _ _ _ c
@[simp] theorem combOf_setComb_self (s : State) (l : Nat) (c : List Comb) : combOf (setComb s l c) l = c := mapGet_put_self _ _ l c
@[simp] theorem compOf_setComp_self (s : State) (t : Nat) (l : List CompEntry) : compOf (setComp s t l) t = l := mapGet_put_self _ _ t l
@[simp] theorem attOf_setAtt_self (s : State) (c : Nat) (a : Attempt) : attOf (setAtt s c a) c = a := mapGet_put_self _ _ c a
@[simp] theorem streamOf_setStream_self (s : State) (n : Nat) (x : CkStream) : streamOf (setStream s n x) n = x := mapGet_put_self _ _ n x
@[simp] theorem hourOf_setHour_self (s : State) (k c : Nat) (h : HourStat) : hourOf (setHour s k c h) k c = h := mapGet_put_self _ _ _ h
@[simp] theorem mapGet_setLinkQ_self (s : State) (t p : Nat) (l : List Flit) :
    mapGet (fun _ => []) (setLinkQ s t p l).net.links (t * 16 + p) = l := mapGet_put_self _ _ _ l
@[simp] theorem mapGet_setEntering_self (s : State) (n ip : Nat) (l : List Flit) :
    mapGet (fun _ => []) (setEntering s n ip l).net.entering (n * 16 + ip) = l := mapGet_put_self _ _ _ l
@[simp] theorem mapGet_setSent_self (s : State) (p : Nat) (l : List SentPkt) :
    mapGet (fun _ => []) (setSent s p l).fabric.sent p = l := mapGet_put_self _ _ _ l
@[simp] theorem setGbSent_sent (s : State) (l : List (Sent GbPkt)) : (setGbSent s l).gorbin.sent = l := rfl
@[simp] theorem setFifo_fifo_self (s : State) (b : Nat) (l h : List (Nat × Flit)) :
    mapGet (fun _ => []) (setFifo s b l h).fabric.fifo b = l := mapGet_put_self _ _ b l
@[simp] theorem setFifo_held_self (s : State) (b : Nat) (l h : List (Nat × Flit)) :
    mapGet (fun _ => []) (setFifo s b l h).fabric.fifoHeld b = h := mapGet_put_self _ _ b h

end Sys2Proof.Machine
end

