-- ==== Sys2Proof/Laws/Pages.lean ====
section
/-! SUPPORT. Spec lemmas of register accesses: what a write or a read that passes its checks does, on the pages of tiles and of
the device and for the registers that several commands write; and of the handler operations' moving on. -/

namespace Sys2Proof.Machine

theorem pageHit_tile {t k off : Nat} {x : PageKind} (ht : t < 4608) (hk : k < 32) (ho : off < 0x1000) (hs : slotKind t k = some x) :
    pageHit (tileReg t k off) = some (x, t) := by
  refine pageHit_of (tileReg_base _ _ _) ?_
  rw [pageAt_tileReg ho, decodePage_tile ht hk, hs]; rfl
theorem writeOk_hit {s a addr v} (h : writeOk s a addr v = true) : ∃ x, pageHit addr = some x ∧ writeOkIn s a (offAt addr) v x = true := by
  unfold writeOk at h
  simp only [Bool.and_eq_true] at h
  cases hx : pageHit addr with
  | none => rw [hx] at h; simp at h
  | some x => rw [hx] at h; exact ⟨x, rfl, by simpa using h.2⟩
theorem regWrite_tile {s : State} {a : Agent} {t k off : Nat} {v : W64} {x : PageKind} {r : RegDesc} {j : Nat} (ht : t < 4608) (hk : k < 32) (ho : off < 0x1000)
    (h : writeOk s a (tileReg t k off) v = true) (hs : slotKind t k = some x) (hr : findReg (pageRegs x t) off = some (r, j)) :
    writeBy s a (tileReg t k off) v = typedWrite s a x t (t * 32 + k) off (regKey s x (tileReg t k off) off) r v := by
  have e := writeBy_ok h (pageHit_tile ht hk ho hs) (by rw [offAt_tileReg ho]; exact hr)
  rw [pageAt_tileReg ho, offAt_tileReg ho] at e
  exact e
theorem regWrite_dev {s : State} {a : Agent} {d off : Nat} {v : W64} {x : PageKind} {i : Nat} {r : RegDesc} {j : Nat} (ho : off < 0x1000)
    (h : writeOk s a (devReg d off) v = true) (hs : decodePage (0x40000 + d) = some (x, i)) (hr : findReg (pageRegs x i) off = some (r, j)) :
    writeBy s a (devReg d off) v = typedWrite s a x i (0x40000 + d) off (regKey s x (devReg d off) off) r v := by
  have e := writeBy_ok h (pageHit_of (devReg_base _ _) (by rw [pageAt_devReg ho]; exact hs)) (by rw [offAt_devReg ho]; exact hr)
  rw [pageAt_devReg ho, offAt_devReg ho] at e
  exact e
theorem regWrite_spMode {a : Agent} {t : TileId} {m : Fin 4} {s : State} (h : writeOk s a (spReg t 0x100) (BitVec.ofNat 64 m) = true) :
    exec (.modeChange a t m) s = .next (modeWrite s t (merged s (spReg t 0x100) 3 (BitVec.ofNat 64 m))) := by
  show Host.Outcome.next (writeBy _ _ _ _) = _
  have e := regWrite_tile t.isLt (by decide) (by decide) h rfl (rfl : findReg (pageRegs .scratch t) 0x100 = some (regRW 0x100 [(0, 2)], 0))
  unfold spReg at *
  rw [e]; rfl
theorem regWrite_qCmd {s : State} {a : Agent} {t : TileId} {v : W64} {q cmd c : Nat} (h : writeOk s a (qctl t 0x108) v = true)
    (h1 : fieldOf v 0 8 = q) (h2 : fieldOf v 8 3 = cmd) (h3 : fieldOf v 11 8 = c) :
    writeBy s a (qctl t 0x108) v = queueCmd s t q cmd c (a == .hornbeam) := by
  unfold qctl at *
  rw [regWrite_tile (x := .qctl) t.isLt (by decide) (by decide) h rfl rfl]
  subst h1 h2 h3; rfl
theorem regWrite_qGrant {s : State} {a : Agent} {t : TileId} {v : W64} {q d tl n : Nat} (h : writeOk s a (qctl t 0x110) v = true)
    (h1 : fieldOf v 36 8 = q) (h2 : fieldOf v 13 15 = d) (h3 : fieldOf v 0 13 = tl) (h4 : fieldOf v 44 17 = n) :
    writeBy s a (qctl t 0x110) v = grantWrite s t q d tl n := by
  unfold qctl at *
  rw [regWrite_tile (x := .qctl) t.isLt (by decide) (by decide) h rfl rfl]
  subst h1 h2 h3 h4; rfl
theorem readOk_hit {s a addr} {x : PageKind × Nat} {r : RegDesc} {j : Nat} (h : readOk s a addr = true) (hx : pageHit addr = some x)
    (hr : findReg (pageRegs x.1 x.2) (offAt addr) = some (r, j)) :
    readBy s a addr = emit (readEffect (readFirst s x.1 (offAt addr)) x.1 x.2 (offAt addr)) (.regRead a 0
      (regView (readFirst s x.1 (offAt addr)) x.1 x.2 (offAt addr) (regKey (readFirst s x.1 (offAt addr)) x.1 addr (offAt addr)))) := by
  unfold readBy; rw [regRead_ok h hx hr]; rfl
theorem regRead_tile {s : State} {a : Agent} {t k off : Nat} {x : PageKind} {r : RegDesc} {j : Nat} (ht : t < 4608) (hk : k < 32) (ho : off < 0x1000)
    (h : readOk s a (tileReg t k off) = true) (hs : slotKind t k = some x) (hr : findReg (pageRegs x t) off = some (r, j)) :
    readBy s a (tileReg t k off) = emit (readEffect (readFirst s x off) x t off) (.regRead a 0
      (regView (readFirst s x off) x t off (regKey (readFirst s x off) x (tileReg t k off) off))) := by
  have e := readOk_hit h (pageHit_tile ht hk ho hs) (by rw [offAt_tileReg ho]; exact hr)
  rw [offAt_tileReg ho] at e
  exact e
theorem regRead_dev {s : State} {a : Agent} {d off : Nat} {x : PageKind} {i : Nat} {r : RegDesc} {j : Nat} (ho : off < 0x1000)
    (h : readOk s a (devReg d off) = true) (hs : decodePage (0x40000 + d) = some (x, i)) (hr : findReg (pageRegs x i) off = some (r, j)) :
    readBy s a (devReg d off) = emit (readEffect (readFirst s x off) x i off) (.regRead a 0
      (regView (readFirst s x off) x i off (regKey (readFirst s x off) x (devReg d off) off))) := by
  have e := readOk_hit h (pageHit_of (devReg_base _ _) (by rw [pageAt_devReg ho]; exact hs)) (by rw [offAt_devReg ho]; exact hr)
  rw [offAt_devReg ho] at e
  exact e
theorem setG_pc (h : Thread) (i v) : (setG h i v).pc = h.pc := by unfold setG; split <;> rfl
theorem setG_count (h : Thread) (i v) : (setG h i v).count = h.count := by unfold setG; split <;> rfl
theorem setG_ctx (h : Thread) (i v) : (setG h i v).ctx = h.ctx := by unfold setG; split <;> rfl
theorem setOs_pc (h : Thread) (i v) : (setOs h i v).pc = h.pc := by induction v generalizing h i with | nil => rfl | cons x l ih => exact ih _ _
theorem setOs_count (h : Thread) (i v) : (setOs h i v).count = h.count := by induction v generalizing h i with | nil => rfl | cons x l ih => exact ih _ _
theorem setG_fate (h : Thread) (i v) : (setG h i v).fate = h.fate := by unfold setG; split <;> rfl
theorem setOs_fate (h : Thread) (i v) : (setOs h i v).fate = h.fate := by induction v generalizing h i with | nil => rfl | cons x l ih => exact ih _ _
theorem setO_fate (h : Thread) (i v) : (setO h i v).fate = h.fate := rfl
theorem ready_fate {s : State} {t n w : Nat} {h : Thread} (r : ready s t n = some (h, w)) : h.fate ≠ .reset := by
  unfold ready at r; simp only at r
  split at r
  · rename_i c
    simp only [Option.some.injEq, Prod.mk.injEq] at r
    obtain ⟨rfl, -⟩ := r
    simp only [Bool.and_eq_true, bne_iff_ne, ne_eq] at c
    exact c.1.2
  · cases r
theorem goTo_ok {s : State} {t n : Nat} {h : Thread} {pc : Nat} (p : pc ≤ h.count) (f : h.fate ≠ .reset) : goTo s t n h pc = movedOn s t n h pc := by
  unfold goTo movedOn; simp [Nat.not_lt.2 p, f]
theorem next_ok {s : State} {t n : Nat} {h : Thread} (p : h.pc < h.count) (f : h.fate ≠ .reset) : next s t n h = movedOn s t n h (h.pc + 1) := goTo_ok p f
theorem regWrite_mcIndex {s : State} {a : Agent} {t : TileId} {v : W64} (h : writeOk s a (rtReg t 0x128) v = true) :
    writeBy s a (rtReg t 0x128) v = advance (wr s (banked (rtReg t 0x128) (rdF s (rtReg t 0x120) 0 12)) (merged s (banked (rtReg t 0x128) (rdF s (rtReg t 0x120) 0 12)) 0x3FFF v)) (rtReg t 0x120) 12 4096 := by
  unfold rtReg at *
  rw [regWrite_tile (x := .router) t.isLt (by decide) (by decide) h rfl rfl]
  rfl
/-- A field that lies within the writable bits is the written word's. -/
theorem fieldOf_merged (w v : W64) (m lo n : Nat) (hn : lo + n ≤ 64) (hm : ∀ i, i < n → m.testBit (lo + i) = true) :
    fieldOf (w &&& ~~~(BitVec.ofNat 64 m) ||| v &&& BitVec.ofNat 64 m) lo n = fieldOf v lo n := by
  unfold fieldOf fieldNat
  apply Nat.eq_of_testBit_eq
  intro i
  rw [Nat.testBit_mod_two_pow, Nat.testBit_mod_two_pow]
  by_cases h : i < n
  · have h64 : lo + i < 64 := by omega
    have hb : (BitVec.ofNat 64 m).getLsbD (lo + i) = true := by
      rw [← BitVec.testBit_toNat, BitVec.toNat_ofNat, Nat.testBit_mod_two_pow, hm i h]; simp [h64]
    rw [Nat.testBit_shiftRight, Nat.testBit_shiftRight, BitVec.testBit_toNat, BitVec.testBit_toNat, BitVec.getLsbD_or,
      BitVec.getLsbD_and, BitVec.getLsbD_and, BitVec.getLsbD_not, hb]
    simp [h]
  · simp [h]
theorem fieldOf_merged_8 (w : W64) (n : Nat) (h : n < 256) :
    fieldOf (w &&& ~~~(BitVec.ofNat 64 0xFF) ||| (BitVec.ofNat 64 n) &&& BitVec.ofNat 64 0xFF) 0 8 = n := by
  rw [fieldOf_merged w (BitVec.ofNat 64 n) 0xFF 0 8 (by decide) (by decide)]; simp [fieldOf, fieldNat]; omega
theorem csIndex_indexed {s : State} {n : Nat} (h : n < 256) : rdF (indexed s (csReg 0x108) 0xFF n) (csReg 0x108) 0 8 = n := by
  unfold rdF indexed merged; rw [rd_wr_self]; exact fieldOf_merged_8 _ _ h
theorem write_csIndex {s : State} {a : Agent} {n : Nat} (h : writeOk s a (csReg 0x108) (BitVec.ofNat 64 n) = true) :
    writeNum s a (csReg 0x108) n = indexed s (csReg 0x108) 0xFF n := by
  show writeBy _ _ _ _ = _
  unfold csReg at *
  rw [regWrite_dev (x := .commit) (i := 0) (by decide) h rfl rfl]; rfl
theorem write_cs {u : State} {a : Agent} {off : Nat} {v : W64} {j : Nat} {r : RegDesc} (ho : off < 0x1000) (h8 : 0x80 ≤ off) (h : writeOk u a (csReg off) v = true)
    (hr : findReg (pageRegs .commit 0) off = some (r, j)) (hacc : r.acc = .wo ∨ r.acc = .rwg) :
    writeBy u a (csReg off) v = commitWrite u off (regKey u .commit (csReg off) off) v (a == .hornbeam) := by
  unfold csReg at *
  rw [regWrite_dev (x := .commit) (i := 0) ho h rfl hr]
  unfold typedWrite; rw [if_neg (by omega)]
  rcases hacc with hacc | hacc <;> simp [hacc, pageWrite]
theorem write_csCmd {u : State} {a : Agent} {n : Nat} (h : writeOk u a (csReg 0x1C8) (BitVec.ofNat 64 n) = true) (hn : n < 8) :
    writeNum u a (csReg 0x1C8) n = csCmd u (rdF u (csReg 0x108) 0 8) n (a == .hornbeam) := by
  show writeBy _ _ _ _ = _
  rw [write_cs (by decide) (by decide) h rfl (.inl rfl)]
  have : fieldOf (BitVec.ofNat 64 n) 0 3 = n := by simp [fieldOf, fieldNat]; omega
  simp only [commitWrite]; rw [if_pos trivial, this]
theorem write_brReset {s : State} {a : Agent} {v : W64} {m c : Nat} (h : writeOk s a (brReg 0x180) v = true) (h1 : fieldOf v 0 3 = m) (h2 : fieldOf v 8 9 = c) :
    writeBy s a (brReg 0x180) v = rstCmd s m c := by
  unfold brReg at *; rw [regWrite_dev (x := .bramble) (i := 0) (by decide) h rfl rfl]; subst h1 h2; rfl
theorem fieldOf_merged_2 (w : W64) (n : Nat) (h : n < 4) :
    fieldOf (w &&& ~~~(BitVec.ofNat 64 3) ||| (BitVec.ofNat 64 n) &&& BitVec.ofNat 64 3) 0 2 = n := by
  rw [fieldOf_merged w (BitVec.ofNat 64 n) 3 0 2 (by decide) (by decide)]; simp [fieldOf, fieldNat]; omega
theorem fieldOf_merged_32 (w : W64) (v : W32) :
    fieldOf (w &&& ~~~(BitVec.ofNat 64 0xFFFFFFFF) ||| (BitVec.ofNat 64 v.toNat) &&& BitVec.ofNat 64 0xFFFFFFFF) 0 32 = v.toNat := by
  rw [fieldOf_merged w (BitVec.ofNat 64 v.toNat) 0xFFFFFFFF 0 32 (by decide) (by decide)]; simp [fieldOf, fieldNat]; omega
theorem ckIndex_indexed {s : State} {n : Nat} (h : n < 4) : rdF (indexed s (ckReg 0x108) 3 n) (ckReg 0x108) 0 2 = n := by
  unfold rdF indexed merged; rw [rd_wr_self]; exact fieldOf_merged_2 _ _ h
theorem write_ckIndex {s : State} {a : Agent} {n : Nat} (h : writeOk s a (ckReg 0x108) (BitVec.ofNat 64 n) = true) :
    writeNum s a (ckReg 0x108) n = indexed s (ckReg 0x108) 3 n := by
  show writeBy _ _ _ _ = _
  unfold ckReg at *
  rw [regWrite_dev (x := .ckpt) (i := 0) (by decide) h rfl rfl]; rfl
theorem write_ckCmd {u : State} {a : Agent} {m : Nat} (h : writeOk u a (ckReg 0x1A0) (BitVec.ofNat 64 m) = true) (hm : m < 2 ^ 64) :
    writeNum u a (ckReg 0x1A0) m = ckCmd u (rdF u (ckReg 0x108) 0 2) m := by
  show writeBy _ _ _ _ = _
  unfold ckReg at *
  rw [regWrite_dev (x := .ckpt) (i := 0) (by decide) h rfl rfl]
  show ckCmd _ (rdF u (devReg 12 264) 0 2) (BitVec.ofNat 64 m).toNat = _
  rw [BitVec.toNat_ofNat, Nat.mod_eq_of_lt hm]
theorem write_hbArg {s : State} {a : Agent} {v : W64} (h : writeOk s a (hbReg 0x118) v = true) :
    writeBy s a (hbReg 0x118) v = wr s (hbReg 0x118) v := by
  unfold hbReg at *
  rw [regWrite_dev (x := .hornbeam) (i := 0) (by decide) h rfl rfl]
  show wr s (devReg 7 0x118) ((rd s (devReg 7 0x118) &&& ~~~(BitVec.ofNat 64 0xFFFFFFFFFFFFFFFF)) ||| (v &&& BitVec.ofNat 64 0xFFFFFFFFFFFFFFFF)) = _
  congr 1
  generalize rd s (devReg 7 0x118) = w
  rw [show ~~~(BitVec.ofNat 64 0xFFFFFFFFFFFFFFFF) = 0#64 from by decide, show BitVec.ofNat 64 0xFFFFFFFFFFFFFFFF = BitVec.allOnes 64 from by decide]
  rw [BitVec.and_zero, BitVec.zero_or, BitVec.and_allOnes]
theorem write_hbCmd {u : State} {a : Agent} {m c g : Nat} (h : writeOk u a (hbReg 0x110) (BitVec.ofNat 64 m) = true)
    (h1 : fieldOf (BitVec.ofNat 64 m) 0 3 = c) (h2 : fieldOf (BitVec.ofNat 64 m) 3 12 = g) :
    writeNum u a (hbReg 0x110) m = hbCmd u c g := by
  show writeBy _ _ _ _ = _
  unfold hbReg at *
  rw [regWrite_dev (x := .hornbeam) (i := 0) (by decide) h rfl rfl]
  subst h1 h2; rfl
theorem write_ywCmd {u : State} {a : Agent} {m c g : Nat} (h : writeOk u a (ywReg 0x110) (BitVec.ofNat 64 m) = true)
    (h1 : fieldOf (BitVec.ofNat 64 m) 0 3 = c) (h2 : fieldOf (BitVec.ofNat 64 m) 8 9 = g) :
    writeNum u a (ywReg 0x110) m = ywCmd u c g := by
  show writeBy _ _ _ _ = _
  unfold ywReg at *
  rw [regWrite_dev (x := .yew) (i := 0) (by decide) h rfl rfl]
  subst h1 h2; rfl
theorem fieldOf_merged_40 (w v : W64) : fieldOf (w &&& ~~~(BitVec.ofNat 64 0xFFFFFFFFFF) ||| v &&& BitVec.ofNat 64 0xFFFFFFFFFF) 0 32 = fieldOf v 0 32
    ∧ fieldOf (w &&& ~~~(BitVec.ofNat 64 0xFFFFFFFFFF) ||| v &&& BitVec.ofNat 64 0xFFFFFFFFFF) 32 8 = fieldOf v 32 8 :=
  ⟨fieldOf_merged w v _ 0 32 (by decide) (by decide), fieldOf_merged w v _ 32 8 (by decide) (by decide)⟩
theorem merged_all (w v : BitVec 64) : w &&& ~~~(BitVec.ofNat 64 0xFFFFFFFFFFFFFFFF) ||| v &&& BitVec.ofNat 64 0xFFFFFFFFFFFFFFFF = v := by
  rw [show ~~~(BitVec.ofNat 64 0xFFFFFFFFFFFFFFFF) = 0#64 from by decide, show BitVec.ofNat 64 0xFFFFFFFFFFFFFFFF = BitVec.allOnes 64 from by decide]
  rw [BitVec.and_zero, BitVec.zero_or, BitVec.and_allOnes]
theorem typedWrite_rw {s : State} {a : Agent} {k : PageKind} {i p off key : Nat} {r : RegDesc} {v : W64} {m : Nat} (h8 : 0x80 ≤ off) (hr : r.acc = .rw) (hm : r.wmask = m) :
    typedWrite s a k i p off key r v = pageWrite s a k i off key (merged s key m v) := by
  subst hm; unfold typedWrite merged; simp only [hr]; rw [if_neg (by omega)]; rfl
theorem write_ywRaw {s : State} {a : Agent} {v : W64} (h : writeOk s a (ywReg 0x808) v = true) :
    writeBy s a (ywReg 0x808) v = yewWrite s 0x808 (devReg 9 0x808) (merged s (devReg 9 0x808) 0xFFFFFFFFFF v) := by
  unfold ywReg at *
  rw [regWrite_dev (x := .yew) (i := 0) (by decide) h rfl rfl, typedWrite_rw (by decide) rfl rfl]; rfl
theorem write_ywRawTrim {s : State} {a : Agent} {v : W64} (h : writeOk s a (ywReg 0x810) v = true) :
    writeBy s a (ywReg 0x810) v = yewWrite s 0x810 (devReg 9 0x810) v := by
  unfold ywReg at *
  rw [regWrite_dev (x := .yew) (i := 0) (by decide) h rfl rfl, typedWrite_rw (m := 0xFFFFFFFFFFFFFFFF) (by decide) rfl rfl]; unfold merged; rw [merged_all]; rfl
theorem write_hwArg {s : State} {a : Agent} {n : Nat} (h : writeOk s a (hwReg 0x110) (BitVec.ofNat 64 n) = true) :
    writeNum s a (hwReg 0x110) n = indexed s (hwReg 0x110) 0xFFFFFFFFFFFF n := by
  show writeBy _ _ _ _ = _
  unfold hwReg at *
  rw [regWrite_dev (x := .hawthorn) (i := 0) (by decide) h rfl rfl, typedWrite_rw (m := 0xFFFFFFFFFFFF) (by decide) rfl rfl]; rfl
theorem write_hwCmd {u : State} {a : Agent} {m c g : Nat} (h : writeOk u a (hwReg 0x108) (BitVec.ofNat 64 m) = true)
    (h1 : fieldOf (BitVec.ofNat 64 m) 0 4 = c) (h2 : fieldOf (BitVec.ofNat 64 m) 8 4 = g) :
    writeNum u a (hwReg 0x108) m = hwCmd u c g := by
  show writeBy _ _ _ _ = _
  unfold hwReg at *
  rw [regWrite_dev (x := .hawthorn) (i := 0) (by decide) h rfl rfl]
  subst h1 h2; rfl
theorem write_pwIndex {s : State} {a : Agent} {n : Nat} (h : writeOk s a (pwReg 0x118) (BitVec.ofNat 64 n) = true) :
    writeNum s a (pwReg 0x118) n = indexed s (pwReg 0x118) 0xFF n := by
  show writeBy _ _ _ _ = _
  unfold pwReg at *
  rw [regWrite_dev (x := .power) (i := 0) (by decide) h rfl rfl, typedWrite_rw (m := 0xFF) (by decide) rfl rfl]; rfl
theorem write_pwDev {s : State} {a : Agent} {n : Nat} (h : writeOk s a (pwReg 0x110) (BitVec.ofNat 64 n) = true) :
    writeNum s a (pwReg 0x110) n = fitTolerance (indexed s (pwReg 0x110) 0xFFFFFFFF n) := by
  show writeBy _ _ _ _ = _
  unfold pwReg at *
  rw [regWrite_dev (x := .power) (i := 0) (by decide) h rfl rfl, typedWrite_rw (m := 0xFFFFFFFF) (by decide) rfl rfl]
  show powerWrite _ _ _ _ = _; unfold powerWrite; rw [if_neg (by simp), if_pos (by decide)]; unfold indexed regKey; simp
theorem write_pwCtx {s : State} {a : Agent} {n c : Nat} (h : writeOk s a (pwReg 0x120) (BitVec.ofNat 64 n) = true) (hc : rdF s (pwReg 0x118) 0 8 = c) :
    writeNum s a (pwReg 0x120) n = fitTolerance (indexed s (banked (pwReg 0x120) c) 0xFFFFFFFF n) := by
  show writeBy _ _ _ _ = _
  subst hc
  unfold pwReg at *
  rw [regWrite_dev (x := .power) (i := 0) (by decide) h rfl rfl, typedWrite_rw (m := 0xFFFFFFFF) (by decide) rfl rfl]
  show powerWrite _ _ _ _ = _; unfold powerWrite; rw [if_neg (by simp), if_pos (by decide)]; unfold indexed regKey; simp
theorem pwIndex_indexed {s : State} {n : Nat} (h : n < 256) : rdF (indexed s (pwReg 0x118) 0xFF n) (pwReg 0x118) 0 8 = n := by
  unfold rdF indexed merged; rw [rd_wr_self]; exact fieldOf_merged_8 _ _ h
theorem hwArg_indexed {a : Agent} {n m : Nat} {u s : State} (h : writeOk s a (hwReg 0x110) (BitVec.ofNat 64 n) = true) (hu : u = indexed s (hwReg 0x110) 0xFFFFFFFFFFFF n)
    (h2 : writeOk u a (hwReg 0x108) (BitVec.ofNat 64 m) = true) (hm : m < 16) (hb : hwBusy u = false) (hz : m ≠ 0) :
    writeNum (writeNum s a (hwReg 0x110) n) a (hwReg 0x108) m = hwCmd u m 0 := by
  rw [write_hwArg h, ← hu, write_hwCmd h2 (c := m) (g := 0)]
  · simp [fieldOf, fieldNat]; omega
  · simp [fieldOf, fieldNat]; omega
theorem writeBy_of {s : State} {a : Agent} {addr : Nat} {v : W64} {x : RegStat} {u : State} (h : regWrite s a addr v = (x, u)) (hx : x ≠ .ok) :
    writeBy s a addr v = if a = .companion then u else emit u (.regRead a x.code 0) := by
  unfold writeBy; simp only [h]; have : (x == RegStat.ok) = false := by simpa using hx
  cases a <;> simp [this]
theorem writeBy_ofok {s : State} {a : Agent} {addr : Nat} {v : W64} {u : State} (h : regWrite s a addr v = (.ok, u)) :
    writeBy s a addr v = u := by
  unfold writeBy; simp only [h]; simp
theorem regWrite_in {s : State} {a : Agent} {addr : Nat} {v : W64} {k : PageKind} {i : Nat} (h1 : pageHit addr = some (k, i)) (h2 : addr % 8 = 0)
    (h4 : regDenied s a k i (offAt addr) true v = false) :
    regWrite s a addr v = (.ok, regWriteReg (writeWakes s (pageAt addr)) a k i (pageAt addr) (offAt addr) addr v (findReg (pageRegs k i) (offAt addr))) := by
  unfold regWrite; rw [h1]; unfold regWriteAt; simp only; unfold regWriteIn; rw [if_neg (by simp [h2]), h4, if_neg (by simp)]
theorem regWriteReg_none {s : State} {a : Agent} {k : PageKind} {i p off addr : Nat} {v : W64} : regWriteReg s a k i p off addr v none = accessRec s p 0x10 0x0A04 addr := rfl
theorem regWriteReg_bad {s : State} {a : Agent} {k : PageKind} {i p off addr : Nat} {v : W64} {x : RegDesc × Nat} (h : (x.1.acc == .ro || x.1.acc == .rs || v.toNat &&& x.1.reserved != 0) = true) :
    regWriteReg s a k i p off addr v (some x) = accessRec s p 0x10 0x0A04 addr := if_pos h
theorem regWriteReg_guard {s : State} {a : Agent} {k : PageKind} {i p off addr : Nat} {v : W64} {x : RegDesc × Nat} (h : (x.1.acc == .ro || x.1.acc == .rs || v.toNat &&& x.1.reserved != 0) = false)
    (h2 : (x.1.acc == .rwg && !guardOk v) = true) :
    regWriteReg s a k i p off addr v (some x) = accessRec s p 0x04 0x0A03 addr := by
  obtain ⟨r, j⟩ := x
  simp only [] at h h2
  unfold regWriteReg; simp only; rw [h, h2, if_neg (by decide), if_pos rfl]
theorem regWriteReg_fenced {s : State} {a : Agent} {k : PageKind} {i p off addr : Nat} {v : W64} {x : RegDesc × Nat} (h : (x.1.acc == .ro || x.1.acc == .rs || v.toNat &&& x.1.reserved != 0) = false)
    (h2 : (x.1.acc == .rwg && !guardOk v) = false) (h3 : (fencedWrite s k i off || haltedWrite s k off v) = true) :
    regWriteReg s a k i p off addr v (some x) = ignored s p := by
  obtain ⟨r, j⟩ := x
  simp only [] at h h2
  unfold regWriteReg; simp only; rw [h, h2, h3, if_neg (by decide), if_neg (by decide), if_pos rfl]
theorem lateExit_eq (v : State) (d l : Nat) : lateExit v d l = if d + l < now v then report (incSat v (pwReg 0x098)) (devPage 13) 0x1002 else v := rfl

end Sys2Proof.Machine
end

