-- ==== Sys2Proof/Tests/Slice0.lean ====
section
/-! SUPPORT. Tests of the model: ill-formed commands are refused, the manual's worked cases come out as printed, and for every
statement and every clause of it a state and operands that meet its hypotheses. -/

open Sys2Proof Sys2Proof.Machine
namespace Sys2Proof.Tests

set_option Elab.async false

/-! ### Ill-formed commands are refused -/

/-- A header whose fields all fit, and one wrong place for each field of R175. -/
def goodHdr : Header := ⟨1, 1, 1, 1, 1, 1, 1, 1, 1, 1, 1, 0, 0, false, false, false⟩
def goodCtrl : Ctrl := ⟨0, false, 1, 1, 1, 1, 1, 1, 1, 1, [1], 0⟩
def goodRed : Red := ⟨1, 1, 1, 1, 1, 1, 1, 1, 1, false, false, false, 1, 1, 0, 1, 1, 0⟩
def goodFw : FwPkt := ⟨1, false, 1, 1, true, 1, 1, 1, []⟩
def goodGb : GbHdr := ⟨1, 1, 64, 1, 1, 0⟩
def badHdr : Header := { goodHdr with vc := 4 }
def badMsg : Msg := ⟨goodHdr, [0, 0]⟩
def badCtrl : Ctrl := { goodCtrl with type := 256 }
def badRed : Red := { goodRed with anchor := 512 }
def badFw : FwPkt := { goodFw with pull := false }
def badGb : GbHdr := { goodGb with opc := 64 }

theorem test_wf_good : goodHdr.wf = true ∧ (Msg.wf ⟨goodHdr, [0]⟩) = true ∧ goodCtrl.wf = true ∧ goodRed.wf = true
    ∧ goodFw.wf = true ∧ goodGb.wf = true := by decide

/-- One field too wide in each header (R175). -/
theorem test_wf_header : ([{ goodHdr with dst := 2 ^ 36 },
    { goodHdr with creditEpoch := 16 },
    { goodHdr with context := 256 },
    { goodHdr with handler := 1024 },
    { goodHdr with vc := 4 },
    { goodHdr with len := 16 },
    { goodHdr with src := 2 ^ 36 },
    { goodHdr with ctxEpoch := 65536 },
    { goodHdr with linkSeq := 4096 },
    { goodHdr with payLen := 1024 },
    { goodHdr with stepTag := 65536 },
    { goodHdr with rsv4 := 64 },
    { goodHdr with rsv5 := 2 ^ 29 }] : List Header).all (fun x => !x.wf) = true := by decide

/-- One field too wide in each control packet (R211). -/
theorem test_wf_control_packet : ([{ goodCtrl with type := 256 },
    { goodCtrl with dstTile := 8192 },
    { goodCtrl with dstDev := 32768 },
    { goodCtrl with group := 4096 },
    { goodCtrl with srcDev := 32768 },
    { goodCtrl with srcTile := 8192 },
    { goodCtrl with ctxEpoch := 65536 },
    { goodCtrl with context := 256 },
    { goodCtrl with round := 256 },
    { goodCtrl with words := List.replicate 13 0 },
    { goodCtrl with words := [2 ^ 32] },
    { goodCtrl with transit := 512 }] : List Ctrl).all (fun x => !x.wf) = true := by decide

/-- One field out of range in each reduction packet (R223). -/
theorem test_wf_reduction_packet : ([{ goodRed with value := 2 ^ 256 },
    { goodRed with dst := 2 ^ 36 },
    { goodRed with ctxEpoch := 65536 },
    { goodRed with context := 256 },
    { goodRed with redId := 65536 },
    { goodRed with elem := 65536 },
    { goodRed with contrib := 65536 },
    { goodRed with total := 65536 },
    { goodRed with kind := 4 },
    { goodRed with residue := 128 },
    { goodRed with rmode := 4 },
    { goodRed with anchor := -513 },
    { goodRed with anchor := 512 },
    { goodRed with stepTag := 65536 },
    { goodRed with partIndex := 65536 },
    { goodRed with transit := 512 }] : List Red).all (fun x => !x.wf) = true := by decide

/-- One field out of range in each firmware packet (R414). -/
theorem test_wf_firmware_packet : ([{ goodFw with dst := 2 ^ 36 },
    { goodFw with group := 4096 },
    { goodFw with chunk := 512 },
    { goodFw with piece := 8 },
    { goodFw with src := 2 ^ 32 },
    { goodFw with hash := 2 ^ 256 },
    { goodFw with pull := false },
    { goodFw with data := [0] }] : List FwPkt).all (fun x => !x.wf) = true := by decide

/-- One field too wide in each transaction header (R290). -/
theorem test_wf_transaction_header : ([{ goodGb with opc := 64 },
    { goodGb with tag := 4096 },
    { goodGb with len := 4096 },
    { goodGb with addr := 2 ^ 48 },
    { goodGb with status := 256 },
    { goodGb with rsv := 2 ^ 42 }] : List GbHdr).all (fun x => !x.wf) = true := by decide

/-- A payload longer than PAY_LEN, and a bad header. -/
theorem test_wf_message : ([badMsg,
    ⟨badHdr, []⟩] : List Msg).all (fun x => !x.wf) = true := by decide

/-- A packet of each form with a bad field. -/
theorem test_wf_packet : ([.msg badMsg,
    .ctrl badCtrl,
    .red badRed,
    .fw badFw] : List Pkt).all (fun x => !x.wf) = true := by decide

/-- One ill-formed term for each check of a command. -/
theorem test_wf_commands_1 : ([.cfgRecordWrite .hornbeam 0 0 (List.replicate 15 0),
    .stop 0 badCtrl,
    .probe 0 badCtrl,
    .probeRound 0 0 (some badCtrl),
    .commitSet 0 badCtrl,
    .cancelSet 0 badCtrl,
    .releaseSet 0 badCtrl,
    .scratchpadRead .hornbeam none 0 0 0 0 [],
    .scratchpadWrite .hornbeam none 0 0 [] 0 [],
    .circWrite .hornbeam 0 0 [],
    .circRead .hornbeam 0 0 0,
    .spRd .hornbeam none 0 0 0 none,
    .spWr .hornbeam none 0 0 [] none,
    .spRdFull .hornbeam none 0 0 0,
    .spRdTake .hornbeam none 0 0 0,
    .spWrFill .hornbeam none 0 0 [],
    .spClrTag .hornbeam none 0 0 0,
    .messageSend 0 0 0 (2 ^ 36) 1 1 [],
    .messageSend 0 0 0 1 1024 1 [],
    .messageSend 0 0 0 1 1 4 [],
    .messageArrival 0 badMsg,
    .nackArrival 0 badCtrl,
    .grantPacketArrival 0 badCtrl,
    .grantBounce 0 badCtrl,
    .returnArrival 0 badCtrl,
    .revokeArrival 0 badCtrl,
    .revokeAckComplete 0 badCtrl 0 0,
    .meshProbe 0 0 (some badCtrl),
    .multicastForward 0 0 (.msg badMsg),
    .uptreeReply 0 0 badCtrl,
    .reductionPacketArrival 0 0 badRed,
    .completionStoreArrival 0 0 badRed,
    .linkPacketReceive (.parith 0) 0 0 false 0 0 (.msg badMsg),
    .memRead .hornbeam none (2 ^ 48) 1 [],
    .memRead .hornbeam none 1 0 [],
    .memWrite .hornbeam none (2 ^ 48) [0] [],
    .memWrite .hornbeam none 1 [] [],
    .regRd badGb,
    .regWr badGb 0,
    .memRdUc badGb] : List Instr).all (fun x => !x.wf) = true := by decide

/-- One ill-formed term for each check of a command. -/
theorem test_wf_commands_2 : ([.memWrUc badGb (List.replicate badGb.len 0),
    .memWrUc goodGb [0],
    .lineRdS badGb,
    .lineRdX badGb,
    .lineUpg badGb,
    .lineWb badGb (List.replicate 64 0),
    .lineWb goodGb (List.replicate 63 0),
    .lineEvict badGb,
    .doorbell badGb 0,
    .msg badGb (List.replicate badGb.len 0),
    .msg goodGb [0],
    .snpInv badGb,
    .snpShr badGb,
    .snpRspD 0 [],
    .gatewayAccess .hornbeam (2 ^ 48) 1 none,
    .gatewayAccess .hornbeam 1 0 none,
    .regWriteAny .hornbeam (2 ^ 48) 0,
    .voteComplete 0 badCtrl,
    .decideCommit badCtrl,
    .decideAudit badCtrl,
    .abortReplay badCtrl [],
    .abortFault badCtrl,
    .durableWrite 0 0 (2 ^ 48) [0],
    .durableWrite 0 0 1 [],
    .abortArrival 0 badCtrl,
    .checkpointDataArrival badMsg,
    .fwPacket 0 badFw] : List Instr).all (fun x => !x.wf) = true := by decide

/-- Data longer than the transaction carries. -/
theorem test_wf_too_long_1 : (.messageSend 0 0 0 1 1 1 (List.replicate 1001 0) : Instr).wf = false := by
  simp only [Instr.wf, List.length_replicate]; decide

/-- Data longer than the transaction carries. -/
theorem test_wf_too_long_2 : (.cmpD 0 0 (List.replicate 1009 0) : Instr).wf = false := by
  simp only [Instr.wf, List.length_replicate]; decide

/-! ### The manual's worked cases

Expected values are those the manual prints, or hand calculation from its tables. -/

/-- The tile at H = 1, x = 13, y = 41: its number, cluster, type, endpoint of queue 5 and scratchpad base (R15, R18–R20, R23). -/
theorem test_worked_tile : tileNum 1 13 41 = 3629 ∧ clusterOf 3629 = 227 ∧ tileType 3629 = .t
    ∧ endpoint { State.reset with regs := [(devReg 3 0x100, 0x123)] } 3629 5 = 0x0246E2D05
    ∧ padBase 3629 = 0x010071680000 := by decide

/-- The check of the case runs backwards from the endpoint (R18, R20). -/
theorem test_worked_endpoint : fieldNat 0x0246E2D05 8 13 = 3629 ∧ tileHalf 3629 = 1 ∧ tileX 3629 = 13 ∧ tileY 3629 = 41 := by
  decide

/-- The queue page and ring register of queue 5 of tile 3,629 (R308, R203). -/
theorem test_worked_page : tilePage 3629 5 = 116133 ∧ tileReg 3629 5 0 = 0x02001C5A5000
    ∧ tileReg 3629 5 (0x100 + 0x20 * 5) = 0x02001C5A51A0 ∧ pageOf 0x02001C5A51A0 = 116133 := by decide

/-- The ring's base of the worked message (R189). -/
theorem test_worked_ring : padAddr 3597 0x8800 = 0x401C1A880 * 64 := by decide

/-- Residues of the worked mismatch: the prediction, the true sum, and the sum after the flip of bit 9 (R65). -/
theorem test_worked_residue : (residue 100 * residue (-12) + residue (-37) * residue 64 + residue 5 * residue 127) % 127 = 0x73
    ∧ residue (-2933) = 0x73 ∧ residue (-2933 + 512) = 0x77 := by decide

/-- A block whose amax is 0.8 quantises to E2M1 with scale field 124 and element 6, with no saturation (R64). -/
theorem test_worked_quant : quantBlock 7 .nearestEven [ofB32 0x3F4CCCCD] = (124, [7], 0) := by decide

/-- 2²⁴ + 1 + 1 keeps both ones in a fixed-window sum, where binary32 loses them (R52, R61). -/
theorem test_worked_sums : (fwsAdd false (fwsAdd false (fwsAdd false (fwsZero 0) (flOfInt 16777216)) (flOfInt 1)) (flOfInt 1)).w = 16777218
    ∧ toB32 .nearestEven (addFl .nearestEven (flOfInt 16777216) (flOfInt 1)) = 0x4B800000 := by decide

/-- Exact powers and roots stay exact: 2³, 1/4, log₂ 8 and 1/√4 in binary32 (R89). -/
theorem test_special_exact : exp2B32 (ofB32 0x40400000) = 0x41000000 ∧ rcpB32 (ofB32 0x40800000) = 0x3E800000
    ∧ log2B32 (ofB32 0x41000000) = 0x40400000 ∧ rsqrtB32 (ofB32 0x40800000) = 0x3F000000 := by decide +kernel

/-- Ten rounds of Philox-4×32 on zeros give the published first word (R94). -/
theorem test_philox : (philox 10 0 0 (0, 0, 0, 0)).1 = 0x6627E8D5 := by decide

/-- The interleave's slot and offset with every channel, and with channel 5 removed (R273). -/
theorem test_worked_hash : hashSlot 192 0x100000200 = (129, 0x1555400) ∧ hashSlot 190 0x100000200 = (137, 0x158EC00) := by decide

/-- Slot 137 without channel 5 is sub-channel 139 (R273). -/
theorem test_worked_live : (liveSubs { State.reset with dram := { State.reset.dram with hashOut := [5] } }).getD 137 0 = 139 := by decide

/-- A code unit's single flipped data bit is corrected, two are found, another word's unit is an address mismatch (R147, R149). -/
theorem test_activation_code : actDecode (actCheck 0x12345678 5 ^^^ actCheck 0x1234567A 5) = .corrected 2
    ∧ actDecode (actCheck 0x12345678 5 ^^^ actCheck 0x1234567B 5) = .uncorrectable
    ∧ actDecode (actCheck 0x12345678 5 ^^^ actCheck 0x12345678 4) = .address := by decide

/-- Two flipped data bits of a weight pair are corrected (R148). -/
theorem test_weight_code : wgtDecode (wgtCheck 0x100000001 6 ^^^ wgtCheck 0 6) = .corrected 0x100000001 := by decide +kernel

/-- An error of any bits of two symbols of an LPDDR6 unit is corrected (R268, R269). -/
theorem test_unit_code : rsDecode (rsCheck ((List.range 32).map (fun i => if i = 3 then 0xA5 else if i = 30 then 0x5A else 0)) 0
      ^^^ rsCheck (List.replicate 32 0) 0) = .corrected (0xA5 * 2 ^ 24 + 0x5A * 2 ^ 240) := by decide +kernel

/-- CRC-64 of the digits 1 to 9, the published check value of the polynomial with initial value 0 (R349). -/
theorem test_crc64 : crc64 [0x31, 0x32, 0x33, 0x34, 0x35, 0x36, 0x37, 0x38, 0x39] = 0x6C40DF5F0B497347 := by decide +kernel

/-- τ of the worked job: none, two and many events; the short interval is held at 30 s (R400). -/
theorem test_worked_tau : tauOf { State.reset with regs := [(ckReg 0x110, 96000)] } 14200 + 500 < 1032 * 1000 + 1000
    ∧ 1032 * 1000 ≤ tauOf { State.reset with regs := [(ckReg 0x110, 96000)] } 14200 + 500
    ∧ tauOf { State.reset with regs := [(ckReg 0x110, 96000)], ckpt := { State.reset.ckpt with events := [0, 0] }, time := { State.reset.time with dt := 1 } } 14200 / 100 = 1886
    ∧ tauOf { State.reset with regs := [(ckReg 0x110, 196608000)] } 14200 = 30000 := by decide +kernel

/-- A message of 330 payload bytes takes 6 slots (R176). -/
theorem test_worked_len : lenOfPay 330 + 1 = 6 := by decide

/-- The pair of registers that agree, and a corrupted one (R491). -/
theorem test_guard : guardOf 5 = 0xFFFFFFFA00000005 ∧ guardOk 0xFFFFFFFA00000005 = true ∧ guardOk 0xFFFFFFFA00000004 = false := by decide

/-- An idle block counts one nanosecond, once Device Time runs. -/
theorem test_idle_tick : (match step { State.reset with time := { State.reset.time with held := false } } with
    | .next t => some t.time.dt.toNat | _ => none) = some 1 := by decide

/-- The front command is taken and the rest stays (a free module-reset release from reset). -/
theorem test_front : (match step { State.reset with pending := [.tNop 0, .vNop 3] } with
    | .next t => t.pending | _ => []) = [.vNop 3] := by decide

/-! ### States that meet the hypotheses of the statements -/

/-! Small states: reset with a few registers and one thing in progress. -/

/-- Reset with the registers `l` in place of their reset values. -/
def sR (l : List (Nat × W64)) : State := { State.reset with regs := l }

/-- A tile in service whose slot 0 holds context 3, with one region of words 0 to 0x7FFF and the attributes `attr`. -/
def tileCtx (t attr : Nat) : List (Nat × W64) :=
  [(spReg t 0x100, 1), (spReg t 0x140, guardOf 0x103), (rgnReg t 0 0 0, guardOf 0x80000000)
  , (rgnReg t 0 0 1, guardOf 0x8000), (rgnReg t 0 0 2, guardOf attr)]

def noneAct (op : Nat) (words : List Nat) : Act :=
  { on := true, slot := 0, ctx := 3, words := words, phase := op, waiting := false, queue := 9, rowsA := [], rowsB := []
    curA := [], curB := [], lists := [], step := 0, hand := [], raised := [] }

/-- A T activation of context 3 that is ready: FP32 by FP32, 4 rows, 4 columns, K 8. -/
def tAct (op : Nat) : Act := noneAct 1 [op * 0x10000000, 0x40004, 8, 0, 64, 0, 0, 128, 0, 0, 0, 0x10000]

/-- A V activation of context 3 that is ready. -/
def vAct (op : Nat) (extra : Nat := 0) : Act :=
  noneAct 1 [op * 0x8000000 + extra, 1, 1, 0x909, 0, 0, 0, 0, 0, 0, 0, 0x10000]

def sAct (t : Nat) (a : Act) : State := setAct (sR (tileCtx t 3)) t a

def sBuf : State :=
  let s := sAct 0 (tAct 4)
  { s with flow := { s.flow with bufWrites := [(0, [(64, [7])])] } }

/-- Output that waits for a tagged slot. -/
def sBufTag : State :=
  let s := setAct (sR [(spReg 0 0x100, 1), (spReg 0 0x140, guardOf 0x103), (rgnReg 0 0 0 0, guardOf 0x80000000), (rgnReg 0 0 0 1, guardOf 64)
    , (rgnReg 0 0 0 2, guardOf 0xB)]) 0 (tAct 4)
  { s with flow := { s.flow with bufWrites := [(0, [(0, [7, 0, 0, 0])])] } }

def sScr : State :=
  let s := sAct 0 (tAct 1)
  { s with flow := { s.flow with scr := [(0, [{ ctx := 3, first := 0, chks := [{ res := 5, mul := true, acc := true, flt := false, codes := [] }], inject := false }])] } }

theorem pair_of_fst {α β : Type} {p : α × β} {a : α} (h : p.1 = a) : p = (a, p.2) := by rw [← h]

/-- Memory that holds `bs` from `a` on. -/
def cellsAt (a : Nat) (bs : List Byte) : List Host.Cell :=
  (bs.zipIdx.filter (fun p => p.1 != 0)).map (fun p => (a + p.2, p.1))

/-- A message of context 3 with a handler and a payload. -/
def aMsg (handler : Nat) (pay : List Byte) : Msg :=
  { hdr := { emptyMsg.hdr with context := 3, vc := 2, handler := handler, payLen := pay.length, len := lenOfPay pay.length }, pay := pay }

/-- Queue `q` of a tile in state `st`, of context 3, with a ring of 16 slots in its scratchpad that holds `n` slots. -/
def queueRegs (t q st n : Nat) (read : Bool := false) : List (Nat × W64) :=
  [(qdReg t q 0, BitVec.ofNat 64 (padBase t + 0x1000 + 4 + 32 * bit01 read)), (qdReg t q 1, guardOf (st + 0x300))
  , (qdReg t q 2, guardOf 0), (qdReg t q 3, guardOf n)]

/-- Tile `t` with `m` at the head of queue `q`. -/
def sHead (t q : Nat) (m : Msg) (l : List (Nat × W64)) : State :=
  { State.reset with
    regs := l ++ tileCtx t 3 ++ queueRegs t q 1 (m.hdr.len + 1) true
    mem := cellsAt (padBase t + 0x1000) (msgBytes m) }

def sDesc : State := sHead 34 0 (aMsg 0 (List.replicate 64 0)) []

def aDesc (op : Nat) : Desc := { words := [op * 0x10000000, 4, 0, 0, 64, 0, 0x10001, 1], ctx := 3, last := true }

def sDescNone : State := sHead 34 0 (aMsg 0 [1, 2, 3]) []

/-- A descriptor of `n` raw elements of four bytes within the scratchpad of tile 34. -/
def aMove (op n : Nat) : Desc :=
  { words := [op * 0x10000000 + 0xFF00000, 4, 0x1100100, 0x100, 0x1100200, 0x100, 0x10000 + n, 1, 0, 0, 0, 0, 0x440100, 4], ctx := 3, last := true }

def sMove (op n : Nat) : State := setChan (sR (tileCtx 34 3)) 34 0 { idleChan with cur := some (aMove op n) }

/-- The state after the element in progress has moved. -/
def moved (element : State → Nat → DmaRes × State) (t ch : Nat) (x : Desc) (u : State) : State :=
  let w := (element u (chanOf u t ch).elem).2
  progress (setChan w t ch { chanOf w t ch with elem := (chanOf u t ch).elem + 1, hand := [] }) t x.ctx

/-- The states of `sMove op n` as its elements move. -/
def movedBy (element : State → Nat → DmaRes × State) (op n : Nat) : Nat → State
  | 0 => sMove op n
  | i + 1 => moved element 34 0 (aMove op n) (movedBy element op n i)

/-- The element in progress moves, when nothing holds it. -/
def movable (element : State → Nat → DmaRes × State) (t ch : Nat) (x : Desc) (u : State) : Bool :=
  (chanOf u t ch).cur == some x && !dmaBad (dRecOf x.words) && decide ((chanOf u t ch).elem < dmaTotal (dRecOf x.words))
    && !dmaHalted u t ch && (element u (chanOf u t ch).elem).1 == .ok []

theorem moves_of_movable {element : State → Nat → DmaRes × State} {t ch : Nat} {x : Desc} {u : State}
    (h : movable element t ch x u = true) : dmaMoves element t ch x u (moved element t ch x u) := by
  simp only [movable, Bool.and_eq_true, beq_iff_eq, Bool.not_eq_true', decide_eq_true_eq] at h
  exact ⟨h.1.1.1.1, h.1.1.1.2, h.1.1.2, fun _ => h.1.2, [], _, Prod.ext h.2 rfl, rfl⟩

/-- How an element moves, for each operation on raw elements of one channel. -/
def copyOf (x : Desc) : State → Nat → DmaRes × State := fun y e =>
  copyElem y 34 0 x.ctx (dRecOf x.words) e
def indexedOf (x : Desc) : State → Nat → DmaRes × State := fun y e => moveIndexed y 34 0 x.ctx (dRecOf x.words) e
def addOf (x : Desc) : State → Nat → DmaRes × State := fun y e => addIndexed y 34 0 x.ctx (dRecOf x.words) e
def fillOf (x : Desc) : State → Nat → DmaRes × State := fun y e =>
  dmaThen y 34 0 0 (fun z => dmaWrite z 34 0 x.ctx (((dRecOf x.words).dst + 4 * e) % 2 ^ 48) ((bytesOf 4 (dRecOf x.words).idxBase).map some))
    (fun z _ => (.ok [], z))

def sChan (op : Nat) : State :=
  setChan (sR (tileCtx 34 3)) 34 0 { idleChan with cur := some (aDesc op) }

def sChanQ (op : Nat) : State :=
  setChan (sR ((dmaReg 34 0 0, 1) :: tileCtx 34 3)) 34 0 { idleChan with queued := [aDesc op] }

def aToken (set value : Nat) : Msg :=
  aMsg 0 (bytesOf 8 (tokenWord { cfg := 0, epoch := 0, kind := 0, last := true, set := set, value := value }) ++ [1, 2, 3, 4])

/-- A T tile of set 5 in state `st` whose slot 0 is bound to context 3 and queue 9. -/
def slotRegs (t st : Nat) : List (Nat × W64) :=
  [(dfReg t 0x100, BitVec.ofNat 64 (st * 256 + 5 * 65536)), (dfReg t 0x118, 1), (dfReg t 0x300, 1)
  , (dfReg t 0xC40, BitVec.ofNat 64 (0x80000000 + 3 * 65536 + 9 * 256))]

def sToken : State := sHead 0 9 (aToken 5 0) (slotRegs 0 1)
def sStale : State := sHead 0 9 (aToken 6 0) (slotRegs 0 1)
def sFlush : State :=
  let s := sHead 0 9 (aToken 5 0) (slotRegs 0 3)
  { s with flow := { s.flow with stops := [(0, { set := 5, epoch := 1, flush := true, held := true })] } }

def sGather : State :=
  setAct (sHead 3 9 (aToken 5 0) ((dfReg 3 0xC08, 0x90900000001) :: slotRegs 3 1)) 3
    { vAct 1 with phase := 0, words := [0x8000000, 1, 1, 0x909] }

/-- V tile 3 with steering entry 0 of operation `k` on queue 9, its control generated, one output with credit. -/
def sSteer (k : Nat) (v : Nat := 0) : State :=
  let s := sHead 3 9 (aToken 5 0)
    [ (dfReg 3 0x100, 0x50100)
    , (dfReg 3 0x600, BitVec.ofNat 64 (k * 2 ^ 61 + 2 ^ 58 + (if k = 3 && v = 0 then 2 else 1) * 2 ^ 32 + 3 * 2 ^ 24))
    , (dfReg 3 0x608, 0x909), (dfReg 3 0x610, 0x8000000709)]
  { s with q := { s.q with cred := [(3 * 1024, { dest := 0x709, ctx := 3, epoch := 0, cred := guardOf 4, away := 0 })] } }

def aCtrl (type : Nat) (words : List Nat) : Ctrl :=
  { type := type, mcast := false, dstTile := 0, dstDev := 0, group := 9, srcDev := 0, srcTile := 1, ctxEpoch := 0
    context := 0, round := 0, words := words }

def sEjected (l : List (Nat × W64)) (t : Nat) (p : Pkt) : State :=
  { State.reset with regs := l, net := { State.reset.net with ejected := [(t, p)] } }

def sCtrl (type : Nat) : State := sEjected [] 0 (.ctrl (aCtrl type [0x50000]))
def sDrainCtrl (type : Nat) : State := sEjected (slotRegs 0 2) 0 (.ctrl (aCtrl type [0x50000]))

def sDrain (flush : Bool) : State :=
  { State.reset with flow := { State.reset.flow with
      drains := [{ set := 5, group := 9, epoch := 1, flush := flush, tStop := 0, limit := 0, tiles := [0], lastInj := none, quiet := 0
                   round := 3, heard := false, next := noPlaced, hung := false, again := false }] } }

def sProbe : State :=
  { sDrain false with net := { State.reset.net with ejected := [(1, .ctrl { aCtrl 0x08 [1, 0, 4, 0, 4, 0] with round := 2 })] } }

def sImage : State := { State.reset with mem := cellsAt 0 [1, 0, 5, 0, 0, 0, 1] }

def sSampler (k : Nat) : State := sR [(tsReg 0x100, 1), (tsReg 0x118, 1), (tsReg 0x128, BitVec.ofNat 64 k)]

def sCompat : State :=
  { State.reset with
    time := { State.reset.time with dt := 3600000000000 }
    flow := { State.reset.flow with compatNs := [(0, 1000)] } }

/-- Tile 0 with words 0 to 63 of context 3 tagged and words 64 to 127 untagged. -/
def padRegs : List (Nat × W64) :=
  [(spReg 0 0x100, 1), (spReg 0 0x140, guardOf 0x103), (rgnReg 0 0 0 0, guardOf 0x80000000), (rgnReg 0 0 0 1, guardOf 64)
  , (rgnReg 0 0 0 2, guardOf 0xB), (rgnReg 0 0 1 0, guardOf 0x80000040), (rgnReg 0 0 1 1, guardOf 128), (rgnReg 0 0 1 2, guardOf 3)]

def sPadWith (l : List (Nat × W64)) (p : PadState) : State := { State.reset with regs := l ++ padRegs, pad := p }

/-- Banks 0 and 4 of tile 0 wake. -/
def sWakeBank : State := sPadWith [(spReg 0 0x128, 0x101)] State.reset.pad
/-- Bank 0 of tile 0 in state 1, reached by the pass. -/
def sPassWake : State := sPadWith [(spReg 0 0x110, 1), (spReg 0 0x128, 1)] { State.reset.pad with pass := [(0, 1)] }
def sTag (full : Bool) : State := sPadWith [] { State.reset.pad with tags := [(0, { full := full, comp := !full })] }
def sWriteBack : State :=
  { State.reset with pad := { State.reset.pad with writeBacks := [{ tile := 0, word := 16, weight := false, data := 5 }] } }
def sPassAt (l : List (Nat × W64)) : State := sPadWith l { State.reset.pad with pass := [(0, 1)] }
def sPass : State := sPassAt [(spReg 0 0x110, 1)]
def sPassEnd : State := sPassAt [(spReg 0 0x110, 1), (spReg 0 0x118, 0x7FF0), (spReg 0 0x128, 0xAAAAAAAAAAAAAAAA)]
def sPassLate : State := sPassAt [(spReg 0 0x110, 1)]
def sTagInit : State := sPadWith [] { State.reset.pad with tagInit := [(0, 0)] }

/-- An access of context 3 to one word of tile 0 by Hornbeam. -/
def anAcc (op : SpOp) (w : Nat) : SpAcc :=
  { tile := 0, boff := 4 * w, len := 4, op := op, req := .mgmt .hornbeam, ctx := some 3, data := [some 1, some 0, some 0, some 0] }

def sWaiting (op : SpOp) (atPort : Bool) : State :=
  sPadWith [] { State.reset.pad with waiters := [{ acc := anAcc op 0, since := 0, atPort := atPort }] }
def sWaiter : State := sWaiting .wrFill false
def sAtPort : State := sWaiting .rdFull true

/-- Bank 7 of tile 0 in state `st`. -/
def sBank (st : Nat) : State := sR [(spReg 0 0x128, BitVec.ofNat 64 (st * 0x4000))]
/-- Bank 7 of tile 0 asked for state `st`. -/
def sAsk (st : Nat) : State := sR [(spReg 0 0x120, BitVec.ofNat 64 (st * 0x4000))]
/-- Bank 7 of tile 0 is ON, its window over, and asked for state 1. -/
def sWindowOver : State :=
  { sAsk 1 with time := { State.reset.time with dt := 10 }, pad := { State.reset.pad with wakeEnd := [(7, 5)] } }
def sHeldBank : State :=
  { sBank 1 with pad := { State.reset.pad with heldAcc := [{ acc := anAcc .rd 112, circ := none }] } }

def sQueue (st : Nat) (n : Nat := 0) : State := sR (tileCtx 0 3 ++ queueRegs 0 7 st n)
def sRing : State := sQueue 0

def aCredit (dest n : Nat) : Credit := { dest := dest, ctx := 3, epoch := 0, cred := guardOf n, away := 0 }

def sCreds (l : List (Nat × W64)) (c : NMap Credit) : State :=
  { State.reset with regs := l ++ tileCtx 0 3, q := { State.reset.q with cred := c } }

def sCred : State := sCreds [] [(0, aCredit 0 4)]
def sCredHb : State := sCreds [(devReg 7 0x120, 8)] [(unitHornbeam * 1024, aCredit 0 0)]
def sCredGb : State := sCreds [(devReg 5 0x120, 8)] []
def sSendWait : State :=
  let s := sCred
  { s with q := { s.q with sends := [{ unit := 0, sender := .block, queue := 7, msg := aMsg 1 [1], since := 0 }] } }

/-- A message for queue 7 of tile 0: accepted (0), of an old context epoch (1), of an old credit epoch (2). -/
def msgFor (k : Nat) : Msg :=
  { hdr := { (aMsg 1 [1, 2]).hdr with dst := 7, creditEpoch := if k = 2 then 1 else 0 }, pay := [1, 2] }

def sArrive (k : Nat) : State :=
  sEjected ([(qctl 0 0x200, guardOf (if k = 1 then 5 else 0))] ++ tileCtx 0 3 ++ queueRegs 0 7 1 0 true) 0 (.msg (msgFor k))

def aGrant : Ctrl := aCtrl 0x01 [0x107, 0x40000]
def sGrant : State := sEjected [] 0 (.ctrl aGrant)
def noEject (s : State) : State := { s with net := { s.net with ejected := [] } }
/-- A table of 1,024 credits, none of them for the grant that comes. -/
def fullCredits : NMap Credit := (List.range 1024).map (fun i => (i, aCredit (0x200000 + i) 0))
def sGrantFull : State := { sGrant with q := { State.reset.q with cred := fullCredits } }

theorem mapFind_listed (f : Nat → Credit) (k : Nat) (l : List Nat) (h : k ∈ l) :
    (mapFind k (l.map (fun i => (i, f i)))).isSome = true := by
  induction l with
  | nil => cases h
  | cons a l ih =>
    by_cases e : a = k
    · simp [mapFind, e]
    · have : k ∈ l := by simpa [Ne.symm e] using h
      simpa [mapFind, e] using ih this

theorem full_free {n : Nat} (h : n = 0) : freeCredit (noEject sGrantFull) n = none := by
  subst h
  have e : (noEject sGrantFull).q.cred = fullCredits := by simp only [noEject, sGrantFull]
  simp only [freeCredit, e, Option.map_eq_none_iff, List.find?_eq_none, Nat.zero_mul, Nat.zero_add]
  intro i hi
  have := mapFind_listed (fun i => aCredit (0x200000 + i) 0) i (List.range 1024) hi
  simp only [Bool.not_eq_true, Option.isNone_eq_false_iff]
  unfold fullCredits
  exact this

theorem grant_full {s : State} {u d c e n : Nat} (h1 : findCredit s u d c = none) (h2 : freeCredit s u = none) :
    takeGrant s u d c e n = (true, s) := by
  unfold takeGrant
  rw [h1]
  dsimp only
  rw [h2]

def takenGrant (s : State) : Bool × State :=
  takeGrant (noEject s) (unitAt (noEject s) 0 aGrant.context) (ctrlEp aGrant) aGrant.context (ctrlEpoch aGrant) (ctrlSlots aGrant)

def anAck : Ctrl := { aCtrl 0x05 [] with group := 0 }
def sRevoked : State :=
  { sEjected [] 0 (.ctrl anAck) with q := { State.reset.q with revokes := [(0, 0, 0)] } }

/-- Thread 3 of tile 0, of context 3, about to run the operation `w`; its G1 is 1. -/
def aThread : Thread :=
  { idleThread with busy := true, ctx := 3, queue := 7, count := 8, g := [(1, 1)], msg := aMsg 1 [1, 2, 3, 4, 5, 6, 7, 8] }

def sThreadOn (l : List (Nat × W64)) (c : NMap Credit) (w : Nat) : State :=
  { State.reset with
    regs := l
    q := { State.reset.q with threads := [(3, aThread)], cred := c, store := [(0, BitVec.ofNat 32 w)] } }

/-- A thread runs on a message that queue 7 holds. -/
def sServed : State :=
  { sQueue 1 1 with q := { State.reset.q with threads := [(3, { aThread with own := some 7 })] } }

def sThread (w : Nat) : State := sThreadOn (tileCtx 0 3) [] w
def sThreadPad (w : Nat) : State := sThread w
def sThreadTag (full : Bool) (w : Nat) : State :=
  { sThreadOn padRegs [] w with pad := { State.reset.pad with tags := [(0, { full := full, comp := !full })] } }
def sThreadSend (w : Nat) : State := sThreadOn (tileCtx 0 3) [(0, aCredit 0 4), (1, aCredit 0x100000000 4)] w
def sThreadWait (w : Nat) : State := sThreadOn (tileCtx 0 3) [(1, aCredit 0x100000000 0)] w
def sThreadGrant : State := sThreadOn (tileCtx 0 3 ++ queueRegs 0 0 1 0) [] (0x1C <<< 27 + 1 <<< 19)
def sThreadGet : State := sThreadOn (tileCtx 0 3 ++ queueRegs 0 7 1 0 true) [] (0x1D <<< 27 + 7)

def sNackJob : State :=
  { sR (tileCtx 0 3) with q := { State.reset.q with nacks := [{ tile := 0, queue := 7, cause := 1, hdr := (aMsg 1 []).hdr }] } }
def sDispatch : State :=
  { State.reset with
    regs := [(qctl 0 0x180, guardOf (100 <<< 14)), (qctl 0 0x188, guardOf (4 <<< 13))] ++ tileCtx 0 3 ++ queueRegs 0 7 1 1
    mem := cellsAt (padBase 0 + 0x1000) (msgBytes (aMsg 1 [1, 2]))
    q := { State.reset.q with store := [(1, 0x80002000)] } }
def sReader : State :=
  let s := sHead 0 7 (aMsg 1 [1, 2]) []
  { s with q := { s.q with threads := [(3, { aThread with wait := .message 7 })] } }

/-- A message flit that router 0 sends by its port 1. -/
def sFlit : State :=
  { State.reset with net := { State.reset.net with links := [(1, [{ pkt := .msg (aMsg 1 [1]), idx := 0, inPort := 0 }])] } }
def sReplay : State := { State.reset with net := { State.reset.net with replay := [(1, true)] } }
def sInject : State := { State.reset with net := { State.reset.net with inject := [(0, .msg (aMsg 1 [1]))] } }

def sHere (l : List (Nat × W64)) (t port : Nat) (p : Pkt) : State :=
  { State.reset with regs := l, net := { State.reset.net with here := [{ loc := t, port := port, pkt := p, id := 0, came := flitsOf p }] } }

/-- Router 0 on group 9, its tree by port 3, its root by port 2. -/
def groupRegs : List (Nat × W64) := [(banked (tileReg 0 3 0x128) 9, 0x2032)]
def aMcast : Ctrl := { aCtrl 0x02 [0x107, 0] with mcast := true }
def sMulti (n : Nat) : State := sHere groupRegs 0 (n - 2) (.ctrl aMcast)
/-- Router 0 as the root of group 9 on a member device, its fabric root by port 2, which runs. -/
def sMultiUp : State :=
  sHere [(banked (tileReg 0 3 0x128) 9, 0x2030), (banked (fxReg 0x120) 9, 0x100002), (pxReg 2 0x108, 0x12)] 0 0 (.ctrl aMcast)
def sMultiDown : State := sHere groupRegs 0 2 (.ctrl aMcast)
/-- A firmware packet for the members of group 9. -/
def aFwCast : FwPkt := { dst := 0, mcast := true, group := 9, chunk := 0, pull := false, piece := 0, src := 0, hash := 0, data := [7] }
def sFwCast : State := sHere groupRegs 0 2 (.fw aFwCast)
def sReply (b : Bool) : State :=
  let s := sHere groupRegs 0 1 (.ctrl (aCtrl 0x05 []))
  { s with net := { s.net with
      up := if b then [(0, [{ group := 9, type := 5, round := 0, heard := 0, acc := aCtrl 0x05 [] }])] else [] } }
def sMeshSum : State := sEjected [] 1 (.ctrl { aCtrl 0x10 [0, 0] with group := 0 })

/-- One of `total` partials of a reduction to queue 9 of tile 5. -/
def aRed (total : Nat) : Red :=
  { value := 0, dst := 0x509, ctxEpoch := 0, context := 3, redId := 7, elem := 0, contrib := 1, total := total, kind := 1
    trunc := false, inv := false, ovf := false, residue := 0, rmode := 0, anchor := 0, stepTag := 0, partIndex := 0 }
def sPartial (n : Nat) : State :=
  let s := sHere [] 0 2 (.red (aRed (if n = 0 then 2 else n)))
  { s with net := { s.net with comb := if n = 0 then [] else [(0, [{ red := aRed n, opened := 0 }])] } }
/-- A partial that comes to the router of its own destination. -/
def aRedHome : Red := { aRed 2 with dst := 9 }
def sPartialHome : State := sHere [] 0 2 (.red aRedHome)
def sComp : State := sHere ((qctl 0 0x200, guardOf 0) :: tileCtx 0 3) 0 18 (.red (aRed 2))
def sCompStale : State := sHere ((qctl 0 0x200, guardOf 5) :: tileCtx 0 3) 0 18 (.red (aRed 2))
def sCompDone : State :=
  { sCreds [] [(0, aCredit 0x509 4)] with
    net := { State.reset.net with comp := [(0, [{ red := aRed 2, sums := [], next := 2, held := [], done := true, mis := false }])] } }

/-- Parith port 0 in state `st` at DT `dt`. -/
def sPortAt (st dt : Nat) : State :=
  { sR [(pxReg 0 0x108, BitVec.ofNat 64 (0x10 + st))] with time := { State.reset.time with dt := BitVec.ofNat 64 dt } }
def sPort (st : Nat) : State := sPortAt st 0
def sPortPeer : State := { sPort 1 with fabric := { State.reset.fabric with peer := [(0, 0x8000000000000007)] } }
def sPortSent (dt : Nat) : State :=
  { sPortAt 2 dt with fabric := { State.reset.fabric with sent := [(0, [{ seq := 0, pkt := .msg (aMsg 1 [1]), hop := 0, next := 0, paid := 0, replay := false }])] } }
/-- Port 0 awaits a replay. -/
def sPortNak : State := { sPort 2 with fabric := { State.reset.fabric with nak := [(0, true)] } }
/-- A packet that overtook an earlier one has come to port 0. -/
def sPortAhead : State := { sPort 2 with fabric := { State.reset.fabric with rxAhead := [(0, [1])] } }
/-- Lanes 0 and 2 of port 0 are ordered trained again. -/
def sPortRetrain : State := { sPort 3 with fabric := { State.reset.fabric with retrain := [(0, 5)] } }
def sPortOwed : State := { sPort 2 with fabric := { State.reset.fabric with ackOwed := [(0, true)], owed := [(0, 1)] } }
def sEgress : State :=
  { sPortAt 2 20000 with fabric := { State.reset.fabric with egress := [(0, [{ pkt := .msg (aMsg 1 [1]), since := 0, hop := 0, own := true }])] } }
def sTimed : State := sR [(pxReg 0 0x108, 0x12), (fxReg 0x128, 1)]
/-- An exchange by port 0 is open, after `n` exchanges by it without delay. -/
def sTimeAsked (n : Nat) : State :=
  { sTimed with
    time := { State.reset.time with dt := 2000 }
    fabric := { State.reset.fabric with
      time := { num := 5, window := 1, t1 := 1000, via := 1, delays := List.replicate n 0, good := 0, bad := 0, jumped := true } } }

def tbReg (off : Nat) : Nat := devReg 2 off

/-- Reset with registers `l` at DT `dt`. -/
def sAtDt (dt : Nat) (l : List (Nat × W64)) : State := { sR l with time := { State.reset.time with dt := BitVec.ofNat 64 dt } }

def sLineHeld : State := { State.reset with gorbin := { State.reset.gorbin with dir := [{ line := 1, st := 2 }] } }
def sMemBack : State := { State.reset with dram := { State.reset.dram with writeBacks := [(96, 5)] } }
/-- Channel 95 in state `st`. -/
def sChannel (st : Nat) : State := sAtDt 250000000 [(mcReg 23 0x108, BitVec.ofNat 64 (st * 512))]
def sChannelDue : State := { sChannel 2 with dram := { State.reset.dram with dueAt := [(95, 1)] } }
def sChannelFailed : State := { sChannel 3 with dram := { State.reset.dram with failedOnce := [(95, true)] } }
def sUeCount : State :=
  { sR [(mcReg 23 0x100, 0x100)] with dram := { State.reset.dram with ueCount := [(95, (0, 2))] } }
def sScrubOn : State := sR [(mmReg 0x100, 2)]
def sDay : State := sAtDt 86400000000000 []
/-- Every channel is retraining. -/
def sScrubBusy : State := sR (((List.range 24).map (fun i => (mcReg i 0x108, BitVec.ofNat 64 0x6DB))) ++ [(mmReg 0x100, 2)])
def sFenceBit : State := sR [(mmReg 0x128, guardOf 1)]

/-- The Gorbin port up. -/
def sGb : State := sR [(gbReg 0x108, 2)]
/-- The Gorbin port in state `st` at DT `dt`, its lanes enabled. -/
def sGbAt (st dt : Nat) : State := sAtDt dt [(gbReg 0x100, 0xFF000001), (gbReg 0x108, BitVec.ofNat 64 st)]
def sGbRetrain : State := { sGbAt 3 0 with fabric := { State.reset.fabric with retrain := [(14, 5)] } }
/-- A packet of the Gorbin port is sent and not acknowledged, at DT `dt`. -/
def sGbSent (dt : Nat) : State :=
  { sGbAt 2 dt with gorbin := { State.reset.gorbin with
      sent := [{ seq := 0, pkt := ⟨0x80, 0, 0, 0, []⟩, hop := 0, next := 0, paid := 0, replay := false }] } }
/-- A flag table of one flag at address 64. -/
def sGbFlag : State := sR [(gbReg 0x108, 2), (gbReg 0x140, 0x8000000000000), (gbReg 0x148, 0x40)]
/-- The companion holds the line of the flag table. -/
def sFlagLate : State := { sGbFlag with gorbin := { State.reset.gorbin with dir := [{ line := 1, st := 2 }] } }
/-- Bring-up has halted with the port up. -/
def sGbHalted : State := sR [(gbReg 0x108, 2), (hbReg 0x108, 0xC0A)]
def sGbLine (st : Nat) : State := { sGb with gorbin := { State.reset.gorbin with dir := [{ line := 1, st := st }] } }
/-- Every way of the directory set of line 1 holds another line. -/
def sGbFull : State :=
  { sGb with gorbin := { State.reset.gorbin with dir := (List.range 16).map (fun i => { line := 1 + 65536 * (i + 1), st := 1 }) } }
/-- A posted write to line 1 waits for its snoop. -/
def sGbWaits : State :=
  { sGbLine 2 with gorbin := { (sGbLine 2).gorbin with waits := [{ hdr := ⟨0x04, 0, 8, 64, 0, 0⟩, data := List.replicate 8 7 }] } }
/-- A request of the device for line 1 of the companion has failed. -/
def sGwFailed : State := { sGb with gorbin := { State.reset.gorbin with gwFail := [(1, 5)] } }
/-- Line 1 of the companion in the gateway cache. -/
def sGw (st : Nat) : State :=
  { sGb with gorbin := { State.reset.gorbin with gw := [(1, { st := st, data := List.replicate 64 9 })] } }
/-- Doorbell 7 bound to context 3, with the value `n` waiting. -/
def sDoorbell (n : Nat) : State :=
  { sR [(gbReg 0x108, 2), (banked (gbReg 0x158) 7, 0x8000000000000000), (banked (gbReg 0x160) 7, 0x300)] with
    gorbin := { State.reset.gorbin with db := if n = 0 then [] else [(7, BitVec.ofNat 64 n)] } }
def sDoorbellReady : State :=
  { sDoorbell 4 with q := { State.reset.q with cred := [(unitGorbin * 1024, aCredit 0 4)] } }
def sMsgCredit : State :=
  { sR [(gbReg 0x108, 2), (devReg 5 0x120, 8)] with q := { State.reset.q with cred := [(unitGorbin * 1024, aCredit 0 4)] } }
/-- A snoop of line 1, which the directory holds in state `st`. -/
def sSnoop (opc st : Nat) : State :=
  { sGb with gorbin := { State.reset.gorbin with
      dir := if st = 0 then [] else [{ line := 1, st := st }], reqs := [{ tag := 5, opc := opc, addr := 64, since := 0 }] } }
def sGwReq (opc : Nat) : State :=
  { sGw 1 with gorbin := { (sGw 1).gorbin with reqs := [{ tag := 5, opc := opc, addr := 64, since := 0 }] } }
def sSnoopLate : State := { sSnoop 0x20 2 with time := { State.reset.time with dt := 100000 } }
def sReqLate : State := { sGwReq 0x10 with time := { State.reset.time with dt := 1000000 } }
def sGbEnabled : State := sR [(gbReg 0x100, 0xFF000001)]
def sMsgFail : State := sR [(gbReg 0x118, 0x8000000000000000)]
def sBootWait : State := sR [(gbReg 0x108, 2), (gbReg 0x168, 1)]

def aRecord (code : Nat) : Record :=
  { code := code, ctxValid := false, clean := false, seq := 0, dt := 0, endpoint := 0, ctxEpoch := 0, context := 0, stepTag := 0
    page := 0x40007, detail := [] }
def sLogged : State := { State.reset with log := { State.reset.log with coll := [(288, [aRecord 0x0A01])] } }
def sReady : State := sR [(hbReg 0x108, 0xC20)]
def sEvent : State := { State.reset with irq := { State.reset.irq with events := [383] } }
def sHoldoff (b : Bool) : State :=
  { sAtDt 10 [] with irq := { State.reset.irq with holdEnd := [(18, 5)], duringHold := [(18, b)] } }

/-- Context 3, stepped, in state `st` at step 7: end queue 7, journal of 2 MiB. -/
def stepRegs (st : Nat) : List (Nat × W64) :=
  [(csCtx 3 0x190, 0x70001), (csCtx 3 0x1A0, BitVec.ofNat 64 st), (csCtx 3 0x180, guardOf 7), (csCtx 3 0x188, guardOf 0)
  , (csCtx 3 0x198, 0x100000000)]
def sStep (st : Nat) : State := sR (stepRegs st)
def sStepEnd (v : Nat) : State :=
  sHead 0 7 (aMsg 0 (bytesOf 8 (tokenWord { cfg := 0, epoch := 0, kind := 1, last := true, set := 5, value := v }))) (stepRegs 1)
def sVoter : State :=
  { sR (stepRegs 1 ++ tileCtx 0 3) with commit := { State.reset.commit with endTok := [(3, true)] } }
def sDirty (b : Bool) : State :=
  { sStep (if b then 2 else 1) with
    commit := { State.reset.commit with dirtyReq := [3], att := if b then [(3, { noAttempt with voted := true })] else [] } }
def aVote : Ctrl := { aCtrl 0x0C [0, 7, 0] with context := 3 }
def sVoted : State := sEjected (stepRegs 1) 5 (.ctrl aVote)
def aDecide (d : Nat) : Ctrl := { aCtrl 0x0D [d, 7, 0] with context := 3 }
def sDecided (d : Nat) : State := sEjected (stepRegs 1) 1 (.ctrl (aDecide d))
def sApplied : State := sStep 3
/-- Context 3 in state `st`, its vote group over Parith port 0. -/
def sLost (st : Nat) : State := sR ((banked (fxReg 0x120) 0, 0x100000) :: stepRegs st)

/-- Cluster 5 quarantined, its confirmation test with result `n`. -/
def sSuspect (n : Nat) : State :=
  { State.reset with
    sec := { State.reset.sec with fuses := { State.reset.sec.fuses with lc := 1 } }
    commit := { State.reset.commit with
      quar := [{ cluster := 5, ctx := 3, step := 7, code := 0x0101, firstSig := some 1, replaySig := some 2, unplaced := false, audit := false
               , pred := 0, obs := 0 }]
      confirm := if n = 0 then [] else [(5, n)] } }
def sStruck : State := { sSuspect 1 with commit := { (sSuspect 1).commit with strikes := [(5, (2, 0))] } }
/-- Cluster 5 at 22 °C with a fence conditional on `v` °C, in force or not. -/
def sCond (v : Nat) (b : Bool) : State :=
  { sR [(clusterReg 5 0x190, 220)] with commit := { State.reset.commit with
      condFences := [fenceEntry 2 5 0 1 1 v], inForce := if b then [fenceEntry 2 5 0 1 1 v] else [] } }
def sFenceJob : State := { State.reset with commit := { State.reset.commit with fenceJobs := [fenceEntry 2 5 0 1] } }

/-- Context 3 of tile 0 waits for credit to a queue of its own tile, for `n` windows so far. -/
def sHung (n : Nat) : State :=
  let s := sCreds [] []
  { s with
    q := { s.q with sends := [{ unit := 0, sender := .block, queue := 7, msg := aMsg 1 [1], since := 0 }] }
    time := { s.time with dt := 2000 }
    recov := { State.reset.recov with stalled := [(3, n)], window := 1 } }
def aHang : Hang := { members := [(0, 3)], cause := 1, dt := 0, set := none }
def sRoundAt (n : Nat) (l : List (Nat × W64)) : State :=
  { sR ((brReg 0x108, BitVec.ofNat 64 n) :: l) with recov := { State.reset.recov with current := some aHang } }
def sRound (n : Nat) : State := sRoundAt n []
def sSampled : State := sRoundAt 2 [(brReg 0x110, 0x100000000000000)]
/-- The sample of context 3 meets a bank that sleeps. -/
def sSampleSleeps : State :=
  let s := sRoundAt 2 ([(brReg 0x110, 0x100000000000000), (spReg 0 0x128, 1)] ++ tileCtx 0 3)
  { s with recov := { s.recov with round := [3] } }
def sAdmit (st : Nat) : State :=
  { sR ((brReg 0x108, 4) :: stepRegs st) with recov := { State.reset.recov with toAdmit := [3] } }
def sAdmitted (b : Bool) : State :=
  { sR [(brReg 0x108, 0x10304)] with recov := { State.reset.recov with admHang := if b then some aHang else none } }

def sTdAt (dt n : Nat) : State := sAtDt dt [(banked (brReg 0x150) 3, BitVec.ofNat 64 n)]
def sTear (n : Nat) : State := { sTdAt 0 n with recov := { State.reset.recov with tdReq := [3] } }
def sDraining (dt : Nat) : State := { sTdAt dt 2 with recov := { State.reset.recov with draining := [(3, (0, 0))] } }
def sDrainBound : State :=
  { sDraining 1000000 with
    fabric := { State.reset.fabric with egress := [(0, [{ pkt := .msg (aMsg 1 [1]), since := 0, hop := 0, own := true }])] } }
def anAbort : Ctrl := { aCtrl 0x0E [1, 0, 5, 0] with group := 0 }
def sAbort (n : Nat) : State := sEjected (stepRegs n) 0 (.ctrl anAbort)
def sPartition : State := sR [(brReg 0x1C0, 0x20)]
def sWarmReady : State := { sReady with recov := { State.reset.recov with resetCmd := 3 } }
def sRstLow : State := { State.reset with module := { State.reset.module with rstLow := true } }

def ckRegs (own : Bool) : List (Nat × W64) :=
  (ckReg 0x100, 1) :: (if own then [(ckSt 0 0x180, 0x8003000000000000)] else [(ckSt 0 0x198, 0x8000030000100000)])
/-- Stream 0, as owner or as holder of context 3, in the state `x`, at DT `dt`. -/
def sCk (own : Bool) (dt : Nat) (x : CkStream) : State := setStream (sAtDt dt (ckRegs own)) 0 x
def sStream (_ : Nat) : State := sCk true 30000000000000 idleStream
def sTrickle : State :=
  { sCk true 0 { idleStream with ownTake := some 7, captured := true, segs := [(0, 1, 2)] } with
    q := { State.reset.q with cred := [(1024, { dest := 0x1FE, ctx := 3, epoch := 0, cred := guardOf 16, away := 0 })] } }
def sExport : State := sCk false 0 { idleStream with exportAt := some (0, 0) }
def sRestore : State := sCk false 0 { idleStream with restore := some (0, 0, false, 0) }
def aPiece : Msg :=
  let m := aMsg 0 ([1, 2, 3, 4] ++ bytesOf 8 0)
  { m with hdr := { m.hdr with dst := 0x1FE } }
def sPiece : State :=
  { sCk false 0 { idleStream with holdTake := some 7 } with net := { State.reset.net with ejected := [(1, .msg aPiece)] } }
/-- The image of the step, one block that was not written, has come. -/
def sSealing : State := sCk false 0 { idleStream with holdTake := some 7, came := [(4096, 8)] }
/-- A checkpoint is in progress, and a TAKE waits. -/
def sCkBusy : State := sCk true 0 { idleStream with ownTake := some 7, wait := some (7, 0) }
def sFlashPart : State := sCk false 0 { idleStream with flashAt := some (0, 0), copyWaits := true }
def sFlashOwed : State := sCk false 0 { idleStream with flashOwed := true }

/-- Bring-up in a phase and a step of it. -/
def sBootAt (dt phase step : Nat) : State :=
  { sAtDt dt [(hbReg 0x108, BitVec.ofNat 64 (0xC00 + phase + (if phase = 9 then 0x20 else 0)))] with
    boot := { State.reset.boot with step := step } }
def sBoot (phase step : Nat) : State := sBootAt 0 phase step
def sBootDir : State := { sBoot 5 0 with ufs := { State.reset.ufs with dir := [(4, 0, 0, 1)] } }
def sLicensed (phase notBefore : Nat) (expired : Bool) : State :=
  { sBootAt 5 phase 0 with boot := { State.reset.boot with
      licence := some { variant := 1, number := 1, notBefore := notBefore, notAfter := if expired then 1 else 0xFFFFFFFFFFFFFFFF } } }
def sNoLock : State := sBootAt 200000000 7 2
def sKept : State := sR [(hbReg 0x108, 0xC89)]

/-- A firmware image with one chunk, of T tiles. -/
def aBoot : BootState := { State.reset.boot with img := List.replicate 18 0 ++ [1, 0] }
/-- A pull to a copy tile (0) and to another (1), a piece that is taken (2) and one that is not (3). -/
def aFw (n : Nat) : FwPkt :=
  { dst := 0, mcast := false, group := 0, chunk := 0, pull := decide (n < 2), piece := if n = 3 then 8 else 0, src := 0, hash := 0, data := [7] }
def sFw (n : Nat) : State :=
  { sEjected [] 0 (.fw (aFw n)) with
    boot := { aBoot with copyTile := if n = 0 then [(0, 0)] else [], fw := if n = 0 then [(0, { got := [], ok := true })] else [] } }
def sRoundOf (n : Nat) : State := { State.reset with boot := { aBoot with fwRound := some n, fwTiles := [0] } }
def sUfs (n : Nat) : State :=
  { State.reset with ufs := { State.reset.ufs with
      cmds := [{ op := 0, lun := 0, block := 0, count := 1, data := [], user := .host, tries := n, issued := true }] } }
def sUfsIdle : State := sAtDt 1000000 [(ufsReg 0x108, 1)]

/-- The secure processor's state in life-cycle group `lc`. -/
def secAt (lc : Nat) : SecState := { State.reset.sec with fuses := { State.reset.sec.fuses with lc := lc } }
def sYewWith (dt : Nat) (l : List (Nat × W64)) (y : YewState) : State := { sAtDt dt l with sec := secAt 1, yew := y }
def sYew (_ : Nat) : State := sYewWith 0 [] State.reset.yew
def sYewLate : State := sYewWith 86400000000000 (tileCtx 0 3) { State.reset.yew with due := [(0, 0)] }
def sYewReady : State := sYewWith 0 [] { State.reset.yew with due := [(0, 0)], vacate := [0] }
def sYewBusy : State := sYewWith 0 [] { State.reset.yew with due := [(0, 0)], vacate := [0], run := some (newTest 1 9) }
def sSuspectBusy : State := { sSuspect 0 with yew := { State.reset.yew with run := some (newTest 1 9) } }
def sTested (b : Bool) : State :=
  sYewWith 0 [] { State.reset.yew with run := some { newTest 1 0 with started := true, bad := b } }
def sSweep : State := sYewWith 0 [] { State.reset.yew with run := some { newTest 3 0 with started := true } }
/-- The queue is full of tests of the schedule. -/
def sYewFull : State := sYewWith 0 [] { State.reset.yew with queue := (List.range 16).map (newTest 1) }
/-- A segment of the shut-down test has its operating point. -/
def sWave : State :=
  sYewWith 0 [] { State.reset.yew with run := some { newTest 4 0 with started := true }, testVolt := [(0, 7500)] }
/-- The sweep of cluster 0 waits in the shut-down test. -/
def sWaveSweep : State :=
  sYewWith 0 [] { State.reset.yew with
    run := some { newTest 4 0 with fails := [(4608, 0)] }, sdSweeps := [{ newTest 3 0 with fails := [(0, 1)] }] }
/-- The sweep of cluster 0 waits in the queue, its cluster still held or not. -/
def sSweepQueued (held : Bool) : State :=
  sYewWith 0 [] { State.reset.yew with queue := [newTest 3 0], testVolt := if held then [(0, 7500)] else [] }
def sHour : State := sAtDt 3600000000000 []
def sHourDir : State := { sHour with ufs := { State.reset.ufs with dir := [(4, 0, 0, 1)] } }
def sYewPlaced : State := sYewWith 0 (tileCtx 0 3) State.reset.yew
def sYield : State := sYewWith 0 [(ywReg 0x118, 0x8000000500000000)] State.reset.yew
def aSession (level : Nat) : Session := { level := level, ctx := 3, key := 0, notAfter := level }
def sRaw (mode : Nat) : State :=
  { sR [(ywReg 0x108, BitVec.ofNat 64 mode)] with sec := { secAt 1 with session := some (aSession 3) } }

def sTimedWake : State := sAtDt 10 [(pwReg 0x138, 5)]
def sEntering (n : Nat) : State := { State.reset with power := { State.reset.power with entering := [(7, n)] } }
/-- Cluster 7 in state `n`, its exit begun or not. -/
def sAsleep (n : Nat) (b : Bool) : State :=
  { sR [(clStat 7, BitVec.ofNat 64 (750 * 4096 + n + 8 * bit01 b))] with
    power := { State.reset.power with waking := if b then [(7, 0)] else [] } }
def sDevice (n : Nat) (w : Option Nat) : State :=
  { sR [(pwReg 0x108, BitVec.ofNat 64 (n + 4 * bit01 w.isSome))] with power := { State.reset.power with devWake := w } }
def sDevEnter (n : Nat) : State := { State.reset with power := { State.reset.power with devEnter := some n } }
def sSettled : State := { sAtDt 500000 [] with power := { State.reset.power with settled := [(3, 1)] } }
def sHot : State := sR [(clusterReg 7 0x190, 2500)]

def sSession (n : Nat) : State := { State.reset with sec := { State.reset.sec with session := some (aSession n) } }
def sHwBusy : State := sR [(hwReg 0x100, 0x4000)]
def sHwDone : State :=
  { State.reset with time := { State.reset.time with held := false }, sec := { State.reset.sec with running := some (9, 0, none) } }
def sHwWaits : State :=
  { State.reset with
    sec := { secAt 2 with running := some (1, 65536, none), fuses := { (secAt 2).fuses with dus := some 5 } }
    gorbin := { State.reset.gorbin with dir := [{ line := 1024, st := 2 }] } }
def sTrng : State := { sAtDt 1000000000 [] with sec := { State.reset.sec with trngOk := false } }

def sSupplyFault : State := { State.reset with module := { State.reset.module with supplyFault := true } }
def sAwake : State := { sR [(hbReg 0x108, 0xC02)] with time := { State.reset.time with held := false } }
def sTfs : State := sAwake
def sI3cDone : State := { State.reset with module := { State.reset.module with result := some (0, 5) } }
def sHalted : State := sR [(hbReg 0x108, 0xC0A)]
def sErrBit : State := sR [(pageBase 0x40007 + 0x20, 8)]

/-! ### A witness for every clause of every statement -/

theorem test_hyps_tile_control_writes_1 :
    ∃ (a : Agent) (t : TileId) (v : W64) (s : State), writeOk s a (tileReg t 0 0x400) v = true :=
  ⟨.hornbeam, 0, 3, State.reset, by decide⟩

theorem test_hyps_tile_control_writes_2 :
    ∃ (a : Agent) (t : TileId) (ch : Fin 4) (e : Bool) (s : State), writeOk s a (dmaReg t ch 0) (BitVec.ofNat 64 (2 + bit01 e)) = true :=
  ⟨.hornbeam, 34, 3, true, State.reset, by decide⟩

theorem test_hyps_tile_control_writes_3 :
    ∃ (a : Agent) (t : TileId) (ch : Fin 4) (e : Bool) (s : State), writeOk s a (dmaReg t ch 0) (BitVec.ofNat 64 (bit01 e)) = true :=
  ⟨.companion, 34, 0, false, State.reset, by decide⟩

theorem test_hyps_tile_control_writes_4 :
    ∃ (a : Agent) (t : TileId) (n j : Fin 8) (off : Fin 4096) (v : W64) (s : State), off.val = 0x800 + 0x80 * n.val + 8 * j.val ∧ writeOk s a (dfReg t off) v = true ∧ shadowLocked s t = false :=
  ⟨.hornbeam, 0, 7, 7, 0xBB8, 0xFFFFFFFFFFFFFFFF, State.reset, by decide⟩

theorem test_hyps_tile_control_writes_5 :
    ∃ (a : Agent) (t : TileId) (n : Fin 8) (w : List W32) (k : PageKind) (s : State), slotKind t 1 = some k ∧ tileType t ≠ .s ∧ regDenied s a k t (slotOff false n) true 0 = false ∧ pageAwake s (dfPage t) = true ∧ fencedWrite s k t (slotOff false n) = false ∧ haltedWrite s k (slotOff false n) 0 = false ∧ shadowLocked s t = false :=
  ⟨.hornbeam, 0, 7, [], .dataflow, State.reset, by decide⟩

theorem test_hyps_tensor_commands_1 :
    ∃ (t : TileId) (a : Act) (s : State), tileType t = .t ∧ dueAct s t 0 (fun w => (tRecOf w).op) = some a :=
  ⟨0, _, sAct 0 (tAct 0), rfl, rfl⟩

theorem test_hyps_tensor_commands_2 :
    ∃ (t : TileId) (a : Act) (r : TRec) (s1 s : State) (sr sc ch : Nat) (q : Bool × State), tileType t = .t ∧ dueAct s t 1 (fun w => (tRecOf w).op) = some a ∧ r = tRecOf a.words ∧ shapeOf r.aFmt r.bFmt = some (sr, sc, ch) ∧ (s1 = (if a.step = 0 && a.hand.isEmpty then each (List.range (r.m * r.n)) (fun u i => mmaInit u t r i) s else s)) ∧ q = engSteps t (fun n => stepRanges r sr sc (stepPlace r sr sc n)) (mmaStep t r sr sc ch) ((r.m / sr) * (r.n / sc) * (r.k / ch) - (actOf s1 t).step) s1 ∧ q.1 = true :=
  ⟨0, _, _, _, sAct 0 (tAct 1), 4, 4, 8, _, rfl, rfl, rfl, rfl, rfl, rfl, by decide +kernel⟩

theorem test_hyps_tensor_commands_3 :
    ∃ (t : TileId) (a : Act) (q : List (List Nat) × State) (s : State), tileType t = .t ∧ dueAct s t 2 (fun w => (tRecOf w).op) = some a ∧ q = emitRange (busySteps s t (emitSteps (tRecOf a.words))) t a (tRecOf a.words) :=
  ⟨0, _, _, sAct 0 (tAct 2), rfl, rfl, rfl⟩

theorem test_hyps_tensor_commands_4 :
    ∃ (t : TileId) (a : Act) (s : State), tileType t = .t ∧ dueAct s t 3 (fun w => (tRecOf w).op) = some a :=
  ⟨0, _, sAct 0 (tAct 3), rfl, rfl⟩

theorem test_hyps_tensor_commands_5 :
    ∃ (t : TileId) (a : Act) (r : TRec) (q : Bool × State) (s : State), tileType t = .t ∧ dueAct s t 4 (fun w => (tRecOf w).op) = some a ∧ r = tRecOf a.words ∧ q = engSteps t (fun n => [loadRange r n]) (loadStep t r) (ceilDiv (r.m * r.n) 16 - (actOf s t).step) s ∧ q.1 = true :=
  ⟨0, _, _, _, sAct 0 (tAct 4), rfl, rfl, rfl, rfl, by decide +kernel⟩

theorem test_hyps_tensor_commands_6 :
    ∃ (t : TileId) (s : State), tileType t = .t ∧ (actOf s t).on = true ∧ (actOf s t).waiting = true ∧ actPends s t = false :=
  ⟨0, sAct 0 { tAct 1 with waiting := true }, by decide +kernel⟩

theorem test_hyps_tensor_commands_7 :
    ∃ (t : TileId) (s : State), tileType t ≠ .t ∧ (actOf s t).on = true ∧ (actOf s t).waiting = true ∧ actPends s t = false :=
  ⟨3, sAct 3 { vAct 1 with waiting := true }, by decide +kernel⟩

theorem test_hyps_tensor_commands_8 :
    ∃ (t : TileId) (b : Nat) (d : List Byte) (rest : List (Nat × List Byte)) (x : SpAcc) (s : State), mapGet (fun _ => []) s.flow.bufWrites t = (b, d) :: rest ∧ (actOf s t).on = true ∧ actPends s t = false ∧ x = { tile := t, boff := b, len := d.length, op := .wr, req := .act t, ctx := some (actOf s t).ctx, data := d.map some } ∧ ((ctxRegion s t (actOf s t).ctx (b / 4)).map (fun g => g.tagged)).getD false = false ∧ regionCheck s x = none ∧ mustHold s x = false :=
  ⟨0, 64, [7], [], _, sBuf, rfl, rfl, rfl, rfl, by decide +kernel⟩

theorem test_hyps_tensor_commands_9 :
    ∃ (t : TileId) (b : Nat) (d : List Byte) (rest : List (Nat × List Byte)) (x : SpAcc) (s : State), mapGet (fun _ => []) s.flow.bufWrites t = (b, d) :: rest ∧ (actOf s t).on = true ∧ actPends s t = false ∧ x = { tile := t, boff := b, len := d.length, op := .wrFill, req := .act t, ctx := some (actOf s t).ctx, data := d.map some } ∧ ((ctxRegion s t (actOf s t).ctx (b / 4)).map (fun g => g.tagged)).getD false = true ∧ regionCheck s x = none ∧ mustHold s x = false ∧ tagAt s t (b / 4) = tagEmpty ∧ slotWaiters s t b true = [] :=
  ⟨0, 0, [7, 0, 0, 0], [], _, sBufTag, rfl, rfl, rfl, rfl, by decide +kernel⟩

theorem test_hyps_tensor_commands_10 :
    ∃ (t : TileId) (j : ScrJob) (js : List ScrJob) (fs : List (Nat × Nat × Nat)) (s1 s : State), mapGet (fun _ => []) s.flow.scr t = j :: js ∧ s1 = { s with flow := { s.flow with scr := mapPut (fun _ => []) s.flow.scr t js } } :=
  ⟨0, _, [], [(0x0101, 0, 127)], _, sScr, rfl, rfl⟩

theorem test_hyps_vector_elementwise_1 :
    ∃ (t : TileId) (a : Act) (r : VRec) (s : State), dueV s t 0 = some (a, r) :=
  ⟨3, _, _, sAct 3 (vAct 0), rfl⟩

theorem test_hyps_vector_elementwise_2 :
    ∃ (t : TileId) (a : Act) (r : VRec) (s : State), dueV s t 1 = some (a, r) :=
  ⟨3, _, _, sAct 3 (vAct 1), rfl⟩

theorem test_hyps_vector_elementwise_3 :
    ∃ (t : TileId) (a : Act) (r : VRec) (s : State), dueV s t 2 = some (a, r) :=
  ⟨3, _, _, sAct 3 (vAct 2), rfl⟩

theorem test_hyps_vector_elementwise_4 :
    ∃ (t : TileId) (a : Act) (r : VRec) (s : State), dueV s t 3 = some (a, r) :=
  ⟨3, _, _, sAct 3 (vAct 3), rfl⟩

theorem test_hyps_vector_elementwise_5 :
    ∃ (t : TileId) (a : Act) (r : VRec) (s : State), dueV s t 4 = some (a, r) :=
  ⟨3, _, _, sAct 3 (vAct 4), rfl⟩

theorem test_hyps_vector_elementwise_6 :
    ∃ (t : TileId) (a : Act) (r : VRec) (s : State), dueV s t 5 = some (a, r) :=
  ⟨3, _, _, sAct 3 (vAct 5), rfl⟩

theorem test_hyps_vector_elementwise_7 :
    ∃ (t : TileId) (a : Act) (r : VRec) (s : State), dueV s t 6 = some (a, r) :=
  ⟨3, _, _, sAct 3 (vAct 6), rfl⟩

theorem test_hyps_vector_elementwise_8 :
    ∃ (t : TileId) (a : Act) (r : VRec) (s : State), dueV s t 7 = some (a, r) :=
  ⟨3, _, _, sAct 3 (vAct 7), rfl⟩

theorem test_hyps_vector_conversions_1 :
    ∃ (t : TileId) (a : Act) (r : VRec) (s : State), dueV s t 8 = some (a, r) ∧ r.inFmt = 0xB :=
  ⟨3, _, _, sAct 3 (vAct 8 (0xB <<< 23)), rfl, rfl⟩

theorem test_hyps_vector_conversions_2 :
    ∃ (t : TileId) (a : Act) (r : VRec) (s : State), dueV s t 8 = some (a, r) ∧ r.inFmt ≠ 0xB :=
  ⟨3, _, _, sAct 3 (vAct 8), rfl, by decide⟩

theorem test_hyps_vector_conversions_3 :
    ∃ (t : TileId) (a : Act) (r : VRec) (s : State), dueV s t 9 = some (a, r) :=
  ⟨3, _, _, sAct 3 (vAct 9), rfl⟩

theorem test_hyps_vector_conversions_4 :
    ∃ (t : TileId) (a : Act) (r : VRec) (s : State), dueV s t 0x10 = some (a, r) :=
  ⟨3, _, _, sAct 3 (vAct 16), rfl⟩

theorem test_hyps_vector_conversions_5 :
    ∃ (t : TileId) (a : Act) (r : VRec) (s : State), dueV s t 0x11 = some (a, r) :=
  ⟨3, _, _, sAct 3 (vAct 17), rfl⟩

theorem test_hyps_vector_conversions_6 :
    ∃ (t : TileId) (a : Act) (r : VRec) (s : State), dueV s t 0x12 = some (a, r) :=
  ⟨3, _, _, sAct 3 (vAct 18), rfl⟩

theorem test_hyps_vector_conversions_7 :
    ∃ (t : TileId) (a : Act) (r : VRec) (s : State), dueV s t 0x13 = some (a, r) :=
  ⟨3, _, _, sAct 3 (vAct 19), rfl⟩

theorem test_hyps_vector_conversions_8 :
    ∃ (t : TileId) (a : Act) (r : VRec) (s : State), dueV s t 0x14 = some (a, r) :=
  ⟨3, _, _, sAct 3 (vAct 20), rfl⟩

theorem test_hyps_vector_conversions_9 :
    ∃ (t : TileId) (a : Act) (r : VRec) (s : State), dueV s t 0x15 = some (a, r) :=
  ⟨3, _, _, sAct 3 (vAct 21), rfl⟩

theorem test_hyps_vector_reductions_1 :
    ∃ (t : TileId) (a : Act) (r : VRec) (s : State), dueV s t 0x18 = some (a, r) ∧ r.outMode = 2 :=
  ⟨3, _, _, sAct 3 (vAct 0x18 (2 <<< 13)), rfl, rfl⟩

theorem test_hyps_vector_reductions_2 :
    ∃ (t : TileId) (a : Act) (r : VRec) (s : State), dueV s t 0x18 = some (a, r) ∧ r.outMode ≠ 2 :=
  ⟨3, _, _, sAct 3 (vAct 0x18), rfl, by decide⟩

theorem test_hyps_vector_reductions_3 :
    ∃ (t : TileId) (a : Act) (r : VRec) (s : State), dueV s t 0x19 = some (a, r) :=
  ⟨3, _, _, sAct 3 (vAct 0x19), rfl⟩

theorem test_hyps_vector_reductions_4 :
    ∃ (t : TileId) (a : Act) (r : VRec) (s : State), dueV s t 0x1A = some (a, r) :=
  ⟨3, _, _, sAct 3 (vAct 0x1A), rfl⟩

theorem test_hyps_vector_reductions_5 :
    ∃ (t : TileId) (a : Act) (r : VRec) (s : State), dueV s t 0x1B = some (a, r) :=
  ⟨3, _, _, sAct 3 (vAct 0x1B), rfl⟩

theorem test_hyps_vector_reductions_6 :
    ∃ (t : TileId) (a : Act) (r : VRec) (s : State), dueV s t 0x1C = some (a, r) :=
  ⟨3, _, _, sAct 3 (vAct 0x1C), rfl⟩

theorem test_hyps_vector_reductions_7 :
    ∃ (t : TileId) (a : Act) (r : VRec) (q : Bool × State) (s : State), dueV s t 0x1D = some (a, r) ∧ q = engSteps t (fun n => [(r.paramBase + 16 * n, 16)]) (sampleStep t r) (r.rows - (actOf s t).step) s ∧ q.1 = true :=
  ⟨3, _, _, _, sAct 3 (vAct 0x1D), rfl, rfl, by decide +kernel⟩

theorem test_hyps_dma_commands_1 :
    ∃ (t : TileId) (ch : Fin 4) (m : Msg) (u v s : State), tileType t = .s ∧ qRead s t ch = true ∧ (chanOf s t ch).queued = [] ∧ mayRun s t (qOwner s t ch) = true ∧ qSound s t ch = true ∧ headMsg s t ch = some (m, u) ∧ m.hdr.payLen / 64 ≠ 0 ∧ v = setChan (endRead u t ch) t ch { chanOf u t ch with queued := (List.range (m.hdr.payLen / 64)).map (fun i => ({ words := bytesWords 16 ((m.pay.drop (64 * i)).take 64), ctx := m.hdr.context, last := decide (i + 1 = m.hdr.payLen / 64) } : Desc)) } :=
  ⟨34, 0, _, _, _, sDesc, rfl, rfl, rfl, rfl, rfl, rfl, by decide, rfl⟩

theorem test_hyps_dma_commands_2 :
    ∃ (t : TileId) (ch : Fin 4) (m : Msg) (u v s : State), tileType t = .s ∧ qRead s t ch = true ∧ (chanOf s t ch).queued = [] ∧ mayRun s t (qOwner s t ch) = true ∧ qSound s t ch = true ∧ headMsg s t ch = some (m, u) ∧ m.hdr.payLen / 64 = 0 ∧ v = setChan (endRead u t ch) t ch { chanOf u t ch with queued := [] } :=
  ⟨34, 0, _, _, _, sDescNone, rfl, rfl, rfl, rfl, rfl, rfl, by decide, rfl⟩

theorem test_hyps_dma_commands_3 :
    ∃ (t : TileId) (ch : Fin 4) (x : Desc) (u v s : State), dmaWorksOn s t ch 0 x u ∧ v = dmaFinish u t ch x 0 (chanOf u t ch).elem 0xFFFFFFFF :=
  ⟨34, 0, _, sChan 0, _, sChan 0, ⟨rfl, rfl, .inl ⟨rfl, by decide +kernel, by decide +kernel, rfl⟩⟩, rfl⟩

theorem test_hyps_dma_commands_4 :
    ∃ (t : TileId) (ch : Fin 4) (n : Nat) (x : Desc) (u : Nat → State) (s : State), dmaWorksOn s t ch 1 x (u 0) ∧ (∀ i, i < n → dmaMoves (fun y e => copyElem y t ch x.ctx (dRecOf x.words) e) t ch x (u i) (u (i + 1)) ∧ (chanOf (u i) t ch).elem + 1 < dmaTotal (dRecOf x.words)) :=
  ⟨34, 0, 1, aMove 1 2, movedBy (copyOf (aMove 1 2)) 1 2, _, ⟨rfl, rfl, .inl ⟨rfl, by decide +kernel, by decide +kernel, rfl⟩⟩, (fun i hi => by obtain rfl : i = 0 := (by omega); exact ⟨moves_of_movable (by decide +kernel), by decide +kernel⟩)⟩

theorem test_hyps_dma_commands_5 :
    ∃ (t : TileId) (ch : Fin 4) (n k : Nat) (x : Desc) (u : Nat → State) (v s : State), dmaWorksOn s t ch 1 x (u 0) ∧ (∀ i, i ≤ n → dmaMoves (fun y e => copyElem y t ch x.ctx (dRecOf x.words) e) t ch x (u i) (u (i + 1)) ∧ (i < n ↔ (chanOf (u i) t ch).elem + 1 < dmaTotal (dRecOf x.words))) ∧ v = dmaFinish (u (n + 1)) t ch x 0 ((chanOf (u n) t ch).elem + 1) 0xFFFFFFFF :=
  ⟨34, 0, 0, 2, aMove 1 1, movedBy (copyOf (aMove 1 1)) 1 1, _, _, ⟨rfl, rfl, .inl ⟨rfl, by decide +kernel, by decide +kernel, rfl⟩⟩, (fun i hi => by obtain rfl : i = 0 := (by omega); exact ⟨moves_of_movable (by decide +kernel), by decide +kernel⟩), rfl⟩

theorem test_hyps_dma_commands_6 :
    ∃ (t : TileId) (ch : Fin 4) (n : Nat) (x : Desc) (u : Nat → State) (s : State), dmaWorksOn s t ch 2 x (u 0) ∧ (∀ i, i < n → dmaMoves (fun y e => moveIndexed y t ch x.ctx (dRecOf x.words) e) t ch x (u i) (u (i + 1)) ∧ (chanOf (u i) t ch).elem + 1 < dmaTotal (dRecOf x.words)) :=
  ⟨34, 0, 1, aMove 2 2, movedBy (indexedOf (aMove 2 2)) 2 2, _, ⟨rfl, rfl, .inl ⟨rfl, by decide +kernel, by decide +kernel, rfl⟩⟩, (fun i hi => by obtain rfl : i = 0 := (by omega); exact ⟨moves_of_movable (by decide +kernel), by decide +kernel⟩)⟩

theorem test_hyps_dma_commands_7 :
    ∃ (t : TileId) (ch : Fin 4) (n k : Nat) (x : Desc) (u : Nat → State) (v s : State), dmaWorksOn s t ch 2 x (u 0) ∧ (∀ i, i ≤ n → dmaMoves (fun y e => moveIndexed y t ch x.ctx (dRecOf x.words) e) t ch x (u i) (u (i + 1)) ∧ (i < n ↔ (chanOf (u i) t ch).elem + 1 < dmaTotal (dRecOf x.words))) ∧ v = dmaFinish (u (n + 1)) t ch x 0 ((chanOf (u n) t ch).elem + 1) 0xFFFFFFFF :=
  ⟨34, 0, 0, 2, aMove 2 1, movedBy (indexedOf (aMove 2 1)) 2 1, _, _, ⟨rfl, rfl, .inl ⟨rfl, by decide +kernel, by decide +kernel, rfl⟩⟩, (fun i hi => by obtain rfl : i = 0 := (by omega); exact ⟨moves_of_movable (by decide +kernel), by decide +kernel⟩), rfl⟩

theorem test_hyps_dma_commands_8 :
    ∃ (t : TileId) (ch : Fin 4) (n : Nat) (x : Desc) (u : Nat → State) (s : State), dmaWorksOn s t ch 3 x (u 0) ∧ (∀ i, i < n → dmaMoves (fun y e => moveIndexed y t ch x.ctx (dRecOf x.words) e) t ch x (u i) (u (i + 1)) ∧ (chanOf (u i) t ch).elem + 1 < dmaTotal (dRecOf x.words)) :=
  ⟨34, 0, 1, aMove 3 2, movedBy (indexedOf (aMove 3 2)) 3 2, _, ⟨rfl, rfl, .inl ⟨rfl, by decide +kernel, by decide +kernel, rfl⟩⟩, (fun i hi => by obtain rfl : i = 0 := (by omega); exact ⟨moves_of_movable (by decide +kernel), by decide +kernel⟩)⟩

theorem test_hyps_dma_commands_9 :
    ∃ (t : TileId) (ch : Fin 4) (n k : Nat) (x : Desc) (u : Nat → State) (v s : State), dmaWorksOn s t ch 3 x (u 0) ∧ (∀ i, i ≤ n → dmaMoves (fun y e => moveIndexed y t ch x.ctx (dRecOf x.words) e) t ch x (u i) (u (i + 1)) ∧ (i < n ↔ (chanOf (u i) t ch).elem + 1 < dmaTotal (dRecOf x.words))) ∧ v = dmaFinish (u (n + 1)) t ch x 0 ((chanOf (u n) t ch).elem + 1) 0xFFFFFFFF :=
  ⟨34, 0, 0, 2, aMove 3 1, movedBy (indexedOf (aMove 3 1)) 3 1, _, _, ⟨rfl, rfl, .inl ⟨rfl, by decide +kernel, by decide +kernel, rfl⟩⟩, (fun i hi => by obtain rfl : i = 0 := (by omega); exact ⟨moves_of_movable (by decide +kernel), by decide +kernel⟩), rfl⟩

theorem test_hyps_dma_commands_10 :
    ∃ (t : TileId) (ch : Fin 4) (n : Nat) (x : Desc) (u : Nat → State) (s : State), dmaWorksOn s t ch 4 x (u 0) ∧ (∀ i, i < n → dmaMoves (fun y e => addIndexed y t ch x.ctx (dRecOf x.words) e) t ch x (u i) (u (i + 1)) ∧ (chanOf (u i) t ch).elem + 1 < dmaTotal (dRecOf x.words)) :=
  ⟨34, 0, 1, aMove 4 2, movedBy (addOf (aMove 4 2)) 4 2, _, ⟨rfl, rfl, .inl ⟨rfl, by decide +kernel, by decide +kernel, rfl⟩⟩, (fun i hi => by obtain rfl : i = 0 := (by omega); exact ⟨moves_of_movable (by decide +kernel), by decide +kernel⟩)⟩

theorem test_hyps_dma_commands_11 :
    ∃ (t : TileId) (ch : Fin 4) (n k : Nat) (x : Desc) (u : Nat → State) (v s : State), dmaWorksOn s t ch 4 x (u 0) ∧ (∀ i, i ≤ n → dmaMoves (fun y e => addIndexed y t ch x.ctx (dRecOf x.words) e) t ch x (u i) (u (i + 1)) ∧ (i < n ↔ (chanOf (u i) t ch).elem + 1 < dmaTotal (dRecOf x.words))) ∧ v = dmaFinish (u (n + 1)) t ch x 0 ((chanOf (u n) t ch).elem + 1) 0xFFFFFFFF :=
  ⟨34, 0, 0, 2, aMove 4 1, movedBy (addOf (aMove 4 1)) 4 1, _, _, ⟨rfl, rfl, .inl ⟨rfl, by decide +kernel, by decide +kernel, rfl⟩⟩, (fun i hi => by obtain rfl : i = 0 := (by omega); exact ⟨moves_of_movable (by decide +kernel), by decide +kernel⟩), rfl⟩

theorem test_hyps_dma_commands_12 :
    ∃ (t : TileId) (ch : Fin 4) (n : Nat) (x : Desc) (u : Nat → State) (s : State), dmaWorksOn s t ch 5 x (u 0) ∧ (∀ i, i < n → dmaMoves (fun y e => dmaThen y t ch 0 (fun z => dmaWrite z t ch x.ctx (((dRecOf x.words).dst + 4 * e) % 2 ^ 48) ((bytesOf 4 (dRecOf x.words).idxBase).map some)) (fun z _ => (.ok [], z))) t ch x (u i) (u (i + 1)) ∧ (chanOf (u i) t ch).elem + 1 < dmaTotal (dRecOf x.words)) :=
  ⟨34, 0, 1, aMove 5 2, movedBy (fillOf (aMove 5 2)) 5 2, _, ⟨rfl, rfl, .inl ⟨rfl, by decide +kernel, by decide +kernel, rfl⟩⟩, (fun i hi => by obtain rfl : i = 0 := (by omega); exact ⟨moves_of_movable (by decide +kernel), by decide +kernel⟩)⟩

theorem test_hyps_dma_commands_13 :
    ∃ (t : TileId) (ch : Fin 4) (n k : Nat) (x : Desc) (u : Nat → State) (v s : State), dmaWorksOn s t ch 5 x (u 0) ∧ (∀ i, i ≤ n → dmaMoves (fun y e => dmaThen y t ch 0 (fun z => dmaWrite z t ch x.ctx (((dRecOf x.words).dst + 4 * e) % 2 ^ 48) ((bytesOf 4 (dRecOf x.words).idxBase).map some)) (fun z _ => (.ok [], z))) t ch x (u i) (u (i + 1)) ∧ (i < n ↔ (chanOf (u i) t ch).elem + 1 < dmaTotal (dRecOf x.words))) ∧ v = dmaFinish (u (n + 1)) t ch x 0 ((chanOf (u n) t ch).elem + 1) 0xFFFFFFFF :=
  ⟨34, 0, 0, 2, aMove 5 1, movedBy (fillOf (aMove 5 1)) 5 1, _, _, ⟨rfl, rfl, .inl ⟨rfl, by decide +kernel, by decide +kernel, rfl⟩⟩, (fun i hi => by obtain rfl : i = 0 := (by omega); exact ⟨moves_of_movable (by decide +kernel), by decide +kernel⟩), rfl⟩

theorem test_hyps_activation_commands_1 :
    ∃ (t : TileId) (n q : Nat) (m : Msg) (s : State), curSlot s t = some n ∧ (actOf s t).on = false ∧ (dfState s t = 1 ∨ dfState s t = 2) ∧ (bindOf s t true n).valid = true ∧ mayWork s t (bindOf s t true n).ctx = true ∧ (q = (if tileType t = .v then (vRecOf (slotWords s t true n)).inA else (bindOf s t true n).trigQ)) ∧ headOf s t q = .slot n m :=
  ⟨0, 0, 9, _, sToken, rfl, rfl, by decide, rfl, rfl, rfl, rfl⟩

theorem test_hyps_activation_commands_2 :
    ∃ (t : TileId) (q : QueueId) (s : State), headOf s t q = .stale :=
  ⟨0, 9, sStale, rfl⟩

theorem test_hyps_activation_commands_3 :
    ∃ (t : TileId) (q : QueueId) (s : State), headOf s t q = .flush :=
  ⟨0, 9, sFlush, rfl⟩

theorem test_hyps_activation_commands_4 :
    ∃ (t : TileId) (q : QueueId) (m : Msg) (s : State), headOf s t q = .slot (actOf s t).slot m ∧ takesFrom s t q = true :=
  ⟨3, 9, _, sGather, rfl, rfl⟩

theorem test_hyps_activation_commands_5 :
    ∃ (t : TileId) (s : State), (actOf s t).on = true ∧ (actOf s t).phase = 2 ∧ (mapGet (fun _ => []) s.flow.bufWrites t).isEmpty = true ∧ checksOwed s t (actOf s t).ctx = false ∧ s.q.sends.any (fun w => w.unit == t.val && w.sender == .act) = false :=
  ⟨0, sAct 0 { tAct 1 with phase := 2 }, rfl, rfl, rfl, rfl, rfl⟩

theorem test_hyps_steering_commands_1 :
    ∃ (t : TileId) (u : Fin 8) (e : Steer) (v : Nat) (m : Msg) (s : State), steerDue s t u 1 = some e ∧ ctrlValue s t u e = some v ∧ v ≤ e.width ∧ steerHead s t (e.inQ.getD 0 0) = some m ∧ outsReady s t m [e.outs.getD v (false, 0, 0)] = true :=
  ⟨3, 0, _, 0, _, sSteer 1, rfl, rfl, by decide, rfl, rfl⟩

theorem test_hyps_steering_commands_2 :
    ∃ (t : TileId) (u : Fin 8) (e : Steer) (v : Nat) (m : Msg) (s : State), steerDue s t u 2 = some e ∧ ctrlValue s t u e = some v ∧ v ≤ e.width ∧ steerHead s t (e.inQ.getD v 0) = some m ∧ outsReady s t m [e.outs.getD 0 (false, 0, 0)] = true :=
  ⟨3, 0, _, 0, _, sSteer 2, rfl, rfl, by decide, rfl, rfl⟩

theorem test_hyps_steering_commands_3 :
    ∃ (t : TileId) (u : Fin 8) (e : Steer) (v : Nat) (m : Msg) (s : State), steerDue s t u 3 = some e ∧ ctrlValue s t u e = some v ∧ v ≠ 0 ∧ steerHead s t (e.inQ.getD 0 0) = some m ∧ outsReady s t m [e.outs.getD 0 (false, 0, 0)] = true :=
  ⟨3, 0, _, 1, _, sSteer 3 1, rfl, rfl, by decide, rfl, rfl⟩

theorem test_hyps_steering_commands_4 :
    ∃ (t : TileId) (u : Fin 8) (e : Steer) (m : Msg) (s : State), steerDue s t u 3 = some e ∧ ctrlValue s t u e = some 0 ∧ steerHead s t (e.inQ.getD 0 0) = some m :=
  ⟨3, 0, _, _, sSteer 3, rfl, rfl, rfl⟩

theorem test_hyps_steering_commands_5 :
    ∃ (t : TileId) (u : Fin 8) (e : Steer) (m : Msg) (s : State), steerDue s t u 4 = some e ∧ steerHead s t (e.inQ.getD 0 0) = some m ∧ e.inputs.all (fun i => (steerHead s t i).isSome) = true ∧ outsReady s t m [e.outs.getD 0 (false, 0, 0)] = true :=
  ⟨3, 0, _, _, sSteer 4, rfl, rfl, rfl, rfl⟩

theorem test_hyps_steering_commands_6 :
    ∃ (t : TileId) (u : Fin 8) (e : Steer) (m : Msg) (s : State), steerDue s t u 5 = some e ∧ steerHead s t (e.inQ.getD 0 0) = some m ∧ outsReady s t m e.outputs = true :=
  ⟨3, 0, _, _, sSteer 5, rfl, rfl, rfl⟩

theorem test_hyps_placement_packets_1 :
    ∃ (t : TileId) (p : Ctrl) (u s : State), takeEjected s t (.ctrl p) = some u ∧ p.type = 0x06 :=
  ⟨0, aCtrl 0x06 [0x50000], _, sCtrl 0x06, rfl, rfl⟩

theorem test_hyps_placement_packets_2 :
    ∃ (t : TileId) (p : Ctrl) (u s : State), takeEjected s t (.ctrl p) = some u ∧ p.type = 0x07 ∧ 2 ≤ dfState u t :=
  ⟨0, aCtrl 0x07 [0x50000], _, sDrainCtrl 0x07, rfl, rfl, by decide⟩

theorem test_hyps_placement_packets_3 :
    ∃ (set : Fin 256) (root : TileId) (d e : Drain) (p : Ctrl) (k : Nat) (v u s : State), drainOf s set = some d ∧ d.hung = false ∧ p.type = 0x08 ∧ p.group = d.group ∧ d.heard = false ∧ p.round = (d.round - 1) % 256 ∧ takeEjected s root (.ctrl p) = some u ∧ v = probeResult u d p ∧ drainOf v set = some e ∧ k = now v / 1000 ∧ e.round ≠ k + 1 :=
  ⟨5, 1, _, _, { aCtrl 0x08 [1, 0, 4, 0, 4, 0] with round := 2 }, _, _, _, sProbe, rfl, rfl, rfl, rfl, rfl, by decide, rfl, rfl, rfl, rfl, by decide⟩

theorem test_hyps_placement_packets_4 :
    ∃ (set : Fin 256) (root : TileId) (d : Drain) (k : Nat) (s : State), drainOf s set = some d ∧ d.hung = false ∧ k = now s / 1000 :=
  ⟨5, 1, _, _, sProbe, rfl, rfl, rfl⟩

theorem test_hyps_placement_packets_5 :
    ∃ (t : TileId) (p : Ctrl) (u s : State), takeEjected s t (.ctrl p) = some u ∧ p.type = 0x09 ∧ hasFlow t = true ∧ 2 ≤ dfState u t :=
  ⟨0, aCtrl 0x09 [0x50000], _, sDrainCtrl 0x09, rfl, rfl, rfl, by decide⟩

theorem test_hyps_placement_packets_6 :
    ∃ (t : TileId) (p : Ctrl) (u s : State), takeEjected s t (.ctrl p) = some u ∧ p.type = 0x0A ∧ hasFlow t = true ∧ 2 ≤ dfState u t :=
  ⟨0, aCtrl 0x0A [0x50000], _, sDrainCtrl 0x0A, rfl, rfl, rfl, by decide⟩

theorem test_hyps_placement_packets_7 :
    ∃ (t : TileId) (p : Ctrl) (u s : State), takeEjected s t (.ctrl p) = some u ∧ p.type = 0x0B ∧ hasFlow t = true ∧ 2 ≤ dfState u t :=
  ⟨0, aCtrl 0x0B [0x50000], _, sDrainCtrl 0x0B, rfl, rfl, rfl, by decide⟩

theorem test_hyps_placement_timers_1 :
    ∃ (set : Fin 256) (d : Drain) (l : Bool × State) (h : Hang) (s1 s : State), drainOf s set = some d ∧ d.flush = false ∧ drainExpired s d = true ∧ l = limitOnce s (limitKey 22 set 0) (now s / 1000) ∧ (d.hung = false ∨ (d.again = true ∧ l.1 = true)) ∧ (s1 = (if d.hung then l.2 else report l.2 (devPage 7) 0x0309 { detail := [d.set] })) ∧ h = { members := ((allNodes s1).filter (fun n => ((placedOf s1 d.set).ctxs ++ d.next.ctxs).eraseDups.contains (n % 256))).map (fun n => (n / 256, n % 256)), cause := 2, dt := now s1, set := some d.set } :=
  ⟨5, _, _, _, _, sDrain false, rfl, rfl, rfl, rfl, .inl rfl, rfl, rfl⟩

theorem test_hyps_placement_timers_2 :
    ∃ (set : Fin 256) (d : Drain) (bad : List Nat) (s : State), drainOf s set = some d ∧ d.flush = true ∧ drainExpired s d = true ∧ bad = d.tiles.filter (fun t => !tileIdle s t) :=
  ⟨5, _, _, sDrain true, rfl, rfl, rfl, rfl⟩

theorem test_hyps_placement_timers_3 :
    ∃ (image : Nat) (group : Fin 4096) (cfgs steers renum : List (Nat × Nat)) (im : Image) (p : Placement) (epoch : Nat) (tiles : List Nat) (s : State), im = imageOf s image ∧ p = { cfgs := cfgs, steers := steers, renum := renum } ∧ placeOk s image im p = true ∧ drainOf s im.set = none ∧ (epoch = (if placedOf s im.set = noPlaced then 0 else ((placedOf s im.set).epoch + 1) % 4)) ∧ tiles = p.tiles ++ leftTiles s im.set p.tiles :=
  ⟨0, 9, [(0, 0)], [], [], _, _, _, _, sImage, rfl, rfl, by decide +kernel, rfl, rfl, rfl⟩

theorem test_hyps_placement_timers_4 :
    ∃ (s : State), (limitOnce s (limitKey 21 0 0) (now s / 1000)).1 = false :=
  ⟨(limitOnce State.reset (limitKey 21 0 0) 0).2, by decide +kernel⟩

theorem test_hyps_placement_timers_5 :
    ∃ (s u : State), rdB u (tsReg 0x100) 0 = true ∧ limitOnce u (limitKey 21 0 0) (now u / 1000) = (true, s) ∧ (rdF s (tsReg 0x118) 0 16 + 65536 - rdF s (tsReg 0x110) 0 16 - 1) % 65536 < rdF s (tsReg 0x128) 0 9 :=
  ⟨_, sSampler 1, by decide +kernel, rfl, by decide +kernel⟩

theorem test_hyps_placement_timers_6 :
    ∃ (s u : State), rdB u (tsReg 0x100) 0 = true ∧ limitOnce u (limitKey 21 0 0) (now u / 1000) = (true, s) ∧ rdF s (tsReg 0x128) 0 9 ≤ (rdF s (tsReg 0x118) 0 16 + 65536 - rdF s (tsReg 0x110) 0 16 - 1) % 65536 :=
  ⟨_, sSampler 0, by decide +kernel, rfl, by decide +kernel⟩

theorem test_hyps_placement_timers_7 :
    ∃ (t : TileId) (n : Fin 16) (s : State), hasFlow t = true ∧ mapGet (fun _ => 0) s.flow.compatRead (t * 16 + n) + 3600000000000 ≤ now s ∧ compatReg s t n ≠ mapGet (fun _ => 0) s.flow.compatSeen (t * 16 + n) :=
  ⟨0, 0, sCompat, rfl, by decide⟩

theorem test_hyps_scratch_accesses_1 :
    ∃ (a : Agent) (c : Option CtxId) (t : TileId) (b len : Nat) (flips : List (Nat × Nat)) (x : SpAcc) (s : State), len ≠ 0 ∧ x = { tile := t, boff := b, len := len, op := .rd, req := .mgmt a, ctx := c.map (fun y => y.val), data := [] } ∧ (c.isNone && padDenied (upset s t flips) a t x.boff x.len (opWrites x.op)) = false ∧ regionCheck (upset s t flips) x = none ∧ mustHold (upset s t flips) x = false :=
  ⟨.yew, none, 0, 64, 4, [], _, State.reset, by decide, rfl, by decide +kernel⟩

theorem test_hyps_scratch_accesses_2 :
    ∃ (a : Agent) (c : Option CtxId) (t : TileId) (b len : Nat) (flips : List (Nat × Nat)) (x : SpAcc) (s : State), len ≠ 0 ∧ x = { tile := t, boff := b, len := len, op := .rdFull, req := .mgmt a, ctx := c.map (fun y => y.val), data := [] } ∧ (c.isNone && padDenied (upset s t flips) a t x.boff x.len (opWrites x.op)) = false ∧ regionCheck (upset s t flips) x = none ∧ mustHold (upset s t flips) x = false ∧ tagAt (upset s t flips) t (x.boff / 4) = { full := true, comp := false } ∧ slotWaiters (upset s t flips) t x.boff false = [] :=
  ⟨.hornbeam, some 3, 0, 0, 4, [], _, sTag true, by decide, rfl, by decide +kernel⟩

theorem test_hyps_scratch_accesses_3 :
    ∃ (a : Agent) (c : Option CtxId) (t : TileId) (b len : Nat) (flips : List (Nat × Nat)) (x : SpAcc) (s : State), len ≠ 0 ∧ x = { tile := t, boff := b, len := len, op := .rdTake, req := .mgmt a, ctx := c.map (fun y => y.val), data := [] } ∧ (c.isNone && padDenied (upset s t flips) a t x.boff x.len (opWrites x.op)) = false ∧ regionCheck (upset s t flips) x = none ∧ mustHold (upset s t flips) x = false ∧ tagAt (upset s t flips) t (x.boff / 4) = { full := true, comp := false } ∧ slotWaiters (upset s t flips) t x.boff false = [] :=
  ⟨.hornbeam, some 3, 0, 0, 4, [], _, sTag true, by decide, rfl, by decide +kernel⟩

theorem test_hyps_scratch_accesses_4 :
    ∃ (a : Agent) (c : Option CtxId) (t : TileId) (b : Nat) (data : List Byte) (flips : List (Nat × Nat)) (x : SpAcc) (s : State), data ≠ [] ∧ x = { tile := t, boff := b, len := data.length, op := .wr, req := .mgmt a, ctx := c.map (fun y => y.val), data := data.map some } ∧ (c.isNone && padDenied (upset s t flips) a t x.boff x.len (opWrites x.op)) = false ∧ regionCheck (upset s t flips) x = none ∧ mustHold (upset s t flips) x = false :=
  ⟨.yew, none, 0, 64, [1, 2, 3, 4], [], _, State.reset, by decide, rfl, by decide +kernel⟩

theorem test_hyps_scratch_accesses_5 :
    ∃ (a : Agent) (c : Option CtxId) (t : TileId) (b : Nat) (data : List Byte) (flips : List (Nat × Nat)) (x : SpAcc) (s : State), data ≠ [] ∧ x = { tile := t, boff := b, len := data.length, op := .wrFill, req := .mgmt a, ctx := c.map (fun y => y.val), data := data.map some } ∧ (c.isNone && padDenied (upset s t flips) a t x.boff x.len (opWrites x.op)) = false ∧ regionCheck (upset s t flips) x = none ∧ mustHold (upset s t flips) x = false ∧ tagAt (upset s t flips) t (x.boff / 4) = { full := false, comp := true } ∧ slotWaiters (upset s t flips) t x.boff true = [] :=
  ⟨.hornbeam, some 3, 0, 0, [1, 2, 3, 4], [], _, sTag false, by decide, rfl, by decide +kernel⟩

theorem test_hyps_scratch_accesses_6 :
    ∃ (a : Agent) (c : Option CtxId) (t : TileId) (b : Nat) (data : List Byte) (flips : List (Nat × Nat)) (x : SpAcc) (s : State), data ≠ [] ∧ x = { tile := t, boff := b, len := data.length, op := .clrTag, req := .mgmt a, ctx := c.map (fun y => y.val), data := data.map some } ∧ (c.isNone && padDenied (upset s t flips) a t x.boff x.len (opWrites x.op)) = false ∧ regionCheck (upset s t flips) x = none ∧ mustHold (upset s t flips) x = false :=
  ⟨.hornbeam, some 3, 0, 0, [1, 2, 3, 4], [], _, sTag true, by decide, rfl, by decide +kernel⟩

theorem test_hyps_scratch_accesses_7 :
    ∃ (a : Agent) (c : Option CtxId) (t : TileId) (w n : Nat) (x : SpAcc) (s : State), x = wordsAcc a c t w n .rd [] ∧ (c.isNone && padDenied s a t x.boff x.len (opWrites x.op)) = false ∧ regionCheck s x = none ∧ mustHold s x = false :=
  ⟨.yew, none, 0, 64, 1, _, State.reset, rfl, by decide +kernel⟩

theorem test_hyps_scratch_accesses_8 :
    ∃ (a : Agent) (c : Option CtxId) (t : TileId) (w n : Nat) (x : SpAcc) (s : State), x = wordsAcc a c t w n .rdFull [] ∧ (c.isNone && padDenied s a t x.boff x.len (opWrites x.op)) = false ∧ regionCheck s x = none ∧ mustHold s x = false ∧ tagAt s t (x.boff / 4) = { full := true, comp := false } ∧ slotWaiters s t x.boff false = [] :=
  ⟨.hornbeam, some 3, 0, 0, 1, _, sTag true, rfl, by decide +kernel⟩

theorem test_hyps_scratch_accesses_9 :
    ∃ (a : Agent) (c : Option CtxId) (t : TileId) (w n : Nat) (x : SpAcc) (s : State), x = wordsAcc a c t w n .rdTake [] ∧ (c.isNone && padDenied s a t x.boff x.len (opWrites x.op)) = false ∧ regionCheck s x = none ∧ mustHold s x = false ∧ tagAt s t (x.boff / 4) = { full := true, comp := false } ∧ slotWaiters s t x.boff false = [] :=
  ⟨.hornbeam, some 3, 0, 0, 1, _, sTag true, rfl, by decide +kernel⟩

theorem test_hyps_scratch_accesses_10 :
    ∃ (a : Agent) (c : Option CtxId) (t : TileId) (w : Nat) (data : List W32) (x : SpAcc) (s : State), x = wordsAcc a c t w data.length .wr (wordBytes (data.map (fun y => y.toNat))) ∧ (c.isNone && padDenied s a t x.boff x.len (opWrites x.op)) = false ∧ regionCheck s x = none ∧ mustHold s x = false :=
  ⟨.yew, none, 0, 64, [0xFFFFFFFF], _, State.reset, rfl, by decide +kernel⟩

theorem test_hyps_scratch_accesses_11 :
    ∃ (a : Agent) (c : Option CtxId) (t : TileId) (w : Nat) (data : List W32) (x : SpAcc) (s : State), x = wordsAcc a c t w data.length .wrFill (wordBytes (data.map (fun y => y.toNat))) ∧ (c.isNone && padDenied s a t x.boff x.len (opWrites x.op)) = false ∧ regionCheck s x = none ∧ mustHold s x = false ∧ tagAt s t (x.boff / 4) = { full := false, comp := true } ∧ slotWaiters s t x.boff true = [] :=
  ⟨.hornbeam, some 3, 0, 0, [0xFFFFFFFF], _, sTag false, rfl, by decide +kernel⟩

theorem test_hyps_scratch_accesses_12 :
    ∃ (a : Agent) (c : Option CtxId) (t : TileId) (w n : Nat) (x : SpAcc) (s : State), x = wordsAcc a c t w n .clrTag [] ∧ (c.isNone && padDenied s a t x.boff x.len (opWrites x.op)) = false ∧ regionCheck s x = none ∧ mustHold s x = false :=
  ⟨.hornbeam, some 3, 0, 0, 1, _, sTag true, rfl, by decide +kernel⟩

theorem test_hyps_scratch_accesses_13 :
    ∃ (a : Agent) (c : Option CtxId) (t : TileId) (i : Instr) (x : SpAcc) (u s : State), padAccess i a c t s = some (x, u) ∧ (c.isNone && padDenied u a t x.boff x.len (opWrites x.op)) = false ∧ regionCheck u x = none ∧ mustHold u x = false ∧ opTagged x.op = true ∧ x.op ≠ .clrTag ∧ tagBad (tagAt u t (x.boff / 4)) = false ∧ (tagReady (tagAt u t (x.boff / 4)) x.op = false ∨ slotWaiters u t x.boff (x.op == .wrFill) ≠ []) :=
  ⟨.hornbeam, some 3, 0, .spRdFull .hornbeam (some 3) 0 0 1, _, _, sTag false, rfl, by decide +kernel⟩

theorem test_hyps_scratch_accesses_14 :
    ∃ (a : Agent) (c : Option CtxId) (t : TileId) (i : Instr) (x : SpAcc) (u s : State), padAccess i a c t s = some (x, u) ∧ (c.isNone && padDenied u a t x.boff x.len (opWrites x.op)) = false ∧ regionCheck u x = none ∧ mustHold u x = true :=
  ⟨.hornbeam, some 3, 0, .spRd .hornbeam (some 3) 0 64 1 none, _, _, sWakeBank, rfl, by decide +kernel⟩

theorem test_hyps_scratch_accesses_15 :
    ∃ (a : Agent) (c : Option CtxId) (t : TileId) (i : Instr) (x : SpAcc) (code : Nat) (u s : State), padAccess i a c t s = some (x, u) ∧ (c.isNone && padDenied u a t x.boff x.len (opWrites x.op)) = false ∧ regionCheck u x = some code :=
  ⟨.hornbeam, some 3, 0, .spRd .hornbeam (some 3) 0 200 1 none, _, _, _, sTag true, rfl, by decide +kernel, rfl⟩

theorem test_hyps_scratch_accesses_16 :
    ∃ (a : Agent) (c : Option CtxId) (t : TileId) (i : Instr) (x : SpAcc) (u s : State), padAccess i a c t s = some (x, u) ∧ (c.isNone && padDenied u a t x.boff x.len (opWrites x.op)) = true :=
  ⟨.bmc, none, 0, .spRd .bmc none 0 0 1 none, _, _, State.reset, rfl, by decide +kernel⟩

theorem test_hyps_circular_accesses_1 :
    ∃ (a : Agent) (t : TileId) (n : Fin 4) (data : List W32) (x : SpAcc) (s : State), padDenied s a t 0 0 false = false ∧ x = { tile := t, boff := 0, len := 4 * data.length, op := .wr, req := .mgmt a, ctx := none, data := (fitBytes (4 * data.length) (wordBytes (data.map (fun w => w.toNat)))).map some } :=
  ⟨.hornbeam, 0, 3, [5], _, State.reset, rfl, rfl⟩

theorem test_hyps_circular_accesses_2 :
    ∃ (a : Agent) (t : TileId) (n : Fin 4) (k : Nat) (x : SpAcc) (s : State), padDenied s a t 0 0 false = false ∧ x = { tile := t, boff := 0, len := 4 * k, op := .rd, req := .mgmt a, ctx := none, data := (fitBytes (4 * k) []).map some } :=
  ⟨.hornbeam, 0, 3, 2, _, State.reset, rfl, rfl⟩

theorem test_hyps_circular_accesses_3 :
    ∃ (a : Agent) (t : TileId) (mode : Fin 4) (s : State), writeOk s a (spReg t 0x100) (BitVec.ofNat 64 mode) = true :=
  ⟨.hornbeam, 4607, 1, State.reset, by decide⟩

theorem test_hyps_circular_accesses_4 :
    ∃ (a : Agent) (t : TileId) (r : Fin 8) (v : W64) (s : State), writeOk s a (spReg t (0x140 + 8 * r.val)) v = true :=
  ⟨.hornbeam, 0, 7, guardOf 0x103, State.reset, by decide⟩

theorem test_hyps_circular_accesses_5 :
    ∃ (a : Agent) (t : TileId) (r : Fin 8) (j : Fin 16) (k : Fin 3) (v : W64) (s : State), writeOk s a (rgnReg t r j k) v = true :=
  ⟨.hornbeam, 0, 7, 15, 2, guardOf 0x3F7, State.reset, by decide⟩

theorem test_hyps_circular_accesses_6 :
    ∃ (a : Agent) (t : TileId) (n : Fin 4) (v : W64) (s : State), writeOk s a (circReg t n 0) v = true :=
  ⟨.hornbeam, 0, 3, guardOf 0x80080000, State.reset, by decide⟩

theorem test_hyps_circular_accesses_7 :
    ∃ (a : Agent) (t : TileId) (v : W64) (s : State), writeOk s a (spReg t 0x120) v = true :=
  ⟨.hornbeam, 1, 0xFFFFFFFFFFFFFFFF, State.reset, by decide⟩

theorem test_hyps_scratchpad_upkeep_1 :
    ∃ (t : TileId) (w : Nat) (b : WriteBack) (s : State), s.pad.writeBacks.find? (fun b => b.tile == t.val && b.word == w && bankState s t (bankOf t w) == 0) = some b :=
  ⟨0, 16, _, sWriteBack, rfl⟩

theorem test_hyps_scratchpad_upkeep_2 :
    ∃ (t : TileId) (flips : List (Nat × Nat)) (u s : State), passOf s t ≠ 0 ∧ rdB s (spReg t 0x110) 0 = true ∧ padYields s t = false ∧ u = upset s t flips ∧ bankState u t (bankOf t (rdF u (spReg t 0x118) 0 17)) = 1 :=
  ⟨0, [], _, sPassWake, by decide, rfl, rfl, rfl, by decide +kernel⟩

theorem test_hyps_scratchpad_upkeep_3 :
    ∃ (t : TileId) (flips : List (Nat × Nat)) (u s : State), passOf s t ≠ 0 ∧ rdB s (spReg t 0x110) 0 = true ∧ padYields s t = false ∧ u = upset s t flips ∧ bankState u t (bankOf t (rdF u (spReg t 0x118) 0 17)) = 0 ∧ rdF u (spReg t 0x118) 0 17 + rowWords t < tileWords t :=
  ⟨0, [], _, sPass, by decide, rfl, rfl, rfl, by decide +kernel⟩

theorem test_hyps_scratchpad_upkeep_4 :
    ∃ (t : TileId) (flips : List (Nat × Nat)) (u s : State), passOf s t ≠ 0 ∧ rdB s (spReg t 0x110) 0 = true ∧ padYields s t = false ∧ u = upset s t flips ∧ bankState u t (bankOf t (rdF u (spReg t 0x118) 0 17)) = 2 ∧ tileWords t ≤ rdF u (spReg t 0x118) 0 17 + rowWords t :=
  ⟨0, [], _, sPassEnd, by decide, rfl, rfl, rfl, by decide +kernel⟩

theorem test_hyps_scratchpad_upkeep_5 :
    ∃ (t : TileId) (s : State), passOf s t = 0 ∧ now s % scrubPeriod s t = 0 ∧ mapGet (fun _ => 0) s.pad.passAt t ≠ now s + 1 :=
  ⟨0, State.reset, by decide +kernel⟩

theorem test_hyps_scratchpad_upkeep_6 :
    ∃ (t : TileId) (s : State), passOf s t ≠ 0 ∧ rdB s (spReg t 0x118) 17 = false ∧ passOf s t * (rdF s (spReg t 0x110) 16 9 * 1000000000) ≤ now s :=
  ⟨0, sPassLate, by decide, rfl, by decide⟩

theorem test_hyps_scratchpad_upkeep_7 :
    ∃ (t : TileId) (r : Fin 8) (j : Fin 16) (g : Rgn) (s1 s : State), s.pad.tagInit.contains (t.val, r.val * 16 + j.val) = true ∧ s1 = { s with pad := { s.pad with tagInit := s.pad.tagInit.filter (fun x => x != (t.val, r.val * 16 + j.val)) } } ∧ rgnAt s1 t r j = some g :=
  ⟨0, 0, 0, _, _, sTagInit, rfl, rfl, rfl⟩

theorem test_hyps_scratchpad_upkeep_8 :
    ∃ (t : TileId) (w : Nat) (x : Waiter) (s : State), tagBad (tagAt s t w) = false ∧ (slotWaiters s t (4 * w) (!(tagAt s t w).full)).head? = some x ∧ (tagAt s t w).full = false :=
  ⟨0, 0, _, sWaiter, rfl, rfl, rfl⟩

theorem test_hyps_scratchpad_upkeep_9 :
    ∃ (t : TileId) (b : Fin 32) (x : Waiter) (s : State), s.pad.waiters.find? (fun x => x.atPort && x.acc.tile == t.val && bankOf t (x.acc.boff / 4) == b.val) = some x ∧ (bankWaiters s t b).length < 64 :=
  ⟨0, 0, _, sAtPort, rfl, by decide⟩

theorem test_hyps_scratchpad_upkeep_10 :
    ∃ (t : TileId) (b : Fin 32) (s : State), b.val < tileBanks t ∧ bankState s t b = 3 :=
  ⟨0, 7, sBank 3, by decide, rfl⟩

theorem test_hyps_scratchpad_upkeep_11 :
    ∃ (t : TileId) (b : Fin 32) (s : State), b.val < tileBanks t ∧ bankState s t b ≠ 2 ∧ bankState s t b ≠ 3 ∧ bankAsked s t b = 2 ∧ bankMapped s t b = false :=
  ⟨0, 7, sAsk 2, by decide +kernel⟩

theorem test_hyps_scratchpad_upkeep_12 :
    ∃ (t : TileId) (b : Fin 32) (s : State), b.val < tileBanks t ∧ (bankState s t b = 2 ∨ (bankState s t b = 0 ∧ wakeEndOf s t b = 0)) ∧ bankAsked s t b = 1 :=
  ⟨0, 7, sAsk 1, by decide +kernel⟩

theorem test_hyps_scratchpad_upkeep_13 :
    ∃ (t : TileId) (b : Fin 32) (s : State), bankState s t b = 1 ∧ bankWanted s t b = true ∧ clusterPower s (clusterOf t) ≤ 1 :=
  ⟨0, 7, sHeldBank, rfl, rfl, by decide⟩

theorem test_hyps_scratchpad_upkeep_14 :
    ∃ (t : TileId) (b : Fin 32) (s : State), bankState s t b = 0 ∧ bankAsked s t b = 1 ∧ wakeEndOf s t b ≠ 0 ∧ wakeEndOf s t b ≤ now s :=
  ⟨0, 7, sWindowOver, by decide +kernel⟩

theorem test_hyps_queue_registers_1 :
    ∃ (a : Agent) (t : TileId) (q : QueueId) (c : CtxId) (s : State), writeOk s a (qctl t 0x108) (BitVec.ofNat 64 (place 8 3 1 + q.val + place 11 8 c.val)) = true ∧ qSound s t q = true ∧ (qState s t q = 0 ∨ qState s t q = 3) ∧ revoking s t q = false ∧ ringPlaced s t q c (a == .hornbeam) = true :=
  ⟨.hornbeam, 0, 7, 3, sRing, by decide +kernel⟩

theorem test_hyps_queue_registers_2 :
    ∃ (a : Agent) (t : TileId) (q : QueueId) (s : State), writeOk s a (qctl t 0x108) (BitVec.ofNat 64 (place 8 3 2 + q.val)) = true ∧ qSound s t q = true ∧ qState s t q = 1 :=
  ⟨.companion, 0, 7, sQueue 1, by decide +kernel⟩

theorem test_hyps_queue_registers_3 :
    ∃ (a : Agent) (t : TileId) (q : QueueId) (s : State), writeOk s a (qctl t 0x108) (BitVec.ofNat 64 (place 8 3 3 + q.val)) = true ∧ qSound s t q = true ∧ (qState s t q = 1 ∨ qState s t q = 2) :=
  ⟨.companion, 0, 7, sQueue 2, by decide +kernel⟩

theorem test_hyps_queue_registers_4 :
    ∃ (a : Agent) (t : TileId) (q : QueueId) (s : State), writeOk s a (qctl t 0x108) (BitVec.ofNat 64 (place 8 3 4 + q.val)) = true ∧ qSound s t q = true ∧ qState s t q ≠ 0 :=
  ⟨.companion, 0, 7, sQueue 3, by decide +kernel⟩

theorem test_hyps_queue_registers_5 :
    ∃ (a : Agent) (t : TileId) (q : QueueId) (dev : Fin 32768) (tile : Fin 8192) (n : Fin 131072) (s : State), writeOk s a (qctl t 0x110) (BitVec.ofNat 64 (place 44 17 n.val + place 36 8 q.val + place 13 15 dev.val + tile.val)) = true ∧ (grant s t q dev tile n none).1 = true :=
  ⟨.hornbeam, 0, 7, 0, 5, 1, sQueue 1, by decide +kernel⟩

theorem test_hyps_queue_registers_6 :
    ∃ (a : Agent) (t : TileId) (q : QueueId) (v : W64) (s : State), writeOk s a (qdReg t q 0) v = true ∧ (qState s t q = 0 ∨ qState s t q = 3) :=
  ⟨.hornbeam, 4607, 255, 0x20000000004, State.reset, by decide +kernel⟩

theorem test_hyps_queue_registers_7 :
    ∃ (a : Agent) (t : TileId) (s : State), readOk s a (qctl t 0x148) = true :=
  ⟨.hornbeam, 0, State.reset, by decide +kernel⟩

theorem test_hyps_queue_registers_8 :
    ∃ (a : Agent) (t : TileId) (v : W64) (s : State), writeOk s a (qctl t 0x148) v = true ∧ hsOwners s t (rdF s (qctl t 0x140) 0 13) = [] :=
  ⟨.hornbeam, 0, 0xFFFFFFFF, State.reset, by decide +kernel⟩

theorem test_hyps_queue_registers_9 :
    ∃ (a : Agent) (t : TileId) (r : Fin 8) (v : W64) (s : State), writeOk s a (qctl t (0x180 + 0x10 * r.val)) v = true ∧ slotBound s t r = false ∧ fieldOf v 0 13 < fieldOf v 14 14 ∧ fieldOf v 14 14 ≤ 8192 :=
  ⟨.hornbeam, 0, 7, guardOf (8192 * 16384), State.reset, by decide +kernel⟩

theorem test_hyps_queue_registers_10 :
    ∃ (a : Agent) (t : TileId) (r : Fin 8) (v : W64) (s : State), writeOk s a (qctl t (0x188 + 0x10 * r.val)) v = true ∧ slotBound s t r = false ∧ (hsBound s t r).1 + fieldOf v 0 13 + fieldOf v 13 11 ≤ (hsBound s t r).2 :=
  ⟨.hornbeam, 0, 7, guardOf 0, State.reset, by decide +kernel⟩

theorem test_hyps_message_traffic_1 :
    ∃ (u : Fin 4610) (q : QueueId) (c : CtxId) (dst handler vc : Nat) (pay : List Byte) (m : Msg) (e : Nat × Credit) (s : State), u.val < 4608 ∧ mayRun s u c = true ∧ m = buildMsg s u q c dst handler vc pay ∧ s.q.sends.any (fun w => w.unit == u.val && w.sender == .block) = false ∧ findCredit s u dst c = some e ∧ guardOk e.2.cred = true ∧ hdrSlots m.hdr ≤ e.2.slots :=
  ⟨0, 7, 3, 0, 1, 2, [1], _, _, sCred, by decide +kernel, by decide +kernel, rfl, by decide +kernel, rfl, by decide +kernel⟩

theorem test_hyps_message_traffic_2 :
    ∃ (u : Fin 4610) (q : QueueId) (c : CtxId) (dst handler vc : Nat) (pay : List Byte) (m : Msg) (e : Nat × Credit) (s : State), u.val = unitHornbeam ∧ hbSends s c = true ∧ m = buildMsg s u q c dst handler vc pay ∧ s.q.sends.any (fun w => w.unit == u.val && w.sender == .block) = false ∧ findCredit s u dst c = some e ∧ guardOk e.2.cred = true ∧ e.2.slots < hdrSlots m.hdr :=
  ⟨4608, 7, 3, 0, 1, 2, [1], _, _, sCredHb, by decide +kernel, by decide +kernel, rfl, by decide +kernel, rfl, by decide +kernel⟩

theorem test_hyps_message_traffic_3 :
    ∃ (u : Fin 4610) (q : QueueId) (c : CtxId) (dst handler vc : Nat) (pay : List Byte) (m : Msg) (s : State), u.val = unitGorbin ∧ gbSends s c = true ∧ m = buildMsg s u q c dst handler vc pay ∧ s.q.sends.any (fun w => w.unit == u.val && w.sender == .block) = false ∧ findCredit s u dst c = none :=
  ⟨4609, 7, 3, 0, 1, 2, [1], _, sCredGb, by decide +kernel, by decide +kernel, rfl, by decide +kernel⟩

theorem test_hyps_message_traffic_4 :
    ∃ (i : Nat) (w : SendWait) (e : Nat × Credit) (u s : State), s.q.sends[i]? = some w ∧ (w.unit < 4608 → mayRun s w.unit w.msg.hdr.context = true) ∧ (s.q.sends.take i).any (fun x => x.unit == w.unit && x.sender == w.sender) = false ∧ u = { s with q := { s.q with sends := s.q.sends.erase w } } ∧ findCredit s w.unit w.msg.hdr.dst w.msg.hdr.context = some e ∧ guardOk e.2.cred = true ∧ hdrSlots w.msg.hdr ≤ e.2.slots :=
  ⟨0, _, _, _, sSendWait, rfl, by decide +kernel, by decide +kernel, rfl, rfl, by decide +kernel⟩

theorem test_hyps_message_traffic_5 :
    ∃ (t : TileId) (m : Msg) (q c : Nat) (v u s : State), q = epQueue m.hdr.dst ∧ c = m.hdr.context ∧ (t = 1 && q = 0xFE) = false ∧ takeEjected s t (.msg m) = some v ∧ arrivalBusy s t m = false ∧ u = { v with q := { v.q with fromNack := v.q.fromNack.erase (unlinked m.hdr) } } ∧ tileFenced u t = false ∧ tileInReset u t = false ∧ malformed m.hdr = false ∧ epochMatches u t c m.hdr.ctxEpoch = true ∧ qSound u t q = true ∧ qEpoch u t q = m.hdr.creditEpoch ∧ qState u t q = 1 ∧ qOwner u t q = c ∧ (qRead u t q = true ∨ (handlerEntry u t c m.hdr.handler).isSome = true) ∧ qOcc u t q + roomNeeded u t q (hdrSlots m.hdr) ≤ qSize u t q :=
  ⟨0, msgFor 0, _, _, _, _, sArrive 0, rfl, rfl, by decide +kernel, rfl, by decide +kernel, rfl, by decide +kernel⟩

theorem test_hyps_message_traffic_6 :
    ∃ (t : TileId) (m : Msg) (v u s : State), (t = 1 && epQueue m.hdr.dst = 0xFE) = false ∧ takeEjected s t (.msg m) = some v ∧ arrivalBusy s t m = false ∧ u = { v with q := { v.q with fromNack := v.q.fromNack.erase (unlinked m.hdr) } } ∧ tileFenced u t = false ∧ tileInReset u t = false ∧ malformed m.hdr = false ∧ epochMatches u t m.hdr.context m.hdr.ctxEpoch = false :=
  ⟨0, msgFor 1, _, _, sArrive 1, by decide +kernel, rfl, by decide +kernel, rfl, by decide +kernel⟩

theorem test_hyps_message_traffic_7 :
    ∃ (t : TileId) (m : Msg) (v u s : State), (t = 1 && epQueue m.hdr.dst = 0xFE) = false ∧ takeEjected s t (.msg m) = some v ∧ arrivalBusy s t m = false ∧ u = { v with q := { v.q with fromNack := v.q.fromNack.erase (unlinked m.hdr) } } ∧ tileFenced u t = false ∧ tileInReset u t = false ∧ malformed m.hdr = false ∧ epochMatches u t m.hdr.context m.hdr.ctxEpoch = true ∧ qSound u t (epQueue m.hdr.dst) = true ∧ qEpoch u t (epQueue m.hdr.dst) ≠ m.hdr.creditEpoch :=
  ⟨0, msgFor 2, _, _, sArrive 2, by decide +kernel, rfl, by decide +kernel, rfl, by decide +kernel⟩

theorem test_hyps_message_traffic_8 :
    ∃ (t : TileId) (p : Ctrl) (u s : State), takeEjected s t (.ctrl p) = some u ∧ p.type = 0x03 :=
  ⟨0, aCtrl 0x03 [0x50000], _, sCtrl 0x03, rfl, rfl⟩

theorem test_hyps_message_traffic_9 :
    ∃ (t : TileId) (p : Ctrl) (u v s : State), takeEjected s t (.ctrl p) = some u ∧ p.type = 0x01 ∧ isBounce p = false ∧ takeGrant u (unitAt u t p.context) (ctrlEp p) p.context (ctrlEpoch p) (ctrlSlots p) = (false, v) :=
  ⟨0, aGrant, noEject sGrant, (takenGrant sGrant).2, sGrant, rfl, rfl, by decide +kernel, pair_of_fst (p := takenGrant sGrant) (by decide +kernel)⟩

theorem test_hyps_message_traffic_10 :
    ∃ (t : TileId) (p : Ctrl) (u v s : State), takeEjected s t (.ctrl p) = some u ∧ p.type = 0x01 ∧ isBounce p = false ∧ takeGrant u (unitAt u t p.context) (ctrlEp p) p.context (ctrlEpoch p) (ctrlSlots p) = (true, v) ∧ (unitAt u t p.context ≠ p.srcTile ∨ p.srcDev ≠ deviceId u) :=
  ⟨0, aGrant, noEject sGrantFull, _, sGrantFull, rfl, rfl, by decide +kernel, grant_full (by decide +kernel) (full_free (by decide +kernel)), by decide +kernel⟩

theorem test_hyps_message_traffic_11 :
    ∃ (t : TileId) (p : Ctrl) (u s : State), takeEjected s t (.ctrl p) = some u ∧ p.type = 0x01 ∧ isBounce p = true :=
  ⟨0, aCtrl 0x01 [0x50000], _, sCtrl 0x01, rfl, rfl, by decide +kernel⟩

theorem test_hyps_message_traffic_12 :
    ∃ (t : TileId) (p : Ctrl) (u s : State), takeEjected s t (.ctrl p) = some u ∧ p.type = 0x02 :=
  ⟨0, aCtrl 0x02 [0x50000], _, sCtrl 0x02, rfl, rfl⟩

theorem test_hyps_message_traffic_13 :
    ∃ (t : TileId) (p : Ctrl) (u s : State), takeEjected s t (.ctrl p) = some u ∧ p.type = 0x04 :=
  ⟨0, aCtrl 0x04 [0x50000], _, sCtrl 0x04, rfl, rfl⟩

theorem test_hyps_message_traffic_14 :
    ∃ (root : TileId) (p : Ctrl) (t : TileId) (q : QueueId) (u s : State), s.q.revokes.contains (t.val, q.val, p.context) = true ∧ p.group = rdF s (csCtx p.context 0x190) 24 12 ∧ p.round = q.val ∧ takeEjected s root (.ctrl p) = some u ∧ p.type = 0x05 :=
  ⟨0, anAck, 0, 0, _, sRevoked, by decide +kernel, by decide +kernel, by decide +kernel, rfl, rfl⟩

theorem test_hyps_message_traffic_15 :
    ∃ (t : TileId) (q : QueueId) (s : State), (qState s t q = 1 ∨ qState s t q = 2) ∧ qSound s t q = true ∧ threadsOn s t q = [] ∧ headOf s t q = .stale :=
  ⟨0, 9, sStale, by decide +kernel, by decide +kernel, by decide +kernel, rfl⟩

theorem test_hyps_message_traffic_16 :
    ∃ (t : TileId) (q : QueueId) (n : Nat) (l : List Nat) (s : State), (qState s t q = 1 ∨ qState s t q = 2) ∧ qSound s t q = true ∧ threadsOn s t q = n :: l :=
  ⟨0, 7, _, _, sServed, by decide +kernel, by decide +kernel, rfl⟩

theorem test_hyps_handler_arithmetic_1 :
    ∃ (t : TileId) (n : Fin 4) (h : Thread) (w : Nat) (s : State), ready s t n = some (h, w) ∧ opOf w = 0x01 ∧ h.pc < h.count :=
  ⟨0, 3, _, _, sThread (1 <<< 27), rfl, by decide +kernel⟩

theorem test_hyps_handler_arithmetic_2 :
    ∃ (t : TileId) (n : Fin 4) (h : Thread) (w : Nat) (s : State), ready s t n = some (h, w) ∧ opOf w = 0x02 ∧ h.pc < h.count :=
  ⟨0, 3, _, _, sThread (2 <<< 27), rfl, by decide +kernel⟩

theorem test_hyps_handler_arithmetic_3 :
    ∃ (t : TileId) (n : Fin 4) (h : Thread) (w : Nat) (s : State), ready s t n = some (h, w) ∧ opOf w = 0x03 ∧ h.pc < h.count :=
  ⟨0, 3, _, _, sThread (3 <<< 27), rfl, by decide +kernel⟩

theorem test_hyps_handler_arithmetic_4 :
    ∃ (t : TileId) (n : Fin 4) (h : Thread) (w : Nat) (s : State), ready s t n = some (h, w) ∧ opOf w = 0x04 ∧ h.pc < h.count :=
  ⟨0, 3, _, _, sThread (4 <<< 27), rfl, by decide +kernel⟩

theorem test_hyps_handler_arithmetic_5 :
    ∃ (t : TileId) (n : Fin 4) (h : Thread) (w : Nat) (s : State), ready s t n = some (h, w) ∧ opOf w = 0x05 ∧ h.pc < h.count :=
  ⟨0, 3, _, _, sThread (5 <<< 27), rfl, by decide +kernel⟩

theorem test_hyps_handler_arithmetic_6 :
    ∃ (t : TileId) (n : Fin 4) (h : Thread) (w : Nat) (s : State), ready s t n = some (h, w) ∧ opOf w = 0x06 ∧ h.pc < h.count :=
  ⟨0, 3, _, _, sThread (6 <<< 27), rfl, by decide +kernel⟩

theorem test_hyps_handler_arithmetic_7 :
    ∃ (t : TileId) (n : Fin 4) (h : Thread) (w : Nat) (s : State), ready s t n = some (h, w) ∧ opOf w = 0x07 ∧ h.pc < h.count :=
  ⟨0, 3, _, _, sThread (7 <<< 27), rfl, by decide +kernel⟩

theorem test_hyps_handler_arithmetic_8 :
    ∃ (t : TileId) (n : Fin 4) (h : Thread) (w : Nat) (s : State), ready s t n = some (h, w) ∧ opOf w = 0x08 ∧ h.pc < h.count :=
  ⟨0, 3, _, _, sThread (8 <<< 27), rfl, by decide +kernel⟩

theorem test_hyps_handler_arithmetic_9 :
    ∃ (t : TileId) (n : Fin 4) (h : Thread) (w : Nat) (s : State), ready s t n = some (h, w) ∧ opOf w = 0x09 ∧ h.pc < h.count :=
  ⟨0, 3, _, _, sThread (9 <<< 27), rfl, by decide +kernel⟩

theorem test_hyps_handler_arithmetic_10 :
    ∃ (t : TileId) (n : Fin 4) (h : Thread) (w : Nat) (s : State), ready s t n = some (h, w) ∧ opOf w = 0x0a ∧ h.pc < h.count :=
  ⟨0, 3, _, _, sThread (10 <<< 27), rfl, by decide +kernel⟩

theorem test_hyps_handler_arithmetic_11 :
    ∃ (t : TileId) (n : Fin 4) (h : Thread) (w : Nat) (s : State), ready s t n = some (h, w) ∧ opOf w = 0x0b ∧ h.pc < h.count :=
  ⟨0, 3, _, _, sThread (11 <<< 27), rfl, by decide +kernel⟩

theorem test_hyps_handler_arithmetic_12 :
    ∃ (t : TileId) (n : Fin 4) (h : Thread) (w : Nat) (s : State), ready s t n = some (h, w) ∧ opOf w = 0x1e ∧ h.pc < h.count :=
  ⟨0, 3, _, _, sThread (30 <<< 27), rfl, by decide +kernel⟩

theorem test_hyps_handler_operations_1 :
    ∃ (t : TileId) (n : Fin 4) (h : Thread) (w : Nat) (s : State), ready s t n = some (h, w) ∧ opOf w = 0x0c ∧ h.pc < h.count ∧ gReg h (opB w) + opImm w < pWords h :=
  ⟨0, 3, _, _, sThread (12 <<< 27), rfl, by decide +kernel⟩

theorem test_hyps_handler_operations_2 :
    ∃ (t : TileId) (n : Fin 4) (h : Thread) (w : Nat) (s : State), ready s t n = some (h, w) ∧ opOf w = 0x0c ∧ h.pc < h.count ∧ pWords h ≤ gReg h (opB w) + opImm w :=
  ⟨0, 3, _, _, sThread (12 <<< 27 + 0x7FFF), rfl, by decide +kernel⟩

theorem test_hyps_handler_operations_3 :
    ∃ (t : TileId) (n : Fin 4) (h : Thread) (w : Nat) (s : State), ready s t n = some (h, w) ∧ opOf w = 0x0d ∧ h.pc < h.count ∧ gReg h (opB w) + opImm w < 250 :=
  ⟨0, 3, _, _, sThread (13 <<< 27), rfl, by decide +kernel⟩

theorem test_hyps_handler_operations_4 :
    ∃ (t : TileId) (n : Fin 4) (h : Thread) (w : Nat) (s : State), ready s t n = some (h, w) ∧ opOf w = 0x16 ∧ h.pc < h.count ∧ 1 ≤ opImm w ∧ opImm w ≤ 250 ∧ gReg h (opA w) + opImm w ≤ pWords h ∧ gReg h (opB w) + opImm w ≤ 250 :=
  ⟨0, 3, _, _, sThread (0x16 <<< 27 + 2), rfl, by decide +kernel⟩

theorem test_hyps_handler_operations_5 :
    ∃ (t : TileId) (n : Fin 4) (h : Thread) (w : Nat) (s : State), ready s t n = some (h, w) ∧ opOf w = 0x17 ∧ opImm w ≠ 0 ∧ h.pc + 1 + opImm w ≤ h.count ∧ gReg h (opA w) = gReg h (opB w) :=
  ⟨0, 3, _, _, sThread (23 <<< 27 + 0 <<< 23 + 1), rfl, by decide +kernel⟩

theorem test_hyps_handler_operations_6 :
    ∃ (t : TileId) (n : Fin 4) (h : Thread) (w : Nat) (s : State), ready s t n = some (h, w) ∧ opOf w = 0x17 ∧ opImm w ≠ 0 ∧ h.pc + 1 + opImm w ≤ h.count ∧ gReg h (opA w) ≠ gReg h (opB w) :=
  ⟨0, 3, _, _, sThread (23 <<< 27 + 1 <<< 23 + 1), rfl, by decide +kernel⟩

theorem test_hyps_handler_operations_7 :
    ∃ (t : TileId) (n : Fin 4) (h : Thread) (w : Nat) (s : State), ready s t n = some (h, w) ∧ opOf w = 0x18 ∧ opImm w ≠ 0 ∧ h.pc + 1 + opImm w ≤ h.count ∧ gReg h (opA w) ≠ gReg h (opB w) :=
  ⟨0, 3, _, _, sThread (24 <<< 27 + 1 <<< 23 + 1), rfl, by decide +kernel⟩

theorem test_hyps_handler_operations_8 :
    ∃ (t : TileId) (n : Fin 4) (h : Thread) (w : Nat) (s : State), ready s t n = some (h, w) ∧ opOf w = 0x18 ∧ opImm w ≠ 0 ∧ h.pc + 1 + opImm w ≤ h.count ∧ gReg h (opA w) = gReg h (opB w) :=
  ⟨0, 3, _, _, sThread (24 <<< 27 + 0 <<< 23 + 1), rfl, by decide +kernel⟩

theorem test_hyps_handler_operations_9 :
    ∃ (t : TileId) (n : Fin 4) (h : Thread) (w : Nat) (s : State), ready s t n = some (h, w) ∧ opOf w = 0x19 ∧ opImm w ≠ 0 ∧ h.pc + 1 + opImm w ≤ h.count ∧ gReg h (opA w) < gReg h (opB w) :=
  ⟨0, 3, _, _, sThread (25 <<< 27 + 1 <<< 19 + 1), rfl, by decide +kernel⟩

theorem test_hyps_handler_operations_10 :
    ∃ (t : TileId) (n : Fin 4) (h : Thread) (w : Nat) (s : State), ready s t n = some (h, w) ∧ opOf w = 0x19 ∧ opImm w ≠ 0 ∧ h.pc + 1 + opImm w ≤ h.count ∧ gReg h (opB w) ≤ gReg h (opA w) :=
  ⟨0, 3, _, _, sThread (25 <<< 27 + 0 <<< 23 + 1), rfl, by decide +kernel⟩

theorem test_hyps_handler_operations_11 :
    ∃ (t : TileId) (n : Fin 4) (h : Thread) (w : Nat) (x : Nat) (d : List (Option Byte)) (s : State), ready s t n = some (h, w) ∧ opOf w = 0x0e ∧ opBad s t h w = false ∧ relative s t h.ctx (opC w) (gReg h (opB w) + opImm w) (opWords s t h w) = some x ∧ (access s (wordAcc t x (opWords s t h w) (opAccess w) (.thread t n) h.ctx (opData s t h w))).1 = .ok d :=
  ⟨0, 3, _, _, 0, _, sThreadPad (14 <<< 27), rfl, by decide +kernel, by decide +kernel, by decide +kernel, rfl⟩

theorem test_hyps_handler_operations_12 :
    ∃ (t : TileId) (n : Fin 4) (h : Thread) (w : Nat) (x : Nat) (d : List (Option Byte)) (s : State), ready s t n = some (h, w) ∧ opOf w = 0x0f ∧ opBad s t h w = false ∧ relative s t h.ctx (opC w) (gReg h (opB w) + opImm w) (opWords s t h w) = some x ∧ (access s (wordAcc t x (opWords s t h w) (opAccess w) (.thread t n) h.ctx (opData s t h w))).1 = .ok d :=
  ⟨0, 3, _, _, 0, _, sThreadPad (15 <<< 27), rfl, by decide +kernel, by decide +kernel, by decide +kernel, rfl⟩

theorem test_hyps_handler_operations_13 :
    ∃ (t : TileId) (n : Fin 4) (h : Thread) (w : Nat) (x : Nat) (d : List (Option Byte)) (s : State), ready s t n = some (h, w) ∧ opOf w = 0x10 ∧ opBad s t h w = false ∧ relative s t h.ctx (opC w) (gReg h (opB w) + opImm w) (opWords s t h w) = some x ∧ (access s (wordAcc t x (opWords s t h w) (opAccess w) (.thread t n) h.ctx (opData s t h w))).1 = .ok d :=
  ⟨0, 3, _, _, 0, _, sThreadPad (16 <<< 27), rfl, by decide +kernel, by decide +kernel, by decide +kernel, rfl⟩

theorem test_hyps_handler_operations_14 :
    ∃ (t : TileId) (n : Fin 4) (h : Thread) (w : Nat) (x : Nat) (d : List (Option Byte)) (s : State), ready s t n = some (h, w) ∧ opOf w = 0x11 ∧ opBad s t h w = false ∧ relative s t h.ctx (opC w) (gReg h (opB w) + opImm w) (opWords s t h w) = some x ∧ (access s (wordAcc t x (opWords s t h w) (opAccess w) (.thread t n) h.ctx (opData s t h w))).1 = .ok d :=
  ⟨0, 3, _, _, 0, _, sThreadPad (17 <<< 27), rfl, by decide +kernel, by decide +kernel, by decide +kernel, rfl⟩

theorem test_hyps_handler_operations_15 :
    ∃ (t : TileId) (n : Fin 4) (h : Thread) (w : Nat) (x : Nat) (d : List (Option Byte)) (s : State), ready s t n = some (h, w) ∧ opOf w = 0x12 ∧ opBad s t h w = false ∧ relative s t h.ctx (opC w) (gReg h (opB w) + opImm w) (opWords s t h w) = some x ∧ (access s (wordAcc t x (opWords s t h w) (opAccess w) (.thread t n) h.ctx (opData s t h w))).1 = .ok d :=
  ⟨0, 3, _, _, 0, _, sThreadTag false (18 <<< 27), rfl, by decide +kernel, by decide +kernel, by decide +kernel, rfl⟩

theorem test_hyps_handler_operations_16 :
    ∃ (t : TileId) (n : Fin 4) (h : Thread) (w : Nat) (x : Nat) (d : List (Option Byte)) (s : State), ready s t n = some (h, w) ∧ opOf w = 0x13 ∧ opBad s t h w = false ∧ relative s t h.ctx (opC w) (gReg h (opB w) + opImm w) (opWords s t h w) = some x ∧ (access s (wordAcc t x (opWords s t h w) (opAccess w) (.thread t n) h.ctx (opData s t h w))).1 = .ok d :=
  ⟨0, 3, _, _, 0, _, sThreadTag true (19 <<< 27), rfl, by decide +kernel, by decide +kernel, by decide +kernel, rfl⟩

theorem test_hyps_handler_operations_17 :
    ∃ (t : TileId) (n : Fin 4) (h : Thread) (w : Nat) (x : Nat) (d : List (Option Byte)) (s : State), ready s t n = some (h, w) ∧ opOf w = 0x14 ∧ opBad s t h w = false ∧ relative s t h.ctx (opC w) (gReg h (opB w) + opImm w) (opWords s t h w) = some x ∧ (access s (wordAcc t x (opWords s t h w) (opAccess w) (.thread t n) h.ctx (opData s t h w))).1 = .ok d :=
  ⟨0, 3, _, _, 0, _, sThreadTag true (20 <<< 27), rfl, by decide +kernel, by decide +kernel, by decide +kernel, rfl⟩

theorem test_hyps_handler_operations_18 :
    ∃ (t : TileId) (n : Fin 4) (h : Thread) (w : Nat) (x : Nat) (d : List (Option Byte)) (s : State), ready s t n = some (h, w) ∧ opOf w = 0x15 ∧ opBad s t h w = false ∧ relative s t h.ctx (opC w) (gReg h (opB w) + opImm w) (opWords s t h w) = some x ∧ (access s (wordAcc t x (opWords s t h w) (opAccess w) (.thread t n) h.ctx (opData s t h w))).1 = .ok d :=
  ⟨0, 3, _, _, 0, _, sThreadTag true (21 <<< 27), rfl, by decide +kernel, by decide +kernel, by decide +kernel, rfl⟩

theorem test_hyps_handler_operations_19 :
    ∃ (t : TileId) (n : Fin 4) (h : Thread) (w : Nat) (x : Nat) (s : State), ready s t n = some (h, w) ∧ opOf w = 0x13 ∧ opBad s t h w = false ∧ relative s t h.ctx (opC w) (gReg h (opB w) + opImm w) (opWords s t h w) = some x ∧ (access s (wordAcc t x (opWords s t h w) (opAccess w) (.thread t n) h.ctx (opData s t h w))).1 = .waiting :=
  ⟨0, 3, _, _, 0, sThreadTag false (0x13 <<< 27), rfl, by decide +kernel⟩

theorem test_hyps_handler_operations_20 :
    ∃ (t : TileId) (n : Fin 4) (h : Thread) (w : Nat) (m : Msg) (u s : State), ready s t n = some (h, w) ∧ opOf w = 0x1A ∧ h.pc < h.count ∧ opA w ≠ 15 ∧ gReg h (opC w) ≤ 1000 ∧ fieldNat (gReg h (opA w + 1)) 4 10 ≠ 0x3FF ∧ (m = buildMsg s t h.queue h.ctx (gReg h (opA w) + (fieldNat (gReg h (opA w + 1)) 0 4 <<< 32)) (fieldNat (gReg h (opA w + 1)) 4 10) (if (gReg h (opA w + 1)).testBit 14 then 3 else 2) (oBytes h (gReg h (opC w)))) ∧ trySend s t h.queue (.thread n) m = (.sent, u) :=
  ⟨0, 3, _, _, _, _, sThreadSend (0x1A <<< 27), rfl, by decide +kernel, by decide +kernel, by decide +kernel, by decide +kernel, by decide +kernel, rfl, rfl⟩

theorem test_hyps_handler_operations_21 :
    ∃ (t : TileId) (n : Fin 4) (h : Thread) (w : Nat) (m : Msg) (u s : State), ready s t n = some (h, w) ∧ opOf w = 0x1A ∧ h.pc < h.count ∧ opA w ≠ 15 ∧ gReg h (opC w) ≤ 1000 ∧ fieldNat (gReg h (opA w + 1)) 4 10 ≠ 0x3FF ∧ (m = buildMsg s t h.queue h.ctx (gReg h (opA w) + (fieldNat (gReg h (opA w + 1)) 0 4 <<< 32)) (fieldNat (gReg h (opA w + 1)) 4 10) (if (gReg h (opA w + 1)).testBit 14 then 3 else 2) (oBytes h (gReg h (opC w)))) ∧ trySend s t h.queue (.thread n) m = (.wait, u) :=
  ⟨0, 3, _, _, _, _, sThreadWait (0x1A <<< 27), rfl, by decide +kernel, by decide +kernel, by decide +kernel, by decide +kernel, by decide +kernel, rfl, rfl⟩

theorem test_hyps_handler_operations_22 :
    ∃ (t : TileId) (n : Fin 4) (h : Thread) (w : Nat) (m : Msg) (u s : State), ready s t n = some (h, w) ∧ opOf w = 0x1B ∧ h.pc < h.count ∧ gReg h (opC w) ≤ 1000 ∧ gReg h (opB w) % 1024 ≠ 0x3FF ∧ m = buildMsg s t h.queue h.ctx h.msg.hdr.src (gReg h (opB w) % 1024) 2 (oBytes h (gReg h (opC w))) ∧ trySend s t h.queue (.thread n) m = (.sent, u) :=
  ⟨0, 3, _, _, _, _, sThreadSend (0x1B <<< 27), rfl, by decide +kernel, by decide +kernel, by decide +kernel, by decide +kernel, rfl, rfl⟩

theorem test_hyps_handler_operations_23 :
    ∃ (t : TileId) (n : Fin 4) (h : Thread) (w : Nat) (u s : State), ready s t n = some (h, w) ∧ opOf w = 0x1C ∧ h.pc < h.count ∧ grant s t (opImm w % 256) (fieldNat (gReg h (opA w)) 13 15) (fieldNat (gReg h (opA w)) 0 13) (gReg h (opB w)) (some h.ctx) = (true, u) :=
  ⟨0, 3, _, _, _, sThreadGrant, rfl, by decide +kernel, by decide +kernel, rfl⟩

theorem test_hyps_handler_operations_24 :
    ∃ (t : TileId) (n : Fin 4) (h : Thread) (w : Nat) (q : Nat) (s : State), ready s t n = some (h, w) ∧ opOf w = 0x1D ∧ q = opImm w % 256 ∧ qRead s t q = true ∧ qOwner s t q = h.ctx ∧ unitReads s t q = false :=
  ⟨0, 3, _, _, _, sThreadGet, rfl, by decide +kernel, rfl, by decide +kernel⟩

theorem test_hyps_handler_operations_25 :
    ∃ (t : TileId) (n : Fin 4) (h : Thread) (w : Nat) (s : State), ready s t n = some (h, w) ∧ opOf w = 0x1F ∧ h.pc < h.count ∧ inFlight s t h = false :=
  ⟨0, 3, _, _, sThread (0x1F <<< 27), rfl, by decide +kernel⟩

theorem test_hyps_handler_operations_26 :
    ∃ (t : TileId) (n : Fin 4) (h : Thread) (w : Nat) (s : State), ready s t n = some (h, w) ∧ opOf w = 0x00 :=
  ⟨0, 3, _, _, sThread 0, rfl, by decide +kernel⟩

theorem test_hyps_handler_dispatch_1 :
    ∃ (t : TileId) (n : Nat) (j : NackJob) (s : State), (List.range 4).find? (fun n => !(threadOf s t n).busy) = some n ∧ s.q.nacks.find? (fun j => j.tile == t.val && mayRun s t j.hdr.context) = some j :=
  ⟨0, _, _, sNackJob, rfl, rfl⟩

theorem test_hyps_handler_dispatch_2 :
    ∃ (t : TileId) (n q : Nat) (m : Msg) (e : Nat × Nat × Nat) (v u s : State), (List.range 4).find? (fun n => !(threadOf s t n).busy) = some n ∧ s.q.nacks.find? (fun j => j.tile == t.val && mayRun s t j.hdr.context) = none ∧ nextQueue s t = some q ∧ qSound s t q = true ∧ headMsg s t q = some (m, u) ∧ v = wrF u (qctl t 0x100) 0 8 q ∧ handlerEntry v t (qOwner s t q) m.hdr.handler = some e :=
  ⟨0, _, _, _, _, _, _, sDispatch, rfl, rfl, rfl, by decide +kernel, rfl, rfl, rfl⟩

theorem test_hyps_handler_dispatch_3 :
    ∃ (t : TileId) (q : QueueId) (n : Nat) (m : Msg) (u s : State), qOcc s t q ≠ 0 ∧ (List.range 4).find? (fun n => (threadOf s t n).busy && (threadOf s t n).wait == .message q && mayRun s t (threadOf s t n).ctx) = some n ∧ threadsOn s t q = [] ∧ headMsg s t q = some (m, u) :=
  ⟨0, 7, _, _, _, sReader, by decide +kernel, rfl, by decide +kernel, rfl⟩

theorem test_hyps_handler_dispatch_4 :
    ∃ (t : TileId) (q : QueueId) (s : State), qOcc s t q ≠ 0 ∧ (List.range 4).find? (fun n => (threadOf s t n).busy && (threadOf s t n).wait == .message q && mayRun s t (threadOf s t n).ctx) = none :=
  ⟨0, 7, sQueue 1 1, by decide +kernel, rfl⟩

theorem test_hyps_mesh_links_1 :
    ∃ (t : TileId) (p : Fin 9) (n : Nat) (f : Flit) (s : State), neighbour t p = some n ∧ linkFenced s t p = false ∧ mapGet (fun _ => false) s.net.replay (t.val * 16 + p.val) = false ∧ (mapGet (fun _ => []) s.net.again (t.val * 16 + p.val)).head?.orElse (fun _ => chooseFlit s t p) = some f :=
  ⟨0, 1, _, _, sFlit, rfl, by decide +kernel, by decide +kernel, rfl⟩

theorem test_hyps_mesh_links_2 :
    ∃ (t : TileId) (p : Fin 9) (n : Nat) (f : Flit) (s : State), neighbour t p = some n ∧ linkFenced s t p = false ∧ mapGet (fun _ => false) s.net.replay (t.val * 16 + p.val) = false ∧ (mapGet (fun _ => []) s.net.again (t.val * 16 + p.val)).head?.orElse (fun _ => chooseFlit s t p) = some f :=
  ⟨0, 1, _, _, sFlit, rfl, by decide +kernel, by decide +kernel, rfl⟩

theorem test_hyps_mesh_links_3 :
    ∃ (t : TileId) (p : Fin 9) (n : Nat) (f : Flit) (s : State), neighbour t p = some n ∧ linkFenced s t p = false ∧ mapGet (fun _ => false) s.net.replay (t.val * 16 + p.val) = false ∧ (mapGet (fun _ => []) s.net.again (t.val * 16 + p.val)).head?.orElse (fun _ => chooseFlit s t p) = some f :=
  ⟨0, 1, _, _, sFlit, rfl, by decide +kernel, by decide +kernel, rfl⟩

theorem test_hyps_mesh_links_4 :
    ∃ (t : TileId) (p : Fin 9) (err : Fin 3) (s : State), (neighbour t p = none ∨ linkFenced s t p = true ∨ mapGet (fun _ => false) s.net.replay (t.val * 16 + p.val) = true) :=
  ⟨0, 1, 0, sReplay, by decide +kernel⟩

theorem test_hyps_mesh_links_5 :
    ∃ (t : TileId) (p : Fin 9) (s : State), mapGet (fun _ => false) s.net.replay (t.val * 16 + p.val) = true :=
  ⟨0, 1, sReplay, by decide +kernel⟩

theorem test_hyps_mesh_links_6 :
    ∃ (t : TileId) (vc : Fin 4) (e : Nat × Pkt) (s : State), s.net.inject.find? (fun e => e.1 == t.val && pktVc e.2 == vc.val) = some e ∧ injHeld s t e.2 = false ∧ (tileInReset s t && ofTile e.2) = false ∧ (enteringOf s t 0).any (fun f => pktVc f.pkt == vc.val) = false :=
  ⟨0, 2, _, sInject, rfl, by decide +kernel⟩

theorem test_hyps_mesh_links_7 :
    ∃ (t : TileId) (s : State), rdB s (rtReg t 0x100) 1 = false :=
  ⟨0, sInject, by decide +kernel⟩

theorem test_hyps_mesh_links_8 :
    ∃ (a : Agent) (t : TileId) (on : Bool) (v : W64) (s : State), v = setField (rd s (rtReg t 0x100)) 1 1 (bit01 on) ∧ writeOk s a (rtReg t 0x100) v = true :=
  ⟨.hornbeam, 4607, true, _, State.reset, rfl, by decide +kernel⟩

theorem test_hyps_mesh_links_9 :
    ∃ (a : Agent) (t : TileId) (on : Bool) (v : W64) (s : State), v = setField (rd s (rtReg t 0x100)) 0 1 (bit01 on) ∧ writeOk s a (rtReg t 0x100) v = true :=
  ⟨.hornbeam, 0, true, _, State.reset, rfl, by decide +kernel⟩

theorem test_hyps_mesh_links_10 :
    ∃ (a : Agent) (t : TileId) (s : State), readOk s a (rtReg t 0x118) = true :=
  ⟨.hornbeam, 0, State.reset, by decide +kernel⟩

theorem test_hyps_mesh_links_11 :
    ∃ (a : Agent) (t : TileId) (v : W64) (s : State), writeOk s a (rtReg t 0x118) v = true ∧ rdF s (rtReg t 0x110) 0 9 < 288 :=
  ⟨.hornbeam, 0, 0x1111111111111111, State.reset, by decide +kernel⟩

theorem test_hyps_mesh_links_12 :
    ∃ (a : Agent) (t : TileId) (s : State), readOk s a (rtReg t 0x128) = true :=
  ⟨.hornbeam, 0, State.reset, by decide +kernel⟩

theorem test_hyps_mesh_links_13 :
    ∃ (a : Agent) (t : TileId) (v : W64) (s : State), writeOk s a (rtReg t 0x128) v = true :=
  ⟨.hornbeam, 0, 0x2010, State.reset, by decide +kernel⟩

theorem test_hyps_mesh_trees_1 :
    ∃ (t : TileId) (port : Fin 9) (p : Pkt) (x : Here) (u s : State), (match p with | .ctrl c => c.mcast && !isUpTree c.type | .fw f => f.mcast | _ => false) = true ∧ hereOf s t port p = some x ∧ u = { s with net := { s.net with here := s.net.here.erase x } } ∧ (mcEntry u t (pktGroup p)).1 = true ∧ (mcEntry u t (pktGroup p)).2.2 ≠ 0 ∧ port.val ≠ (mcEntry u t (pktGroup p)).2.2 ∧ (downPorts u t (pktGroup p)).testBit (mcEntry u t (pktGroup p)).2.2 = false :=
  ⟨0, 0, .ctrl aMcast, _, _, sMulti 2, by decide +kernel, rfl, rfl, by decide +kernel⟩

theorem test_hyps_mesh_trees_2 :
    ∃ (t : TileId) (port : Fin 9) (c : Ctrl) (x : Here) (outs : List (Nat × Nat)) (u s : State), c.mcast = true ∧ isUpTree c.type = false ∧ hereOf s t port (.ctrl c) = some x ∧ u = { s with net := { s.net with here := s.net.here.erase x } } ∧ (mcEntry u t c.group).1 = true ∧ (((mcEntry u t c.group).2.2 ≠ 0 ∧ port.val = (mcEntry u t c.group).2.2) ∨ ((mcEntry u t c.group).2.2 = 0 ∧ fabricUp u c.group = none)) ∧ outs = ((List.range 9).filter (fun n => (downPorts u t c.group).testBit n)).zipIdx u.net.serial :=
  ⟨0, 2, aMcast, _, _, _, sMultiDown, rfl, by decide +kernel, rfl, rfl, by decide +kernel, by decide +kernel, rfl⟩

theorem test_hyps_mesh_trees_3 :
    ∃ (t : TileId) (port : Fin 9) (f : FwPkt) (x : Here) (outs : List (Nat × Nat)) (u s : State), f.mcast = true ∧ hereOf s t port (.fw f) = some x ∧ u = { s with net := { s.net with here := s.net.here.erase x } } ∧ (mcEntry u t f.group).1 = true ∧ (((mcEntry u t f.group).2.2 ≠ 0 ∧ port.val = (mcEntry u t f.group).2.2) ∨ ((mcEntry u t f.group).2.2 = 0 ∧ fabricUp u f.group = none)) ∧ outs = ((List.range 9).filter (fun n => (downPorts u t f.group).testBit n)).zipIdx u.net.serial :=
  ⟨0, 2, aFwCast, _, _, _, sFwCast, rfl, rfl, rfl, by decide +kernel, by decide +kernel, rfl⟩

theorem test_hyps_mesh_trees_4 :
    ∃ (t : TileId) (port : Fin 9) (c : Ctrl) (q : Nat) (x : Here) (u s : State), c.mcast = true ∧ isUpTree c.type = false ∧ hereOf s t port (.ctrl c) = some x ∧ u = { s with net := { s.net with here := s.net.here.erase x } } ∧ (mcEntry u t c.group).1 = true ∧ (mcEntry u t c.group).2.2 = 0 ∧ fabricUp u c.group = some q ∧ portRuns u q = true ∧ (port.val ≠ edgePort q ∨ portAt t ≠ some q) ∧ flitsOf (.ctrl c) ≤ x.came :=
  ⟨0, 0, aMcast, _, _, _, sMultiUp, rfl, by decide +kernel, rfl, rfl, by decide +kernel, by decide +kernel, rfl, by decide +kernel, by decide +kernel, by decide +kernel⟩

theorem test_hyps_mesh_trees_5 :
    ∃ (t : TileId) (port : Fin 9) (c : Ctrl) (x : UpSlot) (u v s : State), isUpTree c.type = true ∧ takeHere s t port (.ctrl c) = some u ∧ v = replyHeard u t port c ∧ (mcEntry v t c.group).1 = true ∧ (upSlots v t).find? (fun x => x.group == c.group && x.type == c.type && x.round == c.round) = some x :=
  ⟨0, 1, aCtrl 0x05 [], _, _, _, sReply true, by decide +kernel, rfl, rfl, by decide +kernel, rfl⟩

theorem test_hyps_mesh_trees_6 :
    ∃ (t : TileId) (port : Fin 9) (c : Ctrl) (u v s : State), isUpTree c.type = true ∧ takeHere s t port (.ctrl c) = some u ∧ v = replyHeard u t port c ∧ (mcEntry v t c.group).1 = true ∧ (upSlots v t).find? (fun x => x.group == c.group && x.type == c.type && x.round == c.round) = none ∧ (upSlots v t).length < 16 :=
  ⟨0, 1, aCtrl 0x05 [], _, _, sReply false, by decide +kernel, rfl, rfl, by decide +kernel⟩

theorem test_hyps_mesh_trees_7 :
    ∃ (g : Fin 4096) (root : TileId) (r : Nat) (s : State), s.net.meshAt ≠ now s / 1000 + 1 ∧ r = (s.net.meshRound + 1) % 256 :=
  ⟨7, 1, _, State.reset, by decide +kernel, rfl⟩

theorem test_hyps_mesh_trees_8 :
    ∃ (g : Fin 4096) (root : TileId) (c : Ctrl) (u v s : State), s.net.meshAt ≠ now s / 1000 + 1 ∧ c.type = 0x10 ∧ c.round = s.net.meshRound ∧ c.group = g.val ∧ takeEjected s root (.ctrl c) = some u ∧ (v = { u with net := { u.net with meshQuiet := if c.words.getD 0 0 = 0 then u.net.meshQuiet + 1 else 0 } }) :=
  ⟨0, 1, { aCtrl 0x10 [0, 0] with group := 0 }, _, _, sMeshSum, by decide +kernel, rfl, rfl, rfl, rfl, rfl⟩

theorem test_hyps_reductions_1 :
    ∃ (l : Fin 4636) (port : Fin 9) (r : Red) (e : Comb) (j : State × Red) (v u s : State), takeHere s l port (.red r) = some u ∧ (r.kind = 1 ∨ r.kind = 2) ∧ (combOf u l).find? (fun e => sameKey e.red r) = some e ∧ j = redJoin u (combPage l) none e.red r ∧ (v = (if l.val < 4608 then incWrap j.1 (rtReg l 0x088) 1 else if 4622 ≤ l.val then oweCredit j.1 (l.val - 4622) 1 1 else j.1)) ∧ j.2.total ≤ j.2.contrib :=
  ⟨0, 2, aRed 2, _, _, _, _, sPartial 2, rfl, by decide +kernel, rfl, rfl, rfl, by decide +kernel⟩

theorem test_hyps_reductions_2 :
    ∃ (l : Fin 4636) (port : Fin 9) (r : Red) (e : Comb) (j : State × Red) (v u s : State), takeHere s l port (.red r) = some u ∧ (r.kind = 1 ∨ r.kind = 2) ∧ (combOf u l).find? (fun e => sameKey e.red r) = some e ∧ j = redJoin u (combPage l) none e.red r ∧ (v = (if l.val < 4608 then incWrap j.1 (rtReg l 0x088) 1 else if 4622 ≤ l.val then oweCredit j.1 (l.val - 4622) 1 1 else j.1)) ∧ j.2.contrib < j.2.total :=
  ⟨0, 2, aRed 3, _, _, _, _, sPartial 3, rfl, by decide +kernel, rfl, rfl, rfl, by decide +kernel⟩

theorem test_hyps_reductions_3 :
    ∃ (l : Fin 4636) (port : Fin 9) (r : Red) (u s : State), takeHere s l port (.red r) = some u ∧ (r.kind = 1 ∨ r.kind = 2) ∧ (combOf u l).find? (fun e => sameKey e.red r) = none ∧ (combOf u l).length < combRoom l ∧ (l.val < 4608 && redHome u l r) = false ∧ r.contrib < r.total :=
  ⟨0, 2, aRed 2, _, sPartial 0, rfl, by decide +kernel⟩

theorem test_hyps_reductions_4 :
    ∃ (l : Fin 4636) (port : Fin 9) (r : Red) (u s : State), takeHere s l port (.red r) = some u ∧ (r.kind = 1 ∨ r.kind = 2) ∧ (combOf u l).find? (fun e => sameKey e.red r) = none ∧ (combRoom l ≤ (combOf u l).length ∨ (l.val < 4608 && redHome u l r) = true) :=
  ⟨0, 2, aRedHome, _, sPartialHome, rfl, by decide +kernel⟩

theorem test_hyps_reductions_5 :
    ∃ (l : Fin 4636) (i : Fin 32) (e : Comb) (s : State), (combOf s l)[i.val]? = some e ∧ (l.val < 4608 ∨ rdF s (pxReg ((l.val - 4608) % 14) 0x100) 32 8 * 10 ≤ (now s - e.opened) * 16) :=
  ⟨0, 0, _, sPartial 2, rfl, by decide +kernel⟩

theorem test_hyps_reductions_6 :
    ∃ (t : TileId) (port : Fin 16) (r : Red) (v u s : State), takeHere s t (16 + port.val) (.red r) = some u ∧ tileFenced u t = false ∧ tileInReset u t = false ∧ clusterPower s (clusterOf t) ≠ 2 ∧ epochMatches u t r.context r.ctxEpoch = true ∧ compTake u t r = some v :=
  ⟨0, 2, aRed 2, _, _, sComp, rfl, by decide +kernel, by decide +kernel, by decide +kernel, by decide +kernel, rfl⟩

theorem test_hyps_reductions_7 :
    ∃ (t : TileId) (port : Fin 16) (r : Red) (u s : State), takeHere s t (16 + port.val) (.red r) = some u ∧ tileFenced u t = false ∧ tileInReset u t = false ∧ clusterPower s (clusterOf t) ≠ 2 ∧ epochMatches u t r.context r.ctxEpoch = false :=
  ⟨0, 2, aRed 2, _, sCompStale, rfl, by decide +kernel⟩

theorem test_hyps_reductions_8 :
    ∃ (t : TileId) (i : Fin 128) (e : CompEntry) (m : Msg) (r : SendRes × State) (s : State), (compOf s t)[i.val]? = some e ∧ e.done = true ∧ tileRuns s t = true ∧ m = buildMsg s t 0 e.red.context e.red.dst 0 2 (compPayload e) ∧ r = trySend (setComp s t ((compOf s t).eraseIdx i)) t 0 .store { m with hdr := { m.hdr with ctxEpoch := e.red.ctxEpoch } } ∧ (r.1 == .wait) = false :=
  ⟨0, 0, _, _, _, sCompDone, rfl, by decide +kernel, by decide +kernel, rfl, rfl, by decide +kernel⟩

theorem test_hyps_port_registers_1 :
    ∃ (a : Agent) (p : PortId) (on : Bool) (v : W64) (s : State), v = setField (rd s (pxReg p 0x100)) 0 1 (bit01 on) ∧ writeOk s a (pxReg p 0x100) v = true :=
  ⟨.hornbeam, 13, true, _, State.reset, rfl, by decide +kernel⟩

theorem test_hyps_port_registers_2 :
    ∃ (a : Agent) (p : PortId) (on : Bool) (v : W64) (s : State), v = setField (rd s (pxReg p 0x100)) 1 1 (bit01 on) ∧ writeOk s a (pxReg p 0x100) v = true :=
  ⟨.hornbeam, 0, true, _, State.reset, rfl, by decide +kernel⟩

theorem test_hyps_port_registers_3 :
    ∃ (a : Agent) (p : PortId) (v : W64) (s : State), v = setField (rd s (pxReg p 0x100)) 2 1 1 ∧ writeOk s a (pxReg p 0x100) v = true :=
  ⟨.companion, 0, _, State.reset, rfl, by decide +kernel⟩

theorem test_hyps_port_registers_4 :
    ∃ (a : Agent) (p : PortId) (mask : Fin 16) (v : W64) (s : State), v = setField (rd s (pxReg p 0x100)) 20 4 mask ∧ writeOk s a (pxReg p 0x100) v = true :=
  ⟨.hornbeam, 0, 7, _, State.reset, rfl, by decide +kernel⟩

theorem test_hyps_port_registers_5 :
    ∃ (a : Agent) (s : State), readOk s a (fxReg 0x110) = true :=
  ⟨.hornbeam, State.reset, by decide +kernel⟩

theorem test_hyps_port_registers_6 :
    ∃ (a : Agent) (v : W64) (s : State), writeOk s a (fxReg 0x110) v = true :=
  ⟨.hornbeam, 0xFFFFFFFFFFFFFFFF, State.reset, by decide +kernel⟩

theorem test_hyps_port_registers_7 :
    ∃ (a : Agent) (s : State), readOk s a (fxReg 0x120) = true :=
  ⟨.hornbeam, State.reset, by decide +kernel⟩

theorem test_hyps_port_registers_8 :
    ∃ (a : Agent) (v : W64) (s : State), writeOk s a (fxReg 0x120) v = true :=
  ⟨.hornbeam, 0x100001, State.reset, by decide +kernel⟩

theorem test_hyps_port_states_1 :
    ∃ (p : PortId) (lanes : Fin 16) (dev : Fin 32768) (port : Fin 16) (serial : Fin 16777216) (got id : Nat) (s : State), got = lanes.val &&& rdF s (pxReg p 0x100) 20 4 ∧ got ≠ 0 ∧ portState s p = 1 ∧ id = 2 ^ 63 + (dev.val <<< 32) + (port.val <<< 28) + serial.val ∧ (mapGet (fun _ => 0) s.fabric.peer p ≤ 2 ^ 63 ∨ mapGet (fun _ => 0) s.fabric.peer p = id + 1) :=
  ⟨0, 15, 3, 2, 1, _, _, sPort 1, rfl, by decide +kernel, by decide +kernel, rfl, by decide +kernel⟩

theorem test_hyps_port_states_2 :
    ∃ (p : PortId) (lanes : Fin 16) (dev : Fin 32768) (port : Fin 16) (serial : Fin 16777216) (got id : Nat) (s : State), got = lanes.val &&& rdF s (pxReg p 0x100) 20 4 ∧ got ≠ 0 ∧ portState s p = 1 ∧ id = 2 ^ 63 + (dev.val <<< 32) + (port.val <<< 28) + serial.val ∧ 2 ^ 63 < mapGet (fun _ => 0) s.fabric.peer p ∧ mapGet (fun _ => 0) s.fabric.peer p ≠ id + 1 :=
  ⟨0, 15, 3, 2, 1, _, _, sPortPeer, rfl, by decide +kernel, by decide +kernel, rfl, by decide +kernel⟩

theorem test_hyps_port_states_3 :
    ∃ (p : PortId) (lanes : Fin 16) (dev : Fin 32768) (port : Fin 16) (serial : Fin 16777216) (got ordered mask : Nat) (u s : State), got = lanes.val &&& rdF s (pxReg p 0x100) 20 4 ∧ portState s p = 3 ∧ ordered = mapGet (fun _ => 0) s.fabric.retrain p ∧ got &&& ordered ≠ 0 ∧ u = { s with fabric := { s.fabric with retrain := mapPut (fun _ => 0) s.fabric.retrain p (ordered &&& (15 - got)) } } ∧ mask = lanesActive s p ||| (got &&& ordered) :=
  ⟨0, 15, 3, 2, 1, _, _, _, _, sPortRetrain, rfl, by decide +kernel, rfl, by decide +kernel, rfl, rfl⟩

theorem test_hyps_port_states_4 :
    ∃ (p : PortId) (s : State), portState s p = 1 ∧ mapGet (fun _ => 0) s.fabric.since p + 99999999 ≤ now s :=
  ⟨0, sPortAt 1 100000000, by decide +kernel⟩

theorem test_hyps_port_states_5 :
    ∃ (p : PortId) (s : State), portState s p = 4 ∧ mapGet (fun _ => 0) s.fabric.since p + 9999999 ≤ now s :=
  ⟨0, sPortAt 4 10000000, by decide +kernel⟩

theorem test_hyps_port_states_6 :
    ∃ (p : PortId) (s : State), portRuns s p = true :=
  ⟨0, sPort 2, by decide +kernel⟩

theorem test_hyps_port_states_7 :
    ∃ (p : PortId) (s : State), portRuns s p = true ∧ sentOf s p ≠ [] ∧ mapGet (fun _ => 0) s.fabric.moved p + 3999 ≤ now s :=
  ⟨0, sPortSent 4000, by decide +kernel⟩

theorem test_hyps_port_states_9 :
    ∃ (p : PortId) (lane : Fin 8) (words corrected symbols limit : Nat) (u s : State), limit = rdF s (pxReg p 0x118) 0 20 ∧ u = incSatN (incSatN (incWrap s (pxReg p (0x080 + 0x20 * (lane.val % 4))) words) (pxReg p (0x080 + 0x20 * (lane.val % 4) + 8)) 48 corrected) (pxReg p (0x080 + 0x20 * (lane.val % 4) + 16)) 48 symbols :=
  ⟨0, 3, 5, 4, 3, _, _, State.reset, rfl, rfl⟩

theorem test_hyps_port_states_10 :
    ∃ (s : State), gbState s = 1 ∧ mapGet (fun _ => 0) s.fabric.since 14 + 99999999 ≤ now s :=
  ⟨sGbAt 1 99999999, by decide +kernel⟩

theorem test_hyps_port_states_11 :
    ∃ (s : State), gbState s = 4 ∧ mapGet (fun _ => 0) s.fabric.since 14 + 9999999 ≤ now s :=
  ⟨sGbAt 4 9999999, by decide +kernel⟩

theorem test_hyps_port_states_12 :
    ∃ (s : State), gbUp s = true ∧ s.gorbin.sent ≠ [] ∧ mapGet (fun _ => 0) s.fabric.moved 14 + 3999 ≤ now s :=
  ⟨sGbSent 3999, by decide +kernel⟩

theorem test_hyps_link_packets_1 :
    ∃ (p : PortId) (seq : Fin 4096) (hop : Fin 256) (replay : Bool) (lane : Fin 8) (pkt : Pkt) (u s : State), portRuns s p = true ∧ rxAhead s p = [] ∧ seq.val = mapGet (fun _ => 0) s.fabric.rxSeq p ∧ (mapGet (fun _ => false) s.fabric.nak p = false ∨ replay = true) ∧ u = linkAccept s p :=
  ⟨0, 0, 3, false, 0, .msg emptyMsg, _, sPort 2, by decide +kernel, by decide +kernel, by decide +kernel, by decide +kernel, rfl⟩

theorem test_hyps_link_packets_2 :
    ∃ (p : PortId) (seq : Fin 4096) (hop : Fin 256) (replay : Bool) (lane : Fin 8) (pkt : Pkt) (s : State), portRuns s p = true ∧ (rxAhead s p).contains seq.val = false ∧ seq.val ≠ mapGet (fun _ => 0) s.fabric.rxSeq p ∧ seqFits s p seq = true ∧ mapGet (fun _ => false) s.fabric.nak p = false :=
  ⟨0, 1, 3, false, 0, .msg emptyMsg, sPort 2, by decide +kernel⟩

theorem test_hyps_link_packets_3 :
    ∃ (p : PortId) (seq : Fin 4096) (hop : Fin 256) (replay : Bool) (lane : Fin 8) (pkt : Pkt) (s : State), (rxAhead s p).contains seq.val = true :=
  ⟨0, 1, 3, false, 0, .msg emptyMsg, sPortAhead, by decide +kernel⟩

theorem test_hyps_link_packets_4 :
    ∃ (p : PortId) (seq : Fin 4096) (hop : Fin 256) (replay : Bool) (lane : Fin 8) (pkt : Pkt) (s : State), portRuns s p = true ∧ (rxAhead s p).contains seq.val = false ∧ (mapGet (fun _ => false) s.fabric.nak p = false ∨ (replay = true ∧ seq.val = mapGet (fun _ => 0) s.fabric.rxSeq p)) :=
  ⟨0, 0, 3, false, 0, .msg emptyMsg, sPort 2, by decide +kernel⟩

theorem test_hyps_link_packets_5 :
    ∃ (p : PortId) (seq : Fin 4096) (hop : Fin 256) (replay : Bool) (flaw : Fin 3) (lane : Fin 8) (pkt : Pkt) (s : State), portRuns s p = true ∧ (rxAhead s p).contains seq.val = false ∧ mapGet (fun _ => false) s.fabric.nak p = false ∧ (flaw = 2 ∨ (flaw = 0 ∧ seqFits s p seq = false)) :=
  ⟨0, 7, 3, false, 0, 0, .msg emptyMsg, sPort 2, by decide +kernel⟩

theorem test_hyps_link_packets_6 :
    ∃ (p : PortId) (seq : Fin 4096) (hop : Fin 256) (replay : Bool) (flaw : Fin 3) (lane : Fin 8) (pkt : Pkt) (s : State), portRuns s p = true ∧ mapGet (fun _ => false) s.fabric.nak p = true ∧ (replay = false ∨ seq.val ≠ mapGet (fun _ => 0) s.fabric.rxSeq p) ∧ flaw ≠ 1 :=
  ⟨0, 0, 3, false, 0, 0, .msg emptyMsg, sPortNak, by decide +kernel⟩

theorem test_hyps_link_packets_7 :
    ∃ (p : PortId) (seq : Fin 4096) (s : State), (acked (sentOf s p) seq).length < (sentOf s p).length :=
  ⟨0, 0, sPortSent 0, by decide +kernel⟩

theorem test_hyps_link_packets_8 :
    ∃ (p : PortId) (seq : Fin 4096) (rest : List SentPkt) (s : State), portRuns s p = true ∧ rest = nacked (sentOf s p) seq :=
  ⟨0, 0, _, sPortSent 0, by decide +kernel, rfl⟩

theorem test_hyps_link_packets_9 :
    ∃ (p : PortId) (c0 c1 c2 c3 : Fin 16384) (s : State), portRuns s p = true :=
  ⟨0, 1, 2, 3, 4, sPort 2, by decide +kernel⟩

theorem test_hyps_link_packets_10 :
    ∃ (p : PortId) (u s : State), portRuns s p = true ∧ mapGet (fun _ => false) s.fabric.ackOwed p = true ∧ u = emit { s with fabric := { s.fabric with ackOwed := mapPut (fun _ => false) s.fabric.ackOwed p false } } (.link p (.ack false ((mapGet (fun _ => 0) s.fabric.rxSeq p + 4095) % 4096))) ∧ (List.range 4).any (fun vc => creditOwed s p vc != 0) = true :=
  ⟨0, _, sPortOwed, by decide +kernel, by decide +kernel, rfl, by decide +kernel⟩

theorem test_hyps_link_packets_11 :
    ∃ (seq : Fin 4096) (hop : Fin 256) (replay : Bool) (lane : Fin 8) (pkt : Pkt) (s : State), gbUp s = true ∧ mapGet (fun _ => false) s.fabric.nak 14 = false :=
  ⟨0, 3, false, 0, .msg emptyMsg, sGb, by decide +kernel⟩

theorem test_hyps_link_packets_12 :
    ∃ (seq : Fin 4096) (s : State), (acked s.gorbin.sent seq).length < s.gorbin.sent.length :=
  ⟨0, sGbSent 0, by decide +kernel⟩

theorem test_hyps_link_packets_13 :
    ∃ (seq : Fin 4096) (rest : List (Sent GbPkt)) (s : State), gbUp s = true ∧ rest = nacked s.gorbin.sent seq :=
  ⟨0, _, sGbSent 0, by decide +kernel, rfl⟩

theorem test_hyps_link_packets_14 :
    ∃ (c0 c1 c2 c3 : Fin 16384) (s : State), gbUp s = true :=
  ⟨1, 2, 3, 4, sGb, by decide +kernel⟩

theorem test_hyps_link_packets_15 :
    ∃ (s : State), gbUp s = true :=
  ⟨sGb, by decide +kernel⟩

theorem test_hyps_link_packets_17 :
    ∃ (p : PortId) (e : EgressPkt) (s : State), (egressOf s p).find? (fun e => e.since + 20000 ≤ now s) = some e :=
  ⟨0, _, sEgress, rfl⟩

theorem test_hyps_link_time_1 :
    ∃ (a p : Nat) (s u : State), timePort s = some (a, p) ∧ rdB s (fxReg 0x128) 0 = true ∧ rdB s (fxReg 0x128) 1 = false ∧ s.fabric.time.window ≠ now s / 10000 + 1 ∧ u = { s with fabric := { s.fabric with time := { s.fabric.time with num := (s.fabric.time.num + 1) % 64, window := now s / 10000 + 1, t1 := now s } } } :=
  ⟨_, _, sTimed, _, rfl, by decide +kernel, by decide +kernel, by decide +kernel, rfl⟩

theorem test_hyps_link_time_2 :
    ∃ (p : PortId) (num : Fin 64) (s : State), portRuns s p = true :=
  ⟨0, 63, sPort 2, by decide +kernel⟩

theorem test_hyps_link_time_3 :
    ∃ (p : PortId) (num : Fin 64) (t2 t3 : Fin 281474976710656) (a : Nat) (offset delay : Int) (past : List Int) (u v s : State), timePort s = some (a, p.val) ∧ num.val = s.fabric.time.num ∧ s.fabric.time.window ≠ 0 ∧ offset = (signedOf 48 (t2.val % 2 ^ 48 + 2 ^ 48 - s.fabric.time.t1 % 2 ^ 48) - signedOf 48 (now s % 2 ^ 48 + 2 ^ 48 - t3.val % 2 ^ 48)) * 8 ∧ delay = (signedOf 48 (now s % 2 ^ 48 + 2 ^ 48 - s.fabric.time.t1 % 2 ^ 48) - signedOf 48 (t3.val % 2 ^ 48 + 2 ^ 48 - t2.val % 2 ^ 48)) * 8 ∧ (past = (if s.fabric.time.via = p.val + 1 then s.fabric.time.delays else [])) ∧ u = { s with fabric := { s.fabric with time := { s.fabric.time with via := p.val + 1, delays := (past ++ [delay]).drop (past.length - 15) } } } ∧ (past.length ≠ 16 ∨ (delay * 16 - past.sum).natAbs ≤ 1024) ∧ v = wrF (wrF u (fxReg 0x130) 32 32 (patternOf 32 offset)) (fxReg 0x130) 16 16 (patternOf 16 delay) :=
  ⟨0, 5, 1100, 1200, _, _, _, _, _, _, sTimeAsked 0, rfl, by decide +kernel, by decide +kernel, rfl, rfl, rfl, rfl, by decide +kernel, rfl⟩

theorem test_hyps_link_time_4 :
    ∃ (p : PortId) (num : Fin 64) (t2 t3 : Fin 281474976710656) (a : Nat) (offset delay : Int) (past : List Int) (u s : State), timePort s = some (a, p.val) ∧ num.val = s.fabric.time.num ∧ s.fabric.time.window ≠ 0 ∧ offset = (signedOf 48 (t2.val % 2 ^ 48 + 2 ^ 48 - s.fabric.time.t1 % 2 ^ 48) - signedOf 48 (now s % 2 ^ 48 + 2 ^ 48 - t3.val % 2 ^ 48)) * 8 ∧ delay = (signedOf 48 (now s % 2 ^ 48 + 2 ^ 48 - s.fabric.time.t1 % 2 ^ 48) - signedOf 48 (t3.val % 2 ^ 48 + 2 ^ 48 - t2.val % 2 ^ 48)) * 8 ∧ (past = (if s.fabric.time.via = p.val + 1 then s.fabric.time.delays else [])) ∧ u = { s with fabric := { s.fabric with time := { s.fabric.time with via := p.val + 1, delays := (past ++ [delay]).drop (past.length - 15) } } } ∧ past.length = 16 ∧ 1024 < (delay * 16 - past.sum).natAbs :=
  ⟨0, 5, 1100, 1200, _, _, _, _, _, sTimeAsked 16, rfl, by decide +kernel, by decide +kernel, rfl, rfl, rfl, rfl, by decide +kernel⟩

theorem test_hyps_memory_access_1 :
    ∃ (a : Agent) (c : Option CtxId) (addr len : Nat) (flips : List (Nat × Nat)) (d : List (Option Byte)) (u v s : State), u = upsetUnits s flips ∧ (c.isNone && !reachesMemory s a) = false ∧ regionOf addr = .lpddr ∧ dramMapped u addr len = true ∧ unsettled u addr len false = false ∧ dramRead u addr len (c.map (fun v => v.val)) = (d, v) :=
  ⟨.yew, none, 64, 32, [], _, _, _, State.reset, rfl, by decide +kernel, by decide +kernel, by decide +kernel, by decide +kernel, rfl⟩

theorem test_hyps_memory_access_2 :
    ∃ (a : Agent) (c : Option CtxId) (addr len : Nat) (flips : List (Nat × Nat)) (u s : State), u = upsetUnits s flips ∧ (c.isNone && !reachesMemory s a) = false ∧ regionOf addr = .lpddr ∧ dramMapped u addr len = true ∧ unsettled u addr len false = true :=
  ⟨.hornbeam, some 3, 64, 32, [], _, sLineHeld, rfl, by decide +kernel⟩

theorem test_hyps_memory_access_3 :
    ∃ (a : Agent) (c : Option CtxId) (addr : Nat) (data : List Byte) (flips : List (Nat × Nat)) (u s : State), u = upsetUnits s flips ∧ (c.isNone && !reachesMemory s a) = false ∧ regionOf addr = .lpddr ∧ dramMapped u addr data.length = true :=
  ⟨.yew, none, 70, [1, 2, 3], [], _, State.reset, rfl, by decide +kernel⟩

theorem test_hyps_memory_access_4 :
    ∃ (a : Nat) (data : List (Option Byte)) (c : Option Nat) (s : State), meetsFlags s a data.length = true ∧ (unitsIn a data.length).any (lateUnit s) = true :=
  ⟨64, [some 1], none, sFlagLate, by decide +kernel⟩

theorem test_hyps_memory_access_5 :
    ∃ (a : Agent) (c : Option CtxId) (addr len : Nat) (data : List Byte) (flips : List (Nat × Nat)) (u s : State), u = upsetUnits s flips ∧ (c.isNone && !reachesMemory s a) = false ∧ (regionOf addr ≠ .lpddr ∨ (dramMapped u addr len = false ∧ dramMapped u addr data.length = false)) :=
  ⟨.yew, none, padBase 0, 4, [1, 2, 3], [], _, State.reset, rfl, by decide +kernel⟩

theorem test_hyps_memory_access_6 :
    ∃ (unit : Nat) (b : Nat × Nat) (s : State), s.dram.writeBacks.find? (fun b => b.1 == unit) = some b ∧ channelFenced s (channelOf s unit) = false ∧ chBusy s (channelOf s unit) = false :=
  ⟨96, _, sMemBack, rfl, by decide +kernel⟩

theorem test_hyps_memory_access_9 :
    ∃ (h : ChanId) (temp : Fin 256) (d : Nat) (s : State), retrainDueAt (readTemp s h temp) h = some d ∧ chState s h = 2 ∧ patrolFirst (readTemp s h temp) h = false :=
  ⟨95, 0, 250000000, sChannel 2, by decide +kernel⟩

theorem test_hyps_memory_access_10 :
    ∃ (h : ChanId) (temp : Fin 256) (idle : Bool) (d : Nat) (u s : State), u = readTemp s h temp ∧ retrainDueAt u h = some d ∧ chState s h = 2 ∧ (idle = false ∨ patrolFirst u h = true) ∧ mapGet (fun _ => 0) u.dram.dueAt h = 0 :=
  ⟨95, 0, false, 250000000, _, sChannel 2, rfl, by decide +kernel⟩

theorem test_hyps_memory_access_11 :
    ∃ (h : ChanId) (s : State), mapGet (fun _ => 0) s.dram.dueAt h ≠ 0 ∧ mapGet (fun _ => 0) s.dram.dueAt h + 10000000 ≤ now s + 1 ∧ chState s h = 2 :=
  ⟨95, sChannelDue, by decide +kernel⟩

theorem test_hyps_memory_access_12 :
    ∃ (h : ChanId) (odecc : Nat) (s : State), (chState s h = 3 ∨ chState s h = 1) :=
  ⟨95, 3, sChannel 3, by decide +kernel⟩

theorem test_hyps_memory_access_13 :
    ∃ (h : ChanId) (odecc : Nat) (s : State), (chState s h = 3 ∨ chState s h = 1) ∧ mapGet (fun _ => false) s.dram.failedOnce h = false :=
  ⟨95, 3, sChannel 3, by decide +kernel⟩

theorem test_hyps_memory_access_14 :
    ∃ (h : ChanId) (odecc : Nat) (s : State), (chState s h = 3 ∨ chState s h = 1) ∧ mapGet (fun _ => false) s.dram.failedOnce h = true :=
  ⟨95, 3, sChannelFailed, by decide +kernel⟩

theorem test_hyps_memory_access_15 :
    ∃ (h : ChanId) (s : State), rdF s (mcReg (h.val / 4) 0x100) 8 8 ≠ 0 ∧ rdF s (mcReg (h.val / 4) 0x100) 8 8 < (mapGet (fun _ => (0, 0)) s.dram.ueCount h).2 ∧ channelFenced s h = false :=
  ⟨95, sUeCount, by decide +kernel⟩

theorem test_hyps_memory_access_17 :
    ∃ (flips : List (Nat × Nat)) (u s : State), u = upsetUnits s flips ∧ rdB u (mmReg 0x100) 1 = true ∧ u.dram.scrubPass * patrolWindow ≤ now u ∧ rdF u (mmReg 0x110) 0 30 * 512 < dramCap u ∧ scrubYields u (channelOf u (rdF u (mmReg 0x110) 0 30 * 512)) = false ∧ u.dram.scrubUnit < 15 :=
  ⟨[], _, sScrubOn, rfl, by decide +kernel⟩

theorem test_hyps_memory_access_18 :
    ∃ (flips : List (Nat × Nat)) (u s : State), u = upsetUnits s flips ∧ rdF u (mmReg 0x110) 0 30 * 512 < dramCap u ∧ scrubYields u (channelOf u (rdF u (mmReg 0x110) 0 30 * 512)) = true :=
  ⟨[], _, sScrubBusy, rfl, by decide +kernel⟩

theorem test_hyps_memory_access_19 :
    ∃ (s : State), rdB s (mmReg 0x108) 9 = false ∧ (s.dram.scrubPass + 1) * patrolWindow ≤ now s :=
  ⟨sDay, by decide +kernel⟩

theorem test_hyps_memory_registers_1 :
    ∃ (a : Agent) (ctl : CtlId) (mask : Fin 16) (v : W64) (s : State), v = setField (rd s (mcReg ctl 0x100)) 4 4 mask ∧ writeOk s a (mcReg ctl 0x100) v = true :=
  ⟨.hornbeam, 23, 8, _, State.reset, rfl, by decide +kernel⟩

theorem test_hyps_memory_registers_2 :
    ∃ (a : Agent) (v w : W64) (s : State), v = setField (rd s (mmReg 0x100)) 0 1 1 ∧ writeOk s a (mmReg 0x100) v = true ∧ w = merged s (mmReg 0x100) 3 v ∧ bitOf w 0 = true ∧ anyResident s = false :=
  ⟨.hornbeam, _, _, State.reset, rfl, by decide +kernel, rfl, by decide +kernel⟩

theorem test_hyps_memory_registers_3 :
    ∃ (a : Agent) (n : Fin 64) (limit : Bool) (v : W64) (s : State), (writeOk s a (mmReg ((if limit then 0x208 else 0x200) + 0x10 * n.val)) v = true) :=
  ⟨.hornbeam, 63, true, guardOf 5, State.reset, by decide +kernel⟩

theorem test_hyps_memory_registers_4 :
    ∃ (a : Agent) (n : Fin 64) (v : W64) (s : State), writeOk s a (mmReg (0x200 + 0x10 * n.val)) v = true ∧ bitOf v 31 = false :=
  ⟨.hornbeam, 63, guardOf 5, State.reset, by decide +kernel⟩

theorem test_hyps_memory_registers_5 :
    ∃ (a : Agent) (m : Fin 3) (v : W64) (u s : State), writeOk s a (mmReg (0x118 + 8 * m.val)) v = true ∧ fenceMask s m &&& (2 ^ 32 - 1 - fieldOf v 0 32) = 0 ∧ u = each ((List.range 32).filter (fun i => bitOf v i)) (fun x i => fenceChannel x (32 * m + i) 0) s :=
  ⟨.hornbeam, 2, guardOf 1, _, sFenceBit, by decide +kernel, by decide +kernel, rfl⟩

theorem test_hyps_memory_registers_6 :
    ∃ (a : Agent) (m : Fin 3) (v : W64) (s : State), writeOk s a (mmReg (0x118 + 8 * m.val)) v = true ∧ fenceMask s m &&& (2 ^ 32 - 1 - fieldOf v 0 32) ≠ 0 :=
  ⟨.hornbeam, 2, guardOf 2, sFenceBit, by decide +kernel⟩

theorem test_hyps_companion_requests_1 :
    ∃ (h : GbHdr) (u s : State), gbUp s = true ∧ gbWell h 0x01 (h.len == 0) = true ∧ u = gbResume (linkAccept s 14) ∧ gbBlocked u h = false ∧ (regRead u .companion h.addr).1 = .ok :=
  ⟨⟨0x01, 5, 0, tbReg 0x100, 0, 0⟩, _, sGb, by decide +kernel, by decide +kernel, rfl, by decide +kernel⟩

theorem test_hyps_companion_requests_2 :
    ∃ (h : GbHdr) (u s : State), gbUp s = true ∧ gbWell h 0x01 (h.len == 0) = true ∧ u = gbResume (linkAccept s 14) ∧ gbBlocked u h = false ∧ (regRead u .companion h.addr).1 = .denied :=
  ⟨⟨0x01, 5, 0, hwReg 0x108, 0, 0⟩, _, sGb, by decide +kernel, by decide +kernel, rfl, by decide +kernel⟩

theorem test_hyps_companion_requests_3 :
    ∃ (h : GbHdr) (v : W64) (u s : State), gbUp s = true ∧ gbWell h 0x02 (h.len == 8) = true ∧ u = gbResume (linkAccept s 14) ∧ gbBlocked u h = false :=
  ⟨⟨0x02, 0, 8, csReg 0x108, 0, 0⟩, 3, _, sGb, by decide +kernel, by decide +kernel, rfl, by decide +kernel⟩

theorem test_hyps_companion_requests_4 :
    ∃ (h : GbHdr) (d : List (Option Byte)) (v : State) (u s : State), gbUp s = true ∧ gbWell h 0x03 (ucShape h && !ucCrosses h) = true ∧ u = gbResume (linkAccept s 14) ∧ gbBlocked u h = false ∧ gbRefused u h false = false ∧ regionOf h.addr = .lpddr ∧ dramMapped u h.addr h.len = true ∧ unsettled u h.addr h.len false = false ∧ dramRead u h.addr h.len none = (d, v) :=
  ⟨⟨0x03, 5, 8, 64, 0, 0⟩, _, _, _, sGb, by decide +kernel, by decide +kernel, rfl, by decide +kernel, by decide +kernel, by decide +kernel, by decide +kernel, by decide +kernel, rfl⟩

theorem test_hyps_companion_requests_5 :
    ∃ (h : GbHdr) (u s : State), gbUp s = true ∧ gbWell h 0x03 (ucShape h && !ucCrosses h) = true ∧ u = gbResume (linkAccept s 14) ∧ gbBlocked u h = false ∧ gbRefused u h false = false ∧ regionOf h.addr = .lpddr ∧ dramMapped u h.addr h.len = true ∧ unsettled u h.addr h.len false = true :=
  ⟨⟨0x03, 5, 8, 64, 0, 0⟩, _, sGbLine 2, by decide +kernel, by decide +kernel, rfl, by decide +kernel⟩

theorem test_hyps_companion_requests_6 :
    ∃ (h : GbHdr) (u s : State), gbUp s = true ∧ gbWell h 0x03 (ucShape h && !ucCrosses h) = true ∧ u = gbResume (linkAccept s 14) ∧ gbBlocked u h = false ∧ gbRefused u h false = false ∧ regionOf h.addr = .lpddr ∧ dramMapped u h.addr h.len = false :=
  ⟨⟨0x03, 5, 8, 0x5FFFFFFFC0, 0, 0⟩, _, wrF sGb (mmReg 0x108) 0 8 1, by decide +kernel, by decide +kernel, rfl, by decide +kernel⟩

theorem test_hyps_companion_requests_7 :
    ∃ (h : GbHdr) (data : List Byte) (u s : State), gbUp s = true ∧ gbWell h 0x04 (ucShape h && data.length == h.len && !ucCrosses h) = true ∧ u = gbResume (linkAccept s 14) ∧ gbBlocked u h = false ∧ gbRefused u h true = false ∧ regionOf h.addr = .lpddr ∧ dramMapped u h.addr h.len = true ∧ unsettled u h.addr h.len true = false ∧ (flagCheck u h.addr (data.map some) true).1 = true :=
  ⟨⟨0x04, 0, 8, 64, 0, 0⟩, [1, 2, 3, 4, 5, 6, 7, 8], _, sGb, by decide +kernel, by decide +kernel, rfl, by decide +kernel⟩

theorem test_hyps_companion_requests_8 :
    ∃ (h : GbHdr) (data : List Byte) (u s : State), gbUp s = true ∧ gbWell h 0x04 (ucShape h && data.length == h.len && !ucCrosses h) = true ∧ u = gbResume (linkAccept s 14) ∧ gbBlocked u h = false ∧ gbRefused u h true = false ∧ regionOf h.addr = .lpddr ∧ dramMapped u h.addr h.len = true ∧ unsettled u h.addr h.len true = false ∧ (flagCheck u h.addr (data.map some) true).1 = false :=
  ⟨⟨0x04, 0, 8, 64, 0, 0⟩, [1, 2, 3, 4, 5, 6, 7, 8], _, sGbFlag, by decide +kernel, by decide +kernel, rfl, by decide +kernel⟩

theorem test_hyps_companion_requests_9 :
    ∃ (h : GbHdr) (data : List Byte) (u s : State), gbUp s = true ∧ gbWell h 0x04 (ucShape h && data.length == h.len && !ucCrosses h) = true ∧ u = gbResume (linkAccept s 14) ∧ gbBlocked u h = false ∧ gbRefused u h true = false ∧ regionOf h.addr = .lpddr ∧ dramMapped u h.addr h.len = true ∧ unsettled u h.addr h.len true = true :=
  ⟨⟨0x04, 0, 8, 64, 0, 0⟩, [1, 2, 3, 4, 5, 6, 7, 8], _, sGbLine 2, by decide +kernel, by decide +kernel, rfl, by decide +kernel⟩

theorem test_hyps_companion_requests_10 :
    ∃ (h : GbHdr) (u s : State), gbUp s = true ∧ gbWell h 0x05 (lineShape h) = true ∧ u = gbResume (linkAccept s 14) ∧ gbBlocked u h = false ∧ reachesMemory u .companion = true ∧ regionOf h.addr = .lpddr ∧ meetsFlags u h.addr 64 = false ∧ dramMapped u h.addr 64 = true ∧ snooping u (h.addr / 64) = false ∧ lateOn u (h.addr / 64) = false ∧ channelWaits u h.addr 64 = false ∧ dirAt u (h.addr / 64) = 0 ∧ (dirSet u (h.addr / 64)).length < 16 :=
  ⟨⟨0x05, 5, 0, 64, 0, 0⟩, _, sGb, by decide +kernel, by decide +kernel, rfl, by decide +kernel⟩

theorem test_hyps_companion_requests_11 :
    ∃ (h : GbHdr) (v : DirLine) (u s : State), gbUp s = true ∧ gbWell h 0x05 (lineShape h) = true ∧ u = gbResume (linkAccept s 14) ∧ gbBlocked u h = false ∧ reachesMemory u .companion = true ∧ regionOf h.addr = .lpddr ∧ meetsFlags u h.addr 64 = false ∧ dramMapped u h.addr 64 = true ∧ snooping u (h.addr / 64) = false ∧ lateOn u (h.addr / 64) = false ∧ channelWaits u h.addr 64 = false ∧ dirAt u (h.addr / 64) = 0 ∧ 16 ≤ (dirSet u (h.addr / 64)).length ∧ (dirSet u (h.addr / 64)).head? = some v :=
  ⟨⟨0x05, 5, 0, 64, 0, 0⟩, _, _, sGbFull, by decide +kernel, by decide +kernel, rfl, by decide +kernel, by decide +kernel, by decide +kernel, (by decide +kernel), by decide +kernel, by decide +kernel, by decide +kernel, by decide +kernel, (by decide +kernel), by decide +kernel, rfl⟩

theorem test_hyps_companion_requests_12 :
    ∃ (h : GbHdr) (u s : State), gbUp s = true ∧ gbWell h 0x06 (lineShape h) = true ∧ u = gbResume (linkAccept s 14) ∧ gbBlocked u h = false ∧ reachesMemory u .companion = true ∧ regionOf h.addr = .lpddr ∧ meetsFlags u h.addr 64 = false ∧ dramMapped u h.addr 64 = true ∧ snooping u (h.addr / 64) = false ∧ lateOn u (h.addr / 64) = false ∧ channelWaits u h.addr 64 = false ∧ dirAt u (h.addr / 64) = 0 ∧ (dirSet u (h.addr / 64)).length < 16 :=
  ⟨⟨0x06, 5, 0, 64, 0, 0⟩, _, sGb, by decide +kernel, by decide +kernel, rfl, by decide +kernel⟩

theorem test_hyps_companion_requests_13 :
    ∃ (h : GbHdr) (v : DirLine) (u s : State), gbUp s = true ∧ gbWell h 0x06 (lineShape h) = true ∧ u = gbResume (linkAccept s 14) ∧ gbBlocked u h = false ∧ reachesMemory u .companion = true ∧ regionOf h.addr = .lpddr ∧ meetsFlags u h.addr 64 = false ∧ dramMapped u h.addr 64 = true ∧ snooping u (h.addr / 64) = false ∧ lateOn u (h.addr / 64) = false ∧ channelWaits u h.addr 64 = false ∧ dirAt u (h.addr / 64) = 0 ∧ 16 ≤ (dirSet u (h.addr / 64)).length ∧ (dirSet u (h.addr / 64)).head? = some v :=
  ⟨⟨0x06, 5, 0, 64, 0, 0⟩, _, _, sGbFull, by decide +kernel, by decide +kernel, rfl, by decide +kernel, by decide +kernel, by decide +kernel, (by decide +kernel), by decide +kernel, by decide +kernel, by decide +kernel, by decide +kernel, (by decide +kernel), by decide +kernel, rfl⟩

theorem test_hyps_companion_requests_14 :
    ∃ (h : GbHdr) (u s : State), gbUp s = true ∧ gbWell h 0x07 (lineShape h) = true ∧ u = gbResume (linkAccept s 14) ∧ gbBlocked u h = false ∧ reachesMemory u .companion = true ∧ regionOf h.addr = .lpddr ∧ meetsFlags u h.addr 64 = false ∧ dramMapped u h.addr 64 = true ∧ snooping u (h.addr / 64) = false ∧ lateOn u (h.addr / 64) = false ∧ dirAt u (h.addr / 64) = 1 :=
  ⟨⟨0x07, 5, 0, 64, 0, 0⟩, _, sGbLine 1, by decide +kernel, by decide +kernel, rfl, by decide +kernel⟩

theorem test_hyps_companion_requests_15 :
    ∃ (h : GbHdr) (u s : State), gbUp s = true ∧ gbWell h 0x07 (lineShape h) = true ∧ u = gbResume (linkAccept s 14) ∧ gbBlocked u h = false ∧ reachesMemory u .companion = true ∧ regionOf h.addr = .lpddr ∧ meetsFlags u h.addr 64 = false ∧ dramMapped u h.addr 64 = true ∧ snooping u (h.addr / 64) = false ∧ lateOn u (h.addr / 64) = false ∧ dirAt u (h.addr / 64) = 3 :=
  ⟨⟨0x07, 5, 0, 64, 0, 0⟩, _, sGbLine 3, by decide +kernel, by decide +kernel, rfl, by decide +kernel⟩

theorem test_hyps_companion_requests_16 :
    ∃ (h : GbHdr) (data : List Byte) (u s : State), gbUp s = true ∧ gbWell h 0x08 (h.len == 64 && data.length == 64 && h.addr % 64 == 0) = true ∧ u = gbResume (linkAccept s 14) ∧ gbBlocked u h = false ∧ regionOf h.addr = .lpddr ∧ meetsFlags u h.addr 64 = false ∧ dramMapped u h.addr 64 = true ∧ dirAt u (h.addr / 64) = 2 :=
  ⟨⟨0x08, 0, 64, 64, 0, 0⟩, List.replicate 64 7, _, sGbLine 2, by decide +kernel, by decide +kernel, rfl, by decide +kernel⟩

theorem test_hyps_companion_requests_17 :
    ∃ (h : GbHdr) (u s : State), gbUp s = true ∧ gbWell h 0x09 (lineShape h) = true ∧ u = gbResume (linkAccept s 14) ∧ gbBlocked u h = false ∧ regionOf h.addr = .lpddr ∧ meetsFlags u h.addr 64 = false ∧ dramMapped u h.addr 64 = true ∧ (dirAt u (h.addr / 64) = 1 ∨ dirAt u (h.addr / 64) = 2) :=
  ⟨⟨0x09, 0, 0, 64, 0, 0⟩, _, sGbLine 1, by decide +kernel, by decide +kernel, rfl, by decide +kernel⟩

theorem test_hyps_companion_requests_18 :
    ∃ (h : GbHdr) (e : GwLine) (u s : State), gbUp s = true ∧ gbWell h 0x20 (lineShape h) = true ∧ u = oweCredit (linkAccept s 14) 14 1 (gbFlits 0) ∧ gwAt u (h.addr / 64) = some e :=
  ⟨⟨0x20, 9, 0, 64, 0, 0⟩, _, _, sGw 3, by decide +kernel, by decide +kernel, rfl, rfl⟩

theorem test_hyps_companion_requests_19 :
    ∃ (h : GbHdr) (u s : State), gbUp s = true ∧ gbWell h 0x20 (lineShape h) = true ∧ u = oweCredit (linkAccept s 14) 14 1 (gbFlits 0) ∧ gwAt u (h.addr / 64) = none :=
  ⟨⟨0x20, 9, 0, 64, 0, 0⟩, _, sGb, by decide +kernel, by decide +kernel, rfl, rfl⟩

theorem test_hyps_companion_requests_20 :
    ∃ (h : GbHdr) (e : GwLine) (u s : State), gbUp s = true ∧ gbWell h 0x21 (lineShape h) = true ∧ u = oweCredit (linkAccept s 14) 14 1 (gbFlits 0) ∧ gwAt u (h.addr / 64) = some e :=
  ⟨⟨0x21, 9, 0, 64, 0, 0⟩, _, _, sGw 2, by decide +kernel, by decide +kernel, rfl, rfl⟩

theorem test_hyps_companion_requests_21 :
    ∃ (h : GbHdr) (u s : State), gbUp s = true ∧ gbWell h 0x21 (lineShape h) = true ∧ u = oweCredit (linkAccept s 14) 14 1 (gbFlits 0) ∧ gwAt u (h.addr / 64) = none :=
  ⟨⟨0x21, 9, 0, 64, 0, 0⟩, _, sGb, by decide +kernel, by decide +kernel, rfl, rfl⟩

theorem test_hyps_companion_requests_22 :
    ∃ (h : GbHdr) (value : W64) (n : Nat) (u s : State), gbUp s = true ∧ gbWell h 0x0A (h.len == 8) = true ∧ u = gbResume (linkAccept s 14) ∧ gbBlocked u h = false ∧ halted u = false ∧ n = h.addr % 1024 ∧ bitOf (dbDest u n) 63 = true :=
  ⟨⟨0x0A, 0, 8, 7, 0, 0⟩, 3, _, _, sDoorbell 4, by decide +kernel, by decide +kernel, rfl, by decide +kernel, by decide +kernel, rfl, by decide +kernel⟩

theorem test_hyps_companion_requests_23 :
    ∃ (h : GbHdr) (data : List Byte) (m : Msg) (u s : State), gbUp s = true ∧ gbWell h 0x0B (msgShape h data) = true ∧ u = gbResume (linkAccept s 14) ∧ gbBlocked u h = false ∧ halted u = false ∧ m = gbMsg u data ∧ gbSends u m.hdr.context = true ∧ hasCredit u unitGorbin m.hdr.dst m.hdr.context (hdrSlots m.hdr) = true :=
  ⟨⟨0x0B, 5, 8, 0, 0, 0⟩, [0, 0, 0, 0, 0x30, 0, 4, 0], _, _, sMsgCredit, by decide +kernel, by decide +kernel, rfl, by decide +kernel, by decide +kernel, rfl, by decide +kernel⟩

theorem test_hyps_companion_requests_24 :
    ∃ (h : GbHdr) (data : List Byte) (m : Msg) (u s : State), gbUp s = true ∧ gbWell h 0x0B (msgShape h data) = true ∧ u = gbResume (linkAccept s 14) ∧ gbBlocked u h = false ∧ halted u = false ∧ m = gbMsg u data ∧ (gbSends u m.hdr.context && hasCredit u unitGorbin m.hdr.dst m.hdr.context (hdrSlots m.hdr)) = false :=
  ⟨⟨0x0B, 5, 8, 0, 0, 0⟩, [0, 0, 0, 0, 0x30, 0, 4, 0], _, _, sGb, by decide +kernel, by decide +kernel, rfl, by decide +kernel, by decide +kernel, rfl, by decide +kernel⟩

theorem test_hyps_companion_requests_25 :
    ∃ (h : GbHdr) (value : W64) (data : List Byte) (u s : State), gbUp s = true ∧ u = gbResume (linkAccept s 14) ∧ gbBlocked u h = false ∧ halted u = true :=
  ⟨⟨0x0A, 0, 8, 7, 0, 0⟩, 3, [], _, sGbHalted, by decide +kernel, rfl, by decide +kernel⟩

theorem test_hyps_companion_requests_26 :
    ∃ (h : GbHdr) (v : W64) (data d : List Byte) (i : Instr) (posted : Bool) (u s : State), gbUp s = true ∧ u = gbResume (linkAccept s 14) ∧ (i, d, posted, true) ∈ gbForms h v data ∧ gbBlocked u h = true :=
  ⟨⟨0x01, 5, 0, tbReg 0x100, 0, 0⟩, 0, [], [], _, _, _, sGbWaits, by decide +kernel, rfl, .head _, by decide +kernel⟩

theorem test_hyps_companion_requests_27 :
    ∃ (h : GbHdr) (v : W64) (data d : List Byte) (i : Instr) (posted : Bool) (u s : State), gbUp s = true ∧ u = report (oweCredit (gbResume (linkAccept s 14)) 14 2 (gbFlits d.length)) gbPage 0x0903 ∧ (i, d, posted, false) ∈ gbForms h v data :=
  ⟨⟨0x01, 5, 8, tbReg 0x100, 0, 0⟩, 0, [], [], _, _, _, sGb, by decide +kernel, rfl, .head _⟩

theorem test_hyps_companion_requests_28 :
    ∃ (h : GbHdr) (v : W64) (data : List Byte) (i : Instr) (s : State), gbUp s = false ∧ i ∈ [.regRd h, .regWr h v, .memRdUc h, .memWrUc h data, .lineRdS h, .lineRdX h, .lineUpg h, .lineWb h data, .lineEvict h, .snpInv h, .snpShr h, .doorbell h v, .msg h data] :=
  ⟨⟨0x01, 5, 0, tbReg 0x100, 0, 0⟩, 0, [], _, State.reset, by decide +kernel, .head _⟩

theorem test_hyps_device_requests_1 :
    ∃ (tag : Fin 4096) (r : GbReq) (v s : State), gbUp s = true ∧ gbReq s tag = some r ∧ r.opc = 0x20 ∧ v = gbDone (takeCrossing (oweCredit (linkAccept s 14) 14 0 (gbFlits 0)) (r.addr / 64)) tag ∧ dirAt v (r.addr / 64) ≠ 3 :=
  ⟨5, _, _, sSnoop 0x20 0, by decide +kernel, rfl, rfl, rfl, by decide +kernel⟩

theorem test_hyps_device_requests_2 :
    ∃ (tag : Fin 4096) (r : GbReq) (v s : State), gbUp s = true ∧ gbReq s tag = some r ∧ (r.opc = 0x20 ∨ r.opc = 0x21) ∧ v = gbDone (takeCrossing (oweCredit (linkAccept s 14) 14 0 (gbFlits 0)) (r.addr / 64)) tag ∧ dirAt v (r.addr / 64) = 3 :=
  ⟨5, _, _, sSnoop 0x20 3, by decide +kernel, rfl, by decide +kernel, rfl, by decide +kernel⟩

theorem test_hyps_device_requests_3 :
    ∃ (tag : Fin 4096) (data : List Byte) (r : GbReq) (v s : State), gbUp s = true ∧ data.length = 64 ∧ gbReq s tag = some r ∧ r.opc = 0x21 ∧ v = gbDone (takeCrossing (oweCredit (linkAccept s 14) 14 0 (gbFlits 64)) (r.addr / 64)) tag ∧ (dirAt v (r.addr / 64) = 1 ∨ dirAt v (r.addr / 64) = 2) :=
  ⟨5, List.replicate 64 3, _, _, sSnoop 0x21 2, by decide +kernel, by decide +kernel, rfl, rfl, rfl, by decide +kernel⟩

theorem test_hyps_device_requests_4 :
    ∃ (tag : Fin 4096) (r : GbReq) (e : GwLine) (v s : State), gbUp s = true ∧ gbReq s tag = some r ∧ r.opc = 0x12 ∧ v = gbDone (oweCredit (linkAccept s 14) 14 0 (gbFlits 0)) tag ∧ gwAt v (r.addr / 64) = some e :=
  ⟨5, _, _, _, sGwReq 0x12, by decide +kernel, rfl, rfl, rfl, rfl⟩

theorem test_hyps_device_requests_5 :
    ∃ (tag : Fin 4096) (status : Fin 256) (r : GbReq) (s : State), gbUp s = true ∧ gbReq s tag = some r ∧ (r.opc = 0x10 ∨ r.opc = 0x11 ∨ r.opc = 0x12) ∧ status ≠ 0 :=
  ⟨5, 3, _, sGwReq 0x10, by decide +kernel, rfl, by decide⟩

theorem test_hyps_device_requests_6 :
    ∃ (tag : Fin 4096) (data : List Byte) (r : GbReq) (s : State), gbUp s = true ∧ gbReq s tag = some r ∧ (r.opc = 0x10 ∨ r.opc = 0x11) ∧ data.length = 64 :=
  ⟨5, List.replicate 64 3, _, sGwReq 0x10, by decide +kernel, rfl, by decide +kernel⟩

theorem test_hyps_device_requests_7 :
    ∃ (tag : Fin 4096) (r : GbReq) (s : State), gbReq s tag = some r ∧ (r.opc = 0x20 ∨ r.opc = 0x21) ∧ r.since + 100000 ≤ now s :=
  ⟨5, _, sSnoopLate, rfl, by decide +kernel⟩

theorem test_hyps_device_requests_8 :
    ∃ (tag : Fin 4096) (r : GbReq) (s : State), gbReq s tag = some r ∧ r.opc ≠ 0x20 ∧ r.opc ≠ 0x21 ∧ r.since + 1000000 ≤ now s :=
  ⟨5, _, sReqLate, rfl, by decide +kernel⟩

theorem test_hyps_device_requests_9 :
    ∃ (a : Agent) (addr len : Nat) (d : List Byte) (u s : State), reachesMemory s a = true ∧ regionOf addr = .companion ∧ regionOf (addr + len - 1) = .companion ∧ len ≠ 0 ∧ gwAccess s addr len none = (.ok d, u) :=
  ⟨.hornbeam, hostBase + 64, 8, _, _, sGw 2, by decide +kernel, by decide +kernel, by decide +kernel, by decide, rfl⟩

theorem test_hyps_device_requests_10 :
    ∃ (a : Agent) (addr len : Nat) (data : List Byte) (u s : State), reachesMemory s a = true ∧ regionOf addr = .companion ∧ regionOf (addr + data.length - 1) = .companion ∧ data ≠ [] ∧ gwAccess s addr data.length (some (data.map some)) = (.wait, u) :=
  ⟨.hornbeam, hostBase + 64, 0, [1], _, sGb, by decide +kernel, by decide +kernel, by decide +kernel, by decide, rfl⟩

theorem test_hyps_device_requests_11 :
    ∃ (a : Agent) (addr len st : Nat) (u s : State), reachesMemory s a = true ∧ regionOf addr = .companion ∧ regionOf (addr + len - 1) = .companion ∧ len ≠ 0 ∧ gwAccess s addr len none = (.fail st, u) :=
  ⟨.hornbeam, hostBase + 64, 8, _, _, sGwFailed, by decide +kernel, by decide +kernel, by decide +kernel, by decide +kernel, rfl⟩

theorem test_hyps_device_requests_12 :
    ∃ (n : Fin 1024) (m : Msg) (s : State), bitOf (dbDest s n) 63 = true ∧ dbValue s n ≠ 0 ∧ hasCredit s unitGorbin (fieldOf (dbDest s n) 0 36) (fieldOf (dbBind s n) 8 8) 1 = true ∧ (m = buildMsg s unitGorbin 0xFF (fieldOf (dbBind s n) 8 8) (fieldOf (dbDest s n) 0 36) (fieldOf (dbBind s n) 32 10) (if bitOf (dbDest s n) 62 then 3 else 2) (bytesOf 8 (dbValue s n).toNat)) :=
  ⟨7, _, sDoorbellReady, by decide +kernel, by decide +kernel, by decide +kernel, rfl⟩

theorem test_hyps_device_requests_13 :
    ∃ (s : State), gbUp s = true :=
  ⟨sGb, by decide +kernel⟩

theorem test_hyps_device_requests_14 :
    ∃ (lanes : Fin 256) (serial : Fin 16777216) (mask : Nat) (was : W64) (w u s : State), gbState s = 1 ∧ mask = lanes.val &&& rdF s (gbReg 0x100) 24 8 ∧ mask ≠ 0 ∧ was = rd s (gbReg 0x110) ∧ w = wr s (gbReg 0x110) (BitVec.ofNat 64 (2 ^ 63 + serial.val)) ∧ u = linkInit (emit w (.link 14 (.ident (deviceId w) 14 (Config.serial % 2 ^ 24)))) 14 :=
  ⟨255, 7, _, _, _, _, sGbAt 1 0, by decide +kernel, rfl, by decide +kernel, rfl, rfl, rfl⟩

theorem test_hyps_device_requests_15 :
    ∃ (lanes : Fin 256) (serial : Fin 16777216) (mask ordered : Nat) (u s : State), gbState s = 3 ∧ mask = lanes.val &&& rdF s (gbReg 0x100) 24 8 ∧ ordered = mapGet (fun _ => 0) s.fabric.retrain 14 ∧ mask &&& ordered ≠ 0 ∧ u = { s with fabric := { s.fabric with retrain := mapPut (fun _ => 0) s.fabric.retrain 14 (ordered &&& (255 - mask)) } } :=
  ⟨255, 7, _, _, _, sGbRetrain, by decide +kernel, rfl, rfl, by decide +kernel, rfl⟩

theorem test_hyps_gorbin_registers_1 :
    ∃ (a : Agent) (m : Fin 4) (v : W64) (s : State), writeOk s a (gbReg (0x120 + 8 * m.val)) v = true ∧ v = 0 :=
  ⟨.hornbeam, 3, 0, State.reset, by decide +kernel, rfl⟩

theorem test_hyps_gorbin_registers_2 :
    ∃ (a : Agent) (m : Fin 4) (v : W64) (s : State), writeOk s a (gbReg (0x120 + 8 * m.val)) v = true ∧ v ≠ 0 ∧ (List.range 64).any (fun i => bitOf v i && licensedContexts s ≤ 64 * m + i) = false ∧ (List.range 64).any (fun i => bitOf v i && !rdB s (gbReg (0x120 + 8 * m.val)) i && boundAt s 9 (64 * m + i)) = false :=
  ⟨.hornbeam, 0, 0x8001, State.reset, by decide +kernel⟩

theorem test_hyps_gorbin_registers_3 :
    ∃ (a : Agent) (s : State), readOk s a (gbReg 0x160) = true :=
  ⟨.hornbeam, State.reset, by decide +kernel⟩

theorem test_hyps_gorbin_registers_4 :
    ∃ (a : Agent) (v : W64) (s : State), writeOk s a (gbReg 0x160) v = true :=
  ⟨.hornbeam, 0x300, State.reset, by decide +kernel⟩

theorem test_hyps_gorbin_registers_5 :
    ∃ (a : Agent) (s : State), readOk s a (gbReg 0x118) = true :=
  ⟨.companion, sMsgFail, by decide +kernel⟩

theorem test_hyps_gorbin_registers_6 :
    ∃ (a : Agent) (len : W32) (v : W64) (s : State), v = BitVec.ofNat 64 (place 63 1 1 + len.toNat) ∧ writeOk s a (gbReg 0x178) v = true :=
  ⟨.companion, 128, _, sBootWait, rfl, by decide +kernel⟩

theorem test_hyps_log_and_time_1 :
    ∃ (k : Fin 289) (r : Record) (rs : List Record) (s : State), mapGet (fun _ => []) s.log.coll k = r :: rs :=
  ⟨288, _, _, sLogged, rfl⟩

theorem test_hyps_log_and_time_2 :
    ∃ (a : Agent) (s : State), readOk s a (logReg 0x200) = true :=
  ⟨.companion, State.reset, by decide +kernel⟩

theorem test_hyps_log_and_time_3 :
    ∃ (a : Agent) (index : Fin 4096) (s : State), writeOk s a (logReg 0x110) (BitVec.ofNat 64 index.val) = true ∧ logUnread s < (index.val + 4096 - rdF s (logReg 0x110) 0 12) % 4096 :=
  ⟨.companion, 1, State.reset, by decide +kernel⟩

theorem test_hyps_log_and_time_4 :
    ∃ (a : Agent) (index : Fin 4096) (s : State), writeOk s a (logReg 0x110) (BitVec.ofNat 64 index.val) = true ∧ (index.val + 4096 - rdF s (logReg 0x110) 0 12) % 4096 ≤ logUnread s :=
  ⟨.companion, 0, State.reset, by decide +kernel⟩

theorem test_hyps_log_and_time_5 :
    ∃ (a : Agent) (v : W64) (s : State), writeOk s a (devReg 2 0x108) v = true ∧ hbReady s = false ∧ s.boot.bootArg = none :=
  ⟨.hornbeam, 5, State.reset, by decide +kernel, by decide +kernel, rfl⟩

theorem test_hyps_log_and_time_6 :
    ∃ (a : Agent) (v : W64) (s : State), writeOk s a (devReg 2 0x108) v = true ∧ hbReady s = true :=
  ⟨.hornbeam, 5, sReady, by decide +kernel⟩

theorem test_hyps_log_and_time_7 :
    ∃ (a : Agent) (v : W64) (s : State), writeOk s a (devReg 2 0x110) v = true :=
  ⟨.hornbeam, 0xFFFFFFFFFFFFFFF0, State.reset, by decide +kernel⟩

theorem test_hyps_log_and_time_8 :
    ∃ (s : State), s.time.slew = 0 :=
  ⟨State.reset, rfl⟩

theorem test_hyps_log_and_time_9 :
    ∃ (c : ClusterId) (tile router : Fin 1048576) (k p : Nat) (h : HourStat) (u s1 s2 s3 s : State), k = now s / 1000 - 1 ∧ now s / 1000 ≠ 0 ∧ mapGet (fun _ => 0) s.yew.paced c ≠ now s / 1000 ∧ u = { s with yew := { s.yew with paced := mapPut (fun _ => 0) s.yew.paced c (now s / 1000) } } ∧ (p = (if 2 ≤ clusterPower u c then 0 else tile.val)) ∧ s1 = wr u (clusterReg c 0x100) (BitVec.ofNat 64 (place 40 20 router.val + place 20 20 p + k % 2 ^ 20)) ∧ s2 = wrF (wrF (wrF s1 (clusterReg c 0x108) 40 20 (max (rdF u (clusterReg c 0x108) 40 20) p)) (clusterReg c 0x108) 20 20 (min (rdF u (clusterReg c 0x108) 20 20) p)) (clusterReg c 0x108) 0 20 (min (rdF u (clusterReg c 0x108) 0 20 + 1) 0xFFFFF) ∧ h = hourOf u (k * 1000 / hourNs) c ∧ s3 = setHour s2 (k * 1000 / hourNs) c { h with sum := h.sum + p, count := h.count + 1, low := min h.low p } :=
  ⟨287, 900, 800, _, _, _, _, _, _, _, sAtDt 1000 [], rfl, by decide +kernel, by decide +kernel, rfl, rfl, rfl, rfl, rfl, rfl⟩

theorem test_hyps_log_and_time_10 :
    ∃ (c : ClusterId) (tile router : Fin 1048576) (s : State), mapGet (fun _ => 0) s.yew.paced c = now s / 1000 :=
  ⟨287, 900, 800, State.reset, by decide +kernel⟩

theorem test_hyps_log_and_time_11 :
    ∃ (a : Agent) (c : ClusterId) (s : State), readOk s a (clusterReg c 0x108) = true :=
  ⟨.companion, 287, State.reset, by decide +kernel⟩

theorem test_hyps_interrupt_controller_1 :
    ∃ (n : SourceId) (s : State), s.irq.events.contains n.val = true :=
  ⟨383, sEvent, by decide +kernel⟩

theorem test_hyps_interrupt_controller_2 :
    ∃ (a : Agent) (t : Fin 4) (g : Fin 32) (mask : Fin 65536) (s : State), writeOk s a (icReg (0x308 + 0x10 * t.val)) (BitVec.ofNat 64 (place 32 5 g.val + mask.val)) = true :=
  ⟨.companion, 3, 31, 0xFFFF, State.reset, by decide +kernel⟩

theorem test_hyps_interrupt_controller_3 :
    ∃ (a : Agent) (v : W64) (s : State), writeOk s a (icReg 0x180) v = true :=
  ⟨.companion, 0x8000000000000001, State.reset, by decide +kernel⟩

theorem test_hyps_interrupt_controller_4 :
    ∃ (a : Agent) (v : W64) (s : State), writeOk s a (icReg 0x188) v = true :=
  ⟨.companion, 1, State.reset, by decide +kernel⟩

theorem test_hyps_interrupt_controller_5 :
    ∃ (g : Fin 32) (u s : State), mapGet (fun _ => 0) s.irq.holdEnd g ≠ 0 ∧ mapGet (fun _ => 0) s.irq.holdEnd g ≤ now s ∧ mapGet (fun _ => false) s.irq.duringHold g = true ∧ u = wrB { s with irq := { s.irq with holdEnd := mapPut (fun _ => 0) s.irq.holdEnd g 0, duringHold := mapPut (fun _ => false) s.irq.duringHold g false, pres := (((List.range 16).map (fun i => 16 * g.val + i)).filter (fun n => s.irq.pend.getLsbD n)).foldl (fun p n => p ||| BitVec.ofNat 512 (2 ^ n)) s.irq.pres } } (icReg (0x400 + 8 * g.val)) 16 false :=
  ⟨18, _, sHoldoff true, by decide +kernel, by decide +kernel, by decide +kernel, rfl⟩

theorem test_hyps_interrupt_controller_6 :
    ∃ (g : Fin 32) (u s : State), mapGet (fun _ => 0) s.irq.holdEnd g ≠ 0 ∧ mapGet (fun _ => 0) s.irq.holdEnd g ≤ now s ∧ mapGet (fun _ => false) s.irq.duringHold g = false ∧ u = wrB { s with irq := { s.irq with holdEnd := mapPut (fun _ => 0) s.irq.holdEnd g 0, duringHold := mapPut (fun _ => false) s.irq.duringHold g false, pres := (((List.range 16).map (fun i => 16 * g.val + i)).filter (fun n => s.irq.pend.getLsbD n)).foldl (fun p n => p ||| BitVec.ofNat 512 (2 ^ n)) s.irq.pres } } (icReg (0x400 + 8 * g.val)) 16 false :=
  ⟨18, _, sHoldoff false, by decide +kernel, by decide +kernel, by decide +kernel, rfl⟩

theorem test_hyps_step_votes_1 :
    ∃ (t : TileId) (c : CtxId) (m : Msg) (u s : State), stepped s c = true ∧ (csState s c = 1 ∨ csState s c = 2) ∧ endHeld s t c = false ∧ voteHeld s t c = false ∧ tileRuns s t = true ∧ ctxStopped s t c = false ∧ qState s t (csCfg s c 16 8) ≠ 0 ∧ qRead s t (csCfg s c 16 8) = true ∧ qOwner s t (csCfg s c 16 8) = c.val ∧ headMsg s t (csCfg s c 16 8) = some (m, u) ∧ (msgToken m).kind = 1 ∧ (msgToken m).value = stepOf s c % 65536 :=
  ⟨0, 3, _, _, sStepEnd 7, by decide +kernel, by decide +kernel, by decide +kernel, (by decide +kernel), by decide +kernel, by decide +kernel, by decide +kernel, (by decide +kernel), by decide +kernel, rfl, by decide +kernel⟩

theorem test_hyps_step_votes_2 :
    ∃ (t : TileId) (c : CtxId) (m : Msg) (u s : State), stepped s c = true ∧ (csState s c = 1 ∨ csState s c = 2) ∧ endHeld s t c = false ∧ voteHeld s t c = false ∧ tileRuns s t = true ∧ ctxStopped s t c = false ∧ qState s t (csCfg s c 16 8) ≠ 0 ∧ qRead s t (csCfg s c 16 8) = true ∧ qOwner s t (csCfg s c 16 8) = c.val ∧ headMsg s t (csCfg s c 16 8) = some (m, u) ∧ (msgToken m).kind = 1 ∧ (msgToken m).value ≠ stepOf s c % 65536 :=
  ⟨0, 3, _, _, sStepEnd 8, by decide +kernel, by decide +kernel, by decide +kernel, (by decide +kernel), by decide +kernel, by decide +kernel, by decide +kernel, (by decide +kernel), by decide +kernel, rfl, by decide +kernel⟩

theorem test_hyps_step_votes_3 :
    ∃ (t : TileId) (c : CtxId) (r : Nat) (s : State), endHeld s t c = true ∧ stepIdle s t c = true ∧ slotOfCtx s t c = some r :=
  ⟨0, 3, _, sVoter, by decide +kernel, by decide +kernel, rfl⟩

theorem test_hyps_step_votes_4 :
    ∃ (c : CtxId) (s : State), stepped s c = true ∧ csState s c = 1 ∧ (attOf s c).voted = false ∧ csCfg s c 48 13 ≤ (attOf s c).notices.length :=
  ⟨3, sStep 1, by decide +kernel⟩

theorem test_hyps_step_votes_5 :
    ∃ (c : CtxId) (u s : State), s.commit.dirtyReq.contains c.val = true ∧ u = { s with commit := { s.commit with dirtyReq := s.commit.dirtyReq.erase c.val } } ∧ (attOf u c).voted = true ∧ csState u c ≠ 1 :=
  ⟨3, _, sDirty true, by decide +kernel, rfl, by decide +kernel⟩

theorem test_hyps_step_votes_6 :
    ∃ (c : CtxId) (u s : State), s.commit.dirtyReq.contains c.val = true ∧ u = { s with commit := { s.commit with dirtyReq := s.commit.dirtyReq.erase c.val } } ∧ csState u c = 1 :=
  ⟨3, _, sDirty false, by decide +kernel, rfl, by decide +kernel⟩

theorem test_hyps_step_votes_7 :
    ∃ (root : TileId) (p : Ctrl) (u s : State), p.type = 0x0C ∧ takeEjected s root (.ctrl p) = some u ∧ stepped u p.context = true ∧ (csState u p.context = 1 ∨ csState u p.context = 2) ∧ oldEpoch u p.context p.ctxEpoch = false :=
  ⟨5, aVote, _, sVoted, rfl, rfl, by decide +kernel⟩

theorem test_hyps_step_decisions_1 :
    ∃ (p : Ctrl) (u s : State), p.type = 0x0D ∧ p.words.getD 0 0 % 8 = 1 ∧ takeEjected s 1 (.ctrl p) = some u ∧ oldEpoch u p.context p.ctxEpoch = false ∧ stepped u p.context = true ∧ (csState u p.context = 1 ∨ csState u p.context = 2) ∧ wordsStep p.words 1 = stepOf u p.context :=
  ⟨aDecide 1, _, sDecided 1, rfl, by decide +kernel, rfl, by decide +kernel⟩

theorem test_hyps_step_decisions_2 :
    ∃ (p : Ctrl) (l : List ClusterId) (u v s : State), p.type = 0x0D ∧ p.words.getD 0 0 % 8 = 2 ∧ takeEjected s 1 (.ctrl p) = some u ∧ oldEpoch u p.context p.ctxEpoch = false ∧ stepped u p.context = true ∧ (csState u p.context = 1 ∨ csState u p.context = 2) ∧ wordsStep p.words 1 = stepOf u p.context ∧ v = noteDecide u p.context 2 :=
  ⟨aDecide 2, [3], _, _, sDecided 2, rfl, by decide +kernel, rfl, by decide +kernel, by decide +kernel, by decide +kernel, by decide +kernel, rfl⟩

theorem test_hyps_step_decisions_3 :
    ∃ (p : Ctrl) (u s : State), p.type = 0x0D ∧ p.words.getD 0 0 % 8 = 3 ∧ takeEjected s 1 (.ctrl p) = some u ∧ oldEpoch u p.context p.ctxEpoch = false ∧ stepped u p.context = true ∧ (csState u p.context = 1 ∨ csState u p.context = 2) ∧ wordsStep p.words 1 = stepOf u p.context :=
  ⟨aDecide 3, _, sDecided 3, rfl, by decide +kernel, rfl, by decide +kernel⟩

theorem test_hyps_step_decisions_4 :
    ∃ (p : Ctrl) (v u s : State), p.type = 0x0D ∧ p.words.getD 0 0 % 8 = 4 ∧ takeEjected s 1 (.ctrl p) = some u ∧ oldEpoch u p.context p.ctxEpoch = false ∧ stepped u p.context = true ∧ (csState u p.context = 1 ∨ csState u p.context = 2) ∧ wordsStep p.words 1 = stepOf u p.context ∧ v = noteDecide u p.context 4 :=
  ⟨aDecide 4, _, _, sDecided 4, rfl, by decide +kernel, rfl, by decide +kernel, by decide +kernel, by decide +kernel, by decide +kernel, rfl⟩

theorem test_hyps_step_decisions_5 :
    ∃ (c : CtxId) (u s : State), csState s c = 3 ∧ applyJournal s c = u ∧ (attOf u c).applied = true ∧ (capturing u c (stepOf u c)).any (captureBusy u) = false :=
  ⟨3, _, sApplied, by decide +kernel, rfl, by decide +kernel⟩

theorem test_hyps_step_decisions_6 :
    ∃ (c : CtxId) (named : Bool) (u s : State), stepped s c = true ∧ csState s c = 2 ∧ pathLost s c named = true ∧ u = report (setCsState s c 4) (devPage 11) 0x0B06 { ctx := some c } :=
  ⟨3, true, _, sLost 2, by decide +kernel, by decide +kernel, by decide +kernel, rfl⟩

theorem test_hyps_step_decisions_7 :
    ∃ (c : CtxId) (named : Bool) (s : State), stepped s c = true ∧ csState s c = 1 ∧ pathLost s c named = true :=
  ⟨3, true, sLost 1, by decide +kernel⟩

theorem test_hyps_step_decisions_8 :
    ∃ (t : TileId) (c : CtxId) (a : Nat) (data : List Byte) (s : State), stepped s c = true ∧ dramMapped s a data.length = true :=
  ⟨0, 3, 64, [1, 2], sStep 1, by decide +kernel⟩

theorem test_hyps_step_registers_1 :
    ∃ (a : Agent) (c : CtxId) (v u s : State), writeOk s a (csReg 0x108) (BitVec.ofNat 64 c.val) = true ∧ u = indexed s (csReg 0x108) 0xFF c ∧ writeOk u a (csReg 0x1C8) 1 = true ∧ csOpen u c (a == .hornbeam) = some v :=
  ⟨.companion, 3, _, _, sStep 0, by decide +kernel, rfl, by decide +kernel, rfl⟩

theorem test_hyps_step_registers_2 :
    ∃ (a : Agent) (c : CtxId) (u s : State), writeOk s a (csReg 0x108) (BitVec.ofNat 64 c.val) = true ∧ u = indexed s (csReg 0x108) 0xFF c ∧ writeOk u a (csReg 0x1C8) 2 = true ∧ csState u c = 4 :=
  ⟨.companion, 3, _, sStep 4, by decide +kernel, rfl, by decide +kernel⟩

theorem test_hyps_step_registers_3 :
    ∃ (a : Agent) (c : CtxId) (u s : State), writeOk s a (csReg 0x108) (BitVec.ofNat 64 c.val) = true ∧ u = indexed s (csReg 0x108) 0xFF c ∧ writeOk u a (csReg 0x1C8) 3 = true ∧ csState u c = 4 :=
  ⟨.companion, 3, _, sStep 4, by decide +kernel, rfl, by decide +kernel⟩

theorem test_hyps_step_registers_4 :
    ∃ (a : Agent) (c : CtxId) (u s : State), writeOk s a (csReg 0x108) (BitVec.ofNat 64 c.val) = true ∧ u = indexed s (csReg 0x108) 0xFF c ∧ writeOk u a (csReg 0x1C8) 4 = true ∧ csState u c = 6 :=
  ⟨.companion, 3, _, sStep 6, by decide +kernel, rfl, by decide +kernel⟩

theorem test_hyps_step_registers_5 :
    ∃ (a : Agent) (c : CtxId) (hi : Bool) (v : W64) (u s : State), writeOk s a (csReg 0x108) (BitVec.ofNat 64 c.val) = true ∧ u = indexed s (csReg 0x108) 0xFF c ∧ (writeOk u a (csReg (if hi then 0x188 else 0x180)) v = true) ∧ csState u c = 0 :=
  ⟨.companion, 3, true, guardOf 5, _, sStep 0, by decide +kernel, rfl, by decide +kernel⟩

theorem test_hyps_step_registers_6 :
    ∃ (a : Agent) (c : CtxId) (v w : W64) (u s : State), writeOk s a (csReg 0x108) (BitVec.ofNat 64 c.val) = true ∧ u = indexed s (csReg 0x108) 0xFF c ∧ writeOk u a (csReg 0x190) v = true ∧ w = merged u (csCtx c 0x190) 0x1FFFFFFFFFFF0003 v ∧ (csState u c = 0 ∨ csState u c = 6) ∧ (bitOf w 0 = false ∨ journalBad u c = false) :=
  ⟨.companion, 3, 0x10002, _, _, sStep 0, by decide +kernel, rfl, by decide +kernel, rfl, by decide +kernel⟩

theorem test_hyps_step_registers_7 :
    ∃ (a : Agent) (c : CtxId) (v : W64) (u s : State), writeOk s a (csReg 0x108) (BitVec.ofNat 64 c.val) = true ∧ u = indexed s (csReg 0x108) 0xFF c ∧ writeOk u a (csReg 0x198) v = true ∧ (csState u c = 0 ∨ csState u c = 6) :=
  ⟨.companion, 3, 0x200000000, _, sStep 0, by decide +kernel, rfl, by decide +kernel⟩

theorem test_hyps_step_registers_8 :
    ∃ (a : Agent) (index : Fin 65536) (u s : State), writeOk s a (csReg 0x120) (BitVec.ofNat 64 index.val) = true ∧ u = wr s (csReg 0x120) (merged s (csReg 0x120) 0xFFFF (BitVec.ofNat 64 index.val)) :=
  ⟨.companion, 1, _, State.reset, by decide +kernel, rfl⟩

theorem test_hyps_fence_events_1 :
    ∃ (k : ClusterId) (q : Suspect) (u v s : State), s.commit.quar.find? (fun (x : Suspect) => x.cluster == k.val && x.replaySig.isSome) = some q ∧ mapGet (fun _ => 0) s.commit.confirm k = 2 ∧ (u = { s with commit := { s.commit with quar := s.commit.quar.erase q, confirm := if (s.commit.quar.erase q).any (fun (x : Suspect) => x.cluster == k.val) then s.commit.confirm else mapErase k s.commit.confirm } }) ∧ (v = report u (devPage 11) 0x0B09 { ctx := some q.ctx, detail := [if baseClass q < 7 then baseClass q + 1 else baseClass q, k.val] }) :=
  ⟨5, _, _, _, sSuspect 2, rfl, by decide, rfl, rfl⟩

theorem test_hyps_fence_events_2 :
    ∃ (k : ClusterId) (q : Suspect) (u v w s : State), s.commit.quar.find? (fun (x : Suspect) => x.cluster == k.val && x.replaySig.isSome) = some q ∧ mapGet (fun _ => 0) s.commit.confirm k = 1 ∧ (u = { s with commit := { s.commit with quar := s.commit.quar.erase q, confirm := if (s.commit.quar.erase q).any (fun (x : Suspect) => x.cluster == k.val) then s.commit.confirm else mapErase k s.commit.confirm } }) ∧ strike u k = (true, v) ∧ (w = report v (devPage 11) 0x0B09 { ctx := some q.ctx, detail := [if baseClass q < 7 then baseClass q + 1 else baseClass q, k.val] }) :=
  ⟨5, _, _, _, _, sStruck, rfl, by decide, rfl, rfl, rfl⟩

theorem test_hyps_fence_events_3 :
    ∃ (k : ClusterId) (q : Suspect) (u v w s : State), s.commit.quar.find? (fun (x : Suspect) => x.cluster == k.val && x.replaySig.isSome) = some q ∧ mapGet (fun _ => 0) s.commit.confirm k = 1 ∧ (u = { s with commit := { s.commit with quar := s.commit.quar.erase q, confirm := if (s.commit.quar.erase q).any (fun (x : Suspect) => x.cluster == k.val) then s.commit.confirm else mapErase k s.commit.confirm } }) ∧ strike u k = (false, v) ∧ w = report v (devPage 11) 0x0B09 { ctx := some q.ctx, detail := [baseClass q, k.val] } :=
  ⟨5, _, _, _, _, sSuspect 1, rfl, by decide, rfl, rfl, rfl⟩

theorem test_hyps_fence_events_4 :
    ∃ (e : Fin 18446744073709551616) (k : Nat) (s : State), feCluster e = some k ∧ s.commit.condFences.contains e.val = true ∧ s.commit.inForce.contains e.val = false ∧ condReading s e k = some true ∧ pastFailing s e k = false :=
  ⟨Fin.ofNat _ (fenceEntry 2 5 0 1 1 20), _, sCond 20 false, rfl, by decide +kernel⟩

theorem test_hyps_fence_events_5 :
    ∃ (e : Fin 18446744073709551616) (k : Nat) (s : State), feCluster e = some k ∧ s.commit.condFences.contains e.val = true ∧ s.commit.inForce.contains e.val = true ∧ condReading s e k = some false ∧ pastFailing s e k = false :=
  ⟨Fin.ofNat _ (fenceEntry 2 5 0 1 1 90), _, sCond 90 true, rfl, by decide +kernel⟩

theorem test_hyps_fence_events_6 :
    ∃ (e : Fin 18446744073709551616) (s : State), feOk e = true ∧ feCond e ≤ 3 ∧ s.commit.fenceJobs.contains e.val = true :=
  ⟨Fin.ofNat _ (fenceEntry 2 5 0 1), sFenceJob, by decide +kernel⟩

theorem test_hyps_fence_events_7 :
    ∃ (e : Fin 18446744073709551616) (s : State), feOk e = true ∧ feCond e ≤ 3 ∧ s.commit.fenceJobs.contains e.val = false ∧ s.commit.fenceLog.contains e.val = false :=
  ⟨Fin.ofNat _ (fenceEntry 2 5 0 1), State.reset, by decide +kernel⟩

theorem test_hyps_fence_events_8 :
    ∃ (a : Fin 4294967296) (flip : W64) (x : Nat × Nat × Credit) (e : Credit) (s : State), shownCredit s (regBase + a.val) = some x ∧ e = { x.2.2 with cred := x.2.2.cred ^^^ flip } :=
  ⟨Fin.ofNat _ (qctl 0 0x128 - regBase), 1, (0, 0, aCredit 0 4), _, sCred, by decide +kernel, rfl⟩

theorem test_hyps_fence_events_9 :
    ∃ (a : Fin 4294967296) (flip : W64) (u s : State), shownCredit s (regBase + a.val) = none ∧ isGuarded (regBase + a.val) = true ∧ pageOf (regBase + a.val) ≠ devPage 11 ∧ flip ≠ 0 ∧ guardOk (rd s (regBase + a.val) ^^^ flip) = false ∧ u = wr s (regBase + a.val) (rd s (regBase + a.val) ^^^ flip) :=
  ⟨Fin.ofNat _ (spReg 0 0x400 - regBase), 1, _, State.reset, by decide +kernel, by decide +kernel, by decide +kernel, by decide, by decide +kernel, rfl⟩

theorem test_hyps_fence_events_10 :
    ∃ (a : Fin 4294967296) (k : Fin 257) (flip : W64) (s : State), isGuarded (regBase + a.val) = true ∧ pageOf (regBase + a.val) = devPage 11 ∧ k ≠ 0 ∧ flip ≠ 0 ∧ guardOk (rd s (banked (regBase + a.val) (k.val - 1)) ^^^ flip) = false :=
  ⟨Fin.ofNat _ (csReg 0x180 - regBase), 4, 1, State.reset, by decide +kernel⟩

theorem test_hyps_hang_rounds_1 :
    ∃ (s : State), (now s / 1000 = 0 ∨ s.recov.window = now s / 1000) :=
  ⟨State.reset, by decide +kernel⟩

theorem test_hyps_hang_rounds_2 :
    ∃ (w : Nat) (m : NMap Nat) (u s : State), w = now s / 1000 ∧ w ≠ 0 ∧ s.recov.window ≠ w ∧ (m = ((allNodes s).filter (nodeStalled s (allWaits s) (w - 1))).foldl (fun (acc : NMap Nat) n => mapPut (fun _ => 0) acc n (min 15 ((if s.recov.window = w - 1 then mapGet (fun _ => 0) s.recov.stalled n else 0) + 1))) []) ∧ u = { s with recov := { s.recov with stalled := m, window := w } } ∧ (rdB u (brReg 0x100) 0 = false ∨ closedSet (allWaits s) ((m.filter (fun e => rdF s (brReg 0x100) 8 4 ≤ e.2)).map Prod.fst).length ((m.filter (fun e => rdF s (brReg 0x100) 8 4 ≤ e.2)).map Prod.fst) = []) :=
  ⟨_, _, _, sHung 0, rfl, by decide +kernel, by decide +kernel, rfl, rfl, by decide +kernel⟩

theorem test_hyps_hang_rounds_3 :
    ∃ (w : Nat) (m : NMap Nat) (l : List Nat) (u s : State), w = now s / 1000 ∧ w ≠ 0 ∧ s.recov.window ≠ w ∧ (m = ((allNodes s).filter (nodeStalled s (allWaits s) (w - 1))).foldl (fun (acc : NMap Nat) n => mapPut (fun _ => 0) acc n (min 15 ((if s.recov.window = w - 1 then mapGet (fun _ => 0) s.recov.stalled n else 0) + 1))) []) ∧ u = { s with recov := { s.recov with stalled := m, window := w } } ∧ rdB s (brReg 0x100) 0 = true ∧ closedSet (allWaits s) ((m.filter (fun e => rdF s (brReg 0x100) 8 4 ≤ e.2)).map Prod.fst).length ((m.filter (fun e => rdF s (brReg 0x100) 8 4 ≤ e.2)).map Prod.fst) = l ∧ l ≠ [] :=
  ⟨_, _, _, _, sHung 4, rfl, by decide +kernel, by decide +kernel, rfl, rfl, by decide +kernel, rfl, by decide +kernel⟩

theorem test_hyps_hang_rounds_4 :
    ∃ (u s : State), brPhase s = 1 ∧ (u = each (s.recov.round.filter (stepped s)) (fun x c => if s.recov.guilty.contains c then x else originate x c 1 false) s) :=
  ⟨_, sRound 1, by decide +kernel, rfl⟩

theorem test_hyps_hang_rounds_5 :
    ∃ (h : Hang) (u s : State), s.recov.current = some h ∧ brPhase s = 2 ∧ (brArea s).2 = 0 ∧ u = report s (devPage 10) 0x0C0D :=
  ⟨_, _, sRound 2, rfl, by decide +kernel, by decide +kernel, rfl⟩

theorem test_hyps_hang_rounds_6 :
    ∃ (h : Hang) (u s : State), s.recov.current = some h ∧ brPhase s = 2 ∧ (brArea s).2 ≠ 0 ∧ (sampleLate s = true ∨ sampleSleeps s = []) ∧ u = takeSample s h :=
  ⟨_, _, sSampled, rfl, by decide +kernel, by decide +kernel, by decide +kernel, rfl⟩

theorem test_hyps_hang_rounds_7 :
    ∃ (h : Hang) (s : State), s.recov.current = some h ∧ brPhase s = 2 ∧ (brArea s).2 ≠ 0 ∧ sampleLate s = false ∧ sampleSleeps s ≠ [] :=
  ⟨_, sSampleSleeps, rfl, by decide +kernel⟩

theorem test_hyps_hang_rounds_8 :
    ∃ (c : CtxId) (u s : State), brPhase s = 4 ∧ admitted s = none ∧ s.recov.toAdmit.head? = some c.val ∧ csState s c = 5 ∧ csOpen s c true = some u :=
  ⟨3, _, sAdmit 5, by decide +kernel, by decide +kernel, by decide +kernel, by decide +kernel, rfl⟩

theorem test_hyps_hang_rounds_9 :
    ∃ (c : CtxId) (u s : State), brPhase s = 4 ∧ admitted s = none ∧ s.recov.toAdmit.head? = some c.val ∧ (csState s c = 0 ∨ csState s c = 6) ∧ u = { s with recov := { s.recov with toAdmit := s.recov.toAdmit.drop 1 } } :=
  ⟨3, _, sAdmit 6, by decide +kernel, by decide +kernel, by decide +kernel, by decide +kernel, rfl⟩

theorem test_hyps_hang_rounds_10 :
    ∃ (c : Nat) (h : Hang) (s : State), admitted s = some c ∧ s.recov.admHang = some h :=
  ⟨3, _, sAdmitted true, by decide +kernel, rfl⟩

theorem test_hyps_hang_rounds_11 :
    ∃ (c : Nat) (u s : State), admitted s = some c ∧ s.recov.admHang = none ∧ ((attOf s c).notices ≠ [] ∨ (attOf s c).voted = true ∨ csState s c ≠ 1 ∨ s.recov.admitDt + rdF s (brReg 0x100) 32 16 * 100000 ≤ now s) ∧ u = setAdmitted s none :=
  ⟨3, _, sAdmitted false, by decide +kernel, rfl, by decide +kernel, rfl⟩

theorem test_hyps_teardowns_1 :
    ∃ (c : CtxId) (u s : State), s.recov.tdReq.contains c.val = true ∧ u = { s with recov := { s.recov with tdReq := s.recov.tdReq.erase c.val } } ∧ tdState s c ≠ 2 ∧ tdState s c ≠ 3 ∧ tdState s c ≠ 4 :=
  ⟨3, _, sTear 1, by decide +kernel, rfl, by decide +kernel⟩

theorem test_hyps_teardowns_2 :
    ∃ (c : CtxId) (u s : State), s.recov.tdReq.contains c.val = true ∧ u = { s with recov := { s.recov with tdReq := s.recov.tdReq.erase c.val } } ∧ (tdState s c = 3 ∨ tdState s c = 4) :=
  ⟨3, _, sTear 3, by decide +kernel, rfl, by decide +kernel⟩

theorem test_hyps_teardowns_3 :
    ∃ (c : CtxId) (d : Nat × Nat) (u v s : State), mapFind c s.recov.draining = some d ∧ tdState s c = 2 ∧ drainOver s c d.1 d.2 = (true, false) ∧ u = setTdState { s with recov := { s.recov with draining := mapErase c s.recov.draining } } c 3 ∧ (v = (if u.recov.round.contains c.val && !stepped u c then report u (devPage 10) 0x0C07 { ctx := some c.val } else u)) :=
  ⟨3, _, _, _, sDraining 10000, rfl, by decide +kernel, by decide +kernel, rfl, rfl⟩

theorem test_hyps_teardowns_4 :
    ∃ (c : CtxId) (d : Nat × Nat) (w u v s : State), mapFind c s.recov.draining = some d ∧ tdState s c = 2 ∧ drainOver s c d.1 d.2 = (true, true) ∧ w = incSat (report s (devPage 10) 0x0C03 { ctx := some c.val }) (brReg 0x0A0) ∧ u = setTdState { w with recov := { w.recov with draining := mapErase c w.recov.draining } } c 3 ∧ (v = (if u.recov.round.contains c.val && !stepped u c then report u (devPage 10) 0x0C07 { ctx := some c.val } else u)) :=
  ⟨3, _, _, _, _, sDrainBound, rfl, by decide +kernel, by decide +kernel, rfl, rfl, rfl⟩

theorem test_hyps_teardowns_5 :
    ∃ (a : Agent) (c : CtxId) (s : State), writeOk s a (brReg 0x140) (BitVec.ofNat 64 (place 8 3 1 + c.val)) = true :=
  ⟨.companion, 255, State.reset, by decide +kernel⟩

theorem test_hyps_teardowns_6 :
    ∃ (a : Agent) (c : CtxId) (s : State), writeOk s a (brReg 0x140) (BitVec.ofNat 64 (place 8 3 2 + c.val)) = true :=
  ⟨.companion, 255, State.reset, by decide +kernel⟩

theorem test_hyps_teardowns_7 :
    ∃ (t : TileId) (p : Ctrl) (u s : State), p.type = 0x0E ∧ takeEjected s t (.ctrl p) = some u ∧ (List.range 256).filter (abortMatches u p) ≠ [] :=
  ⟨0, anAbort, _, sAbort 1, by decide +kernel, rfl, by decide +kernel⟩

theorem test_hyps_teardowns_8 :
    ∃ (t : TileId) (p : Ctrl) (u s : State), p.type = 0x0E ∧ takeEjected s t (.ctrl p) = some u ∧ (List.range 256).filter (abortMatches u p) = [] :=
  ⟨0, anAbort, _, sAbort 0, by decide +kernel, rfl, by decide +kernel⟩

theorem test_hyps_reset_domains_1 :
    ∃ (a : Agent) (c : Fin 512) (s : State), writeOk s a (brReg 0x180) (BitVec.ofNat 64 (place 8 9 c.val + 1)) = true ∧ rstBusy s = false ∧ c.val < 288 :=
  ⟨.companion, 287, State.reset, by decide +kernel⟩

theorem test_hyps_reset_domains_2 :
    ∃ (a : Agent) (c : Fin 512) (s : State), writeOk s a (brReg 0x180) (BitVec.ofNat 64 (place 8 9 c.val + 1)) = true ∧ (rstBusy s = true ∨ 288 ≤ c.val) :=
  ⟨.companion, 288, State.reset, by decide +kernel⟩

theorem test_hyps_reset_domains_3 :
    ∃ (a : Agent) (s : State), writeOk s a (brReg 0x180) 2 = true ∧ rstBusy s = false ∧ rstPart s ≠ [] ∧ (rstPart s).all (fun k => k < 288) = true :=
  ⟨.companion, sPartition, by decide +kernel⟩

theorem test_hyps_reset_domains_4 :
    ∃ (a : Agent) (s : State), writeOk s a (brReg 0x180) 3 = true ∧ rstBusy s = false :=
  ⟨.companion, State.reset, by decide +kernel⟩

theorem test_hyps_reset_domains_5 :
    ∃ (a : Agent) (s : State), writeOk s a (brReg 0x180) 4 = true ∧ rstBusy s = false :=
  ⟨.companion, State.reset, by decide +kernel⟩

theorem test_hyps_reset_domains_6 :
    ∃ (u v s : State), resetReady s = true ∧ (u = setDestReset s (if s.recov.resetCmd = 3 ∨ s.recov.resetCmd = 4 then (List.range 4608).filter (tileInReset s) else tilesIn s.recov.resetting) false) ∧ v = wrB { u with recov := { u.recov with resetting := [], resetCmd := 0, resetCtx := u.recov.resetCtx.filter (fun e => !u.recov.resetting.contains e.1) } } (devReg 10 0x188) 0 false :=
  ⟨_, _, sReady, by decide +kernel, rfl, rfl⟩

theorem test_hyps_reset_domains_7 :
    ∃ (s : State), s.module.rstLow = false ∧ s.module.supplyFault = false ∧ s.module.overTemp = false :=
  ⟨State.reset, by decide⟩

theorem test_hyps_reset_domains_8 :
    ∃ (s : State), (s.module.rstLow = true ∨ s.module.supplyFault = true ∨ s.module.overTemp = true) :=
  ⟨sRstLow, by decide⟩

theorem test_hyps_checkpoint_events_1 :
    ∃ (n : Fin 4) (u s : State), (streamOf s n).wait = none ∧ ownValid s n = true ∧ rdB s (ckReg 0x100) 0 = true ∧ (streamOf s n).due = false ∧ ((streamOf s n).sealDt - 1) + tauMs s n * 1000000 ≤ now s ∧ ((streamOf s n).ownTake = none ∨ (streamOf s n).captured = false) ∧ u = setStream s n { streamOf s n with due := true } :=
  ⟨0, _, sStream 0, by decide +kernel, by decide +kernel, by decide +kernel, (by decide +kernel), by decide +kernel, by decide +kernel, rfl⟩

theorem test_hyps_checkpoint_events_2 :
    ∃ (n : Fin 4) (p : Nat × Nat) (s : State), (streamOf s n).exportAt = none ∧ (streamOf s n).restore = none ∧ (streamOf s n).ownTake.isSome = true ∧ (streamOf s n).captured = true ∧ rdB s (ckReg 0x100) 0 = true ∧ stateAt (streamOf s n).segs (streamOf s n).next = some p ∧ unsettled s ((snapArea s n).1 + (streamOf s n).next) (min 992 p.2) false = false ∧ (vc3Idle s (ownHolder s n) && hasCredit s (unitAt s 1 (ownCtx s n)) (ckMsg s (ownCtx s n) (ownHolder s n) p.1 (engineRead s ((snapArea s n).1 + (streamOf s n).next) (min 992 p.2)).1).hdr.dst (ownCtx s n) (hdrSlots (ckMsg s (ownCtx s n) (ownHolder s n) p.1 (engineRead s ((snapArea s n).1 + (streamOf s n).next) (min 992 p.2)).1).hdr)) = true :=
  ⟨0, (4104, 2097152), sTrickle, by decide +kernel⟩

theorem test_hyps_checkpoint_events_3 :
    ∃ (n : Fin 4) (e : Nat × Nat) (s : State), (streamOf s n).exportAt = some e ∧ rdB s (ckReg 0x100) 0 = true :=
  ⟨0, (0, 0), sExport, by decide +kernel⟩

theorem test_hyps_checkpoint_events_4 :
    ∃ (n : Fin 4) (r : Nat × Nat × Bool × Nat) (s : State), (streamOf s n).exportAt = none ∧ (streamOf s n).restore = some r ∧ rdB s (ckReg 0x100) 0 = true :=
  ⟨0, (0, 0, false, 0), sRestore, by decide +kernel⟩

theorem test_hyps_checkpoint_events_5 :
    ∃ (n : Fin 4) (s : State), rdB s (ckReg 0x100) 0 = false :=
  ⟨0, State.reset, by decide +kernel⟩

theorem test_hyps_checkpoint_events_6 :
    ∃ (m : Msg) (n off : Nat) (data : List Byte) (v w u s : State), epQueue m.hdr.dst = 0xFE ∧ epTile m.hdr.dst = 1 ∧ 8 ≤ m.pay.length ∧ takeEjected s 1 (.msg m) = some u ∧ v = inject u 1 (.ctrl (returnPkt u 1 0xFE m.hdr)) ∧ (List.range 4).find? (fun k => holdValid s k && holdOwner s k == epDev m.hdr.src && holdCtx s k == m.hdr.context && (streamOf s k).holdTake.isSome) = some n ∧ off = natOfBytes (m.pay.drop (m.pay.length - 8)) ∧ data = m.pay.take (m.pay.length - 8) ∧ off + data.length ≤ halfLen s n ∧ w = engineWrite v (halfBase v n (streamOf v n).half + off) data :=
  ⟨aPiece, 0, 0, _, _, _, _, sPiece, by decide +kernel, by decide +kernel, by decide +kernel, rfl, rfl, by decide +kernel, by decide +kernel, rfl, by decide +kernel, rfl⟩

theorem test_hyps_checkpoint_events_7 :
    ∃ (n : Fin 4) (blocks step a : Nat) (s : State), (streamOf s n).holdTake = some step ∧ rdB s (ckReg 0x100) 0 = true ∧ blocks ≠ 0 ∧ 4096 + 8 * blocks + blocks * mib2 ≤ halfLen s n ∧ imageCame (streamOf s n).came blocks = true ∧ a = halfBase s n (streamOf s n).half ∧ unsettled s a (4096 + 8 * blocks + blocks * mib2) false = false :=
  ⟨0, 1, 7, _, sSealing, by decide +kernel, by decide +kernel, by decide +kernel, by decide +kernel, by decide +kernel, rfl, by decide +kernel⟩

theorem test_hyps_checkpoint_events_8 :
    ∃ (n : Fin 4) (blocks step : Nat) (s : State), (streamOf s n).holdTake = some step ∧ (rdB s (ckReg 0x100) 0 = false ∨ blocks = 0 ∨ imageCame (streamOf s n).came blocks = false) :=
  ⟨0, 0, 7, sSealing, by decide +kernel⟩

theorem test_hyps_checkpoint_events_9 :
    ∃ (n : Fin 4) (step : Fin 281474976710656) (dt : Nat) (v u s : State), (streamOf s n).ownTake = some step.val ∧ (streamOf s n).captured = true ∧ v = wrF (setStream s n { streamOf s n with ownTake := none, captured := false, sealDt := dt + 1, due := false }) (ckSt n 0x1B0) 0 32 (streamOf s n).hold ∧ u = wrF v (ckSt n 0x1A8) 0 48 step :=
  ⟨0, 7, 5, _, _, sTrickle, by decide +kernel, by decide +kernel, rfl, rfl⟩

theorem test_hyps_checkpoint_events_10 :
    ∃ (n : Fin 4) (s : State), rdB s (ckReg 0x100) 0 = true ∧ (streamOf s n).flashOwed = true ∧ (streamOf s n).flashAt = none ∧ holdValid s n = true :=
  ⟨0, sFlashOwed, by decide +kernel⟩

theorem test_hyps_checkpoint_events_11 :
    ∃ (n : Fin 4) (f : Nat × Nat) (s : State), rdB s (ckReg 0x100) 0 = true ∧ (streamOf s n).flashAt = some f ∧ (streamOf s n).copyWaits = true ∧ holdValid s n = true :=
  ⟨0, (0, 0), sFlashPart, by decide +kernel⟩

theorem test_hyps_checkpoint_registers_1 :
    ∃ (a : Agent) (n : Fin 4) (step : Fin 281474976710656) (u s : State), writeOk s a (ckReg 0x108) (BitVec.ofNat 64 n.val) = true ∧ u = indexed s (ckReg 0x108) 3 n ∧ writeOk u a (ckReg 0x1A0) (BitVec.ofNat 64 (place 48 3 1 + step.val)) = true ∧ rdB u (ckReg 0x100) 0 = true ∧ (ownValid u n = true ∨ holdValid u n = true) ∧ (takeLate u n step = true ∨ (ckBusy u n = false ∧ (holdValid u n && halfCopied u n (nextHalf u n)) = false ∧ takeBusy u n = false)) :=
  ⟨.companion, 0, 7, _, sCk true 0 idleStream, by decide +kernel, rfl, by decide +kernel, by decide +kernel, by decide +kernel, by decide +kernel⟩

theorem test_hyps_checkpoint_registers_2 :
    ∃ (a : Agent) (n : Fin 4) (step : Fin 281474976710656) (v u s : State), writeOk s a (ckReg 0x108) (BitVec.ofNat 64 n.val) = true ∧ u = indexed s (ckReg 0x108) 3 n ∧ writeOk u a (ckReg 0x1A0) (BitVec.ofNat 64 (place 48 3 1 + step.val)) = true ∧ rdB u (ckReg 0x100) 0 = true ∧ (ownValid u n = true ∨ holdValid u n = true) ∧ takeLate u n step = false ∧ (ckBusy u n = true ∨ (holdValid u n && halfCopied u n (nextHalf u n)) = true ∨ takeBusy u n = true) :=
  ⟨.companion, 0, 7, sCk true 0 idleStream, _, sCkBusy, by decide +kernel, rfl, by decide +kernel, by decide +kernel, by decide +kernel, by decide +kernel, by decide +kernel⟩

theorem test_hyps_checkpoint_registers_3 :
    ∃ (a : Agent) (n : Fin 4) (v u s : State), writeOk s a (ckReg 0x108) (BitVec.ofNat 64 n.val) = true ∧ u = indexed s (ckReg 0x108) 3 n ∧ writeOk u a (ckReg 0x1A0) (BitVec.ofNat 64 (place 48 3 2)) = true ∧ v = ckEndHold (ckEndOwn u n 0x0D09) n 0x0D09 ∧ (streamOf v n).wait = none :=
  ⟨.companion, 0, _, _, sCk true 0 idleStream, by decide +kernel, rfl, by decide +kernel, rfl, by decide +kernel⟩

theorem test_hyps_checkpoint_registers_4 :
    ∃ (a : Agent) (n : Fin 4) (w : Nat × Nat) (v u s : State), writeOk s a (ckReg 0x108) (BitVec.ofNat 64 n.val) = true ∧ u = indexed s (ckReg 0x108) 3 n ∧ writeOk u a (ckReg 0x1A0) (BitVec.ofNat 64 (place 48 3 2)) = true ∧ v = ckEndHold (ckEndOwn u n 0x0D09) n 0x0D09 ∧ (streamOf v n).wait = some w :=
  ⟨.companion, 0, _, _, _, sCkBusy, by decide +kernel, rfl, by decide +kernel, rfl, rfl⟩

theorem test_hyps_checkpoint_registers_5 :
    ∃ (n code : Nat) (s : State), (streamOf s n).ownTake.isSome = true :=
  ⟨0, 0x0D09, sTrickle, by decide +kernel⟩

theorem test_hyps_checkpoint_registers_6 :
    ∃ (n code : Nat) (s : State), (streamOf s n).holdTake.isSome = true :=
  ⟨0, 0x0D09, sSealing, by decide +kernel⟩

theorem test_hyps_checkpoint_registers_7 :
    ∃ (a : Agent) (n : Fin 4) (half : Fin 2) (u s : State), writeOk s a (ckReg 0x108) (BitVec.ofNat 64 n.val) = true ∧ u = indexed s (ckReg 0x108) 3 n ∧ writeOk u a (ckReg 0x1A0) (BitVec.ofNat 64 (place 51 1 half.val + place 48 3 3)) = true ∧ holdValid u n = true ∧ (streamOf u n).exportAt = none :=
  ⟨.companion, 0, 1, _, sFlashOwed, by decide +kernel, rfl, by decide +kernel⟩

theorem test_hyps_checkpoint_registers_8 :
    ∃ (a : Agent) (n : Fin 4) (half : Fin 2) (dev : Fin 32768) (u s : State), writeOk s a (ckReg 0x108) (BitVec.ofNat 64 n.val) = true ∧ u = indexed s (ckReg 0x108) 3 n ∧ writeOk u a (ckReg 0x1A0) (BitVec.ofNat 64 (place 51 1 half.val + place 48 3 4 + dev.val)) = true :=
  ⟨.companion, 0, 1, 32767, _, sFlashOwed, by decide +kernel, rfl, by decide +kernel⟩

theorem test_hyps_checkpoint_registers_9 :
    ∃ (a : Agent) (n : Fin 4) (half : Fin 2) (dev : Fin 32768) (u s : State), writeOk s a (ckReg 0x108) (BitVec.ofNat 64 n.val) = true ∧ u = indexed s (ckReg 0x108) 3 n ∧ writeOk u a (ckReg 0x1A0) (BitVec.ofNat 64 (place 51 1 half.val + place 48 3 5 + dev.val)) = true :=
  ⟨.companion, 0, 1, 32767, _, sFlashOwed, by decide +kernel, rfl, by decide +kernel⟩

theorem test_hyps_checkpoint_registers_10 :
    ∃ (n target half : Nat) (s : State), (holdValid s n = false ∨ (streamOf s n).restore.isSome = true) :=
  ⟨0, 0, 0, State.reset, by decide +kernel⟩

theorem test_hyps_checkpoint_registers_11 :
    ∃ (a : Agent) (fit : W32) (s : State), writeOk s a (ckReg 0x110) (BitVec.ofNat 64 fit.toNat) = true :=
  ⟨.companion, 50, State.reset, by decide +kernel⟩

theorem test_hyps_boot_phases_1 :
    ∃ (s : State), s.time.held = false ∧ hbPhase s ≤ 1 :=
  ⟨releaseReset State.reset, by decide +kernel⟩

theorem test_hyps_boot_phases_2 :
    ∃ (s : State), hbPhase s = 0 ∧ s.boot.step = 0 :=
  ⟨State.reset, by decide +kernel⟩

theorem test_hyps_boot_phases_3 :
    ∃ (s : State), hbPhase s = 0 ∧ s.boot.step = 4 :=
  ⟨sBoot 0 4, by decide +kernel⟩

theorem test_hyps_boot_phases_4 :
    ∃ (s : State), hbPhase s = 2 :=
  ⟨sBoot 2 0, by decide +kernel⟩

theorem test_hyps_boot_phases_5 :
    ∃ (s : State), hbPhase s = 3 ∧ s.boot.step = 0 :=
  ⟨sBoot 3 0, by decide +kernel⟩

theorem test_hyps_boot_phases_6 :
    ∃ (s : State), hbPhase s = 3 ∧ s.boot.step ≠ 0 ∧ repairAwaited s = false :=
  ⟨sBoot 3 1, by decide +kernel⟩

theorem test_hyps_boot_phases_7 :
    ∃ (u s : State), hbPhase s = 4 ∧ s.boot.step = 0 ∧ u = each (List.range (tileChunks s)) (fun x k => hbPieces (hbPieces x 0 (some 0xFF4) k (chunkHash s k) (chunkData s k)) 0 (some (0xFF0 + chunkType s k)) k (chunkHash s k) (chunkData s k)) s :=
  ⟨_, sBoot 4 0, by decide +kernel, by decide +kernel, rfl⟩

theorem test_hyps_boot_phases_8 :
    ∃ (fail weak : List ChanId) (s : State), hbPhase s = 5 ∧ s.boot.step = 0 ∧ dirEntry s 4 = none :=
  ⟨[3], [], sBoot 5 0, by decide +kernel⟩

theorem test_hyps_boot_phases_9 :
    ∃ (fail weak : List ChanId) (d : Nat × Nat × Nat) (s : State), hbPhase s = 5 ∧ s.boot.step = 0 ∧ dirEntry s 4 = some d :=
  ⟨[], [], _, sBootDir, by decide +kernel, by decide +kernel, rfl⟩

theorem test_hyps_boot_phases_10 :
    ∃ (s : State), hbPhase s = 6 ∧ s.boot.step = 0 :=
  ⟨sBoot 6 0, by decide +kernel⟩

theorem test_hyps_boot_phases_11 :
    ∃ (s : State), hbPhase s = 6 ∧ s.boot.step ≠ 0 ∧ (anyTraining s = false ∨ s.boot.topoDt + 1000000000 ≤ now s) :=
  ⟨sBoot 6 1, by decide +kernel⟩

theorem test_hyps_boot_phases_12 :
    ∃ (u s : State), hbPhase s = 7 ∧ (u = (if s.boot.step = 0 then compareTopo s else s)) :=
  ⟨_, sBoot 7 3, by decide +kernel, rfl⟩

theorem test_hyps_boot_phases_13 :
    ∃ (l : Licence) (s : State), hbPhase s = 8 ∧ s.boot.licence = some l ∧ l.notBefore ≤ now s ∧ pastEnd s l = false :=
  ⟨_, sLicensed 8 0 false, by decide +kernel, rfl, by decide +kernel⟩

theorem test_hyps_boot_phases_14 :
    ∃ (l : Licence) (s : State), hbPhase s = 8 ∧ s.boot.licence = some l ∧ (now s < l.notBefore ∨ pastEnd s l = true) :=
  ⟨_, sLicensed 8 9 false, by decide +kernel, rfl, by decide +kernel⟩

theorem test_hyps_boot_phases_15 :
    ∃ (s : State), hbPhase s = 8 ∧ s.boot.licence = none :=
  ⟨sBoot 8 0, by decide +kernel⟩

theorem test_hyps_boot_phases_16 :
    ∃ (s : State), hbPhase s = 7 ∧ s.boot.step = 2 ∧ locked s = false ∧ s.boot.topoDt + 200000000 ≤ now s :=
  ⟨sNoLock, by decide +kernel⟩

theorem test_hyps_boot_phases_17 :
    ∃ (l : Licence) (s : State), s.boot.licence = some l ∧ hbReady s = true ∧ s.boot.expired = false ∧ pastEnd s l = true :=
  ⟨_, sLicensed 9 0 true, rfl, by decide +kernel⟩

theorem test_hyps_boot_phases_18 :
    ∃ (t : TileId) (p : FwPkt) (u s : State), takeEjected s t (.fw p) = some u ∧ p.pull = true ∧ isCopy u t = true ∧ (fwOf u t p.chunk).ok = true ∧ p.src % 8192 < 4608 :=
  ⟨0, aFw 0, _, sFw 0, rfl, by decide +kernel⟩

theorem test_hyps_boot_phases_19 :
    ∃ (t : TileId) (p : FwPkt) (u s : State), takeEjected s t (.fw p) = some u ∧ p.pull = true ∧ (isCopy u t = false ∨ (fwOf u t p.chunk).ok = false ∨ 4608 ≤ p.src % 8192) :=
  ⟨0, aFw 1, _, sFw 1, rfl, by decide +kernel⟩

theorem test_hyps_boot_phases_20 :
    ∃ (t : TileId) (p : FwPkt) (u s : State), takeEjected s t (.fw p) = some u ∧ p.pull = false ∧ p.piece < 8 ∧ ((isCopy u t = true ∧ p.chunk < tileChunks u ∧ p.hash = chunkHash u p.chunk) ∨ (isCopy u t = false ∧ inService u t = false ∧ (ownChunks u t).contains p.chunk = true)) :=
  ⟨0, aFw 2, _, sFw 2, rfl, by decide +kernel⟩

theorem test_hyps_boot_phases_21 :
    ∃ (t : TileId) (p : FwPkt) (u s : State), takeEjected s t (.fw p) = some u ∧ p.pull = false ∧ (8 ≤ p.piece ∨ (isCopy u t = true ∧ (tileChunks u ≤ p.chunk ∨ (p.hash == chunkHash u p.chunk) = false)) ∨ (isCopy u t = false ∧ (inService u t = true ∨ (ownChunks u t).contains p.chunk = false))) :=
  ⟨0, aFw 3, _, sFw 3, rfl, by decide +kernel⟩

theorem test_hyps_boot_phases_22 :
    ∃ (n : Nat) (s : State), s.boot.fwRound = some n ∧ (incomplete s).isEmpty = false ∧ n < 8 :=
  ⟨0, sRoundOf 0, rfl, by decide +kernel⟩

theorem test_hyps_boot_phases_23 :
    ∃ (n : Nat) (s : State), s.boot.fwRound = some n ∧ ((incomplete s).isEmpty = true ∨ 8 ≤ n) :=
  ⟨8, sRoundOf 8, rfl, by decide⟩

theorem test_hyps_boot_commands_1 :
    ∃ (a : Agent) (arg : W64) (u s : State), writeOk s a (hbReg 0x118) arg = true ∧ u = wr s (hbReg 0x118) arg ∧ writeOk u a (hbReg 0x110) 1 = true ∧ hbPhase u = 2 ∧ u.boot.bootArg = none :=
  ⟨.companion, 64, _, sBoot 2 0, by decide +kernel, rfl, by decide +kernel⟩

theorem test_hyps_boot_commands_2 :
    ∃ (a : Agent) (s : State), writeOk s a (hbReg 0x110) 2 = true ∧ hbPhase s = 7 ∧ 1 ≤ s.boot.step :=
  ⟨.companion, sBoot 7 3, by decide +kernel⟩

theorem test_hyps_boot_commands_3 :
    ∃ (a : Agent) (s : State), writeOk s a (hbReg 0x110) 2 = true ∧ (hbPhase s ≠ 7 ∨ s.boot.step = 0) :=
  ⟨.companion, State.reset, by decide +kernel⟩

theorem test_hyps_boot_commands_4 :
    ∃ (a : Agent) (arg : W64) (u s : State), writeOk s a (hbReg 0x118) arg = true ∧ u = wr s (hbReg 0x118) arg ∧ writeOk u a (hbReg 0x110) 3 = true ∧ 2 ≤ hbPhase u ∧ hbPhase u ≤ 10 ∧ lifeCycle u ≠ 5 ∧ u.boot.install = none :=
  ⟨.companion, 4096, _, sBoot 9 0, by decide +kernel, rfl, by decide +kernel⟩

theorem test_hyps_boot_commands_5 :
    ∃ (a : Agent) (arg : W64) (u s : State), writeOk s a (hbReg 0x118) arg = true ∧ u = wr s (hbReg 0x118) arg ∧ writeOk u a (hbReg 0x110) 4 = true ∧ 2 ≤ hbPhase u ∧ hbPhase u ≤ 9 ∧ rdB u (hbReg 0x108) 7 = true ∧ u.boot.bound = false ∧ u.boot.jscan = none :=
  ⟨.companion, 0, _, sKept, by decide +kernel, rfl, by decide +kernel⟩

theorem test_hyps_boot_commands_6 :
    ∃ (a : Agent) (g : Fin 4096) (s : State), writeOk s a (hbReg 0x110) (BitVec.ofNat 64 (place 3 12 g.val + 5)) = true ∧ hbReady s = true :=
  ⟨.companion, 4095, sReady, by decide +kernel⟩

theorem test_hyps_boot_commands_7 :
    ∃ (aux : Fin 6) (x : UfsCmd) (u s : State), (u = (if aux.val = 0 then s else setUfs s ({ op := if aux.val = 5 then 2 else 2 + aux.val, lun := 0, block := 0, count := 0, data := [], user := .host, tries := 0, issued := false } :: s.ufs.cmds))) ∧ rdB s (ufsReg 0x100) 0 = true ∧ (s.ufs.cmds.filter (fun y => y.issued)).length < 32 ∧ ufsNext (now s) u.ufs.cmds = some x :=
  ⟨5, _, _, State.reset, rfl, by decide +kernel, by decide +kernel, rfl⟩

theorem test_hyps_boot_commands_8 :
    ∃ (k : Fin 32) (data : List Byte) (p : Nat) (x : UfsCmd) (s : State), issuedAt s.ufs.cmds k.val 0 = some p ∧ s.ufs.cmds[p]? = some x ∧ x.tries = 0 :=
  ⟨0, [], _, _, sUfs 0, rfl, rfl, by decide⟩

theorem test_hyps_boot_commands_9 :
    ∃ (k : Fin 32) (data : List Byte) (p : Nat) (x : UfsCmd) (s : State), issuedAt s.ufs.cmds k.val 0 = some p ∧ s.ufs.cmds[p]? = some x ∧ x.tries ≠ 0 :=
  ⟨0, [], _, _, sUfs 1, rfl, rfl, by decide⟩

theorem test_hyps_boot_commands_10 :
    ∃ (k : Fin 32) (data : List Byte) (p : Nat) (x : UfsCmd) (s : State), issuedAt s.ufs.cmds k.val 0 = some p ∧ s.ufs.cmds[p]? = some x :=
  ⟨0, [1, 2, 3], _, _, sUfs 0, rfl, rfl⟩

theorem test_hyps_boot_commands_11 :
    ∃ (s : State), ufsLink s = 1 ∧ s.ufs.cmds.any (fun x => x.issued) = false ∧ s.ufs.idleSince + 1000000 ≤ now s + 1 :=
  ⟨sUfsIdle, by decide +kernel⟩

theorem test_hyps_test_events_1 :
    ∃ (c t : Nat) (u s : State), rdB s (ywReg 0x100) 0 = true ∧ yewAllowed s = true ∧ s.yew.nextDt ≤ now s ∧ nextCluster s = some c ∧ (t = (if s.yew.nextDt = 0 then now s else s.yew.nextDt)) ∧ u = { s with yew := { s.yew with last := c, nextDt := t + testPeriod s } } :=
  ⟨_, _, _, sYew 0, by decide +kernel, by decide +kernel, by decide +kernel, rfl, rfl, rfl⟩

theorem test_hyps_test_events_2 :
    ∃ (c : Nat) (s : State), rdB s (ywReg 0x100) 0 = true ∧ yewAllowed s = false ∧ s.yew.nextDt ≤ now s ∧ nextCluster s = some c :=
  ⟨0, State.reset, by decide +kernel⟩

theorem test_hyps_test_events_3 :
    ∃ (c : ClusterId) (d : Nat) (u s : State), mapFind c.val s.yew.due = some d ∧ rdB s (ywReg 0x118) 63 = false ∧ d + hours24 ≤ now s ∧ (placedOn s c).isEmpty = false ∧ u = { s with yew := { s.yew with yieldDt := now s, vacate := s.yew.vacate.erase c } } :=
  ⟨0, _, _, sYewLate, rfl, by decide +kernel, by decide +kernel, by decide +kernel, rfl⟩

theorem test_hyps_test_events_4 :
    ∃ (c : ClusterId) (pace : Nat) (s : State), (mapFind c.val s.yew.due).isSome = true ∧ s.yew.vacate.contains c.val = true ∧ (placedOn s c).isEmpty = true ∧ heldBack s c = false ∧ clusterFenced s c = false ∧ devState s ≠ 3 ∧ scrubFirst s c = false ∧ yewFree s 1 = true :=
  ⟨0, 5, sYewReady, by decide +kernel⟩

theorem test_hyps_test_events_5 :
    ∃ (c : ClusterId) (pace : Nat) (s : State), (mapFind c.val s.yew.due).isSome = true ∧ s.yew.vacate.contains c.val = true ∧ (placedOn s c).isEmpty = true ∧ heldBack s c = false ∧ clusterFenced s c = false ∧ devState s ≠ 3 ∧ scrubFirst s c = false ∧ yewAllowed s = true ∧ yewFree s 1 = false :=
  ⟨0, 5, sYewBusy, by decide +kernel⟩

theorem test_hyps_test_events_6 :
    ∃ (c : ClusterId) (pace : Nat) (s : State), (devState s = 3 ∨ (yewAllowed s = true ∧ scrubFirst s c = true)) :=
  ⟨0, 5, sDevice 3 none, .inl (by decide +kernel)⟩

theorem test_hyps_test_events_8 :
    ∃ (x : YewTest) (s : State), s.yew.queue.any (fun y => y.mode == x.mode && y.cluster == x.cluster) = false ∧ s.yew.queue.length < 16 :=
  ⟨newTest 2 7, State.reset, by decide +kernel⟩

theorem test_hyps_test_events_9 :
    ∃ (x y : YewTest) (s : State), s.yew.queue.any (fun y => y.mode == x.mode && y.cluster == x.cluster) = false ∧ 16 ≤ s.yew.queue.length ∧ x.mode ≠ 1 ∧ s.yew.queue.reverse.find? (fun y => y.mode == 1) = some y :=
  ⟨newTest 2 7, _, sYewFull, by decide +kernel, by decide +kernel, by decide, rfl⟩

theorem test_hyps_test_events_10 :
    ∃ (c : ClusterId) (s : State), s.commit.quar.any (fun (q : Suspect) => q.cluster == c.val) = true ∧ mapGet (fun _ => 0) s.commit.confirm c = 0 ∧ heldBack s c = false ∧ s.yew.run.any (fun (x : YewTest) => x.cluster == c.val) = false ∧ yewFree s 2 = true ∧ (s.yew.queue.find? (fun x => x.mode == 2) = none ∨ (s.yew.queue.find? (fun x => x.mode == 2)).map (fun x => x.cluster) = some c.val) ∧ (residentOn s (tilesOf c)).isEmpty = true :=
  ⟨5, sSuspect 0, by decide +kernel⟩

theorem test_hyps_test_events_11 :
    ∃ (c : ClusterId) (s : State), s.commit.quar.any (fun (q : Suspect) => q.cluster == c.val) = true ∧ mapGet (fun _ => 0) s.commit.confirm c = 0 ∧ heldBack s c = false ∧ s.yew.run.any (fun (x : YewTest) => x.cluster == c.val) = false ∧ yewAllowed s = true ∧ (yewFree s 2 = false ∨ (residentOn s (tilesOf c)).isEmpty = false) :=
  ⟨5, sSuspectBusy, by decide +kernel⟩

theorem test_hyps_test_events_12 :
    ∃ (service stress : List (TileId × Fin 10)) (chans weak : List ChanId) (t : YewTest) (u s : State), s.yew.run = some t ∧ (t.mode = 1 ∨ t.mode = 2) ∧ t.bad = false ∧ clockBad s = false ∧ fencedIn s t.cluster = t.fenced ∧ t.started = true ∧ failsIn s t.cluster service = [] ∧ u = takeResult s t.cluster [] (failsIn s t.cluster stress) :=
  ⟨[], [], [], [], _, _, sTested false, rfl, by decide, by decide, by decide +kernel, by decide +kernel, by decide, rfl, rfl⟩

theorem test_hyps_test_events_13 :
    ∃ (service stress : List (TileId × Fin 10)) (chans weak : List ChanId) (t x : YewTest) (u v s : State), s.yew.run = some t ∧ (t.mode = 1 ∨ t.mode = 2) ∧ t.bad = false ∧ clockBad s = false ∧ fencedIn s t.cluster = t.fenced ∧ t.started = true ∧ failsIn s t.cluster service ≠ [] ∧ u = takeResult s t.cluster (failsIn s t.cluster service) (failsIn s t.cluster stress) ∧ (v = marched (if t.mode = 2 then confirmResult u t.cluster false else testRan u t.cluster) [t.cluster]) ∧ x = { t with mode := 3, fails := failsIn s t.cluster service } :=
  ⟨[(0, 2)], [], [], [], _, _, _, _, sTested false, rfl, .inl rfl, rfl, by decide +kernel, by decide +kernel, rfl, by decide +kernel, rfl, rfl, rfl⟩

theorem test_hyps_test_events_14 :
    ∃ (service stress : List (TileId × Fin 10)) (chans weak : List ChanId) (t : YewTest) (s : State), s.yew.run = some t ∧ (((t.mode = 1 ∨ t.mode = 2) ∧ (t.bad = true ∨ clockBad s = true ∨ fencedIn s t.cluster ≠ t.fenced)) ∨ (t.mode = 4 ∧ t.fails = [] ∧ (t.bad = true ∨ clockBad s = true))) :=
  ⟨[], [], [], [], _, sTested true, rfl, .inl ⟨.inl rfl, .inl rfl⟩⟩

theorem test_hyps_test_events_15 :
    ∃ (service stress : List (TileId × Fin 10)) (chans weak : List ChanId) (grid : List (TileId × Fin 10 × Fin 801 × Int)) (t : YewTest) (s : State), s.yew.run = some t ∧ t.bad = false ∧ clockBad s = false ∧ fencedIn s t.cluster = t.fenced ∧ t.started = false :=
  ⟨[], [], [], [], [], _, sYewBusy, rfl, by decide +kernel⟩

theorem test_hyps_test_events_16 :
    ∃ (service stress : List (TileId × Fin 10)) (chans weak : List ChanId) (t : YewTest) (u s : State), s.yew.run = some t ∧ t.mode = 4 ∧ t.fails = [] ∧ t.bad = false ∧ clockBad s = false ∧ t.started = true ∧ u = sdChannels (waveDone s t.cluster service stress) (chans.map (fun h => h.val)) (weak.map (fun h => h.val)) :=
  ⟨[], [], [], [], _, _, sWave, rfl, rfl, rfl, by decide +kernel, by decide +kernel, rfl, rfl⟩

theorem test_hyps_test_events_17 :
    ∃ (grid : List (TileId × Fin 10 × Fin 801 × Int)) (t : YewTest) (s : State), s.yew.run = some t ∧ t.mode = 3 ∧ testBad s t = false ∧ t.started = true :=
  ⟨[], _, sSweep, rfl, by decide +kernel⟩

theorem test_hyps_test_events_18 :
    ∃ (grid : List (TileId × Fin 10 × Fin 801 × Int)) (t x : YewTest) (l : List YewTest) (u s : State), s.yew.run = some t ∧ t.mode = 4 ∧ s.yew.sdSweeps = x :: l ∧ testBad s t = false ∧ u = marched { s with yew := { s.yew with sdSweeps := l } } [x.cluster] :=
  ⟨[], _, _, _, _, sWaveSweep, rfl, rfl, rfl, by decide +kernel, rfl⟩

theorem test_hyps_test_events_19 :
    ∃ (grid : List (TileId × Fin 10 × Fin 801 × Int)) (x : YewTest) (u s : State), s.yew.run = none ∧ yewFree s 3 = true ∧ s.yew.queue.find? (fun y => y.mode == 3) = some x ∧ underTest s x.cluster = true ∧ u = setQueue s (s.yew.queue.erase x) :=
  ⟨[], _, _, sSweepQueued true, rfl, by decide +kernel, rfl, by decide +kernel, rfl⟩

theorem test_hyps_test_events_20 :
    ∃ (grid : List (TileId × Fin 10 × Fin 801 × Int)) (x : YewTest) (s : State), s.yew.run = none ∧ yewFree s 3 = true ∧ s.yew.queue.find? (fun y => y.mode == 3) = some x ∧ underTest s x.cluster = false ∧ placedOn s x.cluster = [] :=
  ⟨[], _, sSweepQueued false, rfl, by decide +kernel, rfl, by decide +kernel⟩

theorem test_hyps_test_events_21 :
    ∃ (t : TileId) (router : Bool) (k n : Nat) (l : List Nat) (u v s : State), underTest s (clusterOf t) = false ∧ k = 2 * clusterOf t + bit01 router ∧ (n = (if mapGet (fun _ => 0) s.yew.tripWin k = now s / 1000000000 + 1 then mapGet (fun _ => 0) s.yew.trips k + 1 else 1)) ∧ (l = (if mapGet (fun _ => 0) s.yew.tripWin k = now s / 1000000000 + 1 then (mapGet (fun _ => []) s.yew.tripTiles k ++ [t.val]).eraseDups else [t.val])) ∧ u = { s with yew := { s.yew with trips := mapPut (fun _ => 0) s.yew.trips k n, tripWin := mapPut (fun _ => 0) s.yew.tripWin k (now s / 1000000000 + 1), tripTiles := mapPut (fun _ => []) s.yew.tripTiles k l } } ∧ v = noteHour (incWrap u (ywReg 0x098) 1) (clusterOf t) (fun h => { h with trips := min 65535 (h.trips + 1) }) :=
  ⟨17, true, _, _, _, _, _, State.reset, by decide +kernel, rfl, rfl, rfl, rfl, rfl⟩

theorem test_hyps_test_events_22 :
    ∃ (w : Nat) (d : Nat × Nat × Nat) (s : State), w = now s / 3600000000000 ∧ w ≠ 0 ∧ s.yew.aged ≠ w ∧ dirEntry s 4 = some d :=
  ⟨_, _, sHourDir, rfl, by decide +kernel, by decide +kernel, rfl⟩

theorem test_hyps_test_events_23 :
    ∃ (w : Nat) (s : State), w = now s / 3600000000000 ∧ w ≠ 0 ∧ s.yew.aged ≠ w ∧ dirEntry s 4 = none :=
  ⟨_, sHour, rfl, by decide +kernel⟩

theorem test_hyps_test_registers_1 :
    ∃ (a : Agent) (v u s : State), writeOk s a (ywReg 0x110) 1 = true ∧ yewAllowed s = true ∧ anyResident s = false ∧ s.yew.run = none ∧ u = fillMem { s with yew := { s.yew with sdFences := 0, sdSweeps := [], run := some { newTest 4 8 with fails := [(4608, 0)] } } } 0 0x6000000000 true ∧ v = wrF u (ywReg 0x108) 0 3 4 :=
  ⟨.companion, _, _, sYew 0, by decide +kernel, by decide +kernel, by decide +kernel, rfl, rfl, rfl⟩

theorem test_hyps_test_registers_2 :
    ∃ (g : Nat) (u s : State), g < 8 ∧ testable s g ≠ [] ∧ u = { s with yew := { s.yew with run := some { mode := 4, cluster := g, started := false, bad := false, fenced := 0, fails := [] }, ready := s.yew.ready.filter (fun c => !(testable s g).contains c), testVolt := s.yew.testVolt.filter (fun e => !(testable s g).contains e.1) ++ (testable s g).map (fun c => (c, clampVolt (serviceVolt s c))) } } :=
  ⟨0, _, State.reset, by decide, by decide +kernel, rfl⟩

theorem test_hyps_test_registers_3 :
    ∃ (a : Agent) (s : State), writeOk s a (ywReg 0x110) 1 = true ∧ yewAllowed s = true ∧ anyResident s = true :=
  ⟨.companion, sYewPlaced, by decide +kernel⟩

theorem test_hyps_test_registers_4 :
    ∃ (a : Agent) (s : State), writeOk s a (ywReg 0x110) 2 = true ∧ rdB s (ywReg 0x118) 63 = true ∧ s.yew.vacate.contains (rdF s (ywReg 0x118) 32 9) = false :=
  ⟨.companion, sYield, by decide +kernel⟩

theorem test_hyps_test_registers_5 :
    ∃ (a : Agent) (c : Fin 512) (s : State), writeOk s a (ywReg 0x110) (BitVec.ofNat 64 (place 8 9 c.val + 3)) = true ∧ c.val < 288 ∧ yewAllowed s = true :=
  ⟨.companion, 287, sYew 0, by decide +kernel⟩

theorem test_hyps_test_registers_6 :
    ∃ (a : Agent) (c : Fin 512) (s : State), writeOk s a (ywReg 0x110) (BitVec.ofNat 64 (place 8 9 c.val + 3)) = true ∧ 288 ≤ c.val :=
  ⟨.companion, 288, State.reset, by decide +kernel⟩

theorem test_hyps_test_registers_7 :
    ∃ (a : Agent) (c : Fin 512) (s : State), writeOk s a (ywReg 0x110) (BitVec.ofNat 64 (place 8 9 c.val + 3)) = true ∧ c.val < 288 ∧ yewAllowed s = false :=
  ⟨.companion, 0, State.reset, by decide +kernel⟩

theorem test_hyps_test_registers_8 :
    ∃ (a : Agent) (s : State), writeOk s a (ywReg 0x110) 4 = true ∧ rawAllowed s = true ∧ s.yew.run = none :=
  ⟨.companion, sRaw 0, by decide +kernel, by decide +kernel, rfl⟩

theorem test_hyps_test_registers_9 :
    ∃ (a : Agent) (s : State), writeOk s a (ywReg 0x110) 5 = true ∧ rdF s (devReg 9 0x108) 0 3 = 5 :=
  ⟨.companion, sRaw 5, by decide +kernel⟩

theorem test_hyps_test_registers_10 :
    ∃ (a : Agent) (v : W64) (w : Nat × Nat) (s : State), writeOk s a (ywReg 0x808) v = true ∧ inRaw s = true ∧ rawWord s = some w :=
  ⟨.companion, 0x0100000005, _, sRaw 5, by decide +kernel, by decide +kernel, rfl⟩

theorem test_hyps_test_registers_11 :
    ∃ (a : Agent) (v : W64) (s : State), writeOk s a (ywReg 0x810) v = true ∧ inRaw s = true ∧ rdF s (ywReg 0x120) 0 9 < 288 :=
  ⟨.companion, 5, sRaw 5, by decide +kernel⟩

theorem test_hyps_test_registers_12 :
    ∃ (a : Agent) (w : Nat × Nat) (s : State), readOk s a (ywReg 0x808) = true ∧ inRaw s = true ∧ rawWord s = some w :=
  ⟨.companion, _, sRaw 5, by decide +kernel, by decide +kernel, rfl⟩

theorem test_hyps_test_registers_13 :
    ∃ (a : Agent) (s : State), readOk s a (ywReg 0x810) = true ∧ inRaw s = true :=
  ⟨.companion, sRaw 5, by decide +kernel⟩

theorem test_hyps_power_states_1 :
    ∃ (u s : State), timedWake s = false ∧ u = each (List.range 288) evalCluster (each (List.range 288) noteIdle s) :=
  ⟨_, State.reset, by decide +kernel, rfl⟩

theorem test_hyps_power_states_2 :
    ∃ (u s : State), timedWake s = true ∧ u = each (List.range 288) evalCluster (each (List.range 288) noteIdle s) :=
  ⟨_, sTimedWake, by decide +kernel, rfl⟩

theorem test_hyps_power_states_3 :
    ∃ (c : ClusterId) (u s : State), mapFind c.val s.power.entering = some 3 ∧ mayTurnOff s c = true ∧ u = { s with power := { s.power with entering := mapErase c s.power.entering } } :=
  ⟨7, _, sEntering 3, rfl, by decide +kernel, rfl⟩

theorem test_hyps_power_states_4 :
    ∃ (c : ClusterId) (st : Nat) (u s : State), mapFind c.val s.power.entering = some st ∧ st ≠ 3 ∧ u = { s with power := { s.power with entering := mapErase c s.power.entering } } :=
  ⟨7, 2, _, sEntering 2, rfl, by decide, rfl⟩

theorem test_hyps_power_states_5 :
    ∃ (c : ClusterId) (v u s : State), 2 ≤ clusterPower s c ∧ clWaking s c = false ∧ u = { s with power := { s.power with entering := mapErase c s.power.entering, idle := mapErase c s.power.idle } } ∧ v = incWrap (wrB { u with power := { u.power with waking := mapInsert c (now s) (mapErase c u.power.waking) } } (clStat c) 3 true) (clusterReg c 0x090) 1 :=
  ⟨7, _, _, sAsleep 2 false, by decide +kernel, by decide +kernel, rfl, rfl⟩

theorem test_hyps_power_states_6 :
    ∃ (c : ClusterId) (u s : State), (clusterPower s c < 2 ∨ clWaking s c = true) ∧ u = { s with power := { s.power with entering := mapErase c s.power.entering, idle := mapErase c s.power.idle } } :=
  ⟨7, _, State.reset, by decide +kernel, rfl⟩

theorem test_hyps_power_states_7 :
    ∃ (c : ClusterId) (d : Nat) (u s : State), mapFind c.val s.power.waking = some d ∧ clusterPower s c ≠ 3 ∧ u = wrB (wrF { s with power := { s.power with waking := mapErase c s.power.waking, idle := mapErase c s.power.idle } } (clStat c) 0 2 0) (clStat c) 3 false :=
  ⟨7, _, _, sAsleep 2 true, rfl, by decide +kernel, rfl⟩

theorem test_hyps_power_states_8 :
    ∃ (c : ClusterId) (d : Nat) (u s : State), mapFind c.val s.power.waking = some d ∧ clusterPower s c = 3 ∧ s.boot.refill.isEmpty = true ∧ (tilesOf c).all (fwReady s) = true ∧ u = wrB (wrF { s with power := { s.power with waking := mapErase c s.power.waking, idle := mapErase c s.power.idle } } (clStat c) 0 2 0) (clStat c) 3 false :=
  ⟨7, _, _, sAsleep 3 true, rfl, by decide +kernel, by decide +kernel, by decide +kernel, rfl⟩

theorem test_hyps_power_states_9 :
    ∃ (u s : State), devState s ≠ 0 ∧ devWaking s = false ∧ u = { s with power := { s.power with devEnter := none, allIdle := 0 } } :=
  ⟨_, sDevice 2 none, by decide +kernel, by decide +kernel, rfl⟩

theorem test_hyps_power_states_10 :
    ∃ (s : State), (devState s = 0 ∨ devWaking s = true) :=
  ⟨State.reset, by decide +kernel⟩

theorem test_hyps_power_states_11 :
    ∃ (d : Nat) (u v s : State), s.power.devWake = some d ∧ u = fromSelfRefresh (loudLanes (wrB (wrF { s with power := { s.power with devWake := none } } (pwReg 0x108) 0 2 0) (pwReg 0x108) 2 false)) ∧ (v = (if devState s = 3 then each (List.range 288) wakeCluster u else u)) :=
  ⟨_, _, _, sDevice 2 (some 5), rfl, rfl, rfl⟩

theorem test_hyps_power_states_12 :
    ∃ (p : Nat) (u v s : State), s.power.devEnter = some p ∧ p < 3 ∧ u = incWrap (wrF { s with power := { s.power with devEnter := none } } (pwReg 0x108) 0 2 p) (pwReg 0x080) 1 ∧ (v = (if u.power.quiet then u else sayLanes { u with power := { u.power with quiet := true } } true)) :=
  ⟨_, _, _, sDevEnter 2, rfl, by decide, rfl, rfl⟩

theorem test_hyps_power_states_13 :
    ∃ (w u v s : State), s.power.devEnter = some 3 ∧ u = toSelfRefresh (incWrap (wrF { s with power := { s.power with devEnter := none } } (pwReg 0x108) 0 2 3) (pwReg 0x080) 1) ∧ (v = each (List.range 14) (fun y q => if portRuns y q then linkLost y q 4 else y) (endSession u 3)) ∧ (w = (if gbUp v then gbLost v 4 else v)) :=
  ⟨_, _, _, sDevEnter 3, rfl, rfl, rfl, rfl⟩

theorem test_hyps_power_states_14 :
    ∃ (a : Agent) (us : W32) (s : State), writeOk s a (pwReg 0x110) (BitVec.ofNat 64 us.toNat) = true :=
  ⟨.companion, 100, State.reset, by decide +kernel⟩

theorem test_hyps_power_states_15 :
    ∃ (a : Agent) (c : CtxId) (us : W32) (u s : State), writeOk s a (pwReg 0x118) (BitVec.ofNat 64 c.val) = true ∧ u = indexed s (pwReg 0x118) 0xFF c ∧ writeOk u a (pwReg 0x120) (BitVec.ofNat 64 us.toNat) = true :=
  ⟨.companion, 255, 100, _, State.reset, by decide +kernel, rfl, by decide +kernel⟩

theorem test_hyps_power_readings_1 :
    ∃ (c : ClusterId) (temp : Fin 65536) (mv : Fin 16384) (t : Int) (u v s : State), t = signedOf 16 temp ∧ u = wrF (wr s (clusterReg c 0x190) (BitVec.ofNat 64 (place 16 16 (patternOf 16 (max (signedOf 16 (rdF s (clusterReg c 0x190) 16 16)) t)) + temp.val))) (clStat c) 26 14 mv ∧ v = noteHour u c (fun h => { h with hot := max h.hot (t / 10) }) :=
  ⟨7, 65535, 750, _, _, _, State.reset, rfl, rfl, rfl⟩

theorem test_hyps_power_readings_2 :
    ∃ (g : Fin 8) (supplied : Fin 65536) (n : Nat) (u v s : State), (n = (if segReq s g < segTarget s g then min (segTarget s g) (segReq s g + 25) else max (segTarget s g) (segReq s g - 25))) ∧ (u = { s with power := { s.power with req := mapPut (fun _ => 7750) s.power.req g n, settled := mapPut (fun _ => 0) s.power.settled g (if n = segTarget s g then (if mapGet (fun _ => 0) s.power.settled g = 0 then now s + 1 else mapGet (fun _ => 0) s.power.settled g) else 0) } }) ∧ v = each ((segClusters g).filter (fun c => rdB s (clStat c) 4 && setVolt s c + 250 ≤ 10 * supplied.val)) (fun y c => wrB y (clStat c) 4 false) (wr u (pwReg (0x180 + 8 * g.val)) (BitVec.ofNat 64 (place 16 16 supplied.val + n / 10))) :=
  ⟨3, 775, _, _, _, State.reset, rfl, rfl, rfl⟩

theorem test_hyps_power_readings_3 :
    ∃ (c : ClusterId) (d : Nat) (s : State), d = mapGet (fun _ => 0) s.power.settled (segmentOf c) ∧ d ≠ 0 ∧ d - 1 + 500000 ≤ now s ∧ 10 * rdF s (pwReg (0x180 + 8 * segmentOf c)) 16 16 < setVolt s c + 250 :=
  ⟨7, _, sSettled, rfl, by decide +kernel⟩

theorem test_hyps_power_readings_4 :
    ∃ (watts : Fin 65536) (u s : State), u = throttlePower (each (List.range 288) throttleCluster (wr s (pwReg 0x130) (BitVec.ofNat 64 watts))) :=
  ⟨1200, _, State.reset, rfl⟩

theorem test_hyps_power_readings_5 :
    ∃ (c : ClusterId) (s : State), Int.ofNat (10 * rdF s (pwReg 0x100) 28 8) ≤ clusterTemp s c ∧ rdB s (clStat c) 5 = false :=
  ⟨7, sHot, by decide +kernel⟩

theorem test_hyps_security_commands_1 :
    ∃ (a : Agent) (arg : Fin 281474976710656) (u s : State), writeOk s a (hwReg 0x110) (BitVec.ofNat 64 arg.val) = true ∧ u = indexed s (hwReg 0x110) 0xFFFFFFFFFFFF arg ∧ writeOk u a (hwReg 0x108) 1 = true ∧ hwBusy u = false :=
  ⟨.companion, 65536, _, State.reset, by decide +kernel, rfl, by decide +kernel⟩

theorem test_hyps_security_commands_2 :
    ∃ (a : Agent) (arg : Fin 281474976710656) (u s : State), writeOk s a (hwReg 0x110) (BitVec.ofNat 64 arg.val) = true ∧ u = indexed s (hwReg 0x110) 0xFFFFFFFFFFFF arg ∧ writeOk u a (hwReg 0x108) 2 = true ∧ hwBusy u = false :=
  ⟨.companion, 65536, _, State.reset, by decide +kernel, rfl, by decide +kernel⟩

theorem test_hyps_security_commands_3 :
    ∃ (a : Agent) (arg : Fin 281474976710656) (u s : State), writeOk s a (hwReg 0x110) (BitVec.ofNat 64 arg.val) = true ∧ u = indexed s (hwReg 0x110) 0xFFFFFFFFFFFF arg ∧ writeOk u a (hwReg 0x108) 4 = true ∧ hwBusy u = false :=
  ⟨.companion, 65536, _, State.reset, by decide +kernel, rfl, by decide +kernel⟩

theorem test_hyps_security_commands_4 :
    ∃ (a : Agent) (s : State), writeOk s a (hwReg 0x108) 3 = true ∧ hwBusy s = false ∧ s.sec.session.isSome = true :=
  ⟨.companion, sSession 2, by decide +kernel⟩

theorem test_hyps_security_commands_5 :
    ∃ (a : Agent) (s : State), writeOk s a (hwReg 0x108) 3 = true ∧ hwBusy s = true :=
  ⟨.companion, sHwBusy, by decide +kernel⟩

theorem test_hyps_security_commands_6 :
    ∃ (a : Agent) (mr : Fin 16) (s : State), writeOk s a (hwReg 0x108) (BitVec.ofNat 64 (place 8 4 mr.val + 5)) = true ∧ hwBusy s = false ∧ (mr = 6 ∨ mr = 7) :=
  ⟨.companion, 7, State.reset, by decide +kernel⟩

theorem test_hyps_security_commands_7 :
    ∃ (a : Agent) (mr : Fin 16) (s : State), writeOk s a (hwReg 0x108) (BitVec.ofNat 64 (place 8 4 mr.val + 5)) = true ∧ hwBusy s = false ∧ mr ≠ 6 ∧ mr ≠ 7 :=
  ⟨.companion, 5, State.reset, by decide +kernel⟩

theorem test_hyps_security_commands_8 :
    ∃ (a : Agent) (s : State), writeOk s a (hwReg 0x108) 6 = true ∧ hwBusy s = false :=
  ⟨.companion, State.reset, by decide +kernel⟩

theorem test_hyps_security_commands_9 :
    ∃ (a : Agent) (s : State), writeOk s a (hwReg 0x108) 7 = true ∧ hwBusy s = false ∧ debugLevel s = 2 :=
  ⟨.companion, sSession 2, by decide +kernel⟩

theorem test_hyps_security_commands_10 :
    ∃ (a : Agent) (s : State), writeOk s a (hwReg 0x108) 7 = true ∧ hwBusy s = false ∧ debugLevel s ≠ 2 :=
  ⟨.companion, State.reset, by decide +kernel⟩

theorem test_hyps_security_commands_11 :
    ∃ (a : Agent) (s : State), writeOk s a (hwReg 0x108) 8 = true ∧ hwBusy s = false ∧ debugLevel s = 2 :=
  ⟨.companion, sSession 2, by decide +kernel⟩

theorem test_hyps_security_commands_12 :
    ∃ (a : Agent) (s : State), writeOk s a (hwReg 0x108) 9 = true ∧ hwBusy s = false ∧ rawAllowed s = true :=
  ⟨.companion, sRaw 0, by decide +kernel⟩

theorem test_hyps_security_commands_13 :
    ∃ (a : Agent) (s : State), writeOk s a (hwReg 0x108) 9 = true ∧ hwBusy s = false ∧ rawAllowed s = false :=
  ⟨.hawthorn, State.reset, by decide +kernel⟩

theorem test_hyps_security_commands_14 :
    ∃ (r : Nat × Nat × Option Nat) (u s : State), s.sec.running = some r ∧ hwPerform s r.1 r.2.1 r.2.2 = (true, u) ∧ u.time.held = false :=
  ⟨(9, 0, none), sHwDone, sHwDone, rfl, rfl, by decide⟩

theorem test_hyps_security_commands_15 :
    ∃ (r : Nat × Nat × Option Nat) (u s : State), s.sec.running = some r ∧ hwPerform s r.1 r.2.1 r.2.2 = (false, u) :=
  ⟨(1, 65536, none), _, sHwWaits, rfl, pair_of_fst (by decide +kernel)⟩

theorem test_hyps_security_commands_16 :
    ∃ (a : Agent) (s : State), readOk s a (hwReg 0x120) = true :=
  ⟨.companion, State.reset, by decide +kernel⟩

theorem test_hyps_security_commands_18 :
    ∃ (s : State), s.sec.trngOk = false ∧ s.sec.trngDt + 1000000000 ≤ now s :=
  ⟨sTrng, by decide +kernel⟩

theorem test_hyps_security_commands_19 :
    ∃ (s : State), s.sec.trngOk = false ∧ s.sec.trngDt + 1000000000 ≤ now s :=
  ⟨sTrng, by decide +kernel⟩

theorem test_hyps_security_commands_20 :
    ∃ (x : Session) (s : State), s.sec.session = some x ∧ x.notAfter ≤ now s :=
  ⟨_, sSession 0, rfl, by decide +kernel⟩

theorem test_hyps_security_commands_21 :
    ∃ (x : Session) (s : State), s.sec.session = some x ∧ now s < x.notAfter :=
  ⟨_, sSession 2, rfl, by decide +kernel⟩

theorem test_hyps_module_signals_4 :
    ∃ (boot : Bool) (slot : Fin 8) (u s : State), s.module.rstLow = true ∧ u = sampleStraps { s with module := { s.module with rstLow := false } } boot slot :=
  ⟨true, 3, _, sRstLow, by decide, rfl⟩

theorem test_hyps_module_signals_5 :
    ∃ (boot : Bool) (slot : Fin 8) (s : State), s.module.rstLow = false :=
  ⟨true, 3, State.reset, by decide⟩

theorem test_hyps_module_signals_6 :
    ∃ (boot : Bool) (slot : Fin 8) (u s : State), (s.module.supplyFault = true ∨ s.module.overTemp = true) ∧ u = { s with module := { s.module with supplyFault := false, overTemp := false } } :=
  ⟨true, 3, _, sSupplyFault, by decide, rfl⟩

theorem test_hyps_module_signals_8 :
    ∃ (op : Fin 5) (s : State), (op.val ≤ 1 ∨ (debugLevel s = 3 ∧ (lifeCycle s = 1 ∨ lifeCycle s = 4))) :=
  ⟨1, State.reset, by decide⟩

theorem test_hyps_module_signals_9 :
    ∃ (op : Fin 5) (s : State), 1 < op.val ∧ (debugLevel s ≠ 3 ∨ (lifeCycle s ≠ 1 ∧ lifeCycle s ≠ 4)) :=
  ⟨4, State.reset, by decide +kernel⟩

theorem test_hyps_module_access_1 :
    ∃ (addr : Fin 281474976710656) (u s : State), s.module.result = none ∧ s.module.read = none ∧ u = incWrap s (i3cReg 0x080) 1 ∧ i3cAsleep u = false ∧ addr.val % 8 = 0 ∧ regionOf addr.val = .regs :=
  ⟨Fin.ofNat _ (i3cReg 0x108), _, sAwake, rfl, rfl, rfl, by decide +kernel⟩

theorem test_hyps_module_access_2 :
    ∃ (addr : Fin 281474976710656) (u s : State), s.module.result = none ∧ s.module.read = none ∧ u = incWrap s (i3cReg 0x080) 1 ∧ i3cAsleep u = false ∧ addr.val % 8 = 0 ∧ regionOf addr.val = .lpddr ∧ inTfsRing u addr.val = true ∧ halted u = false ∧ dramMapped u addr.val 8 = true :=
  ⟨64, _, sTfs, rfl, rfl, rfl, by decide +kernel⟩

theorem test_hyps_module_access_3 :
    ∃ (addr : Fin 281474976710656) (v : W64) (u s : State), s.module.result = none ∧ s.module.read = none ∧ u = incWrap s (i3cReg 0x080) 1 ∧ i3cAsleep u = false ∧ addr.val % 8 = 0 ∧ regionOf addr.val = .regs :=
  ⟨Fin.ofNat _ (i3cReg 0x108), 1, _, sAwake, rfl, rfl, rfl, by decide +kernel⟩

theorem test_hyps_module_access_4 :
    ∃ (addr : Fin 281474976710656) (v : W64) (u s : State), s.module.result = none ∧ s.module.read = none ∧ u = incWrap s (i3cReg 0x080) 1 ∧ i3cAsleep u = false ∧ addr.val % 8 = 0 ∧ (regionOf addr.val = .pad ∨ regionOf addr.val = .companion) :=
  ⟨Fin.ofNat _ (padBase 0), 1, _, sAwake, rfl, rfl, rfl, by decide +kernel⟩

theorem test_hyps_module_access_5 :
    ∃ (addr : Fin 281474976710656) (v : W64) (u w s : State), s.module.result = none ∧ s.module.read = none ∧ u = incWrap s (i3cReg 0x080) 1 ∧ i3cAsleep u = false ∧ ((addr.val % 8 ≠ 0 ∧ w = u) ∨ (addr.val % 8 = 0 ∧ regionOf addr.val = .unmapped ∧ w = unmapped u .bmc addr.val)) :=
  ⟨1, 3, _, _, sAwake, rfl, rfl, rfl, by decide +kernel, .inl ⟨by decide, rfl⟩⟩

theorem test_hyps_module_access_6 :
    ∃ (addr : Fin 281474976710656) (v : W64) (u s : State), s.module.result = none ∧ s.module.read = none ∧ u = incWrap s (i3cReg 0x080) 1 ∧ i3cAsleep u = true :=
  ⟨1, 1, _, State.reset, rfl, rfl, rfl, by decide +kernel⟩

theorem test_hyps_module_access_7 :
    ∃ (s : State), s.module.result = none ∧ s.module.read = none :=
  ⟨State.reset, rfl, rfl⟩

theorem test_hyps_module_access_8 :
    ∃ (addr : Fin 281474976710656) (v : W64) (r : Nat × Nat) (u s : State), s.module.result = some r ∧ u = { s with module := { s.module with result := some (5, r.2) } } :=
  ⟨8, 1, _, _, sI3cDone, rfl, rfl⟩

theorem test_hyps_module_access_9 :
    ∃ (r : Nat × Nat) (s : State), s.module.result = some r ∧ s.module.read = none :=
  ⟨_, sI3cDone, rfl, rfl⟩

theorem test_hyps_step_of_the_block_2 :
    ∃ (s : State), s.pending = [] :=
  ⟨State.reset, rfl⟩

theorem test_hyps_reset_state_2 :
    ∃ (p : Nat) (k : PageKind) (i : Nat), decodePage p = some (k, i) ∧ p < 0x50000 :=
  ⟨0x40007, _, _, rfl, by decide⟩

theorem test_hyps_licensed_contexts_1 :
    ∃ (s : State), rdF s (hbReg 0x108) 10 2 = 1 :=
  ⟨wrF State.reset (hbReg 0x108) 10 2 1, by decide +kernel⟩

theorem test_hyps_licensed_contexts_2 :
    ∃ (s : State), rdF s (hbReg 0x108) 10 2 = 2 :=
  ⟨wrF State.reset (hbReg 0x108) 10 2 2, by decide +kernel⟩

theorem test_hyps_licensed_contexts_3 :
    ∃ (s : State), rdF s (hbReg 0x108) 10 2 = 3 :=
  ⟨State.reset, by decide +kernel⟩

theorem test_hyps_licensed_contexts_4 :
    ∃ (a : Agent) (t : TileId) (r : Fin 8) (v : W64) (s : State), writeOk s a (spReg t (0x140 + 8 * r.val)) v = true ∧ bitOf v 8 = true ∧ licensedContexts s ≤ fieldOf v 0 8 :=
  ⟨.hornbeam, 4607, 7, guardOf 0x110, State.reset, by decide +kernel⟩

theorem test_hyps_licensed_contexts_5 :
    ∃ (a : Agent) (m : Fin 4) (i : Fin 64) (v : W64) (s : State), writeOk s a (gbReg (0x120 + 8 * m.val)) v = true ∧ bitOf v i = true ∧ licensedContexts s ≤ 64 * m.val + i.val :=
  ⟨.companion, 3, 63, 0x8000000000000000, State.reset, by decide +kernel⟩

theorem test_hyps_licensed_contexts_6 :
    ∃ (a : Agent) (m : Fin 4) (i : Fin 64) (v : W64) (s : State), writeOk s a (hbReg (0x120 + 8 * m.val)) v = true ∧ bitOf v i = true ∧ licensedContexts s ≤ 64 * m.val + i.val :=
  ⟨.companion, 3, 63, 0x8000000000000000, State.reset, by decide +kernel⟩

theorem test_hyps_licensed_contexts_7 :
    ∃ (s : State) (p : Nat), p < 0x50000 :=
  ⟨State.reset, 0x40007, by decide⟩

theorem test_hyps_late_exits_1 :
    ∃ (c : ClusterId) (d : Nat) (u v s : State), mapFind c.val s.power.waking = some d ∧ clusterPower s c ≠ 3 ∧ u = wrB (wrF { s with power := { s.power with waking := mapErase c s.power.waking, idle := mapErase c s.power.idle } } (clStat c) 0 2 0) (clStat c) 3 false ∧ v = each (tilesOf c) drainLocal (restoreBanks u c) :=
  ⟨7, _, _, _, sAsleep 2 true, rfl, by decide +kernel, rfl, rfl⟩

theorem test_hyps_late_exits_2 :
    ∃ (c : ClusterId) (d : Nat) (u v s : State), mapFind c.val s.power.waking = some d ∧ clusterPower s c = 3 ∧ s.boot.refill.isEmpty = true ∧ (tilesOf c).all (fwReady s) = true ∧ u = wrB (wrF { s with power := { s.power with waking := mapErase c s.power.waking, idle := mapErase c s.power.idle } } (clStat c) 0 2 0) (clStat c) 3 false ∧ v = each (tilesOf c) drainLocal (setDestReset (powerBanks u c) (tilesOf c) false) :=
  ⟨7, _, _, _, sAsleep 3 true, rfl, by decide +kernel, by decide +kernel, by decide +kernel, rfl, rfl⟩

theorem test_hyps_late_exits_3 :
    ∃ (d limit : Nat) (u v s : State), s.power.devWake = some d ∧ ((devState s = 1 ∧ limit = 1000) ∨ (devState s = 2 ∧ limit = 30000) ∨ (devState s = 3 ∧ limit = 20000000)) ∧ u = fromSelfRefresh (loudLanes (wrB (wrF { s with power := { s.power with devWake := none } } (pwReg 0x108) 0 2 0) (pwReg 0x108) 2 false)) ∧ (v = (if devState s = 3 then each (List.range 288) wakeCluster u else u)) :=
  ⟨_, 30000, _, _, sDevice 2 (some 5), rfl, by decide +kernel, rfl, rfl⟩

theorem test_hyps_register_writes_1 :
    ∃ (a : Agent) (addr : Nat) (v : W64) (u s : State), pageHit addr = none ∧ u = unmapped s a addr :=
  ⟨.bmc, 8, 1, _, State.reset, by decide +kernel, rfl⟩

theorem test_hyps_register_writes_2 :
    ∃ (a : Agent) (addr : Nat) (v : W64) (x : PageKind × Nat) (u s : State), pageHit addr = some x ∧ addr % 8 ≠ 0 ∧ u = accessRec s (pageAt addr) 0x20 0x0A02 addr :=
  ⟨.bmc, csReg 0x10C, 1, _, _, State.reset, rfl, by decide +kernel, rfl⟩

theorem test_hyps_register_writes_3 :
    ∃ (a : Agent) (addr : Nat) (v : W64) (x : PageKind × Nat) (u s : State), pageHit addr = some x ∧ addr % 8 = 0 ∧ regDenied s a x.1 x.2 (offAt addr) true v = true ∧ u = refuseAccess s a (pageAt addr) addr :=
  ⟨.bmc, csReg 0x108, 1, _, _, State.reset, rfl, by decide +kernel, by decide +kernel, rfl⟩

theorem test_hyps_register_writes_4 :
    ∃ (a : Agent) (addr : Nat) (v : W64) (x : PageKind × Nat) (u s : State), pageHit addr = some x ∧ addr % 8 = 0 ∧ regDenied s a x.1 x.2 (offAt addr) true v = false ∧ u = writeWakes s (pageAt addr) ∧ (findReg (pageRegs x.1 x.2) (offAt addr)).all (fun r => r.1.acc == .ro || r.1.acc == .rs || v.toNat &&& r.1.reserved != 0) = true :=
  ⟨.companion, csReg 0x100, 0x8000000000000000, _, _, State.reset, rfl, by decide +kernel, by decide +kernel, rfl, by decide +kernel⟩

theorem test_hyps_register_writes_5 :
    ∃ (a : Agent) (addr : Nat) (v : W64) (x : PageKind × Nat) (r : RegDesc × Nat) (u s : State), pageHit addr = some x ∧ addr % 8 = 0 ∧ regDenied s a x.1 x.2 (offAt addr) true v = false ∧ u = writeWakes s (pageAt addr) ∧ findReg (pageRegs x.1 x.2) (offAt addr) = some r ∧ r.1.acc = .rwg ∧ v.toNat &&& r.1.reserved = 0 ∧ guardOk v = false :=
  ⟨.hornbeam, spReg 0 0x400, 1, _, _, _, State.reset, rfl, by decide +kernel, by decide +kernel, rfl, rfl, rfl, by decide +kernel⟩

theorem test_hyps_register_writes_6 :
    ∃ (a : Agent) (addr : Nat) (v : W64) (x : PageKind × Nat) (r : RegDesc × Nat) (u s : State), pageHit addr = some x ∧ addr % 8 = 0 ∧ regDenied s a x.1 x.2 (offAt addr) true v = false ∧ u = writeWakes s (pageAt addr) ∧ findReg (pageRegs x.1 x.2) (offAt addr) = some r ∧ regTakes v r.1 = true ∧ (fencedWrite u x.1 x.2 (offAt addr) = true ∨ haltedWrite u x.1 (offAt addr) v = true) :=
  ⟨.companion, csReg 0x108, 1, _, _, _, sHalted, rfl, by decide +kernel, by decide +kernel, rfl, rfl, by decide +kernel⟩

theorem test_hyps_register_writes_7 :
    ∃ (a : Agent) (addr : Nat) (v : W64) (x : PageKind × Nat) (r : RegDesc × Nat) (s : State), writeOk s a addr v = true ∧ pageHit addr = some x ∧ findReg (pageRegs x.1 x.2) (offAt addr) = some r ∧ 0x80 ≤ offAt addr ∧ r.1.acc = .rw :=
  ⟨.companion, csReg 0x108, 1, _, _, State.reset, by decide +kernel, rfl, rfl, by decide +kernel, rfl⟩

theorem test_hyps_register_writes_8 :
    ∃ (a : Agent) (addr : Nat) (v : W64) (x : PageKind × Nat) (r : RegDesc × Nat) (s : State), writeOk s a addr v = true ∧ pageHit addr = some x ∧ findReg (pageRegs x.1 x.2) (offAt addr) = some r ∧ 0x80 ≤ offAt addr ∧ (r.1.acc = .wo ∨ r.1.acc = .rwg) :=
  ⟨.companion, csReg 0x1C8, 4, _, _, State.reset, by decide +kernel, rfl, rfl, by decide +kernel⟩

theorem test_hyps_register_writes_9 :
    ∃ (a : Agent) (addr : Nat) (v : W64) (x : PageKind × Nat) (r : RegDesc × Nat) (s : State), writeOk s a addr v = true ∧ pageHit addr = some x ∧ findReg (pageRegs x.1 x.2) (offAt addr) = some r ∧ offAt addr < 0x80 :=
  ⟨.companion, csReg 0x20, 8, _, _, State.reset, by decide +kernel, rfl, rfl, by decide +kernel⟩

theorem test_hyps_memory_bytes_3 :
    ∃ (a : Nat) (s : State), Memory.wf s = true :=
  ⟨0, State.reset, by decide⟩

theorem test_hyps_header_words_1 :
    ∃ (h : Header), h.wf = true :=
  ⟨emptyMsg.hdr, by decide⟩

theorem test_hyps_header_words_2 :
    ∃ (m : Msg), m.wf = true ∧ m.pay.length = m.hdr.payLen ∧ m.hdr.len = lenOfPay m.hdr.payLen :=
  ⟨emptyMsg, by decide⟩

theorem test_hyps_report_frame_1 :
    ∃ (s : State) (p bits code : Nat) (i : RecInfo) (u : State), p < 0x50000 ∧ (u = reportB s p bits code i ∨ u = setErr s p bits) :=
  ⟨State.reset, 0x40007, 0, 0x0E0C, { }, _, by decide, .inl rfl⟩

theorem test_hyps_report_frame_2 :
    ∃ (s : State) (p bits code k : Nat) (i : RecInfo) (u : State), p < 0x50000 ∧ (u = reportB s p bits code i ∨ u = setErr s p bits) ∧ k ≠ devReg 1 0x88 ∧ (∀ o ∈ [0x20, 0x30, 0x38], k ≠ pageBase p + o ∧ k ≠ devReg 1 o) :=
  ⟨State.reset, 0x40007, 0, 0x0E0C, devReg 7 0x108, { }, _, by decide, .inl rfl, by decide⟩

theorem test_hyps_report_frame_3 :
    ∃ (s : State) (p q bits code n : Nat) (i : RecInfo) (u : State), p < 0x50000 ∧ q < 0x50000 ∧ (u = reportB s p bits code i ∨ u = setErr s p bits) ∧ rdB s (pageBase q + 0x20) n = true :=
  ⟨sErrBit, 0x40007, 0x40007, 0, 0x0E0C, 3, { }, _, by decide, by decide, .inl rfl, by decide +kernel⟩

theorem test_hyps_report_frame_4 :
    ∃ (s : State) (p bits code : Nat) (i : RecInfo), p < 0x50000 ∧ (mapGet (fun _ => []) s.log.coll (collectorOf p)).length < 16 :=
  ⟨State.reset, 0x40007, 0, 0x0E0C, { }, by decide +kernel⟩

theorem test_hyps_step_keeps_canonical_1 :
    ∃ (s t : State), s.Canonical ∧ step s = .next t :=
  ⟨State.reset, _, ⟨rfl, rfl, rfl⟩, rfl⟩

theorem test_hyps_step_never_goes_back_1 :
    ∃ (s t : State), s.Canonical ∧ step s = .next t :=
  ⟨State.reset, _, ⟨rfl, rfl, rfl⟩, rfl⟩

end Sys2Proof.Tests
end

/-! SUPPORT. Bytes in memory (R9): what a run of bytes reads as after it was written, what else changes, and the write that
leaves no entry. -/

namespace Sys2Proof.Machine

/-! ### Runs of bytes -/

theorem readBytes_succ (s : State) (a n : Nat) : readBytes s a (n + 1) = readByte s a :: readBytes s (a + 1) n := by
  simp [readBytes, List.range_succ_eq_map, Function.comp_def, Nat.add_comm, Nat.add_left_comm]

/-- A run of bytes changes no address outside it. -/
theorem readByte_writeBytes_outside (l : List Byte) (s : State) {a c : Nat} (h : c < a ∨ a + l.length ≤ c) :
    readByte (writeBytes s a l) c = readByte s c := by
  induction l generalizing s a with
  | nil => rfl
  | cons b l ih =>
    rw [List.length_cons] at h
    have hc : c ≠ a := by omega
    rw [writeBytes_cons, ih _ (by omega), readByte_writeByte_ne s b hc]

/-- A run of bytes is read back. -/
theorem readBytes_writeBytes_self (l : List Byte) (s : State) (a : Nat) : readBytes (writeBytes s a l) a l.length = l := by
  induction l generalizing s a with
  | nil => rfl
  | cons b l ih =>
    have hb : readByte (writeBytes (writeByte s a b) (a + 1) l) a = b := by
      rw [readByte_writeBytes_outside l _ (.inl a.lt_succ_self), readByte_writeByte_self]
    rw [List.length_cons, readBytes_succ, writeBytes_cons, hb, ih]

theorem writeBytes_wf (l : List Byte) (s : State) (a : Nat) (h : Memory.wf s = true) : Memory.wf (writeBytes s a l) = true :=
  writeBytes_keeps (fun u => Memory.wf u = true) writeByte_wf l s a h

@[simp] theorem writeBytes_regs (l : List Byte) (s : State) (a : Nat) : (writeBytes s a l).regs = s.regs :=
  writeBytes_keeps (fun u => u.regs = s.regs) (fun u c b h => (writeByte_regs u c b).trans h) l s a rfl

@[simp] theorem writeBytes_chk (l : List Byte) (s : State) (a : Nat) : (writeBytes s a l).chk = s.chk :=
  writeBytes_keeps (fun u => u.chk = s.chk) (fun u c b h => (writeByte_chk u c b).trans h) l s a rfl

@[simp] theorem writeBytes_out (l : List Byte) (s : State) (a : Nat) : (writeBytes s a l).out = s.out :=
  writeBytes_keeps (fun u => u.out = s.out) (fun u c b h => (writeByte_out u c b).trans h) l s a rfl

/-! ### Little-endian numbers -/

@[simp] theorem length_bytesOf (n v : Nat) : (bytesOf n v).length = n := by simp [bytesOf]

theorem bytesOf_succ (n v : Nat) : bytesOf (n + 1) v = BitVec.ofNat 8 v :: bytesOf n (v / 256) := by
  have hdiv (i : Nat) : v >>> (8 * (i + 1)) = (v / 256) >>> (8 * i) := by
    rw [Nat.mul_succ, Nat.add_comm, Nat.shiftRight_add, Nat.shiftRight_eq_div_pow v 8]
  simp [bytesOf, List.range_succ_eq_map, Function.comp_def, hdiv]

/-- The bytes of a number hold it modulo their width (R9). -/
theorem natOfBytes_bytesOf (n v : Nat) : natOfBytes (bytesOf n v) = v % 256 ^ n := by
  induction n generalizing v with
  | zero => rw [Nat.pow_zero, Nat.mod_one]; rfl
  | succ n ih =>
    rw [bytesOf_succ, natOfBytes, ih, BitVec.toNat_ofNat, Nat.pow_succ' (m := 256), Nat.mod_mul (a := 256)]

theorem readNat_writeNat_self (s : State) (a n v : Nat) : readNat (writeNat s a n v) a n = v % 256 ^ n := by
  have h := readBytes_writeBytes_self (bytesOf n v) s a
  rw [length_bytesOf] at h
  rw [readNat, writeNat, h, natOfBytes_bytesOf]

/-! ### A write of what an address reads as -/

theorem mapErase_eq_self {α : Type} {k : Nat} {m : NMap α} (h : ∀ p ∈ m, p.1 ≠ k) : mapErase k m = m :=
  List.filter_eq_self.2 fun p hp => bne_iff_ne.2 (h p hp)

theorem ne_of_mapFind_none {α : Type} {k : Nat} {m : NMap α} (h : mapFind k m = none) : ∀ p ∈ m, p.1 ≠ k := by
  induction m with
  | nil => exact fun _ hp => absurd hp List.not_mem_nil
  | cons p m ih =>
    obtain ⟨j, v⟩ := p
    by_cases hj : j = k
    · simp [mapFind, hj] at h
    · rw [mapFind, if_neg hj] at h
      exact List.forall_mem_cons.2 ⟨hj, ih h⟩

theorem mem_of_mapFind_some {α : Type} {k : Nat} {v : α} {m : NMap α} (h : mapFind k m = some v) : (k, v) ∈ m := by
  induction m with
  | nil => cases h
  | cons p m ih =>
    obtain ⟨j, w⟩ := p
    rw [mapFind] at h
    split at h
    · next hj =>
      cases h
      exact hj ▸ List.mem_cons_self
    · exact List.mem_cons_of_mem _ (ih h)

theorem mapInsert_of_lt {α : Type} {k : Nat} (v : α) {m : NMap α} (h : ∀ p ∈ m, k < p.1) : mapInsert k v m = (k, v) :: m := by
  cases m with
  | nil => rfl
  | cons p m => rw [mapInsert, if_pos (h p List.mem_cons_self)]

/-- In a sorted map an entry taken out and placed again lands where it was. -/
theorem mapInsert_erase_self {α : Type} {k : Nat} {v : α} {m : NMap α} (hs : mapSorted m = true) (h : mapFind k m = some v) :
    mapInsert k v (mapErase k m) = m := by
  induction m with
  | nil => cases h
  | cons p m ih =>
    obtain ⟨j, w⟩ := p
    obtain ⟨hlt, hm⟩ := (mapSorted_cons j w m).1 hs
    by_cases hj : j = k
    · subst hj
      have hw : w = v := by simpa [mapFind] using h
      have he : mapErase j ((j, w) :: m) = m := by
        rw [← mapErase_eq_self (fun p hp => Nat.ne_of_gt (hlt p hp))]
        simp [mapErase]
      rw [he, mapInsert_of_lt v hlt, hw]
    · rw [mapFind, if_neg hj] at h
      have hjk : j < k := hlt (k, v) (mem_of_mapFind_some h)
      have he : mapErase k ((j, w) :: m) = (j, w) :: mapErase k m := List.filter_cons_of_pos (bne_iff_ne.2 hj)
      rw [he, mapInsert, if_neg (Nat.lt_asymm hjk), ih hm h]

/-- In a map in canonical form a key set to what it reads as changes nothing. -/
theorem mapPut_get_self {α : Type} [DecidableEq α] {d : Nat → α} {m : NMap α} (h : mapWf d m = true) (k : Nat) :
    mapPut d m k (mapGet d m k) = m := by
  simp only [mapWf, Bool.and_eq_true, List.all_eq_true, bne_iff_ne] at h
  obtain ⟨hs, hd⟩ := h
  cases hf : mapFind k m with
  | none => rw [mapGet, hf, mapPut, if_pos rfl, mapErase_eq_self (ne_of_mapFind_none hf)]
  | some v =>
    have hv : v ≠ d k := hd (k, v) (mem_of_mapFind_some hf)
    rw [mapGet, hf, mapPut, if_neg hv, mapInsert_erase_self hs hf]

theorem writeByte_readByte_self {s : State} (h : Memory.wf s = true) (a : Nat) : writeByte s a (readByte s a) = s := by
  rw [writeByte, readByte, mapPut_get_self h]

/-- Settles O56: the run of bytes by induction on its bytes, the number by its lowest byte and the rest, and the write of what an
address reads as by the canonical form of memory. -/
theorem memoryBytes : Obligations.MemoryBytes := by
  refine ⟨fun a l s => ⟨?_, ?_, ?_, ?_, ?_, ?_⟩, fun a n v s => readNat_writeNat_self s a n v,
    fun a s h => writeByte_readByte_self h a⟩
  · exact readBytes_writeBytes_self l s a
  · exact fun c hc => readByte_writeBytes_outside l s hc
  · exact writeBytes_wf l s a
  · exact writeBytes_regs l s a
  · exact writeBytes_chk l s a
  · exact writeBytes_out l s a

end Sys2Proof.Machine

/-! SUPPORT. Every command, and so every step, keeps what `Follows` says. -/

namespace Sys2Proof.Machine

/-- Every command follows the state it begins in: each meaning brings its own `Follows` lemma. -/
theorem follows_exec {b s : State} (i : Instr) (h : Follows b s) : FollowsNext b (exec i s) := by
  cases i with
  | moduleResetRelease => exact follows_execModuleResetRelease h
  | paceWindowEnd => exact follows_execPaceWindowEnd h
  | clPaceExtRead => exact follows_execClPaceExtRead h
  | boundaryFifoSlotFree => exact follows_execBoundaryFifoSlotFree h
  | scrupleCheck => exact follows_execScrupleCheck h
  | scrInjectWrite => exact follows_execScrInjectWrite h
  | cfgRecordWrite => exact follows_execCfgRecordWrite h
  | tNop => exact follows_execTNop h
  | mma => exact follows_execMma h
  | emit => exact follows_execEmit h
  | clear => exact follows_execClear h
  | loadAcc => exact follows_execLoadAcc h
  | operandArrival => exact follows_execOperandArrival h
  | bufferWritePort => exact follows_execBufferWritePort h
  | vNop => exact follows_execVNop h
  | vAdd => exact follows_execVAdd h
  | vSub => exact follows_execVSub h
  | vMul => exact follows_execVMul h
  | vMax => exact follows_execVMax h
  | vMin => exact follows_execVMin h
  | vAbs => exact follows_execVAbs h
  | vNeg => exact follows_execVNeg h
  | cvt => exact follows_execCvt h
  | quant => exact follows_execQuant h
  | exp2 => exact follows_execExp2 h
  | log2 => exact follows_execLog2 h
  | rcp => exact follows_execRcp h
  | rsqrt => exact follows_execRsqrt h
  | tanh => exact follows_execTanh h
  | logistic => exact follows_execLogistic h
  | rsum => exact follows_execRsum h
  | rmax => exact follows_execRmax h
  | rmin => exact follows_execRmin h
  | rargmax => exact follows_execRargmax h
  | topk => exact follows_execTopk h
  | sample => exact follows_execSample h
  | descriptorMessage => exact follows_execDescriptorMessage h
  | dmaNop => exact follows_execDmaNop h
  | dmaCopy => exact follows_execCopy h
  | dmaGather => exact follows_execGather h
  | dmaScatter => exact follows_execScatter h
  | dmaScatterAdd => exact follows_execScatterAddI32 h
  | dmaFill => exact follows_execDmaFill h
  | dmaHalt => exact follows_execDmaHalt h
  | dmaEnable => exact follows_execDmaEnable h
  | activationStart => exact follows_execActivationStart h
  | tokenAtHead => exact follows_execTokenAtHead h
  | activationComplete => exact follows_execActivationComplete h
  | steerSwitch => exact follows_execSwitch h
  | steerMerge => exact follows_execMerge h
  | steerGate => exact follows_execGate h
  | steerJoin => exact follows_execJoin h
  | steerReplicate => exact follows_execReplicate h
  | shadowWrite => exact follows_execShadowWrite h
  | stop => exact follows_execStop h
  | probe => exact follows_execProbe h
  | probeRound => exact follows_execProbeRound h
  | commitSet => exact follows_execCommit h
  | cancelSet => exact follows_execCancel h
  | releaseSet => exact follows_execRelease h
  | drainTimeout => exact follows_execDrainTimeout h
  | flushTimeout => exact follows_execFlushTimeout h
  | setLoad => exact follows_execSetLoad h
  | tsSampleWindow => exact follows_execTsSampleWindow h
  | scratchpadRead => exact follows_execScratchpadRead h
  | scratchpadWrite => exact follows_execScratchpadWrite h
  | writeBack => exact follows_execWriteBack h
  | scrubRow => exact follows_execScrubRow h
  | scrubPassStart => exact follows_execScrubPassStart h
  | scrubLate => exact follows_execScrubLate h
  | modeChange => exact follows_execModeChange h
  | resCtxSet => exact follows_execResCtxWrite h
  | rgnWriteReg => exact follows_execRgnWrite h
  | tagInitComplete => exact follows_execTagInitComplete h
  | circCfgSet => exact follows_execCircCfgWrite h
  | circWrite => exact follows_execCircWrite h
  | circRead => exact follows_execCircRead h
  | spRd => exact follows_execRd h
  | spWr => exact follows_execWr h
  | spRdFull => exact follows_execRdFull h
  | spRdTake => exact follows_execRdTake h
  | spWrFill => exact follows_execWrFill h
  | spClrTag => exact follows_execClrTag h
  | waiterServed => exact follows_execWaiterServed h
  | waiterTableRoom => exact follows_execWaiterTableRoom h
  | bankPwrSet => exact follows_execBankPwrWrite h
  | bankStateReached => exact follows_execBankStateReached h
  | bankWake => exact follows_execBankWake h
  | bankIdleReturn => exact follows_execBankIdleReturn h
  | messageSend => exact follows_execMessageSend h
  | creditAvailable => exact follows_execCreditAvailable h
  | messageArrival => exact follows_execMessageArrival h
  | nackArrival => exact follows_execNackArrival h
  | qGrant => exact follows_execQGrant h
  | grantPacketArrival => exact follows_execGrantPacketArrival h
  | grantBounce => exact follows_execGrantBounce h
  | returnArrival => exact follows_execReturnArrival h
  | revokeArrival => exact follows_execRevokeArrival h
  | revokeAckComplete => exact follows_execRevokeAckComplete h
  | qOpen => exact follows_execOpen h
  | qDrain => exact follows_execDrain h
  | qClose => exact follows_execClose h
  | qReset => exact follows_execQReset h
  | qdRingWrite => exact follows_execQdRingWrite h
  | handlerDispatch => exact follows_execHandlerDispatch h
  | messageAvailable => exact follows_execMessageAvailable h
  | messageRelease => exact follows_execMessageRelease h
  | opEnd => exact follows_execEnd h
  | opLi => exact follows_execLi h
  | opLui => exact follows_execLui h
  | opAdd => exact follows_execAdd h
  | opSub => exact follows_execSub h
  | opAnd => exact follows_execAnd h
  | opOr => exact follows_execOr h
  | opXor => exact follows_execXor h
  | opShli => exact follows_execShli h
  | opShri => exact follows_execShri h
  | opAddi => exact follows_execAddi h
  | opMul => exact follows_execMul h
  | opLdp => exact follows_execLdp h
  | opSto => exact follows_execSto h
  | opLd => exact follows_execLd h
  | opSt => exact follows_execSt h
  | opAadd => exact follows_execAadd h
  | opCas => exact follows_execCas h
  | opFill => exact follows_execFill h
  | opTake => exact follows_execTake h
  | opPeek => exact follows_execPeek h
  | opClrt => exact follows_execClrt h
  | opMovpo => exact follows_execMovpo h
  | opBeq => exact follows_execBeq h
  | opBne => exact follows_execBne h
  | opBltu => exact follows_execBltu h
  | opSend => exact follows_execSend h
  | opReply => exact follows_execReply h
  | opGrant => exact follows_execGrant h
  | opGet => exact follows_execGet h
  | opStep => exact follows_execStep h
  | opFence => exact follows_execFence h
  | hsDataAccess => exact follows_execHsDataAccess h
  | hsBoundSet => exact follows_execHsBoundWrite h
  | flitReceive => exact follows_execFlitReceive h
  | linkReplay => exact follows_execLinkReplay h
  | packetInject => exact follows_execPacketInject h
  | injectionHoldRelease => exact follows_execInjectionHoldRelease h
  | injHold => exact follows_execInjHold h
  | meshProbe => exact follows_execMeshProbe h
  | rtDataAccess => exact follows_execRtDataAccess h
  | mcDataAccess => exact follows_execMcDataAccess h
  | multicastForward => exact follows_execMulticastForward h
  | uptreeReply => exact follows_execUptreeReply h
  | reductionPacketArrival => exact follows_execReductionPacketArrival h
  | redHoldExpiry => exact follows_execRedHoldExpiry h
  | completionStoreArrival => exact follows_execCompletionStoreArrival h
  | completionMessageSend => exact follows_execCompletionMessageSend h
  | destReset => exact follows_execDestReset h
  | portEnable => exact follows_execPortEnable h
  | portFence => exact follows_execPortFence h
  | portRetrain => exact follows_execPortRetrain h
  | laneMaskWrite => exact follows_execLaneMaskWrite h
  | trainingComplete => exact follows_execTrainingComplete h
  | trainFail => exact follows_execTrainFail h
  | retryTimer => exact follows_execRetryTimer h
  | laneDrop => exact follows_execLaneDrop h
  | linkPacketReceive => exact follows_execLinkPacketReceive h
  | nakReceived => exact follows_execNakReceived h
  | ackReceived => exact follows_execAckReceived h
  | creditBlock => exact follows_execCreditBlock h
  | ackTimer => exact follows_execAckTimer h
  | fecAlarm => exact follows_execFecAlarm h
  | residence => exact follows_execResidence h
  | fxDataAccess => exact follows_execFxDataAccess h
  | fmDataAccess => exact follows_execFmDataAccess h
  | timeExchange => exact follows_execTimeExchange h
  | timeReqReceive => exact follows_execTimeReqReceive h
  | timeRespReceive => exact follows_execTimeRespReceive h
  | linkDown => exact follows_execLinkDown h
  | noProgress => exact follows_execNoProgress h
  | memRead => exact follows_execMemRead h
  | memWrite => exact follows_execMemWrite h
  | memWriteBack => exact follows_execMemWriteBack h
  | refresh => exact follows_execRefresh h
  | refreshManagement => exact follows_execRefreshManagement h
  | retrainDue => exact follows_execRetrainDue h
  | retrainForced => exact follows_execRetrainForced h
  | retrainComplete => exact follows_execRetrainComplete h
  | patrolScrub => exact follows_execPatrolScrub h
  | patrolScrubLate => exact follows_execPatrolScrubLate h
  | ueLimitWindow => exact follows_execUeLimitWindow h
  | channelFence => exact follows_execChannelFence h
  | mcRetrain => exact follows_execMcRetrain h
  | remapMem => exact follows_execRemap h
  | dregSet => exact follows_execDregWrite h
  | mmFenceSet => exact follows_execMmFenceWrite h
  | regRd => exact follows_execRegRd h
  | regWr => exact follows_execRegWr h
  | memRdUc => exact follows_execMemRdUc h
  | memWrUc => exact follows_execMemWrUc h
  | lineRdS => exact follows_execLineRdS h
  | lineRdX => exact follows_execLineRdX h
  | lineUpg => exact follows_execLineUpg h
  | lineWb => exact follows_execLineWb h
  | lineEvict => exact follows_execLineEvict h
  | doorbell => exact follows_execDoorbell h
  | msg => exact follows_execMsg h
  | snpInv => exact follows_execSnpInv h
  | snpShr => exact follows_execSnpShr h
  | snpRsp => exact follows_execSnpRsp h
  | snpRspD => exact follows_execSnpRspD h
  | cmp => exact follows_execCmp h
  | cmpD => exact follows_execCmpD h
  | gatewayAccess => exact follows_execGatewayAccess h
  | gbSnoopTimeout => exact follows_execGbSnoopTimeout h
  | hostTimeout => exact follows_execHostTimeout h
  | doorbellSend => exact follows_execDoorbellSend h
  | gbLinkDown => exact follows_execGbLinkDown h
  | gbLinkUp => exact follows_execGbLinkUp h
  | gbSendCtxWrite => exact follows_execGbSendCtxWrite h
  | gbDbBindAccess => exact follows_execGbDbBindAccess h
  | gbMsgFailRead => exact follows_execGbMsgFailRead h
  | bootGo => exact follows_execBootGo h
  | regWriteAny => exact follows_execRegWrite h
  | recordLogEntry => exact follows_execRecordLogEntry h
  | logRecRead => exact follows_execLogRecRead h
  | logReadSet => exact follows_execLogReadWrite h
  | tbSetWrite => exact follows_execTbSet h
  | tbAdjust => exact follows_execTbAdj h
  | slewComplete => exact follows_execSlewComplete h
  | interruptEvent => exact follows_execInterruptEvent h
  | icDoneWrite => exact follows_execIcDone h
  | icSwWrite => exact follows_execIcSw h
  | holdoffEnd => exact follows_execHoldoffEnd h
  | stepEndToken => exact follows_execStepEndToken h
  | tileVote => exact follows_execTileVote h
  | dirtySet => exact follows_execDirtySet h
  | blockVote => exact follows_execBlockVote h
  | voteComplete => exact follows_execVoteComplete h
  | decideCommit => exact follows_execDecideCommit h
  | decideAudit => exact follows_execDecideAudit h
  | abortReplay => exact follows_execAbortReplay h
  | abortFault => exact follows_execAbortFault h
  | journalApplied => exact follows_execJournalApplied h
  | inDoubt => exact follows_execInDoubt h
  | rootPathLost => exact follows_execRootPathLost h
  | csOpenCmd => exact follows_execCsOpen h
  | resolveCommit => exact follows_execResolveCommit h
  | resolveAbort => exact follows_execResolveAbort h
  | clearFault => exact follows_execClearFault h
  | csStepWrite => exact follows_execCsStepWrite h
  | csCfgSet => exact follows_execCsCfgWrite h
  | durableWrite => exact follows_execDurableWrite h
  | classified => exact follows_execClassified h
  | condFence => exact follows_execCondFence h
  | unitFence => exact follows_execUnitFence h
  | guardFault => exact follows_execGuardFault h
  | csTfsReadWrite => exact follows_execCsTfsReadWrite h
  | brambleWindow => exact follows_execBrambleWindow h
  | recoveryHold => exact follows_execRecoveryHold h
  | sampleComplete => exact follows_execSampleComplete h
  | admission => exact follows_execAdmission h
  | admissionEnd => exact follows_execAdmissionEnd h
  | teardown => exact follows_execTeardown h
  | teardownDrain => exact follows_execTeardownDrain h
  | tdTeardown => exact follows_execTdTeardown h
  | tdRelease => exact follows_execTdRelease h
  | abortArrival => exact follows_execAbortArrival h
  | rstCluster => exact follows_execRstCluster h
  | rstPartition => exact follows_execRstPartition h
  | rstWarm => exact follows_execRstWarm h
  | rstCold => exact follows_execRstCold h
  | resetDone => exact follows_execResetDone h
  | ckDue => exact follows_execCkDue h
  | ckCancel => exact follows_execCkCancel h
  | ckExport => exact follows_execExport h
  | restorePartner => exact follows_execRestorePartner h
  | restoreFlash => exact follows_execRestoreFlash h
  | trickleSend => exact follows_execTrickleSend h
  | checkpointDataArrival => exact follows_execCheckpointDataArrival h
  | sealImage => exact follows_execSeal h
  | sealedReceived => exact follows_execSealedReceived h
  | flashCopy => exact follows_execFlashCopy h
  | ckLambdaHostWrite => exact follows_execCkLambdaHostWrite h
  | romPhase => exact follows_execRomPhase h
  | startPhase => exact follows_execStartPhase h
  | repairPhase => exact follows_execRepairPhase h
  | firmwarePhase => exact follows_execFirmwarePhase h
  | fwRoundEnd => exact follows_execFwRoundEnd h
  | fwPacket => exact follows_execFwPacket h
  | memoryPhase => exact follows_execMemoryPhase h
  | linksPhase => exact follows_execLinksPhase h
  | topologyPhase => exact follows_execTopologyPhase h
  | licencePhase => exact follows_execLicencePhase h
  | hbBoot => exact follows_execBoot h
  | hbRecheck => exact follows_execRecheck h
  | installLicence => exact follows_execInstallLicence h
  | jscan => exact follows_execJscan h
  | shareFw => exact follows_execShare h
  | licExpired => exact follows_execLicExpired h
  | ufsCommand => exact follows_execUfsCommand h
  | infieldDue => exact follows_execInfieldDue h
  | yieldRequest => exact follows_execYieldRequest h
  | infieldTest => exact follows_execInfieldTest h
  | requeueTimer => exact follows_execRequeueTimer h
  | confirmTest => exact follows_execConfirmTest h
  | sweep => exact follows_execSweep h
  | ywShutdown => exact follows_execShutdownTest h
  | ywYieldGrant => exact follows_execYieldGrant h
  | ywTestNow => exact follows_execTestNow h
  | ywRawEnter => exact follows_execRawEnter h
  | ywRawExit => exact follows_execRawExit h
  | ywRawAccess => exact follows_execYwRawAccess h
  | canaryTrip => exact follows_execCanaryTrip h
  | ageingRecord => exact follows_execAgeingRecord h
  | powerEval => exact follows_execPowerEval h
  | clusterEntryComplete => exact follows_execClusterEntryComplete h
  | clusterWake => exact follows_execClusterWake h
  | clusterWakeComplete => exact follows_execClusterWakeComplete h
  | deviceWake => exact follows_execDeviceWake h
  | deviceWakeComplete => exact follows_execDeviceWakeComplete h
  | toleranceWrite => exact follows_execToleranceWrite h
  | tempPublish => exact follows_execTempPublish h
  | segmentStep => exact follows_execSegmentStep h
  | headroomLow => exact follows_execHeadroomLow h
  | throttleEval => exact follows_execThrottleEval h
  | thermTrip => exact follows_execThermTrip h
  | hwAttest => exact follows_execAttest h
  | hwDebugOpen => exact follows_execDebugOpen h
  | hwDebugClose => exact follows_execDebugClose h
  | sessionExpired => exact follows_execSessionExpired h
  | hwLcAdvance => exact follows_execLcAdvance h
  | hwExtend => exact follows_execExtend h
  | hwEpochCommit => exact follows_execEpochCommit h
  | hwDbgHold => exact follows_execDbgHold h
  | hwDbgRelease => exact follows_execDbgRelease h
  | hwFenceLogClear => exact follows_execFenceLogClear h
  | hwChalRead => exact follows_execHwChalRead h
  | trngFail => exact follows_execTrngFail h
  | trngRetest => exact follows_execTrngRetest h
  | compatUnsampled => exact follows_execCompatUnsampled h
  | modRstNAssert => exact follows_execModRstNAssert h
  | modRstNRelease => exact follows_execModRstNRelease h
  | supplyFaultEvent => exact follows_execSupplyFault h
  | overtempReset => exact follows_execOvertempReset h
  | selfResetRelease => exact follows_execSelfResetRelease h
  | i3cReadOp => exact follows_execI3cRead h
  | i3cWriteOp => exact follows_execI3cWrite h
  | i3cWakeOp => exact follows_execI3cWake h
  | i3cResultRead => exact follows_execI3cResultRead h
  | ckTakeCmd => exact follows_execCkTake h
  | ufsCommandCompletion => exact follows_execUfsCommandCompletion h
  | hibern8Entry => exact follows_execHibern8Entry h
  | deviceEntryComplete => exact follows_execDeviceEntryComplete h
  | testComplete => exact follows_execTestComplete h
  | hwCommandDone => exact follows_execHwCommandDone h
  | timeNoLock => exact follows_execTimeNoLock h
  | dynamicAddressAssign => exact follows_execDynamicAddressAssign h
  | boundaryScan => exact follows_execBoundaryScanInstruction h

/-- A step follows the state whose front command has left the queue: it performs that command, or on an empty queue one
nanosecond passes. -/
theorem follows_step {s : State} (h : s.Canonical) : FollowsNext { s with pending := s.pending.tail } (step s) := by
  unfold step
  split
  · next hp =>
    have hs : { s with pending := s.pending.tail } = s := by rw [hp, List.tail_nil, ← hp]
    rw [hs]
    exact followsNext (follows_idleTick (follows_refl h))
  · next c cs hp =>
    rw [hp, List.tail_cons]
    exact follows_exec c (follows_refl h)

theorem follows_canonical {b s : State} (h : Follows b s) : s.Canonical := ⟨follows_mem h, follows_chk h, follows_regs h⟩

/-- Settles O59: a step's next state follows the state it began in, and what follows a state is in canonical form. -/
theorem stepKeepsCanonical : Obligations.StepKeepsCanonical := by
  intro s t h e
  exact follows_canonical (follows_step h t e)

end Sys2Proof.Machine

/-! SUPPORT. The link layers: what a Parith port answers to a packet it receives (R243), and the commands of the link layer and of
the egress buffers. -/

namespace Sys2Proof.Machine

/-! ### Packets received by a Parith port (R243) -/

/-- A packet accepted before, or one that comes while a NAK awaits its replay and is not that replay, changes nothing but the
counts of its codeword. -/
theorem portReceive_deaf {s : State} {p seq hop flaw lane : Nat} {replay : Bool} {pkt : Pkt}
    (hd : (rxAhead s p).contains seq = true ∨
      (mapGet (fun _ => false) s.fabric.nak p = true ∧ (replay = false ∨ seq ≠ mapGet (fun _ => 0) s.fabric.rxSeq p)))
    (hf : flaw ≠ 1) : portReceive s p seq hop replay flaw lane pkt = s := by
  have deaf : ((rxAhead s p).contains seq
      || (mapGet (fun _ => false) s.fabric.nak p && !(replay && seq = mapGet (fun _ => 0) s.fabric.rxSeq p))) = true := by
    rcases hd with hd | ⟨hn, hd⟩
    · rw [hd, Bool.true_or]
    · rcases hd with hd | hd <;> simp [hn, hd]
  unfold portReceive
  simp only [deaf, if_true, if_neg hf, ite_self]

/-- A running port that is not deaf to a packet answers it with a NAK, when its codeword, its blocks or its sequence are wrong,
and accepts it otherwise. -/
theorem portReceive_heard {s : State} {p seq hop flaw lane : Nat} {replay : Bool} {pkt : Pkt} (hr : portRuns s p = true)
    (ha : (rxAhead s p).contains seq = false)
    (hn : mapGet (fun _ => false) s.fabric.nak p = false ∨ (replay = true ∧ seq = mapGet (fun _ => 0) s.fabric.rxSeq p)) :
    portReceive s p seq hop replay flaw lane pkt =
      if flaw = 1 then
        sendNak (reportLimited (incSat s (pxReg p (0x098 + 0x20 * (lane % 4)))) (pxPage p) 0 0x0702
          (limitKey 11 (p * 4 + lane % 4) 0) (now s / 1000000) { detail := [lane % 4] }) p
      else if flaw = 2 || !seqFits s p seq then sendNak (report s (pxPage p) 0x070E) p
      else ingress (incWrap (seqAccept s p seq) (pxReg p 0x188) 1) p seq hop pkt := by
  have hears : ((rxAhead s p).contains seq
      || (mapGet (fun _ => false) s.fabric.nak p && !(replay && seq = mapGet (fun _ => 0) s.fabric.rxSeq p))) = false := by
    rcases hn with hn | ⟨hp, hs⟩
    · rw [ha, hn]; rfl
    · rw [ha, hp, decide_eq_true hs, Bool.and_self, Bool.not_true, Bool.and_false, Bool.or_false]
  unfold portReceive
  simp only [hr, hears, Bool.not_true, Bool.false_eq_true, if_false]
  by_cases hf : flaw = 1
  · simp only [if_pos hf]
  · simp only [if_neg hf]

/-- With nothing accepted ahead the expected sequence fits. -/
theorem seqFits_expected {s : State} {p seq : Nat} (ha : rxAhead s p = []) (hs : seq = mapGet (fun _ => 0) s.fabric.rxSeq p) :
    seqFits s p seq = true := by
  unfold seqFits
  simp only [ha, ← hs, List.map_nil, List.foldl_nil, List.length_nil, Nat.add_sub_cancel_left, Nat.mod_self, Nat.zero_le, decide_true]

/-- With nothing accepted ahead a packet of the expected sequence advances it by one. -/
theorem seqAccept_expected {s : State} {p seq : Nat} (ha : rxAhead s p = []) (hs : seq = mapGet (fun _ => 0) s.fabric.rxSeq p) :
    seqAccept s p seq = { linkAccept s p with fabric := { (linkAccept s p).fabric with
      rxSeq := mapPut (fun _ => 0) (linkAccept s p).fabric.rxSeq p ((seq + 1) % 4096)
      rxAhead := mapPut (fun _ => []) s.fabric.rxAhead p [] } } := by
  have next : mapGet (fun _ => 0) (linkAccept s p).fabric.rxSeq p = (seq + 1) % 4096 := by
    rw [hs]; exact mapGet_put_self _ _ _ _
  unfold seqAccept
  rw [if_pos hs, ha]
  simp only [List.length_nil, seqOn, next]
  rfl

/-- A packet of another sequence than the expected one is noted as accepted ahead of it. -/
theorem seqAccept_ahead {s : State} {p seq : Nat} (hs : seq ≠ mapGet (fun _ => 0) s.fabric.rxSeq p) :
    seqAccept s p seq =
      { s with fabric := { s.fabric with rxAhead := mapPut (fun _ => []) s.fabric.rxAhead p (rxAhead s p ++ [seq]) } } := if_neg hs

/-- The expected packet, with nothing accepted ahead of it, goes on. -/
theorem portReceive_expected {s : State} {p seq hop lane : Nat} {replay : Bool} {pkt : Pkt} (hr : portRuns s p = true)
    (ha : rxAhead s p = []) (hs : seq = mapGet (fun _ => 0) s.fabric.rxSeq p)
    (hn : mapGet (fun _ => false) s.fabric.nak p = false ∨ replay = true) :
    portReceive s p seq hop replay 0 lane pkt =
      ingress (incWrap { linkAccept s p with fabric := { (linkAccept s p).fabric with
        rxSeq := mapPut (fun _ => 0) (linkAccept s p).fabric.rxSeq p ((seq + 1) % 4096)
        rxAhead := mapPut (fun _ => []) s.fabric.rxAhead p [] } } (pxReg p 0x188) 1) p seq hop pkt := by
  rw [portReceive_heard hr (by rw [ha]; rfl) (hn.imp_right fun h => ⟨h, hs⟩), seqFits_expected ha hs, seqAccept_expected ha hs]
  rfl

/-- A packet of a later sequence that fits goes on, and is noted as accepted ahead. -/
theorem portReceive_ahead {s : State} {p seq hop lane : Nat} {replay : Bool} {pkt : Pkt} (hr : portRuns s p = true)
    (ha : (rxAhead s p).contains seq = false) (hs : seq ≠ mapGet (fun _ => 0) s.fabric.rxSeq p) (hf : seqFits s p seq = true)
    (hn : mapGet (fun _ => false) s.fabric.nak p = false) :
    portReceive s p seq hop replay 0 lane pkt =
      ingress (incWrap { s with fabric := { s.fabric with
        rxAhead := mapPut (fun _ => []) s.fabric.rxAhead p (rxAhead s p ++ [seq]) } } (pxReg p 0x188) 1) p seq hop pkt := by
  rw [portReceive_heard hr ha (.inl hn), hf, seqAccept_ahead hs]
  rfl

/-- A protocol error, or a sequence that does not fit, is answered with a NAK. -/
theorem portReceive_refused {s : State} {p seq hop lane : Nat} {flaw : Fin 3} {replay : Bool} {pkt : Pkt}
    (hr : portRuns s p = true) (ha : (rxAhead s p).contains seq = false) (hn : mapGet (fun _ => false) s.fabric.nak p = false)
    (hf : flaw = 2 ∨ (flaw = 0 ∧ seqFits s p seq = false)) :
    portReceive s p seq hop replay flaw lane pkt = sendNak (report s (pxPage p) 0x070E) p := by
  rw [portReceive_heard hr ha (.inl hn)]
  rcases hf with rfl | ⟨rfl, hf⟩
  · rfl
  · rw [hf]; rfl

/-! ### The Gorbin port and the acknowledgement timer -/

/-- A protocol error on the running Gorbin link is answered with a NAK unless one awaits its replay. -/
theorem gbReceive_protocolError {s : State} {seq vc lane : Nat} {replay : Bool} (hr : gbUp s = true)
    (hn : mapGet (fun _ => false) s.fabric.nak 14 = false) :
    gbReceive s seq vc 2 lane replay = nakSent (report s gbPage 0x070E) 14 := by
  unfold gbReceive
  simp only [hr, hn, Bool.false_and, Bool.not_true, Bool.false_eq_true, if_false, decide_true, Bool.true_or, if_true,
    Nat.reduceEqDiff]

/-- With an ACK owed and credits owed both are sent. -/
theorem ackAndCredits_both {s : State} {p : Nat} (ha : mapGet (fun _ => false) s.fabric.ackOwed p = true)
    (hc : (List.range 4).any (fun vc => creditOwed s p vc != 0) = true) (u : State)
    (hu : u = emit { s with fabric := { s.fabric with ackOwed := mapPut (fun _ => false) s.fabric.ackOwed p false } }
      (.link p (.ack false ((mapGet (fun _ => 0) s.fabric.rxSeq p + 4095) % 4096)))) :
    ackAndCredits s p = emit { u with fabric := { u.fabric with owed := mapClear u.fabric.owed (4 * p) (4 * p + 4) } }
      (.link p (.credits (creditOwed s p 0) (creditOwed s p 1) (creditOwed s p 2) (creditOwed s p 3))) := by
  unfold ackAndCredits
  simp only [if_pos ha, if_pos hc, hu]

/-! ### The commands of the link layer -/

theorem exec_ackReceived_parith {s : State} {p : PortId} {seq : Fin 4096}
    (h : (acked (sentOf s p) seq).length < (sentOf s p).length) :
    exec (.ackReceived (.parith p) seq) s = .next (pump (markMoved (setSent s p (acked (sentOf s p) seq)) p) p) :=
  congrArg Host.Outcome.next (if_pos h)

theorem exec_nakReceived_parith {s : State} {p : PortId} {seq : Fin 4096} (hr : portRuns s p = true) :
    exec (.nakReceived (.parith p) seq) s = .next (
      pump (resend (if (nacked (sentOf s p) seq).length < (sentOf s p).length
        then markMoved (setSent s p (nacked (sentOf s p) seq)) p else setSent s p (nacked (sentOf s p) seq)) p) p) :=
  congrArg Host.Outcome.next (if_pos hr)

theorem exec_creditBlock_parith {s : State} {p : PortId} {c0 c1 c2 c3 : Fin 16384} (hr : portRuns s p = true) :
    exec (.creditBlock (.parith p) c0 c1 c2 c3) s =
      .next (pump (addCredits s p [(0, c0.val), (1, c1.val), (2, c2.val), (3, c3.val)]) p) :=
  congrArg Host.Outcome.next (if_pos hr)

theorem exec_ackTimer_parith {s : State} {p : PortId} (hr : portRuns s p = true) :
    exec (.ackTimer (.parith p)) s = .next (ackAndCredits s p) := congrArg Host.Outcome.next (if_pos hr)

theorem exec_ackReceived_gorbin {s : State} {seq : Fin 4096} (h : (acked s.gorbin.sent seq).length < s.gorbin.sent.length) :
    exec (.ackReceived .gorbin seq) s = .next (gbPump (markMoved (setGbSent s (acked s.gorbin.sent seq)) 14)) :=
  congrArg Host.Outcome.next (if_pos h)

theorem exec_nakReceived_gorbin {s : State} {seq : Fin 4096} (hr : gbUp s = true) :
    exec (.nakReceived .gorbin seq) s = .next (
      gbResend (if (nacked s.gorbin.sent seq).length < s.gorbin.sent.length
        then markMoved (setGbSent s (nacked s.gorbin.sent seq)) 14 else setGbSent s (nacked s.gorbin.sent seq))) := by
  show Host.Outcome.next (gbNacked s seq) = _
  unfold gbNacked
  simp only [hr, Bool.not_true, Bool.false_eq_true, if_false]

theorem exec_creditBlock_gorbin {s : State} {c0 c1 c2 c3 : Fin 16384} (hr : gbUp s = true) :
    exec (.creditBlock .gorbin c0 c1 c2 c3) s =
      .next (gbPump (addCredits s 14 [(0, c0.val), (1, c1.val), (2, c2.val), (3, c3.val)])) :=
  congrArg Host.Outcome.next (if_pos hr)

theorem exec_ackTimer_gorbin {s : State} (hr : gbUp s = true) : exec (.ackTimer .gorbin) s = .next (ackAndCredits s 14) :=
  congrArg Host.Outcome.next (if_pos hr)

/-- The first packet of an egress buffer that has stood there for 20 µs is dropped (R251). -/
theorem exec_residence {s : State} {p : PortId} {e : EgressPkt}
    (h : (egressOf s p).find? (fun e => e.since + 20000 ≤ now s) = some e) :
    exec (.residence p) s = .next (residenceDrop (setEgress s p ((egressOf s p).erase e)) p e.pkt) := by
  show execResidence p s = _
  unfold execResidence
  rw [h]

/-- Settles O24, a clause for each answer of a port to what its link brings. -/
theorem linkPackets : Obligations.LinkPackets := by
  refine ⟨?expected, ?ahead, ?again, ?codeword, ?refused, ?awaitsReplay, ?ack, ?nak, ?credits, ?ackTimer, ?gbError, ?gbAck, ?gbNak,
    ?gbCredits, ?gbTimer, ?fifo, ?residence⟩
  case expected =>
    rintro p seq hop replay lane pkt _ s hr ha hs hn rfl
    exact congrArg Host.Outcome.next (portReceive_expected hr ha hs hn)
  case ahead =>
    intro p seq hop replay lane pkt s hr ha hs hf hn
    exact congrArg Host.Outcome.next (portReceive_ahead hr ha hs hf hn)
  case again =>
    intro p seq hop replay lane pkt s ha
    exact congrArg Host.Outcome.next (portReceive_deaf (.inl ha) Nat.zero_ne_one)
  case codeword =>
    intro p seq hop replay lane pkt s hr ha hn
    exact congrArg Host.Outcome.next (portReceive_heard hr ha hn)
  case refused =>
    intro p seq hop replay flaw lane pkt s hr ha hn hf
    exact congrArg Host.Outcome.next (portReceive_refused hr ha hn hf)
  case awaitsReplay =>
    intro p seq hop replay flaw lane pkt s _ hn hd hf
    exact congrArg Host.Outcome.next (portReceive_deaf (.inr ⟨hn, hd⟩) (fun h => hf (Fin.ext h)))
  case ack => exact fun p seq s h => exec_ackReceived_parith h
  case nak =>
    rintro p seq _ s hr rfl
    exact exec_nakReceived_parith hr
  case credits => exact fun p c0 c1 c2 c3 s hr => exec_creditBlock_parith hr
  case ackTimer =>
    intro p u s hr ha hu hc
    rw [exec_ackTimer_parith hr, ackAndCredits_both ha hc u hu]
  case gbError =>
    intro seq hop replay lane pkt s hr hn
    exact congrArg Host.Outcome.next (gbReceive_protocolError hr hn)
  case gbAck => exact fun seq s h => exec_ackReceived_gorbin h
  case gbNak =>
    rintro seq _ s hr rfl
    exact exec_nakReceived_gorbin hr
  case gbCredits => exact fun c0 c1 c2 c3 s hr => exec_creditBlock_gorbin hr
  case gbTimer => exact fun s hr => exec_ackTimer_gorbin hr
  case fifo => exact fun b s => rfl
  case residence => exact fun p e s h => exec_residence h

end Sys2Proof.Machine

/-! SUPPORT. RST_CMD (R383–R386), the end of a reset, and the release of module reset (R36). -/

namespace Sys2Proof.Machine

/-! ### RST_CMD -/

/-- A reset of one cluster is a write of RST_CMD with command 1 and the cluster's number. -/
theorem exec_rstCluster {s : State} {a : Agent} {c : Fin 512}
    (h : writeOk s a (brReg 0x180) (BitVec.ofNat 64 (place 8 9 c.val + 1)) = true) :
    exec (.rstCluster a c) s = .next (rstCmd s 1 c) := by
  have hw : (place 8 9 c.val + 1) % 2 ^ 64 = c.val * 256 + 1 := by
    rw [place, Nat.shiftLeft_eq]; omega
  refine congrArg Host.Outcome.next (write_brReset h ?_ ?_)
  · rw [fieldOf, fieldNat, BitVec.toNat_ofNat, hw, Nat.shiftRight_zero]; omega
  · rw [fieldOf, fieldNat, BitVec.toNat_ofNat, hw, Nat.shiftRight_eq_div_pow]; omega

theorem exec_rstPartition {s : State} {a : Agent} (h : writeOk s a (brReg 0x180) 2 = true) :
    exec (.rstPartition a) s = .next (rstCmd s 2 0) := congrArg Host.Outcome.next (write_brReset h rfl rfl)

theorem exec_rstWarm {s : State} {a : Agent} (h : writeOk s a (brReg 0x180) 3 = true) :
    exec (.rstWarm a) s = .next (rstCmd s 3 0) := congrArg Host.Outcome.next (write_brReset h rfl rfl)

theorem exec_rstCold {s : State} {a : Agent} (h : writeOk s a (brReg 0x180) 4 = true) :
    exec (.rstCold a) s = .next (rstCmd s 4 0) := congrArg Host.Outcome.next (write_brReset h rfl rfl)

/-- Every reset command that comes while a reset is in progress is refused (R385). -/
theorem rstCmd_busy {s : State} {cmd c : Nat} (h0 : cmd ≠ 0) (hb : rstBusy s = true) : rstCmd s cmd c = rstRefused s := by
  unfold rstCmd
  rw [if_neg h0, if_pos hb]

theorem rstCmd_cluster {s : State} {c : Nat} (hb : rstBusy s = false) :
    rstCmd s 1 c = if c < 288 then startReset s 1 [c] else rstRefused s := by
  unfold rstCmd
  rw [if_neg Nat.one_ne_zero, hb]
  rfl

theorem rstCmd_partition {s : State} {c : Nat} (hb : rstBusy s = false) (hp : rstPart s ≠ [])
    (hk : (rstPart s).all (fun k => k < 288) = true) : rstCmd s 2 c = startReset s 2 (rstPart s) := by
  have known : ((rstPart s).isEmpty || (rstPart s).any (fun k => 288 ≤ k)) = false := by
    simp only [Bool.or_eq_false_iff, List.isEmpty_eq_false_iff, List.any_eq_false, decide_eq_true_eq, Nat.not_le]
    exact ⟨hp, fun k h => of_decide_eq_true (List.all_eq_true.1 hk k h)⟩
  unfold rstCmd
  rw [if_neg (Nat.succ_ne_zero 1), hb]
  simp only [known, Bool.false_eq_true, if_false]

theorem rstCmd_warm {s : State} {c : Nat} (hb : rstBusy s = false) : rstCmd s 3 c = warmReset s := by
  unfold rstCmd
  rw [if_neg (Nat.succ_ne_zero 2), hb]
  rfl

theorem rstCmd_cold {s : State} {c : Nat} (hb : rstBusy s = false) : rstCmd s 4 c = coldReset s := by
  unfold rstCmd
  rw [if_neg (Nat.succ_ne_zero 3), hb]
  rfl

/-! ### The end of a reset, and the release -/

theorem resetTiles_eq (s : State) : resetTiles s =
    if s.recov.resetCmd = 3 ∨ s.recov.resetCmd = 4 then (List.range 4608).filter (tileInReset s) else tilesIn s.recov.resetting := by
  simp only [resetTiles, Bool.or_eq_true, decide_eq_true_eq]

/-- A pin or a condition of R509 holds the module in reset. -/
theorem exec_moduleResetRelease_held {s : State}
    (h : s.module.rstLow = true ∨ s.module.supplyFault = true ∨ s.module.overTemp = true) :
    exec .moduleResetRelease s = .next s := by
  refine congrArg Host.Outcome.next (if_pos ?_)
  rcases h with h | h | h <;> simp [h]

theorem exec_moduleResetRelease_free {s : State} (hr : s.module.rstLow = false) (hs : s.module.supplyFault = false)
    (ht : s.module.overTemp = false) : exec .moduleResetRelease s = .next (releaseReset s) :=
  congrArg Host.Outcome.next (if_neg (by simp [hr, hs, ht]))

/-- Settles O39: the four commands go through RST_CMD, whose cases are the statement's. -/
theorem resetDomains : Obligations.ResetDomains := by
  refine ⟨?cluster, ?refused, ?partition, ?warm, ?cold, ?done, ?release, ?held⟩
  case cluster =>
    intro a c s hw hb hc
    rw [exec_rstCluster hw, rstCmd_cluster hb, if_pos hc]
  case refused =>
    intro a c s hw hb
    rw [exec_rstCluster hw]
    cases hbusy : rstBusy s with
    | true => rw [rstCmd_busy Nat.one_ne_zero hbusy]
    | false =>
      have hc : 288 ≤ c.val := hb.resolve_left (Bool.eq_false_iff.1 hbusy)
      rw [rstCmd_cluster hbusy, if_neg (Nat.not_lt.2 hc)]
  case partition =>
    intro a s hw hb hp hk
    rw [exec_rstPartition hw, rstCmd_partition hb hp hk]
  case warm =>
    intro a s hw hb
    rw [exec_rstWarm hw, rstCmd_warm hb]
  case cold =>
    intro a s hw hb
    rw [exec_rstCold hw, rstCmd_cold hb]
  case done =>
    rintro _ _ s hr rfl rfl
    rw [← resetTiles_eq]
    exact congrArg Host.Outcome.next (if_pos hr)
  case release => exact fun s hr hs ht => exec_moduleResetRelease_free hr hs ht
  case held => exact fun s h => exec_moduleResetRelease_held h

end Sys2Proof.Machine

/-! SUPPORT. What the registers read after reset (R310), and the common header of every page. -/

namespace Sys2Proof.Machine

theorem mapGet_nil {α : Type} (d : Nat → α) (k : Nat) : mapGet d [] k = d k := rfl

/-- After reset every register reads its reset value. -/
theorem rd_reset (key : Nat) : rd State.reset key = regReset key := mapGet_nil regReset key

/-- The reset value of a key is that of the descriptor found for it. `regReset` is unfolded unapplied and the subtraction of
`regBase` is named before a match reduces: comparing `regReset key` with its body, the kernel would count `regBase` down in unary. -/
theorem regReset_of_findReg {key a i j : Nat} {k : PageKind} {r : RegDesc} (ha : key % regBankSize - regBase = a)
    (hp : decodePage (a / 0x1000) = some (k, i)) (hr : findReg (pageRegs k i) (a % 0x1000) = some (r, j)) :
    regReset key = BitVec.ofNat 64 r.reset := by
  suffices h : ∀ d, d = regReset → d key = BitVec.ofNat 64 r.reset from h regReset rfl
  delta regReset
  rintro d rfl
  dsimp only
  rw [ha]
  simp only [hp, hr]

/-- A register of a page has the reset value of its descriptor. -/
theorem regReset_page {p off i j : Nat} {k : PageKind} {r : RegDesc} (hp : decodePage p = some (k, i)) (hlt : p < 0x50000)
    (ho : off < 0x1000) (hr : findReg (pageRegs k i) off = some (r, j)) :
    regReset (pageBase p + off) = BitVec.ofNat 64 r.reset := by
  have ha : (pageBase p + off) % regBankSize - regBase = p * 0x1000 + off := by
    unfold pageBase regBase regBankSize; omega
  have hpage : (p * 0x1000 + off) / 0x1000 = p := by omega
  have hoff : (p * 0x1000 + off) % 0x1000 = off := by omega
  exact regReset_of_findReg ha (hpage.symm ▸ hp) (hoff.symm ▸ hr)

theorem canonical_reset : State.reset.Canonical := ⟨rfl, rfl, rfl⟩

/-- Settles O52: memory and maps are empty, and the header's registers are looked up in the page's table. -/
theorem resetState : Obligations.ResetState := by
  refine ⟨⟨rfl, rfl, rfl, rfl, canonical_reset⟩, fun p k i hp hlt => ?_⟩
  simp only [rd_reset]
  refine ⟨?pageId, ?irqEn, ?errStat, ?errMask, ?errCount⟩
  case pageId => exact regReset_page (off := 0) hp hlt (by decide) rfl
  case irqEn => exact regReset_page (off := 0x10) hp hlt (by decide) rfl
  case errStat => exact regReset_page (off := 0x20) hp hlt (by decide) rfl
  case errMask => exact regReset_page (off := 0x28) hp hlt (by decide) rfl
  case errCount => exact regReset_page (off := 0x38) hp hlt (by decide) rfl

end Sys2Proof.Machine

/-! SUPPORT. Registers that control a tile's units: ARITH_CTRL (R73), DMA_CTRL (R107), and the shadow records (R85, R93, R126). -/

namespace Sys2Proof.Machine

/-! ### The registers that these writes find -/

/-- The common header ends below offset 0x80 (R310). -/
theorem findReg_headerRegs_append {k : PageKind} {i off : Nat} (l : List RegDesc) (h : 0x80 ≤ off) :
    findReg (headerRegs k i ++ l) off = findReg l off := by
  have passed (r : RegDesc) (rs : List RegDesc) (hr : r.off + r.n * r.stride ≤ 0x80) :
      findReg (r :: rs) off = findReg rs off := by
    rw [findReg, if_neg]
    simp only [Bool.and_eq_true, decide_eq_true_eq]
    omega
  simp only [headerRegs, List.cons_append, List.nil_append]
  iterate 9 rw [passed _ _ (Nat.le_of_ble_eq_true rfl)]

/-- A write to a tile's page that is taken finds its register. -/
theorem writeOk_tileReg {s : State} {a : Agent} {t k off : Nat} {v : W64} (ht : t < 4608) (hk : k < 32) (ho : off < 0x1000)
    (h : writeOk s a (tileReg t k off) v = true) :
    ∃ x r j, slotKind t k = some x ∧ findReg (pageRegs x t) off = some (r, j) := by
  obtain ⟨⟨x, i⟩, hp, hw⟩ := writeOk_hit h
  rw [pageHit, if_pos (tileReg_base t k off), pageAt_tileReg ho, decodePage_tile ht hk, Option.map_eq_some_iff] at hp
  obtain ⟨_, hs, hx⟩ := hp
  cases hx
  rw [offAt_tileReg ho, writeOkIn, Bool.and_eq_true] at hw
  obtain ⟨⟨r, j⟩, hr, -⟩ := (Option.any_eq_true _ _).1 hw.2
  exact ⟨x, r, j, hs, hr⟩

/-- Slot 0 of a tile holds the page of its T, V or S unit (R308). -/
theorem slotKind_zero_cases {t : Nat} {x : PageKind} (h : slotKind t 0 = some x) : x = .tTile ∨ x = .vTile ∨ x = .sTile := by
  simp only [slotKind, slot0Kind] at h
  split at h
  · exact .inl (Option.some.inj h).symm
  · exact .inr (.inl (Option.some.inj h).symm)
  · exact .inr (.inr (Option.some.inj h).symm)
  · cases h

theorem slotKind_one {t : Nat} {x : PageKind} (h : slotKind t 1 = some x) : x = .dataflow := by
  simp only [slotKind] at h
  split at h
  · cases h
  · exact (Option.some.inj h).symm

/-! ### ARITH_CTRL (R73) -/

/-- A write of ARITH_CTRL, which the T and V pages hold, goes through the rule of SCR_INJECT. -/
theorem write_arithCtrl {s : State} {a : Agent} {t : TileId} {v : W64} (h : writeOk s a (tileReg t 0 0x400) v = true) :
    writeBy s a (tileReg t 0 0x400) v = arithCtrl s t (merged s (tileReg t 0 0x400) 7 v) := by
  obtain ⟨x, r, j, hs, hr⟩ := writeOk_tileReg t.isLt (by decide) (by decide) h
  rcases slotKind_zero_cases hs with rfl | rfl | rfl
  · rw [regWrite_tile t.isLt (by decide) (by decide) h hs rfl, typedWrite_rw (m := 7) (by decide) rfl rfl]; rfl
  · rw [regWrite_tile t.isLt (by decide) (by decide) h hs rfl, typedWrite_rw (m := 7) (by decide) rfl rfl]; rfl
  · cases hr

/-! ### DMA_CTRL (R107) -/

/-- Channel `ch`'s DMA_CTRL stands on the S page alone. -/
theorem findReg_dmaCtrl (ch : Fin 4) :
    findReg sTileRegs (0x140 + 0x20 * ch.val) = some (regRWs 0x140 4 0x20 [(0, 2)] 1, ch.val) ∧
      findReg tTileRegs (0x140 + 0x20 * ch.val) = none ∧ findReg vTileRegs (0x140 + 0x20 * ch.val) = none := by
  revert ch; decide

theorem write_dmaCtrl {s : State} {a : Agent} {t : TileId} {ch : Fin 4} {v : W64} (h : writeOk s a (dmaReg t ch 0) v = true) :
    writeBy s a (dmaReg t ch 0) v = dmaCtrl s t ch (merged s (dmaReg t ch 0) 3 v) := by
  obtain ⟨hS, hT, hV⟩ := findReg_dmaCtrl ch
  have ho : 0x140 + 0x20 * ch.val < 0x1000 := by omega
  have h8 : 0x80 ≤ 0x140 + 0x20 * ch.val := by omega
  rw [show dmaReg t ch 0 = tileReg t 0 (0x140 + 0x20 * ch.val) from rfl] at h ⊢
  obtain ⟨x, r, j, hs, hr⟩ := writeOk_tileReg t.isLt (by decide) ho h
  rcases slotKind_zero_cases hs with rfl | rfl | rfl
  · cases hr.symm.trans ((findReg_headerRegs_append tTileRegs h8).trans hT)
  · cases hr.symm.trans ((findReg_headerRegs_append vTileRegs h8).trans hV)
  · have hch : (0x140 + 0x20 * ch.val - 0x140) / 0x20 = ch.val := by omega
    have hin : (decide (0x140 ≤ 0x140 + 0x20 * ch.val) && decide (0x140 + 0x20 * ch.val < 0x1C0)) = true := by
      simp only [Bool.and_eq_true, decide_eq_true_eq]; omega
    rw [regWrite_tile t.isLt (by decide) ho h hs ((findReg_headerRegs_append sTileRegs h8).trans hS),
      typedWrite_rw (m := 3) h8 rfl rfl, pageWrite, if_pos hin, hch]
    rfl

theorem exec_dmaHalt {s : State} {a : Agent} {t : TileId} {ch : Fin 4} {e : Bool}
    (h : writeOk s a (dmaReg t ch 0) (BitVec.ofNat 64 (2 + bit01 e)) = true) :
    exec (.dmaHalt a t ch e) s = .next (dmaCtrl s t ch (merged s (dmaReg t ch 0) 3 (BitVec.ofNat 64 (2 + bit01 e)))) :=
  congrArg Host.Outcome.next (write_dmaCtrl h)

theorem exec_dmaEnable {s : State} {a : Agent} {t : TileId} {ch : Fin 4} {e : Bool}
    (h : writeOk s a (dmaReg t ch 0) (BitVec.ofNat 64 (bit01 e)) = true) :
    exec (.dmaEnable a t ch e) s = .next (dmaCtrl s t ch (merged s (dmaReg t ch 0) 3 (BitVec.ofNat 64 (bit01 e)))) :=
  congrArg Host.Outcome.next (write_dmaCtrl h)

/-! ### Shadow records (R85, R93, R126) -/

/-- Whatever register a tile's dataflow page has at a place of a shadow record, a write replaces it whole. -/
theorem dataflowRegs_shadow_whole (t : Nat) (n j : Fin 8) :
    (findReg (dataflowRegs t) (0x800 + 0x80 * n.val + 8 * j.val)).all
      (fun q => q.1.acc == .rw && q.1.wmask == 0xFFFFFFFFFFFFFFFF) = true := by
  revert n j
  unfold dataflowRegs
  cases tileType t <;> decide

theorem dfWrite_shadowRec {s : State} {t : Nat} {n j : Fin 8} {v : W64} (h : shadowLocked s t = false) :
    dfWrite s t (0x800 + 0x80 * n.val + 8 * j.val) v = shadowRec s t n j v := by
  have hrec : (decide (0x800 ≤ 0x800 + 0x80 * n.val + 8 * j.val)
      && decide ((0x800 + 0x80 * n.val + 8 * j.val) % 0x80 < 0x40)) = true := by
    simp only [Bool.and_eq_true, decide_eq_true_eq]; omega
  have hn : (0x800 + 0x80 * n.val + 8 * j.val - 0x800) / 0x80 = n.val := by omega
  have hj : (0x800 + 0x80 * n.val + 8 * j.val) % 0x80 / 8 = j.val := by omega
  unfold dfWrite
  rw [if_neg (by omega), h, if_neg Bool.false_ne_true, if_pos hrec, hn, hj]

theorem write_shadowRec {s : State} {a : Agent} {t : TileId} {n j : Fin 8} {v : W64}
    (h : writeOk s a (dfReg t (0x800 + 0x80 * n.val + 8 * j.val)) v = true) (hl : shadowLocked s t = false) :
    writeBy s a (dfReg t (0x800 + 0x80 * n.val + 8 * j.val)) v = shadowRec s t n j v := by
  have ho : 0x800 + 0x80 * n.val + 8 * j.val < 0x1000 := by omega
  have h8 : 0x80 ≤ 0x800 + 0x80 * n.val + 8 * j.val := by omega
  unfold dfReg at *
  obtain ⟨x, r, i, hs, hr⟩ := writeOk_tileReg t.isLt (by decide) ho h
  obtain rfl := slotKind_one hs
  have hw := dataflowRegs_shadow_whole t n j
  rw [← findReg_headerRegs_append (k := .dataflow) (i := t) (dataflowRegs t) h8,
    show findReg (headerRegs .dataflow t ++ dataflowRegs t) _ = _ from hr, Option.all_some, Bool.and_eq_true, beq_iff_eq, beq_iff_eq] at hw
  rw [regWrite_tile t.isLt (by decide) ho h hs hr, typedWrite_rw h8 hw.1 hw.2, merged, merged_all]
  exact dfWrite_shadowRec hl

/-- A whole record is stored after its check where the page takes the write. -/
theorem exec_cfgRecordWrite {s : State} {a : Agent} {t : TileId} {n : Fin 8} {w : List W32} {k : PageKind}
    (hk : slotKind t 1 = some k) (hS : tileType t ≠ .s) (hd : regDenied s a k t (slotOff false n) true 0 = false)
    (ha : pageAwake s (dfPage t) = true) (hf : fencedWrite s k t (slotOff false n) = false)
    (hh : haltedWrite s k (slotOff false n) 0 = false) (hl : shadowLocked s t = false) :
    exec (.cfgRecordWrite a t n w) s = .next (storeRec s t n ((List.range 16).map (fun i => (w.getD i 0).toNat))) := by
  show execCfgRecordWrite a t n w s = _
  unfold execCfgRecordWrite
  rw [hk]
  cases ht : tileType t with
  | s => exact absurd ht hS
  | _ => simp only [hd, writeWakes_awake ha, hf, hh, hl, Bool.or_self, Bool.false_eq_true, if_false]

/-- Settles O1: each command is a register write, which its page answers; a whole record goes to the check of `storeRec`. -/
theorem tileControlWrites : Obligations.TileControlWrites := by
  refine ⟨?arith, ?halt, ?enable, ?shadow, ?record⟩
  case arith => exact fun a t v s h => congrArg Host.Outcome.next (write_arithCtrl h)
  case halt => exact fun a t ch e s h => exec_dmaHalt h
  case enable => exact fun a t ch e s h => exec_dmaEnable h
  case shadow =>
    rintro a t n j ⟨_, _⟩ v s rfl h hl
    exact congrArg Host.Outcome.next (write_shadowRec h hl)
  case record => exact fun a t n w k s hk hS hd ha hf hh hl => exec_cfgRecordWrite hk hS hd ha hf hh hl

end Sys2Proof.Machine

/-! SUPPORT. The T engine on a due activation (R84, R86), its buffer writes (R82) and the checks owed to Scruple (R68). -/

namespace Sys2Proof.Machine

/-! ### Accesses that are performed at once (R162) -/

/-- A write that is performed delivers no data. -/
theorem perform_write {s : State} {x : SpAcc} (h : x.op = .wr ∨ x.op = .wrFill) : (perform s x).1 = .ok [] := by
  show (moveData _ x).1 = _
  unfold moveData
  rcases h with h | h <;> rw [h]

/-- An untagged access that passes its checks and is not held is performed. -/
theorem access_untagged {s : State} {x : SpAcc} (hc : regionCheck s x = none) (hh : mustHold s x = false)
    (ht : opTagged x.op = false) : access s x = perform s x := by
  unfold access
  simp only [hc, hh, ht, Bool.false_eq_true, if_false]

/-- A filling write whose slot is EMPTY and that stands behind no other write of it is performed. -/
theorem access_fill {s : State} {x : SpAcc} (hc : regionCheck s x = none) (hh : mustHold s x = false) (ho : x.op = .wrFill)
    (hg : tagAt s x.tile (x.boff / 4) = tagEmpty) (hw : slotWaiters s x.tile x.boff true = []) : access s x = perform s x := by
  have hfill : (SpOp.wrFill == .wrFill) = true := rfl
  unfold access
  simp only [hc, hh, ho, hg, hfill, hw, Bool.false_eq_true, if_false]
  rfl

/-! ### The operations (R84, R86) -/

/-- The due activation is the one that the tile runs. -/
theorem dueAct_actOf {s : State} {t op : Nat} {f : List Nat → Nat} {a : Act} (h : dueAct s t op f = some a) : a = actOf s t := by
  unfold dueAct at h
  simp only [Option.ite_none_right_eq_some, Option.some.injEq] at h
  exact h.2.symm

/-- An operation whose every step was done ends as its `finish` says. -/
theorem runSteps_done {s : State} {t n : Nat} {ranges : Nat → List (Nat × Nat)} {effect : State → Act → State} {finish : State → State}
    (h : (engSteps t ranges effect (n - (actOf s t).step) s).1 = true) :
    runSteps s t n ranges effect finish = finish (engSteps t ranges effect (n - (actOf s t).step) s).2 := if_pos h

section
variable {s : State} {t : TileId} {a : Act}

theorem exec_tNop (ht : tileType t = .t) (ha : dueAct s t 0 (fun w => (tRecOf w).op) = some a) :
    exec (.tNop t) s = .next (progress (executed (busySteps s t 1) t) t a.ctx) := by
  show execTNop t s = _
  unfold execTNop
  rw [if_pos ht, ha]

theorem exec_emit (ht : tileType t = .t) (ha : dueAct s t 2 (fun w => (tRecOf w).op) = some a) :
    exec (.emit t) s = .next (progress (executed
      (each (emitRange (busySteps s t (emitSteps (tRecOf a.words))) t a (tRecOf a.words)).1 (fun u l => arithRecords u t a.ctx l)
        (emitRange (busySteps s t (emitSteps (tRecOf a.words))) t a (tRecOf a.words)).2) t) t a.ctx) := by
  show execEmit t s = _
  unfold execEmit
  rw [if_pos ht, ha]

theorem exec_clear (ht : tileType t = .t) (ha : dueAct s t 3 (fun w => (tRecOf w).op) = some a) :
    exec (.clear t) s = .next (progress (executed
      (clearRange (busySteps s t (emitSteps (tRecOf a.words))) t (tRecOf a.words)) t) t a.ctx) := by
  show execClear t s = _
  unfold execClear
  rw [if_pos ht, ha]

theorem exec_mma {sr sc ch : Nat} (ht : tileType t = .t) (ha : dueAct s t 1 (fun w => (tRecOf w).op) = some a)
    (hs : shapeOf (tRecOf a.words).aFmt (tRecOf a.words).bFmt = some (sr, sc, ch)) :
    exec (.mma t) s = .next (runMma s t (tRecOf a.words) sr sc ch) := by
  show execMma t s = _
  unfold execMma
  simp only [if_pos ht, ha, hs]

theorem exec_loadAcc (ht : tileType t = .t) (ha : dueAct s t 4 (fun w => (tRecOf w).op) = some a) :
    exec (.loadAcc t) s = .next (runSteps s t (ceilDiv ((tRecOf a.words).m * (tRecOf a.words).n) 16)
      (fun n => [loadRange (tRecOf a.words) n]) (loadStep t (tRecOf a.words)) (fun u => progress (executed u t) t a.ctx)) := by
  show execLoadAcc t s = _
  unfold execLoadAcc
  rw [if_pos ht, ha]

/-- An activation goes on when none of its accesses waits any longer; a T tile counts the steps of the wait. -/
theorem exec_operandArrival (hon : (actOf s t).on = true) (hw : (actOf s t).waiting = true) (hp : actPends s t = false) :
    exec (.operandArrival t) s = .next (
      if tileType t = .t then drawn (countSteps (setAct s t { actOf s t with waiting := false }) t 0x098 (freeNat s))
      else setAct s t { actOf s t with waiting := false }) := by
  show execOperandArrival t s = _
  unfold execOperandArrival
  simp only [hon, hw, hp, Bool.not_false, Bool.and_self, if_true]

end

/-! ### Buffer writes (R82) -/

/-- The oldest buffer write leaves its port once its access is performed. -/
theorem exec_bufferWritePort {s : State} {t : TileId} {b : Nat} {d : List Byte} {rest : List (Nat × List Byte)} {x : SpAcc}
    {tagged : Bool} (hq : mapGet (fun _ => []) s.flow.bufWrites t = (b, d) :: rest) (hon : (actOf s t).on = true)
    (hp : actPends s t = false) (hg : ((ctxRegion s t (actOf s t).ctx (b / 4)).map (fun g => g.tagged)).getD false = tagged)
    (hx : x = { tile := t, boff := b, len := d.length, op := if tagged then .wrFill else .wr, req := .act t
                ctx := some (actOf s t).ctx, data := d.map some })
    (ha : access s x = perform s x) :
    exec (.bufferWritePort t) s = .next { (perform s x).2 with
      flow := { (perform s x).2.flow with bufWrites := mapPut (fun _ => []) (perform s x).2.flow.bufWrites t rest } } := by
  have hr : (perform s x).1 = .ok [] := perform_write (by subst hx; cases tagged <;> simp)
  show execBufferWritePort t s = _
  unfold execBufferWritePort
  simp only [hq, hon, hp, hg, ← hx, ha, hr, Bool.not_true, Bool.or_self, Bool.false_eq_true, if_false]

/-! ### Scruple (R68) -/

/-- The group at the front of the check queue leaves it, each of its accumulations checked. -/
theorem scrupleCheck_front {s s1 : State} {t : Nat} {flaws : List Flaw} {j : ScrJob} {js : List ScrJob}
    (hq : mapGet (fun _ => []) s.flow.scr t = j :: js)
    (h1 : s1 = { s with flow := { s.flow with scr := mapPut (fun _ => []) s.flow.scr t js } }) :
    scrupleCheck s t flaws = each j.chks.zipIdx (fun u x => checkOne u t j.ctx j.first j.inject flaws x)
      (incWrap (if j.inject then wrB s1 (tileReg t 0 0x400) 2 false else s1) (tileReg t 0 0x410) j.chks.length) := by
  unfold scrupleCheck
  simp only [hq, h1]

/-- Settles O2, a clause for each operation, and one for each thing that the tile does beside them. -/
theorem tensorCommands : Obligations.TensorCommands := by
  refine ⟨?nop, ?mma, ?emit, ?clear, ?loadAcc, ?arrivalT, ?arrival, ?write, ?fill, ?check⟩
  case nop => exact fun t a s ht ha => exec_tNop ht ha
  case mma =>
    rintro t a _ s1 s sr sc ch q ht ha rfl hs h1 rfl hq
    rw [exec_mma ht ha hs, runMma, ← dueAct_actOf ha, ← h1, runSteps_done hq]
  case emit =>
    rintro t a _ s ht ha rfl
    exact exec_emit ht ha
  case clear => exact fun t a s ht ha => exec_clear ht ha
  case loadAcc =>
    rintro t a _ _ s ht ha rfl rfl hq
    rw [exec_loadAcc ht ha, runSteps_done hq]
  case arrivalT =>
    intro t s ht hon hw hp
    rw [exec_operandArrival hon hw hp, if_pos ht]
  case arrival =>
    intro t s ht hon hw hp
    rw [exec_operandArrival hon hw hp, if_neg ht]
  case write =>
    intro t b d rest x s hq hon hp hx hg hc hh
    exact exec_bufferWritePort hq hon hp hg hx (access_untagged hc hh (by rw [hx]; rfl))
  case fill =>
    intro t b d rest x s hq hon hp hx hg hc hh he hw
    have ha : access s x = perform s x := by subst hx; exact access_fill hc hh rfl he hw
    exact exec_bufferWritePort hq hon hp hg hx ha
  case check =>
    intro t j js fs s1 s hq h1
    exact congrArg Host.Outcome.next (scrupleCheck_front hq h1)

end Sys2Proof.Machine

/-! SUPPORT. Partials at a combining location (R57, R224, R254), and at their tile's completion store (R225, R226, R374). -/

namespace Sys2Proof.Machine

/-! ### A fixed-window or integer partial at a combining location -/

section
variable {s : State} {l port : Nat} {r : Red}

theorem redKind_combines (hk : r.kind = 1 ∨ r.kind = 2) : (r.kind != 1 && r.kind != 2) = false := by
  rcases hk with h | h <;> rw [h] <;> rfl

/-- A partial that joins an entry makes it complete, and then goes on, or stays in it. -/
theorem combine_joins {e : Comb} {j : State × Red} {v : State} (hk : r.kind = 1 ∨ r.kind = 2)
    (he : (combOf s l).find? (fun e => sameKey e.red r) = some e) (hj : j = redJoin s (combPage l) none e.red r)
    (hv : v = if l < 4608 then incWrap j.1 (rtReg l 0x088) 1 else if 4622 ≤ l then oweCredit j.1 (l - 4622) 1 1 else j.1) :
    combine s l port r =
      if j.2.total ≤ j.2.contrib then redForward (setComb v l ((combOf s l).erase e)) l port j.2
      else setComb v l ((combOf s l).map (fun x => if x == e then { e with red := j.2 } else x)) := by
  unfold combine
  simp only [redKind_combines hk, he, hv, hj, Bool.false_eq_true, if_false]

/-- A partial of a new key takes a free entry, unless it is at its tile or complete. -/
theorem combine_newKey (hk : r.kind = 1 ∨ r.kind = 2) (he : (combOf s l).find? (fun e => sameKey e.red r) = none) :
    combine s l port r =
      if (combOf s l).length < combRoom l && !(l < 4608 && redHome s l r) then
        if r.total ≤ r.contrib then redForward s l port r
        else setComb s l (combOf s l ++ [{ red := r, opened := now s }])
      else redForward (if l < 4608 then incWrap s (rtReg l 0x090) 1 else s) l port r := by
  unfold combine
  simp only [redKind_combines hk, he, Bool.false_eq_true, if_false]

/-- Away from its tile an incomplete partial of a new key opens an entry where one is free. -/
theorem combine_opens (hk : r.kind = 1 ∨ r.kind = 2) (he : (combOf s l).find? (fun e => sameKey e.red r) = none)
    (hroom : (combOf s l).length < combRoom l) (haway : (l < 4608 && redHome s l r) = false) (hpart : r.contrib < r.total) :
    combine s l port r = setComb s l (combOf s l ++ [{ red := r, opened := now s }]) := by
  rw [combine_newKey hk he]
  simp only [haway, hroom, decide_true, Bool.not_false, Bool.and_self, if_true, if_neg (Nat.not_le.2 hpart)]

/-- With no entry free, or at its tile, a partial of a new key goes on as it is; a router counts it. -/
theorem combine_passes (hk : r.kind = 1 ∨ r.kind = 2) (he : (combOf s l).find? (fun e => sameKey e.red r) = none)
    (hfull : combRoom l ≤ (combOf s l).length ∨ (l < 4608 && redHome s l r) = true) :
    combine s l port r = redForward (if l < 4608 then incWrap s (rtReg l 0x090) 1 else s) l port r := by
  have hnone : (decide ((combOf s l).length < combRoom l) && !(l < 4608 && redHome s l r)) = false := by
    rcases hfull with h | h
    · rw [decide_eq_false (Nat.not_lt.2 h), Bool.false_and]
    · rw [h, Bool.not_true, Bool.and_false]
  rw [combine_newKey hk he]
  simp only [hnone, Bool.false_eq_true, if_false]

end

/-! ### The commands -/

theorem exec_reductionPacketArrival {l : Fin 4636} {port : Fin 9} {r : Red} {s u : State}
    (hu : takeHere s l port (.red r) = some u) :
    exec (.reductionPacketArrival l port r) s = .next (acted (combine u l port r) l port) := by
  show execReductionPacketArrival l port r s = _
  unfold execReductionPacketArrival
  rw [hu]

/-- A router's hold ends when the command says so, a port's by its count of periods. -/
theorem exec_redHoldExpiry {l : Fin 4636} {i : Fin 32} {e : Comb} {s : State} (he : (combOf s l)[i.val]? = some e)
    (hx : l.val < 4608 ∨ rdF s (pxReg ((l.val - 4608) % 14) 0x100) 32 8 * 10 ≤ (now s - e.opened) * 16) :
    exec (.redHoldExpiry l i) s = .next (redForward (setComb s l ((combOf s l).eraseIdx i)) l 15 e.red) := by
  show execRedHoldExpiry l i s = _
  unfold execRedHoldExpiry
  simp only [he, Bool.or_eq_true, decide_eq_true_eq, if_pos hx]

/-- At a tile that is neither fenced nor in reset, in a cluster not in C2, the epoch decides over a partial (R374). -/
theorem exec_completionStoreArrival {t : TileId} {port : Fin 16} {r : Red} {s u : State}
    (hu : takeHere s t (16 + port.val) (.red r) = some u) (hf : tileFenced u t = false) (hr : tileInReset u t = false)
    (hc : clusterPower s (clusterOf t) ≠ 2) :
    exec (.completionStoreArrival t port r) s = .next (
      if epochMatches u t r.context r.ctxEpoch then (compTake u t r).elim s (fun v => acted v t port)
      else acted (ctlCount u t 0 1) t port) := by
  show execCompletionStoreArrival t port r s = _
  unfold execCompletionStoreArrival
  simp only [hu, hf, hr, Bool.or_self, Bool.false_eq_true, if_false, if_neg hc]
  cases epochMatches u t r.context r.ctxEpoch with
  | true => cases compTake u t r <;> rfl
  | false => rfl

/-- A complete entry that need not wait for credit is sent and freed. -/
theorem exec_completionMessageSend {t : TileId} {i : Fin 128} {e : CompEntry} {m : Msg} {q : SendRes × State} {s : State}
    (he : (compOf s t)[i.val]? = some e) (hd : e.done = true) (ht : tileRuns s t = true)
    (hm : m = buildMsg s t 0 e.red.context e.red.dst 0 2 (compPayload e))
    (hq : q = trySend (setComp s t ((compOf s t).eraseIdx i)) t 0 .store { m with hdr := { m.hdr with ctxEpoch := e.red.ctxEpoch } })
    (hw : (q.1 == .wait) = false) :
    exec (.completionMessageSend t i) s = .next q.2 := by
  show execCompletionMessageSend t i s = _
  unfold execCompletionMessageSend
  simp only [he, hd, ht, ← hm, ← hq, hw, Bool.and_self, Bool.false_eq_true, if_true, if_false]

/-- Settles O21: a partial's arrival goes through the cases of `combine`, and the store's through the epoch. -/
theorem reductions : Obligations.Reductions := by
  refine ⟨?complete, ?joins, ?opens, ?passes, ?hold, ?taken, ?stale, ?send⟩
  case complete =>
    intro l port r e j v u s hu hk he hj hv hall
    rw [exec_reductionPacketArrival hu, combine_joins hk he hj hv, if_pos hall]
  case joins =>
    intro l port r e j v u s hu hk he hj hv hpart
    rw [exec_reductionPacketArrival hu, combine_joins hk he hj hv, if_neg (Nat.not_le.2 hpart)]
  case opens =>
    intro l port r u s hu hk he hroom haway hpart
    rw [exec_reductionPacketArrival hu, combine_opens hk he hroom haway hpart]
  case passes =>
    intro l port r u s hu hk he hfull
    rw [exec_reductionPacketArrival hu, combine_passes hk he hfull]
  case hold => exact fun l i e s he hx => exec_redHoldExpiry he hx
  case taken =>
    intro t port r v u s hu hf hr hc hep hv
    rw [exec_completionStoreArrival hu hf hr hc, if_pos hep, hv, Option.elim_some]
  case stale =>
    intro t port r u s hu hf hr hc hep
    rw [exec_completionStoreArrival hu hf hr hc, hep, if_neg Bool.false_ne_true]
  case send => exact fun t i e m q s he hd ht hm hq hw => exec_completionMessageSend he hd ht hm hq hw

end Sys2Proof.Machine

/-! SUPPORT. The V engine on a due activation (R87–R98, R522). -/

namespace Sys2Proof.Machine

section
variable {s : State} {t op : Nat} {a : Act} {r : VRec}

/-- A due operation works on the activation and the record that are due. -/
theorem vOp_due {f : State → Act → VRec → State} (h : dueV s t op = some (a, r)) : vOp t op s f = f s a r := by
  unfold vOp
  rw [h]

/-! ### Elementwise operations (R88) -/

variable {f : RMode → Fl → Fl → Fl}

theorem elementwise_due (h : dueV s t op = some (a, r)) :
    elementwise t op s f =
      runRows s t a r (rateSteps r (if r.outFmt = 0 then 64 else 128)) (fun x _ ra rb => elementRow op r f x ra rb) :=
  vOp_due h

/-- The rows of a sum, a difference or a product owe a check each. -/
theorem elementwise_checked (h : dueV s t op = some (a, r)) (hb : vBinary op = true) (hc : op ≤ 3) :
    elementwise t op s f = runRows s t a r (rateSteps r (if r.outFmt = 0 then 64 else 128)) (fun x _ ra rb =>
      checkedRow x (outRow r (((rowValues r.inFmt r.len ra).1.zip (rowValues r.inFmt r.len rb).1).map
        (fun p => f (rmodeOf r.rmode) p.1 p.2)))) := by
  simp only [elementwise_due h, elementRow, hb, hc, if_true]

/-- The rows of a comparison owe no check. -/
theorem elementwise_unchecked (h : dueV s t op = some (a, r)) (hb : vBinary op = true) (hc : ¬ op ≤ 3) :
    elementwise t op s f = runRows s t a r (rateSteps r (if r.outFmt = 0 then 64 else 128)) (fun x _ ra rb =>
      ((outRow r (((rowValues r.inFmt r.len ra).1.zip (rowValues r.inFmt r.len rb).1).map
        (fun p => f (rmodeOf r.rmode) p.1 p.2)), []), x)) := by
  simp only [elementwise_due h, elementRow, hb, hc, if_true, if_false]

/-- A sign operation reads one row, and owes no check. -/
theorem elementwise_unary (h : dueV s t op = some (a, r)) (hb : vBinary op = false) (hc : ¬ op ≤ 3) :
    elementwise t op s f = runRows s t a r (rateSteps r (if r.outFmt = 0 then 64 else 128)) (fun x _ ra _ =>
      ((outRow r (((rowValues r.inFmt r.len ra).1.zip (rowValues r.inFmt r.len ra).1).map
        (fun p => f (rmodeOf r.rmode) p.1 p.2)), []), x)) := by
  simp only [elementwise_due h, elementRow, hb, hc, Bool.false_eq_true, if_false]

end

/-- Settles O3: an operation's code decides whether it reads two rows or one, and whether its rows owe a check. -/
theorem vectorElementwise : Obligations.VectorElementwise := by
  refine ⟨?nop, ?add, ?sub, ?mul, ?max, ?min, ?abs, ?neg⟩
  case nop => exact fun t a r s h => congrArg Host.Outcome.next (vOp_due h)
  case add => exact fun t a r s h => congrArg Host.Outcome.next (elementwise_checked h rfl (by decide))
  case sub => exact fun t a r s h => congrArg Host.Outcome.next (elementwise_checked h rfl (by decide))
  case mul => exact fun t a r s h => congrArg Host.Outcome.next (elementwise_checked h rfl (by decide))
  case max => exact fun t a r s h => congrArg Host.Outcome.next (elementwise_unchecked h rfl (by decide))
  case min => exact fun t a r s h => congrArg Host.Outcome.next (elementwise_unchecked h rfl (by decide))
  case abs => exact fun t a r s h => congrArg Host.Outcome.next (elementwise_unary h rfl (by decide))
  case neg => exact fun t a r s h => congrArg Host.Outcome.next (elementwise_unary h rfl (by decide))

/-! ### Conversions and special functions (R59, R64, R89, R522) -/

section
variable {s : State} {t : TileId} {a : Act} {r : VRec}

/-- CVT of FWS records converts each record by itself. -/
theorem exec_cvt_fws (h : dueV s t 8 = some (a, r)) (hf : r.inFmt = 0xB) :
    exec (.cvt t) s = .next (runRows s t a r (rateSteps r 64) (fun x _ ra _ =>
      ((packElems (codeBits r.outFmt) (cvtAll (fun y f => cvtFws y t a.ctx r f) x (rowRecords r.len ra)).1, []),
        (cvtAll (fun y f => cvtFws y t a.ctx r f) x (rowRecords r.len ra)).2))) := by
  show execCvt t s = _
  unfold execCvt
  simp only [vOp_due h, hf, if_true]

/-- CVT of another code records the NaN scales of the row's blocks, then converts the values. -/
theorem exec_cvt_values (h : dueV s t 8 = some (a, r)) (hf : r.inFmt ≠ 0xB) :
    exec (.cvt t) s = .next (runRows s t a r (rateSteps r 64) (fun x _ ra _ =>
      let q := cvtAll (fun y v => cvtOne y t a.ctx r v) (nanBlocks x t a.ctx (rowValues r.inFmt r.len ra).2) (rowValues r.inFmt r.len ra).1
      ((packElems (codeBits r.outFmt) q.1, []), q.2))) := by
  show execCvt t s = _
  unfold execCvt
  simp only [vOp_due h, hf, if_false]

end

/-- A special function counts its results, and is applied to each element before the conversion to the output code. -/
theorem special_due {s : State} {t op : Nat} {a : Act} {r : VRec} {f : Fl → Nat} (h : dueV s t op = some (a, r)) :
    special t op s f = runRows (countSteps s t 0x088 (r.rows * r.len)) t a r (rateSteps r 16) (fun x _ ra _ =>
      checkedRow x (packElems (codeBits r.outFmt) ((rowValues r.inFmt r.len ra).1.map
        (fun v => if r.outFmt = 0 then f v else (toCode r.outFmt .nearestEven 0 (ofB32 (f v))).1)))) :=
  vOp_due h

/-- Settles O4: CVT by its input code, QUANT as its rows say, and the six functions by the one rule of `special`. -/
theorem vectorConversions : Obligations.VectorConversions := by
  refine ⟨?cvtFws, ?cvt, ?quant, ?exp2, ?log2, ?rcp, ?rsqrt, ?tanh, ?logistic⟩
  case cvtFws => exact fun t a r s h hf => exec_cvt_fws h hf
  case cvt => exact fun t a r s h hf => exec_cvt_values h hf
  case quant => exact fun t a r s h => congrArg Host.Outcome.next (vOp_due h)
  case exp2 => exact fun t a r s h => congrArg Host.Outcome.next (special_due h)
  case log2 => exact fun t a r s h => congrArg Host.Outcome.next (special_due h)
  case rcp => exact fun t a r s h => congrArg Host.Outcome.next (special_due h)
  case rsqrt => exact fun t a r s h => congrArg Host.Outcome.next (special_due h)
  case tanh => exact fun t a r s h => congrArg Host.Outcome.next (special_due h)
  case logistic => exact fun t a r s h => congrArg Host.Outcome.next (special_due h)

/-! ### Reductions, top-k and the sampler (R90–R97) -/

/-- The values of a row folded from its first; a row without values gives NaN (R90). -/
def foldRow (f : Fl → Fl → Fl) (vs : List Fl) : Fl :=
  match vs with
  | v :: vs => vs.foldl f v
  | [] => .nan

theorem reduceRow_due {s : State} {t op : Nat} {a : Act} {r : VRec} {f : Fl → Fl → Fl} (h : dueV s t op = some (a, r)) :
    reduceRow t op s f = runRows s t a r (rateSteps r 64) (fun x _ ra _ =>
      ((outRow r [foldRow f (rowValues r.inFmt r.len ra).1], []), x)) := by
  refine (vOp_due h).trans (congrArg (runRows s t a r (rateSteps r 64)) ?_)
  funext x _ ra _
  cases (rowValues r.inFmt r.len ra).1 <;> rfl

section
variable {s : State} {t : TileId} {a : Act} {r : VRec}

theorem exec_rsum_partial (h : dueV s t 0x18 = some (a, r)) (hm : r.outMode = 2) :
    exec (.rsum t) s = .next (rsumPartial (busySteps s t (rateSteps r 64)) t a r) := by
  show execRsum t s = _
  unfold execRsum
  rw [vOp_due h, if_pos hm]

theorem exec_rsum_rows (h : dueV s t 0x18 = some (a, r)) (hm : r.outMode ≠ 2) :
    exec (.rsum t) s = .next (runRows s t a r (rateSteps r 64)
      (fun x _ ra _ => rsumRow x t r (rowValues r.inFmt r.len ra).1)) := by
  show execRsum t s = _
  unfold execRsum
  rw [vOp_due h, if_neg hm]

/-- SAMPLE goes row by row, each row after the read of its parameter entry. -/
theorem exec_sample (h : dueV s t 0x1D = some (a, r)) :
    exec (.sample t) s = .next (runSteps s t r.rows (fun n => [paramRange r n]) (sampleStep t r)
      (fun x => endRows x t a.ctx [])) :=
  congrArg Host.Outcome.next (vOp_due h)

end

/-- Settles O5: RSUM by its output mode, RMAX and RMIN by the one fold of a row, and SAMPLE once every row's step was done. -/
theorem vectorReductions : Obligations.VectorReductions := by
  refine ⟨?partialSum, ?rowSum, ?max, ?min, ?argmax, ?topk, ?sample⟩
  case partialSum => exact fun t a r s h hm => exec_rsum_partial h hm
  case rowSum => exact fun t a r s h hm => exec_rsum_rows h hm
  case max => exact fun t a r s h => congrArg Host.Outcome.next (reduceRow_due h)
  case min => exact fun t a r s h => congrArg Host.Outcome.next (reduceRow_due h)
  case argmax => exact fun t a r s h => congrArg Host.Outcome.next (vOp_due h)
  case topk => exact fun t a r s h => congrArg Host.Outcome.next (vOp_due h)
  case sample =>
    rintro t a r _ s h rfl hq
    exact (exec_sample h).trans (congrArg Host.Outcome.next (runSteps_done hq))

end Sys2Proof.Machine

/-! SUPPORT. The channels of S tiles: descriptor messages (R99), and the elements of a descriptor (R101–R104). -/

namespace Sys2Proof.Machine

/-! ### Descriptor messages (R99) -/

/-- The whole descriptors of a message at the head become the channel's; bytes left over are recorded and counted (R104). -/
theorem exec_descriptorMessage {s u : State} {t : TileId} {ch : Fin 4} {m : Msg} (ht : tileType t = .s) (hr : qRead s t ch = true)
    (he : (chanOf s t ch).queued = []) (hc : mayRun s t (qOwner s t ch) = true) (hq : qSound s t ch = true)
    (hm : headMsg s t ch = some (m, u)) {v w : State}
    (hv : v = setChan (endRead u t ch) t ch { chanOf u t ch with queued := (List.range (m.hdr.payLen / 64)).map (fun i =>
      ({ words := bytesWords 16 ((m.pay.drop (64 * i)).take 64), ctx := m.hdr.context, last := decide (i + 1 = m.hdr.payLen / 64) } : Desc)) })
    (hw : w = if m.hdr.payLen % 64 = 0 then v
      else report (incWrap v (tileReg t 0 0x098) 1) (unitPage t) 0x0207 { queue := ch, ctx := some m.hdr.context }) :
    exec (.descriptorMessage t ch) s =
      .next (if m.hdr.payLen / 64 = 0 then release w t ch else dmaSkip t ch (m.hdr.payLen / 64) w) := by
  subst hv hw
  show execDescriptorMessage t ch s = _
  unfold execDescriptorMessage
  simp only [ht, hr, he, hc, hq, hm, bne_self_eq_false, List.isEmpty_nil, Bool.not_true, Bool.or_self, Bool.false_eq_true, if_false]

/-! ### One element (R101, R102) -/

section
variable {t ch c : Nat} (d : DRec) (s : State) (e : Nat)

theorem dmaElement_copy (h : d.op = 1) : dmaElement s t ch c d e = copyElem s t ch c d e := by
  unfold dmaElement
  simp only [h]

theorem dmaElement_indexed (h : d.op = 2 ∨ d.op = 3) : dmaElement s t ch c d e = moveIndexed s t ch c d e := by
  unfold dmaElement
  rcases h with h | h <;> simp only [h]

theorem dmaElement_scatterAdd (h : d.op = 4) : dmaElement s t ch c d e = addIndexed s t ch c d e := by
  unfold dmaElement
  simp only [h]

/-- FILL writes one word for each element. -/
theorem dmaElement_fill (h : d.op = 5) : dmaElement s t ch c d e =
    dmaThen s t ch 0 (fun z => dmaWrite z t ch c ((d.dst + 4 * e) % 2 ^ 48) ((bytesOf 4 d.idxBase).map some))
      (fun z _ => (.ok [], z)) := by
  unfold dmaElement
  simp only [h]

end

/-! ### Runs of elements (R103, R104) -/

section
variable {t ch : Nat} {x : Desc} {element : State → Nat → DmaRes × State}

/-- After an element that moves, the run goes on from the next one, or the descriptor ends with its last. -/
theorem dmaRun_moves {u v : State} (hm : dmaMoves element t ch x u v)
    (hel : ∀ y e, dmaElement y t ch x.ctx (dRecOf x.words) e = element y e) (n : Nat) :
    dmaRun t ch (n + 1) u =
      if dmaTotal (dRecOf x.words) ≤ (chanOf u t ch).elem + 1 then dmaFinish v t ch x 0 ((chanOf u t ch).elem + 1) 0xFFFFFFFF
      else dmaRun t ch n v := by
  obtain ⟨hcur, hbad, hlt, hhalt, d, w, hd, rfl⟩ := hm
  have hrun : ((chanOf u t ch).hand.isEmpty && dmaHalted u t ch) = false := by
    rw [Bool.and_eq_false_imp, List.isEmpty_iff]
    exact hhalt
  rw [dmaRun]
  simp only [hcur, hbad, hrun, hel, hd, Nat.not_le.2 hlt, Bool.and_false, Bool.false_eq_true, if_false]

/-- A NOP has no element: it ends at once. -/
theorem dmaRun_nop {u : State} (hcur : (chanOf u t ch).cur = some x) (hop : (dRecOf x.words).op = 0) (n : Nat) :
    dmaRun t ch (n + 1) u = dmaFinish u t ch x 0 (chanOf u t ch).elem 0xFFFFFFFF := by
  have hbad : dmaBad (dRecOf x.words) = false := by
    unfold dmaBad
    rw [if_pos hop]
  have htotal : dmaTotal (dRecOf x.words) = 0 := if_pos hop
  rw [dmaRun]
  simp only [hcur, hbad, htotal, Nat.zero_le, Bool.and_false, Bool.false_eq_true, if_false, if_true]

/-- `n` elements that move, none of them the last, take `n` of the elements that the run may do. -/
theorem dmaRun_add {u : Nat → State} (hel : ∀ y e, dmaElement y t ch x.ctx (dRecOf x.words) e = element y e) (n m : Nat)
    (hm : ∀ i, i < n → dmaMoves element t ch x (u i) (u (i + 1)) ∧ (chanOf (u i) t ch).elem + 1 < dmaTotal (dRecOf x.words)) :
    dmaRun t ch (n + m) (u 0) = dmaRun t ch m (u n) := by
  induction n generalizing m with
  | zero => rw [Nat.zero_add]
  | succ n ih =>
    obtain ⟨hmove, hmore⟩ := hm n n.lt_succ_self
    calc dmaRun t ch (n + 1 + m) (u 0)
        = dmaRun t ch (n + (m + 1)) (u 0) := by rw [Nat.add_right_comm, Nat.add_assoc]
      _ = dmaRun t ch (m + 1) (u n) := ih (m + 1) (fun i hi => hm i (Nat.lt_succ_of_lt hi))
      _ = dmaRun t ch m (u (n + 1)) := by rw [dmaRun_moves hmove hel, if_neg (Nat.not_le.2 hmore)]

end

/-! ### Commands of a channel (R103) -/

section
variable {s : State} {t ch op : Nat} {x : Desc}

/-- A command goes on with its descriptor, in progress or started by it; what then stands in front may be skipped. -/
theorem dmaOp_worksOn {u v : State} {n : Nat} (hw : dmaWorksOn s t ch op x u) (hv : dmaRun t ch n u = v) :
    dmaOp s t ch op n = dmaSkip t ch (chanOf v t ch).queued.length v := by
  subst hv
  unfold dmaOp
  obtain ⟨hop, -, ⟨hcur, hblocked, hmay, rfl⟩ | ⟨rest, hcur, hqueued, hmay, rfl⟩⟩ := hw
  · simp only [hcur, hop, hblocked, hmay, decide_true, Bool.not_false, Bool.and_self, if_true]
  · simp only [hcur, hqueued, hop, hmay, decide_true, Bool.and_self, if_true]

variable {element : DRec → State → Nat → DmaRes × State} {u : Nat → State} {n : Nat}

theorem dmaOp_moves (hel : ∀ d y e, d.op = op → dmaElement y t ch x.ctx d e = element d y e) (hw : dmaWorksOn s t ch op x (u 0))
    (hm : ∀ i, i < n → dmaMoves (element (dRecOf x.words)) t ch x (u i) (u (i + 1)) ∧
      (chanOf (u i) t ch).elem + 1 < dmaTotal (dRecOf x.words)) :
    dmaOp s t ch op n = dmaSkip t ch (chanOf (u n) t ch).queued.length (u n) :=
  have ⟨hop, _, _⟩ := hw
  dmaOp_worksOn hw (dmaRun_add (fun y e => hel _ y e hop) n 0 hm)

/-- The descriptor ends after its last element, however many more the command allows. -/
theorem dmaOp_finishes {v : State} {k : Nat} (hel : ∀ d y e, d.op = op → dmaElement y t ch x.ctx d e = element d y e)
    (hw : dmaWorksOn s t ch op x (u 0))
    (hm : ∀ i, i ≤ n → dmaMoves (element (dRecOf x.words)) t ch x (u i) (u (i + 1)) ∧
      (i < n ↔ (chanOf (u i) t ch).elem + 1 < dmaTotal (dRecOf x.words)))
    (hv : v = dmaFinish (u (n + 1)) t ch x 0 ((chanOf (u n) t ch).elem + 1) 0xFFFFFFFF) :
    dmaOp s t ch op (n + 1 + k) = dmaSkip t ch (chanOf v t ch).queued.length v := by
  have ⟨hop, _, _⟩ := hw
  have hel' := fun y e => hel (dRecOf x.words) y e hop
  obtain ⟨hmove, hlast⟩ := hm n (Nat.le_refl n)
  refine dmaOp_worksOn hw ?_
  calc dmaRun t ch (n + 1 + k) (u 0)
      = dmaRun t ch (n + (k + 1)) (u 0) := by rw [Nat.add_right_comm, Nat.add_assoc]
    _ = dmaRun t ch (k + 1) (u n) := dmaRun_add hel' n (k + 1) fun i hi => (hm i (Nat.le_of_lt hi)).imp_right fun h => h.1 hi
    _ = dmaFinish (u (n + 1)) t ch x 0 ((chanOf (u n) t ch).elem + 1) 0xFFFFFFFF := by
      rw [dmaRun_moves hmove hel', if_pos (Nat.not_lt.1 (mt hlast.2 n.lt_irrefl))]
    _ = v := hv.symm

end

/-- Settles O6: a descriptor message through its hand-over, and every OP through the run of its elements, to where the
command's count ends it or to the descriptor's last. -/
theorem dmaCommands : Obligations.DmaCommands := by
  refine ⟨?message, ?empty, ?nop, ?copy, ?copyEnd, ?gather, ?gatherEnd, ?scatter, ?scatterEnd, ?add, ?addEnd, ?fill, ?fillEnd⟩
  case message =>
    intro t ch m u v s ht hr he hc hq hm hn hv
    rw [exec_descriptorMessage ht hr he hc hq hm hv rfl, if_neg hn]
  case empty =>
    intro t ch m u v s ht hr he hc hq hm hn hv
    rw [exec_descriptorMessage ht hr he hc hq hm (hv.trans (by rw [hn]; rfl)) rfl, if_pos hn]
  case nop =>
    intro t ch x u v s hw hv
    obtain ⟨hop, hcur, -⟩ := id hw
    exact congrArg Host.Outcome.next (dmaOp_worksOn hw ((dmaRun_nop hcur hop 0).trans hv.symm))
  case copy => exact fun t ch n x u s hw hm => congrArg Host.Outcome.next (dmaOp_moves dmaElement_copy hw hm)
  case gather => exact fun t ch n x u s hw hm => congrArg Host.Outcome.next (dmaOp_moves (fun d y e h => dmaElement_indexed d y e (.inl h)) hw hm)
  case scatter => exact fun t ch n x u s hw hm => congrArg Host.Outcome.next (dmaOp_moves (fun d y e h => dmaElement_indexed d y e (.inr h)) hw hm)
  case add => exact fun t ch n x u s hw hm => congrArg Host.Outcome.next (dmaOp_moves dmaElement_scatterAdd hw hm)
  case fill => exact fun t ch n x u s hw hm => congrArg Host.Outcome.next (dmaOp_moves dmaElement_fill hw hm)
  case copyEnd => exact fun t ch n k x u v s hw hm hv => congrArg Host.Outcome.next (dmaOp_finishes dmaElement_copy hw hm hv)
  case gatherEnd =>
    exact fun t ch n k x u v s hw hm hv => congrArg Host.Outcome.next (dmaOp_finishes (fun d y e h => dmaElement_indexed d y e (.inl h)) hw hm hv)
  case scatterEnd =>
    exact fun t ch n k x u v s hw hm hv => congrArg Host.Outcome.next (dmaOp_finishes (fun d y e h => dmaElement_indexed d y e (.inr h)) hw hm hv)
  case addEnd => exact fun t ch n k x u v s hw hm hv => congrArg Host.Outcome.next (dmaOp_finishes dmaElement_scatterAdd hw hm hv)
  case fillEnd => exact fun t ch n k x u v s hw hm hv => congrArg Host.Outcome.next (dmaOp_finishes dmaElement_fill hw hm hv)

end Sys2Proof.Machine

/-! SUPPORT. The token at a queue's head and the activation it starts, feeds or follows (R112–R119). -/

namespace Sys2Proof.Machine

section
variable {s : State} {t : TileId}

/-- The configuration of the current entry takes the trigger token that is at the head: IN_Q_A on a V tile, TRIG_Q elsewhere. -/
theorem exec_activationStart {n q : Nat} {m : Msg} (hc : curSlot s t = some n) (hon : (actOf s t).on = false)
    (hd : dfState s t = 1 ∨ dfState s t = 2) (hb : (bindOf s t true n).valid = true)
    (hw : mayWork s t (bindOf s t true n).ctx = true)
    (hq : q = if tileType t = .v then (vRecOf (slotWords s t true n)).inA else (bindOf s t true n).trigQ)
    (hm : headOf s t q = .slot n m) : exec (.activationStart t) s = .next (startAct s t n q m) := by
  have hrun : (dfState s t == 1 || dfState s t == 2) = true := by simpa using hd
  show execActivationStart t s = _
  unfold execActivationStart
  simp only [hc, hon, hrun, hb, hw, Bool.not_true, Bool.or_self, Bool.false_eq_true, if_false]
  subst hq
  -- On each type of tile the command looks at the queue that the statement names.
  cases ht : tileType t <;> simp [ht] at hm ⊢ <;> simp [hm]

theorem exec_tokenAtHead_stale {q : QueueId} (hm : headOf s t q = .stale) :
    exec (.tokenAtHead t q) s = .next (dropStale s t q) := by
  show execTokenAtHead t q s = _
  unfold execTokenAtHead
  rw [hm]

theorem exec_tokenAtHead_flush {q : QueueId} (hm : headOf s t q = .flush) :
    exec (.tokenAtHead t q) s = .next (incWrap (release (readHead s t q) t q) (dfReg t 0x0A8) 1) := by
  show execTokenAtHead t q s = _
  unfold execTokenAtHead
  rw [hm]

/-- A token of the running slot is consumed and its data gathered. -/
theorem exec_tokenAtHead_slot {q : QueueId} {m : Msg} (hm : headOf s t q = .slot (actOf s t).slot m) (ht : takesFrom s t q = true) :
    exec (.tokenAtHead t q) s = .next (gather (consume s t q) t q m) := by
  show execTokenAtHead t q s = _
  unfold execTokenAtHead
  simp only [hm, ht, decide_true, Bool.and_self, if_true]

/-- An activation whose last output has left and has been checked ends. -/
theorem exec_activationComplete (hon : (actOf s t).on = true) (hp : (actOf s t).phase = 2)
    (hb : (mapGet (fun _ => []) s.flow.bufWrites t).isEmpty = true) (hk : checksOwed s t (actOf s t).ctx = false)
    (hs : s.q.sends.any (fun w => w.unit == t.val && w.sender == .act) = false) :
    exec (.activationComplete t) s = .next (foldAdvance
      (progress (incWrap (wrF (setAct s t noAct) (tileReg t 0 0x100) 4 1 0) (dfReg t 0x080) 1) t (actOf s t).ctx) t) := by
  show execActivationComplete t s = _
  unfold execActivationComplete
  simp only [hon, hp, hb, hk, hs, decide_true, Bool.not_false, Bool.and_self, if_true]

end

/-- Settles O7: each command's conditions single out one branch of its meaning. -/
theorem activationCommands : Obligations.ActivationCommands := by
  refine ⟨?start, ?stale, ?flush, ?running, ?complete⟩
  case start => exact fun t n q m s hc hon hd hb hw hq hm => exec_activationStart hc hon hd hb hw hq hm
  case stale => exact fun t q s hm => exec_tokenAtHead_stale hm
  case flush => exact fun t q s hm => exec_tokenAtHead_flush hm
  case running => exact fun t q m s hm ht => exec_tokenAtHead_slot hm ht
  case complete => exact fun t s hon hp hb hk hs => exec_activationComplete hon hp hb hk hs

end Sys2Proof.Machine

/-! SUPPORT. Firings of the steering units (R121, R122). -/

namespace Sys2Proof.Machine

section
variable {s : State} {t : TileId} {u : Fin 8} {e : Steer} {v : Nat} {m : Msg}

theorem exec_steerSwitch (he : steerDue s t u 1 = some e) (hv : ctrlValue s t u e = some v) (hw : v ≤ e.width)
    (hm : steerHead s t (e.inQ.getD 0 0) = some m) (ho : outsReady s t m [e.outs.getD v (false, 0, 0)] = true) :
    exec (.steerSwitch t u) s = .next (fire s t u e (e.inQ.getD 0 0) m [e.outs.getD v (false, 0, 0)] [e.inQ.getD 0 0]) := by
  show execSwitch t u s = _
  unfold execSwitch
  simp only [he, hv, Nat.not_lt.2 hw, hm, ho, if_false, if_true]

theorem exec_steerMerge (he : steerDue s t u 2 = some e) (hv : ctrlValue s t u e = some v) (hw : v ≤ e.width)
    (hm : steerHead s t (e.inQ.getD v 0) = some m) (ho : outsReady s t m [e.outs.getD 0 (false, 0, 0)] = true) :
    exec (.steerMerge t u) s = .next (fire s t u e (e.inQ.getD v 0) m [e.outs.getD 0 (false, 0, 0)] [e.inQ.getD v 0]) := by
  show execMerge t u s = _
  unfold execMerge
  simp only [he, hv, Nat.not_lt.2 hw, hm, ho, if_false, if_true]

theorem exec_steerGate_open (he : steerDue s t u 3 = some e) (hv : ctrlValue s t u e = some v) (h0 : v ≠ 0)
    (hm : steerHead s t (e.inQ.getD 0 0) = some m) (ho : outsReady s t m [e.outs.getD 0 (false, 0, 0)] = true) :
    exec (.steerGate t u) s = .next (fire s t u e (e.inQ.getD 0 0) m [e.outs.getD 0 (false, 0, 0)] [e.inQ.getD 0 0]) := by
  show execGate t u s = _
  unfold execGate
  simp only [he, hv, hm, h0, ho, if_false, if_true]

/-- A GATE whose control value is 0 needs no output: its token is consumed and counted as dropped. -/
theorem exec_steerGate_closed (he : steerDue s t u 3 = some e) (hv : ctrlValue s t u e = some 0)
    (hm : steerHead s t (e.inQ.getD 0 0) = some m) :
    exec (.steerGate t u) s = .next (incWrap (fire s t u e (e.inQ.getD 0 0) m [] [e.inQ.getD 0 0]) (dfReg t 0x098) 1) := by
  show execGate t u s = _
  unfold execGate
  simp only [he, hv, hm, if_true]

theorem exec_steerJoin (he : steerDue s t u 4 = some e) (hm : steerHead s t (e.inQ.getD 0 0) = some m)
    (hi : e.inputs.all (fun i => (steerHead s t i).isSome) = true) (ho : outsReady s t m [e.outs.getD 0 (false, 0, 0)] = true) :
    exec (.steerJoin t u) s = .next (fire s t u e (e.inQ.getD 0 0) m [e.outs.getD 0 (false, 0, 0)] e.inputs) := by
  show execJoin t u s = _
  unfold execJoin
  simp only [he, hm, hi, ho, Bool.and_self, if_true]

theorem exec_steerReplicate (he : steerDue s t u 5 = some e) (hm : steerHead s t (e.inQ.getD 0 0) = some m)
    (ho : outsReady s t m e.outputs = true) :
    exec (.steerReplicate t u) s = .next (fire s t u e (e.inQ.getD 0 0) m e.outputs [e.inQ.getD 0 0]) := by
  show execReplicate t u s = _
  unfold execReplicate
  simp only [he, hm, ho, if_true]

end

/-- Settles O8, a clause for each unit, and two for GATE, which with value 0 asks for no output. -/
theorem steeringCommands : Obligations.SteeringCommands := by
  refine ⟨?switch, ?merge, ?gate, ?closed, ?join, ?replicate⟩
  case switch => exact fun t u e v m s he hv hw hm ho => exec_steerSwitch he hv hw hm ho
  case merge => exact fun t u e v m s he hv hw hm ho => exec_steerMerge he hv hw hm ho
  case gate => exact fun t u e v m s he hv h0 hm ho => exec_steerGate_open he hv h0 hm ho
  case closed => exact fun t u e m s he hv hm => exec_steerGate_closed he hv hm
  case join => exact fun t u e m s he hm hi ho => exec_steerJoin he hm hi ho
  case replicate => exact fun t u e m s he hm ho => exec_steerReplicate he hm ho

end Sys2Proof.Machine

/-! SUPPORT. The packets of a reconfiguration at a tile (R127–R131), and Hornbeam's probe rounds (R131). -/

namespace Sys2Proof.Machine

section
variable {s u : State} {t : TileId} {p : Ctrl}

theorem exec_stop (hu : takeEjected s t (.ctrl p) = some u) (hp : p.type = 0x06) : exec (.stop t p) s = .next (stopAt u t p) := by
  show execStop t p s = _
  unfold execStop
  simp only [hu, hp, if_true]

theorem exec_probe (hu : takeEjected s t (.ctrl p) = some u) (hp : p.type = 0x07) (hd : 2 ≤ dfState u t) :
    exec (.probe t p) s = .next (flowReply u t p 0x08 (probeWords u t)) := by
  show execProbe t p s = _
  unfold execProbe
  simp only [hu, hp, hd, if_true]

/-- A command packet of its type has its effect at a tile that drains or flushes. -/
theorem onDraining_effect {type : Nat} {f : State → State} (hu : takeEjected s t (.ctrl p) = some u) (hp : p.type = type)
    (hf : hasFlow t = true) (hd : 2 ≤ dfState u t) : onDraining s t type p f = f u := by
  unfold onDraining
  simp only [hu, hp, hf, hd, decide_true, Bool.and_self, if_true]

end

theorem answersProbe_iff {d : Drain} {p : Ctrl} : answersProbe d p = true ↔
    p.type = 0x08 ∧ p.group = d.group ∧ d.heard = false ∧ p.round = (d.round - 1) % 256 := by
  simp [answersProbe, and_assoc]

section
variable {s : State} {set : Fin 256} {root : TileId} {d : Drain}

/-- Without a reply Hornbeam only sends the round's PROBE. -/
theorem exec_probeRound_none (hd : drainOf s set = some d) (hh : d.hung = false) :
    exec (.probeRound set root none) s = .next (sendProbe s d) := by
  show execProbeRound set root none s = _
  unfold execProbeRound
  simp only [hd, hh, Bool.false_eq_true, if_false]

/-- A reply to the last PROBE is taken and judged, and the next PROBE goes out while the drain goes on. -/
theorem exec_probeRound_reply {e : Drain} {p : Ctrl} {u : State} (hd : drainOf s set = some d) (hh : d.hung = false)
    (hp : answersProbe d p = true) (hu : takeEjected s root (.ctrl p) = some u) (he : drainOf (probeResult u d p) set = some e) :
    exec (.probeRound set root (some p)) s = .next (sendProbe (probeResult u d p) e) := by
  show execProbeRound set root (some p) s = _
  unfold execProbeRound
  simp only [hd, hh, hp, hu, he, Bool.false_eq_true, if_false, if_true]

end

/-- Settles O9: STOP and PROBE by their own meanings, COMMIT, CANCEL and RELEASE by that of a draining tile, and a probe round by
what becomes of its reply, then by the window's PROBE. -/
theorem placementPackets : Obligations.PlacementPackets := by
  refine ⟨?stop, ?probe, ?reply, ?noReply, ?commit, ?cancel, ?release⟩
  case stop => exact fun t p u s hu hp => exec_stop hu hp
  case probe => exact fun t p u s hu hp hd => exec_probe hu hp hd
  case reply =>
    rintro set root d e p _ _ u s hd hh hp hg hn hr hu rfl he rfl hne
    rw [exec_probeRound_reply hd hh (answersProbe_iff.2 ⟨hp, hg, hn, hr⟩) hu he, sendProbe, if_neg hne]
  case noReply =>
    rintro set root d _ s hd hh rfl
    exact exec_probeRound_none hd hh
  case commit => exact fun t p u s hu hp hf hd => congrArg Host.Outcome.next (onDraining_effect hu hp hf hd)
  case cancel => exact fun t p u s hu hp hf hd => congrArg Host.Outcome.next (onDraining_effect hu hp hf hd)
  case release => exact fun t p u s hu hp hf hd => congrArg Host.Outcome.next (onDraining_effect hu hp hf hd)

end Sys2Proof.Machine

/-! SUPPORT. The limits of a drain and a flush (R132), the placing of a set (R135), the sampler (R137, R138) and the counts that no
one reads (R500). -/

namespace Sys2Proof.Machine

section
variable {s : State} {set : Fin 256} {d : Drain}

/-- A RUN-mode drain past its limit is handed over as a hang, recorded the first time; one that the queue of hangs lost is handed
over again in each window (R132, R368). -/
theorem exec_drainTimeout {l : Bool × State} {s1 : State} (hd : drainOf s set = some d) (hf : d.flush = false)
    (hx : drainExpired s d = true) (hl : l = limitOnce s (limitKey 22 set 0) (now s / 1000))
    (ha : d.hung = false ∨ d.again = true ∧ l.1 = true)
    (h1 : s1 = if d.hung then l.2 else report l.2 (devPage 7) 0x0309 { detail := [d.set] }) :
    exec (.drainTimeout set) s = .next (foundHang
      (setDrain s1 d.set (some { d with hung := true, again := hangLost s1 (drainHang s1 d) })) (allWaits s1) (drainHang s1 d)) := by
  have hdue : (d.hung && !(d.again && l.1)) = false := by
    rcases ha with h | ⟨h, hlim⟩
    · rw [h, Bool.false_and]
    · rw [h, hlim, Bool.and_self, Bool.not_true, Bool.and_false]
  show execDrainTimeout set s = _
  unfold execDrainTimeout
  simp only [hd, hf, hx, ← hl, hdue, ← h1, Bool.not_true, Bool.or_self, Bool.false_eq_true, if_false]

theorem exec_flushTimeout (hd : drainOf s set = some d) (hf : d.flush = true) (hx : drainExpired s d = true) :
    exec (.flushTimeout set) s = .next (setDrain
      (flowCmd (each (d.tiles.filter (fun t => !tileIdle s t)) (fun u t => fenceTile u t 0x030A)
        (report s (devPage 7) 0x030A { detail := [d.set, (d.tiles.filter (fun t => !tileIdle s t)).length] }))
        0x0B d.group d.set d.epoch 0 false) d.set none) := by
  show execFlushTimeout set s = _
  unfold execFlushTimeout
  simp only [hd, hf, hx, Bool.and_self, if_true]

end

/-- A placement that passes its checks, of a set that does not drain, is written and its drain begins. -/
theorem exec_setLoad {s : State} {image : Nat} {group : Fin 4096} {cfgs steers renum : List (Nat × Nat)} {im : Image} {p : Placement}
    (him : im = imageOf s image) (hp : p = { cfgs := cfgs, steers := steers, renum := renum }) (hok : placeOk s image im p = true)
    (hd : drainOf s im.set = none) :
    exec (.setLoad image group cfgs steers renum) s = .next (
      let epoch := if placedOf s im.set = noPlaced then 0 else ((placedOf s im.set).epoch + 1) % 4
      beginDrain (each (p.tiles ++ leftTiles s im.set p.tiles) (fun u t => placeTile u image im p t) s) im.set epoch
        (loadFlush s im (imageCtxs s image im)) (p.tiles ++ leftTiles s im.set p.tiles)
        { image := image, group := group, tiles := p.tiles, epoch := epoch, flush := im.flush, limit := im.limit
          ctxs := imageCtxs s image im }) := by
  subst him hp
  show execSetLoad image group cfgs steers renum s = _
  unfold execSetLoad
  simp only [hok, hd, Option.isNone_none, Bool.and_self, if_true]

/-- A window is sampled once. -/
theorem exec_tsSampleWindow_again {s : State} (hl : (limitOnce s (limitKey 21 0 0) (now s / 1000)).1 = false) :
    exec .tsSampleWindow s = .next s := by
  show execTsSampleWindow s = _
  unfold execTsSampleWindow
  simp only [hl, Bool.and_false, Bool.false_eq_true, if_false]

/-- A window's records that do not fit into the ring are counted and reported as dropped. -/
theorem exec_tsSampleWindow_full {s u : State} (he : rdB u (tsReg 0x100) 0 = true)
    (hl : limitOnce u (limitKey 21 0 0) (now u / 1000) = (true, s))
    (hr : (rdF s (tsReg 0x118) 0 16 + 65536 - rdF s (tsReg 0x110) 0 16 - 1) % 65536 < rdF s (tsReg 0x128) 0 9) :
    exec .tsSampleWindow u = .next (
      reportLimited (incSat s (tsReg 0x120)) (devPage 6) 0 0x1201 (limitKey 7 0 0) (now s / 1000000)) := by
  show execTsSampleWindow u = _
  unfold execTsSampleWindow
  simp only [he, hl, hr, Bool.and_self, if_true]

theorem exec_compatUnsampled {s : State} {t : TileId} {n : Fin 16} (hf : hasFlow t = true)
    (hh : mapGet (fun _ => 0) s.flow.compatRead (t * 16 + n) + 3600000000000 ≤ now s)
    (hc : compatReg s t n ≠ mapGet (fun _ => 0) s.flow.compatSeen (t * 16 + n)) :
    exec (.compatUnsampled t n) s = .next (noteCompat (report s (dfPage t) 0x1203 { detail := [n] }) t n
      (mapGet (fun _ => 0) s.flow.compatRead (t * 16 + n) + 3600000000000)) := by
  show execCompatUnsampled t n s = _
  unfold execCompatUnsampled
  simp only [hf, hh, bne_iff_ne.2 hc, decide_true, Bool.and_self, if_true]

/-- Settles O10: each command's conditions single out one branch of its meaning; the hang of a drain is `drainHang`. -/
theorem placementTimers : Obligations.PlacementTimers := by
  refine ⟨?drain, ?flush, ?load, ?sampled, ?dropped, ?written, ?unread⟩
  case drain =>
    rintro set d l _ s1 s hd hf hx hl ha h1 rfl
    exact exec_drainTimeout hd hf hx hl ha h1
  case flush =>
    rintro set d _ s hd hf hx rfl
    exact exec_flushTimeout hd hf hx
  case load =>
    rintro image group cfgs steers renum im p _ _ s him hp hok hd rfl rfl
    exact exec_setLoad him hp hok hd
  case sampled => exact fun s hl => exec_tsSampleWindow_again hl
  case dropped => exact fun s u he hl hr => exec_tsSampleWindow_full he hl hr
  case written =>
    intro s u he hl hr
    show execTsSampleWindow u = _
    unfold execTsSampleWindow
    simp only [he, hl, Nat.not_lt.2 hr, Bool.and_self, if_true, if_false]
  case unread => exact fun t n s hf hh hc => exec_compatUnsampled hf hh hc

end Sys2Proof.Machine

/-! SUPPORT. Scratchpad accesses of an agent (R149–R151, R159, R162): how a checked access ends, and how it is answered. -/

namespace Sys2Proof.Machine

section
variable {s : State} {x : SpAcc}

/-! ### What an access that is performed delivers -/

/-- A read that is performed delivers its bytes, as its banks' windows leave them. -/
theorem perform_read (h : x.op = .rd ∨ x.op = .rdFull ∨ x.op = .rdTake) : (perform s x).1 =
    .ok (readPadBytes (touchBanks s x.tile (x.boff / 4) ((x.boff + x.len + 3) / 4 - x.boff / 4)) x.tile x.boff x.len x.ctx).1 := by
  show (moveData _ x).1 = _
  unfold moveData
  rcases h with h | h | h <;> rw [h]

/-- A tag that is cleared delivers no data. -/
theorem perform_clrTag (h : x.op = .clrTag) : (perform s x).1 = .ok [] := by
  show (moveData _ x).1 = _
  unfold moveData
  rw [h]

/-! ### How an access ends -/

theorem access_failed {code : Nat} (hc : regionCheck s x = some code) : access s x = (.failed code, accessFailed s x code) := by
  unfold access
  rw [hc]

theorem access_held (hc : regionCheck s x = none) (hh : mustHold s x = true) :
    access s x = (.waiting, { s with pad := { s.pad with heldAcc := s.pad.heldAcc ++ [{ acc := x, circ := none }] } }) := by
  unfold access
  simp only [hc, hh, if_true]

/-- A tagged access that nothing holds and whose tag is sound is performed when the tag admits it and no other of its kind
waits, and waits else; a tag is cleared whatever it is. -/
theorem access_tagged (hc : regionCheck s x = none) (hh : mustHold s x = false) (ht : opTagged x.op = true)
    (hg : (tagBad (tagAt s x.tile (x.boff / 4)) && x.op != .clrTag) = false) :
    access s x = if tagReady (tagAt s x.tile (x.boff / 4)) x.op
        && (x.op == .clrTag || (slotWaiters s x.tile x.boff (x.op == .wrFill)).isEmpty)
      then perform s x else (.waiting, addWaiter s x) := by
  unfold access
  simp only [hc, hh, ht, hg, Bool.false_eq_true, if_false, if_true]

theorem access_clrTag (hc : regionCheck s x = none) (hh : mustHold s x = false) (ho : x.op = .clrTag) : access s x = perform s x := by
  rw [access_tagged hc hh (by rw [ho]; rfl) (by rw [ho]; exact Bool.and_false _), ho]
  rfl

/-- A tagged read whose slot is FULL and that stands behind no other read of it is performed. -/
theorem access_full (hc : regionCheck s x = none) (hh : mustHold s x = false) (ho : x.op = .rdFull ∨ x.op = .rdTake)
    (hg : tagAt s x.tile (x.boff / 4) = { full := true, comp := false }) (hw : slotWaiters s x.tile x.boff false = []) :
    access s x = perform s x := by
  have hop : opTagged x.op = true ∧ (x.op == .wrFill) = false ∧ tagReady { full := true, comp := false } x.op = true := by
    rcases ho with h | h <;> rw [h] <;> decide
  obtain ⟨ht, hr, hf⟩ := hop
  rw [access_tagged hc hh ht (by rw [hg]; rfl), hg, hf, hr, hw]
  simp

/-- A tagged access whose slot is not ready, or behind which others of its kind wait, becomes a waiter. -/
theorem access_waits (hc : regionCheck s x = none) (hh : mustHold s x = false) (ht : opTagged x.op = true) (ho : x.op ≠ .clrTag)
    (hg : tagBad (tagAt s x.tile (x.boff / 4)) = false)
    (hw : tagReady (tagAt s x.tile (x.boff / 4)) x.op = false ∨ slotWaiters s x.tile x.boff (x.op == .wrFill) ≠ []) :
    access s x = (.waiting, addWaiter s x) := by
  rw [access_tagged hc hh ht (by rw [hg, Bool.false_and])]
  refine if_neg ?_
  rcases hw with h | h <;> simp [h, ho]

/-! ### How an agent's access is answered -/

section
variable {a : Agent} (hr : x.req = .mgmt a)
include hr

theorem openAccess_denied (hd : (x.ctx.isNone && padDenied s a x.tile x.boff x.len (opWrites x.op)) = true) :
    openAccess s x = emit (denied s (spPage x.tile)) (.access (.mgmt a) 0x0A05 []) := by
  unfold openAccess
  simp only [hr, hd, if_true]

variable {v : State} (hd : (x.ctx.isNone && padDenied s a x.tile x.boff x.len (opWrites x.op)) = false)
include hd

theorem openAccess_done {d : List (Option Byte)} (h : access s x = (.ok d, v)) : openAccess s x = emit v (.access (.mgmt a) 0 d) := by
  unfold openAccess
  simp only [hr, hd, h, Bool.false_eq_true, if_false]

theorem openAccess_waiting (h : access s x = (.waiting, v)) : openAccess s x = v := by
  unfold openAccess
  simp only [hr, hd, h, Bool.false_eq_true, if_false]

theorem openAccess_failed {code : Nat} (h : access s x = (.failed code, v)) :
    openAccess s x = emit v (.access (.mgmt a) code []) := by
  unfold openAccess
  simp only [hr, hd, h, Bool.false_eq_true, if_false]

end

end

/-! ### The commands -/

section
variable {s : State} {a : Agent} {c : Option CtxId} {t : TileId} {k : Fin 8} {op : SpOp} {flips : List (Nat × Nat)}

/-- A read with a code that reads makes its access after its upsets. -/
theorem exec_scratchpadRead {b len : Nat} (hl : len ≠ 0) (hk : k = 0 ∨ k = 2 ∨ k = 3) (ho : opOfCode k = some op) :
    exec (.scratchpadRead a c t b len k flips) s = .next (openAccess (upset s t flips)
      { tile := t, boff := b, len := len, op := op, req := .mgmt a, ctx := c.map (fun y => y.val), data := [] }) := by
  have hreads : (decide (k.val = 1) || decide (k.val = 4) || decide (k.val = 5) || decide (len = 0)) = false := by
    rcases hk with rfl | rfl | rfl <;> exact decide_eq_false hl
  show execScratchpadRead a c t b len k flips s = _
  unfold execScratchpadRead codedAccess
  simp only [hreads, ho, Bool.false_eq_true, if_false]

/-- A write with a code that writes makes its access after its upsets. -/
theorem exec_scratchpadWrite {b : Nat} {data : List Byte} (hl : data ≠ []) (hk : k = 1 ∨ k = 4 ∨ k = 5) (ho : opOfCode k = some op) :
    exec (.scratchpadWrite a c t b data k flips) s = .next (openAccess (upset s t flips)
      { tile := t, boff := b, len := data.length, op := op, req := .mgmt a, ctx := c.map (fun y => y.val), data := data.map some }) := by
  have hwrites : (decide (k.val = 0) || decide (k.val = 2) || decide (k.val = 3) || data.isEmpty) = false := by
    rcases hk with rfl | rfl | rfl <;> exact List.isEmpty_eq_false_iff.2 hl
  show execScratchpadWrite a c t b data k flips s = _
  unfold execScratchpadWrite codedAccess
  simp only [hwrites, ho, Bool.false_eq_true, if_false]

end

section
variable {i : Instr} {a : Agent} {c : Option CtxId} {t : TileId} {s u : State} {x : SpAcc}

/-- A scratchpad command makes its access, for its agent and context at its tile. -/
theorem exec_padAccess (h : padAccess i a c t s = some (x, u)) :
    exec i s = .next (openAccess u x) ∧ x.req = .mgmt a ∧ x.ctx.isNone = c.isNone ∧ x.tile = t := by
  unfold padAccess at h
  split at h
  case h_1 =>
    obtain ⟨⟨rfl, rfl, rfl, hl, hk⟩, h⟩ := Option.ite_none_right_eq_some.1 h
    obtain ⟨op, ho, h⟩ := Option.map_eq_some_iff.1 h
    cases h
    exact ⟨exec_scratchpadRead hl hk ho, rfl, Option.isNone_map, rfl⟩
  case h_2 =>
    obtain ⟨⟨rfl, rfl, rfl, hl, hk⟩, h⟩ := Option.ite_none_right_eq_some.1 h
    obtain ⟨op, ho, h⟩ := Option.map_eq_some_iff.1 h
    cases h
    exact ⟨exec_scratchpadWrite hl hk ho, rfl, Option.isNone_map, rfl⟩
  case h_9 => cases h
  all_goals
    obtain ⟨⟨rfl, rfl, rfl⟩, h⟩ := Option.ite_none_right_eq_some.1 h
    cases h
    exact ⟨rfl, rfl, Option.isNone_map, rfl⟩

theorem exec_pad_denied (h : padAccess i a c t s = some (x, u))
    (hd : (c.isNone && padDenied u a t x.boff x.len (opWrites x.op)) = true) :
    exec i s = .next (emit (denied u (spPage t)) (.access (.mgmt a) 0x0A05 [])) := by
  obtain ⟨he, hr, hc, ht⟩ := exec_padAccess h
  rw [he, openAccess_denied hr (by rw [hc, ht, hd]), ht]

variable (h : padAccess i a c t s = some (x, u)) (hd : (c.isNone && padDenied u a t x.boff x.len (opWrites x.op)) = false)
include h hd

theorem exec_pad_done {d : List (Option Byte)} (ha : access u x = perform u x) (hp : (perform u x).1 = .ok d) :
    exec i s = .next (emit (perform u x).2 (.access (.mgmt a) 0 d)) := by
  obtain ⟨he, hr, hc, ht⟩ := exec_padAccess h
  rw [he, openAccess_done hr (by rw [hc, ht, hd]) (ha.trans (Prod.ext hp rfl))]

theorem exec_pad_waiting {v : State} (ha : access u x = (.waiting, v)) : exec i s = .next v := by
  obtain ⟨he, hr, hc, ht⟩ := exec_padAccess h
  rw [he, openAccess_waiting hr (by rw [hc, ht, hd]) ha]

theorem exec_pad_failed {v : State} {code : Nat} (ha : access u x = (.failed code, v)) :
    exec i s = .next (emit v (.access (.mgmt a) code [])) := by
  obtain ⟨he, hr, hc, ht⟩ := exec_padAccess h
  rw [he, openAccess_failed hr (by rw [hc, ht, hd]) ha]

end

/-- Settles O11: a command makes its access, whose end is one of those that `access` knows, and the agent gets its answer. -/
theorem scratchAccesses : Obligations.ScratchAccesses := by
  refine ⟨?read, ?readFull, ?readTake, ?write, ?writeFill, ?clear, ?rd, ?rdFull, ?rdTake, ?wr, ?wrFill, ?clrTag,
    ?waiter, ?held, ?failed, ?denied⟩
  case read =>
    rintro a c t b len flips x s hl rfl hd hc hh
    exact exec_pad_done (by exact if_pos ⟨rfl, rfl, rfl, hl, .inl rfl⟩) hd (access_untagged hc hh rfl) (perform_read (.inl rfl))
  case readFull =>
    rintro a c t b len flips x s hl rfl hd hc hh hg hw
    exact exec_pad_done (by exact if_pos ⟨rfl, rfl, rfl, hl, .inr (.inl rfl)⟩) hd (access_full hc hh (.inl rfl) hg hw)
      (perform_read (.inr (.inl rfl)))
  case readTake =>
    rintro a c t b len flips x s hl rfl hd hc hh hg hw
    exact exec_pad_done (by exact if_pos ⟨rfl, rfl, rfl, hl, .inr (.inr rfl)⟩) hd (access_full hc hh (.inr rfl) hg hw)
      (perform_read (.inr (.inr rfl)))
  case write =>
    rintro a c t b data flips x s hl rfl hd hc hh
    exact exec_pad_done (by exact if_pos ⟨rfl, rfl, rfl, hl, .inl rfl⟩) hd (access_untagged hc hh rfl) (perform_write (.inl rfl))
  case writeFill =>
    rintro a c t b data flips x s hl rfl hd hc hh hg hw
    exact exec_pad_done (by exact if_pos ⟨rfl, rfl, rfl, hl, .inr (.inl rfl)⟩) hd (access_fill hc hh rfl hg hw)
      (perform_write (.inr rfl))
  case clear =>
    rintro a c t b data flips x s hl rfl hd hc hh
    exact exec_pad_done (by exact if_pos ⟨rfl, rfl, rfl, hl, .inr (.inr rfl)⟩) hd (access_clrTag hc hh rfl) (perform_clrTag rfl)
  case rd =>
    rintro a c t w n x s rfl hd hc hh
    exact exec_pad_done (by exact if_pos ⟨rfl, rfl, rfl⟩) hd (access_untagged hc hh rfl) (perform_read (.inl rfl))
  case rdFull =>
    rintro a c t w n x s rfl hd hc hh hg hw
    exact exec_pad_done (by exact if_pos ⟨rfl, rfl, rfl⟩) hd (access_full hc hh (.inl rfl) hg hw) (perform_read (.inr (.inl rfl)))
  case rdTake =>
    rintro a c t w n x s rfl hd hc hh hg hw
    exact exec_pad_done (by exact if_pos ⟨rfl, rfl, rfl⟩) hd (access_full hc hh (.inr rfl) hg hw) (perform_read (.inr (.inr rfl)))
  case wr =>
    rintro a c t w data x s rfl hd hc hh
    exact exec_pad_done (by exact if_pos ⟨rfl, rfl, rfl⟩) hd (access_untagged hc hh rfl) (perform_write (.inl rfl))
  case wrFill =>
    rintro a c t w data x s rfl hd hc hh hg hw
    exact exec_pad_done (by exact if_pos ⟨rfl, rfl, rfl⟩) hd (access_fill hc hh rfl hg hw) (perform_write (.inr rfl))
  case clrTag =>
    rintro a c t w n x s rfl hd hc hh
    exact exec_pad_done (by exact if_pos ⟨rfl, rfl, rfl⟩) hd (access_clrTag hc hh rfl) (perform_clrTag rfl)
  case waiter =>
    intro a c t i x u s h hd hc hh ht ho hg hw
    obtain ⟨-, -, -, htile⟩ := exec_padAccess h
    rw [← htile] at hg hw
    exact exec_pad_waiting h hd (access_waits hc hh ht ho hg hw)
  case held => exact fun a c t i x u s h hd hc hh => exec_pad_waiting h hd (access_held hc hh)
  case failed => exact fun a c t i x code u s h hd hc => exec_pad_failed h hd (access_failed hc)
  case denied => exact fun a c t i x u s h hd => exec_pad_denied h hd

end Sys2Proof.Machine

/-! SUPPORT. What the scratchpad does by itself: write-backs and the scrub (R152–R154), tags set EMPTY (R157), waiters (R164,
R165) and the states of banks (R169–R171). -/

namespace Sys2Proof.Machine

/-! ### Write-backs and the scrub -/

section
variable {t : TileId} {s : State}

theorem exec_writeBack {w : Nat} {b : WriteBack}
    (hb : s.pad.writeBacks.find? (fun b => b.tile == t.val && b.word == w && bankState s t (bankOf t w) == 0) = some b) :
    exec (.writeBack t w) s = .next
      (storeUnit { s with pad := { s.pad with writeBacks := s.pad.writeBacks.erase b } } t b.word b.weight b.data) := by
  show execWriteBack t w s = _
  unfold execWriteBack
  rw [hb]

section
variable {flips : List (Nat × Nat)} {u : State} (hp : passOf s t ≠ 0) (he : rdB s (spReg t 0x110) 0 = true)
  (hy : padYields s t = false) (hu : u = upset s t flips)
include hp he hy hu

/-- A pass that reaches a bank in RET wakes it and stays at the row. -/
theorem exec_scrubRow_ret (hb : bankState u t (bankOf t (rdF u (spReg t 0x118) 0 17)) = 1) :
    exec (.scrubRow t flips) s = .next (scrubWake u t (bankOf t (rdF u (spReg t 0x118) 0 17))) := by
  show execScrubRow t flips s = _
  simp [execScrubRow, hp, he, hy, ← hu, hb]

/-- A pass leaves the row of a bank that is ON or OFF, swept when it is ON, and ends behind the last one. -/
theorem exec_scrubRow_passes (hret : bankState u t (bankOf t (rdF u (spReg t 0x118) 0 17)) ≠ 1)
    (hwakes : bankState u t (bankOf t (rdF u (spReg t 0x118) 0 17)) ≠ 3) :
    exec (.scrubRow t flips) s = .next (
      let w := rdF u (spReg t 0x118) 0 17
      let v := if bankState u t (bankOf t w) = 2 then u else scrubRow u t w
      if tileWords t ≤ w + rowWords t then endPass v t else wrF v (spReg t 0x118) 0 17 (w + rowWords t)) := by
  show execScrubRow t flips s = _
  simp [execScrubRow, hp, he, hy, ← hu, hret, hwakes]

theorem exec_scrubRow_on (hb : bankState u t (bankOf t (rdF u (spReg t 0x118) 0 17)) = 0)
    (hw : rdF u (spReg t 0x118) 0 17 + rowWords t < tileWords t) :
    exec (.scrubRow t flips) s = .next
      (wrF (scrubRow u t (rdF u (spReg t 0x118) 0 17)) (spReg t 0x118) 0 17 (rdF u (spReg t 0x118) 0 17 + rowWords t)) := by
  rw [exec_scrubRow_passes hp he hy hu (by rw [hb]; decide) (by rw [hb]; decide)]
  simp [hb, Nat.not_le.2 hw]

theorem exec_scrubRow_off_last (hb : bankState u t (bankOf t (rdF u (spReg t 0x118) 0 17)) = 2)
    (hw : tileWords t ≤ rdF u (spReg t 0x118) 0 17 + rowWords t) :
    exec (.scrubRow t flips) s = .next (endPass u t) := by
  rw [exec_scrubRow_passes hp he hy hu (by rw [hb]; decide) (by rw [hb]; decide)]
  simp [hb, hw]

end

theorem exec_scrubPassStart (hp : passOf s t = 0) (hn : now s % scrubPeriod s t = 0)
    (ha : mapGet (fun _ => 0) s.pad.passAt t ≠ now s + 1) : exec (.scrubPassStart t) s = .next (beginPass s t) := by
  show execScrubPassStart t s = _
  simp [execScrubPassStart, hp, hn, ha]

theorem exec_scrubLate (hp : passOf s t ≠ 0) (hl : rdB s (spReg t 0x118) 17 = false) (hn : passOf s t * scrubPeriod s t ≤ now s) :
    exec (.scrubLate t) s = .next (report (wrB s (spReg t 0x118) 17 true) (spPage t) 0x040D) := by
  show execScrubLate t s = _
  simp [execScrubLate, hp, hl, Nat.not_lt.2 hn]

end

/-! ### Tags set EMPTY, and waiters -/

section
variable {t : TileId} {s : State}

theorem exec_tagInitComplete {r : Fin 8} {j : Fin 16} {g : Rgn} {s1 : State}
    (hk : s.pad.tagInit.contains (t.val, r.val * 16 + j.val) = true)
    (h1 : s1 = { s with pad := { s.pad with tagInit := s.pad.tagInit.filter (fun x => x != (t.val, r.val * 16 + j.val)) } })
    (hg : rgnAt s1 t r j = some g) :
    exec (.tagInitComplete t r j) s = .next (
      let s2 := each (List.range ((g.limit - g.base) / g.slotWords)) (fun u i => setTag u t (g.base + i * g.slotWords) false) s1
      retryHeld (wrB s2 (spReg t 0x108) 1 (s2.pad.tagInit.any (fun x => x.1 == t.val))) t) := by
  show execTagInitComplete t r j s = _
  unfold execTagInitComplete
  simp only [hk, ← h1, hg, Bool.not_true, Bool.false_eq_true, if_false]

/-- An EMPTY slot serves its oldest waiter and no other: the write that it admits fills it. -/
theorem serveSlot_empty {b n : Nat} {x : Waiter} (hg : tagBad (tagAt s t (b / 4)) = false)
    (hf : (tagAt s t (b / 4)).full = false) (hx : (slotWaiters s t b true).head? = some x) :
    serveSlot t b (n + 1) s = serveWaiter s x := by
  unfold serveSlot
  simp only [hg, hf, Bool.not_false, hx, Bool.false_eq_true, if_false]

theorem exec_waiterServed {w : Nat} {x : Waiter} (hg : tagBad (tagAt s t w) = false)
    (hf : (tagAt s t w).full = false) (hx : (slotWaiters s t (4 * w) (!(tagAt s t w).full)).head? = some x) :
    exec (.waiterServed t w) s = .next (serveWaiter s x) := by
  have hw : 4 * w / 4 = w := Nat.mul_div_cancel_left w (by decide)
  rw [hf] at hx
  rw [← hw] at hg hf
  exact congrArg Host.Outcome.next (serveSlot_empty hg hf hx)

theorem exec_waiterTableRoom {b : Fin 32} {x : Waiter}
    (hx : s.pad.waiters.find? (fun x => x.atPort && x.acc.tile == t.val && bankOf t (x.acc.boff / 4) == b.val) = some x)
    (hn : (bankWaiters s t b).length < 64) :
    exec (.waiterTableRoom t b) s = .next
      (retryAccess (waitSteps { s with pad := { s.pad with waiters := s.pad.waiters.erase x } } t 0x0D0 x.since) x.acc) := by
  show execWaiterTableRoom t b s = _
  unfold execWaiterTableRoom
  simp only [hx, hn, if_true]

end

/-! ### Banks -/

section
variable {t : TileId} {b : Fin 32} {s : State}

section
variable (hb : b.val < tileBanks t)
include hb

theorem exec_bankStateReached_wakes (hs : bankState s t b = 3) : exec (.bankStateReached t b) s = .next (bankOn s t b) := by
  show execBankStateReached t b s = _
  simp [execBankStateReached, Nat.not_le.2 hb, hs]

theorem exec_bankStateReached_off (hoff : bankState s t b ≠ 2) (hwakes : bankState s t b ≠ 3) (hq : bankAsked s t b = 2)
    (hm : bankMapped s t b = false) : exec (.bankStateReached t b) s = .next (loseBank (setBankState s t b 2) t b) := by
  show execBankStateReached t b s = _
  simp [execBankStateReached, Nat.not_le.2 hb, hoff, hwakes, hq, hm]

theorem exec_bankStateReached_ret (hs : bankState s t b = 2 ∨ bankState s t b = 0 ∧ wakeEndOf s t b = 0)
    (hq : bankAsked s t b = 1) : exec (.bankStateReached t b) s = .next (setBankState s t b 1) := by
  show execBankStateReached t b s = _
  rcases hs with hs | ⟨hs, he⟩
  · simp [execBankStateReached, Nat.not_le.2 hb, hs, hq]
  · simp [execBankStateReached, Nat.not_le.2 hb, hs, he, hq]

end

theorem exec_bankWake (hs : bankState s t b = 1) (hw : bankWanted s t b = true) (hc : clusterPower s (clusterOf t) ≤ 1) :
    exec (.bankWake t b) s = .next (incSat (setBankState s t b 3) (spReg t 0x0B0)) := by
  show execBankWake t b s = _
  simp [execBankWake, hs, hw, hc]

theorem exec_bankIdleReturn (hs : bankState s t b = 0) (hq : bankAsked s t b = 1) (he : wakeEndOf s t b ≠ 0)
    (hn : wakeEndOf s t b ≤ now s) : exec (.bankIdleReturn t b) s = .next (setBankState (setWakeEnd s t b 0) t b 1) := by
  show execBankIdleReturn t b s = _
  simp [execBankIdleReturn, hs, hq, he, hn]

end

/-- Settles O13: each command's conditions single out one branch of its meaning; a wake that ends is `bankOn`, and the pass's limit
is its index times `scrubPeriod`. -/
theorem scratchpadUpkeep : Obligations.ScratchpadUpkeep := by
  refine ⟨?writeBack, ?scrubRet, ?scrubOn, ?scrubOff, ?passStart, ?late, ?tagInit, ?waiter, ?room, ?woken, ?lost, ?retained,
    ?wake, ?idle⟩
  case writeBack => exact fun t w b s hb => exec_writeBack hb
  case scrubRet => exact fun t flips u s hp he hy hu hb => exec_scrubRow_ret hp he hy hu hb
  case scrubOn => exact fun t flips u s hp he hy hu hb hw => exec_scrubRow_on hp he hy hu hb hw
  case scrubOff => exact fun t flips u s hp he hy hu hb hw => exec_scrubRow_off_last hp he hy hu hb hw
  case passStart => exact fun t s hp hn ha => exec_scrubPassStart hp hn ha
  case late => exact fun t s hp hl hn => exec_scrubLate hp hl hn
  case tagInit => exact fun t r j g s1 s hk h1 hg => exec_tagInitComplete hk h1 hg
  case waiter => exact fun t w x s hg hx hf => exec_waiterServed hg hf hx
  case room => exact fun t b x s hx hn => exec_waiterTableRoom hx hn
  case woken => exact fun t b s hb hs => exec_bankStateReached_wakes hb hs
  case lost => exact fun t b s hb hoff hwakes hq hm => exec_bankStateReached_off hb hoff hwakes hq hm
  case retained => exact fun t b s hb hs hq => exec_bankStateReached_ret hb hs hq
  case wake => exact fun t b s hs hw hc => exec_bankWake hs hw hc
  case idle => exact fun t b s hs hq he hn => exec_bankIdleReturn hs hq he hn

end Sys2Proof.Machine

/-! SUPPORT. The operations of a handler (R200–R202): each is performed where it is its thread's next one, and what it then does. -/

namespace Sys2Proof.Machine

section
variable {s : State} {t n op w : Nat} {h : Thread}

/-- A thread's next operation is performed on the thread and the operation word that `ready` finds. -/
theorem onOp_ready (hr : ready s t n = some (h, w)) (ho : opOf w = op) (f : State → Thread → Nat → State) :
    onOp s t n op f = f s h w := by
  unfold onOp
  simp only [hr, ho, if_true]

/-! ### Moving on -/

/-- A thread that wrote a register goes on with its next operation. -/
theorem next_setG {a v : Nat} (hc : h.pc < h.count) (hf : h.fate ≠ .reset) :
    next s t n (setG h a v) = movedOn s t n (setG h a v) (h.pc + 1) := by
  rw [next_ok (by rwa [setG_pc, setG_count]) (by rwa [setG_fate]), setG_pc]

theorem next_setO {i v : Nat} (hc : h.pc < h.count) (hf : h.fate ≠ .reset) :
    next s t n (setO h i v) = movedOn s t n (setO h i v) (h.pc + 1) :=
  next_ok (h := setO h i v) hc hf

theorem next_setOs {i : Nat} {vs : List Nat} (hc : h.pc < h.count) (hf : h.fate ≠ .reset) :
    next s t n (setOs h i vs) = movedOn s t n (setOs h i vs) (h.pc + 1) := by
  rw [next_ok (by rwa [setOs_pc, setOs_count]) (by rwa [setOs_fate]), setOs_pc]

/-! ### Operations of one form -/

theorem aluOp_ready (hr : ready s t n = some (h, w)) (ho : opOf w = op) (hc : h.pc < h.count) (f : Thread → Nat → Nat) :
    aluOp s t n op f = movedOn s t n (setG h (opA w) (f h w)) (h.pc + 1) := by
  rw [aluOp, onOp_ready hr ho, next_setG hc (ready_fate hr)]

section
variable {taken : Nat → Nat → Bool} (hr : ready s t n = some (h, w)) (ho : opOf w = op) (hk : opImm w ≠ 0)
  (hc : h.pc + 1 + opImm w ≤ h.count)
include hr ho hk hc

/-- A branch whose target is an operation of the handler goes there when taken, else to the next operation. -/
theorem branchOp_ready : branchOp s t n op taken =
    movedOn s t n h (if taken (gReg h (opA w)) (gReg h (opB w)) then h.pc + 1 + opImm w else h.pc + 1) := by
  have hbad : ¬(decide (opImm w = 0) || decide (h.count < h.pc + 1 + opImm w)) = true := by
    simp only [Bool.or_eq_true, decide_eq_true_eq]
    omega
  rw [branchOp, onOp_ready hr ho, if_neg hbad]
  split
  · exact goTo_ok hc (ready_fate hr)
  · exact next_ok (by omega) (ready_fate hr)

theorem branchOp_taken (ht : taken (gReg h (opA w)) (gReg h (opB w)) = true) :
    branchOp s t n op taken = movedOn s t n h (h.pc + 1 + opImm w) := by
  rw [branchOp_ready hr ho hk hc, if_pos ht]

theorem branchOp_passed (ht : taken (gReg h (opA w)) (gReg h (opB w)) = false) :
    branchOp s t n op taken = movedOn s t n h (h.pc + 1) := by
  rw [branchOp_ready hr ho hk hc, ht, if_neg Bool.false_ne_true]

end

/-! ### Scratchpad operations -/

section
variable {x : Nat} (hr : ready s t n = some (h, w)) (ho : opOf w = op) (hb : opBad s t h w = false)
  (hx : relative s t h.ctx (opC w) (gReg h (opB w) + opImm w) (opWords s t h w) = some x)
include hr ho hb hx

/-- A scratchpad operation whose operands and region are good makes its access once; where that is performed, its data reach the
thread. -/
theorem padOp_done {d : List (Option Byte)}
    (ha : (access s (wordAcc t x (opWords s t h w) (opAccess w) (.thread t n) h.ctx (opData s t h w))).1 = .ok d) :
    padOp s t n op =
      accessDone (access s (wordAcc t x (opWords s t h w) (opAccess w) (.thread t n) h.ctx (opData s t h w))).2 t n d := by
  rw [padOp, onOp_ready hr ho, hb, if_neg Bool.false_ne_true]
  simp only [hx, ha]

theorem padOp_waiting
    (ha : (access s (wordAcc t x (opWords s t h w) (opAccess w) (.thread t n) h.ctx (opData s t h w))).1 = .waiting) :
    padOp s t n op =
      setThread (access s (wordAcc t x (opWords s t h w) (opAccess w) (.thread t n) h.ctx (opData s t h w))).2 t n
        { h with wait := .tag, since := now s } := by
  rw [padOp, onOp_ready hr ho, hb, if_neg Bool.false_ne_true]
  simp only [hx, ha]

end

/-! ### Messages of a handler -/

section
variable {dst handler vc len : Nat} {u : State} (hl : len ≤ 1000) (hh : handler ≠ 0x3FF)
include hl hh

/-- A message that a handler may send is tried once: the thread goes on, with its wait noted when credit is short. -/
theorem handlerSend_tries {r : SendRes × State}
    (ht : trySend s t h.queue (.thread n) (buildMsg s t h.queue h.ctx dst handler vc (oBytes h len)) = r) :
    handlerSend s t n h dst handler vc len =
      next r.2 t n (if r.1 = .wait then { h with wait := .credit, since := now s } else h) := by
  have hbad : ¬(decide (1000 < len) || decide (handler = 0x3FF)) = true := by
    simp only [Bool.or_eq_true, decide_eq_true_eq]
    omega
  rw [handlerSend, if_neg hbad, ht]
  obtain ⟨res, v⟩ := r
  cases res <;> rfl

theorem handlerSend_sent (hc : h.pc < h.count) (hf : h.fate ≠ .reset)
    (ht : trySend s t h.queue (.thread n) (buildMsg s t h.queue h.ctx dst handler vc (oBytes h len)) = (.sent, u)) :
    handlerSend s t n h dst handler vc len = movedOn u t n h (h.pc + 1) :=
  (handlerSend_tries hl hh ht).trans (next_ok hc hf)

theorem handlerSend_wait (hc : h.pc < h.count) (hf : h.fate ≠ .reset)
    (ht : trySend s t h.queue (.thread n) (buildMsg s t h.queue h.ctx dst handler vc (oBytes h len)) = (.wait, u)) :
    handlerSend s t n h dst handler vc len = movedOn u t n { h with wait := .credit, since := now s } (h.pc + 1) :=
  (handlerSend_tries hl hh ht).trans (next_ok (h := { h with wait := .credit, since := now s }) hc hf)

end

end

/-! ### The commands -/

section
variable {s : State} {t : TileId} {n : Fin 4} {h : Thread} {w : Nat} (hr : ready s t n = some (h, w))
include hr

section
variable (ho : opOf w = 0x0C)
include ho

theorem exec_opLdp_word (hc : h.pc < h.count) (hi : gReg h (opB w) + opImm w < pWords h) :
    exec (.opLdp t n) s = .next (movedOn s t n (setG h (opA w) (pWord h (gReg h (opB w) + opImm w))) (h.pc + 1)) := by
  show execLdp t n s = _
  rw [execLdp, onOp_ready hr ho, if_pos hi, next_setG hc (ready_fate hr)]

theorem exec_opLdp_outside (hi : pWords h ≤ gReg h (opB w) + opImm w) : exec (.opLdp t n) s = .next (handlerFault s t n) := by
  show execLdp t n s = _
  rw [execLdp, onOp_ready hr ho, if_neg (Nat.not_lt.2 hi)]

end

theorem exec_opSto (ho : opOf w = 0x0D) (hc : h.pc < h.count) (hi : gReg h (opB w) + opImm w < 250) :
    exec (.opSto t n) s = .next (movedOn s t n (setO h (gReg h (opB w) + opImm w) (gReg h (opA w))) (h.pc + 1)) := by
  show execSto t n s = _
  rw [execSto, onOp_ready hr ho, if_pos hi, next_setO hc (ready_fate hr)]

theorem exec_opMovpo (ho : opOf w = 0x16) (hc : h.pc < h.count) (h1 : 1 ≤ opImm w) (hk : opImm w ≤ 250)
    (hp : gReg h (opA w) + opImm w ≤ pWords h) (hd : gReg h (opB w) + opImm w ≤ 250) :
    exec (.opMovpo t n) s = .next (movedOn s t n (setOs h (gReg h (opB w))
      ((List.range (opImm w)).map (fun i => pWord h (gReg h (opA w) + i)))) (h.pc + 1)) := by
  show execMovpo t n s = _
  rw [execMovpo, onOp_ready hr ho]
  simp only [h1, hk, hp, hd, decide_true, Bool.and_self, if_true]
  rw [next_setOs hc (ready_fate hr)]

section
variable {u : State}

section
variable (ho : opOf w = 0x1A) (hc : h.pc < h.count) (ha : opA w ≠ 15) (hl : gReg h (opC w) ≤ 1000)
  (hh : fieldNat (gReg h (opA w + 1)) 4 10 ≠ 0x3FF)
include ho hc ha hl hh

theorem exec_opSend_sent (ht : trySend s t h.queue (.thread n) (buildMsg s t h.queue h.ctx
      (gReg h (opA w) + (fieldNat (gReg h (opA w + 1)) 0 4 <<< 32)) (fieldNat (gReg h (opA w + 1)) 4 10)
      (if (gReg h (opA w + 1)).testBit 14 then 3 else 2) (oBytes h (gReg h (opC w)))) = (.sent, u)) :
    exec (.opSend t n) s = .next (movedOn u t n h (h.pc + 1)) := by
  show execSend t n s = _
  rw [execSend, onOp_ready hr ho, if_neg ha]
  exact congrArg Host.Outcome.next (handlerSend_sent hl hh hc (ready_fate hr) ht)

theorem exec_opSend_wait (ht : trySend s t h.queue (.thread n) (buildMsg s t h.queue h.ctx
      (gReg h (opA w) + (fieldNat (gReg h (opA w + 1)) 0 4 <<< 32)) (fieldNat (gReg h (opA w + 1)) 4 10)
      (if (gReg h (opA w + 1)).testBit 14 then 3 else 2) (oBytes h (gReg h (opC w)))) = (.wait, u)) :
    exec (.opSend t n) s = .next (movedOn u t n { h with wait := .credit, since := now s } (h.pc + 1)) := by
  show execSend t n s = _
  rw [execSend, onOp_ready hr ho, if_neg ha]
  exact congrArg Host.Outcome.next (handlerSend_wait hl hh hc (ready_fate hr) ht)

end

theorem exec_opReply_sent (ho : opOf w = 0x1B) (hc : h.pc < h.count) (hl : gReg h (opC w) ≤ 1000)
    (hh : gReg h (opB w) % 1024 ≠ 0x3FF)
    (ht : trySend s t h.queue (.thread n) (buildMsg s t h.queue h.ctx h.msg.hdr.src (gReg h (opB w) % 1024) 2
      (oBytes h (gReg h (opC w)))) = (.sent, u)) : exec (.opReply t n) s = .next (movedOn u t n h (h.pc + 1)) := by
  show execReply t n s = _
  rw [execReply, onOp_ready hr ho, handlerSend_sent hl hh hc (ready_fate hr) ht]

theorem exec_opGrant_granted (ho : opOf w = 0x1C) (hc : h.pc < h.count)
    (hg : grant s t (opImm w % 256) (fieldNat (gReg h (opA w)) 13 15) (fieldNat (gReg h (opA w)) 0 13) (gReg h (opB w))
      (some h.ctx) = (true, u)) :
    exec (.opGrant t n) s = .next (movedOn u t n (setG h (opB w) (gReg h (opB w))) (h.pc + 1)) := by
  show execGrant t n s = _
  rw [execGrant, onOp_ready hr ho]
  simp only [hg, if_true]
  rw [next_setG hc (ready_fate hr)]

end

/-- GET of a READ queue of the thread's context that no other unit reads releases P and takes the queue's message, or awaits it. -/
theorem exec_opGet (ho : opOf w = 0x1D) (hq : qRead s t (opImm w % 256) = true) (hown : qOwner s t (opImm w % 256) = h.ctx)
    (hu : unitReads s t (opImm w % 256) = false) :
    exec (.opGet t n) s = .next (takeMessage (setThread (releaseP s t h) t n
      { h with own := none, wait := .message (opImm w % 256), since := now s }) t n (opImm w % 256)) := by
  show Host.Outcome.next (getOp s t n) = _
  rw [getOp, onOp_ready hr ho]
  simp only [hq, hown, hu, Bool.not_true, bne_self_eq_false, Bool.or_self, Bool.false_eq_true, if_false]

theorem exec_opFence (ho : opOf w = 0x1F) (hc : h.pc < h.count) (hi : inFlight s t h = false) :
    exec (.opFence t n) s = .next (movedOn s t n h (h.pc + 1)) := by
  show execFence t n s = _
  rw [execFence, onOp_ready hr ho, hi, if_neg Bool.false_ne_true, next_ok hc (ready_fate hr)]

end

/-- Settles O16: the twelve operations are of one form, which computes a value and writes it to g(A). -/
theorem handlerArithmetic : Obligations.HandlerArithmetic := by
  refine ⟨?li, ?lui, ?add, ?sub, ?and, ?or, ?xor, ?shli, ?shri, ?addi, ?mul, ?step⟩
  all_goals exact fun t n h w s hr ho hc => congrArg Host.Outcome.next (aluOp_ready hr ho hc _)

/-- Settles O17: the branches and the scratchpad operations each by the rule of their form, every other operation by its own. -/
theorem handlerOperations : Obligations.HandlerOperations := by
  refine ⟨?ldp, ?ldpOutside, ?sto, ?movpo, ?beqTaken, ?beqPassed, ?bneTaken, ?bnePassed, ?bltuTaken, ?bltuPassed,
    ?ld, ?st, ?aadd, ?cas, ?fill, ?take, ?peek, ?clrt, ?takeWaits, ?send, ?sendWaits, ?reply, ?grant, ?get, ?fence, ?ends⟩
  case ldp => exact fun t n h w s hr ho hc hi => exec_opLdp_word hr ho hc hi
  case ldpOutside => exact fun t n h w s hr ho _ hi => exec_opLdp_outside hr ho hi
  case sto => exact fun t n h w s hr ho hc hi => exec_opSto hr ho hc hi
  case movpo => exact fun t n h w s hr ho hc h1 hk hp hd => exec_opMovpo hr ho hc h1 hk hp hd
  case beqTaken =>
    exact fun t n h w s hr ho hk hc he => congrArg Host.Outcome.next (branchOp_taken hr ho hk hc (beq_iff_eq.2 he))
  case beqPassed =>
    exact fun t n h w s hr ho hk hc he => congrArg Host.Outcome.next (branchOp_passed hr ho hk hc (beq_eq_false_iff_ne.2 he))
  case bneTaken =>
    exact fun t n h w s hr ho hk hc he => congrArg Host.Outcome.next (branchOp_taken hr ho hk hc (bne_iff_ne.2 he))
  case bnePassed =>
    exact fun t n h w s hr ho hk hc he => congrArg Host.Outcome.next (branchOp_passed hr ho hk hc (bne_eq_false_iff_eq.2 he))
  case bltuTaken =>
    exact fun t n h w s hr ho hk hc hl => congrArg Host.Outcome.next (branchOp_taken hr ho hk hc (decide_eq_true hl))
  case bltuPassed =>
    exact fun t n h w s hr ho hk hc hl =>
      congrArg Host.Outcome.next (branchOp_passed hr ho hk hc (decide_eq_false (Nat.not_lt.2 hl)))
  case takeWaits => exact fun t n h w x s hr ho hb hx ha => congrArg Host.Outcome.next (padOp_waiting hr ho hb hx ha)
  case send =>
    rintro t n h w _ u s hr ho hc ha hl hh rfl ht
    exact exec_opSend_sent hr ho hc ha hl hh ht
  case sendWaits =>
    rintro t n h w _ u s hr ho hc ha hl hh rfl ht
    exact exec_opSend_wait hr ho hc ha hl hh ht
  case reply =>
    rintro t n h w _ u s hr ho hc hl hh rfl ht
    exact exec_opReply_sent hr ho hc hl hh ht
  case grant => exact fun t n h w u s hr ho hc hg => exec_opGrant_granted hr ho hc hg
  case get =>
    rintro t n h w _ s hr ho rfl hq hown hu
    exact exec_opGet hr ho hq hown hu
  case fence => exact fun t n h w s hr ho hc hi => exec_opFence hr ho hc hi
  case ends => exact fun t n h w s hr ho => congrArg Host.Outcome.next (onOp_ready hr ho _)
  all_goals exact fun t n h w x d s hr ho hb hx ha => congrArg Host.Outcome.next (padOp_done hr ho hb hx ha)

end Sys2Proof.Machine

/-! SUPPORT. A message header as its six words and as bytes (R175, R176): each word holds its fields apart, and the bytes of a
message's slots begin with its header's words and its payload. -/

namespace Sys2Proof.Machine

/-! ### Fields of the header's words -/

/-- The low 32 bits of an endpoint in one word and its high 4 in the next hold it. -/
theorem endpoint_parts {e : Nat} (h : e < 2 ^ 36) :
    fieldNat (e % 2 ^ 32) 0 32 + (place 0 4 (e >>> 32) <<< 32) = e := by
  simp only [fieldNat, place, Nat.shiftRight_eq_div_pow, Nat.shiftLeft_eq]
  omega

/-- Word 1: credit epoch, context, handler, VC, LEN and the high bits of DST. -/
theorem hdrWord1_fields {e c n v l d : Nat} (he : e < 16) (hc : c < 256) (hn : n < 1024) (hv : v < 4) (hl : l < 16) {w : Nat}
    (hw : w = place 28 4 e + place 20 8 c + place 10 10 n + place 8 2 v + place 4 4 l + place 0 4 d) :
    w < 2 ^ 32 ∧ fieldNat w 28 4 = e ∧ fieldNat w 20 8 = c ∧ fieldNat w 10 10 = n ∧ fieldNat w 8 2 = v ∧ fieldNat w 4 4 = l ∧
      fieldNat w 0 4 = place 0 4 d := by
  subst hw
  simp only [fieldNat, place, Nat.shiftRight_eq_div_pow, Nat.shiftLeft_eq]
  omega

/-- Word 3: context epoch, LINK_SEQ and the high bits of SRC. -/
theorem hdrWord3_fields {e l d : Nat} (he : e < 65536) (hl : l < 4096) {w : Nat}
    (hw : w = place 16 16 e + place 4 12 l + place 0 4 d) :
    w < 2 ^ 32 ∧ fieldNat w 16 16 = e ∧ fieldNat w 4 12 = l ∧ fieldNat w 0 4 = place 0 4 d := by
  subst hw
  simp only [fieldNat, place, Nat.shiftRight_eq_div_pow, Nat.shiftLeft_eq]
  omega

/-- Word 4: reserved bits, PAY_LEN and STEP_TAG. -/
theorem hdrWord4_fields {r p t : Nat} (hr : r < 64) (hp : p < 1024) (ht : t < 65536) {w : Nat}
    (hw : w = place 26 6 r + place 16 10 p + place 0 16 t) :
    w < 2 ^ 32 ∧ fieldNat w 26 6 = r ∧ fieldNat w 16 10 = p ∧ fieldNat w 0 16 = t := by
  subst hw
  simp only [fieldNat, place, Nat.shiftRight_eq_div_pow, Nat.shiftLeft_eq]
  omega

/-- Word 5: reserved bits and the three flags. -/
theorem hdrWord5_fields {r : Nat} (hr : r < 2 ^ 29) (m p v : Bool) {w : Nat}
    (hw : w = place 3 29 r + place 2 1 (bit01 m) + place 1 1 (bit01 p) + place 0 1 (bit01 v)) :
    w < 2 ^ 32 ∧ fieldNat w 3 29 = r ∧ (fieldNat w 2 1 == 1) = m ∧ (fieldNat w 1 1 == 1) = p ∧ (fieldNat w 0 1 == 1) = v := by
  have flag (x : Nat) (b : Bool) (h : x = bit01 b) : (x == 1) = b := by subst h; cases b <;> rfl
  have bound (b : Bool) : bit01 b < 2 := by cases b <;> decide
  have hm := bound m
  have hp := bound p
  have hv := bound v
  have hbits : w < 2 ^ 32 ∧ fieldNat w 3 29 = r ∧ fieldNat w 2 1 = bit01 m ∧ fieldNat w 1 1 = bit01 p ∧ fieldNat w 0 1 = bit01 v := by
    subst hw
    simp only [fieldNat, place, Nat.shiftRight_eq_div_pow, Nat.shiftLeft_eq]
    omega
  obtain ⟨hlt, h3, h2, h1, h0⟩ := hbits
  exact ⟨hlt, h3, flag _ _ h2, flag _ _ h1, flag _ _ h0⟩

/-! ### Headers -/

theorem header_wf_iff {h : Header} : h.wf = true ↔ h.dst < 2 ^ 36 ∧ h.creditEpoch < 16 ∧ h.context < 256 ∧ h.handler < 1024 ∧
    h.vc < 4 ∧ h.len < 16 ∧ h.src < 2 ^ 36 ∧ h.ctxEpoch < 65536 ∧ h.linkSeq < 4096 ∧ h.payLen < 1024 ∧ h.stepTag < 65536 ∧
    h.rsv4 < 64 ∧ h.rsv5 < 2 ^ 29 := by
  simp only [Header.wf, Bool.and_eq_true, decide_eq_true_eq, and_assoc]

theorem hdrOf_eq_iff {ws : List Nat} {h : Header} : hdrOf ws = h ↔
    fieldNat (ws.getD 0 0) 0 32 + (fieldNat (ws.getD 1 0) 0 4 <<< 32) = h.dst ∧ fieldNat (ws.getD 1 0) 28 4 = h.creditEpoch ∧
      fieldNat (ws.getD 1 0) 20 8 = h.context ∧ fieldNat (ws.getD 1 0) 10 10 = h.handler ∧ fieldNat (ws.getD 1 0) 8 2 = h.vc ∧
      fieldNat (ws.getD 1 0) 4 4 = h.len ∧ fieldNat (ws.getD 2 0) 0 32 + (fieldNat (ws.getD 3 0) 0 4 <<< 32) = h.src ∧
      fieldNat (ws.getD 3 0) 16 16 = h.ctxEpoch ∧ fieldNat (ws.getD 3 0) 4 12 = h.linkSeq ∧ fieldNat (ws.getD 4 0) 16 10 = h.payLen ∧
      fieldNat (ws.getD 4 0) 0 16 = h.stepTag ∧ fieldNat (ws.getD 4 0) 26 6 = h.rsv4 ∧ fieldNat (ws.getD 5 0) 3 29 = h.rsv5 ∧
      (fieldNat (ws.getD 5 0) 2 1 == 1) = h.mgmt ∧ (fieldNat (ws.getD 5 0) 1 1 == 1) = h.pad ∧
      (fieldNat (ws.getD 5 0) 0 1 == 1) = h.prov := by
  cases h
  unfold hdrOf
  rw [Header.mk.injEq]

/-- A header is what its words are read as, and each of them fits 32 bits. -/
theorem hdrOf_hdrWords {h : Header} (hwf : h.wf = true) : hdrOf (hdrWords h) = h ∧ ∀ w ∈ hdrWords h, w < 2 ^ 32 := by
  obtain ⟨hdst, hcred, hctx, hhandler, hvc, hlen, hsrc, hepoch, hseq, hpay, hstep, hr4, hr5⟩ := header_wf_iff.1 hwf
  obtain ⟨b1, f1cred, f1ctx, f1handler, f1vc, f1len, f1dst⟩ :=
    hdrWord1_fields (w := (hdrWords h).getD 1 0) (d := h.dst >>> 32) hcred hctx hhandler hvc hlen rfl
  obtain ⟨b3, f3epoch, f3seq, f3src⟩ := hdrWord3_fields (w := (hdrWords h).getD 3 0) (d := h.src >>> 32) hepoch hseq rfl
  obtain ⟨b4, f4r, f4pay, f4step⟩ := hdrWord4_fields (w := (hdrWords h).getD 4 0) hr4 hpay hstep rfl
  obtain ⟨b5, f5r, f5mgmt, f5pad, f5prov⟩ := hdrWord5_fields (w := (hdrWords h).getD 5 0) hr5 h.mgmt h.pad h.prov rfl
  have fdst : fieldNat ((hdrWords h).getD 0 0) 0 32 + (fieldNat ((hdrWords h).getD 1 0) 0 4 <<< 32) = h.dst := by
    rw [f1dst]; exact endpoint_parts hdst
  have fsrc : fieldNat ((hdrWords h).getD 2 0) 0 32 + (fieldNat ((hdrWords h).getD 3 0) 0 4 <<< 32) = h.src := by
    rw [f3src]; exact endpoint_parts hsrc
  have hlow (e : Nat) : e % 2 ^ 32 < 2 ^ 32 := Nat.mod_lt _ (Nat.two_pow_pos 32)
  constructor
  · exact hdrOf_eq_iff.2 ⟨fdst, f1cred, f1ctx, f1handler, f1vc, f1len, fsrc, f3epoch, f3seq, f4pay, f4step, f4r, f5r, f5mgmt, f5pad,
      f5prov⟩
  · simp only [hdrWords, List.forall_mem_cons]
    exact ⟨hlow _, b1, hlow _, b3, b4, b5, fun _ hw => absurd hw List.not_mem_nil⟩

/-! ### Words and messages as bytes -/

@[simp] theorem length_wordBytes (ws : List Nat) : (wordBytes ws).length = 4 * ws.length := by
  induction ws with
  | nil => rfl
  | cons w ws ih => rw [wordBytes, List.flatMap_cons, List.length_append, length_bytesOf, ← wordBytes, ih, List.length_cons]; omega

/-- Words that fit 32 bits are read back from the bytes that begin with theirs. -/
theorem bytesWords_wordBytes_append {ws : List Nat} (h : ∀ w ∈ ws, w < 2 ^ 32) (l : List Byte) :
    bytesWords ws.length (wordBytes ws ++ l) = ws := by
  induction ws with
  | nil => rfl
  | cons w ws ih =>
    obtain ⟨hw, hws⟩ := List.forall_mem_cons.1 h
    have hsplit : wordBytes (w :: ws) ++ l = bytesOf 4 w ++ (wordBytes ws ++ l) := by
      rw [wordBytes, List.flatMap_cons, List.append_assoc, ← wordBytes]
    rw [hsplit, List.length_cons, bytesWords, List.take_left' (length_bytesOf 4 w), List.drop_left' (length_bytesOf 4 w), ih hws,
      natOfBytes_bytesOf, Nat.mod_eq_of_lt (show w < 256 ^ 4 from hw)]

@[simp] theorem length_fitBytes (n : Nat) (bs : List Byte) : (fitBytes n bs).length = n := by
  rw [fitBytes, List.length_append, List.length_take, List.length_replicate]
  omega

theorem fitBytes_of_le {n : Nat} {bs : List Byte} (h : bs.length ≤ n) : fitBytes n bs = bs ++ List.replicate (n - bs.length) 0 := by
  rw [fitBytes, List.take_of_length_le h]

/-- The slots of R176 hold the header and the payload. -/
theorem slots_hold_payload (n : Nat) : 24 + n ≤ (lenOfPay n + 1) * 64 := by
  unfold lenOfPay
  omega

/-- A message whose LEN is that of its payload is read back from its slots. -/
theorem msgOf_msgBytes {m : Msg} (hwf : m.hdr.wf = true) (hpay : m.pay.length = m.hdr.payLen) (hlen : m.hdr.len = lenOfPay m.hdr.payLen) :
    msgOf (msgBytes m) = m := by
  obtain ⟨hread, hfits⟩ := hdrOf_hdrWords hwf
  have hhead : (wordBytes (hdrWords m.hdr)).length = 24 := length_wordBytes _
  have hroom : (wordBytes (hdrWords m.hdr) ++ m.pay).length ≤ (m.hdr.len + 1) * 64 := by
    rw [List.length_append, hhead, hpay, hlen]
    exact slots_hold_payload _
  have hhdr (l : List Byte) : hdrOf (bytesWords 6 (wordBytes (hdrWords m.hdr) ++ l)) = m.hdr :=
    (congrArg hdrOf (bytesWords_wordBytes_append hfits l)).trans hread
  rw [msgBytes, fitBytes_of_le hroom, List.append_assoc, msgOf, hhdr, List.drop_left' hhead, List.take_left' hpay]

/-- Settles O57: each word's fields lie apart, the bytes of the slots begin with the six words, and the payload follows them. -/
theorem headerWords : Obligations.HeaderWords := by
  refine ⟨fun h hwf => ?_, fun m hwf hpay hlen => ?_⟩
  · obtain ⟨hread, hfits⟩ := hdrOf_hdrWords hwf
    exact ⟨hread, rfl, hfits⟩
  · obtain ⟨hhdr, -⟩ := Bool.and_eq_true_iff.1 hwf
    exact ⟨length_fitBytes _ _, msgOf_msgBytes hhdr hpay hlen⟩

end Sys2Proof.Machine

/-! SUPPORT. An OPEN by Hornbeam of a queue whose work a PATTERN fence keeps off its tile (R355, log entry 195) is not made. -/

namespace Sys2Proof.Machine

/-- An accepted write of Q_CMD with OPEN reaches the queue that it names (R206). -/
theorem exec_qOpen {s : State} {a : Agent} {t : TileId} {q : QueueId} {c : CtxId}
    (hw : writeOk s a (qctl t 0x108) (BitVec.ofNat 64 (place 8 3 1 + q.val + place 11 8 c.val)) = true) :
    exec (.qOpen a t q c) s = .next (queueCmd s t q 1 c (a == .hornbeam)) := by
  have hq := q.isLt
  have hc := c.isLt
  have fields : fieldOf (BitVec.ofNat 64 (place 8 3 1 + q.val + place 11 8 c.val)) 0 8 = q.val ∧
      fieldOf (BitVec.ofNat 64 (place 8 3 1 + q.val + place 11 8 c.val)) 8 3 = 1 ∧
      fieldOf (BitVec.ofNat 64 (place 8 3 1 + q.val + place 11 8 c.val)) 11 8 = c.val := by
    simp only [fieldOf, fieldNat, place, BitVec.toNat_ofNat, Nat.shiftRight_eq_div_pow, Nat.shiftLeft_eq]
    omega
  obtain ⟨h0, h8, h11⟩ := fields
  exact congrArg Host.Outcome.next (regWrite_qCmd hw h0 h8 h11)

section
variable {s : State} {t q c : Nat}

theorem performOpen_barred (hb : patternBars s t (queueClass s t q) = true) : performOpen s t q c true = s := by
  unfold performOpen
  rw [hb, Bool.and_self, if_pos rfl]

/-- A sound queue in RESET or CLOSED whose last REVOKE is acknowledged is opened at once, where the OPEN is made. -/
theorem queueCmd_open {hornbeam : Bool} (hs : qSound s t q = true) (hst : qState s t q = 0 ∨ qState s t q = 3)
    (hr : revoking s t q = false) : queueCmd s t q 1 c hornbeam = performOpen s t q c hornbeam := by
  have hshut : ¬(decide (qState s t q = 1) || decide (qState s t q = 2)) = true := by
    rw [Bool.or_eq_true, decide_eq_true_eq, decide_eq_true_eq]
    omega
  unfold queueCmd
  simp only [hs, hr, if_neg hshut, Bool.not_true, Bool.false_eq_true, if_false, Nat.one_ne_zero]

end

/-- Queue 7 of tile 0 in RESET, its ring well placed for context 3 in a region of the tile's scratchpad, while a PATTERN fence
keeps handlers off the tile (R356). -/
def barredRing : State :=
  { State.reset with
    regs := [(spReg 0 0x100, 1), (spReg 0 0x140, guardOf 0x103), (rgnReg 0 0 0 0, guardOf 0x80000000), (rgnReg 0 0 0 1, guardOf 0x8000),
      (rgnReg 0 0 0 2, guardOf 3), (qdReg 0 7 0, BitVec.ofNat 64 (padBase 0 + 0x1000 + 4))]
    commit := { State.reset.commit with condFences := [place 60 4 1 + place 56 4 3 + place 40 16 8] } }

/-- Refutes O14: Hornbeam does not open queue 7 of `barredRing`, though its ring is well placed, since a PATTERN fence bars its
work (R355, log entry 195); the statement has it OPEN. -/
theorem not_queueRegisters : ¬ Obligations.QueueRegisters := by
  rintro ⟨hopen, -⟩
  have hw : writeOk barredRing .hornbeam (qctl 0 0x108) (BitVec.ofNat 64 (place 8 3 1 + (7 : QueueId).val + place 11 8 (3 : CtxId).val))
      = true := by decide
  have hs : qSound barredRing 0 7 = true := by decide
  have hst : qState barredRing 0 7 = 0 := by decide
  have hplaced : ringPlaced barredRing 0 7 3 true = true := by decide
  have hbars : patternBars barredRing 0 (queueClass barredRing 0 7) = true := by decide
  have hopened := hopen .hornbeam 0 7 3 barredRing hw hs (.inl hst) rfl hplaced
  have hkept : exec (.qOpen .hornbeam 0 7 3) barredRing = .next barredRing := by
    rw [exec_qOpen hw]
    exact congrArg Host.Outcome.next ((queueCmd_open hs (.inl hst) rfl).trans (performOpen_barred hbars))
  have hsame := Host.Outcome.next.inj (hkept.symm.trans hopened)
  exact absurd (congrArg (fun u => qState u 0 7) hsame) (by decide)

end Sys2Proof.Machine

/-! SUPPORT. Messages sent (R187), arriving (R192) and released (R198), and the control packets of credits (R186, R188, R194). -/

namespace Sys2Proof.Machine

/-! ### Sends (R187) -/

section
variable {s : State} {u q : Nat} {sender : Sender} {m : Msg}
  (hq : s.q.sends.any (fun w => w.unit == u && w.sender == sender) = false)
include hq

section
variable {e : Nat × Credit} (he : findCredit s u m.hdr.dst m.hdr.context = some e) (hg : guardOk e.2.cred = true)
include he hg

/-- A send that no earlier one of its sender holds up, with credit, is made at once. -/
theorem trySend_credit (hs : hdrSlots m.hdr ≤ e.2.slots) : trySend s u q sender m = (.sent, sendNow s u q sender e m) := by
  unfold trySend
  simp only [hq, he, hg, Nat.not_lt.2 hs, Bool.not_true, Bool.false_eq_true, if_false]

/-- A send without enough credit waits, but at the Gorbin port. -/
theorem trySend_short (hu : u ≠ unitGorbin) (hs : e.2.slots < hdrSlots m.hdr) :
    trySend s u q sender m = (.wait, waitSend s u q sender m) := by
  unfold trySend
  simp only [hq, he, hg, hs, hu, Bool.not_true, Bool.false_eq_true, if_false, if_true]

end

end

/-- A send of a block for which no entry stands fails with NO_ENTRY. -/
theorem trySend_noEntry {s : State} {u q : Nat} {m : Msg} (hq : s.q.sends.any (fun w => w.unit == u && w.sender == .block) = false)
    (he : findCredit s u m.hdr.dst m.hdr.context = none) :
    trySend s u q .block m = (.noEntry, sendFailed s u q 0xB false m.hdr) := by
  unfold trySend
  simp only [hq, he, Bool.false_eq_true, if_false]

section
variable {s : State} {u : Fin 4610} {q : QueueId} {c : CtxId} {dst handler vc : Nat} {pay : List Byte}

/-- A unit sends in the contexts that it may: a tile in those that run on it, Hornbeam and the Gorbin port in those of their mask
(R288). -/
def sendsIn (s : State) (u : Fin 4610) (c : CtxId) : Prop :=
  (u.val < 4608 ∧ mayRun s u c = true) ∨ (u.val = unitHornbeam ∧ hbSends s c = true) ∨ (u.val = unitGorbin ∧ gbSends s c = true)

theorem exec_messageSend (h : sendsIn s u c) :
    exec (.messageSend u q c dst handler vc pay) s = .next (trySend s u q .block (buildMsg s u q c dst handler vc pay)).2 := by
  show execMessageSend u q c dst handler vc pay s = _
  unfold execMessageSend
  rcases h with ⟨hu, h⟩ | ⟨hu, h⟩ | ⟨hu, h⟩
  · simp only [hu, h, if_true]
  · have htile : ¬u.val < 4608 := by rw [hu]; decide
    simp only [htile, if_false, if_pos hu, h, if_true]
  · have htile : ¬u.val < 4608 := by rw [hu]; decide
    have hhb : ¬u.val = unitHornbeam := by rw [hu]; decide
    simp only [htile, hhb, if_false, h, if_true]

end

/-- A waiting send with credit is made, its wait counted, and its sender resumes. -/
theorem retrySend_credit {s : State} {w : SendWait} {e : Nat × Credit}
    (he : findCredit s w.unit w.msg.hdr.dst w.msg.hdr.context = some e) (hg : guardOk e.2.cred = true)
    (hs : hdrSlots w.msg.hdr ≤ e.2.slots) :
    retrySend s w = resumeSender (sendNow (stallCount { s with q := { s.q with sends := s.q.sends.erase w } } w)
      w.unit w.queue w.sender e w.msg) w := by
  unfold retrySend
  simp only [he, hg, Nat.not_lt.2 hs, Bool.not_true, Bool.false_eq_true, if_false]

/-- The first waiting send of a sender that may run is tried again. -/
theorem exec_creditAvailable {s : State} {i : Nat} {w : SendWait} (hw : s.q.sends[i]? = some w)
    (hr : w.unit < 4608 → mayRun s w.unit w.msg.hdr.context = true)
    (hf : (s.q.sends.take i).any (fun x => x.unit == w.unit && x.sender == w.sender) = false) :
    exec (.creditAvailable i) s = .next (retrySend s w) := by
  have hrun : (decide (w.unit < 4608) && !mayRun s w.unit w.msg.hdr.context) = false := by
    by_cases hu : w.unit < 4608
    · rw [hr hu, Bool.not_true, Bool.and_false]
    · rw [decide_eq_false hu, Bool.false_and]
  show execCreditAvailable i s = _
  unfold execCreditAvailable
  simp only [hw, hrun, hf, Bool.or_self, Bool.false_eq_true, if_false]

/-! ### Arrivals (R192) -/

section
variable {u v : State} {t : Nat} {m : Msg}
  (hu : u = { v with q := { v.q with fromNack := v.q.fromNack.erase (unlinked m.hdr) } })
  (hf : tileFenced u t = false) (hr : tileInReset u t = false) (hw : malformed m.hdr = false)
include hu hf hr hw

theorem arrive_staleEpoch (he : epochMatches u t m.hdr.context m.hdr.ctxEpoch = false) :
    arrive v t m = staleDiscard u t (epQueue m.hdr.dst) m.hdr.context m := by
  unfold arrive
  simp only [← hu, hf, hr, hw, he, Bool.not_false, Bool.false_eq_true, if_false, if_true]

variable (he : epochMatches u t m.hdr.context m.hdr.ctxEpoch = true) (hq : qSound u t (epQueue m.hdr.dst) = true)
include he hq

theorem arrive_otherCreditEpoch (hc : qEpoch u t (epQueue m.hdr.dst) ≠ m.hdr.creditEpoch) :
    arrive v t m = queueRec (refuse v t 0x4 m) t (epQueue m.hdr.dst) 0x0503 m.hdr.context := by
  unfold arrive
  simp only [← hu, hf, hr, hw, he, hq, bne_iff_ne.2 hc, Bool.not_true, Bool.false_eq_true, if_false, if_true]

/-- A message that passes every row of R192 is enqueued. -/
theorem arrive_enqueues (hc : qEpoch u t (epQueue m.hdr.dst) = m.hdr.creditEpoch) (hs : qState u t (epQueue m.hdr.dst) = 1)
    (ho : qOwner u t (epQueue m.hdr.dst) = m.hdr.context)
    (hh : qRead u t (epQueue m.hdr.dst) = true ∨ (handlerEntry u t m.hdr.context m.hdr.handler).isSome = true)
    (hroom : qOcc u t (epQueue m.hdr.dst) + roomNeeded u t (epQueue m.hdr.dst) (hdrSlots m.hdr) ≤ qSize u t (epQueue m.hdr.dst)) :
    arrive v t m = enqueue (gbKnown u (fun h => h == unlinked m.hdr)) t (epQueue m.hdr.dst) m := by
  have hreader : (!qRead u t (epQueue m.hdr.dst) && (handlerEntry u t m.hdr.context m.hdr.handler).isNone) = false := by
    rcases hh with hh | hh
    · rw [hh, Bool.not_true, Bool.false_and]
    · rw [Option.isNone_eq_false_iff.2 hh, Bool.and_false]
  unfold arrive
  simp only [← hu, hf, hr, hw, he, hq, hc, hs, ho, hreader, Nat.not_lt.2 hroom, bne_self_eq_false, Bool.not_true,
    Bool.false_eq_true, if_false]

end

/-- A message that is not the checkpoint engine's, and whose slots can be written, meets the enqueue unit. -/
theorem exec_messageArrival {s v : State} {t : TileId} {m : Msg} (hk : (t = 1 && epQueue m.hdr.dst = 0xFE) = false)
    (hv : takeEjected s t (.msg m) = some v) (hb : arrivalBusy s t m = false) :
    exec (.messageArrival t m) s = .next (arrive v t m) := by
  show execMessageArrival t m s = _
  unfold execMessageArrival
  simp only [hk, hv, hb, Bool.false_eq_true, if_false]

/-! ### Control packets -/

section
variable {s u : State} {t : TileId} {p : Ctrl}

/-- A control packet of its type has its effect once it is taken. -/
theorem onCtrl_taken {t type : Nat} (hu : takeEjected s t (.ctrl p) = some u) (hp : p.type = type) (f : State → State) :
    onCtrl t type p s f = f u := by
  unfold onCtrl
  simp only [hp, hu, if_true]

section
variable {v : State} (hu : takeEjected s t (.ctrl p) = some u) (hp : p.type = 0x01) (hb : isBounce p = false)
include hu hp hb

/-- A grant that is no bounce enters the unit's table (R186). -/
theorem exec_grantPacketArrival_taken
    (hg : takeGrant u (unitAt u t p.context) (ctrlEp p) p.context (ctrlEpoch p) (ctrlSlots p) = (false, v)) :
    exec (.grantPacketArrival t p) s = .next v := by
  show execGrantPacketArrival t p s = _
  unfold execGrantPacketArrival
  rw [hb, if_neg Bool.false_ne_true, onCtrl_taken hu hp]
  simp only [hg, Bool.false_eq_true, if_false]

/-- A grant from elsewhere that finds the table full goes back to where it came from (R186). -/
theorem exec_grantPacketArrival_full
    (hg : takeGrant u (unitAt u t p.context) (ctrlEp p) p.context (ctrlEpoch p) (ctrlSlots p) = (true, v))
    (hother : unitAt u t p.context ≠ p.srcTile ∨ p.srcDev ≠ deviceId u) :
    exec (.grantPacketArrival t p) s = .next (inject v t (.ctrl
      { p with dstDev := p.srcDev, dstTile := p.srcTile, srcDev := deviceId u
               srcTile := if unitAt u t p.context < 4608 then unitAt u t p.context else 0x1FFF })) := by
  have hback : ¬(decide (unitAt u t p.context = p.srcTile) && decide (p.srcDev = deviceId u)) = true := by
    rw [Bool.and_eq_true, decide_eq_true_eq, decide_eq_true_eq]
    rintro ⟨htile, hdev⟩
    exact hother.elim (absurd htile) (absurd hdev)
  show execGrantPacketArrival t p s = _
  unfold execGrantPacketArrival
  rw [hb, if_neg Bool.false_ne_true, onCtrl_taken hu hp]
  simp only [hg, if_true]
  rw [if_neg hback]

end

theorem exec_grantBounce (hu : takeEjected s t (.ctrl p) = some u) (hp : p.type = 0x01) (hb : isBounce p = true) :
    exec (.grantBounce t p) s = .next (withdrawGrant u t p) := by
  show execGrantBounce t p s = _
  unfold execGrantBounce
  rw [if_pos hb, onCtrl_taken hu hp]

end

theorem exec_revokeAckComplete {s u : State} {root t : TileId} {q : QueueId} {p : Ctrl}
    (hc : s.q.revokes.contains (t.val, q.val, p.context) = true) (hgroup : p.group = rdF s (csCtx p.context 0x190) 24 12)
    (hround : p.round = q.val) (hu : takeEjected s root (.ctrl p) = some u) (hp : p.type = 0x05) :
    exec (.revokeAckComplete root p t q) s = .next (revokeDone u t q p.context) := by
  show execRevokeAckComplete root p t q s = _
  unfold execRevokeAckComplete
  rw [if_pos (by simp only [hc, ← hgroup, hround, decide_true, Bool.and_self]), onCtrl_taken hu hp]

/-! ### Releases (R198) -/

section
variable {s : State} {t : TileId} {q : QueueId} (hs : qState s t q = 1 ∨ qState s t q = 2) (hq : qSound s t q = true)
include hs hq

theorem exec_messageRelease_stale (ht : threadsOn s t q = []) (hh : headOf s t q = .stale) :
    exec (.messageRelease t q) s = .next (dropStale s t q) := by
  show execMessageRelease t q s = _
  unfold execMessageRelease
  rw [if_pos (by simpa only [Bool.or_eq_true, decide_eq_true_eq] using hs)]
  simp only [hq, ht, hh, Bool.not_true, Bool.false_eq_true, if_false, if_true]

theorem exec_messageRelease_handler {n : Nat} {l : List Nat} (ht : threadsOn s t q = n :: l) :
    exec (.messageRelease t q) s = .next (getOp (endOp s t n) t n) := by
  show execMessageRelease t q s = _
  unfold execMessageRelease
  rw [if_pos (by simpa only [Bool.or_eq_true, decide_eq_true_eq] using hs)]
  simp only [hq, ht, Bool.not_true, Bool.false_eq_true, if_false]

end

/-- Settles O15: sends by what the credit table holds, arrivals by the rows of R192, and each control packet by its own rule. -/
theorem messageTraffic : Obligations.MessageTraffic := by
  refine ⟨?sent, ?waits, ?noEntry, ?resent, ?enqueued, ?stale, ?otherEpoch, ?nack, ?grant, ?grantBack, ?bounce, ?returned, ?revoke,
    ?acknowledged, ?dropped, ?released⟩
  case sent =>
    rintro u q c dst handler vc pay _ e s hu hr rfl hq he hg hs
    rw [exec_messageSend (.inl ⟨hu, hr⟩), trySend_credit hq he hg hs]
  case waits =>
    rintro u q c dst handler vc pay _ e s hu hr rfl hq he hg hs
    have hgb : u.val ≠ unitGorbin := by rw [hu]; decide
    rw [exec_messageSend (.inr (.inl ⟨hu, hr⟩)), trySend_short hq he hg hgb hs]
  case noEntry =>
    rintro u q c dst handler vc pay _ s hu hr rfl hq he
    rw [exec_messageSend (.inr (.inr ⟨hu, hr⟩)), trySend_noEntry hq he]
  case resent =>
    rintro i w e _ s hw hr hf rfl he hg hs
    rw [exec_creditAvailable hw hr hf, retrySend_credit he hg hs]
    rfl
  case enqueued =>
    rintro t m _ _ v u s rfl rfl hk hv hb hu hf hr hw he hq hc hs ho hh hroom
    rw [exec_messageArrival hk hv hb, arrive_enqueues hu hf hr hw he hq hc hs ho hh hroom]
  case stale =>
    intro t m v u s hk hv hb hu hf hr hw he
    rw [exec_messageArrival hk hv hb, arrive_staleEpoch hu hf hr hw he]
  case otherEpoch =>
    intro t m v u s hk hv hb hu hf hr hw he hq hc
    rw [exec_messageArrival hk hv hb, arrive_otherCreditEpoch hu hf hr hw he hq hc]
  case nack => exact fun t p u s hu hp => congrArg Host.Outcome.next (onCtrl_taken hu hp _)
  case grant => exact fun t p u v s hu hp hb hg => exec_grantPacketArrival_taken hu hp hb hg
  case grantBack => exact fun t p u v s hu hp hb hg hother => exec_grantPacketArrival_full hu hp hb hg hother
  case bounce => exact fun t p u s hu hp hb => exec_grantBounce hu hp hb
  case returned => exact fun t p u s hu hp => congrArg Host.Outcome.next (onCtrl_taken hu hp _)
  case revoke => exact fun t p u s hu hp => congrArg Host.Outcome.next (onCtrl_taken hu hp _)
  case acknowledged => exact fun root p t q u s hc hgroup hround hu hp => exec_revokeAckComplete hc hgroup hround hu hp
  case dropped => exact fun t q s hs hq ht hh => exec_messageRelease_stale hs hq ht hh
  case released => exact fun t q n l s hs hq ht => exec_messageRelease_handler hs hq ht

end Sys2Proof.Machine

/-! SUPPORT. Handlers started on messages (R194, R197) and readers that waited for one (R196). -/

namespace Sys2Proof.Machine

section
variable {s : State} {t n q : Nat} {m : Msg} {u : State}

/-- A sound queue whose message at HEAD names a valid handler is the last one dispatched, and the thread starts there. -/
theorem dispatchQueue_starts {e : Nat × Nat × Nat} (hq : qSound s t q = true) (hm : headMsg s t q = some (m, u))
    (he : handlerEntry (wrF u (qctl t 0x100) 0 8 q) t (qOwner s t q) m.hdr.handler = some e) :
    dispatchQueue s t n q = startThread (wrF u (qctl t 0x100) 0 8 q) t n
      (loadMsg (freshThread (wrF u (qctl t 0x100) 0 8 q) (qOwner s t q) e) q (some q) m) := by
  unfold dispatchQueue
  simp only [hq, hm, Bool.not_true, Bool.false_eq_true, if_false]
  unfold dispatchHead
  simp only [he]
  rfl

/-- A message at HEAD that no other thread holds becomes P of the thread, which goes on past its GET. -/
theorem takeMessage_head (ht : threadsOn s t q = []) (hm : headMsg s t q = some (m, u)) :
    takeMessage s t n q = next (endRead u t q) t n
      (loadMsg { threadOf u t n with wait := .none, served := (threadOf u t n).queue :: (threadOf u t n).served } q (some q) m) := by
  unfold takeMessage
  simp only [ht, hm, List.isEmpty_nil, if_true]

end

section
variable {s : State} {t : TileId} {n : Nat}

section
variable (hn : (List.range 4).find? (fun n => !(threadOf s t n).busy) = some n)
include hn

theorem exec_handlerDispatch_nack {j : NackJob}
    (hj : s.q.nacks.find? (fun j => j.tile == t.val && mayRun s t j.hdr.context) = some j) :
    exec (.handlerDispatch t) s = .next (startNack s n j) := by
  show execHandlerDispatch t s = _
  unfold execHandlerDispatch
  simp only [hn, hj]

theorem exec_handlerDispatch_queue {q : Nat}
    (hj : s.q.nacks.find? (fun j => j.tile == t.val && mayRun s t j.hdr.context) = none) (hq : nextQueue s t = some q) :
    exec (.handlerDispatch t) s = .next (dispatchQueue s t n q) := by
  show execHandlerDispatch t s = _
  unfold execHandlerDispatch
  simp only [hn, hj, hq]

end

section
variable {q : QueueId} (ho : qOcc s t q ≠ 0)
include ho

theorem exec_messageAvailable_reader
    (hn : (List.range 4).find? (fun n => (threadOf s t n).busy && (threadOf s t n).wait == .message q
      && mayRun s t (threadOf s t n).ctx) = some n) :
    exec (.messageAvailable t q) s = .next (takeMessage s t n q) := by
  show execMessageAvailable t q s = _
  unfold execMessageAvailable
  simp only [ho, hn, if_false]

theorem exec_messageAvailable_noReader
    (hn : (List.range 4).find? (fun n => (threadOf s t n).busy && (threadOf s t n).wait == .message q
      && mayRun s t (threadOf s t n).ctx) = none) :
    exec (.messageAvailable t q) s = .next (endRead s t q) := by
  show execMessageAvailable t q s = _
  unfold execMessageAvailable
  simp only [ho, hn, if_false]

end

end

/-- Settles O18: each command's choice of a thread and of its work, then what the message at HEAD gives that thread. -/
theorem handlerDispatch : Obligations.HandlerDispatch := by
  refine ⟨?refused, ?queue, ?reader, ?noReader⟩
  case refused => exact fun t n j s hn hj => exec_handlerDispatch_nack hn hj
  case queue =>
    rintro t n q m e _ u s hn hj hq hs hm rfl he
    rw [exec_handlerDispatch_queue hn hj hq, dispatchQueue_starts hs hm he]
  case reader =>
    intro t q n m u s ho hn ht hm
    rw [exec_messageAvailable_reader ho hn, takeMessage_head ht hm]
  case noReader => exact fun t q s ho hn => exec_messageAvailable_noReader ho hn

end Sys2Proof.Machine

/-! SUPPORT. Links and their replay (R208, R209), packets entering the mesh (R216, R217) and the router's registers (R231). -/

namespace Sys2Proof.Machine

/-! ### Links -/

section
variable {s : State} {t : TileId} {p : Fin 9} {n : Nat} {f : Flit}

/-- A link that is not fenced, and whose port does not owe a replay, carries the flit to be sent again, or else the one that its
port chooses. -/
theorem exec_flitReceive {err : Fin 3} (hn : neighbour t p = some n) (hl : linkFenced s t p = false)
    (hr : mapGet (fun _ => false) s.net.replay (t.val * 16 + p.val) = false)
    (hf : (mapGet (fun _ => []) s.net.again (t.val * 16 + p.val)).head?.orElse (fun _ => chooseFlit s t p) = some f) :
    exec (.flitReceive t p err) s = .next (crossLink s t p n err f) := by
  show execFlitReceive t p err s = _
  unfold execFlitReceive
  simp only [hn, hl, hr, hf, Bool.or_self, Bool.false_eq_true, if_false]

theorem exec_flitReceive_idle {err : Fin 3}
    (h : neighbour t p = none ∨ linkFenced s t p = true ∨ mapGet (fun _ => false) s.net.replay (t.val * 16 + p.val) = true) :
    exec (.flitReceive t p err) s = .next s := by
  show execFlitReceive t p err s = _
  unfold execFlitReceive
  cases hn : neighbour t p with
  | none => rfl
  | some n =>
    have hheld : (linkFenced s t p || mapGet (fun _ => false) s.net.replay (t.val * 16 + p.val)) = true :=
      Bool.or_eq_true_iff.2 (h.resolve_left (by simp [hn]))
    simp only [hheld, if_true]

theorem exec_linkReplay (hr : mapGet (fun _ => false) s.net.replay (t.val * 16 + p.val) = true) :
    exec (.linkReplay t p) s = .next (
      report (incSat { s with net := { s.net with replay := mapPut (fun _ => false) s.net.replay (t.val * 16 + p.val) false } }
        (rtReg t 0x0C0)) (rtPage t) 0x0602 { detail := [p.val] }) := by
  show execLinkReplay t p s = _
  unfold execLinkReplay
  rw [if_pos hr]

end

/-! ### Injection -/

/-- The oldest packet of a tile and VC, neither held nor kept back by a reset, meets the source router's checks once the flits of
the one before it have entered. -/
theorem injectOne_checked {s : State} {t vc : Nat} {e : Nat × Pkt}
    (he : s.net.inject.find? (fun e => e.1 == t && pktVc e.2 == vc) = some e) (hh : injHeld s t e.2 = false)
    (hr : (tileInReset s t && ofTile e.2) = false) (hb : (enteringOf s t 0).any (fun f => pktVc f.pkt == vc) = false) :
    injectOne s t vc = sourceCheck { s with net := { s.net with inject := s.net.inject.erase e } } t e.2 := by
  unfold injectOne
  simp only [he, hh, hr, hb, Bool.or_self, Bool.false_eq_true, if_false]

theorem exec_injectionHoldRelease {s : State} {t : TileId} (h : rdB s (rtReg t 0x100) 1 = false) :
    exec (.injectionHoldRelease t) s = .next (each [1, 2, 3] (fun u vc => injectOne u t vc) s) := by
  show execInjectionHoldRelease t s = _
  unfold execInjectionHoldRelease
  rw [h, if_neg Bool.false_ne_true]

/-! ### The router's registers -/

section
variable {s : State} {a : Agent} {t : TileId} {v : W64}

theorem write_rtCtrl (h : writeOk s a (rtReg t 0x100) v = true) :
    writeBy s a (rtReg t 0x100) v = rtCtrlWrite s t (merged s (rtReg t 0x100) 0x1FF3F03 v) := by
  unfold rtReg at *
  rw [regWrite_tile (x := .router) t.isLt (by decide) (by decide) h rfl rfl, typedWrite_rw (m := 0x1FF3F03) (by decide) rfl rfl]
  rfl

/-- A write of RT_DATA sets the sixteen entries that RT_INDEX selects, and advances it. -/
theorem write_rtData (h : writeOk s a (rtReg t 0x118) v = true) (hi : rdF s (rtReg t 0x110) 0 9 < 288) :
    writeBy s a (rtReg t 0x118) v = advance (each (List.range 16) (fun u k => setRoute u t (16 * rdF s (rtReg t 0x110) 0 9 + k)
      (fieldOf (merged s (rtReg t 0x118) (2 ^ 64 - 1) v) (4 * k) 4)) s) (rtReg t 0x110) 9 288 := by
  unfold rtReg at *
  rw [regWrite_tile (x := .router) t.isLt (by decide) (by decide) h rfl rfl, typedWrite_rw (m := 2 ^ 64 - 1) (by decide) rfl rfl]
  show advance (if rdF s (tileReg t 3 0x110) 0 9 < 288 then _ else _) _ _ _ = _
  rw [if_pos hi]
  rfl

theorem read_rtData (h : readOk s a (rtReg t 0x118) = true) :
    readBy s a (rtReg t 0x118) = emit (advance s (rtReg t 0x110) 9 288) (.regRead a 0 (rtData s t)) := by
  unfold rtReg at *
  rw [regRead_tile (x := .router) t.isLt (by decide) (by decide) h rfl rfl]
  rfl

/-- MC_DATA is held once for each value of MC_INDEX, which lies before it. -/
theorem regKey_mcData (s : State) (t : Nat) :
    regKey s .router (tileReg t 3 0x128) 0x128 = banked (tileReg t 3 0x128) (rdF s (tileReg t 3 0x120) 0 12) := by
  have hindex : tileReg t 3 0x128 - 8 = tileReg t 3 0x120 := by unfold tileReg; omega
  show banked _ (rdF s (tileReg t 3 0x128 - 8) 0 12) = _
  rw [hindex]

theorem read_mcData (h : readOk s a (rtReg t 0x128) = true) :
    readBy s a (rtReg t 0x128) = emit (advance s (rtReg t 0x120) 12 4096)
      (.regRead a 0 (rd s (banked (rtReg t 0x128) (rdF s (rtReg t 0x120) 0 12)))) := by
  unfold rtReg at *
  rw [regRead_tile (x := .router) t.isLt (by decide) (by decide) h rfl rfl, ← regKey_mcData]
  rfl

end

/-- Settles O19: a flit by how it crosses its link, a packet by the checks of its source, and the registers by the router page's
rules. -/
theorem meshLinks : Obligations.MeshLinks := by
  refine ⟨?sound, ?corrected, ?uncorrectable, ?idle, ?replay, ?inject, ?release, ?hold, ?reset, ?routeRead, ?routeWrite, ?groupRead,
    ?groupWrite⟩
  case sound => exact fun t p n f s hn hl hr hf => exec_flitReceive hn hl hr hf
  case corrected => exact fun t p n f s hn hl hr hf => exec_flitReceive hn hl hr hf
  case uncorrectable => exact fun t p n f s hn hl hr hf => exec_flitReceive hn hl hr hf
  case idle => exact fun t p err s h => exec_flitReceive_idle h
  case replay => exact fun t p s hr => exec_linkReplay hr
  case inject => exact fun t vc e s he hh hr hb => congrArg Host.Outcome.next (injectOne_checked he hh hr hb)
  case release => exact fun t s h => exec_injectionHoldRelease h
  case hold =>
    rintro a t on _ s rfl h
    exact congrArg Host.Outcome.next (write_rtCtrl h)
  case reset =>
    rintro a t on _ s rfl h
    exact congrArg Host.Outcome.next (write_rtCtrl h)
  case routeRead => exact fun a t s h => congrArg Host.Outcome.next (read_rtData h)
  case routeWrite =>
    intro a t v s h hi
    show Host.Outcome.next (writeBy s a (rtReg t 0x118) v) = _
    rw [write_rtData h hi]
  case groupRead => exact fun a t s h => congrArg Host.Outcome.next (read_mcData h)
  case groupWrite =>
    intro a t v s h
    show Host.Outcome.next (writeBy s a (rtReg t 0x128) v) = _
    rw [regWrite_mcIndex h]

end Sys2Proof.Machine

/-! SUPPORT. Packets of a group and their replies at a router (R218, R252, R253), and mesh probes (R217). -/

namespace Sys2Proof.Machine

/-! ### Where a packet of a group goes -/

section
variable {s : State} {t : Nat} {x : Here}

/-- A packet that did not come in by the UP port goes up. -/
theorem groupOuts_up (he : (mcEntry s t (pktGroup x.pkt)).1 = true) (hup : (mcEntry s t (pktGroup x.pkt)).2.2 ≠ 0)
    (hport : x.port ≠ (mcEntry s t (pktGroup x.pkt)).2.2) : groupOuts s t x = [(mcEntry s t (pktGroup x.pkt)).2.2] := by
  unfold groupOuts
  simp only [he, bne_iff_ne.2 hup, bne_iff_ne.2 hport, Bool.not_true, Bool.and_self, Bool.false_eq_true, if_false, if_true]

/-- A packet that came in by the UP port, or is at a root with no port toward a fabric root, goes down. -/
theorem groupOuts_down (he : (mcEntry s t (pktGroup x.pkt)).1 = true)
    (h : ((mcEntry s t (pktGroup x.pkt)).2.2 ≠ 0 ∧ x.port = (mcEntry s t (pktGroup x.pkt)).2.2) ∨
      ((mcEntry s t (pktGroup x.pkt)).2.2 = 0 ∧ fabricUp s (pktGroup x.pkt) = none)) :
    groupOuts s t x = (List.range 9).filter (fun n => (downPorts s t (pktGroup x.pkt)).testBit n) := by
  unfold groupOuts
  rcases h with ⟨hup, hport⟩ | ⟨hroot, hfab⟩
  · simp only [he, ← hport, bne_self_eq_false, Bool.and_false, Bool.not_true, Bool.false_eq_true, if_false]
    rw [if_neg (by rwa [hport])]
  · simp only [he, hroot, hfab, bne_self_eq_false, Bool.false_and, Bool.not_true, Bool.false_eq_true, if_false, if_true]

/-- At the root of a device's part of a fabric tree a packet that did not come from there goes out of the running port toward the
fabric root. -/
theorem groupOuts_fabric {q : Nat} (he : (mcEntry s t (pktGroup x.pkt)).1 = true) (hroot : (mcEntry s t (pktGroup x.pkt)).2.2 = 0)
    (hfab : fabricUp s (pktGroup x.pkt) = some q) (hruns : portRuns s q = true) (hport : x.port ≠ edgePort q ∨ portAt t ≠ some q) :
    groupOuts s t x = [16 + q] := by
  have hcame : (decide (x.port = edgePort q) && portAt t == some q) = false := by
    rw [Bool.and_eq_false_iff, decide_eq_false_iff_not, beq_eq_false_iff_ne]
    exact hport
  unfold groupOuts
  simp only [he, hroot, hfab, hruns, hcame, bne_self_eq_false, Bool.false_and, Bool.not_true, Bool.and_false, Bool.or_self,
    Bool.false_eq_true, if_false, if_true]

end

/-! ### One copy of it -/

section
variable {s : State} {t d n k : Nat} {x : Here}

/-- The copy that goes toward the root leaves no reply owed. -/
theorem copyOut_up (h0 : n ≠ 0) (h16 : n < 16) (hd : d.testBit n = false) : copyOut t d x s (n, k) = sendBy s t n k x := by
  unfold copyOut
  simp only [h0, Nat.not_le.2 h16, hd, Bool.false_eq_true, if_false]

theorem copyOut_down (h0 : n ≠ 0) (h16 : n < 16) (hd : d.testBit n = true) :
    copyOut t d x s (n, k) = owesReply (sendBy s t n k x) t n x.pkt := by
  unfold copyOut
  simp only [h0, Nat.not_le.2 h16, hd, if_false, if_true]

/-- A packet whose flits have all come leaves by a Parith port. -/
theorem copyOut_fabric {q : Nat} (hw : whole x = true) : copyOut t d x s (16 + q, k) = toPort s q x.pkt := by
  have h0 : 16 + q ≠ 0 := by omega
  unfold copyOut
  simp only [h0, Nat.le_add_right, hw, Nat.add_sub_cancel_left, if_false, if_true]

/-- A firmware packet is answered by no reply. -/
theorem owesReply_fw (s : State) (t n : Nat) (f : FwPkt) : owesReply s t n (.fw f) = s := by
  unfold owesReply
  split
  · next h => cases h
  · rfl

end

/-! ### The copies down the tree -/

/-- What two operations do to each state with each entry of a list alike, they do along the list alike. -/
theorem each_congr {α : Type} {f g : State → α → State} {l : List α} (h : ∀ s, ∀ b ∈ l, f s b = g s b) (s : State) :
    each l f s = each l g s := by
  induction l generalizing s with
  | nil => rfl
  | cons b l ih =>
    show each l f (f s b) = each l g (g s b)
    rw [h s b List.mem_cons_self]
    exact ih (fun u c hc => h u c (List.mem_cons_of_mem b hc)) _

section
variable {u v : State} {t d k : Nat} {x : Here} {outs : List (Nat × Nat)}
  (ho : outs = ((List.range 9).filter (fun n => d.testBit n)).zipIdx k)
include ho

theorem down_port {o : Nat × Nat} (h : o ∈ outs) : o.1 < 16 ∧ d.testBit o.1 = true := by
  subst ho
  obtain ⟨hr, hd⟩ := List.mem_filter.1 (List.fst_mem_of_mem_zipIdx h)
  have h9 := List.mem_range.1 hr
  exact ⟨by omega, hd⟩

theorem copies_ctrl {c : Ctrl} (hp : x.pkt = .ctrl c) : each outs (copyOut t d x) v =
    each outs (fun v o => if o.1 = 0 then deliverCopy v t (.ctrl c) else owesReply (sendBy v t o.1 o.2 x) t o.1 (.ctrl c)) v := by
  refine each_congr (fun v o hm => ?_) v
  obtain ⟨h16, hd⟩ := down_port ho hm
  by_cases h0 : o.1 = 0
  · simp only [copyOut, h0, hp, if_true]
  · rw [if_neg h0, copyOut_down h0 h16 hd, hp]

theorem copies_fw {f : FwPkt} (hp : x.pkt = .fw f) : each outs (copyOut t d x) v =
    each outs (fun v o => if o.1 = 0 then each (copiesOf x o.2) (fun y g => deliverFlit y t g) v else sendBy v t o.1 o.2 x) v := by
  refine each_congr (fun v o hm => ?_) v
  obtain ⟨h16, hd⟩ := down_port ho hm
  by_cases h0 : o.1 = 0
  · simp only [copyOut, h0, hp, if_true]
  · rw [if_neg h0, copyOut_down h0 h16 hd, hp, owesReply_fw]

end

/-! ### The command -/

/-- A packet that the router sends on by the tree of its group: a multicast that is no reply. -/
def isMulticast : Pkt → Bool
  | .ctrl c => c.mcast && !isUpTree c.type
  | .fw f => f.mcast
  | _ => false

section
variable {s : State} {t port : Nat} {p : Pkt} {x : Here}

/-- What waits at a location for the router's action is found with its own port and packet. -/
theorem hereOf_eq (hx : hereOf s t port p = some x) : x.port = port ∧ x.pkt = p := by
  have h := List.find?_some hx
  simp only [Bool.and_eq_true, beq_iff_eq] at h
  obtain ⟨⟨-, hport⟩, hpkt⟩ := h
  exact ⟨hport, hpkt⟩

end

section
variable {s u w : State} {t : TileId} {port : Fin 9} {p : Pkt} {x : Here} {l : List Nat} {outs : List (Nat × Nat)}
  (hm : isMulticast p = true) (hx : hereOf s t port p = some x)
  (hu : u = { s with net := { s.net with here := s.net.here.erase x } })
include hm hx hu

/-- A multicast packet leaves by the ports of its group; where some of its flits are still to come, they follow it. -/
theorem exec_multicastForward (hl : groupOuts u t x = l) (ho : outs = l.zipIdx u.net.serial)
    (hw : each outs (copyOut t (downPorts u t (pktGroup p)) x) (numbered u outs.length) = w) :
    exec (.multicastForward t port p) s = .next (
      if flitsOf p ≤ x.came then acted w t port
      else acted { w with net := { w.net with flows := w.net.flows ++ [{ loc := t, port := port, id := x.id, outs := outs }] } } t port) := by
  obtain ⟨hport, hpkt⟩ := hereOf_eq hx
  have hforward : forwardGroup u t x = if flitsOf p ≤ x.came then w else
      { w with net := { w.net with flows := w.net.flows ++ [{ loc := t, port := port, id := x.id, outs := outs }] } } := by
    simp only [forwardGroup, whole, decide_eq_true_eq, hl, hpkt, hport, ← ho, hw]
  have htaken : exec (.multicastForward t port p) s = .next (acted (forwardGroup u t x) t port) := by
    subst hu
    show Host.Outcome.next (match (if isMulticast p then hereOf s t port p else none) with | none => _ | some _ => _) = _
    simp only [hm, hx, if_true]
  rw [htaken, hforward, apply_ite (fun y => acted y t port)]

end

/-! ### Replies -/

section
variable {s : State} {t port : Nat} {c : Ctrl} (he : (mcEntry s t c.group).1 = true)
include he

/-- A reply joins the slot of its group, type and round. -/
theorem hearReply_joins {x : UpSlot}
    (hx : (upSlots s t).find? (fun x => x.group == c.group && x.type == c.type && x.round == c.round) = some x) :
    hearReply s t port c = some (
      let y := { x with heard := x.heard ||| 2 ^ port, acc := { x.acc with words := combineReply c.type x.acc.words c.words } }
      upEval (setUpSlots s t ((upSlots s t).map (fun z => if z == x then y else z))) t port y) := by
  unfold hearReply
  simp only [he, hx, Bool.not_true, Bool.false_eq_true, if_false]

/-- A reply with no slot of its own opens one where one of the sixteen is free. -/
theorem hearReply_opens (hx : (upSlots s t).find? (fun x => x.group == c.group && x.type == c.type && x.round == c.round) = none)
    (hfree : (upSlots s t).length < 16) :
    hearReply s t port c = some (
      let y : UpSlot := { group := c.group, type := c.type, round := c.round, heard := 2 ^ port, acc := c }
      upEval (setUpSlots s t (upSlots s t ++ [y])) t port y) := by
  unfold hearReply
  simp only [he, hx, hfree, Bool.not_true, Bool.false_eq_true, if_false, if_true]

end

theorem exec_uptreeReply {s u w : State} {t : TileId} {port : Fin 9} {c : Ctrl} (ht : isUpTree c.type = true)
    (hu : takeHere s t port (.ctrl c) = some u) (hw : hearReply (replyHeard u t port c) t port c = some w) :
    exec (.uptreeReply t port c) s = .next (acted w t port) := by
  show execUptreeReply t port c s = _
  unfold execUptreeReply
  simp only [ht, hu, hw, Option.bind_some, Bool.not_true, Bool.false_eq_true, if_false]

/-! ### Probes -/

section
variable {s : State} {g : Fin 4096} {root : TileId} (hw : s.net.meshAt ≠ now s / 1000 + 1)
include hw

theorem exec_meshProbe_none : exec (.meshProbe g root none) s = .next (
    hbInject { s with net := { s.net with meshRound := (s.net.meshRound + 1) % 256, meshAt := now s / 1000 + 1 } }
      (.ctrl (toGroup (mkCtrl s 0x0F 1 0 ((s.net.meshRound + 1) % 256) []) g))) := by
  show execMeshProbe g root none s = _
  unfold execMeshProbe
  simp only [hw, if_false]

/-- The reply of the last round, come to its root, counts toward quiet, and the next probe goes. -/
theorem exec_meshProbe_some {c : Ctrl} {u v : State} (ht : c.type = 0x10) (hr : c.round = s.net.meshRound) (hg : c.group = g.val)
    (hu : takeEjected s root (.ctrl c) = some u)
    (hv : v = { u with net := { u.net with meshQuiet := if c.words.getD 0 0 = 0 then u.net.meshQuiet + 1 else 0 } }) :
    exec (.meshProbe g root (some c)) s = .next (
      hbInject { v with net := { v.net with meshRound := (v.net.meshRound + 1) % 256, meshAt := now v / 1000 + 1 } }
        (.ctrl (toGroup (mkCtrl v 0x0F 1 0 ((v.net.meshRound + 1) % 256) []) g))) := by
  subst hv
  show execMeshProbe g root (some c) s = _
  unfold execMeshProbe
  simp only [hw, ht, hr, hg, hu, decide_true, Bool.and_self, if_false, if_true]

end

/-- Settles O20: a multicast by the ports that its group gives, a reply by its slot, and the probe by its window. -/
theorem meshTrees : Obligations.MeshTrees := by
  refine ⟨?up, ?downCtrl, ?downFw, ?fabric, ?joins, ?opens, ?probe, ?nextProbe⟩
  case up =>
    intro t port p x u s hm hx hu he hup hport hd
    obtain ⟨hxport, rfl⟩ := hereOf_eq hx
    have h16 : (mcEntry u t (pktGroup x.pkt)).2.2 < 16 := Nat.mod_lt _ (by decide)
    exact exec_multicastForward hm hx hu (groupOuts_up he hup (by rwa [hxport])) rfl (copyOut_up hup h16 hd)
  case downCtrl =>
    intro t port c x outs u s hc ht hx hu he hdown ho
    obtain ⟨hxport, hp⟩ := hereOf_eq hx
    have hl := groupOuts_down (s := u) (t := t) (x := x) (by rwa [hp]) (by rwa [hp, hxport])
    rw [hp] at hl
    exact exec_multicastForward (by simp [isMulticast, hc, ht]) hx hu hl ho (copies_ctrl ho hp)
  case downFw =>
    intro t port f x outs u s hf hx hu he hdown ho
    obtain ⟨hxport, hp⟩ := hereOf_eq hx
    have hl := groupOuts_down (s := u) (t := t) (x := x) (by rwa [hp]) (by rwa [hp, hxport])
    rw [hp] at hl
    exact exec_multicastForward hf hx hu hl ho (copies_fw ho hp)
  case fabric =>
    intro t port c q x u s hc ht hx hu he hroot hfab hruns hport hcame
    obtain ⟨hxport, hp⟩ := hereOf_eq hx
    have hl : groupOuts u t x = [16 + q] :=
      groupOuts_fabric (by rwa [hp]) (by rwa [hp]) (by rwa [hp]) hruns (by rwa [hxport])
    have hwhole : whole x = true := by rwa [whole, hp, decide_eq_true_eq]
    rw [exec_multicastForward (by simp [isMulticast, hc, ht]) hx hu hl rfl (copyOut_fabric hwhole), if_pos hcame, hp]
    rfl
  case joins =>
    rintro t port c x u _ s ht hu rfl he hx
    exact exec_uptreeReply ht hu (hearReply_joins he hx)
  case opens =>
    rintro t port c u _ s ht hu rfl he hx hfree
    exact exec_uptreeReply ht hu (hearReply_opens he hx hfree)
  case probe =>
    rintro g root _ s hw rfl
    exact exec_meshProbe_none hw
  case nextProbe => exact fun g root c u v s hw ht hr hg hu hv => exec_meshProbe_some hw ht hr hg hu hv

end Sys2Proof.Machine

/-! SUPPORT. Writes of PX_CTRL and accesses of the fabric's tables (R235, R246, R263). -/

namespace Sys2Proof.Machine

section
variable {s : State} {a : Agent} {v : W64}

/-- An accepted write of PX_CTRL changes the register's own fields, and has their effect. -/
theorem write_pxCtrl {p : PortId} (h : writeOk s a (pxReg p 0x100) v = true) :
    writeBy s a (pxReg p 0x100) v = pxCtrlWrite s p (merged s (pxReg p 0x100) 0xFF00F00007 v) := by
  unfold pxReg at *
  rw [regWrite_dev (x := .port) (by decide) h (decodePage_port p.isLt) rfl, typedWrite_rw (m := 0xFF00F00007) (by decide) rfl rfl]
  rfl

/-- A read of FX_DATA answers the entry of FX_INDEX, with LOCAL for the own device, and advances the index. -/
theorem read_fxData (h : readOk s a (fxReg 0x110) = true) :
    readBy s a (fxReg 0x110) = emit (advance s (fxReg 0x108) 11 2048)
      (.regRead a 0 (fxData s (rd s (banked (fxReg 0x110) (rdF s (fxReg 0x108) 0 11))))) := by
  unfold fxReg at *
  rw [regRead_dev (x := .fabric) (by decide) h rfl rfl]
  rfl

theorem write_fxData (h : writeOk s a (fxReg 0x110) v = true) :
    writeBy s a (fxReg 0x110) v =
      fxDataWrite s (merged s (banked (fxReg 0x110) (rdF s (fxReg 0x108) 0 11)) 0xFFFFFFFFFFFFFFFF v) := by
  unfold fxReg at *
  rw [regWrite_dev (x := .fabric) (by decide) h rfl rfl, typedWrite_rw (m := 0xFFFFFFFFFFFFFFFF) (by decide) rfl rfl]
  rfl

/-- A read of FM_DATA answers the entry of FM_INDEX as it is held, and advances the index. -/
theorem read_fmData (h : readOk s a (fxReg 0x120) = true) :
    readBy s a (fxReg 0x120) = emit (advance s (fxReg 0x118) 12 4096)
      (.regRead a 0 (rd s (banked (fxReg 0x120) (rdF s (fxReg 0x118) 0 12)))) := by
  unfold fxReg at *
  rw [regRead_dev (x := .fabric) (by decide) h rfl rfl]
  rfl

theorem write_fmData (h : writeOk s a (fxReg 0x120) v = true) :
    writeBy s a (fxReg 0x120) v = advance (wr s (banked (fxReg 0x120) (rdF s (fxReg 0x118) 0 12))
      (merged s (banked (fxReg 0x120) (rdF s (fxReg 0x118) 0 12)) 0x1FFFEF v)) (fxReg 0x118) 12 4096 := by
  unfold fxReg at *
  rw [regWrite_dev (x := .fabric) (by decide) h rfl rfl, typedWrite_rw (m := 0x1FFFEF) (by decide) rfl rfl]
  rfl

end

/-- Settles O22: each of the four commands writes one field of PX_CTRL, and the tables' data registers are held by index. -/
theorem portRegisters : Obligations.PortRegisters := by
  refine ⟨?enable, ?fence, ?retrain, ?lanes, ?exitRead, ?exitWrite, ?groupRead, ?groupWrite⟩
  case enable =>
    rintro a p on _ s rfl h
    exact congrArg Host.Outcome.next (write_pxCtrl h)
  case fence =>
    rintro a p on _ s rfl h
    exact congrArg Host.Outcome.next (write_pxCtrl h)
  case retrain =>
    rintro a p _ s rfl h
    exact congrArg Host.Outcome.next (write_pxCtrl h)
  case lanes =>
    rintro a p mask _ s rfl h
    exact congrArg Host.Outcome.next (write_pxCtrl h)
  case exitRead => exact fun a s h => congrArg Host.Outcome.next (read_fxData h)
  case exitWrite => exact fun a v s h => congrArg Host.Outcome.next (write_fxData h)
  case groupRead => exact fun a s h => congrArg Host.Outcome.next (read_fmData h)
  case groupWrite => exact fun a v s h => congrArg Host.Outcome.next (write_fmData h)

end Sys2Proof.Machine

/-! SUPPORT. Training of a Parith port, its timers and its lanes (R237–R240, R258), and the same of the Gorbin port. -/

namespace Sys2Proof.Machine

section
variable {s : State} {p : PortId}

/-! ### Training (R238–R240) -/

section
variable {lanes : Fin 16} {dev : Fin 32768} {port : Fin 16} {serial : Fin 16777216} {got : Nat}

/-- A port in TRAINING that has trained a permitted lane stores the peer's identity and gives its own; it then carries packets,
unless the peer is another than before its last DOWN. -/
theorem exec_trainingComplete_training {id was : Nat} {u : State} (hg : got = lanes.val &&& rdF s (pxReg p 0x100) 20 4) (h0 : got ≠ 0)
    (hp : portState s p = 1) (hid : id = 2 ^ 63 + (dev.val <<< 32) + (port.val <<< 28) + serial.val)
    (hw : was = mapGet (fun _ => 0) s.fabric.peer p)
    (hu : u = emit (wr s (pxReg p 0x110) (BitVec.ofNat 64 id)) (.link p (.ident (deviceId s) p (Config.serial % 2 ^ 24)))) :
    exec (.trainingComplete p lanes dev port serial) s = .next (
      if 2 ^ 63 < was ∧ was ≠ id + 1 then report (setPortState u p 5) (pxPage p) 0x070D { detail := [id / 2 ^ 32, id % 2 ^ 32] }
      else report (setPortState (wrF (linkInit u p) (pxReg p 0x108) 8 4 got) p (if got = 15 then 2 else 3)) (pxPage p) 0x0706
        { detail := [got] }) := by
  have another : (was > 2 ^ 63 && was - 1 != id) = decide (2 ^ 63 < was ∧ was ≠ id + 1) := by
    rw [Bool.eq_iff_iff, Bool.and_eq_true, decide_eq_true_eq, bne_iff_ne, decide_eq_true_eq]; omega
  subst hg hid hw hu
  show execTrainingComplete p lanes dev port serial s = _
  unfold execTrainingComplete
  simp only [if_neg h0, hp, another, decide_eq_true_eq, Nat.reduceEqDiff, if_false, if_true]

/-- On a DEGRADED port those of the trained lanes that were ordered trained join the active ones. -/
theorem exec_trainingComplete_degraded {ordered mask : Nat} {u : State} (hg : got = lanes.val &&& rdF s (pxReg p 0x100) 20 4)
    (hp : portState s p = 3) (ho : ordered = mapGet (fun _ => 0) s.fabric.retrain p) (h0 : got &&& ordered ≠ 0)
    (hu : u = { s with fabric := { s.fabric with retrain := mapPut (fun _ => 0) s.fabric.retrain p (ordered &&& (15 - got)) } })
    (hm : mask = lanesActive s p ||| (got &&& ordered)) :
    exec (.trainingComplete p lanes dev port serial) s = .next (
      report (setPortState (wrF u (pxReg p 0x108) 8 4 mask) p (if mask = 15 then 2 else 3)) (pxPage p) 0x0706 { detail := [mask] }) := by
  have trained : got ≠ 0 := fun h => h0 (by rw [h, Nat.zero_and])
  subst hg ho hu hm
  show execTrainingComplete p lanes dev port serial s = _
  unfold execTrainingComplete
  simp only [if_neg trained, hp, if_neg h0, if_true]

end

/-! ### A port's timers (R238, R258) -/

theorem exec_trainFail_parith (hp : portState s p = 1) (ht : mapGet (fun _ => 0) s.fabric.since p + 99999999 ≤ now s) :
    exec (.trainFail (.parith p)) s = .next (report (enterDown s p) (pxPage p) 0x0707) :=
  congrArg Host.Outcome.next (if_pos (by simp [hp, ht]))

theorem exec_retryTimer_parith (hp : portState s p = 4) (ht : mapGet (fun _ => 0) s.fabric.since p + 9999999 ≤ now s) :
    exec (.retryTimer (.parith p)) s = .next (startTraining s p) :=
  congrArg Host.Outcome.next (if_pos (by simp [hp, ht]))

theorem exec_linkDown (hr : portRuns s p = true) : exec (.linkDown p) s = .next (linkLost s p 4) :=
  congrArg Host.Outcome.next (if_pos hr)

theorem exec_noProgress_parith (hr : portRuns s p = true) (hq : sentOf s p ≠ [])
    (ht : mapGet (fun _ => 0) s.fabric.moved p + 3999 ≤ now s) :
    exec (.noProgress (.parith p)) s = .next (linkLost (report s (pxPage p) 0x0703) p 4) :=
  congrArg Host.Outcome.next (if_pos (by simp [hr, hq, ht]))

/-! ### A lane's window (R237) -/

/-- The window is counted; it is recorded when the port has a limit and the corrected symbols exceed it. -/
theorem portFec_eq {lane words corrected symbols limit : Nat} {u : State} (hl : limit = rdF s (pxReg p 0x118) 0 20)
    (hu : u = incSatN (incSatN (incWrap s (pxReg p (0x080 + 0x20 * (lane % 4))) words)
      (pxReg p (0x080 + 0x20 * (lane % 4) + 8)) 48 corrected) (pxReg p (0x080 + 0x20 * (lane % 4) + 16)) 48 symbols) :
    portFec s p lane words corrected symbols =
      if limit ≠ 0 ∧ limit < symbols then
        reportLimited u (pxPage p) 0 0x0701 (limitKey 12 (p.val * 4 + lane % 4) 0) (now s / 1000000) { detail := [lane % 4, symbols] }
      else u := by
  subst hl hu
  unfold portFec
  simp only [Bool.and_eq_true, bne_iff_ne, decide_eq_true_eq]

end

/-! ### The Gorbin port -/

section
variable {s : State}

theorem exec_trainFail_gorbin (hp : gbState s = 1) (ht : mapGet (fun _ => 0) s.fabric.since 14 + 99999999 ≤ now s) :
    exec (.trainFail .gorbin) s = .next (report (setGbState s 4 0) gbPage 0x0707) :=
  congrArg Host.Outcome.next (if_pos (by simp [hp, ht]))

theorem exec_retryTimer_gorbin (hp : gbState s = 4) (ht : mapGet (fun _ => 0) s.fabric.since 14 + 9999999 ≤ now s) :
    exec (.retryTimer .gorbin) s = .next (gbTrain s) :=
  congrArg Host.Outcome.next (if_pos (by simp [hp, ht]))

theorem exec_noProgress_gorbin (hr : gbUp s = true) (hq : s.gorbin.sent ≠ [])
    (ht : mapGet (fun _ => 0) s.fabric.moved 14 + 3999 ≤ now s) :
    exec (.noProgress .gorbin) s = .next (gbLost (report s gbPage 0x0703) 4) :=
  congrArg Host.Outcome.next (if_pos (by simp [hr, hq, ht]))

end

/-- Settles O23, a clause for each way a port's state or its lanes change. -/
theorem portStates : Obligations.PortStates := by
  refine ⟨?same, ?another, ?joins, ?trainFail, ?retry, ?linkDown, ?noProgress, ?laneDrop, ?window, ?gbTrainFail, ?gbRetry,
    ?gbNoProgress, ?gbLaneDrop, ?gbWindow⟩
  case same =>
    intro p lanes dev port serial got id s hg h0 hp hid hpeer
    rw [exec_trainingComplete_training hg h0 hp hid rfl rfl, if_neg]
    rintro ⟨hknown, hdiffers⟩
    exact hpeer.elim (Nat.not_le.2 hknown) hdiffers
  case another =>
    intro p lanes dev port serial got id s hg h0 hp hid hknown hdiffers
    rw [exec_trainingComplete_training hg h0 hp hid rfl rfl, if_pos ⟨hknown, hdiffers⟩]
  case joins =>
    intro p lanes dev port serial got ordered mask u s hg hp ho h0 hu hm
    exact exec_trainingComplete_degraded hg hp ho h0 hu hm
  case trainFail => exact fun p s hp ht => exec_trainFail_parith hp ht
  case retry => exact fun p s hp ht => exec_retryTimer_parith hp ht
  case linkDown => exact fun p s hr => exec_linkDown hr
  case noProgress => exact fun p s hr hq ht => exec_noProgress_parith hr hq ht
  case laneDrop => exact fun p lane s => rfl
  case window => exact fun p lane words corrected symbols limit u s hl hu => congrArg Host.Outcome.next (portFec_eq hl hu)
  case gbTrainFail => exact fun s hp ht => exec_trainFail_gorbin hp ht
  case gbRetry => exact fun s hp ht => exec_retryTimer_gorbin hp ht
  case gbNoProgress => exact fun s hr hq ht => exec_noProgress_gorbin hr hq ht
  case gbLaneDrop => exact fun lane s => rfl
  case gbWindow => exact fun lane words corrected symbols s => rfl

end Sys2Proof.Machine

/-! SUPPORT. The time exchange (R255), and which of its answers are used (R256). -/

namespace Sys2Proof.Machine

section
variable {s : State}

/-- The request of a window goes to the port that time follows, where exchanges run and the device is not the root. -/
theorem exec_timeExchange_opens {a p : Nat} {u : State} (ht : timePort s = some (a, p)) (h0 : rdB s (fxReg 0x128) 0 = true)
    (h1 : rdB s (fxReg 0x128) 1 = false) (hw : s.fabric.time.window ≠ now s / 10000 + 1)
    (hu : u = { s with fabric := { s.fabric with time := { s.fabric.time with
      num := (s.fabric.time.num + 1) % 64, window := now s / 10000 + 1, t1 := now s } } }) :
    exec .timeExchange s = .next (
      emit (incWrap (wrB (wrF u (fxReg 0x130) 2 2 a) (fxReg 0x130) 1 false) (fxReg 0x090) 1)
        (.link p (.time 0 ((s.fabric.time.num + 1) % 64) (now s % 2 ^ 48)))) := by
  subst hu
  show execTimeExchange s = _
  unfold execTimeExchange
  simp only [ht, h0, h1, bne_iff_ne.2 hw, Bool.not_false, Bool.and_self, if_true]

/-- The model compares without a division: with 16 delays kept, 4 ns off their mean is 64 × 16 sixteenths of a ns off their sum. -/
theorem delay_unused_eq (past : List Int) (delay : Int) :
    (past.length == 16 && decide (64 * (past.length : Int) < ((delay * (past.length : Int) - past.sum).natAbs : Int))) =
      decide (past.length = 16 ∧ 1024 < (delay * 16 - past.sum).natAbs) := by
  rw [Bool.eq_iff_iff, Bool.and_eq_true, beq_iff_eq, decide_eq_true_eq, decide_eq_true_eq]
  refine and_congr_right fun h16 => ?_
  rw [h16]
  omega

/-- An answer to the latest request on the port that time follows is kept among the last 16 delays, and used unless it is more
than 4 ns off the mean of 16. -/
theorem exec_timeRespReceive_latest {p : PortId} {num : Fin 64} {t2 t3 : Fin 281474976710656} {a : Nat} {offset delay : Int}
    {past : List Int} {u : State} (ht : timePort s = some (a, p.val)) (hn : num.val = s.fabric.time.num)
    (hw : s.fabric.time.window ≠ 0)
    (ho : offset = (signedOf 48 (t2.val % 2 ^ 48 + 2 ^ 48 - s.fabric.time.t1 % 2 ^ 48)
      - signedOf 48 (now s % 2 ^ 48 + 2 ^ 48 - t3.val % 2 ^ 48)) * 8)
    (hd : delay = (signedOf 48 (now s % 2 ^ 48 + 2 ^ 48 - s.fabric.time.t1 % 2 ^ 48)
      - signedOf 48 (t3.val % 2 ^ 48 + 2 ^ 48 - t2.val % 2 ^ 48)) * 8)
    (hp : past = if s.fabric.time.via = p.val + 1 then s.fabric.time.delays else [])
    (hu : u = { s with fabric := { s.fabric with time := { s.fabric.time with
      via := p.val + 1, delays := (past ++ [delay]).drop (past.length - 15) } } }) :
    exec (.timeRespReceive p num t2 t3) s = .next (
      if past.length = 16 ∧ 1024 < (delay * 16 - past.sum).natAbs then u
      else noteClock (lockStep (noteClock (steerTime
        (wrF (wrF u (fxReg 0x130) 32 32 (patternOf 32 offset)) (fxReg 0x130) 16 16 (patternOf 16 delay)) offset)) offset)) := by
  have unused := delay_unused_eq past delay
  have answers : (p.val != p.val || num.val != s.fabric.time.num || decide (s.fabric.time.window = 0)) = false := by
    simp [hn, hw]
  show execTimeRespReceive p num t2 t3 s = _
  unfold execTimeRespReceive
  simp only [ht, ← ho, ← hd, ← hp, ← hu, unused, answers, Bool.false_eq_true, if_false, decide_eq_true_eq]

end

/-- Settles O25: the three ends of an exchange, and an answer that is kept but not used. -/
theorem linkTime : Obligations.LinkTime := by
  refine ⟨?request, ?answer, ?used, ?unused⟩
  case request => exact fun a p s u ht h0 h1 hw hu => exec_timeExchange_opens ht h0 h1 hw hu
  case answer => exact fun p num s hr => congrArg Host.Outcome.next (if_pos hr)
  case used =>
    rintro p num t2 t3 a offset delay past u _ s ht hn hw ho hd hp hu hnear rfl
    rw [exec_timeRespReceive_latest ht hn hw ho hd hp hu, if_neg]
    rintro ⟨h16, hfar⟩
    exact hnear.elim (absurd h16) (Nat.not_le.2 hfar)
  case unused =>
    intro p num t2 t3 a offset delay past u s ht hn hw ho hd hp hu h16 hfar
    rw [exec_timeRespReceive_latest ht hn hw ho hd hp hu, if_pos ⟨h16, hfar⟩]

end Sys2Proof.Machine

/-! SUPPORT. LPDDR6 accessed by agents (R24, R269–R272, R277, R295), and its upkeep: write-backs, refresh, retraining, the
limit of uncorrectable units and the patrol scrub (R270, R277–R280). -/

namespace Sys2Proof.Machine

section
variable {s u : State}

/-! ### Accesses by agents -/

section
variable {a : Agent} {c : Option CtxId} {addr len : Nat} {data : List Byte} {flips : List (Nat × Nat)}

theorem agentRead_settled {v : State} {ctx : Option Nat} {d : List (Option Byte)} (hs : unsettled s addr len false = false)
    (hd : dramRead s addr len ctx = (d, v)) :
    agentRead s a ctx addr len = emit (withheldDirty v ctx d) (.access (.mgmt a) 0 d) := by
  unfold agentRead
  rw [hs, hd]
  rfl

theorem agentRead_unsettled {ctx : Option Nat} (hs : unsettled s addr len false = true) :
    agentRead s a ctx addr len = putLate (settle s addr len false) (.agent a ctx addr len) := by
  unfold agentRead
  rw [if_pos hs]
  rfl

/-- The test that an access of memory makes before it: its range lies in LPDDR6 and is mapped (R24). -/
theorem mapped_test (hl : regionOf addr = .lpddr) (hm : dramMapped u addr len = true) :
    (regionOf addr != .lpddr || !dramMapped u addr len) = false := by
  rw [hl, hm]; rfl

theorem unmapped_test (h : regionOf addr ≠ .lpddr ∨ dramMapped u addr len = false) :
    (regionOf addr != .lpddr || !dramMapped u addr len) = true := by
  simpa only [Bool.or_eq_true, bne_iff_ne, Bool.not_eq_true'] using h

/-- A read that the sender may make goes to memory when its range is mapped there, and is recorded otherwise. -/
theorem exec_memRead_reaches (hc : (c.isNone && !reachesMemory s a) = false) (hu : u = upsetUnits s flips) :
    exec (.memRead a c addr len flips) s = .next (
      if regionOf addr != .lpddr || !dramMapped u addr len then emit (unmapped u a addr) (.access (.mgmt a) 1 [])
      else agentRead u a (c.map (fun v => v.val)) addr len) := by
  subst hu
  exact congrArg Host.Outcome.next (if_neg (Bool.eq_false_iff.1 hc))

theorem exec_memWrite_reaches (hc : (c.isNone && !reachesMemory s a) = false) (hu : u = upsetUnits s flips) :
    exec (.memWrite a c addr data flips) s = .next (
      if regionOf addr != .lpddr || !dramMapped u addr data.length then unmapped u a addr
      else failDirty (memWrite u addr (data.map some) (c.map (fun v => v.val)) none) (c.map (fun v => v.val))) := by
  subst hu
  exact congrArg Host.Outcome.next (if_neg (Bool.eq_false_iff.1 hc))

theorem exec_memRead_mapped (hc : (c.isNone && !reachesMemory s a) = false) (hu : u = upsetUnits s flips)
    (hl : regionOf addr = .lpddr) (hm : dramMapped u addr len = true) :
    exec (.memRead a c addr len flips) s = .next (agentRead u a (c.map (fun v => v.val)) addr len) := by
  rw [exec_memRead_reaches hc hu, mapped_test hl hm]
  rfl

theorem exec_memWrite_mapped (hc : (c.isNone && !reachesMemory s a) = false) (hu : u = upsetUnits s flips)
    (hl : regionOf addr = .lpddr) (hm : dramMapped u addr data.length = true) :
    exec (.memWrite a c addr data flips) s = .next (
      failDirty (memWrite u addr (data.map some) (c.map (fun v => v.val)) none) (c.map (fun v => v.val))) := by
  rw [exec_memWrite_reaches hc hu, mapped_test hl hm]
  rfl

end

/-- A write that meets the flag table waits as a whole while one of its units has to (R299). -/
theorem dramWrite_late {a : Nat} {data : List (Option Byte)} {c : Option Nat} (hf : meetsFlags s a data.length = true)
    (hl : (unitsIn a data.length).any (lateUnit s) = true) :
    dramWrite s a data c = (true, putLate (settle s a data.length true) (.write a data c)) := by
  unfold dramWrite
  rw [hf, hl]
  rfl

theorem exec_memWriteBack {unit : Nat} {b : Nat × Nat} (hb : s.dram.writeBacks.find? (fun b => b.1 == unit) = some b)
    (hf : channelFenced s (channelOf s unit) = false) (hw : chBusy s (channelOf s unit) = false) :
    exec (.memWriteBack unit) s = .next (storeUnit32 s unit b.2) := by
  show execMemWriteBack unit s = _
  unfold execMemWriteBack
  rw [hb, hf, hw]
  rfl

/-! ### Retraining (R277, R279) -/

section
variable {h : ChanId} {temp : Fin 256} {idle : Bool} {odecc : Nat}

/-- A READY channel's due retraining begins at once when nothing goes before it, and is otherwise deferred once. -/
theorem exec_retrainDue_ready {d : Nat} (hu : u = readTemp s h temp) (hd : retrainDueAt u h = some d) (hr : chState s h = 2) :
    exec (.retrainDue h temp idle) s = .next (
      if idle && !patrolFirst u h then startRetrain u h
      else if mapGet (fun _ => 0) u.dram.dueAt h = 0 then
        { u with dram := { u.dram with dueAt := mapPut (fun _ => 0) u.dram.dueAt h (d + 1) } }
      else u) := by
  subst hu
  show execRetrainDue h temp idle s = _
  unfold execRetrainDue
  simp only [hd, hr, bne_self_eq_false, Bool.false_eq_true, if_false]

theorem exec_retrainDue_begins {d : Nat} (hd : retrainDueAt (readTemp s h temp) h = some d) (hr : chState s h = 2)
    (hp : patrolFirst (readTemp s h temp) h = false) :
    exec (.retrainDue h temp true) s = .next (startRetrain (readTemp s h temp) h) := by
  rw [exec_retrainDue_ready rfl hd hr, hp]
  rfl

theorem exec_retrainDue_deferred {d : Nat} (hu : u = readTemp s h temp) (hd : retrainDueAt u h = some d) (hr : chState s h = 2)
    (hw : idle = false ∨ patrolFirst u h = true) (hn : mapGet (fun _ => 0) u.dram.dueAt h = 0) :
    exec (.retrainDue h temp idle) s = .next { u with dram := { u.dram with dueAt := mapPut (fun _ => 0) u.dram.dueAt h (d + 1) } } := by
  have hwaits : (idle && !patrolFirst u h) = false := by
    rcases hw with hi | hp
    · rw [hi]; rfl
    · rw [hp]; exact Bool.and_false _
  rw [exec_retrainDue_ready hu hd hr, hwaits, if_neg Bool.false_ne_true, if_pos hn]

theorem exec_retrainForced (hd : mapGet (fun _ => 0) s.dram.dueAt h ≠ 0)
    (hl : mapGet (fun _ => 0) s.dram.dueAt h + 10000000 ≤ now s + 1) (hr : chState s h = 2) :
    exec (.retrainForced h) s = .next (
      report (incSat (startRetrain s h) (mcReg (h.val / 4) 0x0B8)) (devPage (0x20 + h.val / 4)) 0x0805 { detail := [h.val] }) := by
  have hlimit : retrainAtLimit s h = true := by
    rw [retrainAtLimit, Bool.and_eq_true]
    exact ⟨bne_iff_ne.2 hd, decide_eq_true hl⟩
  refine congrArg Host.Outcome.next (if_pos ?_)
  rw [hlimit, hr]
  rfl

/-- Only a channel in TRAINING or RETRAINING heeds the end of a training; a failure is tried once more, and a second one
fences the channel. -/
theorem exec_retrainComplete_trains {ok : Bool} (ht : chState s h = 3 ∨ chState s h = 1) :
    exec (.retrainComplete h ok odecc) s = .next (
      if ok then incSat (chReady (noteTrained s h) h) (mcReg (h.val / 4) 0x0D0) odecc
      else if mapGet (fun _ => false) s.dram.failedOnce h then
        fenceChannel (report s (devPage (0x20 + h.val / 4)) 0x0804 { detail := [h.val] }) h 0x0804
      else { s with dram := { s.dram with failedOnce := mapPut (fun _ => false) s.dram.failedOnce h true } }) := by
  refine congrArg Host.Outcome.next (if_neg ?_)
  rcases ht with ht | ht <;> rw [ht] <;> decide

/-! ### The limit of uncorrectable units (R279) -/

theorem exec_ueLimitWindow_fences (h0 : rdF s (mcReg (h.val / 4) 0x100) 8 8 ≠ 0)
    (hl : rdF s (mcReg (h.val / 4) 0x100) 8 8 < (mapGet (fun _ => (0, 0)) s.dram.ueCount h).2) (hf : channelFenced s h = false) :
    exec (.ueLimitWindow h) s = .next (
      fenceChannel (report s (devPage (0x20 + h.val / 4)) 0x0804 { detail := [h.val] }) h 0x0804) := by
  refine congrArg Host.Outcome.next (if_pos ?_)
  rw [hf, Bool.and_eq_true, Bool.and_eq_true]
  exact ⟨⟨bne_iff_ne.2 h0, decide_eq_true hl⟩, rfl⟩

end

/-! ### Patrol scrub (R41, R277, R278) -/

section
variable {flips : List (Nat × Nat)}

/-- A pass that is within its window and below the capacity reads a unit inside its block, and stays in that block. -/
theorem exec_patrolScrub_reads (hu : u = upsetUnits s flips) (hon : rdB u (mmReg 0x100) 1 = true)
    (hw : u.dram.scrubPass * patrolWindow ≤ now u) (hcap : rdF u (mmReg 0x110) 0 30 * 512 < dramCap u)
    (hy : scrubYields u (channelOf u (rdF u (mmReg 0x110) 0 30 * 512)) = false) (hb : u.dram.scrubUnit < 15) :
    exec (.patrolScrub flips) s = .next (
      let v := scrubUnit u (rdF u (mmReg 0x110) 0 30 * 512 + u.dram.scrubUnit * 32)
      { v with dram := { v.dram with scrubUnit := u.dram.scrubUnit + 1 } }) := by
  subst hu
  show execPatrolScrub flips s = _
  unfold execPatrolScrub
  simp only [hon, Nat.not_lt.2 hw, Nat.not_le.2 hcap, hy, hb, Bool.not_true, decide_false, Bool.or_self, Bool.false_eq_true,
    if_false, if_true]

/-- The scrub leaves its channel to what goes before it: only the upsets have happened. -/
theorem exec_patrolScrub_yields (hu : u = upsetUnits s flips) (hcap : rdF u (mmReg 0x110) 0 30 * 512 < dramCap u)
    (hy : scrubYields u (channelOf u (rdF u (mmReg 0x110) 0 30 * 512)) = true) :
    exec (.patrolScrub flips) s = .next u := by
  subst hu
  show execPatrolScrub flips s = _
  unfold execPatrolScrub
  simp only [Nat.not_le.2 hcap, hy, if_false, if_true, ite_self]

theorem exec_patrolScrubLate (hn : rdB s (mmReg 0x108) 9 = false) (hw : (s.dram.scrubPass + 1) * patrolWindow ≤ now s) :
    exec .patrolScrubLate s = .next (report (wrB s (mmReg 0x108) 9 true) (devPage 4) 0x0806) := by
  refine congrArg Host.Outcome.next (if_neg ?_)
  rw [hn, Bool.false_or, decide_eq_true_eq]
  exact Nat.not_lt.2 hw

end

end

/-- Settles O26: an access by where its range lies and whether it must wait, then each command of upkeep in its case. -/
theorem memoryAccess : Obligations.MemoryAccess := by
  refine ⟨?read, ?readHeld, ?write, ?flagHeld, ?unmapped, ?writeBack, ?refresh, ?refreshManagement, ?begins, ?deferred, ?forced,
    ?trained, ?failsOnce, ?failsTwice, ?overLimit, ?fence, ?scrub, ?scrubYields, ?scrubLate⟩
  case read =>
    intro a c addr len flips d u v s hu hc hl hm hs hd
    rw [exec_memRead_mapped hc hu hl hm, agentRead_settled hs hd]
  case readHeld =>
    intro a c addr len flips u s hu hc hl hm hs
    rw [exec_memRead_mapped hc hu hl hm, agentRead_unsettled hs]
  case write => exact fun a c addr data flips u s hu hc hl hm => exec_memWrite_mapped hc hu hl hm
  case flagHeld => exact fun a data c s hf hl => dramWrite_late hf hl
  case unmapped =>
    intro a c addr len data flips u s hu hc h
    have hr := unmapped_test (h.imp_right And.left)
    have hw := unmapped_test (h.imp_right And.right)
    rw [exec_memRead_reaches hc hu, exec_memWrite_reaches hc hu, if_pos hr, if_pos hw]
    exact ⟨rfl, rfl⟩
  case writeBack => exact fun unit b s hb hf hw => exec_memWriteBack hb hf hw
  case refresh => exact fun ctl s => congrArg Host.Outcome.next (if_pos rfl)
  case refreshManagement => exact fun ctl s => rfl
  case begins => exact fun h temp d s hd hr hp => exec_retrainDue_begins hd hr hp
  case deferred => exact fun h temp idle d u s hu hd hr hw hn => exec_retrainDue_deferred hu hd hr hw hn
  case forced => exact fun h s hd hl hr => exec_retrainForced hd hl hr
  case trained => exact fun h odecc s ht => exec_retrainComplete_trains ht
  case failsOnce =>
    intro h odecc s ht hf
    rw [exec_retrainComplete_trains ht, hf]
    rfl
  case failsTwice =>
    intro h odecc s ht hf
    rw [exec_retrainComplete_trains ht, hf]
    rfl
  case overLimit => exact fun h s h0 hl hf => exec_ueLimitWindow_fences h0 hl hf
  case fence => exact fun h cause s => rfl
  case scrub => exact fun flips u s hu hon hw hcap hy hb => exec_patrolScrub_reads hu hon hw hcap hy hb
  case scrubYields => exact fun flips u s hu hcap hy => exec_patrolScrub_yields hu hcap hy
  case scrubLate => exact fun s hn hw => exec_patrolScrubLate hn hw

end Sys2Proof.Machine

/-! SUPPORT. Accepted writes of MC_CTRL (R282) and of the memory map's registers (R276, R281, R283). -/

namespace Sys2Proof.Machine

section
variable {s : State} {a : Agent} {v : W64}

/-- A guarded register at or above 0x80 takes the written word whole: both halves were checked before (R313). -/
theorem typedWrite_rwg {k : PageKind} {i p off key : Nat} {r : RegDesc} (h8 : 0x80 ≤ off) (hr : r.acc = .rwg) :
    typedWrite s a k i p off key r v = pageWrite s a k i off key v := by
  unfold typedWrite
  rw [if_neg (Nat.not_lt.2 h8), hr]
  rfl

/-! ### MC_CTRL and MM_CTRL -/

theorem write_mcCtrl {ctl : CtlId} (h : writeOk s a (mcReg ctl 0x100) v = true) :
    writeBy s a (mcReg ctl 0x100) v = mcCtrlWrite s ctl (merged s (mcReg ctl 0x100) 0xFFF0 v) := by
  unfold mcReg at *
  rw [regWrite_dev (x := .memctl) (by decide) h (decodePage_memctl ctl.isLt) rfl, typedWrite_rw (m := 0xFFF0) (by decide) rfl rfl]
  rfl

theorem write_mmCtrl (h : writeOk s a (mmReg 0x100) v = true) :
    writeBy s a (mmReg 0x100) v = mmCtrlWrite s (merged s (mmReg 0x100) 3 v) := by
  unfold mmReg at *
  rw [regWrite_dev (x := .memmap) (i := 0) (by decide) h rfl rfl, typedWrite_rw (m := 3) (by decide) rfl rfl]
  rfl

/-- REMAP, which clears itself, rebuilds the map while no context is resident. -/
theorem mmCtrlWrite_remap (hb : bitOf v 0 = true) (hr : anyResident s = false) :
    mmCtrlWrite s v = remap (wr s (mmReg 0x100) (setBit v 0 false)) := by
  unfold mmCtrlWrite
  rw [hb, hr]
  rfl

/-! ### Guarded registers of the memory map -/

/-- A guarded register of the memory-map page hands the written word to the page's rule. -/
theorem write_mmGuarded {off j : Nat} {r : RegDesc} (h8 : 0x80 ≤ off) (ho : off < 0x1000)
    (hf : findReg memmapRegs off = some (r, j)) (hr : r.acc = .rwg) (h : writeOk s a (mmReg off) v = true) :
    writeBy s a (mmReg off) v = memmapWrite s off v := by
  unfold mmReg at *
  rw [regWrite_dev (x := .memmap) (i := 0) ho h rfl ((findReg_headerRegs_append memmapRegs h8).trans hf), typedWrite_rwg h8 hr]
  rfl

/-- MM_DREG_BASE_n and MM_DREG_LIMIT_n alternate from 0x200 on. -/
theorem dregOff_eq (n : Fin 64) (limit : Bool) :
    (if limit then 0x208 else 0x200) + 0x10 * n.val = 0x200 + 8 * bit01 limit + 0x10 * n.val := by
  cases limit <;> rfl

theorem bit01_le_one (b : Bool) : bit01 b ≤ 1 := by cases b <;> decide

theorem findReg_dreg (n : Fin 64) (limit : Bool) :
    ∃ base fields, findReg memmapRegs ((if limit then 0x208 else 0x200) + 0x10 * n.val) = some (regGs base 64 0x10 fields, n.val) := by
  cases limit
  · exact ⟨0x200, [(31, 1), (0, 18)], by revert n; decide⟩
  · exact ⟨0x208, [(0, 18)], by revert n; decide⟩

theorem findReg_mmFence (m : Fin 3) : findReg memmapRegs (0x118 + 8 * m.val) = some (regGs 0x118 3 8 [(0, 32)], m.val) := by
  revert m; decide

theorem memmapWrite_dreg {n : Fin 64} {limit : Bool} :
    memmapWrite s ((if limit then 0x208 else 0x200) + 0x10 * n.val) v = dregWrite s n (bit01 limit) v := by
  have hle := bit01_le_one limit
  have hn : (0x200 + 8 * bit01 limit + 0x10 * n.val - 0x200) / 0x10 = n.val := by omega
  have hk : (0x200 + 8 * bit01 limit + 0x10 * n.val) % 0x10 / 8 = bit01 limit := by omega
  have hfence : ¬(decide (0x118 ≤ 0x200 + 8 * bit01 limit + 0x10 * n.val) &&
      decide (0x200 + 8 * bit01 limit + 0x10 * n.val < 0x130)) = true := by
    simp only [Bool.and_eq_true, decide_eq_true_eq]; omega
  rw [dregOff_eq, memmapWrite, if_neg (by omega), if_neg hfence, if_pos (by omega), hn, hk]

theorem memmapWrite_mmFence {m : Fin 3} : memmapWrite s (0x118 + 8 * m.val) v = mmFenceWrite s m v := by
  have hin : (decide (0x118 ≤ 0x118 + 8 * m.val) && decide (0x118 + 8 * m.val < 0x130)) = true := by
    simp only [Bool.and_eq_true, decide_eq_true_eq]; omega
  have hm : (0x118 + 8 * m.val - 0x118) / 8 = m.val := by omega
  rw [memmapWrite, if_neg (by omega), if_pos hin, hm]

theorem write_dreg {n : Fin 64} {limit : Bool} (h : writeOk s a (mmReg ((if limit then 0x208 else 0x200) + 0x10 * n.val)) v = true) :
    writeBy s a (mmReg ((if limit then 0x208 else 0x200) + 0x10 * n.val)) v = dregWrite s n (bit01 limit) v := by
  have hle := bit01_le_one limit
  have hoff := dregOff_eq n limit
  obtain ⟨base, fields, hf⟩ := findReg_dreg n limit
  exact (write_mmGuarded (by omega) (by omega) hf rfl h).trans memmapWrite_dreg

theorem write_mmFence {m : Fin 3} (h : writeOk s a (mmReg (0x118 + 8 * m.val)) v = true) :
    writeBy s a (mmReg (0x118 + 8 * m.val)) v = mmFenceWrite s m v :=
  (write_mmGuarded (by omega) (by omega) (findReg_mmFence m) rfl h).trans memmapWrite_mmFence

/-- A descriptor without VALID describes no range, so nothing is checked (R276). -/
theorem dregWrite_invalid {n : Nat} (hv : bitOf v 31 = false) : dregWrite s n 0 v = wr s (mmReg (0x200 + 0x10 * n)) v := by
  unfold dregWrite
  simp only [if_true, hv, Bool.false_and, Bool.false_eq_true, if_false, Nat.mul_zero, Nat.add_zero]

/-- A write that keeps every channel of the mask fences the channels it names (R280). -/
theorem mmFenceWrite_keeps {m : Nat} (hk : fenceMask s m &&& (2 ^ 32 - 1 - fieldOf v 0 32) = 0) {u : State}
    (hu : u = each ((List.range 32).filter (fun i => bitOf v i)) (fun x i => fenceChannel x (32 * m + i) 0) s) :
    mmFenceWrite s m v = wrG u (mmReg (0x118 + 8 * m)) (fenceMask u m) := by
  subst hu
  unfold mmFenceWrite
  exact if_neg (fun h => bne_iff_ne.1 h hk)

/-- A write that would clear a channel of the mask is ignored (R280). -/
theorem mmFenceWrite_clears {m : Nat} (hk : fenceMask s m &&& (2 ^ 32 - 1 - fieldOf v 0 32) ≠ 0) :
    mmFenceWrite s m v = ignored s (devPage 4) := by
  unfold mmFenceWrite
  rw [if_pos (bne_iff_ne.2 hk)]

end

/-- Settles O27: each command is one register write, which its page hands to the register's own rule. -/
theorem memoryRegisters : Obligations.MemoryRegisters := by
  refine ⟨?retrain, ?remap, ?dreg, ?dregOff, ?fence, ?fenceClears⟩
  case retrain =>
    rintro a ctl mask _ s rfl h
    exact congrArg Host.Outcome.next (write_mcCtrl h)
  case remap =>
    rintro a _ _ s rfl h rfl hb hr
    exact congrArg Host.Outcome.next ((write_mmCtrl h).trans (mmCtrlWrite_remap hb hr))
  case dreg => exact fun a n limit v s h => congrArg Host.Outcome.next (write_dreg h)
  case dregOff =>
    exact fun a n v s h hv => congrArg Host.Outcome.next ((write_dreg (limit := false) h).trans (dregWrite_invalid hv))
  case fence =>
    exact fun a m v u s h hk hu => congrArg Host.Outcome.next ((write_mmFence h).trans (mmFenceWrite_keeps hk hu))
  case fenceClears =>
    exact fun a m v s h hk => congrArg Host.Outcome.next ((write_mmFence h).trans (mmFenceWrite_clears hk))

end Sys2Proof.Machine

/-! SUPPORT. Requests of the companion over Gorbin (R290–R296, R299–R303, R405): how one is taken, and what each opcode does. -/

namespace Sys2Proof.Machine

/-! ### Taking a request (R290, R292, R294) -/

section
variable {s u : State} {h : GbHdr} {data d : List Byte} {posted well : Bool}

theorem opc_of_gbWell {opc : Nat} {lenOk : Bool} (hw : gbWell h opc lenOk = true) : h.opc = opc := by
  simp only [gbWell, Bool.and_eq_true, beq_iff_eq] at hw
  obtain ⟨⟨⟨ho, -⟩, -⟩, -⟩ := hw
  exact ho

/-- On a link that does not run nothing arrives. -/
theorem gbArrive_down (hup : gbUp s = false) : gbArrive h data posted well s = s :=
  if_pos (by rw [hup]; rfl)

/-- A well-formed request that waits behind none is performed, and leaves the ingress buffer unless it is held. -/
theorem gbArrive_served {v : State} (hup : gbUp s = true) (hw : well = true) (hu : u = gbResume (linkAccept s 14)) (hb : gbBlocked u h = false)
    (hv : gbServe u h data = v) : gbArrive h data posted well s = gbLeaves u v data.length := by
  subst hw hu hv
  simp only [gbArrive, gbTake, hup, hb, Bool.not_true, Bool.false_eq_true, if_false, if_true]

/-- A parked request keeps its places in the ingress buffer. -/
theorem gbLeaves_gbPark {n : Nat} : gbLeaves u (gbPark u h data) n = gbPark u h data :=
  if_pos (by simp [gbPark])

theorem gbArrive_parked (hup : gbUp s = true) (hu : u = gbResume (linkAccept s 14)) (hb : gbBlocked u h = true) :
    gbArrive h data posted true s = gbPark u h data := by
  subst hu
  simp only [gbArrive, gbTake, hup, hb, Bool.not_true, Bool.false_eq_true, if_false, if_true, gbLeaves_gbPark]

/-- A malformed request is recorded, and answered UNMAPPED unless it is posted (R292). -/
theorem gbArrive_malformed (hup : gbUp s = true)
    (hu : u = report (oweCredit (gbResume (linkAccept s 14)) 14 2 (gbFlits data.length)) gbPage 0x0903) :
    gbArrive h data posted false s = if posted then u else gbReply u h 1 [] := by
  subst hu
  unfold gbArrive
  rw [hup]
  rfl

/-- Each request that is taken in its turn arrives in the one way. -/
theorem exec_gbForms {v : W64} {i : Instr} (hi : (i, d, posted, well) ∈ gbForms h v data) :
    exec i s = .next (gbArrive h d posted well s) := by
  simp only [gbForms, List.mem_cons, List.not_mem_nil, or_false, Prod.mk.injEq] at hi
  rcases hi with ⟨rfl, rfl, rfl, rfl⟩ | ⟨rfl, rfl, rfl, rfl⟩ | ⟨rfl, rfl, rfl, rfl⟩ | ⟨rfl, rfl, rfl, rfl⟩ | ⟨rfl, rfl, rfl, rfl⟩ |
    ⟨rfl, rfl, rfl, rfl⟩ | ⟨rfl, rfl, rfl, rfl⟩ | ⟨rfl, rfl, rfl, rfl⟩ | ⟨rfl, rfl, rfl, rfl⟩ | ⟨rfl, rfl, rfl, rfl⟩ |
    ⟨rfl, rfl, rfl, rfl⟩ <;> rfl

end

/-! ### Records -/

/-- A record whose code has no DETAIL does not show the one that is given (R316). -/
theorem report_noDetail {s : State} {p code : Nat} {l : List Nat} (hd : detailGiven code = false) :
    report s p code { detail := l } = report s p code := by
  have hr : mkRec (noteEvent s code) p code { detail := l } = mkRec (noteEvent s code) p code {} := by
    unfold mkRec
    rw [hd]
    rfl
  simp only [report, reportB, report0, hr]
  rfl

/-! ### Registers (R293) -/

section
variable {u : State} {h : GbHdr} {data : List Byte}

theorem gbServe_regRd_ok (ho : h.opc = 0x01) (hr : (regRead u .companion h.addr).1 = .ok) :
    gbServe u h data = gbReply (regRead u .companion h.addr).2.2 h 0 (bytesOf 8 (regRead u .companion h.addr).2.1.toNat) := by
  unfold gbServe
  simp only [ho, hr]

theorem gbServe_regRd_denied (ho : h.opc = 0x01) (hr : (regRead u .companion h.addr).1 = .denied) :
    gbServe u h data = gbReply (regRead u .companion h.addr).2.2 h 2 [] := by
  unfold gbServe
  simp only [ho, hr]

/-- The eight bytes of a posted word hold it. -/
theorem ofNat_natOfBytes_bytesOf (v : W64) : BitVec.ofNat 64 (natOfBytes (bytesOf 8 v.toNat)) = v := by
  rw [natOfBytes_bytesOf, Nat.mod_eq_of_lt (show v.toNat < 256 ^ 8 from v.isLt), BitVec.ofNat_toNat, BitVec.setWidth_eq]

theorem gbServe_regWr {v : W64} (ho : h.opc = 0x02) : gbServe u h (bytesOf 8 v.toNat) = (regWrite u .companion h.addr v).2 := by
  unfold gbServe
  simp only [ho, ofNat_natOfBytes_bytesOf]

/-! ### The opcodes that have a rule of their own -/

theorem gbServe_memRdUc (ho : h.opc = 0x03) : gbServe u h data = ucRead u h := by
  unfold gbServe
  simp only [ho]

theorem gbServe_memWrUc (ho : h.opc = 0x04) : gbServe u h data = ucWrite u h data := by
  unfold gbServe
  simp only [ho]

theorem gbServe_lineRdS (ho : h.opc = 0x05) : gbServe u h data = lineRead u h 1 := by
  unfold gbServe
  simp only [ho]

theorem gbServe_lineRdX (ho : h.opc = 0x06) : gbServe u h data = lineRead u h 2 := by
  unfold gbServe
  simp only [ho]

theorem gbServe_lineUpg (ho : h.opc = 0x07) : gbServe u h data = lineUpg u h := by
  unfold gbServe
  simp only [ho]

theorem gbServe_lineWb (ho : h.opc = 0x08) : gbServe u h data = lineWb u h data := by
  unfold gbServe
  simp only [ho]

theorem gbServe_lineEvict (ho : h.opc = 0x09) : gbServe u h data = lineEvict u h := by
  unfold gbServe
  simp only [ho]

/-! ### Doorbells and messages (R301–R303, R405) -/

theorem gbServe_doorbell {v : W64} (ho : h.opc = 0x0A) (hh : halted u = false) :
    gbServe u h (bytesOf 8 v.toNat) = ringBell u h v := by
  unfold gbServe
  simp only [ho, hh, Bool.false_eq_true, if_false, ofNat_natOfBytes_bytesOf]

theorem gbServe_doorbell_halted (ho : h.opc = 0x0A) (hh : halted u = true) : gbServe u h data = report u gbPage 0x0904 := by
  unfold gbServe
  simp only [ho, hh, if_true]
  rfl

theorem gbServe_msg (ho : h.opc = 0x0B) (hh : halted u = false) : gbServe u h data = sendMsg u h data := by
  unfold gbServe
  simp only [ho, hh, Bool.false_eq_true, if_false]

theorem gbServe_msg_halted (ho : h.opc = 0x0B) (hh : halted u = true) :
    gbServe u h data = gbReply (report u gbPage 0x0904) h 2 [] := by
  unfold gbServe
  simp only [ho, hh, if_true]
  rfl

/-- The value of an enabled doorbell is merged into the pending one (R301). -/
theorem ringBell_enabled {v : W64} {n : Nat} (hn : n = h.addr % 1024) (he : bitOf (dbDest u n) 63 = true) :
    ringBell u h v = setDb (if dbValue u n != 0 then incWrap u (gbReg 0x088) 1 else u) n (dbValue u n ||| v) := by
  subst hn
  exact if_neg (by rw [he]; decide)

theorem sendMsg_sent {m : Msg} (hm : m = gbMsg u data) (hs : gbSends u m.hdr.context = true)
    (hc : hasCredit u unitGorbin m.hdr.dst m.hdr.context (hdrSlots m.hdr) = true) :
    sendMsg u h data = gbReply (incWrap (trySend u unitGorbin 0xFF (.doorbell 1024) m).2 (gbReg 0x090) 1) h 0 [] := by
  subst hm
  exact if_pos (by rw [hs, hc]; rfl)

theorem sendMsg_noCredit {m : Msg} (hm : m = gbMsg u data)
    (hc : (gbSends u m.hdr.context && hasCredit u unitGorbin m.hdr.dst m.hdr.context (hdrSlots m.hdr)) = false) :
    sendMsg u h data = gbReply u h 4 [] := by
  subst hm
  exact if_neg (by rw [hc]; decide)

/-! ### Uncached accesses of LPDDR6 (R293) -/

section
variable (hl : regionOf h.addr = .lpddr)
include hl

section
variable (hr : gbRefused u h false = false)
include hr

theorem ucRead_unmapped (hm : dramMapped u h.addr h.len = false) : ucRead u h = gbReply (report u gbPage 0x0A01) h 1 [] := by
  unfold ucRead
  rw [hr, hl, hm]
  rfl

theorem ucRead_held (hm : dramMapped u h.addr h.len = true) (hs : unsettled u h.addr h.len false = true) :
    ucRead u h = putLate (settle u h.addr h.len false) (.comp h []) := by
  unfold ucRead
  rw [hr, hl, hm, hs]
  rfl

theorem ucRead_answered {d : List (Option Byte)} {v : State} (hm : dramMapped u h.addr h.len = true)
    (hs : unsettled u h.addr h.len false = false) (hd : dramRead u h.addr h.len none = (d, v)) :
    ucRead u h = if d.any (fun o => o.isNone) then gbReply v h 3 [] else gbReply v h 0 (d.map (fun o => o.getD 0)) := by
  unfold ucRead
  rw [hr, hl, hm, hs, hd]
  rfl

end

section
variable (hr : gbRefused u h true = false) (hm : dramMapped u h.addr h.len = true)
include hr hm

theorem ucWrite_held (hs : unsettled u h.addr h.len true = true) :
    ucWrite u h data = putLate (settle u h.addr h.len true) (.comp h data) := by
  unfold ucWrite
  rw [hr, hl, hm, hs]
  rfl

theorem ucWrite_made (hs : unsettled u h.addr h.len true = false) (hf : (flagCheck u h.addr (data.map some) true).1 = true) :
    ucWrite u h data = (dramStore (clearLost (flagCheck u h.addr (data.map some) true).2 h.addr h.len) h.addr (data.map some) none).2 := by
  unfold ucWrite
  rw [hr, hl, hm, hs]
  exact if_pos hf

/-- A write that the flag table does not allow has the effect of the check alone (R299). -/
theorem ucWrite_flagged (hs : unsettled u h.addr h.len true = false) (hf : (flagCheck u h.addr (data.map some) true).1 = false) :
    ucWrite u h data = (flagCheck u h.addr (data.map some) true).2 := by
  unfold ucWrite
  rw [hr, hl, hm, hs]
  exact if_neg (Bool.eq_false_iff.1 hf)

end

end

/-! ### Coherent requests (R295, R296) -/

section
variable (hl : regionOf h.addr = .lpddr) (hf : meetsFlags u h.addr 64 = false) (hm : dramMapped u h.addr 64 = true)
include hl hf hm

section
variable (hp : reachesMemory u .companion = true) (hs : snooping u (h.addr / 64) = false) (hw : lateOn u (h.addr / 64) = false)
include hp hs hw

theorem lineRead_granted {st : Nat} (hc : channelWaits u h.addr 64 = false) (hd : dirAt u (h.addr / 64) = 0)
    (hroom : (dirSet u (h.addr / 64)).length < 16) : lineRead u h st = grantLine u h (h.addr / 64) st := by
  simp [lineRead, hp, hl, hf, hm, hs, hw, hc, hd, Nat.not_le.2 hroom]

/-- With its set full the request waits for the snoop of the line that entered the set first. -/
theorem lineRead_setFull {st : Nat} {v : DirLine} (hc : channelWaits u h.addr 64 = false) (hd : dirAt u (h.addr / 64) = 0)
    (hfull : 16 ≤ (dirSet u (h.addr / 64)).length) (hv : (dirSet u (h.addr / 64)).head? = some v) :
    lineRead u h st =
      putLate (if snooping u v.line then u else snoop (incWrap u (gbReg 0x098) 1) v.line true) (.comp h []) := by
  simp [lineRead, compLate, hp, hl, hf, hm, hs, hw, hc, hd, hfull, hv]

theorem lineUpg_shared (hd : dirAt u (h.addr / 64) = 1) : lineUpg u h = gbReply (setDir u (h.addr / 64) 2) h 0 [] := by
  simp [lineUpg, hp, hl, hf, hm, hs, hw, hd]

theorem lineUpg_lost (hd : dirAt u (h.addr / 64) = 3) :
    lineUpg u h = gbReply (report (incSat u (gbReg 0x0B8)) gbPage 0x0908) h 3 [] := by
  have hrec : lostAccess u h.addr none = report (incSat u (gbReg 0x0B8)) gbPage 0x0908 := report_noDetail (by decide)
  simp [lineUpg, hp, hl, hf, hm, hs, hw, hd, hrec]

end

theorem lineWb_held (hd : dirAt u (h.addr / 64) = 2) :
    lineWb u h data = takeLine (setDir u (h.addr / 64) 0) (h.addr / 64) data := by
  simp [lineWb, hl, hf, hm, hd]

theorem lineEvict_held (hd : dirAt u (h.addr / 64) = 1 ∨ dirAt u (h.addr / 64) = 2) :
    lineEvict u h = setDir u (h.addr / 64) 0 := by
  simp [lineEvict, hl, hf, hm, hd]

end

/-! ### Snoops of the gateway cache (R297) -/

theorem gwSnoop_miss {inv : Bool} (hg : gwAt u (h.addr / 64) = none) : gwSnoop u h inv = gbSend u 0x32 h.tag h.addr 0 [] := by
  unfold gwSnoop
  simp only [hg]

theorem gwSnoop_hit {inv : Bool} {e : GwLine} {v : State} (hg : gwAt u (h.addr / 64) = some e)
    (hv : v = setGw u (h.addr / 64) (if inv then none else some { e with st := 1 })) :
    gwSnoop u h inv = if e.st = 3 then gbSend v 0x33 h.tag h.addr 0 e.data else gbSend v 0x32 h.tag h.addr 0 [] := by
  subst hv
  unfold gwSnoop
  simp only [hg]

end

section
variable {s u : State} {h : GbHdr} (hup : gbUp s = true) (hu : u = oweCredit (linkAccept s 14) 14 1 (gbFlits 0))
include hup hu

theorem exec_snpInv_well (hw : gbWell h 0x20 (lineShape h) = true) : exec (.snpInv h) s = .next (gwSnoop u h true) := by
  subst hu
  show execSnpInv h s = _
  unfold execSnpInv
  rw [hup, hw]
  rfl

theorem exec_snpShr_well (hw : gbWell h 0x21 (lineShape h) = true) : exec (.snpShr h) s = .next (gwSnoop u h false) := by
  subst hu
  show execSnpShr h s = _
  unfold execSnpShr
  rw [hup, hw]
  rfl

end

/-- On a link that does not run neither a request nor a snoop of the companion changes anything. -/
theorem exec_gbDown {s : State} {h : GbHdr} {v : W64} {data : List Byte} {i : Instr} (hup : gbUp s = false)
    (hi : i ∈ [.regRd h, .regWr h v, .memRdUc h, .memWrUc h data, .lineRdS h, .lineRdX h, .lineUpg h, .lineWb h data, .lineEvict h,
      .snpInv h, .snpShr h, .doorbell h v, .msg h data]) : exec i s = .next s := by
  have hdown : (!gbUp s) = true := by rw [hup]; rfl
  simp only [List.mem_cons, List.not_mem_nil, or_false] at hi
  rcases hi with rfl | rfl | rfl | rfl | rfl | rfl | rfl | rfl | rfl | rfl | rfl | rfl | rfl <;>
    exact congrArg Host.Outcome.next (if_pos hdown)

/-- Settles O28: a request is taken in the one way of all requests, and then served by the rule of its opcode in the case that
the clause names; a snoop goes to the gateway cache. -/
theorem companionRequests : Obligations.CompanionRequests := by
  refine ⟨?regRead, ?regDenied, ?regWrite, ?ucAnswered, ?ucReadHeld, ?ucUnmapped, ?ucMade, ?ucFlagged, ?ucWriteHeld, ?sharedGranted,
    ?sharedSetFull, ?exclusiveGranted, ?exclusiveSetFull, ?upgraded, ?upgradeLost, ?writtenBack, ?evicted, ?invalidatedHit,
    ?invalidatedMiss, ?sharedHit, ?sharedMiss, ?doorbell, ?sent, ?noCredit, ?halted, ?parked, ?malformed, ?down⟩
  case regRead =>
    exact fun h u s hup hw hu hb hr => congrArg Host.Outcome.next
      (gbArrive_served hup hw hu hb (gbServe_regRd_ok (opc_of_gbWell hw) hr))
  case regDenied =>
    exact fun h u s hup hw hu hb hr => congrArg Host.Outcome.next
      (gbArrive_served hup hw hu hb (gbServe_regRd_denied (opc_of_gbWell hw) hr))
  case regWrite =>
    exact fun h v u s hup hw hu hb => congrArg Host.Outcome.next
      (gbArrive_served hup hw hu hb (gbServe_regWr (opc_of_gbWell hw)))
  case ucAnswered =>
    exact fun h d v u s hup hw hu hb hr hl hm hs hd => congrArg Host.Outcome.next
      (gbArrive_served hup hw hu hb ((gbServe_memRdUc (opc_of_gbWell hw)).trans (ucRead_answered hl hr hm hs hd)))
  case ucReadHeld =>
    exact fun h u s hup hw hu hb hr hl hm hs => congrArg Host.Outcome.next
      (gbArrive_served hup hw hu hb ((gbServe_memRdUc (opc_of_gbWell hw)).trans (ucRead_held hl hr hm hs)))
  case ucUnmapped =>
    exact fun h u s hup hw hu hb hr hl hm => congrArg Host.Outcome.next
      (gbArrive_served hup hw hu hb ((gbServe_memRdUc (opc_of_gbWell hw)).trans (ucRead_unmapped hl hr hm)))
  case ucMade =>
    exact fun h data u s hup hw hu hb hr hl hm hs hf => congrArg Host.Outcome.next
      (gbArrive_served hup hw hu hb ((gbServe_memWrUc (opc_of_gbWell hw)).trans (ucWrite_made hl hr hm hs hf)))
  case ucFlagged =>
    exact fun h data u s hup hw hu hb hr hl hm hs hf => congrArg Host.Outcome.next
      (gbArrive_served hup hw hu hb ((gbServe_memWrUc (opc_of_gbWell hw)).trans (ucWrite_flagged hl hr hm hs hf)))
  case ucWriteHeld =>
    exact fun h data u s hup hw hu hb hr hl hm hs => congrArg Host.Outcome.next
      (gbArrive_served hup hw hu hb ((gbServe_memWrUc (opc_of_gbWell hw)).trans (ucWrite_held hl hr hm hs)))
  case sharedGranted =>
    exact fun h u s hup hw hu hb hp hl hf hm hs hlate hc hd hroom => congrArg Host.Outcome.next
      (gbArrive_served hup hw hu hb ((gbServe_lineRdS (opc_of_gbWell hw)).trans
        (lineRead_granted hl hf hm hp hs hlate hc hd hroom)))
  case sharedSetFull =>
    exact fun h v u s hup hw hu hb hp hl hf hm hs hlate hc hd hfull hv => congrArg Host.Outcome.next
      (gbArrive_served hup hw hu hb ((gbServe_lineRdS (opc_of_gbWell hw)).trans
        (lineRead_setFull hl hf hm hp hs hlate hc hd hfull hv)))
  case exclusiveGranted =>
    exact fun h u s hup hw hu hb hp hl hf hm hs hlate hc hd hroom => congrArg Host.Outcome.next
      (gbArrive_served hup hw hu hb ((gbServe_lineRdX (opc_of_gbWell hw)).trans
        (lineRead_granted hl hf hm hp hs hlate hc hd hroom)))
  case exclusiveSetFull =>
    exact fun h v u s hup hw hu hb hp hl hf hm hs hlate hc hd hfull hv => congrArg Host.Outcome.next
      (gbArrive_served hup hw hu hb ((gbServe_lineRdX (opc_of_gbWell hw)).trans
        (lineRead_setFull hl hf hm hp hs hlate hc hd hfull hv)))
  case upgraded =>
    exact fun h u s hup hw hu hb hp hl hf hm hs hlate hd => congrArg Host.Outcome.next
      (gbArrive_served hup hw hu hb ((gbServe_lineUpg (opc_of_gbWell hw)).trans (lineUpg_shared hl hf hm hp hs hlate hd)))
  case upgradeLost =>
    exact fun h u s hup hw hu hb hp hl hf hm hs hlate hd => congrArg Host.Outcome.next
      (gbArrive_served hup hw hu hb ((gbServe_lineUpg (opc_of_gbWell hw)).trans (lineUpg_lost hl hf hm hp hs hlate hd)))
  case writtenBack =>
    exact fun h data u s hup hw hu hb hl hf hm hd => congrArg Host.Outcome.next
      (gbArrive_served hup hw hu hb ((gbServe_lineWb (opc_of_gbWell hw)).trans (lineWb_held hl hf hm hd)))
  case evicted =>
    exact fun h u s hup hw hu hb hl hf hm hd => congrArg Host.Outcome.next
      (gbArrive_served hup hw hu hb ((gbServe_lineEvict (opc_of_gbWell hw)).trans (lineEvict_held hl hf hm hd)))
  case invalidatedHit =>
    exact fun h e u s hup hw hu hg => (exec_snpInv_well hup hu hw).trans (congrArg Host.Outcome.next (gwSnoop_hit hg rfl))
  case invalidatedMiss =>
    exact fun h u s hup hw hu hg => (exec_snpInv_well hup hu hw).trans (congrArg Host.Outcome.next (gwSnoop_miss hg))
  case sharedHit =>
    exact fun h e u s hup hw hu hg => (exec_snpShr_well hup hu hw).trans (congrArg Host.Outcome.next (gwSnoop_hit hg rfl))
  case sharedMiss =>
    exact fun h u s hup hw hu hg => (exec_snpShr_well hup hu hw).trans (congrArg Host.Outcome.next (gwSnoop_miss hg))
  case doorbell =>
    exact fun h value n u s hup hw hu hb hh hn he => congrArg Host.Outcome.next
      (gbArrive_served hup hw hu hb ((gbServe_doorbell (opc_of_gbWell hw) hh).trans (ringBell_enabled hn he)))
  case sent =>
    exact fun h data m u s hup hw hu hb hh hm hs hc => congrArg Host.Outcome.next
      (gbArrive_served hup hw hu hb ((gbServe_msg (opc_of_gbWell hw) hh).trans (sendMsg_sent hm hs hc)))
  case noCredit =>
    exact fun h data m u s hup hw hu hb hh hm hc => congrArg Host.Outcome.next
      (gbArrive_served hup hw hu hb ((gbServe_msg (opc_of_gbWell hw) hh).trans (sendMsg_noCredit hm hc)))
  case halted =>
    refine fun h value data u s hup hu hb hh => ⟨fun hw => ?_, fun hw => ?_⟩
    · exact congrArg Host.Outcome.next (gbArrive_served hup hw hu hb (gbServe_doorbell_halted (opc_of_gbWell hw) hh))
    · exact congrArg Host.Outcome.next (gbArrive_served hup hw hu hb (gbServe_msg_halted (opc_of_gbWell hw) hh))
  case parked =>
    exact fun h v data d i posted u s hup hu hi hb =>
      (exec_gbForms hi).trans (congrArg Host.Outcome.next (gbArrive_parked hup hu hb))
  case malformed =>
    exact fun h v data d i posted u s hup hu hi =>
      (exec_gbForms hi).trans (congrArg Host.Outcome.next (gbArrive_malformed hup hu))
  case down => exact fun h v data i s hup hi => exec_gbDown hup hi

end Sys2Proof.Machine

/-! SUPPORT. The device's own requests over Gorbin and how they end (R294, R296, R297), its doorbells (R301), and the link coming
up (R239, R285). -/

namespace Sys2Proof.Machine

/-! ### Snoop responses (R295, R296) -/

section
variable {s : State} {line : Nat}

theorem afterSnoop_invalidated (hd : dirAt s line ≠ 3) : afterSnoop s line true none = setDir s line 0 := by
  unfold afterSnoop
  rw [if_neg (by simp [hd])]
  rfl

/-- A LOST line whose snoop brought no data stays LOST. -/
theorem afterSnoop_lost {inv : Bool} (hd : dirAt s line = 3) : afterSnoop s line inv none = renewDir s line :=
  if_pos (by simp [hd])

/-- The companion keeps a line that it held, as a shared one. -/
theorem afterSnoop_shared {d : List Byte} (hd : dirAt s line = 1 ∨ dirAt s line = 2) :
    afterSnoop s line false (some d) = setDir s line 1 := by
  unfold afterSnoop
  rw [if_neg (by simp), if_neg (by rcases hd with hd | hd <;> simp [hd])]

end

section
variable {s : State} {tag : Nat} {r : GbReq}

/-- Taking a packet into the link changes no request. -/
@[simp] theorem gbReq_gbTaken {ch n : Nat} : gbReq (gbTaken s ch n) tag = gbReq s tag := rfl

section
variable (hr : gbReq s tag = some r) (ho : r.opc = 0x20 ∨ r.opc = 0x21)
include hr ho

theorem snoopResponse_clean : snoopResponse s tag none =
    lateRun (afterSnoop (gbDone (takeCrossing s (r.addr / 64)) tag) (r.addr / 64) (r.opc = 0x20) none) := by
  unfold snoopResponse
  rw [hr]
  exact if_pos (by simpa using ho)

theorem snoopResponse_modified {d : List Byte} : snoopResponse s tag (some d) =
    lateRun (takeLine (afterSnoop (gbDone (takeCrossing s (r.addr / 64)) tag) (r.addr / 64) (r.opc = 0x20) (some d))
      (r.addr / 64) d) := by
  unfold snoopResponse
  rw [hr]
  exact if_pos (by simpa using ho)

theorem snoopLate_due (ht : r.since + 100000 ≤ now s) : snoopLate s tag =
    lateRun (report (setDir (gbDone (takeCrossing s (r.addr / 64)) tag) (r.addr / 64) 3) gbPage 0x0905) := by
  unfold snoopLate
  rw [hr]
  exact if_pos (by simpa [ht] using ho)

end

theorem exec_snpRsp (hup : gbUp s = true) {tag : Fin 4096} :
    exec (.snpRsp tag) s = .next (gbResume (snoopResponse (gbTaken s 0 0) tag none)) :=
  congrArg Host.Outcome.next (if_pos hup)

theorem exec_snpRspD (hup : gbUp s = true) {tag : Fin 4096} {d : List Byte} (hd : d.length = 64) :
    exec (.snpRspD tag d) s = .next (gbResume (snoopResponse (gbTaken s 0 64) tag (some d))) :=
  congrArg Host.Outcome.next (if_pos (by rw [hup, hd]; rfl))

/-! ### Completions (R294, R297) -/

theorem complete_failed {status : Nat} {data : List Byte} (hr : gbReq s tag = some r)
    (ho : r.opc = 0x10 ∨ r.opc = 0x11 ∨ r.opc = 0x12) (hs : status ≠ 0) :
    complete s tag status data = gwFailed (gbDone s tag) (r.addr / 64) status := by
  unfold complete
  rcases ho with ho | ho | ho <;> simp [hr, ho, hs]

/-- An upgrade makes a line that is still held at least exclusive. -/
theorem complete_upgraded {data : List Byte} {e : GwLine} (hr : gbReq s tag = some r) (ho : r.opc = 0x12)
    (he : gwAt (gbDone s tag) (r.addr / 64) = some e) :
    complete s tag 0 data = setGw (gbDone s tag) (r.addr / 64) (some { e with st := max e.st 2 }) := by
  unfold complete
  simp [hr, ho, he]

theorem complete_installed {data : List Byte} (hr : gbReq s tag = some r) (ho : r.opc = 0x10 ∨ r.opc = 0x11) (hd : data.length = 64) :
    complete s tag 0 data = gwInstall (gbDone s tag) (r.addr / 64) (if r.opc = 0x10 then 1 else 2) data := by
  unfold complete
  rcases ho with ho | ho <;> simp [hr, ho, hd]

theorem exec_cmp (hup : gbUp s = true) {tag : Fin 4096} {status : Fin 256} :
    exec (.cmp tag status) s = .next (complete (gbTaken s 0 0) tag status []) :=
  congrArg Host.Outcome.next (if_pos hup)

theorem exec_cmpD (hup : gbUp s = true) {tag : Fin 4096} {status : Fin 256} {d : List Byte} :
    exec (.cmpD tag status d) s = .next (complete (gbTaken s 0 d.length) tag status d) :=
  congrArg Host.Outcome.next (if_pos hup)

theorem exec_hostTimeout {tag : Fin 4096} (hr : gbReq s tag = some r) (hi : r.opc ≠ 0x20) (hs : r.opc ≠ 0x21)
    (ht : r.since + 1000000 ≤ now s) : exec (.hostTimeout tag) s = .next (complete (report s gbPage 0x090A) tag 3 []) := by
  show execHostTimeout tag s = _
  unfold execHostTimeout
  simp [hr, hi, hs, ht]

end

/-! ### Accesses of companion memory (R297) -/

/-- An agent that reaches memory asks the gateway for bytes that all lie in companion memory. -/
theorem gwAsked_reaches {s : State} {a : Agent} {addr n : Nat} {data : Option (List (Option Byte))} (hp : reachesMemory s a = true)
    (hl : regionOf addr = .companion) (hl' : regionOf (addr + n - 1) = .companion) (hn : n ≠ 0) :
    gwAsked s a addr n data = gwAnswered a (gwAccess s addr n data) := by
  unfold gwAsked
  rw [hp, hl, hl']
  simp [hn]

/-! ### Doorbells (R301) -/

theorem doorbellSend_ready {s : State} {n : Nat} {m : Msg} (he : bitOf (dbDest s n) 63 = true) (hv : dbValue s n ≠ 0)
    (hc : hasCredit s unitGorbin (fieldOf (dbDest s n) 0 36) (fieldOf (dbBind s n) 8 8) 1 = true)
    (hm : m = buildMsg s unitGorbin 0xFF (fieldOf (dbBind s n) 8 8) (fieldOf (dbDest s n) 0 36) (fieldOf (dbBind s n) 32 10)
      (if bitOf (dbDest s n) 62 then 3 else 2) (bytesOf 8 (dbValue s n).toNat)) :
    doorbellSend s n = incWrap (trySend (setDb s n 0) unitGorbin 0xFF (.doorbell n)
      { m with hdr := { m.hdr with ctxEpoch := fieldOf (dbBind s n) 16 16 } }).2 (gbReg 0x080) 1 := by
  subst hm
  exact if_pos (by rw [he, hc, bne_iff_ne.2 hv]; rfl)

/-! ### The link (R239, R240, R285, R297) -/

section
variable {s u w : State} {lanes : Fin 256} {serial : Fin 16777216} {mask : Nat}

/-- Lanes that training was asked for have trained: the identities are exchanged, and the link runs on these lanes. -/
theorem exec_gbLinkUp_training {was : W64} (hp : gbState s = 1) (hm : mask = lanes.val &&& rdF s (gbReg 0x100) 24 8) (h0 : mask ≠ 0)
    (hw : was = rd s (gbReg 0x110)) (hid : w = wr s (gbReg 0x110) (BitVec.ofNat 64 (2 ^ 63 + serial.val)))
    (hu : u = linkInit (emit w (.link 14 (.ident (deviceId w) 14 (Config.serial % 2 ^ 24)))) 14) :
    exec (.gbLinkUp lanes serial) s = .next (gwAfterUp (gbCameUp u mask) (bitOf was 63 && fieldOf was 0 24 != serial.val)) := by
  subst hm hw hid hu
  exact congrArg Host.Outcome.next (if_pos (by simpa [hp] using h0))

/-- Of a DEGRADED link the lanes that were ordered trained join. -/
theorem exec_gbLinkUp_degraded {ordered : Nat} (hp : gbState s = 3) (hm : mask = lanes.val &&& rdF s (gbReg 0x100) 24 8)
    (ho : ordered = mapGet (fun _ => 0) s.fabric.retrain 14) (h0 : mask &&& ordered ≠ 0)
    (hu : u = { s with fabric := { s.fabric with retrain := mapPut (fun _ => 0) s.fabric.retrain 14 (ordered &&& (255 - mask)) } }) :
    exec (.gbLinkUp lanes serial) s = .next (gbCameUp u (gbLanes s ||| (mask &&& ordered))) := by
  subst hm ho hu
  exact congrArg Host.Outcome.next ((if_neg (by simp [hp])).trans (if_pos (by simpa [hp] using h0)))

end

/-- Settles O29: an answer of the companion ends the request of its tag by that request's opcode; the other clauses are the
device's accesses, its doorbells and the link. -/
theorem deviceRequests : Obligations.DeviceRequests := by
  refine ⟨?invalidated, ?stillLost, ?gaveData, ?upgraded, ?failed, ?installed, ?snoopTimeout, ?timeout, ?hit, ?miss, ?refused,
    ?doorbell, ?down, ?up, ?joins⟩
  case invalidated =>
    rintro tag r _ s hup hr ho rfl hd
    rw [exec_snpRsp hup, snoopResponse_clean (gbReq_gbTaken.trans hr) (.inl ho), decide_eq_true ho]
    exact congrArg (fun x => Host.Outcome.next (gbResume (lateRun x))) (afterSnoop_invalidated hd)
  case stillLost =>
    rintro tag r _ s hup hr ho rfl hd
    rw [exec_snpRsp hup, snoopResponse_clean (gbReq_gbTaken.trans hr) ho]
    exact congrArg (fun x => Host.Outcome.next (gbResume (lateRun x))) (afterSnoop_lost hd)
  case gaveData =>
    rintro tag data r _ s hup hlen hr ho rfl hd
    rw [exec_snpRspD hup hlen, snoopResponse_modified (gbReq_gbTaken.trans hr) (.inr ho), decide_eq_false (by omega)]
    exact congrArg (fun x => Host.Outcome.next (gbResume (lateRun (takeLine x _ data)))) (afterSnoop_shared hd)
  case upgraded =>
    rintro tag r e _ s hup hr ho rfl he
    exact (exec_cmp hup).trans (congrArg Host.Outcome.next (complete_upgraded hr ho he))
  case failed =>
    intro tag status r s hup hr ho hs
    exact (exec_cmp hup).trans (congrArg Host.Outcome.next (complete_failed hr ho (Fin.val_ne_zero_iff.2 hs)))
  case installed =>
    intro tag data r s hup hr ho hd
    rw [exec_cmpD hup, hd]
    exact congrArg Host.Outcome.next (complete_installed hr ho hd)
  case snoopTimeout =>
    exact fun tag r s hr ho ht => congrArg (fun x => Host.Outcome.next (gbResume x)) (snoopLate_due hr ho ht)
  case timeout => exact fun tag r s hr hi hs ht => exec_hostTimeout hr hi hs ht
  case hit =>
    intro a addr len d u s hp hl hl' hn hg
    exact congrArg Host.Outcome.next ((gwAsked_reaches hp hl hl' hn).trans (congrArg (gwAnswered a) hg))
  case miss =>
    intro a addr len data u s hp hl hl' hn hg
    exact congrArg Host.Outcome.next
      ((gwAsked_reaches hp hl hl' (mt List.length_eq_zero_iff.1 hn)).trans (congrArg (gwAnswered a) hg))
  case refused =>
    intro a addr len st u s hp hl hl' hn hg
    exact congrArg Host.Outcome.next ((gwAsked_reaches hp hl hl' hn).trans (congrArg (gwAnswered a) hg))
  case doorbell => exact fun n m s he hv hc hm => congrArg Host.Outcome.next (doorbellSend_ready he hv hc hm)
  case down => exact fun s hup => congrArg Host.Outcome.next (if_pos hup)
  case up => exact fun lanes serial mask was w u s hp hm h0 hw hid hu => exec_gbLinkUp_training hp hm h0 hw hid hu
  case joins => exact fun lanes serial mask ordered u s hp hm ho h0 hu => exec_gbLinkUp_degraded hp hm ho h0 hu

end Sys2Proof.Machine

/-! SUPPORT. Accepted accesses of the Gorbin port's registers (R288, R289, R303, R305, R306, R425). -/

namespace Sys2Proof.Machine

section
variable {s : State} {a : Agent} {v : W64}

/-! ### GB_SEND_CTX -/

theorem findReg_gbSendCtx (m : Fin 4) : findReg gorbinRegs (0x120 + 8 * m.val) = some (regRWs 0x120 4 8 [(0, 64)], m.val) := by
  revert m; decide

/-- The context-set registers of the page lie from 0x120 to 0x138, one for 64 contexts each. -/
theorem gorbinWrite_sendCtx {m : Fin 4} {key : Nat} :
    gorbinWrite s (0x120 + 8 * m.val) key v = ctxSetWrite s gbPage (gbReg (0x120 + 8 * m.val)) 9 m.val v := by
  have hin : (decide (0x120 ≤ 0x120 + 8 * m.val) && decide (0x120 + 8 * m.val < 0x140)) = true := by
    simp only [Bool.and_eq_true, decide_eq_true_eq]; omega
  have hm : (0x120 + 8 * m.val - 0x120) / 8 = m.val := by omega
  rw [gorbinWrite, if_neg (by omega), if_pos hin, hm]

theorem write_gbSendCtx {m : Fin 4} (h : writeOk s a (gbReg (0x120 + 8 * m.val)) v = true) :
    writeBy s a (gbReg (0x120 + 8 * m.val)) v = ctxSetWrite s gbPage (gbReg (0x120 + 8 * m.val)) 9 m.val v := by
  have h8 : 0x80 ≤ 0x120 + 8 * m.val := by omega
  unfold gbReg at *
  rw [regWrite_dev (x := .gorbin) (i := 0) (by omega) h rfl ((findReg_headerRegs_append gorbinRegs h8).trans (findReg_gbSendCtx m)),
    typedWrite_rw (m := 0xFFFFFFFFFFFFFFFF) h8 rfl rfl, merged, merged_all]
  exact gorbinWrite_sendCtx

/-- A set of licensed contexts, none of them newly resident at the unit's tile, is stored (R289, R425). -/
theorem ctxSetWrite_stored {page key t m : Nat}
    (hl : (List.range 64).any (fun i => bitOf v i && licensedContexts s ≤ 64 * m + i) = false)
    (hb : (List.range 64).any (fun i => bitOf v i && !rdB s key i && boundAt s t (64 * m + i)) = false) :
    ctxSetWrite s page key t m v = wr s key v := by
  unfold ctxSetWrite sendCtxWrite
  rw [hl, hb]
  rfl

/-- The empty set names no context, so neither check can fail. -/
theorem any_bitOf_zero (p : Nat → Bool) : (List.range 64).any (fun i => bitOf 0 i && p i) = false := by
  simp [bitOf]

theorem ctxSetWrite_zero {page key t m : Nat} : ctxSetWrite s page key t m 0 = wr s key 0 :=
  ctxSetWrite_stored (any_bitOf_zero _) (by simp only [Bool.and_assoc]; exact any_bitOf_zero _)

/-! ### GB_DB_BIND, GB_MSG_FAIL and GB_BOOT_CTRL -/

/-- A read of GB_DB_BIND answers the entry of GB_DB_INDEX, and advances the index. -/
theorem read_gbDbBind (h : readOk s a (gbReg 0x160) = true) :
    readBy s a (gbReg 0x160) = emit (advance s (gbReg 0x150) 10 1024)
      (.regRead a 0 (rd s (banked (gbReg 0x160) (rdF s (gbReg 0x150) 0 10)))) := by
  unfold gbReg at *
  rw [regRead_dev (x := .gorbin) (by decide) h rfl rfl]
  rfl

theorem write_gbDbBind (h : writeOk s a (gbReg 0x160) v = true) :
    writeBy s a (gbReg 0x160) v = advance (wr s (banked (gbReg 0x160) (rdF s (gbReg 0x150) 0 10))
      (merged s (banked (gbReg 0x160) (rdF s (gbReg 0x150) 0 10)) 0x3FFFFFFFF00 v)) (gbReg 0x150) 10 1024 := by
  unfold gbReg at *
  rw [regWrite_dev (x := .gorbin) (by decide) h rfl rfl, typedWrite_rw (m := 0x3FFFFFFFF00) (by decide) rfl rfl]
  rfl

/-- A read of GB_MSG_FAIL answers with the register as it was, and clears VALID. -/
theorem read_gbMsgFail (h : readOk s a (gbReg 0x118) = true) :
    readBy s a (gbReg 0x118) = emit (wrB s (gbReg 0x118) 63 false) (.regRead a 0 (rd s (gbReg 0x118))) := by
  unfold gbReg at *
  rw [regRead_dev (x := .gorbin) (by decide) h rfl rfl]
  rfl

theorem write_gbBootCtrl (h : writeOk s a (gbReg 0x178) v = true) :
    writeBy s a (gbReg 0x178) v = bootCtrlWrite s (merged s (gbReg 0x178) 0x80000000FFFFFFFF v) := by
  unfold gbReg at *
  rw [regWrite_dev (x := .gorbin) (by decide) h rfl rfl, typedWrite_rw (m := 0x80000000FFFFFFFF) (by decide) rfl rfl]
  rfl

end

/-- Settles O30: each command is one access of a register of the port's page, by that register's own rule. -/
theorem gorbinRegisters : Obligations.GorbinRegisters := by
  refine ⟨?noContext, ?contexts, ?bindRead, ?bindWrite, ?failRead, ?go⟩
  case noContext =>
    rintro a m _ s h rfl
    exact congrArg Host.Outcome.next ((write_gbSendCtx h).trans ctxSetWrite_zero)
  case contexts =>
    exact fun a m v s h _ hl hb => congrArg Host.Outcome.next ((write_gbSendCtx h).trans (ctxSetWrite_stored hl hb))
  case bindRead => exact fun a s h => congrArg Host.Outcome.next (read_gbDbBind h)
  case bindWrite => exact fun a v s h => congrArg Host.Outcome.next (write_gbDbBind h)
  case failRead => exact fun a s h => congrArg Host.Outcome.next (read_gbMsgFail h)
  case go =>
    rintro a len _ s rfl h
    exact congrArg Host.Outcome.next (write_gbBootCtrl h)

end Sys2Proof.Machine

/-! SUPPORT. What a step is, and what no step takes back (R469, R473, R476). -/

namespace Sys2Proof.Machine

/-- Every command answers a next state: each meaning is a next state outright. -/
theorem exec_answers (i : Instr) (s : State) : ∃ t, exec i s = .next t := by
  cases i <;> exact ⟨_, rfl⟩

theorem step_cons (c : Instr) (cs : List Instr) (s : State) : step { s with pending := c :: cs } = exec c { s with pending := cs } := rfl

theorem step_nil {s : State} (h : s.pending = []) : step s = .next (idleTick s) := by
  unfold step
  rw [h]

/-- Settles O51: a step is the front command or the idle tick, and every command answers. -/
theorem stepOfTheBlock : Obligations.StepOfTheBlock := ⟨step_cons, fun _ h => step_nil h, exec_answers⟩

/-- Settles O60: a step's next state follows the state whose front command has left the queue. -/
theorem stepNeverGoesBack : Obligations.StepNeverGoesBack := by
  intro s t hs e
  obtain ⟨hpending, hout, hfree, ⟨hlc, hepoch, hfailed⟩, -⟩ := follows_step hs t e
  exact ⟨hpending, hout, hfree, hlc, hepoch, hfailed⟩

end Sys2Proof.Machine

/-! SUPPORT. Register writes: the checks that turn one away (R311–R315), and the effect by access type (R311). -/

namespace Sys2Proof.Machine

section
variable {s : State} {a : Agent} {addr : Nat} {v : W64} {x : PageKind × Nat} {r : RegDesc × Nat}

/-! ### Writes that are turned away (R311–R315) -/

theorem regWrite_unmapped (h : pageHit addr = none) : regWrite s a addr v = (.unmapped, unmapped s a addr) := by
  unfold regWrite
  rw [h]
  rfl

/-- A write of a mapped page whose address is not that of a register (R311). -/
theorem regWrite_misaligned (h : pageHit addr = some x) (h8 : addr % 8 ≠ 0) :
    regWrite s a addr v = (.size, accessRec s (pageAt addr) 0x20 0x0A02 addr) := by
  unfold regWrite
  rw [h]
  exact if_pos (bne_iff_ne.2 h8)

theorem regWrite_denied (h : pageHit addr = some x) (h8 : addr % 8 = 0) (hd : regDenied s a x.1 x.2 (offAt addr) true v = true) :
    regWrite s a addr v = (.denied, refuseAccess s a (pageAt addr) addr) := by
  unfold regWrite
  rw [h]
  exact (if_neg (by simp [h8])).trans (if_pos hd)

/-- What `regWriteReg` asks of a register before a write takes effect, apart from the guard (R311, R312). -/
theorem regTakes_unbarred (h : regTakes v r.1 = true) :
    (r.1.acc == .ro || r.1.acc == .rs || v.toNat &&& r.1.reserved != 0) = false ∧ (r.1.acc == .rwg && !guardOk v) = false := by
  unfold regTakes at h
  simp only [Bool.and_eq_true, bne_iff_ne, ne_eq, beq_iff_eq] at h
  obtain ⟨⟨⟨hro, hrs⟩, hres⟩, hg⟩ := h
  constructor
  · simp [hro, hrs, hres]
  · cases hacc : r.1.acc == .rwg <;> simp_all

/-! ### Writes that take effect, by access type (R311) -/

/-- A write-only register beyond the header takes the value whole. -/
theorem typedWrite_wo {k : PageKind} {i p off key : Nat} {d : RegDesc} (h8 : 0x80 ≤ off) (hacc : d.acc = .wo) :
    typedWrite s a k i p off key d v = pageWrite s a k i off key v := by
  unfold typedWrite
  rw [if_neg (Nat.not_lt.2 h8), hacc]
  rfl

theorem typedWrite_header {k : PageKind} {i p off key : Nat} {d : RegDesc} (h8 : off < 0x80) :
    typedWrite s a k i p off key d v = headerWrite s p key (if d.acc = .w1c then rd s key &&& ~~~(v &&& BitVec.ofNat 64 d.wmask)
      else if d.acc = .rw then merged s key d.wmask v else v) := by
  unfold typedWrite
  rw [if_pos h8]
  cases d.acc <;> rfl

end

/-- Settles O55: the checks in their order, each of which ends the write, and then the effect by the register's access type. -/
theorem registerWrites : Obligations.RegisterWrites := by
  refine ⟨?unmapped, ?size, ?denied, ?readOnly, ?guard, ?fenced, ?rw, ?whole, ?header⟩
  case unmapped =>
    rintro a addr v _ s h rfl
    exact congrArg Host.Outcome.next (writeBy_of (regWrite_unmapped h) (by decide))
  case size =>
    rintro a addr v x _ s h h8 rfl
    exact congrArg Host.Outcome.next (writeBy_of (regWrite_misaligned h h8) (by decide))
  case denied =>
    rintro a addr v x _ s h h8 hd rfl
    exact congrArg Host.Outcome.next (writeBy_of (regWrite_denied h h8 hd) (by decide))
  case readOnly =>
    rintro a addr v x _ s h h8 hd rfl hr
    refine congrArg Host.Outcome.next ((writeBy_ofok (regWrite_in h h8 hd)).trans ?_)
    cases hf : findReg (pageRegs x.1 x.2) (offAt addr) with
    | none => exact regWriteReg_none
    | some r =>
      rw [hf, Option.all_some] at hr
      exact regWriteReg_bad hr
  case guard =>
    rintro a addr v x r _ s h h8 hd rfl hf hacc hres hg
    refine congrArg Host.Outcome.next ((writeBy_ofok (regWrite_in h h8 hd)).trans ?_)
    rw [hf]
    exact regWriteReg_guard (by simp [hacc, hres]) (by simp [hacc, hg])
  case fenced =>
    rintro a addr v x r _ s h h8 hd rfl hf ht hb
    refine congrArg Host.Outcome.next ((writeBy_ofok (regWrite_in h h8 hd)).trans ?_)
    obtain ⟨hbar, hg⟩ := regTakes_unbarred ht
    rw [hf]
    exact regWriteReg_fenced hbar hg (Bool.or_eq_true_iff.2 hb)
  case rw =>
    rintro a addr v ⟨k, i⟩ ⟨d, j⟩ s h hp hr h8 hacc
    exact congrArg Host.Outcome.next ((writeBy_ok h hp hr).trans (typedWrite_rw h8 hacc rfl))
  case whole =>
    rintro a addr v ⟨k, i⟩ ⟨d, j⟩ s h hp hr h8 hacc
    exact congrArg Host.Outcome.next ((writeBy_ok h hp hr).trans (hacc.elim (typedWrite_wo h8) (typedWrite_rwg h8)))
  case header =>
    rintro a addr v ⟨k, i⟩ ⟨d, j⟩ s h hp hr h8
    exact congrArg Host.Outcome.next ((writeBy_ok h hp hr).trans (typedWrite_header h8))

end Sys2Proof.Machine

/-! SUPPORT. What a condition leaves in ERR_STAT (R310), and the contexts that the licence allows (R425). -/

namespace Sys2Proof.Machine

/-! ### One bit of a register -/

/-- A bit of a word whose low eight bits were replaced. -/
theorem bitOf_setField_low {w : W64} {n v i : Nat} (hn : n ≤ 64) (hi : i < n) : bitOf (setField w 0 n v) i = v.testBit i := by
  have h64 : i < 64 := by omega
  simp only [bitOf, setField, BitVec.testBit_toNat, BitVec.getLsbD_or, BitVec.getLsbD_and, BitVec.getLsbD_not,
    BitVec.getLsbD_ofNat, Nat.shiftLeft_zero, Nat.testBit_mod_two_pow, Nat.testBit_two_pow_sub_one, hi, h64, decide_true,
    Bool.true_and, Bool.not_true, Bool.and_false, Bool.false_or]

theorem testBit_fieldOf_low {w : W64} {n i : Nat} (hi : i < n) : (fieldOf w 0 n).testBit i = bitOf w i := by
  simp only [fieldOf, fieldNat, bitOf, Nat.shiftRight_zero, Nat.testBit_mod_two_pow, hi, decide_true, Bool.true_and]

/-! ### ERR_STAT (R310) -/

/-- The ERR_STAT register of a page. -/
def errStat (p : Nat) : Nat := pageBase p + 0x20

theorem raise_regs (s : State) (n : Nat) : (raise s n).regs = s.regs := rfl

theorem raiseIfNew_regs (s t : State) (n : Nat) : (raiseIfNew s t n).regs = t.regs := by
  unfold raiseIfNew
  split
  · exact raise_regs t n
  · rfl

theorem noteEvent_regs (s : State) (c : Nat) : (noteEvent s c).regs = s.regs := by
  unfold noteEvent
  split <;> rfl

theorem nameCluster_regs (s : State) (p c : Nat) (i : RecInfo) : (nameCluster s p c i).regs = s.regs := by
  unfold nameCluster
  split
  · split
    · dsimp only
      split <;> rfl
    · rfl
  · rfl

/-- A word of an error report that is no ERR_STAT: ERR_FIRST, ERR_COUNT and LOG_OVERFLOW lie at other offsets. -/
theorem rd_errStat_wr_ne (s : State) {q k : Nat} (v : W64) (hk : k % 0x1000 ≠ 0x20) : rd (wr s k v) (errStat q) = rd s (errStat q) := by
  refine rd_wr_ne s v fun h => hk ?_
  rw [← h, errStat, pageBase, regBase]
  omega

/-- A condition sets its bits in the ERR_STAT of its page, and changes no other page's. -/
theorem rd_errStat_errSet (s : State) (p q bits code : Nat) :
    rd (errSet s p bits code) (errStat q) =
      if q = p then setField (rd s (errStat p)) 0 8 (rdF s (errStat p) 0 8 ||| bits) else rd s (errStat q) := by
  have hmod (o : Nat) (ho : o < 0x1000) (hne : o ≠ 0x20) : (pageBase p + o) % 0x1000 ≠ 0x20 := by
    rw [pageBase, regBase]; omega
  set s1 := if rdF s (errStat p) 0 8 = 0 then wr s (pageBase p + 0x30) (BitVec.ofNat 64 ((code <<< 32) + now s % 2 ^ 32)) else s with hs1
  have h1 (k : Nat) : rd s1 (errStat k) = rd s (errStat k) := by
    rw [hs1]
    split
    · exact rd_errStat_wr_ne s _ (hmod 0x30 (by decide) (by decide))
    · rfl
  set s2 := wrF s1 (errStat p) 0 8 (rdF s (errStat p) 0 8 ||| bits) with hs2
  have h2 : rd s2 (errStat q) = if q = p then setField (rd s (errStat p)) 0 8 (rdF s (errStat p) 0 8 ||| bits) else rd s (errStat q) := by
    split
    · next h => rw [h, hs2, rd_wrF_self, h1]
    · next h => rw [hs2, rd_wrF_ne s1 _ _ _ (by rw [errStat, errStat, pageBase, pageBase]; omega), h1]
  rw [← h2]
  have h3 (v : W64) : rd (wr s2 (pageBase p + 0x38) v) (errStat q) = rd s2 (errStat q) :=
    rd_errStat_wr_ne s2 v (hmod 0x38 (by decide) (by decide))
  unfold errSet
  dsimp only
  split
  · exact (rd_congr (raiseIfNew_regs _ _ _) _).trans (h3 _)
  · exact h3 _

/-- A bit that stands in an ERR_STAT stays there, whatever condition is noted. -/
theorem errSet_keeps {s : State} {p q bits code n : Nat} (hn : n < 8) (h : rdB s (errStat q) n = true) :
    rdB (errSet s p bits code) (errStat q) n = true := by
  rw [rdB, rd_errStat_errSet]
  split
  · next hq =>
    subst hq
    rw [bitOf_setField_low (by decide) hn, Nat.testBit_or, rdF, testBit_fieldOf_low hn, show bitOf _ n = true from h, Bool.true_or]
  · exact h

theorem errSet_sets {s : State} {p bits code n : Nat} (hn : n < 8) (h : bits.testBit n = true) :
    rdB (errSet s p bits code) (errStat p) n = true := by
  rw [rdB, rd_errStat_errSet, if_pos rfl, bitOf_setField_low (by decide) hn, Nat.testBit_or, h, Bool.or_true]

theorem logOverflow_errStat (s : State) (q : Nat) : rd (logOverflow s) (errStat q) = rd s (errStat q) :=
  (rd_congr (raise_regs _ _) _).trans (rd_errStat_wr_ne s _ (by decide))

theorem enqueueRec_errStat (s : State) (p q : Nat) (r : Record) : rd (enqueueRec s p r).1 (errStat q) = rd s (errStat q) := by
  unfold enqueueRec
  dsimp only
  split
  · rfl
  · exact logOverflow_errStat s q

theorem report0_keeps {s : State} {p q bits code n : Nat} {i : RecInfo} (hn : n < 8) (h : rdB s (errStat q) n = true) :
    rdB (report0 s p bits code i) (errStat q) n = true := by
  unfold report0
  dsimp only
  rw [rdB, rd_congr (nameCluster_regs _ _ _ _)]
  refine errSet_keeps hn ?_
  rw [rdB, enqueueRec_errStat, rd_congr (noteEvent_regs _ _)]
  exact h

theorem satCheck_keeps {s t : State} {p q n : Nat} (hn : n < 8) (h : rdB t (errStat q) n = true) :
    rdB (satCheck s t p) (errStat q) n = true := by
  have saturated_keeps {u : State} {a : Nat} (hu : rdB u (errStat q) n = true) : rdB (saturated u a) (errStat q) n = true :=
    report0_keeps hn hu
  unfold satCheck
  dsimp only
  split
  · split
    · exact saturated_keeps (saturated_keeps h)
    · exact saturated_keeps h
  · split
    · exact saturated_keeps h
    · exact h

/-- A condition sets each of its bits in ERR_STAT. -/
theorem setErr_sets {s : State} {p bits n : Nat} (hn : n < 8) (h : bits.testBit n = true) :
    rdB (setErr s p bits) (errStat p) n = true := satCheck_keeps hn (errSet_sets hn h)

theorem ignored_sets (s : State) (p : Nat) : rdB (ignored s p) (pageBase p + 0x20) 3 = true := setErr_sets (by decide) (by decide)

section
variable {s : State} {a : Agent} {v : W64}

/-! ### Contexts above the licensed count (R425) -/

theorem findReg_resCtx (t : Nat) (r : Fin 8) :
    findReg (scratchRegs t) (0x140 + 8 * r.val) = some (regGs 0x140 8 8 [(8, 1), (0, 8)], r.val) := by
  fin_cases r <;> rfl

theorem findReg_hbSendCtx (m : Fin 4) : findReg hornbeamRegs (0x120 + 8 * m.val) = some (regRWs 0x120 4 8 [(0, 64)], m.val) := by
  revert m; decide

theorem write_resCtx {t : TileId} {r : Fin 8} (h : writeOk s a (spReg t (0x140 + 8 * r.val)) v = true) :
    writeBy s a (spReg t (0x140 + 8 * r.val)) v = bindWrite s t r v (a == .hornbeam) := by
  have ho : 0x140 + 8 * r.val < 0x1000 := by omega
  have h8 : 0x80 ≤ 0x140 + 8 * r.val := by omega
  have hin : (decide (0x140 ≤ 0x140 + 8 * r.val) && decide (0x140 + 8 * r.val < 0x180)) = true := by
    simp only [Bool.and_eq_true, decide_eq_true_eq]; omega
  have hr : (0x140 + 8 * r.val - 0x140) / 8 = r.val := by omega
  unfold spReg at *
  rw [regWrite_tile (x := .scratch) t.isLt (by decide) ho h rfl ((findReg_headerRegs_append (scratchRegs t) h8).trans (findReg_resCtx t r)),
    typedWrite_rwg h8 rfl]
  show padWrite s t _ v _ = _
  rw [padWrite, if_neg (by omega), if_neg (by omega), if_neg (by omega), if_pos hin, hr]

/-- A binding of a context that the licence does not allow is ignored. -/
theorem bindWrite_unlicensed {t r : Nat} {hb : Bool} (hv : bitOf v 8 = true) (hl : licensedContexts s ≤ fieldOf v 0 8) :
    bindWrite s t r v hb = ignored s (spPage t) := by
  have hn : ¬ fieldOf v 0 8 < licensedContexts s := Nat.not_lt.2 hl
  unfold bindWrite resCtxWrite
  simp only [hv, hn, hl, decide_true, decide_false, Bool.and_false, Bool.false_and, Bool.false_eq_true, Bool.true_or, Bool.and_true,
    if_true, if_false]

theorem write_hbSendCtx {m : Fin 4} (h : writeOk s a (hbReg (0x120 + 8 * m.val)) v = true) :
    writeBy s a (hbReg (0x120 + 8 * m.val)) v = ctxSetWrite s (devPage 7) (hbReg (0x120 + 8 * m.val)) 1 m.val v := by
  have h8 : 0x80 ≤ 0x120 + 8 * m.val := by omega
  have hin : (decide (0x120 ≤ 0x120 + 8 * m.val) && decide (0x120 + 8 * m.val < 0x140)) = true := by
    simp only [Bool.and_eq_true, decide_eq_true_eq]; omega
  have hm : (0x120 + 8 * m.val - 0x120) / 8 = m.val := by omega
  unfold hbReg at *
  rw [regWrite_dev (x := .hornbeam) (i := 0) (by omega) h rfl ((findReg_headerRegs_append hornbeamRegs h8).trans (findReg_hbSendCtx m)),
    typedWrite_rw (m := 0xFFFFFFFFFFFFFFFF) h8 rfl rfl, merged, merged_all]
  show hornbeamWrite s _ v = _
  rw [hornbeamWrite, if_neg (by omega), if_pos hin, hm]
  rfl

/-- A set that names a context which the licence does not allow is ignored. -/
theorem ctxSetWrite_unlicensed {page key t m : Nat} {i : Fin 64} (hb : bitOf v i = true) (hl : licensedContexts s ≤ 64 * m + i.val) :
    ctxSetWrite s page key t m v = ignored s page := by
  unfold ctxSetWrite
  rw [if_pos]
  exact List.any_eq_true.2 ⟨i.val, List.mem_range.2 i.isLt, by rw [hb, decide_eq_true hl]; rfl⟩

end

/-- Settles O53: the counts by the licence's variant, and each register's own rule for a context above its count. -/
theorem licensedContexts_above_ignored : Obligations.LicensedContexts := by
  refine ⟨?full, ?standard, ?entry, ?binding, ?gorbin, ?hornbeam, ?bit⟩
  case full =>
    intro s h
    rw [licensedContexts, h]
    rfl
  case standard =>
    intro s h
    rw [licensedContexts, h]
    rfl
  case entry =>
    intro s h
    rw [licensedContexts, h]
    rfl
  case binding =>
    exact fun a t r v s h hv hl => congrArg Host.Outcome.next ((write_resCtx h).trans (bindWrite_unlicensed hv hl))
  case gorbin =>
    exact fun a m i v s h hb hl => congrArg Host.Outcome.next ((write_gbSendCtx h).trans (ctxSetWrite_unlicensed hb hl))
  case hornbeam =>
    exact fun a m i v s h hb hl => congrArg Host.Outcome.next ((write_hbSendCtx h).trans (ctxSetWrite_unlicensed hb hl))
  case bit => exact fun s p _ => ignored_sets s p

end Sys2Proof.Machine

/-! SUPPORT. Power states (R446–R454), late exits (R455), and the readings of voltage and temperature (R456–R461). -/

namespace Sys2Proof.Machine

section
variable {s : State} {c : ClusterId}

/-! ### The evaluation, and cluster states (R446–R448, R454) -/

theorem exec_powerEval {u : State} (hu : u = each (List.range 288) evalCluster (each (List.range 288) noteIdle s)) :
    exec .powerEval s = .next (if timedWake s then wakeDevice u else evalDevice u) := by
  subst hu
  rfl

/-- An entry into C3 takes place while the cluster may still lose its state. -/
theorem exec_clusterEntryComplete_off {u : State} (he : mapFind c.val s.power.entering = some 3) (hm : mayTurnOff s c = true)
    (hu : u = { s with power := { s.power with entering := mapErase c s.power.entering } }) :
    exec (.clusterEntryComplete c) s = .next (incWrap (wrF (turnOff u c) (clStat c) 0 2 3) (clusterReg c 0x088) 1) := by
  show execClusterEntryComplete c s = _
  unfold execClusterEntryComplete
  simp only [he, hm, hu, if_true]

theorem exec_clusterEntryComplete_retain {u : State} {st : Nat} (he : mapFind c.val s.power.entering = some st) (hst : st ≠ 3)
    (hu : u = { s with power := { s.power with entering := mapErase c s.power.entering } }) :
    exec (.clusterEntryComplete c) s = .next (incWrap (wrF (retainBanks u c) (clStat c) 0 2 2) (clusterReg c 0x080) 1) := by
  show execClusterEntryComplete c s = _
  unfold execClusterEntryComplete
  simp only [he, hst, hu, if_false]

/-- A cluster in C2 or C3 that does not wake yet begins its exit. -/
theorem wakeCluster_asleep {k : Nat} {u v : State} (hp : 2 ≤ clusterPower s k) (hw : clWaking s k = false)
    (hu : u = { s with power := { s.power with entering := mapErase k s.power.entering, idle := mapErase k s.power.idle } })
    (hv : v = incWrap (wrB { u with power := { u.power with waking := mapInsert k (now s) (mapErase k u.power.waking) } } (clStat k) 3 true)
      (clusterReg k 0x090) 1) :
    wakeCluster s k = wakeDevice (if clusterPower s k = 3
      then each (tilesOf k) drainLocal (reload v ((tilesOf k).filter (fun t => !tileFenced v t))) else v) := by
  unfold wakeCluster
  rw [hw, Bool.or_false, decide_eq_false (Nat.not_lt.2 hp), hv, hu]
  rfl

/-- Any other cluster abandons at most an entry. -/
theorem wakeCluster_awake {k : Nat} (h : clusterPower s k < 2 ∨ clWaking s k = true) : wakeCluster s k =
    { s with power := { s.power with entering := mapErase k s.power.entering, idle := mapErase k s.power.idle } } :=
  if_pos (by rcases h with h | h <;> simp [h])

/-- The exit from C2 ends with the banks as BANK_PWR asks. -/
theorem exec_clusterWakeComplete_retained {d : Nat} {u : State} (hw : mapFind c.val s.power.waking = some d)
    (hp : clusterPower s c ≠ 3)
    (hu : u = wrB (wrF { s with power := { s.power with waking := mapErase c s.power.waking, idle := mapErase c s.power.idle } }
      (clStat c) 0 2 0) (clStat c) 3 false) :
    exec (.clusterWakeComplete c) s = .next (lateExit (each (tilesOf c) drainLocal (restoreBanks u c)) d 3000) := by
  have hoff : (clusterPower s c == 3) = false := beq_eq_false_iff_ne.2 hp
  show execClusterWakeComplete c s = _
  unfold execClusterWakeComplete
  simp only [hw, hoff, hu, Bool.false_and, Bool.false_eq_true, if_false]

/-- The exit from C3 ends once the firmware is complete, with the tiles out of reset. -/
theorem exec_clusterWakeComplete_off {d : Nat} {u : State} (hw : mapFind c.val s.power.waking = some d)
    (hp : clusterPower s c = 3) (hr : s.boot.refill.isEmpty = true) (hf : (tilesOf c).all (fwReady s) = true)
    (hu : u = wrB (wrF { s with power := { s.power with waking := mapErase c s.power.waking, idle := mapErase c s.power.idle } }
      (clStat c) 0 2 0) (clStat c) 3 false) :
    exec (.clusterWakeComplete c) s =
      .next (lateExit (each (tilesOf c) drainLocal (setDestReset (powerBanks u c) (tilesOf c) false)) d 1040000) := by
  have hoff : (clusterPower s c == 3) = true := beq_iff_eq.2 hp
  show execClusterWakeComplete c s = _
  unfold execClusterWakeComplete
  simp only [hw, hoff, hr, hf, hu, Bool.and_self, Bool.not_true, Bool.and_false, Bool.false_eq_true, if_true, if_false]

/-! ### Device states (R449–R452) -/

theorem wakeDevice_asleep {u : State} (hp : devState s ≠ 0) (hw : devWaking s = false)
    (hu : u = { s with power := { s.power with devEnter := none, allIdle := 0 } }) :
    wakeDevice s = incWrap (wrB { u with power := { u.power with devWake := some (now s) } } (pwReg 0x108) 2 true) (pwReg 0x088) 1 := by
  unfold wakeDevice
  rw [hw, Bool.or_false, decide_eq_false hp, hu]
  rfl

theorem wakeDevice_awake (h : devState s = 0 ∨ devWaking s = true) :
    wakeDevice s = { s with power := { s.power with devEnter := none, allIdle := 0 } } :=
  if_pos (by rcases h with h | h <;> simp [h])

theorem exec_deviceWakeComplete {d : Nat} {u v : State} (hw : s.power.devWake = some d)
    (hu : u = fromSelfRefresh (loudLanes (wrB (wrF { s with power := { s.power with devWake := none } } (pwReg 0x108) 0 2 0)
      (pwReg 0x108) 2 false)))
    (hv : v = if devState s = 3 then each (List.range 288) wakeCluster u else u) :
    exec .deviceWakeComplete s =
      .next (lateExit v d (if devState s = 1 then 1000 else if devState s = 2 then 30000 else 20000000)) := by
  show execDeviceWakeComplete s = _
  unfold execDeviceWakeComplete
  simp only [hw, hu, hv]

/-- An entry into P1 or P2 quiets the lanes, and P2 puts the channels in self-refresh. -/
theorem exec_deviceEntryComplete_light {p : Nat} {u v : State} (he : s.power.devEnter = some p) (hp : p < 3)
    (hu : u = incWrap (wrF { s with power := { s.power with devEnter := none } } (pwReg 0x108) 0 2 p) (pwReg 0x080) 1)
    (hv : v = if u.power.quiet then u else sayLanes { u with power := { u.power with quiet := true } } true) :
    exec .deviceEntryComplete s = .next (if p = 2 then toSelfRefresh v else v) := by
  have h3 : p ≠ 3 := Nat.ne_of_lt hp
  have h2 : 2 ≤ p ↔ p = 2 := by omega
  show execDeviceEntryComplete s = _
  unfold execDeviceEntryComplete
  simp only [he, h3, h2, hu, hv, decide_false, Bool.or_false, if_false]

/-- An entry into P3 ends the debug session and takes the links down. -/
theorem exec_deviceEntryComplete_deep {u v w : State} (he : s.power.devEnter = some 3)
    (hu : u = toSelfRefresh (incWrap (wrF { s with power := { s.power with devEnter := none } } (pwReg 0x108) 0 2 3) (pwReg 0x080) 1))
    (hv : v = each (List.range 14) (fun y q => if portRuns y q then linkLost y q 4 else y) (endSession u 3))
    (hw : w = if gbUp v then gbLost v 4 else v) :
    exec .deviceEntryComplete s = .next { w with power := { v.power with quiet := false } } := by
  have hle : 2 ≤ 3 := by decide
  show execDeviceEntryComplete s = _
  unfold execDeviceEntryComplete
  simp only [he, hle, hu, hv, hw, decide_true, Bool.or_true, if_true]

end

/-- Settles O46: each command by its own meaning, an entry by the state it leads to, and the tolerances through the page. -/
theorem powerStates : Obligations.PowerStates := by
  refine ⟨?eval, ?evalTimed, ?entryOff, ?entryRetain, ?wake, ?awake, ?exitRetained, ?exitOff, ?deviceWake, ?deviceAwake, ?deviceExit,
    ?light, ?deep, ?tolerance, ?ctxTolerance⟩
  case eval =>
    intro u s ht hu
    rw [exec_powerEval hu, ht, if_neg Bool.false_ne_true]
  case evalTimed =>
    intro u s ht hu
    rw [exec_powerEval hu, ht, if_pos rfl]
  case entryOff => exact fun c u s he hm hu => exec_clusterEntryComplete_off he hm hu
  case entryRetain => exact fun c st u s he hst hu => exec_clusterEntryComplete_retain he hst hu
  case wake => exact fun c v u s hp hw hu hv => congrArg Host.Outcome.next (wakeCluster_asleep hp hw hu hv)
  case awake =>
    rintro c _ s h rfl
    exact congrArg Host.Outcome.next (wakeCluster_awake h)
  case exitRetained => exact fun c d u s hw hp hu => exec_clusterWakeComplete_retained hw hp hu
  case exitOff => exact fun c d u s hw hp hr hf hu => exec_clusterWakeComplete_off hw hp hr hf hu
  case deviceWake => exact fun u s hp hw hu => congrArg Host.Outcome.next (wakeDevice_asleep hp hw hu)
  case deviceAwake => exact fun s h => congrArg Host.Outcome.next (wakeDevice_awake h)
  case deviceExit => exact fun d u v s hw hu hv => exec_deviceWakeComplete hw hu hv
  case light => exact fun p u v s he hp hu hv => exec_deviceEntryComplete_light he hp hu hv
  case deep => exact fun w u v s he hu hv hw => exec_deviceEntryComplete_deep he hu hv hw
  case tolerance =>
    intro a us s h
    show Host.Outcome.next (writeNum s a (pwReg 0x110) us.toNat) = _
    rw [write_pwDev h]
  case ctxTolerance =>
    rintro a c us _ s h rfl h2
    show Host.Outcome.next (writeNum (writeNum s a (pwReg 0x118) c) a (pwReg 0x120) us.toNat) = _
    rw [write_pwIndex h, write_pwCtx h2 (pwIndex_indexed c.isLt)]

/-- Settles O54: an exit's end is judged against the latency of the state that it left. -/
theorem lateExits : Obligations.LateExits := by
  refine ⟨?retained, ?off, ?device⟩
  case retained =>
    intro c d u v s hw hp hu hv
    rw [exec_clusterWakeComplete_retained hw hp hu, ← hv, lateExit_eq]
  case off =>
    intro c d u v s hw hp hr hf hu hv
    rw [exec_clusterWakeComplete_off hw hp hr hf hu, ← hv, lateExit_eq]
  case device =>
    intro d limit u v s hw hl hu hv
    have hlimit : (if devState s = 1 then 1000 else if devState s = 2 then 30000 else 20000000) = limit := by
      rcases hl with ⟨hp, rfl⟩ | ⟨hp, rfl⟩ | ⟨hp, rfl⟩ <;> rw [hp] <;> rfl
    rw [exec_deviceWakeComplete hw hu hv, hlimit, lateExit_eq]

section
variable {s : State}

/-! ### Readings (R456–R461) -/

theorem exec_segmentStep {g : Fin 8} {supplied : Fin 65536} {n : Nat} {u v : State}
    (hn : n = if segReq s g < segTarget s g then min (segTarget s g) (segReq s g + 25) else max (segTarget s g) (segReq s g - 25))
    (hu : u = { s with power := { s.power with
      req := mapPut (fun _ => 7750) s.power.req g n
      settled := mapPut (fun _ => 0) s.power.settled g (if n = segTarget s g
        then (if mapGet (fun _ => 0) s.power.settled g = 0 then now s + 1 else mapGet (fun _ => 0) s.power.settled g) else 0) } })
    (hv : v = each ((segClusters g).filter (fun c => rdB s (clStat c) 4 && setVolt s c + 250 ≤ 10 * supplied.val))
      (fun y c => wrB y (clStat c) 4 false) (wr u (pwReg (0x180 + 8 * g.val)) (BitVec.ofNat 64 (place 16 16 supplied.val + n / 10)))) :
    exec (.segmentStep g supplied) s = .next (
      if segReq s g / 10 ≠ n / 10 ∧ rdB s (devReg 15 0x100) 0 = true then emit v (.ibi (0x20 + g.val)) else v) := by
  subst hn hu hv
  show execSegmentStep g supplied s = _
  unfold execSegmentStep
  simp only [Bool.and_eq_true, bne_iff_ne]

/-- The published reading, with the highest kept and a trip released (R458, R461). -/
theorem exec_tempPublish {c : ClusterId} {temp : Fin 65536} {mv : Fin 16384} {t : Int} {u v : State} (ht : t = signedOf 16 temp)
    (hu : u = wrF (wr s (clusterReg c 0x190) (BitVec.ofNat 64 (place 16 16 (patternOf 16
      (max (signedOf 16 (rdF s (clusterReg c 0x190) 16 16)) t)) + temp.val))) (clStat c) 26 14 mv)
    (hv : v = noteHour u c (fun h => { h with hot := max h.hot (t / 10) })) :
    exec (.tempPublish c temp mv) s = .next (
      noteReading (if t < Int.ofNat (10 * rdF s (pwReg 0x100) 28 8) - 100 then wrB v (clStat c) 5 false else v) c mv) := by
  subst ht hu hv
  rfl

/-- A segment whose request settled 500 µs ago and that still lacks headroom is recorded (R457). -/
theorem exec_headroomLow {c : ClusterId} {d : Nat} (hd : d = mapGet (fun _ => 0) s.power.settled (segmentOf c)) (h0 : d ≠ 0)
    (ht : d - 1 + 500000 ≤ now s) (hh : 10 * rdF s (pwReg (0x180 + 8 * segmentOf c)) 16 16 < setVolt s c + 250) :
    exec (.headroomLow c) s = .next (
      reportLimited (wrB s (clStat c) 4 true) (clusterPage c) 0 0x1006 (limitKey 20 c 0) (now s / 1000000)) := by
  subst hd
  show execHeadroomLow c s = _
  unfold execHeadroomLow
  simp only [bne_iff_ne.2 h0, ht, hh, decide_true, Bool.and_self, if_true]

/-- A cluster that reaches its critical temperature trips once (R461). -/
theorem exec_thermTrip {c : ClusterId} (ht : Int.ofNat (10 * rdF s (pwReg 0x100) 28 8) ≤ clusterTemp s c)
    (h5 : rdB s (clStat c) 5 = false) :
    exec (.thermTrip c) s = .next (raise (report (wrB s (clStat c) 5 true) (clusterPage c) 0x1005) 382) := by
  refine congrArg Host.Outcome.next (if_pos ?_)
  rw [h5, decide_eq_true ht]
  rfl

end

/-- Settles O47: each command by its own meaning. -/
theorem powerReadings : Obligations.PowerReadings := by
  refine ⟨?temperature, ?segment, ?headroom, ?throttle, ?trip⟩
  case temperature => exact fun c temp mv t u v s ht hu hv => exec_tempPublish ht hu hv
  case segment => exact fun g supplied n u v s hn hu hv => exec_segmentStep hn hu hv
  case headroom => exact fun c d s hd h0 ht hh => exec_headroomLow hd h0 ht hh
  case throttle =>
    rintro watts _ s rfl
    rfl
  case trip => exact fun c s ht h5 => exec_thermTrip ht h5

end Sys2Proof.Machine

/-! SUPPORT. The interrupt controller (R323–R328): events, hold-offs, IC_DONE and IC_SW. -/

namespace Sys2Proof.Machine

/-! ### A field placed above a number that fits below it -/

theorem toNat_place_add {k n x y : Nat} (hx : x < 2 ^ n) (hy : y < 2 ^ k) (h64 : k + n ≤ 64) :
    (BitVec.ofNat 64 (place k n x + y)).toNat = x * 2 ^ k + y := by
  have hpow : 2 ^ k * 2 ^ n ≤ 2 ^ 64 := by rw [← Nat.pow_add]; exact Nat.pow_le_pow_right (by decide) h64
  have hlt : x * 2 ^ k + y < 2 ^ 64 := by
    calc x * 2 ^ k + y < x * 2 ^ k + 2 ^ k := Nat.add_lt_add_left hy _
      _ = (x + 1) * 2 ^ k := (Nat.succ_mul x _).symm
      _ ≤ 2 ^ n * 2 ^ k := Nat.mul_le_mul_right _ hx
      _ ≤ 2 ^ 64 := Nat.mul_comm (2 ^ k) _ ▸ hpow
  rw [BitVec.toNat_ofNat, place, Nat.mod_eq_of_lt hx, Nat.shiftLeft_eq, Nat.mod_eq_of_lt hlt]

theorem fieldOf_place_high {k n x y : Nat} (hx : x < 2 ^ n) (hy : y < 2 ^ k) (h64 : k + n ≤ 64) :
    fieldOf (BitVec.ofNat 64 (place k n x + y)) k n = x := by
  rw [fieldOf, fieldNat, toNat_place_add hx hy h64, Nat.shiftRight_eq_div_pow, Nat.mul_comm, Nat.mul_add_div (Nat.two_pow_pos k),
    Nat.div_eq_of_lt hy, Nat.add_zero, Nat.mod_eq_of_lt hx]

theorem fieldOf_place_low {k n m x y : Nat} (hx : x < 2 ^ n) (hy : y < 2 ^ m) (hm : m ≤ k) (h64 : k + n ≤ 64) :
    fieldOf (BitVec.ofNat 64 (place k n x + y)) 0 m = y := by
  obtain ⟨d, rfl⟩ := Nat.exists_eq_add_of_le hm
  have hyk : y < 2 ^ (m + d) := Nat.lt_of_lt_of_le hy (Nat.pow_le_pow_right (by decide) hm)
  rw [fieldOf, fieldNat, toNat_place_add hx hyk h64, Nat.shiftRight_zero, Nat.pow_add, Nat.mul_left_comm, Nat.mul_add_mod,
    Nat.mod_eq_of_lt hy]

section
variable {s : State} {a : Agent}

/-! ### IC_DONE and IC_SW -/

theorem findReg_icDone (t : Fin 4) :
    findReg icRegs (0x308 + 0x10 * t.val) = some (regWO (0x308 + 0x10 * t.val) [(32, 5), (0, 16)], 0) := by
  revert t; decide

/-- IC_DONE of a target names a group and sources of it (R325). -/
theorem write_icDone {t : Fin 4} {g : Fin 32} {mask : Fin 65536}
    (h : writeOk s a (icReg (0x308 + 0x10 * t.val)) (BitVec.ofNat 64 (place 32 5 g.val + mask.val)) = true) :
    writeNum s a (icReg (0x308 + 0x10 * t.val)) (place 32 5 g.val + mask.val) = icDone s t g mask := by
  have h8 : 0x80 ≤ 0x308 + 0x10 * t.val := by omega
  have hin : (decide (0x300 ≤ 0x308 + 0x10 * t.val) && decide (0x308 + 0x10 * t.val < 0x340)) = true := by
    simp only [Bool.and_eq_true, decide_eq_true_eq]; omega
  have hen : ¬(decide (0x200 ≤ 0x308 + 0x10 * t.val) && decide (0x308 + 0x10 * t.val < 0x300)) = true := by
    simp only [Bool.and_eq_true, decide_eq_true_eq]; omega
  have ht : (0x308 + 0x10 * t.val - 0x308) / 0x10 = t.val := by omega
  have hmask : mask.val < 2 ^ 16 := mask.isLt
  show writeBy _ _ _ _ = _
  unfold icReg at *
  rw [regWrite_dev (x := .ic) (i := 0) (by omega) h rfl ((findReg_headerRegs_append icRegs h8).trans (findReg_icDone t)),
    typedWrite_wo h8 rfl]
  show icWrite s _ _ = _
  rw [icWrite, if_neg (by omega), if_neg (by omega), if_neg hen, if_pos hin, ht, fieldOf_place_high g.isLt (by omega) (by decide),
    fieldOf_place_low g.isLt hmask (by decide) (by decide)]

theorem write_icSw {hi : Bool} {v : W64} (h : writeOk s a (icReg (if hi then 0x188 else 0x180)) v = true) :
    writeBy s a (icReg (if hi then 0x188 else 0x180)) v = icSw s (if hi then 7 else 6) v := by
  unfold icReg at *
  cases hi
  · exact (regWrite_dev (x := .ic) (i := 0) (by decide) h rfl rfl).trans (typedWrite_wo (by decide) rfl)
  · exact (regWrite_dev (x := .ic) (i := 0) (by decide) h rfl rfl).trans (typedWrite_wo (by decide) rfl)

/-! ### Hold-offs (R327) -/

/-- A window that is over presents its group's pending sources, and a new one opens when one became pending in it. -/
theorem holdEnds_over {u : State} {g : Nat} (h0 : mapGet (fun _ => 0) s.irq.holdEnd g ≠ 0)
    (he : mapGet (fun _ => 0) s.irq.holdEnd g ≤ now s)
    (hu : u = wrB { s with irq := { s.irq with
      holdEnd := mapPut (fun _ => 0) s.irq.holdEnd g 0, duringHold := mapPut (fun _ => false) s.irq.duringHold g false
      pres := (((List.range 16).map (fun i => 16 * g + i)).filter (fun n => s.irq.pend.getLsbD n)).foldl
        (fun p n => p ||| BitVec.ofNat 512 (2 ^ n)) s.irq.pres } } (icReg (0x400 + 8 * g)) 16 false) :
    holdEnds s g = if mapGet (fun _ => false) s.irq.duringHold g then icHold u g (mapGet (fun _ => 0) s.irq.holdEnd g) else u := by
  unfold holdEnds
  rw [hu, if_neg (by simp [h0, Nat.not_lt.2 he])]

end

/-- Settles O32: an event by its arrival, the two registers by the page's rule, and the end of a hold-off by its group's window. -/
theorem interruptController : Obligations.InterruptController := by
  refine ⟨?event, ?done, ?swLow, ?swHigh, ?again, ?ended⟩
  case event => exact fun n s h => congrArg Host.Outcome.next (if_pos h)
  case done => exact fun a t g mask s h => congrArg Host.Outcome.next (write_icDone h)
  case swLow => exact fun a v s h => congrArg Host.Outcome.next (write_icSw (hi := false) h)
  case swHigh => exact fun a v s h => congrArg Host.Outcome.next (write_icSw (hi := true) h)
  case again =>
    intro g u s h0 he hd hu
    show Host.Outcome.next (icEval (holdEnds s g)) = _
    rw [holdEnds_over h0 he hu, if_pos hd]
  case ended =>
    intro g u s h0 he hd hu
    show Host.Outcome.next (icEval (holdEnds s g)) = _
    rw [holdEnds_over h0 he hu, if_neg (Bool.eq_false_iff.1 hd)]

end Sys2Proof.Machine

/-! SUPPORT. Step commit (R331–R361): votes, decisions, lost paths, and the registers of a context. -/

namespace Sys2Proof.Machine

section
variable {s : State}

/-! ### Votes (R339–R343) -/

/-- A step-end token at the head of STEP_Q is held when it carries the step's value, and is a program fault otherwise. -/
theorem exec_stepEndToken {t : TileId} {c : CtxId} {m : Msg} {u : State} (hs : stepped s c = true)
    (hc : csState s c = 1 ∨ csState s c = 2) (he : endHeld s t c = false) (hv : voteHeld s t c = false) (hr : tileRuns s t = true)
    (hstop : ctxStopped s t c = false) (hq : qState s t (csCfg s c 16 8) ≠ 0) (hread : qRead s t (csCfg s c 16 8) = true)
    (ho : qOwner s t (csCfg s c 16 8) = c.val) (hm : headMsg s t (csCfg s c 16 8) = some (m, u)) (hk : (msgToken m).kind = 1) :
    exec (.stepEndToken t c) s = .next (if (msgToken m).value = stepOf s c % 65536 then setEndHeld u t c true
      else programFault u t 4 c 0x0B05 (csCfg s c 16 8)) := by
  have hopen : (csState s c == 1 || csState s c == 2) = true := by rcases hc with h | h <;> rw [h] <;> rfl
  have hclosed : (qState s t (csCfg s c 16 8) == 0) = false := beq_eq_false_iff_ne.2 hq
  show execStepEndToken t c s = _
  unfold execStepEndToken
  simp only [hs, hopen, he, hv, hr, hstop, hclosed, hread, ho, hm, hk, bne_self_eq_false, Bool.not_true, Bool.or_self,
    Bool.false_eq_true, if_false, bne_iff_ne, ne_eq, ite_not]

/-- A tile whose token is held and whose work is idle votes with its slot's bits. -/
theorem exec_tileVote {t : TileId} {c : CtxId} {r : Nat} (he : endHeld s t c = true) (hi : stepIdle s t c = true)
    (hr : slotOfCtx s t c = some r) :
    exec (.tileVote t c) s = .next (tileVote (setEndHeld (release s t (csCfg s c 16 8)) t c false) t c
      ((slotFlags s t r).testBit 0) ((slotFlags s t r).testBit 1)) := by
  show execTileVote t c s = _
  unfold execTileVote
  simp only [he, hi, hr, Bool.and_self, if_true]

theorem exec_blockVote {c : CtxId} (hs : stepped s c = true) (hc : csState s c = 1) (hv : (attOf s c).voted = false)
    (hn : csCfg s c 48 13 ≤ (attOf s c).notices.length) :
    exec (.blockVote c) s = .next (blockVote s c (!isDirty s c) true) :=
  congrArg Host.Outcome.next (if_pos (by simp [hs, hc, hv, hn]))

/-- A dirty mark counts against the open step, and against the next one after the block's vote. -/
theorem exec_dirtySet {c : CtxId} {u : State} (hd : s.commit.dirtyReq.contains c.val = true)
    (hu : u = { s with commit := { s.commit with dirtyReq := s.commit.dirtyReq.erase c.val } }) :
    exec (.dirtySet c) s = .next (if (attOf u c).voted && csState u c != 1 then setAtt u c { attOf u c with dirtyNext := true }
      else wrB u (csCtx c 0x1A0) 10 true) := by
  subst hu
  exact congrArg Host.Outcome.next (if_pos hd)

theorem exec_voteComplete {root : TileId} {p : Ctrl} {u : State} (hp : p.type = 0x0C)
    (ht : takeEjected s root (.ctrl p) = some u) (hs : stepped u p.context = true)
    (hc : csState u p.context = 1 ∨ csState u p.context = 2) (he : oldEpoch u p.context p.ctxEpoch = false) :
    exec (.voteComplete root p) s = .next (decide343 u p.context p.words) := by
  have hopen : (csState u p.context == 1 || csState u p.context == 2) = true := by rcases hc with h | h <;> rw [h] <;> rfl
  show execVoteComplete root p s = _
  unfold execVoteComplete
  simp only [hp, ht, hs, hopen, he, bne_self_eq_false, Bool.not_true, Bool.or_self, Bool.false_eq_true, if_false]

end

/-- Settles O33: each command in the case that its conditions single out. -/
theorem stepVotes : Obligations.StepVotes := by
  refine ⟨?held, ?fault, ?tile, ?block, ?dirtyNext, ?dirty, ?root⟩
  case held =>
    intro t c m u s hs hc he hv hr hstop hq hread ho hm hk hval
    rw [exec_stepEndToken hs hc he hv hr hstop hq hread ho hm hk, if_pos hval]
  case fault =>
    intro t c m u s hs hc he hv hr hstop hq hread ho hm hk hval
    rw [exec_stepEndToken hs hc he hv hr hstop hq hread ho hm hk, if_neg hval]
  case tile => exact fun t c r s he hi hr => exec_tileVote he hi hr
  case block => exact fun c s hs hc hv hn => exec_blockVote hs hc hv hn
  case dirtyNext =>
    intro c u s hd hu hv hc
    rw [exec_dirtySet hd hu, if_pos (by simp [hv, hc])]
  case dirty =>
    intro c u s hd hu hc
    rw [exec_dirtySet hd hu, if_neg (by simp [hc])]
  case root => exact fun root p u s hp ht hs hc he => exec_voteComplete hp ht hs hc he

section
variable {s : State}

/-! ### Decisions (R345) -/

/-- A DECIDE of the open step is counted, and the decision is carried out. -/
theorem onDecide_open {p : Ctrl} {d : Nat} {f : State → Nat → State} {u : State} (hp : p.type = 0x0D)
    (hd : p.words.getD 0 0 % 8 = d) (ht : takeEjected s 1 (.ctrl p) = some u) (he : oldEpoch u p.context p.ctxEpoch = false)
    (hs : stepped u p.context = true) (hc : csState u p.context = 1 ∨ csState u p.context = 2)
    (hw : wordsStep p.words 1 = stepOf u p.context) : onDecide s p d f = f (noteDecide u p.context d) p.context := by
  have hopen : (csState u p.context == 1 || csState u p.context == 2) = true := by rcases hc with h | h <;> rw [h] <;> rfl
  unfold onDecide
  simp only [hp, hd, ht, he, hs, hopen, hw, bne_self_eq_false, Bool.not_true, Bool.or_self, Bool.false_eq_true, if_false]

/-- With the journal applied, and nothing left to capture that the companion holds, the next step opens. -/
theorem exec_journalApplied {c : CtxId} {u : State} (hc : csState s c = 3) (hu : applyJournal s c = u)
    (ha : (attOf u c).applied = true) (hb : (capturing u c (stepOf u c)).any (captureBusy u) = false) :
    exec (.journalApplied c) s = .next (finishApply u c) := by
  show execJournalApplied c s = _
  unfold execJournalApplied
  simp only [hc, hu, ha, hb, bne_self_eq_false, Bool.not_true, Bool.false_eq_true, if_false]

/-! ### Lost paths and durable writes (R336, R346, R347) -/

theorem exec_inDoubt {c : CtxId} {named : Bool} {u : State} (hs : stepped s c = true) (hc : csState s c = 2)
    (hl : pathLost s c named = true) (hu : u = report (setCsState s c 4) (devPage 11) 0x0B06 { ctx := some c }) :
    exec (.inDoubt c named) s = .next (if inDoubtAny s then u else raise u 369) := by
  subst hu
  exact congrArg Host.Outcome.next (if_pos (by simp [hs, hc, hl]))

theorem exec_rootPathLost {c : CtxId} {named : Bool} (hs : stepped s c = true) (hc : csState s c = 1)
    (hl : pathLost s c named = true) : exec (.rootPathLost c named) s = .next (abortReplay s c) :=
  congrArg Host.Outcome.next (if_pos (by simp [hs, hc, hl]))

theorem exec_durableWrite {t : TileId} {c : CtxId} {a : Nat} {data : List Byte} (hs : stepped s c = true)
    (hm : dramMapped s a data.length = true) :
    exec (.durableWrite t c a data) s = .next (
      let w := memWrite s a (data.map some) (some c) (some t)
      if w.1 then w.2 else clearClean w.2 t c) := by
  show execDurableWrite t c a data s = _
  unfold execDurableWrite
  simp only [hs, hm, Bool.not_true, Bool.false_eq_true, if_false]

end

/-- Settles O34: the four decisions through what every DECIDE does first, the others each by its own meaning. -/
theorem stepDecisions : Obligations.StepDecisions := by
  refine ⟨?commit, ?replay, ?fault, ?audit, ?applied, ?doubt, ?lost, ?durable⟩
  case commit =>
    exact fun p u s hp hd ht he hs hc hw => congrArg Host.Outcome.next (onDecide_open hp hd ht he hs hc hw)
  case replay =>
    rintro p l u _ s hp hd ht he hs hc hw rfl
    exact congrArg Host.Outcome.next (onDecide_open hp hd ht he hs hc hw)
  case fault =>
    exact fun p u s hp hd ht he hs hc hw => congrArg Host.Outcome.next (onDecide_open hp hd ht he hs hc hw)
  case audit =>
    rintro p _ u s hp hd ht he hs hc hw rfl
    exact congrArg Host.Outcome.next (onDecide_open hp hd ht he hs hc hw)
  case applied => exact fun c u s hc hu ha hb => exec_journalApplied hc hu ha hb
  case doubt => exact fun c named u s hs hc hl hu => exec_inDoubt hs hc hl hu
  case lost => exact fun c named s hs hc hl => exec_rootPathLost hs hc hl
  case durable => exact fun t c a data s hs hm => exec_durableWrite hs hm

section
variable {s u : State} {a : Agent} {c : CtxId}

/-! ### Registers behind CS_INDEX (R331, R335, R347, R348) -/

/-- A command written to CS_CMD after CS_INDEX is for the context that the index names. -/
theorem write_csIndex_cmd {n : Nat} (h : writeOk s a (csReg 0x108) (BitVec.ofNat 64 c.val) = true)
    (hu : u = indexed s (csReg 0x108) 0xFF c) (h2 : writeOk u a (csReg 0x1C8) (BitVec.ofNat 64 n) = true) (hn : n < 8) :
    writeNum (writeNum s a (csReg 0x108) c) a (csReg 0x1C8) n = csCmd u c n (a == .hornbeam) := by
  rw [write_csIndex h, ← hu, write_csCmd h2 hn, hu, csIndex_indexed c.isLt]

/-- The copy of a context's register that CS_INDEX reaches. -/
theorem regKey_csIndexed {off : Nat} (hlo : 0x180 ≤ off) (hhi : off ≤ 0x1D0) (hu : u = indexed s (csReg 0x108) 0xFF c) :
    regKey u .commit (csReg off) off = csCtx c off := by
  have hin : (decide (0x180 ≤ off) && decide (off ≤ 0x1D0)) = true := by simp [hlo, hhi]
  have hc : rdF u (devReg 11 0x108) 0 8 = c.val := by
    rw [hu]
    exact csIndex_indexed c.isLt
  show (if _ then banked (csReg off) (rdF u (devReg 11 0x108) 0 8) else csReg off) = _
  rw [if_pos hin, hc]
  rfl

/-- A step number is written while the context is IDLE. -/
theorem write_csStep {hi : Bool} {v : W64} (hu : u = indexed s (csReg 0x108) 0xFF c)
    (h : writeOk u a (csReg (if hi then 0x188 else 0x180)) v = true) (hc : csState u c = 0) :
    writeBy u a (csReg (if hi then 0x188 else 0x180)) v = wr u (csCtx c (if hi then 0x188 else 0x180)) v := by
  have hx : rdF u (csReg 0x108) 0 8 = c.val := by
    rw [hu]
    exact csIndex_indexed c.isLt
  cases hi
  · refine (write_cs (by decide) (by decide) h rfl (.inr rfl)).trans ?_
    rw [regKey_csIndexed (by decide) (by decide) hu, commitWrite, hx]
    exact if_pos hc
  · refine (write_cs (by decide) (by decide) h rfl (.inr rfl)).trans ?_
    rw [regKey_csIndexed (by decide) (by decide) hu, commitWrite, hx]
    exact if_pos hc

/-- CS_CFG and CS_JOURNAL go to the page's rule for the context that CS_INDEX names. -/
theorem write_csCfg {off j m : Nat} {r : RegDesc} {v : W64} (hlo : 0x180 ≤ off) (hhi : off ≤ 0x1D0)
    (hu : u = indexed s (csReg 0x108) 0xFF c) (h : writeOk u a (csReg off) v = true)
    (hf : findReg (pageRegs .commit 0) off = some (r, j)) (hr : r.acc = .rw) (hm : r.wmask = m) :
    writeBy u a (csReg off) v = commitWrite u off (csCtx c off) (merged u (csCtx c off) m v) (a == .hornbeam) := by
  have hkey := regKey_csIndexed (c := c) hlo hhi hu
  unfold csReg at *
  rw [regWrite_dev (x := .commit) (i := 0) (by omega) h rfl hf, typedWrite_rw (by omega) hr hm, hkey]
  rfl

theorem commitWrite_cfg {key : Nat} {w : W64} {hb : Bool} (hx : rdF u (csReg 0x108) 0 8 = c.val)
    (hc : csState u c = 0 ∨ csState u c = 6) (hj : bitOf w 0 = false ∨ journalBad u c = false) :
    commitWrite u 0x190 key w hb = wr u key w := by
  have hstate : (csState u c != 0 && csState u c != 6) = false := by rcases hc with h | h <;> rw [h] <;> rfl
  have hjournal : (bitOf w 0 && journalBad u c) = false := by rcases hj with h | h <;> simp [h]
  simp only [commitWrite, csCfgWrite, hx, hstate, hjournal, Nat.reduceEqDiff, decide_false, Bool.or_self, Bool.false_eq_true,
    if_true, if_false]

theorem commitWrite_journal {key : Nat} {w : W64} {hb : Bool} (hx : rdF u (csReg 0x108) 0 8 = c.val)
    (hc : csState u c = 0 ∨ csState u c = 6) : commitWrite u 0x198 key w hb = wr u key w := by
  have hstate : (csState u c = 0 || csState u c = 6) = true := by rcases hc with h | h <;> rw [h] <;> rfl
  simp only [commitWrite, hx, hstate, Nat.reduceEqDiff, decide_false, Bool.or_self, Bool.false_eq_true, if_true, if_false]

/-- A read position past which an item waits raises source 370 (R359, R361). -/
theorem write_csTfsRead {index : Fin 65536} (h : writeOk s a (csReg 0x120) (BitVec.ofNat 64 index.val) = true)
    (hu : u = wr s (csReg 0x120) (merged s (csReg 0x120) 0xFFFF (BitVec.ofNat 64 index.val))) :
    writeNum s a (csReg 0x120) index = if tfsPending u && !tfsPending s then raise u 370 else u := by
  show writeBy _ _ _ _ = _
  subst hu
  unfold csReg at *
  rw [regWrite_dev (x := .commit) (i := 0) (by decide) h rfl rfl, typedWrite_rw (m := 0xFFFF) (by decide) rfl rfl]
  show commitWrite s 0x120 (devReg 11 0x120) (merged s (devReg 11 0x120) 0xFFFF _) (a == .hornbeam) = _
  simp only [commitWrite, Nat.reduceEqDiff, decide_false, Bool.or_self, Bool.false_eq_true, if_true, if_false]

end

/-- Settles O35: each command sets CS_INDEX and then writes the register of the context that it names. -/
theorem stepRegisters : Obligations.StepRegisters := by
  refine ⟨?open_, ?commit, ?abort, ?clear, ?step, ?cfg, ?journal, ?tfs⟩
  case open_ =>
    intro a c v u s h hu h2 ho
    refine congrArg Host.Outcome.next ((write_csIndex_cmd h hu h2 (by decide)).trans ?_)
    rw [csCmd, ho, Option.getD_some]
  case commit =>
    intro a c u s h hu h2 hc
    exact congrArg Host.Outcome.next ((write_csIndex_cmd h hu h2 (by decide)).trans (if_pos hc))
  case abort =>
    intro a c u s h hu h2 hc
    exact congrArg Host.Outcome.next ((write_csIndex_cmd h hu h2 (by decide)).trans (if_pos hc))
  case clear =>
    intro a c u s h hu h2 hc
    exact congrArg Host.Outcome.next ((write_csIndex_cmd h hu h2 (by decide)).trans (if_pos hc))
  case step =>
    intro a c hi v u s h hu h2 hc
    show Host.Outcome.next (writeBy (writeNum s a (csReg 0x108) c) a (csReg (if hi then 0x188 else 0x180)) v) = _
    rw [write_csIndex h, ← hu, write_csStep hu h2 hc]
  case cfg =>
    intro a c v w u s h hu h2 hw hc hj
    have hx : rdF u (csReg 0x108) 0 8 = c.val := by
      rw [hu]
      exact csIndex_indexed c.isLt
    show Host.Outcome.next (writeBy (writeNum s a (csReg 0x108) c) a (csReg 0x190) v) = _
    rw [write_csIndex h, ← hu, write_csCfg (m := 0x1FFFFFFFFFFF0003) (by decide) (by decide) hu h2 rfl rfl rfl, ← hw,
      commitWrite_cfg hx hc hj]
  case journal =>
    intro a c v u s h hu h2 hc
    have hx : rdF u (csReg 0x108) 0 8 = c.val := by
      rw [hu]
      exact csIndex_indexed c.isLt
    show Host.Outcome.next (writeBy (writeNum s a (csReg 0x108) c) a (csReg 0x198) v) = _
    rw [write_csIndex h, ← hu, write_csCfg (m := 0x3FFFF0003FFFF) (by decide) (by decide) hu h2 rfl rfl rfl,
      commitWrite_journal hx hc]
  case tfs => exact fun a index u s h hu => congrArg Host.Outcome.next (write_csTfsRead h hu)

end Sys2Proof.Machine

/-! SUPPORT. Classification of suspects (R351), conditional and applied fences (R355, R357), and broken guards (R358). -/

namespace Sys2Proof.Machine

section
variable {s : State}

/-! ### Classification (R351–R353) -/

/-- What tfs/1 says of a suspect that was settled, with the fence that its last strike brought. -/
def settledItem (q : Suspect) (k cls : Nat) (struck : Bool) : Tfs :=
  { loc := [(1, 2), (3, k)], ctx := some q.ctx, step := some q.step, code := q.code, cls := some cls, cluster := some k
    residues := if 0x0101 ≤ q.code && q.code ≤ 0x0105 then some (q.pred, q.obs) else none
    sigs := q.replaySig.map (fun r => (q.firstSig, r)), entry := if struck then some (fenceEntry 2 k 0 q.code) else none }

/-- A suspect whose replay voted and whose test has a result is settled: its class is recorded and noted, and its cluster is
fenced when a strike reached the limit. -/
theorem exec_classified {k : ClusterId} {q : Suspect} {u v : State} {st : Bool × State} {cls : Nat}
    (hq : s.commit.quar.find? (fun (x : Suspect) => x.cluster == k.val && x.replaySig.isSome) = some q)
    (hr : mapGet (fun _ => 0) s.commit.confirm k ≠ 0)
    (hu : u = { s with commit := { s.commit with
      quar := s.commit.quar.erase q
      confirm := if (s.commit.quar.erase q).any (fun (x : Suspect) => x.cluster == k.val) then s.commit.confirm else mapErase k s.commit.confirm } })
    (hst : (if mapGet (fun _ => 0) s.commit.confirm k = 1 then strike u k else (false, u)) = st)
    (hcls : (if (baseClass q < 7 && (mapGet (fun _ => 0) s.commit.confirm k = 2 || st.1)) = true then baseClass q + 1 else baseClass q) = cls)
    (hv : v = report st.2 (devPage 11) 0x0B09 { ctx := some q.ctx, detail := [cls, k] }) :
    exec (.classified k) s = .next (if st.1 then
        queueFence (each (tilesOf k) (fun x t => if tileFenced x t then x else stopTile x t) (writeTfs v (settledItem q k cls st.1)))
          (fenceEntry 2 k 0 q.code)
      else writeTfs v (settledItem q k cls st.1)) := by
  subst hu hst hcls hv
  show execClassified k s = _
  unfold execClassified
  simp only [hq, if_neg hr]
  rfl

/-! ### Conditional and applied fences (R355, R357) -/

/-- Short of the failing point a reading changes at most whether the fence is in force. -/
theorem exec_condFence {e : Fin 18446744073709551616} {k : Nat} {b : Bool} (hk : feCluster e = some k)
    (hc : s.commit.condFences.contains e.val = true) (hi : s.commit.inForce.contains e.val = !b)
    (hr : condReading s e k = some b) (hp : pastFailing s e k = false) :
    exec (.condFence e) s = .next (
      report { s with commit := { s.commit with
        inForce := if b then s.commit.inForce ++ [e.val] else s.commit.inForce.erase e.val } } (devPage 11) 0x0B0B
        { detail := [e.val / 2 ^ 32, e.val % 2 ^ 32, bit01 b] }) := by
  show execCondFence e s = _
  unfold execCondFence
  cases b <;> simp only [hk, hc, hi, hr, hp, Bool.not_true, Bool.not_false, Bool.false_eq_true, if_true, if_false] <;> rfl

theorem exec_unitFence {e : Fin 18446744073709551616} (ho : feOk e = true) (hc : feCond e ≤ 3) :
    exec (.unitFence e) s = .next (if s.commit.fenceJobs.contains e.val then
        setFloor (applyFence { s with commit := { s.commit with fenceJobs := s.commit.fenceJobs.erase e.val } } e)
      else if s.commit.fenceLog.contains e.val then s else setFloor (applyFence s e)) := by
  have hok : (!feOk e || 3 < feCond e) = false := by simp [ho, hc]
  show execUnitFence e s = _
  unfold execUnitFence
  simp only [hok, Bool.false_eq_true, if_false]

/-! ### Guarded values (R358) -/

theorem exec_guardFault_credit {a : Fin 4294967296} {flip : W64} {x : Nat × Nat × Credit}
    (hx : shownCredit s (regBase + a.val) = some x) : exec (.guardFault a 0 flip) s = .next (creditBroken s x flip) := by
  show execGuardFault a 0 flip s = _
  unfold execGuardFault
  simp only [Fin.val_zero, hx, if_true]

/-- A stored guarded value outside the step-commit page whose halves no longer match. -/
theorem execGuardFault_page {a : Fin 4294967296} {flip : W64} {u : State} (hx : shownCredit s (regBase + a.val) = none)
    (hg : isGuarded (regBase + a.val) = true) (hp : pageOf (regBase + a.val) ≠ devPage 11) (hf : flip ≠ 0)
    (hb : guardOk (rd s (regBase + a.val) ^^^ flip) = false)
    (hu : u = wr s (regBase + a.val) (rd s (regBase + a.val) ^^^ flip)) :
    execGuardFault a 0 flip s =
      .next (dropLost s u (guardBroken u (regBase + a.val) 0) (decodePage (pageOf (regBase + a.val)))) := by
  have hnot : (pageOf (regBase + a.val) == devPage 11) = false := beq_eq_false_iff_ne.2 hp
  subst hu
  unfold execGuardFault
  generalize regBase + a.val = r at *
  simp only [Fin.val_zero, hx, hg, hf, hnot, hb, rd_wr_self, bne_self_eq_false, decide_false, Bool.not_true, Bool.or_self,
    Bool.false_eq_true, if_true, if_false]

/-- The step-commit page has no regions to lose. -/
theorem dropLost_commit (s s1 u : State) (i : Nat) : dropLost s s1 u (some (.commit, i)) = u := by
  simp only [dropLost]

/-- A copy of a guarded step-commit register whose halves no longer match. -/
theorem execGuardFault_step {a : Fin 4294967296} {k : Fin 257} {flip : W64} (hg : isGuarded (regBase + a.val) = true)
    (hp : pageOf (regBase + a.val) = devPage 11) (hk : k ≠ 0) (hf : flip ≠ 0)
    (hb : guardOk (rd s (banked (regBase + a.val) (k.val - 1)) ^^^ flip) = false) :
    execGuardFault a k flip s = .next (
      guardBroken (wr s (banked (regBase + a.val) (k.val - 1)) (rd s (banked (regBase + a.val) (k.val - 1)) ^^^ flip))
        (regBase + a.val) k.val) := by
  have hk0 : k.val ≠ 0 := fun h => hk (Fin.ext h)
  have hpage : decodePage (devPage 11) = some (.commit, 0) := rfl
  unfold execGuardFault
  generalize regBase + a.val = r at *
  simp only [hk0, hg, hf, hp, hb, hpage, rd_wr_self, dropLost_commit, bne_iff_ne.2 hk0, BEq.rfl, bne_self_eq_false, decide_false,
    Bool.not_true, Bool.or_self, Bool.false_eq_true, if_false]

end

/-- Settles O36: a suspect by its test's result and its strikes, a fence by its reading or its order, a guard by its page. -/
theorem fenceEvents : Obligations.FenceEvents := by
  refine ⟨?failed, ?struck, ?passed, ?enters, ?leaves, ?ordered, ?commanded, ?credit, ?page, ?step⟩
  case failed =>
    intro k q u v s hq hr hu hv
    exact (exec_classified (st := (false, u)) hq (by rw [hr]; decide) hu (by rw [hr]; rfl) (by simp [hr]) hv).trans
      (congrArg Host.Outcome.next (if_neg Bool.false_ne_true))
  case struck =>
    intro k q u v w s hq hr hu hst hw
    exact (exec_classified (st := (true, v)) hq (by rw [hr]; decide) hu (by rw [hr, if_pos rfl, hst]) (by simp) hw).trans
      (congrArg Host.Outcome.next (if_pos rfl))
  case passed =>
    intro k q u v w s hq hr hu hst hw
    exact (exec_classified (st := (false, v)) hq (by rw [hr]; decide) hu (by rw [hr, if_pos rfl, hst]) (by simp [hr]) hw).trans
      (congrArg Host.Outcome.next (if_neg Bool.false_ne_true))
  case enters =>
    intro e k s hk hc hi hr hp
    exact exec_condFence (b := true) hk hc hi hr hp
  case leaves =>
    intro e k s hk hc hi hr hp
    exact exec_condFence (b := false) hk hc hi hr hp
  case ordered =>
    intro e s ho hc hj
    rw [exec_unitFence ho hc, if_pos hj]
  case commanded =>
    intro e s ho hc hj hl
    rw [exec_unitFence ho hc, if_neg (Bool.eq_false_iff.1 hj), if_neg (Bool.eq_false_iff.1 hl)]
  case credit =>
    rintro a flip x _ s hx rfl
    exact exec_guardFault_credit hx
  case page => exact fun a flip u s hx hg hp hf hb hu => execGuardFault_page hx hg hp hf hb hu
  case step => exact fun a k flip s hg hp hk hf hb => execGuardFault_step hg hp hk hf hb

end Sys2Proof.Machine

/-! SUPPORT. The windows of Bramble and its recovery (R364–R372), and the teardown of a context (R374–R380). -/

namespace Sys2Proof.Machine

section
variable {s : State}

/-! ### Windows (R364, R366) -/

/-- No window has ended since the last one judged. -/
theorem exec_brambleWindow_judged (h : now s / 1000 = 0 ∨ s.recov.window = now s / 1000) : exec .brambleWindow s = .next s := by
  refine congrArg Host.Outcome.next (if_pos ?_)
  rw [Bool.or_eq_true, decide_eq_true_eq, decide_eq_true_eq]
  exact h

/-- A window that ended is judged: its rows of stalled nodes, and the hang that they show while Bramble is enabled. -/
theorem exec_brambleWindow_ended {u : State} {m : NMap Nat} (h0 : now s / 1000 ≠ 0) (hw : s.recov.window ≠ now s / 1000)
    (hm : m = stalledRows s (allWaits s) (now s / 1000 - 1))
    (hu : u = { s with recov := { s.recov with stalled := m, window := now s / 1000 } }) :
    exec .brambleWindow s = .next (if (hangSet s (allWaits s) m).isEmpty || !rdB s (brReg 0x100) 0 then u
      else foundHang u (allWaits s)
        { members := (hangSet s (allWaits s) m).map (fun n => (n / 256, n % 256)), cause := 1, dt := now s, set := none }) := by
  subst hm hu
  refine congrArg Host.Outcome.next (if_neg ?_)
  rw [Bool.or_eq_true, decide_eq_true_eq, decide_eq_true_eq]
  exact not_or_intro h0 hw

/-! ### The hold and the sample (R369–R371) -/

theorem exec_recoveryHold {u : State} (hp : brPhase s = 1)
    (hu : u = each (s.recov.round.filter (stepped s)) (fun x c => if s.recov.guilty.contains c then x else originate x c 1 false) s) :
    exec .recoveryHold s = .next
      (setPhase (each (u.recov.round.filter (fun c => tdState u c == 0)) (fun x c => setTdState x c 1) u) 2) := by
  subst hu
  exact congrArg Host.Outcome.next (if_pos hp)

/-- The sample goes on unless it still has to wake banks; without an area it is left out with its record. -/
theorem exec_sampleComplete_taken {h : Hang} (hc : s.recov.current = some h) (hp : brPhase s = 2)
    (hs : (brArea s).2 = 0 ∨ sampleLate s = true ∨ sampleSleeps s = []) :
    exec .sampleComplete s = .next (afterRound (setPhase
      (each (if (brArea s).2 = 0 then report s (devPage 10) 0x0C0D else takeSample s h).recov.round requestTeardown
        (if (brArea s).2 = 0 then report s (devPage 10) 0x0C0D else takeSample s h)) 3)) := by
  have hnot : (decide (brPhase s = 2) && (brArea s).2 != 0 && !sampleLate s && !(sampleSleeps s).isEmpty) = false := by
    obtain h0 | hl | hn := hs
    · simp [h0]
    · simp [hl]
    · simp [hn]
  show execSampleComplete s = _
  unfold execSampleComplete
  simp only [hc]
  rw [hnot]
  simp only [Bool.false_eq_true, if_false, hp, if_true]

/-- Inside its budget the sample wakes the banks that it reads. -/
theorem exec_sampleComplete_waking {h : Hang} (hc : s.recov.current = some h) (hp : brPhase s = 2) (h0 : (brArea s).2 ≠ 0)
    (hl : sampleLate s = false) (hn : sampleSleeps s ≠ []) :
    exec .sampleComplete s = .next (each (sampleSleeps s) (fun u y => ownWake u y.1 y.2.1 y.2.2) s) := by
  have hyes : (decide (brPhase s = 2) && (brArea s).2 != 0 && !sampleLate s && !(sampleSleeps s).isEmpty) = true := by
    simp [hp, h0, hl, hn]
  show execSampleComplete s = _
  unfold execSampleComplete
  simp only [hc]
  rw [if_pos hyes]

/-! ### Admission (R369, R372) -/

variable {c : CtxId} {u : State}

theorem execAdmission_next (hp : brPhase s = 4) (ha : admitted s = none) (hq : s.recov.toAdmit.head? = some c.val) :
    (brPhase s != 4 || (admitted s).isSome || s.recov.toAdmit.head? != some c.val) = false := by
  simp [hp, ha, hq]

/-- A suspect whose step was decided is reopened. -/
theorem exec_admission_opened (hp : brPhase s = 4) (ha : admitted s = none) (hq : s.recov.toAdmit.head? = some c.val)
    (hs : csState s c = 5) (hu : csOpen s c true = some u) :
    exec (.admission c) s = .next
      (setAdmitted { u with recov := { u.recov with toAdmit := u.recov.toAdmit.drop 1 } } (some c.val)) := by
  show execAdmission c s = _
  unfold execAdmission
  rw [execAdmission_next hp ha hq]
  simp only [Bool.false_eq_true, if_false, hs, if_true, hu]

/-- A suspect that is idle or faulted is passed over. -/
theorem exec_admission_passed (hp : brPhase s = 4) (ha : admitted s = none) (hq : s.recov.toAdmit.head? = some c.val)
    (hs : csState s c = 0 ∨ csState s c = 6) (hu : u = { s with recov := { s.recov with toAdmit := s.recov.toAdmit.drop 1 } }) :
    exec (.admission c) s = .next (if u.recov.toAdmit.isEmpty then endRecovery u else u) := by
  have h5 : csState s c ≠ 5 := by omega
  have h06 : (decide (csState s c = 0) || decide (csState s c = 6)) = true := by simpa using hs
  subst hu
  show execAdmission c s = _
  unfold execAdmission
  rw [execAdmission_next hp ha hq, if_neg Bool.false_ne_true, if_neg h5, if_pos h06]

/-- The admitted context has shown itself, or its time is up: the admission ends without a fault of its own. -/
theorem exec_admissionEnd_shown {c : Nat} (ha : admitted s = some c) (hh : s.recov.admHang = none)
    (he : (attOf s c).notices ≠ [] ∨ (attOf s c).voted = true ∨ csState s c ≠ 1 ∨
      s.recov.admitDt + rdF s (brReg 0x100) 32 16 * 100000 ≤ now s) (hu : u = setAdmitted s none) :
    exec .admissionEnd s = .next (if u.recov.toAdmit.isEmpty then endRecovery u else u) := by
  subst hu
  show execAdmissionEnd s = _
  unfold execAdmissionEnd
  simp only [ha, hh]
  rw [if_pos ?_]
  simpa [or_assoc] using he

theorem exec_admissionEnd_hung {c : Nat} {h : Hang} (ha : admitted s = some c) (hh : s.recov.admHang = some h) :
    exec .admissionEnd s = .next (findGuilty s c h) := by
  show execAdmissionEnd s = _
  unfold execAdmissionEnd
  simp only [ha, hh]

end

/-- Settles O37: the window by its rows and their closed set, and each phase of recovery by its own meaning. -/
theorem hangRounds : Obligations.HangRounds := by
  refine ⟨?judged, ?quiet, ?hang, ?held, ?noArea, ?sampled, ?waking, ?opened, ?passed, ?guilty, ?shown⟩
  case judged => exact fun s h => exec_brambleWindow_judged h
  case quiet =>
    intro w m u s hw h0 hne hm hu hq
    subst hw
    rw [exec_brambleWindow_ended h0 hne hm hu, if_pos]
    obtain hoff | hset := hq
    · rw [show rdB s (brReg 0x100) 0 = false by rw [← hoff, hu]; rfl]
      exact Bool.or_true _
    · rw [show hangSet s (allWaits s) m = [] from hset]
      rfl
  case hang =>
    intro w m l u s hw h0 hne hm hu hon hset hl
    subst hw
    rw [exec_brambleWindow_ended h0 hne hm hu, show hangSet s (allWaits s) m = l from hset, if_neg (by simp [hon, hl])]
  case held => exact fun u s hp hu => exec_recoveryHold hp hu
  case noArea =>
    intro h u s hc hp h0 hu
    rw [exec_sampleComplete_taken hc hp (.inl h0), if_pos h0, hu]
  case sampled =>
    intro h u s hc hp h0 hs hu
    rw [exec_sampleComplete_taken hc hp (.inr hs), if_neg h0, hu]
  case waking => exact fun h s hc hp h0 hl hn => exec_sampleComplete_waking hc hp h0 hl hn
  case opened => exact fun c u s hp ha hq hs hu => exec_admission_opened hp ha hq hs hu
  case passed => exact fun c u s hp ha hq hs hu => exec_admission_passed hp ha hq hs hu
  case guilty => exact fun c h s ha hh => exec_admissionEnd_hung ha hh
  case shown => exact fun c u s ha hh he hu => exec_admissionEnd_shown ha hh he hu

section
variable {s : State} {c : CtxId}

/-! ### Teardown (R374–R376) -/

theorem exec_teardown_orders {u : State} (hr : s.recov.tdReq.contains c.val = true)
    (hu : u = { s with recov := { s.recov with tdReq := s.recov.tdReq.erase c.val } }) (h2 : tdState s c ≠ 2) (h3 : tdState s c ≠ 3)
    (h4 : tdState s c ≠ 4) : exec (.teardown c) s = .next (tearDown u c (s.recov.guilty.contains c.val)) := by
  subst hu
  show execTeardown c s = _
  unfold execTeardown
  rw [if_pos hr, if_neg h2, if_neg (by simp [h3, h4])]

theorem exec_teardown_torn {u : State} (hr : s.recov.tdReq.contains c.val = true)
    (hu : u = { s with recov := { s.recov with tdReq := s.recov.tdReq.erase c.val } }) (h : tdState s c = 3 ∨ tdState s c = 4) :
    exec (.teardown c) s = .next (afterRound (afterTorn u c)) := by
  subst hu
  show execTeardown c s = _
  unfold execTeardown
  rw [if_pos hr, if_neg (by omega), if_pos (by simpa using h)]

/-- A drain that is over ends the teardown; `bound` says whether the fabric drain bound ended it. -/
theorem exec_teardownDrain_over {d : Nat × Nat} {bound : Bool} {w u v : State} (hd : mapFind c.val s.recov.draining = some d)
    (h2 : tdState s c = 2) (ho : drainOver s c d.1 d.2 = (true, bound))
    (hw : w = if bound then incSat (report s (devPage 10) 0x0C03 { ctx := some c.val }) (brReg 0x0A0) else s)
    (hu : u = setTdState { w with recov := { w.recov with draining := mapErase c w.recov.draining } } c 3)
    (hv : v = if u.recov.round.contains c.val && !stepped u c then report u (devPage 10) 0x0C07 { ctx := some c.val } else u) :
    exec (.teardownDrain c) s = .next (afterRound (afterTorn v c)) := by
  subst hw hu hv
  show execTeardownDrain c s = _
  unfold execTeardownDrain
  simp only [hd, ho, h2, bne_self_eq_false, Bool.not_true, Bool.or_self, Bool.false_eq_true, if_false]

/-- TD_CMD names a command and a context (R374, R376). -/
theorem write_tdCmd {a : Agent} {cmd : Nat} (hc : cmd < 2 ^ 3)
    (h : writeOk s a (brReg 0x140) (BitVec.ofNat 64 (place 8 3 cmd + c.val)) = true) :
    writeNum s a (brReg 0x140) (place 8 3 cmd + c.val) = tdCmd s c cmd := by
  have h8 : c.val < 2 ^ 8 := c.isLt
  show writeBy _ _ _ _ = _
  unfold brReg at *
  rw [regWrite_dev (x := .bramble) (i := 0) (by decide) h rfl rfl, typedWrite_wo (by decide) rfl]
  show brambleWrite s _ _ _ = _
  simp only [brambleWrite, Nat.reduceEqDiff, decide_false, Bool.false_and, Bool.false_eq_true, if_true, if_false]
  rw [fieldOf_place_low hc h8 (by decide) (by decide), fieldOf_place_high hc h8 (by decide)]

/-! ### ABORT at a member (R380) -/

theorem exec_abortArrival {t : TileId} {p : Ctrl} {u : State} (hp : p.type = 0x0E) (hu : takeEjected s t (.ctrl p) = some u) :
    exec (.abortArrival t p) s = .next (if ((List.range 256).filter (abortMatches u p)).isEmpty then abortIgnored u p
      else each ((List.range 256).filter (abortMatches u p)) (abortCtx p t) u) := by
  have hne : (p.type != 0x0E) = false := by rw [hp]; rfl
  show execAbortArrival t p s = _
  unfold execAbortArrival
  rw [hne, hu]
  rfl

end

/-- Settles O38: a teardown by the state it finds, its drain by what ended it, TD_CMD by its page, and an ABORT by what it names. -/
theorem teardowns : Obligations.Teardowns := by
  refine ⟨?orders, ?torn, ?drained, ?bounded, ?teardown, ?release, ?applies, ?ignored⟩
  case orders => exact fun c u s hr hu h2 h3 h4 => exec_teardown_orders hr hu h2 h3 h4
  case torn => exact fun c u s hr hu h => exec_teardown_torn hr hu h
  case drained => exact fun c d u v s hd h2 ho hu hv => 
    exec_teardownDrain_over (bound := false) hd h2 ho (if_neg Bool.false_ne_true).symm hu hv
  case bounded => exact fun c d w u v s hd h2 ho hw hu hv => 
    exec_teardownDrain_over (bound := true) hd h2 ho (hw.trans (if_pos rfl).symm) hu hv
  case teardown => exact fun a c s h => congrArg Host.Outcome.next (write_tdCmd (by decide) h)
  case release => exact fun a c s h => congrArg Host.Outcome.next (write_tdCmd (by decide) h)
  case applies =>
    intro t p u s hp hu hne
    rw [exec_abortArrival hp hu, if_neg (by simpa using hne)]
  case ignored =>
    intro t p u s hp hu he
    exact (exec_abortArrival hp hu).trans (congrArg Host.Outcome.next (if_pos (by rw [he]; rfl)))

end Sys2Proof.Machine

/-! SUPPORT. The takes, seals, restores and flash copies of a checkpoint stream (R391–R400), and CK_CMD (R401). -/

namespace Sys2Proof.Machine

section
variable {s : State} {n : Fin 4}

/-! ### The window and the mover (R391, R394, R397, R398) -/

/-- A stream whose TAKE does not wait has nothing to resume. -/
theorem resumeTake_idle {k : Nat} (h : (streamOf s k).wait = none) : resumeTake s k = s := by
  simp only [resumeTake, h]

theorem streamOf_raise (s : State) (src k : Nat) : streamOf (raise s src) k = streamOf s k := rfl

/-- τ has passed since the last seal: the stream is due, and source 374 tells of the first that is. -/
theorem exec_ckDue_passed {u : State} (hw : (streamOf s n).wait = none) (hv : ownValid s n = true) (he : rdB s (ckReg 0x100) 0 = true)
    (hd : (streamOf s n).due = false) (ht : ((streamOf s n).sealDt - 1) + tauMs s n * 1000000 ≤ now s)
    (ho : (streamOf s n).ownTake = none ∨ (streamOf s n).captured = false)
    (hu : u = setStream s n { streamOf s n with due := true }) :
    exec (.ckDue n) s = .next (if ckDueAny s then u else raise u 374) := by
  have hrun : ((streamOf s n).ownTake.isSome && (streamOf s n).captured) = false := by
    obtain h | h := ho <;> simp [h]
  have hwait : (streamOf u n).wait = none := by rw [hu, streamOf_setStream_self]; exact hw
  have hidle : resumeTake (if ckDueAny s then u else raise u 374) n = if ckDueAny s then u else raise u 374 := by
    apply resumeTake_idle
    split
    · exact hwait
    · exact (congrArg CkStream.wait (streamOf_raise u 374 n)).trans hwait
  rw [← hidle, hu]
  show execCkDue n s = _
  unfold execCkDue
  simp only [hw, hv, he, hd, ht, hrun, decide_true, Bool.not_false, Bool.and_self, Bool.false_eq_true, if_true, if_false]

theorem exec_trickleSend_disabled (he : rdB s (ckReg 0x100) 0 = false) : exec (.trickleSend n) s = .next s :=
  congrArg Host.Outcome.next (if_pos (by rw [he]; rfl))

/-- The mover's next step: an export goes before a restore. -/
theorem exec_trickleSend_exports {e : Nat × Nat} (he : rdB s (ckReg 0x100) 0 = true) (hx : (streamOf s n).exportAt = some e) :
    exec (.trickleSend n) s = .next (exportBlock s n e.1 e.2) := by
  show execTrickleSend n s = _
  unfold execTrickleSend
  simp only [he, hx, Bool.not_true, Bool.false_eq_true, if_false]

theorem exec_trickleSend_restores {r : Nat × Nat × Bool × Nat} (he : rdB s (ckReg 0x100) 0 = true)
    (hx : (streamOf s n).exportAt = none) (hr : (streamOf s n).restore = some r) :
    exec (.trickleSend n) s = .next (restoreSend s n r.1 r.2.1 r.2.2.1 r.2.2.2) := by
  show execTrickleSend n s = _
  unfold execTrickleSend
  simp only [he, hx, hr, Bool.not_true, Bool.false_eq_true, if_false]

/-- With neither an export nor a restore the mover trickles. -/
theorem exec_trickleSend_trickles (he : rdB s (ckReg 0x100) 0 = true) (hx : (streamOf s n).exportAt = none)
    (hr : (streamOf s n).restore = none) : exec (.trickleSend n) s = .next (trickle s n) := by
  show execTrickleSend n s = _
  unfold execTrickleSend
  simp only [he, hx, hr, Bool.not_true, Bool.false_eq_true, if_false]

/-! ### Arrivals and seals (R392) -/

/-- A piece for an open half is answered with its credit, and written where it belongs. -/
theorem exec_checkpointDataArrival_held {m : Msg} {u : State} {k : Nat} (hq : epQueue m.hdr.dst = 0xFE) (ht : epTile m.hdr.dst = 1)
    (hl : 8 ≤ m.pay.length) (hu : takeEjected s 1 (.msg m) = some u)
    (hf : (List.range 4).find? (fun k => holdValid s k && holdOwner s k == epDev m.hdr.src && holdCtx s k == m.hdr.context &&
      (streamOf s k).holdTake.isSome) = some k)
    (hin : natOfBytes (m.pay.drop (m.pay.length - 8)) + (m.pay.take (m.pay.length - 8)).length ≤ halfLen s k) :
    exec (.checkpointDataArrival m) s = .next (pieceHeld (inject u 1 (.ctrl (returnPkt u 1 0xFE m.hdr))) k
      (natOfBytes (m.pay.drop (m.pay.length - 8))) (m.pay.take (m.pay.length - 8))) := by
  have hnot : (epQueue m.hdr.dst != 0xFE || epTile m.hdr.dst != 1 || decide (m.pay.length < 8)) = false := by
    simp [hq, ht, hl]
  show execCheckpointDataArrival m s = _
  unfold execCheckpointDataArrival
  simp only [hnot, hu, hf, hin, Bool.false_eq_true, if_true, if_false]

/-- A half whose image has come and can be read is sealed, or left open, by its blocks. -/
theorem exec_sealImage_checked {blocks step a : Nat} (ht : (streamOf s n).holdTake = some step) (he : rdB s (ckReg 0x100) 0 = true)
    (hb : blocks ≠ 0) (hl : 4096 + 8 * blocks + blocks * mib2 ≤ halfLen s n) (hc : imageCame (streamOf s n).came blocks = true)
    (ha : a = halfBase s n (streamOf s n).half) (hs : unsettled s a (4096 + 8 * blocks + blocks * mib2) false = false) :
    exec (.sealImage n blocks) s = .next (sealDone n step blocks a ((List.range blocks).foldl (sealCheck a blocks) (true, s))) := by
  subst ha
  show execSeal n blocks s = _
  unfold execSeal
  simp only [ht, he, hb, hc, hs, Nat.not_lt.2 hl, decide_false, Bool.not_true, Bool.or_self, Bool.false_eq_true, if_false]

/-- While ENABLE is 0, without blocks, or before the image has come, nothing is sealed. -/
theorem exec_sealImage_early {blocks step : Nat} (ht : (streamOf s n).holdTake = some step)
    (h : rdB s (ckReg 0x100) 0 = false ∨ blocks = 0 ∨ imageCame (streamOf s n).came blocks = false) :
    exec (.sealImage n blocks) s = .next s := by
  have hnot : (!rdB s (ckReg 0x100) 0 || decide (blocks = 0) || decide (halfLen s n < 4096 + 8 * blocks + blocks * mib2) ||
      !imageCame (streamOf s n).came blocks) = true := by
    obtain h | h | h := h <;> simp [h]
  show execSeal n blocks s = _
  unfold execSeal
  simp only [ht, hnot, if_true]

theorem exec_sealedReceived {step : Fin 281474976710656} {dt : Nat} {v u : State} (ht : (streamOf s n).ownTake = some step.val)
    (hc : (streamOf s n).captured = true)
    (hv : v = wrF (setStream s n { streamOf s n with ownTake := none, captured := false, sealDt := dt + 1, due := false })
      (ckSt n 0x1B0) 0 32 (streamOf s n).hold)
    (hu : u = wrF v (ckSt n 0x1A8) 0 48 step) :
    exec (.sealedReceived n step dt) s = .next (resumeTake
      (raise (setTau (if holdValid s n then u else wrF u (ckSt n 0x1A8) 60 1 (streamOf s n).half) n) 375) n) := by
  subst hv hu
  show execSealedReceived n step dt s = _
  unfold execSealedReceived
  simp only [ht, hc, decide_true, Bool.and_self, if_true]

/-! ### Flash copies (R396) -/

theorem exec_flashCopy_disabled (he : rdB s (ckReg 0x100) 0 = false) : exec (.flashCopy n) s = .next s :=
  congrArg Host.Outcome.next (if_pos (by rw [he]; rfl))

/-- A copy that is owed starts with the newest sealed half. -/
theorem exec_flashCopy_owed (he : rdB s (ckReg 0x100) 0 = true) (hv : holdValid s n = true) (hf : (streamOf s n).flashAt = none)
    (ho : (streamOf s n).flashOwed = true) :
    exec (.flashCopy n) s =
      .next (flashStep (setStream s n { streamOf s n with flashOwed := false }) n (newestHalf s n) 0) := by
  show execFlashCopy n s = _
  unfold execFlashCopy
  simp only [he, hv, hf, ho, Bool.not_true, Bool.or_self, Bool.false_eq_true, if_true, if_false]

/-- A copy that waited for memory goes on where it was. -/
theorem exec_flashCopy_resumed {f : Nat × Nat} (he : rdB s (ckReg 0x100) 0 = true) (hv : holdValid s n = true)
    (hf : (streamOf s n).flashAt = some f) (hc : (streamOf s n).copyWaits = true) :
    exec (.flashCopy n) s = .next (flashStep s n f.1 f.2) := by
  show execFlashCopy n s = _
  unfold execFlashCopy
  simp only [he, hv, hf, hc, Bool.not_true, Bool.or_self, Bool.false_eq_true, if_true, if_false]

end

/-- Settles O40: each event of a stream by its own meaning. -/
theorem checkpointEvents : Obligations.CheckpointEvents := by
  refine ⟨?due, ?trickles, ?exports, ?restores, ?disabled, ?piece, ?seals, ?early, ?sealed, ?owed, ?resumed⟩
  case due => exact fun n u s hw hv he hd ht ho hu => exec_ckDue_passed hw hv he hd ht ho hu
  case trickles =>
    intro n p s hx hr ho hc he hp hs hi
    have hrun : ((streamOf s n).ownTake.isNone || !(streamOf s n).captured) = false := by
      rw [hc, ← Option.not_isSome, ho]
      rfl
    rw [exec_trickleSend_trickles he hx hr]
    simp only [trickle, hrun, hp, hs, hi, Bool.false_eq_true, if_true, if_false]
  case exports => exact fun n e s hx he => exec_trickleSend_exports he hx
  case restores => exact fun n r s hx hr he => exec_trickleSend_restores he hx hr
  case disabled => exact fun n s he => ⟨exec_trickleSend_disabled he, exec_flashCopy_disabled he⟩
  case piece =>
    intro m k off data v w u s hq ht hl hu hv hf ho hd hin hw
    subst ho hd
    rw [exec_checkpointDataArrival_held hq ht hl hu hf hin, ← hv, hw]
    rfl
  case seals => exact fun n blocks step a s ht he hb hl hc ha hs => exec_sealImage_checked ht he hb hl hc ha hs
  case early => exact fun n blocks step s ht h => exec_sealImage_early ht h
  case sealed => exact fun n step dt v u s ht hc hv hu => exec_sealedReceived ht hc hv hu
  case owed => exact fun n s he ho hf hv => exec_flashCopy_owed he hv hf ho
  case resumed => exact fun n f s he hf hc hv => exec_flashCopy_resumed he hv hf hc

section
variable {s u : State} {a : Agent} {n : Fin 4}

/-! ### CK_CMD (R401) -/

/-- The fields of CK_CMD: the half, the command and its argument. -/
theorem ckCmd_fields {half cmd arg : Nat} (hh : half < 2 ^ 1) (hc : cmd < 2 ^ 3) (ha : arg < 2 ^ 48) :
    fieldNat (place 51 1 half + place 48 3 cmd + arg) 51 1 = half ∧ fieldNat (place 51 1 half + place 48 3 cmd + arg) 48 3 = cmd ∧
      fieldNat (place 51 1 half + place 48 3 cmd + arg) 0 48 = arg ∧ place 51 1 half + place 48 3 cmd + arg < 2 ^ 64 := by
  simp only [fieldNat, place, Nat.shiftRight_eq_div_pow, Nat.shiftLeft_eq]
  omega

/-- CK_INDEX names the stream that CK_CMD then speaks to. -/
theorem write_ckIndex_cmd {m : Nat} (h : writeOk s a (ckReg 0x108) (BitVec.ofNat 64 n.val) = true) (hu : u = indexed s (ckReg 0x108) 3 n)
    (h2 : writeOk u a (ckReg 0x1A0) (BitVec.ofNat 64 m) = true) (hm : m < 2 ^ 64) :
    writeNum (writeNum s a (ckReg 0x108) n) a (ckReg 0x1A0) m = ckCmd u n m := by
  rw [write_ckIndex h, ← hu, write_ckCmd h2 hm, hu, ckIndex_indexed n.isLt]

/-- TAKE and CANCEL have no half. -/
theorem ckCmd_plain {cmd arg : Nat} (hc : cmd < 2 ^ 3) (ha : arg < 2 ^ 48) :
    fieldNat (place 48 3 cmd + arg) 48 3 = cmd ∧ fieldNat (place 48 3 cmd + arg) 0 48 = arg ∧ place 48 3 cmd + arg < 2 ^ 64 := by
  obtain ⟨-, h1, h2, h3⟩ := ckCmd_fields (half := 0) (by decide) hc ha
  rw [show place 51 1 0 = 0 from rfl, Nat.zero_add] at h1 h2 h3
  exact ⟨h1, h2, h3⟩

/-- CK_CMD TAKE reaches the stream. -/
theorem exec_ckTakeCmd {step : Fin 281474976710656} (h : writeOk s a (ckReg 0x108) (BitVec.ofNat 64 n.val) = true)
    (hu : u = indexed s (ckReg 0x108) 3 n) (h2 : writeOk u a (ckReg 0x1A0) (BitVec.ofNat 64 (place 48 3 1 + step.val)) = true) :
    exec (.ckTakeCmd a n step) s = .next (ckTake u n step) := by
  obtain ⟨hcmd, harg, hm⟩ := ckCmd_plain (cmd := 1) (by decide) step.isLt
  refine congrArg Host.Outcome.next ((write_ckIndex_cmd h hu h2 hm).trans ?_)
  simp only [ckCmd, hcmd, harg]

/-- CK_CMD CANCEL reaches the stream. -/
theorem exec_ckCancel (h : writeOk s a (ckReg 0x108) (BitVec.ofNat 64 n.val) = true)
    (hu : u = indexed s (ckReg 0x108) 3 n) (h2 : writeOk u a (ckReg 0x1A0) (BitVec.ofNat 64 (place 48 3 2)) = true) :
    exec (.ckCancel a n) s = .next (ckCancel u n) := by
  refine congrArg Host.Outcome.next ((write_ckIndex_cmd h hu h2 (by decide)).trans ?_)
  simp only [ckCmd, show fieldNat (place 48 3 2) 48 3 = 2 from rfl]

/-- EXPORT reaches the stream, and starts when it holds an image and is free for it. -/
theorem exec_ckExport {half : Fin 2} (h : writeOk s a (ckReg 0x108) (BitVec.ofNat 64 n.val) = true)
    (hu : u = indexed s (ckReg 0x108) 3 n)
    (h2 : writeOk u a (ckReg 0x1A0) (BitVec.ofNat 64 (place 51 1 half.val + place 48 3 3)) = true) (hv : holdValid u n = true)
    (hx : (streamOf u n).exportAt = none) :
    exec (.ckExport a n half) s = .next (setStream u n { streamOf u n with exportAt := some (half.val, 0) }) := by
  obtain ⟨hhalf, hcmd, -, hm⟩ := ckCmd_fields (cmd := 3) (arg := 0) half.isLt (by decide) (by decide)
  rw [Nat.add_zero] at hcmd hhalf hm
  refine congrArg Host.Outcome.next ((write_ckIndex_cmd h hu h2 hm).trans ?_)
  simp only [ckCmd, hcmd, hhalf, hv, hx, Option.isNone_none, Bool.and_self, if_true]

/-- A restore command names its source by the command, and its target by the low argument. -/
theorem write_restore {half : Fin 2} {dev : Fin 32768} {flash : Bool}
    (h : writeOk s a (ckReg 0x108) (BitVec.ofNat 64 n.val) = true) (hu : u = indexed s (ckReg 0x108) 3 n)
    (h2 : writeOk u a (ckReg 0x1A0) (BitVec.ofNat 64 (place 51 1 half.val + place 48 3 (if flash then 5 else 4) + dev.val)) = true) :
    writeNum (writeNum s a (ckReg 0x108) n) a (ckReg 0x1A0) (place 51 1 half + place 48 3 (if flash then 5 else 4) + dev.val) =
      startRestore u n dev half flash := by
  have hd : dev.val < 2 ^ 48 := by omega
  obtain ⟨hhalf, hcmd, harg, hm⟩ := ckCmd_fields (cmd := if flash then 5 else 4) half.isLt (by cases flash <;> decide) hd
  rw [write_ckIndex_cmd h hu h2 hm]
  cases flash
  · simp only [Bool.false_eq_true, if_false] at hhalf hcmd harg ⊢
    simp only [ckCmd, hcmd, harg, hhalf, Nat.mod_eq_of_lt dev.isLt]
  · simp only [if_true] at hhalf hcmd harg ⊢
    simp only [ckCmd, hcmd, harg, hhalf, Nat.mod_eq_of_lt dev.isLt]

/-- An enabled stream that is set up takes, or lets the TAKE wait. -/
theorem ckTake_setUp {k step : Nat} (he : rdB u (ckReg 0x100) 0 = true) (hv : ownValid u k = true ∨ holdValid u k = true) :
    ckTake u k step = if takeHeld u k && !takeLate u k step then setStream u k { streamOf u k with wait := some (step, now u), late := false }
      else startTake u k step := by
  have hset : (ownValid u k || holdValid u k) = true := by simpa using hv
  simp only [ckTake, he, hset, Bool.not_true, Bool.or_self, Bool.false_eq_true, if_false]

theorem takeHeld_iff {k : Nat} : takeHeld u k = true ↔
    ckBusy u k = true ∨ (holdValid u k && halfCopied u k (nextHalf u k)) = true ∨ takeBusy u k = true := by
  simp only [takeHeld, Bool.or_eq_true, or_assoc]

theorem write_ckLambda {fit : W32} (h : writeOk s a (ckReg 0x110) (BitVec.ofNat 64 fit.toNat) = true) :
    writeNum s a (ckReg 0x110) fit.toNat = lambdaWrite s fit.toNat := by
  show writeBy _ _ _ _ = _
  unfold ckReg at *
  rw [regWrite_dev (x := .ckpt) (i := 0) (by decide) h rfl rfl, typedWrite_rw (m := 0xFFFFFFFF) (by decide) rfl rfl]
  simp only [pageWrite, ckptWrite, if_true]
  exact congrArg (lambdaWrite s) (fieldOf_merged_32 _ fit)

end

/-- Settles O41: each command reaches its stream through CK_INDEX and CK_CMD. -/
theorem checkpointRegisters : Obligations.CheckpointRegisters := by
  refine ⟨?takes, ?waits, ?cancels, ?cancelsWaiting, ?endOwn, ?endHold, ?exports, ?partner, ?flash, ?refused, ?lambda⟩
  case takes =>
    intro a n step u s h hu h2 he hv hl
    rw [exec_ckTakeCmd h hu h2, ckTake_setUp he hv, if_neg]
    obtain hl | ⟨hb, hc, hm⟩ := hl
    · simp [hl]
    · simp [takeHeld, hb, hc, hm]
  case waits =>
    intro a n step v u s h hu h2 he hv hl hw
    rw [exec_ckTakeCmd h hu h2, ckTake_setUp he hv, if_pos (by rw [takeHeld_iff.2 hw, hl]; rfl)]
  case cancels =>
    intro a n v u s h hu h2 hv hw
    rw [exec_ckCancel h hu h2]
    simp only [ckCancel, ← hv, hw, Option.isNone_none, if_true]
  case cancelsWaiting =>
    intro a n w v u s h hu h2 hv hw
    rw [exec_ckCancel h hu h2]
    simp only [ckCancel, ← hv, hw, Option.isNone_some, Bool.false_eq_true, if_false]
  case endOwn =>
    intro n code s h
    rw [ckEndOwn, if_neg (by simpa using Option.isSome_iff_ne_none.1 h)]
  case endHold =>
    intro n code s h
    rw [ckEndHold, if_neg (by simpa using Option.isSome_iff_ne_none.1 h)]
  case exports => exact fun a n half u s h hu h2 hv hx => exec_ckExport h hu h2 hv hx
  case partner => exact fun a n half dev u s h hu h2 => congrArg Host.Outcome.next (write_restore (flash := false) h hu h2)
  case flash => exact fun a n half dev u s h hu h2 => congrArg Host.Outcome.next (write_restore (flash := true) h hu h2)
  case refused =>
    intro n target half s h flash
    rw [startRestore]
    refine if_pos ?_
    obtain h | h := h <;> simp [h]
  case lambda => exact fun a fit s h => congrArg Host.Outcome.next (write_ckLambda h)

end Sys2Proof.Machine

/-! SUPPORT. A firmware packet that waits for the banks of its copy area (R171, R414), HB_CMD (R427) and the UFS host (R407). -/

namespace Sys2Proof.Machine

/-- Steps that change nothing together change nothing. -/
theorem each_fixed {α : Type} {f : State → α → State} {s : State} {l : List α} (h : ∀ b ∈ l, f s b = s) : each l f s = s := by
  unfold each
  induction l with
  | nil => rfl
  | cons x xs ih =>
    rw [List.foldl_cons, h x (List.mem_cons_self ..)]
    exact ih (fun b hb => h b (List.mem_cons_of_mem x hb))

/-! ### A PULL at a copy tile whose banks wake (R171) -/

/-- A PULL of chunk 0 for the M tile 5. -/
def pullPkt : FwPkt :=
  { dst := 5, mcast := false, group := 0, chunk := 0, pull := true, piece := 0, src := 0, hash := 0, data := [] }

/-- Tile 5 is a copy tile that holds none of the image's one chunk, and all its banks are waking. -/
def pulledAsleep : State :=
  { State.reset with
    boot := { State.reset.boot with img := List.replicate 18 0 ++ [1], copyTile := [(0, 5)] }
    regs := [(spReg 5 0x128, BitVec.allOnes 64)] }

/-- The same state while the PULL waits at the tile. -/
def pullDelivered : State := { pulledAsleep with net := { pulledAsleep.net with ejected := [(5, .fw pullPkt)] } }

theorem pullDelivered_taken : takeEjected pullDelivered 5 (.fw pullPkt) = some pulledAsleep := if_pos (by decide)

theorem copyWords_pulledAsleep : copyWords pulledAsleep pullPkt = [(516096, 4096)] := by decide

theorem bankState_pulledAsleep : ∀ b : Fin 32, bankState pulledAsleep 5 b = 3 := by decide

theorem bankOf_five_lt (w : Nat) : bankOf 5 w < 32 := by
  show 4 * ((w / 0x4000) % 8) + (w / 2) % 4 < 32
  omega

/-- Every bank that a range of the tile's words lies in is waking. -/
theorem banksOf_pulledAsleep {w n b : Nat} (hb : b ∈ banksOf 5 w n) : bankState pulledAsleep 5 b = 3 := by
  obtain ⟨i, -, rfl⟩ := List.mem_map.1 (List.mem_eraseDups.1 hb)
  exact bankState_pulledAsleep ⟨bankOf 5 (w + i), bankOf_five_lt _⟩

/-- The PULL waits for the banks of the chunk that it asks for. -/
theorem copyWaits_pulledAsleep : copyWaits pulledAsleep 5 pullPkt = true := by
  have hnone : ownCheck pulledAsleep 5 (516096 / 4) 1024 = none := by
    refine (if_neg (by decide)).trans (if_neg ?_)
    simp only [List.any_eq_true, beq_iff_eq, not_exists, not_and]
    intro b hb h
    rw [banksOf_pulledAsleep hb] at h
    exact absurd h (by decide)
  have hmem : bankOf 5 (516096 / 4) ∈ banksOf 5 (516096 / 4) 1024 :=
    List.mem_eraseDups.2 (List.mem_map.2 ⟨0, List.mem_range.2 (by decide), rfl⟩)
  have hwaits : ownWaits pulledAsleep 5 516096 4096 = true := by
    show ((ownCheck pulledAsleep 5 (516096 / 4) 1024).isNone &&
      (banksOf 5 (516096 / 4) 1024).any (fun k => bankState pulledAsleep 5 k != 0)) = true
    rw [hnone, Option.isNone_none, Bool.true_and, List.any_eq_true]
    exact ⟨_, hmem, by rw [banksOf_pulledAsleep hmem]; rfl⟩
  rw [copyWaits, copyWords_pulledAsleep, List.any_cons, hwaits]
  decide

/-- Banks that wake already are left as they are. -/
theorem ownWake_pullDelivered (b len : Nat) : ownWake pullDelivered 5 b len = pullDelivered := by
  refine each_fixed (fun k hk => if_neg ?_)
  rw [show bankState pullDelivered 5 k = bankState pulledAsleep 5 k from rfl, banksOf_pulledAsleep hk]
  simp

/-- The PULL waits: the step leaves it where it is. -/
theorem exec_fwPacket_pullDelivered : exec (.fwPacket 5 pullPkt) pullDelivered = .next pullDelivered := by
  have hwake : each (copyWords pullDelivered pullPkt) (fun v x => ownWake v 5 x.1 x.2) pullDelivered = pullDelivered :=
    each_fixed (fun x _ => ownWake_pullDelivered x.1 x.2)
  show execFwPacket 5 pullPkt pullDelivered = _
  unfold execFwPacket
  rw [show ((5 : TileId) : Nat) = 5 from rfl]
  simp only [pullDelivered_taken, copyWaits_pulledAsleep, if_true, hwake]

/-- Refutes O42: the clause on a PULL of a chunk that its copy lacks has it discarded and counted at once, but a packet of a copy
tile first waits for the banks of its copy area (R171). In `pullDelivered` those banks are waking and nothing is counted. -/
theorem not_bootPhases : ¬ Obligations.BootPhases := by
  unfold Obligations.BootPhases
  rintro ⟨-, -, -, -, -, -, -, -, -, -, -, -, -, -, -, -, -, -, hdiscarded, -⟩
  have h := hdiscarded 5 pullPkt pulledAsleep pullDelivered pullDelivered_taken rfl (.inr (.inl (by decide)))
  rw [exec_fwPacket_pullDelivered] at h
  have hcount := congrArg (fun s => (rd s (tileReg 5 4 0x080)).toNat) (Host.Outcome.next.inj h)
  exact absurd hcount (by decide)

section
variable {s u : State} {a : Agent}

/-! ### HB_ARG and HB_CMD (R427) -/

/-- HB_CMD after HB_ARG reads the argument just written. -/
theorem rd_hbArg {arg : W64} (hu : u = wr s (hbReg 0x118) arg) : (rd u (hbReg 0x118)).toNat = arg.toNat := by
  rw [hu, rd_wr_self]

theorem write_hbArg_cmd {arg : W64} {c : Nat} (h : writeOk s a (hbReg 0x118) arg = true) (hu : u = wr s (hbReg 0x118) arg)
    (h2 : writeOk u a (hbReg 0x110) (BitVec.ofNat 64 c) = true) (h1 : fieldOf (BitVec.ofNat 64 c) 0 3 = c)
    (hg : fieldOf (BitVec.ofNat 64 c) 3 12 = 0) :
    writeNum (writeBy s a (hbReg 0x118) arg) a (hbReg 0x110) c = hbCmd u c 0 := by
  rw [write_hbArg h, ← hu, write_hbCmd h2 h1 hg]

/-- BOOT gives START its argument. -/
theorem exec_hbBoot {arg : W64} (h : writeOk s a (hbReg 0x118) arg = true) (hu : u = wr s (hbReg 0x118) arg)
    (h2 : writeOk u a (hbReg 0x110) 1 = true) (hp : hbPhase u = 2) (hb : u.boot.bootArg = none) :
    exec (.hbBoot a arg) s = .next { u with boot := { u.boot with bootArg := some arg.toNat } } := by
  refine congrArg Host.Outcome.next ((write_hbArg_cmd h hu h2 rfl rfl).trans ?_)
  simp only [hbCmd, hp, hb, rd_hbArg hu, Option.isNone_none, decide_true, Bool.and_self, if_true]

theorem exec_hbRecheck (h : writeOk s a (hbReg 0x110) 2 = true) :
    exec (.hbRecheck a) s = .next (if hbPhase s = 7 && 1 ≤ s.boot.step then recheck s else ignored s (devPage 7)) :=
  congrArg Host.Outcome.next (write_hbCmd h (c := 2) (g := 0) rfl rfl)

/-- INSTALL_LICENCE reads the licence at its argument. -/
theorem exec_installLicence {arg : W64} (h : writeOk s a (hbReg 0x118) arg = true) (hu : u = wr s (hbReg 0x118) arg)
    (h2 : writeOk u a (hbReg 0x110) 3 = true) (hp : 2 ≤ hbPhase u) (hq : hbPhase u ≤ 10) (hl : lifeCycle u ≠ 5)
    (hi : u.boot.install = none) :
    exec (.installLicence a arg) s = .next (installTry { u with boot := { u.boot with install := some arg.toNat } }) := by
  refine congrArg Host.Outcome.next ((write_hbArg_cmd h hu h2 rfl rfl).trans ?_)
  simp only [hbCmd, hp, hq, bne_iff_ne.2 hl, hi, rd_hbArg hu, Option.isNone_none, decide_true, Bool.and_self, if_true]

/-- JSCAN after a warm reset and before any binding applies the journal at its argument. -/
theorem exec_jscan {arg : W64} (h : writeOk s a (hbReg 0x118) arg = true) (hu : u = wr s (hbReg 0x118) arg)
    (h2 : writeOk u a (hbReg 0x110) 4 = true) (hw : rdB u (hbReg 0x108) 7 = true) (hb : u.boot.bound = false)
    (hj : u.boot.jscan = none) :
    exec (.jscan a arg) s =
      .next (jscanTry (setJscan { u with boot := { u.boot with jscan := some arg.toNat } } 0 0)) := by
  refine congrArg Host.Outcome.next ((write_hbArg_cmd h hu h2 rfl rfl).trans ?_)
  simp only [hbCmd, hw, hb, hj, rd_hbArg hu, Option.isNone_none, Bool.not_false, Bool.and_self, if_true]

/-- SHARE on a ready device sends the tile firmware over the group that it names. -/
theorem exec_shareFw {g : Fin 4096} (h : writeOk s a (hbReg 0x110) (BitVec.ofNat 64 (place 3 12 g.val + 5)) = true)
    (hr : hbReady s = true) : exec (.shareFw a g) s = .next (share s g) := by
  have hg : g.val < 2 ^ 12 := g.isLt
  refine congrArg Host.Outcome.next ((write_hbCmd h (c := 5) (g := g.val)
    (fieldOf_place_low hg (by decide) (by decide) (by decide)) (fieldOf_place_high hg (by decide) (by decide))).trans ?_)
  simp only [hbCmd, hr, if_true]

/-! ### The UFS host (R407) -/

/-- While it is enabled and a slot is free the host controller issues the next command. -/
theorem exec_ufsCommand_issues {aux : Fin 6} {x : UfsCmd} (hu : u = if aux.val = 0 then s else setUfs s
      ({ op := if aux.val = 5 then 2 else 2 + aux.val, lun := 0, block := 0, count := 0, data := [], user := .host, tries := 0
         issued := false } :: s.ufs.cmds))
    (he : rdB s (ufsReg 0x100) 0 = true) (hf : (s.ufs.cmds.filter (fun y => y.issued)).length < 32)
    (hx : ufsNext (now s) u.ufs.cmds = some x) :
    exec (.ufsCommand aux) s = .next (incWrap (ufsIssue (setUfs u
      (markFirst (fun y => y == x) (fun y => { y with issued := true }) u.ufs.cmds)) x) (ufsReg 0x080) 1) := by
  show execUfsCommand aux s = _
  unfold execUfsCommand
  simp only [← hu, he, hx, Nat.not_le.2 hf, decide_false, Bool.not_true, Bool.or_self, Bool.false_eq_true, if_false]

variable {k : Fin 32} {data : List Byte} {p : Nat} {x : UfsCmd}

/-- The first failure of a command sends it again. -/
theorem exec_ufsCommandCompletion_retried (hk : issuedAt s.ufs.cmds k.val 0 = some p) (hx : s.ufs.cmds[p]? = some x)
    (ht : x.tries = 0) (hu : u = { s with ufs := { s.ufs with idleSince := now s + 1 } }) :
    exec (.ufsCommandCompletion k false data) s = .next
      (incWrap (ufsIssue (incSat (setUfs u (s.ufs.cmds.set p { x with tries := 1 })) (ufsReg 0x90)) x) (ufsReg 0x80) 1) := by
  subst hu
  show execUfsCommandCompletion k false data s = _
  unfold execUfsCommandCompletion
  simp only [hk, hx, ht, Bool.not_false, decide_true, Bool.and_self, if_true]

/-- The second failure of a command ends it with its record. -/
theorem exec_ufsCommandCompletion_failed (hk : issuedAt s.ufs.cmds k.val 0 = some p) (hx : s.ufs.cmds[p]? = some x)
    (ht : x.tries ≠ 0) (hu : u = { s with ufs := { s.ufs with idleSince := now s + 1 } }) :
    exec (.ufsCommandCompletion k false data) s = .next
      (ufsUser (report (incSat (setUfs u (s.ufs.cmds.eraseIdx p)) (ufsReg 0x90)) (devPage 14) 0x0E14) x.user false []) := by
  subst hu
  show execUfsCommandCompletion k false data s = _
  unfold execUfsCommandCompletion
  simp only [hk, hx, ht, decide_false, Bool.and_false, Bool.false_eq_true, if_false]

theorem exec_ufsCommandCompletion_done (hk : issuedAt s.ufs.cmds k.val 0 = some p) (hx : s.ufs.cmds[p]? = some x)
    (hu : u = { s with ufs := { s.ufs with idleSince := now s + 1 } }) :
    exec (.ufsCommandCompletion k true data) s = .next (ufsUser (incWrap (setUfs u (s.ufs.cmds.eraseIdx p)) (ufsReg 0x88) x.bytes)
      x.user true (if x.op = 0 then fitBytes x.bytes data else [])) := by
  subst hu
  show execUfsCommandCompletion k true data s = _
  unfold execUfsCommandCompletion
  simp only [hk, hx, Bool.not_true, Bool.false_and, Bool.false_eq_true, if_true, if_false]

theorem exec_hibern8Entry (hl : ufsLink s = 1) (hi : s.ufs.cmds.any (fun x => x.issued) = false)
    (ht : s.ufs.idleSince + 1000000 ≤ now s + 1) : exec .hibern8Entry s = .next (wrF s (ufsReg 0x108) 0 2 2) := by
  refine congrArg Host.Outcome.next (if_pos ?_)
  rw [hi, decide_eq_true hl, decide_eq_true ht]
  rfl

end

/-- Settles O43: each HB_CMD by the page's rule, and each command to the flash device by its place in the list. -/
theorem bootCommands : Obligations.BootCommands := by
  refine ⟨?boot, ?recheck, ?noRecheck, ?install, ?scan, ?sharing, ?issues, ?retried, ?failed, ?done, ?rests⟩
  case boot => exact fun a arg u s h hu h2 hp hb => exec_hbBoot h hu h2 hp hb
  case recheck =>
    intro a s h hp hs
    rw [exec_hbRecheck h, if_pos (by simp [hp, hs])]
  case noRecheck =>
    intro a s h hp
    rw [exec_hbRecheck h, if_neg]
    obtain hp | hs := hp
    · simp [hp]
    · simp [hs]
  case install => exact fun a arg u s h hu h2 hp hq hl hi => exec_installLicence h hu h2 hp hq hl hi
  case scan => exact fun a arg u s h hu h2 _ _ hw hb hj => exec_jscan h hu h2 hw hb hj
  case sharing => exact fun a g s h hr => exec_shareFw h hr
  case issues => exact fun aux x u s hu he hf hx => exec_ufsCommand_issues hu he hf hx
  case retried => exact fun k data p x s hk hx ht => exec_ufsCommandCompletion_retried hk hx ht rfl
  case failed => exact fun k data p x s hk hx ht => exec_ufsCommandCompletion_failed hk hx ht rfl
  case done => exact fun k data p x s hk hx => exec_ufsCommandCompletion_done hk hx rfl
  case rests => exact fun s hl hi ht => exec_hibern8Entry hl hi ht

end Sys2Proof.Machine

/-! SUPPORT. Yew's schedule, tests, sweeps, canaries and records (R430–R443). -/

namespace Sys2Proof.Machine

section
variable {s u : State} {c : ClusterId}

/-! ### The schedule (R433–R435) -/

/-- The next cluster in rotation falls due, or its request is refused. -/
theorem exec_infieldDue {k t : Nat} (he : rdB s (ywReg 0x100) 0 = true) (hn : s.yew.nextDt ≤ now s) (hk : nextCluster s = some k)
    (ht : t = if s.yew.nextDt = 0 then now s else s.yew.nextDt)
    (hu : u = { s with yew := { s.yew with last := k, nextDt := t + testPeriod s } }) :
    exec .infieldDue s = .next (if !yewAllowed s then yewDenied u else if (mapFind k s.yew.due).isSome then u else makeDue u k t) := by
  subst ht hu
  show execInfieldDue s = _
  unfold execInfieldDue
  simp only [he, hk, Nat.not_lt.2 hn, decide_false, Bool.not_true, Bool.or_self, Bool.false_eq_true, if_false]

/-- The deferral window of a placed cluster closes. -/
theorem exec_yieldRequest_closes {d : Nat} (hd : mapFind c.val s.yew.due = some d) (hy : rdB s (ywReg 0x118) 63 = false)
    (ht : d + hours24 ≤ now s) (hp : (placedOn s c).isEmpty = false)
    (hu : u = { s with yew := { s.yew with yieldDt := now s, vacate := s.yew.vacate.erase c } }) :
    exec (.yieldRequest c) s = .next (raise (report
      (wr u (ywReg 0x118) (BitVec.ofNat 64 (2 ^ 63 + place 32 9 c.val + d / 1000000000 % 2 ^ 32))) ywPage 0x0F04
      { detail := [c.val] }) 379) := by
  subst hu
  have hy' : bitOf (rd s (ywReg 0x118)) 63 = false := hy
  show execYieldRequest c s = _
  unfold execYieldRequest
  simp only [hd, hy', ht, hp, decide_true, Bool.not_false, Bool.and_self, Bool.false_eq_true, if_true, if_false]

/-- A due cluster that is vacated, in service and not held back is at Yew's disposal. -/
theorem infieldTest_vacated (hd : (mapFind c.val s.yew.due).isSome = true) (hv : s.yew.vacate.contains c.val = true)
    (hp : (placedOn s c).isEmpty = true) (hh : heldBack s c = false) (hf : clusterFenced s c = false) (h3 : devState s ≠ 3) :
    ((mapFind c.val s.yew.due).isNone || !s.yew.vacate.contains c.val || !(placedOn s c).isEmpty || heldBack s c ||
      clusterFenced s c || decide (devState s = 3)) = false := by
  rw [← Option.not_isSome, hd, hv, hp, hh, hf, decide_eq_false h3]
  rfl

/-- Yew is free for a mode only where the life cycle allows its tests. -/
theorem yewAllowed_of_yewFree {mode : Nat} (h : yewFree s mode = true) : yewAllowed s = true := by
  simp only [yewFree, Bool.and_eq_true] at h
  exact h.1.2

/-- A cluster at Yew's disposal is tested, or its test is queued. -/
theorem exec_infieldTest {pace : Nat}
    (hready : ((mapFind c.val s.yew.due).isNone || !s.yew.vacate.contains c.val || !(placedOn s c).isEmpty || heldBack s c ||
      clusterFenced s c || decide (devState s = 3)) = false) (ha : yewAllowed s = true) (hs : scrubFirst s c = false) :
    exec (.infieldTest c pace) s = .next (if yewFree s 1 then noteDrift (beginTest s (newTest 1 c.val)) c pace
      else enqueueTest s (newTest 1 c.val)) := by
  show execInfieldTest c pace s = _
  unfold execInfieldTest
  simp only [hready, ha, hs, Bool.not_true, Bool.false_eq_true, if_false]

/-- In P3, and before the scrub of a bank, no in-field test begins. -/
theorem exec_infieldTest_deferred {pace : Nat} (h : devState s = 3 ∨ (yewAllowed s = true ∧ scrubFirst s c = true)) :
    exec (.infieldTest c pace) s = .next s := by
  show execInfieldTest c pace s = _
  unfold execInfieldTest
  obtain h3 | ⟨ha, hs⟩ := h
  · rw [if_pos (by simp [h3])]
  · simp only [ha, hs, Bool.not_true, Bool.false_eq_true, if_true, if_false, ite_self]

/-! ### The queue (R430, R431) -/

theorem queueTest_room {x : YewTest} (hn : s.yew.queue.any (fun y => y.mode == x.mode && y.cluster == x.cluster) = false)
    (hl : s.yew.queue.length < 16) : queueTest s x = some (setQueue s (s.yew.queue ++ [x])) := by
  simp only [queueTest, hn, hl, Bool.false_eq_true, if_true, if_false]

/-- In a full queue an in-field test gives way to another mode. -/
theorem queueTest_full {x y : YewTest} (hn : s.yew.queue.any (fun y => y.mode == x.mode && y.cluster == x.cluster) = false)
    (hl : 16 ≤ s.yew.queue.length) (hm : x.mode ≠ 1) (hy : s.yew.queue.reverse.find? (fun y => y.mode == 1) = some y) :
    queueTest s x = some (setQueue s (s.yew.queue.erase y ++ [x])) := by
  simp only [queueTest, hn, Nat.not_lt.2 hl, hm, hy, Option.map_some, Bool.false_eq_true, if_false]

/-- A quarantined cluster without a result, and not under a test, is to be confirmed. -/
theorem confirmTest_due (hq : s.commit.quar.any (fun (q : Suspect) => q.cluster == c.val) = true)
    (hc : mapGet (fun _ => 0) s.commit.confirm c = 0) (hh : heldBack s c = false)
    (hr : s.yew.run.any (fun (x : YewTest) => x.cluster == c.val) = false) :
    (!s.commit.quar.any (fun (q : Suspect) => q.cluster == c.val) || mapGet (fun _ => 0) s.commit.confirm c != 0 || heldBack s c ||
      s.yew.run.any (fun (x : YewTest) => x.cluster == c.val)) = false := by
  rw [hq, hc, hh, hr]
  rfl

/-- The first CONFIRM request of the queue, if any, is for the cluster. -/
theorem exec_confirmTest_begins
    (hdue : (!s.commit.quar.any (fun (q : Suspect) => q.cluster == c.val) || mapGet (fun _ => 0) s.commit.confirm c != 0 || heldBack s c ||
      s.yew.run.any (fun (x : YewTest) => x.cluster == c.val)) = false) (hf : yewFree s 2 = true)
    (hfirst : s.yew.queue.find? (fun x => x.mode == 2) = none ∨
      (s.yew.queue.find? (fun x => x.mode == 2)).map (fun x => x.cluster) = some c.val)
    (hr : (residentOn s (tilesOf c)).isEmpty = true) :
    exec (.confirmTest c) s = .next (beginTest s (newTest 2 c.val)) := by
  show execConfirmTest c s = _
  unfold execConfirmTest
  cases hq : s.yew.queue.find? (fun x => x.mode == 2) with
  | none => simp only [hdue, yewAllowed_of_yewFree hf, hf, hr, Bool.not_true, Bool.and_self, Bool.false_eq_true, if_true, if_false]
  | some x =>
    have hx : x.cluster = c.val := by simpa [hq] using hfirst
    simp only [hdue, yewAllowed_of_yewFree hf, hf, hr, hx, BEq.rfl, Bool.not_true, Bool.and_self, Bool.false_eq_true, if_true, if_false]

theorem exec_confirmTest_queued
    (hdue : (!s.commit.quar.any (fun (q : Suspect) => q.cluster == c.val) || mapGet (fun _ => 0) s.commit.confirm c != 0 || heldBack s c ||
      s.yew.run.any (fun (x : YewTest) => x.cluster == c.val)) = false) (ha : yewAllowed s = true)
    (hw : yewFree s 2 = false ∨ (residentOn s (tilesOf c)).isEmpty = false) :
    exec (.confirmTest c) s = .next (enqueueTest s (newTest 2 c.val)) := by
  show execConfirmTest c s = _
  unfold execConfirmTest
  obtain hw | hw := hw <;>
    simp only [hdue, ha, hw, Bool.not_true, Bool.false_and, Bool.and_false, Bool.false_eq_true, if_false]

/-! ### Results (R431, R432, R436, R438) -/

variable {t : YewTest} {service stress : List (TileId × Fin 10)} {chans weak : List ChanId}

/-- A test that nothing spoilt. -/
theorem testBad_sound (hb : t.bad = false) (hc : clockBad s = false) (hf : fencedIn s t.cluster = t.fenced) : testBad s t = false := by
  simp [testBad, hb, hc, hf]

/-- A test of one cluster whose voltage was reached has its result. -/
theorem exec_testComplete_done (hr : s.yew.run = some t) (hm : t.mode = 1 ∨ t.mode = 2) (hb : testBad s t = false)
    (hs : t.started = true) : exec (.testComplete service stress chans weak) s = .next (testDone s t service stress) := by
  have h4 : t.mode ≠ 4 := by omega
  have h12 : (t.mode != 1 && t.mode != 2) = false := by obtain h | h := hm <;> simp [h]
  show execTestComplete service stress chans weak s = _
  unfold execTestComplete
  simp only [hr, h4, h12, hb, hs, Bool.not_true, Bool.false_eq_true, if_false]

/-- A test that something spoilt is invalid. -/
theorem exec_testComplete_invalid (hr : s.yew.run = some t) (hm : t.mode = 1 ∨ t.mode = 2 ∨ (t.mode = 4 ∧ t.fails = []))
    (hb : testBad s t = true) : exec (.testComplete service stress chans weak) s = .next (invalidTest s t) := by
  show execTestComplete service stress chans weak s = _
  unfold execTestComplete
  obtain h | h | ⟨h, hf⟩ := hm
  · simp [hr, h, hb]
  · simp [hr, h, hb]
  · simp [hr, h, hf, hb]

/-- Before its voltage is reached a test has no result. -/
theorem exec_testComplete_early (hr : s.yew.run = some t) (hm : t.mode = 1 ∨ t.mode = 2 ∨ (t.mode = 4 ∧ t.fails = []))
    (hb : testBad s t = false) (hs : t.started = false) : exec (.testComplete service stress chans weak) s = .next s := by
  show execTestComplete service stress chans weak s = _
  unfold execTestComplete
  obtain h | h | ⟨h, hf⟩ := hm
  · simp [hr, h, hb, hs]
  · simp [hr, h, hb, hs]
  · simp [hr, h, hf, hb, hs]

/-- The shut-down test goes on with the next segment, or ends. -/
theorem exec_testComplete_wave (hr : s.yew.run = some t) (hm : t.mode = 4) (hf : t.fails = []) (hb : testBad s t = false)
    (hs : t.started = true)
    (hu : u = sdChannels (waveDone s t.cluster service stress) (chans.map (fun h => h.val)) (weak.map (fun h => h.val))) :
    exec (.testComplete service stress chans weak) s = .next ((nextWave u (t.cluster + 1)).getD
      (sdFinish { u with yew := { u.yew with run := some { t with fails := [(4608, 0)] } } })) := by
  subst hu
  show execTestComplete service stress chans weak s = _
  unfold execTestComplete
  simp only [hr, hm, hf, hb, hs, List.isEmpty_nil, Bool.not_true, Bool.false_eq_true, if_true, if_false]
  cases nextWave (sdChannels (waveDone s t.cluster service stress) (chans.map (fun h => h.val)) (weak.map (fun h => h.val)))
    (t.cluster + 1) <;> rfl

/-- A test without failures releases its cluster. -/
theorem testDone_passed (hf : failsIn s t.cluster service = [])
    (hu : u = takeResult s t.cluster [] (failsIn s t.cluster stress)) :
    testDone s t service stress = releaseClusters
      (yewIdle (marched (if t.mode = 2 then confirmResult u t.cluster true else testRan u t.cluster) [t.cluster])) [t.cluster] := by
  subst hu
  simp only [testDone, hf, List.isEmpty_nil, if_true]

/-- A failed test goes on to a sweep: after the CONFIRM tests that wait when the queue has room, else at once. -/
theorem testDone_failed {v : State} {x : YewTest} (hf : failsIn s t.cluster service ≠ [])
    (hu : u = takeResult s t.cluster (failsIn s t.cluster service) (failsIn s t.cluster stress))
    (hv : v = marched (if t.mode = 2 then confirmResult u t.cluster false else testRan u t.cluster) [t.cluster])
    (hx : x = { t with mode := 3, fails := failsIn s t.cluster service }) :
    testDone s t service stress = if v.yew.queue.any (fun y => y.mode == 2) = true ∧ (queueTest v x).isSome = true
      then yewIdle ((queueTest v x).getD v) else wrF { v with yew := { v.yew with run := some x } } (ywReg 0x108) 0 3 3 := by
  have he : (failsIn s t.cluster service).isEmpty = false := by simpa using hf
  simp only [testDone, he, Bool.false_eq_true, if_false, ← hu, ← hv, ← hx]
  cases v.yew.queue.any (fun y => y.mode == 2) with
  | false => simp
  | true => cases queueTest v x <;> simp

/-! ### Sweeps (R436, R438) -/

variable {grid : List (TileId × Fin 10 × Fin 801 × Int)}

theorem exec_sweep_done (hr : s.yew.run = some t) (hm : t.mode = 3) (hb : testBad s t = false) (hs : t.started = true) :
    exec (.sweep grid) s = .next (sweepDone s t grid) := by
  show execSweep grid s = _
  unfold execSweep
  simp only [hr, hm, hb, hs, Bool.false_eq_true, if_true, if_false]

/-- Before its voltage is reached a sweep has no result. -/
theorem exec_sweep_early (hr : s.yew.run = some t) (hm : t.mode = 3) (hb : testBad s t = false) (hs : t.started = false) :
    exec (.sweep grid) s = .next s := by
  show execSweep grid s = _
  unfold execSweep
  simp only [hr, hm, hb, hs, Bool.false_eq_true, if_true, if_false]

/-- A sweep of the shut-down test ends with its entries applied. -/
theorem exec_sweep_shutdown {x : YewTest} {l : List YewTest} (hr : s.yew.run = some t) (hm : t.mode = 4)
    (hx : s.yew.sdSweeps = x :: l) (hb : testBad s t = false)
    (hu : u = marched { s with yew := { s.yew with sdSweeps := l } } [x.cluster]) :
    exec (.sweep grid) s = .next
      (sdFinish (releaseClusters (each (sweepEntries u x.cluster x.fails grid) yewFence u) [x.cluster])) := by
  subst hu
  show execSweep grid s = _
  unfold execSweep
  simp only [hr, hm, hx, hb, Nat.reduceEqDiff, Bool.false_eq_true, if_true, if_false]

/-- With Yew idle the sweep that waits first has its turn. -/
theorem exec_sweep_idle {x : YewTest} (hr : s.yew.run = none) (hf : yewFree s 3 = true)
    (hx : s.yew.queue.find? (fun y => y.mode == 3) = some x) (hu : u = setQueue s (s.yew.queue.erase x)) :
    exec (.sweep grid) s = .next (if underTest s x.cluster then
        wrF (wrF { u with yew := { u.yew with run := some x } } (ywReg 0x108) 0 3 3) (ywReg 0x108) 3 9 x.cluster
      else if (placedOn s x.cluster).isEmpty then beginTest s x else s) := by
  subst hu
  show execSweep grid s = _
  unfold execSweep
  simp only [hr, beginSweep, hf, hx, if_true]

/-! ### Canaries and the hourly record (R441, R443) -/

/-- A trip is counted in its second and its hour, and acts at the limit. -/
theorem exec_canaryTrip {t : TileId} {router : Bool} {k n : Nat} {l : List Nat} {v : State} (hut : underTest s (clusterOf t) = false)
    (hk : k = 2 * clusterOf t + bit01 router)
    (hn : n = if mapGet (fun _ => 0) s.yew.tripWin k = now s / 1000000000 + 1 then mapGet (fun _ => 0) s.yew.trips k + 1 else 1)
    (hl : l = if mapGet (fun _ => 0) s.yew.tripWin k = now s / 1000000000 + 1
      then (mapGet (fun _ => []) s.yew.tripTiles k ++ [t.val]).eraseDups else [t.val])
    (hu : u = { s with yew := { s.yew with trips := mapPut (fun _ => 0) s.yew.trips k n
                                           tripWin := mapPut (fun _ => 0) s.yew.tripWin k (now s / 1000000000 + 1)
                                           tripTiles := mapPut (fun _ => []) s.yew.tripTiles k l } })
    (hv : v = noteHour (incWrap u (ywReg 0x098) 1) (clusterOf t) (fun h => { h with trips := min 65535 (h.trips + 1) })) :
    exec (.canaryTrip t router) s = .next (
      if rdF s (ywReg 0x100) 24 8 ≤ n ∧ mapGet (fun _ => 0) s.yew.holdEnd k ≤ now s then
        let w := { v with yew := { v.yew with
          holdEnd := mapPut (fun _ => 0) v.yew.holdEnd k (now s + rdF s (ywReg 0x100) 32 8 * 1000000000) } }
        if router then routerAction w (clusterOf t) l else tileAction w (clusterOf t)
      else v) := by
  show execCanaryTrip t router s = _
  unfold execCanaryTrip
  by_cases hw : mapGet (fun _ => 0) s.yew.tripWin k = now s / 1000000000 + 1
  · rw [if_pos hw] at hn hl
    subst hn hl hu hv hk
    simp only [hut, hw, bne_self_eq_false, Bool.false_eq_true, if_false, Bool.and_eq_true, decide_eq_true_eq]
  · rw [if_neg hw] at hn hl
    subst hn hl hu hv hk
    simp only [hut, bne_iff_ne.2 hw, Bool.false_eq_true, if_true, if_false, Bool.and_eq_true, decide_eq_true_eq]

/-- The hour that has ended is recorded once, where the flash ring has its area. -/
theorem exec_ageingRecord_written {w : Nat} {d : Nat × Nat × Nat} (hw : w = now s / hourNs) (h0 : w ≠ 0) (ha : s.yew.aged ≠ w)
    (hd : dirEntry s 4 = some d) : exec .ageingRecord s = .next
      (ufsWrite (dropHours s w) d.1 (d.2.1 + 1 + 2 * ((w - 1) % 8784)) (ageSlot s (w - 1)) (.ageWrite w)) := by
  show execAgeingRecord s = _
  unfold execAgeingRecord
  simp only [← hw, h0, ha, hd, decide_false, Bool.or_self, Bool.false_eq_true, if_false]

theorem exec_ageingRecord_noArea {w : Nat} (hw : w = now s / hourNs) (h0 : w ≠ 0) (ha : s.yew.aged ≠ w)
    (hd : dirEntry s 4 = none) : exec .ageingRecord s = .next (report (dropHours s w) ywPage 0x0F0B) := by
  show execAgeingRecord s = _
  unfold execAgeingRecord
  simp only [← hw, h0, ha, hd, decide_false, Bool.or_self, Bool.false_eq_true, if_false]

/-- An invalid test whose wait is over is queued again, or waits on for want of room. -/
theorem exec_requeueTimer : exec .requeueTimer s = .next (
    each (s.yew.again.filter (fun x => x.2 ≤ now s)) (fun u x =>
      if x.1.mode = 4 then shutdownTest u
      else (queueTest u x.1).getD { u with yew := { u.yew with again := u.yew.again ++ [x] } })
      { s with yew := { s.yew with again := s.yew.again.filter (fun x => now s < x.2) } }) := by
  refine congrArg Host.Outcome.next (each_congr (fun u x _ => ?_) _)
  cases queueTest u x.1 <;> rfl

end

/-- Settles O44: each event of Yew by its own meaning. -/
theorem testEvents : Obligations.TestEvents := by
  refine ⟨?due, ?refused, ?yields, ?tested, ?waits, ?deferred, ?requeued, ?room, ?full, ?confirms, ?confirmWaits, ?passed, ?failed,
    ?invalid, ?early, ?wave, ?swept, ?sdSwept, ?sweepHeld, ?sweepBegins, ?trip, ?aged, ?noArea⟩
  case due =>
    intro c t u s he ha hn hk ht hu
    rw [exec_infieldDue he hn hk ht hu, ha]
    rfl
  case refused =>
    intro c s he ha hn hk
    rw [exec_infieldDue he hn hk rfl rfl, ha]
    rfl
  case yields => exact fun c d u s hd hy ht hp hu => exec_yieldRequest_closes hd hy ht hp hu
  case tested =>
    intro c pace s hd hv hp hh hf h3 hs hfree
    rw [exec_infieldTest (infieldTest_vacated hd hv hp hh hf h3) (yewAllowed_of_yewFree hfree) hs, if_pos hfree]
  case waits =>
    intro c pace s hd hv hp hh hf h3 hs ha hfree
    rw [exec_infieldTest (infieldTest_vacated hd hv hp hh hf h3) ha hs, if_neg (by simp [hfree])]
  case deferred => exact fun c pace s h => exec_infieldTest_deferred h
  case requeued => exact fun s => exec_requeueTimer
  case room => exact fun x s hn hl => queueTest_room hn hl
  case full => exact fun x y s hn hl hm hy => queueTest_full hn hl hm hy
  case confirms => exact fun c s hq hc hh hr hf hfirst hres => exec_confirmTest_begins (confirmTest_due hq hc hh hr) hf hfirst hres
  case confirmWaits => exact fun c s hq hc hh hr ha hw => exec_confirmTest_queued (confirmTest_due hq hc hh hr) ha hw
  case passed =>
    intro service stress chans weak t u s hr hm hb hc hf hs hpass hu
    rw [exec_testComplete_done hr hm (testBad_sound hb hc hf) hs, testDone_passed hpass hu]
  case failed =>
    intro service stress chans weak t x u v s hr hm hb hc hf hs hfail hu hv hx
    rw [exec_testComplete_done hr hm (testBad_sound hb hc hf) hs, testDone_failed hfail hu hv hx]
  case invalid =>
    intro service stress chans weak t s hr h
    obtain ⟨hm, hb⟩ | ⟨hm, hf, hb⟩ := h
    · refine exec_testComplete_invalid hr (hm.imp_right .inl) ?_
      have h4 : t.mode ≠ 4 := by omega
      simpa [testBad, h4, or_assoc] using hb
    · refine exec_testComplete_invalid hr (.inr (.inr ⟨hm, hf⟩)) ?_
      simpa [testBad, hm] using hb
  case early =>
    intro service stress chans weak grid t s hr hb hc hf hs
    exact ⟨fun hm => exec_testComplete_early hr hm (testBad_sound hb hc hf) hs,
      fun hm => exec_sweep_early hr hm (testBad_sound hb hc hf) hs⟩
  case wave =>
    intro service stress chans weak t u s hr hm hf hb hc hs hu
    exact exec_testComplete_wave hr hm hf (by simp [testBad, hb, hc, hm]) hs hu
  case swept => exact fun grid t s hr hm hb hs => exec_sweep_done hr hm hb hs
  case sdSwept => exact fun grid t x l u s hr hm hx hb hu => exec_sweep_shutdown hr hm hx hb hu
  case sweepHeld =>
    intro grid x u s hr hf hx hut hu
    rw [exec_sweep_idle hr hf hx hu, if_pos hut]
  case sweepBegins =>
    intro grid x s hr hf hx hut hp
    rw [exec_sweep_idle hr hf hx rfl, if_neg (by simp [hut]), if_pos (by simp [hp])]
  case trip => exact fun t router k n l u v s hut hk hn hl hu hv => exec_canaryTrip hut hk hn hl hu hv
  case aged => exact fun w d s hw h0 ha hd => exec_ageingRecord_written hw h0 ha hd
  case noArea => exact fun w s hw h0 ha hd => exec_ageingRecord_noArea hw h0 ha hd

section
variable {s u : State} {a : Agent}

/-! ### YW_CMD (R429, R435, R438, R444) -/

/-- SHUTDOWN_TEST with nothing resident and Yew idle begins with the first segment that has a cluster to test. -/
theorem shutdownTest_begins {v : State} (ha : yewAllowed s = true) (hn : anyResident s = false) (hr : s.yew.run = none)
    (hu : u = fillMem { s with yew := { s.yew with sdFences := 0, sdSweeps := []
                                                   run := some { newTest 4 8 with fails := [(4608, 0)] } } } 0 0x6000000000 true)
    (hv : v = wrF u (ywReg 0x108) 0 3 4) : shutdownTest s = (nextWave v 0).getD (sdFinish v) := by
  subst hu hv
  simp only [shutdownTest, ha, hn, hr, Option.any_none, Bool.not_true, Bool.false_eq_true, if_false]

/-- The segment from which the test goes on is the next, when it has a cluster to test. -/
theorem nextWave_testable {g : Nat} (hg : g < 8) (ht : testable s g ≠ [])
    (hu : u = { s with yew := { s.yew with
      run := some { mode := 4, cluster := g, started := false, bad := false, fenced := 0, fails := [] }
      ready := s.yew.ready.filter (fun c => !(testable s g).contains c)
      testVolt := s.yew.testVolt.filter (fun e => !(testable s g).contains e.1) ++
        (testable s g).map (fun c => (c, clampVolt (serviceVolt s c))) } }) :
    nextWave s g = some (wrF (resetClusters u (testable s g)) (ywReg 0x108) 3 9 ((testable s g).headD 0)) := by
  have hfind : (List.range 8).find? (fun k => g ≤ k && !(testable s k).isEmpty) = some g := by
    rw [List.find?_range_eq_some]
    refine ⟨by simp [ht], List.mem_range.2 hg, fun j hj => ?_⟩
    simp [Nat.not_le.2 hj]
  subst hu
  simp only [nextWave, hfind, Option.map_some]
  rfl

theorem exec_ywTestNow {c : Fin 512} (h : writeOk s a (ywReg 0x110) (BitVec.ofNat 64 (place 8 9 c.val + 3)) = true) :
    exec (.ywTestNow a c) s = .next (if 288 ≤ c.val then ignored s ywPage
      else if yewAllowed s then makeDue s c (now s) else yewDenied s) := by
  have hc : c.val < 2 ^ 9 := c.isLt
  exact congrArg Host.Outcome.next (write_ywCmd h (c := 3) (g := c.val)
    (fieldOf_place_low hc (by decide) (by decide) (by decide)) (fieldOf_place_high hc (by decide) (by decide)))

/-- YIELD_GRANT vacates the cluster that waits. -/
theorem yieldGrant_waiting (hy : rdB s (ywReg 0x118) 63 = true) (hv : s.yew.vacate.contains (rdF s (ywReg 0x118) 32 9) = false) :
    yieldGrant s = { s with yew := { s.yew with vacate := s.yew.vacate ++ [rdF s (ywReg 0x118) 32 9] } } := by
  have hif : (bitOf (rd s (ywReg 0x118)) 63 && !s.yew.vacate.contains (fieldOf (rd s (ywReg 0x118)) 32 9)) = true := by
    rw [show bitOf (rd s (ywReg 0x118)) 63 = true from hy, show s.yew.vacate.contains (fieldOf (rd s (ywReg 0x118)) 32 9) = false from hv]
    rfl
  exact if_pos hif

theorem rawEnter_allowed (ha : rawAllowed s = true) (hr : s.yew.run = none) :
    rawEnter s = wrF { s with yew := { s.yew with run := some (newTest 5 0) }, pad := { s.pad with rawMode := true } }
      (ywReg 0x108) 0 3 5 := by
  simp only [rawEnter, ha, hr, Option.isSome_none, Bool.not_true, Bool.false_eq_true, if_false]

/-! ### RAW mode (R429, R444) -/

/-- In RAW mode YW_RAW_DATA writes the word that YW_RAW_ADDR names, with its check bits. -/
theorem write_ywRaw_word {v : W64} {w : Nat × Nat} (h : writeOk s a (ywReg 0x808) v = true) (hr : inRaw s = true)
    (hw : rawWord s = some w) : writeBy s a (ywReg 0x808) v =
      setChk (writeNat s (padAddr w.1 w.2) 4 (fieldOf v 0 32)) (padAddr w.1 w.2) (actCheck (fieldOf v 0 32) w.2 ^^^ fieldOf v 32 8) := by
  obtain ⟨hlow, hhigh⟩ := fieldOf_merged_40 (rd s (devReg 9 0x808)) v
  rw [write_ywRaw h]
  simp only [yewWrite, merged, hlow, hhigh, hr, hw, Nat.reduceEqDiff, decide_false, Bool.false_and, Bool.not_true, Bool.false_eq_true,
    if_true, if_false]

/-- In RAW mode YW_RAW_TRIM sets the trim of the cluster that YW_INDEX names. -/
theorem write_ywRawTrim_cluster {v : W64} (h : writeOk s a (ywReg 0x810) v = true) (hr : inRaw s = true)
    (hc : rdF s (ywReg 0x120) 0 9 < 288) : writeBy s a (ywReg 0x810) v =
      { s with commit := { s.commit with
        rawTrim := mapInsert (rdF s (ywReg 0x120) 0 9) v.toNat (mapErase (rdF s (ywReg 0x120) 0 9) s.commit.rawTrim) } } := by
  rw [write_ywRawTrim h]
  simp only [yewWrite, hr, hc, Nat.reduceEqDiff, decide_true, decide_false, Bool.false_and, Bool.and_self, Bool.false_eq_true, if_true,
    if_false]

/-- What YW_RAW_DATA shows in RAW mode. -/
theorem regView_ywRaw {w : Nat × Nat} {key : Nat} (hr : inRaw s = true) (hw : rawWord s = some w) :
    regView s .yew 0 0x808 key = BitVec.ofNat 64 (padWord s w.1 w.2 + (storedCheck s w.1 w.2 <<< 32)) := by
  unfold regView
  simp only [hr, hw, if_true]
  rfl

/-- What YW_RAW_TRIM shows in RAW mode. -/
theorem regView_ywRawTrim {key : Nat} (hr : inRaw s = true) :
    regView s .yew 0 0x810 key = BitVec.ofNat 64 (trimVector s (rdF s (ywReg 0x120) 0 9)) := by
  unfold regView
  simp only [hr, if_true]
  rfl

theorem read_ywRaw {w : Nat × Nat} (h : readOk s a (ywReg 0x808) = true) (hr : inRaw s = true) (hw : rawWord s = some w) :
    readBy s a (ywReg 0x808) =
      emit s (.regRead a 0 (BitVec.ofNat 64 (padWord s w.1 w.2 + (storedCheck s w.1 w.2 <<< 32)))) :=
  (regRead_dev (x := .yew) (i := 0) (by decide) h rfl rfl).trans
    (congrArg (fun v => emit s (.regRead a 0 v)) (regView_ywRaw hr hw))

theorem read_ywRawTrim (h : readOk s a (ywReg 0x810) = true) (hr : inRaw s = true) :
    readBy s a (ywReg 0x810) = emit s (.regRead a 0 (BitVec.ofNat 64 (trimVector s (rdF s (ywReg 0x120) 0 9)))) :=
  (regRead_dev (x := .yew) (i := 0) (by decide) h rfl rfl).trans
    (congrArg (fun v => emit s (.regRead a 0 v)) (regView_ywRawTrim hr))

end

/-- Settles O45: each YW_CMD by the page's rule, and the RAW registers in RAW mode. -/
theorem testRegisters : Obligations.TestRegisters := by
  refine ⟨?shutdown, ?wave, ?resident, ?yields, ?now, ?noCluster, ?refused, ?enters, ?leaves, ?writes, ?trims, ?reads, ?readsTrim⟩
  case shutdown =>
    intro a v u s h ha hn hr hu hv
    exact congrArg Host.Outcome.next ((write_ywCmd h (c := 1) (g := 0) rfl rfl).trans (shutdownTest_begins ha hn hr hu hv))
  case wave => exact fun g u s hg ht hu => nextWave_testable hg ht hu
  case resident =>
    intro a s h ha hn
    refine congrArg Host.Outcome.next ((write_ywCmd h (c := 1) (g := 0) rfl rfl).trans ?_)
    simp only [ywCmd, shutdownTest, ha, hn, Bool.not_true, Bool.false_eq_true, if_true, if_false]
  case yields =>
    intro a s h hy hv
    exact congrArg Host.Outcome.next ((write_ywCmd h (c := 2) (g := 0) rfl rfl).trans (yieldGrant_waiting hy hv))
  case now =>
    intro a c s h hc ha
    rw [exec_ywTestNow h, if_neg (by omega), if_pos ha]
  case noCluster =>
    intro a c s h hc
    rw [exec_ywTestNow h, if_pos hc]
  case refused =>
    intro a c s h hc ha
    rw [exec_ywTestNow h, if_neg (by omega), if_neg (by simp [ha])]
  case enters =>
    intro a s h ha hr
    exact congrArg Host.Outcome.next ((write_ywCmd h (c := 4) (g := 0) rfl rfl).trans (rawEnter_allowed ha hr))
  case leaves =>
    intro a s h h5
    exact congrArg Host.Outcome.next ((write_ywCmd h (c := 5) (g := 0) rfl rfl).trans (if_pos h5))
  case writes => exact fun a v w s h hr hw => congrArg Host.Outcome.next (write_ywRaw_word h hr hw)
  case trims => exact fun a v s h hr hc => congrArg Host.Outcome.next (write_ywRawTrim_cluster h hr hc)
  case reads => exact fun a w s h hr hw => congrArg Host.Outcome.next (read_ywRaw h hr hw)
  case readsTrim => exact fun a s h hr => congrArg Host.Outcome.next (read_ywRawTrim h hr)

end Sys2Proof.Machine

/-! SUPPORT. Hawthorn's commands behind HW_ARG and HW_CMD (R470–R488), its random source and its sessions. -/

namespace Sys2Proof.Machine

section
variable {s u : State} {a : Agent}

/-! ### HW_CMD (R484, R488) -/

/-- A command with an argument begins while none runs. -/
theorem write_hwArg_cmd {arg : Fin 281474976710656} {m : Nat} (h : writeOk s a (hwReg 0x110) (BitVec.ofNat 64 arg.val) = true)
    (hu : u = indexed s (hwReg 0x110) 0xFFFFFFFFFFFF arg) (h2 : writeOk u a (hwReg 0x108) (BitVec.ofNat 64 m) = true) (hm : m < 16)
    (hz : m ≠ 0) (hb : hwBusy u = false) :
    writeNum (writeNum s a (hwReg 0x110) arg) a (hwReg 0x108) m = hwCmd u m 0 :=
  hwArg_indexed h hu h2 hm hb hz

theorem hwCmd_busy {cmd mr : Nat} (h0 : cmd ≠ 0) (hb : hwBusy s = true) : hwCmd s cmd mr = report s hwPage 0x1108 := by
  simp only [hwCmd, h0, hb, if_true, if_false]

theorem hwCmd_attest (hb : hwBusy s = false) : hwCmd s 1 0 = wr (hwBegin s 1) (hwReg 0x160) 1 := by
  simp only [hwCmd, hb, Nat.reduceEqDiff, Bool.false_eq_true, if_false]

theorem hwCmd_debugOpen (hb : hwBusy s = false) : hwCmd s 2 0 = hwBegin s 2 := by
  simp only [hwCmd, hb, Nat.reduceEqDiff, Bool.false_eq_true, if_false]

theorem hwCmd_debugClose (hb : hwBusy s = false) (hs : s.sec.session.isSome = true) : hwCmd s 3 0 = endSession (hwBegin s 3) 1 := by
  simp only [hwCmd, hb, hs, Nat.reduceEqDiff, Bool.false_eq_true, if_true, if_false]

theorem hwCmd_lcAdvance (hb : hwBusy s = false) : hwCmd s 4 0 = hwBegin s 4 := by
  simp only [hwCmd, hb, Nat.reduceEqDiff, Bool.false_eq_true, if_false]

/-- EXTEND reaches the two measurement registers that are open to it. -/
theorem hwCmd_extend {mr : Nat} (hb : hwBusy s = false) : hwCmd s 5 mr =
    if mr = 6 || mr = 7 then extendMr (hwBegin s 5) mr (regBytes s (hwReg 0x1C0)) else ignored s hwPage := by
  simp only [hwCmd, hb, Nat.reduceEqDiff, Bool.false_eq_true, if_false]

theorem hwCmd_epochCommit (hb : hwBusy s = false) : hwCmd s 6 0 = epochCommit (hwBegin s 6) := by
  simp only [hwCmd, hb, Nat.reduceEqDiff, Bool.false_eq_true, if_false]

theorem hwCmd_dbgHold (hb : hwBusy s = false) :
    hwCmd s 7 0 = if debugLevel s = 2 then dbgHold (hwBegin s 7) else setErr s hwPage 1 := by
  simp only [hwCmd, hb, Nat.reduceEqDiff, Bool.false_eq_true, if_false]

theorem hwCmd_dbgRelease (hb : hwBusy s = false) (hd : debugLevel s = 2) : hwCmd s 8 0 = dbgRelease (hwBegin s 8) := by
  simp only [hwCmd, hb, hd, Nat.reduceEqDiff, Bool.false_eq_true, if_true, if_false]

theorem hwCmd_fenceLogClear (hb : hwBusy s = false) :
    hwCmd s 9 0 = if rawAllowed s then fenceLogClear (hwBegin s 9) else setErr s hwPage 1 := by
  simp only [hwCmd, hb, Nat.reduceEqDiff, Bool.false_eq_true, if_false]

theorem exec_hwExtend {mr : Fin 16} (h : writeOk s a (hwReg 0x108) (BitVec.ofNat 64 (place 8 4 mr.val + 5)) = true)
    (hb : hwBusy s = false) : exec (.hwExtend a mr) s = .next
      (if mr.val = 6 || mr.val = 7 then extendMr (hwBegin s 5) mr (regBytes s (hwReg 0x1C0)) else ignored s hwPage) := by
  have hmr : mr.val < 2 ^ 4 := mr.isLt
  exact congrArg Host.Outcome.next ((write_hwCmd h (c := 5) (g := mr.val)
    (fieldOf_place_low hmr (by decide) (by decide) (by decide)) (fieldOf_place_high hmr (by decide) (by decide))).trans
    (hwCmd_extend hb))

/-- A command performed ends: BUSY clears and source 383 is raised. -/
theorem exec_hwCommandDone_over {r : Nat × Nat × Option Nat} (hr : s.sec.running = some r)
    (hp : hwPerform s r.1 r.2.1 r.2.2 = (true, u)) (hh : u.time.held = false) :
    exec .hwCommandDone s = .next (raise (setBusy { u with sec := { u.sec with running := none } } false) 383) := by
  show execHwCommandDone s = _
  unfold execHwCommandDone
  simp only [hr, hp, hh, Bool.not_true, Bool.false_eq_true, if_false]

/-- A command whose data are still to come goes on. -/
theorem exec_hwCommandDone_waits {r : Nat × Nat × Option Nat} (hr : s.sec.running = some r)
    (hp : hwPerform s r.1 r.2.1 r.2.2 = (false, u)) : exec .hwCommandDone s = .next u := by
  show execHwCommandDone s = _
  unfold execHwCommandDone
  simp only [hr, hp, Bool.not_false, if_true]

/-! ### The random source and the sessions (R466, R470, R482) -/

/-- A read of HW_CHAL_0 draws a challenge first. -/
theorem read_hwChal (h : readOk s a (hwReg 0x120) = true) :
    readBy s a (hwReg 0x120) = emit (drawChallenge s) (.regRead a 0 (rd (drawChallenge s) (hwReg 0x120))) := by
  unfold hwReg at *
  rw [regRead_dev (x := .hawthorn) (i := 0) (by decide) h rfl rfl]
  rfl

theorem exec_trngRetest {ok : Bool} (ht : s.sec.trngOk = false) (hd : s.sec.trngDt + 1000000000 ≤ now s) :
    exec (.trngRetest ok) s = .next (if ok then { s with sec := { s.sec with trngOk := true } }
      else report { s with sec := { s.sec with trngDt := now s } } hwPage 0x110A) :=
  congrArg Host.Outcome.next (if_neg (by simp [ht, hd]))

theorem exec_sessionExpired {x : Session} (hx : s.sec.session = some x) :
    exec .sessionExpired s = .next (if x.notAfter ≤ now s then endSession s 2 else s) := by
  show execSessionExpired s = _
  unfold execSessionExpired
  simp only [hx]

end

/-- Settles O48: each HW_CMD by the page's rule, then the end of a command, the random source and the sessions. -/
theorem securityCommands : Obligations.SecurityCommands := by
  refine ⟨?attest, ?debug, ?advance, ?closes, ?busy, ?measures, ?noMeasure, ?epoch, ?holds, ?noHold, ?releases, ?clears, ?noClear, ?ended,
    ?waits, ?challenge, ?fails, ?healthy, ?failsAgain, ?expired, ?running⟩
  case attest =>
    intro a arg u s h hu h2 hb
    exact congrArg Host.Outcome.next ((write_hwArg_cmd h hu h2 (by decide) (by decide) hb).trans (hwCmd_attest hb))
  case debug =>
    intro a arg u s h hu h2 hb
    exact congrArg Host.Outcome.next ((write_hwArg_cmd h hu h2 (by decide) (by decide) hb).trans (hwCmd_debugOpen hb))
  case advance =>
    intro a arg u s h hu h2 hb
    exact congrArg Host.Outcome.next ((write_hwArg_cmd h hu h2 (by decide) (by decide) hb).trans (hwCmd_lcAdvance hb))
  case closes =>
    intro a s h hb hs
    exact congrArg Host.Outcome.next ((write_hwCmd h (c := 3) (g := 0) rfl rfl).trans (hwCmd_debugClose hb hs))
  case busy =>
    intro a s h hb
    exact congrArg Host.Outcome.next ((write_hwCmd h (c := 3) (g := 0) rfl rfl).trans (hwCmd_busy (by decide) hb))
  case measures =>
    intro a mr s h hb hm
    rw [exec_hwExtend h hb, if_pos]
    obtain rfl | rfl := hm <;> rfl
  case noMeasure =>
    intro a mr s h hb h6 h7
    rw [exec_hwExtend h hb, if_neg]
    simp only [Bool.or_eq_true, decide_eq_true_eq, not_or]
    exact ⟨fun h => h6 (Fin.ext h), fun h => h7 (Fin.ext h)⟩
  case epoch =>
    intro a s h hb
    exact congrArg Host.Outcome.next ((write_hwCmd h (c := 6) (g := 0) rfl rfl).trans (hwCmd_epochCommit hb))
  case holds =>
    intro a s h hb hd
    exact congrArg Host.Outcome.next ((write_hwCmd h (c := 7) (g := 0) rfl rfl).trans ((hwCmd_dbgHold hb).trans (if_pos hd)))
  case noHold =>
    intro a s h hb hd
    exact congrArg Host.Outcome.next ((write_hwCmd h (c := 7) (g := 0) rfl rfl).trans ((hwCmd_dbgHold hb).trans (if_neg hd)))
  case releases =>
    intro a s h hb hd
    exact congrArg Host.Outcome.next ((write_hwCmd h (c := 8) (g := 0) rfl rfl).trans (hwCmd_dbgRelease hb hd))
  case clears =>
    intro a s h hb hr
    exact congrArg Host.Outcome.next ((write_hwCmd h (c := 9) (g := 0) rfl rfl).trans ((hwCmd_fenceLogClear hb).trans (if_pos hr)))
  case noClear =>
    intro a s h hb hr
    exact congrArg Host.Outcome.next ((write_hwCmd h (c := 9) (g := 0) rfl rfl).trans
      ((hwCmd_fenceLogClear hb).trans (if_neg (Bool.eq_false_iff.1 hr))))
  case ended => exact fun r u s hr hp hh => exec_hwCommandDone_over hr hp hh
  case waits => exact fun r u s hr hp => exec_hwCommandDone_waits hr hp
  case challenge => exact fun a s h => congrArg Host.Outcome.next (read_hwChal h)
  case fails => exact fun s => rfl
  case healthy => exact fun s ht hd => (exec_trngRetest ht hd).trans (congrArg Host.Outcome.next (if_pos rfl))
  case failsAgain => exact fun s ht hd => (exec_trngRetest ht hd).trans (congrArg Host.Outcome.next (if_neg Bool.false_ne_true))
  case expired =>
    intro x s hx hn
    rw [exec_sessionExpired hx, if_pos hn]
  case running =>
    intro x s hx hn
    rw [exec_sessionExpired hx, if_neg (Nat.not_le.2 hn)]

end Sys2Proof.Machine

/-! SUPPORT. The module's pins and test access port (R485, R508–R513), and the operations of its I3C target (R514–R516). -/

namespace Sys2Proof.Machine

section
variable {s u : State} {boot : Bool} {slot : Fin 8}

/-! ### Resets of the module (R508–R510) -/

theorem exec_modRstNRelease_rises (hl : s.module.rstLow = true)
    (hu : u = sampleStraps { s with module := { s.module with rstLow := false } } boot slot) :
    exec (.modRstNRelease boot slot) s = .next (if resetHeld u then u else releaseReset u) := by
  subst hu
  exact congrArg Host.Outcome.next (if_neg (by simp [hl]))

/-- Without a low before it there is no rise. -/
theorem exec_modRstNRelease_high (hl : s.module.rstLow = false) : exec (.modRstNRelease boot slot) s = .next s :=
  congrArg Host.Outcome.next (if_pos (by simp [hl]))

/-- The end of a self-held reset releases it unless the pin is low. -/
theorem exec_selfResetRelease (hc : s.module.supplyFault = true ∨ s.module.overTemp = true)
    (hu : u = { s with module := { s.module with supplyFault := false, overTemp := false } }) :
    exec (.selfResetRelease boot slot) s = .next (if s.module.rstLow then u else releaseReset (sampleStraps u boot slot)) := by
  subst hu
  exact congrArg Host.Outcome.next (if_pos (by simpa using hc))

/-! ### The test access port (R485) -/

/-- The instruction that the test access port takes for `op`: BYPASS where the life cycle does not allow it. -/
def tapTakes (s : State) (op : Nat) : Nat :=
  if op ≤ 1 || (debugLevel s == 3 && (lifeCycle s == 1 || lifeCycle s == 4)) then op else 0

theorem exec_boundaryScan {op : Fin 5} : exec (.boundaryScan op) s = .next
    (emit { s with module := { s.module with jtag := tapTakes s op } } (.jtag (tapTakes s op))) := rfl

theorem tapTakes_allowed {op : Nat} (h : op ≤ 1 ∨ (debugLevel s = 3 ∧ (lifeCycle s = 1 ∨ lifeCycle s = 4))) : tapTakes s op = op :=
  if_pos (by simpa using h)

theorem tapTakes_bypass {op : Nat} (h1 : 1 < op) (h : debugLevel s ≠ 3 ∨ (lifeCycle s ≠ 1 ∧ lifeCycle s ≠ 4)) : tapTakes s op = 0 := by
  refine if_neg ?_
  simp only [Bool.or_eq_true, Bool.and_eq_true, decide_eq_true_eq, beq_iff_eq]
  omega

end

/-- Settles O49: each pin and each instruction by its own meaning. -/
theorem moduleSignals : Obligations.ModuleSignals := by
  refine ⟨?low, ?supply, ?hot, ?rises, ?high, ?released, ?address, ?takes, ?bypass⟩
  case low => exact fun s => rfl
  case supply => exact fun s => rfl
  case hot => exact fun s => rfl
  case rises => exact fun boot slot u s hl hu => exec_modRstNRelease_rises hl hu
  case high => exact fun boot slot s hl => exec_modRstNRelease_high hl
  case released => exact fun boot slot u s hc hu => exec_selfResetRelease hc hu
  case address => exact fun addr s => rfl
  case takes =>
    intro op s h
    rw [exec_boundaryScan, tapTakes_allowed h]
  case bypass =>
    intro op s h1 h
    rw [exec_boundaryScan, tapTakes_bypass h1 h]

section
variable {s u : State} {addr : Fin 281474976710656} {v : W64}

/-! ### Operations (R514, R515) -/

/-- An operation that finds no result waiting is counted and performed. -/
theorem i3cOp_counted {f : State → State} (hr : s.module.result = none) (hd : s.module.read = none)
    (hu : u = incWrap s (i3cReg 0x080) 1) : i3cOp s f = f u := by
  subst hu
  simp only [i3cOp, hr, hd, Option.isSome_none, Bool.false_eq_true, if_false]

/-- An operation that comes before the last result was read turns that result's status to 5. -/
theorem i3cOp_early {f : State → State} {r : Nat × Nat} (hr : s.module.result = some r) :
    i3cOp s f = { s with module := { s.module with result := some (5, r.2) } } := by
  simp only [i3cOp, hr]

/-- What a read leaves for the result read. -/
def i3cReadAt (addr : Nat) (u : State) : State :=
  if i3cAsleep u then i3cResult u 4 0
  else if addr % 8 != 0 then i3cResult u 1 0
  else match regionOf addr with
    | .unmapped => i3cResult (unmapped u .bmc addr) 1 0
    | .lpddr =>
      if !dramMapped u addr 8 then i3cResult (unmapped u .bmc addr) 1 0
      else if inTfsRing u addr && !halted u then i3cMemRead u addr else i3cResult u 2 0
    | .pad => i3cResult u 2 0
    | .companion => i3cResult u 2 0
    | .regs => i3cResult (regRead u .bmc addr).2.2 (i3cStatus (regRead u .bmc addr).1) (regRead u .bmc addr).2.1.toNat

/-- What a write leaves for the result read. -/
def i3cWriteAt (addr : Nat) (v : W64) (u : State) : State :=
  if i3cAsleep u then i3cResult u 4 0
  else if addr % 8 != 0 then i3cResult u 1 0
  else match regionOf addr with
    | .unmapped => i3cResult (unmapped u .bmc addr) 1 0
    | .regs => i3cResult (regWrite u .bmc addr v).2 (i3cStatus (regWrite u .bmc addr v).1) 0
    | .lpddr => i3cResult u 2 0
    | .pad => i3cResult u 2 0
    | .companion => i3cResult u 2 0

theorem exec_i3cReadOp : exec (.i3cReadOp addr) s = .next (i3cOp s (i3cReadAt addr.val)) := rfl

theorem exec_i3cWriteOp : exec (.i3cWriteOp addr v) s = .next (i3cOp s (i3cWriteAt addr.val v)) := rfl

theorem exec_i3cReadOp_counted (hr : s.module.result = none) (hd : s.module.read = none) (hu : u = incWrap s (i3cReg 0x080) 1) :
    exec (.i3cReadOp addr) s = .next (i3cReadAt addr.val u) := by
  rw [exec_i3cReadOp, i3cOp_counted hr hd hu]

theorem exec_i3cWriteOp_counted (hr : s.module.result = none) (hd : s.module.read = none) (hu : u = incWrap s (i3cReg 0x080) 1) :
    exec (.i3cWriteOp addr v) s = .next (i3cWriteAt addr.val v u) := by
  rw [exec_i3cWriteOp, i3cOp_counted hr hd hu]

variable {x : Nat}

theorem i3cAt_asleep (h : i3cAsleep u = true) : i3cReadAt x u = i3cResult u 4 0 ∧ i3cWriteAt x v u = i3cResult u 4 0 :=
  ⟨if_pos h, if_pos h⟩

theorem i3cAt_misaligned (h : i3cAsleep u = false) (h8 : x % 8 ≠ 0) :
    i3cReadAt x u = i3cResult u 1 0 ∧ i3cWriteAt x v u = i3cResult u 1 0 := by
  simp only [i3cReadAt, i3cWriteAt, h, bne_iff_ne.2 h8, Bool.false_eq_true, if_true, if_false, and_self]

theorem i3cAt_unmapped (h : i3cAsleep u = false) (h8 : x % 8 = 0) (hx : regionOf x = .unmapped) :
    i3cReadAt x u = i3cResult (unmapped u .bmc x) 1 0 ∧ i3cWriteAt x v u = i3cResult (unmapped u .bmc x) 1 0 := by
  simp only [i3cReadAt, i3cWriteAt, h, h8, hx, bne_self_eq_false, Bool.false_eq_true, if_false, and_self]

/-- The scratchpads and the companion's memory are no business of the board management controller. -/
theorem i3cAt_refused (h : i3cAsleep u = false) (h8 : x % 8 = 0) (hx : regionOf x = .pad ∨ regionOf x = .companion) :
    i3cReadAt x u = i3cResult u 2 0 ∧ i3cWriteAt x v u = i3cResult u 2 0 := by
  obtain hx | hx := hx <;>
    simp only [i3cReadAt, i3cWriteAt, h, h8, hx, bne_self_eq_false, Bool.false_eq_true, if_false, and_self]

theorem i3cReadAt_regs (h : i3cAsleep u = false) (h8 : x % 8 = 0) (hx : regionOf x = .regs) : i3cReadAt x u =
    i3cResult (regRead u .bmc x).2.2 (i3cStatus (regRead u .bmc x).1) (regRead u .bmc x).2.1.toNat := by
  simp only [i3cReadAt, h, h8, hx, bne_self_eq_false, Bool.false_eq_true, if_false]

theorem i3cReadAt_ring (h : i3cAsleep u = false) (h8 : x % 8 = 0) (hx : regionOf x = .lpddr) (hi : inTfsRing u x = true)
    (hh : halted u = false) (hm : dramMapped u x 8 = true) : i3cReadAt x u = i3cMemRead u x := by
  simp only [i3cReadAt, h, h8, hx, hi, hh, hm, bne_self_eq_false, Bool.not_true, Bool.not_false, Bool.and_self, Bool.false_eq_true,
    if_true, if_false]

theorem i3cWriteAt_regs (h : i3cAsleep u = false) (h8 : x % 8 = 0) (hx : regionOf x = .regs) : i3cWriteAt x v u =
    i3cResult (regWrite u .bmc x v).2 (i3cStatus (regWrite u .bmc x v).1) 0 := by
  simp only [i3cWriteAt, h, h8, hx, bne_self_eq_false, Bool.false_eq_true, if_false]

theorem exec_i3cWakeOp : exec .i3cWakeOp s = .next (i3cOp s (fun u => i3cResult (wakeDevice u) 0 0)) := rfl

/-- A result that waits is sent once. -/
theorem exec_i3cResultRead_sent {r : Nat × Nat} (hr : s.module.result = some r) (hd : s.module.read = none) :
    exec .i3cResultRead s = .next (emit { s with module := { s.module with result := none } } (.i3cResult r.1 r.2)) := by
  show execI3cResultRead s = _
  unfold execI3cResultRead
  simp only [hd, hr]

end

/-- Settles O50: each operation by what its address and the device allow. -/
theorem moduleAccess : Obligations.ModuleAccess := by
  refine ⟨?reads, ?ring, ?writes, ?refused, ?bad, ?asleep, ?wakes, ?early, ?result⟩
  case reads =>
    intro addr u s hr hd hu ha h8 hx
    rw [exec_i3cReadOp_counted hr hd hu, i3cReadAt_regs ha h8 hx]
  case ring =>
    intro addr u s hr hd hu ha h8 hx hi hh hm
    rw [exec_i3cReadOp_counted hr hd hu, i3cReadAt_ring ha h8 hx hi hh hm]
  case writes =>
    intro addr v u s hr hd hu ha h8 hx
    rw [exec_i3cWriteOp_counted hr hd hu, i3cWriteAt_regs ha h8 hx]
  case refused =>
    intro addr v u s hr hd hu ha h8 hx
    obtain ⟨hread, hwrite⟩ := i3cAt_refused (v := v) ha h8 hx
    rw [exec_i3cReadOp_counted hr hd hu, exec_i3cWriteOp_counted hr hd hu, hread, hwrite]
    exact ⟨rfl, rfl⟩
  case bad =>
    intro addr v u w s hr hd hu ha hx
    have hboth : i3cReadAt addr.val u = i3cResult w 1 0 ∧ i3cWriteAt addr.val v u = i3cResult w 1 0 := by
      obtain ⟨h8, rfl⟩ | ⟨h8, hx, rfl⟩ := hx
      · exact i3cAt_misaligned ha h8
      · exact i3cAt_unmapped ha h8 hx
    rw [exec_i3cReadOp_counted hr hd hu, exec_i3cWriteOp_counted hr hd hu, hboth.1, hboth.2]
    exact ⟨rfl, rfl⟩
  case asleep =>
    intro addr v u s hr hd hu ha
    obtain ⟨hread, hwrite⟩ := i3cAt_asleep (v := v) (x := addr.val) ha
    rw [exec_i3cReadOp_counted hr hd hu, exec_i3cWriteOp_counted hr hd hu, hread, hwrite]
    exact ⟨rfl, rfl⟩
  case wakes =>
    intro s hr hd
    rw [exec_i3cWakeOp, i3cOp_counted hr hd rfl]
  case early =>
    intro addr v r u s hr hu
    rw [exec_i3cReadOp, exec_i3cWriteOp, exec_i3cWakeOp, i3cOp_early hr, i3cOp_early hr, i3cOp_early hr, hu]
    exact ⟨rfl, rfl, rfl⟩
  case result => exact fun r s hr hd => exec_i3cResultRead_sent hr hd

end Sys2Proof.Machine
